-- ==== Sys2Proof/Word.lean ====
section
/-!
DEFINITION. Sys2Proof/Word.lean: the word types of the AG4096 and their plainest arithmetic
(00_scope.md, Table SCP-6: registers are 32 bits wide, little endian).
-/
namespace Sys2Proof

/-- One 32-bit register word. -/
abbrev Word := BitVec 32

/-- One byte of the segment store or of a frame. -/
abbrev Byte := BitVec 8

/-- One 16-bit reason code: class in [15:12], detail in [11:0] (R19, Table FEN-6). -/
abbrev Reason := BitVec 16

/-- A beat number: a 56-bit unsigned count (02_beat_and_time.md, "The beat number"). -/
abbrev BeatNo := BitVec 56

end Sys2Proof
end

