-- ==== Sys2Proof/Syntax.lean ====
section
/-!
DEFINITION. Sys2Proof/Syntax.lean: the commands the block takes, with their operands. What only the world outside
can say (an analog reading, an instant, the bytes of a message) is an operand; everything else a command finds in State.
-/
namespace Sys2Proof

/-- The port an access comes from: the host port, the SPI service port, or the remote window of another device.
`ro` marks a read-only service port (R263), whose reads neither pop, clear nor latch. -/
inductive Port | host | spi | spiRo | window | windowRo
  deriving DecidableEq, Repr

/-- A two-level strap or tri-level pin as the strap read finds it (R96, Table STR-3). -/
inductive Level | low | high | open_
  deriving DecidableEq, Repr

/-- One strap read: levels, and the two passes on each resistor-coded pin in ohms, none when open (R101, R105). -/
structure StrapRead where
  /-- Microseconds from PORST_L release to the end of the read (R104, R116). -/
  us : Nat
  role1 : Level
  role0 : Level
  refsel1 : Level
  refsel0 : Level
  hostsel : Level
  /-- The tri-level pins; none when the reading is unstable. -/
  safea : Option Level
  safeb : Option Level
  posn : Option Nat × Option Nat
  hpset : Option Nat × Option Nat
  mnom : Option Nat × Option Nat
  chgset : Option Nat × Option Nat
  /-- Voltages of VIO_A to VIO_D in mV (R888). -/
  vio : List Nat
  /-- The backup cell ran out, or the supervisor found its VBKP domain without power (R143, R189). -/
  bkpOut : Bool
  /-- A VAUX power-on reset coincides (R143). -/
  vauxPor : Bool
  /-- PERST_L has been asserted again since its last release (R119). -/
  perst : Bool := false
  /-- PORST_L is asserted again before the read ends (R137). -/
  cut : Bool := false
  deriving DecidableEq, Repr

/-- A rail below its minimum: 0 VCORE, 1 VSER, 2 VANA, 3 VAUX, 4 to 7 VIO_A to VIO_D, and its voltage in mV (Table PWR-4). -/
structure RailUv where
  rail : Fin 8
  mv : BitVec 16
  deriving DecidableEq, Repr

/-- A clock fault: 0 REF_LOSS, 1 REF_FREQ, 2 SPLL_UNLOCK (R212), and whether it is a reserve's own REFCLK that fails (R211). -/
structure ClockLoss where
  kind : Fin 3
  refclk : Bool
  deriving DecidableEq, Repr

/-- The BAR0 offset of an access, and what hardware does to that register in the same core cycle: on a read what events add to its rc
fields, on a write the w1c bits set and the rw bits updated (R16, R17, R868). -/
structure RegAt where
  a : BitVec 20
  same : Word
  deriving DecidableEq, Repr

/-- What the supervisor and the front ends measure in one beat (Table SYS-3). -/
structure BeatIn where
  /-- DCSENSE and VBKP in mV; VCHG in mV, the current into the backup cell in µA, and a charger fault (Table PWR-7). -/
  dc : Nat
  vbkp : Nat
  vchg : Nat
  chgCur : Nat
  chgFault : Bool
  /-- Area deficit in percent of one expected half-cycle area (Table PWR-4): against the tracked phase, and against the nominal
  frequency of MNOM (R170). -/
  deficit : Nat
  deficitNom : Nat
  /-- A half-cycle ended at this sample: its RMS in 0.1 % of the nominal front-end scaling, before SUP_MGAIN, and the tracked frequency
  in 0.001 Hz. -/
  half : Option (Nat × Nat)
  /-- The zero crossing that ended it is a rising one. -/
  rising : Bool
  /-- Frequency tracking holds. -/
  tracking : Bool
  /-- A rail that SUPPLY_UV watches is below its minimum. -/
  uv : Bool
  /-- Die temperature in °C (ASY_TEMP). -/
  temp : BitVec 8
  /-- Fence domains of units that would not finish this beat's work (R23). -/
  overrun : List (Fin 117)
  /-- Invalid sync headers seen on sides A and B. -/
  sync : Nat × Nat
  deriving DecidableEq, Repr

/-- What LEDGER_MOUNT reads: superblocks and checkpoint blocks that read invalid (R369, R397), and the time. -/
structure MountIn where
  us : Nat
  badA : Bool
  badB : Bool
  badBlocks : List Nat
  deriving DecidableEq, Repr

/-- What replay reads: slots at the head that read invalid (R401), whether a valid record lies in the 8 slots
beyond (R402), the time from PORST_L release, and how long replay took (LDG_REPLAY_T), both in µs. -/
structure ReplayIn where
  us : Nat
  dur : Nat
  torn : Nat
  gap : Bool
  deriving DecidableEq, Repr

/-- What a catch-up starts from: the manager's newest checkpoint, of which the reserve takes the identity, the next hallmark and,
per ring, the expected sequence and the last accepted hallmark (R388). -/
structure CkptIn where
  sysId : BitVec 64
  nextHm : BitVec 48
  rings : List (Fin 512 × Word × BitVec 48)
  /-- ID and milestone of the newest applied commit (R711). -/
  commitId : Word
  commitMs : BitVec 56
  deriving DecidableEq, Repr

/-- What a LEDGER message carries (R126, R404, R413, R792): the declaration of a device: role capability, ports that HPSET enables,
die serial number, system identity, last applied beat number, pending UNCONFIRMED reports, and the jobs that it holds (with
whether each is bound); an outcome; or an entry of its reason log. -/
inductive LedgerIn where
  | declare (cap : Fin 4) (hpset : Fin 17) (serial sysId : BitVec 64) (last : BitVec 56) (unconf : Nat)
      (held : List (BitVec 48 × Bool))
  | outcome (hm : BitVec 48) (typ : Fin 8) (reason : BitVec 16) (bn : BitVec 56) (d0 : Word) (d1 : BitVec 16)
  | log (dom : BitVec 16) (reason : BitVec 16) (inc : BitVec 8) (clear : Bool) (bn : BitVec 56)
  deriving DecidableEq, Repr

/-- A DISPATCH message: hallmark, the tag of R745, job ring, accept beat and the waybill (Table RNG-7). -/
structure DispatchIn where
  hm : BitVec 48
  tag : BitVec 12
  ring : Fin 512
  acceptBn : BitVec 56
  body : List Word
  deriving DecidableEq, Repr

/-- What only another device, the executor of a ring or the device of its trigger, can say when a waybill for another position is examined
(Table JOB-5): the fenced domain and reason, the first reference that is not configured (Table JOB-9), whether a CALENDAR tally
is set, columns per port, edges per output and occupancy per player, the largest lead, ENC_VMAX, the GLITCH of the trigger
input, and whether the waybill would add a reference that a commit in progress tests (R687). -/
structure FarExec where
  fenced : Option (BitVec 16 × BitVec 16)
  missing : Option (Fin 4)
  calendar : Bool
  cols : List (Fin 16 × Nat)
  edges : List (Fin 32 × Nat)
  occ : List (Fin 16 × Nat)
  lead : Nat
  vmax : Nat
  glitch : Nat
  frozen : Bool
  deriving DecidableEq, Repr

/-- A LOAD message: destination offset or stream player, and its bytes. -/
structure LoadIn where
  dst : BitVec 24
  stream : Bool
  player : Fin 16
  bytes : List Byte
  deriving DecidableEq, Repr


/-- What an assay attempt has measured: coefficient sets by line (outputs 0 to 31, markers 32 to 47, TDCs 48 to 63), the pin skew
or input offset in FS, what RSKEW adds to D_CW and D_CCW by position in ps, and whether the preconditions that only the
pins show held to the end and the result lies in the correctable range (Table ASY-3). -/
structure AssayIn where
  sets : List (Fin 64 × List Int)
  offset : Int
  skews : List (Fin 32 × Int × Int)
  quiet : Bool
  inRange : Bool
  deriving DecidableEq, Repr

/-- The status slot of one position in a frame (Table RNG-5), with its report items (Table RNG-6). An item that reports an outcome
comes with its event beat (Table JOB-7), for which the item has no field. -/
structure SlotIn where
  pos : Fin 32
  s0 : BitVec 64
  items : List (Word × BitVec 56)
  deriving DecidableEq, Repr

/-- A ring frame as it arrives on a side (Tables RNG-1 to RNG-3, RNG-5, R741): what its CRC, POISON and VOID say, the origin of its
mark, its header, binding slots, status slots and bulk control block. What the ring tells a device and Table RNG-1 has no field for comes with it: per job
ring, the highest hallmark whose TERM record the manager has sealed (Table LDG-4), and the positions whose hop clockwise is down. -/
structure FrameIn where
  /-- Microseconds from PORST_L release (R116). -/
  us : Nat
  crcOk : Bool
  poison : Bool
  void : Bool
  origin : Fin 32
  h0 : BitVec 64
  h1 : BitVec 64
  h2 : BitVec 64
  binds : List (BitVec 64)
  slots : List SlotIn
  /-- The bulk control block (R749). -/
  bulk : BitVec 64
  confirmed : List (Fin 512 × BitVec 48)
  cuts : List (Fin 32)
  deriving DecidableEq, Repr

/-- A PROV message (Table RNG-7): identity and beat number of step 2; the image of step 4 with the provision set, registers that it does
not name at their reset values; the FENCE of R789; a handover beat (R767); a DISCARD (R682); to the reserve, a register that the
manager has written through the window: of the stage image of a position, or of its provision set (R865); and the words of job rings
that a commit of the manager alone has changed (R314). -/
inductive ProvIn where
  | identity (sysId : BitVec 64) (bn : BitVec 56)
  | image (first : Bool) (words : List (BitVec 20 × Word))
  | fence (reason : BitVec 16)
  | handover (h : BitVec 56)
  | discard
  | note (pos : Fin 32) (staged : Bool) (a : BitVec 20) (w : Word)
  | rings (words : List (BitVec 20 × Word))
  deriving DecidableEq, Repr

/-- A REG message (R768, R874): an access at its target, with the data of a write, SCC_VIEW of the issuing port and whether that port
is read-only; or the reply to the oldest access of that kind outstanding at a position. -/
inductive RegIn where
  | access (a : BitVec 20) (write : Option Word) (view : Bool) (ro : Bool)
  | reply (pos : Fin 32) (inc : BitVec 8) (write : Bool) (w : Word)
  deriving DecidableEq, Repr


/-- An instruction of the test access port (R900 to R902). -/
inductive TapInstr where
  | bypass | sample | extest | intest | clamp
  | factory (code : Nat)
  deriving DecidableEq, Repr

/-- The commands of the AG4096: one constructor per row of spec/opcode_table.json, in the table's order. -/
inductive Instr where
  /-- BEAT_EDGE (R48): Every 240 core cycles the beat number advances and the device runs the Edge, Gather, Decide, Prepare and Seal phases of the new beat. -/
  | beatEdge (i : BeatIn)
  /-- CEILING_REWRITE (R52): A beat number within 2^19 of the ceiling causes a CEIL record at the current BN plus 2^20. -/
  | ceilingRewrite
  /-- CHECKPOINT (R396): Every 65 536 beats, the device writes a checkpoint into the next checkpoint block. -/
  | checkpoint
  /-- SUPERBLOCK_WRITE (R368): At least once every 2^36 beats, the device writes the next superblock copy. -/
  | superblockWrite
  /-- CARRY_RECORD (R391): A log head within 1 024 slots of a needed record causes a CARRY, or a rewritten ARMED group. -/
  | carryRecord
  /-- CAL_OSC_TICK (R69): Without the locked core clock, each 32.768 kHz tick advances the true calendar by 131 072 units. -/
  | calOscTick
  /-- COLD_START (R112): Release of PORST_L after a qualifying low pulse starts a cold start. -/
  | coldStart (lowNs : Nat) (r : StrapRead)
  /-- PORST_L_ASSERT (R137): Assertion of PORST_L abandons a strap read in progress. -/
  | porstLAssert
  /-- VAUX_POWER_ON_RESET (R143): A VAUX power-on reset inside the supervisor starts a cold start with cause 2. -/
  | vauxPowerOnReset (r : StrapRead)
  /-- BKP_EXHAUSTED (R189): VBKP below 2.62 V during HOLDUP, dormancy or PARK clears the dormancy flag and forces a cold start. -/
  | bkpExhausted (mains : Option StrapRead)
  /-- STRAP_LIVE_CHECK (R110): The periodic re-decode of straps reports STRAP_CHANGED on a difference and applies nothing. -/
  | strapLiveCheck (r : StrapRead)
  /-- SPLL_LOCK (R210): The SPLL declares lock after exactly its lock count. -/
  | spllLock (us : Nat)
  /-- SPLL_LOCK_TIMEOUT (R118): A reference that gives no lock within 100 ms leaves start-up continuing on holdover with timing outputs fenced. -/
  | spllLockTimeout (us : Nat) (kind : Fin 3)
  /-- SELF_CALIBRATION_DONE (R115): Delay-line self-calibration completes, and start-up moves to the next phase. -/
  | selfCalibrationDone (us : Nat) (sets : List (Fin 64 × List Int))
  /-- LEDGER_MOUNT (R399): Superblocks and block headers are read, and the newest valid checkpoint is selected or LDG_CORRUPT is held. -/
  | ledgerMount (m : MountIn)
  /-- REPLAY (R400): The log is replayed from the retained start to the head, rebuilding job, window, tally and time state. -/
  | replay (r : ReplayIn)
  /-- REPLAY_DECIDE (R405): Once every needed executor has reported, the manager decides each non-terminal job under Table LDG-5. -/
  | replayDecide
  /-- RING_SIDE_LOCK (R740): A ring side in LOCK that sees 64 valid sync headers per lane moves to ALIGN. -/
  | ringSideLock (side : Fin 2)
  /-- RING_SIDE_ALIGN (R740): Marks found on both lanes 4 times in a row move the side to PEER. -/
  | ringSideAlign (side : Fin 2)
  /-- RING_IDENT (R739): Eight identical IDENT blocks bring a side to UP, or hold it at POSN_DUPLICATE. -/
  | ringIdent (us : Nat) (side : Fin 2) (ident : BitVec 64) (running : Option (Fin 32 × BitVec 64))
  /-- RING_TRAINING_TIMEOUT (R740): A timed-out side training attempt returns the side to LOCK. -/
  | ringTrainingTimeout (us : Nat) (side : Fin 2)
  /-- CLAIM_MESSAGE (R129): A claim received during claim and census ranks the manager-capable devices. -/
  | claimMessage (us : Nat) (pos : Fin 32) (formatted : Bool) (sysId : BitVec 64)
  /-- CLAIM_TIMEOUT (R132): With no claim from the other manager-capable position within 500 ms, the device becomes manager without a reserve. -/
  | claimTimeout (us : Nat)
  /-- BEAT_ALIGNMENT_COMPLETE (R735): The two 65 536-beat measurements end, D_CW and D_CCW are set, and the device may reach READY. -/
  | beatAlignmentComplete (us : Nat) (loop : BitVec 24) (tab : List (Fin 32 × BitVec 24 × BitVec 24))
  /-- READY_WAIT_CLOCK_LOSS (R125): A worker that loses its ring clock in READY-WAIT returns to sub-phase 0x9. -/
  | readyWaitClockLoss
  /-- PERST_L_RELEASE (R119): Release of PERST_L starts PCI Express link training. -/
  | perstLRelease
  /-- PWR_CMD_RUN (R152): A RUN command is scheduled at an apply beat or refused. -/
  | pwrCmdRun (port : Port) (tgt : BitVec 6)
  /-- PWR_CMD_READY (R153): A READY command is scheduled at an apply beat, after which no new capture binds. -/
  | pwrCmdReady (port : Port) (tgt : BitVec 6)
  /-- PWR_CMD_STANDBY (R149): A STANDBY command is scheduled at an apply beat or refused. -/
  | pwrCmdStandby (port : Port) (tgt : BitVec 6)
  /-- PWR_CMD_PARK (R154): A PARK command is scheduled, optionally expiring dispatched jobs and isolating the ring repeater. -/
  | pwrCmdPark (port : Port) (tgt : BitVec 6) (expire : Bool) (isolate : Bool)
  /-- PWR_CMD_OFF (R156): An OFF command is scheduled for close-out into OFF. -/
  | pwrCmdOff (port : Port) (tgt : BitVec 6) (expire : Bool)
  /-- POWER_APPLY (R150): At the apply beat, the pending power command changes the target's state. -/
  | powerApply
  /-- READY_DRAIN_DONE (R484): When the last bound job is terminal after a READY command, DRAINING clears and outputs go safe. -/
  | readyDrainDone
  /-- PEN_TIMEOUT (R158): VCORE not in range within PWR_PENTMO deasserts PEN_CORE and raises PEN_TIMEOUT. -/
  | penTimeout
  /-- VCORE_GOOD (R159): VCORE in range during a PARK exit or resume releases the core domains from reset. -/
  | vcoreGood
  /-- WAKE_SIGNAL (R762): 1 µs of signal on an isolated device's ring receiver makes it leave PARK. -/
  | wakeSignal
  /-- BRACE_START (R175): At the brace beat, binding and admission stop, and jobs end under Table PWR-6. -/
  | braceStart
  /-- BRACE_CLOSEOUT_COMPLETE (R178): Close-out ends with jobs terminal, a checkpoint durable and every output safe. -/
  | braceCloseoutComplete
  /-- BRACE_CLEAR (R181): The BRACE clears once close-out, events, good half-cycles and DC bus all allow, into RUN or READY. -/
  | braceClear
  /-- DORMANCY_RESUME (R186): VAUX returning with the dormancy flag held resumes the device through Table PWR-3 into READY. -/
  | dormancyResume
  /-- SUPPLY_UV (R169): A rail below its minimum for 1 µs starts a BRACE. -/
  | supplyUv (rail : RailUv)
  /-- MAINS_PHASE_POINT (R173): An enabled mains phase point fires at its predicted beat as a trigger source. -/
  | mainsPhasePoint (n : Fin 4) (ci : Fin 240)
  /-- SUP_DCTHR_WRITE (R174): A DC threshold write is applied or refused with THR_ERR when the thresholds are misordered. -/
  | supDcthrWrite (port : Port) (second : Bool) (w : Word)
  /-- SUP_MEVT_POP (R168): A read of SUP_MEVT_CODE pops the oldest supply event and latches its words. -/
  | supMevtPop (port : Port)
  /-- CLOCK_FAULT (R214): A detected reference loss, frequency error or SPLL slip freezes the VCO, switches to holdover and fences timing outputs. -/
  | clockFault (kind : ClockLoss)
  /-- SPLL_FAIL (R216): No lock to holdover within 10 ms raises SPLL_FAIL and stops ring transmission. -/
  | spllFail
  /-- REF_QUALIFIED (R213): A reference present and in range for 65 536 cycles is qualified, and the return slew starts. -/
  | refQualified
  /-- SPLL_SLEW_DONE (R215): The VCO slew toward its target completes, and locking begins. -/
  | spllSlewDone
  /-- CORE_CLOCK_RETURN (R223): After relock, the core returns to VCO ÷ 8 at a beat boundary and HOLDOVER clears. -/
  | coreClockReturn
  /-- CLK_CMD_UNFENCE (R224): CLK_CMD.UNFENCE unfences the clock-fenced domains under HO_MANUAL. -/
  | clkCmdUnfence (port : Port)
  /-- AS_CMD_HOP (R233): A hop command loads a profile at its apply beat, holding outputs until lock and sync. -/
  | asCmdHop (port : Port) (w : BitVec 9)
  /-- AS_CMD_SYNC (R246): A SYNC command restarts outputs by a beat-scheduled sync. -/
  | asCmdSync (port : Port)
  /-- AS_CMD_RETURN (R243): A RETURN command brings the ASYN outputs back from bypass by a sync, or is refused. -/
  | asCmdReturn (port : Port)
  /-- AS_CMD_DIV_APPLY (R244): DIV_APPLY loads the shadow dividers at the apply beat. -/
  | asCmdDivApply (port : Port) (sync : Bool)
  /-- AS_CMD_SEARCH_ALL (R234): SEARCH_ALL band-searches and locks every profile, then returns to the active one. -/
  | asCmdSearchAll (port : Port)
  /-- AS_CMD_CANCEL (R232): CANCEL withdraws the pending ASYN command. -/
  | asCmdCancel (port : Port)
  /-- AS_APPLY (R232): The pending ASYN command takes effect at its apply beat. -/
  | asApply
  /-- BAND_SEARCH_DONE (R228): A band search ends, storing the band found or raising AS_BAND_FAIL. -/
  | bandSearchDone (found : Option (Fin 64))
  /-- AS_LOCK_DECLARE (R229): The ASYN declares lock after 512 phase-detector cycles. -/
  | asLockDeclare
  /-- AS_MONITOR_WINDOW (R235): At the end of each 65 536-cycle window, the VCO count is compared, raising LOCK_SUSPECT beyond 100 ppm. -/
  | asMonitorWindow (dev : Int)
  /-- AS_UNLOCK (R236): An ASYN cycle slip raises AS_UNLOCK. -/
  | asUnlock
  /-- MUX_NO_EDGE_TIMEOUT (R239): An old clock with no edge for 1 µs lets the multiplexer switch without it. -/
  | muxNoEdgeTimeout
  /-- BYPCLK_LOSS (R241): A bypass source with no edge for 1 µs raises BYPCLK_LOSS and holds outputs low. -/
  | bypclkLoss
  /-- CKSYNC_EDGE (R247): A rising CKSYNC edge resets the SYNCEN output dividers, or is ignored. -/
  | cksyncEdge
  /-- HOST_PORT_RESET (R268): A hot reset, link-down or PERST_L assertion resets only the host-port domain. -/
  | hostPortReset
  /-- FUNCTION_LEVEL_RESET (R270): An FLR resets the host-port domain within 1 ms. -/
  | functionLevelReset
  /-- D3HOT_ENTRY (R271): In D3hot, DMA and MSI-X stop while execution continues. -/
  | d3hotEntry
  /-- D0_RETURN (R271): A return to D0 resumes DMA, keeping host-interface registers. -/
  | d0Return
  /-- WAYBILL_READ_COMPLETE (R278): A waybill DMA read completes, and its waybills become available for examination. -/
  | waybillReadComplete (ring : Fin 512) (slots : List (List Word))
  /-- WAYBILL_READ_FAIL (R273): A failed waybill read is retried once, then disables the ring with HST_DMA_FAIL. -/
  | waybillReadFail (ring : Fin 512)
  /-- POISONED_WRITE (R274): A poisoned write to BAR0 or BAR2 is discarded and logged through AER. -/
  | poisonedWrite
  /-- BAR0_SIZE_ERROR (R267): A BAR0 access that is not an aligned 32-bit access has no effect and sets SIZE_ERR. -/
  | bar0SizeError (read : Bool)
  /-- STORE_WRITE (R522): A segment-store write is made, or discarded whole when it touches a protected range. -/
  | storeWrite (port : Port) (off : BitVec 24) (bytes : List Byte)
  /-- DOORBELL_WRITE (R277): A JR_DB write announces waybills or is refused. -/
  | doorbellWrite (port : Port) (ring : Fin 512) (w : Word)
  /-- SQ_ENABLE (R394): A JR_SQCFG.EN write enables a submission ring, unless the ALREADY windows would exceed their limit. -/
  | sqEnable (port : Port) (ring : Fin 512) (w : Word)
  /-- CQ_ENABLE (R280): Enabling a completion queue resets its counts and starts re-delivery. -/
  | cqEnable (port : Port) (q : Fin 16) (w : Word)
  /-- CQ_HEAD_WRITE (R284): A HEAD write advances consumption and the acknowledged point, or sets HEAD_ERR. -/
  | cqHeadWrite (port : Port) (q : Fin 16) (w : Word)
  /-- COMPLETION_POST (R283): A sealed record's completion entry is posted once queue room and the seal mode allow. -/
  | completionPost (q : Fin 16)
  /-- CQ_MODERATION_TIMEOUT (R288): TIME beats after the oldest unreported entry, the queue's vector is raised. -/
  | cqModerationTimeout (q : Fin 16)
  /-- MSIX_UNMASK (R290): Unmasking a vector with its PBA bit set sends its message. -/
  | msixUnmask (port : Port) (v : Fin 64)
  /-- HOST_GO (R293): HOST_GO on a new manager starts admission and completion posting. -/
  | hostGo (port : Port)
  /-- SPI_READ (R299): An SPI READ transaction returns its data words with a response and CRC. -/
  | spiRead (low : BitVec 6) (addr : BitVec 24) (crc : Byte) (far : List (Option Word))
  /-- SPI_WRITE (R298): An SPI WRITE transaction with a correct CRC is carried out. -/
  | spiWrite (low : BitVec 6) (addr : BitVec 24) (ws : List Word) (crc : Byte)
  /-- SPI_STATUS (R296): An SPI STATUS transaction returns HST_ISR0 and HST_ISR1. -/
  | spiStatus (op3 : Bool) (low : BitVec 6) (addr : BitVec 24) (crc : Byte)
  /-- SPI_ABORT (R300): SPI_CS_L rising before the request CRC ends makes no access and counts an abort. -/
  | spiAbort
  /-- HST_SUBGO (R301): On an SPI host, HST_SUBGO announces the waybill in HST_SUBW0–15 on a ring. -/
  | hstSubgo (port : Port) (ring : Fin 512)
  /-- HST_CQW7_READ (R302): A read of HST_CQW7 removes the oldest entry of the selected FIFO. -/
  | hstCqw7Read (port : Port)
  /-- WAYBILL_EXAMINE (R327): The Innkeeper applies the admission checks to a waybill and accepts, answers ALREADY or refuses. -/
  | waybillExamine (far : FarExec)
  /-- JOB_DISPATCH (R331): The manager sends an accepted job to its executor once its seal and dispatch window allow. -/
  | jobDispatch
  /-- DISPATCH_MESSAGE (R333): An executor receiving a DISPATCH message holds the job as DISPATCHED. -/
  | dispatchMessage (i : DispatchIn)
  /-- BIND_CAPTURE (R39): A capture binds to the oldest dispatched unbound job of each ring naming its source. -/
  | bindCapture
  /-- WAIT_EXPIRE (R334): The oldest unbound job whose WAIT is reached ends EXPIRED with EXP_NO_TRIGGER. -/
  | waitExpire (ring : Fin 512)
  /-- HOST_CANCEL_ONE (R343): A cancel with MODE 0 expires one accepted or dispatched, unbound job. -/
  | hostCancelOne (port : Port) (ring : Fin 512)
  /-- HOST_CANCEL_REST (R343): A cancel with MODE 1 expires the selected job and every later unbound job of the ring. -/
  | hostCancelRest (port : Port) (ring : Fin 512)
  /-- CANCEL_MESSAGE (R344): An executor applies a received cancel in the Decide phase, before binding. -/
  | cancelMessage (tags : List (BitVec 12))
  /-- JR_NEXTSEQ_WRITE (R321): A write of the expected sequence is journaled and empties the ALREADY window, or has no effect. -/
  | jrNextseqWrite (port : Port) (ring : Fin 512) (w : Word)
  /-- STRUCK_SEAL (R381): After the job's last edge and all FIRED reports, the executor seals STRUCK. -/
  | struckSeal (hm : BitVec 48)
  /-- TERM_SEAL (R382): The manager seals a job's TERM record once every earlier job of its ring is terminal. -/
  | termSeal (hm : BitVec 48)
  /-- LDG_FORMAT (R370): A keyed FORMAT erases the log and checkpoints and writes a new system identity. -/
  | ldgFormat (port : Port)
  /-- LDG_WRITE_OFF (R406): WRITE_OFF of a position ends its undecided jobs UNCONFIRMED with UNC_EXECUTOR_LOST. -/
  | ldgWriteOff (port : Port) (pos : Fin 32)
  /-- LDG_CHECKPOINT_NOW (R396): LDG_CMD.CHECKPOINT writes a checkpoint at once. -/
  | ldgCheckpointNow (port : Port)
  /-- MIRROR_MESSAGE (R384): The reserve seals mirrored records and bodies and acknowledges them. -/
  | mirrorMessage (ck : Option CkptIn) (recs : List (List Word)) (bodies : List (BitVec 48 × List Word)) (acks : List (Fin 16 × BitVec 48 × Bool))
  /-- MIRROR_LAG (R385): A record not dual-sealed within 4 beats raises LDG_MIRROR_LAG and counts as single-sealed. -/
  | mirrorLag
  /-- CATCHUP_COMPLETE (R388): Once the reserve has sealed every manager record, dual seal becomes active. -/
  | catchupComplete
  /-- TRIGGER_TRANSITION (R431): A raw transition on a trigger input is stamped by its TDC. -/
  | triggerTransition (n : Fin 16) (level : Bool) (ci : Fin 240) (fs : Fin 2048)
  /-- TRIGGER_QUALIFY (R432): A level held for GLITCH cycles qualifies, and passes edge select, count, debounce, holdoff and beat limit to a capture. -/
  | triggerQualify (n : Fin 16) (ci : Fin 240)
  /-- TRIGGER_REARM (R430): An input that has held its inactive level for TRG_DEB cycles rearms. -/
  | triggerRearm (n : Fin 16) (ci : Fin 240)
  /-- ENCODER_TRANSITION (R446): A counted encoder transition updates the tracking position and history. -/
  | encoderTransition (n : Fin 8) (a : Bool) (b : Bool) (ci : Fin 240)
  /-- ENCODER_INDEX (R451): A Z edge latches the tracking position, optionally resets the reported position, and checks the index period. -/
  | encoderIndex (n : Fin 8)
  /-- ENCODER_STOP (R457): No transition for STOPTMO beats sets the speed to 0 and STOPPED. -/
  | encoderStop (n : Fin 8)
  /-- ORIGIN_RESOLVE (R462): A distance job's origin is fixed at the first Decide phase that predicts it within the next beat. -/
  | originResolve (hm : BitVec 48)
  /-- REACH_RESOLVE (R488): A distance reach instant is fixed at the first Decide phase that predicts it within the next beat. -/
  | reachResolve (hm : BitVec 48)
  /-- PO_EDGE_INSTANT (R507): A loaded edge's instant passes at the pin, and the edge counts as placed. -/
  | poEdgeInstant (n : Fin 32)
  /-- MAXACT_LIMIT (R502): An output active for PO_MAXACT beats goes inactive, and its jobs become PARTIAL with PART_MAXACT. -/
  | maxactLimit (n : Fin 32)
  /-- MARKER_ACTION (R541): A step's marker set, clear or pulse acts at its column instant. -/
  | markerAction (n : Fin 16)
  /-- ILK_ASSERT (R504): ILK_L low drives every PO, MK and GIO output to its safe level within 20 ns. -/
  | ilkAssert
  /-- INTERLOCK_BEAT (R506): At the interlock beat, every bound job ends EXPIRED or PARTIAL. -/
  | interlockBeat
  /-- ILK_RELEASE (R505): ILK_L high for PO_ILKREL beats releases the outputs at the next Edge phase. -/
  | ilkRelease (beats : Nat)
  /-- STEP_WAIT_TIMEOUT (R528): A step condition unmet within WAITMAX beats advances or ends the program with PART_STEPWAIT. -/
  | stepWaitTimeout (n : Fin 16)
  /-- SP_SBWR_WRITE (R538): A write of SP_SBWR publishes written granules, or is ignored with WR_ERR. -/
  | spSbwrWrite (port : Port) (n : Fin 16) (w : Word)
  /-- LOAD_START (R523): SP_LDCMD.GO starts a copy from the manager's store to a position over the bulk channel. -/
  | loadStart (port : Port) (w : Word) (farRefuses : Bool)
  /-- LOAD_MESSAGE (R523): A target writes received LOAD data into its store or stream buffer. -/
  | loadMessage (m : LoadIn)
  /-- LOAD_COMPLETE (R525): A load completes whole, or ends with REF_FENCED. -/
  | loadComplete (lost : Bool)
  /-- HEAD_FRAME_SEND (R577): A built frame leaves its port at T_B − LAT − C. -/
  | headFrameSend (p : Fin 16)
  /-- HEAD_STATUS_FRAME (R588): A partner status frame is gathered, and its report decides the column it names. -/
  | headStatusFrame (p : Fin 16) (bytes : List Byte)
  /-- HEAD_REPORT_MISSING (R593): A report not gathered by beat B+3 for a frame with a column fences the port with HP_STATUS_LOST. -/
  | headReportMissing (p : Fin 16)
  /-- HEAD_LOCK_PATTERN (R594): 256 LOCK-pattern symbols on ST move the link from LOCK to ALIGN. -/
  | headLockPattern (p : Fin 16)
  /-- HEAD_ALIGN_DONE (R596): 16 good status frames with PSTATE 1 move the link to DECLARE. -/
  | headAlignDone (p : Fin 16)
  /-- HEAD_DECLARATION (R597): Two identical declaration cycles are checked, and the link goes UP or the port is fenced. -/
  | headDeclaration (p : Fin 16) (words : List (BitVec 16))
  /-- HEAD_TRAIN_TIMEOUT (R595): A training state timeout restarts from LOCK, or after RETRY failures fences with HP_TRAIN_FAIL. -/
  | headTrainTimeout (p : Fin 16)
  /-- HEAD_AUTOTRAIN (R595): With AUTOTRAIN set, a port in FAULT starts a new training series every 65 536 beats. -/
  | headAutotrain (p : Fin 16)
  /-- HEAD_LINK_LOSS (R606): ST losing symbol lock for 16 beats while UP fences the port with HP_LINK_LOSS. -/
  | headLinkLoss (p : Fin 16)
  /-- HP_CMD_WRITE (R610): HP_CMD.GO with COP 1 sends a partner register write in the next frame. -/
  | hpCmdWrite (port : Port) (p : Fin 16)
  /-- HP_CMD_READ (R610): HP_CMD.GO with COP 2 sends a partner register read in the next frame. -/
  | hpCmdRead (port : Port) (p : Fin 16)
  /-- HP_CMD_PARTNER (R610): HP_CMD.GO with COP 8–15 sends a partner-defined command. -/
  | hpCmdPartner (port : Port) (p : Fin 16) (cop : BitVec 4)
  /-- HP_CMD_TIMEOUT (R612): A command with no reply in 64 beats ends with CSTAT TIMEOUT. -/
  | hpCmdTimeout (p : Fin 16)
  /-- HP_RETRAIN (R594): HP_TRAIN.RETRAIN starts a new training of the port. -/
  | hpRetrain (port : Port) (p : Fin 16)
  /-- ENGINE_TICK (R632): An engine's divider tick runs one step of its state table. -/
  | engineTick (n : Fin 64) (ci : Fin 240)
  /-- ENGINE_INPUT_EDGE (R638): A change of a global input is latched as an edge for engine waits. -/
  | engineInputEdge (g : Fin 169) (level : Bool) (ci : Fin 240)
  /-- TNK_START_COMMAND (R656): A TNK_CMD START schedules a group or engine start, or is refused. -/
  | tnkStartCommand (port : Port) (idx : Fin 64) (engine : Bool)
  /-- TNK_STOP_COMMAND (R657): A TNK_CMD STOP schedules a stop, or is refused. -/
  | tnkStopCommand (port : Port) (idx : Fin 64) (engine : Bool)
  /-- TNK_START_ACT (R654): At CI 0 of its start beat, the start resets and starts the engines. -/
  | tnkStartAct
  /-- TNK_STOP_ACT (R657): At CI 0 of its beat, the stop halts the engines and sets OUTINIT. -/
  | tnkStopAct
  /-- TNK_KICK (R636): A write of TNK_KICK kicks engines for waits and host exits. -/
  | tnkKick (port : Port) (hi : Bool) (w : Word)
  /-- TNK_RXWR (R645): A host write pushes a word into an engine's RX queue, or is discarded. -/
  | tnkRxwr (port : Port) (n : Fin 64) (w : Word)
  /-- TNK_TXRD (R645): A read of TNK_TXRD removes and returns the TX head word. -/
  | tnkTxrd (port : Port) (n : Fin 64)
  /-- TNK_CMD_CHANNEL_ISSUE (R646): A word pair in a TXDST engine's TX queue is issued as a partner command. -/
  | tnkCmdChannelIssue (n : Fin 64)
  /-- GROUP_STALL (R669): A stall count reaching STALL fences every group member with GROUP_STALL. -/
  | groupStall
  /-- SCC_GO (R684): SCC_CMD.GO issues a local or ring-wide commit, or refuses it. -/
  | sccGo (port : Port)
  /-- SCC_CHECKONLY (R718): CHECKONLY locks and checks the image without applying anything. -/
  | sccCheckonly (port : Port)
  /-- SCC_ABORT (R702): SCC_CMD.ABORT aborts a commit before its decision, or is refused. -/
  | sccAbort (port : Port)
  /-- SCC_DISCARD (R682): DISCARD copies the active image into the stage image. -/
  | sccDiscard (port : Port)
  /-- ST_REGISTER_WRITE (R686): An st write changes the stage image and aborts a commit that has it locked. -/
  | stRegisterWrite (port : Port) (a : BitVec 20) (w : Word)
  /-- CHECK_COMPLETE (R690): A device's check of its image completes. -/
  | checkComplete
  /-- COMMIT_MESSAGE (R695): A COMMIT bulk message gives a scoped device the ID, milestone and scope. -/
  | commitMessage (id : Word) (ms : BitVec 56) (scope : Word) (jr : List (BitVec 20 × Word))
  /-- COMMIT_DECIDE (R697): The manager decides APPLY or ABORT when votes, deadline D or a peer loss allow. -/
  | commitDecide (far : Option (Fin 32 × BitVec 8 × BitVec 16))
  /-- COMMIT_MILESTONE (R706): At the milestone, the calendar set, image swap, scheduled actions and engine commands apply in order. -/
  | commitMilestone
  /-- COMMIT_REPORT_TIMEOUT (R701): A scoped device not reporting the commit applied by M + L + 1 is fenced with COMMIT_LOST. -/
  | commitReportTimeout
  /-- RING_FRAME_RECEIVE (R730): A ring frame is forwarded cut-through and, when valid, acted on. -/
  | ringFrameReceive (side : Fin 2) (f : FrameIn)
  /-- VOID_FRAME_SEND (R732): With no origin frame by the end of the mark window, the device sends a VOID frame. -/
  | voidFrameSend (side : Fin 2)
  /-- RING_LANE_LOSS (R756): A receive lane losing signal or sync wraps the side, fences it and may move the clock side. -/
  | ringLaneLoss (side : Fin 2)
  /-- RING_PEER_LOST_TIMEOUT (R759): Status slots missing for WR_LOSTTMO beats fence the device as a whole. -/
  | ringPeerLostTimeout (pos : Fin 32) (babble : Bool)
  /-- RING_ORPHAN (R760): No origin frame for 16 beats fences the device's timing outputs with RING_ORPHAN. -/
  | ringOrphan
  /-- TAKEOVER (R763): After two missing manager beats, the reserve originates frames as manager at B+3. -/
  | takeover
  /-- MANAGER_ISOLATED (R765): A manager receiving none of its own frames for 2 beats stops originating and fences itself. -/
  | managerIsolated
  /-- WR_HANDOVER (R767): WR_CMD.HANDOVER schedules a deliberate handover at beat H, or is refused. -/
  | wrHandover (port : Port)
  /-- HANDOVER_BEAT (R767): At beat H, the reserve originates frames and both devices seal ROLE records. -/
  | handoverBeat
  /-- UNWRAP (R755): At the named apply beat, both neighbours of a newcomer unwrap. -/
  | unwrap
  /-- WINDOW_READ (R768): A read in the remote window is sent as a REG message and completes on its reply. -/
  | windowRead (port : Port) (off : BitVec 16)
  /-- WINDOW_WRITE (R768): A write in the remote window is posted as a REG message. -/
  | windowWrite (port : Port) (off : BitVec 16) (w : Word)
  /-- WINDOW_TIMEOUT (R769): A window access unanswered within 50 µs ends with TIMEOUT. -/
  | windowTimeout (pos : Fin 32)
  /-- REG_MESSAGE (R874): A target serves a window access with its own window shadows and records ID_WRLAST. -/
  | regMessage (m : RegIn)
  /-- CALSET_MESSAGE (R72): A device schedules a calendar set received from the manager for its tag beat. -/
  | calsetMessage (sec : BitVec 64) (sub : Word) (regressOk : Bool) (tag : BitVec 56)
  /-- DETAIL_MESSAGE (R747): The manager receives DETAIL0 and DETAIL1 for a report item. -/
  | detailMessage (pos : Fin 32) (inc : BitVec 8) (tag : BitVec 12) (d0 : Word) (d1 : BitVec 16)
  /-- OFFTAB_MESSAGE (R737): A device stores the distributed offset table. -/
  | offtabMessage (bn : BitVec 56) (tab : List (Fin 32 × BitVec 24 × BitVec 24))
  /-- LEDGER_MESSAGE (R753): The manager receives a worker's declaration, replay reports or log entries. -/
  | ledgerMessage (us : Nat) (pos : Fin 32) (inc : BitVec 8) (m : LedgerIn)
  /-- PROV_MESSAGE (R59): A worker applies received identity, beat, image or commands. -/
  | provMessage (m : ProvIn)
  /-- FEN_FENCE (R779): FEN_CMD FENCE raises FENCE_HOST on a domain. -/
  | fenFence (port : Port) (dom : BitVec 16)
  /-- FEN_UNFENCE (R804): FEN_CMD UNFENCE clears host and own fault causes, or is refused. -/
  | fenUnfence (port : Port) (dom : BitVec 16)
  /-- FEN_PARK (R799): FEN_CMD PARK raises DOMAIN_PARKED, or is refused. -/
  | fenPark (port : Port) (dom : BitVec 16) (expire : Bool)
  /-- FENCE_JOB_CLOSE (R784): A job using a fenced domain ends once every issued column is reported or declared missing. -/
  | fenceJobClose (hm : BitVec 48)
  /-- FEN_LOG_POP (R791): A read of FEN_LOG0 pops the oldest reason-log entry and latches the rest. -/
  | fenLogPop (port : Port)
  /-- ASY_CMD_LINES (R824): ASY_CMD starts a LINES calibration of parked groups, or is refused. -/
  | asyCmdLines (port : Port) (target : BitVec 8)
  /-- ASY_CMD_TDC (R827): ASY_CMD starts a TDC calibration of one input, or is refused. -/
  | asyCmdTdc (port : Port) (target : BitVec 8)
  /-- ASY_CMD_XLOOP (R829): ASY_CMD starts an external loopback measurement of one output, or is refused. -/
  | asyCmdXloop (port : Port) (target : BitVec 8) (loopIn : Fin 16)
  /-- ASY_CMD_RSKEW (R833): ASY_CMD on the manager starts RSKEW for the scoped positions, or is refused. -/
  | asyCmdRskew (port : Port)
  /-- ASY_CMD_ABORT (R826): ASY_CMD.ABORT abandons the running procedure with ASY_DISTURBED. -/
  | asyCmdAbort (port : Port)
  /-- ASSAY_ATTEMPT_START (R823): BACKOFF beats after a disturbance, a new attempt starts with its pre-check. -/
  | assayAttemptStart
  /-- ASSAY_DISTURBED (R822): A failed precondition stops the attempt and discards its values. -/
  | assayDisturbed
  /-- ASSAY_POSTCHECK (R824): A successful post-check applies all coefficient sets at the next Edge phase. -/
  | assayPostcheck (i : AssayIn)
  /-- TDC_AUTO_START (R828): With TDCAUTO set, each ASY_TDCPER period starts TDC calibration of every enabled input. -/
  | tdcAutoStart
  /-- DRIFT_APPLY (R837): Every 1 024 beats, a scale correction is applied to each cluster. -/
  | driftApply (corr : List Int)
  /-- RSKEW_RETRY (R836): After ASY_RETRY_OUT for a joining position, RSKEW restarts every 65 536 beats. -/
  | rskewRetry
  /-- CAL_CTRL_ARM (R70): ARM copies the set registers into a pending calendar set, or refuses it. -/
  | calCtrlArm (port : Port) (regressOk : Bool)
  /-- CAL_CTRL_CANCEL (R73): CANCEL withdraws the pending calendar set. -/
  | calCtrlCancel (port : Port) (regressOk : Bool)
  /-- CALENDAR_SET_APPLY (R74): At its tag beat, a calendar set overwrites the true calendar, applying the clamp or epoch rule. -/
  | calendarSetApply
  /-- BT_BN_LO_READ (R61): A read of BT_BN_LO latches BN[55:32] and CI into shadows. -/
  | btBnLoRead (port : Port) (ci : Fin 240)
  /-- CAL_NOW_READ (R62): A read of CAL_NOW_SEC_LO latches the rest of the true calendar. -/
  | calNowRead (port : Port)
  /-- CAL_PRINT_READ (R62): A read of CAL_PRINT_SEC_LO latches the rest of the print calendar. -/
  | calPrintRead (port : Port)
  /-- TRG_CAP0_READ (R61): A read of TRG_CAP0 latches TRG_CAP1 and TRG_CAP2. -/
  | trgCap0Read (port : Port) (n : Fin 16)
  /-- ENC_POSI_LO_READ (R61): A read of ENC_POSI_LO latches ENC_POSI_HI and ENC_SPEED. -/
  | encPosiLoRead (port : Port) (n : Fin 8)
  /-- RC_REGISTER_READ (R17): A read of an rc field returns its value and clears it. -/
  | rcRegisterRead (port : Port) (a : RegAt)
  /-- JTAG_INSTRUCTION (R901): A TAP instruction is loaded, acting only while PORST_L is asserted. -/
  | jtagInstruction (i : TapInstr) (testMode : Bool)
  /-- REGISTER_WRITE (R15): A write to a register with no row of its own acts as its access code states. -/
  | registerWrite (port : Port) (a : RegAt) (w : Word)
  /-- BYPASS_SOURCE_RETURN (R241): Edges return on a bypass source after BYPCLK_LOSS, and outputs in bypass leave their hold-low and carry the bypass clock again. -/
  | bypassSourceReturn
  /-- LINK_UP (R270): PCI Express link training completes after a link-down or hot reset, HST_STAT.LINK_UP sets and the host-port reset of FD113 completes. -/
  | linkUp (gen2 : Bool) (width : Fin 3) (bme : Bool) (msixEn : Bool) (intDis : Bool)
  /-- SIGNAL_DETECTED (R740): A ring side in DARK detects signal on its receive lanes and starts training in LOCK. -/
  | signalDetected (side : Fin 2)
  deriving DecidableEq, Repr

end Sys2Proof
end

