-- ==== Sys2Proof/Config.lean ====
section
/-!
DEFINITION. Sys2Proof/Config.lean: what one die or one implementation fixes, and the free values.
None of the opaque constants has a value that a proof can see: a claim holds whatever they are.
-/
namespace Sys2Proof.Config

/-- ID_REV (Table MAP-4): base layer, metal step and versions of this die; per die, so a free constant. -/
opaque idRev : Word

/-- The die serial number as drawn, before R857's "never 0" is applied. -/
opaque serialRaw : BitVec 64

/-- The die serial number: unique to each die and never 0 (R857). -/
def serial : BitVec 64 := if serialRaw = 0 then 1 else serialRaw

/-- ID_GRADE (Table MAP-4): the grade and junction limit of this die. -/
opaque idGrade : Word

/-- R113: whether a PORST_L low pulse of 1 µs to 10 µs (its draw number is the argument) starts a cold start.
The spec guarantees neither. -/
opaque shortPulseStarts : Nat → Bool

/-- The 64-bit system identity that LDG_CMD.FORMAT on a manager writes (R370): new, with no value stated. -/
opaque newSysId : Nat → BitVec 64

/-- A value the spec leaves open, drawn with a fresh number. -/
opaque freeWord : Nat → Word

/-- CLK_HOFREQ as last measured at a beat (05_clock_synthesis.md): a measured quantity. -/
opaque holdoverDev : Nat → BitVec 16

/-- The driver and package model of a pin skew (17_assay.md): by output, PO_CFG, PO_GCFG and bank class. -/
opaque pinSkew : Nat → Word → Word → Nat → BitVec 16

end Sys2Proof.Config
end

