-- ==== Sys2Proof/Machine/Bits.lean ====
section
/-!
DEFINITION. Sys2Proof/Machine/Bits.lean: bit fields of words, saturating counts, sparse maps in one canonical
form, byte order, and the CRCs the spec names (R315 CRC-32, R297 CRC-8, R583 CRC-16 and CRC-8 of head frames).
-/
namespace Sys2Proof.Machine

/-- Bits [hi:lo] of a word, as a number. -/
def slice (w : Word) (hi lo : Nat) : Nat := (w.toNat >>> lo) % 2 ^ (hi + 1 - lo)

/-- The mask of bits [hi:lo]. -/
def fieldMask (hi lo : Nat) : Word := BitVec.ofNat 32 ((2 ^ (hi + 1 - lo) - 1) * 2 ^ lo)

/-- A word with bits [hi:lo] replaced by the low bits of v. -/
def setSlice (w : Word) (hi lo v : Nat) : Word :=
  (w &&& ~~~(fieldMask hi lo)) ||| BitVec.ofNat 32 ((v % 2 ^ (hi + 1 - lo)) * 2 ^ lo)

/-- Bit k of a word. -/
def bitOf (w : Word) (k : Nat) : Bool := w.getLsbD k

/-- A word with bit k set or cleared. -/
def putBit (w : Word) (k : Nat) (b : Bool) : Word := setSlice w k k (if b then 1 else 0)

/-- The one bits of the first n bit places of a number, lowest first. -/
def onesBelow (n m : Nat) : List Nat := (List.range n).filter (fun k => m.testBit k)

/-- Number of one bits among the first n places. -/
def popCount (n m : Nat) : Nat := (onesBelow n m).length

/-- A two's-complement reading of the low n bits. -/
def signed (n v : Nat) : Int :=
  let u := v % 2 ^ n
  if u < 2 ^ (n - 1) then (u : Int) else (u : Int) - (2 ^ n : Nat)

/-- The low n bits of an integer, two's complement. -/
def unsigned (n : Nat) (v : Int) : Nat := (v % ((2 ^ n : Nat) : Int)).toNat

/-- A count that saturates at 2^n - 1. -/
def satAdd (n a b : Nat) : Nat := min (a + b) (2 ^ n - 1)

/-- Rounded-up division. -/
def ceilDiv (a b : Nat) : Nat := (a + (b - 1)) / b

/-! Sparse maps: (key, value) pairs, keys strictly rising, no entry equal to what an unlisted key reads as. -/

/-- A sparse map from numbers; which value an unlisted key reads as is given at each use. -/
abbrev SMap (V : Type) := List (Nat × V)

/-- Read key k; an unlisted key reads `d k`. -/
def mgetD {V : Type} (d : Nat → V) (m : SMap V) (k : Nat) : V :=
  match m.find? (fun c => c.1 == k) with
  | some c => c.2
  | none => d k

/-- Insert an entry before the first larger key. -/
def minsert {V : Type} (k : Nat) (v : V) : SMap V → SMap V
  | [] => [(k, v)]
  | c :: r => if k < c.1 then (k, v) :: c :: r else c :: minsert k v r

/-- Write key k, keeping the canonical form: the value an unlisted key reads as removes the entry. -/
def msetD {V : Type} [DecidableEq V] (d : Nat → V) (m : SMap V) (k : Nat) (v : V) : SMap V :=
  let e := m.filter (fun c => c.1 != k)
  if v = d k then e else minsert k v e

/-- The canonical form: keys strictly rising and no entry equal to the unlisted value. -/
def mwf {V : Type} [DecidableEq V] (d : Nat → V) : SMap V → Bool
  | [] => true
  | [c] => decide (c.2 ≠ d c.1)
  | c :: c' :: r => decide (c.2 ≠ d c.1) && decide (c.1 < c'.1) && mwf d (c' :: r)

/-- Read with one constant default. -/
def mget {V : Type} (d : V) (m : SMap V) (k : Nat) : V := mgetD (fun _ => d) m k

/-- Write with one constant default. -/
def mset {V : Type} [DecidableEq V] (d : V) (m : SMap V) (k : Nat) (v : V) : SMap V := msetD (fun _ => d) m k v

/-! Byte order: words and halves are little endian in memory (00_scope.md, R12). -/

/-- The four bytes of a word, lowest address first. -/
def wordBytes (w : Word) : List Byte := (List.range 4).map (fun i => BitVec.ofNat 8 (w.toNat >>> (8 * i)))

/-- A number from bytes, lowest address first. -/
def leNat : List Byte → Nat
  | [] => 0
  | b :: r => b.toNat + 256 * leNat r

/-- The word of four bytes, lowest address first. -/
def leWord (bs : List Byte) : Word := BitVec.ofNat 32 (leNat bs)

/-! CRCs. -/

/-- One bit of the reflected CRC-32 of R315 (polynomial 0x04C1_1DB7). -/
def crc32Step (c : BitVec 32) : BitVec 32 :=
  if c.getLsbD 0 then (c >>> 1) ^^^ 0xEDB88320#32 else c >>> 1

/-- Eight steps over one byte. -/
def crc32Byte (c : BitVec 32) (b : Byte) : BitVec 32 :=
  (List.range 8).foldl (fun c _ => crc32Step c) (c ^^^ b.setWidth 32)

/-- The CRC-32 of R315 over bytes in address order: initial value and final XOR all ones. -/
def crc32 (bs : List Byte) : Word := (bs.foldl crc32Byte 0xFFFFFFFF#32) ^^^ 0xFFFFFFFF#32

/-- The CRC-32 of R315 over words in address order. -/
def crc32Words (ws : List Word) : Word := crc32 (ws.flatMap wordBytes)

/-- A CRC-8 over bytes, most significant bit first, of the given polynomial and initial value. -/
def crc8 (poly init : Byte) (bs : List Byte) : Byte :=
  bs.foldl (fun c b => (List.range 8).foldl
    (fun c _ => if c.getLsbD 7 then (c <<< 1) ^^^ poly else c <<< 1) (c ^^^ b)) init

/-- The CRC-16 of R586: polynomial 0x1021, initial value 0xFFFF, most significant bit first, no final XOR. -/
def crc16 (bs : List Byte) : BitVec 16 :=
  bs.foldl (fun c b => (List.range 8).foldl
    (fun c _ => if c.getLsbD 15 then (c <<< 1) ^^^ 0x1021#16 else c <<< 1) (c ^^^ (b.setWidth 16).shiftLeft 8)) 0xFFFF#16

/-- The bytes of a number, lowest first. -/
def leBytes (n v : Nat) : List Byte := (List.range n).map (fun i => BitVec.ofNat 8 (v >>> (8 * i)))

end Sys2Proof.Machine
end

