-- ==== Sys2Proof/Machine/Regs.lean ====
section
/-!
DEFINITION. Sys2Proof/Machine/Regs.lean: the BAR0 register map as the owner chapters' tables give it: the offset of
every register under its own name (namespace R), the named bit fields the meanings use (namespace F), and one row per
register with the mask of each access code (Table SCP-6), its reset value (Table MAP-2) and its reset class (Table MAP-3).
-/
namespace Sys2Proof.Machine

/-- A bit field of a register: BAR0 offset and bits [hi:lo]. -/
structure Fld where
  a : Nat
  hi : Nat
  lo : Nat
  deriving DecidableEq, Repr

/-! An index beyond a register's instances names an instance modulo their number; no command makes such an index. -/

namespace R
/-- ID_VENDEV, ro (Table MAP-4). -/
abbrev ID_VENDEV : Nat := 0x0
/-- ID_REV, ro (Table MAP-4). -/
abbrev ID_REV : Nat := 0x4
/-- ID_SERIAL_LO, ro (Table MAP-4). -/
abbrev ID_SERIAL_LO : Nat := 0x8
/-- ID_SERIAL_HI, ro (Table MAP-4). -/
abbrev ID_SERIAL_HI : Nat := 0xC
/-- ID_GRADE, ro (Table MAP-4). -/
abbrev ID_GRADE : Nat := 0x10
/-- ID_CAPS, ro (Table MAP-4). -/
abbrev ID_CAPS : Nat := 0x14
/-- ID_SCRATCH, rw (Table MAP-4). -/
abbrev ID_SCRATCH : Nat := 0x18
/-- ID_EVTSUM, ro (Table MAP-4). -/
abbrev ID_EVTSUM : Nat := 0x1C
/-- ID_WRLAST_ADDR, ro (Table MAP-4). -/
abbrev ID_WRLAST_ADDR : Nat := 0x20
/-- ID_WRLAST_DATA, ro (Table MAP-4). -/
abbrev ID_WRLAST_DATA : Nat := 0x24
/-- PWR_CMD, wo (Table PWR-9). -/
abbrev PWR_CMD : Nat := 0x1000
/-- PWR_STAT, ro (Table PWR-9). -/
abbrev PWR_STAT : Nat := 0x1004
/-- PWR_APPLY_LO, ro (Table PWR-9). -/
abbrev PWR_APPLY_LO : Nat := 0x1008
/-- PWR_APPLY_HI, ro (Table PWR-9). -/
abbrev PWR_APPLY_HI : Nat := 0x100C
/-- PWR_CTRL, rw (Table PWR-9). -/
abbrev PWR_CTRL : Nat := 0x1010
/-- PWR_RESUME, rw (Table PWR-9). -/
abbrev PWR_RESUME : Nat := 0x1014
/-- PWR_PENTMO, rw (Table PWR-9). -/
abbrev PWR_PENTMO : Nat := 0x1018
/-- PWR_WSTATE0-3, ro (Table PWR-9). -/
abbrev PWR_WSTATE (i : Nat) : Nat := 0x1020 + 0x4 * (i % 4)
/-- PWR_WBRACE, ro (Table PWR-9). -/
abbrev PWR_WBRACE : Nat := 0x1030
/-- PWR_TRES, ro (Table PWR-9). -/
abbrev PWR_TRES : Nat := 0x1034
/-- SUP_MTHR0, rw (Table PWR-9). -/
abbrev SUP_MTHR0 : Nat := 0x1100
/-- SUP_MTHR1, rw (Table PWR-9). -/
abbrev SUP_MTHR1 : Nat := 0x1104
/-- SUP_MACT, rw (Table PWR-9). -/
abbrev SUP_MACT : Nat := 0x1108
/-- SUP_MGAIN, rw (Table PWR-9). -/
abbrev SUP_MGAIN : Nat := 0x110C
/-- SUP_MSTAT, ro (Table PWR-9). -/
abbrev SUP_MSTAT : Nat := 0x1110
/-- SUP_MEVT_CODE, rc (Table PWR-9). -/
abbrev SUP_MEVT_CODE : Nat := 0x1114
/-- SUP_MEVT_BN_LO, ro (Table PWR-9). -/
abbrev SUP_MEVT_BN_LO : Nat := 0x1118
/-- SUP_MEVT_BN_HI, ro (Table PWR-9). -/
abbrev SUP_MEVT_BN_HI : Nat := 0x111C
/-- SUP_MEVT_VAL, ro (Table PWR-9). -/
abbrev SUP_MEVT_VAL : Nat := 0x1120
/-- SUP_MPH0-3, st (Table PWR-9). -/
abbrev SUP_MPH (i : Nat) : Nat := 0x1130 + 0x4 * (i % 4)
/-- SUP_DCTHR0, rw (Table PWR-9). -/
abbrev SUP_DCTHR0 : Nat := 0x1200
/-- SUP_DCTHR1, rw (Table PWR-9). -/
abbrev SUP_DCTHR1 : Nat := 0x1204
/-- SUP_DCVAL, ro, w1c (Table PWR-9). -/
abbrev SUP_DCVAL : Nat := 0x1208
/-- SUP_RAILS, w1c (Table PWR-9). -/
abbrev SUP_RAILS : Nat := 0x120C
/-- SUP_BKP, ro (Table PWR-9). -/
abbrev SUP_BKP : Nat := 0x1210
/-- SUP_BKPTHR, rw (Table PWR-9). -/
abbrev SUP_BKPTHR : Nat := 0x1214
/-- SUP_STRAP, ro (Table STR-12). -/
abbrev SUP_STRAP : Nat := 0x1800
/-- SUP_RCODE, ro (Table STR-12). -/
abbrev SUP_RCODE : Nat := 0x1804
/-- SUP_STRAPDIAG, ro (Table STR-12). -/
abbrev SUP_STRAPDIAG : Nat := 0x1808
/-- SUP_RMEAS_POSN, ro (Table STR-12). -/
abbrev SUP_RMEAS_POSN : Nat := 0x180C
/-- SUP_RMEAS_HPSET, ro (Table STR-12). -/
abbrev SUP_RMEAS_HPSET : Nat := 0x1810
/-- SUP_RMEAS_MNOM, ro (Table STR-12). -/
abbrev SUP_RMEAS_MNOM : Nat := 0x1814
/-- SUP_RMEAS_CHGSET, ro (Table STR-12). -/
abbrev SUP_RMEAS_CHGSET : Nat := 0x1818
/-- SUP_STRAPLIVE, w1c (Table STR-12). -/
abbrev SUP_STRAPLIVE : Nat := 0x181C
/-- SUP_BOOT, ro (Table STR-12). -/
abbrev SUP_BOOT : Nat := 0x1820
/-- SUP_BOOT_T0-SUP_BOOT_T7, ro (Table STR-12). -/
abbrev SUP_BOOT_T (i : Nat) : Nat := 0x1824 + 0x4 * (i % 8)
/-- SUP_ROLE, ro (Table STR-12). -/
abbrev SUP_ROLE : Nat := 0x1844
/-- CLK_STAT, ro (Table CLK-12). -/
abbrev CLK_STAT : Nat := 0x2000
/-- CLK_CTRL, rw (Table CLK-12). -/
abbrev CLK_CTRL : Nat := 0x2004
/-- CLK_CMD, wo (Table CLK-12). -/
abbrev CLK_CMD : Nat := 0x2008
/-- CLK_HOFREQ, ro (Table CLK-12). -/
abbrev CLK_HOFREQ : Nat := 0x200C
/-- CLK_EVT_CNT, rc (Table CLK-12). -/
abbrev CLK_EVT_CNT : Nat := 0x2010
/-- CLK_HO_BN_LO, ro (Table CLK-12). -/
abbrev CLK_HO_BN_LO : Nat := 0x2014
/-- CLK_HO_BN_HI, ro (Table CLK-12). -/
abbrev CLK_HO_BN_HI : Nat := 0x2018
/-- CLK_HO_DUR, ro (Table CLK-12). -/
abbrev CLK_HO_DUR : Nat := 0x201C
/-- AS_STAT, ro, w1c (Table CLK-12). -/
abbrev AS_STAT : Nat := 0x2100
/-- AS_CTRL, rw (Table CLK-12). -/
abbrev AS_CTRL : Nat := 0x2104
/-- AS_CMD, wo (Table CLK-12). -/
abbrev AS_CMD : Nat := 0x2108
/-- AS_APPLY_LO, rw (Table CLK-12). -/
abbrev AS_APPLY_LO : Nat := 0x210C
/-- AS_APPLY_HI, rw (Table CLK-12). -/
abbrev AS_APPLY_HI : Nat := 0x2110
/-- AS_FREQERR, ro (Table CLK-12). -/
abbrev AS_FREQERR : Nat := 0x2114
/-- AS_BYP, rw (Table CLK-12). -/
abbrev AS_BYP : Nat := 0x2118
/-- AS_DIV0-AS_DIV3, rw (Table CLK-12). -/
abbrev AS_DIV (i : Nat) : Nat := 0x2120 + 0x4 * (i % 4)
/-- AS_OUT0-AS_OUT3, st (Table CLK-12). -/
abbrev AS_OUT (i : Nat) : Nat := 0x2130 + 0x4 * (i % 4)
/-- AS_DEP, st (Table CLK-12). -/
abbrev AS_DEP : Nat := 0x2140
/-- AS_PpN, st (Table CLK-12). -/
abbrev AS_PN (i : Nat) : Nat := 0x2200 + 0x20 * (i % 8)
/-- AS_PpFRAC, st (Table CLK-12). -/
abbrev AS_PFRAC (i : Nat) : Nat := 0x2204 + 0x20 * (i % 8)
/-- AS_PpBAND, ro (Table CLK-12). -/
abbrev AS_PBAND (i : Nat) : Nat := 0x2208 + 0x20 * (i % 8)
/-- AS_PpD0-AS_PpD3, st (Table CLK-12). -/
abbrev AS_PD (i : Nat) (j : Nat) : Nat := 0x220C + 0x20 * (i % 8) + 0x4 * (j % 4)
/-- BT_BN_LO, ro (Table BEA-7). -/
abbrev BT_BN_LO : Nat := 0x3000
/-- BT_BN_HI, ro (Table BEA-7). -/
abbrev BT_BN_HI : Nat := 0x3004
/-- BT_CI, ro (Table BEA-7). -/
abbrev BT_CI : Nat := 0x3008
/-- BT_STAT, ro, w1c (Table BEA-7). -/
abbrev BT_STAT : Nat := 0x300C
/-- BT_CEIL_LO, ro (Table BEA-7). -/
abbrev BT_CEIL_LO : Nat := 0x3010
/-- BT_CEIL_HI, ro (Table BEA-7). -/
abbrev BT_CEIL_HI : Nat := 0x3014
/-- BT_SYSID_LO, ro (Table BEA-7). -/
abbrev BT_SYSID_LO : Nat := 0x3018
/-- BT_SYSID_HI, ro (Table BEA-7). -/
abbrev BT_SYSID_HI : Nat := 0x301C
/-- BT_LAST_LO, ro (Table BEA-7). -/
abbrev BT_LAST_LO : Nat := 0x3020
/-- BT_LAST_HI, ro (Table BEA-7). -/
abbrev BT_LAST_HI : Nat := 0x3024
/-- BT_REGRESS_CNT, rc (Table BEA-7). -/
abbrev BT_REGRESS_CNT : Nat := 0x3028
/-- CAL_NOW_SEC_LO, ro (Table BEA-7). -/
abbrev CAL_NOW_SEC_LO : Nat := 0x3100
/-- CAL_NOW_SEC_HI, ro (Table BEA-7). -/
abbrev CAL_NOW_SEC_HI : Nat := 0x3104
/-- CAL_NOW_SUB, ro (Table BEA-7). -/
abbrev CAL_NOW_SUB : Nat := 0x3108
/-- CAL_PRINT_SEC_LO, ro (Table BEA-7). -/
abbrev CAL_PRINT_SEC_LO : Nat := 0x310C
/-- CAL_PRINT_SEC_HI, ro (Table BEA-7). -/
abbrev CAL_PRINT_SEC_HI : Nat := 0x3110
/-- CAL_PRINT_SUB, ro (Table BEA-7). -/
abbrev CAL_PRINT_SUB : Nat := 0x3114
/-- CAL_SET_SEC_LO, rw (Table BEA-7). -/
abbrev CAL_SET_SEC_LO : Nat := 0x3120
/-- CAL_SET_SEC_HI, rw (Table BEA-7). -/
abbrev CAL_SET_SEC_HI : Nat := 0x3124
/-- CAL_SET_SUB, rw (Table BEA-7). -/
abbrev CAL_SET_SUB : Nat := 0x3128
/-- CAL_SET_BN_LO, rw (Table BEA-7). -/
abbrev CAL_SET_BN_LO : Nat := 0x312C
/-- CAL_SET_BN_HI, rw (Table BEA-7). -/
abbrev CAL_SET_BN_HI : Nat := 0x3130
/-- CAL_CTRL, wo, rw (Table BEA-7). -/
abbrev CAL_CTRL : Nat := 0x3134
/-- CAL_STAT, ro (Table BEA-7). -/
abbrev CAL_STAT : Nat := 0x3138
/-- CAL_EPOCH, ro (Table BEA-7). -/
abbrev CAL_EPOCH : Nat := 0x313C
/-- HST_STAT, ro, w1c (Table HST-9). -/
abbrev HST_STAT : Nat := 0x4000
/-- HST_CTRL, wo (Table HST-9). -/
abbrev HST_CTRL : Nat := 0x4004
/-- HST_ISR0, w1c (Table HST-9). -/
abbrev HST_ISR0 : Nat := 0x4008
/-- HST_ISR1, w1c (Table HST-9). -/
abbrev HST_ISR1 : Nat := 0x400C
/-- HST_IEN0, rw (Table HST-9). -/
abbrev HST_IEN0 : Nat := 0x4010
/-- HST_IEN1, rw (Table HST-9). -/
abbrev HST_IEN1 : Nat := 0x4014
/-- HST_ERR, ro (Table HST-9). -/
abbrev HST_ERR : Nat := 0x4020
/-- HST_DMA_FAILCNT, rc (Table HST-9). -/
abbrev HST_DMA_FAILCNT : Nat := 0x4024
/-- HST_SPI_ERRCNT, rc (Table HST-9). -/
abbrev HST_SPI_ERRCNT : Nat := 0x4040
/-- HST_SPI_WCNT, ro (Table HST-9). -/
abbrev HST_SPI_WCNT : Nat := 0x4044
/-- HST_CQq_BASE_LO, rw (Table HST-9). -/
abbrev HST_CQ_BASE_LO (i : Nat) : Nat := 0x4100 + 0x20 * (i % 16)
/-- HST_CQq_BASE_HI, rw (Table HST-9). -/
abbrev HST_CQ_BASE_HI (i : Nat) : Nat := 0x4104 + 0x20 * (i % 16)
/-- HST_CQq_CFG, rw (Table HST-9). -/
abbrev HST_CQ_CFG (i : Nat) : Nat := 0x4108 + 0x20 * (i % 16)
/-- HST_CQq_TAIL, ro (Table HST-9). -/
abbrev HST_CQ_TAIL (i : Nat) : Nat := 0x410C + 0x20 * (i % 16)
/-- HST_CQq_HEAD, rw (Table HST-9). -/
abbrev HST_CQ_HEAD (i : Nat) : Nat := 0x4110 + 0x20 * (i % 16)
/-- HST_CQq_MOD, rw (Table HST-9). -/
abbrev HST_CQ_MOD (i : Nat) : Nat := 0x4114 + 0x20 * (i % 16)
/-- HST_CQq_STAT, ro, w1c (Table HST-9). -/
abbrev HST_CQ_STAT (i : Nat) : Nat := 0x4118 + 0x20 * (i % 16)
/-- HST_SUBW0-HST_SUBW15, rw (Table HST-9). -/
abbrev HST_SUBW (i : Nat) : Nat := 0x4400 + 0x4 * (i % 16)
/-- HST_SUBGO, wo (Table HST-9). -/
abbrev HST_SUBGO : Nat := 0x4440
/-- HST_SUBSTAT, ro (Table HST-9). -/
abbrev HST_SUBSTAT : Nat := 0x4444
/-- HST_CQSEL, rw (Table HST-9). -/
abbrev HST_CQSEL : Nat := 0x4480
/-- HST_CQW0-HST_CQW7, ro (Table HST-9). -/
abbrev HST_CQW (i : Nat) : Nat := 0x44A0 + 0x4 * (i % 8)
/-- MSI-X table, rw (Table HST-9). -/
abbrev MSIX_TABLE (i : Nat) : Nat := 0x4800 + 0x4 * (i % 256)
/-- MSI-X PBA, ro (Table HST-9). -/
abbrev MSIX_PBA (i : Nat) : Nat := 0x4C00 + 0x4 * (i % 2)
/-- JR_SQBASE_LO, rw (Table HST-9). -/
abbrev JR_SQBASE_LO (i : Nat) : Nat := 0x10000 + 0x40 * (i % 512)
/-- JR_SQBASE_HI, rw (Table HST-9). -/
abbrev JR_SQBASE_HI (i : Nat) : Nat := 0x10004 + 0x40 * (i % 512)
/-- JR_SQCFG, rw (Table HST-9). -/
abbrev JR_SQCFG (i : Nat) : Nat := 0x10008 + 0x40 * (i % 512)
/-- JR_DB, wo (Table HST-9). -/
abbrev JR_DB (i : Nat) : Nat := 0x1000C + 0x40 * (i % 512)
/-- JR_SQHEAD, rw (Table HST-9). -/
abbrev JR_SQHEAD (i : Nat) : Nat := 0x10010 + 0x40 * (i % 512)
/-- JR_SQTAIL, ro (Table HST-9). -/
abbrev JR_SQTAIL (i : Nat) : Nat := 0x10014 + 0x40 * (i % 512)
/-- JR_HSTAT, ro, w1c (Table HST-9). -/
abbrev JR_HSTAT (i : Nat) : Nat := 0x10018 + 0x40 * (i % 512)
/-- JR_BIND, st (Table JOB-11). -/
abbrev JR_BIND (i : Nat) : Nat := 0x10020 + 0x40 * (i % 512)
/-- JR_ACFG, st (Table JOB-11). -/
abbrev JR_ACFG (i : Nat) : Nat := 0x10024 + 0x40 * (i % 512)
/-- JR_PLAN, st (Table JOB-11). -/
abbrev JR_PLAN (i : Nat) : Nat := 0x10028 + 0x40 * (i % 512)
/-- JR_NEXTSEQ, rw (Table JOB-11). -/
abbrev JR_NEXTSEQ (i : Nat) : Nat := 0x1002C + 0x40 * (i % 512)
/-- JR_LASTHM_LO, ro (Table JOB-11). -/
abbrev JR_LASTHM_LO (i : Nat) : Nat := 0x10030 + 0x40 * (i % 512)
/-- JR_LASTHM_HI, ro (Table JOB-11). -/
abbrev JR_LASTHM_HI (i : Nat) : Nat := 0x10034 + 0x40 * (i % 512)
/-- JR_COUNT, ro (Table JOB-11). -/
abbrev JR_COUNT (i : Nat) : Nat := 0x10038 + 0x40 * (i % 512)
/-- JR_REFLAST, ro (Table JOB-11). -/
abbrev JR_REFLAST (i : Nat) : Nat := 0x1003C + 0x40 * (i % 512)
/-- JR_ALLOT_HP, st (Table JOB-11). -/
abbrev JR_ALLOT_HP (i : Nat) : Nat := 0x18000 + 0x10 * (i % 512)
/-- JR_ALLOT_PO, st (Table JOB-11). -/
abbrev JR_ALLOT_PO (i : Nat) : Nat := 0x18004 + 0x10 * (i % 512)
/-- JR_ALLOT_SP, st (Table JOB-11). -/
abbrev JR_ALLOT_SP (i : Nat) : Nat := 0x18008 + 0x10 * (i % 512)
/-- JR_ALLOT_BS, st (Table JOB-11). -/
abbrev JR_ALLOT_BS (i : Nat) : Nat := 0x1800C + 0x10 * (i % 512)
/-- JR_IK_TOKENS, ro (Table JOB-11). -/
abbrev JR_IK_TOKENS : Nat := 0x1A000
/-- JR_IK_NONTERM, ro (Table JOB-11). -/
abbrev JR_IK_NONTERM : Nat := 0x1A004
/-- JR_IK_NEXTHM_LO, ro (Table JOB-11). -/
abbrev JR_IK_NEXTHM_LO : Nat := 0x1A008
/-- JR_IK_NEXTHM_HI, ro (Table JOB-11). -/
abbrev JR_IK_NEXTHM_HI : Nat := 0x1A00C
/-- JR_IK_REFCNT, rc (Table JOB-11). -/
abbrev JR_IK_REFCNT : Nat := 0x1A010
/-- JR_CANCEL_SEQ, rw (Table JOB-11). -/
abbrev JR_CANCEL_SEQ : Nat := 0x1A020
/-- JR_CANCEL_CMD, wo (Table JOB-11). -/
abbrev JR_CANCEL_CMD : Nat := 0x1A024
/-- JR_CANCEL_STAT, ro (Table JOB-11). -/
abbrev JR_CANCEL_STAT : Nat := 0x1A028
/-- JR_CANCEL_CNT, ro (Table JOB-11). -/
abbrev JR_CANCEL_CNT : Nat := 0x1A02C
/-- LDG_STAT, ro (Table LDG-7). -/
abbrev LDG_STAT : Nat := 0x20000
/-- LDG_CMD, wo (Table LDG-7). -/
abbrev LDG_CMD : Nat := 0x20004
/-- LDG_FMTKEY, wo (Table LDG-7). -/
abbrev LDG_FMTKEY : Nat := 0x20008
/-- LDG_WEAR_LO, ro (Table LDG-7). -/
abbrev LDG_WEAR_LO : Nat := 0x2000C
/-- LDG_WEAR_HI, ro (Table LDG-7). -/
abbrev LDG_WEAR_HI : Nat := 0x20010
/-- LDG_HEAD, ro (Table LDG-7). -/
abbrev LDG_HEAD : Nat := 0x20014
/-- LDG_REV, ro (Table LDG-7). -/
abbrev LDG_REV : Nat := 0x20018
/-- LDG_FREE, ro (Table LDG-7). -/
abbrev LDG_FREE : Nat := 0x2001C
/-- LDG_NEEDED, ro (Table LDG-7). -/
abbrev LDG_NEEDED : Nat := 0x20020
/-- LDG_WINTOT, ro (Table LDG-7). -/
abbrev LDG_WINTOT : Nat := 0x20024
/-- LDG_CKPT_BN_LO, ro (Table LDG-7). -/
abbrev LDG_CKPT_BN_LO : Nat := 0x20028
/-- LDG_CKPT_BN_HI, ro (Table LDG-7). -/
abbrev LDG_CKPT_BN_HI : Nat := 0x2002C
/-- LDG_REPLAY, ro (Table LDG-7). -/
abbrev LDG_REPLAY : Nat := 0x20030
/-- LDG_REPLAY_T, ro (Table LDG-7). -/
abbrev LDG_REPLAY_T : Nat := 0x20034
/-- LDG_CARRY_CNT, rc (Table LDG-7). -/
abbrev LDG_CARRY_CNT : Nat := 0x20038
/-- LDG_SEALCNT, rc (Table LDG-7). -/
abbrev LDG_SEALCNT : Nat := 0x2003C
/-- LDG_MIRLAG, ro (Table LDG-7). -/
abbrev LDG_MIRLAG : Nat := 0x20040
/-- LDG_MOUNTS, ro (Table LDG-7). -/
abbrev LDG_MOUNTS : Nat := 0x20044
/-- SCC_CMD, wo (Table SCC-8). -/
abbrev SCC_CMD : Nat := 0x21000
/-- SCC_ID, rw (Table SCC-8). -/
abbrev SCC_ID : Nat := 0x21004
/-- SCC_MS_LO, rw (Table SCC-8). -/
abbrev SCC_MS_LO : Nat := 0x21008
/-- SCC_MS_HI, rw (Table SCC-8). -/
abbrev SCC_MS_HI : Nat := 0x2100C
/-- SCC_SCOPE, rw (Table SCC-8). -/
abbrev SCC_SCOPE : Nat := 0x21010
/-- SCC_STAT, ro (Table SCC-8). -/
abbrev SCC_STAT : Nat := 0x21014
/-- SCC_FAIL, ro (Table SCC-8). -/
abbrev SCC_FAIL : Nat := 0x21018
/-- SCC_LASTID, ro (Table SCC-8). -/
abbrev SCC_LASTID : Nat := 0x2101C
/-- SCC_LASTMS_LO, ro (Table SCC-8). -/
abbrev SCC_LASTMS_LO : Nat := 0x21020
/-- SCC_LASTMS_HI, ro (Table SCC-8). -/
abbrev SCC_LASTMS_HI : Nat := 0x21024
/-- SCC_VOTES, ro (Table SCC-8). -/
abbrev SCC_VOTES : Nat := 0x21028
/-- SCC_PENDV, ro (Table SCC-8). -/
abbrev SCC_PENDV : Nat := 0x2102C
/-- SCC_CHKT, ro (Table SCC-8). -/
abbrev SCC_CHKT : Nat := 0x21030
/-- SCC_VIEW, rw (Table SCC-8). -/
abbrev SCC_VIEW : Nat := 0x21034
/-- SCC_DIRTY, ro (Table SCC-8). -/
abbrev SCC_DIRTY : Nat := 0x21038
/-- SCC_ACTn_0, st (Table SCC-8). -/
abbrev SCC_ACT0 (i : Nat) : Nat := 0x21040 + 0x8 * (i % 16)
/-- SCC_ACTn_1, st (Table SCC-8). -/
abbrev SCC_ACT1 (i : Nat) : Nat := 0x21044 + 0x8 * (i % 16)
/-- SCC_ACTRES0-7, ro (Table SCC-8). -/
abbrev SCC_ACTRES (i : Nat) : Nat := 0x210C0 + 0x4 * (i % 8)
/-- TRG_CFG, st (Table TRG-6). -/
abbrev TRG_CFG (i : Nat) : Nat := 0x30000 + 0x40 * (i % 16)
/-- TRG_DEB, st (Table TRG-6). -/
abbrev TRG_DEB (i : Nat) : Nat := 0x30004 + 0x40 * (i % 16)
/-- TRG_HOLD, st (Table TRG-6). -/
abbrev TRG_HOLD (i : Nat) : Nat := 0x30008 + 0x40 * (i % 16)
/-- TRG_STAT, ro (Table TRG-6). -/
abbrev TRG_STAT (i : Nat) : Nat := 0x3000C + 0x40 * (i % 16)
/-- TRG_CAP0, ro (Table TRG-6). -/
abbrev TRG_CAP0 (i : Nat) : Nat := 0x30010 + 0x40 * (i % 16)
/-- TRG_CAP1, ro (Table TRG-6). -/
abbrev TRG_CAP1 (i : Nat) : Nat := 0x30014 + 0x40 * (i % 16)
/-- TRG_CAP2, ro (Table TRG-6). -/
abbrev TRG_CAP2 (i : Nat) : Nat := 0x30018 + 0x40 * (i % 16)
/-- TRG_CNT, ro (Table TRG-6). -/
abbrev TRG_CNT (i : Nat) : Nat := 0x3001C + 0x40 * (i % 16)
/-- TRG_CAPCNT, ro (Table TRG-6). -/
abbrev TRG_CAPCNT (i : Nat) : Nat := 0x30020 + 0x40 * (i % 16)
/-- TRG_OVR, rc (Table TRG-6). -/
abbrev TRG_OVR (i : Nat) : Nat := 0x30024 + 0x40 * (i % 16)
/-- TRG_HELD, rc (Table TRG-6). -/
abbrev TRG_HELD (i : Nat) : Nat := 0x30028 + 0x40 * (i % 16)
/-- TRG_GCFG, st (Table TRG-6). -/
abbrev TRG_GCFG (i : Nat) : Nat := 0x30400 + 0x4 * (i % 4)
/-- TRG_EVT, w1c (Table TRG-6). -/
abbrev TRG_EVT : Nat := 0x30410
/-- TRG_ILKCNT, rc (Table TRG-6). -/
abbrev TRG_ILKCNT : Nat := 0x30414
/-- TRG_RUNCL, rc (Table TRG-6). -/
abbrev TRG_RUNCL (i : Nat) : Nat := 0x31000 + 0x4 * (i % 512)
/-- ENC_CFG, st (Table TRG-6). -/
abbrev ENC_CFG (i : Nat) : Nat := 0x32000 + 0x40 * (i % 8)
/-- ENC_SPWIN, st (Table TRG-6). -/
abbrev ENC_SPWIN (i : Nat) : Nat := 0x32004 + 0x40 * (i % 8)
/-- ENC_VMAX, st (Table TRG-6). -/
abbrev ENC_VMAX (i : Nat) : Nat := 0x32008 + 0x40 * (i % 8)
/-- ENC_REVTOL, st (Table TRG-6). -/
abbrev ENC_REVTOL (i : Nat) : Nat := 0x3200C + 0x40 * (i % 8)
/-- ENC_ZPER, st (Table TRG-6). -/
abbrev ENC_ZPER (i : Nat) : Nat := 0x32010 + 0x40 * (i % 8)
/-- ENC_PERRMAX, st (Table TRG-6). -/
abbrev ENC_PERRMAX (i : Nat) : Nat := 0x32014 + 0x40 * (i % 8)
/-- ENC_POSI_LO, ro (Table TRG-6). -/
abbrev ENC_POSI_LO (i : Nat) : Nat := 0x32018 + 0x40 * (i % 8)
/-- ENC_POSI_HI, ro (Table TRG-6). -/
abbrev ENC_POSI_HI (i : Nat) : Nat := 0x3201C + 0x40 * (i % 8)
/-- ENC_SPEED, ro (Table TRG-6). -/
abbrev ENC_SPEED (i : Nat) : Nat := 0x32020 + 0x40 * (i % 8)
/-- ENC_RPOS, ro (Table TRG-6). -/
abbrev ENC_RPOS (i : Nat) : Nat := 0x32024 + 0x40 * (i % 8)
/-- ENC_ZLATCH, ro (Table TRG-6). -/
abbrev ENC_ZLATCH (i : Nat) : Nat := 0x32028 + 0x40 * (i % 8)
/-- ENC_STAT, ro, w1c (Table TRG-6). -/
abbrev ENC_STAT (i : Nat) : Nat := 0x3202C + 0x40 * (i % 8)
/-- ENC_PERR, rc (Table TRG-6). -/
abbrev ENC_PERR (i : Nat) : Nat := 0x32030 + 0x40 * (i % 8)
/-- PO_CFG, st (Table POU-9). -/
abbrev PO_CFG (i : Nat) : Nat := 0x34000 + 0x100 * (i % 32)
/-- PO_TRIM, st (Table POU-9). -/
abbrev PO_TRIM (i : Nat) : Nat := 0x34004 + 0x100 * (i % 32)
/-- PO_MAXACT, st (Table POU-9). -/
abbrev PO_MAXACT (i : Nat) : Nat := 0x34008 + 0x100 * (i % 32)
/-- PO_STAT, ro, w1c (Table POU-9). -/
abbrev PO_STAT (i : Nat) : Nat := 0x3400C + 0x100 * (i % 32)
/-- PO_EDGECNT, ro (Table POU-9). -/
abbrev PO_EDGECNT (i : Nat) : Nat := 0x34010 + 0x100 * (i % 32)
/-- PO_ADJCNT, rc (Table POU-9). -/
abbrev PO_ADJCNT (i : Nat) : Nat := 0x34014 + 0x100 * (i % 32)
/-- PO_GATESKIP, rc (Table POU-9). -/
abbrev PO_GATESKIP (i : Nat) : Nat := 0x34018 + 0x100 * (i % 32)
/-- PO_GCFG, st (Table POU-9). -/
abbrev PO_GCFG (i : Nat) : Nat := 0x36000 + 0x4 * (i % 4)
/-- PO_ILKSTAT, ro (Table POU-9). -/
abbrev PO_ILKSTAT : Nat := 0x36010
/-- PO_ILKREL, rw (Table POU-9). -/
abbrev PO_ILKREL : Nat := 0x36014
/-- PO_ILKCNT, rc (Table POU-9). -/
abbrev PO_ILKCNT : Nat := 0x36018
/-- PO_PROGp, st (Table POU-9). -/
abbrev PO_PROG (i : Nat) : Nat := 0x36400 + 0x4 * (i % 255)
/-- PO_LANE, st (Table POU-9). -/
abbrev PO_LANE (i : Nat) (j : Nat) : Nat := 0x36800 + 0x10 * (i % 384) + 0x4 * (j % 4)
/-- PO_EDGE, st (Table POU-9). -/
abbrev PO_EDGE (i : Nat) (j : Nat) : Nat := 0x38000 + 0x10 * (i % 2048) + 0x4 * (j % 4)
/-- HP_CFG, st (Table HPT-12). -/
abbrev HP_CFG (i : Nat) : Nat := 0x40000 + 0x100 * (i % 16)
/-- HP_LATMAX, st (Table HPT-12). -/
abbrev HP_LATMAX (i : Nat) : Nat := 0x40004 + 0x100 * (i % 16)
/-- HP_CABLE, st (Table HPT-12). -/
abbrev HP_CABLE (i : Nat) : Nat := 0x40008 + 0x100 * (i % 16)
/-- HP_EXPECT0, st (Table HPT-12). -/
abbrev HP_EXPECT0 (i : Nat) : Nat := 0x4000C + 0x100 * (i % 16)
/-- HP_EXPECT1, st (Table HPT-12). -/
abbrev HP_EXPECT1 (i : Nat) : Nat := 0x40010 + 0x100 * (i % 16)
/-- HP_ERRTHR, st (Table HPT-12). -/
abbrev HP_ERRTHR (i : Nat) : Nat := 0x40014 + 0x100 * (i % 16)
/-- HP_ENG, st (Table HPT-12). -/
abbrev HP_ENG (i : Nat) : Nat := 0x40018 + 0x100 * (i % 16)
/-- HP_CMDOWN, st (Table HPT-12). -/
abbrev HP_CMDOWN (i : Nat) : Nat := 0x4001C + 0x100 * (i % 16)
/-- HP_STAT, ro (Table HPT-12). -/
abbrev HP_STAT (i : Nat) : Nat := 0x40020 + 0x100 * (i % 16)
/-- HP_DECL0-HP_DECL3, ro (Table HPT-12). -/
abbrev HP_DECL (i : Nat) (j : Nat) : Nat := 0x40024 + 0x100 * (i % 16) + 0x4 * (j % 4)
/-- HP_ERRCNT, rc (Table HPT-12). -/
abbrev HP_ERRCNT (i : Nat) : Nat := 0x40034 + 0x100 * (i % 16)
/-- HP_FIRECNT, ro (Table HPT-12). -/
abbrev HP_FIRECNT (i : Nat) : Nat := 0x40038 + 0x100 * (i % 16)
/-- HP_LASTRPT, ro (Table HPT-12). -/
abbrev HP_LASTRPT (i : Nat) : Nat := 0x4003C + 0x100 * (i % 16)
/-- HP_CADDR, rw (Table HPT-12). -/
abbrev HP_CADDR (i : Nat) : Nat := 0x40040 + 0x100 * (i % 16)
/-- HP_CDATA, rw (Table HPT-12). -/
abbrev HP_CDATA (i : Nat) : Nat := 0x40044 + 0x100 * (i % 16)
/-- HP_CMD, wo (Table HPT-12). -/
abbrev HP_CMD (i : Nat) : Nat := 0x40048 + 0x100 * (i % 16)
/-- HP_CRESP, ro (Table HPT-12). -/
abbrev HP_CRESP (i : Nat) : Nat := 0x4004C + 0x100 * (i % 16)
/-- HP_TRAIN, wo (Table HPT-12). -/
abbrev HP_TRAIN (i : Nat) : Nat := 0x40050 + 0x100 * (i % 16)
/-- HP_EVT, w1c (Table HPT-12). -/
abbrev HP_EVT : Nat := 0x41000
/-- SP_CFG, st (Table SPL-11). -/
abbrev SP_CFG (i : Nat) : Nat := 0x50000 + 0x40 * (i % 16)
/-- SP_STBASE, st (Table SPL-11). -/
abbrev SP_STBASE (i : Nat) : Nat := 0x50004 + 0x40 * (i % 16)
/-- SP_CLK, st (Table SPL-11). -/
abbrev SP_CLK (i : Nat) : Nat := 0x50008 + 0x40 * (i % 16)
/-- SP_CPER_LO, st (Table SPL-11). -/
abbrev SP_CPER_LO (i : Nat) : Nat := 0x5000C + 0x40 * (i % 16)
/-- SP_CPER_HI, st (Table SPL-11). -/
abbrev SP_CPER_HI (i : Nat) : Nat := 0x50010 + 0x40 * (i % 16)
/-- SP_CPITCH, st (Table SPL-11). -/
abbrev SP_CPITCH (i : Nat) : Nat := 0x50014 + 0x40 * (i % 16)
/-- SP_PLANRATE, st (Table SPL-11). -/
abbrev SP_PLANRATE (i : Nat) : Nat := 0x50018 + 0x40 * (i % 16)
/-- SP_SBBASE, st (Table SPL-11). -/
abbrev SP_SBBASE (i : Nat) : Nat := 0x5001C + 0x40 * (i % 16)
/-- SP_SBCFG, st (Table SPL-11). -/
abbrev SP_SBCFG (i : Nat) : Nat := 0x50020 + 0x40 * (i % 16)
/-- SP_SBWR, rw (Table SPL-11). -/
abbrev SP_SBWR (i : Nat) : Nat := 0x50024 + 0x40 * (i % 16)
/-- SP_SBRD, ro (Table SPL-11). -/
abbrev SP_SBRD (i : Nat) : Nat := 0x50028 + 0x40 * (i % 16)
/-- SP_SBNEXT, ro (Table SPL-11). -/
abbrev SP_SBNEXT (i : Nat) : Nat := 0x5002C + 0x40 * (i % 16)
/-- SP_STAT, ro, w1c (Table SPL-11). -/
abbrev SP_STAT (i : Nat) : Nat := 0x50030 + 0x40 * (i % 16)
/-- SP_COLCNT, ro (Table SPL-11). -/
abbrev SP_COLCNT (i : Nat) : Nat := 0x50034 + 0x40 * (i % 16)
/-- SP_CADJCNT, rc (Table SPL-11). -/
abbrev SP_CADJCNT (i : Nat) : Nat := 0x50038 + 0x40 * (i % 16)
/-- SP_UNDCNT, rc (Table SPL-11). -/
abbrev SP_UNDCNT (i : Nat) : Nat := 0x5003C + 0x40 * (i % 16)
/-- SP_SEGTAB, st (Table SPL-11). -/
abbrev SP_SEGTAB : Nat := 0x50400
/-- SP_SLTAB, st (Table SPL-11). -/
abbrev SP_SLTAB : Nat := 0x50404
/-- SP_WPROT, rc (Table SPL-11). -/
abbrev SP_WPROT : Nat := 0x50408
/-- SP_MKSTAT, ro (Table SPL-11). -/
abbrev SP_MKSTAT : Nat := 0x5040C
/-- SP_EVT, w1c (Table SPL-11). -/
abbrev SP_EVT : Nat := 0x50410
/-- SP_LDSRC, rw (Table SPL-11). -/
abbrev SP_LDSRC : Nat := 0x50420
/-- SP_LDDST, rw (Table SPL-11). -/
abbrev SP_LDDST : Nat := 0x50424
/-- SP_LDLEN, rw (Table SPL-11). -/
abbrev SP_LDLEN : Nat := 0x50428
/-- SP_LDCMD, wo (Table SPL-11). -/
abbrev SP_LDCMD : Nat := 0x5042C
/-- SP_LDSTAT, ro (Table SPL-11). -/
abbrev SP_LDSTAT : Nat := 0x50430
/-- GLY_TABt, st (Table SPL-11). -/
abbrev GLY_TAB (i : Nat) : Nat := 0x50500 + 0x4 * (i % 8)
/-- TAL_CFG, st (Table SPL-11). -/
abbrev TAL_CFG (i : Nat) : Nat := 0x50800 + 0x20 * (i % 32)
/-- TAL_STEP, st (Table SPL-11). -/
abbrev TAL_STEP (i : Nat) : Nat := 0x50804 + 0x20 * (i % 32)
/-- TAL_MOD, st (Table SPL-11). -/
abbrev TAL_MOD (i : Nat) : Nat := 0x50808 + 0x20 * (i % 32)
/-- TAL_LOADV, st (Table SPL-11). -/
abbrev TAL_LOADV (i : Nat) : Nat := 0x5080C + 0x20 * (i % 32)
/-- TAL_NEXT, ro (Table SPL-11). -/
abbrev TAL_NEXT (i : Nat) : Nat := 0x50810 + 0x20 * (i % 32)
/-- TAL_LAST, ro (Table SPL-11). -/
abbrev TAL_LAST (i : Nat) : Nat := 0x50814 + 0x20 * (i % 32)
/-- TAL_STAT, ro (Table SPL-11). -/
abbrev TAL_STAT (i : Nat) : Nat := 0x50818 + 0x20 * (i % 32)
/-- TAL_GAPCNT, rc (Table SPL-11). -/
abbrev TAL_GAPCNT (i : Nat) : Nat := 0x5081C + 0x20 * (i % 32)
/-- TNK_PROG, st (Table TNK-8). -/
abbrev TNK_PROG (i : Nat) (j : Nat) (k : Nat) : Nat := 0x60000 + 0x1000 * (i % 64) + 0x10 * (j % 64) + 0x4 * (k % 4)
/-- TNK_CFG, st (Table TNK-8). -/
abbrev TNK_CFG (i : Nat) : Nat := 0x60400 + 0x1000 * (i % 64)
/-- TNK_DIV, st (Table TNK-8). -/
abbrev TNK_DIV (i : Nat) : Nat := 0x60404 + 0x1000 * (i % 64)
/-- TNK_INMAP0-3, st (Table TNK-8). -/
abbrev TNK_INMAP (i : Nat) (j : Nat) : Nat := 0x60408 + 0x1000 * (i % 64) + 0x4 * (j % 4)
/-- TNK_OUTMAP0-1, st (Table TNK-8). -/
abbrev TNK_OUTMAP (i : Nat) (j : Nat) : Nat := 0x60418 + 0x1000 * (i % 64) + 0x4 * (j % 2)
/-- TNK_STAT, ro (Table TNK-8). -/
abbrev TNK_STAT (i : Nat) : Nat := 0x60420 + 0x1000 * (i % 64)
/-- TNK_SR, ro (Table TNK-8). -/
abbrev TNK_SR (i : Nat) : Nat := 0x60424 + 0x1000 * (i % 64)
/-- TNK_CNT, ro (Table TNK-8). -/
abbrev TNK_CNT (i : Nat) : Nat := 0x60428 + 0x1000 * (i % 64)
/-- TNK_QSTAT, ro, w1c (Table TNK-8). -/
abbrev TNK_QSTAT (i : Nat) : Nat := 0x6042C + 0x1000 * (i % 64)
/-- TNK_RXWR, wo (Table TNK-8). -/
abbrev TNK_RXWR (i : Nat) : Nat := 0x60430 + 0x1000 * (i % 64)
/-- TNK_TXRD, rc (Table TNK-8). -/
abbrev TNK_TXRD (i : Nat) : Nat := 0x60434 + 0x1000 * (i % 64)
/-- TNK_OVR, rc (Table TNK-8). -/
abbrev TNK_OVR (i : Nat) : Nat := 0x60438 + 0x1000 * (i % 64)
/-- TNK_STEPS, ro (Table TNK-8). -/
abbrev TNK_STEPS (i : Nat) : Nat := 0x6043C + 0x1000 * (i % 64)
/-- TNK_SGMASK_LO, st (Table TNK-8). -/
abbrev TNK_SGMASK_LO (i : Nat) : Nat := 0x60800 + 0x10 * (i % 16)
/-- TNK_SGMASK_HI, st (Table TNK-8). -/
abbrev TNK_SGMASK_HI (i : Nat) : Nat := 0x60804 + 0x10 * (i % 16)
/-- TNK_SGCFG, st (Table TNK-8). -/
abbrev TNK_SGCFG (i : Nat) : Nat := 0x60808 + 0x10 * (i % 16)
/-- TNK_CMD, wo (Table TNK-8). -/
abbrev TNK_CMD : Nat := 0x60900
/-- TNK_CMDBN_LO, rw (Table TNK-8). -/
abbrev TNK_CMDBN_LO : Nat := 0x60904
/-- TNK_CMDBN_HI, rw (Table TNK-8). -/
abbrev TNK_CMDBN_HI : Nat := 0x60908
/-- TNK_CMDSTAT, ro (Table TNK-8). -/
abbrev TNK_CMDSTAT : Nat := 0x6090C
/-- TNK_SGSTAT, ro (Table TNK-8). -/
abbrev TNK_SGSTAT : Nat := 0x60910
/-- TNK_JOINb_0, st (Table TNK-8). -/
abbrev TNK_JOIN0 (i : Nat) : Nat := 0x60920 + 0x8 * (i % 8)
/-- TNK_JOINb_1, st (Table TNK-8). -/
abbrev TNK_JOIN1 (i : Nat) : Nat := 0x60924 + 0x8 * (i % 8)
/-- TNK_KICK_LO, wo (Table TNK-8). -/
abbrev TNK_KICK_LO : Nat := 0x60960
/-- TNK_KICK_HI, wo (Table TNK-8). -/
abbrev TNK_KICK_HI : Nat := 0x60964
/-- TNK_HFLAG_LO, rw (Table TNK-8). -/
abbrev TNK_HFLAG_LO : Nat := 0x60968
/-- TNK_HFLAG_HI, rw (Table TNK-8). -/
abbrev TNK_HFLAG_HI : Nat := 0x6096C
/-- TNK_IRQEN_LO, rw (Table TNK-8). -/
abbrev TNK_IRQEN_LO : Nat := 0x60970
/-- TNK_IRQEN_HI, rw (Table TNK-8). -/
abbrev TNK_IRQEN_HI : Nat := 0x60974
/-- TNK_RAISED_LO, w1c (Table TNK-8). -/
abbrev TNK_RAISED_LO : Nat := 0x60978
/-- TNK_RAISED_HI, w1c (Table TNK-8). -/
abbrev TNK_RAISED_HI : Nat := 0x6097C
/-- TNK_GIOCFG0-3, st (Table TNK-8). -/
abbrev TNK_GIOCFG (i : Nat) : Nat := 0x60980 + 0x4 * (i % 4)
/-- WR_SIDE, ro (Table RNG-11). -/
abbrev WR_SIDE (i : Nat) : Nat := 0xA0000 + 0x40 * (i % 2)
/-- WR_DCW, ro (Table RNG-11). -/
abbrev WR_DCW (i : Nat) : Nat := 0xA0004 + 0x40 * (i % 2)
/-- WR_DCCW, ro (Table RNG-11). -/
abbrev WR_DCCW (i : Nat) : Nat := 0xA0008 + 0x40 * (i % 2)
/-- WR_ERRCNT, rc (Table RNG-11). -/
abbrev WR_ERRCNT (i : Nat) : Nat := 0xA000C + 0x40 * (i % 2)
/-- WR_POISON, rc (Table RNG-11). -/
abbrev WR_POISON (i : Nat) : Nat := 0xA0010 + 0x40 * (i % 2)
/-- WR_CTRL, rw (Table RNG-11). -/
abbrev WR_CTRL : Nat := 0xA0080
/-- WR_CMD, wo (Table RNG-11). -/
abbrev WR_CMD : Nat := 0xA0084
/-- WR_HBN_LO, rw (Table RNG-11). -/
abbrev WR_HBN_LO : Nat := 0xA0088
/-- WR_HBN_HI, rw (Table RNG-11). -/
abbrev WR_HBN_HI : Nat := 0xA008C
/-- WR_STAT, ro (Table RNG-11). -/
abbrev WR_STAT : Nat := 0xA0090
/-- WR_PRESENT, ro (Table RNG-11). -/
abbrev WR_PRESENT : Nat := 0xA0094
/-- WR_FENCED, ro (Table RNG-11). -/
abbrev WR_FENCED : Nat := 0xA0098
/-- WR_BSWAIT, rc (Table RNG-11). -/
abbrev WR_BSWAIT : Nat := 0xA009C
/-- WR_CREDIT, ro (Table RNG-11). -/
abbrev WR_CREDIT : Nat := 0xA00A0
/-- WR_WINSEL, rw (Table RNG-11). -/
abbrev WR_WINSEL : Nat := 0xA00A4
/-- WR_WINSTAT, ro, w1c (Table RNG-11). -/
abbrev WR_WINSTAT : Nat := 0xA00A8
/-- WR_LOOP, ro (Table RNG-11). -/
abbrev WR_LOOP : Nat := 0xA00AC
/-- FEN_DOM0-FEN_DOM3, ro (Table FEN-8). -/
abbrev FEN_DOM (i : Nat) : Nat := 0xB0000 + 0x4 * (i % 4)
/-- FEN_JR0-FEN_JR15, ro (Table FEN-8). -/
abbrev FEN_JR (i : Nat) : Nat := 0xB0010 + 0x4 * (i % 16)
/-- FEN_CMD, wo (Table FEN-8). -/
abbrev FEN_CMD : Nat := 0xB0060
/-- FEN_CMDSTAT, ro (Table FEN-8). -/
abbrev FEN_CMDSTAT : Nat := 0xB0064
/-- FEN_INCSEL, rw (Table FEN-8). -/
abbrev FEN_INCSEL : Nat := 0xB0068
/-- FEN_INC, ro (Table FEN-8). -/
abbrev FEN_INC : Nat := 0xB006C
/-- FEN_WDINC, ro (Table FEN-8). -/
abbrev FEN_WDINC : Nat := 0xB0070
/-- FEN_LOG0, rc (Table FEN-8). -/
abbrev FEN_LOG0 : Nat := 0xB0080
/-- FEN_LOG1, ro (Table FEN-8). -/
abbrev FEN_LOG1 : Nat := 0xB0084
/-- FEN_LOG2, ro (Table FEN-8). -/
abbrev FEN_LOG2 : Nat := 0xB0088
/-- FEN_LOG3, ro (Table FEN-8). -/
abbrev FEN_LOG3 : Nat := 0xB008C
/-- FEN_RECLAIMCNT, rc (Table FEN-8). -/
abbrev FEN_RECLAIMCNT : Nat := 0xB0090
/-- FEN_STALECNT, rc (Table FEN-8). -/
abbrev FEN_STALECNT : Nat := 0xB0094
/-- ASY_CMD, wo (Table ASY-6). -/
abbrev ASY_CMD : Nat := 0xC0000
/-- ASY_CTRL, rw (Table ASY-6). -/
abbrev ASY_CTRL : Nat := 0xC0004
/-- ASY_TDCPER, rw (Table ASY-6). -/
abbrev ASY_TDCPER : Nat := 0xC0008
/-- ASY_STAT, ro (Table ASY-6). -/
abbrev ASY_STAT : Nat := 0xC000C
/-- ASY_GEN, ro (Table ASY-6). -/
abbrev ASY_GEN : Nat := 0xC0010
/-- ASY_XLDLY, rw (Table ASY-6). -/
abbrev ASY_XLDLY : Nat := 0xC0014
/-- ASY_RSCOPE, rw (Table ASY-6). -/
abbrev ASY_RSCOPE : Nat := 0xC0018
/-- ASY_RSKEWRES, ro (Table ASY-6). -/
abbrev ASY_RSKEWRES : Nat := 0xC001C
/-- ASY_DISTCNT, rc (Table ASY-6). -/
abbrev ASY_DISTCNT : Nat := 0xC0020
/-- ASY_TEMP, ro (Table ASY-6). -/
abbrev ASY_TEMP : Nat := 0xC0024
/-- ASY_HOPASYM, rw (Table ASY-6). -/
abbrev ASY_HOPASYM (i : Nat) : Nat := 0xC0100 + 0x4 * (i % 32)
/-- ASY_SKEW, ro (Table ASY-6). -/
abbrev ASY_SKEW (i : Nat) : Nat := 0xC0200 + 0x4 * (i % 32)
/-- ASY_TDCOFS, ro (Table ASY-6). -/
abbrev ASY_TDCOFS (i : Nat) : Nat := 0xC0300 + 0x4 * (i % 16)
/-- ASY_DRIFT, ro (Table ASY-6). -/
abbrev ASY_DRIFT (i : Nat) : Nat := 0xC0380 + 0x4 * (i % 8)
end R

namespace F
abbrev ID_WRLAST_ADDR_BAR0 : Fld := ⟨R.ID_WRLAST_ADDR, 19, 0⟩
abbrev ID_WRLAST_ADDR_SEQ : Fld := ⟨R.ID_WRLAST_ADDR, 27, 20⟩
abbrev ID_WRLAST_ADDR_VALID : Fld := ⟨R.ID_WRLAST_ADDR, 31, 31⟩
abbrev PWR_STAT_STATE : Fld := ⟨R.PWR_STAT, 3, 0⟩
abbrev PWR_STAT_BRACE : Fld := ⟨R.PWR_STAT, 4, 4⟩
abbrev PWR_STAT_HOLDUP : Fld := ⟨R.PWR_STAT, 5, 5⟩
abbrev PWR_STAT_DRAINING : Fld := ⟨R.PWR_STAT, 6, 6⟩
abbrev PWR_STAT_CLOSED_OUT : Fld := ⟨R.PWR_STAT, 7, 7⟩
abbrev PWR_STAT_BKP_READY : Fld := ⟨R.PWR_STAT, 8, 8⟩
abbrev PWR_STAT_PEN_CORE : Fld := ⟨R.PWR_STAT, 9, 9⟩
abbrev PWR_STAT_HOLDEN : Fld := ⟨R.PWR_STAT, 10, 10⟩
abbrev PWR_STAT_PENDING : Fld := ⟨R.PWR_STAT, 11, 11⟩
abbrev PWR_STAT_CMD_RESULT : Fld := ⟨R.PWR_STAT, 31, 16⟩
abbrev PWR_CTRL_RUN_NEEDS_BKP : Fld := ⟨R.PWR_CTRL, 0, 0⟩
abbrev PWR_CTRL_BRACE_RING : Fld := ⟨R.PWR_CTRL, 1, 1⟩
abbrev PWR_RESUME_EN : Fld := ⟨R.PWR_RESUME, 0, 0⟩
abbrev PWR_RESUME_LIMIT_MS : Fld := ⟨R.PWR_RESUME, 31, 16⟩
abbrev SUP_MTHR0_MISS_PCT : Fld := ⟨R.SUP_MTHR0, 7, 0⟩
abbrev SUP_MTHR0_SAG_PCT : Fld := ⟨R.SUP_MTHR0, 15, 8⟩
abbrev SUP_MTHR0_SWELL_PCT : Fld := ⟨R.SUP_MTHR0, 23, 16⟩
abbrev SUP_MTHR0_INT_PCT : Fld := ⟨R.SUP_MTHR0, 31, 24⟩
abbrev SUP_MTHR1_SAG_N : Fld := ⟨R.SUP_MTHR1, 3, 0⟩
abbrev SUP_MTHR1_SWELL_N : Fld := ⟨R.SUP_MTHR1, 7, 4⟩
abbrev SUP_MTHR1_INT_N : Fld := ⟨R.SUP_MTHR1, 11, 8⟩
abbrev SUP_MTHR1_GOOD_N : Fld := ⟨R.SUP_MTHR1, 15, 12⟩
abbrev SUP_MTHR1_FEXC : Fld := ⟨R.SUP_MTHR1, 23, 16⟩
abbrev SUP_MPH_EN (i : Nat) : Fld := ⟨R.SUP_MPH i, 31, 31⟩
abbrev SUP_MPH_EDGE (i : Nat) : Fld := ⟨R.SUP_MPH i, 16, 16⟩
abbrev SUP_MPH_OFFSET (i : Nat) : Fld := ⟨R.SUP_MPH i, 15, 0⟩
abbrev SUP_DCTHR0_DCBRACE : Fld := ⟨R.SUP_DCTHR0, 11, 0⟩
abbrev SUP_DCTHR0_DCHOLD : Fld := ⟨R.SUP_DCTHR0, 27, 16⟩
abbrev SUP_DCTHR1_DCREL : Fld := ⟨R.SUP_DCTHR1, 11, 0⟩
abbrev SUP_DCVAL_DCSENSE : Fld := ⟨R.SUP_DCVAL, 11, 0⟩
abbrev SUP_DCVAL_THR_ERR : Fld := ⟨R.SUP_DCVAL, 31, 31⟩
abbrev SUP_BKP_VBKP : Fld := ⟨R.SUP_BKP, 12, 0⟩
abbrev SUP_BKP_CHARGER : Fld := ⟨R.SUP_BKP, 18, 16⟩
abbrev SUP_BKP_EXHAUSTED : Fld := ⟨R.SUP_BKP, 24, 24⟩
abbrev SUP_BKPTHR_BKP_READY : Fld := ⟨R.SUP_BKPTHR, 12, 0⟩
abbrev SUP_STRAP_HOSTSEL : Fld := ⟨R.SUP_STRAP, 4, 4⟩
abbrev SUP_STRAP_SAFEA : Fld := ⟨R.SUP_STRAP, 7, 6⟩
abbrev SUP_STRAP_SAFEB : Fld := ⟨R.SUP_STRAP, 9, 8⟩
abbrev SUP_RCODE_POSN : Fld := ⟨R.SUP_RCODE, 4, 0⟩
abbrev SUP_RCODE_HPSET : Fld := ⟨R.SUP_RCODE, 12, 8⟩
abbrev SUP_RCODE_MNOM : Fld := ⟨R.SUP_RCODE, 19, 16⟩
abbrev SUP_RCODE_CHGSET : Fld := ⟨R.SUP_RCODE, 23, 20⟩
abbrev SUP_BOOT_PHASE : Fld := ⟨R.SUP_BOOT, 3, 0⟩
abbrev SUP_BOOT_COLD_CAUSE : Fld := ⟨R.SUP_BOOT, 7, 4⟩
abbrev SUP_BOOT_REASON : Fld := ⟨R.SUP_BOOT, 31, 16⟩
abbrev SUP_BOOT_T_COMPLETION (i : Nat) : Fld := ⟨R.SUP_BOOT_T i, 23, 0⟩
abbrev SUP_ROLE_CURRENT : Fld := ⟨R.SUP_ROLE, 1, 0⟩
abbrev SUP_ROLE_LEDGER_FORMATTED : Fld := ⟨R.SUP_ROLE, 2, 2⟩
abbrev SUP_ROLE_DUAL_SEAL : Fld := ⟨R.SUP_ROLE, 3, 3⟩
abbrev CLK_STAT_LOCKED : Fld := ⟨R.CLK_STAT, 0, 0⟩
abbrev CLK_STAT_HOLDOVER : Fld := ⟨R.CLK_STAT, 1, 1⟩
abbrev CLK_STAT_REF_PRESENT : Fld := ⟨R.CLK_STAT, 2, 2⟩
abbrev CLK_STAT_REF_QUAL : Fld := ⟨R.CLK_STAT, 3, 3⟩
abbrev CLK_STAT_SPLL : Fld := ⟨R.CLK_STAT, 6, 4⟩
abbrev CLK_STAT_RING_SRC : Fld := ⟨R.CLK_STAT, 7, 7⟩
abbrev CLK_STAT_REASON : Fld := ⟨R.CLK_STAT, 31, 16⟩
abbrev CLK_CTRL_HO_EXPIRE : Fld := ⟨R.CLK_CTRL, 0, 0⟩
abbrev CLK_CTRL_HO_MANUAL : Fld := ⟨R.CLK_CTRL, 1, 1⟩
abbrev CLK_CTRL_HO_HANDOVER : Fld := ⟨R.CLK_CTRL, 2, 2⟩
abbrev CLK_EVT_CNT_REF_LOSS : Fld := ⟨R.CLK_EVT_CNT, 7, 0⟩
abbrev CLK_EVT_CNT_SPLL_UNLOCK : Fld := ⟨R.CLK_EVT_CNT, 15, 8⟩
abbrev CLK_EVT_CNT_HOLDOVER : Fld := ⟨R.CLK_EVT_CNT, 23, 16⟩
abbrev AS_STAT_STATE : Fld := ⟨R.AS_STAT, 2, 0⟩
abbrev AS_STAT_LOCKED : Fld := ⟨R.AS_STAT, 3, 3⟩
abbrev AS_STAT_LOCK_SUSPECT : Fld := ⟨R.AS_STAT, 4, 4⟩
abbrev AS_STAT_BYPASS : Fld := ⟨R.AS_STAT, 5, 5⟩
abbrev AS_STAT_ACTIVE : Fld := ⟨R.AS_STAT, 8, 6⟩
abbrev AS_STAT_PENDING : Fld := ⟨R.AS_STAT, 9, 9⟩
abbrev AS_STAT_SYNC_DROP : Fld := ⟨R.AS_STAT, 10, 10⟩
abbrev AS_STAT_BYPCLK_LOST : Fld := ⟨R.AS_STAT, 11, 11⟩
abbrev AS_STAT_REASON : Fld := ⟨R.AS_STAT, 31, 16⟩
abbrev AS_CTRL_EN : Fld := ⟨R.AS_CTRL, 0, 0⟩
abbrev AS_CTRL_SUSPECT_BYP : Fld := ⟨R.AS_CTRL, 1, 1⟩
abbrev AS_CTRL_AUTORET : Fld := ⟨R.AS_CTRL, 2, 2⟩
abbrev AS_BYP_SRC : Fld := ⟨R.AS_BYP, 0, 0⟩
abbrev AS_BYP_DIV : Fld := ⟨R.AS_BYP, 16, 4⟩
abbrev AS_FREQERR_DEVIATION : Fld := ⟨R.AS_FREQERR, 15, 0⟩
abbrev AS_DIV_SHADOW (i : Nat) : Fld := ⟨R.AS_DIV i, 23, 0⟩
abbrev AS_OUT_FMT (i : Nat) : Fld := ⟨R.AS_OUT i, 1, 0⟩
abbrev AS_OUT_SYNCEN (i : Nat) : Fld := ⟨R.AS_OUT i, 2, 2⟩
abbrev AS_OUT_BRACE_RUN (i : Nat) : Fld := ⟨R.AS_OUT i, 3, 3⟩
abbrev AS_OUT_ILK (i : Nat) : Fld := ⟨R.AS_OUT i, 4, 4⟩
abbrev AS_OUT_HOPMODE (i : Nat) : Fld := ⟨R.AS_OUT i, 5, 5⟩
abbrev AS_OUT_BYPDIV (i : Nat) : Fld := ⟨R.AS_OUT i, 15, 8⟩
abbrev AS_OUT_EN (i : Nat) : Fld := ⟨R.AS_OUT i, 16, 16⟩
abbrev AS_DEP_HEAD : Fld := ⟨R.AS_DEP, 15, 0⟩
abbrev AS_DEP_PO : Fld := ⟨R.AS_DEP, 19, 16⟩
abbrev AS_PN_N_INT (i : Nat) : Fld := ⟨R.AS_PN i, 7, 0⟩
abbrev AS_PBAND_BAND (i : Nat) : Fld := ⟨R.AS_PBAND i, 5, 0⟩
abbrev AS_PBAND_VALID (i : Nat) : Fld := ⟨R.AS_PBAND i, 6, 6⟩
abbrev AS_PBAND_DIE (i : Nat) : Fld := ⟨R.AS_PBAND i, 15, 8⟩
abbrev AS_PD_DIVIDER (i : Nat) (j : Nat) : Fld := ⟨R.AS_PD i j, 23, 0⟩
abbrev BT_STAT_HOLDOVER : Fld := ⟨R.BT_STAT, 0, 0⟩
abbrev BT_STAT_GAP_UNKNOWN : Fld := ⟨R.BT_STAT, 1, 1⟩
abbrev BT_STAT_FWD_STEP : Fld := ⟨R.BT_STAT, 2, 2⟩
abbrev BT_STAT_REGRESS : Fld := ⟨R.BT_STAT, 3, 3⟩
abbrev BT_STAT_LEAP : Fld := ⟨R.BT_STAT, 4, 4⟩
abbrev BT_REGRESS_CNT_FRAMES : Fld := ⟨R.BT_REGRESS_CNT, 15, 0⟩
abbrev CAL_CTRL_REGRESS_OK : Fld := ⟨R.CAL_CTRL, 8, 8⟩
abbrev CAL_STAT_VALID : Fld := ⟨R.CAL_STAT, 0, 0⟩
abbrev CAL_STAT_PENDING : Fld := ⟨R.CAL_STAT, 1, 1⟩
abbrev CAL_STAT_CLAMPED : Fld := ⟨R.CAL_STAT, 2, 2⟩
abbrev CAL_STAT_SET_RESULT : Fld := ⟨R.CAL_STAT, 31, 16⟩
abbrev CAL_EPOCH_CALENDAR : Fld := ⟨R.CAL_EPOCH, 15, 0⟩
abbrev HST_STAT_LINK_UP : Fld := ⟨R.HST_STAT, 0, 0⟩
abbrev HST_STAT_GEN2 : Fld := ⟨R.HST_STAT, 1, 1⟩
abbrev HST_STAT_WIDTH : Fld := ⟨R.HST_STAT, 3, 2⟩
abbrev HST_STAT_BME : Fld := ⟨R.HST_STAT, 4, 4⟩
abbrev HST_STAT_D3HOT : Fld := ⟨R.HST_STAT, 5, 5⟩
abbrev HST_STAT_SIZE_ERR : Fld := ⟨R.HST_STAT, 8, 8⟩
abbrev HST_STAT_RSV_WRITE : Fld := ⟨R.HST_STAT, 9, 9⟩
abbrev HST_STAT_LAST : Fld := ⟨R.HST_STAT, 31, 16⟩
abbrev HST_ERR_JOB : Fld := ⟨R.HST_ERR, 8, 0⟩
abbrev HST_ERR_REASON : Fld := ⟨R.HST_ERR, 31, 16⟩
abbrev HST_DMA_FAILCNT_FAILED : Fld := ⟨R.HST_DMA_FAILCNT, 15, 0⟩
abbrev HST_SPI_ERRCNT_CRC : Fld := ⟨R.HST_SPI_ERRCNT, 7, 0⟩
abbrev HST_SPI_ERRCNT_CMD : Fld := ⟨R.HST_SPI_ERRCNT, 15, 8⟩
abbrev HST_SPI_ERRCNT_TIMEOUT : Fld := ⟨R.HST_SPI_ERRCNT, 23, 16⟩
abbrev HST_SPI_ERRCNT_ABORT : Fld := ⟨R.HST_SPI_ERRCNT, 31, 24⟩
abbrev HST_SPI_WCNT_WRITE : Fld := ⟨R.HST_SPI_WCNT, 31, 0⟩
abbrev HST_CQ_CFG_N (i : Nat) : Fld := ⟨R.HST_CQ_CFG i, 3, 0⟩
abbrev HST_CQ_CFG_EN (i : Nat) : Fld := ⟨R.HST_CQ_CFG i, 16, 16⟩
abbrev HST_CQ_MOD_COUNT (i : Nat) : Fld := ⟨R.HST_CQ_MOD i, 7, 0⟩
abbrev HST_CQ_MOD_TIME (i : Nat) : Fld := ⟨R.HST_CQ_MOD i, 31, 16⟩
abbrev HST_CQ_STAT_FULL (i : Nat) : Fld := ⟨R.HST_CQ_STAT i, 0, 0⟩
abbrev HST_CQ_STAT_HEAD_ERR (i : Nat) : Fld := ⟨R.HST_CQ_STAT i, 1, 1⟩
abbrev HST_CQ_STAT_REDELIVERING (i : Nat) : Fld := ⟨R.HST_CQ_STAT i, 2, 2⟩
abbrev HST_SUBSTAT_BUSY : Fld := ⟨R.HST_SUBSTAT, 0, 0⟩
abbrev HST_SUBSTAT_REASON : Fld := ⟨R.HST_SUBSTAT, 31, 16⟩
abbrev HST_CQSEL_COMPLETION : Fld := ⟨R.HST_CQSEL, 3, 0⟩
abbrev JR_SQCFG_N (i : Nat) : Fld := ⟨R.JR_SQCFG i, 3, 0⟩
abbrev JR_SQCFG_CQ (i : Nat) : Fld := ⟨R.JR_SQCFG i, 19, 16⟩
abbrev JR_SQCFG_EN (i : Nat) : Fld := ⟨R.JR_SQCFG i, 31, 31⟩
abbrev JR_HSTAT_DB_REFUSED (i : Nat) : Fld := ⟨R.JR_HSTAT i, 0, 0⟩
abbrev JR_HSTAT_DMA_FAIL (i : Nat) : Fld := ⟨R.JR_HSTAT i, 1, 1⟩
abbrev JR_HSTAT_REASON (i : Nat) : Fld := ⟨R.JR_HSTAT i, 31, 16⟩
abbrev JR_BIND_EXEC_POS (i : Nat) : Fld := ⟨R.JR_BIND i, 4, 0⟩
abbrev JR_BIND_TRIG_POS (i : Nat) : Fld := ⟨R.JR_BIND i, 9, 5⟩
abbrev JR_BIND_TSRC (i : Nat) : Fld := ⟨R.JR_BIND i, 12, 10⟩
abbrev JR_BIND_TIDX (i : Nat) : Fld := ⟨R.JR_BIND i, 18, 13⟩
abbrev JR_BIND_ENC (i : Nat) : Fld := ⟨R.JR_BIND i, 21, 19⟩
abbrev JR_BIND_ENC_EN (i : Nat) : Fld := ⟨R.JR_BIND i, 22, 22⟩
abbrev JR_BIND_VALID (i : Nat) : Fld := ⟨R.JR_BIND i, 31, 31⟩
abbrev JR_ACFG_PRIO (i : Nat) : Fld := ⟨R.JR_ACFG i, 2, 0⟩
abbrev JR_ACFG_DUALREQ (i : Nat) : Fld := ⟨R.JR_ACFG i, 3, 3⟩
abbrev JR_ACFG_CRCEN (i : Nat) : Fld := ⟨R.JR_ACFG i, 4, 4⟩
abbrev JR_ACFG_DWIN (i : Nat) : Fld := ⟨R.JR_ACFG i, 14, 8⟩
abbrev JR_ACFG_MAXRATE (i : Nat) : Fld := ⟨R.JR_ACFG i, 31, 16⟩
abbrev JR_PLAN_ENG (i : Nat) : Fld := ⟨R.JR_PLAN i, 25, 20⟩
abbrev JR_PLAN_ENG_EN (i : Nat) : Fld := ⟨R.JR_PLAN i, 26, 26⟩
abbrev JR_REFLAST_REASON (i : Nat) : Fld := ⟨R.JR_REFLAST i, 15, 0⟩
abbrev JR_IK_REFCNT_REFUSALS : Fld := ⟨R.JR_IK_REFCNT, 31, 0⟩
abbrev JR_CANCEL_STAT_BUSY : Fld := ⟨R.JR_CANCEL_STAT, 0, 0⟩
abbrev JR_CANCEL_STAT_SKIPPED : Fld := ⟨R.JR_CANCEL_STAT, 15, 4⟩
abbrev JR_CANCEL_STAT_RESULT : Fld := ⟨R.JR_CANCEL_STAT, 31, 16⟩
abbrev JR_CANCEL_CNT_JOBS : Fld := ⟨R.JR_CANCEL_CNT, 12, 0⟩
abbrev LDG_STAT_MOUNTED : Fld := ⟨R.LDG_STAT, 0, 0⟩
abbrev LDG_STAT_BLANK : Fld := ⟨R.LDG_STAT, 1, 1⟩
abbrev LDG_STAT_SATURATED : Fld := ⟨R.LDG_STAT, 2, 2⟩
abbrev LDG_STAT_DUAL : Fld := ⟨R.LDG_STAT, 3, 3⟩
abbrev LDG_STAT_CATCHUP : Fld := ⟨R.LDG_STAT, 4, 4⟩
abbrev LDG_STAT_CORRUPT : Fld := ⟨R.LDG_STAT, 5, 5⟩
abbrev LDG_STAT_RESULT : Fld := ⟨R.LDG_STAT, 31, 16⟩
abbrev LDG_REPLAY_UNCONFIRMED : Fld := ⟨R.LDG_REPLAY, 15, 0⟩
abbrev LDG_REPLAY_TORN : Fld := ⟨R.LDG_REPLAY, 23, 16⟩
abbrev LDG_REPLAY_LATE : Fld := ⟨R.LDG_REPLAY, 31, 24⟩
abbrev LDG_CARRY_CNT_CARRY : Fld := ⟨R.LDG_CARRY_CNT, 31, 0⟩
abbrev LDG_SEALCNT_RECORDS : Fld := ⟨R.LDG_SEALCNT, 31, 0⟩
abbrev LDG_MIRLAG_WORST : Fld := ⟨R.LDG_MIRLAG, 15, 8⟩
abbrev SCC_STAT_PHASE : Fld := ⟨R.SCC_STAT, 2, 0⟩
abbrev SCC_STAT_LOCKED : Fld := ⟨R.SCC_STAT, 3, 3⟩
abbrev SCC_STAT_RESULT : Fld := ⟨R.SCC_STAT, 31, 16⟩
abbrev TRG_CFG_EN (i : Nat) : Fld := ⟨R.TRG_CFG i, 0, 0⟩
abbrev TRG_CFG_EDGE (i : Nat) : Fld := ⟨R.TRG_CFG i, 1, 1⟩
abbrev TRG_CFG_GLITCH (i : Nat) : Fld := ⟨R.TRG_CFG i, 13, 4⟩
abbrev TRG_CFG_HMODE (i : Nat) : Fld := ⟨R.TRG_CFG i, 17, 16⟩
abbrev TRG_CFG_HENC (i : Nat) : Fld := ⟨R.TRG_CFG i, 22, 20⟩
abbrev TRG_DEB_DEBOUNCE (i : Nat) : Fld := ⟨R.TRG_DEB i, 15, 0⟩
abbrev TRG_CNT_ACTIVE (i : Nat) : Fld := ⟨R.TRG_CNT i, 31, 0⟩
abbrev TRG_CAPCNT_CAPTURES (i : Nat) : Fld := ⟨R.TRG_CAPCNT i, 31, 0⟩
abbrev TRG_OVR_OVERRUN (i : Nat) : Fld := ⟨R.TRG_OVR i, 15, 0⟩
abbrev TRG_HELD_EDGES (i : Nat) : Fld := ⟨R.TRG_HELD i, 15, 0⟩
abbrev TRG_GCFG_FMT (i : Nat) : Fld := ⟨R.TRG_GCFG i, 1, 0⟩
abbrev TRG_ILKCNT_CAPTURES : Fld := ⟨R.TRG_ILKCNT, 15, 0⟩
abbrev TRG_RUNCL_UNCLAIMED (i : Nat) : Fld := ⟨R.TRG_RUNCL i, 15, 0⟩
abbrev ENC_CFG_MODE (i : Nat) : Fld := ⟨R.ENC_CFG i, 1, 0⟩
abbrev ENC_CFG_DIR (i : Nat) : Fld := ⟨R.ENC_CFG i, 2, 2⟩
abbrev ENC_CFG_REVMODE (i : Nat) : Fld := ⟨R.ENC_CFG i, 3, 3⟩
abbrev ENC_CFG_ZMODE (i : Nat) : Fld := ⟨R.ENC_CFG i, 11, 10⟩
abbrev ENC_CFG_IDXFENCE (i : Nat) : Fld := ⟨R.ENC_CFG i, 12, 12⟩
abbrev ENC_CFG_VMAXFENCE (i : Nat) : Fld := ⟨R.ENC_CFG i, 13, 13⟩
abbrev ENC_CFG_EN (i : Nat) : Fld := ⟨R.ENC_CFG i, 15, 15⟩
abbrev ENC_SPWIN_SPWIN (i : Nat) : Fld := ⟨R.ENC_SPWIN i, 12, 0⟩
abbrev ENC_SPWIN_STOPTMO (i : Nat) : Fld := ⟨R.ENC_SPWIN i, 31, 16⟩
abbrev ENC_PERRMAX_PHASE (i : Nat) : Fld := ⟨R.ENC_PERRMAX i, 15, 0⟩
abbrev ENC_STAT_STOPPED (i : Nat) : Fld := ⟨R.ENC_STAT i, 0, 0⟩
abbrev ENC_STAT_REVERSE (i : Nat) : Fld := ⟨R.ENC_STAT i, 1, 1⟩
abbrev ENC_STAT_SPEED_VALID (i : Nat) : Fld := ⟨R.ENC_STAT i, 2, 2⟩
abbrev ENC_STAT_OVERSPEED (i : Nat) : Fld := ⟨R.ENC_STAT i, 3, 3⟩
abbrev ENC_STAT_PHASE (i : Nat) : Fld := ⟨R.ENC_STAT i, 4, 4⟩
abbrev ENC_STAT_INDEX (i : Nat) : Fld := ⟨R.ENC_STAT i, 5, 5⟩
abbrev ENC_STAT_VMAX (i : Nat) : Fld := ⟨R.ENC_STAT i, 6, 6⟩
abbrev ENC_STAT_REASON (i : Nat) : Fld := ⟨R.ENC_STAT i, 31, 16⟩
abbrev ENC_PERR_PHASE (i : Nat) : Fld := ⟨R.ENC_PERR i, 15, 0⟩
abbrev PO_CFG_EN (i : Nat) : Fld := ⟨R.PO_CFG i, 0, 0⟩
abbrev PO_CFG_POL (i : Nat) : Fld := ⟨R.PO_CFG i, 1, 1⟩
abbrev PO_TRIM_TRIM (i : Nat) : Fld := ⟨R.PO_TRIM i, 15, 0⟩
abbrev PO_MAXACT_MAXIMUM (i : Nat) : Fld := ⟨R.PO_MAXACT i, 23, 0⟩
abbrev PO_STAT_ADJ (i : Nat) : Fld := ⟨R.PO_STAT i, 3, 3⟩
abbrev PO_STAT_MAXACT (i : Nat) : Fld := ⟨R.PO_STAT i, 4, 4⟩
abbrev PO_EDGECNT_TRANSITIONS (i : Nat) : Fld := ⟨R.PO_EDGECNT i, 31, 0⟩
abbrev PO_ADJCNT_EDGES (i : Nat) : Fld := ⟨R.PO_ADJCNT i, 15, 0⟩
abbrev PO_GATESKIP_REPETITIONS (i : Nat) : Fld := ⟨R.PO_GATESKIP i, 15, 0⟩
abbrev PO_GCFG_FMT (i : Nat) : Fld := ⟨R.PO_GCFG i, 1, 0⟩
abbrev PO_ILKSTAT_ILK_L : Fld := ⟨R.PO_ILKSTAT, 0, 0⟩
abbrev PO_ILKSTAT_ACTING : Fld := ⟨R.PO_ILKSTAT, 1, 1⟩
abbrev PO_ILKSTAT_RELEASING : Fld := ⟨R.PO_ILKSTAT, 2, 2⟩
abbrev PO_ILKREL_RELEASE : Fld := ⟨R.PO_ILKREL, 15, 0⟩
abbrev PO_ILKCNT_INTERLOCK : Fld := ⟨R.PO_ILKCNT, 15, 0⟩
abbrev HP_CFG_MODE (i : Nat) : Fld := ⟨R.HP_CFG i, 1, 0⟩
abbrev HP_CFG_AUTOTRAIN (i : Nat) : Fld := ⟨R.HP_CFG i, 2, 2⟩
abbrev HP_CFG_RETRY (i : Nat) : Fld := ⟨R.HP_CFG i, 6, 4⟩
abbrev HP_LATMAX_NS (i : Nat) : Fld := ⟨R.HP_LATMAX i, 15, 0⟩
abbrev HP_CABLE_CABLE (i : Nat) : Fld := ⟨R.HP_CABLE i, 15, 0⟩
abbrev HP_EXPECT0_VENDOR (i : Nat) : Fld := ⟨R.HP_EXPECT0 i, 15, 0⟩
abbrev HP_EXPECT0_PRODUCT (i : Nat) : Fld := ⟨R.HP_EXPECT0 i, 31, 16⟩
abbrev HP_EXPECT1_MINCH (i : Nat) : Fld := ⟨R.HP_EXPECT1 i, 8, 0⟩
abbrev HP_EXPECT1_MAXCOL (i : Nat) : Fld := ⟨R.HP_EXPECT1 i, 31, 16⟩
abbrev HP_ERRTHR_ERROR (i : Nat) : Fld := ⟨R.HP_ERRTHR i, 15, 0⟩
abbrev HP_ENG_ENG (i : Nat) : Fld := ⟨R.HP_ENG i, 5, 0⟩
abbrev HP_CMDOWN_OWNER (i : Nat) : Fld := ⟨R.HP_CMDOWN i, 0, 0⟩
abbrev HP_CMDOWN_ENGINE (i : Nat) : Fld := ⟨R.HP_CMDOWN i, 6, 1⟩
abbrev HP_STAT_LSTATE (i : Nat) : Fld := ⟨R.HP_STAT i, 2, 0⟩
abbrev HP_STAT_ABORTING (i : Nat) : Fld := ⟨R.HP_STAT i, 4, 4⟩
abbrev HP_STAT_TRAINING (i : Nat) : Fld := ⟨R.HP_STAT i, 31, 24⟩
abbrev HP_ERRCNT_CRC16 (i : Nat) : Fld := ⟨R.HP_ERRCNT i, 7, 0⟩
abbrev HP_ERRCNT_ERROR (i : Nat) : Fld := ⟨R.HP_ERRCNT i, 15, 8⟩
abbrev HP_ERRCNT_MISSING (i : Nat) : Fld := ⟨R.HP_ERRCNT i, 23, 16⟩
abbrev HP_ERRCNT_DISCARDED (i : Nat) : Fld := ⟨R.HP_ERRCNT i, 31, 24⟩
abbrev HP_FIRECNT_FRAMES (i : Nat) : Fld := ⟨R.HP_FIRECNT i, 31, 0⟩
abbrev HP_CADDR_COMMAND (i : Nat) : Fld := ⟨R.HP_CADDR i, 15, 0⟩
abbrev HP_CDATA_COMMAND (i : Nat) : Fld := ⟨R.HP_CDATA i, 15, 0⟩
abbrev HP_CRESP_CSTAT (i : Nat) : Fld := ⟨R.HP_CRESP i, 23, 20⟩
abbrev SP_CFG_EN (i : Nat) : Fld := ⟨R.SP_CFG i, 0, 0⟩
abbrev SP_CFG_MKOWN (i : Nat) : Fld := ⟨R.SP_CFG i, 31, 16⟩
abbrev SP_STBASE_STEP (i : Nat) : Fld := ⟨R.SP_STBASE i, 14, 0⟩
abbrev SP_CLK_MODE (i : Nat) : Fld := ⟨R.SP_CLK i, 0, 0⟩
abbrev SP_PLANRATE_PLANNING (i : Nat) : Fld := ⟨R.SP_PLANRATE i, 21, 0⟩
abbrev SP_SBBASE_STREAM (i : Nat) : Fld := ⟨R.SP_SBBASE i, 14, 0⟩
abbrev SP_SBCFG_N (i : Nat) : Fld := ⟨R.SP_SBCFG i, 3, 0⟩
abbrev SP_SBCFG_LWM (i : Nat) : Fld := ⟨R.SP_SBCFG i, 27, 16⟩
abbrev SP_STAT_WR_ERR (i : Nat) : Fld := ⟨R.SP_STAT i, 2, 2⟩
abbrev SP_STAT_UNDERRUN (i : Nat) : Fld := ⟨R.SP_STAT i, 3, 3⟩
abbrev SP_STAT_LWM (i : Nat) : Fld := ⟨R.SP_STAT i, 4, 4⟩
abbrev SP_COLCNT_COLUMNS (i : Nat) : Fld := ⟨R.SP_COLCNT i, 31, 0⟩
abbrev SP_CADJCNT_COLUMNS (i : Nat) : Fld := ⟨R.SP_CADJCNT i, 15, 0⟩
abbrev SP_CADJCNT_GROUPS (i : Nat) : Fld := ⟨R.SP_CADJCNT i, 31, 16⟩
abbrev SP_UNDCNT_GRANULES (i : Nat) : Fld := ⟨R.SP_UNDCNT i, 15, 0⟩
abbrev SP_UNDCNT_STEP (i : Nat) : Fld := ⟨R.SP_UNDCNT i, 31, 16⟩
abbrev SP_SEGTAB_SEGMENT : Fld := ⟨R.SP_SEGTAB, 14, 0⟩
abbrev SP_SLTAB_SPLICE : Fld := ⟨R.SP_SLTAB, 14, 0⟩
abbrev SP_WPROT_DISCARDED : Fld := ⟨R.SP_WPROT, 15, 0⟩
abbrev SP_LDSRC_SOURCE : Fld := ⟨R.SP_LDSRC, 23, 0⟩
abbrev SP_LDDST_DESTINATION : Fld := ⟨R.SP_LDDST, 23, 0⟩
abbrev SP_LDLEN_BYTES : Fld := ⟨R.SP_LDLEN, 24, 0⟩
abbrev SP_LDSTAT_BUSY : Fld := ⟨R.SP_LDSTAT, 0, 0⟩
abbrev SP_LDSTAT_RESULT : Fld := ⟨R.SP_LDSTAT, 31, 16⟩
abbrev TAL_CFG_TYPE (i : Nat) : Fld := ⟨R.TAL_CFG i, 2, 0⟩
abbrev TAL_CFG_RADIX (i : Nat) : Fld := ⟨R.TAL_CFG i, 5, 4⟩
abbrev TAL_CFG_DIGITS (i : Nat) : Fld := ⟨R.TAL_CFG i, 10, 6⟩
abbrev TAL_CFG_ZPAD (i : Nat) : Fld := ⟨R.TAL_CFG i, 11, 11⟩
abbrev TAL_CFG_MPAT (i : Nat) : Fld := ⟨R.TAL_CFG i, 13, 12⟩
abbrev TAL_CFG_LOAD (i : Nat) : Fld := ⟨R.TAL_CFG i, 31, 31⟩
abbrev TAL_STAT_LAST_VALID (i : Nat) : Fld := ⟨R.TAL_STAT i, 8, 8⟩
abbrev TAL_GAPCNT_VALUES (i : Nat) : Fld := ⟨R.TAL_GAPCNT i, 15, 0⟩
abbrev TNK_CFG_EN (i : Nat) : Fld := ⟨R.TNK_CFG i, 0, 0⟩
abbrev TNK_CFG_START (i : Nat) : Fld := ⟨R.TNK_CFG i, 6, 1⟩
abbrev TNK_CFG_SWAPMODE (i : Nat) : Fld := ⟨R.TNK_CFG i, 7, 7⟩
abbrev TNK_CFG_OUTINIT (i : Nat) : Fld := ⟨R.TNK_CFG i, 15, 8⟩
abbrev TNK_CFG_TXDST (i : Nat) : Fld := ⟨R.TNK_CFG i, 16, 16⟩
abbrev TNK_CFG_CMDPORT (i : Nat) : Fld := ⟨R.TNK_CFG i, 20, 17⟩
abbrev TNK_CFG_HOSTQ (i : Nat) : Fld := ⟨R.TNK_CFG i, 21, 21⟩
abbrev TNK_QSTAT_HOSTDROP (i : Nat) : Fld := ⟨R.TNK_QSTAT i, 16, 16⟩
abbrev TNK_OVR_RAISES (i : Nat) : Fld := ⟨R.TNK_OVR i, 15, 0⟩
abbrev TNK_SGCFG_STALL (i : Nat) : Fld := ⟨R.TNK_SGCFG i, 15, 0⟩
abbrev TNK_SGCFG_AUTOSTART (i : Nat) : Fld := ⟨R.TNK_SGCFG i, 16, 16⟩
abbrev TNK_CMDSTAT_PENDING : Fld := ⟨R.TNK_CMDSTAT, 0, 0⟩
abbrev TNK_CMDSTAT_RESULT : Fld := ⟨R.TNK_CMDSTAT, 31, 16⟩
abbrev WR_DCW_D_CW (i : Nat) : Fld := ⟨R.WR_DCW i, 23, 0⟩
abbrev WR_DCCW_D_CCW (i : Nat) : Fld := ⟨R.WR_DCCW i, 23, 0⟩
abbrev WR_ERRCNT_CRC (i : Nat) : Fld := ⟨R.WR_ERRCNT i, 15, 0⟩
abbrev WR_ERRCNT_SYNC (i : Nat) : Fld := ⟨R.WR_ERRCNT i, 31, 16⟩
abbrev WR_POISON_POISONED (i : Nat) : Fld := ⟨R.WR_POISON i, 15, 0⟩
abbrev WR_CTRL_LOSTTMO : Fld := ⟨R.WR_CTRL, 6, 0⟩
abbrev WR_CTRL_ERRTHR : Fld := ⟨R.WR_CTRL, 31, 16⟩
abbrev WR_STAT_WRAPPED : Fld := ⟨R.WR_STAT, 10, 10⟩
abbrev WR_STAT_L : Fld := ⟨R.WR_STAT, 14, 11⟩
abbrev WR_STAT_RESULT : Fld := ⟨R.WR_STAT, 31, 16⟩
abbrev WR_BSWAIT_CAPTURES : Fld := ⟨R.WR_BSWAIT, 15, 0⟩
abbrev WR_WINSEL_POS : Fld := ⟨R.WR_WINSEL, 4, 0⟩
abbrev WR_WINSEL_PAGE : Fld := ⟨R.WR_WINSEL, 19, 16⟩
abbrev WR_WINSTAT_ERR : Fld := ⟨R.WR_WINSTAT, 0, 0⟩
abbrev WR_WINSTAT_TIMEOUT : Fld := ⟨R.WR_WINSTAT, 1, 1⟩
abbrev WR_WINSTAT_WPEND : Fld := ⟨R.WR_WINSTAT, 15, 8⟩
abbrev FEN_CMDSTAT_BUSY : Fld := ⟨R.FEN_CMDSTAT, 0, 0⟩
abbrev FEN_CMDSTAT_RESULT : Fld := ⟨R.FEN_CMDSTAT, 31, 16⟩
abbrev FEN_RECLAIMCNT_LEASES : Fld := ⟨R.FEN_RECLAIMCNT, 15, 0⟩
abbrev FEN_STALECNT_MESSAGES : Fld := ⟨R.FEN_STALECNT, 15, 0⟩
abbrev ASY_CTRL_RETRY : Fld := ⟨R.ASY_CTRL, 3, 0⟩
abbrev ASY_CTRL_GUARD : Fld := ⟨R.ASY_CTRL, 11, 4⟩
abbrev ASY_CTRL_TDCAUTO : Fld := ⟨R.ASY_CTRL, 12, 12⟩
abbrev ASY_CTRL_BACKOFF : Fld := ⟨R.ASY_CTRL, 31, 16⟩
abbrev ASY_TDCPER_AUTOMATIC : Fld := ⟨R.ASY_TDCPER, 15, 0⟩
abbrev ASY_STAT_BUSY : Fld := ⟨R.ASY_STAT, 0, 0⟩
abbrev ASY_STAT_PROC : Fld := ⟨R.ASY_STAT, 3, 1⟩
abbrev ASY_STAT_ATTEMPTS : Fld := ⟨R.ASY_STAT, 7, 4⟩
abbrev ASY_STAT_DRIFT_ON : Fld := ⟨R.ASY_STAT, 8, 8⟩
abbrev ASY_STAT_RANGE_HELD : Fld := ⟨R.ASY_STAT, 9, 9⟩
abbrev ASY_STAT_RSKEW_PEND : Fld := ⟨R.ASY_STAT, 10, 10⟩
abbrev ASY_STAT_RESULT : Fld := ⟨R.ASY_STAT, 31, 16⟩
abbrev ASY_GEN_COEFFICIENT : Fld := ⟨R.ASY_GEN, 31, 0⟩
abbrev ASY_RSKEWRES_LARGEST : Fld := ⟨R.ASY_RSKEWRES, 15, 0⟩
abbrev ASY_RSKEWRES_POSITION : Fld := ⟨R.ASY_RSKEWRES, 20, 16⟩
abbrev ASY_DISTCNT_DISTURBED : Fld := ⟨R.ASY_DISTCNT, 15, 0⟩
abbrev ASY_TEMP_DIE : Fld := ⟨R.ASY_TEMP, 7, 0⟩
abbrev ASY_SKEW_PIN (i : Nat) : Fld := ⟨R.ASY_SKEW i, 15, 0⟩
abbrev ASY_SKEW_EXT (i : Nat) : Fld := ⟨R.ASY_SKEW i, 16, 16⟩
abbrev ASY_TDCOFS_INPUT (i : Nat) : Fld := ⟨R.ASY_TDCOFS i, 15, 0⟩
abbrev ASY_DRIFT_SCALE (i : Nat) : Fld := ⟨R.ASY_DRIFT i, 15, 0⟩
abbrev ASY_DRIFT_DIE (i : Nat) : Fld := ⟨R.ASY_DRIFT i, 23, 16⟩
abbrev ASY_DRIFT_RANGE (i : Nat) : Fld := ⟨R.ASY_DRIFT i, 24, 24⟩
end F

/-- Reset classes of Table MAP-3. -/
inductive RClass | f | v | k | s | c | h
  deriving DecidableEq, Repr

/-- One register row: offset, strides and counts of its indices, and the bits of each access code. -/
structure RegRow where
  base : Nat
  dims : List (Nat × Nat)
  rw : Nat
  ro : Nat
  w1c : Nat
  wo : Nat
  rc : Nat
  st : Nat
  cls : RClass
  deriving DecidableEq, Repr

/-- Rows of the ID block. -/
def rowsId : List RegRow :=
  [⟨0x0, [], 0x0, 0xFFFFFFFF, 0x0, 0x0, 0x0, 0x0, .f⟩,
   ⟨0x4, [], 0x0, 0xFFFFFFFF, 0x0, 0x0, 0x0, 0x0, .f⟩,
   ⟨0x8, [], 0x0, 0xFFFFFFFF, 0x0, 0x0, 0x0, 0x0, .f⟩,
   ⟨0xC, [], 0x0, 0xFFFFFFFF, 0x0, 0x0, 0x0, 0x0, .f⟩,
   ⟨0x10, [], 0x0, 0xFF03, 0x0, 0x0, 0x0, 0x0, .f⟩,
   ⟨0x14, [], 0x0, 0x1F7F1FFF, 0x0, 0x0, 0x0, 0x0, .f⟩,
   ⟨0x18, [], 0xFFFFFFFF, 0x0, 0x0, 0x0, 0x0, 0x0, .c⟩,
   ⟨0x1C, [], 0x0, 0x3FFF, 0x0, 0x0, 0x0, 0x0, .s⟩,
   ⟨0x20, [], 0x0, 0x8FFFFFFF, 0x0, 0x0, 0x0, 0x0, .c⟩,
   ⟨0x24, [], 0x0, 0xFFFFFFFF, 0x0, 0x0, 0x0, 0x0, .c⟩]

/-- Rows of the PWR block. -/
def rowsPwr : List RegRow :=
  [⟨0x1000, [], 0x0, 0x0, 0x0, 0x3F37, 0x0, 0x0, .v⟩,
   ⟨0x1004, [], 0x0, 0xFFFF0FFF, 0x0, 0x0, 0x0, 0x0, .v⟩,
   ⟨0x1008, [], 0x0, 0xFFFFFFFF, 0x0, 0x0, 0x0, 0x0, .v⟩,
   ⟨0x100C, [], 0x0, 0xFFFFFF, 0x0, 0x0, 0x0, 0x0, .v⟩,
   ⟨0x1010, [], 0x3, 0x0, 0x0, 0x0, 0x0, 0x0, .v⟩,
   ⟨0x1014, [], 0xFFFF0001, 0x0, 0x0, 0x0, 0x0, 0x0, .v⟩,
   ⟨0x1018, [], 0xFF, 0x0, 0x0, 0x0, 0x0, 0x0, .v⟩,
   ⟨0x1020, [(0x4, 4)], 0x0, 0xFFFFFFFF, 0x0, 0x0, 0x0, 0x0, .v⟩,
   ⟨0x1030, [], 0x0, 0xFFFFFFFF, 0x0, 0x0, 0x0, 0x0, .v⟩,
   ⟨0x1034, [], 0x0, 0xFFFF003F, 0x0, 0x0, 0x0, 0x0, .v⟩,
   ⟨0x1100, [], 0xFFFFFFFF, 0x0, 0x0, 0x0, 0x0, 0x0, .v⟩,
   ⟨0x1104, [], 0xFFFFFF, 0x0, 0x0, 0x0, 0x0, 0x0, .v⟩,
   ⟨0x1108, [], 0x3F, 0x0, 0x0, 0x0, 0x0, 0x0, .v⟩,
   ⟨0x110C, [], 0xFFFF, 0x0, 0x0, 0x0, 0x0, 0x0, .v⟩,
   ⟨0x1110, [], 0x0, 0xFFFFFFFF, 0x0, 0x0, 0x0, 0x0, .v⟩,
   ⟨0x1114, [], 0x0, 0x0, 0x0, 0x0, 0x1FFFFFF, 0x0, .v⟩,
   ⟨0x1118, [], 0x0, 0xFFFFFFFF, 0x0, 0x0, 0x0, 0x0, .v⟩,
   ⟨0x111C, [], 0x0, 0xFFFFFF, 0x0, 0x0, 0x0, 0x0, .v⟩,
   ⟨0x1120, [], 0x0, 0xFFFF, 0x0, 0x0, 0x0, 0x0, .v⟩,
   ⟨0x1130, [(0x4, 4)], 0x0, 0x0, 0x0, 0x0, 0x0, 0x8001FFFF, .c⟩,
   ⟨0x1200, [], 0xFFF0FFF, 0x0, 0x0, 0x0, 0x0, 0x0, .v⟩,
   ⟨0x1204, [], 0xFFF, 0x0, 0x0, 0x0, 0x0, 0x0, .v⟩,
   ⟨0x1208, [], 0x0, 0xFFF, 0x80000000, 0x0, 0x0, 0x0, .v⟩,
   ⟨0x120C, [], 0x0, 0x0, 0xFF, 0x0, 0x0, 0x0, .v⟩,
   ⟨0x1210, [], 0x0, 0x1071FFF, 0x0, 0x0, 0x0, 0x0, .v⟩,
   ⟨0x1214, [], 0x1FFF, 0x0, 0x0, 0x0, 0x0, 0x0, .v⟩,
   ⟨0x1800, [], 0x0, 0x3DF, 0x0, 0x0, 0x0, 0x0, .v⟩,
   ⟨0x1804, [], 0x0, 0xFF1F1F, 0x0, 0x0, 0x0, 0x0, .v⟩,
   ⟨0x1808, [], 0x0, 0xFFFF0FF1, 0x0, 0x0, 0x0, 0x0, .v⟩,
   ⟨0x180C, [], 0x0, 0xFFFFF, 0x0, 0x0, 0x0, 0x0, .v⟩,
   ⟨0x1810, [], 0x0, 0xFFFFF, 0x0, 0x0, 0x0, 0x0, .v⟩,
   ⟨0x1814, [], 0x0, 0xFFFFF, 0x0, 0x0, 0x0, 0x0, .v⟩,
   ⟨0x1818, [], 0x0, 0xFFFFF, 0x0, 0x0, 0x0, 0x0, .v⟩,
   ⟨0x181C, [], 0x0, 0x0, 0x7FF, 0x0, 0x0, 0x0, .v⟩,
   ⟨0x1820, [], 0x0, 0xFFFF00FF, 0x0, 0x0, 0x0, 0x0, .v⟩,
   ⟨0x1824, [(0x4, 8)], 0x0, 0xFFFFFF, 0x0, 0x0, 0x0, 0x0, .v⟩,
   ⟨0x1844, [], 0x0, 0xF, 0x0, 0x0, 0x0, 0x0, .v⟩]

/-- Rows of the CLK block. -/
def rowsClk : List RegRow :=
  [⟨0x2000, [], 0x0, 0xFFFF00FF, 0x0, 0x0, 0x0, 0x0, .c⟩,
   ⟨0x2004, [], 0x7, 0x0, 0x0, 0x0, 0x0, 0x0, .c⟩,
   ⟨0x2008, [], 0x0, 0x0, 0x0, 0x1, 0x0, 0x0, .c⟩,
   ⟨0x200C, [], 0x0, 0xFFFF, 0x0, 0x0, 0x0, 0x0, .c⟩,
   ⟨0x2010, [], 0x0, 0x0, 0x0, 0x0, 0xFFFFFF, 0x0, .c⟩,
   ⟨0x2014, [], 0x0, 0xFFFFFFFF, 0x0, 0x0, 0x0, 0x0, .c⟩,
   ⟨0x2018, [], 0x0, 0xFFFFFF, 0x0, 0x0, 0x0, 0x0, .c⟩,
   ⟨0x201C, [], 0x0, 0xFFFFFFFF, 0x0, 0x0, 0x0, 0x0, .c⟩,
   ⟨0x2100, [], 0x0, 0xFFFF0BEF, 0x410, 0x0, 0x0, 0x0, .c⟩,
   ⟨0x2104, [], 0x7, 0x0, 0x0, 0x0, 0x0, 0x0, .c⟩,
   ⟨0x2108, [], 0x0, 0x0, 0x0, 0x1FF, 0x0, 0x0, .c⟩,
   ⟨0x210C, [], 0xFFFFFFFF, 0x0, 0x0, 0x0, 0x0, 0x0, .c⟩,
   ⟨0x2110, [], 0xFFFFFF, 0x0, 0x0, 0x0, 0x0, 0x0, .c⟩,
   ⟨0x2114, [], 0x0, 0xFFFF, 0x0, 0x0, 0x0, 0x0, .c⟩,
   ⟨0x2118, [], 0x1FFF1, 0x0, 0x0, 0x0, 0x0, 0x0, .c⟩,
   ⟨0x2120, [(0x4, 4)], 0xFFFFFF, 0x0, 0x0, 0x0, 0x0, 0x0, .c⟩,
   ⟨0x2130, [(0x4, 4)], 0x0, 0x0, 0x0, 0x0, 0x0, 0x1FF3F, .c⟩,
   ⟨0x2140, [], 0x0, 0x0, 0x0, 0x0, 0x0, 0xFFFFF, .c⟩,
   ⟨0x2200, [(0x20, 8)], 0x0, 0x0, 0x0, 0x0, 0x0, 0xFF, .c⟩,
   ⟨0x2204, [(0x20, 8)], 0x0, 0x0, 0x0, 0x0, 0x0, 0xFFFFFF, .c⟩,
   ⟨0x2208, [(0x20, 8)], 0x0, 0xFF7F, 0x0, 0x0, 0x0, 0x0, .c⟩,
   ⟨0x220C, [(0x20, 8), (0x4, 4)], 0x0, 0x0, 0x0, 0x0, 0x0, 0xFFFFFF, .c⟩]

/-- Rows of the CAL block. -/
def rowsCal : List RegRow :=
  [⟨0x3000, [], 0x0, 0xFFFFFFFF, 0x0, 0x0, 0x0, 0x0, .c⟩,
   ⟨0x3004, [], 0x0, 0xFFFFFF, 0x0, 0x0, 0x0, 0x0, .c⟩,
   ⟨0x3008, [], 0x0, 0xFF, 0x0, 0x0, 0x0, 0x0, .c⟩,
   ⟨0x300C, [], 0x0, 0x1, 0x1E, 0x0, 0x0, 0x0, .c⟩,
   ⟨0x3010, [], 0x0, 0xFFFFFFFF, 0x0, 0x0, 0x0, 0x0, .c⟩,
   ⟨0x3014, [], 0x0, 0xFFFFFF, 0x0, 0x0, 0x0, 0x0, .c⟩,
   ⟨0x3018, [], 0x0, 0xFFFFFFFF, 0x0, 0x0, 0x0, 0x0, .c⟩,
   ⟨0x301C, [], 0x0, 0xFFFFFFFF, 0x0, 0x0, 0x0, 0x0, .c⟩,
   ⟨0x3020, [], 0x0, 0xFFFFFFFF, 0x0, 0x0, 0x0, 0x0, .c⟩,
   ⟨0x3024, [], 0x0, 0xFFFFFF, 0x0, 0x0, 0x0, 0x0, .c⟩,
   ⟨0x3028, [], 0x0, 0x0, 0x0, 0x0, 0xFFFF, 0x0, .c⟩,
   ⟨0x3100, [], 0x0, 0xFFFFFFFF, 0x0, 0x0, 0x0, 0x0, .k⟩,
   ⟨0x3104, [], 0x0, 0xFFFFFFFF, 0x0, 0x0, 0x0, 0x0, .k⟩,
   ⟨0x3108, [], 0x0, 0xFFFFFFFF, 0x0, 0x0, 0x0, 0x0, .k⟩,
   ⟨0x310C, [], 0x0, 0xFFFFFFFF, 0x0, 0x0, 0x0, 0x0, .k⟩,
   ⟨0x3110, [], 0x0, 0xFFFFFFFF, 0x0, 0x0, 0x0, 0x0, .k⟩,
   ⟨0x3114, [], 0x0, 0xFFFFFFFF, 0x0, 0x0, 0x0, 0x0, .k⟩,
   ⟨0x3120, [], 0xFFFFFFFF, 0x0, 0x0, 0x0, 0x0, 0x0, .c⟩,
   ⟨0x3124, [], 0xFFFFFFFF, 0x0, 0x0, 0x0, 0x0, 0x0, .c⟩,
   ⟨0x3128, [], 0xFFFFFFFF, 0x0, 0x0, 0x0, 0x0, 0x0, .c⟩,
   ⟨0x312C, [], 0xFFFFFFFF, 0x0, 0x0, 0x0, 0x0, 0x0, .c⟩,
   ⟨0x3130, [], 0xFFFFFF, 0x0, 0x0, 0x0, 0x0, 0x0, .c⟩,
   ⟨0x3134, [], 0x100, 0x0, 0x0, 0x3, 0x0, 0x0, .c⟩,
   ⟨0x3138, [], 0x0, 0xFFFF0007, 0x0, 0x0, 0x0, 0x0, .k⟩,
   ⟨0x313C, [], 0x0, 0xFFFF, 0x0, 0x0, 0x0, 0x0, .k⟩]

/-- Rows of the HST block. -/
def rowsHst : List RegRow :=
  [⟨0x4000, [], 0x0, 0xFFFF007F, 0x300, 0x0, 0x0, 0x0, .h⟩,
   ⟨0x4004, [], 0x0, 0x0, 0x0, 0x1, 0x0, 0x0, .h⟩,
   ⟨0x4008, [], 0x0, 0x0, 0x7FFFFFF, 0x0, 0x0, 0x0, .h⟩,
   ⟨0x400C, [], 0x0, 0x0, 0xFFFFFFFF, 0x0, 0x0, 0x0, .h⟩,
   ⟨0x4010, [], 0x7FFFFFF, 0x0, 0x0, 0x0, 0x0, 0x0, .h⟩,
   ⟨0x4014, [], 0xFFFFFFFF, 0x0, 0x0, 0x0, 0x0, 0x0, .h⟩,
   ⟨0x4020, [], 0x0, 0xFFFF01FF, 0x0, 0x0, 0x0, 0x0, .h⟩,
   ⟨0x4024, [], 0x0, 0x0, 0x0, 0x0, 0xFFFF, 0x0, .h⟩,
   ⟨0x4040, [], 0x0, 0x0, 0x0, 0x0, 0xFFFFFFFF, 0x0, .c⟩,
   ⟨0x4044, [], 0x0, 0xFFFFFFFF, 0x0, 0x0, 0x0, 0x0, .c⟩,
   ⟨0x4100, [(0x20, 16)], 0xFFFFF000, 0x0, 0x0, 0x0, 0x0, 0x0, .h⟩,
   ⟨0x4104, [(0x20, 16)], 0xFFFFFFFF, 0x0, 0x0, 0x0, 0x0, 0x0, .h⟩,
   ⟨0x4108, [(0x20, 16)], 0x1000F, 0x0, 0x0, 0x0, 0x0, 0x0, .h⟩,
   ⟨0x410C, [(0x20, 16)], 0x0, 0xFFFFFFFF, 0x0, 0x0, 0x0, 0x0, .h⟩,
   ⟨0x4110, [(0x20, 16)], 0xFFFFFFFF, 0x0, 0x0, 0x0, 0x0, 0x0, .h⟩,
   ⟨0x4114, [(0x20, 16)], 0xFFFF00FF, 0x0, 0x0, 0x0, 0x0, 0x0, .h⟩,
   ⟨0x4118, [(0x20, 16)], 0x0, 0x5, 0x2, 0x0, 0x0, 0x0, .h⟩,
   ⟨0x4400, [(0x4, 16)], 0xFFFFFFFF, 0x0, 0x0, 0x0, 0x0, 0x0, .h⟩,
   ⟨0x4440, [], 0x0, 0x0, 0x0, 0x1FF, 0x0, 0x0, .h⟩,
   ⟨0x4444, [], 0x0, 0xFFFF0001, 0x0, 0x0, 0x0, 0x0, .h⟩,
   ⟨0x4480, [], 0xF, 0x0, 0x0, 0x0, 0x0, 0x0, .h⟩,
   ⟨0x44A0, [(0x4, 8)], 0x0, 0xFFFFFFFF, 0x0, 0x0, 0x0, 0x0, .h⟩,
   ⟨0x4800, [(0x4, 256)], 0xFFFFFFFF, 0x0, 0x0, 0x0, 0x0, 0x0, .h⟩,
   ⟨0x4C00, [(0x4, 2)], 0x0, 0xFFFFFFFF, 0x0, 0x0, 0x0, 0x0, .h⟩]

/-- Rows of the JR block. -/
def rowsJr : List RegRow :=
  [⟨0x10000, [(0x40, 512)], 0xFFFFF000, 0x0, 0x0, 0x0, 0x0, 0x0, .h⟩,
   ⟨0x10004, [(0x40, 512)], 0xFFFFFFFF, 0x0, 0x0, 0x0, 0x0, 0x0, .h⟩,
   ⟨0x10008, [(0x40, 512)], 0x800F000F, 0x0, 0x0, 0x0, 0x0, 0x0, .h⟩,
   ⟨0x1000C, [(0x40, 512)], 0x0, 0x0, 0x0, 0xFFFFFFFF, 0x0, 0x0, .h⟩,
   ⟨0x10010, [(0x40, 512)], 0xFFFFFFFF, 0x0, 0x0, 0x0, 0x0, 0x0, .h⟩,
   ⟨0x10014, [(0x40, 512)], 0x0, 0xFFFFFFFF, 0x0, 0x0, 0x0, 0x0, .h⟩,
   ⟨0x10018, [(0x40, 512)], 0x0, 0xFFFF0000, 0x3, 0x0, 0x0, 0x0, .h⟩,
   ⟨0x10020, [(0x40, 512)], 0x0, 0x0, 0x0, 0x0, 0x0, 0x807FFFFF, .c⟩,
   ⟨0x10024, [(0x40, 512)], 0x0, 0x0, 0x0, 0x0, 0x0, 0xFFFF7F1F, .c⟩,
   ⟨0x10028, [(0x40, 512)], 0x0, 0x0, 0x0, 0x0, 0x0, 0x7FFFFFF, .c⟩,
   ⟨0x1002C, [(0x40, 512)], 0xFFFFFFFF, 0x0, 0x0, 0x0, 0x0, 0x0, .c⟩,
   ⟨0x10030, [(0x40, 512)], 0x0, 0xFFFFFFFF, 0x0, 0x0, 0x0, 0x0, .c⟩,
   ⟨0x10034, [(0x40, 512)], 0x0, 0xFFFF, 0x0, 0x0, 0x0, 0x0, .c⟩,
   ⟨0x10038, [(0x40, 512)], 0x0, 0xFF7F1FFF, 0x0, 0x0, 0x0, 0x0, .c⟩,
   ⟨0x1003C, [(0x40, 512)], 0x0, 0xFFFF, 0x0, 0x0, 0x0, 0x0, .c⟩,
   ⟨0x18000, [(0x10, 512)], 0x0, 0x0, 0x0, 0x0, 0x0, 0x3FFF, .c⟩,
   ⟨0x18004, [(0x10, 512)], 0x0, 0x0, 0x0, 0x0, 0x0, 0x3FFF, .c⟩,
   ⟨0x18008, [(0x10, 512)], 0x0, 0x0, 0x0, 0x0, 0x0, 0x3FFF, .c⟩,
   ⟨0x1800C, [(0x10, 512)], 0x0, 0x0, 0x0, 0x0, 0x0, 0x3FFF, .c⟩,
   ⟨0x1A000, [], 0x0, 0x1FFF, 0x0, 0x0, 0x0, 0x0, .c⟩,
   ⟨0x1A004, [], 0x0, 0x1FFFF, 0x0, 0x0, 0x0, 0x0, .c⟩,
   ⟨0x1A008, [], 0x0, 0xFFFFFFFF, 0x0, 0x0, 0x0, 0x0, .c⟩,
   ⟨0x1A00C, [], 0x0, 0xFFFF, 0x0, 0x0, 0x0, 0x0, .c⟩,
   ⟨0x1A010, [], 0x0, 0x0, 0x0, 0x0, 0xFFFFFFFF, 0x0, .c⟩,
   ⟨0x1A020, [], 0xFFFFFFFF, 0x0, 0x0, 0x0, 0x0, 0x0, .c⟩,
   ⟨0x1A024, [], 0x0, 0x0, 0x0, 0x800011FF, 0x0, 0x0, .c⟩,
   ⟨0x1A028, [], 0x0, 0xFFFFFFF1, 0x0, 0x0, 0x0, 0x0, .c⟩,
   ⟨0x1A02C, [], 0x0, 0x1FFF, 0x0, 0x0, 0x0, 0x0, .c⟩]

/-- Rows of the LDG block. -/
def rowsLdg : List RegRow :=
  [⟨0x20000, [], 0x0, 0xFFFF003F, 0x0, 0x0, 0x0, 0x0, .c⟩,
   ⟨0x20004, [], 0x0, 0x0, 0x0, 0x11F03, 0x0, 0x0, .c⟩,
   ⟨0x20008, [], 0x0, 0x0, 0x0, 0xFFFFFFFF, 0x0, 0x0, .c⟩,
   ⟨0x2000C, [], 0x0, 0xFFFFFFFF, 0x0, 0x0, 0x0, 0x0, .c⟩,
   ⟨0x20010, [], 0x0, 0xFF, 0x0, 0x0, 0x0, 0x0, .c⟩,
   ⟨0x20014, [], 0x0, 0x3FFFF, 0x0, 0x0, 0x0, 0x0, .c⟩,
   ⟨0x20018, [], 0x0, 0xFFFFFFFF, 0x0, 0x0, 0x0, 0x0, .c⟩,
   ⟨0x2001C, [], 0x0, 0x3FFFF, 0x0, 0x0, 0x0, 0x0, .c⟩,
   ⟨0x20020, [], 0x0, 0x3FFFF, 0x0, 0x0, 0x0, 0x0, .c⟩,
   ⟨0x20024, [], 0x0, 0x3FFFF, 0x0, 0x0, 0x0, 0x0, .c⟩,
   ⟨0x20028, [], 0x0, 0xFFFFFFFF, 0x0, 0x0, 0x0, 0x0, .c⟩,
   ⟨0x2002C, [], 0x0, 0xFFFFFF, 0x0, 0x0, 0x0, 0x0, .c⟩,
   ⟨0x20030, [], 0x0, 0xFFFFFFFF, 0x0, 0x0, 0x0, 0x0, .c⟩,
   ⟨0x20034, [], 0x0, 0xFFFF, 0x0, 0x0, 0x0, 0x0, .c⟩,
   ⟨0x20038, [], 0x0, 0x0, 0x0, 0x0, 0xFFFFFFFF, 0x0, .c⟩,
   ⟨0x2003C, [], 0x0, 0x0, 0x0, 0x0, 0xFFFFFFFF, 0x0, .c⟩,
   ⟨0x20040, [], 0x0, 0xFF0F, 0x0, 0x0, 0x0, 0x0, .c⟩,
   ⟨0x20044, [], 0x0, 0xFFFFFFFF, 0x0, 0x0, 0x0, 0x0, .c⟩]

/-- Rows of the SCC block. -/
def rowsScc : List RegRow :=
  [⟨0x21000, [], 0x0, 0x0, 0x0, 0xF, 0x0, 0x0, .c⟩,
   ⟨0x21004, [], 0xFFFFFFFF, 0x0, 0x0, 0x0, 0x0, 0x0, .c⟩,
   ⟨0x21008, [], 0xFFFFFFFF, 0x0, 0x0, 0x0, 0x0, 0x0, .c⟩,
   ⟨0x2100C, [], 0xFFFFFF, 0x0, 0x0, 0x0, 0x0, 0x0, .c⟩,
   ⟨0x21010, [], 0xFFFFFFFF, 0x0, 0x0, 0x0, 0x0, 0x0, .c⟩,
   ⟨0x21014, [], 0x0, 0xFFFF000F, 0x0, 0x0, 0x0, 0x0, .c⟩,
   ⟨0x21018, [], 0x0, 0xFFFFFF1F, 0x0, 0x0, 0x0, 0x0, .c⟩,
   ⟨0x2101C, [], 0x0, 0xFFFFFFFF, 0x0, 0x0, 0x0, 0x0, .c⟩,
   ⟨0x21020, [], 0x0, 0xFFFFFFFF, 0x0, 0x0, 0x0, 0x0, .c⟩,
   ⟨0x21024, [], 0x0, 0xFFFFFF, 0x0, 0x0, 0x0, 0x0, .c⟩,
   ⟨0x21028, [], 0x0, 0xFFFFFFFF, 0x0, 0x0, 0x0, 0x0, .c⟩,
   ⟨0x2102C, [], 0x0, 0xFFFFFFFF, 0x0, 0x0, 0x0, 0x0, .c⟩,
   ⟨0x21030, [], 0x0, 0xFFFF, 0x0, 0x0, 0x0, 0x0, .c⟩,
   ⟨0x21034, [], 0x1, 0x0, 0x0, 0x0, 0x0, 0x0, .h⟩,
   ⟨0x21038, [], 0x0, 0x3FF, 0x0, 0x0, 0x0, 0x0, .c⟩,
   ⟨0x21040, [(0x8, 16)], 0x0, 0x0, 0x0, 0x0, 0x0, 0x1F0F, .c⟩,
   ⟨0x21044, [(0x8, 16)], 0x0, 0x0, 0x0, 0x0, 0x0, 0xFFFFFFFF, .c⟩,
   ⟨0x210C0, [(0x4, 8)], 0x0, 0xFFFFFFFF, 0x0, 0x0, 0x0, 0x0, .c⟩]

/-- Rows of the TRG block. -/
def rowsTrg : List RegRow :=
  [⟨0x30000, [(0x40, 16)], 0x0, 0x0, 0x0, 0x0, 0x0, 0x733FF3, .c⟩,
   ⟨0x30004, [(0x40, 16)], 0x0, 0x0, 0x0, 0x0, 0x0, 0xFFFF, .c⟩,
   ⟨0x30008, [(0x40, 16)], 0x0, 0x0, 0x0, 0x0, 0x0, 0xFFFFFFFF, .c⟩,
   ⟨0x3000C, [(0x40, 16)], 0x0, 0x7, 0x0, 0x0, 0x0, 0x0, .c⟩,
   ⟨0x30010, [(0x40, 16)], 0x0, 0xFFFFFFFF, 0x0, 0x0, 0x0, 0x0, .c⟩,
   ⟨0x30014, [(0x40, 16)], 0x0, 0xFFFFFFFF, 0x0, 0x0, 0x0, 0x0, .c⟩,
   ⟨0x30018, [(0x40, 16)], 0x0, 0xFFFFFFFF, 0x0, 0x0, 0x0, 0x0, .c⟩,
   ⟨0x3001C, [(0x40, 16)], 0x0, 0xFFFFFFFF, 0x0, 0x0, 0x0, 0x0, .c⟩,
   ⟨0x30020, [(0x40, 16)], 0x0, 0xFFFFFFFF, 0x0, 0x0, 0x0, 0x0, .c⟩,
   ⟨0x30024, [(0x40, 16)], 0x0, 0x0, 0x0, 0x0, 0xFFFF, 0x0, .c⟩,
   ⟨0x30028, [(0x40, 16)], 0x0, 0x0, 0x0, 0x0, 0xFFFF, 0x0, .c⟩,
   ⟨0x30400, [(0x4, 4)], 0x0, 0x0, 0x0, 0x0, 0x0, 0x7, .c⟩,
   ⟨0x30410, [], 0x0, 0x0, 0xFF01FFFF, 0x0, 0x0, 0x0, .c⟩,
   ⟨0x30414, [], 0x0, 0x0, 0x0, 0x0, 0xFFFF, 0x0, .c⟩,
   ⟨0x31000, [(0x4, 512)], 0x0, 0x0, 0x0, 0x0, 0xFFFF, 0x0, .c⟩]

/-- Rows of the ENC block. -/
def rowsEnc : List RegRow :=
  [⟨0x32000, [(0x40, 8)], 0x0, 0x0, 0x0, 0x0, 0x0, 0xFFFF, .c⟩,
   ⟨0x32004, [(0x40, 8)], 0x0, 0x0, 0x0, 0x0, 0x0, 0xFFFF1FFF, .c⟩,
   ⟨0x32008, [(0x40, 8)], 0x0, 0x0, 0x0, 0x0, 0x0, 0xFFFFFFFF, .c⟩,
   ⟨0x3200C, [(0x40, 8)], 0x0, 0x0, 0x0, 0x0, 0x0, 0xFFFFFF, .c⟩,
   ⟨0x32010, [(0x40, 8)], 0x0, 0x0, 0x0, 0x0, 0x0, 0xFFFFFFFF, .c⟩,
   ⟨0x32014, [(0x40, 8)], 0x0, 0x0, 0x0, 0x0, 0x0, 0xFFFF, .c⟩,
   ⟨0x32018, [(0x40, 8)], 0x0, 0xFFFFFFFF, 0x0, 0x0, 0x0, 0x0, .c⟩,
   ⟨0x3201C, [(0x40, 8)], 0x0, 0xFFFF00FF, 0x0, 0x0, 0x0, 0x0, .c⟩,
   ⟨0x32020, [(0x40, 8)], 0x0, 0xFFFFFFFF, 0x0, 0x0, 0x0, 0x0, .c⟩,
   ⟨0x32024, [(0x40, 8)], 0x0, 0xFFFFFFFF, 0x0, 0x0, 0x0, 0x0, .c⟩,
   ⟨0x32028, [(0x40, 8)], 0x0, 0xFFFFFFFF, 0x0, 0x0, 0x0, 0x0, .c⟩,
   ⟨0x3202C, [(0x40, 8)], 0x0, 0xFFFF0007, 0x78, 0x0, 0x0, 0x0, .c⟩,
   ⟨0x32030, [(0x40, 8)], 0x0, 0x0, 0x0, 0x0, 0xFFFF, 0x0, .c⟩]

/-- Rows of the PO block. -/
def rowsPo : List RegRow :=
  [⟨0x34000, [(0x100, 32)], 0x0, 0x0, 0x0, 0x0, 0x0, 0x1F, .c⟩,
   ⟨0x34004, [(0x100, 32)], 0x0, 0x0, 0x0, 0x0, 0x0, 0xFFFF, .c⟩,
   ⟨0x34008, [(0x100, 32)], 0x0, 0x0, 0x0, 0x0, 0x0, 0xFFFFFF, .c⟩,
   ⟨0x3400C, [(0x100, 32)], 0x0, 0xFF07, 0x18, 0x0, 0x0, 0x0, .c⟩,
   ⟨0x34010, [(0x100, 32)], 0x0, 0xFFFFFFFF, 0x0, 0x0, 0x0, 0x0, .c⟩,
   ⟨0x34014, [(0x100, 32)], 0x0, 0x0, 0x0, 0x0, 0xFFFF, 0x0, .c⟩,
   ⟨0x34018, [(0x100, 32)], 0x0, 0x0, 0x0, 0x0, 0xFFFF, 0x0, .c⟩,
   ⟨0x36000, [(0x4, 4)], 0x0, 0x0, 0x0, 0x0, 0x0, 0x3, .c⟩,
   ⟨0x36010, [], 0x0, 0x7, 0x0, 0x0, 0x0, 0x0, .c⟩,
   ⟨0x36014, [], 0xFFFF, 0x0, 0x0, 0x0, 0x0, 0x0, .c⟩,
   ⟨0x36018, [], 0x0, 0x0, 0x0, 0x0, 0xFFFF, 0x0, .c⟩,
   ⟨0x36400, [(0x4, 255)], 0x0, 0x0, 0x0, 0x0, 0x0, 0x80001FFF, .c⟩,
   ⟨0x36800, [(0x10, 384), (0x4, 4)], 0x0, 0x0, 0x0, 0x0, 0x0, 0xFFFFFFFF, .c⟩,
   ⟨0x38000, [(0x10, 2048), (0x4, 4)], 0x0, 0x0, 0x0, 0x0, 0x0, 0xFFFFFFFF, .c⟩]

/-- Rows of the HP block. -/
def rowsHp : List RegRow :=
  [⟨0x40000, [(0x100, 16)], 0x0, 0x0, 0x0, 0x0, 0x0, 0x77, .c⟩,
   ⟨0x40004, [(0x100, 16)], 0x0, 0x0, 0x0, 0x0, 0x0, 0xFFFF, .c⟩,
   ⟨0x40008, [(0x100, 16)], 0x0, 0x0, 0x0, 0x0, 0x0, 0xFFFF, .c⟩,
   ⟨0x4000C, [(0x100, 16)], 0x0, 0x0, 0x0, 0x0, 0x0, 0xFFFFFFFF, .c⟩,
   ⟨0x40010, [(0x100, 16)], 0x0, 0x0, 0x0, 0x0, 0x0, 0xFFFF01FF, .c⟩,
   ⟨0x40014, [(0x100, 16)], 0x0, 0x0, 0x0, 0x0, 0x0, 0xFFFF, .c⟩,
   ⟨0x40018, [(0x100, 16)], 0x0, 0x0, 0x0, 0x0, 0x0, 0x7FFF, .c⟩,
   ⟨0x4001C, [(0x100, 16)], 0x0, 0x0, 0x0, 0x0, 0x0, 0x7F, .c⟩,
   ⟨0x40020, [(0x100, 16)], 0x0, 0xFFFF0F1F, 0x0, 0x0, 0x0, 0x0, .c⟩,
   ⟨0x40024, [(0x100, 16), (0x4, 4)], 0x0, 0xFFFFFFFF, 0x0, 0x0, 0x0, 0x0, .c⟩,
   ⟨0x40034, [(0x100, 16)], 0x0, 0x0, 0x0, 0x0, 0xFFFFFFFF, 0x0, .c⟩,
   ⟨0x40038, [(0x100, 16)], 0x0, 0xFFFFFFFF, 0x0, 0x0, 0x0, 0x0, .c⟩,
   ⟨0x4003C, [(0x100, 16)], 0x0, 0xFF0FFFFF, 0x0, 0x0, 0x0, 0x0, .c⟩,
   ⟨0x40040, [(0x100, 16)], 0xFFFF, 0x0, 0x0, 0x0, 0x0, 0x0, .c⟩,
   ⟨0x40044, [(0x100, 16)], 0xFFFF, 0x0, 0x0, 0x0, 0x0, 0x0, .c⟩,
   ⟨0x40048, [(0x100, 16)], 0x0, 0x0, 0x0, 0x8000000F, 0x0, 0x0, .c⟩,
   ⟨0x4004C, [(0x100, 16)], 0x0, 0x80FFFFFF, 0x0, 0x0, 0x0, 0x0, .c⟩,
   ⟨0x40050, [(0x100, 16)], 0x0, 0x0, 0x0, 0x1, 0x0, 0x0, .c⟩,
   ⟨0x41000, [], 0x0, 0x0, 0xFFFFFFFF, 0x0, 0x0, 0x0, .c⟩]

/-- Rows of the SP block. -/
def rowsSp : List RegRow :=
  [⟨0x50000, [(0x40, 16)], 0x0, 0x0, 0x0, 0x0, 0x0, 0xFFFF0001, .c⟩,
   ⟨0x50004, [(0x40, 16)], 0x0, 0x0, 0x0, 0x0, 0x0, 0x7FFF, .c⟩,
   ⟨0x50008, [(0x40, 16)], 0x0, 0x0, 0x0, 0x0, 0x0, 0x1, .c⟩,
   ⟨0x5000C, [(0x40, 16)], 0x0, 0x0, 0x0, 0x0, 0x0, 0xFFFFFFFF, .c⟩,
   ⟨0x50010, [(0x40, 16)], 0x0, 0x0, 0x0, 0x0, 0x0, 0xFF, .c⟩,
   ⟨0x50014, [(0x40, 16)], 0x0, 0x0, 0x0, 0x0, 0x0, 0xFFFFFFFF, .c⟩,
   ⟨0x50018, [(0x40, 16)], 0x0, 0x0, 0x0, 0x0, 0x0, 0x3FFFFF, .c⟩,
   ⟨0x5001C, [(0x40, 16)], 0x0, 0x0, 0x0, 0x0, 0x0, 0x7FFF, .c⟩,
   ⟨0x50020, [(0x40, 16)], 0x0, 0x0, 0x0, 0x0, 0x0, 0xFFF000F, .c⟩,
   ⟨0x50024, [(0x40, 16)], 0xFFFFFFFF, 0x0, 0x0, 0x0, 0x0, 0x0, .c⟩,
   ⟨0x50028, [(0x40, 16)], 0x0, 0xFFFFFFFF, 0x0, 0x0, 0x0, 0x0, .c⟩,
   ⟨0x5002C, [(0x40, 16)], 0x0, 0xFFFFFFFF, 0x0, 0x0, 0x0, 0x0, .c⟩,
   ⟨0x50030, [(0x40, 16)], 0x0, 0xFFFF0013, 0xC, 0x0, 0x0, 0x0, .c⟩,
   ⟨0x50034, [(0x40, 16)], 0x0, 0xFFFFFFFF, 0x0, 0x0, 0x0, 0x0, .c⟩,
   ⟨0x50038, [(0x40, 16)], 0x0, 0x0, 0x0, 0x0, 0xFFFFFFFF, 0x0, .c⟩,
   ⟨0x5003C, [(0x40, 16)], 0x0, 0x0, 0x0, 0x0, 0xFFFFFFFF, 0x0, .c⟩,
   ⟨0x50400, [], 0x0, 0x0, 0x0, 0x0, 0x0, 0x7FFF, .c⟩,
   ⟨0x50404, [], 0x0, 0x0, 0x0, 0x0, 0x0, 0x7FFF, .c⟩,
   ⟨0x50408, [], 0x0, 0x0, 0x0, 0x0, 0xFFFF, 0x0, .c⟩,
   ⟨0x5040C, [], 0x0, 0xFFFF, 0x0, 0x0, 0x0, 0x0, .c⟩,
   ⟨0x50410, [], 0x0, 0x0, 0xFFFFFFFF, 0x0, 0x0, 0x0, .c⟩,
   ⟨0x50420, [], 0xFFFFFF, 0x0, 0x0, 0x0, 0x0, 0x0, .c⟩,
   ⟨0x50424, [], 0xFFFFFF, 0x0, 0x0, 0x0, 0x0, 0x0, .c⟩,
   ⟨0x50428, [], 0x1FFFFFF, 0x0, 0x0, 0x0, 0x0, 0x0, .c⟩,
   ⟨0x5042C, [], 0x0, 0x0, 0x0, 0x800F011F, 0x0, 0x0, .c⟩,
   ⟨0x50430, [], 0x0, 0xFFFF0001, 0x0, 0x0, 0x0, 0x0, .c⟩]

/-- Rows of the TAL block. -/
def rowsTal : List RegRow :=
  [⟨0x50500, [(0x4, 8)], 0x0, 0x0, 0x0, 0x0, 0x0, 0x801F7FFF, .c⟩,
   ⟨0x50800, [(0x20, 32)], 0x0, 0x0, 0x0, 0x0, 0x0, 0x80003FF7, .c⟩,
   ⟨0x50804, [(0x20, 32)], 0x0, 0x0, 0x0, 0x0, 0x0, 0xFFFFFFFF, .c⟩,
   ⟨0x50808, [(0x20, 32)], 0x0, 0x0, 0x0, 0x0, 0x0, 0xFFFFFFFF, .c⟩,
   ⟨0x5080C, [(0x20, 32)], 0x0, 0x0, 0x0, 0x0, 0x0, 0xFFFFFFFF, .c⟩,
   ⟨0x50810, [(0x20, 32)], 0x0, 0xFFFFFFFF, 0x0, 0x0, 0x0, 0x0, .c⟩,
   ⟨0x50814, [(0x20, 32)], 0x0, 0xFFFFFFFF, 0x0, 0x0, 0x0, 0x0, .c⟩,
   ⟨0x50818, [(0x20, 32)], 0x0, 0x1FF, 0x0, 0x0, 0x0, 0x0, .c⟩,
   ⟨0x5081C, [(0x20, 32)], 0x0, 0x0, 0x0, 0x0, 0xFFFF, 0x0, .c⟩]

/-- Rows of the TNK block. -/
def rowsTnk : List RegRow :=
  [⟨0x60000, [(0x1000, 64), (0x10, 64), (0x4, 4)], 0x0, 0x0, 0x0, 0x0, 0x0, 0xFFFFFFFF, .c⟩,
   ⟨0x60400, [(0x1000, 64)], 0x0, 0x0, 0x0, 0x0, 0x0, 0x3FFFFF, .c⟩,
   ⟨0x60404, [(0x1000, 64)], 0x0, 0x0, 0x0, 0x0, 0x0, 0xFFFFFFFF, .c⟩,
   ⟨0x60408, [(0x1000, 64), (0x4, 4)], 0x0, 0x0, 0x0, 0x0, 0x0, 0xFFFFFFFF, .c⟩,
   ⟨0x60418, [(0x1000, 64), (0x4, 2)], 0x0, 0x0, 0x0, 0x0, 0x0, 0xBFBFBFBF, .c⟩,
   ⟨0x60420, [(0x1000, 64)], 0x0, 0x1FF0FFF, 0x0, 0x0, 0x0, 0x0, .c⟩,
   ⟨0x60424, [(0x1000, 64)], 0x0, 0xFFFFFFFF, 0x0, 0x0, 0x0, 0x0, .c⟩,
   ⟨0x60428, [(0x1000, 64)], 0x0, 0xFF, 0x0, 0x0, 0x0, 0x0, .c⟩,
   ⟨0x6042C, [(0x1000, 64)], 0x0, 0x6FFFF, 0x10000, 0x0, 0x0, 0x0, .c⟩,
   ⟨0x60430, [(0x1000, 64)], 0x0, 0x0, 0x0, 0xFFFFFFFF, 0x0, 0x0, .c⟩,
   ⟨0x60434, [(0x1000, 64)], 0x0, 0x0, 0x0, 0x0, 0xFFFFFFFF, 0x0, .c⟩,
   ⟨0x60438, [(0x1000, 64)], 0x0, 0x0, 0x0, 0x0, 0xFFFF, 0x0, .c⟩,
   ⟨0x6043C, [(0x1000, 64)], 0x0, 0xFFFFFFFF, 0x0, 0x0, 0x0, 0x0, .c⟩,
   ⟨0x60800, [(0x10, 16)], 0x0, 0x0, 0x0, 0x0, 0x0, 0xFFFFFFFF, .c⟩,
   ⟨0x60804, [(0x10, 16)], 0x0, 0x0, 0x0, 0x0, 0x0, 0xFFFFFFFF, .c⟩,
   ⟨0x60808, [(0x10, 16)], 0x0, 0x0, 0x0, 0x0, 0x0, 0x1FFFF, .c⟩,
   ⟨0x60900, [], 0x0, 0x0, 0x0, 0x8000037F, 0x0, 0x0, .c⟩,
   ⟨0x60904, [], 0xFFFFFFFF, 0x0, 0x0, 0x0, 0x0, 0x0, .c⟩,
   ⟨0x60908, [], 0xFFFFFF, 0x0, 0x0, 0x0, 0x0, 0x0, .c⟩,
   ⟨0x6090C, [], 0x0, 0xFFFF0001, 0x0, 0x0, 0x0, 0x0, .c⟩,
   ⟨0x60910, [], 0x0, 0xFFFFFFFF, 0x0, 0x0, 0x0, 0x0, .c⟩,
   ⟨0x60920, [(0x8, 8)], 0x0, 0x0, 0x0, 0x0, 0x0, 0x7FFF7FFF, .c⟩,
   ⟨0x60924, [(0x8, 8)], 0x0, 0x0, 0x0, 0x0, 0x0, 0x7FFF7FFF, .c⟩,
   ⟨0x60960, [], 0x0, 0x0, 0x0, 0xFFFFFFFF, 0x0, 0x0, .c⟩,
   ⟨0x60964, [], 0x0, 0x0, 0x0, 0xFFFFFFFF, 0x0, 0x0, .c⟩,
   ⟨0x60968, [], 0xFFFFFFFF, 0x0, 0x0, 0x0, 0x0, 0x0, .c⟩,
   ⟨0x6096C, [], 0xFFFFFFFF, 0x0, 0x0, 0x0, 0x0, 0x0, .c⟩,
   ⟨0x60970, [], 0xFFFFFFFF, 0x0, 0x0, 0x0, 0x0, 0x0, .c⟩,
   ⟨0x60974, [], 0xFFFFFFFF, 0x0, 0x0, 0x0, 0x0, 0x0, .c⟩,
   ⟨0x60978, [], 0x0, 0x0, 0xFFFFFFFF, 0x0, 0x0, 0x0, .c⟩,
   ⟨0x6097C, [], 0x0, 0x0, 0xFFFFFFFF, 0x0, 0x0, 0x0, .c⟩,
   ⟨0x60980, [(0x4, 4)], 0x0, 0x0, 0x0, 0x0, 0x0, 0xFFFFFFFF, .c⟩]

/-- Rows of the WR block. -/
def rowsWr : List RegRow :=
  [⟨0xA0000, [(0x40, 2)], 0x0, 0xFF1F1F, 0x0, 0x0, 0x0, 0x0, .c⟩,
   ⟨0xA0004, [(0x40, 2)], 0x0, 0xFFFFFF, 0x0, 0x0, 0x0, 0x0, .c⟩,
   ⟨0xA0008, [(0x40, 2)], 0x0, 0xFFFFFF, 0x0, 0x0, 0x0, 0x0, .c⟩,
   ⟨0xA000C, [(0x40, 2)], 0x0, 0x0, 0x0, 0x0, 0xFFFFFFFF, 0x0, .c⟩,
   ⟨0xA0010, [(0x40, 2)], 0x0, 0x0, 0x0, 0x0, 0xFFFF, 0x0, .c⟩,
   ⟨0xA0080, [], 0xFFFF007F, 0x0, 0x0, 0x0, 0x0, 0x0, .c⟩,
   ⟨0xA0084, [], 0x0, 0x0, 0x0, 0x1, 0x0, 0x0, .c⟩,
   ⟨0xA0088, [], 0xFFFFFFFF, 0x0, 0x0, 0x0, 0x0, 0x0, .c⟩,
   ⟨0xA008C, [], 0xFFFFFF, 0x0, 0x0, 0x0, 0x0, 0x0, .c⟩,
   ⟨0xA0090, [], 0x0, 0xFFFF7FFF, 0x0, 0x0, 0x0, 0x0, .c⟩,
   ⟨0xA0094, [], 0x0, 0xFFFFFFFF, 0x0, 0x0, 0x0, 0x0, .c⟩,
   ⟨0xA0098, [], 0x0, 0xFFFFFFFF, 0x0, 0x0, 0x0, 0x0, .c⟩,
   ⟨0xA009C, [], 0x0, 0x0, 0x0, 0x0, 0xFFFF, 0x0, .c⟩,
   ⟨0xA00A0, [], 0x0, 0x1FFFF, 0x0, 0x0, 0x0, 0x0, .c⟩,
   ⟨0xA00A4, [], 0xF001F, 0x0, 0x0, 0x0, 0x0, 0x0, .c⟩,
   ⟨0xA00A8, [], 0x0, 0xFF00, 0x3, 0x0, 0x0, 0x0, .c⟩,
   ⟨0xA00AC, [], 0x0, 0xFFFFFF, 0x0, 0x0, 0x0, 0x0, .c⟩]

/-- Rows of the FEN block. -/
def rowsFen : List RegRow :=
  [⟨0xB0000, [(0x4, 4)], 0x0, 0xFFFFFFFF, 0x0, 0x0, 0x0, 0x0, .c⟩,
   ⟨0xB0010, [(0x4, 16)], 0x0, 0xFFFFFFFF, 0x0, 0x0, 0x0, 0x0, .c⟩,
   ⟨0xB0060, [], 0x0, 0x0, 0x0, 0x800FFFFF, 0x0, 0x0, .c⟩,
   ⟨0xB0064, [], 0x0, 0xFFFF0001, 0x0, 0x0, 0x0, 0x0, .c⟩,
   ⟨0xB0068, [], 0xFFFF, 0x0, 0x0, 0x0, 0x0, 0x0, .c⟩,
   ⟨0xB006C, [], 0x0, 0xFFFFFFFF, 0x0, 0x0, 0x0, 0x0, .c⟩,
   ⟨0xB0070, [], 0x0, 0xFF, 0x0, 0x0, 0x0, 0x0, .c⟩,
   ⟨0xB0080, [], 0x0, 0x0, 0x0, 0x0, 0x3FFFFFF, 0x0, .c⟩,
   ⟨0xB0084, [], 0x0, 0xFF1FFFFF, 0x0, 0x0, 0x0, 0x0, .c⟩,
   ⟨0xB0088, [], 0x0, 0xFFFFFFFF, 0x0, 0x0, 0x0, 0x0, .c⟩,
   ⟨0xB008C, [], 0x0, 0xFFFFFF, 0x0, 0x0, 0x0, 0x0, .c⟩,
   ⟨0xB0090, [], 0x0, 0x0, 0x0, 0x0, 0xFFFF, 0x0, .c⟩,
   ⟨0xB0094, [], 0x0, 0x0, 0x0, 0x0, 0xFFFF, 0x0, .c⟩]

/-- Rows of the ASY block. -/
def rowsAsy : List RegRow :=
  [⟨0xC0000, [], 0x0, 0x0, 0x0, 0xC000FFFF, 0x0, 0x0, .c⟩,
   ⟨0xC0004, [], 0xFFFF1FFF, 0x0, 0x0, 0x0, 0x0, 0x0, .c⟩,
   ⟨0xC0008, [], 0xFFFF, 0x0, 0x0, 0x0, 0x0, 0x0, .c⟩,
   ⟨0xC000C, [], 0x0, 0xFFFF07FF, 0x0, 0x0, 0x0, 0x0, .c⟩,
   ⟨0xC0010, [], 0x0, 0xFFFFFFFF, 0x0, 0x0, 0x0, 0x0, .c⟩,
   ⟨0xC0014, [], 0xFFFF, 0x0, 0x0, 0x0, 0x0, 0x0, .c⟩,
   ⟨0xC0018, [], 0xFFFFFFFF, 0x0, 0x0, 0x0, 0x0, 0x0, .c⟩,
   ⟨0xC001C, [], 0x0, 0x1FFFFF, 0x0, 0x0, 0x0, 0x0, .c⟩,
   ⟨0xC0020, [], 0x0, 0x0, 0x0, 0x0, 0xFFFF, 0x0, .c⟩,
   ⟨0xC0024, [], 0x0, 0xFF, 0x0, 0x0, 0x0, 0x0, .c⟩,
   ⟨0xC0100, [(0x4, 32)], 0xFFFF, 0x0, 0x0, 0x0, 0x0, 0x0, .c⟩,
   ⟨0xC0200, [(0x4, 32)], 0x0, 0x1FFFF, 0x0, 0x0, 0x0, 0x0, .c⟩,
   ⟨0xC0300, [(0x4, 16)], 0x0, 0xFFFF, 0x0, 0x0, 0x0, 0x0, .c⟩,
   ⟨0xC0380, [(0x4, 8)], 0x0, 0x1FFFFFF, 0x0, 0x0, 0x0, 0x0, .c⟩]

/-- The registers whose reset value is not 0 (Table MAP-2): offset, strides and counts, value. -/
def resetRows : List (Nat × List (Nat × Nat) × Nat) :=
  [(0x0, [], 0x40961F6C),
   (0x14, [], 0x10401020),
   (0x1004, [], 0xF),
   (0x1010, [], 0x1),
   (0x1014, [], 0xC80000),
   (0x1018, [], 0x14),
   (0x1020, [(0x4, 4)], 0xFFFFFFFF),
   (0x1100, [], 0xA735028),
   (0x1104, [], 0x144222),
   (0x1108, [], 0x23),
   (0x110C, [], 0x4000),
   (0x1204, [], 0x4B0),
   (0x1214, [], 0xCE4),
   (0x2004, [], 0x4),
   (0x2104, [], 0x2),
   (0x2118, [], 0x10),
   (0x2120, [(0x4, 4)], 0x4),
   (0x2130, [(0x4, 4)], 0x10),
   (0x2200, [(0x20, 8)], 0x80),
   (0x220C, [(0x20, 8), (0x4, 4)], 0x4),
   (0x4114, [(0x20, 16)], 0x1),
   (0x10024, [(0x40, 512)], 0x14000),
   (0x32004, [(0x40, 8)], 0x51620100),
   (0x32014, [(0x40, 8)], 0x10),
   (0x36014, [], 0x824),
   (0x40000, [(0x100, 16)], 0x34),
   (0x40004, [(0x100, 16)], 0x4B0),
   (0x40010, [(0x100, 16)], 0x10001),
   (0x40014, [(0x100, 16)], 0x10),
   (0x50804, [(0x20, 32)], 0x1),
   (0x60404, [(0x1000, 64)], 0x10000),
   (0x60808, [(0x10, 16)], 0x800),
   (0xA0080, [], 0x100004),
   (0xC0004, [], 0x8240103),
   (0xC0008, [], 0x774)]

/-- The whole register table, block by block (Table MAP-1). -/
def regTable : List RegRow :=
  rowsId ++ rowsPwr ++ rowsClk ++ rowsCal ++ rowsHst ++ rowsJr ++ rowsLdg ++ rowsScc ++ rowsTrg ++ rowsEnc ++ rowsPo ++ rowsHp ++ rowsSp ++ rowsTal ++ rowsTnk ++ rowsWr ++ rowsFen ++ rowsAsy

/-- An offset lies on the grid of a row's indices. -/
def inDims : List (Nat × Nat) → Nat → Bool
  | [], o => o == 0
  | (s, n) :: r, o => decide (o / s < n) && inDims r (o % s)

/-- The row covers the offset. -/
def RegRow.covers (r : RegRow) (a : Nat) : Bool := decide (r.base ≤ a) && inDims r.dims (a - r.base)

/-- The row of the register at an offset; none where the map assigns no register (R14). -/
def regRow? (a : Nat) : Option RegRow := regTable.find? (fun r => r.covers a)

/-- What an offset reads after reset (R853, Table MAP-2); 0 where no register is assigned (R14). -/
def resetWord (a : Nat) : Word :=
  if 0x4800 ≤ a ∧ a < 0x4C00 ∧ a % 16 = 12 then 1 else  -- every MSI-X vector masked
  match resetRows.find? (fun r => decide (r.1 ≤ a) && inDims r.2.1 (a - r.1)) with
  | some r => BitVec.ofNat 32 r.2.2
  | none => 0

/-- The reset class of an offset (Table MAP-3). -/
def regClass (a : Nat) : RClass :=
  match regRow? a with
  | some r => r.cls
  | none => .c

end Sys2Proof.Machine
end

