-- ==== Sys2Proof/Machine/State.lean ====
section
/-!
DEFINITION. Sys2Proof/Machine/State.lean: the state of one AG4096, as plain data.
A register of Table MAP-2 lives in `regs` (active image) and, if st, also in `stage`; a structure below holds what
the chapters give the device beside its registers. A register that only shows such state is a view (Machine/RegAccess.lean).
-/
namespace Sys2Proof.Machine

/-- The three ports that read registers; each has its own latch shadows (R264, R874). -/
abbrev Shadows := SMap Word

/-! ## Beat numbers and the calendar (02_beat_and_time.md) -/

/-- Beat counting (R48 to R58). -/
structure TimeSt where
  /-- The 56-bit beat number. -/
  bn : BeatNo := 0
  /-- The cycle index of the last event within the beat, 0 to 239. -/
  ci : Nat := 0
  /-- The beat counter runs (R54: it stops when VCORE is removed). -/
  running : Bool := false
  /-- Stored beat-number ceiling (R52); durable, so it outlives the core. -/
  ceil : Nat := 0
  /-- Last applied beat number of a worker (R58). -/
  last : Nat := 0
  /-- Calendar-oscillator ticks counted while the beat counter is stopped (R54). -/
  stopTicks : Nat := 0
  /-- Last beat number used before the counter stopped (R54). -/
  lastUsed : Nat := 0
  /-- The last frame compared was lower than `last` (R60). -/
  regress : Bool := false
  /-- Highest ceiling or last applied number reported by other devices (R56). -/
  reported : Nat := 0
  deriving DecidableEq, Repr

/-- A calendar value: 64-bit seconds and 2^-32 s units. -/
structure CalVal where
  sec : Nat := 0
  sub : Nat := 0
  deriving DecidableEq, Repr

/-- A calendar set waiting for its tag beat (R70 to R74). -/
structure CalSet where
  val : CalVal := {}
  tag : Nat := 0
  regressOk : Bool := false
  deriving DecidableEq, Repr

/-- The two calendars (R68 to R82); VBKP domain. -/
structure CalSt where
  now : CalVal := {}
  print : CalVal := {}
  /-- Remainder counter of modulus 390 625 (R68). -/
  rem : Nat := 0
  pend : Option CalSet := none
  /-- Print high-water of R79, while it still clamps. -/
  hiWater : Option CalVal := none
  deriving DecidableEq, Repr

/-! ## Straps, start-up and role (03_straps_and_startup.md) -/

/-- Roles (Table SCP-2; SUP_ROLE codes 0 worker, 1 manager, 2 reserve, 3 standalone). -/
inductive Role | worker | manager | reserve | standalone
  deriving DecidableEq, Repr

/-- What a claim of a manager-capable device carries (R129). -/
structure Claim where
  pos : Nat
  formatted : Bool
  sysId : BitVec 64
  deriving DecidableEq, Repr

/-- Start-up (R104 to R145). -/
structure BootSt where
  /-- PORST_L is asserted. -/
  porst : Bool := true
  /-- The strap read has ended and its values are applied (R99, R104). -/
  strapsValid : Bool := false
  /-- A strap read is in progress that PORST_L will abandon (R137). -/
  reading : Bool := false
  /-- The drivers of the outputs covered by SAFEA, and by SAFEB, are off: until the strap read ends, and after it for a
  pin in fault (R99). -/
  offA : Bool := true
  offB : Bool := true
  /-- A manager-capable device, as strapped. -/
  capable : Bool := false
  /-- The role in force; a manager-capable device is a reserve until it is decided (R129). -/
  role : Role := .worker
  /-- The role of a manager-capable device has been decided. -/
  roleKnown : Bool := false
  /-- This device finished its own ring training; claims may be ranked (R129 to R136). -/
  claimOpen : Bool := false
  /-- The claims received during claim and census. -/
  claims : List Claim := []
  /-- The ledger was blank when this device became manager (R129, R136). -/
  claimBlank : Bool := false
  /-- Held at claim and census with ROLE_CONFLICT (R131, R135). -/
  conflict : Bool := false
  /-- Self-calibration waits for lock (R118). -/
  calDeferred : Bool := false
  /-- Self-calibration has completed since the last start. -/
  calDone : Bool := false
  /-- Replay has completed since the last start (R862). -/
  replayed : Bool := false
  /-- The manager has sent its first READY frame (R134). -/
  readySent : Bool := false
  /-- A worker has been provisioned by the manager (R123). -/
  provisioned : Bool := false
  /-- The manager closes the ring through this device: its timing outputs stay fenced until skew calibration (R755). -/
  joining : Bool := false
  /-- The backup cell ran out before this start (R55, R81). -/
  bkpRanOut : Bool := false
  /-- PERST_L is asserted; link training starts at its release (R119). -/
  perst : Bool := true
  /-- The endpoint trains (R119). -/
  linkTraining : Bool := false
  /-- Pins whose live reading differs from the value in force, with that reading (R110). -/
  liveBad : List (Nat × Nat) := []
  /-- Class of each VIO bank: 0 for 1.8 V, 1 for 2.5 V, 2 for 3.3 V (R888). -/
  vio : List Nat := []
  /-- Banks without voltage (R912): 0 VIO_A to 3 VIO_D. -/
  bankOff : List Nat := []
  /-- Draws of the free value of R113. -/
  pulses : Nat := 0
  deriving DecidableEq, Repr

/-! ## Power, mains and the backup cell (04_power_and_supply.md) -/

/-- A power command waiting for its apply beat (R150, R151). -/
structure PwrPend where
  /-- Commanded state: 1 RUN, 2 READY, 3 STANDBY, 4 PARK, 5 OFF. -/
  state : Nat
  expire : Bool
  isolate : Bool
  applyBn : Nat
  deriving DecidableEq, Repr

/-- One entry of the supply-event FIFO (R167). -/
structure SupEvt where
  code : Reason
  bn : Nat
  val : Nat
  deriving DecidableEq, Repr

/-- Power state beside PWR_STAT (R146 to R191). -/
structure PwrSt where
  pend : Option PwrPend := none
  /-- A READY command is draining bound jobs (R153). -/
  draining : Bool := false
  /-- Commands the manager has sent to other positions and not yet seen completed: position and apply beat. -/
  sent : List (Nat × Nat) := []
  /-- A command to the whole ring in progress on the manager, and its stage: 0 the workers close, 1 the reserve closes, 2 the
  manager itself, 3 READY of the parked devices after its own (R163, R165). -/
  all : Option (PwrPend × Nat) := none
  /-- The beat at which a BRACE is to start: the beat after its first triggering event (R175). -/
  braceDue : Option Nat := none
  /-- The brace beat of the BRACE in force. -/
  braceBn : Nat := 0
  /-- The device was in RUN at the brace beat (R182). -/
  wasRun : Bool := false
  /-- HOLDUP was entered in this BRACE (R182, R187); and HOLDUP is to start with the BRACE that is due (R184). -/
  heldUp : Bool := false
  holdDue : Bool := false
  /-- The first beat whose captures may bind: that in which RUN began, holdover ended or the interlock released (R148, R220). -/
  bindBn : Nat := 0
  /-- Events that started or joined the BRACE and have not cleared (R181). -/
  open_ : List Reason := []
  /-- Consecutive good half-cycles (R181). -/
  good : Nat := 0
  /-- Consecutive half-cycles meeting the sag, swell and interruption criteria (Table PWR-4). -/
  sagN : Nat := 0
  swellN : Nat := 0
  intN : Nat := 0
  /-- Consecutive samples of DCSENSE below DCBRACE and below DCHOLD (Table PWR-4: 16 beats). -/
  dcLowN : Nat := 0
  dcHoldN : Nat := 0
  /-- Supply events raised and not yet cleared, so that each is declared once per episode. -/
  raised : List Reason := []
  /-- Frequency tracking is lost (R170, R173); beats of the last rising and the last falling zero crossing, and the tracked frequency in
  0.001 Hz. -/
  trackLost : Bool := false
  zcRise : Option Nat := none
  zcFall : Option Nat := none
  mfreq : Nat := 0
  mevt : List SupEvt := []
  mevtLost : Nat := 0
  /-- The dormancy flag and dormancy itself (R185, R186). -/
  dormFlag : Bool := false
  dormant : Bool := false
  /-- VCORE is present. -/
  vcore : Bool := false
  /-- The ring repeater is stopped: PARK with ISOLATE (R155). -/
  isolated : Bool := false
  /-- The backup cell has run out since the last cold start (R189, R191). -/
  bkpDead : Bool := false
  /-- A PARK exit or resume is under way from the state named (R157, R158). -/
  exiting : Bool := false
  deriving DecidableEq, Repr

/-! ## Fences (16_fences_and_recovery.md) -/

/-- One fence domain: its causes in the order raised (R779 to R782). -/
structure DomSt where
  causes : List Reason := []
  /-- The reason: that of the first cause (R781). -/
  reason : Reason := 0
  inc : Nat := 1
  /-- A head port waiting for its link after an unfence (R807). -/
  unfencing : Bool := false
  deriving DecidableEq, Repr

/-- One reason-log entry (R791). -/
structure LogEntry where
  dom : Nat
  reason : Reason
  inc : Nat
  clear : Bool
  pos : Nat
  bn : Nat
  deriving DecidableEq, Repr

/-- A FEN_CMD taken and acting at the next Edge phase (R807). -/
structure FenCmd where
  dom : Nat
  /-- 1 FENCE, 2 UNFENCE, 3 PARK. -/
  op : Nat
  expire : Bool
  deriving DecidableEq, Repr

/-- Fences, incarnations and the reason log. -/
structure FenSt where
  doms : SMap DomSt := []
  /-- Recorded whole-device incarnation of each position (R798). -/
  posInc : SMap Nat := []
  log : List LogEntry := []
  logLost : Nat := 0
  cmd : Option FenCmd := none
  /-- Domains whose first cause was raised since the last Edge phase: they lapse at the next one (R783, R794). -/
  fresh : List Nat := []
  /-- Domains on which a cause was raised in this beat (R806). -/
  raisedNow : List Nat := []
  /-- Die serial number fenced with RING_BABBLE, per position (R809). -/
  babble : SMap (BitVec 64) := []
  deriving DecidableEq, Repr

/-! ## Jobs (07_waybills_and_admission.md, 10_precision_outputs.md, 11_segment_players.md) -/

/-- Job states (Table JOB-8). -/
inductive JState | accepted | dispatched | bound | striking | struck | partial_ | expired | unconfirmed
  deriving DecidableEq, Repr

/-- How a job ended: entry TYPE 0x4 to 0x7 (Table JOB-7), reason, event beat and details. -/
structure Outcome where
  typ : Nat
  reason : Reason
  bn : Nat
  d0 : Nat := 0
  d1 : Nat := 0
  deriving DecidableEq, Repr

/-- One edge of a lane, copied at binding (R499): level, TIME and DIST (Table POU-4). -/
structure EdgeDef where
  lvl : Bool
  time : Nat
  dist : Nat
  deriving DecidableEq, Repr

/-- One lane of a bound job (Table POU-3) and its progress. -/
structure LaneRun where
  out : Nat
  mode : Nat
  edges : List EdgeDef
  count : Nat := 1
  period : Nat := 0
  geng : Nat := 0
  gbit : Nat := 0
  /-- Repetition and edge that come next. -/
  rep : Nat := 0
  idx : Nat := 0
  /-- The repetition in progress has been gated on (R495). -/
  gated : Bool := false
  /-- The lane holds its output active (R501). -/
  holding : Bool := false
  /-- Instant of the last edge loaded, 0 none, and the earliest instant for the next (R500). -/
  last : Nat := 0
  floor : Nat := 0
  /-- From an overtaken edge on, no edge to the active level (R491). -/
  stopped : Bool := false
  deriving DecidableEq, Repr

/-- One plan player of a bound job and its progress; the table bases are those in force at binding (R529). -/
structure PlayRun where
  sp : Nat
  hp : Nat
  stBase : Nat
  segTab : Nat
  slTab : Nat
  gly : List Word := []
  encMode : Bool := false
  cper : Nat := 0
  cpitch : Nat := 0
  /-- Occupancy in beats of the start step's program, its columns, and the beats its conditions may wait (R534). -/
  occ : Nat := 0
  cols : Nat := 0
  waits : Nat := 0
  /-- Step, repetition and column that come next. -/
  step : Nat
  rep : Nat := 0
  col : Nat := 0
  /-- The next column slot, counted from the origin, wait slots included; its instant in encoder mode, once fixed (R530). -/
  slot : Nat := 0
  fixed : Option Nat := none
  /-- The beat of the last column of a step whose advance condition is awaited, and the beat that met it (R527). -/
  waitFrom : Option Nat := none
  metAt : Option Nat := none
  /-- The last column has been sent; the end of its period is awaited (R526). -/
  ending : Bool := false
  done : Bool := false
  /-- First granule of the job's stream allotment, how many it has, and how many it has begun (R535). -/
  gran : Nat := 0
  granN : Nat := 0
  granUsed : Nat := 0
  /-- The granule in progress is sent blank (R537). -/
  blank : Bool := false
  /-- Marker actions at the instants of later slots: slot, marker, set (R541). -/
  marks : List (Nat × Nat × Bool) := []
  deriving DecidableEq, Repr

/-- One job, as manager and executor see it. -/
structure Job where
  ring : Nat
  rseq : Nat
  hm : Nat
  tag : Nat := 0
  /-- The tag that its DISPATCH message gave it, on an executor (R745). -/
  dtag : Nat := 0
  cls : Nat := 0
  /-- The waybill's 16 words; none when the body is lost (R188, R390). -/
  body : List Word := []
  exec : Nat := 0
  st : JState := .accepted
  acceptBn : Nat := 0
  /-- The ACCEPT record is sealed on this ledger; and on the reserve's (R35). -/
  sealed : Bool := false
  dual : Bool := false
  /-- The DISPATCH message has been sent (R331). -/
  sent : Bool := false
  dispBn : Nat := 0
  /-- The trigger instant in FS from beat 0. -/
  stamp : Nat := 0
  /-- Target position of a distance job (R461). -/
  target : Int := 0
  /-- The origin, once known or resolved; the prediction meanwhile (R461, R462). -/
  origin : Option Nat := none
  pred : Option Nat := none
  resolved : Bool := false
  /-- The origin position of R486, once known. -/
  opos : Option Int := none
  /-- Reach instants fixed so far, by DIST (R488). -/
  reach : List (Nat × Nat) := []
  /-- Highest tracking position since binding (R467). -/
  peak : Int := 0
  delay : Nat := 0
  /-- Tally values issued: index and value; and the calendar value and epoch (R545, R549). -/
  tallies : List (Nat × Nat) := []
  calv : Option (CalVal × Nat) := none
  /-- Binding waits for a tally already issued in this beat (R545). -/
  tallyWait : Bool := false
  armedDue : Bool := false
  armed : Bool := false
  lanes : List LaneRun := []
  plays : List PlayRun := []
  /-- Columns sent, played (instant passed), reported FIRED, and still awaiting a report. -/
  colsSent : Nat := 0
  colsPlayed : Nat := 0
  colsFired : Nat := 0
  colsOpen : Nat := 0
  /-- Edges loaded and not yet past, and edges placed. -/
  edgesOpen : Nat := 0
  edges : Nat := 0
  lastBn : Nat := 0
  /-- The latest instant at which a part of the job ends (R496, R526). -/
  endAt : Nat := 0
  /-- A reason that makes the job PARTIAL once its other parts are done (R491, R502, R528, R537, R592). -/
  flaw : Option Reason := none
  /-- The outcome that a fence decided, waiting for the reports of R784. -/
  closing : Option Reason := none
  /-- The outcome decided; and the executor's ENDED or STRUCK record sealed; reported; and the TERM sealed. -/
  out : Option Outcome := none
  outSealed : Bool := false
  reported : Bool := false
  term : Bool := false
  deriving DecidableEq, Repr

/-! ## The ledger (08_ledger.md) -/

/-- A record: words 0 to 6 beside LAP and CHK (Table LDG-2). -/
structure Rec where
  typ : Nat
  hm : Nat := 0
  ring : Nat := 0
  pos : Nat := 0
  calf : Bool := false
  bn : Nat := 0
  byteA : Nat := 0
  w5 : Nat := 0
  w6 : Nat := 0
  /-- Words 1 to 6 of an ARMC or ARMT record, whose layout differs. -/
  raw : List Word := []
  gidx : Nat := 0
  glen : Nat := 0
  deriving DecidableEq, Repr

/-- A record in its slot of the wear ring, with the revolution that wrote it (R365). -/
structure Slot where
  slot : Nat
  lap : Nat
  body : Rec
  deriving DecidableEq, Repr

/-- A group waiting for the Seal phase: precedence (R377), beat due, records. -/
structure SealItem where
  prec : Nat
  due : Nat
  recs : List Rec
  deriving DecidableEq, Repr

/-- The contents of a checkpoint (Table LDG-4). -/
structure Ckpt where
  seq : Nat
  block : Nat
  bn : Nat
  rev : Nat
  head : Nat
  retained : Nat
  sysId : BitVec 64
  ceil : Nat
  last : Nat
  epoch : Nat
  hiWater : CalVal
  calValid : Bool
  nextHm : Nat
  /-- Per ring: expected sequence and last accepted hallmark; the count of non-terminal jobs; the highest terminal hallmark. -/
  rings : List (Nat × Nat × Nat) := []
  nonterm : List (Nat × Nat) := []
  termHm : SMap Nat := []
  acked : SMap Nat := []
  /-- Per ring: highest hallmark whose terminal record the manager has confirmed. -/
  confirmed : SMap Nat := []
  tallyNext : List (Nat × Nat) := []
  tallyLast : List (Nat × Nat) := []
  hopAsym : List (Nat × Nat) := []
  gen : Nat := 0
  /-- EXT pin skews with the PO_CFG and PO_GCFG they were measured under (R840). -/
  skewExt : List (Nat × Word × Word × Word) := []
  /-- RSKEW corrections: position, D_CW and D_CCW in ps, die serial number (R840). -/
  rskew : List (Nat × Int × Int × BitVec 64) := []
  /-- Coefficient sets in force, by line (R840). -/
  coef : List (Nat × List Int) := []
  /-- ID and milestone of the newest applied commit (R711). -/
  commitId : Nat := 0
  commitMs : Nat := 0
  wear : Nat := 0
  carries : Nat := 0
  deriving DecidableEq, Repr

/-- One superblock copy (R368). -/
structure Super where
  valid : Bool := false
  sysId : BitVec 64 := 0
  formatBn : Nat := 0
  mounts : Nat := 0
  wear : Nat := 0
  seq : Nat := 0
  slot : Nat := 0
  deriving DecidableEq, Repr

/-- The MRAM: it survives every loss of power (R417). -/
structure MramSt where
  supA : Super := {}
  supB : Super := {}
  log : List Slot := []
  ckpts : List Ckpt := []
  /-- Next slot to write, its revolution, and slots written since the last wear pass (R365, R418). -/
  head : Nat := 0
  rev : Nat := 0
  written : Nat := 0
  /-- Wear passes, kept here between superblocks (R418). -/
  wear : Nat := 0
  /-- Whole-device incarnation (R796); 0 in a ledger that holds none. -/
  wdinc : Nat := 0
  /-- Last beat number used and last calendar epoch, as the newest records give them. -/
  lastUsed : Nat := 0
  deriving DecidableEq, Repr

/-- The ledger unit's state beside the MRAM. -/
structure LdgSt where
  queue : List SealItem := []
  /-- LDG_FMTKEY was written with the key in this beat (R370). -/
  keyBn : Option Nat := none
  /-- Held with LDG_CORRUPT (R399, R402). -/
  corrupt : Bool := false
  /-- Dual seal is in force; a catch-up of the reserve runs (R383, R388). -/
  dual : Bool := false
  catchup : Bool := false
  /-- Records sent to the reserve and awaiting acknowledgement: ledger position and beat sealed (R384, R385). -/
  mirror : List (Nat × Nat) := []
  /-- Ledger positions and records sealed and not yet sent to the reserve. -/
  toMirror : List (Nat × Rec) := []
  /-- Positions written off (R406), and positions that have declared themselves since mount. -/
  writtenOff : List Nat := []
  declared : List Nat := []
  /-- Outcomes executors reported at replay: hallmark and outcome (R405). -/
  reports : List (Nat × Outcome) := []
  /-- Positions whose declaration waits for REPLAY_DECIDE, with the jobs each holds and whether they are bound. -/
  decide_ : List (Nat × List (Nat × Bool)) := []
  /-- Highest hallmark confirmed per ring, as an executor (Table LDG-4). -/
  confirmed : SMap Nat := []
  /-- Ledger reason codes raised and not yet over: LDG_SATURATED of this episode, the wear warnings, LDG_MIRROR_LAG. -/
  raised : List Reason := []
  /-- Beats of the last checkpoint and superblock written. -/
  ckptBn : Nat := 0
  superBn : Nat := 0
  deriving DecidableEq, Repr

/-! ## Admission and the host port (06_host_port.md, 07_waybills_and_admission.md) -/

/-- One entry of a ring's ALREADY window (R319). -/
structure WinEntry where
  rseq : Nat
  hm : Nat
  st : JState
  deriving DecidableEq, Repr

/-- The Innkeeper (R318 to R345). -/
structure AdmSt where
  /-- ALREADY windows, newest first, per ring. -/
  win : SMap (List WinEntry) := []
  /-- Next hallmark; 2^48 when 0xFFFF_FFFF_FFFF has been assigned (R354). -/
  nextHm : Nat := 1
  /-- Tokens in units of 10^-9 (R329). -/
  tokens : Nat := 4096000000000
  /-- Waybills examined, accepted and dispatched in this beat (Table SYS-3). -/
  examined : Nat := 0
  acceptedN : Nat := 0
  dispatched : Nat := 0
  /-- Last ring examined and last ring dispatched, per priority, for the round-robin (R326, R332). -/
  rrExam : SMap Nat := []
  rrDisp : SMap Nat := []
  /-- Highest hallmark with a TERM record, per ring (Table LDG-4). -/
  termHm : SMap Nat := []
  /-- Waybills read from host memory and waiting for examination, per ring, oldest first. -/
  ready : SMap (List (List Word)) := []
  /-- Doorbell values written in this beat, sampled at the next Edge phase (R34). -/
  bells : SMap (Option Nat) := []
  /-- Waybill reads per ring: count requested, and 1 in flight, 2 to be retried at the next beat, 3 retried (R273). -/
  reading : SMap (Nat × Nat) := []
  /-- Jobs of a cancel whose executor has not answered yet (R344). -/
  cancelWait : List Nat := []
  deriving DecidableEq, Repr

/-- A completion entry without its PHASE bit: words 0 to 7 (Table JOB-6), with the hallmark that seals it. -/
structure CqEntry where
  words : List Word
  /-- Ledger position of the record it reports, or the log head's position when it was made. -/
  lpos : Nat := 0
  /-- The entry reports a sealed record and is delivered again after a re-enable (R286). -/
  durable : Bool := true
  /-- Replay found it in the log, where the acknowledged point of its queue may lie after it (R286). -/
  replayed : Bool := false
  deriving DecidableEq, Repr

/-- One completion queue (R279 to R288). -/
structure CqSt where
  /-- Entries in count order not yet posted. -/
  wait : List CqEntry := []
  /-- Entries posted and not yet acknowledged by a HEAD write, for re-delivery (R286). -/
  posted : List CqEntry := []
  /-- Entries posted since the last interrupt, and the beat of the oldest (R288). -/
  since : Nat := 0
  sinceBn : Nat := 0
  /-- Entries at the head of `wait` that are delivered again (R286). -/
  redo : Nat := 0
  /-- The full episode has been reported (R285). -/
  fullRaised : Bool := false
  /-- HST_CQq_HEAD as of the last Prepare phase, against which posting is held (R306). -/
  head : Nat := 0
  /-- Acknowledged point: one more than the ledger position of the newest record whose entry was consumed (R286). -/
  acked : Nat := 0
  /-- The queue's on-die FIFO of an SPI host (R302). -/
  fifo : List (List Word) := []
  deriving DecidableEq, Repr

/-- The host port (R262 to R302). -/
structure HstSt where
  /-- The endpoint's configuration: MSI-X enable and Interrupt Disable. -/
  msixEn : Bool := false
  intDis : Bool := false
  /-- A new manager after takeover holds host DMA until HOST_GO (R293). -/
  held : Bool := false
  goDue : Bool := false
  cqs : SMap CqSt := []
  /-- One more than the completion queue that each ring's entries go to: the one that JR_SQCFG was last programmed with; 0 before. A
  host-port reset keeps it, since it is the device's own and no host-interface register (log entry 135). -/
  cqOf : SMap Nat := []
  /-- Entries of sealed records whose ring has not been programmed since the start: job ring and entry (R286). -/
  owed : List (Nat × CqEntry) := []
  /-- The SPI submission window holds a waybill not yet answered (R301). -/
  subRing : Option Nat := none
  /-- HST_SUBGO was written and is sampled at the next Edge phase (R34, R301). -/
  subDue : Bool := false
  /-- AER has logged a Poisoned TLP (R274). -/
  aerPoison : Bool := false
  deriving DecidableEq, Repr

/-! ## Triggers and encoders (09_triggers_and_encoders.md) -/

/-- A capture waiting to bind (R39): source, stamp in FS, beat it belongs to, device that made it, rings served. -/
structure Capture where
  tsrc : Nat
  tidx : Nat
  stamp : Nat
  bn : Nat
  pos : Nat
  /-- Rings of this executor it still has to be offered to (R441). -/
  rings : List Nat := []
  deriving DecidableEq, Repr

/-- A capture that waits for a binding slot to an executor in a direction: 0 CW, 1 CCW (R29, R743). -/
structure RemoteCap where
  exec : Nat
  dir : Nat
  cap : Capture
  /-- A frame has left without it, and WR_BSWAIT has counted it. -/
  waited : Bool := false
  deriving DecidableEq, Repr

/-- One trigger input (Table TRG-1). -/
structure TrgSt where
  /-- The raw level, the instant of its last transition, and the qualified level. -/
  raw : Bool := false
  rawAt : Nat := 0
  level : Bool := false
  /-- Disarmed after a capture until the inactive level has held (R430). -/
  disarmed : Bool := false
  /-- Core cycle of the qualified transition to the inactive level, for the debounce. -/
  inactAt : Nat := 0
  /-- Stamp and encoder position in 2^-16 counts of the last capture (R434, R435), and the beat of it (R40). -/
  capAt : Option Nat := none
  capPos : Int := 0
  capBn : Option Nat := none
  deriving DecidableEq, Repr

/-- One encoder (R446 to R467). -/
structure EncSt where
  /-- Tracking position, a signed count modulo 2^40; and as it stood when the domain was last unfenced (R436). -/
  pos : Int := 0
  freePos : Int := 0
  a : Bool := false
  b : Bool := false
  /-- Stamps (FS) and positions of the last 16 counted transitions, newest first (R453). -/
  hist : List (Nat × Int) := []
  /-- The speed as a ratio: counts over FS; sign in the numerator (R455). -/
  spN : Int := 0
  spD : Nat := 1
  /-- Transitions of A and B in this beat (R448). -/
  inBeat : Nat := 0
  /-- Phase errors in the current window of 65 536 beats. -/
  perrWin : Nat := 0
  /-- Tracking position in 2^-16 counts as of the last Gather phase (ENC_POSI). -/
  shown : Int := 0
  /-- Offset of the reported position (R451). -/
  offset : Int := 0
  /-- Tracking position of the previous Z edge (R452). -/
  zPrev : Option Int := none
  /-- The speed is above ENC_VMAX, and the episode has been raised (R459). -/
  vmaxOn : Bool := false
  /-- Beat of the newest counted transition (R457). -/
  lastBn : Nat := 0
  deriving DecidableEq, Repr

/-- Triggers, encoders and captures. -/
structure TrigSt where
  inp : SMap TrgSt := []
  enc : SMap EncSt := []
  /-- Captures made and not yet bound, oldest first. -/
  caps : List Capture := []
  /-- Captures to send to remote executors, for each direction (R442, R743). -/
  remote : List RemoteCap := []
  /-- Binding copies already taken (R47): position, incarnation, source, stamp. -/
  seen : List (Nat × Nat × Nat × Nat × Nat) := []
  /-- Bindings made in this beat (Table SYS-3). -/
  bound : Nat := 0
  /-- Rings in a run of unclaimed captures already reported (R444). -/
  unclRun : List Nat := []
  /-- Active edges counted and engine raises in this beat, for step advances (Table SPL-4). -/
  edgesNow : List Nat := []
  raisesNow : List Nat := []
  deriving DecidableEq, Repr

/-! ## Precision outputs (10_precision_outputs.md) -/

/-- An edge loaded into its output queue and not yet past (R490). -/
structure Loaded where
  out : Nat
  inst : Nat
  lvl : Bool
  hm : Nat
  lane : Nat
  deriving DecidableEq, Repr

/-- One output. -/
structure OutSt where
  /-- Lanes of non-terminal jobs that hold it active: hallmark and lane (R501). -/
  holders : List (Nat × Nat) := []
  /-- First beat boundary since which it has been continuously active (R502). -/
  since : Option Nat := none
  /-- Held inactive by PO_MAXACT until its lanes are released (R502). -/
  capped : Bool := false
  /-- The output is at its safe level: outside RUN, or drained (R483, R484). -/
  safe : Bool := true
  deriving DecidableEq, Repr

/-- Outputs and the interlock (R504 to R508). -/
structure PoSt where
  outs : SMap OutSt := []
  queue : List Loaded := []
  /-- ILK_L is low at the pin. -/
  ilkLow : Bool := false
  /-- The interlock acts. -/
  acting : Bool := false
  /-- An interlock beat is due at the next Edge phase (R506). -/
  beatDue : Bool := false
  deriving DecidableEq, Repr

/-! ## Players, markers, tallies and the load path (11_segment_players.md) -/

/-- A marker action waiting for its instant (R541). -/
structure MkAct where
  marker : Nat
  inst : Nat
  set : Bool
  hm : Nat
  deriving DecidableEq, Repr

/-- One tally beside TAL_NEXT and TAL_LAST. -/
structure TalSt where
  /-- Values issued and not yet consumed or expired: issue order, hallmark, value. -/
  open_ : List (Nat × Nat × Nat) := []
  issues : Nat := 0
  /-- Loaded by a commit whose KIND 2 record is not sealed yet: no value is issued (R710). -/
  hold : Bool := false
  /-- Issue order of the value in TAL_LAST. -/
  lastOrd : Nat := 0
  /-- Beat of the last issue (R545). -/
  issuedBn : Option Nat := none
  deriving DecidableEq, Repr

/-- A load in progress (R523). -/
structure Load where
  src : Nat
  dst : Nat
  len : Nat
  pos : Nat
  stream : Bool
  player : Nat
  sent : Nat := 0
  deriving DecidableEq, Repr

structure SpSt where
  /-- Markers set, with the job that set each (R541, R542). -/
  marks : List (Nat × Nat) := []
  acts : List MkAct := []
  tal : SMap TalSt := []
  /-- SP_SBWR values written, taking effect at the next Edge phase (R558). -/
  sbwr : SMap (Option Nat) := []
  /-- Below-watermark episodes already reported, per player (R539). -/
  lwm : List Nat := []
  load : Option Load := none
  /-- Bytes of an incomplete granule received for a player's stream (R523). -/
  part : SMap Nat := []
  deriving DecidableEq, Repr

/-! ## Head ports (12_head_ports.md) -/

/-- A beat frame on its way or reported: execution beat, job of its column if any, reported. -/
structure FrameSt where
  bn : Nat
  bytes : List Byte
  job : Option Nat := none
  /-- Its column is blank under R537; and the granule count that is released once it has played (R536). -/
  blank : Bool := false
  rd : Option Nat := none
  safe : Bool := false
  sent : Bool := false
  reported : Bool := false
  deriving DecidableEq, Repr

/-- A partner command (R610). -/
structure HpCmd where
  cseq : Nat
  cop : Nat
  addr : Nat
  data : Nat
  /-- Execution beat of its frame, once sent. -/
  bn : Option Nat := none
  deriving DecidableEq, Repr

/-- One head port beside HP_STAT. -/
structure HpSt where
  /-- Beat the link state was entered, and failed attempts in a row (R595). -/
  since : Nat := 0
  fails : Nat := 0
  /-- LAT accepted from the partner's declaration, in ns (R577). -/
  lat : Option Nat := none
  /-- Frames built and not yet old enough to be forgotten, oldest first. -/
  frames : List FrameSt := []
  /-- Error events in the window of 65 536 beats (R606). -/
  errs : Nat := 0
  cmd : Option HpCmd := none
  cseq : Nat := 0
  /-- The outstanding command ends CANCELLED at the next beat boundary (R613). -/
  cancel : Bool := false
  /-- The outstanding command was issued by this engine (R646); none for the host. -/
  byEng : Option Nat := none
  deriving DecidableEq, Repr

/-! ## Clocks (05_clock_synthesis.md) -/

/-- A pending ASYN command (R232): the bits of AS_CMD, profile and apply beat. -/
structure AsPend where
  prof : Nat
  hop : Bool := false
  sync : Bool := false
  ret : Bool := false
  div : Bool := false
  search : Bool := false
  applyBn : Nat
  deriving DecidableEq, Repr

/-- What a CKOUT output carries: nothing, the synthesized clock, low for a hop or a sync, low as its bypass divider says,
the bypass clock, a change to it under way, low for a dead bypass source, low for a brace, low for the interlock. -/
inductive CkSrc | off | synth | holdLow | bypLow | bypass | switching | deadLow | brace | ilk
  deriving DecidableEq, Repr

/-- SPLL and ASYN state beside CLK_STAT and AS_STAT. -/
structure ClkSt where
  /-- The core runs on the holdover oscillator (R214). -/
  holdover : Bool := false
  /-- BT_STAT.HOLDOVER sets at the next Edge phase (R214). -/
  faultDue : Bool := false
  /-- The clock-fault beat (R214). -/
  faultBn : Nat := 0
  /-- The jobs are decided at the end of the clock-fault beat (R219). -/
  jobsDue : Bool := false
  /-- The SPLL slews or locks towards its reference, not the holdover oscillator. -/
  lockRef : Bool := true
  /-- The holdover flag was seen in the last accepted ring frame (R50). -/
  flagSeen : Bool := false
  /-- The VCO is frozen at its last tuning value: the clock side carries no origin frame (R734). -/
  frozen : Bool := false
  /-- The ring has left holdover and this device recalibrates (R225). -/
  recal : Bool := false
  /-- Return calibration is done; the domains of R217 wait for the next Edge phase, or for CLK_CMD.UNFENCE (R224). -/
  unfenceDue : Bool := false
  unfenceWait : Bool := false
  asPend : Option AsPend := none
  /-- Dividers in use, loaded at DIV_APPLY or with a hop (R244). -/
  div : SMap Nat := []
  /-- A hop is under way: lock is not yet declared (R233). -/
  hopping : Bool := false
  /-- SEARCH_ALL: profiles still to search, and the profile to return to (R234). -/
  searching : List Nat := []
  back : Option Nat := none
  /-- Beat of a beat-scheduled sync that restarts the outputs (R233, R250). -/
  syncAt : Option Nat := none
  outs : SMap CkSrc := []
  /-- N_INT and FRAC that the loop runs on, and its VCO band (R228). -/
  asN : Nat := 0
  asFrac : Nat := 0
  asBand : Option Nat := none
  /-- The BYPCLK pin, and the reference as a bypass source, show no edge (R240, R241). -/
  bypDead : Bool := false
  refDead : Bool := false
  /-- The reason with which a fenced FD112 fences the AS_DEP domains, and the domains that hold it for that alone (R251). -/
  depReason : Option Reason := none
  depSet : List Nat := []
  /-- A clean window has ended since lock, without LOCK_SUSPECT (R243). -/
  cleanWin : Bool := false
  /-- Beat of the last AS_UNLOCK (R237) and of the last CKSYNC edge (R247). -/
  unlockBn : Option Nat := none
  cksyncBn : Option Nat := none
  deriving DecidableEq, Repr

/-! ## Tinker engines (13_tinker_engines.md) -/

/-- One queue: words with the core cycle each was written in, and the places freed in the last cycle that freed any
(R643). -/
structure EngQ where
  items : List (Word × Nat) := []
  popCyc : Nat := 0
  pops : Nat := 0
  deriving DecidableEq, Repr

/-- One engine. -/
structure EngSt where
  state : Nat := 0
  running : Bool := false
  halted : Bool := false
  /-- Output vector, the cycle of its last change, and the vector before that change. -/
  outv : Nat := 0
  outCyc : Nat := 0
  outPrev : Nat := 0
  sr : Word := 0
  cnt : Nat := 0
  /-- The RX queue, which also holds the words of a join whose reader the engine is (R647), and the TX queue. -/
  rx : EngQ := {}
  tx : EngQ := {}
  /-- The state has been entered; ticks since its entry tick, and the cycle of that tick. -/
  entered : Bool := false
  ticks : Nat := 0
  entryCyc : Nat := 0
  /-- The queue operation of the state has completed, and its wait event has been seen at a tick. -/
  qdone : Bool := false
  evSeen : Bool := false
  /-- Events that occurred and may still be counted: WSEL code and core cycle (R636). -/
  ev : List (Nat × Nat) := []
  /-- Core cycle of tick 0 of the divider (R630), and one more than that of the last tick. -/
  c0 : Nat := 0
  lastTick : Nat := 0
  /-- Beat of the last event raise (R651). -/
  raisedBn : Option Nat := none
  /-- At some point of this beat the engine was not blocked in group (R668). -/
  free : Bool := false
  steps : Nat := 0
  /-- A swap with SWAPMODE = 1 enters START at the next tick (R664). -/
  swapDue : Bool := false
  deriving DecidableEq, Repr

/-- A TNK_CMD waiting for its beat (R656). -/
structure TnkPend where
  idx : Nat
  engine : Bool
  start : Bool
  bn : Nat
  deriving DecidableEq, Repr

structure TnkSt where
  eng : SMap EngSt := []
  pend : Option TnkPend := none
  /-- Groups running, and stall counts (R668). -/
  grp : List Nat := []
  stall : SMap Nat := []
  /-- Global inputs that have changed: level and core cycle of the last change (R638). -/
  inputs : SMap (Bool × Nat) := []
  /-- Readers of joins that a reclaim has split (R649), until a start of their engines. -/
  split : List Nat := []
  deriving DecidableEq, Repr

/-! ## Stage, check, commit (14_stage_check_commit.md) -/

/-- A commit in progress, on the manager or on a scoped device. -/
structure CommitSt where
  id : Nat
  ms : Nat
  scope : Nat
  local_ : Bool
  checkOnly : Bool := false
  /-- The manager's exchange of step 5 of provisioning: it seals no new ID (Table RNG-8). -/
  prov : Bool := false
  /-- Beat the check started, and its result once complete: 0 passed. -/
  checkBn : Nat := 0
  result : Option Reason := none
  /-- Positions that voted YES, those yet to vote, and the NO votes with their codes. -/
  yes : Nat := 0
  pendV : Nat := 0
  no : List (Nat × Reason) := []
  /-- This device has sent its vote (R696). -/
  voted : Bool := false
  /-- Decision: none, APPLY or ABORT with its reason. -/
  decision : Option Reason := none
  deriving DecidableEq, Repr

structure SccSt where
  cur : Option CommitSt := none
  /-- Milestone applied and not yet reported by these positions (R701). -/
  await : Nat := 0
  /-- Its beat M + L. -/
  awaitBn : Nat := 0
  /-- They apply an exchange of provisioning (Table RNG-8). -/
  awaitProv : Bool := false
  /-- The stage image differs from the active one since a start that reset it (R714). -/
  fresh : Bool := true
  /-- SCC_VIEW of each port (R264). -/
  view : SMap Bool := []
  /-- An SCC_CMD write that the next Edge phase takes (R684). -/
  cmd : Option Word := none
  /-- The commit fields of the headers: H1, H2 and the last beat whose frames carry them (R695, R698). -/
  hdr : Option (Nat × Nat × Nat) := none
  deriving DecidableEq, Repr

/-! ## The Wilin ring (15_wilin_ring.md) -/

structure SideSt where
  lstate : Nat := 0
  wrapped : Bool := false
  laneLost : Bool := false
  nbrPos : Nat := 0
  nbrInc : Nat := 0
  /-- The neighbour has identified itself (R739). -/
  nbrSeen : Bool := false
  /-- Frame errors in the current window of 65 536 beats (R756). -/
  errWin : Nat := 0
  /-- Received an origin frame in this beat. -/
  origin : Bool := false
  deriving DecidableEq, Repr

/-- A window access that awaits its reply (R768, R875): target, data of a write, offset within BAR0, beat issued, issuing port. -/
structure WinAcc where
  pos : Nat
  write : Option Word
  off : Nat
  bn : Nat
  port : Port
  deriving DecidableEq, Repr

/-- A bulk message that waits for its blocks (R748 to R750). -/
structure BulkMsg where
  /-- The destination; 63 stands for every position. -/
  dst : Nat
  kind : Nat
  words : List Word
  /-- Blocks that have not left. -/
  left : Nat
  deriving DecidableEq, Repr

structure RingSt where
  side : SMap SideSt := []
  /-- The clock side: 0 A, 1 B. -/
  clockSide : Nat := 0
  mgrPos : Nat := 0
  resPos : Option Nat := none
  /-- Positions present, as a mask. -/
  present : Nat := 0
  /-- Declared positions with serial, HPSET and system identity. -/
  decl : List (Nat × BitVec 64 × Nat × BitVec 64) := []
  /-- Provisioning step reached per position (Table RNG-8). -/
  prov : SMap Nat := []
  /-- Beats without a status slot, per position (R759); beats without an origin frame (R760, R763). -/
  missing : SMap Nat := []
  noOrigin : Nat := 0
  /-- The manager's own frames not seen, in beats (R765). -/
  noOwn : Nat := 0
  lastStatus : SMap Nat := []
  /-- Last beat whose status slot from a position was received (R409). -/
  statusBn : SMap Nat := []
  /-- Positions whose status slot has arrived in this beat, as a mask. -/
  heard : Nat := 0
  /-- Pending handover beat, unwrap (position, beat), and the holdover flag seen. -/
  handover : Option Nat := none
  unwrap : Option (Nat × Nat) := none
  /-- Records sealed for the mirror in this beat (SEALACK of Table RNG-5). -/
  sealAck : Nat := 0
  /-- Bulk credit per position (R752). -/
  credit : SMap Nat := []
  /-- Bulk messages that wait, in the order in which they were made. -/
  bulk : List BulkMsg := []
  /-- Positions at which a manager-capable device has declared itself or sent a claim, as a mask (R135). -/
  capPos : Nat := 0
  /-- Positions that have requested blocks, as a mask, and the position granted last (R749). -/
  bulkReq : Nat := 0
  grantTurn : Nat := 31
  /-- Bulk blocks that this device has freed since its last report (CREDIT of Table RNG-5). -/
  freed : Nat := 0
  /-- Tags given at dispatch: tag, position, hallmark (R745). -/
  tags : List (Nat × Nat × Nat) := []
  /-- Items seen, for the second copy (R747). -/
  seenItems : List (Nat × Nat × Nat) := []
  /-- TERM reports waiting for a DETAIL message: hallmark; and details that came first: position, tag, DETAIL0, DETAIL1. -/
  needDetail : List Nat := []
  details : List (Nat × Nat × Nat × Nat) := []
  /-- Report items to send, as words of Table RNG-6, in order; the flag says that the item is of a sealed record (R746). -/
  items : List (Bool × Nat) := []
  /-- Window accesses outstanding, oldest first. -/
  win : List WinAcc := []
  /-- The provision set: position, register, value (R864). -/
  provSet : List (Nat × Nat × Word) := []
  /-- Stage and active copies of the st registers of other positions, as the manager has written them through the window: position,
  register, value (Table RNG-8, step 4). -/
  imgStage : List (Nat × Nat × Word) := []
  imgActive : List (Nat × Nat × Word) := []
  /-- Offset table distributed (R737): D_CW and D_CCW of each position in ps, two entries a position. -/
  offTab : List Int := []
  /-- An offset table with its apply beat, waiting for that beat (R833). -/
  offPend : Option (Nat × List Int) := none
  /-- A change of clock side in progress: the beat at which it is complete (R734, R776). -/
  sideChange : Option Nat := none
  /-- The running manager, and its identity, that a neighbour's IDENT has named (R134, R135). -/
  running : Option (Nat × BitVec 64) := none
  /-- Positions with ROLE_CONFLICT, PROV_MISMATCH or POSN_DUPLICATE reported. -/
  badPos : List (Nat × Reason) := []
  /-- Positions whose hop to the next position clockwise is down: what a wrap cuts (R738, R756). -/
  cut : List Nat := []
  stopped : Bool := false
  /-- A PROV FENCE received, acting at the next Edge phase (R789). -/
  fencePend : Option Reason := none
  /-- A manager that has lost its own frames (R765). -/
  isolated : Bool := false
  /-- A frame of a manager has been accepted (R731); the last beat in which a VOID frame arrived (R763). -/
  mgrKnown : Bool := false
  voidBn : Option Nat := none
  deriving DecidableEq, Repr

/-! ## Assay (17_assay.md) -/

/-- A running procedure. -/
structure AsyRun where
  proc : Nat
  target : Nat
  loopIn : Nat := 0
  attempts : Nat := 0
  /-- Beat the attempt's window started; or the beat the next attempt starts. -/
  startBn : Nat := 0
  retryBn : Option Nat := none
  auto : Bool := false
  deriving DecidableEq, Repr

structure AsySt where
  run : Option AsyRun := none
  /-- Coefficient sets by line: outputs 0 to 31, markers 32 to 47, TDCs 48 to 63 (Table ASY-1). -/
  coef : SMap (List Int) := []
  /-- PO_CFG and PO_GCFG under which each EXT pin skew was measured (R840). -/
  extCfg : SMap (Word × Word) := []
  /-- EXT pin skews of the checkpoint that wait for the first commit that enables their output (R841). -/
  extPend : List (Nat × Word × Word × Word) := []
  /-- RSKEW corrections by position: D_CW and D_CCW in ps, and the die serial number (R833, R840). -/
  rskew : List (Nat × Int × Int × BitVec 64) := []
  /-- Replica measurements since the last drift apply (R837). -/
  driftN : Nat := 0
  /-- One more than the beat at which a LINES set last applied, per cluster (R848). -/
  baseBn : SMap Nat := []
  /-- Lines whose last result lay outside the correctable range (R825). -/
  range : List Nat := []
  /-- Joining positions whose RSKEW is still to succeed, and the beat of the next series (R836). -/
  rskewPend : List Nat := []
  rskewDue : Nat := 0
  /-- Beat of the next automatic TDC start, and inputs left of the last one (R828). -/
  tdcDue : Nat := 0
  tdcLeft : List Nat := []
  /-- Instant of the last raw transition per trigger input (R827). -/
  lastRaw : SMap Nat := []
  /-- A successful post-check: the sets to apply at the next Edge phase, by line, and the offset or pin skew (R824). -/
  applyDue : Option (List (Nat × List Int) × Int) := none
  deriving DecidableEq, Repr

/-! ## The device and the block -/

/-- What the device sends, in order: interrupts, host writes, read data, ring messages, frames, pin actions. -/
inductive Out where
  | msix (v : Nat)
  | cqWrite (q : Nat) (words : List Word)
  | readData (port : Port) (w : Word)
  | dmaRead (ring : Nat) (count : Nat)
  | spi (bytes : List Byte)
  /-- A bulk message: side 0 for the CW direction, 1 for CCW, 2 for both. -/
  | ring (side : Nat) (dst : Nat) (kind : Nat) (words : List Word)
  /-- A beat frame: the port, the instant of its first bit in ns since beat 0 (R577), its bytes. -/
  | frame (p : Nat) (ns : Nat) (bytes : List Byte)
  | abort (p : Nat)
  | lock (p : Nat)
  | edge (n : Nat) (level : Bool)
  | marker (n : Nat) (on : Bool)
  /-- What a CKOUT pin carries from now on: source, divider, and whether a bypass source is the reference (R240). -/
  | ckout (n : Nat) (src : CkSrc) (div : Nat) (ref : Bool)
  | binding (dir : Nat) (w : Nat)
  | void (side : Nat) (bn : Nat)
  | header (h1 : Nat) (h2 : Nat)
  | status (pos : Nat) (s0 : Nat) (items : List Nat)
  /-- A frame of the origin: word H0, and its bulk control block. -/
  | origin (h0 : Nat) (bulk : Nat)
  /-- A frame forwarded on a side, with POISON and the words of its binding slots. -/
  | forward (side : Nat) (poison : Bool) (binds : List Nat)
  /-- Idle on a dark side, to wake the neighbour (R762). -/
  | wake (side : Nat)
  /-- The claim of a manager-capable device, on both sides (R129). -/
  | claim (pos : Nat) (formatted : Bool) (sysId : BitVec 64)
  /-- The acknowledged points of the queues, for the reserve: queue, hallmark, terminal. -/
  | acked (points : List (Nat × Nat × Bool))
  deriving DecidableEq, Repr

/-- The device: everything but the queue of commands and the segment store. -/
structure Dev where
  /-- Active register words, canonical over `resetWord`. -/
  regs : SMap Word := []
  /-- The stage image of the st registers, canonical over `resetWord`. -/
  stage : SMap Word := []
  /-- Latch shadows per port, keyed by register offset (R264, R874). -/
  shHost : Shadows := []
  shSpi : Shadows := []
  shWin : Shadows := []
  t : TimeSt := {}
  cal : CalSt := {}
  boot : BootSt := {}
  pwr : PwrSt := {}
  clk : ClkSt := {}
  hst : HstSt := {}
  adm : AdmSt := {}
  jobs : List Job := []
  mram : MramSt := {}
  ldg : LdgSt := {}
  trg : TrigSt := {}
  po : PoSt := {}
  sp : SpSt := {}
  hp : SMap HpSt := []
  tnk : TnkSt := {}
  scc : SccSt := {}
  wr : RingSt := {}
  fen : FenSt := {}
  asy : AsySt := {}
  out : List Out := []
  /-- The instruction that the test access port holds (R900). -/
  tap : TapInstr := .bypass
  /-- Draws of free values made so far; the model's own field. -/
  draws : Nat := 0
  deriving DecidableEq, Repr

/-- Why the machine stops with a fault. -/
inductive Fault where
  /-- A BAR2 write or the data of a load would touch an address outside the 16 MiB segment store, which does not exist
  (11_segment_players.md, "The segment store"). Raised by STORE_WRITE and LOAD_MESSAGE, on operands that are not well formed. Safe. -/
  | outsideStore
  deriving DecidableEq, Repr

/-- Why a command has no meaning. -/
inductive Refusal where
  /-- The command has no meaning yet; raised only by Machine/Dispatch.lean. Safe. -/
  | notModelled (mnemonic : String)
  /-- A TAP instruction for which the spec gives no effect (R902). Raised by JTAG_INSTRUCTION. Safe. -/
  | factoryTap
  deriving DecidableEq, Repr

/-- The block: waiting commands, the segment store and the device. -/
structure State where
  pending : List Instr := []
  /-- The 16 MiB segment store (R518), canonical: addresses rising, no zero byte listed. -/
  store : List Host.Cell := []
  dev : Dev := {}
  deriving DecidableEq, Repr

/-- What an unlisted byte of the segment store reads as: 0. DESIGN CHOICE, unsafe (log entry 1). -/
def storeDefault (_ : Nat) : Byte := 0

/-- Right after reset: PORST_L asserted, every register at its reset value, nothing in the store or the MRAM. -/
def State.reset : State := {}

end Sys2Proof.Machine
end

