-- ==== Sys2Proof/Machine/Ops.lean ====
section
/-!
DEFINITION. Sys2Proof/Machine/Ops.lean: the shared operations: registers and fields, interrupts, fence causes and the
reason log, records due for sealing, ending a job, and lifting an effect on the device to the block.
-/
namespace Sys2Proof.Machine

/-! ## Registers -/

/-- The active word of the register at an offset. -/
def Dev.reg (d : Dev) (a : Nat) : Word := mgetD resetWord d.regs a

/-- Write the active word of the register at an offset. -/
def Dev.setReg (d : Dev) (a : Nat) (w : Word) : Dev := { d with regs := msetD resetWord d.regs a w }

/-- The stage word of an st register (R18). -/
def Dev.stg (d : Dev) (a : Nat) : Word := mgetD resetWord d.stage a

/-- Write the stage word of an st register. -/
def Dev.setStg (d : Dev) (a : Nat) (w : Word) : Dev := { d with stage := msetD resetWord d.stage a w }

/-- A field of an active register. -/
def Dev.fld (d : Dev) (f : Fld) : Nat := slice (d.reg f.a) f.hi f.lo

/-- Write a field of an active register. -/
def Dev.setFld (d : Dev) (f : Fld) (v : Nat) : Dev := d.setReg f.a (setSlice (d.reg f.a) f.hi f.lo v)

/-- A one-bit field. -/
def Dev.flag (d : Dev) (f : Fld) : Bool := d.fld f != 0

/-- Write a one-bit field. -/
def Dev.setFlag (d : Dev) (f : Fld) (b : Bool) : Dev := d.setFld f (if b then 1 else 0)

/-- Add to a count that saturates at its field's largest value. -/
def Dev.addSat (d : Dev) (f : Fld) (n : Nat) : Dev := d.setFld f (satAdd (f.hi + 1 - f.lo) (d.fld f) n)

/-- Add to a wrapping count. -/
def Dev.addWrap (d : Dev) (f : Fld) (n : Nat) : Dev := d.setFld f (d.fld f + n)

/-- A whole register as a number. -/
def Dev.num (d : Dev) (a : Nat) : Nat := (d.reg a).toNat

/-- Write a whole register as a number. -/
def Dev.setNum (d : Dev) (a v : Nat) : Dev := d.setReg a (BitVec.ofNat 32 v)

/-- A value in a low and a high register. -/
def Dev.num2 (d : Dev) (lo hi : Nat) : Nat := d.num lo + 2 ^ 32 * d.num hi

/-- Write a value over a low and a high register. -/
def Dev.setNum2 (d : Dev) (lo hi v : Nat) : Dev := (d.setNum lo (v % 2 ^ 32)).setNum hi (v / 2 ^ 32)

/-! ## Time and role -/

/-- The current beat number, as a number. -/
def Dev.now (d : Dev) : Nat := d.t.bn.toNat

/-- FS per core cycle and per beat (Table BEA-1). -/
def fsPerCycle : Nat := 2048
def fsPerBeat : Nat := 491520
def cyclesPerBeat : Nat := 240

/-- The instant of a TS96 stamp in FS after beat 0 (02_beat_and_time.md, "TS96 and D48 arithmetic"). -/
def instant (bn ci fs : Nat) : Nat := (bn * cyclesPerBeat + ci) * fsPerCycle + fs

/-- The beat that contains an instant. -/
def beatOf (t : Nat) : Nat := t / fsPerBeat

/-- The three words of a TS96 stamp (Table SCP-4): FS in TSW0[10:0], BN[23:0] over CI in TSW1, BN[55:24] in TSW2. -/
def tsw0 (t : Nat) : Word := BitVec.ofNat 32 (t % fsPerCycle)
def tsw1 (t : Nat) : Word := BitVec.ofNat 32 (t / fsPerBeat % 2 ^ 24 * 256 + t / fsPerCycle % cyclesPerBeat)
def tsw2 (t : Nat) : Word := BitVec.ofNat 32 (t / fsPerBeat / 2 ^ 24)

/-- The device acts for the job rings: the active manager or a standalone device. -/
def Dev.isMgr (d : Dev) : Bool := d.boot.role == .manager || d.boot.role == .standalone

/-- The device is part of a ring. -/
def Dev.inRing (d : Dev) : Bool := d.boot.role != .standalone

/-- Ring position: the POSN code; a standalone device is position 0 (R312, R571). -/
def Dev.pos (d : Dev) : Nat := if d.boot.role == .standalone then 0 else d.fld F.SUP_RCODE_POSN

/-- Power state (Table PWR-1): 0 RUN, 1 READY, 2 STANDBY, 3 PARK, 4 OFF, 5 READY-WAIT, 15 none yet. -/
def Dev.pstate (d : Dev) : Nat := d.fld F.PWR_STAT_STATE

/-- The device is in RUN. -/
def Dev.inRun (d : Dev) : Bool := d.pstate == 0

/-- A BRACE is in force. -/
def Dev.braced (d : Dev) : Bool := d.flag F.PWR_STAT_BRACE

/-- Ring latency L in beats (WR_STAT). -/
def Dev.lat (d : Dev) : Nat := d.fld F.WR_STAT_L

/-! ## What the device sends; interrupts (R289 to R292) -/

/-- Blocks of a bulk message: its header, and one for each two words. -/
def bulkBlocks (words : Nat) : Nat := 1 + (words + 1) / 2

/-- Send something. -/
def Dev.emit (d : Dev) (o : Out) : Dev := { d with out := d.out ++ [o] }

/-- The device's sides are in service: it is no standalone device (R141), its sides are not stopped (R216), and it is not isolated
(R155, R761). -/
def Dev.linked (d : Dev) : Bool :=
  d.boot.strapsValid && d.inRing && !d.wr.stopped && (d.pwr.vcore || (d.pstate == 3 && !d.pwr.isolated))

/-- Put a bulk message in line for its blocks (R748 to R750). Before a device has heard an origin nothing can grant it blocks, and its
message leaves at once, on both sides (DESIGN CHOICE: the census of R133 comes before the first origin; log entry 23). -/
def Dev.bulkPut (d : Dev) (p k : Nat) (ws : List Word) : Dev :=
  if !d.inRing then d
  else if d.boot.role != .manager && !d.wr.mgrKnown && d.linked then d.emit (.ring 2 p k ws)
  else { d with wr := { d.wr with bulk := d.wr.bulk ++ [{ dst := p, kind := k, words := ws, left := bulkBlocks ws.length }] } }

/-- Header words that the next frame carries; a device whose sides are not in service sends none (R216). -/
def Dev.sendHeader (d : Dev) (h1 h2 : Nat) : Dev := if d.linked then d.emit (.header h1 h2) else d

/-- A device has worked off the blocks of a credited message: they go back with its next status slot (R752). -/
def Dev.freeBlocks (d : Dev) (n : Nat) : Dev :=
  if d.isMgr then d else { d with wr := { d.wr with freed := d.wr.freed + n } }

/-- MSI-X may be sent for vector v: enabled, link up, Bus Master Enable, not in D3hot (R271), and R292 on a reserve. -/
def Dev.mayMsix (d : Dev) (v : Nat) : Bool :=
  d.hst.msixEn && d.flag F.HST_STAT_LINK_UP && d.flag F.HST_STAT_BME && !d.flag F.HST_STAT_D3HOT &&
  (d.isMgr || (d.boot.role == .reserve && [17, 18, 19, 22, 24].contains v))

/-- A cause of vector v occurs: its ISR bit, and its message or its PBA bit (R289, R290). -/
def Dev.raiseIrq (d : Dev) (v : Nat) : Dev :=
  let a := if v < 32 then R.HST_ISR0 else R.HST_ISR1
  let d := d.setReg a (putBit (d.reg a) (v % 32) true)
  if !d.hst.msixEn then d
  else if bitOf (d.reg (R.MSIX_TABLE (4 * v + 3))) 0 || !d.mayMsix v then
    d.setReg (R.MSIX_PBA (v / 32)) (putBit (d.reg (R.MSIX_PBA (v / 32))) (v % 32) true)
  else d.emit (.msix v)

/-! ## Reason codes (Table FEN-6) -/
namespace Rsn
def ok : Reason := 0x0000
def okDelayed : Reason := 0x0001
def already : Reason := 0x0002
def refCapacity : Reason := 0x1001
def refFenced : Reason := 0x1002
def refOrder : Reason := 0x1003
def refWindow : Reason := 0x1004
def refState : Reason := 0x1005
def refFormat : Reason := 0x1006
def refLedgerBusy : Reason := 0x1007
def refSingleSeal : Reason := 0x1008
def expPreempted : Reason := 0x2001
def expFenced : Reason := 0x2002
def expNoTrigger : Reason := 0x2003
def expClock : Reason := 0x2004
def expPower : Reason := 0x2005
def expHostCancel : Reason := 0x2006
def expInterlock : Reason := 0x2007
def expSealLate : Reason := 0x2008
def expReversal : Reason := 0x2009
def expOvertaken : Reason := 0x200A
def expHeadlink : Reason := 0x200B
def uncPower : Reason := 0x3001
def uncExecutorLost : Reason := 0x3002
def partUnderrun : Reason := 0x3003
def partFenced : Reason := 0x3004
def partPower : Reason := 0x3005
def partClock : Reason := 0x3006
def partReversal : Reason := 0x3007
def partInterlock : Reason := 0x3008
def partOvertaken : Reason := 0x3009
def partMaxact : Reason := 0x300A
def partStepwait : Reason := 0x300B
def partHeadlink : Reason := 0x300C
def beatOverrun : Reason := 0x5001
def fenceHost : Reason := 0x5002
def domainParked : Reason := 0x5003
def hpLinkLoss : Reason := 0x5010
def hpTrainFail : Reason := 0x5011
def hpDeclMismatch : Reason := 0x5012
def hpLatRange : Reason := 0x5013
def hpStatusLost : Reason := 0x5014
def hpErrRate : Reason := 0x5015
def hpPartnerFault : Reason := 0x5016
def encOverspeed : Reason := 0x5040
def encPhase : Reason := 0x5041
def encIndex : Reason := 0x5042
def encVmax : Reason := 0x5043
def tnkQovf : Reason := 0x5050
def groupStall : Reason := 0x5051
def groupPeer : Reason := 0x5052
def commitLost : Reason := 0x5060
def ringPeerLost : Reason := 0x6001
def ringBabble : Reason := 0x6002
def ringOrphan : Reason := 0x6003
def ringErrRate : Reason := 0x6004
def ringLaneLoss : Reason := 0x6005
def ringWrap : Reason := 0x6006
def ringTakeover : Reason := 0x6007
def ringHandover : Reason := 0x6008
def ringIsolated : Reason := 0x6009
def refLoss : Reason := 0x7001
def refFreq : Reason := 0x7002
def spllUnlock : Reason := 0x7003
def spllFail : Reason := 0x7004
def holdoverFlag : Reason := 0x7005
def asRefLoss : Reason := 0x7010
def asUnlock : Reason := 0x7011
def lockSuspect : Reason := 0x7012
def asBandFail : Reason := 0x7013
def bypclkLoss : Reason := 0x7014
def timeRegress : Reason := 0x7020
def bnLeap : Reason := 0x7021
def asyDisturbed : Reason := 0x8001
def asyRetryOut : Reason := 0x8002
def asyRange : Reason := 0x8003
def ldgCorrupt : Reason := 0x9001
def ldgTorn : Reason := 0x9002
def ldgSaturated : Reason := 0x9003
def ldgWearWarn : Reason := 0x9004
def ldgWearEnd : Reason := 0x9005
def ldgWindowFull : Reason := 0x9006
def ldgMirrorLag : Reason := 0x9007
def mainsSag : Reason := 0xA001
def mainsSwell : Reason := 0xA002
def mainsMissing : Reason := 0xA003
def mainsInterrupt : Reason := 0xA004
def mainsFreq : Reason := 0xA005
def dcbusLow : Reason := 0xA006
def supplyUv : Reason := 0xA007
def bkpLow : Reason := 0xA008
def bkpExhausted : Reason := 0xA009
def penTimeout : Reason := 0xA00A
def dcbusHold : Reason := 0xA00B
def dbRange : Reason := 0xB001
def dmaFail : Reason := 0xB002
def cqFull : Reason := 0xB003
def hstFlr : Reason := 0xB004
def linkDown : Reason := 0xB005
def spiCrc : Reason := 0xB010
def spiCmd : Reason := 0xB011
def spiAddr : Reason := 0xB012
def spiRo : Reason := 0xB013
def spiTimeout : Reason := 0xB014
def spiBusy : Reason := 0xB015
def notActive : Reason := 0xB020
def strapFault : Reason := 0xC001
def strapChanged : Reason := 0xC002
def roleConflict : Reason := 0xC003
def posnDuplicate : Reason := 0xC004
def provMismatch : Reason := 0xC005
end Rsn

/-! ## Fence domains (Table FEN-1, R779 to R797) -/

/-- Domain codes as FEN_CMD and DETAIL0 of Table JOB-9 encode them. -/
def domHp (p : Nat) : Nat := p
def domSp (n : Nat) : Nat := 16 + n
def domTe (n : Nat) : Nat := 32 + n
def domPog (g : Nat) : Nat := 96 + g
def domTg (g : Nat) : Nat := 100 + g
def domEnc (n : Nat) : Nat := 104 + n
def domAsyn : Nat := 112
def domHost : Nat := 113
def domSide (s : Nat) : Nat := 114 + s
def domLdg : Nat := 116
def domRing (j : Nat) : Nat := 0x1000 + j
def domWorker (p : Nat) : Nat := 0x2000 + p

/-- The state of a domain. -/
def Dev.dom (d : Dev) (k : Nat) : DomSt := mget {} d.fen.doms k

/-- Replace the state of a domain. -/
def Dev.setDom (d : Dev) (k : Nat) (v : DomSt) : Dev := { d with fen := { d.fen with doms := mset {} d.fen.doms k v } }

/-- A domain is fenced while it holds a cause; a head port also while it is unfencing (R779, R807). -/
def DomSt.isFenced (v : DomSt) : Bool := !v.causes.isEmpty || v.unfencing

/-- A domain is fenced (R779). -/
def Dev.fenced (d : Dev) (k : Nat) : Bool := (d.dom k).isFenced

/-- Enter a raise or a clear in the reason log and raise vector 16; a full log counts it as lost (R791, R793).
A worker also sends the entry to the manager in a LEDGER message (R792). -/
def Dev.logFence (d : Dev) (k : Nat) (r : Reason) (clear : Bool) : Dev :=
  let e : LogEntry := { dom := k, reason := r, inc := (d.dom k).inc, clear := clear, pos := d.pos, bn := d.now }
  let d := if d.fen.log.length < 64 then { d with fen := { d.fen with log := d.fen.log ++ [e] } }
    else { d with fen := { d.fen with logLost := satAdd 8 d.fen.logLost 1 } }
  let d := d.raiseIrq 16
  if d.boot.role == .worker then
    d.bulkPut d.wr.mgrPos 9 [2, BitVec.ofNat 32 k, r.setWidth 32, BitVec.ofNat 32 e.inc, if clear then 1 else 0]
  else d

/-- Raise one cause on one domain (R779 to R782): the first cause fixes reason and fence beat. A head port that waits for
its link after an unfence is fenced anew by it. -/
def Dev.raiseOne (d : Dev) (k : Nat) (r : Reason) : Dev :=
  let v := d.dom k
  if v.causes.contains r then d else
  let first := v.causes.isEmpty
  let v' : DomSt := if first then { v with causes := [r], reason := r, unfencing := false }
    else { v with causes := v.causes ++ [r] }
  let d := (d.setDom k v').logFence k r false
  let d := { d with fen := { d.fen with raisedNow := k :: d.fen.raisedNow } }
  if first then { d with fen := { d.fen with fresh := d.fen.fresh ++ [k] } } else d

/-- The members of the sync groups that hold engine n (TNK_SGMASK). -/
def Dev.groupPeers (d : Dev) (n : Nat) : List Nat :=
  ((List.range 16).filter (fun g => (d.num2 (R.TNK_SGMASK_LO g) (R.TNK_SGMASK_HI g)).testBit n)).flatMap
    (fun g => onesBelow 64 (d.num2 (R.TNK_SGMASK_LO g) (R.TNK_SGMASK_HI g)))

/-- Raise a cause; a fence of one member of a sync group fences the others with GROUP_PEER (R658). -/
def Dev.raiseCause (d : Dev) (k : Nat) (r : Reason) : Dev :=
  let was := d.fenced k
  let d := d.raiseOne k r
  if 32 ≤ k ∧ k < 96 ∧ was = false then
    ((d.groupPeers (k - 32)).filter (fun m => m != k - 32)).foldl (fun d m => d.raiseOne (domTe m) Rsn.groupPeer) d
  else d

/-- Raise causes found in one core cycle: lowest code first, so that it becomes the reason (R781). -/
def Dev.raiseAll (d : Dev) (l : List (Nat × Reason)) : Dev :=
  (l.mergeSort (fun a b => a.2.toNat ≤ b.2.toNat)).foldl (fun d c => d.raiseCause c.1 c.2) d

/-- The next incarnation: 1 to 255, then 1 again (R796, R797). -/
def nextInc (i : Nat) : Nat := if i ≥ 255 then 1 else i + 1

/-- Head ports that HPSET enables (R103). -/
def Dev.hpEnabled (d : Dev) (p : Nat) : Bool := decide (p < d.fld F.SUP_RCODE_HPSET)

/-- The port is in FRAMED mode (Table HPT-1). -/
def Dev.hpFramed (d : Dev) (p : Nat) : Bool := d.hpEnabled p && d.fld (F.HP_CFG_MODE p) == 1

/-- The state of one head port. -/
def Dev.hpSt (d : Dev) (p : Nat) : HpSt := mget {} d.hp p

/-- Replace the state of one head port. -/
def Dev.setHp (d : Dev) (p : Nat) (h : HpSt) : Dev := { d with hp := mset {} d.hp p h }

/-- Move a link to a state of Table HPT-5: the beat is kept, and a change shows in HP_EVT and raises vector 16
(12_head_ports.md, "Registers owned here"). -/
def Dev.hpLink (d : Dev) (p n : Nat) : Dev :=
  let d' := (d.setHp p { d.hpSt p with since := d.now }).setFld (F.HP_STAT_LSTATE p) n
  if d.fld (F.HP_STAT_LSTATE p) = n then d' else
  (d'.setReg R.HP_EVT (putBit (d'.reg R.HP_EVT) p true)).raiseIrq 16

/-- Drop the frames of a port that have not been sent: their columns are not placed, and make their jobs fail when a
reason is given. -/
def Dev.hpCut (d : Dev) (p : Nat) (flaw : Option Reason) : Dev :=
  let h := d.hpSt p
  let hms := (h.frames.filter (fun f => !f.sent)).filterMap FrameSt.job
  let d := d.setHp p { h with frames := h.frames.filter FrameSt.sent }
  { d with jobs := d.jobs.map (fun j =>
      let k := (hms.filter (· == j.hm)).length
      if k = 0 then j else { j with colsOpen := j.colsOpen - k, flaw := match flaw with
        | some r => some (j.flaw.getD r)
        | none => j.flaw }) }

/-- Start a training attempt from LOCK (R594, R595); an outstanding partner command is cancelled (R613). A column in a frame
that never leaves is not placed and fails its job (DEDUCED from R590 and R592; log entry 11). -/
def Dev.hpAttempt (d : Dev) (p : Nat) : Dev :=
  let d := d.hpCut p (some Rsn.partHeadlink)
  let h := d.hpSt p
  let d := d.setHp p { h with lat := none, cancel := h.cancel || h.cmd.isSome }
  (d.hpLink p 1).addSat (F.HP_STAT_TRAINING p) 1

/-- Start a new training of a FRAMED port that is not parked. -/
def Dev.hpTrain (d : Dev) (p : Nat) : Dev :=
  if d.hpFramed p && !(d.dom p).causes.contains Rsn.domainParked then
    (d.setHp p { d.hpSt p with fails := 0 }).hpAttempt p
  else d

/-- Clear the causes that satisfy p. The last cause to clear steps the incarnation and logs a clear (R797, R791). A FRAMED
head port keeps UNFENCING until its link is up under the new incarnation, and trains (R594, R807). -/
def Dev.clearCauses (d : Dev) (k : Nat) (p : Reason → Bool) : Dev :=
  let v := d.dom k
  let left := v.causes.filter (fun r => !p r)
  if left.length = v.causes.length then d
  else if left.isEmpty then
    if decide (k < 16) && d.hpFramed k then
      (d.setDom k { v with causes := [], inc := nextInc v.inc, unfencing := true }).hpTrain k
    else (d.setDom k { v with causes := [], reason := 0, inc := nextInc v.inc }).logFence k v.reason true
  else d.setDom k { v with causes := left }

/-- A head port's link is up after an unfence: the domain is unfenced (R807). -/
def Dev.hpUnfenced (d : Dev) (p : Nat) : Dev :=
  let v := d.dom p
  if v.unfencing then (d.setDom p { v with reason := 0, unfencing := false }).logFence p v.reason true else d

/-- The device's timing outputs: head ports, players, engines, output groups, trigger groups and the ASYN (R217). -/
def timingDoms : List Nat := List.range 104 ++ [domAsyn]

/-! ## Records due (R372 to R377) -/

/-- Number the records of a group. -/
def groupOf (rs : List Rec) : List Rec :=
  (rs.zipIdx).map (fun c => { c.1 with gidx := c.2, glen := rs.length - 1 })

/-- A group becomes due for the Seal phase, at a precedence of R377. -/
def Dev.dueRec (d : Dev) (prec : Nat) (rs : List Rec) : Dev :=
  { d with ldg := { d.ldg with queue := d.ldg.queue ++ [{ prec := prec, due := d.now, recs := groupOf rs }] } }

/-! ## Jobs -/

/-- The job with a hallmark. -/
def Dev.job? (d : Dev) (hm : Nat) : Option Job := d.jobs.find? (fun j => j.hm == hm)

/-- Change the job with a hallmark. -/
def Dev.modJob (d : Dev) (hm : Nat) (f : Job → Job) : Dev :=
  { d with jobs := d.jobs.map (fun j => if j.hm == hm then f j else j) }

/-- The job's state is one of the four terminal ones. -/
def JState.terminal : JState → Bool
  | .struck | .partial_ | .expired | .unconfirmed => true
  | .accepted | .dispatched | .bound | .striking => false

/-- Table JOB-8 codes. -/
def JState.code : JState → Nat
  | .accepted => 1 | .dispatched => 2 | .bound => 3 | .striking => 4
  | .struck => 8 | .partial_ => 9 | .expired => 10 | .unconfirmed => 11

/-- The job is bound or striking. -/
def Job.active (j : Job) : Bool := j.st == .bound || j.st == .striking

/-- The job is dispatched and unbound. -/
def Job.waiting (j : Job) : Bool := j.st == .dispatched

/-- Any edge or column of the job counts as placed. -/
def Job.placed (j : Job) : Bool := j.edges != 0 || j.colsFired != 0

/-- Any edge or column of the job has been issued. -/
def Job.issued (j : Job) : Bool := j.placed || j.edgesOpen != 0 || j.colsSent != 0

/-- The state that an entry TYPE stands for (Table JOB-7). -/
def stOfTyp : Nat → JState
  | 4 => .struck | 5 => .partial_ | 6 => .expired | _ => .unconfirmed

/-- Consume the tally values of a job, or count them as lost (R546, R547). -/
def Dev.closeTallies (d : Dev) (j : Job) (consume : Bool) : Dev :=
  j.tallies.foldl (fun d tv =>
    let t := tv.1
    let ts := mget {} d.sp.tal t
    match ts.open_.find? (fun o => o.2.1 == j.hm) with
    | none => d
    | some o =>
      let ts' := { ts with open_ := ts.open_.filter (fun o => o.2.1 != j.hm) }
      let newer := decide (ts.lastOrd ≤ o.1)
      let ts' := if consume && newer then { ts' with lastOrd := o.1 } else ts'
      let d := { d with sp := { d.sp with tal := mset {} d.sp.tal t ts' } }
      if consume then
        if newer then (d.setNum (R.TAL_LAST t) tv.2).setFlag (F.TAL_STAT_LAST_VALID t) true else d
      else d.addSat (F.TAL_GAPCNT_VALUES t) 1) d

/-- The state of an output. -/
def Dev.outSt (d : Dev) (n : Nat) : OutSt := mget {} d.po.outs n

/-- Replace the state of an output. -/
def Dev.setOut (d : Dev) (n : Nat) (o : OutSt) : Dev := { d with po := { d.po with outs := mset {} d.po.outs n o } }

/-- The output is held at its safe level (Table POU-1). -/
def Dev.outSafe (d : Dev) (n : Nat) : Bool :=
  (d.outSt n).safe || !d.flag (F.PO_CFG_EN n) || d.po.ilkLow || d.po.acting

/-- The output is at its active level. -/
def Dev.outActive (d : Dev) (n : Nat) : Bool :=
  !d.outSafe n && !(d.outSt n).holders.isEmpty && !(d.outSt n).capped

/-- A VIO bank has its voltage: 0 VIO_A (PO0 to PO15, MK0 to MK7), 1 VIO_B, 2 VIO_C (GIO0 to GIO31), 3 VIO_D (R912, Table ELE-6). -/
def Dev.bankOn (d : Dev) (k : Nat) : Bool := !d.boot.bankOff.contains k

/-- The level at the pin POn_P: none while the driver is off (R99, R480, R912), else high or low (Table POU-1, R481, R482). -/
def Dev.outPin (d : Dev) (n : Nat) : Option Bool :=
  if !d.boot.strapsValid || d.boot.offA || !d.bankOn (n / 16) || d.fld (F.PO_GCFG_FMT (n / 8)) = 0 then none
  else if d.outSafe n then (match d.fld F.SUP_STRAP_SAFEA with
    | 0 => some false
    | 1 => some true
    | _ => none)
  else some (d.outActive n != d.flag (F.PO_CFG_POL n))

/-- Count a transition at the pin and send it: the pin was driven to one level and is now driven to the other (PO_EDGECNT, Table
POU-9; a driver that turns on or off makes none, DEDUCED). -/
def Dev.outTrans (d : Dev) (n : Nat) (was : Option Bool) : Dev :=
  match was, d.outPin n with
  | some a, some b => if a = b then d else (d.emit (.edge n b)).addWrap (F.PO_EDGECNT_TRANSITIONS n) 1
  | _, _ => d

/-- Release a job's lanes: nothing more of it is loaded, and its holds end (R501). -/
def Dev.releaseLanes (d : Dev) (hm : Nat) : Dev :=
  let d := { d with po := { d.po with queue := d.po.queue.filter (fun l => l.hm != hm) } }
  (List.range 32).foldl (fun d n =>
    let was := d.outPin n
    let o := d.outSt n
    let hs := o.holders.filter (fun h => h.1 != hm)
    if hs.length = o.holders.length then d
    else if hs.isEmpty then (d.setOut n { o with holders := [], since := none, capped := false }).outTrans n was
    else (d.setOut n { o with holders := hs }).outTrans n was) d

/-- Release the stream granules of a job, which the 32-bit counts number (R536). -/
def Dev.releaseGranules (d : Dev) (j : Job) : Dev :=
  j.plays.foldl (fun d p => if p.granN = 0 then d
    else
      let top := p.gran + p.granN
      let k := (top + 2 ^ 32 - d.num (R.SP_SBRD p.sp)) % 2 ^ 32
      if 0 < k ∧ k < 2 ^ 31 then d.setNum (R.SP_SBRD p.sp) (top % 2 ^ 32) else d) d

/-- Put a report item in line for the manager (R746, Table RNG-6); the manager itself and a standalone device send none. -/
def Dev.report (d : Dev) (ofSeal : Bool) (kind tag detail : Nat) (more : Bool) : Dev :=
  if d.isMgr then d
  else { d with wr := { d.wr with items := d.wr.items ++
    [(ofSeal, kind + tag % 4096 * 2 ^ 4 + detail % 4096 * 2 ^ 16 + (if more then 2 ^ 28 else 0))] } }

/-- Report a job's outcome; its details travel in a DETAIL message (R382, R747, Table RNG-7). -/
def Dev.reportEnd (d : Dev) (hm : Nat) : Dev :=
  match d.job? hm with
  | none => d
  | some j => match j.out with
    | none => d
    | some o =>
      if d.isMgr || j.reported then d else
      let more := o.d0 != 0 || o.d1 != 0
      let d := d.modJob hm (fun j => { j with reported := true })
      let d := d.report true (o.typ - 1) j.dtag o.reason.toNat more
      if more then d.bulkPut d.wr.mgrPos 5 [BitVec.ofNat 32 j.dtag, BitVec.ofNat 32 o.d0, BitVec.ofNat 32 o.d1] else d

/-- Decide a job's outcome: state, tallies, lanes, granules, and the ENDED record of a job that has an ARMED group
(R381, R414). The first outcome stands (R785). -/
def Dev.endJob (d : Dev) (hm : Nat) (o : Outcome) : Dev :=
  match d.job? hm with
  | none => d
  | some j =>
    if j.out.isSome then d else
    let d := d.modJob hm (fun j => { j with st := stOfTyp o.typ, out := some o, closing := none })
    let d := d.closeTallies j (o.typ != 6)
    let d := (d.releaseLanes hm).releaseGranules j
    let d := { d with sp := { d.sp with acts := d.sp.acts.filter (fun a => a.hm != hm) } }
    if j.armed && j.exec == d.pos then
      d.dueRec 2 [{ typ := if o.typ = 4 then 0x23 else 0x24, hm := hm, ring := j.ring, pos := j.exec, bn := o.bn,
                    byteA := if o.typ = 4 then 0 else o.typ,
                    w5 := if o.typ = 4 then o.reason.toNat else o.reason.toNat + 2 ^ 16 * (o.d1 % 2 ^ 16), w6 := o.d0 }]
    else
      { d with ldg := { d.ldg with queue := d.ldg.queue.filter (fun q =>
          !(q.recs.any (fun r => r.typ == 0x20 && r.hm == hm))) } }.reportEnd hm

/-- DETAIL0 of a PARTIAL entry: columns played and edges placed, each saturating (Table JOB-7). -/
def Job.partDetail (j : Job) : Nat := min j.colsPlayed 65535 + 2 ^ 16 * min j.edges 65535

/-- End a job EXPIRED, or PARTIAL when any of it has been placed (R44 and the rules of that form). -/
def Dev.endAs (d : Dev) (hm : Nat) (part : Bool) (re rp : Reason) : Dev :=
  match d.job? hm with
  | none => d
  | some j =>
    if part then d.endJob hm { typ := 5, reason := rp, bn := max j.lastBn 0, d0 := j.partDetail }
    else d.endJob hm { typ := 6, reason := re, bn := d.now }

/-! ## The block -/

/-- Lift an effect on the device. -/
def State.onDev (s : State) (f : Dev → Dev) : State := { s with dev := f s.dev }

/-- Lift an effect on the device that reads the segment store. -/
def State.onDevR (s : State) (f : List Host.Cell → Dev → Dev) : State := { s with dev := f s.store s.dev }

/-- One byte of the segment store. -/
def storeByte (m : List Host.Cell) (a : Nat) : Byte := mgetD storeDefault m a

/-- A little-endian word of the segment store. -/
def storeWord (m : List Host.Cell) (a : Nat) : Word :=
  leWord ((List.range 4).map (fun i => storeByte m (a + i)))

/-- Write bytes from an address on. -/
def storeWrite (m : List Host.Cell) (a : Nat) : List Byte → List Host.Cell
  | [] => m
  | b :: r => storeWrite (msetD storeDefault m a b) (a + 1) r

end Sys2Proof.Machine
end

