-- ==== Sys2Proof/Machine/Bus.lean ====
section
/-!
DEFINITION. Sys2Proof/Machine/Bus.lean: which accesses of which port reach which registers (Table HST-1, R121, R122,
R263, R872, R885, Table PWR-1), latch shadows (R61, R264, R874), and ID_WRLAST (R860).
-/
namespace Sys2Proof.Machine
open Sys2Proof

/-- HOSTSEL as read at the strap read. -/
def Dev.hostSpi (d : Dev) : Bool := d.flag F.SUP_STRAP_HOSTSEL

/-- The device has reached READY since its last start; before that R121 governs registers. -/
def Dev.started (d : Dev) : Bool := d.pstate != 15 && d.pstate != 5 && !d.pwr.exiting

/-- Registers that R121 leaves alive before READY: ID_ and the straps and start-up block. -/
def earlyReg (a : Nat) : Bool := decide (a < 0x28) || (decide (0x1800 ≤ a) && decide (a < 0x1848))

/-- The PWR_ and SUP_ blocks, alive in PARK (Table PWR-1). -/
def supReg (a : Nat) : Bool := decide (0x1000 ≤ a) && decide (a < 0x2000)

/-- The HST_ block with the MSI-X table and PBA. -/
def hostReg (a : Nat) : Bool := decide (0x4000 ≤ a) && decide (a < 0x4C08)

/-- The host-interface registers of a job ring. -/
def ringHostReg (a : Nat) : Bool := decide (0x10000 ≤ a) && decide (a < 0x18000) && decide (a % 64 < 0x20)

/-- Registers that the remote window does not reach (Table MAP-7). -/
def windowHidden (a : Nat) : Bool :=
  hostReg a || (decide (0x10000 ≤ a) && decide (a < 0x1A030)) || (decide (0x31000 ≤ a) && decide (a < 0x31800)) ||
  a == R.PWR_CMD || (decide (0x3120 ≤ a) && decide (a < 0x3138)) || (decide (0x21000 ≤ a) && decide (a < 0x21014)) ||
  (decide (0x50420 ≤ a) && decide (a < 0x50430)) || (decide (0xA0084 ≤ a) && decide (a < 0xA0090)) ||
  a == R.WR_WINSEL

/-- What becomes of a write: it acts, it has no effect, or it sets HST_STAT.RSV_WRITE instead. -/
inductive Gate | pass | drop | rsv
  deriving DecidableEq, Repr

/-- JR_DB of a job ring: a doorbell written before READY takes effect there (R117). -/
def bellReg (a : Nat) : Bool := decide (0x10000 ≤ a) && decide (a < 0x18000) && a % 64 == 0xC

/-- What the device's own state lets a write do. Held at claim and census by a role conflict, the ledger still takes the
format commands of R131 and R135 (DEDUCED: R121 would shut them out; log entry 5). -/
def Dev.stateGate (d : Dev) (a : Nat) : Gate :=
  if d.pwr.dormant || d.pstate == 4 then .drop
  else if !d.pwr.vcore then (if supReg a then .pass else .drop)
  else if d.started || earlyReg a || bellReg a || (d.pwr.exiting && supReg a) then .pass
  else if d.boot.conflict && (a == R.LDG_CMD || a == R.LDG_FMTKEY) then .pass
  else .drop

/-- The port as it acts: without HOSTSEL the SPI service port is read-only (R263). -/
def Dev.portOf (d : Dev) (p : Port) : Port := if p == .spi && !d.hostSpi then .spiRo else p

/-- A host-facing port answers: the straps are read, the device is no worker (R262), and the PCI Express endpoint is
not held in reset by HOSTSEL (Table HST-1). -/
def Dev.portLive (d : Dev) (p : Port) : Bool :=
  match p with
  | .window | .windowRo => true
  | .host => d.boot.strapsValid && d.boot.role != .worker && !d.hostSpi
  | .spi | .spiRo => d.boot.strapsValid && d.boot.role != .worker

/-- What becomes of a write from a port to an offset. -/
def Dev.gate (d : Dev) (p : Port) (a : Nat) : Gate :=
  match d.portOf p with
  | .spiRo | .windowRo => .drop
  | .window => if windowHidden a then .drop else d.stateGate a
  | .host | .spi =>
    if !d.portLive p then .drop
    else if d.boot.role == .reserve && d.boot.roleKnown && !d.boot.conflict && !(hostReg a || ringHostReg a) then .rsv
    else d.stateGate a

/-- Carry out a write from a port. -/
def Dev.viaPort (d : Dev) (p : Port) (a : Nat) (f : Dev → Dev) : Dev :=
  match d.gate p a with
  | .pass => f d
  | .drop => d
  | .rsv => d.setFlag F.HST_STAT_RSV_WRITE true

/-- How a read is served: not at all, as 0, with the reset value (R121), or whole. -/
inductive RGate | none | zero | reset | full
  deriving DecidableEq, Repr

/-- How a read from a port of an offset is served. -/
def Dev.rgate (d : Dev) (p : Port) (a : Nat) : RGate :=
  if !d.portLive p then .none
  else if (p == .window || p == .windowRo) && windowHidden a then .zero
  else if d.pwr.dormant || d.pstate == 4 then .none
  else if !d.pwr.vcore then (if supReg a then .full else .zero)
  else if d.started || earlyReg a || (d.pwr.exiting && supReg a) then .full
  else .reset

/-- A port whose reads change nothing (R263, R874). -/
def Dev.portRo (d : Dev) (p : Port) : Bool := d.portOf p == .spiRo || p == .windowRo

/-- Record a popping, latching or clearing window read in ID_WRLAST (R860). -/
def Dev.wrLast (d : Dev) (p : Port) (a : Nat) (w : Word) : Dev :=
  if p == .window then
    (((d.setFld F.ID_WRLAST_ADDR_BAR0 a).addWrap F.ID_WRLAST_ADDR_SEQ 1).setFlag F.ID_WRLAST_ADDR_VALID true).setReg
      R.ID_WRLAST_DATA w
  else d

/-- What a register reads before READY: its reset value, which for HP_CFG of a port that HPSET enables is 0x35 (R121, R567). -/
def Dev.resetRead (d : Dev) (a : Nat) : Word :=
  if 0x40000 ≤ a ∧ a < 0x41000 ∧ (a - 0x40000) % 0x100 = 0 ∧ d.hpEnabled ((a - 0x40000) / 0x100) = true then 0x35#32 else resetWord a

/-- Serve a read from a port: `f` gives the word and what the read does; `act` says that it pops, clears or latches. -/
def Dev.readVia (d : Dev) (p : Port) (a : Nat) (act : Bool) (f : Dev → Dev × Word) : Dev :=
  match d.rgate p a with
  | .none => d
  | .zero => d.emit (.readData p 0)
  | .reset => d.emit (.readData p (d.resetRead a))
  | .full =>
    let r := f d
    let d := if act then r.1.wrLast p a r.2 else r.1
    d.emit (.readData p r.2)

/-- The latch shadow of a port for the register at an offset (R264, R874). -/
def Dev.shadow (d : Dev) (p : Port) (a : Nat) : Word :=
  match p with
  | .host => mget 0 d.shHost a
  | .spi | .spiRo => mget 0 d.shSpi a
  | .window | .windowRo => mget 0 d.shWin a

/-- Latch words into the shadows of a port. A read-only SPI port has shadows of its own (R263, R264); a window read that
comes from a read-only port latches nothing (R874). -/
def Dev.latch (d : Dev) (p : Port) (l : List (Nat × Word)) : Dev :=
  match p with
  | .host => { d with shHost := l.foldl (fun m c => mset 0 m c.1 c.2) d.shHost }
  | .spi | .spiRo => { d with shSpi := l.foldl (fun m c => mset 0 m c.1 c.2) d.shSpi }
  | .window => { d with shWin := l.foldl (fun m c => mset 0 m c.1 c.2) d.shWin }
  | .windowRo => d

/-- Write one bit-cleared w1c mask: bits written as 1 clear (R15, R16). -/
def Dev.w1c (d : Dev) (a : Nat) (mask : Word) (w : Word) : Dev := d.setReg a (d.reg a &&& ~~~(w &&& mask))

end Sys2Proof.Machine
end

