-- ==== Sys2Proof/Machine/Calendar.lean ====
section
/-!
DEFINITION. Sys2Proof/Machine/Calendar.lean: the beat-number ceiling, reading the time, and the two calendars
(02_beat_and_time.md, R48 to R91).
-/
namespace Sys2Proof.Machine
open Sys2Proof

/-! ## The calendar -/

/-- A calendar value in units of 2^-32 s. -/
def CalVal.units (v : CalVal) : Nat := v.sec * 2 ^ 32 + v.sub

/-- The calendar value of a count of units; seconds are 64 bits. -/
def CalVal.ofUnits (n : Nat) : CalVal := { sec := n / 2 ^ 32 % 2 ^ 64, sub := n % 2 ^ 32 }

/-- The print high-water that is left once the calendar stands at a value: it is over when the value exceeds it (R79); while the value
is unknown (R81) it stays. -/
def Dev.hiLeft (d : Dev) (cur : Nat) : Option CalVal :=
  match d.cal.hiWater with
  | some h => if h.units < cur && d.flag F.CAL_STAT_VALID then none else some h
  | none => none

/-- Let the print calendar follow the true one, or hold while it is clamped (R75, R79, R85); a change of CLAMPED is a
cause of vector 21 (Table HST-4). -/
def Dev.calFollow (d : Dev) : Dev :=
  let held := d.cal.print.units
  let cur := d.cal.now.units
  if d.flag F.CAL_STAT_CLAMPED then
    if held ≤ cur then
      let hw := d.hiLeft cur
      ({ d with cal := { d.cal with print := d.cal.now, hiWater := hw } }.setFlag F.CAL_STAT_CLAMPED false).raiseIrq 21
    else d
  else
    match d.cal.hiWater with
    | none => { d with cal := { d.cal with print := d.cal.now } }
    | some h =>
      if h.units < cur then { d with cal := { d.cal with print := d.cal.now, hiWater := d.hiLeft cur } }
      else if h.units = cur then { d with cal := { d.cal with print := d.cal.now } }
      else ({ d with cal := { d.cal with print := h } }.setFlag F.CAL_STAT_CLAMPED true).raiseIrq 21

/-- Advance the true calendar by units; the print calendar follows. -/
def Dev.calAdvance (d : Dev) (n : Nat) : Dev :=
  { d with cal := { d.cal with now := CalVal.ofUnits (d.cal.now.units + n) } }.calFollow

/-- The beat-driven advance: 2 061 units and a carry of the remainder counter of modulus 390 625 (R68). -/
def Dev.calBeat (d : Dev) : Dev :=
  let r := d.cal.rem + 228243
  { d with cal := { d.cal with rem := r % 390625 } }.calAdvance (2061 + r / 390625)

/-- The beat advances the calendar (R68): the core runs on its locked SPLL or on the ring-recovered clock, not on its holdover oscillator,
and its beat counter counts. Otherwise the ticks of the calendar oscillator do (R69). DESIGN CHOICE, unsafe: this includes the ticks of a
start in which the clock is locked and no beat is counted yet (log entry 111). -/
def Dev.calByBeat (d : Dev) : Bool := d.pwr.vcore && d.t.running && !d.flag F.CLK_STAT_HOLDOVER

/-- The calendar at an Edge phase: at the tag beat of a pending set the written value stands in place of the advance (R74), and only
the remainder counter moves. -/
def Dev.calEdge (d : Dev) : Dev :=
  if (match d.cal.pend with
    | some c => c.tag == d.now
    | none => false) then { d with cal := { d.cal with rem := (d.cal.rem + 228243) % 390625 } }
  else d.calBeat

/-- What holds the first set after the calendar was lost: the print high-water alone, not the value that the dead calendar came back
with (R82). -/
def Dev.calRevive (d : Dev) : Dev :=
  if d.flag F.CAL_STAT_VALID then d
  else { d with cal := { d.cal with print := d.cal.hiWater.getD {} } }.setFlag F.CAL_STAT_CLAMPED false

/-- Write a set value over the true calendar (R74 to R78, R82, R85). R80: a changed epoch is sealed. DESIGN CHOICE, unsafe: a set that has
become backward by its tag beat with the epoch at 0xFFFF, which Table BEA-6 tests at ARM only, wraps CAL_EPOCH to 0 (log entry 6). -/
def Dev.calOverwrite (d : Dev) (v : CalVal) (regress : Bool) : Dev :=
  let d := d.calRevive
  let held := d.cal.print.units
  let d := { d with cal := { d.cal with now := v } }
  let d := d.setFlag F.CAL_STAT_VALID true
  if v.units < held then
    if regress then
      let d := if d.flag F.CAL_STAT_CLAMPED then d.raiseIrq 21 else d
      let d := { d with cal := { d.cal with print := v, hiWater := none } }.setFlag F.CAL_STAT_CLAMPED false
      let d := d.addWrap F.CAL_EPOCH_CALENDAR 1
      d.dueRec 5 [{ typ := 0x31, bn := d.now, w5 := d.fld F.CAL_EPOCH_CALENDAR }]
    else if d.flag F.CAL_STAT_CLAMPED then d
    else (d.setFlag F.CAL_STAT_CLAMPED true).raiseIrq 21
  else d.calFollow

/-- End of a pending set: PENDING clears, REGRESS_OK is consumed (R77), the result is shown and vector 21 raised. -/
def Dev.calResult (d : Dev) (r : Reason) : Dev :=
  ((d.setFld F.CAL_STAT_SET_RESULT r.toNat).setFlag F.CAL_CTRL_REGRESS_OK false).raiseIrq 21

/-- Latest seconds value a set may carry: 9999-12-31 23:59:59. -/
def calLastSec : Nat := 252455615999

/-- The refusal of an armed set (Table BEA-6), none when it is accepted. The cases are taken in the table's order
(DESIGN CHOICE: the spec states no order; log entry 6); a set is backward when it lies below the print calendar
(DEDUCED from R76). -/
def Dev.calRefusal (d : Dev) (v : CalVal) (tag : Nat) (regress : Bool) : Option Reason :=
  let first := if d.boot.role == .standalone then d.now + 4 else d.now + d.lat + 8
  if tag < first ∨ d.now + 2 ^ 32 < tag then some Rsn.refWindow
  else if calLastSec < v.sec then some Rsn.refFormat
  else if regress ∧ v.units < d.cal.print.units ∧ d.fld F.CAL_EPOCH_CALENDAR = 0xFFFF then some Rsn.refState
  else none

/-- Hold a calendar set for its tag beat; an earlier one is replaced (R73). -/
def Dev.calHold (d : Dev) (c : CalSet) : Dev :=
  { d with cal := { d.cal with pend := some c } }.setFlag F.CAL_STAT_PENDING true

/-- ARM: copy the set registers, refuse or hold the set, and on a manager send it to every device (R70, R72, R73, R77,
R90). The CALSET message (kind 4) carries seconds, sub-seconds, tag beat and REGRESS_OK. DESIGN CHOICE, unsafe: an ARM that is refused
leaves an earlier pending set pending, since R73 names only an arming that replaces it (log entry 6). -/
def Dev.calArm (d : Dev) : Dev :=
  let v : CalVal := { sec := d.num2 R.CAL_SET_SEC_LO R.CAL_SET_SEC_HI, sub := d.num R.CAL_SET_SUB }
  let tag := d.num2 R.CAL_SET_BN_LO R.CAL_SET_BN_HI
  let g := d.flag F.CAL_CTRL_REGRESS_OK
  match d.calRefusal v tag g with
  | some r => d.calResult r
  | none =>
    let d := d.calHold { val := v, tag := tag, regressOk := g }
    if d.boot.role == .manager then
      d.bulkPut 63 4 [BitVec.ofNat 32 v.sec, BitVec.ofNat 32 (v.sec / 2 ^ 32), BitVec.ofNat 32 v.sub,
        BitVec.ofNat 32 tag, BitVec.ofNat 32 (tag / 2 ^ 32), if g then 1 else 0]
    else d

/-- CANCEL: withdraw a pending set (R73, R77). DESIGN CHOICE, unsafe: on a manager it withdraws the manager's own copy and sends nothing to
the devices that hold the set by its CALSET message, for which Table RNG-7 names no cancelling form (log entry 6). -/
def Dev.calCancel (d : Dev) : Dev :=
  match d.cal.pend with
  | none => d
  | some _ =>
    ({ d with cal := { d.cal with pend := none } }.setFlag F.CAL_STAT_PENDING false).setFlag F.CAL_CTRL_REGRESS_OK false

/-- A write of CAL_CTRL: REGRESS_OK is stored, then CANCEL and ARM act. A set that ARM replaces is consumed with its
permit, so the new set carries the REGRESS_OK of this write (R77). -/
def Dev.writeCalCtrl (d : Dev) (w : Word) : Dev :=
  let d := d.setFlag F.CAL_CTRL_REGRESS_OK (bitOf w 8)
  let d := if bitOf w 1 then d.calCancel else d
  if bitOf w 0 then (d.setFlag F.CAL_CTRL_REGRESS_OK (bitOf w 8)).calArm else d

/-- Apply a due calendar set at its tag beat's Edge phase (R74, R89); also on a late beat, which the counter cannot skip
on a running device. -/
def Dev.calApplyDue (d : Dev) : Dev :=
  match d.cal.pend with
  | none => d
  | some c =>
    if c.tag ≤ d.now then
      ((({ d with cal := { d.cal with pend := none } }.setFlag F.CAL_STAT_PENDING false).calOverwrite c.val
        c.regressOk).calResult Rsn.ok)
    else d

/-! ## Latching reads (R61, R62, R86) -/

/-- A read of BT_BN_LO. -/
def Dev.readBn (d : Dev) (p : Port) (ci : Nat) : Dev × Word :=
  (d.latch p [(R.BT_BN_HI, BitVec.ofNat 32 (d.now / 2 ^ 32)), (R.BT_CI, BitVec.ofNat 32 ci)], BitVec.ofNat 32 d.now)

/-- A latching read of a calendar at the offsets of its low word, high word and sub-seconds. -/
def Dev.readCal (d : Dev) (p : Port) (v : CalVal) (hi sub : Nat) : Dev × Word :=
  (d.latch p [(hi, BitVec.ofNat 32 (v.sec / 2 ^ 32)), (sub, BitVec.ofNat 32 v.sub)], BitVec.ofNat 32 v.sec)

/-! ## Meanings -/

/-- CAL_CTRL written with ARM = 1 (R70). -/
def execCalCtrlArm (port : Port) (regressOk : Bool) (s : State) : Host.Outcome State Fault Refusal :=
  .next (s.onDev fun d => d.viaPort port R.CAL_CTRL fun d => d.writeCalCtrl (if regressOk then 0x101 else 1))

/-- CAL_CTRL written with CANCEL = 1 (R73). -/
def execCalCtrlCancel (port : Port) (regressOk : Bool) (s : State) : Host.Outcome State Fault Refusal :=
  .next (s.onDev fun d => d.viaPort port R.CAL_CTRL fun d => d.writeCalCtrl (if regressOk then 0x102 else 2))

/-- CALENDAR_SET_APPLY: the Edge phase of the tag beat (R74). At a milestone COMMIT_MILESTONE applies a due set first (R83). -/
def execCalendarSetApply (s : State) : Host.Outcome State Fault Refusal :=
  .next (s.onDev Dev.calApplyDue)

/-- One tick of the 32.768 kHz calendar oscillator (R69): it drives the calendar while the beat does not, and is counted while the
beat counter is stopped (R54). -/
def execCalOscTick (s : State) : Host.Outcome State Fault Refusal :=
  .next (s.onDev fun d =>
    let d := if d.t.running then d else { d with t := { d.t with stopTicks := d.t.stopTicks + 1 } }
    if d.calByBeat then d else d.calAdvance 131072)

/-- A read of BT_BN_LO in a given cycle of the beat (R61, R86). -/
def execBtBnLoRead (port : Port) (ci : Fin 240) (s : State) : Host.Outcome State Fault Refusal :=
  .next (s.onDev fun d => d.readVia port R.BT_BN_LO true fun d => d.readBn port ci.val)

/-- A read of CAL_NOW_SEC_LO (R62). -/
def execCalNowRead (port : Port) (s : State) : Host.Outcome State Fault Refusal :=
  .next (s.onDev fun d => d.readVia port R.CAL_NOW_SEC_LO true fun d =>
    d.readCal port d.cal.now R.CAL_NOW_SEC_HI R.CAL_NOW_SUB)

/-- A read of CAL_PRINT_SEC_LO (R62). -/
def execCalPrintRead (port : Port) (s : State) : Host.Outcome State Fault Refusal :=
  .next (s.onDev fun d => d.readVia port R.CAL_PRINT_SEC_LO true fun d =>
    d.readCal port d.cal.print R.CAL_PRINT_SEC_HI R.CAL_PRINT_SUB)

/-- The ceiling in force: what BT_CEIL shows. -/
def Dev.setCeil (d : Dev) (c : Nat) : Dev :=
  { d with t := { d.t with ceil := c } }.setNum2 R.BT_CEIL_LO R.BT_CEIL_HI c

/-- A beat number within 2^19 of the ceiling, with no CEIL record waiting, makes a CEIL record at BN + 2^20 due (R52).
The ceiling counts as stored from the record's seal on (R53). -/
def Dev.ceilDue (d : Dev) : Dev :=
  if d.t.running && decide (d.t.ceil ≤ d.now + 2 ^ 19) &&
      !d.ldg.queue.any (fun q => q.prec == 1) then
    d.dueRec 1 [{ typ := 0x30, bn := d.now + 2 ^ 20 }]
  else d

/-- CEILING_REWRITE (R52, R87). -/
def execCeilingRewrite (s : State) : Host.Outcome State Fault Refusal :=
  .next (s.onDev Dev.ceilDue)

end Sys2Proof.Machine
end

