-- ==== Sys2Proof/Machine/Ledger.lean ====
section
/-!
DEFINITION. Sys2Proof/Machine/Ledger.lean: the ledger: records, the log and its retention, sealing, completion entries of
sealed records, checkpoints, superblocks, formatting, mirroring, and the seals of outcomes (08_ledger.md, R357 to R428).
-/
namespace Sys2Proof.Machine
open Sys2Proof

/-! ## Records (Table LDG-2, Table LDG-3) -/

/-- Slots of the wear ring, and of the part the log may fill (Table LDG-1). -/
def ringSlots : Nat := 258048
def logSlots : Nat := 225280
def blockSlots : Nat := 1024

/-- The eight words of a record written in revolution `lap`. ARMC and ARMT carry their own words 1 to
6, COMMIT its own words 1 and 2 (Table SCC-6). -/
def Rec.words (r : Rec) (lap : Nat) : List Word :=
  let w0 := BitVec.ofNat 32 (r.typ + r.gidx * 2 ^ 8 + r.glen * 2 ^ 12 + (lap % 2 ^ 16) * 2 ^ 16)
  let body : List Word :=
    if r.typ = 0x21 ∨ r.typ = 0x22 then (List.range 6).map (fun i => r.raw.getD i 0)
    else
      (if r.typ = 0x33 then [r.raw.getD 0 0, r.raw.getD 1 0] else [BitVec.ofNat 32 r.hm,
       BitVec.ofNat 32 (r.hm / 2 ^ 32 % 2 ^ 16 + r.ring * 2 ^ 16 + r.pos * 2 ^ 25 + (if r.calf then 2 ^ 30 else 0))]) ++
      [BitVec.ofNat 32 r.bn, BitVec.ofNat 32 (r.bn / 2 ^ 32 % 2 ^ 24 + r.byteA * 2 ^ 24),
       BitVec.ofNat 32 r.w5, BitVec.ofNat 32 r.w6]
  let ws := w0 :: body
  ws ++ [crc32Words ws]

/-- The types that Table LDG-3 assigns. -/
def recTypes : List Nat :=
  [0x10, 0x11, 0x12, 0x20, 0x21, 0x22, 0x23, 0x24, 0x30, 0x31, 0x32, 0x33, 0x34, 0x35, 0x36]

/-- The record in eight words; none when its CHK is wrong or its type is not assigned (R372). -/
def Rec.ofWords (ws : List Word) : Option Rec :=
  let w := fun i => (ws.getD i 0).toNat
  let t := w 0 % 256
  if ws.length = 8 ∧ recTypes.contains t ∧ crc32Words (ws.take 7) = ws.getD 7 0 then
    some { typ := t, gidx := w 0 / 2 ^ 8 % 16, glen := w 0 / 2 ^ 12 % 16,
           hm := w 1 + w 2 % 2 ^ 16 * 2 ^ 32, ring := w 2 / 2 ^ 16 % 512, pos := w 2 / 2 ^ 25 % 32,
           calf := (w 2).testBit 30, bn := w 3 + w 4 % 2 ^ 24 * 2 ^ 32, byteA := w 4 / 2 ^ 24,
           w5 := w 5, w6 := w 6, raw := (ws.drop 1).take 6 }
  else none

/-! ## The log (R364 to R367, R391 to R395) -/

/-- The place of a slot in the order of writing, over all revolutions. -/
def Slot.lpos (s : Slot) : Nat := s.lap * ringSlots + s.slot

/-- The place of the next slot to write. -/
def Dev.headPos (d : Dev) : Nat := d.mram.rev * ringSlots + d.mram.head

/-- The newest checkpoint. -/
def Dev.newestCkpt (d : Dev) : Option Ckpt :=
  d.mram.ckpts.foldl (fun b c => match b with
    | some x => if x.seq < c.seq then some c else some x
    | none => some c) none

/-- The log head's place as of the newest checkpoint. -/
def Dev.ckptPos (d : Dev) : Nat :=
  match d.newestCkpt with
  | some c => c.rev * ringSlots + c.head
  | none => 0

/-- A sequence accepted under this hallmark lies inside its ring's ALREADY window (R319). -/
def Dev.inWindow (d : Dev) (hm : Nat) : Bool := d.adm.win.any (fun c => c.2.any (fun e => e.hm == hm))

/-- Replay still needs the record (Retention and carry). -/
def Dev.needed (d : Dev) (s : Slot) : Bool :=
  let r := s.body
  let later := fun (p : Rec → Bool) => d.mram.log.any (fun x => decide (s.lpos < x.lpos) && p x.body)
  if r.typ = 0x10 ∨ r.typ = 0x12 then
    ((match d.job? r.hm with
      | some j => !j.term
      | none => false) || d.inWindow r.hm) && !later (fun x => (x.typ == 0x10 || x.typ == 0x12) && x.hm == r.hm)
  else if r.typ = 0x20 ∨ r.typ = 0x21 ∨ r.typ = 0x22 then
    decide (mget 0 d.ldg.confirmed r.ring < r.hm) && !later (fun x => x.typ == 0x20 && x.hm == r.hm)
  else if [0x30, 0x31, 0x32, 0x33, 0x34, 0x35].contains r.typ then decide (d.ckptPos ≤ s.lpos)
  else false

/-- The slots replay still needs, oldest first. -/
def Dev.neededSlots (d : Dev) : List Slot := d.mram.log.filter d.needed

/-- The retained start: the place of the oldest needed record, or of the head. -/
def Dev.retained (d : Dev) : Nat := (d.neededSlots.map Slot.lpos).foldl min d.headPos

/-- Free slots between the head and the retained start (LDG_FREE). -/
def Dev.logFree (d : Dev) : Nat := logSlots - (d.headPos - d.retained)

/-- The log is saturated (R393). -/
def Dev.saturated (d : Dev) : Bool := decide (d.logFree < 1024)

/-- Note a ledger reason once per episode (R393, R419, R385). -/
def Dev.ldgRaise (d : Dev) (r : Reason) : Dev :=
  if d.ldg.raised.contains r then d else { d with ldg := { d.ldg with raised := d.ldg.raised ++ [r] } }

/-- Count slots written: each 258 048 of them is a wear pass (R418, R419). -/
def Dev.wearBy (d : Dev) (n : Nat) : Dev :=
  let w := d.mram.written + n
  let wear := d.mram.wear + w / ringSlots
  let d := { d with mram := { d.mram with written := w % ringSlots, wear := wear } }.setNum2 R.LDG_WEAR_LO R.LDG_WEAR_HI wear
  let d := if 8 * 10 ^ 9 ≤ wear then d.ldgRaise Rsn.ldgWearWarn else d
  if 10 ^ 10 ≤ wear then d.ldgRaise Rsn.ldgWearEnd else d

/-- Show the log head (LDG_HEAD, LDG_REV). -/
def Dev.showHead (d : Dev) : Dev := (d.setNum R.LDG_HEAD d.mram.head).setNum R.LDG_REV d.mram.rev

/-! ## Checkpoints and superblocks (R366, R368, R396 to R398) -/

/-- The contents of a checkpoint (Table LDG-4), to be written into a block. -/
def Dev.ckptOf (d : Dev) (seq block : Nat) : Ckpt :=
  let rings := ((List.range 512).map (fun j =>
    (j, d.num (R.JR_NEXTSEQ j), d.num (R.JR_LASTHM_LO j) + 2 ^ 32 * d.num (R.JR_LASTHM_HI j)))).filter
      (fun c => c.2.1 != 0 || c.2.2 != 0)
  { seq := seq, block := block, bn := d.now, rev := d.mram.rev, head := d.mram.head, retained := d.retained,
    sysId := BitVec.ofNat 64 (d.num2 R.BT_SYSID_LO R.BT_SYSID_HI), ceil := d.t.ceil, last := d.t.last,
    epoch := d.fld F.CAL_EPOCH_CALENDAR,
    hiWater := match d.cal.hiWater with
      | some h => if d.cal.print.units < h.units then h else d.cal.print
      | none => d.cal.print,
    calValid := d.flag F.CAL_STAT_VALID, nextHm := d.adm.nextHm, rings := rings,
    nonterm := ((d.jobs.map Job.ring).eraseDups).map (fun j => (j, (d.jobs.filter (fun x => x.ring == j && !x.term)).length)),
    termHm := d.adm.termHm,
    acked := (d.hst.cqs.map (fun c => (c.1, c.2.acked))).filter (fun c => c.2 != 0), confirmed := d.ldg.confirmed,
    tallyNext := (List.range 32).map (fun t => (t, d.num (R.TAL_NEXT t))),
    tallyLast := ((List.range 32).filter (fun t => d.flag (F.TAL_STAT_LAST_VALID t))).map (fun t => (t, d.num (R.TAL_LAST t))),
    hopAsym := ((List.range 32).map (fun i => (i, d.num (R.ASY_HOPASYM i)))).filter (fun c => c.2 != 0),
    gen := d.num R.ASY_GEN,
    skewExt := ((List.range 32).filter (fun i => d.flag (F.ASY_SKEW_EXT i))).map (fun i =>
      (i, d.reg (R.ASY_SKEW i), mget (0, 0) d.asy.extCfg i)) ++ d.asy.extPend,
    rskew := d.asy.rskew, coef := d.asy.coef,
    commitId := d.num R.SCC_LASTID, commitMs := d.num2 R.SCC_LASTMS_LO R.SCC_LASTMS_HI,
    wear := d.mram.wear, carries := d.num R.LDG_CARRY_CNT }

/-- The block for the next checkpoint: the one after the newest, wrapping within the 32 blocks ahead of the log head. -/
def Dev.nextBlock (d : Dev) : Nat :=
  let hb := d.mram.head / blockSlots
  let inZone := fun b => decide (0 < (b + 252 - hb) % 252) && decide ((b + 252 - hb) % 252 ≤ 32)
  match d.newestCkpt with
  | some c => let b := (c.block + 1) % 252; if inZone b then b else (hb + 1) % 252
  | none => (hb + 1) % 252

/-- Write a checkpoint (R366, R396). The last applied beat number is stored with it (R58). -/
def Dev.writeCkpt (d : Dev) : Dev :=
  let seq := match d.newestCkpt with
    | some c => c.seq + 1
    | none => 1
  let c := d.ckptOf seq d.nextBlock
  let d := { d with mram := { d.mram with ckpts := d.mram.ckpts.filter (fun x : Ckpt => x.block != c.block) ++ [c] },
                    ldg := { d.ldg with ckptBn := d.now } }
  (d.setNum2 R.LDG_CKPT_BN_LO R.LDG_CKPT_BN_HI c.bn).wearBy blockSlots

/-- The valid superblock with the higher sequence; A when they are equal (R399, R427). -/
def bestSuper (a b : Super) : Option Super :=
  if a.valid then (if b.valid && decide (a.seq < b.seq) then some b else some a)
  else if b.valid then some b else none

/-- Write the next superblock copy: the one that is not the newest (R368). -/
def Dev.writeSuper (d : Dev) (sysId : BitVec 64) (formatBn mounts : Nat) : Dev :=
  let a := d.mram.supA
  let b := d.mram.supB
  let seq := (match bestSuper a b with
    | some s => s.seq
    | none => 0) + 1
  let toA := !(a.valid && (!b.valid || decide (b.seq ≤ a.seq)))
  let old := if toA then a else b
  let s : Super := { valid := true, sysId := sysId, formatBn := formatBn, mounts := mounts, wear := d.mram.wear, seq := seq,
                     slot := (old.slot + 1) % 2048 }
  { d with mram := if toA then { d.mram with supA := s } else { d.mram with supB := s },
           ldg := { d.ldg with superBn := d.now } }

/-- Move the log head on by one slot; before it enters a block that holds one of the two newest checkpoints, a new
checkpoint is written (R364, R365, R367). -/
def Dev.advanceHead (d : Dev) : Dev :=
  let h := d.mram.head + 1
  let (h, rev) := if h = ringSlots then (0, d.mram.rev + 1) else (h, d.mram.rev)
  let d := { d with mram := { d.mram with head := h, rev := rev } }
  if h % blockSlots = 0 then
    let b := h / blockSlots
    let held := d.mram.ckpts.any (fun c => c.block == b && (d.mram.ckpts.filter (fun x => decide (c.seq < x.seq))).length < 2)
    let d := if held then d.writeCkpt else d
    { d with mram := { d.mram with ckpts := d.mram.ckpts.filter (fun c => c.block != b) } }
  else d

/-- Write one record into the next slot. Records whose slots the head has passed again are gone. -/
def Dev.writeRec (d : Dev) (r : Rec) : Dev :=
  let m := d.mram
  let p := d.headPos
  let log := m.log.filter (fun x => decide (p < x.lpos + logSlots)) ++ [{ slot := m.head, lap := m.rev, body := r }]
  let d := { d with mram := { m with log := log, lastUsed := max m.lastUsed d.now } }
  ((d.addSat F.LDG_SEALCNT_RECORDS 1).wearBy 1).advanceHead.showHead

/-! ## Completion entries (Table JOB-6, Table JOB-7) -/

/-- The words of a completion entry but for PHASE. -/
def entryWords (rseq hm ring typ : Nat) (reason : Reason) (tag bn d0 d1 : Nat) : List Word :=
  [BitVec.ofNat 32 rseq, BitVec.ofNat 32 hm, BitVec.ofNat 32 (hm / 2 ^ 32 % 2 ^ 16 + ring * 2 ^ 16 + typ * 2 ^ 28),
   BitVec.ofNat 32 (reason.toNat + tag * 2 ^ 16), BitVec.ofNat 32 bn, BitVec.ofNat 32 (bn / 2 ^ 32 % 2 ^ 24),
   BitVec.ofNat 32 d0, BitVec.ofNat 32 (d1 % 2 ^ 16)]

/-- One completion queue. -/
def Dev.cq (d : Dev) (q : Nat) : CqSt := mget {} d.hst.cqs q

/-- Replace one completion queue. -/
def Dev.setCq (d : Dev) (q : Nat) (c : CqSt) : Dev := { d with hst := { d.hst with cqs := mset {} d.hst.cqs q c } }

/-- Put an entry in line at a queue. -/
def Dev.queueEntry (d : Dev) (q : Nat) (e : CqEntry) : Dev :=
  let c := d.cq q
  d.setCq q { c with wait := c.wait ++ [e] }

/-- The completion queue of a job ring (JR_SQCFG). -/
def Dev.ringCq (d : Dev) (ring : Nat) : Nat := d.fld (F.JR_SQCFG_CQ ring)

/-- The queue that a ring's entries go to, once its JR_SQCFG has been programmed (log entry 135). -/
def Dev.cqFor (d : Dev) (ring : Nat) : Option Nat :=
  match mget 0 d.hst.cqOf ring with
  | 0 => none
  | q + 1 => some q

/-- The owed entries of a ring that queue q must deliver: those past its acknowledged point (R286). -/
def Dev.owedOf (d : Dev) (ring q : Nat) : List CqEntry :=
  (d.hst.owed.filter (fun e => e.1 == ring && (!e.2.replayed || decide ((d.cq q).acked ≤ e.2.lpos)))).map (fun e => e.2)

/-- A queue with more entries to deliver again, in ledger order before all others. -/
def CqSt.again (c : CqSt) (mine : List CqEntry) : CqSt :=
  let es := (c.wait.take c.redo ++ mine).mergeSort (fun x y => decide (x.lpos ≤ y.lpos))
  { c with wait := es ++ c.wait.drop c.redo, redo := es.length }

/-- JR_SQCFG gives a ring its queue: what is owed to the ring comes in line there (R286). -/
def Dev.nameRing (d : Dev) (ring q : Nat) : Dev :=
  let mine := d.owedOf ring q
  let d := { d with hst := { d.hst with cqOf := mset 0 d.hst.cqOf ring (q + 1), owed := d.hst.owed.filter (fun e => e.1 != ring) } }
  if mine.isEmpty then d else
  let c := (d.cq q).again mine
  (d.setCq q c).setFlag (F.HST_CQ_STAT_REDELIVERING q) (d.flag (F.HST_CQ_CFG_EN q))

/-- Put the entry of a sealed record in line at its ring's queue, where it waits for the queue to be enabled; it is owed to a ring that
has not been programmed since the start (R286, R305; log entry 135). -/
def Dev.entryOf (d : Dev) (ring lpos : Nat) (ws : List Word) : Dev :=
  let e : CqEntry := { words := ws, lpos := lpos, durable := true }
  match d.cqFor ring with
  | none => { d with hst := { d.hst with owed := d.hst.owed ++ [(ring, e)] } }
  | some q => d.queueEntry q e

/-! ## Effects of a seal -/

/-- The state an ALREADY answer shows for a hallmark that is no longer a job. -/
def Dev.setWinState (d : Dev) (hm : Nat) (st : JState) : Dev :=
  { d with adm := { d.adm with win := d.adm.win.map (fun c =>
      (c.1, c.2.map (fun e => if e.hm == hm then { e with st := st } else e))) } }

/-- An executor still has work with a job after its TERM record: its own outcome record to seal. -/
def Dev.execBusy (d : Dev) (j : Job) : Bool := j.exec == d.pos && j.armed && !j.outSealed

/-- What a sealed record brings about (R35, R52, R379, R381, R382, R710, R711). -/
def Dev.onSealed (d : Dev) (lpos : Nat) (r : Rec) : Dev :=
  match r.typ with
  | 0x30 => d.setCeil r.bn
  | 0x10 =>
    let d := d.modJob r.hm (fun j => { j with sealed := true })
    let tag := match d.job? r.hm with
      | some j => j.tag
      | none => r.w6
    d.entryOf r.ring lpos (entryWords r.w5 r.hm r.ring 1 Rsn.ok tag r.bn 0 0)
  | 0x12 => d.addSat F.LDG_CARRY_CNT_CARRY 1
  | 0x20 =>
    let first := (d.job? r.hm).filter (fun j => !j.armed)
    let d := d.modJob r.hm (fun j => { j with armed := true, armedDue := false })
    match first with
    | some j => d.report true 2 j.dtag d.now false
    | none => d
  | 0x23 => (d.modJob r.hm (fun j => { j with outSealed := true })).reportEnd r.hm
  | 0x24 => (d.modJob r.hm (fun j => { j with outSealed := true })).reportEnd r.hm
  | 0x11 =>
    let d := d.setWinState r.hm (stOfTyp r.byteA)
    let d := { d with adm := { d.adm with termHm := mset 0 d.adm.termHm r.ring (max (mget 0 d.adm.termHm r.ring) r.hm) } }
    match d.job? r.hm with
    | none => d
    | some j =>
      let d := d.entryOf r.ring lpos (entryWords j.rseq r.hm r.ring r.byteA (BitVec.ofNat 16 r.w5) j.tag r.bn r.w6 (r.w5 / 2 ^ 16))
      let conf := mset 0 d.ldg.confirmed r.ring (max (mget 0 d.ldg.confirmed r.ring) r.hm)
      let d := if j.exec = d.pos then { d with ldg := { d.ldg with confirmed := conf } } else d
      { d with jobs := d.jobs.filter (fun j => j.hm != r.hm),
               wr := { d.wr with tags := d.wr.tags.filter (fun t => t.2.2 != r.hm) } }
  | 0x33 =>
    if r.byteA % 4 = 0 then (d.setNum R.SCC_LASTID (r.raw.getD 0 0).toNat).setNum2 R.SCC_LASTMS_LO R.SCC_LASTMS_HI r.bn
    else if r.byteA % 4 = 2 then
      let t := r.w5 % 32
      { d with sp := { d.sp with tal := mset {} d.sp.tal t { mget {} d.sp.tal t with hold := false } } }
    else d
  | _ => d

/-- Record types that the mirror carries (R751). -/
def mirrored (t : Nat) : Bool := [0x10, 0x11, 0x32, 0x33, 0x36].contains t

/-- Seal one record: write it, and bring about what follows. A manager hands mirrored types to the mirror (R384). -/
def Dev.sealRec (d : Dev) (r : Rec) : Dev :=
  let p := d.headPos
  let d := d.writeRec r
  let d := if d.boot.role == .manager && (d.ldg.dual || d.ldg.catchup) && mirrored r.typ then
      { d with ldg := { d.ldg with toMirror := d.ldg.toMirror ++ [(p, r)] } } else d
  d.onSealed p r

/-- Take groups in order while they fit in the slots left; the first that does not fit ends the beat (R376, R377). -/
def takeSeals : Nat → List SealItem → List SealItem × List SealItem
  | _, [] => ([], [])
  | n, q :: r =>
    if q.recs.length ≤ n then
      let t := takeSeals (n - q.recs.length) r
      (q :: t.1, t.2)
    else ([], q :: r)

/-- The Seal phase: at most 4 records, in the order of R377, oldest due first. -/
def Dev.sealPhase (d : Dev) : Dev :=
  let q := d.ldg.queue.mergeSort (fun a b => decide (a.prec < b.prec) || (a.prec == b.prec && decide (a.due ≤ b.due)))
  let t := takeSeals 4 q
  let d := { d with ldg := { d.ldg with queue := t.2 } }
  let d := (t.1.flatMap (fun x => x.recs)).foldl (fun d r => d.sealRec r) d
  let sat := d.saturated
  let d := d.setFlag F.LDG_STAT_SATURATED sat
  if sat then d.ldgRaise Rsn.ldgSaturated
  else { d with ldg := { d.ldg with raised := d.ldg.raised.filter (fun r => r != Rsn.ldgSaturated) } }

/-- Seal everything waiting, whatever the budget: the close-outs of R155 and R178. -/
def Dev.sealAll (d : Dev) : Dev :=
  let q := d.ldg.queue.mergeSort (fun a b => decide (a.prec < b.prec) || (a.prec == b.prec && decide (a.due ≤ b.due)))
  (q.flatMap (fun x => x.recs)).foldl (fun d r => d.sealRec r) { d with ldg := { d.ldg with queue := [] } }

/-! ## Dual seal (R283, R383 to R389) -/

/-- The state that PWR_WSTATE holds for a position; 15 unknown. -/
def Dev.wstate (d : Dev) (p : Nat) : Nat := slice (d.reg (R.PWR_WSTATE (p / 8))) (4 * (p % 8) + 3) (4 * (p % 8))

/-- The position is in PARK or OFF, as its status slots say. -/
def Dev.parked (d : Dev) (p : Nat) : Bool := d.wstate p == 3 || d.wstate p == 4

/-- The record at a ledger position still waits for the reserve's seal. -/
def Dev.unmirrored (d : Dev) (lpos : Nat) : Bool :=
  d.ldg.dual && (d.ldg.toMirror.any (fun x => x.1 == lpos) || d.ldg.mirror.any (fun x => x.1 == lpos))

/-- Dual seal ends: what the manager has sealed counts as sealed under single seal, and a SEAL record is due (R383,
R386). -/
def Dev.endDual (d : Dev) : Dev :=
  if d.ldg.dual then
    let d := { d with ldg := { d.ldg with dual := false, toMirror := [], mirror := [] } }
    let d := (d.setFlag F.LDG_STAT_DUAL false).setFlag F.SUP_ROLE_DUAL_SEAL false
    d.dueRec 5 [{ typ := 0x34, bn := d.now, byteA := 0 }]
  else d

/-- Dual seal starts, with a SEAL record. -/
def Dev.startDual (d : Dev) : Dev :=
  let d := { d with ldg := { d.ldg with dual := true, catchup := false } }
  let d := ((d.setFlag F.LDG_STAT_DUAL true).setFlag F.LDG_STAT_CATCHUP false).setFlag F.SUP_ROLE_DUAL_SEAL true
  d.dueRec 5 [{ typ := 0x34, bn := d.now, byteA := 1 }]

/-- A record as a MIRROR message carries it: of an ACCEPT the 16 B of its words 1 to 4, with the 64-byte body that gives the rest; any
other record whole (Table RNG-7, R751; that the 16 B are these words is DEDUCED, log entry 146). -/
def mirrorEntry (r : Rec) (body : List Word) : List Word :=
  if r.typ = 0x10 then (List.range 4).map (fun i => (r.words 0).getD (i + 1) 0) ++ body else r.words 0

/-- The record of an entry of a MIRROR message, with its body when it has one (R751). -/
def mirrorRecOf (ws : List Word) : Option (Rec × List Word) :=
  if ws.length = 20 then
    let w := fun i => (ws.getD i 0).toNat
    some ({ typ := 0x10, hm := w 0 + w 1 % 2 ^ 16 * 2 ^ 32, ring := w 1 / 2 ^ 16 % 512, pos := w 1 / 2 ^ 25 % 32,
            bn := w 2 + w 3 % 2 ^ 24 * 2 ^ 32, byteA := w 3 / 2 ^ 24, w5 := w 4, w6 := w 5 / 2 ^ 16 }, ws.drop 4)
  else (Rec.ofWords ws).map (fun r => (r, []))

/-- Send the records sealed and not yet sent in a MIRROR message, each ACCEPT with its body (R384, R751). -/
def Dev.sendMirror (d : Dev) : Dev :=
  if d.ldg.toMirror.isEmpty then d else
  match d.wr.resPos with
  | none => d
  | some p =>
    let ws := d.ldg.toMirror.flatMap (fun x => mirrorEntry x.2 (match d.job? x.2.hm with
      | some j => j.body
      | none => []))
    let d := d.bulkPut p 0 ws
    { d with ldg := { d.ldg with mirror := d.ldg.mirror ++ d.ldg.toMirror.map (fun x => (x.1, d.now)), toMirror := [] } }

/-- The reserve acknowledged n records, oldest first (SEALACK); the worst latency is kept in LDG_MIRLAG. -/
def Dev.mirrorAck (d : Dev) (n : Nat) : Dev :=
  let worst := ((d.ldg.mirror.take n).map (fun x => d.now - x.2)).foldl max (d.fld F.LDG_MIRLAG_WORST)
  { d with ldg := { d.ldg with mirror := d.ldg.mirror.drop n } }.setFld F.LDG_MIRLAG_WORST (min worst 255)

/-! ## Mount and format (R368 to R371, R399) -/

/-- Show the identity in BT_SYSID. -/
def Dev.setSysId (d : Dev) (i : BitVec 64) : Dev := d.setNum2 R.BT_SYSID_LO R.BT_SYSID_HI i.toNat

/-- The identity in BT_SYSID. -/
def Dev.sysId (d : Dev) : BitVec 64 := BitVec.ofNat 64 (d.num2 R.BT_SYSID_LO R.BT_SYSID_HI)

/-- Format the ledger under an identity: log and checkpoints erased, wear passes and the whole-device incarnation kept,
hallmarks and expected sequences reset; a first checkpoint follows, so that the next mount finds one (DEDUCED from R399). -/
def Dev.format (d : Dev) (i : BitVec 64) : Dev :=
  let d := { d with mram := { d.mram with log := [], ckpts := [], head := 0, rev := d.mram.rev + 1, lastUsed := 0 },
                    ldg := { d.ldg with corrupt := false, queue := [], toMirror := [], mirror := [], confirmed := [] },
                    adm := { d.adm with nextHm := 1, win := [] }, jobs := [], hst := { d.hst with owed := [] } }
  let d := (List.range 512).foldl (fun d j => ((d.setNum (R.JR_NEXTSEQ j) 0).setNum (R.JR_LASTHM_LO j) 0).setNum (R.JR_LASTHM_HI j) 0) d
  let d := (d.setSysId i).writeSuper i d.now (d.num R.LDG_MOUNTS)
  let d := ((d.setFlag F.LDG_STAT_BLANK false).setFlag F.LDG_STAT_CORRUPT false).setFlag F.LDG_STAT_MOUNTED true
  (d.setFlag F.SUP_ROLE_LEDGER_FORMATTED true).writeCkpt.showHead

/-- Draw a fresh number for a free value. -/
def Dev.draw (d : Dev) : Dev × Nat := ({ d with draws := d.draws + 1 }, d.draws)

/-- The result of a ledger command (LDG_STAT.RESULT). -/
def Dev.ldgResult (d : Dev) (r : Reason) : Dev := d.setFld F.LDG_STAT_RESULT r.toNat

/-- What the device is in when it may be formatted (R370). -/
def Dev.mayFormat (d : Dev) : Bool := d.pstate == 1 || d.pstate == 5 || d.boot.conflict || d.ldg.corrupt

/-- Leave a hold at ROLE_CONFLICT and restart claim and census (R144). -/
def Dev.claimAgain (d : Dev) : Dev :=
  ({ d with boot := { d.boot with conflict := false, claims := [], claimOpen := true } }.setFld F.SUP_BOOT_PHASE 6).setFld F.SUP_BOOT_REASON 0

/-- A device released from a hold at ROLE_CONFLICT by the format of its ledger restarts claim and census, and its new claim ranks as
blank (R144); one that joined late catches up as reserve (R135). -/
def Dev.releaseConflict (d : Dev) : Dev :=
  if !d.boot.conflict then d
  else if d.boot.roleKnown then
    ({ d with boot := { d.boot with conflict := false } }.setFld F.SUP_BOOT_PHASE 6).setFld F.SUP_BOOT_REASON 0
  else if d.linked then d.claimAgain.emit (.claim d.pos false 0)
  else d.claimAgain

/-- LDG_CMD.FORMAT (R370, R371, R135, R144). A manager or standalone device takes a new identity; a worker or a reserve the
ring's, which its BT_SYSID of the ring or of the provisioning gives. A device held at ROLE_CONFLICT ranks as blank from
then on: it keeps identity 0 until the claim decides (DEDUCED from R144). -/
def Dev.cmdFormat (d : Dev) : Dev :=
  if d.ldg.keyBn = some d.now ∧ d.mayFormat then
    let d := { d with ldg := { d.ldg with keyBn := none } }
    if d.boot.conflict then
      let d := (d.format 0).setFlag F.SUP_ROLE_LEDGER_FORMATTED false
      let d := { d with mram := { d.mram with supA := { d.mram.supA with valid := false }, supB := { d.mram.supB with valid := false } } }
      ((d.setFlag F.LDG_STAT_BLANK true).ldgResult Rsn.ok).releaseConflict
    else
      let was := d.ldg.corrupt
      let (d, n) := d.draw
      let i := if d.isMgr then Config.newSysId n else d.sysId
      let d := d.format i
      let d := if was then (d.clearCauses domLdg (fun r => r == Rsn.ldgCorrupt)).setFld F.SUP_BOOT_REASON 0 else d
      d.ldgResult Rsn.ok
  else d.ldgResult Rsn.refState

/-- LDG_CMD.WRITE_OFF of a position (R406): a WRITEOFF record, and every job of that position that has no outcome ends
UNCONFIRMED with UNC_EXECUTOR_LOST. Only a manager writes WRITEOFF (Table LDG-3); elsewhere it is refused (DEDUCED). -/
def Dev.cmdWriteOff (d : Dev) (pos : Nat) : Dev :=
  if d.isMgr && d.flag F.LDG_STAT_MOUNTED then
    let d := d.dueRec 5 [{ typ := 0x36, bn := d.now, w5 := pos }]
    let d := { d with ldg := { d.ldg with writtenOff := d.ldg.writtenOff ++ [pos] } }
    let hms := (d.jobs.filter (fun j => j.exec == pos && j.out.isNone && !d.ldg.declared.contains pos)).map Job.hm
    let d := hms.foldl (fun d hm => (d.modJob hm (fun j => { j with armed := false })).endJob hm
      { typ := 7, reason := Rsn.uncExecutorLost, bn := d.now }) d
    d.ldgResult Rsn.ok
  else d.ldgResult Rsn.refState

/-- LDG_CMD.CHECKPOINT: write a checkpoint at once (R396); refused with REF_STATE on a ledger that is not mounted
(DEDUCED). -/
def Dev.cmdCheckpoint (d : Dev) : Dev :=
  if d.flag F.LDG_STAT_MOUNTED && !d.flag F.LDG_STAT_BLANK then d.writeCkpt.ldgResult Rsn.ok else d.ldgResult Rsn.refState

/-- A write of LDG_CMD. -/
def Dev.writeLdgCmd (d : Dev) (w : Word) : Dev :=
  let d := if bitOf w 0 then d.cmdFormat else d
  let d := if bitOf w 1 then d.cmdWriteOff (slice w 12 8) else d
  if bitOf w 16 then d.cmdCheckpoint else d

/-- A write of LDG_FMTKEY (R370). -/
def Dev.writeFmtKey (d : Dev) (w : Word) : Dev :=
  { d with ldg := { d.ldg with keyBn := if w = 0x464F524D then some d.now else none } }

/-! ## Meanings -/

/-- CHECKPOINT: every 65 536 beats (R396). -/
def execCheckpoint (s : State) : Host.Outcome State Fault Refusal :=
  .next (s.onDev fun d =>
    if d.flag F.LDG_STAT_MOUNTED && !d.flag F.LDG_STAT_BLANK && decide (d.ldg.ckptBn + 65536 ≤ d.now) then d.writeCkpt else d)

/-- SUPERBLOCK_WRITE: at least once every 2^36 beats; the device may write one at any time (R368). -/
def execSuperblockWrite (s : State) : Host.Outcome State Fault Refusal :=
  .next (s.onDev fun d =>
    if d.flag F.LDG_STAT_MOUNTED && !d.flag F.LDG_STAT_BLANK then
      match bestSuper d.mram.supA d.mram.supB with
      | some x => d.writeSuper x.sysId x.formatBn x.mounts
      | none => d
    else d)

/-- The group that a slot's record belongs to: an ARMED record with its ARMC and ARMT records. -/
def Dev.groupAt (d : Dev) (s : Slot) : List Rec :=
  ((d.mram.log.filter (fun x => decide (s.lpos ≤ x.lpos) && decide (x.lpos ≤ s.lpos + s.body.glen))).map (fun x => x.body))

/-- CARRY_RECORD: the log head has come within 1 024 slots of a needed record: a CARRY with the job's current state, or the
ARMED group unchanged, falls due with precedence 4 (R391, R392, R423). -/
def execCarryRecord (s : State) : Host.Outcome State Fault Refusal :=
  .next (s.onDev fun d =>
    let near := d.neededSlots.filter (fun x => decide (logSlots ≤ d.headPos - x.lpos + 1024) &&
      [0x10, 0x12, 0x20].contains x.body.typ)
    let fresh := near.find? (fun x => !d.ldg.queue.any (fun q => q.recs.any (fun r => r.hm == x.body.hm && (r.typ == 0x12 || r.typ == 0x20))))
    match fresh with
    | none => d
    | some x =>
      if x.body.typ = 0x20 then d.dueRec 4 (d.groupAt x)
      else
        let st := match d.job? x.body.hm with
          | some j => j.st.code
          | none => match (d.adm.win.flatMap (fun c => c.2)).find? (fun e => e.hm == x.body.hm) with
            | some e => e.st.code
            | none => x.body.byteA / 16
        d.dueRec 4 [{ x.body with typ := 0x12, byteA := x.body.byteA % 16 + 16 * st }])

/-- LDG_FORMAT: LDG_CMD written with FORMAT = 1 (R370). -/
def execLdgFormat (port : Port) (s : State) : Host.Outcome State Fault Refusal :=
  .next (s.onDev fun d => d.viaPort port R.LDG_CMD fun d => d.writeLdgCmd 1)

/-- LDG_WRITE_OFF: LDG_CMD written with WRITE_OFF = 1 and a position (R406). -/
def execLdgWriteOff (port : Port) (pos : Fin 32) (s : State) : Host.Outcome State Fault Refusal :=
  .next (s.onDev fun d => d.viaPort port R.LDG_CMD fun d => d.writeLdgCmd (BitVec.ofNat 32 (2 + 256 * pos.val)))

/-- LDG_CHECKPOINT_NOW: LDG_CMD written with CHECKPOINT = 1 (R396). -/
def execLdgCheckpointNow (port : Port) (s : State) : Host.Outcome State Fault Refusal :=
  .next (s.onDev fun d => d.viaPort port R.LDG_CMD fun d => d.writeLdgCmd 0x10000)

/-- MIRROR_LAG: a record not dual-sealed within 4 beats of the manager's own seal raises LDG_MIRROR_LAG, and it counts as
single-sealed (R385, R386). -/
def execMirrorLag (s : State) : Host.Outcome State Fault Refusal :=
  .next (s.onDev fun d =>
    let late := d.ldg.mirror.filter (fun x => decide (x.2 + 4 < d.now + 1))
    if d.ldg.dual && !late.isEmpty then
      { d with ldg := { d.ldg with mirror := d.ldg.mirror.filter (fun x => decide (d.now + 1 ≤ x.2 + 4)) } }.ldgRaise Rsn.ldgMirrorLag
    else d)

/-- Positions 0 and 1 are direct neighbours over an unwrapped link (R383): clockwise, or the other way in a ring of two. -/
def Dev.directLink (d : Dev) : Bool := !d.wr.cut.contains 0 || (popCount 32 d.wr.present ≤ 2 && !d.wr.cut.contains 1)

/-- CATCHUP_COMPLETE: the reserve has sealed every mirrored record of the manager, over a direct unwrapped link, and is in neither
PARK nor OFF (R130, R142, R164, R383, R388). -/
def execCatchupComplete (s : State) : Host.Outcome State Fault Refusal :=
  .next (s.onDev fun d =>
    if d.boot.role == .manager && d.ldg.catchup && d.wr.resPos.isSome && d.ldg.mirror.isEmpty && d.ldg.toMirror.isEmpty &&
        d.directLink && !d.wr.resPos.any d.parked then d.startDual else d)

end Sys2Proof.Machine
end

