-- ==== Sys2Proof/Machine/Asyn.lean ====
section
/-!
DEFINITION. Sys2Proof/Machine/Asyn.lean: the auxiliary synthesizer: hops, band search, monitors, bypass and return,
dividers and sync (05_clock_synthesis.md, R227 to R251, R256 to R260).
-/
namespace Sys2Proof.Machine
open Sys2Proof

/-- The source of a CKOUT output. -/
def Dev.ck (d : Dev) (n : Nat) : CkSrc := mget CkSrc.off d.clk.outs n

/-- FD112 is fenced and has stopped the outputs (R251). -/
def Dev.asStopped (d : Dev) : Bool := d.clk.depReason.isSome

/-- The bypass source is the reference: REFCLK, or the ring-recovered clock (R240). -/
def Dev.bypRef (d : Dev) : Bool := d.flag F.AS_BYP_SRC

/-- The selected bypass source shows no edge (R241). -/
def Dev.bypGone (d : Dev) : Bool := if d.bypRef then d.clk.refDead else d.clk.bypDead

/-- What a pin carries: its source and divider (R240, R244); AS_BYP.DIV divides the reference before BYPDIV. -/
def Dev.ckOut (d : Dev) (n : Nat) (c : CkSrc) : Out :=
  match c with
  | .synth => .ckout n c (mget 0 d.clk.div n) false
  | .bypass => .ckout n c (d.fld (F.AS_OUT_BYPDIV n) * (if d.bypRef then d.fld F.AS_BYP_DIV else 1)) d.bypRef
  | _ => .ckout n c 0 false

/-- The source that an output gets: none that carries a clock while FD112 holds the outputs low (R251). -/
def Dev.ckHeld (d : Dev) (c : CkSrc) : CkSrc :=
  if d.asStopped && (c == .synth || c == .bypass || c == .switching) then .holdLow else c

/-- Change the source of a CKOUT output. -/
def Dev.setCk (d : Dev) (n : Nat) (c : CkSrc) : Dev :=
  let h := d.ckHeld c
  if d.ck n = c ∨ d.ck n = h then d
  else { d with clk := { d.clk with outs := mset CkSrc.off d.clk.outs n h } }.emit (d.ckOut n h)

/-- A CKOUT output is enabled: EN set and a format chosen (R248, Table CLK-7). -/
def Dev.ckEnabled (d : Dev) (n : Nat) : Bool := d.flag (F.AS_OUT_EN n) && d.fld (F.AS_OUT_FMT n) != 0

/-- Change every enabled output by a rule on its number and present source. -/
def Dev.ckEach (d : Dev) (f : Nat → CkSrc → CkSrc) : Dev :=
  (List.range 4).foldl (fun d n => if d.ckEnabled n then d.setCk n (f n (d.ck n)) else d) d

/-- The ASYN outputs are in bypass. -/
def Dev.asBypass (d : Dev) : Bool := d.flag F.AS_STAT_BYPASS

/-- What an output carries in bypass (R238, R241). -/
def Dev.bypSrc (d : Dev) (n : Nat) : CkSrc :=
  if d.fld (F.AS_OUT_BYPDIV n) = 0 then .bypLow else if d.bypGone then .deadLow else .bypass

/-- Set AS_STAT.state. -/
def Dev.setAs (d : Dev) (n : Nat) : Dev := d.setFld F.AS_STAT_STATE n

/-- The reason field of AS_STAT. -/
def Dev.asReason (d : Dev) (r : Reason) : Dev := d.setFld F.AS_STAT_REASON r.toNat

/-- The domains that AS_DEP lists. -/
def Dev.asDeps (d : Dev) : List Nat :=
  (onesBelow 16 (d.fld F.AS_DEP_HEAD)).map domHp ++ (onesBelow 4 (d.fld F.AS_DEP_PO)).map domPog

/-- The ASYN reasons, which fence the AS_DEP domains and are lifted at the return (R242). -/
def asReasons : List Reason := [Rsn.asRefLoss, Rsn.asUnlock, Rsn.lockSuspect, Rsn.asBandFail, Rsn.bypclkLoss]

/-- The ASYN reasons are lifted from every domain that AS_DEP can list (R242). A reason with which FD112 itself still fences them
stays. -/
def Dev.asFree (d : Dev) : Dev :=
  ((List.range 16).map domHp ++ (List.range 4).map domPog).foldl (fun d k => d.clearCauses k (fun r =>
    asReasons.contains r && d.clk.depReason != some r)) d

/-- The reasons of FD112 with which its outputs go to bypass under R238, so that R251 does not stop them: those of an SPLL clock fault, and
AS_BAND_FAIL (DEDUCED from R231, R238 and the text after R240; log entry 143). -/
def asBypassing : List Reason := [Rsn.refLoss, Rsn.refFreq, Rsn.spllUnlock, Rsn.asBandFail]

/-- FD112 is fenced with a reason that stops its outputs (R251). -/
def Dev.asHolds (d : Dev) : Bool := (d.dom domAsyn).causes.any (fun r => !asBypassing.contains r)

/-- An output stays stopped at a sync: the interlock, a brace or the fence of FD112 holds it (R249 to R251), or the synthesizer is off. -/
def Dev.ckKeep (d : Dev) (n : Nat) : Bool :=
  (d.po.ilkLow && d.flag (F.AS_OUT_ILK n)) || d.ck n == .brace || d.asHolds || !d.flag F.AS_CTRL_EN

/-- A beat-scheduled sync (R246): outputs with SYNCEN = 1, and with `all` every stopped output too, are low at CI 0 and rise 64 ns
later. In bypass outputs carry the bypass clock; without lock they wait for the sync that ends the hop (R233, R258). Outputs back on the
synthesized clock free the AS_DEP domains (R242). -/
def Dev.asSync (d : Dev) (all : Bool) : Dev :=
  let d := { d with clk := { d.clk with syncAt := if all then none else d.clk.syncAt } }
  let d := (List.range 4).foldl (fun d n =>
    if !d.ckEnabled n || !(d.flag (F.AS_OUT_SYNCEN n) || (all && d.ck n != .synth)) || d.ckKeep n then d
    else if d.asBypass then d.setCk n (d.bypSrc n)
    else if !d.flag F.AS_STAT_LOCKED then d
    else (if d.ck n == .synth then d.emit (d.ckOut n .holdLow) |>.emit (d.ckOut n .synth) else d).setCk n .synth) d
  if all && !d.asBypass && d.flag F.AS_STAT_LOCKED && d.flag F.AS_CTRL_EN then d.asFree else d

/-- Invalidate the stored band of the active profile (R230). -/
def Dev.badBand (d : Dev) : Dev := d.setFlag (F.AS_PBAND_VALID (d.fld F.AS_STAT_ACTIVE)) false

/-- Start a hop to a profile: load N, FRAC, its band and its dividers, then settle in the stored band or search one (R228, R233,
R257). With the synthesizer off only the profile is chosen (DESIGN CHOICE: the spec states no effect of EN on a hop). -/
def Dev.asHop (d : Dev) (p : Nat) : Dev :=
  let d := d.setFld F.AS_STAT_ACTIVE p
  let band := if d.flag (F.AS_PBAND_VALID p) then some (d.fld (F.AS_PBAND_BAND p)) else none
  let div := (List.range 4).foldl (fun m i => mset 0 m i (d.fld (F.AS_PD_DIVIDER p i))) d.clk.div
  let d := { d with clk := { d.clk with div := div, asN := d.fld (F.AS_PN_N_INT p), asFrac := d.num (R.AS_PFRAC p) % 2 ^ 24, asBand := band } }
  if !d.flag F.AS_CTRL_EN then d else
  let d := d.setFlag F.AS_STAT_LOCKED false
  let d := { d with clk := { d.clk with hopping := true, cleanWin := false, syncAt := none } }
  let d := if d.asBypass then d
    else d.ckEach (fun n c => if c = .synth ∨ c = .holdLow then
      (if d.flag (F.AS_OUT_HOPMODE n) then d.bypSrc n else .holdLow) else c)
  d.setAs (if d.flag (F.AS_PBAND_VALID p) then 2 else 1)

/-- An enabled output is on the synthesized clock, or low for a hop (R233, R242). -/
def Dev.ckSynth (d : Dev) : Bool := (List.range 4).any (fun n => d.ckEnabled n && (d.ck n == .synth || d.ck n == .holdLow))

/-- An output that leaves the synthesized clock fences the AS_DEP domains (R242). -/
def Dev.asLeave (d : Dev) (left : Bool) (r : Reason) : Dev := if left then d.raiseAll (d.asDeps.map (fun k => (k, r))) else d

/-- An ASYN fault: enabled outputs leave for bypass, those too that wait for the sync after an interlock, and the AS_DEP domains are
fenced with the reason (R236, R238, R242, R250). -/
def Dev.asFault (d : Dev) (r : Reason) : Dev :=
  if !d.flag F.AS_CTRL_EN then d else
  let left := d.ckSynth
  let d := { d with clk := { d.clk with cleanWin := false, hopping := false, searching := [], back := none, syncAt := none } }
  let d := (d.setFlag F.AS_STAT_LOCKED (d.flag F.AS_STAT_LOCKED && r == Rsn.lockSuspect)).asReason r
  let d := (d.setFlag F.AS_STAT_BYPASS true).setAs 5
  let d := d.ckEach (fun n c => match c with
    | .synth | .holdLow => if d.fld (F.AS_OUT_BYPDIV n) = 0 then .bypLow else .switching
    | .ilk => if d.po.ilkLow then .ilk else if d.fld (F.AS_OUT_BYPDIV n) = 0 then .bypLow else .switching
    | c => c)
  (d.asLeave left r).raiseIrq 18

/-- The selected bypass source shows no edge: outputs in bypass hold low (R241). -/
def Dev.bypLoss (d : Dev) : Dev :=
  let d := (if d.bypRef then { d with clk := { d.clk with refDead := true } } else { d with clk := { d.clk with bypDead := true } })
  let d := (d.setFlag F.AS_STAT_BYPCLK_LOST true).asReason Rsn.bypclkLoss
  (d.ckEach (fun _ c => if c = .bypass ∨ c = .switching then .deadLow else c)).raiseIrq 18

/-- Outputs in bypass follow the selected source (R240, R241). -/
def Dev.bypSync (d : Dev) : Dev :=
  (d.setFlag F.AS_STAT_BYPCLK_LOST d.bypGone).ckEach (fun n c => if c = .bypass ∨ c = .deadLow then d.bypSrc n else c)

/-- A pending switch to the bypass clock completes (R238, R239). -/
def Dev.muxDone (d : Dev) : Dev := d.ckEach (fun n c => if c = .switching then d.bypSrc n else c)

/-- The return from bypass: a beat-scheduled sync at this beat, and the AS_DEP domains unfenced (R242, R243). -/
def Dev.asReturn (d : Dev) : Dev :=
  if d.asBypass && d.flag F.AS_STAT_LOCKED && d.clk.cleanWin then
    let d := ((d.setFlag F.AS_STAT_BYPASS false).setAs 3).asReason Rsn.ok
    let d := d.ckEach (fun _ c => match c with
      | .bypass | .bypLow | .switching | .deadLow => .holdLow
      | c => c)
    (d.asSync true).asFree.raiseIrq 18
  else d.asReason Rsn.refState

/-- Profiles of SEARCH_ALL in turn; after the last, the hop back (R234). -/
def Dev.asNext (d : Dev) : Dev :=
  match d.clk.searching with
  | p :: r => { d with clk := { d.clk with searching := r } }.setFlag (F.AS_PBAND_VALID p) false |>.asHop p
  | [] => match d.clk.back with
    | some b => { d with clk := { d.clk with back := none } }.asHop b
    | none => d

/-- The fence of FD112 fences every AS_DEP domain that does not hold its reason (R251). -/
def Dev.asDepFence (d : Dev) (r : Reason) : Dev :=
  let ks := d.asDeps.filter (fun k => !(d.dom k).causes.contains r)
  let d := { d with clk := { d.clk with depSet := d.clk.depSet ++ ks } }
  if ks.isEmpty then d else d.raiseAll (ks.map (fun k => (k, r)))

/-- A fenced FD112 holds every CKOUT stopped low and fences the AS_DEP domains (R251). Outputs that a brace or the interlock stopped
stay as they are. -/
def Dev.asFenced (d : Dev) (r : Reason) : Dev :=
  let d := { d with clk := { d.clk with depReason := some r, depSet := [] } }.ckEach (fun _ c => match c with
    | .off | .brace | .ilk => c
    | _ => .holdLow)
  d.asDepFence r

/-- The unfencing of FD112: the AS_DEP domains that it fenced are unfenced, and the outputs restarted by a sync (R251). -/
def Dev.asUnfenced (d : Dev) (r : Reason) : Dev :=
  let ks := d.clk.depSet
  let d := { d with clk := { d.clk with depReason := none, depSet := [], syncAt := some d.now } }
  ks.foldl (fun d k => d.clearCauses k (fun x => x == r)) d

/-- The work of an Edge phase: complete a switch, run a due sync (R233, R250, R258), and invalidate bands more than 30 °C
away from the die temperature (R230). -/
def Dev.asEdge (d : Dev) : Dev :=
  let d := d.muxDone
  let d := match d.clk.syncAt with
    | some b => if b ≤ d.now ∧ d.clk.hopping = false then d.asSync true else d
    | none => d
  let t := signed 8 (d.fld F.ASY_TEMP_DIE)
  (List.range 8).foldl (fun d p =>
    if d.flag (F.AS_PBAND_VALID p) && decide ((30 : Int) < (t - signed 8 (d.fld (F.AS_PBAND_DIE p))).natAbs) then
      d.setFlag (F.AS_PBAND_VALID p) false else d) d

/-- ILK_L low: outputs with ILK = 1 stop (R250). -/
def Dev.asIlk (d : Dev) : Dev := d.ckEach (fun n c => if d.flag (F.AS_OUT_ILK n) && c != .brace then .ilk else c)

/-- ILK_L was released `ago` beats before: a beat-scheduled sync 4 beats after that; during a hop the hop's own sync restarts them (R250,
R258). -/
def Dev.asIlkRelease (d : Dev) (ago : Nat) : Dev :=
  if (List.range 4).any (fun n => d.ck n == .ilk) then { d with clk := { d.clk with syncAt := some (max d.now (d.now + 4 - ago)) } } else d

/-- The end of a close-out: outputs with BRACE_RUN = 0 stop at the brace level (R249). -/
def Dev.asBrace (d : Dev) : Dev := d.ckEach (fun n c => if d.flag (F.AS_OUT_BRACE_RUN n) then c else .brace)

/-- The BRACE clears: the stopped outputs restart with a sync (DESIGN CHOICE: the spec states no way of restart; log entry 78). -/
def Dev.asBraceEnd (d : Dev) : Dev :=
  (d.ckEach (fun n c => if c = .brace then (if d.po.ilkLow && d.flag (F.AS_OUT_ILK n) then .ilk else .holdLow) else c)).asSync true

/-- A commit has applied: outputs newly enabled start on the synthesizer with a sync, disabled ones turn off (R248); the interlock and a
brace in force stop what the new values of ILK and BRACE_RUN put under them (R249, R250). The bands of changed profiles are cleared by
the caller. -/
def Dev.asCommit (d : Dev) : Dev :=
  (List.range 4).foldl (fun d n =>
    if !d.ckEnabled n then d.setCk n .off
    else if d.flag F.PWR_STAT_CLOSED_OUT && !d.flag (F.AS_OUT_BRACE_RUN n) then d.setCk n .brace
    else if d.ck n == .brace then d
    else if d.po.ilkLow && d.flag (F.AS_OUT_ILK n) then d.setCk n .ilk
    else if d.ck n = .off then d.setCk n (if d.asBypass then d.bypSrc n else if d.flag F.AS_STAT_LOCKED then .synth else .holdLow)
    else d) d

/-! ## AS_CMD (R232, R234, R243, R244, R256, R260) -/

/-- A job bound or striking uses one of the AS_DEP domains: its players' head ports or its outputs' groups. -/
def Dev.depBusy (d : Dev) : Bool :=
  d.jobs.any (fun j => j.active && j.exec == d.pos &&
    (j.plays.any (fun p => d.asDeps.contains (domHp p.hp)) || j.lanes.any (fun l => d.asDeps.contains (domPog (l.out / 8)))))

/-- The apply beat of a command: AS_APPLY, or the current beat plus 4 when that is 0 or too early (R232). -/
def Dev.asApplyBn (d : Dev) : Nat := max (d.num2 R.AS_APPLY_LO R.AS_APPLY_HI) (d.now + 4)

/-- A write of AS_CMD. A command on a parked ASYN completes with DOMAIN_PARKED (R800). -/
def Dev.writeAsCmd (d : Dev) (w : Word) : Dev :=
  let d := if bitOf w 8 then { d with clk := { d.clk with asPend := none } }.setFlag F.AS_STAT_PENDING false else d
  let hop := bitOf w 3
  let div := bitOf w 6 && !hop
  let ops := hop || bitOf w 4 || bitOf w 5 || bitOf w 6 || bitOf w 7
  if !ops then d
  else if (d.dom domAsyn).causes.contains Rsn.domainParked then d.asReason Rsn.domainParked
  else if bitOf w 7 && d.depBusy then d.asReason Rsn.refState
  else if bitOf w 5 && !(d.flag F.AS_STAT_LOCKED && d.clk.cleanWin) then d.asReason Rsn.refState
  else
    let d := if hop && bitOf w 6 then d.asReason Rsn.refState else d
    let c : AsPend := { prof := slice w 2 0, hop := hop, sync := bitOf w 4, ret := bitOf w 5, div := div, search := bitOf w 7,
                        applyBn := d.asApplyBn }
    { d with clk := { d.clk with asPend := some c } }.setFlag F.AS_STAT_PENDING true

/-- A pending command takes effect (R232). -/
def Dev.asTake (d : Dev) (c : AsPend) : Dev :=
  let d := { d with clk := { d.clk with asPend := none } }.setFlag F.AS_STAT_PENDING false
  let d := if c.hop then d.asHop c.prof else d
  let d := if c.search then
      { d with clk := { d.clk with searching := List.range 8, back := some (d.fld F.AS_STAT_ACTIVE) } }.asNext else d
  let d := if c.div then
      let d := { d with clk := { d.clk with div := (List.range 4).foldl (fun m i => mset 0 m i (d.fld (F.AS_DIV_SHADOW i))) d.clk.div } }
      (List.range 4).foldl (fun d n => if d.ck n == .synth then d.emit (d.ckOut n .synth) else d) d
    else d
  let d := if c.sync && !c.hop then d.asSync false else d
  if c.ret then d.asReturn else d

/-- A write of AS_CTRL: EN starts the synthesizer in its active profile as a hop does, or stops it with its outputs low; those that leave
the synthesized clock fence the AS_DEP domains, with AS_UNLOCK (R242). A bypass stays until a return (DESIGN CHOICE: the spec gives EN no
rule of its own; log entry 78). -/
def Dev.writeAsCtrl (d : Dev) (w : Word) : Dev :=
  let was := d.flag F.AS_CTRL_EN
  let d := d.setReg R.AS_CTRL (BitVec.ofNat 32 (w.toNat % 8))
  if !was && bitOf w 0 then d.asHop (d.fld F.AS_STAT_ACTIVE)
  else if was && !bitOf w 0 then
    let left := d.ckSynth
    let d := { ((d.setAs 0).setFlag F.AS_STAT_LOCKED false) with
      clk := { d.clk with hopping := false, searching := [], back := none, cleanWin := false } }.ckEach (fun _ c => match c with
        | .off | .brace | .ilk => c
        | _ => .holdLow)
    d.asLeave left Rsn.asUnlock
  else d

/-! ## Meanings -/

/-- AS_CMD written with HOP = 1; the nine bits of the write are given (PROF, and DIV_APPLY beside it, R256). -/
def execAsCmdHop (port : Port) (w : BitVec 9) (s : State) : Host.Outcome State Fault Refusal :=
  .next (s.onDev fun d => d.viaPort port R.AS_CMD fun d => d.writeAsCmd (w.setWidth 32 ||| 8))

/-- AS_CMD written with SYNC = 1 (R246). -/
def execAsCmdSync (port : Port) (s : State) : Host.Outcome State Fault Refusal :=
  .next (s.onDev fun d => d.viaPort port R.AS_CMD fun d => d.writeAsCmd 0x10)

/-- AS_CMD written with RETURN = 1 (R243). -/
def execAsCmdReturn (port : Port) (s : State) : Host.Outcome State Fault Refusal :=
  .next (s.onDev fun d => d.viaPort port R.AS_CMD fun d => d.writeAsCmd 0x20)

/-- AS_CMD written with DIV_APPLY = 1, alone or with SYNC (R244, R245). -/
def execAsCmdDivApply (port : Port) (sync : Bool) (s : State) : Host.Outcome State Fault Refusal :=
  .next (s.onDev fun d => d.viaPort port R.AS_CMD fun d => d.writeAsCmd (if sync then 0x50 else 0x40))

/-- AS_CMD written with SEARCH_ALL = 1 (R234, R260). -/
def execAsCmdSearchAll (port : Port) (s : State) : Host.Outcome State Fault Refusal :=
  .next (s.onDev fun d => d.viaPort port R.AS_CMD fun d => d.writeAsCmd 0x80)

/-- AS_CMD written with CANCEL = 1 (R232). -/
def execAsCmdCancel (port : Port) (s : State) : Host.Outcome State Fault Refusal :=
  .next (s.onDev fun d => d.viaPort port R.AS_CMD fun d => d.writeAsCmd 0x100)

/-- AS_APPLY: the apply beat of the pending command (R232). -/
def execAsApply (s : State) : Host.Outcome State Fault Refusal :=
  .next (s.onDev fun d => match d.clk.asPend with
    | some c => if c.applyBn ≤ d.now then d.asTake c else d
    | none => d)

/-- BAND_SEARCH_DONE: the band found is stored with the die temperature, or AS_BAND_FAIL is raised and FD112 fenced
(R228, R231). -/
def execBandSearchDone (found : Option (Fin 64)) (s : State) : Host.Outcome State Fault Refusal :=
  .next (s.onDev fun d =>
    if d.fld F.AS_STAT_STATE = 1 then
      match found with
      | some b =>
        let p := d.fld F.AS_STAT_ACTIVE
        let d := ((d.setFld (F.AS_PBAND_BAND p) b.val).setFlag (F.AS_PBAND_VALID p) true).setFld (F.AS_PBAND_DIE p) (d.fld F.ASY_TEMP_DIE)
        { d with clk := { d.clk with asBand := some b.val } }.setAs 2
      | none => (d.asFault Rsn.asBandFail).raiseCause domAsyn Rsn.asBandFail
    else d)

/-- AS_LOCK_DECLARE: 512 phase-detector cycles after the VCO started in its band (R229, R233, R234). -/
def execAsLockDeclare (s : State) : Host.Outcome State Fault Refusal :=
  .next (s.onDev fun d =>
    let st := d.fld F.AS_STAT_STATE
    if d.flag F.AS_CTRL_EN && !d.flag F.AS_STAT_LOCKED && (st == 2 || st == 5) && !d.flag F.CLK_STAT_HOLDOVER then
      let d := { (d.setFlag F.AS_STAT_LOCKED true) with clk := { d.clk with hopping := false, cleanWin := false } }
      let d := d.setAs (if d.asBypass then 5 else 3)
      if d.clk.back.isSome then d.asNext
      else if d.asBypass then d
      else { d with clk := { d.clk with syncAt := some (d.now + 1) } }
    else d)

/-- AS_MONITOR_WINDOW: the deviation of the window in 0.1 ppm (R235, R230, R237, R243). -/
def execAsMonitorWindow (dev : Int) (s : State) : Host.Outcome State Fault Refusal :=
  .next (s.onDev fun d =>
    if !d.flag F.AS_STAT_LOCKED then d else
    let d := d.setFld F.AS_FREQERR_DEVIATION (unsigned 16 dev)
    if (1000 : Nat) < dev.natAbs then
      let d := (d.setFlag F.AS_STAT_LOCK_SUSPECT true).badBand
      let d := { d with clk := { d.clk with cleanWin := false } }
      let d := if d.clk.unlockBn = some d.now then d else d.asReason Rsn.lockSuspect
      let d := d.raiseIrq 18
      if d.flag F.AS_CTRL_SUSPECT_BYP && !d.asBypass then d.asFault Rsn.lockSuspect
      else if d.asBypass then d else d.setAs 4
    else
      let d := { d with clk := { d.clk with cleanWin := true } }
      let d := if d.fld F.AS_STAT_STATE = 4 then d.setAs 3 else d
      if d.flag F.AS_CTRL_AUTORET && d.asBypass && d.clk.asPend.isNone then
        { d with clk := { d.clk with asPend := some { prof := 0, ret := true, applyBn := d.now + 4 } } }.setFlag F.AS_STAT_PENDING true
      else d)

/-- AS_UNLOCK: a cycle slip of the ASYN (R230, R236 to R238). -/
def execAsUnlock (s : State) : Host.Outcome State Fault Refusal :=
  .next (s.onDev fun d =>
    if d.flag F.AS_CTRL_EN && d.flag F.AS_STAT_LOCKED then
      { d.badBand with clk := { d.clk with unlockBn := some d.now } }.asFault Rsn.asUnlock
    else d)

/-- MUX_NO_EDGE_TIMEOUT: the old clock is dead; the multiplexer switches without it (R239). -/
def execMuxNoEdgeTimeout (s : State) : Host.Outcome State Fault Refusal :=
  .next (s.onDev Dev.muxDone)

/-- BYPCLK_LOSS: the bypass source selected shows no edge for 1 µs (R241). -/
def execBypclkLoss (s : State) : Host.Outcome State Fault Refusal := .next (s.onDev Dev.bypLoss)

/-- BYPASS_SOURCE_RETURN: the source selected shows edges again (R241). -/
def execBypassSourceReturn (s : State) : Host.Outcome State Fault Refusal :=
  .next (s.onDev fun d =>
    (if d.bypRef then { d with clk := { d.clk with refDead := false } } else { d with clk := { d.clk with bypDead := false } }).bypSync)

/-- CKSYNC_EDGE: the dividers of SYNCEN outputs restart, or the edge is ignored with SYNC_DROP (R247). -/
def execCksyncEdge (s : State) : Host.Outcome State Fault Refusal :=
  .next (s.onDev fun d =>
    let drop := d.clk.cksyncBn = some d.now ∨ d.clk.hopping ∨ d.asBypass
    let d' := { d with clk := { d.clk with cksyncBn := some d.now } }
    if drop then d'.setFlag F.AS_STAT_SYNC_DROP true
    else (List.range 4).foldl (fun d n =>
      if d.ckEnabled n && d.flag (F.AS_OUT_SYNCEN n) && d.ck n == .synth then
        (d.emit (d.ckOut n .holdLow)).emit (d.ckOut n .synth) else d) d')

end Sys2Proof.Machine
end

