-- ==== Sys2Proof/Machine/Jobs.lean ====
section
/-!
DEFINITION. Sys2Proof/Machine/Jobs.lean: the fields of a waybill (Table JOB-2) and of a job ring's staged registers, and the
end of a job whose parts are all done (07_waybills_and_admission.md).
-/
namespace Sys2Proof.Machine
open Sys2Proof

/-- Word k of a waybill body; missing words read as 0. -/
def Job.w (j : Job) (k : Nat) : Word := j.body.getD k 0

/-- DKIND: the delay is a distance. -/
def Job.dkind (j : Job) : Bool := bitOf (j.w 1) 10

/-- DELAY, 48 bits. -/
def Job.delayField (j : Job) : Nat := (j.w 2).toNat + 2 ^ 32 * slice (j.w 3) 15 0

/-- SLACK in beats. -/
def Job.slack (j : Job) : Nat := slice (j.w 3) 31 16

/-- WAIT in beats. -/
def Job.wait_ (j : Job) : Nat := (j.w 4).toNat

/-- The start step of plan player k, when enabled. -/
def playStep (body : List Word) (k : Nat) : Option Nat :=
  let w := body.getD (8 + k / 2) 0
  if k % 2 = 0 then (if bitOf w 15 then some (slice w 9 0) else none)
  else if bitOf w 31 then some (slice w 25 16) else none

/-- The edge program, when one is named. -/
def progOf (body : List Word) : Option Nat :=
  let e := slice (body.getD 10 0) 7 0
  if e = 255 then none else some e

/-- The tallies set. -/
def talliesOf (body : List Word) : List Nat := onesBelow 32 (body.getD 11 0).toNat

/-- The player that a job ring's plan names at place k (JR_PLAN), when it names one. -/
def planSp (w : Word) (k : Nat) : Option Nat :=
  let v := slice w (5 * k + 4) (5 * k)
  if v < 16 then some v else none

/-- The plan of a ring on this device. -/
def Dev.plan (d : Dev) (ring : Nat) : Word := d.reg (R.JR_PLAN ring)

/-- The player of place k of a job, with its start step. -/
def Dev.jobPlay (d : Dev) (ring : Nat) (body : List Word) (k : Nat) : Option (Nat × Nat) :=
  match playStep body k, planSp (d.plan ring) k with
  | some s, some p => some (p, s)
  | _, _ => none

/-- The players a job starts, with their start steps. -/
def Dev.jobPlays (d : Dev) (ring : Nat) (body : List Word) : List (Nat × Nat) :=
  (List.range 4).filterMap (d.jobPlay ring body)

/-- The device may bind captures now: RUN, no BRACE, no interlock, no holdover (R148, R176, R220, R506). A capture of a beat before
`pwr.bindBn` binds in no case. -/
def Dev.mayBind (d : Dev) : Bool := d.inRun && !d.braced && !d.po.acting && !d.clk.holdover

/-- Every part of the job's schedule is done: no edge still to load or to pass, no column still to send or to report. -/
def Job.partsDone (j : Job) : Bool :=
  j.edgesOpen == 0 && j.colsOpen == 0 && j.lanes.all (fun l => l.stopped || decide (l.count ≤ l.rep)) &&
    j.plays.all (fun p => p.done)

/-- End a job whose parts are all done and one of which failed (R491, R502, R528, R537, R592); a job with nothing failed
waits for STRUCK_SEAL (R381, R591). -/
def Dev.settle (d : Dev) (hm : Nat) : Dev :=
  match d.job? hm with
  | none => d
  | some j =>
    match j.flaw with
    | none => d
    | some r =>
      if !j.active || !j.partsDone then d
      else if r = Rsn.partHeadlink ∧ j.placed = false then
        d.endJob hm { typ := 6, reason := Rsn.expHeadlink, bn := d.now }
      else d.endJob hm { typ := 5, reason := r, bn := j.lastBn, d0 := j.partDetail }

/-- Note a failure of part of a job: it ends PARTIAL once its other parts are done. The first failure stands. -/
def Dev.flawJob (d : Dev) (hm : Nat) (r : Reason) : Dev :=
  d.modJob hm (fun j => { j with flaw := some (j.flaw.getD r) })

end Sys2Proof.Machine
end

