-- ==== Sys2Proof/Machine/Trigger.lean ====
section
/-!
DEFINITION. Sys2Proof/Machine/Trigger.lean: trigger inputs and their qualification chain, captures, encoders, position and
speed (09_triggers_and_encoders.md, R429 to R479).
-/
namespace Sys2Proof.Machine
open Sys2Proof

/-! ## Encoders: position and speed -/

/-- The state of an encoder. -/
def Dev.enc (d : Dev) (n : Nat) : EncSt := mget {} d.trg.enc n

/-- Replace the state of an encoder. -/
def Dev.setEnc (d : Dev) (n : Nat) (e : EncSt) : Dev := { d with trg := { d.trg with enc := mset {} d.trg.enc n e } }

/-- A number modulo 2^n, as a signed value. -/
def wrapS (n : Nat) (v : Int) : Int := signed n (unsigned n v)

/-- A quotient rounded to the nearest integer, a tie going away from zero. -/
def divAway (n : Int) (d : Nat) : Int :=
  let q : Int := ((2 * n.natAbs + d) / (2 * d) : Nat)
  if n < 0 then -q else q

/-- What a count of n / d 2^-16 counts adds to a position of a whole number of counts, the sum rounded to the nearest 2^-16 count, a
tie going away from zero (R453). -/
def posStep (base n : Int) (d : Nat) : Int := divAway (base * 65536 * d + n) d - base * 65536

/-- The position of an encoder at an instant, in 2^-16 counts (R453); none before the oldest transition of the history. An
encoder without history stands at its tracking position (DEDUCED: it has not moved). -/
def EncSt.at (e : EncSt) (t : Nat) : Option Int :=
  match e.hist with
  | [] => some (wrapS 56 (e.pos * 65536))
  | newest :: _ =>
    if newest.1 ≤ t then
      let x := posStep newest.2 (e.spN * 65536 * ((t - newest.1 : Nat) : Int)) (max e.spD 1)
      some (wrapS 56 (newest.2 * 65536 + max (-65535) (min 65535 x)))
    else
      match (e.hist.zip (e.hist.drop 1)).find? (fun p => decide (p.2.1 ≤ t)) with
      | some (b, a) =>
        let x := posStep a.2 (wrapS 40 (b.2 - a.2) * 65536 * ((t - a.1 : Nat) : Int)) (max (b.1 - a.1) 1)
        some (wrapS 56 (a.2 * 65536 + x))
      | none => none

/-- The position at an instant; a position that the spec does not state is a free value (log entry 7). -/
def Dev.encAt (d : Dev) (n t : Nat) : Dev × Int :=
  match (d.enc n).at t with
  | some x => (d, x)
  | none => let r := d.draw; (r.1, (Config.freeWord r.2).toInt)

/-- FS in one second (Table BEA-1): 2 048 in a core cycle of 2 ns. -/
def fsPerSecond : Nat := 1024000000000

/-- An encoder's fault shows in its status, in TRG_EVT and by vector 26; it fences the domain when told to. -/
def Dev.encFault (d : Dev) (n : Nat) (f : Fld) (r : Reason) (fence : Bool) : Dev :=
  let d := (d.setFlag f true).setFld (F.ENC_STAT_REASON n) r.toNat
  let d := (d.setReg R.TRG_EVT (putBit (d.reg R.TRG_EVT) (24 + n) true)).raiseIrq 26
  if fence then d.raiseCause (domEnc n) r else d

/-- The speed of the Gather phase of the beat in progress (R455, R456, R458, R459); a stopped encoder keeps the speed 0 (R457). -/
def Dev.encGather (d : Dev) (n : Nat) : Dev :=
  let e := d.enc n
  let t := d.now * fsPerBeat
  let inWin := if d.flag (F.ENC_STAT_STOPPED n) then [] else
    e.hist.filter (fun h => decide (t ≤ h.1 + d.fld (F.ENC_SPWIN_SPWIN n) * fsPerBeat))
  let bad := d.fenced (domEnc n) || d.clk.holdover
  let (d, e) :=
    match inWin, inWin.getLast? with
    | a :: _ :: _, some b =>
      let d := if bad then d else d.setFlag (F.ENC_STAT_SPEED_VALID n) true
      (d, { e with spN := wrapS 40 (a.2 - b.2), spD := max (a.1 - b.1) 1 })
    | _, _ =>
      match e.hist.head? with
      | none => (d, e)
      | some a =>
        let dt := max (t - a.1) 1
        (d, if e.spN.natAbs * dt ≤ e.spD then e else { e with spN := if e.spN < 0 then -1 else 1, spD := dt })
  let d := if bad then d.setFlag (F.ENC_STAT_SPEED_VALID n) false else d
  let fast := decide (d.num (R.ENC_VMAX n) * e.spD < e.spN.natAbs * fsPerSecond)
  let e := { e with vmaxOn := fast && (e.vmaxOn || d.flag (F.ENC_CFG_EN n)), shown := (e.at t).getD e.shown, inBeat := 0 }
  let was := (d.enc n).vmaxOn
  let d := (d.setEnc n e).setFlag (F.ENC_STAT_REVERSE n) (decide (e.spN < 0))
  if e.vmaxOn && !was then d.encFault n (F.ENC_STAT_VMAX n) Rsn.encVmax (d.flag (F.ENC_CFG_VMAXFENCE n)) else d

/-- ENC_SPEED: the speed in 2^-4 counts/s, to the nearest (DESIGN CHOICE: the spec states no rounding; log entry 8). -/
def EncSt.speedWord (e : EncSt) : Word :=
  BitVec.ofInt 32 (divAway (e.spN * 16 * (fsPerSecond : Int)) (max e.spD 1))

/-! ## Captures -/

/-- A capture from a source of this device: it is offered to every enabled ring that names it, here or, in a binding slot,
on the ring's executor (R441, R442). None is made during holdover, in READY-WAIT, under the interlock, where it is counted, or
for a fenced source; and none is kept for this device while it may not bind (R124, R148, R176, R220, R445, R478, R783). -/
def Dev.capture (d : Dev) (tsrc tidx stamp : Nat) (barred : Bool) : Dev :=
  let rs := (List.range 512).filter (fun j => d.flag (F.JR_BIND_VALID j) && d.fld (F.JR_BIND_TSRC j) == tsrc &&
    d.fld (F.JR_BIND_TIDX j) == tidx && d.fld (F.JR_BIND_TRIG_POS j) == d.pos)
  let c : Capture := { tsrc := tsrc, tidx := tidx, stamp := stamp, bn := d.now, pos := d.pos,
                       rings := rs.filter (fun j => d.fld (F.JR_BIND_EXEC_POS j) == d.pos) }
  let far := ((rs.map (fun j => d.fld (F.JR_BIND_EXEC_POS j))).filter (fun p => p != d.pos)).eraseDups
  if d.po.ilkLow then d.addSat F.TRG_ILKCNT_CAPTURES 1
  else if barred || d.po.acting || d.clk.holdover || !d.started then d
  else
    { d with trg := { d.trg with caps := if c.rings.isEmpty || !d.mayBind then d.trg.caps else d.trg.caps ++ [c],
                                 remote := d.trg.remote ++ far.flatMap (fun p => [{ exec := p, dir := 0, cap := c }, { exec := p, dir := 1, cap := c }]) } }

/-! ## Trigger inputs -/

/-- The state of a trigger input. -/
def Dev.trgIn (d : Dev) (n : Nat) : TrgSt := mget {} d.trg.inp n

/-- Replace the state of a trigger input. -/
def Dev.setTrg (d : Dev) (n : Nat) (v : TrgSt) : Dev := { d with trg := { d.trg with inp := mset {} d.trg.inp n v } }

/-- The input is enabled and its group's receivers are on (R429, R430), on a running core. -/
def Dev.trgOn (d : Dev) (n : Nat) : Bool :=
  d.flag (F.TRG_CFG_EN n) && d.fld (F.TRG_GCFG_FMT (n / 4)) != 0 && d.pwr.vcore

/-- A level is the active one of its input. -/
def Dev.trgActive (d : Dev) (n : Nat) (level : Bool) : Bool := level != d.flag (F.TRG_CFG_EDGE n)

/-- The core cycle of a beat and cycle index, counted from beat 0. -/
def Dev.cycAt (d : Dev) (ci : Nat) : Nat := d.now * cyclesPerBeat + ci

/-- The core cycle of the last command that gave one. -/
def Dev.cyc (d : Dev) : Nat := d.cycAt d.t.ci

/-- Note the cycle index of a command. -/
def Dev.setCi (d : Dev) (ci : Nat) : Dev := { d with t := { d.t with ci := ci } }

/-- The input rearms once its inactive level has held for TRG_DEB cycles (R430, Table TRG-1). -/
def Dev.trgRearm (d : Dev) (n cyc : Nat) : Dev :=
  let v := d.trgIn n
  if v.disarmed && !d.trgActive n v.level && decide (v.inactAt + d.fld (F.TRG_DEB_DEBOUNCE n) ≤ cyc) then
    d.setTrg n { v with disarmed := false }
  else d

/-- An active edge with this stamp is held off (R434 to R436). -/
def Dev.trgHeld (d : Dev) (n stamp : Nat) : Bool :=
  let v := d.trgIn n
  match v.capAt, d.fld (F.TRG_CFG_HMODE n) with
  | some c, 1 => decide (stamp < c + d.num (R.TRG_HOLD n) * fsPerBeat)
  | some _, 2 =>
    let k := d.fld (F.TRG_CFG_HENC n)
    let e := d.enc k
    let x := if d.fenced (domEnc k) then e.freePos * 65536 else (e.at stamp).getD (e.pos * 65536)
    decide (wrapS 56 (x - v.capPos) < (d.num (R.TRG_HOLD n) : Int) * 65536)
  | _, _ => false

/-- The stages after the glitch filter (Table TRG-1). During holdover an active edge is counted and not captured (R220). -/
def Dev.trgEdge (d : Dev) (n : Nat) : Dev :=
  let v := d.trgIn n
  let d := d.addWrap (F.TRG_CNT_ACTIVE n) 1
  let d := { d with trg := { d.trg with edgesNow := n :: d.trg.edgesNow } }
  if d.clk.holdover then d
  else if v.disarmed || d.trgHeld n v.rawAt then d.addSat (F.TRG_HELD_EDGES n) 1
  else if v.capBn = some d.now then
    ((d.addSat (F.TRG_OVR_OVERRUN n) 1).setReg R.TRG_EVT (putBit (d.reg R.TRG_EVT) n true)).raiseIrq 26
  else
    let k := d.fld (F.TRG_CFG_HENC n)
    let r := if d.fld (F.TRG_CFG_HMODE n) = 2 then d.encAt k v.rawAt else (d, 0)
    let d := r.1.setTrg n { v with disarmed := true, capAt := some v.rawAt, capPos := r.2, capBn := some d.now }
    let d := ((d.setReg (R.TRG_CAP0 n) (tsw0 v.rawAt)).setReg (R.TRG_CAP1 n) (tsw1 v.rawAt)).setReg (R.TRG_CAP2 n) (tsw2 v.rawAt)
    (d.addWrap (F.TRG_CAPCNT_CAPTURES n) 1).capture 0 n v.rawAt (d.fenced (domTg (n / 4)))

/-! ## Meanings -/

/-- TRIGGER_TRANSITION: a raw transition, stamped by its TDC (R431). -/
def execTriggerTransition (n : Fin 16) (level : Bool) (ci : Fin 240) (fs : Fin 2048) (s : State) :
    Host.Outcome State Fault Refusal :=
  .next (s.onDev fun d =>
    let d := d.setCi ci.val
    let v := d.trgIn n.val
    if d.trgOn n.val && v.raw != level then
      let d := { d with asy := { d.asy with lastRaw := mset 0 d.asy.lastRaw n.val (instant d.now ci.val fs.val) } }
      d.setTrg n.val { v with raw := level, rawAt := instant d.now ci.val fs.val }
    else d)

/-- TRIGGER_QUALIFY: the raw level has held for GLITCH cycles and passes the chain of Table TRG-1 (R432, R470). -/
def execTriggerQualify (n : Fin 16) (ci : Fin 240) (s : State) : Host.Outcome State Fault Refusal :=
  .next (s.onDev fun d =>
    let d := d.setCi ci.val
    let v := d.trgIn n.val
    let q := v.rawAt / fsPerCycle + d.fld (F.TRG_CFG_GLITCH n.val)
    if d.trgOn n.val && v.raw != v.level && decide (q ≤ d.cyc) then
      if d.trgActive n.val v.raw then
        let d := d.trgRearm n.val q
        (d.setTrg n.val { d.trgIn n.val with level := v.raw }).trgEdge n.val
      else d.setTrg n.val { v with level := v.raw, inactAt := q }
    else d)

/-- TRIGGER_REARM: the inactive level has held for TRG_DEB cycles (R430). -/
def execTriggerRearm (n : Fin 16) (ci : Fin 240) (s : State) : Host.Outcome State Fault Refusal :=
  .next (s.onDev fun d => let d := d.setCi ci.val; d.trgRearm n.val d.cyc)

/-- The count that a transition of A and B makes in an encoder's mode (Table TRG-4), before DIR; 0 for none. In modes 0 to 2
A leading B counts up (DESIGN CHOICE: the spec names no sense of the phase, and DIR inverts it; log entry 9). -/
def encStep (mode : Nat) (a b a' b' : Bool) : Int :=
  let da := a != a'
  let up : Int := if a' != b' then 1 else -1
  match mode with
  | 0 => if da then up else if b != b' then -up else 0
  | 1 => if da then up else 0
  | 2 => if da && a' then up else 0
  | _ => if da && a' then (if b then 1 else -1) else 0

/-- Count one step of an encoder, and end jobs that a reversal overtakes (R467). -/
def Dev.encCount (d : Dev) (n : Nat) (step : Int) : Dev :=
  let e := d.enc n
  let pos := wrapS 40 (e.pos + step)
  let e := { e with pos := pos, hist := ((d.now * fsPerBeat + d.t.ci * fsPerCycle, pos) :: e.hist).take 16, lastBn := d.now,
                    freePos := if d.fenced (domEnc n) then e.freePos else pos }
  let d := (d.setEnc n e).setFlag (F.ENC_STAT_STOPPED n) false
  if d.flag (F.ENC_CFG_REVMODE n) then
    let on := fun j : Job => j.active && j.exec == d.pos && j.dkind && d.fld (F.JR_BIND_ENC j.ring) == n
    let hms := (d.jobs.filter on).map Job.hm
    hms.foldl (fun d hm =>
      let d := d.modJob hm (fun j => if 0 < wrapS 40 (pos - j.peak) then { j with peak := pos } else j)
      match d.job? hm with
      | some j =>
        if (d.num (R.ENC_REVTOL n) : Int) < wrapS 40 (j.peak - pos) then
          d.endAs hm (j.edges != 0 || j.colsSent != 0) Rsn.expReversal Rsn.partReversal
        else d
      | none => d) d
  else d

/-- ENCODER_TRANSITION: new filtered levels of A and B in a core cycle (R446 to R449). Transitions of one core cycle come in
one command. -/
def execEncoderTransition (n : Fin 8) (a : Bool) (b : Bool) (ci : Fin 240) (s : State) : Host.Outcome State Fault Refusal :=
  .next (s.onDev fun d =>
    let d := d.setCi ci.val
    let e := d.enc n.val
    if !d.flag (F.ENC_CFG_EN n.val) || !d.pwr.vcore then d else
    let k := (if a != e.a then 1 else 0) + (if b != e.b then 1 else 0)
    let d := d.setEnc n.val { e with a := a, b := b, inBeat := e.inBeat + k }
    let d := if e.inBeat ≤ 12 ∧ 12 < e.inBeat + k then d.encFault n.val (F.ENC_STAT_OVERSPEED n.val) Rsn.encOverspeed true else d
    let mode := d.fld (F.ENC_CFG_MODE n.val)
    if k = 2 ∧ mode ≠ 3 then
      let d := d.addSat (F.ENC_PERR_PHASE n.val) 1
      let e := d.enc n.val
      let d := d.setEnc n.val { e with perrWin := e.perrWin + 1 }
      if d.fld (F.ENC_PERRMAX_PHASE n.val) < e.perrWin + 1 then
        d.encFault n.val (F.ENC_STAT_PHASE n.val) Rsn.encPhase true
      else d
    else
      let st := encStep mode e.a e.b a b
      let st := if d.flag (F.ENC_CFG_DIR n.val) then -st else st
      if st = 0 then d else d.encCount n.val st)

/-- ENCODER_INDEX: a rising edge of Z (R451, R452). -/
def execEncoderIndex (n : Fin 8) (s : State) : Host.Outcome State Fault Refusal :=
  .next (s.onDev fun d =>
    if !d.flag (F.ENC_CFG_EN n.val) || !d.pwr.vcore then d else
    let e := d.enc n.val
    let zm := d.fld (F.ENC_CFG_ZMODE n.val)
    let d := if zm = 1 ∨ zm = 2 then d.setNum (R.ENC_ZLATCH n.val) (unsigned 32 e.pos) else d
    let d := d.setEnc n.val { e with offset := if zm = 2 then e.pos else e.offset, zPrev := some e.pos }
    let per := d.num (R.ENC_ZPER n.val)
    match e.zPrev with
    | some z =>
      if per ≠ 0 ∧ (wrapS 40 (e.pos - z)).natAbs ≠ per then
        d.encFault n.val (F.ENC_STAT_INDEX n.val) Rsn.encIndex (d.flag (F.ENC_CFG_IDXFENCE n.val))
      else d
    | none => d)

/-- ENCODER_STOP: no transition for STOPTMO beats (R457). -/
def execEncoderStop (n : Fin 8) (s : State) : Host.Outcome State Fault Refusal :=
  .next (s.onDev fun d =>
    let e := d.enc n.val
    if d.flag (F.ENC_CFG_EN n.val) && decide (e.lastBn + d.fld (F.ENC_SPWIN_STOPTMO n.val) ≤ d.now) then
      (d.setEnc n.val { e with spN := 0, spD := 1 }).setFlag (F.ENC_STAT_STOPPED n.val) true
    else d)

/-- TRG_CAP0_READ: latches TRG_CAP1 and TRG_CAP2 (R61). -/
def execTrgCap0Read (port : Port) (n : Fin 16) (s : State) : Host.Outcome State Fault Refusal :=
  .next (s.onDev fun d => d.readVia port (R.TRG_CAP0 n.val) true fun d =>
    (d.latch port [(R.TRG_CAP1 n.val, d.reg (R.TRG_CAP1 n.val)), (R.TRG_CAP2 n.val, d.reg (R.TRG_CAP2 n.val))],
     d.reg (R.TRG_CAP0 n.val)))

/-- What a read of ENC_POSI_LO latches and returns (R61). -/
def Dev.readPosi (d : Dev) (port : Port) (n : Nat) : Dev × Word :=
  let e := d.enc n
  let u := unsigned 56 e.shown
  (d.latch port [(R.ENC_POSI_HI n, BitVec.ofNat 32 (u / 2 ^ 48 + u % 2 ^ 16 * 2 ^ 16)), (R.ENC_SPEED n, e.speedWord)],
   BitVec.ofNat 32 (u / 2 ^ 16))

/-- ENC_POSI_LO_READ: latches ENC_POSI_HI and ENC_SPEED (R61). -/
def execEncPosiLoRead (port : Port) (n : Fin 8) (s : State) : Host.Outcome State Fault Refusal :=
  .next (s.onDev fun d => d.readVia port (R.ENC_POSI_LO n.val) true fun d => d.readPosi port n.val)

end Sys2Proof.Machine
end

