-- ==== Sys2Proof/Machine/Tinker.lean ====
section
/-!
DEFINITION. Sys2Proof/Machine/Tinker.lean: the Tinker engines: ticks, queues and joins, event raises, sync groups and the
stall watch (13_tinker_engines.md, R628 to R680).
-/
namespace Sys2Proof.Machine
open Sys2Proof

/-! ## Engines and their queues -/

/-- The state of an engine. -/
def Dev.eng (d : Dev) (n : Nat) : EngSt := mget {} d.tnk.eng n

/-- Replace the state of an engine. -/
def Dev.setEng (d : Dev) (n : Nat) (e : EngSt) : Dev := { d with tnk := { d.tnk with eng := mset {} d.tnk.eng n e } }

/-- A join of the active configuration: writer, reader and lenders, as engine numbers (TNK_JOIN). -/
structure Join where
  writer : Nat
  reader : Nat
  lenders : List Nat
  deriving DecidableEq, Repr

/-- The join that a half word of a TNK_JOIN register of block b describes, when it is enabled. -/
def joinOf (b v : Nat) : Option Join :=
  if v.testBit 14 then
    some { writer := 8 * b + v % 8, reader := 8 * b + v / 8 % 8, lenders := (onesBelow 8 (v / 64 % 256)).map (8 * b + ·) }
  else none

/-- The joins that a reader of words describes. -/
def joinsOf (rd : Nat → Word) : List Join :=
  (List.range 8).flatMap (fun b => ([R.TNK_JOIN0 b, R.TNK_JOIN1 b].flatMap (fun a =>
    [slice (rd a) 14 0, slice (rd a) 30 16])).filterMap (joinOf b))

/-- The joins in force: those that no reclaim has split (R649). -/
def Dev.joins (d : Dev) : List Join := (joinsOf d.reg).filter (fun j => !d.tnk.split.contains j.reader)

/-- Words that an engine's RX queue holds at most: 16, or 16 × (lenders + 2) in a join (R647). -/
def Dev.rxCap (d : Dev) (n : Nat) : Nat :=
  match d.joins.find? (fun j => j.reader == n) with
  | some j => 16 * (j.lenders.length + 2)
  | none => 16

/-- The engine whose RX queue takes an engine's pushes: the reader of its join; none for its own TX queue. -/
def Dev.joinReader (d : Dev) (n : Nat) : Option Nat := (d.joins.find? (fun j => j.writer == n)).map Join.reader

/-- Places taken in a queue as a writer sees it in core cycle c: a place freed in c can be written from c + 1 on (R643). -/
def EngQ.taken (q : EngQ) (c : Nat) : Nat := q.items.length + (if q.popCyc = c then q.pops else 0)

/-- The queue with a word written in core cycle c, when it has a place. -/
def EngQ.push (q : EngQ) (cap c : Nat) (w : Word) : Option EngQ :=
  if q.taken c < cap then some { q with items := q.items ++ [(w, c)] } else none

/-- The head word and the rest, when the head was written before core cycle c (R643). -/
def EngQ.pop (q : EngQ) (c : Nat) : Option (Word × EngQ) :=
  match q.items with
  | (w, k) :: r => if k < c then
      some (w, { items := r, popCyc := c, pops := if q.popCyc = c then q.pops + 1 else 1 }) else none
  | [] => none

/-- Push into an engine's RX queue; none when it has no free place. -/
def Dev.rxPush (d : Dev) (n : Nat) (w : Word) : Option Dev :=
  let e := d.eng n
  (e.rx.push (d.rxCap n) d.cyc w).map (fun q => d.setEng n { e with rx := q })

/-- Push from an engine into its TX queue or its join (R642, R647). -/
def Dev.txPush (d : Dev) (n : Nat) (w : Word) : Option Dev :=
  match d.joinReader n with
  | some r => d.rxPush r w
  | none => let e := d.eng n; (e.tx.push 16 d.cyc w).map (fun q => d.setEng n { e with tx := q })

/-- A push by a command reply; without a free place the engine is fenced with TNK_QOVF (R644). -/
def Dev.rxReply (d : Dev) (n : Nat) (w : Word) : Dev := (d.rxPush n w).getD (d.raiseCause (domTe n) Rsn.tnkQovf)

/-- Note an event on an engine that runs, halted or not as told (R636, R661). -/
def Dev.engEvent (d : Dev) (n key cyc : Nat) (held : Bool) : Dev :=
  let e := d.eng n
  if e.running && (held || !e.halted) then d.setEng n { e with ev := e.ev ++ [(key, cyc)] } else d

/-- The job data of a binding is pushed, or nothing is and the engine is fenced (R317, R644). -/
def Dev.jobPush (d : Dev) (n : Nat) (ws : List Word) : Dev :=
  if (d.eng n).rx.taken d.cyc + ws.length ≤ d.rxCap n then
    (ws.foldl (fun d w => (d.rxPush n w).getD d) d).engEvent n 96 d.cyc true
  else d.raiseCause (domTe n) Rsn.tnkQovf

/-! ## Inputs, events and conditions -/

/-- The byte of TNK_INMAP for an input slot. -/
def Dev.inMap (d : Dev) (n slot : Nat) : Nat :=
  slice (d.reg (R.TNK_INMAP n (slot / 4))) (8 * (slot % 4) + 7) (8 * (slot % 4))

/-- A global input that reads 0 as the device is set (Table TNK-3). -/
def Dev.inputOff (d : Dev) (g : Nat) : Bool :=
  if 0x40 ≤ g ∧ g < 0x50 then d.fld (F.TRG_GCFG_FMT ((g - 0x40) / 4)) == 0
  else if 0x68 ≤ g ∧ g < 0x78 then d.fld (F.HP_CFG_MODE (g - 0x68)) != 2
  else if g = 0xA8 then d.fld F.SUP_RCODE_MNOM == 0
  else decide (0xA9 ≤ g)

/-- The level of a global input that the device itself decides: a filtered trigger, an encoder input, a marker, an output. -/
def Dev.ownInput (d : Dev) (g : Nat) : Option Bool :=
  if 0x40 ≤ g ∧ g < 0x50 then some (d.trgIn (g - 0x40)).level
  else if 0x50 ≤ g ∧ g < 0x58 then some (d.enc (g - 0x50)).a
  else if 0x58 ≤ g ∧ g < 0x60 then some (d.enc (g - 0x58)).b
  else if 0x78 ≤ g ∧ g < 0x88 then some (d.sp.marks.any (fun m => m.1 == g - 0x78))
  else if 0x88 ≤ g ∧ g < 0xA8 then some (!(mget {} d.po.outs (g - 0x88)).holders.isEmpty)
  else none

/-- A global input as a condition sees it in core cycle c: a change is seen in the second cycle after it (R638). -/
def Dev.inputAt (d : Dev) (g c : Nat) : Bool :=
  if d.inputOff g then false
  else let v := mget (false, 0) d.tnk.inputs g
       if c < v.2 + 2 then !v.1 else v.1

/-- Bit 7 of an engine's output vector at the start of core cycle c. -/
def EngSt.flagAt (e : EngSt) (c : Nat) : Bool := (if e.outCyc = c then e.outPrev else e.outv).testBit 7

/-- The value of a condition source for engine n in core cycle c (Table TNK-2, R633). -/
def Dev.condSrc (d : Dev) (n c src : Nat) (first : Bool) : Bool :=
  let e := d.eng n
  match src with
  | 0 => false
  | 1 => true
  | 2 => bitOf e.sr 31
  | 3 => bitOf e.sr 0
  | 4 => e.cnt == 0
  | 5 => (e.rx.pop c).isSome
  | 6 => match d.joinReader n with
    | some r => decide ((d.eng r).rx.taken c < d.rxCap r)
    | none => decide (e.tx.taken c < 16)
  | 7 => (d.num2 R.TNK_HFLAG_LO R.TNK_HFLAG_HI).testBit n
  | 8 => d.po.acting
  | 9 => first
  | _ =>
    if 16 ≤ src ∧ src < 32 then d.inputAt (d.inMap n (src - 16)) c
    else if 32 ≤ src ∧ src < 40 then (d.eng (n / 8 * 8 + src - 32)).flagAt c
    else false

/-- A wait event has occurred from the entry cycle on and before core cycle c (R636). -/
def EngSt.evAt (e : EngSt) (key c : Nat) : Bool :=
  if key = 98 then decide (0 < c) && decide (e.entryCyc ≤ (c - 1) / cyclesPerBeat * cyclesPerBeat)
  else e.ev.any (fun x => x.1 == key && decide (e.entryCyc ≤ x.2) && decide (x.2 < c))

/-- Note an event on every engine. -/
def Dev.engEventAll (d : Dev) (key cyc : Nat) : Dev := (List.range 64).foldl (fun d m => d.engEvent m key cyc false) d

/-- A raise of engine n shows in TNK_RAISED, to step advances and, when enabled, by its vector (R652). -/
def Dev.engShow (d : Dev) (n : Nat) : Dev :=
  let d := { d with trg := { d.trg with raisesNow := n :: d.trg.raisesNow } }
  let d := if n < 32 then d.setReg R.TNK_RAISED_LO (putBit (d.reg R.TNK_RAISED_LO) n true)
    else d.setReg R.TNK_RAISED_HI (putBit (d.reg R.TNK_RAISED_HI) (n - 32) true)
  if (d.num2 R.TNK_IRQEN_LO R.TNK_IRQEN_HI).testBit n then d.raiseIrq (32 + n / 2) else d

/-- The first raise of an engine in a beat is a capture; a later one is counted (R651). -/
def Dev.engCapture (d : Dev) (n c : Nat) : Dev :=
  if (d.eng n).raisedBn = some d.now then d.addSat (F.TNK_OVR_RAISES n) 1
  else (d.setEng n { d.eng n with raisedBn := some d.now }).capture 1 n (c * fsPerCycle) false

/-- An engine raises its event in core cycle c (R650 to R652). -/
def Dev.engRaise (d : Dev) (n c : Nat) : Dev := ((d.engEventAll n c).engShow n).engCapture n c

/-! ## The tick (Sequence TNK-1) -/

/-- A word of the state entry that an engine is in. -/
def Dev.entry (d : Dev) (n k : Nat) : Word := d.reg (R.TNK_PROG n (d.eng n).state k)

/-- A state entry waits: it has WEN, or its queue operation is POP or PUSH. -/
def blocks (w0 w3 : Word) : Bool := bitOf w0 31 || slice w3 2 0 == 1 || slice w3 2 0 == 2

/-- Core cycle c is a tick of a divider that restarted in c0 (R628). -/
def onGrid (c0 div c : Nat) : Bool :=
  decide (c0 ≤ c) && (ceilDiv ((c - c0) * 65536) (max div 1) * div / 65536 == c - c0)

/-- The queue operation of the state is attempted (Table TNK-5, R642). -/
def Dev.engQop (d : Dev) (n c : Nat) (w3 : Word) (a : Bool) : Dev :=
  let e := d.eng n
  match slice w3 2 0 with
  | 1 => match e.rx.pop c with
    | some (w, q) => d.setEng n { e with sr := w, rx := q, qdone := true }
    | none => d
  | 2 => match d.txPush n e.sr with
    | some d => d.setEng n { d.eng n with qdone := true }
    | none => d
  | 3 => d.setEng n { e with sr := (e.sr <<< 1) ||| (if a then 1 else 0), cnt := e.cnt - 1 }
  | 4 => d.setEng n { e with cnt := slice w3 15 8 }
  | 5 => d.setEng n { e with sr := BitVec.ofNat 32 (slice w3 15 8) }
  | _ => d

/-- Change an output vector in core cycle c. -/
def EngSt.setOut (e : EngSt) (v c : Nat) : EngSt :=
  if v = e.outv then e else { e with outv := v, outPrev := if e.outCyc = c then e.outPrev else e.outv, outCyc := c }

/-- The entry actions of a state, in the order of Sequence TNK-1. -/
def Dev.engEnter (d : Dev) (n c : Nat) (a : Bool) : Dev :=
  let w2 := d.entry n 2
  let w3 := d.entry n 3
  let e := d.eng n
  let m := slice w2 15 8
  let out := (e.outv &&& (255 - m)) ||| (slice w2 7 0 &&& m)
  let e := { e.setOut out c with entered := true, ticks := 0, entryCyc := c, qdone := false, evSeen := false,
                                 ev := e.ev.filter (fun x => decide (c ≤ x.2)) }
  let d := (d.setEng n e).engQop n c w3 a
  let e := d.eng n
  let d := if bitOf w3 7 then
      let k := slice w3 6 4
      let v := if bitOf e.sr 31 then e.outv ||| 2 ^ k else e.outv &&& (255 - 2 ^ k)
      d.setEng n (e.setOut v c)
    else d
  if bitOf w3 16 then d.engRaise n c else d

/-- The members of an engine's sync group, itself included. -/
def Dev.groupOfEng (d : Dev) (n : Nat) : List Nat := n :: d.groupPeers n

/-- What an engine is blocked on: nothing, an event, a POP or a PUSH (TNK_STAT). -/
def Dev.engBlock (d : Dev) (n : Nat) : Nat :=
  let e := d.eng n
  let q := slice (d.entry n 3) 2 0
  if !e.running || !e.entered || !blocks (d.entry n 0) (d.entry n 3) then 0
  else if q = 1 ∧ e.qdone = false then 2
  else if q = 2 ∧ e.qdone = false then 3
  else if bitOf (d.entry n 0) 31 && !e.evSeen then 1
  else 0

/-- The engine is blocked and everything it waits for can come only from members of its own group (R665, R668). -/
def Dev.blockedInGroup (d : Dev) (n : Nat) : Bool :=
  let e := d.eng n
  let w0 := d.entry n 0
  let q := slice (d.entry n 3) 2 0
  let grp := d.groupOfEng n
  let ev := !bitOf w0 31 || e.evSeen || (decide (slice w0 30 24 < 64) && grp.contains (slice w0 30 24))
  let op := e.qdone || (if q = 1 then d.joins.any (fun j => j.reader == n && grp.contains j.writer)
    else if q = 2 then d.joins.any (fun j => j.writer == n && grp.contains j.reader) else true)
  d.engBlock n != 0 && ev && op

/-- The engine steps in this core cycle: enabled, started, in RUN, not halted or fenced, at a tick it has not made
(R628, R659, R660). -/
def Dev.engTicks (d : Dev) (n c : Nat) : Bool :=
  let e := d.eng n
  d.flag (F.TNK_CFG_EN n) && e.running && !e.halted && !d.fenced (domTe n) && d.pwr.vcore &&
    decide (e.lastTick ≤ c) && onGrid e.c0 (d.num (R.TNK_DIV n)) c

/-- One tick of an engine (R632). -/
def Dev.engTick (d : Dev) (n c : Nat) : Dev :=
  let e := d.eng n
  let first := decide (e.lastTick ≤ d.now * cyclesPerBeat)
  let e := { e with lastTick := c + 1, steps := (e.steps + 1) % 2 ^ 32 }
  let e := if e.swapDue then { e with swapDue := false, state := d.fld (F.TNK_CFG_START n), entered := false } else e
  let d := d.setEng n e
  let w0 := d.entry n 0
  let w1 := d.entry n 1
  let w2 := d.entry n 2
  let w3 := d.entry n 3
  let a0 := d.condSrc n c (slice w0 5 0) first != bitOf w0 6
  let d := if e.entered then
      let d := d.setEng n { e with ticks := e.ticks + 1 }
      if blocks w0 w3 && !e.qdone && (slice w3 2 0 == 1 || slice w3 2 0 == 2) then d.engQop n c w3 a0 else d
    else d.engEnter n c a0
  let a := d.condSrc n c (slice w0 5 0) first != bitOf w0 6
  let b := d.condSrc n c (slice w0 13 8) first != bitOf w0 14
  let k := (if a then 1 else 0) + (if b then 2 else 0)
  let ns := slice w1 (8 * k + 5) (8 * k)
  let e := d.eng n
  let e := { e with evSeen := e.evSeen || (bitOf w0 31 && e.evAt (slice w0 30 24) c) }
  let hold := slice w2 31 16
  let q := slice w3 2 0
  let toSt := slice w0 21 16
  let next : Option Nat :=
    if blocks w0 w3 then
      if (e.qdone || !(q == 1 || q == 2)) && (e.evSeen || !bitOf w0 31) then some ns
      else if bitOf w0 22 && e.evAt 97 c then some toSt
      else if hold ≠ 0 ∧ e.ticks = hold then some toSt
      else none
    else if e.ticks = hold then some ns else none
  let e := match next with
    | some s => { e with state := s, entered := false }
    | none => e
  let d := d.setEng n e
  if d.blockedInGroup n then d else d.setEng n { d.eng n with free := true }

/-! ## Sync groups, starting and stopping -/

/-- The mask of a group. -/
def Dev.grpMask (d : Dev) (g : Nat) : List Nat := onesBelow 64 (d.num2 (R.TNK_SGMASK_LO g) (R.TNK_SGMASK_HI g))

/-- The engines that a command acts on. -/
def Dev.cmdEngines (d : Dev) (engine : Bool) (idx : Nat) : List Nat := if engine then [idx] else if idx < 16 then d.grpMask idx else []

/-- Start one engine at CI 0 of the current beat (R654). Out of RUN it starts halted (R660). -/
def Dev.startEngine (d : Dev) (n : Nat) : Dev :=
  let e := d.eng n
  d.setEng n { state := d.fld (F.TNK_CFG_START n), running := true, halted := !d.inRun, outv := d.fld (F.TNK_CFG_OUTINIT n),
               outCyc := d.now * cyclesPerBeat, outPrev := e.outv, c0 := d.now * cyclesPerBeat, raisedBn := e.raisedBn,
               steps := e.steps }

/-- Start a group or an engine (R654); the joins of the engines started are whole again. -/
def Dev.startEngines (d : Dev) (engine : Bool) (idx : Nat) : Dev :=
  let ns := d.cmdEngines engine idx
  let d := ns.foldl Dev.startEngine d
  let d := { d with tnk := { d.tnk with split := d.tnk.split.filter (fun r => !ns.contains r) } }
  if engine then d
  else { d with tnk := { d.tnk with grp := (d.tnk.grp.filter (· != idx)) ++ [idx], stall := mset 0 d.tnk.stall idx 0 } }.setReg
    R.TNK_SGSTAT (putBit (d.reg R.TNK_SGSTAT) (16 + idx) false)

/-- Stop one engine (R657). -/
def Dev.stopEngine (d : Dev) (n : Nat) : Dev :=
  let e := (d.eng n).setOut (d.fld (F.TNK_CFG_OUTINIT n)) (d.now * cyclesPerBeat)
  d.setEng n { e with running := false }

/-- Stop a group or an engine (R657). -/
def Dev.stopEngines (d : Dev) (engine : Bool) (idx : Nat) : Dev :=
  let d := (d.cmdEngines engine idx).foldl Dev.stopEngine d
  if engine then d else { d with tnk := { d.tnk with grp := d.tnk.grp.filter (· != idx) } }

/-- The reclaim of a fenced engine: it stops, its group no longer runs, and its joins are emptied and split (R649, R659). -/
def Dev.reclaimEngine (d : Dev) (n : Nat) : Dev :=
  let js := d.joins.filter (fun j => j.writer == n || j.reader == n || j.lenders.contains n)
  let d := js.foldl (fun d j =>
    let d := d.setEng j.reader { d.eng j.reader with rx := {} }
    d.setEng j.writer { d.eng j.writer with tx := {} }) d
  let d := d.setEng n { d.eng n with running := false }
  { d with tnk := { d.tnk with split := d.tnk.split ++ js.map Join.reader,
                               grp := d.tnk.grp.filter (fun g => !(d.grpMask g).contains n) } }

/-- Engines halt (R660). -/
def Dev.haltEngines (d : Dev) : Dev :=
  (List.range 64).foldl (fun d n => let e := d.eng n
    if e.running && !e.halted then d.setEng n { e with halted := true } else d) d

/-- Halted engines resume at CI 0 of the current beat (R661). An edge or a raise while they were halted was not noted
(Dev.engEvent); kicks and job pushes were. -/
def Dev.resumeEngines (d : Dev) : Dev :=
  (List.range 64).foldl (fun d n =>
    let e := d.eng n
    if e.halted then d.setEng n { e with halted := false, c0 := d.now * cyclesPerBeat } else d) d

/-- The stall watch at the Seal phase (R668, R677); the next beat starts with every member's present block. -/
def Dev.stallWatch (d : Dev) : Dev :=
  if !d.inRun then d else
  let d := if d.braced then d else d.tnk.grp.foldl (fun d g =>
    let stalled := (d.grpMask g).all (fun n => !(d.eng n).free && d.blockedInGroup n)
    { d with tnk := { d.tnk with stall := mset 0 d.tnk.stall g (if stalled then mget 0 d.tnk.stall g + 1 else 0) } }) d
  d.tnk.grp.foldl (fun d g => (d.grpMask g).foldl (fun d n =>
    d.setEng n { d.eng n with free := !d.blockedInGroup n }) d) d

/-- The engine that drives a GIO pin, and the output bit (R639). -/
def Dev.gioOwner (d : Dev) (g : Nat) : Option (Nat × Nat) :=
  ((List.range 64).flatMap (fun n => (List.range 8).map (fun i => (n, i)))).find? (fun x =>
    let b := slice (d.reg (R.TNK_OUTMAP x.1 (x.2 / 4))) (8 * (x.2 % 4) + 7) (8 * (x.2 % 4))
    d.flag (F.TNK_CFG_EN x.1) && b.testBit 7 && b % 64 == g)

/-- The level that a SAFEB pin holds when it is safe: none while its driver is off or strapped HIGH-Z (R98, R99, Table STR-3). -/
def Dev.safeB (d : Dev) : Option Bool :=
  if !d.boot.strapsValid || d.boot.offB then none
  else match d.fld F.SUP_STRAP_SAFEB with
    | 0 => some false
    | 1 => some true
    | _ => none

/-- The pins of an engine are at their safe levels: not in RUN, nor finishing its jobs after a READY command; halted, fenced, or
under the interlock (R504, R659, R660, R662). -/
def Dev.engSafe (d : Dev) (n : Nat) : Bool :=
  (!d.inRun && !d.pwr.draining) || (d.eng n).halted || d.fenced (domTe n) || d.po.ilkLow || d.po.acting

/-- What the device drives on a GIO pin: none for an input or a released open drain (R99, R639, R640). -/
def Dev.gioPin (d : Dev) (g : Nat) : Option Bool :=
  if !d.bankOn (2 + g / 32) then none else
  match slice (d.reg (R.TNK_GIOCFG (g / 16))) (2 * (g % 16) + 1) (2 * (g % 16)) with
  | 0 => none
  | m => match d.gioOwner g with
    | none => d.safeB
    | some (n, i) =>
      if d.engSafe n then d.safeB
      else if m = 2 && (d.eng n).outv.testBit i then none
      else some ((d.eng n).outv.testBit i)

/-- What line k (0 D0, 1 D1, 2 CK) of a head port in ENGINE mode carries (R614, R615); none in another mode. -/
def Dev.enginePin (d : Dev) (p k : Nat) : Option Bool :=
  if d.fld (F.HP_CFG_MODE p) != 2 then none
  else if d.engSafe (d.fld (F.HP_ENG_ENG p)) || d.fenced (domHp p) then d.safeB
  else some ((d.eng (d.fld (F.HP_ENG_ENG p))).outv.testBit (slice (d.reg (R.HP_ENG p)) (8 + 3 * k) (6 + 3 * k)))

/-- The result of a TNK_CMD. -/
def Dev.tnkResult (d : Dev) (r : Reason) : Dev :=
  { d with tnk := { d.tnk with pend := none } }.setFlag F.TNK_CMDSTAT_PENDING false |>.setFld F.TNK_CMDSTAT_RESULT r.toNat

/-- A write of TNK_CMD (R655, R656, R800). A command that is neither start nor stop does nothing; one that is both starts
(DESIGN CHOICE: the spec gives neither form an effect; log entry 10). -/
def Dev.writeTnkCmd (d : Dev) (w : Word) : Dev :=
  let engine := bitOf w 6
  let idx := slice w 5 0
  let ns := d.cmdEngines engine idx
  let start := bitOf w 8
  if !bitOf w 31 || !(start || bitOf w 9) then d
  else if d.tnk.pend.isSome then d.setFld F.TNK_CMDSTAT_RESULT Rsn.refState.toNat
  else if ns.any (fun n => (d.dom (domTe n)).causes.contains Rsn.domainParked) then
    d.setFld F.TNK_CMDSTAT_RESULT Rsn.domainParked.toNat
  else if ns.isEmpty || (engine && !(d.groupPeers idx).isEmpty) || (start && ns.any (fun n => d.fenced (domTe n))) then
    d.setFld F.TNK_CMDSTAT_RESULT Rsn.refState.toNat
  else
    let bn := max (d.num2 R.TNK_CMDBN_LO R.TNK_CMDBN_HI) (d.now + 4)
    { d with tnk := { d.tnk with pend := some { idx := idx, engine := engine, start := start, bn := bn } } }.setFlag
      F.TNK_CMDSTAT_PENDING true

/-- A pending command of the kind asked for acts at its beat (R654, R657). A fence of an engine it names has acted first:
it completes with REF_STATE and changes nothing (R678; DEDUCED for a start). -/
def Dev.tnkAct (d : Dev) (start : Bool) : Dev :=
  match d.tnk.pend with
  | none => d
  | some c =>
    if c.start != start || decide (d.now < c.bn) then d
    else if (d.cmdEngines c.engine c.idx).any (fun n => d.fenced (domTe n)) then d.tnkResult Rsn.refState
    else if start then (d.startEngines c.engine c.idx).tnkResult Rsn.ok
    else (d.stopEngines c.engine c.idx).tnkResult Rsn.ok

/-- A write of TNK_KICK (R636, R673). -/
def Dev.writeKick (d : Dev) (hi : Bool) (w : Word) : Dev :=
  (onesBelow 32 w.toNat).foldl (fun d k => d.engEvent (if hi then 32 + k else k) 97 d.cyc true) d

/-- A write of TNK_RXWR (R645). -/
def Dev.writeRx (d : Dev) (n : Nat) (w : Word) : Dev :=
  if d.flag (F.TNK_CFG_HOSTQ n) then (d.rxPush n w).getD (d.setFlag (F.TNK_QSTAT_HOSTDROP n) true)
  else d.setFlag (F.TNK_QSTAT_HOSTDROP n) true

/-- The head word of an engine's TX queue and what a read of TNK_TXRD leaves (R645). -/
def Dev.readTx (d : Dev) (n : Nat) : Dev × Word :=
  let e := d.eng n
  if d.flag (F.TNK_CFG_TXDST n) then (d, 0)
  else match e.tx.items with
    | (w, _) :: r =>
      let k := if e.tx.popCyc = d.cyc then e.tx.pops + 1 else 1
      (d.setEng n { e with tx := { items := r, popCyc := d.cyc, pops := k } }, w)
    | [] => (d, 0)

/-! ## Meanings -/

/-- ENGINE_TICK: a core cycle in which an engine's divider may tick (R628, R632). -/
def execEngineTick (n : Fin 64) (ci : Fin 240) (s : State) : Host.Outcome State Fault Refusal :=
  .next (s.onDev fun d =>
    let d := d.setCi ci.val
    if d.engTicks n.val d.cyc then d.engTick n.val d.cyc else d)

/-- ENGINE_INPUT_EDGE: a global input changes in a core cycle; the change is latched for waits two cycles later (R638). -/
def execEngineInputEdge (g : Fin 169) (level : Bool) (ci : Fin 240) (s : State) : Host.Outcome State Fault Refusal :=
  .next (s.onDev fun d =>
    let d := d.setCi ci.val
    let v := mget (false, 0) d.tnk.inputs g.val
    if d.inputOff g.val || v.1 == level || (d.ownInput g.val).getD level != level || !d.pwr.vcore then d else
    let d := { d with tnk := { d.tnk with inputs := mset (false, 0) d.tnk.inputs g.val (level, d.cyc) } }
    (List.range 64).foldl (fun d n => (List.range 16).foldl (fun d i =>
      if d.inMap n i = g.val then d.engEvent n ((if level then 64 else 80) + i) (d.cyc + 2) false else d) d) d)

/-- TNK_START_COMMAND: TNK_CMD written with GO and START (R655, R656). -/
def execTnkStartCommand (port : Port) (idx : Fin 64) (engine : Bool) (s : State) : Host.Outcome State Fault Refusal :=
  .next (s.onDev fun d => d.viaPort port R.TNK_CMD fun d =>
    d.writeTnkCmd (BitVec.ofNat 32 (0x80000100 + idx.val + if engine then 64 else 0)))

/-- TNK_STOP_COMMAND: TNK_CMD written with GO and STOP (R655, R656). -/
def execTnkStopCommand (port : Port) (idx : Fin 64) (engine : Bool) (s : State) : Host.Outcome State Fault Refusal :=
  .next (s.onDev fun d => d.viaPort port R.TNK_CMD fun d =>
    d.writeTnkCmd (BitVec.ofNat 32 (0x80000200 + idx.val + if engine then 64 else 0)))

/-- TNK_START_ACT (R654). -/
def execTnkStartAct (s : State) : Host.Outcome State Fault Refusal := .next (s.onDev fun d => d.tnkAct true)

/-- TNK_STOP_ACT (R657, R678). -/
def execTnkStopAct (s : State) : Host.Outcome State Fault Refusal := .next (s.onDev fun d => d.tnkAct false)

/-- TNK_KICK: a write of TNK_KICK_LO or TNK_KICK_HI. -/
def execTnkKick (port : Port) (hi : Bool) (w : Word) (s : State) : Host.Outcome State Fault Refusal :=
  .next (s.onDev fun d => d.viaPort port (if hi then R.TNK_KICK_HI else R.TNK_KICK_LO) fun d => d.writeKick hi w)

/-- TNK_RXWR: a write of an engine's TNK_RXWR (R645). -/
def execTnkRxwr (port : Port) (n : Fin 64) (w : Word) (s : State) : Host.Outcome State Fault Refusal :=
  .next (s.onDev fun d => d.viaPort port (R.TNK_RXWR n.val) fun d => d.writeRx n.val w)

/-- TNK_TXRD: a read of an engine's TNK_TXRD; a read-only port removes nothing (R263, R645). -/
def execTnkTxrd (port : Port) (n : Fin 64) (s : State) : Host.Outcome State Fault Refusal :=
  .next (s.onDev fun d => d.readVia port (R.TNK_TXRD n.val) true fun d =>
    let r := d.readTx n.val
    (if d.portRo port then d else r.1, r.2))

/-- GROUP_STALL: a group whose stall count has reached STALL is fenced (R669). -/
def execGroupStall (s : State) : Host.Outcome State Fault Refusal :=
  .next (s.onDev fun d => d.tnk.grp.foldl (fun d g =>
    if d.fld (F.TNK_SGCFG_STALL g) ≤ mget 0 d.tnk.stall g then
      let d := d.setReg R.TNK_SGSTAT (putBit (d.reg R.TNK_SGSTAT) (16 + g) true)
      let d := (d.grpMask g).foldl (fun d n => d.raiseOne (domTe n) Rsn.groupStall) d
      { d with tnk := { d.tnk with stall := mset 0 d.tnk.stall g 0 } }
    else d) d)

end Sys2Proof.Machine
end

