-- ==== Sys2Proof/Machine/HeadPort.lean ====
section
/-!
DEFINITION. Sys2Proof/Machine/HeadPort.lean: head ports: beat frames, status frames and reports, training, link loss, and
the command channel (12_head_ports.md, R567 to R627).
-/
namespace Sys2Proof.Machine
open Sys2Proof

/-! ## Beat frames (Table HPT-2, R572 to R580) -/

/-- A column to send: its job, slot, fire map bytes, group offsets in HPU, and MARK bits. -/
structure ColOut where
  hm : Nat
  slot : Nat
  fire : List Byte
  offs : List Nat
  mark : Nat
  blank : Bool := false
  rd : Option Nat := none
  deriving DecidableEq, Repr

/-- C: the cable delay of a port in whole nanoseconds, rounded up. -/
def cableNs (cable : Nat) : Nat := ceilDiv cable 128

/-- The lead of a port in beats, from HP_LATMAX and HP_CABLE (R579). -/
def leadOf (latmax cable : Nat) : Nat := ceilDiv (latmax + cableNs cable + 416) 480

/-- The lead of a port as active (R579). -/
def Dev.hpLead (d : Dev) (p : Nat) : Nat := leadOf (d.fld (F.HP_LATMAX_NS p)) (d.fld (F.HP_CABLE_CABLE p))

/-- The instant, in ns since beat 0, at which the first bit of the frame for execution beat b leaves a port: T_B - LAT - C, with
HP_LATMAX until a declaration is accepted (R577). The frames that follow the last TRAIN frame leave after its end, since no accepted
LAT lies above HP_LATMAX (R598). -/
def Dev.hpSendNs (d : Dev) (p b : Nat) : Nat :=
  b * 480 - ((d.hpSt p).lat.getD (d.fld (F.HP_LATMAX_NS p)) + cableNs (d.fld (F.HP_CABLE_CABLE p)))

/-- Bytes 2 to 91 of a frame. -/
structure FrameDef where
  ftype : Nat
  flags : Nat
  bn : Nat
  inc : Nat
  port : Nat
  pos : Nat
  fire : List Byte
  offs : List Nat
  slot : Nat := 0
  mark : Nat := 0
  cctl : Nat := 0
  caddr : Nat := 0
  cdata : Nat := 0
  deriving DecidableEq, Repr

/-- The bytes that the CRC covers (R574). -/
def FrameDef.body (f : FrameDef) : List Byte :=
  leBytes 1 (f.ftype + 16) ++ leBytes 1 f.flags ++ leBytes 4 f.bn ++ leBytes 1 f.inc ++ leBytes 1 f.port ++ leBytes 1 f.pos ++
  [0] ++ (List.range 32).map (fun i => f.fire.getD i 0) ++ (List.range 16).flatMap (fun g => leBytes 2 (f.offs.getD g 0)) ++
  leBytes 2 f.slot ++ leBytes 1 f.mark ++ [0] ++ leBytes 1 f.cctl ++ [0] ++ leBytes 2 f.caddr ++ leBytes 2 f.cdata ++
  [0, 0, 0, 0, 0, 0]

/-- The 96 bytes of a frame: SOF, body, CRC-32 (R573, R574). -/
def FrameDef.bytes (f : FrameDef) : List Byte := [0xBC, 0xBC] ++ f.body ++ wordBytes (crc32 f.body)

/-- The SAFE flag for execution beat b (R600). -/
def Dev.hpSafe (d : Dev) (p b : Nat) : Bool :=
  d.fenced (domHp p) || d.po.acting || d.clk.holdover || d.flag F.PWR_STAT_CLOSED_OUT ||
  (!d.inRun && !d.jobs.any (fun j => !j.st.terminal && j.plays.any (fun q => q.hp == p && !q.done))
    && !(d.hpSt p).frames.any (fun f => f.job.isSome && decide (b ≤ f.bn)))

/-- FLAGS without CMDV (Table HPT-2). -/
def Dev.hpFlags (d : Dev) (safe : Bool) : Nat :=
  (if safe then 1 else 0) + (if d.po.acting then 2 else 0) + (if d.clk.holdover then 4 else 0) + (if d.braced then 8 else 0)

/-- The link state of a port (Table HPT-5). -/
def Dev.lstate (d : Dev) (p : Nat) : Nat := d.fld (F.HP_STAT_LSTATE p)

/-- The link sends frames: ALIGN, DECLARE or UP (R572), in a state that runs its lanes (R605). -/
def Dev.hpSends (d : Dev) (p : Nat) : Bool :=
  d.hpFramed p && [2, 3, 4].contains (d.lstate p) && d.pwr.vcore && decide (d.pstate ≠ 3) && decide (d.pstate ≠ 4)

/-- Build the frame for execution beat b: TRAIN, FIRE for a column, or IDLE (R575, R580), with a waiting partner command
(R610). A TRAIN frame has no report to wait for. A beat has one frame: when a commit
shortens the lead, the frame already built for the beat stands (DEDUCED from R580). -/
def Dev.hpBuild (d : Dev) (p b : Nat) (col : Option ColOut) : Dev :=
  if !d.hpSends p || (d.hpSt p).frames.any (fun f => f.bn == b) then d else
  let h := d.hpSt p
  let up := d.lstate p == 4
  let safe := up && d.hpSafe p b
  let col := if up && !safe then col else none
  let newCmd := match h.cmd with
    | some c => if c.bn.isNone then some c else none
    | none => none
  let lm := d.fld (F.HP_LATMAX_NS p)
  let f : FrameDef :=
    { ftype := if !up then 1 else if col.isSome then 3 else 2,
      flags := d.hpFlags safe + (if newCmd.isSome then 16 else 0), bn := b, inc := (d.dom (domHp p)).inc, port := p, pos := d.pos,
      fire := if up then (match col with
          | some c => c.fire
          | none => []) else [if d.lstate p == 3 then 1 else 0, 0] ++ leBytes 2 lm,
      offs := match col with
        | some c => c.offs
        | none => [],
      slot := match col with
        | some c => c.slot
        | none => 0,
      mark := match col with
        | some c => c.mark
        | none => 0,
      cctl := match newCmd with
        | some c => c.cseq + 16 * c.cop
        | none => 0,
      caddr := match newCmd with
        | some c => c.addr
        | none => 0,
      cdata := match newCmd with
        | some c => c.data
        | none => 0 }
  let fs : FrameSt := { bn := b, bytes := f.bytes, job := col.map ColOut.hm, blank := (col.map ColOut.blank).getD false,
                        rd := col.bind ColOut.rd, safe := safe, reported := !up }
  let cmd := match newCmd with
    | some c => some { c with bn := some b }
    | none => h.cmd
  d.setHp p { h with frames := h.frames ++ [fs], cmd := cmd }

/-- ABORT on a port (R601, R602): the frames not yet sent become SAFE frames, and their columns are not placed (R619). A link in
training goes on with TRAIN frames (R575). -/
def Dev.hpAbort (d : Dev) (p : Nat) : Dev :=
  if !d.hpSends p then d else
  if d.lstate p != 4 then (d.emit (.abort p)).setFlag (F.HP_STAT_ABORTING p) true else
  let bns := ((d.hpSt p).frames.filter (fun f => !f.sent)).map FrameSt.bn
  let d := (d.hpCut p none).emit (.abort p)
  let d := d.setFlag (F.HP_STAT_ABORTING p) true
  let h := d.hpSt p
  let mk := fun b : Nat =>
    let f : FrameDef := { ftype := 2, flags := d.hpFlags true, bn := b, inc := (d.dom (domHp p)).inc, port := p, pos := d.pos,
                          fire := [], offs := [] }
    ({ bn := b, bytes := f.bytes, safe := true } : FrameSt)
  d.setHp p { h with frames := h.frames ++ bns.map mk }

/-! ## The command channel (R609 to R613, R646) -/

/-- Complete the outstanding command: HP_CRESP, and the reply word of an engine's command (R646); a fenced engine gets none
(R680). -/
def Dev.hpEnd (d : Dev) (p data cstat : Nat) : Dev :=
  let h := d.hpSt p
  match h.cmd with
  | none => d
  | some c =>
    let w := BitVec.ofNat 32 (data % 2 ^ 16 + c.cseq % 16 * 2 ^ 16 + cstat * 2 ^ 20)
    let d := (d.setReg (R.HP_CRESP p) w).setHp p { h with cmd := none, cancel := false, byEng := none }
    match h.byEng with
    | some n => if d.fenced (domTe n) then d else d.rxReply n w
    | none => d

/-- Refuse a command: only CSTAT is written; a refused engine command has its reply word too (R646). -/
def Dev.hpRefuse (d : Dev) (p cstat : Nat) (eng : Option Nat) : Dev :=
  let d := d.setFld (F.HP_CRESP_CSTAT p) cstat
  match eng with
  | some n => d.rxReply n (BitVec.ofNat 32 (cstat * 2 ^ 20))
  | none => d

/-- The owner of a port's command channel: none for the host (HP_CMDOWN). -/
def Dev.hpOwner (d : Dev) (p : Nat) : Option Nat :=
  if d.flag (F.HP_CMDOWN_OWNER p) then some (d.fld (F.HP_CMDOWN_ENGINE p)) else none

/-- Issue a command (R609, R610, R800). The first CSEQ after a reset is 1 (DESIGN CHOICE: the spec gives the first none;
log entry 12); of two grounds for a refusal the first of parked, owner, COP, outstanding is taken (log entry 12). -/
def Dev.hpIssue (d : Dev) (p cop addr data : Nat) (eng : Option Nat) : Dev :=
  let h := d.hpSt p
  if (d.dom (domHp p)).causes.contains Rsn.domainParked then d.hpRefuse p 2 eng
  else if d.hpOwner p ≠ eng then d.hpRefuse p 6 eng
  else if !(cop == 1 || cop == 2 || decide (8 ≤ cop)) then d.hpRefuse p 7 eng
  else if h.cmd.isSome then d.hpRefuse p 6 eng
  else
    let q := (h.cseq + 1) % 16
    let c : HpCmd := { cseq := q, cop := cop, addr := addr, data := data }
    let d := d.setHp p { h with cmd := some c, cseq := q, cancel := false, byEng := eng }
    d.setReg (R.HP_CRESP p) (BitVec.ofNat 32 (q * 2 ^ 16 + 2 ^ 31))

/-- A write of HP_CMD (R610). -/
def Dev.writeHpCmd (d : Dev) (p : Nat) (w : Word) : Dev :=
  if bitOf w 31 then d.hpIssue p (slice w 3 0) (d.fld (F.HP_CADDR_COMMAND p)) (d.fld (F.HP_CDATA_COMMAND p)) none else d

/-- At a beat boundary: a cancelled command ends (R613), and frames too old to be reported are forgotten. -/
def Dev.hpEdge (d : Dev) (p : Nat) : Dev :=
  let d := if (d.hpSt p).cancel then d.hpEnd p 0 5 else d
  let h := d.hpSt p
  let h := { h with frames := h.frames.filter (fun f => decide (d.now ≤ f.bn + 4) || (f.job.isSome && !f.reported)),
                    errs := if d.now % 65536 = 0 then 0 else h.errs }
  (d.setHp p h).setFlag (F.HP_STAT_ABORTING p) false

/-- The lease of an engine that owns a command channel lapses: its outstanding command is cancelled (R613). -/
def Dev.hpLapse (d : Dev) (n : Nat) : Dev :=
  (List.range 16).foldl (fun d p => let h := d.hpSt p
    if h.byEng = some n then d.setHp p { h with cancel := true } else d) d

/-! ## Reports (R588 to R593, R606) -/

/-- An error event; above HP_ERRTHR of them in the window of 65 536 beats fence the port. Windows begin at multiples of
65 536 (DESIGN CHOICE: the spec says fixed windows and not where they begin; log entry 13). -/
def Dev.hpError (d : Dev) (p : Nat) : Dev :=
  let h := d.hpSt p
  let d := d.setHp p { h with errs := h.errs + 1 }
  if d.fld (F.HP_ERRTHR_ERROR p) < h.errs + 1 then d.raiseCause (domHp p) Rsn.hpErrRate else d

/-- A frame's report is decided: mark it so. -/
def Dev.hpMark (d : Dev) (p b : Nat) : Dev :=
  let h := d.hpSt p
  d.setHp p { h with frames := h.frames.map (fun f => if f.bn = b then { f with reported := true } else f) }

/-- A column's report is decided: placed, or not (R590, R592). -/
def Dev.hpColumn (d : Dev) (hm b : Nat) (placed : Bool) : Dev :=
  let d := d.modJob hm (fun j =>
    { j with colsOpen := j.colsOpen - 1, colsFired := if placed then j.colsFired + 1 else j.colsFired,
             lastBn := if placed then max j.lastBn b else j.lastBn,
             st := if placed && j.st == .bound then .striking else j.st,
             flaw := if placed then j.flaw else some (j.flaw.getD Rsn.partHeadlink) })
  d.settle hm

/-- A good report of a frame (Table HPT-4, R592, R621). -/
def Dev.hpReport (d : Dev) (p : Nat) (f : FrameSt) (fres : Nat) : Dev :=
  let d := d.hpMark p f.bn
  let d := if fres = 0 then d.addWrap (F.HP_FIRECNT_FRAMES p) 1 else d
  let bad := fres == 2 || fres == 3 || decide (5 ≤ fres) || (f.job.isNone && fres == 0)
  let d := if bad then (d.addSat (F.HP_ERRCNT_ERROR p) 1).hpError p else d
  match f.job with
  | some hm => d.hpColumn hm f.bn (fres == 0)
  | none => d

/-- A status frame received on a port whose link is UP. A report gathered later than beat B + 3 is missing (R588), and places
nothing. -/
def Dev.hpStatus (d : Dev) (p : Nat) (bs : List Byte) : Dev :=
  let b := fun k => (bs.getD k 0).toNat
  let body := (bs.drop 1).take 9
  if crc16 body ≠ BitVec.ofNat 16 (b 10 + 256 * b 11) then (d.addSat (F.HP_ERRCNT_CRC16 p) 1).hpError p
  else if b 5 ≠ (d.dom (domHp p)).inc then
    (d.addSat (F.HP_ERRCNT_DISCARDED p) 1).addSat F.FEN_STALECNT_MESSAGES 1
  else
    let fseq := b 2 + 256 * b 3
    let fres := b 4 % 16
    let d := d.setReg (R.HP_LASTRPT p) (BitVec.ofNat 32 (fseq + fres * 2 ^ 16 + b 9 * 2 ^ 24))
    let h := d.hpSt p
    let d := match h.frames.find? (fun f => f.bn % 65536 == fseq && decide (f.bn ≤ d.now) && decide (d.now ≤ f.bn + 3) && f.sent) with
      | some f => if f.reported then (d.addSat (F.HP_ERRCNT_DISCARDED p) 1).hpError p else d.hpReport p f fres
      | none => (d.addSat (F.HP_ERRCNT_DISCARDED p) 1).hpError p
    let d := if (b 1).testBit 5 then d.setReg R.HP_EVT (putBit (d.reg R.HP_EVT) (16 + p) true) else d
    let d := match (d.hpSt p).cmd with
      | some c => if (b 1).testBit 7 && c.bn.isSome && decide (b 6 % 16 = c.cseq) then d.hpEnd p (b 7 + 256 * b 8) (b 6 / 16) else d
      | none => d
    if (b 1).testBit 4 then d.raiseCause (domHp p) Rsn.hpPartnerFault else d

/-- Training or declaration fails: fence the port and turn its drivers off (R595, Table HPT-7). -/
def Dev.hpFail (d : Dev) (p : Nat) (r : Reason) : Dev := ((d.hpCut p (some Rsn.partHeadlink)).raiseCause (domHp p) r).hpLink p 7

/-- HP_CFG.MODE of a port changes at a commit (R594, R617): into FRAMED it trains; out of it the link drops. -/
def Dev.hpMode (d : Dev) (p old : Nat) : Dev :=
  if !d.hpEnabled p then d else
  let m := d.fld (F.HP_CFG_MODE p)
  if m = old then d
  else
    let d := d.hpCut p (some Rsn.partHeadlink)
    let h := d.hpSt p
    let d := d.setHp p { h with cancel := h.cmd.isSome, lat := none }
    if m = 1 then d.hpTrain p else if m = 2 then d.hpLink p 5 else d.hpLink p 0

/-! ## Meanings -/

/-- HEAD_FRAME_SEND: the oldest frame that waits leaves the port at its transmit instant, once the beat of that instant has begun
(R572 to R577). -/
def execHeadFrameSend (p : Fin 16) (s : State) : Host.Outcome State Fault Refusal :=
  .next (s.onDev fun d =>
    let h := d.hpSt p.val
    match h.frames.find? (fun f => !f.sent) with
    | some f => if d.hpSends p.val && decide (d.hpSendNs p.val f.bn / 480 ≤ d.now) then
        (d.setHp p.val { h with frames := h.frames.map (fun x => if x.bn = f.bn then { x with sent := true } else x) }).emit
          (.frame p.val (d.hpSendNs p.val f.bn) f.bytes)
      else d
    | none => d)

/-- HEAD_STATUS_FRAME: a status frame of the partner, bytes 0 to 11 (R586 to R592, R608, R612, R621, R625). -/
def execHeadStatusFrame (p : Fin 16) (bytes : List Byte) (s : State) : Host.Outcome State Fault Refusal :=
  .next (s.onDev fun d => if d.hpSends p.val && d.lstate p.val == 4 then d.hpStatus p.val bytes else d)

/-- HEAD_REPORT_MISSING: the oldest frame whose report was not gathered by beat B + 3 (R588, R593). -/
def execHeadReportMissing (p : Fin 16) (s : State) : Host.Outcome State Fault Refusal :=
  .next (s.onDev fun d =>
    match (d.hpSt p.val).frames.find? (fun f => !f.reported && decide (f.bn + 3 ≤ d.now)) with
    | none => d
    | some f =>
      let d := (d.hpMark p.val f.bn).addSat (F.HP_ERRCNT_MISSING p.val) 1
      match f.job with
      | some hm => (d.raiseCause (domHp p.val) Rsn.hpStatusLost).hpColumn hm f.bn true
      | none => d.hpError p.val)

/-- HEAD_LOCK_PATTERN: 256 LOCK-pattern symbols on ST (Table HPT-5). -/
def execHeadLockPattern (p : Fin 16) (s : State) : Host.Outcome State Fault Refusal :=
  .next (s.onDev fun d => if d.hpFramed p.val && d.lstate p.val == 1 then d.hpLink p.val 2 else d)

/-- HEAD_ALIGN_DONE: 16 good status frames with PSTATE 1 (Table HPT-5, R596). -/
def execHeadAlignDone (p : Fin 16) (s : State) : Host.Outcome State Fault Refusal :=
  .next (s.onDev fun d => if d.hpFramed p.val && d.lstate p.val == 2 then d.hpLink p.val 3 else d)

/-- HEAD_DECLARATION: two identical cycles of the declaration words; the link goes UP, or the port is fenced (R597, R598,
R607, R622, R807). -/
def execHeadDeclaration (p : Fin 16) (words : List (BitVec 16)) (s : State) : Host.Outcome State Fault Refusal :=
  .next (s.onDev fun d =>
    if !(d.hpFramed p.val && d.lstate p.val == 3) then d else
    let w := fun k => (words.getD k 0).toNat
    let d := (List.range 4).foldl (fun d k => d.setNum (R.HP_DECL p.val k) (w (2 * k) + 2 ^ 16 * w (2 * k + 1))) d
    let ok := fun (want got : Nat) => want == 0 || want == got
    let ch := w 3 % 512
    if !(ok (d.fld (F.HP_EXPECT0_VENDOR p.val)) (w 0) && ok (d.fld (F.HP_EXPECT0_PRODUCT p.val)) (w 1) &&
        decide (d.fld (F.HP_EXPECT1_MINCH p.val) ≤ ch) && decide (ch ≤ 256) &&
        decide (d.fld (F.HP_EXPECT1_MAXCOL p.val) ≤ w 5) && w 7 % 256 == 1) then
      d.hpFail p.val Rsn.hpDeclMismatch
    else if w 2 < 480 ∨ d.fld (F.HP_LATMAX_NS p.val) < w 2 then d.hpFail p.val Rsn.hpLatRange
    else
      let d := d.setHp p.val { d.hpSt p.val with lat := some (w 2), fails := 0 }
      (d.hpLink p.val 4).hpUnfenced p.val)

/-- HEAD_TRAIN_TIMEOUT: a training state has lasted its time (R595, Table HPT-5). -/
def execHeadTrainTimeout (p : Fin 16) (s : State) : Host.Outcome State Fault Refusal :=
  .next (s.onDev fun d =>
    let h := d.hpSt p.val
    let l := d.lstate p.val
    let lim := if l = 1 then 4096 else 512
    if d.hpFramed p.val && (l == 1 || l == 2 || l == 3) && decide (h.since + lim ≤ d.now) then
      let d := d.setHp p.val { h with fails := h.fails + 1 }
      if d.fld (F.HP_CFG_RETRY p.val) ≤ h.fails + 1 then d.hpFail p.val Rsn.hpTrainFail else d.hpAttempt p.val
    else d)

/-- HEAD_AUTOTRAIN: a new series of attempts every 65 536 beats in FAULT (R595). -/
def execHeadAutotrain (p : Fin 16) (s : State) : Host.Outcome State Fault Refusal :=
  .next (s.onDev fun d =>
    if d.flag (F.HP_CFG_AUTOTRAIN p.val) && d.lstate p.val == 7 && decide ((d.hpSt p.val).since + 65536 ≤ d.now) then
      d.hpTrain p.val
    else d)

/-- HEAD_LINK_LOSS: ST has lost symbol lock for 16 beats while UP (R606, Table HPT-7). -/
def execHeadLinkLoss (p : Fin 16) (s : State) : Host.Outcome State Fault Refusal :=
  .next (s.onDev fun d =>
    if d.hpFramed p.val && d.lstate p.val == 4 then
      let d := d.raiseCause (domHp p.val) Rsn.hpLinkLoss
      if d.flag (F.HP_CFG_AUTOTRAIN p.val) then d.hpTrain p.val
      else (d.hpCut p.val (some Rsn.partHeadlink)).hpLink p.val 7
    else d)

/-- HP_CMD_WRITE: HP_CMD with GO and COP 1 (R610). -/
def execHpCmdWrite (port : Port) (p : Fin 16) (s : State) : Host.Outcome State Fault Refusal :=
  .next (s.onDev fun d => d.viaPort port (R.HP_CMD p.val) fun d => d.writeHpCmd p.val 0x80000001)

/-- HP_CMD_READ: HP_CMD with GO and COP 2 (R610). -/
def execHpCmdRead (port : Port) (p : Fin 16) (s : State) : Host.Outcome State Fault Refusal :=
  .next (s.onDev fun d => d.viaPort port (R.HP_CMD p.val) fun d => d.writeHpCmd p.val 0x80000002)

/-- HP_CMD_PARTNER: HP_CMD with GO and another COP; only 8 to 15 are partner-defined (R610). -/
def execHpCmdPartner (port : Port) (p : Fin 16) (cop : BitVec 4) (s : State) : Host.Outcome State Fault Refusal :=
  .next (s.onDev fun d => d.viaPort port (R.HP_CMD p.val) fun d => d.writeHpCmd p.val (0x80000000 ||| cop.setWidth 32))

/-- HP_CMD_TIMEOUT: no reply within 64 beats of the frame's execution beat (R612). -/
def execHpCmdTimeout (p : Fin 16) (s : State) : Host.Outcome State Fault Refusal :=
  .next (s.onDev fun d =>
    match (d.hpSt p.val).cmd with
    | some c => match c.bn with
      | some b => if b + 64 ≤ d.now then d.hpEnd p.val 0 4 else d
      | none => d
    | none => d)

/-- HP_RETRAIN: HP_TRAIN written with RETRAIN (R594). -/
def execHpRetrain (port : Port) (p : Fin 16) (s : State) : Host.Outcome State Fault Refusal :=
  .next (s.onDev fun d => d.viaPort port (R.HP_TRAIN p.val) fun d => d.hpTrain p.val)

/-- TNK_CMD_CHANNEL_ISSUE: two words in the TX queue of an engine with TXDST = 1 are issued as a command when none is
outstanding (R646). -/
def execTnkCmdChannelIssue (n : Fin 64) (s : State) : Host.Outcome State Fault Refusal :=
  .next (s.onDev fun d =>
    let p := d.fld (F.TNK_CFG_CMDPORT n.val)
    let e := d.eng n.val
    match e.tx.items with
    | (w0, _) :: (w1, _) :: r =>
      if d.flag (F.TNK_CFG_TXDST n.val) && (d.hpSt p).cmd.isNone && !d.fenced (domTe n.val) then
        let d := d.setEng n.val { e with tx := { items := r, popCyc := d.cyc, pops := 2 } }
        d.hpIssue p (slice w0 19 16) (slice w0 15 0) (slice w1 15 0) (some n.val)
      else d
    | _ => d)

end Sys2Proof.Machine
end

