-- ==== Sys2Proof/Machine/Outputs.lean ====
section
/-!
DEFINITION. Sys2Proof/Machine/Outputs.lean: precision outputs: edge programs, lanes, edge placement, PO_MAXACT, the interlock,
and marker actions (10_precision_outputs.md, R480 to R517; R541, R542).
-/
namespace Sys2Proof.Machine
open Sys2Proof

/-! ## Edge programs (Table POU-2 to Table POU-4) -/

/-- Three words of an entry read through `rd` as one lane (Table POU-3), with its edges (Table POU-4). -/
def laneOf (rd : Nat → Word) (l : Nat) : LaneRun :=
  let w0 := rd (R.PO_LANE l 0)
  let first := slice w0 22 12
  let edge := fun e : Nat =>
    ({ lvl := bitOf (rd (R.PO_EDGE e 0)) 0,
       time := (rd (R.PO_EDGE e 1)).toNat + 2 ^ 32 * slice (rd (R.PO_EDGE e 2)) 15 0,
       dist := (rd (R.PO_EDGE e 3)).toNat } : EdgeDef)
  let mode := slice w0 6 5
  { out := slice w0 4 0, mode := mode, edges := (List.range (slice w0 11 8 + 1)).map (fun i => edge (first + i)),
    count := if mode = 0 then 1 else slice (rd (R.PO_LANE l 1)) 15 0,
    period := if mode = 0 then 0 else (rd (R.PO_LANE l 2)).toNat + 2 ^ 32 * slice (rd (R.PO_LANE l 3)) 7 0,
    geng := slice w0 28 23, gbit := slice w0 31 29 }

/-- The lanes of a program (Table POU-2). -/
def progLanes (rd : Nat → Word) (p : Nat) : List LaneRun :=
  let w := rd (R.PO_PROG p)
  (List.range (slice w 12 9)).map (fun k => laneOf rd (slice w 8 0 + k))

/-- A program may be named by a waybill. -/
def progValid (rd : Nat → Word) (p : Nat) : Bool := bitOf (rd (R.PO_PROG p)) 31

/-! ## Outputs -/

/-- A lane of a job takes or releases its output (R501); `b` is the first beat boundary at or after the edge, from which the limit
of PO_MAXACT counts (R502). -/
def Dev.outHold (d : Dev) (n hm lane : Nat) (on : Bool) (b : Nat) : Dev :=
  let was := d.outPin n
  let o := d.outSt n
  let hs := if on then (if o.holders.contains (hm, lane) then o.holders else o.holders ++ [(hm, lane)])
    else o.holders.filter (fun h => h != (hm, lane))
  let o := { o with holders := hs, since := if hs.isEmpty then none else some (o.since.getD b), capped := o.capped && !hs.isEmpty }
  (d.setOut n o).outTrans n was

/-! ## Where an edge lands (R486 to R491) -/

/-- The reach instant of a distance term: the origin for 0, else the instant fixed for it (R486, R488). -/
def Job.reachAt (j : Job) (dist : Nat) : Option Nat :=
  if dist = 0 then (if j.resolved then j.origin else none)
  else (j.reach.find? (fun r => r.1 == dist)).map (fun r => r.2)

/-- The instant of edge e in repetition k of a lane, trim included (R486, R492, R494). -/
def Job.edgeAt (j : Job) (l : LaneRun) (trim k : Nat) (e : EdgeDef) : Option Nat :=
  (j.reachAt e.dist).map (fun r => r + e.time + k * l.period + trim)

/-- Replace lane i of a job. -/
def Job.setLane (j : Job) (i : Nat) (l : LaneRun) : Job := { j with lanes := j.lanes.set i l }

/-- Move a lane to the next edge or repetition. -/
def LaneRun.advance (l : LaneRun) : LaneRun :=
  if l.idx + 1 < l.edges.length then { l with idx := l.idx + 1 } else { l with idx := 0, rep := l.rep + 1, gated := false }

/-- Load one edge of lane i into its output's queue, at an instant (R490, R500). -/
def Dev.loadEdge (d : Dev) (hm i : Nat) (l : LaneRun) (e : EdgeDef) (want t : Nat) : Dev :=
  let d := d.modJob hm (fun j => { j.setLane i { l.advance with last := t, floor := 0 } with
    edgesOpen := j.edgesOpen + 1, endAt := max j.endAt t })
  let d := { d with po := { d.po with queue := d.po.queue ++ [{ out := l.out, inst := t, lvl := e.lvl, hm := hm, lane := i }] } }
  if want = t then d else (d.addSat (F.PO_ADJCNT_EDGES l.out) 1).setFlag (F.PO_STAT_ADJ l.out) true

/-- An edge of lane i is overtaken in this beat (R491): no further edge to the active level, the output is released at CI 0
of the next beat, and the job fails. -/
def Dev.overtake (d : Dev) (hm i : Nat) (l : LaneRun) : Dev :=
  let t := (d.now + 1) * fsPerBeat
  let d := d.modJob hm (fun j => j.setLane i { l with stopped := true })
  let d := if l.holding then
      let d := d.modJob hm (fun j => { j with edgesOpen := j.edgesOpen + 1 })
      { d with po := { d.po with queue := d.po.queue ++ [{ out := l.out, inst := t, lvl := false, hm := hm, lane := i }] } }
    else d
  d.flawJob hm Rsn.partOvertaken

/-- Load what lane i has for the next beat, in the Prepare phase of the current one (R490 to R495, R500); `k` edges of the
lane are already loaded for that beat. -/
def Dev.laneLoad : Nat → Dev → Nat → Nat → Nat → Dev
  | 0, d, _, _, _ => d
  | fuel + 1, d, hm, i, k =>
    match d.job? hm with
    | none => d
    | some j =>
      match j.lanes[i]? with
      | none => d
      | some l =>
        if l.stopped || decide (l.count ≤ l.rep) then d else
        match l.edges[l.idx]? with
        | none => d
        | some e =>
          match j.edgeAt l (d.fld (F.PO_TRIM_TRIM l.out)) l.rep e with
          | none => d
          | some want =>
            let t := max want (max (if l.last = 0 then 0 else l.last + 1229) l.floor)
            if d.now + 1 < beatOf t then d
            else if l.mode = 2 ∧ l.idx = 0 ∧ l.gated = false then
              if (d.eng l.geng).outv.testBit l.gbit then
                laneLoad fuel (d.modJob hm (fun j => j.setLane i { l with gated := true })) hm i k
              else
                let last := (l.edges.getLast?).bind (fun e => j.edgeAt l (d.fld (F.PO_TRIM_TRIM l.out)) l.rep e)
                let d := d.modJob hm (fun j => { j.setLane i { l with rep := l.rep + 1 } with endAt := max j.endAt (last.getD 0) })
                laneLoad fuel (d.addSat (F.PO_GATESKIP_REPETITIONS l.out) 1) hm i k
            else if beatOf t ≤ d.now then d.overtake hm i l
            else if 4 ≤ k then d.modJob hm (fun j => j.setLane i { l with floor := (d.now + 2) * fsPerBeat })
            else laneLoad fuel (d.loadEdge hm i l e want t) hm i (k + 1)

/-- Load the lanes of a job for the next beat. -/
def Dev.lanesLoad (d : Dev) (j : Job) : Dev :=
  (List.range j.lanes.length).foldl (fun d i => Dev.laneLoad 64 d j.hm i 0) d

/-- A loaded edge passes at the pin: it is placed, unless the interlock acts (R507) or its group is held safe (R485). -/
def Dev.placeEdge (d : Dev) (l : Loaded) : Dev :=
  let d := { d with po := { d.po with queue := d.po.queue.filter (fun x => x != l) } }
  if d.po.ilkLow || d.po.acting || (d.outSt l.out).safe then
    d.modJob l.hm (fun j => { j with edgesOpen := j.edgesOpen - 1 })
  else
    let d := d.modJob l.hm (fun j =>
      { j with edgesOpen := j.edgesOpen - 1, edges := j.edges + 1, lastBn := max j.lastBn (beatOf l.inst),
               st := if j.st == .bound then .striking else j.st,
               lanes := j.lanes.modify l.lane (fun r => { r with holding := l.lvl }) })
    (d.outHold l.out l.hm l.lane l.lvl (beatOf (l.inst + fsPerBeat - 1))).settle l.hm

/-! ## Levels by power state (R483, R484) -/

/-- In RUN every enabled output of an unfenced group leaves its safe level (R483, R808). -/
def Dev.outsRun (d : Dev) : Dev := (List.range 32).foldl (fun d n =>
  if (d.outSt n).safe && !d.fenced (domPog (n / 8)) then (d.setOut n { d.outSt n with safe := false }).outTrans n (d.outPin n)
  else d) d

/-- Every output goes to its safe level at once: the end of a close-out, a power state below READY. -/
def Dev.outsSafe (d : Dev) : Dev := (List.range 32).foldl (fun d n =>
  (d.setOut n { d.outSt n with safe := true }).outTrans n (d.outPin n)) d

/-- At an Edge phase the outputs of a fenced group go to their safe levels, and its loaded edges are dropped (R485). -/
def Dev.outsFence (d : Dev) : Dev := (List.range 32).foldl (fun d n =>
  if (d.outSt n).safe || !d.fenced (domPog (n / 8)) then d else
  let was := d.outPin n
  let lost := d.po.queue.filter (fun l => l.out == n)
  let d := lost.foldl (fun d l => d.modJob l.hm (fun j => { j with edgesOpen := j.edgesOpen - 1 }))
    { d with po := { d.po with queue := d.po.queue.filter (fun l => l.out != n) } }
  (d.setOut n { d.outSt n with safe := true }).outTrans n was) d

/-- Outside RUN an output goes safe once no non-terminal job has a lane on it (R484). -/
def Dev.outsDrain (d : Dev) : Dev :=
  if d.inRun then d else (List.range 32).foldl (fun d n =>
    if (d.outSt n).safe || d.jobs.any (fun j => j.active && j.lanes.any (fun l => l.out == n)) then d
    else (d.setOut n { d.outSt n with safe := true }).outTrans n (d.outPin n)) d

/-! ## Markers (R541, R542) -/

/-- Put a marker action in line, its instant rounded to the HPU grid (R64). -/
def Dev.markAt (d : Dev) (marker t hm : Nat) (set : Bool) : Dev :=
  { d with sp := { d.sp with acts := d.sp.acts ++ [{ marker := marker, inst := (t + 4) / 8 * 8, set := set, hm := hm }] } }

/-- Drive a marker. -/
def Dev.setMark (d : Dev) (marker hm : Nat) (on : Bool) : Dev :=
  let was := d.sp.marks.any (fun m => m.1 == marker)
  let rest := d.sp.marks.filter (fun m => m.1 != marker)
  let d := { d with sp := { d.sp with marks := if on then rest ++ [(marker, hm)] else rest } }
  if was = on then d else d.emit (.marker marker on)

/-- A marker is at its safe level: under the interlock, after a close-out, and outside RUN unless a bound or striking job of this device
plays on the player that owns the marker (Tables STR-1 and PWR-1, R98, R178, R504; as R484 has it for outputs, DEDUCED, log entry 134). -/
def Dev.markSafe (d : Dev) (marker : Nat) : Bool :=
  d.po.ilkLow || d.po.acting || d.flag F.PWR_STAT_CLOSED_OUT ||
  (!d.inRun && !d.jobs.any (fun j => j.active && j.exec == d.pos && j.plays.any (fun p => (d.fld (F.SP_CFG_MKOWN p.sp)).testBit marker)))

/-- The level at the pin of a marker, active high: its safe level is the level of SAFEA (R98, R99). -/
def Dev.markPin (d : Dev) (marker : Nat) : Option Bool :=
  if !d.boot.strapsValid || d.boot.offA || !d.bankOn (marker / 8) then none
  else if d.markSafe marker then (match d.fld F.SUP_STRAP_SAFEA with
    | 0 => some false
    | 1 => some true
    | _ => none)
  else some (d.sp.marks.any (fun m => m.1 == marker))

/-- Clear, at an Edge phase, the markers of jobs whose player part has ended early (R542): the job has ended, or the part of the player
that owns the marker has, and no action of the job waits for the marker. -/
def Dev.marksEdge (d : Dev) : Dev :=
  (d.sp.marks.filter (fun m => match d.job? m.2 with
    | some j => !j.active || (!j.plays.any (fun p => !p.done && (d.fld (F.SP_CFG_MKOWN p.sp)).testBit m.1) &&
        !d.sp.acts.any (fun a => a.marker == m.1 && a.hm == m.2))
    | none => true)).foldl (fun d m => d.setMark m.1 m.2 false) d

/-! ## The interlock (R504 to R508) -/

/-- ILK_L falls: outputs, markers and GIO to their safe levels, CKOUT under R250, ABORT on every head port (R601). The
interlock beat is the next one; while it already acts none is declared again (R513). -/
def Dev.ilkFall (d : Dev) : Dev :=
  let was := (List.range 32).map (fun n => (n, d.outPin n))
  let first := !d.po.acting
  let d := { d with po := { d.po with ilkLow := true, acting := true, beatDue := d.po.beatDue || first } }
  let d := was.foldl (fun d x => d.outTrans x.1 x.2) d
  let d := d.asIlk
  let d := ((d.setFlag F.PO_ILKSTAT_ILK_L true).setFlag F.PO_ILKSTAT_ACTING true).setFlag F.PO_ILKSTAT_RELEASING false
  if first then (List.range 16).foldl (fun d p => d.hpAbort p) d else d

/-- The interlock stops acting (R505). -/
def Dev.ilkEnd (d : Dev) : Dev :=
  let was := (List.range 32).map (fun n => (n, d.outPin n))
  let d := { d with po := { d.po with ilkLow := false, acting := false } }
  let d := was.foldl (fun d x => d.outTrans x.1 x.2) d
  ((d.setFlag F.PO_ILKSTAT_ILK_L false).setFlag F.PO_ILKSTAT_ACTING false).setFlag F.PO_ILKSTAT_RELEASING false

/-- The interlock beat: every bound job of this device ends (R506). -/
def Dev.ilkBeat (d : Dev) : Dev :=
  if d.po.beatDue then
    let d := { d with po := { d.po with beatDue := false } }.addSat F.PO_ILKCNT_INTERLOCK 1
    let hms := (d.jobs.filter (fun j => j.active && j.exec == d.pos)).map (fun j => (j.hm, j.placed || j.colsPlayed != 0))
    hms.foldl (fun d h => d.endAs h.1 h.2 Rsn.expInterlock Rsn.partInterlock) d
  else d

/-! ## Meanings -/

/-- PO_EDGE_INSTANT: the earliest loaded edge of an output passes at the pin (R501, R507). -/
def execPoEdgeInstant (n : Fin 32) (s : State) : Host.Outcome State Fault Refusal :=
  .next (s.onDev fun d =>
    let q := (d.po.queue.filter (fun l => l.out == n.val)).mergeSort (fun a b => decide (a.inst ≤ b.inst))
    match q with
    | l :: _ => if beatOf l.inst ≤ d.now then d.placeEdge l else d
    | [] => d)

/-- MAXACT_LIMIT: an output has been active for PO_MAXACT beats at an Edge phase (R502, R515). -/
def execMaxactLimit (n : Fin 32) (s : State) : Host.Outcome State Fault Refusal :=
  .next (s.onDev fun d =>
    let o := d.outSt n.val
    let lim := d.fld (F.PO_MAXACT_MAXIMUM n.val)
    match o.since with
    | some b =>
      if lim ≠ 0 ∧ b + lim ≤ d.now ∧ d.outActive n.val then
        let was := d.outPin n.val
        let d := d.setOut n.val { o with capped := true }
        let d := (d.outTrans n.val was).setFlag (F.PO_STAT_MAXACT n.val) true
        (o.holders.map (fun h => h.1)).eraseDups.foldl (fun d hm => match d.job? hm with
          | some j => d.endJob hm { typ := 5, reason := Rsn.partMaxact, bn := j.lastBn, d0 := j.partDetail }
          | none => d) d
      else d
    | none => d)

/-- MARKER_ACTION: the earliest action waiting for a marker acts; under the interlock the pin stays safe (R504, R541). -/
def execMarkerAction (n : Fin 16) (s : State) : Host.Outcome State Fault Refusal :=
  .next (s.onDev fun d =>
    let q := (d.sp.acts.filter (fun a => a.marker == n.val)).mergeSort (fun a b => decide (a.inst ≤ b.inst))
    match q with
    | a :: _ =>
      if beatOf a.inst ≤ d.now then
        let d := { d with sp := { d.sp with acts := d.sp.acts.erase a } }
        if d.po.ilkLow || d.po.acting then d else d.setMark a.marker a.hm a.set
      else d
    | [] => d)

/-- ILK_ASSERT: ILK_L goes low (R504, R601). -/
def execIlkAssert (s : State) : Host.Outcome State Fault Refusal := .next (s.onDev Dev.ilkFall)

/-- INTERLOCK_BEAT (R506). -/
def execInterlockBeat (s : State) : Host.Outcome State Fault Refusal := .next (s.onDev Dev.ilkBeat)

/-- ILK_RELEASE: ILK_L has been high for a number of consecutive beats; from PO_ILKREL of them on the interlock ends, before
that it is releasing (R505, R513). The restart of R250 counts from the rise of the pin. Triggers from before the end bind no job (R478). -/
def execIlkRelease (beats : Nat) (s : State) : Host.Outcome State Fault Refusal :=
  .next (s.onDev fun d =>
    if !d.po.acting then d else
    let d := if d.po.ilkLow then { d with po := { d.po with ilkLow := false } }.asIlkRelease beats else d
    if d.fld F.PO_ILKREL_RELEASE ≤ beats then { d.ilkEnd with pwr := { d.pwr with bindBn := d.now } }
    else (d.setFlag F.PO_ILKSTAT_ILK_L false).setFlag F.PO_ILKSTAT_RELEASING true)

end Sys2Proof.Machine
end

