-- ==== Sys2Proof/Machine/Players.lean ====
section
/-!
DEFINITION. Sys2Proof/Machine/Players.lean: the objects of the segment store, step programs, column clocks, splicing, streams,
tallies, store writes and loads (11_segment_players.md, R518 to R566).
-/
namespace Sys2Proof.Machine
open Sys2Proof

/-! ## Objects in the segment store (Table SPL-1 to Table SPL-3) -/

/-- A step entry (Table SPL-3). -/
structure StepDef where
  seg : Nat
  times : Nat
  adv : Nat
  src : Nat
  last : Bool
  waitAct : Bool
  waitMax : Nat
  mksel : Nat
  mkStart : Nat
  mkEnd : Nat
  fm : Nat
  deriving DecidableEq, Repr

/-- Step i of the table at a store unit. -/
def stepAt (m : List Host.Cell) (base i : Nat) : StepDef :=
  let w := fun k => storeWord m (base * 512 + 16 * i + 4 * k)
  { seg := slice (w 0) 11 0, times := slice (w 0) 31 16, adv := slice (w 1) 2 0, src := slice (w 1) 8 3, last := bitOf (w 1) 15,
    waitAct := bitOf (w 1) 16, waitMax := slice (w 2) 23 0, mksel := slice (w 3) 3 0, mkStart := slice (w 3) 5 4,
    mkEnd := slice (w 3) 7 6, fm := slice (w 3) 11 8 }

/-- The steps of the program that begins at step i (R526), and whether it ends within the table. -/
def stepRun (m : List Host.Cell) (base : Nat) : Nat → Nat → List (Nat × StepDef) × Bool
  | 0, _ => ([], false)
  | fuel + 1, i =>
    if 1024 ≤ i then ([], false)
    else
      let s := stepAt m base i
      if s.last then ([(i, s)], true)
      else let r := stepRun m base fuel (i + 1); ((i, s) :: r.1, r.2)

/-- A segment descriptor (Table SPL-2). -/
structure SegDef where
  base : Nat
  offs : Bool
  ngran : Nat
  stream : Bool
  valid : Bool
  firstSlot : Nat
  nslot : Nat
  deriving DecidableEq, Repr

/-- Descriptor s of the table at a store unit. -/
def segAt (m : List Host.Cell) (tab s : Nat) : SegDef :=
  let w0 := storeWord m (tab * 512 + 8 * s)
  let w1 := storeWord m (tab * 512 + 8 * s + 4)
  { base := slice w0 14 0, offs := bitOf w0 15, ngran := slice w0 27 16, stream := bitOf w0 30, valid := bitOf w0 31,
    firstSlot := slice w1 9 0, nslot := slice w1 13 10 }

/-- Bytes of a column. -/
def SegDef.colBytes (s : SegDef) : Nat := if s.offs then 64 else 32

/-- The entry of a step table is not blank. -/
def stepUsed (m : List Host.Cell) (base i : Nat) : Bool :=
  (List.range 4).any (fun k => storeWord m (base * 512 + 16 * i + 4 * k) != 0)

/-- Bytes of a granule of the stream of a player with these tables: 1 KiB where a step names a STREAM segment whose columns carry group
offsets, else 512 B (R519; the spec gives a buffer's granules no size of their own: DEDUCED, log entry 155). -/
def streamGran (m : List Host.Cell) (stBase segTab : Nat) : Nat :=
  if (List.range 1024).any (fun i => stepUsed m stBase i && (let g := segAt m segTab (stepAt m stBase i).seg; g.valid && g.stream && g.offs))
  then 1024 else 512

/-- The same as an image gives a player's tables. -/
def granBytes (m : List Host.Cell) (rd : Nat → Word) (n : Nat) : Nat :=
  streamGran m (slice (rd (R.SP_STBASE n)) 14 0) (slice (rd R.SP_SEGTAB) 14 0)

/-- Column count and waits of a run of steps, and its stream granules (R534, R535). -/
def progCols (m : List Host.Cell) (tab : Nat) (steps : List (Nat × StepDef)) : Nat :=
  (steps.map (fun s => (segAt m tab s.2.seg).ngran * 16 * s.2.times)).sum

/-- Beats that the step conditions of a run may wait (R534). -/
def progWaits (steps : List (Nat × StepDef)) : Nat :=
  (steps.map (fun s => if 1 ≤ s.2.adv ∧ s.2.adv ≤ 4 then s.2.waitMax + 2 else 0)).sum

/-- Stream granules of a run (R535). -/
def progGrans (m : List Host.Cell) (tab : Nat) (steps : List (Nat × StepDef)) : Nat :=
  (steps.map (fun s => let g := segAt m tab s.2.seg; if g.stream then g.ngran * s.2.times else 0)).sum

/-- Occupancy in beats of C columns (R534): F is 1 024 000 000 000 / SP_CPER in time mode, SP_PLANRATE in encoder mode. -/
def occupancyOf (enc : Bool) (cper rate cols waits : Nat) : Nat :=
  (if enc then ceilDiv (cols * 6250000) (3 * max rate 1)
   else ceilDiv (cols * 6250000 * cper) (3 * 1024000000000)) + waits

/-! ## Splicing (R551 to R554) -/

/-- Replace the low bits of 256 from row on by the 32 of a word, or OR them in. -/
def bandPut (fire row : Nat) (w : Word) (merge : Bool) : Nat :=
  let mask := (2 ^ 32 - 1) <<< row
  let f := if merge then fire else fire ^^^ (fire &&& mask)
  (f ||| (w.toNat <<< row)) % 2 ^ 256

/-- The last n digits of a value in a base, as character codes, most significant first. -/
def digits (base n v : Nat) : List Nat :=
  ((List.range n).reverse.map (fun i => v / base ^ i % base)).map (fun x => if x < 10 then 0x30 + x else 0x41 + x - 10)

/-- Leading zeros turned into spaces; the last digit stays (DEDUCED: R553 pads, and a value always has a digit). -/
def spacePad : List Nat → List Nat
  | [] => []
  | [c] => [c]
  | c :: r => if c = 0x30 then 0x20 :: spacePad r else c :: r

/-- The printed form of a COUNTER, LFSR or GRAY value (R544, R553). -/
def printed (type radix n v : Nat) (zpad : Bool) : List Nat :=
  let v := if type = 3 then v ^^^ (v / 2) else v
  let s := digits (if radix = 1 then 16 else if radix = 2 then 2 else 10) n v
  if zpad then s else spacePad s

/-- Gregorian year, month and day of a day count from 2000-01-01 (R68). -/
def civil (days : Nat) : Nat × Nat × Nat :=
  let z := days + 730425
  let era := z / 146097
  let doe := z % 146097
  let yoe := (doe - doe / 1460 + doe / 36524 - doe / 146096) / 365
  let doy := doe - (365 * yoe + yoe / 4 - yoe / 100)
  let mp := (5 * doy + 2) / 153
  let mm := if mp < 10 then mp + 3 else mp - 9
  (yoe + era * 400 + (if mm ≤ 2 then 1 else 0), mm, doy - (153 * mp + 2) / 5 + 1)

/-- Day of the year, from 1. -/
def dayOfYear (y mm dd : Nat) : Nat :=
  let leap := decide (y % 4 = 0) && (!decide (y % 100 = 0) || decide (y % 400 = 0))
  ([0, 31, 59, 90, 120, 151, 181, 212, 243, 273, 304, 334].getD (mm - 1) 0) + dd + (if leap && decide (2 < mm) then 1 else 0)

/-- The string of a calendar field (Table SPL-7). -/
def calField (c : CalVal) (epoch k : Nat) : List Nat :=
  let days := c.sec / 86400
  let (y, mm, dd) := civil days
  let s := c.sec % 86400
  let d2 := digits 10 2
  match k with
  | 0 => digits 10 4 y
  | 1 => d2 y
  | 2 => d2 mm
  | 3 => d2 dd
  | 4 => digits 10 3 (dayOfYear y mm dd)
  | 5 => d2 (s / 3600)
  | 6 => d2 (s / 60 % 60)
  | 7 => d2 (s % 60)
  | 8 => d2 (s / 3600) ++ d2 (s / 60 % 60)
  | 9 => d2 y ++ d2 mm ++ d2 dd
  | 10 => d2 dd ++ d2 mm ++ d2 y
  | 11 => d2 y ++ digits 10 3 (dayOfYear y mm dd)
  | 12 => digits 10 1 ((days + 5) % 7 + 1)
  | 13 => digits 10 5 epoch
  | _ => []

/-- Channel n fires in column c of a MARCH slot for element k (Table SPL-8). -/
def marchFires (mpat s k c n : Nat) : Bool :=
  match mpat with
  | 0 => n % max s 1 == k
  | 1 => n % max s 1 + k + 1 == s
  | 2 => (n + c + k) % 2 == 0
  | _ => n / 2 % max s 1 == k

/-- The fire map of a MARCH slot's column. -/
def marchMap (mpat s k c : Nat) : Nat := ((List.range 256).filter (marchFires mpat s k c)).foldl (fun m n => m + 2 ^ n) 0

/-- Splice one slot into column c of a segment (R552 to R554). -/
def Dev.spliceSlot (d : Dev) (m : List Host.Cell) (j : Job) (gly : List Word) (w0 w1 : Word) (c fire : Nat) : Nat :=
  let col := slice w0 15 0
  let row := slice w0 23 16
  let t := slice w1 4 0
  if c < col then fire else
  if bitOf w0 24 then
    let v := ((j.tallies.find? (fun x => x.1 == t)).map (fun x => x.2)).getD 0
    if c < col + slice w1 31 16 then marchMap (d.fld (F.TAL_CFG_MPAT t)) (d.num (R.TAL_MOD t)) v (c - col) else fire
  else
    let g := gly.getD (slice w1 7 5) 0
    let w := slice g 20 16 + 1
    let type := d.fld (F.TAL_CFG_TYPE t)
    let str :=
      if type = 5 then (match j.calv with
        | some (v, e) => calField v e (slice w1 11 8)
        | none => [])
      else match j.tallies.find? (fun x => x.1 == t) with
        | some x => printed type (d.fld (F.TAL_CFG_RADIX t)) (d.fld (F.TAL_CFG_DIGITS t)) x.2 (d.flag (F.TAL_CFG_ZPAD t))
        | none => []
    match str[(c - col) / w]? with
    | some ch => bandPut fire row (storeWord m (slice g 14 0 * 512 + (ch * w + (c - col) % w) * 4)) (bitOf w0 25)
    | none => fire

/-- Splice every slot of a segment into its column c, in ascending slot index (R552). -/
def Dev.splice (d : Dev) (m : List Host.Cell) (j : Job) (p : PlayRun) (g : SegDef) (c fire : Nat) : Nat :=
  (List.range g.nslot).foldl (fun f i =>
    let a := p.slTab * 512 + 8 * (g.firstSlot + i)
    d.spliceSlot m j p.gly (storeWord m a) (storeWord m (a + 4)) c f) fire

/-! ## Streams (R535 to R540, R558) -/

/-- Granules written and not released, as the 32-bit counts give them. -/
def Dev.sbLevel (d : Dev) (n : Nat) : Nat := (d.num (R.SP_SBWR n) + 2 ^ 32 - d.num (R.SP_SBRD n)) % 2 ^ 32

/-- Depth of a player's stream buffer in granules; 0 for none. -/
def Dev.sbDepth (d : Dev) (n : Nat) : Nat := let k := d.fld (F.SP_SBCFG_N n); if k = 0 then 0 else 2 ^ k

/-- Move SP_SBRD forward to a count (R536). -/
def Dev.sbRelease (d : Dev) (n upTo : Nat) : Dev :=
  let k := (upTo + 2 ^ 32 - d.num (R.SP_SBRD n)) % 2 ^ 32
  if 0 < k ∧ k < 2 ^ 31 then d.setNum (R.SP_SBRD n) (upTo % 2 ^ 32) else d

/-- A write of SP_SBWR: taken at the next Edge phase, or ignored with WR_ERR (R538, R558). -/
def Dev.writeSbwr (d : Dev) (n : Nat) (w : Word) : Dev :=
  let cur := (mget none d.sp.sbwr n).getD (d.num (R.SP_SBWR n))
  let fwd := (w.toNat + 2 ^ 32 - cur) % 2 ^ 32
  let lvl := (w.toNat + 2 ^ 32 - d.num (R.SP_SBRD n)) % 2 ^ 32
  if fwd < 2 ^ 31 ∧ lvl ≤ d.sbDepth n then { d with sp := { d.sp with sbwr := mset none d.sp.sbwr n (some w.toNat) } }
  else d.setFlag (F.SP_STAT_WR_ERR n) true

/-- At an Edge phase: written counts take effect (R558). -/
def Dev.sbEdge (d : Dev) : Dev :=
  let d := d.sp.sbwr.foldl (fun d c => match c.2 with
    | some v => d.setNum (R.SP_SBWR c.1) v
    | none => d) d
  { d with sp := { d.sp with sbwr := [] } }

/-- The low watermark of a player, once per crossing (R539). -/
def Dev.sbWater (d : Dev) (n : Nat) : Dev :=
  let low := d.sbDepth n != 0 && decide (d.sbLevel n ≤ d.fld (F.SP_SBCFG_LWM n))
  let d' := d.setFlag (F.SP_STAT_LWM n) low
  if low && !d.sp.lwm.contains n then
    ({ d' with sp := { d'.sp with lwm := n :: d'.sp.lwm } }.setReg R.SP_EVT (putBit (d.reg R.SP_EVT) n true)).raiseIrq 25
  else if low then d'
  else { d' with sp := { d'.sp with lwm := d'.sp.lwm.filter (· != n) } }

/-- An underrun of a player shows once for each granule sent blank (R537, R539). -/
def Dev.underrun (d : Dev) (n hm : Nat) : Dev :=
  let d := (d.addSat (F.SP_UNDCNT_GRANULES n) 1).setFlag (F.SP_STAT_UNDERRUN n) true
  let d := (d.setReg R.SP_EVT (putBit (d.reg R.SP_EVT) (16 + n) true)).raiseIrq 25
  d.flawJob hm Rsn.partUnderrun

/-! ## Column clocks (R530 to R533) -/

/-- The instant of the next slot of a player: known once the origin is resolved in time mode, once fixed in encoder mode. -/
def Job.slotInst (j : Job) (p : PlayRun) : Option Nat :=
  if p.encMode then p.fixed else if j.resolved then j.origin.map (fun o => o + p.slot * p.cper) else none

/-- The instant of a column on a port, moved by the rest of the cable delay and rounded to the HPU grid (R64, R531, R578). -/
def Dev.hpInst (d : Dev) (hp t : Nat) : Nat :=
  let c := d.fld (F.HP_CABLE_CABLE hp)
  (t + (128 * cableNs c - c) * 8 + 4) / 8 * 8

/-- Change play k of a job. -/
def Dev.modPlay (d : Dev) (hm k : Nat) (f : PlayRun → PlayRun) : Dev :=
  d.modJob hm (fun j => { j with plays := j.plays.modify k f })

/-- Marker actions of the slot that has come to an instant (R541). -/
def Dev.playMarks (d : Dev) (hm k : Nat) (p : PlayRun) (t : Nat) : Dev :=
  let now := p.marks.filter (fun x => x.1 == p.slot)
  let d := now.foldl (fun d x => d.markAt x.2.1 t hm x.2.2) d
  if now.isEmpty then d else d.modPlay hm k (fun p => { p with marks := p.marks.filter (fun x => x.1 != p.slot) })

/-- The marker actions that an action code makes at a slot: 1 set, 2 clear, 3 set and clear one slot later. -/
def markActs (slot marker code : Nat) : List (Nat × Nat × Bool) :=
  match code with
  | 1 => [(slot, marker, true)]
  | 2 => [(slot, marker, false)]
  | 3 => [(slot, marker, true), (slot + 1, marker, false)]
  | _ => []

/-- The advance condition of a step is met by an event of the beat in progress (Table SPL-4). -/
def Dev.advMet (d : Dev) (s : StepDef) (wf : Nat) : Bool :=
  match s.adv with
  | 1 => decide (wf ≤ d.now) && d.trg.edgesNow.contains s.src
  | 2 => decide (wf ≤ d.now) && d.trg.raisesNow.contains s.src
  | 3 => decide (wf ≤ d.now) && d.sp.marks.any (fun m => m.1 == s.src)
  | 4 => decide (wf + s.waitMax ≤ d.now)
  | _ => true

/-- Pass the wait slots of a player that can no longer start its next step: with the condition met in beat M, those before
beat M + 2; while it is not met, those before the beat after the next but one (R527). -/
def Dev.passWaits : Nat → Dev → Nat → Nat → Nat → Dev
  | 0, d, _, _, _ => d
  | fuel + 1, d, hm, k, lim =>
    match d.job? hm with
    | none => d
    | some j => match j.plays[k]? with
      | none => d
      | some p => match j.slotInst p with
        | none => d
        | some t =>
          if beatOf (d.hpInst p.hp t) < lim then
            let d := d.playMarks hm k p t
            passWaits fuel (d.modPlay hm k (fun p => { p with slot := p.slot + 1, fixed := none })) hm k lim
          else d

/-- The part of a player is over at the end of its last column period: its markers clear there (R526, R541, R542). -/
def Dev.playEnd (d : Dev) (hm k : Nat) (p : PlayRun) (t : Nat) : Dev :=
  let d := d.playMarks hm k p t
  let own := onesBelow 16 (d.fld (F.SP_CFG_MKOWN p.sp))
  let held := own.filter (fun m => d.sp.marks.any (fun x => x.1 == m && x.2 == hm) ||
    d.sp.acts.any (fun a => a.marker == m && a.hm == hm && a.set))
  let d := held.foldl (fun d m => d.markAt m t hm false) d
  let d := d.modPlay hm k (fun p => { p with done := true, ending := false })
  d.modJob hm (fun j => { j with endAt := max j.endAt t })

/-- The next column of a player: fire map and group offsets, spliced; blank where its granule is (R519, R537, R552). -/
def Dev.columnOf (d : Dev) (m : List Host.Cell) (j : Job) (p : PlayRun) (g : SegDef) (blank : Bool) : Nat × List Nat :=
  if blank then (0, []) else
  let cb := g.colBytes
  let a :=
    if g.stream then
      d.fld (F.SP_SBBASE_STREAM p.sp) * 512 +
        ((p.gran + p.granUsed - 1) % max (d.sbDepth p.sp) 1) * streamGran m p.stBase p.segTab + (p.col % 16) * cb
    else g.base * 512 + p.col * cb
  let fire := leNat ((List.range 32).map (fun i => storeByte m (a + i)))
  let offs := if g.offs then (List.range 16).map (fun i =>
      ((storeByte m (a + 32 + 2 * i)).toNat + 256 * (storeByte m (a + 33 + 2 * i)).toNat) % 4096) else []
  (d.splice m j p g p.col fire, offs)

/-- Send the next column of play k in the frame for execution beat b (R527, R531, R532, R537, R541). -/
def Dev.sendColumn (d : Dev) (m : List Host.Cell) (j : Job) (k : Nat) (p : PlayRun) (b t : Nat) : Dev × Option ColOut :=
  let s := stepAt m p.stBase p.step
  let g := segAt m p.segTab s.seg
  let ti := d.hpInst p.hp t
  let late := decide (beatOf ti < b)
  let off := if late then 0 else ti % fsPerBeat / 8
  let fresh := g.stream && p.col % 16 == 0
  let used := p.granUsed + (if fresh then 1 else 0)
  let gno := p.gran + used - 1
  let short := decide (2 ^ 31 ≤ (d.num (R.SP_SBWR p.sp) + 2 ^ 33 - 1 - gno) % 2 ^ 32)
  let blank := g.stream && (if fresh then short else p.blank)
  let d := if fresh && short then d.underrun p.sp j.hm else d
  let p := { p with granUsed := used, blank := blank }
  let c := d.columnOf m j p g blank
  let sums := (List.range 16).map (fun i => off + c.2.getD i 0)
  let clipped := (sums.filter (fun x => decide (61439 < x))).length
  let d := if late then d.addSat (F.SP_CADJCNT_COLUMNS p.sp) 1 else d
  let d := if clipped = 0 then d else d.addSat (F.SP_CADJCNT_GROUPS p.sp) clipped
  let own := (d.fld (F.SP_CFG_MKOWN p.sp)).testBit s.mksel
  let mk := if own && p.col == 0 && p.rep == 0 then markActs p.slot s.mksel s.mkStart else []
  let d := mk.foldl (fun d x => if x.1 = p.slot then d.markAt x.2.1 t j.hm x.2.2 else d) d
  let later := mk.filter (fun x => x.1 != p.slot)
  let endSeg := decide (g.ngran * 16 ≤ p.col + 1)
  let endStep := endSeg && decide (s.times ≤ p.rep + 1)
  let marks := p.marks ++ later ++ (if own && endStep then markActs (p.slot + 1) s.mksel s.mkEnd else [])
  let p := { p with slot := p.slot + 1, fixed := none, marks := marks }
  let p :=
    if !endSeg then { p with col := p.col + 1 }
    else if !endStep then { p with col := 0, rep := p.rep + 1 }
    else if s.last then { p with col := 0, ending := true }
    else if s.adv = 0 then { p with col := 0, rep := 0, step := p.step + 1 }
    else { p with col := 0, waitFrom := some b, metAt := none }
  let d := d.modPlay j.hm k (fun _ => p)
  let col : ColOut := { hm := j.hm, slot := (p.slot - 1) % 65536, fire := leBytes 32 c.1, offs := sums.map (fun x => min x 61439),
                        mark := s.fm, blank := blank,
                        rd := if g.stream && (p.col % 16 == 0) then some (gno + 1) else none }
  if d.hpSends p.hp && d.lstate p.hp == 4 && !d.hpSafe p.hp b then
    (d.modJob j.hm (fun j => { j with colsSent := j.colsSent + 1, colsOpen := j.colsOpen + 1 }), some col)
  else
    -- No frame can carry the column: it is not placed (R590, R592; DEDUCED, log entry 11).
    (d.flawJob j.hm Rsn.partHeadlink, none)

/-- Play k of a job in the Prepare phase of the current beat, for the frame of execution beat b (R527 to R533). -/
def Dev.playPrep (d : Dev) (m : List Host.Cell) (hm k b : Nat) : Dev × Option ColOut :=
  match d.job? hm with
  | none => (d, none)
  | some j => match j.plays[k]? with
    | none => (d, none)
    | some p =>
      if p.done then (d, none)
      else if p.ending then
        match j.slotInst p with
        | some t => if beatOf (d.hpInst p.hp t) ≤ b then (d.playEnd hm k p t, none) else (d, none)
        | none => (d, none)
      else
        let s := stepAt m p.stBase p.step
        let (d, p) := match p.waitFrom with
          | none => (d, p)
          | some wf =>
            let p := if p.metAt.isNone && d.advMet s wf then { p with metAt := some d.now } else p
            let lim := match p.metAt with
              | some x => x + 2
              | none => d.now + 3
            let d := Dev.passWaits 64 (d.modPlay hm k (fun _ => p)) hm k lim
            let p := ((d.job? hm).bind (fun j => j.plays[k]?)).getD p
            match p.metAt, j.slotInst p with
            | some x, some t =>
              if x + 2 ≤ beatOf (d.hpInst p.hp t) then
                let p := { p with step := p.step + 1, rep := 0, waitFrom := none, metAt := none }
                (d.modPlay hm k (fun _ => p), p)
              else (d, p)
            | _, _ => (d, p)
        if p.waitFrom.isSome then (d, none) else
        match j.slotInst p with
        | none => (d, none)
        | some t =>
          let d := d.playMarks hm k p t
          if beatOf (d.hpInst p.hp t) ≤ b then d.sendColumn m (((d.job? hm)).getD j) k (((d.job? hm).bind (fun j => j.plays[k]?)).getD p) b t
          else (d, none)

/-- The columns of execution beat n have passed: they count as played unless the interlock acts, their granules are released,
and their jobs strike (R533, R536). -/
def Dev.colsPass (d : Dev) (n : Nat) : Dev :=
  if d.po.acting then d else
  (List.range 16).foldl (fun d p =>
    ((d.hpSt p).frames.filter (fun f => f.bn == n)).foldl (fun d f => match f.job with
      | none => d
      | some hm =>
        let d := if f.blank then d else d.addWrap (F.SP_COLCNT_COLUMNS p) 1
        let d := match f.rd with
          | some r => d.sbRelease p r
          | none => d
        d.modJob hm (fun j => { j with colsPlayed := if f.blank then j.colsPlayed else j.colsPlayed + 1,
                                       st := if j.st == .bound then .striking else j.st })) d) d

/-! ## Tallies (R544 to R550) -/

/-- next(v) of a tally (Table SPL-5). -/
def Dev.tallyNext (d : Dev) (t v : Nat) : Nat :=
  let m := d.num (R.TAL_MOD t)
  let m := if m = 0 then 2 ^ 32 else m
  let st := d.num (R.TAL_STEP t)
  match d.fld (F.TAL_CFG_TYPE t) with
  | 1 => (v + st) % m
  | 3 => (v + st) % m
  | 2 => (v / 2) ^^^ (if v % 2 = 1 then st else 0)
  | 4 => (v + 1) % (if d.fld (F.TAL_CFG_MPAT t) = 2 then 2 else m)
  | _ => v

/-- The state of a tally. -/
def Dev.tal (d : Dev) (t : Nat) : TalSt := mget {} d.sp.tal t

/-- Replace the state of a tally. -/
def Dev.setTal (d : Dev) (t : Nat) (v : TalSt) : Dev := { d with sp := { d.sp with tal := mset {} d.sp.tal t v } }

/-- Issue one value of a tally to a job (R546, R549). -/
def Dev.issue (d : Dev) (hm t : Nat) : Dev :=
  let s := d.tal t
  if d.fld (F.TAL_CFG_TYPE t) = 5 then
    (d.setTal t { s with issuedBn := some d.now }).modJob hm
      (fun j => { j with calv := some (d.cal.print, d.fld F.CAL_EPOCH_CALENDAR) })
  else
    let v := d.num (R.TAL_NEXT t)
    let d := d.setTal t { s with open_ := s.open_ ++ [(s.issues + 1, hm, v)], issues := s.issues + 1, issuedBn := some d.now }
    (d.setNum (R.TAL_NEXT t) (d.tallyNext t v)).modJob hm (fun j => { j with tallies := j.tallies ++ [(t, v)] })

/-! ## Protection, store writes and loads (R521 to R525) -/

/-- The ranges (first byte, bytes) of one set of player objects: tables of the players named, segment and slot tables, the
segments of valid descriptors, and glyph tables. -/
def objRanges (m : List Host.Cell) (stBases : List Nat) (segTab slTab : Nat) (gly : List Word) : List (Nat × Nat) :=
  stBases.map (fun b => (b * 512, 16384)) ++ [(segTab * 512, 32768), (slTab * 512, 8192)] ++
  ((List.range 4096).map (segAt m segTab)).filterMap (fun g =>
    if g.valid && !g.stream then some (g.base * 512, g.ngran * 16 * g.colBytes) else none) ++
  gly.filterMap (fun w => if bitOf w 31 then some (slice w 14 0 * 512, 512 * (slice w 20 16 + 1)) else none)

/-- The player objects that an image names, when it enables a player (DEDUCED: with no player enabled no table is in force;
log entry 14). -/
def imageRanges (m : List Host.Cell) (rd : Nat → Word) : List (Nat × Nat) :=
  let sps := (List.range 16).filter (fun n => bitOf (rd (R.SP_CFG n)) 0)
  if sps.isEmpty then []
  else objRanges m (sps.map (fun n => slice (rd (R.SP_STBASE n)) 14 0)) (slice (rd R.SP_SEGTAB) 14 0) (slice (rd R.SP_SLTAB) 14 0)
    ((List.range 8).map (fun t => rd (R.GLY_TAB t)))

/-- The protected ranges of the store (R521). -/
def Dev.protectedRanges (d : Dev) (m : List Host.Cell) : List (Nat × Nat) :=
  imageRanges m d.reg ++
  (if d.scc.cur.isSome then imageRanges m d.stg else []) ++
  (d.jobs.filter (fun j => j.active && !j.plays.isEmpty)).flatMap (fun j => match j.plays with
    | p :: _ => objRanges m (j.plays.map PlayRun.stBase) p.segTab p.slTab p.gly
    | [] => [])

/-- A write of n bytes from an address would touch a protected range. -/
def Dev.protects (d : Dev) (m : List Host.Cell) (a n : Nat) : Bool :=
  (d.protectedRanges m).any (fun r => decide (a < r.1 + r.2) && decide (r.1 < a + n))

/-- Size of the segment store (R518). -/
def storeBytes : Nat := 16777216

/-- The active image of a position as this device holds it. -/
def Dev.imgOf (d : Dev) (p a : Nat) : Word :=
  if p = d.pos then d.reg a
  else ((d.wr.imgActive.find? (fun (x : Nat × Nat × Word) => x.1 == p && x.2.1 == a)).map (fun x => x.2.2)).getD (resetWord a)

/-- A write of SP_LDCMD (R523, R524, R800). `farRefuses`: the target reports the destination protected or its buffer without
room, which only it can see. A load to the manager's own store needs no message. -/
def Dev.writeLdcmd (d : Dev) (m : List Host.Cell) (w : Word) (farRefuses : Bool) : Dev :=
  if !bitOf w 31 then d else
  let pos := slice w 4 0
  let stream := bitOf w 8
  let player := slice w 19 16
  let src := d.fld F.SP_LDSRC_SOURCE
  let dst := d.fld F.SP_LDDST_DESTINATION
  let len := d.fld F.SP_LDLEN_BYTES
  let own := pos == d.pos
  let gran := if stream then granBytes m (d.imgOf pos) player else 512
  if own && stream && (d.dom (domSp player)).causes.contains Rsn.domainParked then
    d.setFld F.SP_LDSTAT_RESULT Rsn.domainParked.toNat
  else if len = 0 ∨ len % 32 ≠ 0 ∨ (stream ∧ len % gran ≠ 0) ∨ storeBytes < src + len ∨ (!stream ∧ storeBytes < dst + len) ∨
      (own ∧ !stream ∧ d.protects m dst len) ∨ (own ∧ stream ∧ d.sbDepth player * gran < d.sbLevel player * gran + len) ∨
      farRefuses ∨ d.sp.load.isSome ∨ (!own ∧ !(d.wr.decl.any (fun x => x.1 == pos))) then
    d.setFld F.SP_LDSTAT_RESULT Rsn.refState.toNat
  else
    let d := { d with sp := { d.sp with load := some { src := src, dst := dst, len := len, pos := pos, stream := stream, player := player } } }
    let words := (List.range (len / 4)).map (fun i => storeWord m (src + 4 * i))
    let d := d.setFlag F.SP_LDSTAT_BUSY true
    if own then d else d.bulkPut pos 7 ([BitVec.ofNat 32 dst, BitVec.ofNat 32 len] ++ words)

/-! ## Meanings -/

/-- STEP_WAIT_TIMEOUT: a condition of a player's step has not been met within WAITMAX beats (R528). -/
def execStepWaitTimeout (n : Fin 16) (s : State) : Host.Outcome State Fault Refusal :=
  .next (s.onDevR fun m d =>
    let find := fun j : Job => ((j.plays.zipIdx).find? (fun p => p.1.sp == n.val && !p.1.done && p.1.waitFrom.isSome && p.1.metAt.isNone))
    match d.jobs.find? (fun j => j.active && (find j).isSome) with
    | none => d
    | some j => match find j with
      | none => d
      | some (p, k) =>
        let st := stepAt m p.stBase p.step
        match p.waitFrom with
        | none => d
        | some wf =>
          if decide (1 ≤ st.adv) && decide (st.adv ≤ 3) && decide (wf + st.waitMax ≤ d.now) then
            let d := d.addSat (F.SP_UNDCNT_STEP n.val) 1
            if st.waitAct then d.modPlay j.hm k (fun p => { p with metAt := some d.now })
            else ((d.modPlay j.hm k (fun p => { p with done := true })).flawJob j.hm Rsn.partStepwait).settle j.hm
          else d)

/-- SP_SBWR_WRITE (R538, R558). -/
def execSpSbwrWrite (port : Port) (n : Fin 16) (w : Word) (s : State) : Host.Outcome State Fault Refusal :=
  .next (s.onDev fun d => d.viaPort port (R.SP_SBWR n.val) fun d => d.writeSbwr n.val w)


/-- A window of the store is writable from a port: BAR2 of the host, or SPACE = 1 on the SPI port with HOSTSEL (R263, R266). -/
def Dev.storeGate (d : Dev) (p : Port) : Bool :=
  match d.portOf p with
  | .host => d.portLive .host && d.isMgr && d.started && d.pwr.vcore && d.pstate != 3 && d.pstate != 4
  | .spi => d.portLive .spi && d.isMgr && d.started && d.pwr.vcore && d.pstate != 3 && d.pstate != 4
  | _ => false

/-- STORE_WRITE: a write of one or more bytes to the segment store, made or discarded whole (R522, R561). A write that leaves
the store goes to an address that does not exist (R266, R518). -/
def execStoreWrite (port : Port) (off : BitVec 24) (bytes : List Byte) (s : State) : Host.Outcome State Fault Refusal :=
  if storeBytes < off.toNat + bytes.length then .fault .outsideStore
  else if !s.dev.storeGate port then .next s
  else if s.dev.protects s.store off.toNat bytes.length then .next (s.onDev fun d => d.addSat F.SP_WPROT_DISCARDED 1)
  else .next { s with store := storeWrite s.store off.toNat bytes }

/-- The destination of LOAD data: a store offset, or the place in a player's stream buffer that its write count names. -/
def Dev.loadAt (d : Dev) (m : List Host.Cell) (i : LoadIn) : Nat :=
  if i.stream then
    let n := i.player.val
    let sz := granBytes m d.reg n
    d.fld (F.SP_SBBASE_STREAM n) * 512 +
      ((mget none d.sp.sbwr n).getD (d.num (R.SP_SBWR n)) % max (d.sbDepth n) 1) * sz + mget 0 d.sp.part n
  else i.dst.toNat

/-- Count the bytes of a stream load: the write count advances as each whole granule arrives (R523). -/
def Dev.loadCount (d : Dev) (m : List Host.Cell) (i : LoadIn) : Dev :=
  if i.stream then
    let n := i.player.val
    let sz := granBytes m d.reg n
    let k := mget 0 d.sp.part n + i.bytes.length
    let cur := (mget none d.sp.sbwr n).getD (d.num (R.SP_SBWR n))
    let d := { d with sp := { d.sp with part := mset 0 d.sp.part n (k % sz) } }
    if k / sz = 0 then d
    else { d with sp := { d.sp with sbwr := mset none d.sp.sbwr n (some ((cur + k / sz) % 2 ^ 32)) } }
  else d

/-- Store the data of a load, or discard it whole where a range is protected (R522, R523). Bytes of a stream buffer that leaves the store
fall on no address and are lost. -/
def State.loadStore (s : State) (m : LoadIn) : State :=
  let a := s.dev.loadAt s.store m
  if !m.stream && s.dev.protects s.store a m.bytes.length then s.onDev fun d => d.addSat F.SP_WPROT_DISCARDED 1
  else { s with store := storeWrite s.store a (m.bytes.take (storeBytes - a)), dev := s.dev.loadCount s.store m }

/-- LOAD_START: a write of SP_LDCMD (R523, R524). A load to this device's own store is copied at once. -/
def execLoadStart (port : Port) (w : Word) (farRefuses : Bool) (s : State) : Host.Outcome State Fault Refusal :=
  let t := s.onDevR fun m d => d.viaPort port R.SP_LDCMD fun d => d.writeLdcmd m w farRefuses
  match s.dev.sp.load, t.dev.sp.load with
  | none, some l =>
    if l.pos ≠ s.dev.pos then .next t
    else .next (t.loadStore { dst := BitVec.ofNat 24 l.dst, stream := l.stream, player := Fin.ofNat 16 l.player,
                              bytes := (List.range l.len).map (fun i => storeByte s.store (l.src + i)) })
  | _, _ => .next t

/-- LOAD_MESSAGE: data of a load (R522, R523). A destination that leaves the store, which the manager refuses (R524), is no address. -/
def execLoadMessage (m : LoadIn) (s : State) : Host.Outcome State Fault Refusal :=
  if !s.dev.pwr.vcore then .next s
  else if !m.stream && decide (storeBytes < m.dst.toNat + m.bytes.length) then .fault .outsideStore
  else .next ((s.loadStore m).onDev fun d => d.freeBlocks (m.bytes.length / 8 + 1))

/-- LOAD_COMPLETE: the load is whole, or its target is fenced or lost (R525). -/
def execLoadComplete (lost : Bool) (s : State) : Host.Outcome State Fault Refusal :=
  .next (s.onDev fun d =>
    if d.sp.load.isSome then
      ({ d with sp := { d.sp with load := none } }.setFlag F.SP_LDSTAT_BUSY false).setFld F.SP_LDSTAT_RESULT
        (if lost then Rsn.refFenced else Rsn.ok).toNat
    else d)

end Sys2Proof.Machine
end

