-- ==== Sys2Proof/Machine/Binding.lean ====
section
/-!
DEFINITION. Sys2Proof/Machine/Binding.lean: jobs on their executor: dispatch received, binding, conflicts, the ARMED group,
origins and reach instants, WAIT, cancels, and the seals of outcomes (01_system_overview.md R39 to R47,
07_waybills_and_admission.md R313 to R317 and R331 to R356, 08_ledger.md R373 to R382, 09_triggers_and_encoders.md R461 to R467).
-/
namespace Sys2Proof.Machine
open Sys2Proof

/-! ## The units of a job -/

/-- The fence domains of the units that a job with its schedule uses: players, their ports, output groups, gate engines, the
plan's engine, and the encoder of a distance job (R44, R468, R497). -/
def Dev.jobDoms (d : Dev) (j : Job) : List Nat :=
  j.plays.map (fun p => domSp p.sp) ++ j.plays.map (fun p => domHp p.hp) ++ j.lanes.map (fun l => domPog (l.out / 8)) ++
  (j.lanes.filter (fun l => l.mode == 2)).map (fun l => domTe l.geng) ++
  (if d.flag (F.JR_PLAN_ENG_EN j.ring) then [domTe (d.fld (F.JR_PLAN_ENG j.ring))] else []) ++
  (if j.dkind then [domEnc (d.fld (F.JR_BIND_ENC j.ring))] else [])

/-- The fence domain of a ring's trigger source on this device. -/
def Dev.sourceDoms (d : Dev) (ring : Nat) : List Nat :=
  if d.fld (F.JR_BIND_TRIG_POS ring) != d.pos then []
  else match d.fld (F.JR_BIND_TSRC ring) with
    | 0 => [domTg (d.fld (F.JR_BIND_TIDX ring) / 4)]
    | 1 => [domTe (d.fld (F.JR_BIND_TIDX ring))]
    | _ => []

/-- The plays of a job as the tables in force give them (R529, R534); the stream allotments stay those of dispatch (R535). -/
def Dev.buildPlays (d : Dev) (m : List Host.Cell) (j : Job) : List PlayRun :=
  (d.jobPlays j.ring j.body).map (fun c =>
    let sp := c.1
    let base := d.fld (F.SP_STBASE_STEP sp)
    let tab := d.fld F.SP_SEGTAB_SEGMENT
    let steps := (stepRun m base 1024 c.2).1
    let enc := d.flag (F.SP_CLK_MODE sp)
    let cper := d.num2 (R.SP_CPER_LO sp) (R.SP_CPER_HI sp)
    let old := j.plays.find? (fun p => p.sp == sp)
    { sp := sp, hp := sp, stBase := base, segTab := tab, slTab := d.fld F.SP_SLTAB_SPLICE,
      gly := (List.range 8).map (fun t => d.reg (R.GLY_TAB t)), encMode := enc, cper := cper, cpitch := d.num (R.SP_CPITCH sp),
      occ := occupancyOf enc cper (d.fld (F.SP_PLANRATE_PLANNING sp)) (progCols m tab steps) (progWaits steps),
      cols := progCols m tab steps, waits := progWaits steps, step := c.2,
      gran := match old with
        | some p => p.gran
        | none => 0,
      granN := match old with
        | some p => p.granN
        | none => 0 })

/-- Allot stream granules to a dispatched job (R535). -/
def Dev.allotStreams (d : Dev) (m : List Host.Cell) (hm : Nat) : Dev :=
  match d.job? hm with
  | none => d
  | some j =>
    let ps := d.buildPlays m j
    let r := ps.foldl (fun (a : Dev × List PlayRun) p =>
      let n := progGrans m p.segTab (stepRun m p.stBase 1024 p.step).1
      if n = 0 then (a.1, a.2 ++ [p])
      else
        let next := a.1.num (R.SP_SBNEXT p.sp)
        (a.1.setNum (R.SP_SBNEXT p.sp) ((next + n) % 2 ^ 32), a.2 ++ [{ p with gran := next, granN := n }])) (d, [])
    r.1.modJob hm (fun j => { j with plays := r.2 })

/-! ## Origins (R461 to R465, R488) -/

/-- The instant at which an encoder is predicted to reach a target in 2^-16 counts; none while that is undefined (R461, R465).
A delay is never negative, so the direction of a target is forward. -/
def Dev.predict (d : Dev) (n : Nat) (target : Int) : Option Nat :=
  let e := d.enc n
  match e.hist with
  | [] => none
  | a :: _ =>
    if !d.flag (F.ENC_STAT_SPEED_VALID n) || decide (e.spN ≤ 0) then none
    else some ((a.1 : Int) + divAway (wrapS 56 (target - a.2 * 65536) * e.spD) (e.spN.toNat * 65536)).toNat

/-- A reach instant: interpolated where the position has already passed the target, else predicted (R453, R488). -/
def Dev.reachInst (d : Dev) (n : Nat) (target : Int) : Option Nat :=
  let e := d.enc n
  let at_ := (e.hist.zip (e.hist.drop 1)).find? (fun p =>
    decide (wrapS 56 (p.2.2 * 65536 - target) ≤ 0) && decide (0 ≤ wrapS 56 (p.1.2 * 65536 - target)) && decide (p.2.2 ≠ p.1.2))
  match at_ with
  | some (b, a) => some ((a.1 : Int) + divAway (wrapS 56 (target - a.2 * 65536) * ((b.1 - a.1 : Nat) : Int))
      ((wrapS 40 (b.2 - a.2)).natAbs * 65536)).toNat
  | none => d.predict n target

/-- The origin as known or predicted. -/
def Job.sched (j : Job) : Option Nat := match j.origin with
  | some o => some o
  | none => j.pred

/-- The job moved k whole beats later (R339). -/
def Job.shifted (j : Job) (k : Nat) : Job :=
  { j with origin := j.origin.map (· + k * fsPerBeat), pred := j.pred.map (· + k * fsPerBeat), delay := j.delay + k,
           opos := if k = 0 then j.opos else none }

/-- The lead that an origin must keep: the largest of the ports of its plan players, 1 without any (R462, R581). -/
def Dev.jobLead (d : Dev) (j : Job) : Nat := (j.plays.map (fun p => d.hpLead p.hp)).foldl max 1

/-- The limit of a job's delay (Table JOB-3). -/
def Job.limit (j : Job) : Nat := match j.cls with
  | 1 => j.slack
  | 2 => 2 ^ 20
  | _ => 0

/-! ## Conflicts (R336 to R342, R353, R510) -/

/-- Job a wins over job b (R336 to R338). -/
def Dev.outranks (d : Dev) (a b : Job) : Bool :=
  if b.st == .striking then false
  else if a.st == .striking then true
  else if a.ring = b.ring then decide (a.hm < b.hm)
  else
    let pa := d.fld (F.JR_ACFG_PRIO a.ring)
    let pb := d.fld (F.JR_ACFG_PRIO b.ring)
    decide (a.cls < b.cls) || (a.cls == b.cls && (decide (pb < pa) || (pa == pb && decide (a.hm < b.hm))))

/-- The instants of a job's edges on an output, with the trim, as far as they are known or predicted (R486, R492). -/
def Dev.edgeInsts (d : Dev) (j : Job) (n : Nat) : List Nat :=
  let trim := d.fld (F.PO_TRIM_TRIM n)
  (j.lanes.filter (fun l => l.out == n)).flatMap (fun l => l.edges.flatMap (fun e =>
    let base := if e.dist = 0 then j.sched else
      match j.reach.find? (fun r => r.1 == e.dist) with
      | some r => some r.2
      | none => match j.opos with
        | some p => d.reachInst (d.fld (F.JR_BIND_ENC j.ring)) (wrapS 56 (p + e.dist))
        | none => none
    match base with
    | some t => (List.range l.count).map (fun k => t + e.time + k * l.period + trim)
    | none => []))

/-- First and last beat of a play's occupancy (R534). -/
def Job.span (j : Job) (p : PlayRun) : Nat × Nat := let b := beatOf (j.sched.getD 0); (b, b + p.occ - 1)

/-- The beat before which job a must not start on a player that job b holds; 0 without a clash there. -/
def Job.clashEnd (a b : Job) : Nat :=
  (a.plays.flatMap (fun p => b.plays.map (fun q => (p, q)))).foldl (fun x c =>
    let sa := a.span c.1
    let sb := b.span c.2
    if c.1.sp = c.2.sp ∧ 0 < c.1.occ ∧ 0 < c.2.occ ∧ sa.1 ≤ sb.2 ∧ sb.1 ≤ sa.2 then max x (sb.2 + 1) else x) 0

/-- Two jobs would place edges less than 1.2 ns apart on one output: 1 229 FS of 480 ns / 491 520. -/
def Dev.edgeClash (d : Dev) (a b : Job) : Bool :=
  (a.lanes.map LaneRun.out).eraseDups.any (fun n =>
    (d.edgeInsts a n).any (fun x => (d.edgeInsts b n).any (fun y => decide (x < y + 1229) && decide (y < x + 1229))))

/-- Of jobs that stand, best rank first, the one with which a job's edges pass 4 on one output in one beat (Table SYS-3), however many
share the beat. -/
def Dev.crowding (d : Dev) (ws : List Job) (j : Job) : Option Job :=
  (j.lanes.map LaneRun.out).eraseDups.findSome? (fun n =>
    let own := d.edgeInsts j n
    let per := ws.map (fun w => (w, d.edgeInsts w n))
    own.findSome? (fun x =>
      let inBeat := fun l : List Nat => (l.filter (fun y => beatOf y == beatOf x)).length
      (per.foldl (fun (a : Nat × Option Job) w =>
        let k := inBeat w.2
        (a.1 + k, match a.2 with
          | some y => some y
          | none => if 0 < k ∧ 4 < a.1 + k then some w.1 else none)) (inBeat own, none)).2))

/-- Two jobs conflict. -/
def Dev.conflict (d : Dev) (a b : Job) : Bool :=
  a.sched.isSome && b.sched.isSome && (decide (0 < a.clashEnd b) || d.edgeClash a b)

/-- Of the jobs that win over a job, best rank first, the one that decides its conflict, when there is one. -/
def Dev.conflictWith (d : Dev) (ws : List Job) (j : Job) : Option Job :=
  ws.find? (d.conflict j) <|> (if j.sched.isSome then d.crowding (ws.filter (fun w => w.sched.isSome)) j else none)

/-- The jobs whose schedules stand on this device. -/
def Dev.scheduled (d : Dev) : List Job := d.jobs.filter (fun j => j.active && j.exec == d.pos && !j.tallyWait && j.closing.isNone)

/-- The smallest delay from k on at which a job conflicts with none of its winners, within its limit (R339). -/
def Dev.findDelay (d : Dev) (ws : List Job) (j : Job) : Nat → Nat → Option Nat
  | 0, _ => none
  | fuel + 1, k =>
    if j.limit < j.delay + k then none else
    let j' := j.shifted k
    let cs := ws.filter (d.conflict j')
    if (d.conflictWith ws j').isNone then some k
    else findDelay d ws j fuel (max (k + 1) ((cs.map j'.clashEnd).foldl max 0 - beatOf (j.sched.getD 0)))

/-- The ARMED group of a job (R373, Table LDG-3); an undefined predicted origin leaves its origin fields a free value. -/
def Dev.armGroup (d : Dev) (j : Job) : Dev × List Rec :=
  let r := match j.sched with
    | some o => (d, o)
    | none => let x := d.draw; (x.1, (Config.freeWord x.2).toNat)
  let o := r.2
  let cal := j.calv.isSome
  let a : Rec := { typ := 0x20, hm := j.hm, ring := j.ring, pos := d.pos, calf := cal, bn := beatOf o,
                   byteA := o / fsPerCycle % cyclesPerBeat, w5 := o % fsPerCycle + 2 ^ 11 * (j.delay % 2 ^ 21), w6 := (j.w 11).toNat }
  let c : List Rec := match j.calv with
    | some (v, e) => [{ typ := 0x21, hm := 0, raw := [BitVec.ofNat 32 v.sec, BitVec.ofNat 32 (v.sec / 2 ^ 32),
        BitVec.ofNat 32 v.sub, BitVec.ofNat 32 e, 0, 0] }]
    | none => []
  let n := (j.tallies.length + 3) / 4
  let t : List Rec := (List.range n).map (fun i =>
    let x := (j.tallies.drop (4 * i)).take 4
    let idx := (List.range 4).foldl (fun s k => s + (match x[k]? with
      | some y => y.1
      | none => 0x1F) * 256 ^ k) 0
    { typ := 0x22, raw := BitVec.ofNat 32 idx :: (List.range 4).map (fun k => match x[k]? with
      | some y => BitVec.ofNat 32 y.2
      | none => 0) ++ [0] })
  (r.1, a :: (c ++ t))

/-- A job's ARMED group falls due, in place of one still waiting (R342, R379). -/
def Dev.armDue (d : Dev) (hm : Nat) : Dev :=
  match d.job? hm with
  | none => d
  | some j =>
    let d := { d with ldg := { d.ldg with queue := d.ldg.queue.filter (fun q => !(q.recs.any (fun r => r.typ == 0x20 && r.hm == hm))) } }
    let r := d.armGroup j
    (r.1.dueRec 2 r.2).modJob hm (fun j => { j with armedDue := true })

/-- Decide one job's conflicts with the jobs that win over it (R339, R340). -/
def Dev.settleOne (d : Dev) (hm : Nat) : Dev :=
  match d.job? hm with
  | none => d
  | some j =>
    if !j.active || j.st == .striking || j.tallyWait || j.closing.isSome then d else
    let ws := (d.scheduled.filter (fun k => k.hm != hm && d.outranks k j)).mergeSort (fun a b => d.outranks a b || !d.outranks b a)
    match d.conflictWith ws j with
    | none => d
    | some w =>
      match d.findDelay ws j (j.limit + 2) 1 with
      | some k =>
        let had := j.armed || j.armedDue
        let d := d.modJob hm (fun j => j.shifted k)
        if had then d.armDue hm else d
      | none => d.endJob hm { typ := 6, reason := Rsn.expPreempted, bn := d.now, d0 := w.hm % 2 ^ 32, d1 := w.hm / 2 ^ 32 }

/-- Decide the conflicts of the schedules on this device, best rank first, again for each job that a delay may have moved onto
(R336 to R342, R353). -/
def Dev.settleConflicts (d : Dev) : Dev :=
  (List.range d.scheduled.length).foldl (fun d _ =>
    ((d.scheduled.mergeSort (fun a b => d.outranks a b || !d.outranks b a)).map Job.hm).foldl Dev.settleOne d) d

/-! ## Binding (R39 to R47, R317, R334, R545, R786) -/

/-- The job takes its trigger: schedule, origin or target, and the copies of the tables (R313, R316, R461, R499, R529). -/
def Dev.takeTrigger (d : Dev) (m : List Host.Cell) (j : Job) (stamp : Nat) : Dev :=
  let n := d.fld (F.JR_BIND_ENC j.ring)
  let r := if j.dkind then d.encAt n stamp else (d, 0)
  let d := r.1
  let target := wrapS 56 (r.2 + j.delayField)
  let origin := stamp + j.delayField
  let lanes := match progOf j.body with
    | some p => progLanes d.reg p
    | none => []
  let plays := d.buildPlays m j
  d.modJob j.hm (fun j => { j with
    st := .bound, stamp := stamp, target := target, peak := (d.enc n).pos, lanes := lanes, plays := plays,
    origin := if j.dkind then none else some origin, pred := if j.dkind then d.predict n target else none,
    resolved := !j.dkind, opos := if j.dkind then some target else none, tallyWait := true })

/-- Complete a binding: tallies, conflicts, ARMED; it waits for the next beat while a tally has been issued in this one
(R545, R557). -/
def Dev.completeBinding (d : Dev) (hm : Nat) : Dev :=
  match d.job? hm with
  | none => d
  | some j =>
    if !j.active || !j.tallyWait then d else
    let ts := talliesOf j.body
    if ts.any (fun t => (d.tal t).issuedBn == some d.now || (d.tal t).hold) then d else
    let d := ts.foldl (fun d t => d.issue hm t) d
    let d := (d.modJob hm (fun j => { j with tallyWait := false })).settleConflicts
    match d.job? hm with
    | some j => if j.active && !j.armedDue then d.armDue hm else d
    | none => d

/-- Bind a job to a trigger instant. A job that uses a fenced domain ends and spends the capture (R786); job data goes to the
plan's engine (R317). -/
def Dev.bindJob (d : Dev) (m : List Host.Cell) (hm stamp : Nat) : Dev :=
  match d.job? hm with
  | none => d
  | some j =>
    let d := d.takeTrigger m j stamp
    let d := { d with trg := { d.trg with bound := d.trg.bound + 1 } }
    let j := (d.job? hm).getD j
    if (d.jobDoms j ++ d.sourceDoms j.ring).any d.fenced then
      d.endJob hm { typ := 6, reason := Rsn.expFenced, bn := d.now }
    else
      let d := if d.flag (F.JR_PLAN_ENG_EN j.ring) then
          d.jobPush (d.fld (F.JR_PLAN_ENG j.ring)) [j.w 12, j.w 13, j.w 14] else d
      d.completeBinding hm

/-- The oldest of a list of jobs. -/
def oldestJob (l : List Job) : Option Job := l.foldl (fun b j => match b with
  | some x => if j.hm < x.hm then some j else some x
  | none => some j) none

/-- An unclaimed capture of a ring (R41, R444). -/
def Dev.unclaimed (d : Dev) (ring : Nat) : Dev :=
  if d.isMgr then
    let d := d.addSat (F.TRG_RUNCL_UNCLAIMED ring) 1
    if d.trg.unclRun.contains ring then d
    else ({ d with trg := { d.trg with unclRun := ring :: d.trg.unclRun } }.setReg R.TRG_EVT (putBit (d.reg R.TRG_EVT) 16 true)).raiseIrq 26
  else d.report false 7 ring 1 false

/-- Offer a capture to one ring (R42, R334, R350, R443). -/
def Dev.bindRing (d : Dev) (m : List Host.Cell) (c : Capture) (ring : Nat) : Dev :=
  let ok := d.jobs.filter (fun j => j.ring == ring && j.exec == d.pos && j.waiting && decide (j.dispBn ≤ c.bn) &&
    (j.wait_ == 0 || decide (c.bn < j.acceptBn + j.wait_)))
  match oldestJob ok with
  | none => d.unclaimed ring
  | some j => { d with trg := { d.trg with unclRun := d.trg.unclRun.filter (· != ring) } }.bindJob m j.hm c.stamp

/-- A ring binds nothing between this device's vote and the end of a ring-wide commit that changes the lead of a port of its
plan (R693). -/
def Dev.ringHeld (d : Dev) (ring : Nat) : Bool :=
  match d.scc.cur with
  | none => false
  | some c => !c.local_ && c.result.isSome && (List.range 4).any (fun k => match planSp (d.plan ring) k with
      | some p => d.stg (R.HP_LATMAX p) != d.reg (R.HP_LATMAX p) || d.stg (R.HP_CABLE p) != d.reg (R.HP_CABLE p)
      | none => false)

/-- The instant of a host trigger (R316, Table SCP-4). -/
def Job.htrig (j : Job) : Nat :=
  instant (slice (j.w 6) 31 8 + 2 ^ 24 * (j.w 7).toNat) (slice (j.w 6) 7 0) (slice (j.w 5) 10 0)

/-- Bind a host-trigger job, or end it where its origin comes too soon (R316, R335). -/
def Dev.bindHost (d : Dev) (m : List Host.Cell) (hm : Nat) : Dev :=
  match d.job? hm with
  | none => d
  | some j =>
    if !j.waiting || d.fld (F.JR_BIND_TSRC j.ring) != 3 then d
    else if j.htrig + j.delayField < (d.now + 2) * fsPerBeat then
      d.endJob hm { typ := 6, reason := Rsn.expNoTrigger, bn := d.now }
    else if d.mayBind && decide (d.pwr.bindBn ≤ beatOf j.htrig) && decide (d.trg.bound < 16) then d.bindJob m hm j.htrig
    else d

/-- Hold a job as DISPATCHED on this device (R333): its stream allotment (R535), the report, and the binding of a host
trigger. -/
def Dev.holdJob (d : Dev) (m : List Host.Cell) (hm : Nat) : Dev :=
  let d := (d.modJob hm (fun j => { j with st := .dispatched, dispBn := d.now })).allotStreams m hm
  let d := d.report false 1 (match d.job? hm with
    | some j => j.dtag
    | none => 0) d.now false
  d.bindHost m hm

/-! ## Meanings -/

/-- DISPATCH_MESSAGE (R333). A hallmark already dispatched here is not taken again; the reserve has the job from the mirror before. -/
def execDispatchMessage (i : DispatchIn) (s : State) : Host.Outcome State Fault Refusal :=
  .next (s.onDevR fun m d =>
    if d.isMgr || !d.started || (d.job? i.hm.toNat).any (fun j => j.st != .accepted) then d else
    let w1 := i.body.getD 1 0
    let j : Job := { ring := i.ring.val, rseq := (i.body.getD 0 0).toNat, hm := i.hm.toNat, tag := slice w1 31 16, dtag := i.tag.toNat,
                     cls := slice w1 9 8, body := i.body, exec := d.pos, acceptBn := i.acceptBn.toNat, sealed := true, sent := true }
    { d with jobs := d.jobs.filter (fun (x : Job) => x.hm != j.hm) ++ [j] }.holdJob m j.hm)

/-- BIND_CAPTURE: bindings that waited for a tally complete; waiting host triggers bind; then the capture with the earliest
stamp is offered to its rings, as far as 16 bindings in this beat allow (R39, R316, R475, R545). Captures that were made before
a state in which the device binds nothing are spent (R148, R176, R220); a binding that waits for its tally completes there too, so
that the job can run to its end (R153, R177). -/
def execBindCapture (s : State) : Host.Outcome State Fault Refusal :=
  .next (s.onDevR fun m d =>
    let due := d.trg.caps.filter (fun c => decide (c.bn < d.now))
    let d := ((d.jobs.filter (fun j => j.tallyWait)).map Job.hm).foldl Dev.completeBinding d
    if !d.mayBind then { d with trg := { d.trg with caps := d.trg.caps.filter (fun c => !decide (c.bn < d.now)) } } else
    let d := ((d.jobs.filter (fun j => j.waiting && j.exec == d.pos)).map Job.hm).foldl (fun d hm => d.bindHost m hm) d
    let free := due.filter (fun c => c.rings.any (fun r => !d.ringHeld r))
    match free.mergeSort (fun a b => decide (a.stamp ≤ b.stamp)) with
    | [] => d
    | c :: _ =>
      let rs := (c.rings.filter (fun r => !d.ringHeld r)).take (16 - d.trg.bound)
      let rest := c.rings.filter (fun r => !rs.contains r)
      let caps := d.trg.caps.flatMap (fun x => if x = c then (if rest.isEmpty then [] else [{ c with rings := rest }]) else [x])
      rs.foldl (fun d r => d.bindRing m c r) { d with trg := { d.trg with caps := caps } })

/-- WAIT_EXPIRE: the oldest job of a ring that is neither bound nor terminal (R334), where this device holds it: unsent on the
manager, dispatched on its executor. A capture that still may bind to it goes first. -/
def execWaitExpire (ring : Fin 512) (s : State) : Host.Outcome State Fault Refusal :=
  .next (s.onDev fun d =>
    match oldestJob (d.jobs.filter (fun j => j.ring == ring.val && (j.st == .accepted || j.st == .dispatched))) with
    | none => d
    | some j =>
      let lim := j.acceptBn + j.wait_
      let early := d.trg.caps.any (fun c => c.rings.contains ring.val && decide (c.bn < lim) && decide (j.dispBn ≤ c.bn))
      if j.wait_ ≠ 0 ∧ lim ≤ d.now ∧ ((j.exec = d.pos ∧ j.st = .dispatched ∧ early = false) ∨ (j.st = .accepted ∧ j.sent = false)) then
        d.endJob j.hm { typ := 6, reason := Rsn.expNoTrigger, bn := d.now }
      else d)

/-- CANCEL_MESSAGE: an executor ends the waiting jobs that bear the tags (R344). -/
def execCancelMessage (tags : List (BitVec 12)) (s : State) : Host.Outcome State Fault Refusal :=
  .next (s.onDev fun d =>
    let hms := (d.jobs.filter (fun j => j.waiting && j.exec == d.pos && tags.any (fun t => t.toNat == j.dtag))).map Job.hm
    if d.isMgr then d
    else hms.foldl (fun d hm => d.endJob hm { typ := 6, reason := Rsn.expHostCancel, bn := d.now }) d)

/-- ORIGIN_RESOLVE: predict a distance job's origin anew, and fix it once it lies within the lead; the conflict decisions are
repeated (R462 to R465, R581). A delay past the limit ends the job as overtaken too (DEDUCED from R464; log entry 15). -/
def execOriginResolve (hm : BitVec 48) (s : State) : Host.Outcome State Fault Refusal :=
  .next (s.onDev fun d =>
    match d.job? hm.toNat with
    | none => d
    | some j =>
      if !j.active || !j.dkind || j.resolved || j.exec != d.pos || j.closing.isSome then d else
      let pred := (d.predict (d.fld (F.JR_BIND_ENC j.ring)) j.target).map (· + j.delay * fsPerBeat)
      let d := d.modJob j.hm (fun j => { j with pred := pred })
      match pred with
      | none => d
      | some t =>
        let lam := d.jobLead j
        if d.now + lam < beatOf t then d
        else if beatOf t = d.now + lam then
          (d.modJob j.hm (fun j => { j with origin := some t, resolved := true })).settleConflicts
        else
          let k := d.now + lam - beatOf t
          if j.limit < j.delay + k then d.endJob j.hm { typ := 6, reason := Rsn.expOvertaken, bn := d.now }
          else
            let d := d.modJob j.hm (fun j => { j with origin := some (t + k * fsPerBeat), resolved := true, delay := j.delay + k, opos := none })
            let d := if j.armed || j.armedDue then d.armDue j.hm else d
            d.settleConflicts)

/-- The position that DIST terms and encoder-mode slots of a job count from, once known (R486, R530): the target of a distance
job that was not delayed, else the position at the origin once that has passed (DEDUCED; log entry 16). -/
def Dev.originPos (d : Dev) (j : Job) : Dev × Option Int :=
  match j.opos, j.origin with
  | some p, _ => (d, some p)
  | none, some o =>
    if j.resolved && decide (o ≤ d.now * fsPerBeat) then
      let r := d.encAt (d.fld (F.JR_BIND_ENC j.ring)) o
      (r.1, some r.2)
    else (d, none)
  | none, none => (d, none)

/-- REACH_RESOLVE: fix each reach instant, and the next slot of each encoder-mode play, that is predicted within reach of the
Prepare phase that loads it (R488, R530, R581). -/
def execReachResolve (hm : BitVec 48) (s : State) : Host.Outcome State Fault Refusal :=
  .next (s.onDev fun d =>
    match d.job? hm.toNat with
    | none => d
    | some j =>
      if !j.active || j.exec != d.pos || !d.flag (F.JR_BIND_ENC_EN j.ring) then d else
      let n := d.fld (F.JR_BIND_ENC j.ring)
      let r := d.originPos j
      let d := r.1.modJob j.hm (fun j => { j with opos := r.2 })
      match r.2 with
      | none => d
      | some p =>
        let dists := ((j.lanes.flatMap (fun l => l.edges.map EdgeDef.dist)).eraseDups.filter (fun x =>
          x != 0 && !(j.reach.any (fun y => y.1 == x))))
        let lam := d.jobLead j
        let fixed := dists.filterMap (fun (x : Nat) => match d.reachInst n (wrapS 56 (p + x)) with
          | some t => if beatOf t ≤ d.now + 1 then some (x, t) else none
          | none => none)
        let slotOf := fun q : PlayRun =>
          if !q.encMode || q.done || q.fixed.isSome || !j.resolved then q
          else match d.reachInst n (wrapS 56 (p + q.slot * q.cpitch)) with
            | some t => if beatOf t ≤ d.now + lam then { q with fixed := some t } else q
            | none => q
        d.modJob j.hm (fun j => { j with reach := j.reach ++ fixed, plays := j.plays.map slotOf }))

/-- STRUCK_SEAL: every part of the job is done and nothing of it failed; none after a clock fault in the beat (Table CLK-3); the record falls due in the beat after the last
instant (R341, R381, R496, R591). -/
def execStruckSeal (hm : BitVec 48) (s : State) : Host.Outcome State Fault Refusal :=
  .next (s.onDev fun d =>
    match d.job? hm.toNat with
    | none => d
    | some j =>
      let last := max j.endAt (j.origin.getD 0)
      if !d.clk.jobsDue && j.active && j.exec == d.pos && j.resolved && j.armed && j.partsDone && j.flaw.isNone && j.closing.isNone &&
          decide (beatOf last < d.now) then
        d.endJob j.hm { typ := 4, reason := if j.delay = 0 then Rsn.ok else Rsn.okDelayed, bn := max j.lastBn 0, d0 := j.delay }
      else d)

/-- The manager may seal the job's TERM record: its outcome is decided and, on its own executor, sealed; its details are here
(R747); and every earlier job of its ring is terminal (R358, R382). -/
def Dev.termReady (d : Dev) (j : Job) : Bool :=
  j.out.isSome && !j.term && (j.exec != d.pos || !j.armed || j.outSealed) && !d.wr.needDetail.contains j.hm &&
  !d.jobs.any (fun k => k.ring == j.ring && decide (k.hm < j.hm) && !k.term)

/-- A job's TERM record falls due (R358, R382). -/
def Dev.termSeal (d : Dev) (hm : Nat) : Dev :=
  match d.job? hm with
  | none => d
  | some j => match j.out with
    | none => d
    | some o =>
      if d.isMgr && d.termReady j then
        (d.dueRec 2 [{ typ := 0x11, hm := j.hm, ring := j.ring, pos := j.exec, bn := o.bn, byteA := o.typ,
                       w5 := o.reason.toNat + 2 ^ 16 * (o.d1 % 2 ^ 16), w6 := o.d0 }]).modJob j.hm (fun j => { j with term := true })
      else d

/-- TERM_SEAL (R358, R382). -/
def execTermSeal (hm : BitVec 48) (s : State) : Host.Outcome State Fault Refusal :=
  .next (s.onDev fun d => d.termSeal hm.toNat)

/-- FENCE_JOB_CLOSE: a job that a fence is closing ends once every column and edge it issued has been reported or declared
missing (R44, R784). -/
def execFenceJobClose (hm : BitVec 48) (s : State) : Host.Outcome State Fault Refusal :=
  .next (s.onDev fun d =>
    match d.job? hm.toNat with
    | none => d
    | some j =>
      if j.closing.isSome && j.active && j.colsOpen == 0 && j.edgesOpen == 0 then
        d.endAs j.hm j.placed Rsn.expFenced Rsn.partFenced
      else d)

end Sys2Proof.Machine
end

