-- ==== Sys2Proof/Machine/Check.lean ====
section
/-!
DEFINITION. Sys2Proof/Machine/Check.lean: latencies around the ring (15_wilin_ring.md R738) and the check of a stage image: the
groups of Table SCC-2 in order, each with its chapter's conditions in the order of that chapter's table
(14_stage_check_commit.md R688 to R693). A finding is a unit instance and a code.
-/
namespace Sys2Proof.Machine
open Sys2Proof

/-! ## Positions and latencies -/

/-- The position holds a provisioned device (Table RNG-8): this one, the reserve, or one that has gone through every step. -/
def Dev.provisioned (d : Dev) (p : Nat) : Bool :=
  p == d.pos || d.wr.resPos == some p || decide (6 ≤ mget 0 d.wr.prov p)

/-- D_CW of a position, from the offset table (R737). -/
def Dev.dcw (d : Dev) (p : Nat) : Int := d.wr.offTab.getD (2 * p) 0

/-- The delay in ps from a to b in the CW direction. -/
def Dev.cwDelay (d : Dev) (a b : Nat) : Nat := ((d.dcw b - d.dcw a) % (d.num R.WR_LOOP : Int)).toNat

/-- The faster live direction from a to b (R738, R750): 0 CW, 1 CCW. -/
def Dev.wayTo (d : Dev) (a b : Nat) : Nat :=
  let up := !(d.wr.cut.any (fun c => decide (d.cwDelay a c < d.cwDelay a b)))
  let down := !(d.wr.cut.any (fun c => decide (d.cwDelay b c < d.cwDelay b a)))
  if up && (!down || decide (d.cwDelay a b ≤ d.cwDelay b a)) then 0 else 1

/-- The one-way latency from a to b in ps: the faster of the two directions, over live hops only (R738). -/
def Dev.oneWay (d : Dev) (a b : Nat) : Nat :=
  if d.num R.WR_LOOP = 0 ∨ a = b then 0
  else if d.wayTo a b = 0 then d.cwDelay a b else d.cwDelay b a

/-- The binding latency between two positions, in whole beats (R30, R738). -/
def Dev.bindLat (d : Dev) (a b : Nat) : Nat := ceilDiv (d.oneWay a b) 480000

/-! ## Codes (Table JOB-10, Table POU-7, Table SCC-7 and the tables of the other chapters) -/
namespace Chk
def milestone : Reason := 0x4001
def late : Reason := 0x4002
def peerLost : Reason := 0x4004
def stageWrite : Reason := 0x4005
def hostAbort : Reason := 0x4006
def takeover : Reason := 0x4007
def scope : Reason := 0x4008
def action : Reason := 0x4009
def beatBudget : Reason := 0x4010
def bindReach : Reason := 0x4011
def mainsOff : Reason := 0x4012
def asVco : Reason := 0x4013
def asFmax : Reason := 0x4014
def allotSum : Reason := 0x4020
def jrPlan : Reason := 0x4021
def jrBusy : Reason := 0x4022
def trgHenc : Reason := 0x4030
def encVmax : Reason := 0x4031
def poLane : Reason := 0x4040
def poOrder : Reason := 0x4041
def poSpacing : Reason := 0x4042
def poGroup : Reason := 0x4043
def poBusy : Reason := 0x4044
def spSeg : Reason := 0x4050
def spStep : Reason := 0x4051
def spRate : Reason := 0x4052
def spSplice : Reason := 0x4053
def spMarker : Reason := 0x4054
def spStream : Reason := 0x4055
def spBusy : Reason := 0x4056
def spStore : Reason := 0x4057
def talCfg : Reason := 0x4058
def talBusy : Reason := 0x4059
def hpLead : Reason := 0x4060
def hpMode : Reason := 0x4061
def hpRate : Reason := 0x4062
def hpDisabled : Reason := 0x4063
def tnkEntry : Reason := 0x4070
def tnkDiv : Reason := 0x4071
def tnkPin : Reason := 0x4072
def tnkQueue : Reason := 0x4073
def tnkGroup : Reason := 0x4074
def waitCycle : Reason := 0x4075
def tnkRef : Reason := 0x4076
end Chk

/-- What a check finds: the unit instance and the code of the first failing condition. -/
abbrev Finding := Option (Nat × Reason)

/-- A finding at the first instance of a list that fails. -/
def findBad (l : List Nat) (code : Reason) (bad : Nat → Bool) : Finding := (l.find? bad).map (fun n => (n % 256, code))

/-- A field of a register as a reader of words gives it. -/
def rdFld (rd : Nat → Word) (f : Fld) : Nat := slice (rd f.a) f.hi f.lo

/-! ## Job rings as an image gives them -/

/-- The enabled job rings. -/
def ringsOf (rd : Nat → Word) : List Nat := (List.range 512).filter (fun j => rdFld rd (F.JR_BIND_VALID j) == 1)

/-- The enabled job rings executed at a position. -/
def ringsAt (rd : Nat → Word) (p : Nat) : List Nat := (ringsOf rd).filter (fun j => rdFld rd (F.JR_BIND_EXEC_POS j) == p)

/-- The enabled rings that concern a position: it executes them, or it is their trigger device (R171, R442). -/
def ringsNaming (rd : Nat → Word) (p : Nat) : List Nat :=
  (ringsOf rd).filter (fun j => rdFld rd (F.JR_BIND_EXEC_POS j) == p ||
    (rdFld rd (F.JR_BIND_TSRC j) != 3 && rdFld rd (F.JR_BIND_TRIG_POS j) == p))

/-- The registers of a job ring that an image carries. -/
def jrRegs (j : Nat) : List Nat :=
  [R.JR_BIND j, R.JR_PLAN j, R.JR_ACFG j, R.JR_ALLOT_HP j, R.JR_ALLOT_PO j, R.JR_ALLOT_SP j, R.JR_ALLOT_BS j]

/-- The plan players of a ring. -/
def planOf (rd : Nat → Word) (j : Nat) : List Nat := ((List.range 4).filterMap (planSp (rd (R.JR_PLAN j)))).eraseDups

/-- The speed in counts/s that a ring's encoder may reach; none without an encoder. -/
def ringVmax (rd : Nat → Word) (j : Nat) : Option Nat :=
  if rdFld rd (F.JR_BIND_ENC_EN j) = 1 then some (rd (R.ENC_VMAX (rdFld rd (F.JR_BIND_ENC j)))).toNat else none

/-- The rings that use a player. -/
def usesOf (rd : Nat → Word) (rs : List Nat) (n : Nat) : List Nat := rs.filter (fun j => (planOf rd j).contains n)

/-- An engine is enabled in an image. -/
def engOn (rd : Nat → Word) (n : Nat) : Bool := rdFld rd (F.TNK_CFG_EN n) == 1

/-! ## Groups 1 to 5 -/

/-- Group 1: scheduled actions (R707, Table SCC-5). Argument bits that Table SCC-5 gives no meaning are reserved. -/
def chkActions (rd : Nat → Word) (scope : Nat) : Finding :=
  findBad (List.range 16) Chk.action (fun n =>
    let w := rd (R.SCC_ACT0 n)
    let a := (rd (R.SCC_ACT1 n)).toNat
    let k := slice w 3 0
    let dom := a % 65536
    k != 0 && (decide (6 < k) || !scope.testBit (slice w 12 8) || (match k with
      | 1 => a &&& 0x37 != a || a % 8 == 0 || decide (5 < a % 8)
      | 4 => decide (2 ^ 9 ≤ a)
      | 5 => decide (2 ^ 10 ≤ a)
      | 6 => decide (16 ≤ a)
      | _ => decide (2 ^ 16 ≤ a) || !(decide (dom ≤ 116) || (decide (0x1000 ≤ dom) && decide (dom < 0x1200)) ||
          (decide (0x2000 ≤ dom) && decide (dom < 0x2020))))))

/-- The port that a scheduled action names: a fence or unfence of a head port or of a job on it (Table SCC-5, Table FEN-1), a retrain. -/
def actPort (rd : Nat → Word) (n : Nat) : Option Nat :=
  let a := (rd (R.SCC_ACT1 n)).toNat
  match slice (rd (R.SCC_ACT0 n)) 3 0 with
  | 2 | 3 => if a % 65536 < 16 then some (a % 65536) else none
  | 6 => some (a % 16)
  | _ => none

/-- An input slot of an enabled engine reads the status input of a port (Table TNK-3). -/
def readsPort (rd : Nat → Word) (p : Nat) : Bool :=
  (List.range 64).any (fun n => engOn rd n && (List.range 16).any (fun k =>
    slice (rd (R.TNK_INMAP n (k / 4))) (8 * (k % 4) + 7) (8 * (k % 4)) == 0x68 + p))

/-- Group 2: references to a head port that HPSET does not enable (R103); a plan player of that number is for CHK_JR_PLAN (R312). -/
def chkPorts (rd : Nat → Word) (pos hpset : Nat) : Finding :=
  findBad ((List.range 16).filter (fun p => decide (hpset ≤ p))) Chk.hpDisabled (fun p =>
    rdFld rd (F.HP_CFG_MODE p) != 0 || (rd R.AS_DEP).getLsbD p || rdFld rd (F.SP_CFG_EN p) == 1 ||
    (List.range 64).any (fun n => engOn rd n && rdFld rd (F.TNK_CFG_TXDST n) == 1 && rdFld rd (F.TNK_CFG_CMDPORT n) == p) ||
    readsPort rd p || (List.range 16).any (fun n => slice (rd (R.SCC_ACT0 n)) 12 8 == pos && actPort rd n == some p))

/-- Group 3: the auxiliary synthesizer (R227, Table CLK-5, Table CLK-7). -/
def chkAsyn (rd : Nat → Word) : Finding :=
  let n := fun p => rdFld rd (F.AS_PN_N_INT p)
  let fr := fun p => slice (rd (R.AS_PFRAC p)) 23 0
  (findBad (List.range 8) Chk.asVco (fun p =>
    !((decide (112 ≤ n p) && decide (n p ≤ 143)) || (n p == 144 && fr p == 0)))) <|>
  findBad (List.range 8) Chk.asFmax (fun p => (List.range 4).any (fun o =>
    let lim := match rdFld rd (F.AS_OUT_FMT o) with
      | 1 => 800000000
      | 2 => 400000000
      | _ => 250000000
    rdFld rd (F.AS_OUT_EN o) == 1 && rdFld rd (F.AS_OUT_FMT o) != 0 &&
      decide (lim * slice (rd (R.AS_PD p o)) 23 0 * 2 ^ 24 < 25000000 * (n p * 2 ^ 24 + fr p))))

/-- Group 4: mains phase points with MNOM code 0 (R171). -/
def chkMains (rd : Nat → Word) (pos mnom : Nat) : Finding :=
  if mnom != 0 then none else
  (findBad (List.range 4) Chk.mainsOff (fun n => rdFld rd (F.SUP_MPH_EN n) == 1)) <|>
  findBad (ringsOf rd) Chk.mainsOff (fun j =>
    rdFld rd (F.JR_BIND_TSRC j) == 2 && rdFld rd (F.JR_BIND_TRIG_POS j) == pos)

/-- Group 5: triggers and encoders (R437, R460). -/
def chkTrig (rd : Nat → Word) : Finding :=
  (findBad (List.range 16) Chk.trgHenc (fun n =>
    rdFld rd (F.TRG_CFG_HMODE n) == 3 || (rdFld rd (F.TRG_CFG_EN n) == 1 && rdFld rd (F.TRG_CFG_HMODE n) == 2 &&
      rdFld rd (F.ENC_CFG_EN (rdFld rd (F.TRG_CFG_HENC n))) == 0))) <|>
  findBad (List.range 8) Chk.encVmax (fun n =>
    rdFld rd (F.ENC_CFG_EN n) == 1 && (rd (R.ENC_VMAX n) == 0 || decide (25000000 < (rd (R.ENC_VMAX n)).toNat)))

/-! ## Group 6: precision outputs (Table POU-5) -/

/-- Instants of a lane's first repetitions, times 65 536 × vmax, with reach instants taken at vmax (R486); DIST counts as 0
without one. Six repetitions show every pair and every window: a repetition holds at least two instants. -/
def laneTimes (l : LaneRun) (vmax : Option Nat) : List Int :=
  (List.range (min l.count 6)).flatMap (fun k => l.edges.map (fun e => match vmax with
    | some v => (e.dist * fsPerSecond + (e.time + k * l.period) * 65536 * v : Nat)
    | none => ((e.time + k * l.period : Nat) : Int)))

/-- The spacing rules of a lane (Table POU-5): 1 229 FS between successive instants, at most 4 in 480 ns. -/
def laneTight (l : LaneRun) (vmax : Option Nat) : Bool :=
  let ts := laneTimes l vmax
  let u : Int := match vmax with
    | some v => (65536 * v : Nat)
    | none => 1
  (ts.zip (ts.drop 1)).any (fun c => decide (c.2 - c.1 < 1229 * u)) ||
  (ts.zip (ts.drop 4)).any (fun c => decide (c.2 - c.1 < fsPerBeat * u))

/-- The edge list of a lane is out of order (Table POU-5). -/
def laneDisorder (l : LaneRun) : Bool :=
  let e := l.edges
  (match e.head? with
    | some x => !x.lvl
    | none => true) || (match e.getLast? with
    | some x => x.lvl
    | none => true) ||
  (e.zip (e.drop 1)).any (fun c => c.1.lvl == c.2.lvl || decide (c.2.dist < c.1.dist) || decide (c.2.time < c.1.time))

/-- Group 6. -/
def chkOutputs (rd : Nat → Word) (rs : List Nat) : Finding :=
  let ps := (List.range 255).filter (progValid rd)
  let vs := (match rs with
    | [] => [none]
    | _ => rs.map (ringVmax rd)).eraseDups
  (findBad ps Chk.poLane (fun p =>
    let w := rd (R.PO_PROG p)
    let n := slice w 12 9
    let f := slice w 8 0
    let outs := (List.range n).map (fun k => slice (rd (R.PO_LANE (f + k) 0)) 4 0)
    decide (8 < n) || decide (384 < f + n) || outs.eraseDups.length != outs.length ||
    (List.range n).any (fun k =>
      let w0 := rd (R.PO_LANE (f + k) 0)
      let mode := slice w0 6 5
      decide (2048 < slice w0 22 12 + slice w0 11 8 + 1) || mode == 3 ||
        (mode != 0 && slice (rd (R.PO_LANE (f + k) 1)) 15 0 == 0)))) <|>
  (findBad ps Chk.poGroup (fun p => (progLanes rd p).any (fun l =>
    rdFld rd (F.PO_CFG_EN l.out) == 0 || rdFld rd (F.PO_GCFG_FMT (l.out / 8)) == 0 || (l.mode == 2 && !engOn rd l.geng)))) <|>
  (findBad ps Chk.poOrder (fun p => (progLanes rd p).any laneDisorder)) <|>
  findBad ps Chk.poSpacing (fun p => (progLanes rd p).any (fun l => vs.any (laneTight l)))

/-! ## Group 7: players and tallies (Table SPL-9) -/

/-- The steps of a table that a program may run: every entry that is not blank (no waybill names a start step to the check:
DEDUCED; log entry 17), and every entry that follows a reachable one without END; and whether a program runs past the table. -/
def stepsReached (m : List Host.Cell) (base : Nat) : List StepDef × Bool :=
  let r := (List.range 1024).foldl (fun (a : List StepDef × Bool) i =>
    if a.2 || stepUsed m base i then
      let s := stepAt m base i
      (s :: a.1, !s.last)
    else a) ([], false)
  (r.1.reverse, r.2)

/-- Two ranges (first byte, bytes) overlap. -/
def overlaps (a b : Nat × Nat) : Bool := decide (a.1 < b.1 + b.2) && decide (b.1 < a.1 + a.2)

/-- Some range of a list overlaps a later one. -/
def anyOverlap : List (Nat × Nat) → Bool
  | [] => false
  | a :: r => r.any (overlaps a) || anyOverlap r

/-- A splice slot (Table SPL-6). -/
structure SlotDef where
  col : Nat
  row : Nat
  march : Bool
  tal : Nat
  gtab : Nat
  cfield : Nat
  mcol : Nat
  deriving DecidableEq, Repr

/-- Slot i of the table at a store unit. -/
def slotAt (m : List Host.Cell) (tab i : Nat) : SlotDef :=
  let w0 := storeWord m (tab * 512 + 8 * i)
  let w1 := storeWord m (tab * 512 + 8 * i + 4)
  { col := slice w0 15 0, row := slice w0 23 16, march := bitOf w0 24, tal := slice w1 4 0, gtab := slice w1 7 5,
    cfield := slice w1 11 8, mcol := slice w1 31 16 }

/-- The slots of a segment. -/
def slotsOf (m : List Host.Cell) (tab : Nat) (g : SegDef) : List SlotDef :=
  (List.range g.nslot).map (fun k => slotAt m tab (g.firstSlot + k))

/-- Characters of a calendar field (Table SPL-7); none where it is reserved. -/
def fieldLen (k : Nat) : Option Nat := [4, 2, 2, 2, 3, 2, 2, 2, 4, 6, 6, 5, 1, 3][k]?

/-- Columns that a slot covers (R553, R554). -/
def slotCols (rd : Nat → Word) (s : SlotDef) : Nat :=
  if s.march then s.mcol
  else
    let n := match rdFld rd (F.TAL_CFG_TYPE s.tal) with
      | 5 => (fieldLen s.cfield).getD 0
      | 1 | 2 | 3 => rdFld rd (F.TAL_CFG_DIGITS s.tal)
      | _ => 0
    n * (slice (rd (R.GLY_TAB s.gtab)) 20 16 + 1)

/-- A slot that CHK_SP_SPLICE refuses in a segment of a number of columns. -/
def slotBad (rd : Nat → Word) (cols : Nat) (s : SlotDef) : Bool :=
  let t := rdFld rd (F.TAL_CFG_TYPE s.tal)
  decide (cols < s.col + slotCols rd s) ||
  (if s.march then t != 4
   else decide (224 < s.row) || !bitOf (rd (R.GLY_TAB s.gtab)) 31 || t == 4 || (t == 5 && (fieldLen s.cfield).isNone))

/-- More than 4 slots cover one column: some slot's first column lies in 5 of them. -/
def slotsCrowd (rd : Nat → Word) (ss : List SlotDef) : Bool :=
  ss.any (fun a => 0 < slotCols rd a &&
    decide (4 < (ss.filter (fun b => decide (b.col ≤ a.col) && decide (a.col < b.col + slotCols rd b))).length))

/-- A tally's configuration is refused (Table SPL-9, Table SPL-5, Table SPL-8). -/
def talBad (rd : Nat → Word) (t : Nat) : Bool :=
  let ty := rdFld rd (F.TAL_CFG_TYPE t)
  let dg := rdFld rd (F.TAL_CFG_DIGITS t)
  let load := rdFld rd (F.TAL_CFG_LOAD t) == 1
  let v := (rd (R.TAL_LOADV t)).toNat
  let md := (rd (R.TAL_MOD t)).toNat
  let mpat := rdFld rd (F.TAL_CFG_MPAT t)
  let m := if md = 0 then 2 ^ 32 else md
  let s := if mpat = 2 then 2 else md
  decide (5 < ty) || (decide (1 ≤ ty) && decide (ty ≤ 3) && (dg == 0 || decide (16 < dg))) ||
  (load && (((ty == 1 || ty == 3) && decide (m ≤ v)) || (ty == 2 && v == 0) || (ty == 4 && decide (s ≤ v)))) ||
  (ty == 4 && mpat != 2 && (md == 0 || decide ((if mpat = 3 then 128 else 256) < md)))

/-- Group 7. `load`: the destination range of a load in flight to this device. -/
def chkPlayers (m : List Host.Cell) (rd : Nat → Word) (rs : List Nat) (load : Option (Nat × Nat)) : Finding :=
  let sps := (List.range 16).filter (fun n => rdFld rd (F.SP_CFG_EN n) == 1)
  if sps.isEmpty then findBad (List.range 32) Chk.talCfg (talBad rd) else
  let tab := slice (rd R.SP_SEGTAB) 14 0
  let slt := slice (rd R.SP_SLTAB) 14 0
  let segs := ((List.range 4096).map (fun s => (s, segAt m tab s))).filter (fun c => c.2.valid)
  let seg? := fun s : Nat => (segs.find? (fun c => c.1 == s)).map (fun c => c.2)
  let base := fun n => slice (rd (R.SP_STBASE n)) 14 0
  let steps := sps.map (fun n => (n, stepsReached m (base n)))
  let stepsOf := fun n : Nat => ((steps.find? (fun c => c.1 == n)).map (fun c => c.2.1)).getD []
  let granN := fun n : Nat => let k := rdFld rd (F.SP_SBCFG_N n); if k = 0 then 0 else 2 ^ k
  let bufs := (sps.filter (fun n => granN n != 0)).map (fun n => (slice (rd (R.SP_SBBASE n)) 14 0 * 512, granN n * granBytes m rd n))
  let glys := ((List.range 8).map (fun t => rd (R.GLY_TAB t))).filterMap (fun w =>
    if bitOf w 31 then some (slice w 14 0 * 512, 512 * (slice w 20 16 + 1)) else none)
  let objs := sps.map (fun n => (base n * 512, 16384)) ++ [(tab * 512, 32768), (slt * 512, 8192)] ++
    segs.filterMap (fun c => if c.2.stream then none else some (c.2.base * 512, c.2.ngran * 16 * c.2.colBytes))
  let out := fun r : Nat × Nat => decide (storeBytes < r.1 + r.2)
  (if (objs ++ bufs ++ glys).any out || objs.any (fun o => (bufs ++ glys).any (overlaps o)) || anyOverlap (bufs ++ glys) ||
      (match load with
        | some l => (objs ++ glys).any (overlaps l)
        | none => false) then some (0, Chk.spStore) else none) <|>
  (findBad (segs.map (fun c => c.1)) Chk.spSeg (fun s => match seg? s with
    | some g => decide (g.ngran < 2) || decide (8 < g.nslot) || decide (1024 < g.firstSlot + g.nslot)
    | none => false)) <|>
  (findBad sps Chk.spSeg (fun n => (stepsOf n).any (fun s => match seg? s.seg with
    | some g => g.stream && decide (granN n < g.ngran)
    | none => false))) <|>
  (findBad sps Chk.spStep (fun n => ((steps.find? (fun c => c.1 == n)).map (fun c => c.2.2)).getD false ||
    (stepsOf n).any (fun s => (seg? s.seg).isNone || s.times == 0 || decide (4 < s.adv) ||
      ((s.adv == 1 || s.adv == 3) && decide (15 < s.src)) || (decide (1 ≤ s.adv) && decide (s.adv ≤ 3) && s.waitMax == 0)))) <|>
  (findBad sps Chk.spRate (fun n =>
    let cper := (rd (R.SP_CPER_LO n)).toNat + 2 ^ 32 * slice (rd (R.SP_CPER_HI n)) 7 0
    let rate := rdFld rd (F.SP_PLANRATE_PLANNING n)
    if rdFld rd (F.SP_CLK_MODE n) = 0 then decide (cper < fsPerBeat)
    else rate == 0 || decide (2083333 < rate) || (usesOf rd rs n).any (fun j => match ringVmax rd j with
      | some v => decide (2083333 * (rd (R.SP_CPITCH n)).toNat < v * 65536) || rd (R.SP_CPITCH n) == 0
      | none => true))) <|>
  (findBad (segs.map (fun c => c.1)) Chk.spSplice (fun s => match seg? s with
    | some g => (slotsOf m slt g).any (slotBad rd (g.ngran * 16)) || slotsCrowd rd (slotsOf m slt g)
    | none => false)) <|>
  (findBad sps Chk.spMarker (fun n => sps.any (fun k => k < n &&
    rdFld rd (F.SP_CFG_MKOWN n) &&& rdFld rd (F.SP_CFG_MKOWN k) != 0))) <|>
  (findBad sps Chk.spMarker (fun n => (stepsOf n).any (fun s =>
    (s.mkStart != 0 || s.mkEnd != 0) && !(rdFld rd (F.SP_CFG_MKOWN n)).testBit s.mksel))) <|>
  (findBad sps Chk.spStream (fun n => decide (1 < (usesOf rd rs n).length) && (stepsOf n).any (fun s => match seg? s.seg with
    | some g => g.stream
    | none => false))) <|>
  findBad (List.range 32) Chk.talCfg (talBad rd)

/-! ## Group 8: head ports -/

/-- Group 8 (R579, R599, R616). -/
def chkHeads (rd : Nat → Word) (rs : List Nat) (hpset : Nat) : Finding :=
  let ps := (List.range 16).filter (fun p => decide (p < hpset))
  let mode := fun p => rdFld rd (F.HP_CFG_MODE p)
  (findBad ps Chk.hpLead (fun p => mode p == 1 && (decide (rdFld rd (F.HP_LATMAX_NS p) < 480) ||
    decide (8 < leadOf (rdFld rd (F.HP_LATMAX_NS p)) (rdFld rd (F.HP_CABLE_CABLE p)))))) <|>
  (findBad ps Chk.hpMode (fun p => (!(usesOf rd rs p).isEmpty && mode p != 1) ||
    (mode p == 2 && !engOn rd (rdFld rd (F.HP_ENG_ENG p))))) <|>
  findBad ps Chk.hpRate (fun p =>
    let lim := 32 * rdFld rd (F.HP_EXPECT1_MAXCOL p)
    mode p == 1 && rdFld rd (F.SP_CFG_EN p) == 1 &&
    (if rdFld rd (F.SP_CLK_MODE p) = 0 then
      decide (lim * ((rd (R.SP_CPER_LO p)).toNat + 2 ^ 32 * slice (rd (R.SP_CPER_HI p)) 7 0) < fsPerSecond)
     else (usesOf rd rs p).any (fun j => match ringVmax rd j with
      | some v => decide (lim * (rd (R.SP_CPITCH p)).toNat < v * 65536)
      | none => false)))

/-! ## Group 9: Tinker engines (Table TNK-6) -/

/-- The next states that an entry names: NS0 to NS3 and TOSTATE. -/
def nextStates (rd : Nat → Word) (n s : Nat) : List Nat :=
  let w1 := rd (R.TNK_PROG n s 1)
  [slice w1 5 0, slice w1 13 8, slice w1 21 16, slice w1 29 24, slice (rd (R.TNK_PROG n s 0)) 21 16]

/-- The states reachable from START. -/
def statesReached (rd : Nat → Word) (n : Nat) : List Nat :=
  (List.range 64).foldl (fun l _ => (l ++ l.flatMap (nextStates rd n)).eraseDups) [rdFld rd (F.TNK_CFG_START n)]

/-- The checked states of an engine (R667). -/
def checkedStates (rd : Nat → Word) (n : Nat) : List Nat :=
  if rdFld rd (F.TNK_CFG_SWAPMODE n) = 1 then statesReached rd n else List.range 64

/-- The input slots that a state reads. -/
def slotsRead (w0 : Word) : List Nat :=
  ([slice w0 5 0, slice w0 13 8].filter (fun c => decide (16 ≤ c) && decide (c < 32))).map (· - 16) ++
  (let w := slice w0 30 24; if bitOf w0 31 && decide (64 ≤ w) && decide (w < 96) then [w % 16] else [])

/-- CHK_TNK_ENTRY of one state. -/
def entryBad (rd : Nat → Word) (n s : Nat) : Bool :=
  let w0 := rd (R.TNK_PROG n s 0)
  let w1 := rd (R.TNK_PROG n s 1)
  let w3 := rd (R.TNK_PROG n s 3)
  let csel := fun c : Nat => (decide (10 ≤ c) && decide (c < 16)) || decide (40 ≤ c)
  csel (slice w0 5 0) || csel (slice w0 13 8) || decide (99 ≤ slice w0 30 24) || decide (6 ≤ slice w3 2 0) ||
  w0 &&& 0x00808080#32 != 0 || w1 &&& 0xC0C0C0C0#32 != 0 || w3 &&& 0xFFFE0008#32 != 0 ||
  (slotsRead w0).any (fun k => decide (0xA8 < slice (rd (R.TNK_INMAP n (k / 4))) (8 * (k % 4) + 7) (8 * (k % 4))))

/-- The pins that an engine maps (R639). -/
def pinsOf (rd : Nat → Word) (n : Nat) : List Nat :=
  (List.range 8).filterMap (fun k =>
    let v := slice (rd (R.TNK_OUTMAP n (k / 4))) (8 * (k % 4) + 7) (8 * (k % 4))
    if v.testBit 7 then some (v % 64) else none)

/-- The setting of a pin (TNK_GIOCFG). -/
def gioCfg (rd : Nat → Word) (g : Nat) : Nat := slice (rd (R.TNK_GIOCFG (g / 16))) (2 * (g % 16) + 1) (2 * (g % 16))

/-- The members of a sync group. -/
def groupMask (rd : Nat → Word) (g : Nat) : Nat := (rd (R.TNK_SGMASK_LO g)).toNat + 2 ^ 32 * (rd (R.TNK_SGMASK_HI g)).toNat

/-- CHK_TNK_QUEUE (R648), by the first engine concerned. -/
def queueBad (rd : Nat → Word) (rs : List Nat) (n : Nat) : Bool :=
  let js := joinsOf rd
  let w := (js.filter (fun j => j.writer == n)).length
  let r := (js.filter (fun j => j.reader == n)).length
  let l := (js.filter (fun j => j.lenders.contains n)).length
  let tx := rdFld rd (F.TNK_CFG_TXDST n) == 1
  let group := fun e : Nat => (List.range 16).find? (fun g => (groupMask rd g).testBit e)
  js.any (fun j => j.writer == n && j.reader == n) || decide (1 < w) || decide (1 < r) ||
  (decide (0 < l) && decide (1 < w + r + l)) ||
  (decide (0 < l) && engOn rd n && (statesReached rd n).any (fun s => slice (rd (R.TNK_PROG n s 3)) 2 0 == 2)) ||
  (decide (0 < r) && (rs.any (fun j => rdFld rd (F.JR_PLAN_ENG_EN j) == 1 && rdFld rd (F.JR_PLAN_ENG j) == n) ||
    rdFld rd (F.TNK_CFG_HOSTQ n) == 1)) ||
  js.any (fun j => j.writer == n && (match group n with
    | some g => !(j.reader :: j.lenders).all (fun e => (groupMask rd g).testBit e)
    | none => true)) ||
  (tx && engOn rd n && (let o := rd (R.HP_CMDOWN (rdFld rd (F.TNK_CFG_CMDPORT n))); !(bitOf o 0 && slice o 6 1 == n))) ||
  (tx && decide (0 < w))

/-- The engines on which checked states of an engine wait in group without a timeout or a host exit (R665, R666). -/
def waitsOn (rd : Nat → Word) (n : Nat) : List Nat :=
  let mine := (List.range 16).filter (fun g => (groupMask rd g).testBit n)
  let peer := fun m : Nat => m == n || mine.any (fun g => (groupMask rd g).testBit m)
  let js := joinsOf rd
  (((checkedStates rd n).flatMap (fun s =>
    let w0 := rd (R.TNK_PROG n s 0)
    let q := slice (rd (R.TNK_PROG n s 3)) 2 0
    if bitOf w0 22 || slice (rd (R.TNK_PROG n s 2)) 31 16 != 0 then []
    else (if bitOf w0 31 && decide (slice w0 30 24 < 64) then [slice w0 30 24] else []) ++
      (if q = 1 then (js.filter (fun j => j.reader == n)).map Join.writer else []) ++
      (if q = 2 then (js.filter (fun j => j.writer == n)).map Join.reader else []))).filter peer).eraseDups

/-- An engine lies on a cycle of the wait graph. -/
def waitCycle (edges : List (Nat × List Nat)) (n : Nat) : Bool :=
  let out := fun e : Nat => ((edges.find? (fun c => c.1 == e)).map (fun c => c.2)).getD []
  ((List.range edges.length).foldl (fun l _ => (l ++ l.flatMap out).eraseDups) (out n)).contains n

/-- Group 9. -/
def chkEngines (m : List Host.Cell) (rd : Nat → Word) (rs : List Nat) : Finding :=
  let on := (List.range 64).filter (engOn rd)
  let sps := (List.range 16).filter (fun n => rdFld rd (F.SP_CFG_EN n) == 1)
  (findBad on Chk.tnkEntry (fun n => (checkedStates rd n).any (entryBad rd n))) <|>
  (findBad on Chk.tnkDiv (fun n => decide ((rd (R.TNK_DIV n)).toNat < 0x10000))) <|>
  (findBad on Chk.tnkPin (fun n => (pinsOf rd n).any (fun g => gioCfg rd g == 0 ||
    on.any (fun k => k < n && (pinsOf rd k).contains g)))) <|>
  (findBad (List.range 64) Chk.tnkPin (fun g => gioCfg rd g == 3)) <|>
  (findBad (List.range 64) Chk.tnkGroup (fun n =>
    let gs := (List.range 16).filter (fun g => (groupMask rd g).testBit n)
    decide (1 < gs.length) || (!gs.isEmpty && !engOn rd n))) <|>
  (findBad (List.range 64) Chk.tnkQueue (queueBad rd rs)) <|>
  (findBad rs Chk.tnkRef (fun j => rdFld rd (F.JR_PLAN_ENG_EN j) == 1 && !engOn rd (rdFld rd (F.JR_PLAN_ENG j)))) <|>
  (findBad sps Chk.tnkRef (fun n => (stepsReached m (slice (rd (R.SP_STBASE n)) 14 0)).1.any (fun s =>
    s.adv == 2 && !engOn rd s.src))) <|>
  (let edges := on.map (fun n => (n, waitsOn rd n)); findBad on Chk.waitCycle (waitCycle edges))

/-! ## Groups 10 and 11: job rings and the budget -/

/-- Shares that rings hold, summed (R324). -/
def shares (rd : Nat → Word) (rs : List Nat) (reg : Nat → Nat) : Nat := (rs.map (fun j => slice (rd (reg j)) 13 0)).sum

/-- Group 10, on the manager (R31, R312, R324, Table JOB-1). An outputs' share counts on every output of the executor: the plan
names none (DEDUCED; log entry 18). -/
def Dev.chkRings (d : Dev) (rd : Nat → Word) : Finding :=
  if !d.isMgr then none else
  let rs := ringsOf rd
  let ex := fun j => rdFld rd (F.JR_BIND_EXEC_POS j)
  let tp := fun j => rdFld rd (F.JR_BIND_TRIG_POS j)
  let src := fun j => rdFld rd (F.JR_BIND_TSRC j)
  let alone := d.boot.role == .standalone
  let hpset := fun p : Nat => if p = d.pos then d.fld F.SUP_RCODE_HPSET
    else ((d.wr.decl.find? (fun x => x.1 == p)).map (fun x => x.2.2.1)).getD 0
  (findBad rs Chk.jrPlan (fun j =>
    let idx := rdFld rd (F.JR_BIND_TIDX j)
    decide (3 < src j) || (src j == 0 && decide (15 < idx)) || (src j == 2 && decide (3 < idx)) || (src j == 3 && idx != 0) ||
    !d.provisioned (ex j) || !d.provisioned (tp j) || (alone && (ex j != 0 || tp j != 0)) ||
    (planOf rd j).any (fun n => decide (hpset (ex j) ≤ n)))) <|>
  (findBad rs Chk.bindReach (fun j => decide (src j < 3) && decide (4 < d.bindLat (tp j) (ex j)))) <|>
  (findBad rs Chk.allotSum (fun j =>
    let at_ := ringsAt rd (ex j)
    (planOf rd j).any (fun n => decide (10000 < shares rd (usesOf rd at_ n) R.JR_ALLOT_HP) ||
      decide (10000 < shares rd (usesOf rd at_ n) R.JR_ALLOT_SP)) ||
    decide (10000 < shares rd at_ R.JR_ALLOT_PO) || decide (10000 < shares rd rs R.JR_ALLOT_BS)))

/-- Group 11: the configured load, which the declared rates give, against the limits of Table SYS-3: 16 bindings a beat on one
executor; 4 records a beat, where a job costs its manager an ACCEPT and a DISPATCH record and its executor an ARMED and a terminal one;
262 144 jobs/s on the Innkeeper (R24; DEDUCED; log entry 19). Rates times 3 over 6 250 000 are loads per beat of 480 ns. -/
def Dev.chkBudget (d : Dev) (rd : Nat → Word) : Finding :=
  let rate := fun rs : List Nat => (rs.map (fun j => rdFld rd (F.JR_ACFG_MAXRATE j))).sum
  let own := rate (ringsAt rd d.pos)
  let all := if d.isMgr then rate (ringsOf rd) else 0
  if 16 * 6250000 < 3 * own then some (0, Chk.beatBudget)
  else if 4 * 6250000 < 3 * (2 * own + 2 * all) then some (1, Chk.beatBudget)
  else if 262144 < all then some (2, Chk.beatBudget)
  else none

/-! ## Group 12: jobs in flight (Table SCC-3) -/

/-- The accepted, unbound jobs of an executor, as the manager holds them. -/
def Dev.unboundAt (d : Dev) (p : Nat) : List Job :=
  d.jobs.filter (fun j => (j.st == .accepted || j.st == .dispatched) && j.exec == p && !j.body.isEmpty)

/-- An edge program reads otherwise under the stage image. -/
def Dev.progChanged (d : Dev) (p : Nat) : Bool :=
  progValid d.reg p != progValid d.stg p || decide (progLanes d.reg p ≠ progLanes d.stg p)

/-- What a job's start steps reach on a player reads otherwise under the stage image: table bases, clock, glyph tables of its
slots. Descriptors and slots of an unchanged base cannot change: they are protected (R521). -/
def Dev.playChanged (d : Dev) (m : List Host.Cell) (ring : Nat) (body : List Word) : Bool :=
  (d.jobPlays ring body).any (fun c =>
    let n := c.1
    let diff := fun a : Nat => d.reg a != d.stg a
    let tab := d.fld F.SP_SEGTAB_SEGMENT
    let slots := ((stepRun m (d.fld (F.SP_STBASE_STEP n)) 1024 c.2).1.map (fun s => segAt m tab s.2.seg)).flatMap
      (slotsOf m (d.fld F.SP_SLTAB_SPLICE))
    diff (R.SP_STBASE n) || diff R.SP_SEGTAB || diff R.SP_SLTAB || diff (R.SP_CLK n) || diff (R.SP_CPER_LO n) ||
    diff (R.SP_CPER_HI n) || diff (R.SP_CPITCH n) || diff (R.SP_PLANRATE n) ||
    slots.any (fun s => !s.march && diff (R.GLY_TAB s.gtab)))

/-- CHK_PO_BUSY and CHK_SP_BUSY for this device's image, from the bodies that the manager holds. -/
def Dev.busyBodies (d : Dev) (m : List Host.Cell) : Finding :=
  if !d.isMgr || d.scc.fresh then none else
  let js := d.unboundAt d.pos
  (findBad (js.filterMap (fun j => progOf j.body)) Chk.poBusy d.progChanged) <|>
  ((js.find? (fun j => d.playChanged m j.ring j.body)).map (fun j =>
    (((d.jobPlays j.ring j.body).map (fun c => c.1)).headD 0, Chk.spBusy)))

/-- CHK_TAL_BUSY and CHK_HP_LEAD of R623: the executor's own tests. -/
def Dev.busyExec (d : Dev) : Finding :=
  if d.scc.fresh then none else
  let diff := fun a : Nat => d.reg a != d.stg a
  (findBad (List.range 32) Chk.talBusy (fun t => !(d.tal t).open_.isEmpty &&
    (diff (R.TAL_CFG t) || diff (R.TAL_STEP t) || diff (R.TAL_MOD t) || rdFld d.stg (F.TAL_CFG_LOAD t) == 1))) <|>
  findBad (List.range 16) Chk.hpLead (fun p => (diff (R.HP_LATMAX p) || diff (R.HP_CABLE p)) &&
    d.jobs.any (fun j => j.active && j.exec == d.pos && j.plays.any (fun x => x.hp == p)))

/-- CHK_JR_BUSY (R314): a ring with a non-terminal job whose JR_BIND or JR_PLAN changes; on the first commit after a start that
reset the image, only an executor position other than the one journaled (R714). -/
def Dev.busyRings (d : Dev) : Finding :=
  if !d.isMgr then none else
  let js := d.jobs
  findBad (js.map Job.ring) Chk.jrBusy (fun r =>
    if d.scc.fresh then js.any (fun j => j.ring == r && j.exec != rdFld d.stg (F.JR_BIND_EXEC_POS r))
    else d.reg (R.JR_BIND r) != d.stg (R.JR_BIND r) || d.reg (R.JR_PLAN r) != d.stg (R.JR_PLAN r))

/-! ## The whole check -/

/-- Groups 1 to 11 on this device's stage image (R688, R690). A worker's copies of the job-ring registers stand for the
manager's image (R689). -/
def Dev.chkImage (d : Dev) (m : List Host.Cell) (scope : Nat) : Finding :=
  let rd := d.stg
  let rs := ringsAt rd d.pos
  let load := match d.sp.load with
    | some l => if l.pos = d.pos ∧ l.stream = false then some (l.dst, l.len) else none
    | none => none
  chkActions rd scope <|> chkPorts rd d.pos (d.fld F.SUP_RCODE_HPSET) <|> chkAsyn rd <|>
  chkMains rd d.pos (d.fld F.SUP_RCODE_MNOM) <|> chkTrig rd <|> chkOutputs rd rs <|> chkPlayers m rd rs load <|>
  chkHeads rd rs (d.fld F.SUP_RCODE_HPSET) <|> chkEngines m rd rs <|> d.chkRings rd <|> d.chkBudget rd

/-- Group 12 on this device, in its order. -/
def Dev.chkBusy (d : Dev) (m : List Host.Cell) : Finding := d.busyBodies m <|> d.busyExec <|> d.busyRings

/-- The check of this device's image, groups 1 to 12. -/
def Dev.chkAll (d : Dev) (m : List Host.Cell) (scope : Nat) : Finding := d.chkImage m scope <|> d.chkBusy m

end Sys2Proof.Machine
end

