-- ==== Sys2Proof/Machine/Admission.lean ====
section
/-!
DEFINITION. Sys2Proof/Machine/Admission.lean: the Innkeeper: examination of waybills, acceptance and refusal, dispatch, host
cancels, and writes of the expected sequence (07_waybills_and_admission.md, R310 to R356).
-/
namespace Sys2Proof.Machine
open Sys2Proof

/-! ## Rings that may be examined -/

/-- Depth of a ring's submission ring (R275). -/
def Dev.sqDepth (d : Dev) (j : Nat) : Nat := 2 ^ d.fld (F.JR_SQCFG_N j)

/-- W: the length of a ring's ALREADY window (R319). -/
def Dev.winLen (d : Dev) (j : Nat) : Nat := if d.hostSpi then 16 else d.sqDepth j

/-- Entries that a completion queue can hold (R281, R302). -/
def Dev.cqDepth (d : Dev) (q : Nat) : Nat := if d.hostSpi then 16 else 2 ^ d.fld (F.HST_CQ_CFG_N q)

/-- The queue is full (R282, R285, R302). -/
def Dev.cqFull (d : Dev) (q : Nat) : Bool :=
  decide (d.cqDepth q ≤ (d.num (R.HST_CQ_TAIL q) + 2 ^ 32 - d.num (R.HST_CQ_HEAD q)) % 2 ^ 32)

/-- The waybills read and not yet examined, oldest first. -/
def Dev.readyOf (d : Dev) (j : Nat) : List (List Word) := mget [] d.adm.ready j

/-- The Innkeeper works: active manager or standalone, in RUN or READY, no BRACE, ledger mounted (R149, R176, R330). -/
def Dev.keeps (d : Dev) : Bool := d.isMgr && decide (d.pstate ≤ 1) && !d.braced && d.boot.replayed && !d.ldg.corrupt

/-- It admits from the host: not while HOST_GO is awaited after a takeover (R293). -/
def Dev.admits (d : Dev) : Bool := d.keeps && !d.hst.held

/-- The accepted jobs and those a commit tests would change: the waybill waits while the commit is in progress (R687). -/
def Dev.frozenBy (d : Dev) (m : List Host.Cell) (j : Nat) (b : List Word) (far : FarExec) : Bool :=
  match d.scc.cur with
  | none => false
  | some c =>
    let ex := d.fld (F.JR_BIND_EXEC_POS j)
    (c.scope.testBit d.pos && (d.reg (R.JR_BIND j) != d.stg (R.JR_BIND j) || d.reg (R.JR_PLAN j) != d.stg (R.JR_PLAN j))) ||
    (c.scope.testBit ex && (if ex = d.pos then (match progOf b with
      | some p => d.progChanged p
      | none => false) || d.playChanged m j b else far.frozen))

/-- Of rings with work, the one served next: highest priority, then round-robin after the last one of that priority served (R326,
R332). -/
def Dev.nextRing (d : Dev) (last : SMap Nat) (rs : List Nat) : Option Nat :=
  let prio := fun j => d.fld (F.JR_ACFG_PRIO j)
  let turn := fun j : Nat => (j + 511 - mget 511 last (prio j)) % 512
  rs.foldl (fun b j => match b with
    | some x => if prio x < prio j ∨ (prio x = prio j ∧ turn j < turn x) then some j else some x
    | none => some j) none

/-- The seal budget of this beat (R45, R378): records due of precedence 1 and 2, and with the ACCEPT records. -/
def Dev.dueCount (d : Dev) (prec : Nat) : Nat := ((d.ldg.queue.filter (fun q => decide (q.prec ≤ prec))).map (fun q => q.recs.length)).sum

/-- Records of precedence 1 and 2 alone exceed the budget (R45). -/
def Dev.backlog (d : Dev) : Bool := decide (4 < d.dueCount 2)

/-! ## The checks of Table JOB-5 -/

/-- An answer to a waybill: type, reason, DETAIL0. -/
structure Answer where
  typ : Nat
  reason : Reason
  d0 : Nat := 0
  hm : Nat := 0
  deriving DecidableEq, Repr

/-- A refusal. -/
def refuse (r : Reason) (d0 : Nat) : Option Answer := some { typ := 3, reason := r, d0 := d0 }

/-- Check 2: ALREADY or REF_ORDER (R318, R319, R349). -/
def Dev.chkSeq (d : Dev) (j rseq : Nat) : Option Answer :=
  if rseq = d.num (R.JR_NEXTSEQ j) then none else
  match ((mget [] d.adm.win j).take (d.winLen j)).find? (fun e => e.rseq == rseq) with
  | some e =>
    let st := match d.job? e.hm with
      | some x => x.st
      | none => e.st
    some { typ := 2, reason := Rsn.already, d0 := st.code, hm := e.hm }
  | none => refuse Rsn.refOrder (d.num (R.JR_NEXTSEQ j))

/-- Check 3: the format is right (Table JOB-2, R11, R315, R316, R374); `cal` says that a CALENDAR tally is among the tallies. -/
def Dev.formatOk (d : Dev) (j : Nat) (b : List Word) (cal : Bool) : Bool :=
  let w := fun k => b.getD k 0
  let cls := slice (w 1) 9 8
  let slack := slice (w 3) 31 16
  let dist := bitOf (w 1) 10
  let host := d.fld (F.JR_BIND_TSRC j) == 3
  let ts := talliesOf b
  slice (w 1) 7 0 == 1 && cls != 3 && slice (w 1) 15 11 == 0 && (w 8 &&& 0x7C007C00#32) == 0 && (w 9 &&& 0x7C007C00#32) == 0 &&
  slice (w 10) 31 8 == 0 && (if cls = 1 then slack != 0 else slack == 0) &&
  (if host then decide (slice (w 6) 7 0 < 240) && slice (w 5) 31 11 == 0
   else w 5 == 0 && w 6 == 0 && w 7 == 0) &&
  (!dist || (!host && d.flag (F.JR_BIND_ENC_EN j))) &&
  (!d.flag (F.JR_ACFG_CRCEN j) || crc32Words (b.take 15) == w 15) &&
  decide (ts.length ≤ 8) && (decide (ts.length ≤ 4) || !cal)

/-- The job that a waybill would make, for the functions that read its schedule. -/
def Dev.draft (d : Dev) (j : Nat) (b : List Word) : Job :=
  let r : Job := { ring := j, rseq := (b.getD 0 0).toNat, hm := 0, body := b, exec := d.fld (F.JR_BIND_EXEC_POS j),
                   cls := slice (b.getD 1 0) 9 8 }
  { r with lanes := match progOf b with
      | some p => progLanes d.reg p
      | none => [] }

/-- A start step is configured: its program ends in the table, and each of its steps plays a valid segment. -/
def Dev.stepOk (d : Dev) (m : List Host.Cell) (sp step : Nat) : Bool :=
  let r := stepRun m (d.fld (F.SP_STBASE_STEP sp)) 1024 step
  r.2 && r.1.all (fun s => s.2.times != 0 && (segAt m (d.fld F.SP_SEGTAB_SEGMENT) s.2.seg).valid)

/-- Check 6 on this device: which reference is not configured, as Table JOB-9 numbers them (R487, R555). -/
def Dev.missingRef (d : Dev) (m : List Host.Cell) (j : Nat) (b : List Word) : Option Nat :=
  let named := (List.range 4).filter (fun k => (playStep b k).isSome)
  let plays := d.jobPlays j b
  let ts := talliesOf b
  let slots := plays.flatMap (fun c => ((stepRun m (d.fld (F.SP_STBASE_STEP c.1)) 1024 c.2).1.flatMap (fun s =>
    slotsOf m (d.fld F.SP_SLTAB_SPLICE) (segAt m (d.fld F.SP_SEGTAB_SEGMENT) s.2.seg))))
  if named.any (fun k => match planSp (d.plan j) k with
      | some p => !d.flag (F.SP_CFG_EN p)
      | none => true) then some 0
  else if plays.any (fun c => !d.stepOk m c.1 c.2) then some 1
  else if (match progOf b with
      | some p => !progValid d.reg p || (!d.flag (F.JR_BIND_ENC_EN j) && (progLanes d.reg p).any (fun l => l.edges.any (fun e => e.dist != 0)))
      | none => false) then some 2
  else if ts.any (fun t => d.fld (F.TAL_CFG_TYPE t) == 0) || slots.any (fun s => !ts.contains s.tal) then some 3
  else none

/-- The reasons of the fences of R217. They do not stop admission: in holdover the Innkeeper keeps accepting, and dispatched jobs wait (R218;
DEDUCED against R787: log entry 153). -/
def clockFences : List Reason := [Rsn.refLoss, Rsn.refFreq, Rsn.spllUnlock, Rsn.holdoverFlag]

/-- The facts about the executor and the trigger device of a ring: read from this device for what it is itself, else as the other
device says. A fence of this device's own units is named first (DESIGN CHOICE; log entry 148). -/
def Dev.execFacts (d : Dev) (m : List Host.Cell) (j : Nat) (b : List Word) (far : FarExec) : FarExec :=
  let glitch := if d.fld (F.JR_BIND_TRIG_POS j) = d.pos then d.fld (F.TRG_CFG_GLITCH (d.fld (F.JR_BIND_TIDX j))) else far.glitch
  let dr := d.draft j b
  let named := fun l : List Nat => (l.find? (fun k => (d.dom k).causes.any (fun r => !clockFences.contains r))).map (fun k => (BitVec.ofNat 16 k, (d.dom k).reason))
  let source := if d.fld (F.JR_BIND_TRIG_POS j) = d.pos then d.sourceDoms j else []
  let far := { far with fenced := far.fenced.filter (fun x => !clockFences.contains x.2) }
  if dr.exec != d.pos then { far with glitch := glitch, fenced := named source <|> far.fenced } else
  let plays := d.buildPlays m dr
  let dr := { dr with plays := plays, body := b }
  { fenced := named (d.jobDoms dr ++ source) <|> far.fenced,
    missing := match d.missingRef m j b with
      | some 0 => some 0
      | some 1 => some 1
      | some 2 => some 2
      | some _ => some 3
      | none => none,
    calendar := (talliesOf b).any (fun t => d.fld (F.TAL_CFG_TYPE t) == 5),
    cols := plays.map (fun p => (Fin.ofNat 16 p.hp, progCols m p.segTab (stepRun m p.stBase 1024 p.step).1)),
    edges := ((dr.lanes.map LaneRun.out).eraseDups).map (fun n => (Fin.ofNat 32 n,
      ((dr.lanes.filter (fun l => l.out == n)).map (fun l => l.edges.length * l.count)).sum)),
    occ := plays.map (fun p => (Fin.ofNat 16 p.sp, p.occ)),
    lead := d.jobLead dr, vmax := d.num (R.ENC_VMAX (d.fld (F.JR_BIND_ENC j))), glitch := glitch, frozen := false }

/-- Check 5: provisioned and not fenced (R787, Table JOB-9). -/
def Dev.chkFenced (d : Dev) (j : Nat) (f : FarExec) : Option Answer :=
  let ex := d.fld (F.JR_BIND_EXEC_POS j)
  let code := fun k : Nat => k + 2 ^ 16 * (d.dom k).reason.toNat
  if d.fenced (domRing j) then refuse Rsn.refFenced (code (domRing j))
  else if d.fenced (domWorker ex) || !d.provisioned ex then refuse Rsn.refFenced (code (domWorker ex))
  else match f.fenced with
    | some (k, r) => refuse Rsn.refFenced (k.toNat + 2 ^ 16 * r.toNat)
    | none => none

/-- The least trigger-to-edge delay of a ring in beats (R27, R28, R433, R582). -/
def Dev.minDelay (d : Dev) (j : Nat) (f : FarExec) : Nat :=
  let ex := d.fld (F.JR_BIND_EXEC_POS j)
  let tp := d.fld (F.JR_BIND_TRIG_POS j)
  2 + (if tp = ex then 0 else d.bindLat tp ex) + (if d.fld (F.JR_BIND_TSRC j) = 0 then ceilDiv f.glitch 240 else 0) + (f.lead - 1)

/-- Check 7: the delay window (R32, R65, R66, Table BEA-4). -/
def Dev.chkWindow (d : Dev) (j : Nat) (b : List Word) (f : FarExec) : Option Answer :=
  let dr := d.draft j b
  let mn := d.minDelay j f
  if d.fld (F.JR_BIND_TSRC j) = 3 then
    if (d.now + 2) * fsPerBeat ≤ dr.htrig ∧ dr.htrig ≤ (d.now + 2 ^ 32) * fsPerBeat then none else refuse Rsn.refWindow 2
  else if dr.dkind then
    if mn * 3 * 65536 * f.vmax ≤ dr.delayField * 6250000 then none else refuse Rsn.refWindow mn
  else if mn * fsPerBeat ≤ dr.delayField then none else refuse Rsn.refWindow mn

/-- Check 9: the allotments, in the order of Table JOB-4 (R325). Not for SERVICE (Table JOB-3). -/
def Dev.chkAllot (d : Dev) (j : Nat) (b : List Word) (f : FarExec) : Option Answer :=
  if slice (b.getD 1 0) 9 8 = 2 then none else
  let rate := d.fld (F.JR_ACFG_MAXRATE j)
  let fits := fun (qty cap reg : Nat) => decide (qty * rate * 10000 ≤ slice (d.reg reg) 13 0 * cap)
  let bad := fun (code cap reg : Nat) (l : List (Nat × Nat)) =>
    ((l.find? (fun c => !fits c.2 cap reg)).map (fun c => code + 256 * c.1))
  let remote := d.fld (F.JR_BIND_TSRC j) != 3 && d.fld (F.JR_BIND_TRIG_POS j) != d.fld (F.JR_BIND_EXEC_POS j)
  match bad 1 2083333 (R.JR_ALLOT_HP j) (f.cols.map (fun c => (c.1.val, c.2))) <|>
      bad 2 8333333 (R.JR_ALLOT_PO j) (f.edges.map (fun c => (c.1.val, c.2))) <|>
      bad 3 2083333 (R.JR_ALLOT_SP j) (f.occ.map (fun c => (c.1.val, c.2))) <|>
      bad 4 33333333 (R.JR_ALLOT_BS j) [(0, if remote then 1 else 0)] with
  | some code => refuse Rsn.refCapacity code
  | none => none

/-- The answer to a waybill, none when it is accepted: the checks of Table JOB-5 in order (R327). Once every hallmark has been
assigned, R354 refuses at the first check (DEDUCED; log entry 20). -/
def Dev.examineAnswer (d : Dev) (m : List Host.Cell) (j : Nat) (b : List Word) (far : FarExec) : Option Answer :=
  let f := d.execFacts m j b far
  (if !d.flag (F.JR_BIND_VALID j) || decide (2 ^ 48 ≤ d.adm.nextHm) then refuse Rsn.refState 0 else none) <|>
  d.chkSeq j (b.getD 0 0).toNat <|>
  (if d.formatOk j b f.calendar then none else refuse Rsn.refFormat 0) <|>
  (if d.flag (F.JR_ACFG_DUALREQ j) && !d.ldg.dual then refuse Rsn.refSingleSeal 0 else none) <|>
  d.chkFenced j f <|>
  (match f.missing with
    | some k => refuse Rsn.refCapacity (5 + 256 * k.val)
    | none => if f.calendar && !d.flag F.CAL_STAT_VALID then refuse Rsn.refState 0 else none) <|>
  d.chkWindow j b f <|>
  (if 4096 ≤ (d.jobs.filter (fun x => x.ring == j)).length then refuse Rsn.refCapacity 0 else none) <|>
  d.chkAllot j b f <|>
  (if 65536 ≤ d.jobs.length ∨ d.adm.tokens < 10 ^ 9 ∨ d.backlog ∨ d.saturated then refuse Rsn.refLedgerBusy 0 else none)

/-! ## Answers -/

/-- Post a refusal or an ALREADY answer (R320, R346); refusals are counted. -/
def Dev.answer (d : Dev) (j : Nat) (b : List Word) (a : Answer) : Dev :=
  let tag := slice (b.getD 1 0) 31 16
  let e := entryWords (b.getD 0 0).toNat a.hm j a.typ a.reason tag d.now a.d0 0
  let d := d.queueEntry (d.ringCq j) { words := e, lpos := d.headPos, durable := false }
  if a.typ = 3 then (d.setFld (F.JR_REFLAST_REASON j) a.reason.toNat).addSat F.JR_IK_REFCNT_REFUSALS 1 else d

/-- Accept a waybill: hallmark, window, token, job, and the ACCEPT record (R322, R328, R329, R379). -/
def Dev.accept (d : Dev) (j : Nat) (b : List Word) : Dev :=
  let hm := d.adm.nextHm
  let rseq := (b.getD 0 0).toNat
  let tag := slice (b.getD 1 0) 31 16
  let cls := slice (b.getD 1 0) 9 8
  let ex := d.fld (F.JR_BIND_EXEC_POS j)
  let x : Job := { ring := j, rseq := rseq, hm := hm, tag := tag, cls := cls, body := b, exec := ex, acceptBn := d.now, dual := d.ldg.dual }
  let win := ({ rseq := rseq, hm := hm, st := JState.accepted : WinEntry } :: mget [] d.adm.win j).take (d.winLen j)
  let adm := { d.adm with
    nextHm := hm + 1, tokens := d.adm.tokens - 10 ^ 9, acceptedN := d.adm.acceptedN + 1, win := mset [] d.adm.win j win }
  let d := { d with jobs := d.jobs ++ [x], adm := adm }
  let d := d.setNum (R.JR_NEXTSEQ j) ((rseq + 1) % 2 ^ 32)
  let d := d.setNum2 (R.JR_LASTHM_LO j) (R.JR_LASTHM_HI j) hm
  let d := d.setNum2 R.JR_IK_NEXTHM_LO R.JR_IK_NEXTHM_HI ((hm + 1) % 2 ^ 48)
  let rec_ : Rec := { typ := 0x10, hm := hm, ring := j, pos := ex, bn := d.now, byteA := cls + (if d.ldg.dual then 4 else 0), w5 := rseq, w6 := tag }
  d.dueRec 3 [rec_]

/-- WAYBILL_EXAMINE: the Innkeeper takes one waybill, at most two in a beat (R326 to R330, R378). -/
def execWaybillExamine (far : FarExec) (s : State) : Host.Outcome State Fault Refusal :=
  .next (s.onDevR fun m d =>
    if !d.admits || decide (2 ≤ d.adm.examined) || (!d.backlog && decide (4 ≤ d.dueCount 3)) then d else
    let rs := (d.adm.ready.map (fun c => c.1)).filter (fun j => match d.readyOf j with
      | b :: _ => d.flag (F.JR_SQCFG_EN j) && !d.cqFull (d.ringCq j) && !d.frozenBy m j b far
      | [] => false)
    match d.nextRing d.adm.rrExam rs with
    | none => d
    | some j => match d.readyOf j with
      | [] => d
      | b :: rest =>
        let d := { d with adm := { d.adm with examined := d.adm.examined + 1, rrExam := mset 511 d.adm.rrExam (d.fld (F.JR_ACFG_PRIO j)) j, ready := mset [] d.adm.ready j rest } }
        match d.examineAnswer m j b far with
        | some a => d.answer j b a
        | none => d.accept j b)

/-! ## Dispatch (R331, R332, R745) -/

/-- A position takes dispatched jobs: provisioned, not fenced as a whole, not in PARK, OFF or READY-WAIT (R332, R410). -/
def Dev.takesJobs (d : Dev) (p : Nat) : Bool :=
  let st := if p = d.pos then d.pstate else slice (d.reg (R.PWR_WSTATE (p / 8))) (4 * (p % 8) + 3) (4 * (p % 8))
  d.provisioned p && !d.fenced (domWorker p) && decide (st ≤ 2)

/-- A job's accept record is sealed under the seal mode in force (R331). -/
def Dev.acceptSealed (d : Dev) (j : Job) : Bool :=
  j.sealed && !(d.mram.log.any (fun x => x.body.typ == 0x10 && x.body.hm == j.hm && d.unmirrored x.lpos))

/-- The job of a ring that is dispatched next: the oldest not yet sent. -/
def Dev.nextJob (d : Dev) (r : Nat) : Option Job := oldestJob (d.jobs.filter (fun j => j.ring == r && j.st == .accepted && !j.sent && j.out.isNone))

/-- A tag free among the jobs that a position holds (R745). -/
def Dev.freeTag (d : Dev) (p : Nat) : Option Nat :=
  let used := (d.wr.tags.filter (fun t => t.2.1 == p)).map (fun t => t.1)
  if 4096 ≤ used.length then none else (List.range (used.length + 1)).find? (fun t => !used.contains t)

/-- JOB_DISPATCH: send the next job to its executor, at most two in a beat. A job for this position is held at once. Accepted jobs are
dispatched while HOST_GO is awaited too (R293 holds host DMA, admission and posting alone). -/
def execJobDispatch (s : State) : Host.Outcome State Fault Refusal :=
  .next (s.onDevR fun m d =>
    if !d.keeps || decide (2 ≤ d.adm.dispatched) then d else
    let held := fun r : Nat => (d.jobs.filter (fun j => j.ring == r && (j.st == .dispatched || (j.st == .accepted && j.sent)))).length
    let rs := ((d.jobs.map Job.ring).eraseDups).filter (fun r => match d.nextJob r with
      | some j => d.acceptSealed j && d.takesJobs j.exec && !d.fenced (domRing r) &&
          decide (held r < d.fld (F.JR_ACFG_DWIN r)) && (j.exec == d.pos || (d.freeTag j.exec).isSome)
      | none => false)
    match d.nextRing d.adm.rrDisp rs with
    | none => d
    | some r => match d.nextJob r with
      | none => d
      | some j =>
        let d := { d with adm := { d.adm with dispatched := d.adm.dispatched + 1, rrDisp := mset 511 d.adm.rrDisp (d.fld (F.JR_ACFG_PRIO r)) r } }
        let d := d.modJob j.hm (fun j => { j with sent := true })
        if j.exec = d.pos then d.holdJob m j.hm
        else match d.freeTag j.exec with
          | none => d
          | some t =>
            let d := { d with wr := { d.wr with tags := d.wr.tags ++ [(t, j.exec, j.hm)] } }
            d.bulkPut j.exec 1 ([BitVec.ofNat 32 j.hm, BitVec.ofNat 32 (j.hm / 2 ^ 32 + r * 2 ^ 16), BitVec.ofNat 32 (t + j.cls * 2 ^ 12),
              BitVec.ofNat 32 j.acceptBn, BitVec.ofNat 32 (j.acceptBn / 2 ^ 32)] ++ j.body))

/-! ## Host cancel (R343 to R345) -/

/-- End a cancel once no executor has still to answer. -/
def Dev.cancelDone (d : Dev) : Dev :=
  if d.adm.cancelWait.isEmpty then (d.setFlag F.JR_CANCEL_STAT_BUSY false).setFld F.JR_CANCEL_STAT_RESULT Rsn.ok.toNat else d

/-- An executor's answer about a job of the cancel: it ended cancelled, or another way. -/
def Dev.cancelAnswer (d : Dev) (hm : Nat) (r : Reason) : Dev :=
  if d.adm.cancelWait.contains hm then
    let d := { d with adm := { d.adm with cancelWait := d.adm.cancelWait.filter (· != hm) } }
    (if r = Rsn.expHostCancel then d.addSat F.JR_CANCEL_CNT_JOBS 1 else d.addSat F.JR_CANCEL_STAT_SKIPPED 1).cancelDone
  else d

/-- A cancel of one sequence of a ring, or of it and every later accepted job. -/
def Dev.hostCancel (d : Dev) (ring : Nat) (rest : Bool) : Dev :=
  if !d.isMgr || d.flag F.JR_CANCEL_STAT_BUSY then d else
  let seq := d.num R.JR_CANCEL_SEQ
  match d.jobs.find? (fun j => j.ring == ring && j.rseq == seq) with
  | none => ((d.setFld F.JR_CANCEL_STAT_RESULT Rsn.refState.toNat).setFld F.JR_CANCEL_STAT_SKIPPED 0).setFld F.JR_CANCEL_CNT_JOBS 0
  | some f =>
    let sel := d.jobs.filter (fun j => j.ring == ring && (if rest then decide (f.hm ≤ j.hm) else j.hm == f.hm))
    let here := sel.filter (fun j => (j.st == .accepted && !j.sent) || (j.st == .dispatched && j.exec == d.pos))
    let away := sel.filter (fun j => (j.st == .accepted && j.sent) || (j.st == .dispatched && j.exec != d.pos))
    let d := here.foldl (fun d j => d.endJob j.hm { typ := 6, reason := Rsn.expHostCancel, bn := d.now }) d
    let tags := d.wr.tags.filter (fun t => away.any (fun j => j.hm == t.2.2))
    let d := ((tags.map (fun t => t.2.1)).eraseDups).foldl (fun d p =>
      d.bulkPut p 2 ((tags.filter (fun t => t.2.1 == p)).map (fun t => BitVec.ofNat 32 t.1))) d
    let d := (d.setFld F.JR_CANCEL_STAT_SKIPPED (min (sel.length - here.length - away.length) 4095)).setFld F.JR_CANCEL_CNT_JOBS here.length
    let d := { d with adm := { d.adm with cancelWait := away.map Job.hm } }
    (d.setFlag F.JR_CANCEL_STAT_BUSY true).cancelDone

/-- A write of JR_CANCEL_CMD. -/
def Dev.writeCancel (d : Dev) (w : Word) : Dev := if bitOf w 31 then d.hostCancel (slice w 8 0) (bitOf w 12) else d

/-- HOST_CANCEL_ONE: JR_CANCEL_CMD written with MODE 0. -/
def execHostCancelOne (port : Port) (ring : Fin 512) (s : State) : Host.Outcome State Fault Refusal :=
  .next (s.onDev fun d => d.viaPort port R.JR_CANCEL_CMD fun d => d.writeCancel (BitVec.ofNat 32 (2 ^ 31 + ring.val)))

/-- HOST_CANCEL_REST: JR_CANCEL_CMD written with MODE 1. -/
def execHostCancelRest (port : Port) (ring : Fin 512) (s : State) : Host.Outcome State Fault Refusal :=
  .next (s.onDev fun d => d.viaPort port R.JR_CANCEL_CMD fun d => d.writeCancel (BitVec.ofNat 32 (2 ^ 31 + 2 ^ 12 + ring.val)))

/-! ## The expected sequence (R321) -/

/-- A write of JR_NEXTSEQ. -/
def Dev.writeNextSeq (d : Dev) (j : Nat) (w : Word) : Dev :=
  if d.flag (F.JR_SQCFG_EN j) || d.jobs.any (fun x => x.ring == j) then d
  else
    let d := (d.setReg (R.JR_NEXTSEQ j) w).dueRec 5 [{ typ := 0x32, ring := j, bn := d.now, w5 := w.toNat }]
    { d with adm := { d.adm with win := mset [] d.adm.win j [] } }

/-- JR_NEXTSEQ_WRITE. -/
def execJrNextseqWrite (port : Port) (ring : Fin 512) (w : Word) (s : State) : Host.Outcome State Fault Refusal :=
  .next (s.onDev fun d => d.viaPort port (R.JR_NEXTSEQ ring.val) fun d => d.writeNextSeq ring.val w)

end Sys2Proof.Machine
end

