-- ==== Sys2Proof/Machine/HostPort.lean ====
section
/-!
DEFINITION. Sys2Proof/Machine/HostPort.lean: the host port: resets and power management of the endpoint, doorbells and waybill
reads, submission rings, completion queues and FIFOs, interrupts, and the SPI submission window
(06_host_port.md, R262 to R311).
-/
namespace Sys2Proof.Machine
open Sys2Proof

/-! ## DMA and errors -/

/-- The device may read waybills and post entries: link and Bus Master Enable for a PCI Express host (R271), and no hold after
a takeover (R292, R293). -/
def Dev.dmaOk (d : Dev) : Bool :=
  d.isMgr && !d.hst.held && !d.wr.isolated && (d.hostSpi || (d.flag F.HST_STAT_LINK_UP && d.flag F.HST_STAT_BME && !d.flag F.HST_STAT_D3HOT))

/-- Record a host-port error (HST_ERR) and raise vector 22. -/
def Dev.hstErr (d : Dev) (ring : Nat) (r : Reason) : Dev :=
  ((d.setFld F.HST_ERR_JOB ring).setFld F.HST_ERR_REASON r.toNat).raiseIrq 22

/-- Send the messages of pending, unmasked vectors (R290). -/
def Dev.flushMsix (d : Dev) : Dev :=
  if !d.hst.msixEn then d else
  (List.range 64).foldl (fun d v =>
    let pba := d.reg (R.MSIX_PBA (v / 32))
    if bitOf pba (v % 32) && !bitOf (d.reg (R.MSIX_TABLE (4 * v + 3))) 0 && d.mayMsix v then
      (d.setReg (R.MSIX_PBA (v / 32)) (putBit pba (v % 32) false)).emit (.msix v)
    else d) d

/-- INTA is asserted, and INT_L is driven low (R291). -/
def Dev.intTerm (d : Dev) : Bool :=
  (d.reg R.HST_ISR0 &&& d.reg R.HST_IEN0) != 0 || (d.reg R.HST_ISR1 &&& d.reg R.HST_IEN1) != 0
def Dev.inta (d : Dev) : Bool := d.intTerm && !d.hst.msixEn && !d.hst.intDis
def Dev.intL (d : Dev) : Bool := d.intTerm && d.boot.strapsValid && d.boot.role != .worker

/-! ## Resets and link states (R268 to R271) -/

/-- Reset what the host-port domain holds: HST_ registers but for the SPI counters, MSI-X, the host-interface registers of
every ring, reads in flight, latched words of the host port. Entries of sealed records that no host has acknowledged wait at their
queues to be delivered again (R286, R305). -/
def Dev.resetHost (d : Dev) : Dev :=
  let keep := fun a : Nat => !(hostReg a || ringHostReg a) || a == R.HST_SPI_ERRCNT || a == R.HST_SPI_WCNT
  let redone := fun c : CqSt =>
    let es := ((c.posted ++ c.wait).filter CqEntry.durable).mergeSort (fun a b => decide (a.lpos ≤ b.lpos))
    ({ wait := es, redo := es.length, acked := c.acked } : CqSt)
  let cqs := d.hst.cqs.foldl (fun m c => mset {} m c.1 (redone c.2)) []
  { d with regs := d.regs.filter (fun c => keep c.1), shHost := [], scc := { d.scc with view := [] },
           adm := { d.adm with ready := [], bells := [], reading := [] },
           hst := { held := d.hst.held, cqs := cqs, cqOf := d.hst.cqOf, owed := d.hst.owed } }

/-- HOST_PORT_RESET: a hot reset, a link-down, or an assertion of PERST_L (R268, R269). The link is down until it trains again, and FD113
stays fenced until then (Table FEN-1). A cold start that finds PERST_L still low waits for its release (R119, Dev.coldStart). -/
def execHostPortReset (s : State) : Host.Outcome State Fault Refusal :=
  .next (s.onDev fun d =>
    if d.boot.role == .worker || d.hostSpi then d else
    ((d.resetHost).setFld F.HST_STAT_LAST Rsn.linkDown.toNat).raiseCause domHost Rsn.linkDown)

/-- FUNCTION_LEVEL_RESET: complete within 1 ms (R270); the link stays up, and FD113 is free again when the reset completes. -/
def execFunctionLevelReset (s : State) : Host.Outcome State Fault Refusal :=
  .next (s.onDev fun d =>
    if d.boot.role == .worker || d.hostSpi || !d.flag F.HST_STAT_LINK_UP then d else
    let st := d.reg R.HST_STAT
    let d := d.resetHost.raiseCause domHost Rsn.hstFlr
    let d := d.setReg R.HST_STAT (st &&& 0xF#32)
    (d.setFld F.HST_STAT_LAST Rsn.hstFlr.toNat).clearCauses domHost (fun r => r == Rsn.hstFlr))

/-- D3HOT_ENTRY (R271). -/
def execD3hotEntry (s : State) : Host.Outcome State Fault Refusal :=
  .next (s.onDev fun d => if d.flag F.HST_STAT_LINK_UP then d.setFlag F.HST_STAT_D3HOT true else d)

/-- D0_RETURN: DMA and messages resume; every host-interface register is kept (R271). -/
def execD0Return (s : State) : Host.Outcome State Fault Refusal :=
  .next (s.onDev fun d => (d.setFlag F.HST_STAT_D3HOT false).flushMsix)

/-- PERST_L_RELEASE: link training starts (R119); a worker ignores it (R262), and HOSTSEL holds the endpoint in reset. -/
def execPerstLRelease (s : State) : Host.Outcome State Fault Refusal :=
  .next (s.onDev fun d =>
    let live := d.boot.strapsValid && d.boot.role != .worker && !d.hostSpi
    { d with boot := { d.boot with perst := false, linkTraining := live } })

/-- LINK_UP: the endpoint is trained and enumerated: rate, width, Bus Master Enable, MSI-X enable and Interrupt Disable; the
host-port reset of FD113 is complete (R270). -/
def execLinkUp (gen2 : Bool) (width : Fin 3) (bme : Bool) (msixEn : Bool) (intDis : Bool) (s : State) :
    Host.Outcome State Fault Refusal :=
  .next (s.onDev fun d =>
    if d.boot.perst || !d.boot.strapsValid || d.boot.role == .worker || d.hostSpi then d else
    let d := { d with hst := { d.hst with msixEn := msixEn, intDis := intDis }, boot := { d.boot with linkTraining := false } }
    let d := ((d.setFlag F.HST_STAT_LINK_UP true).setFlag F.HST_STAT_GEN2 gen2).setFld F.HST_STAT_WIDTH width.val
    ((d.setFlag F.HST_STAT_BME bme).clearCauses domHost (fun _ => true)).flushMsix)

/-- POISONED_WRITE: discarded and logged through AER (R274); there is no endpoint to log it on a worker or under HOSTSEL (Table HST-1). -/
def execPoisonedWrite (s : State) : Host.Outcome State Fault Refusal :=
  .next (s.onDev fun d => if d.portLive .host then { d with hst := { d.hst with aerPoison := true } } else d)

/-- BAR0_SIZE_ERROR: no effect, a read returns 0, and SIZE_ERR sets (R267). -/
def execBar0SizeError (read : Bool) (s : State) : Host.Outcome State Fault Refusal :=
  .next (s.onDev fun d =>
    if !d.portLive .host then d else
    let d := d.setFlag F.HST_STAT_SIZE_ERR true
    if read then d.emit (.readData .host 0) else d)

/-! ## Submission rings (R275 to R279, R394) -/

/-- Record why a doorbell or an enable of a ring was refused. -/
def Dev.ringErr (d : Dev) (j : Nat) (r : Reason) : Dev := d.setFld (F.JR_HSTAT_REASON j) r.toNat

/-- Refuse a doorbell (R277). -/
def Dev.refuseBell (d : Dev) (j : Nat) (r : Reason) : Dev :=
  ((d.setFlag (F.JR_HSTAT_DB_REFUSED j) true).ringErr j r).hstErr j r

/-- A write of JR_DB: held for the next Edge phase; a device that is not the active manager refuses it at once (R276, R309). A device
whose role is still open before READY holds it (R117; DEDUCED, log entry 147). With HOSTSEL = 1, JR_DB is not used (R301). -/
def Dev.writeBell (d : Dev) (j : Nat) (w : Word) : Dev :=
  if d.hostSpi then d
  else if d.wr.isolated || (!d.isMgr && (d.boot.roleKnown || d.started)) then d.refuseBell j Rsn.notActive
  else { d with adm := { d.adm with bells := mset none d.adm.bells j (some w.toNat) } }

/-- Take a doorbell at the Edge phase (R34, R277, R309). A ring with EN = 0 refuses every value with HST_DB_RANGE (DEDUCED; log entry
21). -/
def Dev.takeBell (d : Dev) (j t : Nat) : Dev :=
  let d := { d with adm := { d.adm with bells := mset none d.adm.bells j none } }
  if !d.isMgr then d.refuseBell j Rsn.notActive
  else if !d.flag (F.JR_SQCFG_EN j) || decide (d.sqDepth j < (t + 2 ^ 32 - d.num (R.JR_SQHEAD j)) % 2 ^ 32) then d.refuseBell j Rsn.dbRange
  else d.setNum (R.JR_SQTAIL j) t

/-- Sample doorbells and HST_SUBGO (R34, R301, R308); before READY, in STANDBY and under a BRACE they are held (R117, R149, R176). -/
def Dev.takeBells (d : Dev) : Dev :=
  if !d.started || d.pstate == 2 || d.braced then d else
  let d := d.adm.bells.foldl (fun d c => match c.2 with
    | some t => d.takeBell c.1 t
    | none => d) d
  match d.hst.subRing, d.hst.subDue with
  | some j, true =>
    let b := (List.range 16).map (fun k => d.reg (R.HST_SUBW k))
    let d := { d with hst := { d.hst with subDue := false } }
    if d.flag (F.JR_SQCFG_EN j) then { d with adm := { d.adm with ready := mset [] d.adm.ready j (d.readyOf j ++ [b]) } }
    else d.answer j b { typ := 3, reason := Rsn.refState }
  | _, _ => d

/-- Issue the reads of waybills that are announced and not yet read, at most 8 slots each and never past the end of the ring
(R278), for rings that admission may serve; a tail count further ahead than the depth announces none (DEDUCED; log entry 22); reads to be retried go out again (R273). -/
def Dev.issueReads (d : Dev) : Dev :=
  if !d.dmaOk || d.hostSpi then d else
  let d := d.adm.reading.foldl (fun d c => if c.2.2 = 2 then
    ({ d with adm := { d.adm with reading := mset (0, 0) d.adm.reading c.1 (c.2.1, 3) } }.emit (.dmaRead c.1 c.2.1)) else d) d
  if !d.admits then d else
  let open_ := (d.regs.map (fun c => c.1)).filterMap (fun a =>
    if 0x10000 ≤ a ∧ a < 0x18000 ∧ a % 64 = 8 then some ((a - 0x10000) / 64) else none)
  open_.foldl (fun d j =>
    let head := d.num (R.JR_SQHEAD j)
    let n := (d.num (R.JR_SQTAIL j) + 2 ^ 32 - head) % 2 ^ 32
    let dep := d.sqDepth j
    let k := min (min n 8) (dep - head % dep)
    if d.flag (F.JR_SQCFG_EN j) && k != 0 && decide (n ≤ dep) && (mget (0, 0) d.adm.reading j).2 == 0 && (d.readyOf j).isEmpty && !d.cqFull (d.ringCq j) then
      { d with adm := { d.adm with reading := mset (0, 0) d.adm.reading j (k, 1) } }.emit (.dmaRead j k)
    else d) d

/-- DOORBELL_WRITE. -/
def execDoorbellWrite (port : Port) (ring : Fin 512) (w : Word) (s : State) : Host.Outcome State Fault Refusal :=
  .next (s.onDev fun d => d.viaPort port (R.JR_DB ring.val) fun d => d.writeBell ring.val w)

/-- WAYBILL_READ_COMPLETE: the waybills of the read in flight are available, and the head count advances over them (R278). A
read that a reset discarded brings nothing (R269). -/
def execWaybillReadComplete (ring : Fin 512) (slots : List (List Word)) (s : State) : Host.Outcome State Fault Refusal :=
  .next (s.onDev fun d =>
    let j := ring.val
    let r := mget (0, 0) d.adm.reading j
    if r.2 = 1 ∨ r.2 = 3 then
      let ws := (List.range r.1).map (fun i => slots.getD i [])
      let d := { d with adm := { d.adm with reading := mset (0, 0) d.adm.reading j (0, 0), ready := mset [] d.adm.ready j (d.readyOf j ++ ws) } }
      d.setNum (R.JR_SQHEAD j) ((d.num (R.JR_SQHEAD j) + r.1) % 2 ^ 32)
    else d)

/-- WAYBILL_READ_FAIL: the first failure is retried at the next beat; the second disables the ring (R273). -/
def execWaybillReadFail (ring : Fin 512) (s : State) : Host.Outcome State Fault Refusal :=
  .next (s.onDev fun d =>
    let j := ring.val
    let r := mget (0, 0) d.adm.reading j
    if r.2 = 1 then
      { d with adm := { d.adm with reading := mset (0, 0) d.adm.reading j (r.1, 2) } }.addSat F.HST_DMA_FAILCNT_FAILED 1
    else if r.2 = 3 then
      let d := { d with adm := { d.adm with reading := mset (0, 0) d.adm.reading j (0, 0) } }.addSat F.HST_DMA_FAILCNT_FAILED 1
      let d := (d.setFlag (F.JR_SQCFG_EN j) false).setFlag (F.JR_HSTAT_DMA_FAIL j) true
      (d.ringErr j Rsn.dmaFail).hstErr j Rsn.dmaFail
    else d)

/-- W of a ring under a JR_SQCFG value (R319). -/
def Dev.winOf (d : Dev) (w : Word) : Nat := if d.hostSpi then 16 else 2 ^ slice w 3 0

/-- The sum of W over the enabled rings (LDG_WINTOT). -/
def Dev.winTotal (d : Dev) : Nat :=
  ((d.regs.filter (fun c => decide (0x10000 ≤ c.1) && decide (c.1 < 0x18000) && c.1 % 64 == 8 && bitOf c.2 31)).map
    (fun c => d.winOf c.2)).sum

/-- A write of JR_SQCFG (R275, R394). Entries owed to the ring come in line at the queue that it now names (R286), and its ALREADY
window is cut to the last W sequences (R319). Disabling drops reads in flight and takes the head count back over waybills read and not examined (DESIGN CHOICE;
log entry 22). -/
def Dev.writeSqcfg (d : Dev) (j : Nat) (w : Word) : Dev :=
  let a := R.JR_SQCFG j
  let on := d.flag (F.JR_SQCFG_EN j)
  if on then
    if bitOf w 31 then d
    else
      let n := (d.readyOf j).length
      let d := { d with adm := { d.adm with reading := mset (0, 0) d.adm.reading j (0, 0), ready := mset [] d.adm.ready j [] } }
      let d := if d.hostSpi then d else d.setNum (R.JR_SQHEAD j) ((d.num (R.JR_SQHEAD j) + 2 ^ 32 - n) % 2 ^ 32)
      d.setFlag (F.JR_SQCFG_EN j) false
  else
    let w := w &&& 0x800F000F#32
    if bitOf w 31 && decide (131072 < d.winTotal + d.winOf w) then d.ringErr j Rsn.ldgWindowFull
    else
      let d := (d.setReg a w).nameRing j (slice w 19 16)
      if bitOf w 31 then { d with adm := { d.adm with win := mset [] d.adm.win j ((mget [] d.adm.win j).take (d.winOf w)) } } else d

/-- SQ_ENABLE: a write of JR_SQCFG. -/
def execSqEnable (port : Port) (ring : Fin 512) (w : Word) (s : State) : Host.Outcome State Fault Refusal :=
  .next (s.onDev fun d => d.viaPort port (R.JR_SQCFG ring.val) fun d => d.writeSqcfg ring.val w)

/-! ## Completion queues (R280 to R288, R302) -/

/-- A write of HST_CQq_CFG. Enabling sets TAIL and HEAD to 0 and starts the re-delivery of every entry of a sealed record that is
not acknowledged (R280, R286). -/
def Dev.writeCqCfg (d : Dev) (q : Nat) (w : Word) : Dev :=
  let on := d.flag (F.HST_CQ_CFG_EN q)
  if on then (if bitOf w 16 then d else d.setFlag (F.HST_CQ_CFG_EN q) false)
  else
    let d := d.setReg (R.HST_CQ_CFG q) (w &&& 0x1000F#32)
    if bitOf w 16 then
      let c := d.cq q
      let old := c.posted.filter CqEntry.durable
      let n := old.length + c.redo
      let d := d.setCq q { c with wait := old ++ c.wait, posted := [], fifo := [], redo := n, since := 0, fullRaised := false, head := 0 }
      let d := ((d.setNum (R.HST_CQ_TAIL q) 0).setNum (R.HST_CQ_HEAD q) 0).setFlag (F.HST_CQ_STAT_FULL q) false
      d.setFlag (F.HST_CQ_STAT_REDELIVERING q) (n != 0)
    else d

/-- CQ_ENABLE: a write of HST_CQq_CFG. -/
def execCqEnable (port : Port) (q : Fin 16) (w : Word) (s : State) : Host.Outcome State Fault Refusal :=
  .next (s.onDev fun d => d.viaPort port (R.HST_CQ_CFG q.val) fun d => d.writeCqCfg q.val w)

/-- The host has consumed n more entries: HEAD and the acknowledged point advance (R286). -/
def Dev.consume (d : Dev) (q n : Nat) : Dev :=
  let c := d.cq q
  let pt := ((c.posted.take n).filter CqEntry.durable).foldl (fun a e => max a (e.lpos + 1)) c.acked
  let d := d.setCq q { c with posted := c.posted.drop n, fifo := c.fifo.drop n, acked := pt }
  let d := d.setNum (R.HST_CQ_HEAD q) ((d.num (R.HST_CQ_HEAD q) + n) % 2 ^ 32)
  if d.cqFull q then d
  else (d.setCq q { d.cq q with fullRaised := false }).setFlag (F.HST_CQ_STAT_FULL q) false

/-- A write of HST_CQq_HEAD (R284). -/
def Dev.writeCqHead (d : Dev) (q : Nat) (w : Word) : Dev :=
  let head := d.num (R.HST_CQ_HEAD q)
  let n := (w.toNat + 2 ^ 32 - head) % 2 ^ 32
  if n ≤ (d.num (R.HST_CQ_TAIL q) + 2 ^ 32 - head) % 2 ^ 32 then d.consume q n
  else d.setFlag (F.HST_CQ_STAT_HEAD_ERR q) true

/-- CQ_HEAD_WRITE. -/
def execCqHeadWrite (port : Port) (q : Fin 16) (w : Word) (s : State) : Host.Outcome State Fault Refusal :=
  .next (s.onDev fun d => d.viaPort port (R.HST_CQ_HEAD q.val) fun d => d.writeCqHead q.val w)

/-- Raise a queue's vector when its moderation says so (R288). -/
def Dev.cqModerate (d : Dev) (q : Nat) : Dev :=
  let c := d.cq q
  if c.since = 0 then d
  else if d.fld (F.HST_CQ_MOD_COUNT q) ≤ c.since ∨ c.sinceBn + d.fld (F.HST_CQ_MOD_TIME q) ≤ d.now then
    (d.setCq q { c with since := 0 }).raiseIrq q
  else d

/-- A queue has room for an entry, by HEAD as of the last Prepare phase (R282, R306). -/
def Dev.cqRoom (d : Dev) (q : Nat) : Bool :=
  decide ((d.num (R.HST_CQ_TAIL q) + 2 ^ 32 - (d.cq q).head) % 2 ^ 32 < d.cqDepth q)

/-- The Prepare phase takes HEAD of every queue (R306). -/
def Dev.sampleHeads (d : Dev) : Dev :=
  (List.range 16).foldl (fun d q => d.setCq q { d.cq q with head := d.num (R.HST_CQ_HEAD q) }) d

/-- Post one entry of a queue: the oldest waiting one, when the queue is enabled and has room, DMA may run, and the record is
sealed under the seal mode in force (R280, R282, R283, R285, R306). The answer to the waybill of HST_SUBW clears BUSY (R301). -/
def Dev.postEntry (d : Dev) (q : Nat) : Dev :=
  let c := d.cq q
  match c.wait with
  | [] => d
  | e :: rest =>
    if !d.flag (F.HST_CQ_CFG_EN q) || !d.dmaOk || !d.cqRoom q || d.unmirrored e.lpos && e.durable then d else
    let k := d.num (R.HST_CQ_TAIL q)
    let ws := e.words.set 7 (putBit (e.words.getD 7 0) 31 (k / d.cqDepth q % 2 == 0))
    let redo := c.redo - 1
    let d := d.setCq q { c with
      wait := rest, posted := c.posted ++ [e], redo := redo, fifo := if d.hostSpi then c.fifo ++ [ws] else [],
      since := c.since + 1, sinceBn := if c.since = 0 then d.now else c.sinceBn }
    let d := (d.setNum (R.HST_CQ_TAIL q) ((k + 1) % 2 ^ 32)).setFlag (F.HST_CQ_STAT_REDELIVERING q) (redo != 0)
    let d := if d.hostSpi then d else d.emit (.cqWrite q ws)
    let j := slice (ws.getD 2 0) 24 16
    let d := if d.hst.subRing = some j ∧ d.hst.subDue = false ∧ slice (ws.getD 2 0) 31 28 ≤ 3 ∧ ws.getD 0 0 = d.reg (R.HST_SUBW 0) then
        ({ d with hst := { d.hst with subRing := none } }.setFlag F.HST_SUBSTAT_BUSY false).setFld F.HST_SUBSTAT_REASON
          (if slice (ws.getD 2 0) 31 28 = 1 then 0 else slice (ws.getD 3 0) 15 0)
      else d
    let d := d.cqModerate q
    if d.cqFull q then
      let d := d.setFlag (F.HST_CQ_STAT_FULL q) true
      if (d.cq q).fullRaised then d else (d.setCq q { d.cq q with fullRaised := true }).hstErr j Rsn.cqFull
    else d

/-- COMPLETION_POST. -/
def execCompletionPost (q : Fin 16) (s : State) : Host.Outcome State Fault Refusal :=
  .next (s.onDev fun d => d.postEntry q.val)

/-- CQ_MODERATION_TIMEOUT: TIME beats after the oldest unreported entry (R288). -/
def execCqModerationTimeout (q : Fin 16) (s : State) : Host.Outcome State Fault Refusal :=
  .next (s.onDev fun d => d.cqModerate q.val)

/-! ## Interrupts and failover -/

/-- A write of a word of the MSI-X table; an unmasked vector that is pending sends its message (R290). -/
def Dev.writeMsix (d : Dev) (a : Nat) (w : Word) : Dev :=
  (d.setReg a (if a % 16 = 12 then w &&& 1#32 else w)).flushMsix

/-- MSIX_UNMASK: the Vector Control word of a vector written with Mask = 0. -/
def execMsixUnmask (port : Port) (v : Fin 64) (s : State) : Host.Outcome State Fault Refusal :=
  .next (s.onDev fun d => d.viaPort port (R.MSIX_TABLE (4 * v.val + 3)) fun d => d.writeMsix (R.MSIX_TABLE (4 * v.val + 3)) 0)

/-- HOST_GO at the Edge phase: admission and posting start (R286, R293). -/
def Dev.goEdge (d : Dev) : Dev :=
  if d.hst.goDue then { d with hst := { d.hst with goDue := false, held := false } } else d

/-- A write of HST_CTRL (R293). -/
def Dev.writeHstCtrl (d : Dev) (w : Word) : Dev :=
  if bitOf w 0 && d.hst.held && d.isMgr then { d with hst := { d.hst with goDue := true } } else d

/-- HOST_GO: admission and posting start at the Edge phase after the write. -/
def execHostGo (port : Port) (s : State) : Host.Outcome State Fault Refusal :=
  .next (s.onDev fun d => d.viaPort port R.HST_CTRL fun d => d.writeHstCtrl 1)

/-! ## The SPI submission window and FIFOs (R301 to R303, R308) -/

/-- A write of HST_SUBGO; while BUSY, and on a PCI Express host, it does nothing. -/
def Dev.writeSubgo (d : Dev) (j : Nat) : Dev :=
  if !d.hostSpi || d.flag F.HST_SUBSTAT_BUSY then d
  else { d with hst := { d.hst with subRing := some j, subDue := true } }.setFlag F.HST_SUBSTAT_BUSY true

/-- HST_SUBGO. -/
def execHstSubgo (port : Port) (ring : Fin 512) (s : State) : Host.Outcome State Fault Refusal :=
  .next (s.onDev fun d => d.viaPort port R.HST_SUBGO fun d => d.writeSubgo ring.val)

/-- Word k of the oldest entry of the selected FIFO; 0 when it is empty (R303). -/
def Dev.cqWord (d : Dev) (k : Nat) : Word :=
  match (d.cq (d.fld F.HST_CQSEL_COMPLETION)).fifo with
  | e :: _ => e.getD k 0
  | [] => 0

/-- A read of HST_CQW7: on the host port it removes the entry and advances HEAD (R302). -/
def Dev.readCqw7 (d : Dev) (p : Port) : Dev × Word :=
  let q := d.fld F.HST_CQSEL_COMPLETION
  let w := d.cqWord 7
  if d.portRo p || (d.cq q).fifo.isEmpty then (d, w) else (d.consume q 1, w)

/-- HST_CQW7_READ. -/
def execHstCqw7Read (port : Port) (s : State) : Host.Outcome State Fault Refusal :=
  .next (s.onDev fun d => d.readVia port (R.HST_CQW 7) true fun d => d.readCqw7 port)

end Sys2Proof.Machine
end

