-- ==== Sys2Proof/Machine/Assay.lean ====
section
/-!
DEFINITION. Sys2Proof/Machine/Assay.lean: calibration procedures, their attempts, retries and results, and drift tracking
(17_assay.md, R819 to R851).
-/
namespace Sys2Proof.Machine
open Sys2Proof

/-- The lines of a cluster (Table ASY-1): outputs 0 to 31, markers 32 to 47, TDCs 48 to 63. -/
def linesOf (c : Nat) : List Nat :=
  if c < 4 then (List.range 8).map (fun i => 8 * c + i) ++ (List.range 4).map (fun i => 32 + 4 * c + i)
  else (List.range 4).map (fun i => 48 + 4 * (c - 4) + i)

/-- The output groups that a LINES target names: one, or all with 0xF. -/
def linesGroups (t : Nat) : List Nat := if t = 15 then List.range 4 else [t]

/-- DOMAIN_PARKED is the only cause of a domain. -/
def Dev.parkedOnly (d : Dev) (k : Nat) : Bool := (d.dom k).causes == [Rsn.domainParked]

/-- The core runs on a locked SPLL, on its reference. -/
def Dev.coreLocked (d : Dev) : Bool := !d.clk.holdover && d.pwr.vcore

/-- The result in ASY_STAT. -/
def Dev.asyResult (d : Dev) (r : Reason) : Dev := d.setFld F.ASY_STAT_RESULT r.toNat

/-- Show the running procedure, and which lines a result out of range left (R825). -/
def Dev.asyShow (d : Dev) : Dev :=
  let d := match d.asy.run with
    | some r => (d.setFlag F.ASY_STAT_BUSY true).setFld F.ASY_STAT_PROC r.proc
    | none => (d.setFlag F.ASY_STAT_BUSY false).setFld F.ASY_STAT_PROC 0
  d.setFlag F.ASY_STAT_RANGE_HELD !d.asy.range.isEmpty

/-- A procedure completes with a result and vector 23 (R826); a completed RSKEW no longer shows RSKEW_PEND (R836). -/
def Dev.asyEnd (d : Dev) (r : Reason) : Dev :=
  let scope := match d.asy.run with
    | some a => if a.proc = 4 then some a.target else none
    | none => none
  let d := { d with asy := { d.asy with run := none, applyDue := none } }
  let d := match scope with
    | some m =>
      let left := if r = Rsn.ok then d.asy.rskewPend.filter (fun p => !m.testBit p) else d.asy.rskewPend
      let due := if r = Rsn.ok then d.asy.rskewDue else d.now + 65536
      { d with asy := { d.asy with rskewPend := left, rskewDue := due } }.setFlag F.ASY_STAT_RSKEW_PEND (!left.isEmpty)
    | none => d
  ((d.asyResult r).raiseIrq 23).asyShow

/-- Abandon the running procedure: ASY_DISTURBED and no retry (R826, R844, R845). -/
def Dev.asyAbandon (d : Dev) : Dev := if d.asy.run.isSome then d.asyEnd Rsn.asyDisturbed else d

/-- Count the transitions of an XLOOP's pulses at the pin (R830): 512 in a whole attempt; how many an attempt makes before it is
disturbed is a free value. -/
def Dev.loopPulses (d : Dev) (n k : Nat) : Dev :=
  { d with draws := d.draws + 1 }.addWrap (F.PO_EDGECNT_TRANSITIONS n) k

/-- An attempt is disturbed: its values are discarded, and a new attempt follows BACKOFF beats later while a retry is left
(R822, R823). -/
def Dev.asyDisturb (d : Dev) : Dev :=
  match d.asy.run with
  | none => d
  | some r =>
    if r.retryBn.isSome then d else
    let d := (d.asyResult Rsn.asyDisturbed).addSat F.ASY_DISTCNT_DISTURBED 1
    let d := if r.proc = 3 then d.loopPulses r.target ((Config.freeWord d.draws).toNat % 513) else d
    let d := { d with asy := { d.asy with applyDue := none } }
    if r.attempts ≤ d.fld F.ASY_CTRL_RETRY then
      { d with asy := { d.asy with run := some { r with retryBn := some (d.now + d.fld F.ASY_CTRL_BACKOFF) } } }
    else d.asyEnd Rsn.asyRetryOut

/-- Something on the paths of a running RSKEW has changed (R835). -/
def Dev.rskewDisturb (d : Dev) : Dev :=
  match d.asy.run with
  | some r => if r.proc = 4 then d.asyDisturb else d
  | none => d

/-- The input is quiet for an attempt whose window starts at beat b (R827). -/
def Dev.asyQuiet (d : Dev) (n b : Nat) : Bool :=
  d.fld (F.TRG_GCFG_FMT (n / 4)) == 0 ||
  (let t := mget 0 d.asy.lastRaw n
   t == 0 || decide (beatOf t + d.fld F.ASY_CTRL_GUARD ≤ b))

/-- The preconditions that the device can see (Table ASY-2). XLOOP wants its input at the safe level of the output, where that
is a level. -/
def Dev.asyPre (d : Dev) (r : AsyRun) : Bool :=
  match r.proc with
  | 1 => d.coreLocked && (linesGroups r.target).all (fun g => d.parkedOnly (domPog g))
  | 2 => d.coreLocked && d.asyQuiet r.target r.startBn
  | 3 =>
    let s := d.fld F.SUP_STRAP_SAFEA
    d.coreLocked && d.parkedOnly (domPog (r.target / 8)) && d.parkedOnly (domTg (r.loopIn / 4)) && !d.po.acting &&
      d.asyQuiet r.loopIn r.startBn && (decide (2 ≤ s) || (d.trgIn r.loopIn).raw == decide (s = 1))
  | _ => d.coreLocked && d.boot.role == .manager

/-- Start an attempt with its pre-check (R821). -/
def Dev.asyAttempt (d : Dev) : Dev :=
  match d.asy.run with
  | none => d
  | some r =>
    let r := { r with attempts := r.attempts + 1, startBn := d.now, retryBn := none }
    let d := { d with asy := { d.asy with run := some r } }.setFld F.ASY_STAT_ATTEMPTS r.attempts
    if d.asyPre r then d else d.asyDisturb

/-- A procedure starts with its first attempt at the next beat. -/
def Dev.asyStart (d : Dev) (proc target loopIn : Nat) (auto : Bool) : Dev :=
  { d with asy := { d.asy with run := some { proc := proc, target := target, loopIn := loopIn, retryBn := some (d.now + 1), auto := auto } } }.asyShow

/-- The refusal of an ASY_CMD with GO (Table ASY-4a). -/
def Dev.asyRefusal (d : Dev) (proc target loopIn : Nat) : Option Reason :=
  let bad := match proc with
    | 1 => !(decide (target < 4) || target == 15)
    | 2 => !decide (target < 16)
    | 3 => !decide (target < 32) ||
      (target / 8 != loopIn / 4 && d.fld (F.PO_GCFG_FMT (target / 8)) != d.fld (F.TRG_GCFG_FMT (loopIn / 4)))
    | 4 => false
    | _ => true
  if (match d.asy.run with
      | some r => !r.auto
      | none => false) then some Rsn.refState
  else if bad then some Rsn.refFormat
  else if proc = 4 then (if d.boot.role == .manager then none else some Rsn.refState)
  else if d.clk.holdover then some Rsn.refState
  else none

/-- A write of ASY_CMD. An automatic procedure that runs gives way to a command and is started again later: its input, or its
positions, are put back in line (DEDUCED from R828; log entry 50). -/
def Dev.writeAsyCmd (d : Dev) (w : Word) : Dev :=
  let d := if bitOf w 30 then d.asyAbandon else d
  if !bitOf w 31 then d else
  let proc := slice w 3 0
  let target := slice w 11 4
  let loopIn := slice w 15 12
  match d.asyRefusal proc target loopIn with
  | some r => d.asyResult r
  | none =>
    let d := match d.asy.run with
      | some r =>
        if r.proc = 2 then { d with asy := { d.asy with tdcLeft := r.target :: d.asy.tdcLeft } }
        else { d with asy := { d.asy with rskewPend := (d.asy.rskewPend ++ onesBelow 32 r.target).eraseDups, rskewDue := d.now } }
      | none => d
    d.asyStart proc (if proc = 4 then d.num R.ASY_RSCOPE else target) loopIn false

/-- A write of ASY_HOPASYM: a change disturbs a running RSKEW (R832, R835). -/
def Dev.writeHopAsym (d : Dev) (p : Nat) (w : Word) : Dev :=
  let v := slice w 15 0
  let d' := d.setNum (R.ASY_HOPASYM p) v
  if d.num (R.ASY_HOPASYM p) = v then d' else d'.rskewDisturb

/-- Put coefficient sets in force, each one a step of ASY_GEN, and reset the drift baselines of their clusters (R819, R839,
R840). -/
def Dev.putSets (d : Dev) (sets : List (Nat × List Int)) : Dev :=
  let cl := (List.range 8).filter (fun c => sets.any (fun s => (linesOf c).contains s.1))
  let a := { d.asy with
    coef := sets.foldl (fun m s => mset [] m s.1 s.2) d.asy.coef
    baseBn := cl.foldl (fun m c => mset 0 m c (d.now + 1)) d.asy.baseBn
    range := d.asy.range.filter (fun l => !sets.any (fun s => s.1 == l)) }
  ({ d with asy := a }.addWrap F.ASY_GEN_COEFFICIENT sets.length).asyShow

/-- LINES of start-up and of a return from holdover: every line is set afresh, and drift tracking has its baselines (R838,
R841). -/
def Dev.linesAll (d : Dev) (sets : List (Nat × List Int)) : Dev :=
  let d := d.putSets sets
  { d with asy := { d.asy with driftN := 0, baseBn := (List.range 8).foldl (fun m c => mset 0 m c (d.now + 1)) d.asy.baseBn } }.setFlag
    F.ASY_STAT_DRIFT_ON true

/-- The lines that a procedure covers. -/
def AsyRun.lines (r : AsyRun) : List Nat :=
  match r.proc with
  | 1 => (linesGroups r.target).flatMap linesOf
  | 2 => [48 + r.target]
  | 3 => [r.target]
  | _ => []

/-- Lead of the attempt: beats from its start to the end of its last beat (Table ASY-2). -/
def Dev.asyBeats (d : Dev) (r : AsyRun) : Nat :=
  match r.proc with
  | 2 => 64 + d.fld F.ASY_CTRL_GUARD
  | 3 => 256 + d.fld F.ASY_CTRL_GUARD
  | 4 => 131072
  | _ => 1

/-- The offset table with the corrections of RSKEW added to the values of beat alignment (R833). -/
def Dev.skewTab (d : Dev) (l : List (Nat × Int × Int)) : List Int :=
  (List.range 32).flatMap (fun p =>
    let c := ((l.find? (fun x => x.1 == p)).map (fun x => x.2)).getD (0, 0)
    [d.wr.offTab.getD (2 * p) 0 + c.1, d.wr.offTab.getD (2 * p + 1) 0 + c.2])

/-- The words of an OFFTAB message (kind 10): apply beat, then D_CW and D_CCW of each position. -/
def offWords (bn : Nat) (t : List Int) : List Word :=
  [BitVec.ofNat 32 bn, BitVec.ofNat 32 (bn / 2 ^ 32)] ++ t.map (BitVec.ofInt 32)

/-- Die serial number that a position has declared; this device's own at its own position. -/
def Dev.serialAt (d : Dev) (p : Nat) : BitVec 64 :=
  if p = d.pos then Config.serial else ((d.wr.decl.find? (fun x => x.1 == p)).map (fun x => x.2.1)).getD 0

/-- What RSKEW has corrected at a position so far, for the die that is there. -/
def Dev.skewHeld (d : Dev) (p : Nat) : Int × Int :=
  ((d.asy.rskew.find? (fun x => x.1 == p && d.serialAt p == x.2.2.2)).map (fun x => (x.2.1, x.2.2.1))).getD (0, 0)

/-- A successful RSKEW: what it adds to the delays of every position in scope but the manager's own, in one OFFTAB message that
applies L + 8 beats ahead (R832 to R834). The correction held of a position is the sum (R840). -/
def Dev.skewApply (d : Dev) (scope : Nat) (l : List (Nat × Int × Int)) : Dev :=
  let l := l.filter (fun x => scope.testBit x.1 && x.1 != d.pos)
  let t := d.skewTab l
  let at_ := d.now + d.lat + 8
  let size := fun x : Nat × Int × Int => max x.2.1.natAbs x.2.2.natAbs
  let top := l.foldl (fun (b : Nat × Int × Int) x => if size b < size x then x else b) (d.pos, 0, 0)
  let v : Int := if top.2.1.natAbs < top.2.2.natAbs then top.2.2 else top.2.1
  let d := (d.setFld F.ASY_RSKEWRES_LARGEST (unsigned 16 v)).setFld F.ASY_RSKEWRES_POSITION top.1
  let new := l.map (fun (x : Nat × Int × Int) =>
    (x.1, (d.skewHeld x.1).1 + x.2.1, (d.skewHeld x.1).2 + x.2.2, d.serialAt x.1))
  let rest := d.asy.rskew.filter (fun (x : Nat × Int × Int × BitVec 64) => !new.any (fun y => y.1 == x.1))
  let d := { d with asy := { d.asy with rskew := rest ++ new }, wr := { d.wr with offPend := some (at_, t) } }
  d.bulkPut 63 10 (offWords at_ t)

/-- The Edge phase: sets of a successful post-check apply, all of them (R824, R829); a first attempt starts; an automatic TDC
calibration follows when nothing else runs (R828). -/
def Dev.asyEdge (d : Dev) : Dev :=
  let d := match d.asy.run, d.asy.applyDue with
    | some r, some (sets, ofs) =>
      let d := d.putSets sets
      let d := if r.proc = 2 then d.setFld (F.ASY_TDCOFS_INPUT r.target) (unsigned 16 ofs)
        else if r.proc = 3 then
          let d := (d.setFld (F.ASY_SKEW_PIN r.target) (unsigned 16 ofs)).setFlag (F.ASY_SKEW_EXT r.target) true
            let cfg := (d.reg (R.PO_CFG r.target), d.reg (R.PO_GCFG (r.target / 8)))
          let a := { d.asy with extCfg := mset (0, 0) d.asy.extCfg r.target cfg, range := d.asy.range.filter (· != r.target) }
          let d := { d with asy := a }
          d.addWrap F.ASY_GEN_COEFFICIENT 1
        else d
      d.asyEnd Rsn.ok
    | _, _ => d
  let d := match d.asy.run, d.asy.tdcLeft with
    | none, n :: r => { d with asy := { d.asy with tdcLeft := r } }.asyStart 2 n 0 true
    | _, _ => d
  match d.asy.run with
  | some r => if r.attempts = 0 ∧ r.retryBn = some d.now then d.asyAttempt else d
  | none => d

/-- One replica measurement in a beat on a locked clock (R837, R838). -/
def Dev.driftMeasure (d : Dev) : Dev :=
  if d.coreLocked && d.flag F.ASY_STAT_DRIFT_ON then { d with asy := { d.asy with driftN := d.asy.driftN + 1 } } else d

/-- At a milestone: outputs whose configuration changed return to the model skew (R831); an EXT skew of the checkpoint is
restored by the first commit that enables its output, under the configuration it was measured under (R841). -/
def Dev.asyCommit (d : Dev) (changed : Nat → Bool) : Dev :=
  let d := (List.range 32).foldl (fun d n =>
    if changed n && d.flag (F.ASY_SKEW_EXT n) then
      { d.setNum (R.ASY_SKEW n) 0 with asy := { d.asy with extCfg := mset (0, 0) d.asy.extCfg n (0, 0) } }
    else d) d
  d.asy.extPend.foldl (fun d x =>
    let n := x.1
    if !d.flag (F.PO_CFG_EN n) then d else
    let d := { d with asy := { d.asy with extPend := d.asy.extPend.filter (fun y => y.1 != n) } }
    if d.reg (R.PO_CFG n) = x.2.2.1 ∧ d.reg (R.PO_GCFG (n / 8)) = x.2.2.2 then
      { d.setReg (R.ASY_SKEW n) x.2.1 with asy := { d.asy with extCfg := mset (0, 0) d.asy.extCfg n x.2.2 } }
    else d) d

/-- RSKEW for positions that wait for it, or for all after a cold start (R836). -/
def Dev.rskewStart (d : Dev) (scope : Nat) : Dev :=
  if d.boot.role == .manager && d.asy.run.isNone then (d.setFlag F.ASY_STAT_RSKEW_PEND true).asyStart 4 scope 0 true else d

/-! ## Meanings -/

/-- ASY_CMD with GO and PROC = 1 (R824, R846). -/
def execAsyCmdLines (port : Port) (target : BitVec 8) (s : State) : Host.Outcome State Fault Refusal :=
  .next (s.onDev fun d => d.viaPort port R.ASY_CMD fun d => d.writeAsyCmd (0x80000001 ||| target.setWidth 32 <<< 4))

/-- ASY_CMD with GO and PROC = 2 (R827). -/
def execAsyCmdTdc (port : Port) (target : BitVec 8) (s : State) : Host.Outcome State Fault Refusal :=
  .next (s.onDev fun d => d.viaPort port R.ASY_CMD fun d => d.writeAsyCmd (0x80000002 ||| target.setWidth 32 <<< 4))

/-- ASY_CMD with GO and PROC = 3 (R829, R830). -/
def execAsyCmdXloop (port : Port) (target : BitVec 8) (loopIn : Fin 16) (s : State) : Host.Outcome State Fault Refusal :=
  .next (s.onDev fun d => d.viaPort port R.ASY_CMD fun d =>
    d.writeAsyCmd (0x80000003 ||| target.setWidth 32 <<< 4 ||| BitVec.ofNat 32 (loopIn.val * 4096)))

/-- ASY_CMD with GO and PROC = 4 (R833). -/
def execAsyCmdRskew (port : Port) (s : State) : Host.Outcome State Fault Refusal :=
  .next (s.onDev fun d => d.viaPort port R.ASY_CMD fun d => d.writeAsyCmd 0x80000004)

/-- ASY_CMD.ABORT (R826). -/
def execAsyCmdAbort (port : Port) (s : State) : Host.Outcome State Fault Refusal :=
  .next (s.onDev fun d => d.viaPort port R.ASY_CMD fun d => d.writeAsyCmd 0x40000000)

/-- ASSAY_ATTEMPT_START: a retry falls due (R823). -/
def execAssayAttemptStart (s : State) : Host.Outcome State Fault Refusal :=
  .next (s.onDev fun d => match d.asy.run with
    | some r => (match r.retryBn with
      | some b => if b ≤ d.now then d.asyAttempt else d
      | none => d)
    | none => d)

/-- ASSAY_DISTURBED: a precondition has failed in a core cycle of the measurement (R821, R822). -/
def execAssayDisturbed (s : State) : Host.Outcome State Fault Refusal := .next (s.onDev Dev.asyDisturb)

/-- ASSAY_POSTCHECK: the end of the last beat of the attempt (R821 to R825). -/
def execAssayPostcheck (i : AssayIn) (s : State) : Host.Outcome State Fault Refusal :=
  .next (s.onDev fun d => match d.asy.run with
    | none => d
    | some r =>
      if r.retryBn.isSome || decide (d.now + 1 < r.startBn + d.asyBeats r) || d.asy.applyDue.isSome then d
      else if !(d.asyPre r && i.quiet) then d.asyDisturb
      else if !i.inRange then
        let old := d.asy.range.filter (fun l => !r.lines.contains l)
        { d with asy := { d.asy with range := old ++ r.lines } }.asyEnd Rsn.asyRange
      else if r.proc = 4 then
        (d.skewApply r.target (i.skews.map (fun x => (x.1.val, x.2)))).asyEnd Rsn.ok
      else
        let d := if r.proc = 3 then d.loopPulses r.target 512 else d
        let sets := if r.proc = 3 then [] else (i.sets.map (fun x => (x.1.val, x.2))).filter (fun x => r.lines.contains x.1)
        { d with asy := { d.asy with applyDue := some (sets, i.offset) } })

/-- TDC_AUTO_START: the automatic TDC calibration of every enabled input falls due (R828). -/
def execTdcAutoStart (s : State) : Host.Outcome State Fault Refusal :=
  .next (s.onDev fun d =>
    if d.flag F.ASY_CTRL_TDCAUTO && d.t.running && decide (d.asy.tdcDue ≤ d.now) then
      { d with asy := { d.asy with tdcLeft := (List.range 16).filter (fun n => d.flag (F.TRG_CFG_EN n)),
                                   tdcDue := d.now + d.fld F.ASY_TDCPER_AUTOMATIC * 65536 } }
    else d)

/-- DRIFT_APPLY: every 1 024 measurements, a scale correction in 2^-16 for each cluster (R837, R839, R848). -/
def execDriftApply (corr : List Int) (s : State) : Host.Outcome State Fault Refusal :=
  .next (s.onDev fun d =>
    if d.asy.driftN < 1024 then d else
    let d := { d with asy := { d.asy with driftN := 0 } }
    let d := (List.range 8).foldl (fun d c =>
      let v := corr.getD c 0
      if mget 0 d.asy.baseBn c = d.now + 1 then d
      else if v.natAbs * 10 ≤ 65536 then
        let d := (d.setFld (F.ASY_DRIFT_SCALE c) (unsigned 16 v)).setFld (F.ASY_DRIFT_DIE c) (d.fld F.ASY_TEMP_DIE)
        d.setFlag (F.ASY_DRIFT_RANGE c) false
      else
        let d := (d.setFlag (F.ASY_DRIFT_RANGE c) true).asyResult Rsn.asyRange
        { d with asy := { d.asy with range := (d.asy.range ++ linesOf c).eraseDups } }) d
    d.asyShow)

/-- RSKEW_RETRY: a new series for the joining positions whose RSKEW has not succeeded (R836). -/
def execRskewRetry (s : State) : Host.Outcome State Fault Refusal :=
  .next (s.onDev fun d =>
    if d.asy.rskewPend.isEmpty || decide (d.now < d.asy.rskewDue) then d
    else d.rskewStart (d.asy.rskewPend.foldl (fun m p => m ||| 2 ^ p) 0))

end Sys2Proof.Machine
end

