-- ==== Sys2Proof/Machine/Clock.lean ====
section
/-!
DEFINITION. Sys2Proof/Machine/Clock.lean: the system PLL: clock faults, holdover and the return from it, the holdover flag of the
ring, and deliberate handover (05_clock_synthesis.md, R209 to R226, R252 to R255; 15_wilin_ring.md R767).
-/
namespace Sys2Proof.Machine
open Sys2Proof

/-- The SPLL phase of CLK_STAT (Table CLK-12): 0 lock count, 1 locked to reference, 2 slewing to holdover, 3 locked to holdover,
4 qualifying, 5 slewing to reference, 6 calibrating, 7 failed. -/
def Dev.spll (d : Dev) : Nat := d.fld F.CLK_STAT_SPLL

/-- Set the SPLL phase. -/
def Dev.setSpll (d : Dev) (n : Nat) : Dev := d.setFld F.CLK_STAT_SPLL n

/-- The core's own SPLL is in holdover. -/
def Dev.ownHoldover (d : Dev) : Bool := d.flag F.CLK_STAT_HOLDOVER

/-- The reasons that a clock fault of this device fences with (R217, Table FEN-1). -/
def clockReasons : List Reason := [Rsn.refLoss, Rsn.refFreq, Rsn.spllUnlock]

/-- Jobs of this device at a clock fault (Table CLK-3), in acceptance order (R219). They are decided at the end of the clock-fault
beat, which still issues and places what it has (R214, Table CLK-3). -/
def Dev.clockJobs (d : Dev) : Dev :=
  let js := (d.jobs.filter (fun j => j.exec == d.pos && !j.st.terminal)).mergeSort (fun a b => decide (a.hm ≤ b.hm))
  js.foldl (fun d j =>
    if j.active then d.endAs j.hm j.issued Rsn.expClock Rsn.partClock
    else if j.waiting && d.flag F.CLK_CTRL_HO_EXPIRE then d.endJob j.hm { typ := 6, reason := Rsn.expClock, bn := d.now }
    else d) d

/-- The end of the clock-fault beat decides the jobs (R219, R261). -/
def Dev.clockDecide (d : Dev) : Dev :=
  if d.clk.jobsDue then { d with clk := { d.clk with jobsDue := false } }.clockJobs else d

/-- Fence the timing outputs for a clock reason, stop the speed estimates, and let the jobs be decided at the end of the beat (R217,
R219); the assay procedure is abandoned and drift tracking stops (R838, R844). -/
def Dev.clockFence (d : Dev) (r : Reason) (fb : Nat) : Dev :=
  let d := (d.setFld F.CLK_STAT_REASON r.toNat).addSat F.CLK_EVT_CNT_HOLDOVER 1
  let d := { d.setNum2 R.CLK_HO_BN_LO R.CLK_HO_BN_HI fb with clk := { d.clk with faultBn := fb, holdover := true, jobsDue := true } }
  let d := d.raiseAll (timingDoms.map (fun k => (k, r)))
  let d := (List.range 8).foldl (fun d n => d.setFlag (F.ENC_STAT_SPEED_VALID n) false) d
  (d.asyAbandon.setFlag F.ASY_STAT_DRIFT_ON false).raiseIrq 18

/-- A deliberate handover at a beat L + 8 beats ahead or later, under dual seal (R767, Table JOB-9 for the refusals). The manager
tells the reserve the beat in a PROV message (DESIGN CHOICE: the spec names no message for it). -/
def Dev.handoverAt (d : Dev) (h : Nat) : Dev :=
  let res := fun (d : Dev) (r : Reason) => d.setFld F.WR_STAT_RESULT r.toNat
  if d.boot.role != .manager then res d Rsn.notActive
  else if !d.ldg.dual then res d Rsn.refSingleSeal
  else if h < d.now + d.lat + 8 then res d Rsn.refWindow
  else
    let d := { d with wr := { d.wr with handover := some h } }
    (res d Rsn.ok).bulkPut (d.wr.resPos.getD 63) 8 [3, BitVec.ofNat 32 h, BitVec.ofNat 32 (h / 2 ^ 32)]

/-- The reserve reports a qualified reference (S0 bit 30, Table RNG-5). -/
def Dev.resQual (d : Dev) : Bool :=
  match d.wr.resPos with
  | some p => (mget 0 d.wr.lastStatus p).testBit 30
  | none => false

/-- A manager in holdover requests a handover once the reserve has a qualified reference (R222). -/
def Dev.handoverAsk (d : Dev) : Dev :=
  if d.boot.role == .manager && d.ownHoldover && d.flag F.CLK_CTRL_HO_HANDOVER && d.wr.handover.isNone && d.ldg.dual && d.resQual
  then d.handoverAt (d.now + d.lat + 8) else d

/-- What the monitors of REFCLK say of the reference (R213). -/
def Dev.refFault (d : Dev) (r : Reason) : Dev :=
  let d := if r = Rsn.refLoss then d.setFlag F.CLK_STAT_REF_PRESENT false else d
  if r = Rsn.spllUnlock then d else d.setFlag F.CLK_STAT_REF_QUAL false

/-- Count a fault of the monitors (CLK_EVT_CNT), and show what it says of the reference; the loss of the ring's clock says nothing of a
reserve's own REFCLK (R211). -/
def Dev.countFault (d : Dev) (r : Reason) : Dev :=
  let d := if r = Rsn.refLoss then d.addSat F.CLK_EVT_CNT_REF_LOSS 1
    else if r = Rsn.spllUnlock then d.addSat F.CLK_EVT_CNT_SPLL_UNLOCK 1 else d
  if d.boot.role == .reserve then d else d.refFault r

/-- The device enters holdover: VCO frozen, core to the holdover oscillator, timing outputs fenced (R214, R215, R236). A bypass source that
is the lost reference shows no edge either (R240, R241). -/
def Dev.enterHoldover (d : Dev) (r : Reason) : Dev :=
  let d := ((d.countFault r).setFlag F.CLK_STAT_LOCKED false).setFlag F.CLK_STAT_HOLDOVER true
  let d := { d with clk := { d.clk with faultDue := true, lockRef := false, unfenceDue := false, unfenceWait := false } }
  let d := ((d.setSpll 2).clockFence r d.now).asFault Rsn.asRefLoss
  (if d.bypRef && r == Rsn.refLoss then d.bypLoss else d).handoverAsk

/-- A ring side carries a stream that can supply a clock (R212, R734). -/
def Dev.sideClock (d : Dev) : Bool :=
  (List.range 2).any (fun k => let v := mget ({} : SideSt) d.wr.side k; decide (2 ≤ v.lstate) && decide (v.lstate ≤ 4))

/-- A clock fault (R212, R214, R223, R254). With the core on the VCO it is a fault; with the core on the holdover oscillator it
restarts qualification; before the first lock the monitors do not watch. A device that is locked to the ring has none while a side can
supply a clock. -/
def Dev.clockFault (d : Dev) (r : Reason) : Dev :=
  if !d.pwr.vcore || d.pstate == 5 || (d.flag F.CLK_STAT_RING_SRC && d.sideClock) then d
  else if d.ownHoldover then
    let d := ((d.countFault r).setFlag F.CLK_STAT_REF_QUAL false).raiseIrq 18
    if d.spll = 5 ∨ d.spll = 4 ∨ (d.spll = 0 ∧ d.clk.lockRef) then d.setSpll 4 else d
  else if d.spll = 1 ∨ d.spll = 6 ∨ d.started then d.enterHoldover r
  else d

/-- A frame carries the holdover flag, for the beat given (R50, R214, R217, R255). -/
def Dev.holdoverOn (d : Dev) (fb : Nat) : Dev :=
  if d.clk.flagSeen then d else
  let d := { d with clk := { d.clk with flagSeen := true, recal := false, unfenceDue := false, unfenceWait := false } }
  (d.setFlag F.BT_STAT_HOLDOVER true).clockFence Rsn.holdoverFlag fb

/-- Holdover ends on this device: no job binds to a trigger from before (R220); vector 18 (R289). -/
def Dev.holdoverEnd (d : Dev) : Dev :=
  let d := { d with clk := { d.clk with holdover := d.ownHoldover || d.clk.flagSeen }, pwr := { d.pwr with bindBn := d.now } }
  (d.setFlag F.BT_STAT_HOLDOVER d.clk.holdover).raiseIrq 18

/-- Frames arrive without the flag: the device recalibrates before its domains are free (R50, R225). -/
def Dev.holdoverOff (d : Dev) : Dev :=
  if !d.clk.flagSeen then d else { d with clk := { d.clk with flagSeen := false, recal := true } }.holdoverEnd

/-- The Edge phase: BT_STAT.HOLDOVER sets after the clock-fault beat (R214), and a finished return unfences (Table CLK-4). -/
def Dev.clkEdge (d : Dev) : Dev :=
  let d := if d.clk.faultDue then { d with clk := { d.clk with faultDue := false } }.setFlag F.BT_STAT_HOLDOVER true else d
  if d.clk.unfenceDue then
    timingDoms.foldl (fun d k => d.clearCauses k (fun r => clockReasons.contains r || (r == Rsn.holdoverFlag && !d.clk.flagSeen)))
      { d with clk := { d.clk with unfenceDue := false, unfenceWait := false } }
  else d

/-- A write of CLK_CMD: UNFENCE ends the wait of HO_MANUAL at the next Edge phase (R224). -/
def Dev.writeClkCmd (d : Dev) (w : Word) : Dev :=
  if bitOf w 0 && d.clk.unfenceWait then { d with clk := { d.clk with unfenceDue := true, unfenceWait := false } } else d

/-- Delay-line calibration ends on a device that returns from holdover, or recalibrates after the ring's: the domains of R217 are free at
the next Edge phase, with HO_MANUAL = 1 at CLK_CMD.UNFENCE (Table CLK-4, R224, R225). -/
def Dev.returnCal (d : Dev) : Dev :=
  if d.spll != 6 && !d.clk.recal then d else
  let man := d.flag F.CLK_CTRL_HO_MANUAL
  let d := if d.spll = 6 then d.setSpll 1 else d
  { d with clk := { d.clk with recal := false, unfenceDue := !man, unfenceWait := man } }

/-! ## Meanings -/

/-- CLOCK_FAULT (R212, R214). A reserve monitors its own REFCLK while its SPLL follows the ring: its failure changes only what it reports
of it (R211). -/
def execClockFault (c : ClockLoss) (s : State) : Host.Outcome State Fault Refusal :=
  .next (s.onDev fun d =>
    let r := clockReasons.getD c.kind.val Rsn.refLoss
    if c.refclk && d.boot.role == .reserve && d.pwr.vcore then d.refFault r else d.clockFault r)

/-- SPLL_FAIL: no lock to the holdover oscillator within 10 ms: both ring sides stop (R216). -/
def execSpllFail (s : State) : Host.Outcome State Fault Refusal :=
  .next (s.onDev fun d =>
    if d.ownHoldover && (d.spll == 2 || (d.spll == 0 && !d.clk.lockRef)) then
      { (((d.setSpll 7).setFld F.CLK_STAT_REASON Rsn.spllFail.toNat).raiseIrq 18) with wr := { d.wr with stopped := true } }
    else d)

/-- REF_QUALIFIED: 65 536 consecutive good reference cycles (R213); a device locked to its holdover oscillator starts the return, one
that is not yet locked finishes that first (R223, R253). -/
def execRefQualified (s : State) : Host.Outcome State Fault Refusal :=
  .next (s.onDev fun d =>
    let d := (d.setFlag F.CLK_STAT_REF_PRESENT true).setFlag F.CLK_STAT_REF_QUAL true
    if d.ownHoldover && (d.spll == 3 || d.spll == 4 || d.spll == 7) then d.setSpll 5 else d)

/-- SPLL_SLEW_DONE: the VCO has reached its target, and the lock count starts (R215, Table CLK-4). -/
def execSpllSlewDone (s : State) : Host.Outcome State Fault Refusal :=
  .next (s.onDev fun d =>
    if d.spll = 2 then { d.setSpll 0 with clk := { d.clk with lockRef := false } }
    else if d.spll = 5 then { (d.setSpll 0).setFlag F.CLK_STAT_LOCKED false with clk := { d.clk with lockRef := true } }
    else d)

/-- CORE_CLOCK_RETURN: the core returns to the VCO at the next beat boundary (Table CLK-4, R69); calibration follows. -/
def execCoreClockReturn (s : State) : Host.Outcome State Fault Refusal :=
  .next (s.onDev fun d =>
    if d.ownHoldover && d.spll == 0 && d.clk.lockRef && d.flag F.CLK_STAT_LOCKED then
      let d := (d.setSpll 6).setFlag F.CLK_STAT_HOLDOVER false
      let d := { d with clk := { d.clk with faultDue := false } }
      (d.setNum R.CLK_HO_DUR (min (d.now - d.clk.faultBn) (2 ^ 32 - 1))).holdoverEnd
    else d)

/-- CLK_CMD written with UNFENCE = 1 (R224). -/
def execClkCmdUnfence (port : Port) (s : State) : Host.Outcome State Fault Refusal :=
  .next (s.onDev fun d => d.viaPort port R.CLK_CMD fun d => d.writeClkCmd 1)

end Sys2Proof.Machine
end

