-- ==== Sys2Proof/Machine/Startup.lean ====
section
/-!
DEFINITION. Sys2Proof/Machine/Startup.lean: what resets what, the strap read, the phases of a start, roles, and READY
(03_straps_and_startup.md, R92 to R145; 18_register_map.md R853 to R863; 02_beat_and_time.md R54 to R56).
-/
namespace Sys2Proof.Machine
open Sys2Proof

/-! ## What resets what (Table MAP-3) -/

/-- HP_CFG of a port that HPSET enables resets to 0x35, active and staged (R567, R854). -/
def Dev.resetPorts (d : Dev) : Dev :=
  (List.range (d.fld F.SUP_RCODE_HPSET)).foldl (fun d p => (d.setReg (R.HP_CFG p) 0x35).setStg (R.HP_CFG p) 0x35) d

/-- Reset the core and host-port domains: registers of class C and H, both images, and everything the core holds. The VBKP domain,
the calendar, the MRAM and the levels at the pins stay; a pending calendar set is cancelled (R861, R863). -/
def Dev.coreReset (d : Dev) : Dev :=
  let keep := fun a : Nat => regClass a == .v || regClass a == .k
  let inp := d.trg.inp.map (fun c => (c.1, ({ raw := c.2.raw } : TrgSt)))
  let enc := d.trg.enc.map (fun c => (c.1, ({ a := c.2.a, b := c.2.b } : EncSt)))
  let t := d.t
  let d' : Dev :=
    { regs := d.regs.filter (fun c => keep c.1), cal := { d.cal with pend := none }, boot := d.boot, pwr := d.pwr, mram := d.mram,
      out := d.out, draws := d.draws, tap := if d.tap = .sample then .sample else .bypass,
      t := { bn := t.bn, ceil := t.ceil, last := t.last, stopTicks := t.stopTicks, lastUsed := max t.lastUsed d.now },
      trg := { inp := inp.filter (fun c => decide (c.2 ≠ {})), enc := enc.filter (fun c => decide (c.2 ≠ {})) },
      tnk := { inputs := d.tnk.inputs }, po := { ilkLow := d.po.ilkLow, acting := d.po.ilkLow } }
  let d' := if d.cal.pend.isSome then (d'.setFlag F.CAL_STAT_PENDING false).setFld F.CAL_STAT_SET_RESULT Rsn.refState.toNat else d'
  ((d'.setFlag F.PO_ILKSTAT_ILK_L d.po.ilkLow).setFlag F.PO_ILKSTAT_ACTING d.po.ilkLow).resetPorts

/-! ## Decoding pins (Tables STR-2 to STR-5) -/

/-- The windows of Table STR-4 in units of 10 Ω. -/
def rWindows : List (Nat × Nat) :=
  [(985, 1015), (1054, 1086), (1133, 1167), (1222, 1258), (1311, 1349), (1409, 1451), (1517, 1563), (1626, 1674)] ++
  [(1754, 1806), (1882, 1938), (2020, 2080), (2177, 2243), (2335, 2405), (2512, 2588), (2699, 2781), (2896, 2984)] ++
  [(3113, 3207), (3349, 3451), (3596, 3704), (3862, 3978), (4157, 4283), (4463, 4597), (4797, 4943), (5152, 5308)] ++
  [(5536, 5704), (5950, 6130), (6393, 6587), (6876, 7084), (7388, 7612), (7940, 8180), (8531, 8789), (9171, 9449)]

/-- The code of a resistance in Ω, windows inclusive (R101). -/
def rCode (ohm : Nat) : Option Nat :=
  ((rWindows.zipIdx).find? (fun w => decide (10 * w.1.1 ≤ ohm) && decide (ohm ≤ 10 * w.1.2))).map (fun w => w.2)

/-- What SUP_RMEAS shows: the mean of the two passes, 0xF_FFFF when open. -/
def rShow (m : Option Nat × Option Nat) : Nat :=
  match m with
  | (some a, some b) => min ((a + b) / 2) 0xFFFFF
  | _ => 0xFFFFF

/-- Decode a resistor-coded pin with its highest code: the code, or the cause of SUP_STRAPDIAG: 1 open, 2 between windows,
3 beyond codes, 4 unstable (R102, R105). -/
def rDecode (m : Option Nat × Option Nat) (top : Nat) : Nat ⊕ Nat :=
  match m.1.bind rCode, m.2.bind rCode with
  | some a, some b => if a ≠ b then .inr 4 else if top < a then .inr 3 else .inl a
  | none, none => if m.1.isNone && m.2.isNone then .inr 1 else .inr 2
  | _, _ => .inr 4

/-- The code of a decoded pin, 0 when it is in fault. -/
def rVal (x : Nat ⊕ Nat) : Nat :=
  match x with
  | .inl v => v
  | .inr _ => 0

/-- The cause of a pin in fault. -/
def rFault (x : Nat ⊕ Nat) : Option Nat :=
  match x with
  | .inl _ => none
  | .inr c => some c

/-- A strap as a bit; an open one reads 0. -/
def levelBit : Level → Nat
  | .high => 1
  | .low | .open_ => 0

/-- A tri-level pin: 0 LOW, 1 HIGH, 2 HIGH-Z (Table STR-3); f where its reading is unstable. -/
def levelTri (f : Nat) : Option Level → Nat
  | some .low => 0
  | some .high => 1
  | some .open_ => 2
  | none => f

/-- An open strap is in fault (R96). -/
def levelFault (l : Level) : Option Nat := if l = .open_ then some 1 else none

/-- ROLE as read: 0 worker, 1 manager-capable, 2 standalone, 3 reserved. -/
def strapRole (r : StrapRead) : Nat := levelBit r.role1 * 2 + levelBit r.role0

/-- A role strap is in fault: the role counts as worker (DESIGN CHOICE: the spec names no role). -/
def strapRoleBad (r : StrapRead) : Bool := r.role1 == .open_ || r.role0 == .open_ || strapRole r == 3

/-- The role in force. -/
def strapCap (r : StrapRead) : Nat := if strapRoleBad r then 0 else strapRole r

/-- Every pin that applies to the role with its cause, by SUP_STRAPDIAG.PIN (R93, R94, R96, R97, R102, R105, R109). A reserved
ROLE shows on ROLE0, a forbidden REFSEL on REFSEL0; where several pins fail, the first failing one is the one with the lowest
SUP_STRAPDIAG.PIN (DESIGN CHOICE, unsafe: R107 gives no order of the pins; log entry 43). -/
def strapFaults (r : StrapRead) : List (Nat × Nat) :=
  let up := strapCap r != 0
  let refsel := levelBit r.refsel1 * 2 + levelBit r.refsel0
  let posn := rDecode r.posn 31
  let low : List (Nat × Option Nat) := if up then
      [(2, if refsel = 3 ∧ r.refsel0 ≠ .open_ ∧ r.refsel1 ≠ .open_ then some 6 else levelFault r.refsel0), (3, levelFault r.refsel1),
       (4, levelFault r.hostsel)] else []
  let pos : List (Nat × Option Nat) := if strapCap r = 2 then [] else
    [(7, if strapCap r = 1 ∧ 2 ≤ rVal posn then some 6 else rFault posn)]
  ([(0, if strapRole r = 3 then some 5 else levelFault r.role0), (1, levelFault r.role1)] ++ low ++
   [(5, if r.safea.isNone then some 4 else none), (6, if r.safeb.isNone then some 4 else none)] ++ pos ++
   [(8, rFault (rDecode r.hpset 16)), (9, rFault (rDecode r.mnom 12)), (10, rFault (rDecode r.chgset 15))]).filterMap
     (fun (x : Nat × Option Nat) => x.2.map (fun c => (x.1, c)))

/-- SUP_STRAP, SUP_RCODE, SUP_RMEAS and SUP_STRAPDIAG as the strap read sets them (Table STR-12). What SUP_STRAP
shows of an open strap or an unstable tri-level pin is a free value. -/
def Dev.applyStraps (d : Dev) (r : StrapRead) : Dev :=
  let w := Config.freeWord d.draws
  let d := { d with draws := d.draws + 1 }
  let b := fun (l : Level) (n : Nat) => if l = .open_ then 2 ^ n * slice w n n else 2 ^ n * levelBit l
  let strap := b r.role0 0 + b r.role1 1 + b r.refsel0 2 + b r.refsel1 3 + b r.hostsel 4 + 64 * levelTri (slice w 7 6) r.safea +
    256 * levelTri (slice w 9 8) r.safeb
  let posn := if strapCap r = 2 then 0 else rVal (rDecode r.posn 31)
  let code := posn + 2 ^ 8 * rVal (rDecode r.hpset 16) + 2 ^ 16 * rVal (rDecode r.mnom 12) + 2 ^ 20 * rVal (rDecode r.chgset 15)
  let d := (d.setNum R.SUP_STRAP strap).setNum R.SUP_RCODE code
  let d := ((d.setNum R.SUP_RMEAS_POSN (if strapCap r = 2 then 0 else rShow r.posn)).setNum R.SUP_RMEAS_HPSET (rShow r.hpset)).setNum
    R.SUP_RMEAS_MNOM (rShow r.mnom)
  let d := d.setNum R.SUP_RMEAS_CHGSET (rShow r.chgset)
  match (strapFaults r).head? with
  | some (pin, cause) => d.setNum R.SUP_STRAPDIAG (1 + 16 * pin + 256 * cause + 2 ^ 16 * Rsn.strapFault.toNat)
  | none => d.setNum R.SUP_STRAPDIAG 0

/-- The class of a VIO bank: the lowest of 1.8, 2.5 and 3.3 V whose recommended maximum is at or above the voltage (R888,
Table ELE-9: 1.89, 2.625 and 3.465 V). -/
def vioClass (mv : Nat) : Nat := if mv ≤ 1890 then 0 else if mv ≤ 2625 then 1 else 2

/-! ## Phases (Tables STR-8, STR-9 and PWR-3) -/

/-- SUP_BOOT.PHASE. -/
def Dev.phase (d : Dev) : Nat := d.fld F.SUP_BOOT_PHASE

/-- Enter a phase: vector 24 (Table HST-4). -/
def Dev.setPhase (d : Dev) (n : Nat) : Dev := (d.setFld F.SUP_BOOT_PHASE n).raiseIrq 24

/-- Hold the start with a reason code (R107, R131, R135, R399, R402). -/
def Dev.holdBoot (d : Dev) (r : Reason) : Dev := (d.setFld F.SUP_BOOT_REASON r.toNat).setPhase 15

/-- Set the role in force. -/
def Dev.setRole (d : Dev) (r : Role) : Dev :=
  let n := match r with
    | .worker => 0
    | .manager => 1
    | .reserve => 2
    | .standalone => 3
  let d := { d with boot := { d.boot with role := r } }.setFld F.SUP_ROLE_CURRENT n
  d.setFlag F.CLK_STAT_RING_SRC (n == 0 || n == 2)

/-- Ticks of the calendar oscillator as beats, rounded up (R54). -/
def tickBeats (n : Nat) : Nat := ceilDiv (n * 1000000000) 15728640

/-- Start the beat counter at a number; a CEIL record that covers it is sealed before any number at or above the stored ceiling is
used (R52, R53). -/
def Dev.runFrom (d : Dev) (b : Nat) : Dev :=
  let d := { d with t := { d.t with bn := BitVec.ofNat 56 b, ci := 0, running := true, stopTicks := 0, lastUsed := b },
                    boot := { d.boot with bkpRanOut := false } }
  if d.isMgr then d.sealRec { typ := 0x30, bn := b + 2 ^ 20 } else d

/-- Start the counter of a manager or standalone device (R54 to R56). -/
def Dev.startCounter (d : Dev) : Dev :=
  let own := if d.boot.bkpRanOut then d.t.ceil else max d.t.ceil (d.t.lastUsed + tickBeats d.t.stopTicks)
  let d := if d.boot.bkpRanOut then d.setFlag F.BT_STAT_GAP_UNKNOWN true else d
  d.runFrom (max own d.t.reported)

/-- Enter READY (R117, R836): a manager sends its first READY frame, and after a cold start it starts RSKEW for every position. -/
def Dev.enterReady (d : Dev) : Dev :=
  let cold := !d.pwr.exiting
  let d := if d.pwr.pend.isSome then (d.setFld F.PWR_STAT_CMD_RESULT 0).report false 8 0 0 false else d
  let d := { d with pwr := { d.pwr with exiting := false, dormFlag := false, pend := none } }.setFlag F.PWR_STAT_PENDING false
  let d := (((d.setFld F.PWR_STAT_STATE 1).setFld F.SUP_BOOT_REASON 0).setPhase 8).raiseIrq 17
  if d.boot.role == .manager then
    let d := { d with boot := { d.boot with readySent := true } }
    if cold then d.rskewStart (d.wr.present ||| 2 ^ d.pos) else d
  else d

/-- A device declares itself to the manager in LEDGER messages (R56, R126, R188, R404, R413, R753): first word 0, the declaration with
its last applied beat number, a reserve's ceiling in its place, and the jobs that it holds; first word 1, each outcome above its ring's
confirmed hallmark. The words' layout is the model's. -/
def Dev.declareSelf (d : Dev) : Dev :=
  let mine := d.jobs.filter (fun j => j.exec == d.pos)
  let outs := mine.filter (fun j => j.out.isSome && decide (mget 0 d.ldg.confirmed j.ring < j.hm))
  let held := mine.filter (fun j => j.out.isNone)
  let unc := (outs.filter (fun j => j.st == .unconfirmed)).length
  let w := fun n : Nat => BitVec.ofNat 32 n
  let two := fun n : Nat => [w n, w (n / 2 ^ 32)]
  let d := d.bulkPut d.wr.mgrPos 9 ([0, w (d.pos + (if d.boot.capable then 1 else 0) * 2 ^ 5 + d.fld F.SUP_RCODE_HPSET * 2 ^ 8 + d.mram.wdinc * 2 ^ 16)] ++
    two Config.serial.toNat ++ two (d.num2 R.BT_SYSID_LO R.BT_SYSID_HI) ++ two (if d.boot.capable then d.t.ceil else d.t.last) ++ [w unc] ++
    held.flatMap (fun j => [w j.hm, w (j.hm / 2 ^ 32 + (if j.active then 2 ^ 16 else 0))]))
  outs.foldl (fun d j => match j.out with
    | none => d
    | some o => d.bulkPut d.wr.mgrPos 9 ([1] ++ two j.hm ++ [w (o.typ + o.reason.toNat * 2 ^ 16)] ++ two o.bn ++ [w o.d0, w o.d1])) d

/-- Phase n is complete at a time in µs from PORST_L release (R115, R116, R123, R160, Table PWR-3). -/
def Dev.phaseDone (d : Dev) (n us : Nat) : Dev :=
  let d := if n < 8 && !d.pwr.exiting then d.setFld (F.SUP_BOOT_T_COMPLETION n) (min us 0xFFFFFF) else d
  let lone := d.boot.role == .standalone
  let worker := d.boot.role == .worker
  match n with
  | 0 => d.setPhase (if worker then 9 else 1)
  | 9 => d.setPhase 10
  | 1 | 10 => d.setPhase 2
  | 2 => if d.boot.replayed then (if worker then (d.setPhase 11).declareSelf else d.setPhase 4)
    else d.setPhase (if d.flag F.LDG_STAT_MOUNTED || d.flag F.LDG_STAT_BLANK then 4 else 3)
  | 3 => d.setPhase 4
  | 4 =>
    if worker then (if d.pwr.exiting then d.setPhase 7 else d.setPhase 11).declareSelf
    else if lone then d.startCounter.enterReady
    else if d.pwr.exiting then (if d.boot.role == .manager then d.startCounter else d).setPhase 7
    else
      let up : SideSt := { lstate := 1 }
      { d with wr := { d.wr with side := [(0, up), (1, up)] } }.setPhase 5
  | 5 => { d with boot := { d.boot with claimOpen := true } }.setPhase 6
  | 6 => d.setPhase 7
  | 7 => d.enterReady
  | _ => d

/-! ## Roles (R129 to R136) -/

/-- The claim of this device. -/
def Dev.ownClaim (d : Dev) : Claim := { pos := d.pos, formatted := d.flag F.SUP_ROLE_LEDGER_FORMATTED, sysId := d.sysId }

/-- Send this device's claim on both sides (R129). -/
def Dev.sendClaim (d : Dev) : Dev :=
  if d.linked then let c := d.ownClaim; d.emit (.claim c.pos c.formatted c.sysId) else d

/-- Claim a ranks above claim b (R129). -/
def Claim.above (a b : Claim) : Bool := (a.formatted && !b.formatted) || (a.formatted == b.formatted && decide (a.pos < b.pos))

/-- This device becomes manager: its counter starts, and a blank ledger is formatted under a new identity (Table STR-10). -/
def Dev.becomeManager (d : Dev) (us : Nat) : Dev :=
  let blank := !d.flag F.SUP_ROLE_LEDGER_FORMATTED
  let d := { d.setRole .manager with boot := { d.boot with role := .manager, roleKnown := true, claimOpen := false, claimBlank := blank },
                                     wr := { d.wr with mgrPos := d.pos, resPos := (d.boot.claims.head?).map Claim.pos } }
  let d := if !blank then d else
    let (d, n) := d.draw
    d.format (Config.newSysId n)
  (d.startCounter.phaseDone 6 us).raiseIrq 19

/-- This device becomes reserve of the manager at a position (R130, R134, R211). -/
def Dev.becomeReserve (d : Dev) (mgr us : Nat) : Dev :=
  let d := { d.setRole .reserve with boot := { d.boot with role := .reserve, roleKnown := true, claimOpen := false },
                                     wr := { d.wr with mgrPos := mgr, resPos := some d.pos } }
  (d.phaseDone 6 us).declareSelf.raiseIrq 19

/-- Hold at claim and census with ROLE_CONFLICT (R131, R135). -/
def Dev.conflictHold (d : Dev) : Dev :=
  ({ d with boot := { d.boot with conflict := true } }.holdBoot Rsn.roleConflict).raiseIrq 19

/-- A manager that has sent no READY frame withdraws before a higher-ranked claim; two histories of different systems hold (R131, R136). -/
def Dev.lateClaim (d : Dev) (us : Nat) (c : Claim) : Dev :=
  let own : Claim := { d.ownClaim with formatted := !d.boot.claimBlank }
  if d.boot.role != .manager || d.boot.readySent || d.phase != 7 then d
  else if own.formatted && c.formatted && own.sysId != c.sysId then
    let d := { d.setRole .reserve with t := { d.t with running := false } }
    { d with boot := { d.boot with roleKnown := false, claims := [c] } }.conflictHold
  else if c.above own then
    let d := if d.boot.claimBlank then (d.setFlag F.SUP_ROLE_LEDGER_FORMATTED false).setFlag F.LDG_STAT_BLANK true else d
    { d with t := { d.t with running := false } }.becomeReserve c.pos us
  else d

/-- Rank the claims once this device has trained (R129 to R131, R136). -/
def Dev.rankClaims (d : Dev) (us : Nat) : Dev :=
  if !d.boot.claimOpen || d.boot.roleKnown || !d.boot.capable || d.boot.conflict then d else
  match d.boot.claims.head? with
  | none => d
  | some c =>
    let own := d.ownClaim
    if own.formatted && c.formatted && own.sysId != c.sysId then d.conflictHold
    else if own.above c then d.becomeManager us
    else d.becomeReserve c.pos us

/-! ## The cold start (R112, R143) -/

/-- The highest-numbered cause present (R143, Table STR-7). -/
def coldCause (por bkp : Bool) : Nat := if bkp then 3 else if por then 2 else 1

/-- The VBKP domain has lost its power: the calendars come back at an unknown value, a free one, and are not valid (R81, R82). -/
def Dev.calLost (d : Dev) : Dev :=
  let w := fun k : Nat => (Config.freeWord (d.draws + k)).toNat
  let v : CalVal := { sec := w 0 + 2 ^ 32 * w 1, sub := w 2 }
  ({ d with cal := { d.cal with now := v, print := v, hiWater := none }, draws := d.draws + 3 }.setFlag F.CAL_STAT_VALID false).setFlag
    F.CAL_STAT_CLAMPED false

/-- A strap read is in progress: nothing of it is applied, and the drivers are off (R99, R137). -/
def Dev.readOpen (d : Dev) : Dev :=
  let d := (((d.setNum R.SUP_STRAP 0).setNum R.SUP_RCODE 0).setNum R.SUP_STRAPDIAG 0).setNum R.SUP_BOOT 0
  let d := ((((d.setNum R.SUP_RMEAS_POSN 0).setNum R.SUP_RMEAS_HPSET 0).setNum R.SUP_RMEAS_MNOM 0).setNum R.SUP_RMEAS_CHGSET 0).setNum
    (R.SUP_BOOT_T 0) 0
  let d := (d.setFld F.PWR_STAT_STATE 15).setRole .worker
  { d with boot := { porst := d.boot.porst, pulses := d.boot.pulses, perst := d.boot.perst, bkpRanOut := d.boot.bkpRanOut, reading := true } }

/-- A cold start up to the end of the strap read (R92, R96 to R109, R796, R861), or up to the instant in it at which PORST_L is
asserted again (R137). -/
def Dev.coldStart (d : Dev) (r : StrapRead) (por : Bool) : Dev :=
  let bkp := r.bkpOut || d.pwr.bkpDead
  let cause := coldCause (por || r.vauxPor) bkp
  let d := if bkp then d.calLost else d
  let regs := d.regs.filter (fun c => regClass c.1 != .v)
  let wd := if d.mram.wdinc = 0 then 1 else nextInc d.mram.wdinc
  let boot : BootSt := { porst := d.boot.porst, strapsValid := true, capable := strapCap r == 1, bkpRanOut := bkp || d.boot.bkpRanOut,
                         perst := d.boot.perst || r.perst, pulses := d.boot.pulses, vio := r.vio.map vioClass }
  let d := { d with regs := regs, boot := boot, pwr := { vcore := true }, mram := { d.mram with wdinc := wd } }
  let begun := fun d : Dev => ((d.setFld F.SUP_BOOT_COLD_CAUSE cause).setFlag F.PWR_STAT_PEN_CORE true).setFlag F.SUP_BKP_EXHAUSTED (cause == 3)
  if r.cut then begun d.coreReset.readOpen else
  let d := (d.applyStraps r).coreReset
  let role : Role := if strapCap r = 0 then .worker else if strapCap r = 1 then .reserve else .standalone
  let d := d.setRole role
  let train := strapCap r != 0 && r.hostsel == .low && !d.boot.perst
  let d := { d with boot := { d.boot with offA := r.safea.isNone, offB := r.safeb.isNone, linkTraining := train } }
  let d := begun d
  let d := { d with wr := { d.wr with mgrPos := 0 } }
  let d := d.setFld (F.SUP_BOOT_T_COMPLETION 0) (min r.us 0xFFFFFF)
  if (strapFaults r).isEmpty then
    let d := d.phaseDone 0 r.us
    if strapCap r = 0 then d.setFld F.PWR_STAT_STATE 5 else d
  else d.holdBoot Rsn.strapFault

/-! ## Meanings -/

/-- PORST_L_ASSERT: a strap read in progress is abandoned, with no value of it applied (R137); nothing else happens until the release
(R112, R113). -/
def execPorstLAssert (s : State) : Host.Outcome State Fault Refusal :=
  .next (s.onDev fun d => { d with boot := { d.boot with porst := true, reading := false } })

/-- COLD_START: PORST_L is released after a low pulse of a length in ns; what the strap read finds is given. A pulse shorter than
1 µs is ignored, one of 10 µs or longer starts a cold start, and one between does either (R112, R113, R160). -/
def execColdStart (lowNs : Nat) (r : StrapRead) (s : State) : Host.Outcome State Fault Refusal :=
  .next (s.onDev fun d =>
    if !d.boot.porst then d else
    let k := d.boot.pulses
    let short := decide (lowNs < 10000)
    let d := { d with boot := { d.boot with porst := false, pulses := if short && decide (1000 ≤ lowNs) then k + 1 else k } }
    if lowNs < 1000 || (short && !Config.shortPulseStarts k) then d else d.coldStart r false)

/-- VAUX_POWER_ON_RESET: a cold start of cause 2, unless the backup cell ran out as well (R143). -/
def execVauxPowerOnReset (r : StrapRead) (s : State) : Host.Outcome State Fault Refusal :=
  .next (s.onDev fun d => d.coldStart r true)

/-- BKP_EXHAUSTED: the dormancy flag clears and the next start is a cold start of cause 3; with main power back in the same sample it
is performed at once (R189 to R191). It is declared in HOLDUP, dormancy and PARK only (Table PWR-4). -/
def execBkpExhausted (mains : Option StrapRead) (s : State) : Host.Outcome State Fault Refusal :=
  .next (s.onDev fun d =>
    if !(d.flag F.PWR_STAT_HOLDUP || d.pwr.dormant || d.pstate == 3) then d else
    let evt : SupEvt := { code := Rsn.bkpExhausted, bn := d.now, val := d.fld F.SUP_BKP_VBKP }
    let full := decide (16 ≤ d.pwr.mevt.length)
    let d := { d with pwr := { d.pwr with bkpDead := true, dormFlag := false,
                                          mevt := if full then d.pwr.mevt else d.pwr.mevt ++ [evt],
                                          mevtLost := if full then satAdd 8 d.pwr.mevtLost 1 else d.pwr.mevtLost } }
    match mains with
    | some r => d.coldStart r false
    | none => d.raiseIrq 17)

/-- STRAP_LIVE_CHECK: the supervisor decodes every pin again; a reading that differs from the value in force sets the pin's bit, a new such
reading raises STRAP_CHANGED (vector 24) once, and none is applied (R110, R138). -/
def execStrapLiveCheck (r : StrapRead) (s : State) : Host.Outcome State Fault Refusal :=
  .next (s.onDev fun d =>
    if !d.boot.strapsValid then d else
    let b := fun (l : Level) (n : Nat) => (if l = .open_ then 2 else levelBit l, slice (d.reg R.SUP_STRAP) n n)
    let v := fun (m : Option Nat × Option Nat) (top : Nat) (f : Fld) => (match rDecode m top with
      | .inl c => c
      | .inr cause => 256 + cause, d.fld f)
    let up := d.boot.role != .worker
    let host := if up then [(2, b r.refsel0 2), (3, b r.refsel1 3), (4, b r.hostsel 4)] else []
    let posn := if d.boot.role != .standalone then [(7, v r.posn 31 F.SUP_RCODE_POSN)] else []
    let pins := [(0, b r.role0 0), (1, b r.role1 1)] ++ host ++ [(5, (levelTri 3 r.safea, d.fld F.SUP_STRAP_SAFEA)),
      (6, (levelTri 3 r.safeb, d.fld F.SUP_STRAP_SAFEB))] ++ posn ++ [(8, v r.hpset 16 F.SUP_RCODE_HPSET),
      (9, v r.mnom 12 F.SUP_RCODE_MNOM), (10, v r.chgset 15 F.SUP_RCODE_CHGSET)]
    let now := (pins.filter (fun x => x.2.1 != x.2.2)).map (fun x => (x.1, x.2.1))
    let new := now.filter (fun x => !d.boot.liveBad.contains x)
    let d := { d with boot := { d.boot with liveBad := now } }
    let d := now.foldl (fun d x => d.setReg R.SUP_STRAPLIVE (putBit (d.reg R.SUP_STRAPLIVE) x.1 true)) d
    new.foldl (fun d _ => d.raiseIrq 24) d)

/-- SPLL_LOCK: the lock count has run (R210, R733): the first lock of a start, the lock to the holdover oscillator, the lock of a
return, or the lock to REFCLK after a takeover. -/
def execSpllLock (us : Nat) (s : State) : Host.Outcome State Fault Refusal :=
  .next (s.onDev fun d =>
    if d.spll ≠ 0 || !d.pwr.vcore then d
    else if d.ownHoldover then
      if d.clk.lockRef then d.setFlag F.CLK_STAT_LOCKED true
      else (d.setSpll (if d.flag F.CLK_STAT_REF_QUAL then 5 else if d.flag F.CLK_STAT_REF_PRESENT then 4 else 3)).setFlag F.CLK_STAT_LOCKED true
    else if d.phase = 1 ∨ d.phase = 10 ∨ d.started then
      let d := (((d.setSpll 1).setFlag F.CLK_STAT_LOCKED true).setFlag F.CLK_STAT_REF_PRESENT true).setFlag F.CLK_STAT_REF_QUAL true
      if d.started then d else d.phaseDone d.phase us
    else d)

/-- SPLL_LOCK_TIMEOUT: the reference has not completed its count within 100 ms: start-up goes on from the holdover oscillator, with
self-calibration deferred and the timing outputs fenced (R118). DESIGN CHOICE, unsafe: SUP_BOOT_T1 then holds the instant of the timeout,
at which phase 0x1 ends without a lock; R116 names no value for it (log entry 41). -/
def execSpllLockTimeout (us : Nat) (kind : Fin 3) (s : State) : Host.Outcome State Fault Refusal :=
  .next (s.onDev fun d =>
    if d.phase = 1 ∧ d.boot.role ≠ .worker then
      let d := { d with boot := { d.boot with calDeferred := true } }
      let d := d.enterHoldover (clockReasons.getD kind.val Rsn.refLoss)
      let d := if d.pwr.exiting then d else d.setFld (F.SUP_BOOT_T_COMPLETION 1) (min us 0xFFFFFF)
      d.setPhase (if d.boot.replayed then 4 else 3)
    else d)

/-- SELF_CALIBRATION_DONE: every line is calibrated: phase 0x2 of a start, the return from holdover, or a worker's recalibration
(R115, R223 to R225, R841); head ports start training at the end of phase 0x2 (R594, R118). -/
def execSelfCalibrationDone (us : Nat) (sets : List (Fin 64 × List Int)) (s : State) : Host.Outcome State Fault Refusal :=
  .next (s.onDev fun d =>
    let first := d.phase == 2 && !d.started
    if !(first || d.spll == 6 || d.clk.recal) then d else
    let train := first || d.boot.calDeferred
    let d := d.linesAll (sets.map (fun x => (x.1.val, x.2)))
    let d := { d with boot := { d.boot with calDone := true, calDeferred := false } }.returnCal
    let d := if train then (List.range 16).foldl Dev.hpTrain d else d
    if first then d.phaseDone 2 us else d)

/-- READY_WAIT_CLOCK_LOSS: a worker goes back to waiting for a clock; it will calibrate again, but not mount and replay (R125). -/
def execReadyWaitClockLoss (s : State) : Host.Outcome State Fault Refusal :=
  .next (s.onDev fun d =>
    if d.boot.role == .worker && d.pstate == 5 && d.phase != 9 && d.phase != 15 then
      (((d.setSpll 0).setFlag F.CLK_STAT_LOCKED false).setFlag F.ASY_STAT_DRIFT_ON false).setPhase 9
    else d)

/-- CLAIM_MESSAGE: the claim of the other manager-capable device (R129, R131, R136). A blank claim ends the hold of a device whose
partner the host has formatted (R144). -/
def execClaimMessage (us : Nat) (pos : Fin 32) (formatted : Bool) (sysId : BitVec 64) (s : State) :
    Host.Outcome State Fault Refusal :=
  .next (s.onDev fun d =>
    if !d.boot.capable || pos.val == d.pos then d else
    let c : Claim := { pos := pos.val, formatted := formatted, sysId := sysId }
    if d.boot.roleKnown then d.lateClaim us c else
    let d := if d.boot.conflict && !formatted then d.claimAgain else d
    { d with boot := { d.boot with claims := [c] } }.rankClaims us)

/-- CLAIM_TIMEOUT: no claim within 500 ms of this device's own ring training (R132, R133). -/
def execClaimTimeout (us : Nat) (s : State) : Host.Outcome State Fault Refusal :=
  .next (s.onDev fun d =>
    if d.boot.capable && d.boot.claimOpen && !d.boot.roleKnown && !d.boot.conflict && d.boot.claims.isEmpty then d.becomeManager us
    else d)

/-- The ring latency L: the largest one-way latency from the manager to a device present, in whole beats (R738). -/
def Dev.showLat (d : Dev) : Dev :=
  let far := ((List.range 32).filter (fun p => d.wr.present.testBit p)).map (fun p => d.oneWay d.wr.mgrPos p)
  d.setFld F.WR_STAT_L (ceilDiv (far.foldl max 0) 480000)

/-- Put an offset table in force: this device's delays, and L (R736, R737). -/
def Dev.putOffsets (d : Dev) (t : List Int) : Dev :=
  let d := { d with wr := { d.wr with offTab := t } }
  let d := (List.range 2).foldl (fun d k => (d.setFld (F.WR_DCW_D_CW k) (unsigned 24 (t.getD (2 * d.pos) 0))).setFld
    (F.WR_DCCW_D_CCW k) (unsigned 24 (t.getD (2 * d.pos + 1) 0))) d
  d.showLat

/-- BEAT_ALIGNMENT_COMPLETE: the two measurements have ended: the loop time, and the delays of the positions, which the manager
distributes, with the stored RSKEW corrections of devices whose serial number still matches (R735 to R737, R836). In phase 0x7 the
device then enters READY; a worker that has left PARK returns to listening only by its own power state. -/
def execBeatAlignmentComplete (us : Nat) (loop : BitVec 24) (tab : List (Fin 32 × BitVec 24 × BitVec 24)) (s : State) :
    Host.Outcome State Fault Refusal :=
  .next (s.onDev fun d =>
    if d.boot.role == .standalone then d else
    let t := (List.range 32).flatMap (fun p => match tab.find? (fun x => x.1.val == p) with
      | some x => [(x.2.1.toNat : Int), (x.2.2.toNat : Int)]
      | none => [d.wr.offTab.getD (2 * p) 0, d.wr.offTab.getD (2 * p + 1) 0])
    let d := (d.setNum R.WR_LOOP loop.toNat).putOffsets t
    let d := if d.boot.role == .manager then
        let cor := (d.asy.rskew.filter (fun x => x.1 != d.pos && d.serialAt x.1 == x.2.2.2 && tab.any (fun y => y.1.val == x.1))).map
          (fun x => (x.1, x.2.1, x.2.2.1))
        let d := d.putOffsets (d.skewTab cor)
        d.bulkPut 63 10 (offWords d.now d.wr.offTab)
      else d
    if d.phase = 7 then d.phaseDone 7 us else d)

end Sys2Proof.Machine
end

