-- ==== Sys2Proof/Machine/Power.lean ====
section
/-!
DEFINITION. Sys2Proof/Machine/Power.lean: power commands and states, the mains and bus watch, BRACE, HOLDUP, dormancy and the
supply events (04_power_and_supply.md, R146 to R208).
-/
namespace Sys2Proof.Machine
open Sys2Proof

/-! ## Supply events (R167 to R172) -/

/-- Record a supply event in the 16-entry FIFO, which keeps its oldest entries (R167, R168). -/
def Dev.supEvent (d : Dev) (r : Reason) (val : Nat) : Dev :=
  let full := decide (16 ≤ d.pwr.mevt.length)
  let e : SupEvt := { code := r, bn := d.now, val := val % 65536 }
  { d with pwr := { d.pwr with mevt := if full then d.pwr.mevt else d.pwr.mevt ++ [e],
                               mevtLost := if full then satAdd 8 d.pwr.mevtLost 1 else d.pwr.mevtLost } }.raiseIrq 17

/-- A BRACE can start: not in PARK, OFF or dormancy, nor on the way out of them (R172), and only while beats pass (R175; DEDUCED for
a start-up whose beat counter has not started, log entry 60). -/
def Dev.canBrace (d : Dev) : Bool := d.pwr.vcore && d.t.running && !d.pwr.exiting && d.pstate != 3 && d.pstate != 4

/-- An event starts a BRACE at the next beat, or joins one (R169, R175). -/
def Dev.braceReq (d : Dev) (r : Reason) : Dev :=
  if !d.canBrace then d
  else if d.braced || d.pwr.braceDue.isSome then { d with pwr := { d.pwr with open_ := d.pwr.open_ ++ [r] } }
  else { d with pwr := { d.pwr with braceDue := some (d.now + 1), open_ := [r] } }

/-- A condition holds or not: an event is declared once per episode, and acts when it is told to. -/
def Dev.supWatch (d : Dev) (r : Reason) (on brace : Bool) (val : Nat) : Dev :=
  if on then
    if d.pwr.raised.contains r then d else
    let d := { d with pwr := { d.pwr with raised := d.pwr.raised ++ [r] } }.supEvent r val
    if brace then d.braceReq r else d
  else { d with pwr := { d.pwr with raised := d.pwr.raised.filter (· != r) } }

/-- DCSENSE is above DCREL; met while SUP_DCTHR0 holds 0 (R856). -/
def Dev.dcRel (d : Dev) : Bool :=
  d.num R.SUP_DCTHR0 == 0 || decide (d.fld F.SUP_DCTHR1_DCREL < d.fld F.SUP_DCVAL_DCSENSE)

/-- PEN_CORE, then HOLDEN, are deasserted, and dormancy begins (R185, R157): only the VBKP domain runs. The dormancy flag is not set
again once the cell has run out (R189). -/
def Dev.sleep (d : Dev) : Dev :=
  let d := (d.setFlag F.PWR_STAT_PEN_CORE false).setFlag F.PWR_STAT_HOLDEN false
  let d := ((d.setFlag F.PWR_STAT_BRACE false).setFlag F.PWR_STAT_HOLDUP false).setFlag F.PWR_STAT_CLOSED_OUT false
  let d := (d.setFlag F.PWR_STAT_DRAINING false).setFld F.PWR_STAT_STATE 1
  { d with pwr := { d.pwr with dormant := true, dormFlag := !d.pwr.bkpDead, vcore := false, braceDue := none, open_ := [], pend := none },
           t := { d.t with running := false, lastUsed := max d.t.lastUsed d.now } }

/-- The end of close-out in HOLDUP (R185, R200). After the cell has run out there is no resume, whatever the bus does (R189, R191). -/
def Dev.holdupEnd (d : Dev) : Dev := if d.dcRel && !d.pwr.bkpDead then d.setFlag F.PWR_STAT_HOLDEN false else d.sleep

/-- HOLDUP is in force from now on (R184, R187). -/
def Dev.holdupOn (d : Dev) : Dev :=
  { d with pwr := { d.pwr with holdDue := false, heldUp := true } }.setFlag F.PWR_STAT_HOLDUP true

/-- DCBUS_HOLD starts HOLDUP: at once under a BRACE, else with the BRACE that it starts; HOLDEN is asserted at once unless close-out
is complete (R184, R187). -/
def Dev.holdup (d : Dev) : Dev :=
  if d.flag F.PWR_STAT_HOLDUP || d.pwr.holdDue || !d.canBrace then d else
  let on := d.braced
  let d := d.braceReq Rsn.dcbusHold
  if on then
    let d := d.holdupOn
    if d.flag F.PWR_STAT_CLOSED_OUT then d.holdupEnd else d.setFlag F.PWR_STAT_HOLDEN true
  else { d with pwr := { d.pwr with holdDue := true } }.setFlag F.PWR_STAT_HOLDEN true

/-- A count field of four bits whose range is 1 to 16: 0 stands for 16 (DEDUCED from Table PWR-4). -/
def cnt16 (n : Nat) : Nat := if n = 0 then 16 else n

/-- The nominal frequency of MNOM in 0.001 Hz (Table STR-5). -/
def Dev.nomFreq (d : Dev) : Nat := if d.fld F.SUP_RCODE_MNOM % 2 = 1 then 50000 else 60000

/-- A criterion met for n half-cycles or samples in a row declares its event; one not met ends the episode. -/
def Dev.watchN (d : Dev) (r : Reason) (on : Bool) (need n : Nat) (brace : Bool) (val : Nat) : Dev :=
  if on then (if need ≤ n then d.supWatch r true brace val else d) else d.supWatch r false false 0

/-- An event's action bit in SUP_MACT. -/
def Dev.mact (d : Dev) (k : Nat) : Bool := bitOf (d.reg R.SUP_MACT) k

/-- Consecutive half-cycles that met the sag, swell and interruption criteria, and good ones (Table PWR-4, R181). -/
def Dev.halfCount (d : Dev) (sag swell cut bad : Bool) : Dev :=
  let p := d.pwr
  { d with pwr := { p with sagN := if sag then p.sagN + 1 else 0, swellN := if swell then p.swellN + 1 else 0,
                           intN := if cut then p.intN + 1 else 0, good := if bad then 0 else p.good + 1 } }

/-- The frequency criterion of one half-cycle (R170). -/
def Dev.freqBad (d : Dev) (i : BeatIn) (f : Nat) : Bool :=
  let off := if f < d.nomFreq then d.nomFreq - f else f - d.nomFreq
  !i.tracking || decide (100 * d.fld F.SUP_MTHR1_FEXC < off) || decide (f < 45000) || decide (66000 < f)

/-- MAINS_FREQ on a tracked frequency. The value recorded while tracking is lost is a free value: no frequency is measured then
(R167; log entry 149). -/
def Dev.freqEvent (d : Dev) (tracking bad : Bool) (f : Nat) : Dev :=
  if tracking || d.pwr.raised.contains Rsn.mainsFreq then d.supWatch Rsn.mainsFreq bad (d.mact 4) (f / 10)
  else
    let (d, n) := d.draw
    d.supWatch Rsn.mainsFreq true (d.mact 4) (Config.freeWord n).toNat

/-- An RMS value times SUP_MGAIN, whose unit is 2^-14 (R166); the fraction is dropped (DESIGN CHOICE; log entry 149). -/
def Dev.gained (d : Dev) (rms : Nat) : Nat := rms * slice (d.reg R.SUP_MGAIN) 15 0 / 2 ^ 14

/-- The criteria at the end of a half-cycle (Table PWR-4, R169 to R171, R181, R208). -/
def Dev.halfWatch (d : Dev) (i : BeatIn) (miss : Bool) (rms f : Nat) : Dev :=
  let d := { d with pwr := { d.pwr with mfreq := f, zcRise := if i.rising then some d.now else d.pwr.zcRise,
                                        zcFall := if i.rising then d.pwr.zcFall else some d.now } }
  let d := d.setNum R.SUP_MSTAT (min (f - 40000) 65535 + 65536 * min rms 65535)
  let sag := decide (rms < 10 * d.fld F.SUP_MTHR0_SAG_PCT)
  let swell := decide (10 * d.fld F.SUP_MTHR0_SWELL_PCT < rms)
  let cut := decide (rms < 10 * d.fld F.SUP_MTHR0_INT_PCT)
  let badF := d.freqBad i f
  let d := d.halfCount sag swell cut (sag || swell || miss || badF)
  let d := d.watchN Rsn.mainsSag sag (cnt16 (d.fld F.SUP_MTHR1_SAG_N)) d.pwr.sagN (d.mact 2) rms
  let d := d.watchN Rsn.mainsSwell swell (cnt16 (d.fld F.SUP_MTHR1_SWELL_N)) d.pwr.swellN (d.mact 3) rms
  let d := d.watchN Rsn.mainsInterrupt cut (cnt16 (d.fld F.SUP_MTHR1_INT_N)) d.pwr.intN (d.mact 1) rms
  let d := d.freqEvent i.tracking badF f
  if miss then d else d.supWatch Rsn.mainsMissing false false 0

/-- The mains criteria on one sample: missing mains and lost tracking at once, the rest at the end of a half-cycle. The deficit is
that against the nominal frequency while tracking is lost (R170). -/
def Dev.mainsWatch (d : Dev) (i : BeatIn) : Dev :=
  if d.fld F.SUP_RCODE_MNOM = 0 then d else
  let miss := decide (d.fld F.SUP_MTHR0_MISS_PCT < (if i.tracking then i.deficit else i.deficitNom))
  let rmsNow := match i.half with
    | some h => d.gained h.1
    | none => slice (d.reg R.SUP_MSTAT) 31 16
  let d := if miss then d.supWatch Rsn.mainsMissing true (d.mact 0) rmsNow else d
  let d := { d with pwr := { d.pwr with trackLost := !i.tracking } }
  match i.half with
  | none => if i.tracking then d else d.freqEvent false true 0
  | some h => d.halfWatch i miss (d.gained h.1) h.2

/-- DCSENSE against DCBRACE and DCHOLD: 16 samples in a row declare the event (Table PWR-4, R856). -/
def Dev.dcWatch (d : Dev) (dc : Nat) : Dev :=
  let on := d.num R.SUP_DCTHR0 != 0
  let low := on && decide (dc < d.fld F.SUP_DCTHR0_DCBRACE)
  let hold := on && decide (dc < d.fld F.SUP_DCTHR0_DCHOLD)
  let d := { d with pwr := { d.pwr with dcLowN := if low then d.pwr.dcLowN + 1 else 0,
                                        dcHoldN := if hold then d.pwr.dcHoldN + 1 else 0 } }
  let d := d.watchN Rsn.dcbusLow low 16 d.pwr.dcLowN (d.mact 5) dc
  let was := d.pwr.raised.contains Rsn.dcbusHold
  let d := d.watchN Rsn.dcbusHold hold 16 d.pwr.dcHoldN false dc
  if d.pwr.raised.contains Rsn.dcbusHold && !was then d.holdup else d

/-- The backup cell (R152, R194). -/
def Dev.bkpWatch (d : Dev) (v : Nat) : Dev :=
  let ready := decide (d.fld F.SUP_BKPTHR_BKP_READY ≤ v)
  (d.setFlag F.PWR_STAT_BKP_READY ready).supWatch Rsn.bkpLow (!ready) false v

/-- Set current of a CHGSET code in µA (Table STR-5). -/
def chgSet (code : Nat) : Nat :=
  1000 * ((if code < 8 then [0, 5, 10, 20, 40, 60, 80, 100] else [5, 10, 20, 40, 60, 80, 100, 150]).getD (code % 8) 0)

/-- The charger's state (SUP_BKP, R193, Table PWR-7): 0 off, 1 precharge, 2 constant current, 3 constant voltage, 4 done, 5 folded back
to keep its dissipation (VCHG − VBKP) × current at 300 mW, 6 fault. Above 110 °C it is off. -/
def chargerOf (code was vbkp vchg cur : Nat) (hot fault : Bool) : Nat :=
  let fold := fun i => decide (300000000 < (vchg - vbkp) * i)
  if fault then 6
  else if code = 0 || hot then 0
  else if code < 8 then
    if was = 4 ∧ 4050 ≤ vbkp then 4
    else if vbkp < 3000 then (if fold (chgSet code / 10) then 5 else 1)
    else if vbkp < 4200 then (if fold (chgSet code) then 5 else 2)
    else if cur < chgSet code / 10 then 4 else 3
  else if vbkp < 5000 then (if fold (chgSet code) then 5 else 2) else 3

/-- The charger on one sample. -/
def Dev.chargeWatch (d : Dev) (i : BeatIn) : Dev :=
  d.setFld F.SUP_BKP_CHARGER (chargerOf (d.fld F.SUP_RCODE_CHGSET) (d.fld F.SUP_BKP_CHARGER) i.vbkp i.vchg i.chgCur
    (decide (110 < i.temp.toInt)) i.chgFault)

/-- The DC bus, the rails and the backup cell on one sample (Table PWR-4, R152, R193, R194, R856). -/
def Dev.busWatch (d : Dev) (i : BeatIn) : Dev :=
  let d := (d.setFld F.SUP_DCVAL_DCSENSE (min i.dc 4095)).setFld F.SUP_BKP_VBKP (min i.vbkp 8191)
  let d := (d.chargeWatch i).dcWatch (min i.dc 4095)
  let d := if i.uv then d else { d with boot := { d.boot with bankOff := [] } }.supWatch Rsn.supplyUv false false 0
  d.bkpWatch (min i.vbkp 8191)

/-- What the supervisor does with one sample. -/
def Dev.supSample (d : Dev) (i : BeatIn) : Dev :=
  ((d.setFld F.ASY_TEMP_DIE i.temp.toNat).mainsWatch i).busWatch i

/-! ## Power commands (R150 to R165) -/

/-- Table PWR-2: a command (1 RUN to 5 OFF) is listed for a state. -/
def pwrListed (st cmd : Nat) : Bool :=
  match cmd with
  | 1 => st == 1
  | 2 => st == 0 || st == 2 || st == 3 || st == 5
  | 3 => st == 1
  | 4 => st == 1
  | 5 => st == 1 || st == 2 || st == 3
  | _ => false

/-- Show the result of a command for this device (PWR_STAT.CMD_RESULT) with vector 17; a worker or reserve reports it (kind 8). -/
def Dev.pwrResult (d : Dev) (r : Reason) : Dev :=
  ((d.setFld F.PWR_STAT_CMD_RESULT r.toNat).raiseIrq 17).report false 8 0 r.toNat false

/-- The refusal of a command for this device (R151, R152, R163, R191, R704, Table PWR-2): a command to the whole ring in progress is
pending for the manager too, and after the cell ran out in PARK only a cold start ends it. -/
def Dev.pwrRefusal (d : Dev) (cmd : Nat) (expire : Bool) : Option Reason :=
  if d.braced || d.flag F.PWR_STAT_HOLDUP || d.pwr.pend.isSome || d.pwr.draining || d.pwr.all.isSome || !pwrListed d.pstate cmd then
    some Rsn.refState
  else if cmd = 2 ∧ d.pstate = 3 ∧ d.pwr.bkpDead = true then some Rsn.refState
  else if cmd = 1 ∧ d.flag F.PWR_CTRL_RUN_NEEDS_BKP ∧ d.flag F.PWR_STAT_BKP_READY = false then some Rsn.bkpLow
  else if 4 ≤ cmd ∧ expire = false ∧ d.jobs.any (fun j => j.exec == d.pos && !j.st.terminal && j.st != .accepted) then some Rsn.refState
  else if d.pstate = 5 ∧ d.boot.provisioned = false then some Rsn.refState
  else if 4 ≤ cmd ∧ d.scc.cur.isSome then some Rsn.refState
  else none

/-- Show the apply beat of a command. -/
def Dev.showApply (d : Dev) (b : Nat) : Dev := d.setNum2 R.PWR_APPLY_LO R.PWR_APPLY_HI b

/-- Hold a command for its apply beat. -/
def Dev.pwrHold (d : Dev) (cmd : Nat) (expire isolate : Bool) (b : Nat) : Dev :=
  let p : PwrPend := { state := cmd, expire := expire, isolate := isolate, applyBn := b }
  ({ d with pwr := { d.pwr with pend := some p } }.showApply b).setFlag F.PWR_STAT_PENDING true

/-- The power command of header word H1 (Table RNG-3). -/
def pwrHeader (cmd : Nat) (expire isolate brace : Bool) (tgt b : Nat) : Nat :=
  2 ^ 32 + cmd * 2 ^ 33 + (if expire then 2 ^ 36 else 0) + (if isolate then 2 ^ 37 else 0) + tgt * 2 ^ 38 +
  (if brace then 2 ^ 44 else 0) + b % 2 ^ 19 * 2 ^ 45

/-- Send a command to another position (R162). -/
def Dev.pwrSend (d : Dev) (cmd : Nat) (expire isolate : Bool) (tgt b : Nat) : Dev :=
  let d := { d with pwr := { d.pwr with sent := d.pwr.sent ++ [(tgt, b)] } }
  (d.showApply b).sendHeader (pwrHeader cmd expire isolate false tgt b) 0

/-- Refuse or send a command for another position (R151, R162). -/
def Dev.pwrFar (d : Dev) (cmd : Nat) (expire isolate : Bool) (tgt : Nat) : Dev :=
  let res := fun (d : Dev) (r : Reason) => d.setNum R.PWR_TRES (tgt + 65536 * r.toNat)
  if d.boot.role != .manager || !pwrListed (d.wstate tgt) cmd || d.pwr.sent.any (fun s => s.1 == tgt) || d.pwr.all.isSome ||
      bitOf (d.reg R.PWR_WBRACE) tgt then (res d Rsn.refState).raiseIrq 17
  else (res d Rsn.ok).pwrSend cmd expire isolate tgt (d.now + d.lat + 8)

/-- Positions other than this one that have declared themselves. -/
def Dev.others (d : Dev) : List Nat := (List.range 32).filter (fun p => p != d.pos && d.wr.present.testBit p)

/-- A position has carried out PARK (or is in OFF), or OFF: a device in PARK takes an OFF command (Table PWR-2). -/
def Dev.shut (d : Dev) (cmd q : Nat) : Bool := d.wstate q == 4 || (cmd == 4 && d.wstate q == 3)

/-- A command for the whole ring (R163, R165). RUN, READY and STANDBY go to every device for one apply beat; PARK and OFF go to
the workers first; READY of a parked manager wakes it first. -/
def Dev.pwrAll (d : Dev) (cmd : Nat) (expire isolate : Bool) : Dev :=
  let res := fun (d : Dev) (r : Reason) => d.setNum R.PWR_TRES (63 + 65536 * r.toNat)
  let p : PwrPend := { state := cmd, expire := expire, isolate := isolate, applyBn := d.now + d.lat + 8 }
  match if d.pwr.all.isSome || !d.pwr.sent.isEmpty then some Rsn.refState else d.pwrRefusal cmd expire with
  | some r => (res d r).raiseIrq 17
  | none =>
    let d := res d Rsn.ok
    if 4 ≤ cmd then
      let ws := d.others.filter (fun q => d.wr.resPos != some q)
      let d := { d with pwr := { d.pwr with all := some (p, 0) } }
      ws.foldl (fun d q => if d.shut cmd q then d else d.pwrSend cmd expire isolate q p.applyBn) d
    else if d.pstate = 3 then { d with pwr := { d.pwr with all := some (p, 3) } }.pwrHold 2 expire isolate (d.now + 4)
    else
      let d := { d with pwr := { d.pwr with sent := d.pwr.sent ++ d.others.map (fun q => (q, p.applyBn)) } }
      (d.sendHeader (pwrHeader cmd expire isolate false 63 p.applyBn) 0).pwrHold cmd expire isolate p.applyBn

/-- A write of PWR_CMD. -/
def Dev.writePwrCmd (d : Dev) (w : Word) : Dev :=
  let cmd := slice w 2 0
  let e := bitOf w 4
  let i := bitOf w 5
  let tgt := slice w 13 8
  let alone := d.boot.role == .standalone
  if tgt = 62 ∨ tgt = d.pos ∨ (tgt = 63 ∧ alone) then
    match if d.boot.role == .manager && decide (4 ≤ cmd) then some Rsn.refState else d.pwrRefusal cmd e with
    | some r => d.pwrResult r
    | none => d.pwrHold cmd e i (d.now + 4)
  else if tgt = 63 then d.pwrAll cmd e i
  else d.pwrFar cmd e i tgt

/-- A power command arrives in a frame header for this device (R162, R180): h is H1, bn the frame's beat. The apply beat is the next
one whose low 19 bits match. A brace command is for workers alone. -/
def Dev.pwrHeaderIn (d : Dev) (h : Nat) : Dev :=
  let tgt := h / 2 ^ 38 % 64
  if !h.testBit 32 || !(tgt == 63 || tgt == d.pos) then d else
  let low := h / 2 ^ 45 % 2 ^ 19
  let b := d.now + (low + 2 ^ 19 - d.now % 2 ^ 19) % 2 ^ 19
  if h.testBit 44 then
    if d.boot.role != .worker || d.braced || d.pwr.braceDue.isSome || !d.canBrace then d else { d with pwr := { d.pwr with braceDue := some b, open_ := [] } }
  else
    let cmd := h / 2 ^ 33 % 8
    let dup := match d.pwr.pend with
      | some p => p.state == cmd && p.applyBn == b
      | none => false
    if dup then d else
    match d.pwrRefusal cmd (h.testBit 36) with
    | some r => d.pwrResult r
    | none => d.pwrHold cmd (h.testBit 36) (h.testBit 37) b

/-- The manager sees the result of a command at a position (kind 8, R162). -/
def Dev.pwrSeen (d : Dev) (pos : Nat) (r : Reason) : Dev :=
  let d := { d with pwr := { d.pwr with sent := d.pwr.sent.filter (fun s => s.1 != pos) } }
  let d := if r != Rsn.ok then { d with pwr := { d.pwr with all := match d.pwr.all with
      | some (p, k) => if k < 2 then none else some (p, k)
      | none => none } } else d
  (d.setNum R.PWR_TRES (pos + 65536 * r.toNat)).raiseIrq 17

/-- TERM records of a manager's jobs whose outcomes are decided, in acceptance order, sealed at once: the close-outs of R155 and R178. -/
def Dev.sealTerms (d : Dev) : Dev :=
  let d := d.sealAll
  (((d.jobs.filter (fun j => j.out.isSome && !j.term)).mergeSort (fun a b => decide (a.hm ≤ b.hm))).foldl
    (fun d j => d.termSeal j.hm) d).sealAll

/-- The vote of this device in a status slot (Table RNG-5): 1 YES, 2 NO with the low 12 bits of its code. -/
def Dev.voteBits (d : Dev) : Nat :=
  match d.scc.cur with
  | some c => (match c.result with
    | some r => if d.isMgr || c.local_ || !c.scope.testBit d.pos then 0 else if r = Rsn.ok then 1 else 2 + 4 * (r.toNat % 4096)
    | none => 0)
  | none => 0

/-- Word S0 of this device's status slot (Table RNG-5). -/
def Dev.statusSlot (d : Dev) : Nat :=
  let b := fun (k : Nat) (c : Bool) => if c then 2 ^ k else 0
  d.pstate + d.phase * 2 ^ 4 + b 8 d.braced + b 9 d.clk.holdover + b 10 (d.num R.SUP_STRAPDIAG != 0) + b 11 (d.wr.clockSide == 1) +
  min d.wr.sealAck 7 * 2 ^ 12 + b 15 (d.boot.role == .reserve && d.ldg.catchup) + d.voteBits * 2 ^ 16 +
  b 30 (d.boot.capable && d.flag F.CLK_STAT_REF_QUAL) + b 31 (!d.isMgr && !d.wr.bulk.isEmpty) + d.num R.SCC_LASTID % 2 ^ 16 * 2 ^ 32 + min d.wr.freed 255 * 2 ^ 48 +
  d.mram.wdinc % 2 ^ 8 * 2 ^ 56

/-- End every dispatched job of this device EXPIRED with EXP_POWER, in acceptance order (R154). -/
def Dev.expireAll (d : Dev) : Dev :=
  let js := (d.jobs.filter (fun j => j.exec == d.pos && !j.st.terminal && j.st != .accepted)).mergeSort (fun a b => decide (a.hm ≤ b.hm))
  js.foldl (fun d j => d.endJob j.hm { typ := 6, reason := Rsn.expPower, bn := d.now }) d

/-- The last status slot of a device that closes out tells the ring its state and result (R162, R163); a standalone device has no ring. -/
def Dev.lastStatus (d : Dev) : Dev :=
  if d.isMgr || !d.inRing then d
  else
    let items := d.wr.items.map (fun x => x.2)
    { d with wr := { d.wr with items := [] } }.emit (.status d.pos d.statusSlot items)

/-- The core goes off in PARK or OFF: outputs safe, records sealed, a checkpoint, then PEN_CORE (R155). -/
def Dev.coreOff (d : Dev) (expire : Bool) : Dev :=
  let d := if expire then d.expireAll else d
  let d := ((d.outsSafe.haltEngines.asyAbandon.sealTerms).writeCkpt).setFlag F.PWR_STAT_PEN_CORE false
  let d := { d with pwr := { d.pwr with vcore := false, exiting := false },
                    t := { d.t with running := false, lastUsed := max d.t.lastUsed d.now }, wr := { d.wr with bulk := [] } }
  (List.range 16).foldl (fun d q => d.setFld (F.HP_STAT_LSTATE q) 0) d

/-- Entry to PARK or OFF (R155, R156). From PARK, OFF only stops the repeater. With ISOLATE, and in OFF, both ring sides are dark
(R762). -/
def Dev.closeOut (d : Dev) (p : PwrPend) : Dev :=
  let d := if d.pwr.vcore then d.coreOff p.expire else d
  let dark := p.isolate || p.state == 5
  let d := (d.setFld F.PWR_STAT_STATE (if p.state = 4 then 3 else 4)).pwrResult Rsn.ok
  let d := { d with pwr := { d.pwr with isolated := dark, all := none } }.lastStatus
  if dark then { d with wr := { d.wr with side := d.wr.side.map (fun c => (c.1, { c.2 with lstate := 0 })) } } else d

/-- The start of a PARK exit or of a resume from dormancy: PEN_CORE is asserted (R157); none after the cell has run out (R191). -/
def Dev.penUp (d : Dev) : Dev :=
  if d.pwr.bkpDead then d else { (d.setFlag F.PWR_STAT_PEN_CORE true) with pwr := { d.pwr with exiting := true } }

/-- Set a state of Table PWR-1 with its result. -/
def Dev.pwrEnter (d : Dev) (st : Nat) : Dev := (d.setFld F.PWR_STAT_STATE st).pwrResult Rsn.ok

/-- A pending command takes effect (R150, R153, R155, R162, R483, R661). -/
def Dev.pwrApply (d : Dev) (p : PwrPend) : Dev :=
  let st := d.pstate
  let done := { d with pwr := { d.pwr with pend := none } }.setFlag F.PWR_STAT_PENDING false
  match p.state with
  | 1 => { (done.pwrEnter 0).outsRun.resumeEngines with pwr := { (done.pwrEnter 0).outsRun.resumeEngines.pwr with bindBn := d.now } }
  | 2 =>
    if st = 3 then d.penUp
    else if st = 5 then { done with pwr := { done.pwr with pend := none } }.enterReady.pwrResult Rsn.ok
    else if st = 0 then
      if d.jobs.any (fun j => j.active && j.exec == d.pos) then
        { d.setFld F.PWR_STAT_STATE 1 with pwr := { d.pwr with draining := true } }.setFlag F.PWR_STAT_DRAINING true
      else done.pwrEnter 1
    else done.pwrEnter 1
  | 3 => done.pwrEnter 2
  | _ => done.closeOut p

/-- The manager's part of a command to the whole ring, beat by beat (R163, R165): the reserve once the workers have closed, itself
once the reserve has, and once a BRACE that came between is over; parked devices once it is READY again. -/
def Dev.pwrRingStep (d : Dev) : Dev :=
  match d.pwr.all with
  | none => d
  | some (p, k) =>
    let b := d.now + d.lat + 8
    match k with
    | 0 =>
      if !(d.others.filter (fun q => d.wr.resPos != some q)).all (d.shut p.state) then d else
      let d := { d with pwr := { d.pwr with all := some (p, 1) } }
      (match d.wr.resPos with
        | some q => if d.shut p.state q then d else d.pwrSend p.state p.expire p.isolate q b
        | none => d)
    | 1 =>
      if d.braced || d.pwr.braceDue.isSome || !d.others.all (d.shut p.state) then d
      else { d with pwr := { d.pwr with all := some (p, 2) } }.pwrHold p.state p.expire p.isolate (d.now + 4)
    | 3 =>
      if d.pstate != 1 then d else
      let d := { d with pwr := { d.pwr with all := none } }
      d.others.foldl (fun d q => if d.wstate q = 3 then d.pwrSend 2 false false q b else d) d
    | _ => d

/-! ## BRACE (R175 to R183) -/

/-- Beat of the last edge or column of a job, as its schedule gives it; none where it depends on a position not yet known. -/
def Dev.lastEdge (d : Dev) (j : Job) : Option Nat :=
  let outs := (j.lanes.map LaneRun.out).eraseDups
  let want := (j.lanes.map (fun l => l.edges.length * l.count)).sum
  let es := outs.flatMap (d.edgeInsts j)
  let ps := j.plays.filter (fun p => !p.done)
  if es.length < want || j.sched.isNone then none
  else
    let cols := ps.map (fun p => if p.encMode then (j.span p).2 else beatOf (j.sched.getD 0 + (p.cols - 1) * p.cper) + p.waits)
    some ((es.map beatOf ++ cols).foldl max 0)

/-- Take the columns of a job out of the frames of its ports that have not been sent. -/
def Dev.dropColumns (d : Dev) (hm : Nat) : Dev :=
  (List.range 16).foldl (fun d p =>
    let h := d.hpSt p
    if !h.frames.any (fun f => f.job == some hm && !f.sent) then d else
    let mk := fun f : FrameSt => if f.job == some hm && !f.sent then
        let g : FrameDef := { ftype := 2, flags := d.hpFlags f.safe, bn := f.bn, inc := (d.dom (domHp p)).inc, port := p, pos := d.pos,
                              fire := [], offs := [] }
        ({ f with bytes := g.bytes, job := none } : FrameSt) else f
    d.setHp p { h with frames := h.frames.map mk }) d

/-- The jobs of this device at the brace beat (Table PWR-6), in acceptance order (R177). -/
def Dev.braceJobs (d : Dev) : Dev :=
  let js := (d.jobs.filter (fun j => j.exec == d.pos && j.active)).mergeSort (fun a b => decide (a.hm ≤ b.hm))
  js.foldl (fun d j =>
    let stays := match d.lastEdge j with
      | some b => decide (b ≤ d.now + 2048)
      | none => false
    if stays then d
    else (d.dropColumns j.hm).endAs j.hm (j.placed || j.colsPlayed != 0) Rsn.expPower Rsn.partPower) d

/-- The brace beat (R175 to R177, R180, R184, R201, R204, R845). A READY command that applies in this beat is discarded, and the BRACE
clears into READY. Good half-cycles count from here on (R181 does not say whether earlier ones count: DESIGN CHOICE, log entry 149). -/
def Dev.braceStart (d : Dev) : Dev :=
  let p := d.pwr
  let wasRun := d.inRun && !p.pend.any (fun c => c.state == 2 && decide (c.applyBn ≤ d.now))
  let cmd := p.pend.isSome
  let d := { d with pwr := { p with braceDue := none, braceBn := d.now, wasRun := wasRun, pend := none, draining := false, good := 0 } }
  let d := ((d.setFlag F.PWR_STAT_BRACE true).setFlag F.PWR_STAT_CLOSED_OUT false).setFlag F.PWR_STAT_DRAINING false
  let d := if cmd then (d.setFlag F.PWR_STAT_PENDING false).pwrResult Rsn.refState else d
  let d := if d.pstate == 2 then d.setFld F.PWR_STAT_STATE 1 else d
  let d := if p.holdDue then d.holdupOn else d
  let d := (d.asyAbandon.braceJobs).raiseIrq 17
  if d.boot.role == .manager && d.flag F.PWR_CTRL_BRACE_RING then
    d.sendHeader (pwrHeader 0 false false true 63 (d.now + d.lat + 8)) 0
  else d

/-- The BRACE may clear (R181, R856): with the mains watch off (MNOM 0) the mains condition counts as met (DEDUCED from R171). Not
from HOLDUP once the cell has run out (R191). -/
def Dev.braceOver (d : Dev) : Bool :=
  d.braced && d.flag F.PWR_STAT_CLOSED_OUT && !(d.flag F.PWR_STAT_HOLDUP && d.pwr.bkpDead) && !d.pwr.open_.any (fun r => d.pwr.raised.contains r) &&
  (d.fld F.SUP_RCODE_MNOM == 0 || (decide (d.fld F.SUP_MTHR1_GOOD_N ≤ d.pwr.good) && !d.pwr.raised.contains Rsn.mainsFreq)) && d.dcRel

/-- The BRACE clears (R182, R183, R187, R202). LIMIT_MS is compared in beats of 480 ns. A device that has not reached READY goes on with
its start-up or READY-WAIT (DEDUCED; log entry 60). -/
def Dev.braceEnd (d : Dev) : Dev :=
  let within := decide ((d.now - d.pwr.braceBn) * 480 ≤ d.fld F.PWR_RESUME_LIMIT_MS * 1000000)
  let run := d.pwr.wasRun && d.flag F.PWR_RESUME_EN && within && !d.pwr.heldUp
  let d := { d with pwr := { d.pwr with heldUp := false, open_ := [] } }
  let d := ((d.setFlag F.PWR_STAT_BRACE false).setFlag F.PWR_STAT_CLOSED_OUT false).setFlag F.PWR_STAT_HOLDUP false
  let d := (d.setFlag F.PWR_STAT_HOLDEN false).setFld F.PWR_STAT_STATE (if run then 0 else if d.pstate ≤ 2 then 1 else d.pstate)
  let d := d.asBraceEnd.raiseIrq 17
  if run then { d.outsRun.resumeEngines with pwr := { d.outsRun.resumeEngines.pwr with bindBn := d.now } } else d

/-- A write of SUP_DCTHR0 or SUP_DCTHR1: refused unless DCHOLD < DCBRACE < DCREL (R174). -/
def Dev.writeDcthr (d : Dev) (second : Bool) (w : Word) : Dev :=
  let t0 := if second then d.reg R.SUP_DCTHR0 else w &&& 0x0FFF0FFF
  let t1 := if second then w &&& 0xFFF else d.reg R.SUP_DCTHR1
  if slice t0 27 16 < slice t0 11 0 ∧ slice t0 11 0 < slice t1 11 0 then (d.setReg R.SUP_DCTHR0 t0).setReg R.SUP_DCTHR1 t1
  else d.setFlag F.SUP_DCVAL_THR_ERR true

/-- What a read of SUP_MEVT_CODE latches of an entry. -/
def SupEvt.latched (e : SupEvt) : List (Nat × Word) :=
  [(R.SUP_MEVT_BN_LO, BitVec.ofNat 32 e.bn), (R.SUP_MEVT_BN_HI, BitVec.ofNat 32 (e.bn / 2 ^ 32)), (R.SUP_MEVT_VAL, BitVec.ofNat 32 e.val)]

/-- A read of SUP_MEVT_CODE pops the oldest entry, latches its beat and value, and clears LOST (Table PWR-9). A read-only port reads the
same entry without popping it, and latches it in its own shadows (R263, R264, R307). -/
def Dev.readMevt (d : Dev) (p : Port) : Dev × Word :=
  let lost := d.pwr.mevtLost * 65536
  if d.portRo p then
    (match d.pwr.mevt.head? with
      | some e => d.latch p e.latched
      | none => d, BitVec.ofNat 32 (match d.pwr.mevt.head? with
      | some e => e.code.toNat + lost + 2 ^ 24
      | none => lost))
  else match d.pwr.mevt with
    | [] => ({ d with pwr := { d.pwr with mevtLost := 0 } }, BitVec.ofNat 32 lost)
    | e :: r =>
      let d := { d with pwr := { d.pwr with mevt := r, mevtLost := 0 } }
      (d.latch p e.latched, BitVec.ofNat 32 (e.code.toNat + lost + 2 ^ 24))

/-! ## Meanings -/

/-- The word of a PWR_CMD write. -/
def pwrWord (cmd : Nat) (expire isolate : Bool) (tgt : BitVec 6) : Word :=
  BitVec.ofNat 32 (cmd + (if expire then 16 else 0) + (if isolate then 32 else 0) + tgt.toNat * 256)

/-- PWR_CMD with STATE = 1 (RUN). -/
def execPwrCmdRun (port : Port) (tgt : BitVec 6) (s : State) : Host.Outcome State Fault Refusal :=
  .next (s.onDev fun d => d.viaPort port R.PWR_CMD fun d => d.writePwrCmd (pwrWord 1 false false tgt))

/-- PWR_CMD with STATE = 2 (READY). -/
def execPwrCmdReady (port : Port) (tgt : BitVec 6) (s : State) : Host.Outcome State Fault Refusal :=
  .next (s.onDev fun d => d.viaPort port R.PWR_CMD fun d => d.writePwrCmd (pwrWord 2 false false tgt))

/-- PWR_CMD with STATE = 3 (STANDBY). -/
def execPwrCmdStandby (port : Port) (tgt : BitVec 6) (s : State) : Host.Outcome State Fault Refusal :=
  .next (s.onDev fun d => d.viaPort port R.PWR_CMD fun d => d.writePwrCmd (pwrWord 3 false false tgt))

/-- PWR_CMD with STATE = 4 (PARK). -/
def execPwrCmdPark (port : Port) (tgt : BitVec 6) (expire : Bool) (isolate : Bool) (s : State) : Host.Outcome State Fault Refusal :=
  .next (s.onDev fun d => d.viaPort port R.PWR_CMD fun d => d.writePwrCmd (pwrWord 4 expire isolate tgt))

/-- PWR_CMD with STATE = 5 (OFF). -/
def execPwrCmdOff (port : Port) (tgt : BitVec 6) (expire : Bool) (s : State) : Host.Outcome State Fault Refusal :=
  .next (s.onDev fun d => d.viaPort port R.PWR_CMD fun d => d.writePwrCmd (pwrWord 5 expire false tgt))

/-- POWER_APPLY: the Edge phase of the apply beat; with the beat counter stopped, as in PARK, the command acts when it is taken
(DESIGN CHOICE: R150 counts beats that do not pass then). The brace beat has precedence (R201). -/
def execPowerApply (s : State) : Host.Outcome State Fault Refusal :=
  .next (s.onDev fun d => match d.pwr.pend with
    | some p =>
      if d.pwr.draining || d.pwr.exiting then d
      else if !d.t.running || decide (p.applyBn ≤ d.now) then
        (match d.pwr.braceDue with
          | some b => if d.t.running ∧ b ≤ d.now then d else d.pwrApply p
          | none => d.pwrApply p)
      else d
    | none => d)

/-- READY_DRAIN_DONE: the last bound job is terminal (R153). -/
def execReadyDrainDone (s : State) : Host.Outcome State Fault Refusal :=
  .next (s.onDev fun d =>
    if d.pwr.draining && !d.jobs.any (fun j => j.active && j.exec == d.pos) then
      let d := { d with pwr := { d.pwr with draining := false, pend := none } }
      ((d.setFlag F.PWR_STAT_DRAINING false).setFlag F.PWR_STAT_PENDING false).pwrResult Rsn.ok
    else d)

/-- PEN_TIMEOUT: VCORE is not good within PWR_PENTMO: the device stays in PARK or dormancy (R158). Where the code shows is the model's
choice: in SUP_MEVT with value 0, and in CMD_RESULT of the READY command (DESIGN CHOICE; log entry 149). -/
def execPenTimeout (s : State) : Host.Outcome State Fault Refusal :=
  .next (s.onDev fun d =>
    if d.pwr.exiting && !d.pwr.vcore then
      let cmd := d.pwr.pend.isSome
      let d := { (d.setFlag F.PWR_STAT_PEN_CORE false) with pwr := { d.pwr with exiting := false, pend := none, all := none } }
      let d := d.supEvent Rsn.penTimeout 0
      if cmd then (d.setFlag F.PWR_STAT_PENDING false).setFld F.PWR_STAT_CMD_RESULT Rsn.penTimeout.toNat else d
    else d)

/-- VCORE_GOOD: every rail is in range after PEN_CORE: the core starts, with its registers reset, at the SPLL lock of Table PWR-3
(R159, R858, R861). -/
def execVcoreGood (s : State) : Host.Outcome State Fault Refusal :=
  .next (s.onDev fun d =>
    if d.pwr.exiting && !d.pwr.vcore then
      let role := d.boot.role
      let d := { d with pwr := { d.pwr with vcore := true, dormant := false, isolated := false, heldUp := false },
                        boot := { d.boot with replayed := false, calDone := false, calDeferred := false } }
      let mgr := d.wr.mgrPos
      let res := d.wr.resPos
      let present := d.wr.present
      let all := d.pwr.all
      let d := d.coreReset
      let d := { d with wr := { d.wr with mgrPos := mgr, resPos := res, present := present }, pwr := { d.pwr with all := all } }
      (d.setRole role).setPhase (if role = .worker then 9 else 1)
    else d)

/-- WAKE_SIGNAL: 1 µs of signal at an isolated device in PARK (R762). -/
def execWakeSignal (s : State) : Host.Outcome State Fault Refusal :=
  .next (s.onDev fun d => if d.pstate == 3 && d.pwr.isolated && !d.pwr.exiting && !d.pwr.bkpDead then d.penUp else d)

/-- BRACE_START: the Edge phase of the brace beat (R175). -/
def execBraceStart (s : State) : Host.Outcome State Fault Refusal :=
  .next (s.onDev fun d => match d.pwr.braceDue with
    | some b => if b ≤ d.now ∧ d.braced = false then d.braceStart else d
    | none => d)

/-- BRACE_CLOSEOUT_COMPLETE: the jobs of Table PWR-6 are terminal; records and a checkpoint are durable, outputs safe, engines halted,
CKOUT at the brace level (R178, R185, R199, R249); TERM records of a manager's own jobs are sealed with them. -/
def execBraceCloseoutComplete (s : State) : Host.Outcome State Fault Refusal :=
  .next (s.onDev fun d =>
    if !d.braced || d.flag F.PWR_STAT_CLOSED_OUT || d.jobs.any (fun j => j.active && j.exec == d.pos) then d else
    let d := ((d.sealTerms.writeCkpt).outsSafe.haltEngines).asBrace
    let d := (d.setFlag F.PWR_STAT_CLOSED_OUT true).raiseIrq 17
    if d.flag F.PWR_STAT_HOLDUP then d.holdupEnd else d)

/-- BRACE_CLEAR (R181). -/
def execBraceClear (s : State) : Host.Outcome State Fault Refusal :=
  .next (s.onDev fun d => if d.braceOver then d.braceEnd else d)

/-- DORMANCY_RESUME: VAUX is back with the dormancy flag held and the bus above DCREL (R186, R191). -/
def execDormancyResume (s : State) : Host.Outcome State Fault Refusal :=
  .next (s.onDev fun d =>
    if d.pwr.dormant && d.pwr.dormFlag && !d.pwr.bkpDead && !d.pwr.exiting && d.dcRel then d.penUp else d)

/-- SUPPLY_UV: a rail (0 VCORE, 1 VSER, 2 VANA, 3 VAUX, 4 to 7 VIO_A to VIO_D) has been below its minimum for 1 µs (Table PWR-4).
VAUX is recorded in SUP_RAILS only. The event's value is the rail's voltage in mV (DEDUCED: R167 names mV for values that are no RMS
and no frequency; log entry 149). -/
def execSupplyUv (u : RailUv) (s : State) : Host.Outcome State Fault Refusal :=
  .next (s.onDev fun d =>
    let rail := u.rail
    let mv := u.mv
    let d := d.setReg R.SUP_RAILS (putBit (d.reg R.SUP_RAILS) rail.val true)
    let off := d.boot.bankOff.filter (· != rail.val - 4)
    let d := if rail.val < 4 then d else
      { d with boot := { d.boot with bankOff := if mv.toNat = 0 then (rail.val - 4) :: off else off } }
    if rail.val = 3 then d else d.supWatch Rsn.supplyUv true true mv.toNat)

/-- The beat predicted for a phase point: OFFSET / 65 536 of a cycle of the tracked frequency after the last zero crossing of its kind
(R173, Table PWR-9); 10^12 / (480 × mHz) beats are one cycle. -/
def Dev.phaseBeat (d : Dev) (n : Nat) : Option Nat :=
  (if d.flag (F.SUP_MPH_EDGE n) then d.pwr.zcFall else d.pwr.zcRise).map (fun z =>
    z + d.fld (F.SUP_MPH_OFFSET n) * 10 ^ 12 / (65536 * 480 * d.pwr.mfreq))

/-- MAINS_PHASE_POINT: an enabled phase point fires at a core cycle of its predicted beat (R173, Table TRG-3). -/
def execMainsPhasePoint (n : Fin 4) (ci : Fin 240) (s : State) : Host.Outcome State Fault Refusal :=
  .next (s.onDev fun d =>
    if d.t.running && d.flag (F.SUP_MPH_EN n.val) && d.fld F.SUP_RCODE_MNOM != 0 && !d.pwr.trackLost && d.phaseBeat n.val == some d.now then
      (d.setCi ci.val).capture 2 n.val (instant d.now ci.val 0) false
    else d)

/-- SUP_DCTHR_WRITE (R174). -/
def execSupDcthrWrite (port : Port) (second : Bool) (w : Word) (s : State) : Host.Outcome State Fault Refusal :=
  .next (s.onDev fun d => d.viaPort port (if second then R.SUP_DCTHR1 else R.SUP_DCTHR0) fun d => d.writeDcthr second w)

/-- SUP_MEVT_POP: a read of SUP_MEVT_CODE (R168). -/
def execSupMevtPop (port : Port) (s : State) : Host.Outcome State Fault Refusal :=
  .next (s.onDev fun d => d.readVia port R.SUP_MEVT_CODE true fun d => d.readMevt port)

end Sys2Proof.Machine
end

