-- ==== Sys2Proof/Machine/Replay.lean ====
section
/-!
DEFINITION. Sys2Proof/Machine/Replay.lean: mounting and replaying the ledger, the manager's decisions after it, and the mirror on
the reserve (08_ledger.md, R364 to R428).
-/
namespace Sys2Proof.Machine
open Sys2Proof

/-! ## Mount (R368, R369, R397, R399, R427) -/

/-- The ledger cannot be used: FD116 is fenced and the start is held (R399, R402; that R399 fences as R402 does is DEDUCED from
Table FEN-1). -/
def Dev.corruptHold (d : Dev) : Dev :=
  let d := { d with ldg := { d.ldg with corrupt := true } }.setFlag F.LDG_STAT_CORRUPT true
  (d.raiseCause domLdg Rsn.ldgCorrupt).holdBoot Rsn.ldgCorrupt

/-- Read the superblocks and the checkpoints; those that read invalid count for nothing from now on. -/
def Dev.mount (d : Dev) (i : MountIn) : Dev :=
  let m := d.mram
  let a : Super := { m.supA with valid := m.supA.valid && !i.badA }
  let b : Super := { m.supB with valid := m.supB.valid && !i.badB }
  let best := bestSuper a b
  let ckpts := m.ckpts.filter (fun c => !i.badBlocks.contains c.block && (match best with
    | some x => c.sysId == x.sysId
    | none => true))
  let d := { d with mram := { m with supA := a, supB := b, ckpts := ckpts } }
  let d := (d.setNum2 R.LDG_WEAR_LO R.LDG_WEAR_HI m.wear).setNum R.FEN_WDINC m.wdinc
  match best with
  | none => (((d.setFlag F.LDG_STAT_BLANK true).setFlag F.SUP_ROLE_LEDGER_FORMATTED false).setSysId 0).phaseDone 3 i.us
  | some x =>
    let d := ((d.setFlag F.SUP_ROLE_LEDGER_FORMATTED true).setSysId x.sysId).showHead
    if ckpts.isEmpty then d.corruptHold else
    let d := (d.writeSuper x.sysId x.formatBn (x.mounts + 1)).setNum R.LDG_MOUNTS (x.mounts + 1)
    (d.setFlag F.LDG_STAT_MOUNTED true).phaseDone 3 i.us

/-- LEDGER_MOUNT: phase 0x3 of a start (R115, R116, R123). -/
def execLedgerMount (m : MountIn) (s : State) : Host.Outcome State Fault Refusal :=
  .next (s.onDev fun d => if d.pwr.vcore && d.phase == 3 && !d.boot.replayed then d.mount m else d)

/-! ## Replay (R400 to R407) -/

/-- Job state of a code of Table JOB-8. -/
def stOfCode : Nat → JState
  | 2 => .dispatched | 3 => .bound | 4 => .striking | 8 => .struck | 9 => .partial_ | 10 => .expired | 11 => .unconfirmed
  | _ => .accepted

/-- Discard the groups that the last n slots written belong to, no further back than the newest checkpoint's head (R400, R401). -/
def Dev.discardTorn (d : Dev) (n : Nat) : Dev :=
  let p := max d.ckptPos (d.headPos - n)
  match d.mram.log.find? (fun s => decide (p ≤ s.lpos)) with
  | none => d
  | some s =>
    let cut := max d.ckptPos (s.lpos - s.body.gidx)
    let gone := (d.mram.log.filter (fun s => decide (cut ≤ s.lpos) && s.body.gidx == 0)).length
    let m := { d.mram with log := d.mram.log.filter (fun s => decide (s.lpos < cut)), head := cut % ringSlots, rev := cut / ringSlots }
    ({ d with mram := m }.setFld F.LDG_REPLAY_TORN (min gone 255)).ldgRaise Rsn.ldgTorn

/-- Take over what a checkpoint holds (Table LDG-4, R80, R398, R711, R840, R841). -/
def Dev.fromCkpt (d : Dev) (c : Ckpt) : Dev :=
  let d := (d.setCeil (max d.t.ceil c.ceil)).setFld F.CAL_EPOCH_CALENDAR c.epoch
  let cqs := c.acked.foldl (fun m x => mset {} m x.1 ({ mget {} m x.1 with acked := x.2 } : CqSt)) d.hst.cqs
  let d := { d with t := { d.t with last := max d.t.last c.last }, adm := { d.adm with nextHm := c.nextHm },
                    ldg := { d.ldg with confirmed := c.confirmed }, hst := { d.hst with cqs := cqs },
                    asy := { d.asy with extPend := c.skewExt, rskew := c.rskew } }
  let d := { d with adm := { d.adm with termHm := c.termHm } }
  let d := c.rings.foldl (fun d r => (d.setNum (R.JR_NEXTSEQ r.1) r.2.1).setNum2 (R.JR_LASTHM_LO r.1) (R.JR_LASTHM_HI r.1) r.2.2) d
  let d := c.tallyLast.foldl (fun d t => (d.setNum (R.TAL_LAST t.1) t.2).setFlag (F.TAL_STAT_LAST_VALID t.1) true) d
  let d := c.hopAsym.foldl (fun d h => d.setNum (R.ASY_HOPASYM h.1) h.2) d
  let d := (d.setNum R.ASY_GEN c.gen).setNum R.LDG_CARRY_CNT c.carries
  (d.setNum R.SCC_LASTID c.commitId).setNum2 R.SCC_LASTMS_LO R.SCC_LASTMS_HI c.commitMs

/-- An accepted job, as its ACCEPT or CARRY record tells. Its body is not in the ledger. -/
def jobOf (r : Rec) (body : List Word) : Job :=
  { ring := r.ring, rseq := r.w5, hm := r.hm, tag := r.w6 % 2 ^ 16, cls := r.byteA % 4, body := body, exec := r.pos,
    acceptBn := r.bn, sealed := true, dual := r.byteA.testBit 2, sent := body.isEmpty }

/-- An entry of an ALREADY window put in its place, newest hallmark first: a CARRY record stands after younger ACCEPT records. No
window is longer than the deepest ring (R319). -/
def winInsert (e : WinEntry) (w : List WinEntry) : List WinEntry :=
  (w.filter (fun x => decide (e.hm < x.hm)) ++ e :: w.filter (fun x => decide (x.hm < e.hm))).take 4096

/-- Enter an ACCEPT or CARRY record into the jobs, the ALREADY window and the hallmarks (R407). `after` says that it lies after the
checkpoint. -/
def Dev.takeAccept (d : Dev) (r : Rec) (body : List Word) (after : Bool) : Dev :=
  let st := if r.typ = 0x12 then stOfCode (r.byteA / 16) else .accepted
  let e : WinEntry := { rseq := r.w5, hm := r.hm, st := st }
  let w := mget [] d.adm.win r.ring
  let adm := { d.adm with nextHm := max d.adm.nextHm (r.hm + 1),
                          win := if w.any (fun x => x.hm == r.hm) then d.adm.win else mset [] d.adm.win r.ring (winInsert e w) }
  let d := { d with adm := adm, jobs := if st.terminal || d.jobs.any (fun j => j.hm == r.hm) then d.jobs else d.jobs ++ [jobOf r body] }
  if after && r.typ == 0x10 then
    (d.setNum (R.JR_NEXTSEQ r.ring) ((r.w5 + 1) % 2 ^ 32)).setNum2 (R.JR_LASTHM_LO r.ring) (R.JR_LASTHM_HI r.ring) r.hm
  else d

/-- The entry of a record that the log holds is owed to its ring until the host acknowledges it (R286). -/
def Dev.owe (d : Dev) (lpos : Nat) (r : Rec) (ws : List Word) : Dev :=
  { d with hst := { d.hst with owed := d.hst.owed ++ [(r.ring, { words := ws, lpos := lpos, durable := true, replayed := true })] } }

/-- The ACCEPT or CARRY record of a hallmark in the log. -/
def Dev.acceptOf (d : Dev) (hm : Nat) : Option Rec :=
  (d.mram.log.find? (fun s => (s.body.typ == 0x10 || s.body.typ == 0x12) && s.body.hm == hm)).map Slot.body

/-- Replay one record that the manager or standalone device wrote, or that every device writes. -/
def Dev.replayRec (d : Dev) (p0 : Nat) (s : Slot) : Dev :=
  let r := s.body
  let after := decide (p0 ≤ s.lpos)
  match r.typ with
  | 0x30 => d.setCeil (max d.t.ceil r.bn)
  | 0x31 => if after then d.setFld F.CAL_EPOCH_CALENDAR r.w5 else d
  | 0x10 => (d.takeAccept r [] after).owe s.lpos r (entryWords r.w5 r.hm r.ring 1 Rsn.ok (r.w6 % 2 ^ 16) r.bn 0 0)
  | 0x12 => d.takeAccept r [] after
  | 0x11 =>
    let d := { d.setWinState r.hm (stOfTyp r.byteA) with jobs := d.jobs.filter (fun j => j.hm != r.hm) }
    let d := { d with adm := { d.adm with termHm := mset 0 d.adm.termHm r.ring (max (mget 0 d.adm.termHm r.ring) r.hm) } }
    let conf := mset 0 d.ldg.confirmed r.ring (max (mget 0 d.ldg.confirmed r.ring) r.hm)
    let d := if r.pos = d.pos then { d with ldg := { d.ldg with confirmed := conf } } else d
    match d.acceptOf r.hm with
    | some a => d.owe s.lpos r (entryWords a.w5 r.hm r.ring r.byteA (BitVec.ofNat 16 r.w5) (a.w6 % 2 ^ 16) r.bn r.w6 (r.w5 / 2 ^ 16))
    | none => d
  | 0x32 =>
    let d := { d with adm := { d.adm with win := mset [] d.adm.win r.ring [] } }
    if after then d.setNum (R.JR_NEXTSEQ r.ring) r.w5 else d
  | 0x33 => if after && r.byteA % 4 == 0 then (d.setNum R.SCC_LASTID (r.raw.getD 0 0).toNat).setNum2 R.SCC_LASTMS_LO R.SCC_LASTMS_HI r.bn else d
  | 0x36 => { d with ldg := { d.ldg with writtenOff := d.ldg.writtenOff ++ [r.w5] } }
  | _ => d

/-- The outcome that a STRUCK or ENDED record holds. -/
def outcomeOf (r : Rec) : Outcome :=
  if r.typ = 0x23 then { typ := 4, reason := BitVec.ofNat 16 r.w5, bn := r.bn, d0 := r.w6 }
  else { typ := r.byteA % 16, reason := BitVec.ofNat 16 r.w5, bn := r.bn, d0 := r.w6, d1 := r.w5 / 2 ^ 16 }

/-- The STRUCK or ENDED record of a hallmark. -/
def Dev.closeOf (d : Dev) (hm : Nat) : Option Slot :=
  d.mram.log.find? (fun s => (s.body.typ == 0x23 || s.body.typ == 0x24) && s.body.hm == hm)

/-- The first ARMED records of the jobs this device armed, oldest first; a group written again counts once (R392). -/
def armedRecs (log : List Slot) : List Slot :=
  (log.filter (fun s => s.body.typ == 0x20)).foldl (fun l s => if l.any (fun x => x.body.hm == s.body.hm) then l else l ++ [s]) []

/-- Close one ARMED group that nothing closes (R404), and note the outcome of the job: for the manager's decision when this ledger
holds the job, else as a job of its own that waits to be reported. -/
def Dev.replayArmed (d : Dev) (s : Slot) : Dev :=
  let r := s.body
  let d := match d.closeOf r.hm with
    | some _ => d
    | none => d.writeRec { typ := 0x24, hm := r.hm, ring := r.ring, pos := r.pos, bn := d.now, byteA := 7, w5 := Rsn.uncPower.toNat }
  match d.closeOf r.hm with
  | none => d
  | some c =>
    let o := outcomeOf c.body
    if d.jobs.any (fun j => j.hm == r.hm) then { d with ldg := { d.ldg with reports := d.ldg.reports ++ [(r.hm, o)] } }
    else if r.hm ≤ mget 0 d.ldg.confirmed r.ring then d
    else { d with jobs := d.jobs ++ [{ ring := r.ring, rseq := 0, hm := r.hm, exec := r.pos, st := stOfTyp o.typ, armed := true,
                                       outSealed := true, reported := true, out := some o }] }

/-- The records of the group that an ARMED record begins. -/
def Dev.armedGroup (d : Dev) (s : Slot) : List Rec :=
  (d.mram.log.filter (fun x => decide (s.lpos ≤ x.lpos) && decide (x.lpos ≤ s.lpos + s.body.glen))).map Slot.body

/-- The tally values that ARMT records hold (Table LDG-3). -/
def tallyPairs (rs : List Rec) : List (Nat × Nat) :=
  (rs.filter (fun r => r.typ == 0x22)).flatMap (fun r => (List.range 4).filterMap (fun k =>
    let t := slice (r.raw.getD 0 0) (8 * k + 4) (8 * k)
    if t = 0x1F && (r.raw.getD (k + 1) 0) == 0 then none else some (t, (r.raw.getD (k + 1) 0).toNat)))

/-- Restore the tallies: every value journaled by a job that ended STRUCK, PARTIAL or UNCONFIRMED, and every value loaded, in the
order of issue (R415, R548, R710). A tally whose log after the checkpoint holds none keeps the checkpoint's next value. -/
def Dev.replayTallies (d : Dev) (c : Ckpt) (p0 : Nat) (log : List Slot) : Dev :=
  let first := armedRecs log
  let evs : List (Nat × Nat × Bool) := log.flatMap (fun s =>
    if s.body.typ = 0x33 ∧ s.body.byteA % 4 = 2 then [(s.body.w5 % 32, s.body.w6, decide (p0 ≤ s.lpos))]
    else if first.contains s then match d.closeOf s.body.hm with
      | some x => if (outcomeOf x.body).typ = 6 then [] else (tallyPairs (d.armedGroup s)).map (fun v => (v.1, v.2, decide (p0 ≤ x.lpos)))
      | none => []
    else [])
  let d := evs.foldl (fun d e => (d.setNum (R.TAL_LAST e.1) e.2.1).setFlag (F.TAL_STAT_LAST_VALID e.1) true) d
  c.tallyNext.foldl (fun d t =>
    if evs.any (fun e => e.1 == t.1 && e.2.2) then d.setNum (R.TAL_NEXT t.1) (d.tallyNext t.1 (d.num (R.TAL_LAST t.1)))
    else d.setNum (R.TAL_NEXT t.1) t.2) d

/-- The print high-water (R79, R416). -/
def Dev.replayHigh (d : Dev) (c : Ckpt) (p0 : Nat) (log : List Slot) : Dev :=
  let vs := (log.filter (fun s => s.body.typ == 0x21 && decide (p0 ≤ s.lpos))).map (fun s =>
    ({ sec := (s.body.raw.getD 0 0).toNat + 2 ^ 32 * (s.body.raw.getD 1 0).toNat, sub := (s.body.raw.getD 2 0).toNat } : CalVal))
  let h := match vs with
    | [] => c.hiWater
    | v :: r => r.foldl (fun a b => if a.units < b.units then b else a) v
  { d with cal := { d.cal with hiWater := some h } }.calFollow

/-- A standalone device with a blank ledger formats it at the end of replay (R369; DEDUCED from 03_straps_and_startup.md, since
nobody else can). -/
def Dev.formatLone (d : Dev) : Dev :=
  if d.boot.role == .standalone then
    let (d, n) := d.draw
    d.format (Config.newSysId n)
  else d

/-- The log from the retained start to the head (R400 to R404, R407, R415, R416). -/
def Dev.replayLog (d : Dev) (c : Ckpt) : Dev :=
  let p0 := c.rev * ringSlots + c.head
  let log := d.mram.log.filter (fun s => decide (c.retained ≤ s.lpos))
  let d := log.foldl (fun d s => d.replayRec p0 s) (d.fromCkpt c)
  let d := d.setNum2 R.JR_IK_NEXTHM_LO R.JR_IK_NEXTHM_HI (d.adm.nextHm % 2 ^ 48)
  let d := (armedRecs log).foldl Dev.replayArmed d
  ((d.replayTallies c p0 log).replayHigh c p0 log).showHead

/-! ## Decisions (R188, R405, R406, R408, Table LDG-5) -/

/-- Decide one job of a position whose results are in: the executor's outcome; still held there; dispatched again when its body is
here; else EXPIRED with EXP_POWER. -/
def Dev.decideJob (d : Dev) (held : List (Nat × Bool)) (j : Job) : Dev :=
  match d.ldg.reports.find? (fun r => r.1 == j.hm) with
  | some r =>
    let d := if r.2.typ = 7 then d.addSat F.LDG_REPLAY_UNCONFIRMED 1 else d
    d.modJob j.hm (fun j => { j with st := stOfTyp r.2.typ, out := some r.2, armed := true, outSealed := true, reported := true })
  | none => match held.find? (fun h => h.1 == j.hm) with
    | some h => d.modJob j.hm (fun j => { j with st := if h.2 then .bound else .dispatched, sent := true })
    | none =>
      if !j.body.isEmpty then
        if j.st.terminal || j.active then d else
        { d.modJob j.hm (fun j => { j with st := .accepted, sent := false, armed := false }) with
          wr := { d.wr with tags := d.wr.tags.filter (fun t => t.2.2 != j.hm) } }
      else (d.modJob j.hm (fun j => { j with armed := false })).endJob j.hm { typ := 6, reason := Rsn.expPower, bn := d.now }

/-- Decide every job of the positions whose declaration waits. -/
def Dev.decideAll (d : Dev) : Dev :=
  let d := d.ldg.decide_.foldl (fun d x =>
    let js := d.jobs.filter (fun j => j.exec == x.1 && j.out.isNone && (j.sent || j.body.isEmpty))
    js.foldl (fun d j => d.decideJob x.2 j) d) d
  { d with ldg := { d.ldg with decide_ := [], reports := [] } }

/-- REPLAY: phase 0x4 of a start (R115, R117, R123, R396, R403, R862). -/
def execReplay (r : ReplayIn) (s : State) : Host.Outcome State Fault Refusal :=
  .next (s.onDev fun d =>
    if !(d.pwr.vcore && d.phase == 4 && !d.boot.replayed) || d.ldg.corrupt then d else
    let d := d.setNum R.LDG_REPLAY_T (min r.dur 65535)
    let done := fun d : Dev => { d with boot := { d.boot with replayed := true } }.phaseDone 4 r.us
    match d.newestCkpt with
    | none => done d.formatLone
    | some c =>
      if d.flag F.LDG_STAT_BLANK then done d.formatLone else
      let d := d.discardTorn r.torn
      if r.gap then d.corruptHold else
      let d := d.replayLog c
      let d := { d with ldg := { d.ldg with decide_ := [(d.pos, [])], declared := [d.pos] } }
      let d := if d.boot.role == .standalone then d.decideAll else d
      done d.writeCkpt)

/-- REPLAY_DECIDE: the manager decides, for every executor that has declared itself, the jobs that it had dispatched there or that
replay found (R405). Jobs of other positions stay as they are (R406). -/
def execReplayDecide (s : State) : Host.Outcome State Fault Refusal :=
  .next (s.onDev fun d => if d.isMgr && d.boot.roleKnown then d.decideAll else d)

/-- An executor's outcome reaches the manager in a report of its ledger (R406, R408, R413, R424, R790, R818): for a job without an
outcome it waits for the decision, or decides a job that has been dispatched or returned; any other is discarded and counted. -/
def Dev.takeOutcome (d : Dev) (pos hm : Nat) (o : Outcome) : Dev :=
  match d.job? hm with
  | some j =>
    if j.out.isSome || j.exec != pos || d.ldg.writtenOff.contains pos && !d.ldg.declared.contains pos then d.addSat F.LDG_REPLAY_LATE 1
    else if d.ldg.decide_.any (fun x => x.1 == pos) then { d with ldg := { d.ldg with reports := d.ldg.reports ++ [(hm, o)] } }
    else d.modJob hm (fun j => { j with st := stOfTyp o.typ, out := some o, armed := true, outSealed := true, reported := true })
  | none => d.addSat F.LDG_REPLAY_LATE 1

/-! ## The mirror on the reserve (R384, R388, R389, R751) -/

/-- Seal one mirrored record, and take over what it says. -/
def Dev.mirrorRec (d : Dev) (bodies : List (BitVec 48 × List Word)) (r : Rec) : Dev :=
  let d := d.writeRec r
  let d := { d with wr := { d.wr with sealAck := d.wr.sealAck + 1 } }
  match r.typ with
  | 0x10 => d.takeAccept r (((bodies.find? (fun b => b.1.toNat == r.hm)).map (fun b => b.2)).getD []) true
  | 0x12 => d.takeAccept r (((bodies.find? (fun b => b.1.toNat == r.hm)).map (fun b => b.2)).getD []) true
  | 0x11 => { d.setWinState r.hm (stOfTyp r.byteA) with
      adm := { (d.setWinState r.hm (stOfTyp r.byteA)).adm with termHm := mset 0 d.adm.termHm r.ring (max (mget 0 d.adm.termHm r.ring) r.hm) }, jobs := d.jobs.filter (fun j => j.hm != r.hm || j.exec == d.pos) }
  | 0x32 => { d with adm := { d.adm with win := mset [] d.adm.win r.ring [] } }.setNum (R.JR_NEXTSEQ r.ring) r.w5
  | 0x33 => if r.byteA % 4 == 0 then (d.setNum R.SCC_LASTID (r.raw.getD 0 0).toNat).setNum2 R.SCC_LASTMS_LO R.SCC_LASTMS_HI r.bn else d
  | 0x36 => { d with ldg := { d.ldg with writtenOff := d.ldg.writtenOff ++ [r.w5] } }
  | _ => d

/-- A catch-up starts: the reserve's log and checkpoints are replaced, its wear passes kept (R142, R388, R389). -/
def Dev.catchUp (d : Dev) (c : CkptIn) : Dev :=
  let own := d.jobs.filter (fun j => j.exec == d.pos)
  let d := d.format c.sysId
  let d := { d with adm := { d.adm with nextHm := c.nextHm.toNat }, jobs := own, ldg := { d.ldg with catchup := true } }
  let d := (d.setReg R.SCC_LASTID c.commitId).setNum2 R.SCC_LASTMS_LO R.SCC_LASTMS_HI c.commitMs.toNat
  c.rings.foldl (fun d r =>
    (d.setReg (R.JR_NEXTSEQ r.1.val) r.2.1).setNum2 (R.JR_LASTHM_LO r.1.val) (R.JR_LASTHM_HI r.1.val) r.2.2.toNat) d

/-- The place in this ledger of the record that the host acknowledged last on a queue: the ACCEPT or the TERM record of a hallmark. -/
def Dev.ackPos (d : Dev) (hm : Nat) (term : Bool) : Option Nat :=
  (d.mram.log.find? (fun s => s.body.typ == (if term then 0x11 else 0x10) && s.body.hm == hm)).map (fun s => s.lpos + 1)

/-- The acknowledged points of the queues, as the records that they name (R286). -/
def Dev.ackedPoints (d : Dev) : List (Nat × Nat × Bool) :=
  (List.range 16).filterMap (fun q =>
    let p := (d.cq q).acked
    if p = 0 then none else (d.mram.log.find? (fun s => s.lpos + 1 == p)).map (fun s => (q, s.body.hm, s.body.typ == 0x11)))

/-- MIRROR_MESSAGE: the reserve seals the records of the message and holds the bodies; a message that starts a catch-up comes with
the manager's checkpoint. An ACCEPT entry of 20 words brings its body; any other record is 8 words, passed over when its CHK is wrong or
its type is not mirrored; in a catch-up CARRY records come too (R372, R388, R751). A device held at ROLE_CONFLICT keeps its history
(R135). The acknowledged points of the completion queues come with it (DEDUCED from Table LDG-4, R286). -/
def execMirrorMessage (ck : Option CkptIn) (recs : List (List Word)) (bodies : List (BitVec 48 × List Word))
    (acks : List (Fin 16 × BitVec 48 × Bool)) (s : State) : Host.Outcome State Fault Refusal :=
  .next (s.onDev fun d =>
    if d.boot.role != .reserve || !d.boot.roleKnown || d.boot.conflict || !d.pwr.vcore then d else
    let d := match ck with
      | some c => d.catchUp c
      | none => d
    let rs := (recs.filterMap mirrorRecOf).filter (fun r => mirrored r.1.typ || r.1.typ == 0x12)
    let bodies := bodies ++ (rs.filter (fun r => !r.2.isEmpty)).map (fun r => (BitVec.ofNat 48 r.1.hm, r.2))
    let d := rs.foldl (fun d r => d.mirrorRec bodies r.1) d
    let d := { d with jobs := d.jobs.map (fun j => if j.body.isEmpty && j.exec != d.pos then
        match bodies.find? (fun b => b.1.toNat == j.hm) with
        | some b => { j with body := b.2 }
        | none => j else j) }
    acks.foldl (fun d a => match d.ackPos a.2.1.toNat a.2.2 with
      | some p => d.setCq a.1.val { d.cq a.1.val with acked := p }
      | none => d) d)

end Sys2Proof.Machine
end

