-- ==== Sys2Proof/Machine/Fence.lean ====
section
/-!
DEFINITION. Sys2Proof/Machine/Fence.lean: host fences, unfences and parks, what a fence reclaims, the fence of a whole device, and
the reason log (16_fences_and_recovery.md, R779 to R818; 08_ledger.md R409 to R411).
-/
namespace Sys2Proof.Machine
open Sys2Proof

/-! ## Jobs on a fenced device or domain -/

/-- Mark the active jobs of this device that use a fenced domain: each ends once what it issued is reported (R44, R784). -/
def Dev.closeJobs (d : Dev) (all : Bool) : Dev :=
  { d with jobs := d.jobs.map (fun j =>
      if j.active && j.exec == d.pos && j.closing.isNone && (all || (d.jobDoms j).any d.fenced) then { j with closing := some Rsn.expFenced }
      else j) }

/-- Leases returned by a reclaim. -/
def Dev.reclaimed (d : Dev) (n : Nat) : Dev := d.addSat F.FEN_RECLAIMCNT_LEASES n

/-- Reclaim what a domain held when its lease lapsed (Table FEN-2, R540, R542, R602, R613, R649, R815). -/
def Dev.reclaimDom (d : Dev) (k : Nat) : Dev :=
  if k < 16 then
    let h := d.hpSt k
    let d := (d.setHp k { h with cancel := h.cancel || h.cmd.isSome }).hpAbort k
    d.reclaimed (if h.cmd.isSome then 1 else 0)
  else if k < 32 then
    let n := k - 16
    let ms := d.sp.marks.filter (fun m => match d.job? m.2 with
      | some j => j.plays.any (fun p => p.sp == n)
      | none => false)
    let d := ms.foldl (fun d m => d.setMark m.1 m.2 false) d
    let d := { d with sp := { d.sp with sbwr := mset none d.sp.sbwr n none, part := mset 0 d.sp.part n 0 } }
    (d.setNum (R.SP_SBWR n) (d.num (R.SP_SBRD n))).reclaimed (1 + ms.length)
  else if k < 96 then
    let n := k - 32
    let js := (d.joins.filter (fun j => j.writer == n || j.reader == n || j.lenders.contains n)).length
    let cs := ((List.range 16).filter (fun p => (d.hpSt p).byEng == some n)).length
    ((d.reclaimEngine n).hpLapse n).reclaimed (js + cs)
  else d

/-- A fenced FD112 stops its outputs and fences the AS_DEP domains, those too that a commit has put into AS_DEP since (R251). -/
def Dev.asFenceSync (d : Dev) : Dev :=
  match d.clk.depReason with
  | none => if d.asHolds then d.asFenced (((d.dom domAsyn).causes.find? (fun r => !asBypassing.contains r)).getD 0) else d
  | some r => if d.asHolds then d.asDepFence r else d

/-- The Edge phase: leases that the fences of the last beat ended are reclaimed, outputs follow their groups' fences, and the jobs
concerned begin to close (R485, R783, R784, R794). -/
def Dev.fenceEdge (d : Dev) : Dev :=
  let ks := d.fen.fresh
  let d := ks.foldl Dev.reclaimDom { d with fen := { d.fen with fresh := [] } }
  let d := d.asFenceSync.outsFence
  if d.fen.doms.isEmpty then d else d.closeJobs false

/-- The Edge phase of an unfence (R807): the AS_DEP domains and the ASYN's outputs come back (R251), and in RUN the outputs of a
group that is free leave their safe levels (R808). -/
def Dev.fenceLift (d : Dev) : Dev :=
  let d := match d.clk.depReason with
    | some r => if d.asHolds then d else d.asUnfenced r
    | none => d
  if d.inRun then d.outsRun else d

/-! ## A whole device (R409 to R411, R752, R789, R809) -/

/-- Close the jobs of a lost executor from what the manager knows: S is the last beat whose status slot it received (R409, R410). -/
def Dev.lostJobs (d : Dev) (p : Nat) : Dev :=
  let js := d.jobs.filter (fun j => j.exec == p && j.out.isNone)
  let n := d.now - mget 0 d.wr.statusBn p + 1
  let gone := fun j : Job => j.active || ((j.sent || j.st == .dispatched) && (d.fld (F.JR_BIND_TSRC j.ring) == 3 ||
    decide ((js.filter (fun k => k.ring == j.ring && !k.active && (k.sent || k.st == .dispatched) && decide (k.hm < j.hm))).length < n)))
  let d := js.foldl (fun d j =>
    if gone j then (d.modJob j.hm (fun j => { j with armed := false })).endJob j.hm { typ := 7, reason := Rsn.uncExecutorLost, bn := d.now }
    else d.modJob j.hm (fun j => { j with st := .accepted, sent := false })) d
  { d with wr := { d.wr with tags := d.wr.tags.filter (fun t => t.2.1 != p) } }

/-- The manager fences a device as a whole: its jobs are closed, its credit restored, its window accesses ended, its provisioning
undone; the loss of the reserve ends dual seal (R383, R752, R759, R787, R794). -/
def Dev.fenceWorker (d : Dev) (p : Nat) (r : Reason) : Dev :=
  let was := d.fenced (domWorker p)
  let d := d.raiseCause (domWorker p) r
  if was then d else
  let d := d.lostJobs p
  let wins := d.wr.win.filter (fun w : WinAcc => w.pos == p)
  let left := d.wr.win.filter (fun w : WinAcc => w.pos != p)
  let wr := { d.wr with credit := mset 256 d.wr.credit p 256, win := left, prov := mset 0 d.wr.prov p 0,
                        bulk := d.wr.bulk.filter (fun x : BulkMsg => x.dst != p),
                        badPos := d.wr.badPos.filter (fun x : Nat × Reason => x.1 != p),
                        seenItems := d.wr.seenItems.filter (fun x : Nat × Nat × Nat => x.1 != p) }
  let ldg := { d.ldg with declared := d.ldg.declared.filter (· != p),
                          decide_ := d.ldg.decide_.filter (fun x : Nat × List (Nat × Bool) => x.1 != p) }
  let pwr := { d.pwr with sent := d.pwr.sent.filter (fun x : Nat × Nat => x.1 != p) }
  let d : Dev := { d with wr := wr, ldg := ldg, pwr := pwr }
  let d := if wins.isEmpty then d else (d.setFlag F.WR_WINSTAT_ERR true).setFld F.WR_WINSTAT_WPEND ((left.filter (fun w => w.write.isSome)).length)
  let d := (wins.filter (fun w => w.write.isNone)).foldl (fun d w => d.emit (.readData w.port 0)) d
  let d := d.reclaimed (1 + wins.length)
  let d := if d.wr.resPos = some p then
      let d := d.endDual
      { d with wr := { d.wr with resPos := none }, ldg := { d.ldg with catchup := false, toMirror := [], mirror := [] } }.setFlag
        F.LDG_STAT_CATCHUP false
    else d
  let away := d.adm.cancelWait.filter (fun hm => match d.job? hm with
    | some j => j.exec == p
    | none => true)
  away.foldl (fun d hm => d.cancelAnswer hm Rsn.uncExecutorLost) d

/-- A device fences itself as a whole (R58, R700, R789): every unit of its own is fenced, its jobs end, and it goes back to
sub-phase 0xB of READY-WAIT. Its units are FD0 to FD112: the ring sides and the ledger must keep working for it to rejoin
(DEDUCED from R729 and R784). Unbound jobs return to the manager, which holds their bodies (R410). -/
def Dev.selfFence (d : Dev) (r : Reason) : Dev :=
  let d := (d.raiseAll ((List.range 113).map (fun k => (k, r)))).closeJobs true
  let d := { d with jobs := d.jobs.filter (fun j => !(j.exec == d.pos && j.waiting)),
                    boot := { d.boot with provisioned := false }, scc := { d.scc with cur := none } }
  let d := (d.setFlag F.SCC_STAT_LOCKED false).setFld F.PWR_STAT_STATE 5
  (d.setPhase 11).declareSelf

/-- The manager clears a whole-device fence at step 6 of provisioning (R809); the incarnation of the device steps, and so does the value
recorded for it (R796, R797). -/
def Dev.clearWorker (d : Dev) (p : Nat) : Dev :=
  if !d.fenced (domWorker p) then d else
  { d with fen := { d.fen with posInc := mset 0 d.fen.posInc p (nextInc (mget 0 d.fen.posInc p)) } }.clearCauses (domWorker p) (fun _ => true)

/-! ## FEN_CMD (R788, R799 to R807) -/

/-- The domain exists (Table FEN-1, Table JOB-9). -/
def domExists (k : Nat) : Bool :=
  decide (k ≤ 116) || (decide (0x1000 ≤ k) && decide (k < 0x1200)) || (decide (0x2000 ≤ k) && decide (k < 0x2020))

/-- A host unfence clears the cause: host causes and the domain's own fault causes (R804). -/
def hostClears (k : Nat) (r : Reason) : Bool :=
  [Rsn.fenceHost, Rsn.domainParked, Rsn.beatOverrun, Rsn.hpLinkLoss, Rsn.hpTrainFail, Rsn.hpDeclMismatch, Rsn.hpLatRange,
   Rsn.hpStatusLost, Rsn.hpErrRate, Rsn.hpPartnerFault, Rsn.encOverspeed, Rsn.encPhase, Rsn.encIndex, Rsn.encVmax, Rsn.tnkQovf,
   Rsn.groupStall, Rsn.groupPeer].contains r || (k == domAsyn && r == Rsn.asBandFail)

/-- A host fence of a job ring: every accepted job, and every dispatched and unbound one, ends EXPIRED with EXP_FENCED (R788). A job
dispatched to another position ends when its executor has answered the cancel, as R344 has it (DEDUCED: until then the manager
cannot know that it is unbound). -/
def Dev.closeRing (d : Dev) (ring : Nat) : Dev :=
  let js := d.jobs.filter (fun j => j.ring == ring && j.out.isNone && (j.st == .accepted || j.st == .dispatched))
  let here := js.filter (fun j => (j.st == .accepted && !j.sent) || j.exec == d.pos)
  let away := js.filter (fun j => !((j.st == .accepted && !j.sent) || j.exec == d.pos))
  let d := here.foldl (fun d j => d.endJob j.hm { typ := 6, reason := Rsn.expFenced, bn := d.now }) d
  let d := away.foldl (fun d j => d.modJob j.hm (fun j => { j with closing := some Rsn.expFenced })) d
  let tags := d.wr.tags.filter (fun t => away.any (fun j => j.hm == t.2.2))
  ((tags.map (fun t => t.2.1)).eraseDups).foldl (fun d p =>
    d.bulkPut p 2 ((tags.filter (fun t => t.2.1 == p)).map (fun t => BitVec.ofNat 32 t.1))) d

/-- Fence a domain with a host cause. -/
def Dev.hostFence (d : Dev) (k : Nat) (r : Reason) : Dev × Reason :=
  if !domExists k then (d, Rsn.refState)
  else if 0x2000 ≤ k then
    if d.isMgr && k != domWorker d.pos then (d.fenceWorker (k - 0x2000) r, Rsn.ok) else (d, Rsn.refState)
  else if 0x1000 ≤ k then
    if d.isMgr then ((d.raiseCause k r).closeRing (k - 0x1000), Rsn.ok) else (d, Rsn.refState)
  else ({ d.raiseCause k r with clk := { d.clk with depSet := if d.clk.depReason = some r then d.clk.depSet.filter (· != k) else d.clk.depSet } },
    Rsn.ok)

/-- The refusals of a host unfence (R804, R806, R811). A domain that FD112 fences stays fenced until FD112 is free (R251). -/
def Dev.unfenceBad (d : Dev) (k : Nat) : Bool :=
  let v := d.dom k
  !domExists k || k == domLdg || !v.isFenced || d.clk.depSet.contains k || d.fen.raisedNow.contains k || v.causes.any (fun r => !hostClears k r)

/-- A host unfence. Of a sync group, every member loses GROUP_STALL and GROUP_PEER (R805); an encoder's speed is not valid at first
(R808). An unfence of a position fenced with RING_BABBLE lets its provisioning clear the fence (R809). -/
def Dev.hostUnfence (d : Dev) (k : Nat) : Dev × Reason :=
  let babble := decide (0x2000 ≤ k) && (d.dom k).causes.contains Rsn.ringBabble
  if babble && d.isMgr then
    let d := { d with fen := { d.fen with babble := d.fen.babble.filter (fun x => x.1 != k - 0x2000) } }
    (if mget 0 d.wr.prov (k - 0x2000) = 6 then d.clearWorker (k - 0x2000) else d, Rsn.ok)
  else if d.unfenceBad k then (d, Rsn.refState)
  else
    let d := d.clearCauses k (fun _ => true)
    let d := if 32 ≤ k ∧ k < 96 then (d.groupPeers (k - 32)).foldl (fun d m =>
        d.clearCauses (domTe m) (fun r => r == Rsn.groupStall || r == Rsn.groupPeer)) d else d
    let d := if 104 ≤ k ∧ k < 112 then
        let e := d.enc (k - 104)
        (d.setEnc (k - 104) { e with hist := [], spN := 0, spD := 1, freePos := e.pos }).setFlag (F.ENC_STAT_SPEED_VALID (k - 104)) false
      else d
    (d, Rsn.ok)

/-- A bound or striking job of this device uses the domain (R799). -/
def Dev.domBusy (d : Dev) (k : Nat) : Bool :=
  d.jobs.any (fun j => j.active && ((j.exec == d.pos && (d.jobDoms j).contains k) || k == domRing j.ring || k == domWorker j.exec))

/-- Park a domain (R799, R802): a head port goes DOWN with its drivers off. -/
def Dev.hostPark (d : Dev) (k : Nat) (expire : Bool) : Dev × Reason :=
  if d.domBusy k && !expire then (d, Rsn.refState)
  else
    let r := d.hostFence k Rsn.domainParked
    if k < 16 ∧ r.2 = Rsn.ok ∧ d.hpFramed k then ((r.1.hpCut k (some Rsn.partHeadlink)).hpLink k 0, r.2) else r

/-- Carry out one command: OP 1 FENCE, 2 UNFENCE, 3 PARK. A fence or a park of a parked domain completes with DOMAIN_PARKED (R800);
another OP with REF_STATE (DEDUCED). -/
def Dev.fenRun (d : Dev) (c : FenCmd) : Dev × Reason :=
  let parked := (d.dom c.dom).causes.contains Rsn.domainParked
  if c.op = 2 then d.hostUnfence c.dom
  else if (c.op = 1 ∨ c.op = 3) ∧ parked then (d, Rsn.domainParked)
  else if c.op = 1 then d.hostFence c.dom Rsn.fenceHost
  else if c.op = 3 then d.hostPark c.dom c.expire
  else (d, Rsn.refState)

/-- The Edge phase after a FEN_CMD write takes it (R807); R813 puts it before the Decide phase. -/
def Dev.fenTake (d : Dev) : Dev :=
  let d := match d.fen.cmd with
    | none => d
    | some c =>
      let r := { d with fen := { d.fen with cmd := none } }.fenRun c
      (r.1.setFlag F.FEN_CMDSTAT_BUSY false).setFld F.FEN_CMDSTAT_RESULT r.2.toNat
  { d with fen := { d.fen with raisedNow := [] } }

/-- A write of FEN_CMD with GO. A command that finds another waiting is refused (DEDUCED from BUSY of Table FEN-8). -/
def Dev.writeFenCmd (d : Dev) (w : Word) : Dev :=
  if !bitOf w 31 then d
  else if d.fen.cmd.isSome then d.setFld F.FEN_CMDSTAT_RESULT Rsn.refState.toNat
  else { d with fen := { d.fen with cmd := some { dom := slice w 15 0, op := slice w 18 16, expire := bitOf w 19 } } }.setFlag
    F.FEN_CMDSTAT_BUSY true

/-! ## The reason log (R791 to R793) -/

/-- Enter an entry that another device sent (R792, R793). -/
def Dev.logFar (d : Dev) (e : LogEntry) : Dev :=
  let d := if d.fen.log.length < 64 then { d with fen := { d.fen with log := d.fen.log ++ [e] } }
    else { d with fen := { d.fen with logLost := satAdd 8 d.fen.logLost 1 } }
  d.raiseIrq 16

/-- The word of FEN_LOG1: the entry's domain and position over the count of entries lost. -/
def Dev.log1 (d : Dev) (dom pos : Nat) : Word := BitVec.ofNat 32 (dom + pos * 2 ^ 16 + d.fen.logLost * 2 ^ 24)

/-- A read of FEN_LOG0: the oldest entry is popped, and FEN_LOG1 to FEN_LOG3 latch it; an empty log reads VALID = 0 (Table FEN-8). A
read-only port pops nothing (R263). -/
def Dev.readFenLog (d : Dev) (p : Port) : Dev × Word :=
  match d.fen.log with
  | [] => (if d.portRo p then d else d.latch p [(R.FEN_LOG1, d.log1 0 0), (R.FEN_LOG2, 0), (R.FEN_LOG3, 0)], 0)
  | e :: rest =>
    let w := BitVec.ofNat 32 (e.reason.toNat + e.inc * 2 ^ 16 + (if e.clear then 2 ^ 24 else 0) + 2 ^ 25)
    if d.portRo p then (d, w) else
    let d := d.latch p [(R.FEN_LOG1, d.log1 e.dom e.pos), (R.FEN_LOG2, BitVec.ofNat 32 e.bn), (R.FEN_LOG3, BitVec.ofNat 32 (e.bn / 2 ^ 32))]
    ({ d with fen := { d.fen with log := rest } }, w)

/-! ## Meanings -/

/-- The word of a FEN_CMD write with GO. -/
def fenWord (op : Nat) (dom : BitVec 16) (expire : Bool) : Word :=
  BitVec.ofNat 32 (2 ^ 31 + op * 2 ^ 16 + dom.toNat + (if expire then 2 ^ 19 else 0))

/-- FEN_FENCE: FEN_CMD written with OP 1. -/
def execFenFence (port : Port) (dom : BitVec 16) (s : State) : Host.Outcome State Fault Refusal :=
  .next (s.onDev fun d => d.viaPort port R.FEN_CMD fun d => d.writeFenCmd (fenWord 1 dom false))

/-- FEN_UNFENCE: FEN_CMD written with OP 2. -/
def execFenUnfence (port : Port) (dom : BitVec 16) (s : State) : Host.Outcome State Fault Refusal :=
  .next (s.onDev fun d => d.viaPort port R.FEN_CMD fun d => d.writeFenCmd (fenWord 2 dom false))

/-- FEN_PARK: FEN_CMD written with OP 3. -/
def execFenPark (port : Port) (dom : BitVec 16) (expire : Bool) (s : State) : Host.Outcome State Fault Refusal :=
  .next (s.onDev fun d => d.viaPort port R.FEN_CMD fun d => d.writeFenCmd (fenWord 3 dom expire))

/-- FEN_LOG_POP: a read of FEN_LOG0. -/
def execFenLogPop (port : Port) (s : State) : Host.Outcome State Fault Refusal :=
  .next (s.onDev fun d => d.readVia port R.FEN_LOG0 true (fun d => d.readFenLog port))

end Sys2Proof.Machine
end

