-- ==== Sys2Proof/Machine/Commit.lean ====
section
/-!
DEFINITION. Sys2Proof/Machine/Commit.lean: stage and active images, the commit command, the exchange, the milestone, scheduled
actions and COMMIT records (14_stage_check_commit.md, R681 to R720).
-/
namespace Sys2Proof.Machine
open Sys2Proof

/-! ## Images -/

/-- The bits of an offset that are staged. -/
def stMask (a : Nat) : Word := match regRow? a with
  | some r => BitVec.ofNat 32 r.st
  | none => 0

/-- The offsets of a register's instances, from its strides and counts. -/
def dimOffs : List (Nat × Nat) → List Nat
  | [] => [0]
  | (s, n) :: r => (List.range n).flatMap (fun i => (dimOffs r).map (· + s * i))

/-- Every offset that holds staged bits, rising. -/
def stOffs : List Nat :=
  ((regTable.filter (fun r => r.st != 0)).flatMap (fun r => (dimOffs r.dims).map (· + r.base))).mergeSort (fun a b => decide (a ≤ b))

/-- The offsets at which stage and active image may differ. -/
def Dev.imageKeys (d : Dev) : List Nat :=
  ((d.regs.map (fun c => c.1) ++ d.stage.map (fun c => c.1)).eraseDups).filter (fun a => stMask a != 0)

/-- The offsets at which they do. -/
def Dev.dirtyKeys (d : Dev) : List Nat := d.imageKeys.filter (fun a => (d.reg a &&& stMask a) != (d.stg a &&& stMask a))

/-- Copy the stage image over the active one. -/
def Dev.swapImage (d : Dev) : Dev :=
  d.dirtyKeys.foldl (fun d a => d.setReg a ((d.reg a &&& ~~~(stMask a)) ||| (d.stg a &&& stMask a))) d

/-- Copy the active image over the stage image (R682). -/
def Dev.discardStage (d : Dev) : Dev :=
  d.dirtyKeys.foldl (fun d a => d.setStg a ((d.stg a &&& ~~~(stMask a)) ||| (d.reg a &&& stMask a))) d

/-- The CRC-32 of Table SCC-6: over every staged word in address order. -/
def Dev.imageCrc (d : Dev) : Word := crc32Words (stOffs.map (fun a => d.stg a &&& stMask a))

/-! ## The commit in progress -/

/-- The scope that SCC_SCOPE names: 0 stands for this device. -/
def Dev.sccScope (d : Dev) : Nat := let s := d.num R.SCC_SCOPE; if s = 0 then 2 ^ d.pos else s

/-- The ring latency over a scope (14_stage_check_commit.md, "The commit command"). -/
def Dev.latOver (d : Dev) (scope : Nat) : Nat :=
  ceilDiv (((onesBelow 32 scope).map (fun p => d.oneWay d.pos p)).foldl max 0) 480000

/-- Commit phase of SCC_STAT: 0 idle, 1 checking, 2 voting, 3 apply decided, 4 applied, 5 aborted. -/
def Dev.sccPhase (d : Dev) (n : Nat) : Dev := d.setFld F.SCC_STAT_PHASE n

/-- The commit fields of the frame header (Table RNG-3): H1 carries the scope, H2 the ID, CPHASE, reason and position. Every frame of
the manager carries them until the milestone, or until other fields take their place (R695, R698). -/
def Dev.cmtHeader (d : Dev) (c : CommitSt) (phase : Nat) (r : Reason) (pos : Nat) : Dev :=
  let h := (c.scope, c.id % 2 ^ 32 + phase * 2 ^ 32 + r.toNat * 2 ^ 34 + pos * 2 ^ 50, max c.ms (d.now + 1))
  { d with scc := { d.scc with hdr := some h } }

/-- A COMMIT record (Table SCC-6). -/
def cmtRec (c : CommitSt) (kind bn w5 w6 : Nat) : Rec :=
  { typ := 0x33, bn := bn, byteA := kind + (if c.local_ then 0 else 4), w5 := w5, w6 := w6,
    raw := [BitVec.ofNat 32 c.id, BitVec.ofNat 32 c.scope] }

/-- The commit ends without applying: code, failing position and unit; a KIND 1 record on the manager and on a device that has
voted; the image is unlocked and stays as it was (R682, R699, R709). A ring-wide commit's manager sends ABORT. -/
def Dev.commitAbort (d : Dev) (code : Reason) (pos unit : Nat) : Dev :=
  match d.scc.cur with
  | none => d
  | some c =>
    let d := { d with scc := { d.scc with cur := none } }
    if c.prov then
      let ps := onesBelow 32 c.scope
      { d with wr := { d.wr with prov := ps.foldl (fun (m : SMap Nat) p => mset 0 m p 4) d.wr.prov } }.cmtHeader c 3 code pos
    else
    let d := ((d.setFlag F.SCC_STAT_LOCKED false).sccPhase 5).setFld F.SCC_STAT_RESULT code.toNat
    let d := d.setNum R.SCC_FAIL (pos % 32 + unit % 256 * 2 ^ 8 + code.toNat * 2 ^ 16)
    let d := if d.isMgr || c.voted then d.dueRec 5 [cmtRec c 1 d.now (code.toNat + pos % 32 * 2 ^ 16) 0] else d
    let d := d.raiseIrq 20
    if d.isMgr && !c.local_ then d.cmtHeader c 3 code pos else d

/-- Begin to check this device's image, and lock it. -/
def Dev.startCheck (d : Dev) (c : CommitSt) : Dev :=
  let inScope := c.scope.testBit d.pos
  ({ d with scc := { d.scc with cur := some { c with checkBn := d.now } } }.sccPhase 1).setFlag F.SCC_STAT_LOCKED inScope

/-! ## SCC_CMD (R683, R684, Table SCC-1) -/

/-- A position cannot be in scope: no provisioned device, or one in PARK, OFF or READY-WAIT. -/
def Dev.scopeBad (d : Dev) (p : Nat) : Bool :=
  let st := if p = d.pos then d.pstate else d.wstate p
  !d.provisioned p || (decide (3 ≤ st) && decide (st ≤ 5))

/-- The code with which GO or CHECKONLY is refused when it is taken. -/
def Dev.sccRefusal (d : Dev) : Option Reason :=
  let id := d.num R.SCC_ID
  let last := d.num R.SCC_LASTID
  let m := d.num2 R.SCC_MS_LO R.SCC_MS_HI
  let scope := d.sccScope
  let isLocal := scope == 2 ^ d.pos
  let floor := if isLocal then 4 else 3 * d.latOver scope + 9
  if d.scc.cur.isSome then some Rsn.refState
  else if id = 0 then some Rsn.refFormat
  else if id = last then some Rsn.already
  else if 2 ^ 31 ≤ (id + 2 ^ 32 - last) % 2 ^ 32 then some Rsn.refOrder
  else if m < d.now + floor ∨ d.now + 2 ^ 32 < m then some Chk.milestone
  else if (d.boot.role == .standalone && !isLocal) || (onesBelow 32 scope).any d.scopeBad then some Chk.scope
  else none

/-- The job-ring words of an image that concern a position, where the rings that name it now may be left out of it (R689). -/
def Dev.jrWords (d : Dev) (rd : Nat → Word) (p : Nat) : List (Nat × Word) :=
  ((ringsNaming d.reg p ++ ringsNaming rd p).eraseDups.flatMap jrRegs).map (fun a => (a, rd a))

/-- Rings that a commit of the manager changes for a position out of its scope: their words go there in a PROV message, since the
executor binds and resolves by them (R314; DESIGN CHOICE: the spec names no message for them; log entry 154). `now` is the image
before the swap. -/
def Dev.ringsTell (d : Dev) (now : Nat → Word) (c : CommitSt) : Dev :=
  if d.boot.role != .manager then d else
  ((List.range 32).filter (fun p => p != d.pos && !c.scope.testBit p && decide (6 ≤ mget 0 d.wr.prov p))).foldl (fun d p =>
    let ws := (((ringsNaming now p ++ ringsNaming d.reg p).eraseDups.flatMap jrRegs).filter (fun a => now a != d.reg a)).map
      (fun a => (a, d.reg a))
    if ws.isEmpty then d else d.bulkPut p 8 (7 :: ws.flatMap (fun x => [BitVec.ofNat 32 x.1, x.2]))) d

/-- Job-ring words from the manager: the registers that such a message may name. -/
def ringWord (a : Nat) : Bool := stMask a != 0 && decide (0x10000 ≤ a) && decide (a < 0x1A000)

/-- Take GO or CHECKONLY (R687, R694, R695, R718). -/
def Dev.sccGo (d : Dev) (checkOnly : Bool) : Dev :=
  match d.sccRefusal with
  | some r => (d.setFld F.SCC_STAT_RESULT r.toNat).raiseIrq 20
  | none =>
    let scope := d.sccScope
    let isLocal := scope == 2 ^ d.pos
    let c : CommitSt := { id := d.num R.SCC_ID, ms := d.num2 R.SCC_MS_LO R.SCC_MS_HI, scope := scope, local_ := isLocal, checkOnly := checkOnly,
                          pendV := if isLocal then 0 else scope }
    let d := ((d.startCheck c).setNum R.SCC_VOTES 0).setNum R.SCC_PENDV c.pendV
    let d := { d with scc := { d.scc with await := 0 } }
    if isLocal then d else
    let w := fun n : Nat => BitVec.ofNat 32 n
    let d := d.cmtHeader c 1 0 0
    ((onesBelow 32 scope).filter (· != d.pos)).foldl (fun d p =>
      d.bulkPut p 3 ([w c.id, w c.ms, w (c.ms / 2 ^ 32), w scope] ++ (d.jrWords (if scope.testBit d.pos then d.stg else d.reg) p).flatMap (fun x => [w x.1, x.2]))) d

/-- Take ABORT (R702); with no commit in progress it is refused as after a decision (DEDUCED). -/
def Dev.sccAbort (d : Dev) : Dev :=
  match d.scc.cur with
  | some c => if c.decision.isSome then (d.setFld F.SCC_STAT_RESULT Rsn.refState.toNat).raiseIrq 20 else d.commitAbort Chk.hostAbort d.pos 0
  | none => (d.setFld F.SCC_STAT_RESULT Rsn.refState.toNat).raiseIrq 20

/-- The stage image of this device is written: a commit that has locked it aborts (R686). On a device that is not the manager the
check fails instead, or the decision held is dropped, so that the device does not apply what was not checked. -/
def Dev.stageTouched (d : Dev) : Dev :=
  match d.scc.cur with
  | none => d
  | some c =>
    if !c.scope.testBit d.pos then d
    else if d.isMgr then d.commitAbort Chk.stageWrite d.pos 0
    else if c.voted then { d with scc := { d.scc with cur := some { c with decision := some Chk.stageWrite } } }
    else { d with scc := { d.scc with cur := some { c with result := some Chk.stageWrite } } }.setFlag F.SCC_STAT_LOCKED false

/-- Take DISCARD (R682): here, or by a PROV message at the positions that SCC_SCOPE names. -/
def Dev.sccDiscard (d : Dev) : Dev :=
  (onesBelow 32 d.sccScope).foldl (fun d p => if p = d.pos then d.discardStage.stageTouched else
    let act := d.wr.imgActive.filter (fun (x : Nat × Nat × Word) => x.1 == p)
    let oth := d.wr.imgStage.filter (fun (x : Nat × Nat × Word) => x.1 != p)
    if d.boot.role != .manager then d else { d with wr := { d.wr with imgStage := oth ++ act } }.bulkPut p 8 [4]) d

/-- The Edge phase after an SCC_CMD write takes it. -/
def Dev.sccTake (d : Dev) : Dev :=
  match d.scc.cmd with
  | none => d
  | some w =>
    let d := { d with scc := { d.scc with cmd := none } }
    let d := if bitOf w 0 then d.sccGo false else if bitOf w 1 then d.sccGo true else d
    let d := if bitOf w 2 then d.sccAbort else d
    if bitOf w 3 then d.sccDiscard else d

/-- A write of SCC_CMD: only the active manager and a standalone device take it (R683). -/
def Dev.writeSccCmd (d : Dev) (w : Word) : Dev := if d.isMgr then { d with scc := { d.scc with cmd := some w } } else d

/-- A write of SCC_ID, SCC_MS_LO, SCC_MS_HI or SCC_SCOPE (R685). -/
def Dev.writeSccSet (d : Dev) (a : Nat) (w : Word) : Dev :=
  if d.scc.cur.isSome then d else d.setReg a (if a = R.SCC_MS_HI then w &&& 0xFFFFFF else w)

/-- A write of an st register: the stage image takes its staged bits (R18, R686). -/
def Dev.writeStage (d : Dev) (a : Nat) (w : Word) : Dev :=
  (d.setStg a ((d.stg a &&& ~~~(stMask a)) ||| (w &&& stMask a))).stageTouched

/-! ## The check and the votes (R688 to R697) -/

/-- The check of this device's image completes (R696). A local commit that fails aborts at once, one whose milestone has come is
late (R694); a local CHECKONLY that passes ends (R718). -/
def Dev.checkDone (d : Dev) (m : List Host.Cell) : Dev :=
  match d.scc.cur with
  | none => d
  | some c =>
    if c.result.isSome || !c.scope.testBit d.pos then d else
    let d := d.setNum R.SCC_CHKT (min (d.now - c.checkBn) 65535)
    let f := d.chkAll m c.scope
    let code := (f.map (fun x => x.2)).getD Rsn.ok
    let c' := { c with result := some code }
    if c.local_ then
      match f with
      | some x => d.commitAbort x.2 d.pos x.1
      | none =>
        if c.ms ≤ d.now then d.commitAbort Chk.late d.pos 0
        else if c.checkOnly then
          (({ d with scc := { d.scc with cur := none } }.sccPhase 0).setFlag F.SCC_STAT_LOCKED false).setFld F.SCC_STAT_RESULT 0 |>.raiseIrq 20
        else { d with scc := { d.scc with cur := some c' } }
    else
      let d := match f with
        | some x => d.setNum R.SCC_FAIL (d.pos % 32 + x.1 % 256 * 2 ^ 8 + x.2.toNat * 2 ^ 16)
        | none => d
      let c' := if d.isMgr then
          { c' with pendV := c.pendV &&& ((2 ^ 32 - 1) ^^^ (2 ^ d.pos)), voted := true,
                    yes := if code = Rsn.ok then c.yes ||| 2 ^ d.pos else c.yes, no := if code = Rsn.ok then c.no else c.no ++ [(d.pos, code)] }
        else c'
      let d := { d with scc := { d.scc with cur := some c' } }
      if d.isMgr then ((d.setNum R.SCC_VOTES c'.yes).setNum R.SCC_PENDV c'.pendV).sccPhase 2 else d.sccPhase 2

/-- The manager gathers a vote from a status slot (Table RNG-5): 1 YES, 2 NO with the low 12 bits of the code. -/
def Dev.takeVote (d : Dev) (p vote detail : Nat) : Dev :=
  match d.scc.cur with
  | none => d
  | some c =>
    if !c.pendV.testBit p || !(vote == 1 || vote == 2) then d else
    let c := { c with pendV := c.pendV ^^^ 2 ^ p, yes := if vote = 1 then c.yes ||| 2 ^ p else c.yes,
                      no := if vote = 2 then c.no ++ [(p, BitVec.ofNat 16 (0x4000 + detail % 4096))] else c.no }
    ({ d with scc := { d.scc with cur := some c } }.setNum R.SCC_VOTES c.yes).setNum R.SCC_PENDV c.pendV

/-- The manager's tests on jobs in flight at the decision (Table SCC-3): its own image's, and what is told of another
position's. -/
def Dev.decideTests (d : Dev) (m : List Host.Cell) (c : CommitSt) (far : Option (Fin 32 × BitVec 8 × BitVec 16)) : Option (Nat × Nat × Reason) :=
  let own := if c.scope.testBit d.pos then d.busyBodies m <|> d.busyRings else none
  match own with
  | some x => some (d.pos, x.1, x.2)
  | none => far.map (fun f => (f.1.val, f.2.1.toNat, f.2.2))

/-- The manager decides a ring-wide commit (R697, R774, R817, R718); L runs over its scope (Table SCC-1). The fence of a position does not
end the exchange that provisions it. -/
def Dev.decideCommit (d : Dev) (m : List Host.Cell) (far : Option (Fin 32 × BitVec 8 × BitVec 16)) : Dev :=
  match d.scc.cur with
  | none => d
  | some c =>
    if !d.isMgr || c.local_ || c.decision.isSome then d else
    let lost := if c.prov then none else (onesBelow 32 c.scope).find? (fun p => p != d.pos && d.fenced (domWorker p))
    if c.pendV = 0 ∧ c.no = [] then
      match d.decideTests m c far with
      | some (p, u, r) => d.commitAbort r p u
      | none =>
        if c.checkOnly then
          let d := (({ d with scc := { d.scc with cur := none } }.sccPhase 0).setFlag F.SCC_STAT_LOCKED false).setFld F.SCC_STAT_RESULT 0
          (d.raiseIrq 20).cmtHeader c 3 Rsn.ok d.pos
        else ({ d with scc := { d.scc with cur := some { c with decision := some Rsn.ok } } }.sccPhase 3).cmtHeader c 2 Rsn.ok 0
    else match c.no.mergeSort (fun a b => decide (a.1 ≤ b.1)) with
      | x :: _ => d.commitAbort x.2 x.1 (slice (d.reg R.SCC_FAIL) 15 8)
      | [] =>
        if c.ms ≤ d.now + d.latOver c.scope + 8 then d.commitAbort Chk.late (((onesBelow 32 c.pendV).head?).getD d.pos) 0
        else match lost with
          | some p => d.commitAbort Chk.peerLost p 0
          | none => d

/-- PREPARE arrives: the image is locked and its check starts (R695). A reserve follows the exchange even out of scope (R703). -/
def Dev.prepare (d : Dev) (id scope : Nat) : Dev :=
  let mine := scope.testBit d.pos || d.boot.role == .reserve
  let known := match d.scc.cur with
    | some c => c.id == id
    | none => false
  if d.isMgr || !mine || known || (d.started && id == d.num R.SCC_LASTID) then d
  else d.startCheck { id := id, ms := 0, scope := scope, local_ := false }

/-- A decision arrives: it replaces any earlier one for the same ID (R699, R703). ABORT with reason 0 ends a CHECKONLY (R718; log entry
73). -/
def Dev.takeDecision (d : Dev) (id : Nat) (apply : Bool) (r : Reason) (pos : Nat) : Dev :=
  match d.scc.cur with
  | none => d
  | some c =>
    if d.isMgr || c.id != id then d
    else if apply then
      if c.decision = some Chk.stageWrite then d
      else { d with scc := { d.scc with cur := some { c with decision := some Rsn.ok } } }.sccPhase 3
    else if r = Rsn.ok then ({ d with scc := { d.scc with cur := none } }.sccPhase 0).setFlag F.SCC_STAT_LOCKED false
    else d.commitAbort r pos 0

/-! ## Scheduled actions (R707, R708) -/

/-- Carry out one action at the milestone; the answer is what SCC_ACTRES records. -/
def Dev.actRun (d : Dev) (kind arg : Nat) : Dev × Reason :=
  match kind with
  | 1 => match d.pwrRefusal (arg % 8) (arg.testBit 4) with
    | some r => (d, r)
    | none => (d.pwrHold (arg % 8) (arg.testBit 4) (arg.testBit 5) d.now, Rsn.ok)
  | 2 => d.hostFence (arg % 65536) Rsn.fenceHost
  | 3 => d.hostUnfence (arg % 65536)
  | 4 =>
    let old := d.clk.asPend
    let w := BitVec.ofNat 32 (arg % 512)
    let e := { d with clk := { d.clk with asPend := none } }.writeAsCmd w
    match e.clk.asPend with
    | some c => ({ e with clk := { e.clk with asPend := some { c with applyBn := d.now } } }, Rsn.ok)
    | none => if w &&& 0xF8 = 0 then (e, Rsn.ok)
        else ({ e with clk := { e.clk with asPend := old } }, BitVec.ofNat 16 (e.fld F.AS_STAT_REASON))
  | 5 =>
    if d.tnk.pend.isSome then (d, Rsn.refState) else
    let e := d.writeTnkCmd (BitVec.ofNat 32 (2 ^ 31 + arg % 1024))
    match e.tnk.pend with
    | some c => ({ e with tnk := { e.tnk with pend := some { c with bn := d.now } } }, Rsn.ok)
    | none => (e, BitVec.ofNat 16 (e.fld F.TNK_CMDSTAT_RESULT))
  | _ =>
    let p := arg % 16
    if (d.dom p).causes.contains Rsn.domainParked then (d, Rsn.domainParked)
    else if d.hpFramed p then (d.hpTrain p, Rsn.ok) else (d, Rsn.refState)

/-- Carry out the actions of the applied image for this position, in ascending index. -/
def Dev.actions (d : Dev) : Dev :=
  (List.range 16).foldl (fun d n =>
    let w := d.reg (R.SCC_ACT0 n)
    let k := slice w 3 0
    if k = 0 ∨ slice w 12 8 ≠ d.pos then d else
    let r := d.actRun k (d.num (R.SCC_ACT1 n))
    let a := R.SCC_ACTRES (n / 2)
    r.1.setReg a (setSlice (r.1.reg a) (16 * (n % 2) + 15) (16 * (n % 2)) r.2.toNat)) d

/-- Scheduled actions in the image. -/
def Dev.actCount (d : Dev) : Nat := ((List.range 16).filter (fun n => slice (d.reg (R.SCC_ACT0 n)) 3 0 != 0)).length

/-! ## The milestone (R706) -/

/-- The engine whose program or registers an offset belongs to. -/
def engOf (a : Nat) : Option Nat :=
  if 0x60000 ≤ a ∧ a < 0xA0000 ∧ a % 0x1000 < 0x800 then some ((a - 0x60000) / 0x1000) else none

/-- What the swap does to the engines: a new divider restarts the phase, SWAPMODE 1 enters START, AUTOSTART starts a group once
(R630, R655, R663, R664). -/
def Dev.swapEngines (d : Dev) (keys : List Nat) : Dev :=
  let d := ((keys.filterMap engOf).eraseDups).foldl (fun d n =>
    let e := d.eng n
    let e := if keys.contains (R.TNK_DIV n) then { e with c0 := d.now * cyclesPerBeat } else e
    d.setEng n (if e.running && d.flag (F.TNK_CFG_SWAPMODE n) then { e with swapDue := true } else e)) d
  (List.range 16).foldl (fun d g =>
    if !d.flag (F.TNK_SGCFG_AUTOSTART g) then d else
    let d := (d.setFlag (F.TNK_SGCFG_AUTOSTART g) false).setStg (R.TNK_SGCFG g) (putBit (d.stg (R.TNK_SGCFG g)) 16 false)
    if (d.grpMask g).isEmpty || (d.grpMask g).any (fun n => d.fenced (domTe n)) then d else d.startEngines false g) d

/-- What the swap does to the tallies (R550, R710): a LOAD sets cursor and last value, journals a KIND 2 record and is cleared; a
tally that a start left without its settings takes the value after the last one (R548). -/
def Dev.swapTallies (d : Dev) (c : CommitSt) (keys : List Nat) : Dev :=
  (List.range 32).foldl (fun d t =>
    if d.flag (F.TAL_CFG_LOAD t) then
      let v := d.num (R.TAL_LOADV t)
      let s := d.tal t
      let d := d.setTal t { s with issues := s.issues + 1, lastOrd := s.issues + 1, hold := true }
      let d := ((d.setNum (R.TAL_NEXT t) v).setNum (R.TAL_LAST t) v).setFlag (F.TAL_STAT_LAST_VALID t) true
      let d := (d.setFlag (F.TAL_CFG_LOAD t) false).setStg (R.TAL_CFG t) (putBit (d.stg (R.TAL_CFG t)) 31 false)
      d.dueRec 5 [cmtRec c 2 c.ms t v]
    else if keys.contains (R.TAL_CFG t) && d.flag (F.TAL_STAT_LAST_VALID t) && d.num (R.TAL_NEXT t) == d.num (R.TAL_LAST t) then
      d.setNum (R.TAL_NEXT t) (d.tallyNext t (d.num (R.TAL_LAST t)))
    else d) d

/-- Stored bands of profiles whose N or FRAC changed are no longer valid (R230). -/
def Dev.swapBands (d : Dev) (keys : List Nat) : Dev :=
  (List.range 8).foldl (fun d p =>
    if keys.contains (R.AS_PN p) || keys.contains (R.AS_PFRAC p) then d.setFlag (F.AS_PBAND_VALID p) false else d) d

/-- The image swap and what follows from it in the units. -/
def Dev.swapAll (d : Dev) (c : CommitSt) : Dev :=
  let keys := d.dirtyKeys
  let modes := (List.range 16).map (fun p => (p, d.fld (F.HP_CFG_MODE p)))
  let act := (List.range 32).map (fun n => (n, d.outPin n))
  let d := d.swapImage
  let d := act.foldl (fun d x => d.outTrans x.1 x.2) d
  let d := modes.foldl (fun d x => d.hpMode x.1 x.2) d
  let d := (d.swapBands keys).asCommit
  let d := (d.swapEngines keys).swapTallies c keys
  d.asyCommit (fun n => keys.contains (R.PO_CFG n) || keys.contains (R.PO_GCFG (n / 8)))

/-- Apply the image (R706, R709): the pending calendar set, the swap, the record, then the actions. -/
def Dev.applyImage (d : Dev) (c : CommitSt) : Dev :=
  let crc := d.imageCrc
  let old := d.reg
  let d := { (d.swapAll c) with scc := { (d.swapAll c).scc with cur := none, fresh := false } }.setFlag F.SCC_STAT_LOCKED false
  ((d.dueRec 5 [cmtRec c 0 c.ms d.actCount crc.toNat]).ringsTell old c).actions

/-- Show a commit as applied, with vector 20; the exchange of a provisioning shows nothing, and ends step 5 (Table RNG-8). -/
def Dev.applied (d : Dev) : Dev :=
  if d.scc.awaitProv then { d with scc := { d.scc with awaitProv := false } }
  else ((d.sccPhase 4).setFld F.SCC_STAT_RESULT 0).raiseIrq 20

/-- The copies that a device keeps of other positions' stage images take effect in a scope (Table RNG-8, step 4; R703, R865). -/
def Dev.imagesApplied (d : Dev) (scope : Nat) : Dev :=
  let new := d.wr.imgStage.filter (fun (x : Nat × Nat × Word) => scope.testBit x.1)
  let old := d.wr.imgActive.filter (fun (x : Nat × Nat × Word) => !new.any (fun (y : Nat × Nat × Word) => y.1 == x.1 && y.2.1 == x.2.1))
  { d with wr := { d.wr with imgActive := old ++ new } }

/-- The Edge phase of the milestone (R691, R694, R699, R700, R706, R717). -/
def Dev.milestone (d : Dev) (m : List Host.Cell) : Dev :=
  let d := d.calApplyDue
  match d.scc.cur with
  | none => d
  | some c =>
    if c.ms = 0 ∨ d.now < c.ms then d
    else if c.local_ then
      if c.checkOnly then d else
      if c.result ≠ some Rsn.ok then d.commitAbort Chk.late d.pos 0
      else match d.chkBusy m with
        | some x => d.commitAbort x.2 d.pos x.1
        | none => (d.applyImage c).applied
    else match c.decision with
      | some r =>
        if r ≠ Rsn.ok then { d with scc := { d.scc with cur := none } }.setFlag F.SCC_STAT_LOCKED false
        else
          let d := if c.scope.testBit d.pos then d.applyImage c else
            let d := { d with scc := { d.scc with cur := none } }
            if d.isMgr && !c.prov then d.dueRec 5 [cmtRec c 0 c.ms 0 0] else d
          let d := d.imagesApplied c.scope
          let d := if d.boot.role != .manager && !d.started then { d with boot := { d.boot with provisioned := true } } else d
          if d.isMgr then
            let w := (onesBelow 32 c.scope).filter (fun p => p != d.pos && (c.prov || !d.fenced (domWorker p)))
            let d := { d with scc := { d.scc with await := (w.map (fun p => 2 ^ p)).sum, awaitBn := c.ms + d.latOver c.scope, awaitProv := c.prov } }
            if w.isEmpty then d.applied else d
          else d.sccPhase 4
      | none =>
        if d.isMgr || !c.scope.testBit d.pos then { d with scc := { d.scc with cur := none } }
        else if c.voted && c.result == some Rsn.ok then d.selfFence Rsn.commitLost
        else d.commitAbort (c.result.getD Chk.late) d.pos 0

/-- A scope device reports the commit's ID as applied (R701, Table SCC-4). -/
def Dev.takeApplied (d : Dev) (p id : Nat) : Dev :=
  if d.scc.await.testBit p && id == d.num R.SCC_LASTID % 65536 then
    let left := d.scc.await ^^^ 2 ^ p
    let d := { d with scc := { d.scc with await := left } }
    if left = 0 then d.applied else d
  else d

/-! ## Meanings -/

/-- SCC_GO: SCC_CMD written with GO (R684). -/
def execSccGo (port : Port) (s : State) : Host.Outcome State Fault Refusal :=
  .next (s.onDev fun d => d.viaPort port R.SCC_CMD fun d => d.writeSccCmd 1)

/-- SCC_CHECKONLY: SCC_CMD written with CHECKONLY (R718). -/
def execSccCheckonly (port : Port) (s : State) : Host.Outcome State Fault Refusal :=
  .next (s.onDev fun d => d.viaPort port R.SCC_CMD fun d => d.writeSccCmd 2)

/-- SCC_ABORT: SCC_CMD written with ABORT (R702). -/
def execSccAbort (port : Port) (s : State) : Host.Outcome State Fault Refusal :=
  .next (s.onDev fun d => d.viaPort port R.SCC_CMD fun d => d.writeSccCmd 4)

/-- SCC_DISCARD: SCC_CMD written with DISCARD (R682). -/
def execSccDiscard (port : Port) (s : State) : Host.Outcome State Fault Refusal :=
  .next (s.onDev fun d => d.viaPort port R.SCC_CMD fun d => d.writeSccCmd 8)

/-- ST_REGISTER_WRITE: a write of an st register (R18, R686, R883); of an offset without staged bits it changes nothing. -/
def execStRegisterWrite (port : Port) (a : BitVec 20) (w : Word) (s : State) : Host.Outcome State Fault Refusal :=
  .next (s.onDev fun d => d.viaPort port (a.toNat / 4 * 4) fun d =>
    if stMask (a.toNat / 4 * 4) = 0 then d else d.writeStage (a.toNat / 4 * 4) w)

/-- CHECK_COMPLETE. -/
def execCheckComplete (s : State) : Host.Outcome State Fault Refusal := .next (s.onDevR fun m d => d.checkDone m)

/-- COMMIT_MESSAGE: the ID, the milestone and the scope reach a device in scope, with the words of the rings that name it
(R695, Table RNG-7). -/
def execCommitMessage (id : Word) (ms : BitVec 56) (scope : Word) (jr : List (BitVec 20 × Word)) (s : State) :
    Host.Outcome State Fault Refusal :=
  .next (s.onDev fun d =>
    if d.isMgr || !d.pwr.vcore then d else
    let d := d.prepare id.toNat scope.toNat
    match d.scc.cur with
    | some c =>
      if c.id != id.toNat || c.ms != 0 then d else
      let d := { d with scc := { d.scc with cur := some { c with ms := ms.toNat } } }
      jr.foldl (fun d x => let a := x.1.toNat
        if !ringWord a then d else d.setStg a ((d.stg a &&& ~~~(stMask a)) ||| (x.2 &&& stMask a))) d
    | none => d)

/-- COMMIT_DECIDE: the Decide phase of the manager; the tests of R691 on another position's image are told (R697). -/
def execCommitDecide (far : Option (Fin 32 × BitVec 8 × BitVec 16)) (s : State) : Host.Outcome State Fault Refusal :=
  .next (s.onDevR fun m d => d.decideCommit m far)

/-- COMMIT_MILESTONE: the Edge phase of beat M. -/
def execCommitMilestone (s : State) : Host.Outcome State Fault Refusal := .next (s.onDevR fun m d => d.milestone m)

/-- COMMIT_REPORT_TIMEOUT: beat M + L + 1 has passed: each scope device that has not reported the ID is fenced as a whole
(R701); one that is being provisioned takes its image again. -/
def execCommitReportTimeout (s : State) : Host.Outcome State Fault Refusal :=
  .next (s.onDev fun d =>
    if d.scc.await = 0 || decide (d.now ≤ d.scc.awaitBn + 1) || !d.isMgr then d else
    let ps := onesBelow 32 d.scc.await
    let d := if d.scc.awaitProv then { d with wr := { d.wr with prov := ps.foldl (fun (m : SMap Nat) p => mset 0 m p 4) d.wr.prov } } else d
    let d := { d with scc := { d.scc with await := 0 } }
    (ps.foldl (fun d p => d.fenceWorker p Rsn.commitLost) d).applied)

end Sys2Proof.Machine
end

