-- ==== Sys2Proof/Machine/Ring.lean ====
section
/-!
DEFINITION. Sys2Proof/Machine/Ring.lean: the Wilin ring: training of the sides, frames with their binding and status slots, wraps,
lost devices, takeover and handover (15_wilin_ring.md, R721 to R778; 02_beat_and_time.md R57 to R60).
-/
namespace Sys2Proof.Machine
open Sys2Proof

/-! ## Sides and training (Table RNG-4, R739, R740) -/

/-- A ring side. -/
def Dev.side (d : Dev) (s : Nat) : SideSt := mget {} d.wr.side s

/-- Replace a ring side. -/
def Dev.setSide (d : Dev) (s : Nat) (v : SideSt) : Dev := { d with wr := { d.wr with side := mset {} d.wr.side s v } }

/-- A side counts as trained: up, or wrapped because nothing answers there. -/
def SideSt.trained (v : SideSt) : Bool := v.lstate == 4 || v.wrapped

/-- Ring training of a manager-capable device is complete: claim and census follow, or the late join of R134 and R135 where a neighbour
has named a manager that has already sent READY frames. -/
def Dev.trainDone (d : Dev) (us : Nat) : Dev :=
  if d.phase != 5 || d.boot.roleKnown || !((List.range 2).all (fun s => (d.side s).trained)) then d else
  let d := d.phaseDone 5 us
  match d.wr.running with
  | none => d.sendClaim.rankClaims us
  | some (mgr, sys) =>
    let d := { d with wr := { d.wr with mgrPos := mgr } }
    if d.flag F.SUP_ROLE_LEDGER_FORMATTED && d.sysId != sys then
      { d with boot := { d.boot with roleKnown := true, claimOpen := false } }.conflictHold
    else d.becomeReserve mgr us

/-- A position with a fault that the manager reports (R127, R128, R135, R739), with vector 19. -/
def Dev.badPos (d : Dev) (p : Nat) (r : Reason) : Dev :=
  if d.wr.badPos.contains (p, r) then d else { d with wr := { d.wr with badPos := d.wr.badPos ++ [(p, r)] } }.raiseIrq 19

/-- Eight identical IDENT blocks: the neighbour's position, role capability, ledger, incarnation and identity (R739). -/
def Dev.ident (d : Dev) (s us : Nat) (w : BitVec 64) (running : Option (Nat × BitVec 64)) : Dev :=
  let v := d.side s
  if v.lstate != 3 then d else
  let p := w.toNat % 32
  let inc := w.toNat / 2 ^ 8 % 256
  let d := { d with fen := { d.fen with posInc := mset 0 d.fen.posInc p inc }, wr := { d.wr with running := running <|> d.wr.running } }
  if p = d.pos then (d.setSide s { v with nbrPos := p, nbrInc := inc, nbrSeen := true }).badPos p Rsn.posnDuplicate
  else ((d.setSide s { v with nbrPos := p, nbrInc := inc, nbrSeen := true, lstate := 4 }).raiseIrq 19).trainDone us

/-! ## Cuts, wraps and latencies (R33, R738, R756 to R758) -/

/-- The position before another one, clockwise, among those present. -/
def Dev.before (d : Dev) (p : Nat) : Nat :=
  (((List.range 31).map (fun k => (p + 31 - k) % 32)).find? (fun q => q == d.pos || d.wr.present.testBit q)).getD p

/-- The hop that a side ends: named by the position at its lower end clockwise. -/
def Dev.hopOf (d : Dev) (s : Nat) : Nat :=
  if s = 0 then d.pos else if (d.side s).nbrSeen then (d.side s).nbrPos else d.before d.pos

/-- The GLITCH of a trigger input at a position: of this device's register, or of the image that the manager holds; 0 where no image is
held (log entry 150). -/
def Dev.glitchAt (d : Dev) (p n : Nat) : Nat :=
  if p = d.pos then d.fld (F.TRG_CFG_GLITCH n) else
  match d.wr.imgActive.find? (fun (x : Nat × Nat × Word) => x.1 == p && x.2.1 == R.TRG_CFG n) with
  | some x => slice x.2.2 (F.TRG_CFG_GLITCH n).hi (F.TRG_CFG_GLITCH n).lo
  | none => 0

/-- Decide the bound jobs of this executor whose binding latency has risen; `old` gives the latencies before (R33, R433). -/
def Dev.wrapJobs (d : Dev) (old : List Nat) : Dev :=
  let js := d.jobs.filter (fun j => j.st == .bound && j.exec == d.pos && j.closing.isNone && d.fld (F.JR_BIND_TSRC j.ring) != 3)
  let d := js.foldl (fun d j =>
    let tp := d.fld (F.JR_BIND_TRIG_POS j.ring)
    let lat := d.bindLat tp d.pos
    let glitch := if d.fld (F.JR_BIND_TSRC j.ring) = 0 then ceilDiv (d.glitchAt tp (d.fld (F.JR_BIND_TIDX j.ring))) 240 else 0
    let need := j.stamp + (2 + lat + glitch + (d.jobLead j - 1)) * fsPerBeat
    match j.sched with
    | none => d
    | some o =>
      if tp = d.pos ∨ lat ≤ old.getD tp 0 ∨ need ≤ o then d else
      let k := ceilDiv (need - o) fsPerBeat
      if j.limit < j.delay + k then d.endJob j.hm { typ := 6, reason := Rsn.expFenced, bn := d.now }
      else
        let d := d.modJob j.hm (fun j => j.shifted k)
        if j.armed || j.armedDue then d.armDue j.hm else d) d
  if js.isEmpty then d else d.settleConflicts

/-- The hops that are down change: L, the latencies and what depends on them (R33, R383, R758, R835). -/
def Dev.setCuts (d : Dev) (cs : List Nat) : Dev :=
  if cs = d.wr.cut then d else
  let old := (List.range 32).map (fun p => d.bindLat p d.pos)
  let d := ({ d with wr := { d.wr with cut := cs } }.setFlag F.WR_STAT_WRAPPED !cs.isEmpty).showLat
  let d := (d.wrapJobs old).rskewDisturb
  let d := if d.boot.role == .manager then d.raiseIrq 19 else d
  if d.ldg.dual && !d.directLink then d.endDual else d

/-- The clock side is lost: with a stream on the other side the device moves there within 2 beats, how many it takes being free; with
none it freezes its VCO (R734). -/
def Dev.leaveSide (d : Dev) (s : Nat) : Dev :=
  if d.wr.clockSide != s || d.wr.sideChange.isSome then d
  else if (d.side (1 - s)).lstate == 4 then
    let (d, n) := d.draw
    { d with wr := { d.wr with sideChange := some (d.now + (Config.freeWord n).toNat % 3) } }
  else { d with clk := { d.clk with frozen := true } }

/-- The Edge phase at which a change of clock side is complete (R734). -/
def Dev.sideEdge (d : Dev) : Dev :=
  match d.wr.sideChange with
  | some b => if b ≤ d.now then { d with wr := { d.wr with sideChange := none, clockSide := 1 - d.wr.clockSide } } else d
  | none => d

/-- Wrap a side that is up: fence its domain, move the clock side away from it (R734, R757). -/
def Dev.wrapSide (d : Dev) (s : Nat) (r : Reason) : Dev :=
  let v := d.side s
  if v.lstate != 4 then d else
  let d := (d.setSide s { v with lstate := 5, wrapped := true, laneLost := r == Rsn.ringLaneLoss, origin := false }).raiseCause (domSide s) r
  let d := if d.isMgr then d else d.leaveSide s
  let h := d.hopOf s
  (d.setCuts (if d.wr.cut.contains h then d.wr.cut else d.wr.cut ++ [h])).raiseIrq 19

/-- A side unwraps (R755): its fence clears, and the hop is whole again. -/
def Dev.unwrapSide (d : Dev) (s : Nat) : Dev :=
  let v := d.side s
  if !v.wrapped then d else
  let d := (d.setSide s { v with wrapped := false, laneLost := false }).clearCauses (domSide s)
    (fun r => r == Rsn.ringLaneLoss || r == Rsn.ringErrRate)
  d.setCuts (d.wr.cut.filter (· != d.hopOf s))

/-! ## Beat numbers in frames (R51 to R60, R88, Table BEA-3) -/

/-- Apply a beat number; one that the stored ceiling does not cover is covered first (R52, R53). A counter that it starts takes nothing
from its stop any more (R54, R55). -/
def Dev.applyBn (d : Dev) (n : Nat) : Dev :=
  let start := !d.t.running
  let t := { d.t with bn := BitVec.ofNat 56 n, last := n, lastUsed := n, running := true, regress := false,
                      stopTicks := if start then 0 else d.t.stopTicks }
  let d := { d with t := t, boot := { d.boot with bkpRanOut := d.boot.bkpRanOut && !start } }
  if start && d.flag F.LDG_STAT_MOUNTED && decide (d.t.ceil < n + 2 ^ 19) then d.sealRec { typ := 0x30, bn := n + 2 ^ 20 } else d

/-- The counter may start from a frame: the ledger, which covers the number, is mounted (R53). -/
def Dev.mayCount (d : Dev) : Bool := d.t.running || d.flag F.LDG_STAT_MOUNTED

/-- Count and report a frame whose beat number is too low (R58, R60). -/
def Dev.regressed (d : Dev) : Dev :=
  (({ d with t := { d.t with regress := true } }.addSat F.BT_REGRESS_CNT_FRAMES 1).setFlag F.BT_STAT_REGRESS true).raiseIrq 21

/-- Go back to sub-phase 0xB of READY-WAIT to be provisioned again. -/
def Dev.unprovision (d : Dev) : Dev :=
  if !d.boot.provisioned then d else
  (({ d with boot := { d.boot with provisioned := false } }.setFld F.PWR_STAT_STATE 5).setPhase 11).declareSelf

/-- What a device does with the beat number of a valid frame; false where it refuses the frame. A reserve keeps its own count, and
refuses a frame below it; it only starts its count from a frame, and not below the last number that it used (R51, R57, the text after R60;
DEDUCED: log entry 85). -/
def Dev.seeBn (d : Dev) (n : Nat) : Dev × Bool :=
  if d.isMgr then (d, true)
  else if d.boot.role != .worker then
    let low := if d.t.running then d.now else if d.flag F.SUP_ROLE_LEDGER_FORMATTED then d.t.lastUsed else 0
    if n < low then (d.regressed, false) else (if d.t.running || !d.mayCount then d else d.applyBn n, true)
  else if !d.mayCount then (d, true)
  else if n < d.t.last then
    let d := d.regressed
    (if (d.dom 0).causes.contains Rsn.timeRegress then d else d.selfFence Rsn.timeRegress, false)
  else if n ≤ d.t.last + 64 then
    let d := if d.t.last + 1 < n then d.setFlag F.BT_STAT_FWD_STEP true else d
    (if n = d.t.last then d else d.applyBn n, true)
  else ((((d.setFlag F.BT_STAT_LEAP true).raiseAll (timingDoms.map (fun k => (k, Rsn.bnLeap)))).unprovision), false)

/-! ## The header (Table RNG-3) -/

/-- The commit fields (R695, R699, R703). -/
def Dev.headCommit (d : Dev) (h1 h2 : Nat) : Dev :=
  let id := h2 % 2 ^ 32
  match h2 / 2 ^ 32 % 4 with
  | 1 => d.prepare id (h1 % 2 ^ 32)
  | 2 => d.takeDecision id true 0 0
  | 3 => d.takeDecision id false (BitVec.ofNat 16 (h2 / 2 ^ 34)) (h2 / 2 ^ 50 % 32)
  | _ => d

/-- The next beat whose low 19 bits match. -/
def Dev.nextBeat19 (d : Dev) (low : Nat) : Nat := d.now + (low + 2 ^ 19 - d.now % 2 ^ 19) % 2 ^ 19

/-- The neighbour of an isolated device transmits idle on the dark side that faces it, when the header carries a READY command for that
position: the side trains as from DARK (R762). A device in PARK keeps its side dark (R778). -/
def Dev.wakeSide (d : Dev) (h : Nat) : Dev :=
  let tgt := h / 2 ^ 38 % 64
  if !h.testBit 32 || h.testBit 44 || h / 2 ^ 33 % 8 != 2 || !d.pwr.vcore then d else
  (List.range 2).foldl (fun d s =>
    let v := d.side s
    if v.wrapped && v.lstate == 5 && v.nbrSeen && (tgt == 63 || tgt == v.nbrPos) then
      (d.setSide s { v with lstate := 1 }).emit (.wake s)
    else d) d

/-- The header of an accepted frame: holdover flag, reserve, power command, commit, unwrap, wraps in force. -/
def Dev.header (d : Dev) (h0 h1 h2 : Nat) (cuts : List Nat) : Dev :=
  let d := if h0.testBit 56 then d.holdoverOn d.now else d.holdoverOff
  let res := h0 / 2 ^ 59 % 32
  let d := { d with wr := { d.wr with resPos := if res = 31 then none else some res } }
  let d := ((d.pwrHeaderIn h1).wakeSide h1).headCommit h1 h2
  let d := if h2.testBit 60 then
      { d with wr := { d.wr with unwrap := some (h2 / 2 ^ 55 % 32, d.nextBeat19 (h1 / 2 ^ 45 % 2 ^ 19)) } } else d
  d.setCuts cuts

/-! ## Binding slots (R29, R47, R442, R443, R741 to R744) -/

/-- A message's incarnation differs from the one recorded for its sender: it is counted, and has no effect (R798). -/
def Dev.stale (d : Dev) (p inc : Nat) : Bool := let i := mget 0 d.fen.posInc p; i != 0 && i != inc

/-- Count a stale message. -/
def Dev.countStale (d : Dev) : Dev := d.addSat F.FEN_STALECNT_MESSAGES 1

/-- The word of a binding slot (R741). -/
def slotWord (c : Capture) (exec ring inc : Nat) : Nat :=
  1 + beatOf c.stamp % 256 * 2 + c.stamp / fsPerCycle % cyclesPerBeat * 2 ^ 9 + c.stamp % fsPerCycle * 2 ^ 17 + c.pos * 2 ^ 28 +
  c.tsrc * 2 ^ 33 + c.tidx * 2 ^ 35 + exec * 2 ^ 41 + ring * 2 ^ 46 + inc * 2 ^ 55

/-- Take a binding slot for this executor: the first copy is held for every ring that names the source, the other discarded. A capture
of a beat before this device last came to bind is spent (R148, R176, R220). -/
def Dev.bindSlot (d : Dev) (w : Nat) : Dev :=
  let f := fun lo n : Nat => w / 2 ^ lo % 2 ^ n
  let p := f 28 5
  let inc := f 55 8
  if f 0 1 = 0 ∨ f 41 5 ≠ d.pos then d
  else if d.stale p inc then d.countStale
  else
    let b := d.now - (d.now + 256 - f 1 8) % 256
    let stamp := instant b (f 9 8) (f 17 11)
    let tsrc := f 33 2
    let tidx := f 35 6
    let key := (p, inc, tsrc, tidx, stamp)
    if d.trg.seen.contains key then d else
    let rs := (List.range 512).filter (fun j => d.flag (F.JR_BIND_VALID j) && d.fld (F.JR_BIND_TSRC j) == tsrc &&
      d.fld (F.JR_BIND_TIDX j) == tidx && d.fld (F.JR_BIND_TRIG_POS j) == p && d.fld (F.JR_BIND_EXEC_POS j) == d.pos)
    let c : Capture := { tsrc := tsrc, tidx := tidx, stamp := stamp, bn := b, pos := p, rings := rs }
    let old := d.trg.seen.filter (fun (x : Nat × Nat × Nat × Nat × Nat) => decide (d.now < beatOf x.2.2.2.2 + 512))
    { d with trg := { d.trg with seen := old ++ [key], caps := if rs.isEmpty || !d.mayBind || decide (b < d.pwr.bindBn) then d.trg.caps else d.trg.caps ++ [c] } }

/-! ## Status slots and report items (Tables RNG-5 and RNG-6, R382, R408, R744 to R747) -/

/-- The job that a tag names at a position. -/
def Dev.tagJob (d : Dev) (p tag : Nat) : Option Nat := (d.wr.tags.find? (fun t => t.1 == tag && t.2.1 == p)).map (fun t => t.2.2)

/-- The full reason of an item: its class follows from KIND (Table RNG-6). A power result is OK, BKP_LOW or a REF_ code. -/
def itemReason (kind detail : Nat) : Reason :=
  let top := match kind with
    | 3 => 0
    | 5 => 0x2000
    | 8 => if detail = 0 then 0 else if detail = 8 then 0xA000 else 0x1000
    | _ => 0x3000
  BitVec.ofNat 16 (top + detail)

/-- An outcome reported for a job (R382, R408, R747, R788): it is the job's outcome unless one stands already. -/
def Dev.itemOutcome (d : Dev) (p hm kind detail evt : Nat) (more : Bool) : Dev :=
  match d.job? hm with
  | none => d
  | some j =>
    if j.out.isSome then d.addSat F.LDG_REPLAY_LATE 1 else
    let r := itemReason kind detail
    let r' := if j.closing.isSome && r == Rsn.expHostCancel then Rsn.expFenced else r
    let tag := ((d.wr.tags.find? (fun t => t.2.2 == hm)).map (fun t => t.1)).getD 0
    let early := d.wr.details.find? (fun x => x.1 == p && x.2.1 == tag)
    let o : Outcome := { typ := kind + 1, reason := r', bn := evt, d0 := (early.map (fun x => x.2.2.1)).getD 0,
                         d1 := (early.map (fun x => x.2.2.2)).getD 0 }
    let d := d.modJob hm (fun j => { j with st := stOfTyp o.typ, out := some o, armed := true, outSealed := true, reported := true,
                                            closing := none })
    let d := { d with wr := { d.wr with details := d.wr.details.filter (fun x => !(x.1 == p && x.2.1 == tag)),
                                        needDetail := if more && early.isNone then d.wr.needDetail ++ [hm] else d.wr.needDetail } }
    d.cancelAnswer hm r

/-- One report item on the manager. -/
def Dev.item (d : Dev) (p : Nat) (w : Word) (evt : Nat) : Dev :=
  let kind := slice w 3 0
  let tag := slice w 15 4
  let det := slice w 27 16
  match kind with
  | 0 => d
  | 7 =>
    let d := d.addSat (F.TRG_RUNCL_UNCLAIMED tag) det
    if d.trg.unclRun.contains tag then d
    else ({ d with trg := { d.trg with unclRun := tag :: d.trg.unclRun } }.setReg R.TRG_EVT (putBit (d.reg R.TRG_EVT) 16 true)).raiseIrq 26
  | 8 => d.pwrSeen p (itemReason 8 det)
  | _ => match d.tagJob p tag with
    | none => d
    | some hm =>
      if kind = 1 then d.modJob hm (fun j => if j.st == .accepted then { j with st := .dispatched, dispBn := d.now - (d.now + 4096 - det) % 4096 } else j)
      else if kind = 2 then
        match d.job? hm with
        | some j => if j.out.isSome || j.active then d else
          { d.modJob hm (fun j => { j with st := .bound }) with trg := { d.trg with unclRun := d.trg.unclRun.filter (· != j.ring) } }
        | none => d
      else if kind ≤ 6 then d.itemOutcome p hm kind det evt (bitOf w 28)
      else d

/-- The first copy of an item acts, the second does not (R747). Items that name no job are told apart by the frame's beat. -/
def Dev.itemOnce (d : Dev) (p inc bn : Nat) (x : Word × BitVec 56) : Dev :=
  let kind := slice x.1 3 0
  if kind = 0 then d else
  let key : Nat × Nat × Nat := (p, inc, x.1.toNat + (if 7 ≤ kind then 2 ^ 32 * bn else 0))
  if d.wr.seenItems.contains key then d else
  let live := d.wr.seenItems.filter (fun (y : Nat × Nat × Nat) =>
    if y.2.2 < 2 ^ 32 ∧ y.2.2 % 16 < 7 then (d.tagJob y.1 (y.2.2 / 16 % 4096)).isSome else decide (bn < y.2.2 / 2 ^ 32 + 64))
  { d with wr := { d.wr with seenItems := live ++ [key] } }.item p x.1 x.2.toNat

/-- A manager-capable device has declared itself, or is the reserve, at a position: it is no strapped worker (R126). -/
def Dev.capableAt (d : Dev) (p : Nat) : Bool := d.wr.capPos.testBit p || d.wr.resPos == some p

/-- The status of a position on the manager: power state and BRACE (R162), vote and applied commit (R697, R701), requests and credit
(R749, R752), the reserve's seals and state (R164, R384), a hold at ROLE_CONFLICT (R135), and the report items. `again` says that the slot
of this beat has arrived from the other direction: what it counts is not counted twice (DEDUCED: log entry 23). -/
def Dev.slotMgr (d : Dev) (p s0 bn : Nat) (again : Bool) (items : List (Word × BitVec 56)) : Dev :=
  let inc := s0 / 2 ^ 56
  if d.stale p inc then d.countStale else
  let st := s0 % 16
  let was := d.wstate p
  let d := d.setReg (R.PWR_WSTATE (p / 8)) (setSlice (d.reg (R.PWR_WSTATE (p / 8))) (4 * (p % 8) + 3) (4 * (p % 8)) st)
  let d := if was != st then d.raiseIrq 17 else d
  let d := d.setReg R.PWR_WBRACE (putBit (d.reg R.PWR_WBRACE) p (s0.testBit 8))
  let d := if again then d else
    { d with wr := { d.wr with credit := mset 256 d.wr.credit p (min 256 (mget 256 d.wr.credit p + s0 / 2 ^ 48 % 256)) } }
  let d := if s0.testBit 31 then { d with wr := { d.wr with bulkReq := d.wr.bulkReq ||| 2 ^ p } } else d
  let d := if s0 / 2 ^ 4 % 16 = 15 ∧ s0.testBit 10 = false ∧ d.capableAt p then d.badPos p Rsn.roleConflict else d
  let d := (d.takeVote p (s0 / 2 ^ 16 % 4) (s0 / 2 ^ 18 % 4096)).takeApplied p (s0 / 2 ^ 32 % 2 ^ 16)
  let d := if d.wr.resPos = some p then
      let d := if again || s0 / 2 ^ 12 % 8 == 0 then d else d.mirrorAck (s0 / 2 ^ 12 % 8)
      if st != 3 && st != 4 then d
      else if d.ldg.dual then d.endDual
      else { d with ldg := { d.ldg with catchup := false, toMirror := [], mirror := [] } }.setFlag F.LDG_STAT_CATCHUP false
    else d
  items.foldl (fun d x => d.itemOnce p inc bn x) d

/-- The status slots of one frame. -/
def Dev.slotIn (d : Dev) (bn : Nat) (x : SlotIn) : Dev :=
  let p := x.pos.val
  let s0 := x.s0.toNat
  if s0 = 0 ∨ p = d.pos then d else
  let again := d.wr.present.testBit p && mget 0 d.wr.statusBn p == bn
  let wr := { d.wr with present := d.wr.present ||| 2 ^ p, missing := mset 0 d.wr.missing p 0, statusBn := mset 0 d.wr.statusBn p bn, heard := d.wr.heard ||| 2 ^ p,
                        lastStatus := mset 0 d.wr.lastStatus p s0 }
  let d : Dev := { d with wr := wr }
  if d.boot.role == .manager then d.slotMgr p s0 bn again x.items else d

/-- TERM records that the manager has sealed: the executor holds their jobs and outcomes no longer (R413, Table LDG-4). -/
def Dev.confirmed (d : Dev) (ring hm : Nat) : Dev :=
  let conf := mset 0 d.ldg.confirmed ring (max (mget 0 d.ldg.confirmed ring) hm)
  let js := d.jobs.filter (fun j => !(j.ring == ring && j.exec == d.pos && decide (j.hm ≤ hm) && j.out.isSome && !d.execBusy j))
  { d with ldg := { d.ldg with confirmed := conf }, jobs := if d.isMgr then d.jobs else js }

/-! ## Frames (R730 to R734, R761, R771, R772) -/

/-- A change of origin shifts every delay by the new origin's, so that no beat boundary moves (R766). -/
def Dev.shiftOrigin (d : Dev) (o : Nat) : Dev :=
  let t := (d.num R.WR_LOOP : Int)
  if t = 0 then d else
  let a := d.wr.offTab.getD (2 * o) 0
  let b := d.wr.offTab.getD (2 * o + 1) 0
  d.putOffsets ((List.range 32).flatMap (fun p =>
    if p = o then [0, 0] else [(d.wr.offTab.getD (2 * p) 0 - a) % t, (d.wr.offTab.getD (2 * p + 1) 0 - b) % t]))

/-- A new origin: its offsets, and what an executor re-sends to the new manager (R413, R731, R766). -/
def Dev.newOrigin (d : Dev) (o : Nat) : Dev :=
  let first := !d.wr.mgrKnown
  let same := d.wr.mgrPos == o
  let d := { d with wr := { d.wr with mgrPos := o, mgrKnown := true } }
  if first || same then d else (d.shiftOrigin o).declareSelf

/-- The origin of a frame is the active manager, or may become it: the first that the device hears, or the reserve it knows (R731;
DEDUCED for the reserve from R763 and R767). -/
def Dev.originOk (d : Dev) (o : Nat) : Bool :=
  if d.isMgr then o == d.pos else !d.wr.mgrKnown || o == d.wr.mgrPos || d.wr.resPos == some o

/-- Count a frame in error on a side (R730, R731); more than ERRTHR with a bad CRC in the window are an error-rate breach (R756). -/
def Dev.frameErr (d : Dev) (s : Nat) (crc : Bool) : Dev :=
  let d := d.addSat (F.WR_ERRCNT_CRC s) 1
  let v := d.side s
  let n := v.errWin + (if crc then 1 else 0)
  let d := d.setSide s { v with errWin := n }
  if d.fld F.WR_CTRL_ERRTHR < n then d.wrapSide s Rsn.ringErrRate else d

/-! ## Forwarding and the bulk channel (R25, R36, R729, R743, R744, R748 to R752) -/

/-- The executor clears VALID in each copy that it reads (R744). -/
def Dev.readSlot (d : Dev) (w : Nat) : Nat := if w % 2 = 1 ∧ w / 2 ^ 41 % 32 = d.pos then w - 1 else w

/-- The word that a waiting capture puts into a binding slot: with the lowest ring on its executor that names the source (R741). -/
def Dev.slotOf (d : Dev) (x : RemoteCap) : Nat :=
  let c := x.cap
  let ring := ((List.range 512).find? (fun j => d.flag (F.JR_BIND_VALID j) && d.fld (F.JR_BIND_TSRC j) == c.tsrc &&
    d.fld (F.JR_BIND_TIDX j) == c.tidx && d.fld (F.JR_BIND_TRIG_POS j) == d.pos && d.fld (F.JR_BIND_EXEC_POS j) == x.exec)).getD 0
  slotWord c x.exec ring d.mram.wdinc

/-- Put words into the slots with VALID = 0, first to first. -/
def putSlots : List Nat → List Nat → List Nat
  | [], _ => []
  | w :: r, ins => match ins with
    | [] => w :: r
    | x :: xs => if w % 2 = 0 then x :: putSlots r xs else w :: putSlots r ins

/-- Fill the free slots of a frame of a direction with the captures that wait for it, in stamp order; one that the frame leaves behind
is counted in WR_BSWAIT once for the direction (R743; DEDUCED: log entry 151). -/
def Dev.fillSlots (d : Dev) (dir : Nat) (slots : List Nat) : Dev × List Nat :=
  let q := (d.trg.remote.filter (fun x => x.dir == dir)).mergeSort (fun a b => decide (a.cap.stamp ≤ b.cap.stamp))
  let free := (slots.filter (fun w => w % 2 == 0)).length
  let late := (q.drop free).filter (fun x => !x.waited)
  let rest := (q.drop free).map (fun x => { x with waited := true })
  let d' := { d with trg := { d.trg with remote := d.trg.remote.filter (fun (x : RemoteCap) => x.dir != dir) ++ rest } }
  (d'.addSat F.WR_BSWAIT_CAPTURES late.length, putSlots slots ((q.take free).map d.slotOf))

/-- The sides on which a frame that came in on a side goes on: the other one, or back where that one is wrapped; a wrapped side that
faces a trained link gets it too, and what comes in from there does not enter the ring (R754, R757). -/
def Dev.sidesOut (d : Dev) (s : Nat) : List Nat :=
  let o := d.side (1 - s)
  if (d.side s).wrapped then [] else if !o.wrapped then [1 - s] else if o.lstate = 4 then [s, 1 - s] else [s]

/-- Forward a frame (R729). A device whose beat counter does not run writes its status slot here; its S1 is empty (R108, R761). -/
def Dev.forward (d : Dev) (s : Nat) (poison : Bool) (binds : List Nat) : Dev :=
  let d := if d.t.running || poison then d else d.emit (.status d.pos d.statusSlot [])
  (d.sidesOut s).foldl (fun d o => d.emit (.forward o poison binds)) d

/-- The place of a kind in the manager's order: MIRROR; DISPATCH and CANCEL; COMMIT and CALSET; REG; PROV and LOAD (R750); any other kind
comes last (DESIGN CHOICE: log entry 23). -/
def bulkRank (k : Nat) : Nat :=
  if k = 0 then 0 else if k ≤ 2 then 1 else if k ≤ 4 then 2 else if k = 6 then 3 else if k ≤ 8 ∧ k ≠ 5 then 4 else 5

/-- The direction of a message: the faster live one to its destination (R750). One to all goes CW, or both ways while a hop is cut
(DESIGN CHOICE: log entry 23). -/
def Dev.bulkSide (d : Dev) (x : BulkMsg) : Nat :=
  if x.dst < 32 then d.wayTo d.pos x.dst else if d.wr.cut.isEmpty then 0 else 2

/-- Give a message as many blocks as the area of its direction has left, and, for a credited kind of the manager's, as its
destination's credit holds (R752); it leaves with its last block. -/
def bulkStep (side : BulkMsg → Nat) (a : Dev × Nat × Nat) (x : BulkMsg) : Dev × Nat × Nat :=
  let d := a.1
  let k := side x
  let room := if k = 0 then a.2.1 else if k = 1 then a.2.2 else min a.2.1 a.2.2
  let owed := d.boot.role == .manager && decide (6 ≤ x.kind) && decide (x.kind ≤ 8) && decide (x.dst < 32)
  let n := min x.left (if owed then min room (mget 256 d.wr.credit x.dst) else room)
  let credit := if owed then mset 256 d.wr.credit x.dst (mget 256 d.wr.credit x.dst - n) else d.wr.credit
  let d := { d with wr := { d.wr with credit := credit, bulk := if n = x.left then d.wr.bulk else d.wr.bulk ++ [{ x with left := x.left - n }] } }
  (if n = x.left then d.emit (.ring k x.dst x.kind x.words) else d, if k = 1 then a.2.1 else a.2.1 - n, if k = 0 then a.2.2 else a.2.2 - n)

/-- The manager fills the bulk areas of its two frames, 29 blocks each less the blocks granted (R749, R750). -/
def Dev.bulkOut (d : Dev) (granted : Nat) : Dev :=
  let q := d.wr.bulk.mergeSort (fun x y => decide (bulkRank x.kind ≤ bulkRank y.kind))
  (q.foldl (bulkStep d.bulkSide) ({ d with wr := { d.wr with bulk := [] } }, 29 - granted, 29 - granted)).1

/-- The grant of a frame: the next requester in turn, and up to 15 blocks, as far as the MIRROR messages that wait leave them (R749). -/
def Dev.nextGrant (d : Dev) : Option (Nat × Nat) :=
  let used := ((d.wr.bulk.filter (fun x => x.kind == 0)).map BulkMsg.left).foldl (· + ·) 0
  let n := min 15 (29 - used)
  if n = 0 then none else
  (((List.range 32).map (fun k => (d.wr.grantTurn + 1 + k) % 32)).find? (fun p => d.wr.bulkReq.testBit p)).map (fun p => (p, n))

/-- A frame that came in on a side grants this device blocks: its messages leave in them, in order (R749). -/
def Dev.bulkGrant (d : Dev) (s ctl : Nat) : Dev :=
  if ctl % 32 != d.pos || !ctl.testBit 5 then d else
  let n := ctl / 2 ^ 6 % 32
  let o := (d.sidesOut s).headD (1 - s)
  (d.wr.bulk.foldl (bulkStep (fun _ => o)) ({ d with wr := { d.wr with bulk := [] } }, n, n)).1

/-- The device acts on an accepted frame. A frame refused for its beat number changes nothing else, nor does it make its origin the
known manager (R58, R88: the device refuses the frame). Fences with RING_ORPHAN clear (DEDUCED: the spec names no other end for them). -/
def Dev.frameAct (d : Dev) (s : Nat) (f : FrameIn) : Dev :=
  let r := d.seeBn (f.h0.toNat % 2 ^ 56)
  if !r.2 then r.1 else
  let d := if d.isMgr then r.1 else r.1.newOrigin f.origin.val
  let v := d.side s
  let d := d.setSide s { v with origin := true }
  let d := if d.isMgr || d.wr.clockSide == s || (d.side d.wr.clockSide).lstate == 4 then d else d.leaveSide d.wr.clockSide
  let d := { d with wr := { d.wr with noOrigin := 0, noOwn := 0 }, clk := { d.clk with frozen := false } }
  let d := timingDoms.foldl (fun d k => d.clearCauses k (fun c => c == Rsn.ringOrphan)) d
  let d := if d.isMgr then d.setCuts (f.cuts.map Fin.val) else d.header f.h0.toNat f.h1.toNat f.h2.toNat (f.cuts.map Fin.val)
  let d := f.binds.foldl (fun d w => d.bindSlot w.toNat) d
  let d := f.slots.foldl (fun d x => d.slotIn (f.h0.toNat % 2 ^ 56) x) d
  let d := f.confirmed.foldl (fun d c => d.confirmed c.1.val c.2.toNat) d
  let d := if d.boot.role == .manager then d.handoverAsk else d.bulkGrant s f.bulk.toNat
  if d.boot.capable && d.boot.roleKnown && d.boot.role == .reserve && !d.boot.conflict && d.phase == 6 then d.becomeReserve f.origin.val f.us else d

/-- A frame arrives on a side, and goes on where the device is not its origin (R729, R730, R754, R757). A VOID frame is not forwarded:
each device sends its own (R732). One of an unknown origin is discarded (R731). In PARK the device retimes both directions, writes no
binding slot, and of the header only the power command acts (R157, R761). -/
def Dev.frameIn (d : Dev) (s : Nat) (f : FrameIn) : Dev :=
  let fwd := fun (d : Dev) (poison : Bool) (binds : List Nat) => if d.isMgr then d else d.forward s poison binds
  let raw := f.binds.map BitVec.toNat
  if !d.linked then d
  else if !f.crcOk then fwd (d.frameErr s true) true raw
  else if f.poison then fwd (d.addSat (F.WR_POISON_POISONED s) 1) true raw
  else if f.void then { d with wr := { d.wr with voidBn := some d.now } }
  else if !d.originOk f.origin.val then (if d.pwr.vcore then d.frameErr s false else d)
  else if !d.pwr.vcore then fwd (d.pwrHeaderIn f.h1.toNat) false raw
  else
    let d := d.frameAct s f
    if d.isMgr then d else
    let r := d.fillSlots (s) (raw.map d.readSlot)
    fwd r.1 false r.2

/-! ## Takeover and handover (R57, R211, R293, R323, R363, R412, R413, R763 to R767, R922) -/

/-- The record of a role change (Table LDG-3). -/
def Dev.roleRec (d : Dev) (role : Nat) : Dev :=
  d.dueRec 5 [{ typ := 0x35, bn := d.now, byteA := role, w5 := d.sysId.toNat % 2 ^ 32, w6 := d.sysId.toNat / 2 ^ 32 }]

/-- Every record that this ledger holds and a host may not have acknowledged is owed to its ring again (R286, R363). -/
def Dev.oweAll (d : Dev) : Dev :=
  let d := { d with hst := { d.hst with owed := [] } }
  d.mram.log.foldl (fun d s =>
    let r := s.body
    match r.typ with
    | 0x10 => d.owe s.lpos r (entryWords r.w5 r.hm r.ring 1 Rsn.ok (r.w6 % 2 ^ 16) r.bn 0 0)
    | 0x11 => match d.acceptOf r.hm with
      | some a => d.owe s.lpos r (entryWords a.w5 r.hm r.ring r.byteA (BitVec.ofNat 16 r.w5) (a.w6 % 2 ^ 16) r.bn r.w6 (r.w5 / 2 ^ 16))
      | none => d
    | _ => d) d

/-- The reserve becomes the active manager: its jobs of other positions wait for their executors' reports, with the bodies it holds; a
commit in progress goes on with a decision it holds, and aborts without one. -/
def Dev.takeCharge (d : Dev) : Dev :=
  let old := d.wr.mgrPos
  let d := { d.setRole .manager with jobs := d.jobs.map (fun (j : Job) => if j.exec = d.pos then j else { j with sent := true }) }
  let own := (d.jobs.filter (fun j => j.exec == d.pos)).map (fun j => (j.hm, j.active))
  let wr := { d.wr with mgrPos := d.pos, resPos := none, handover := none, noOrigin := 0, noOwn := 0, tags := [],
                        present := d.wr.present ||| 2 ^ old }
  let d := { d with wr := wr, boot := { d.boot with readySent := true }, hst := { d.hst with held := true },
                    ldg := { d.ldg with declared := [d.pos], decide_ := [(d.pos, own)], toMirror := [], mirror := [] } }
  let d := (d.shiftOrigin d.pos).roleRec 1
  let d := d.oweAll.sealRec { typ := 0x30, bn := d.now + 2 ^ 20 }
  let d := { (d.setSpll 5).setFlag F.CLK_STAT_LOCKED false with clk := { d.clk with lockRef := true } }.holdoverOff
  let d := match d.scc.cur with
    | none => d
    | some c => if c.decision = some Rsn.ok then d.cmtHeader c 2 Rsn.ok 0 else d.commitAbort Chk.takeover d.pos 0
  d.raiseIrq 19

/-- The active manager becomes reserve at a handover; its host port takes no work (Table SCP-2). -/
def Dev.yieldTo (d : Dev) (p : Nat) : Dev :=
  let d := d.setRole .reserve
  let d := { d with wr := { d.wr with mgrPos := p, resPos := some d.pos, handover := none, mgrKnown := true },
                    ldg := { d.ldg with toMirror := [], mirror := [] } }
  ((d.shiftOrigin p).roleRec 2).raiseIrq 19

/-! ## Meanings -/

/-- SIGNAL_DETECTED: a side in DARK, or wrapped and dark, starts training in LOCK (Table RNG-4, R754, R762). A device in PARK keeps its
dark sides dark (R778). -/
def execSignalDetected (side : Fin 2) (s : State) : Host.Outcome State Fault Refusal :=
  .next (s.onDev fun d =>
    let v := d.side side.val
    if d.linked && d.pwr.vcore && (v.lstate == 0 || v.lstate == 5) then d.setSide side.val { v with lstate := 1 } else d)

/-- RING_SIDE_LOCK: LOCK to ALIGN; a worker that waits for a clock has one (R123, R740). -/
def execRingSideLock (side : Fin 2) (s : State) : Host.Outcome State Fault Refusal :=
  .next (s.onDev fun d =>
    let v := d.side side.val
    if !d.linked || v.lstate != 1 then d else
    let d := d.setSide side.val { v with lstate := 2 }
    if d.boot.role == .worker && d.pwr.vcore && d.phase == 9 then
      { d with wr := { d.wr with clockSide := side.val } }.phaseDone 9 0 else d)

/-- RING_SIDE_ALIGN: ALIGN to PEER (R740). -/
def execRingSideAlign (side : Fin 2) (s : State) : Host.Outcome State Fault Refusal :=
  .next (s.onDev fun d =>
    let v := d.side side.val
    if d.linked && v.lstate == 2 then d.setSide side.val { v with lstate := 3 } else d)

/-- RING_IDENT: PEER to UP, or a hold at POSN_DUPLICATE; the end of ring training (R115, R116, R134, R135, R739, R754, R923). -/
def execRingIdent (us : Nat) (side : Fin 2) (ident : BitVec 64) (running : Option (Fin 32 × BitVec 64)) (s : State) :
    Host.Outcome State Fault Refusal :=
  .next (s.onDev fun d => if d.linked then d.ident side.val us ident (running.map (fun x => (x.1.val, x.2))) else d)

/-- RING_TRAINING_TIMEOUT: the attempt returns to LOCK and is retried without limit (R740). A side that nothing answers counts as wrapped
once the other is up: the device wraps the ring around a dead neighbour, and training is complete (DEDUCED from R141 and R740). -/
def execRingTrainingTimeout (us : Nat) (side : Fin 2) (s : State) : Host.Outcome State Fault Refusal :=
  .next (s.onDev fun d =>
    let v := d.side side.val
    if !d.linked || !(decide (1 ≤ v.lstate) && decide (v.lstate ≤ 3)) then d else
    let dead := !v.wrapped && (d.side (1 - side.val)).lstate == 4
    let d := d.setSide side.val { v with lstate := 1, wrapped := v.wrapped || dead }
    let h := d.hopOf side.val
    (if dead && !d.wr.cut.contains h then d.setCuts (d.wr.cut ++ [h]) else d).trainDone us)

/-- RING_FRAME_RECEIVE. -/
def execRingFrameReceive (side : Fin 2) (f : FrameIn) (s : State) : Host.Outcome State Fault Refusal :=
  .next (s.onDev fun d => d.frameIn side.val f)

/-- VOID_FRAME_SEND: a VOID frame with the device's own beat number leaves on the side; the clock side carries no origin frame then,
and the VCO is frozen (R732, R734). -/
def execVoidFrameSend (side : Fin 2) (s : State) : Host.Outcome State Fault Refusal :=
  .next (s.onDev fun d =>
    if !d.linked || d.isMgr || !d.pwr.vcore then d else
    let d := if d.wr.clockSide = 1 - side.val then { d with clk := { d.clk with frozen := true } } else d
    d.emit (.void side.val d.now))

/-- RING_LANE_LOSS: the side wraps and is fenced (R756, R757, R764). -/
def execRingLaneLoss (side : Fin 2) (s : State) : Host.Outcome State Fault Refusal :=
  .next (s.onDev fun d =>
    if !d.linked then d else
    let d := d.wrapSide side.val Rsn.ringLaneLoss
    if d.boot.role == .reserve && (List.range 2).all (fun k => (d.side k).lstate != 4) then (d.hstErr 0 Rsn.ringIsolated).raiseIrq 19 else d)

/-- RING_PEER_LOST_TIMEOUT: the status slots of a position have been missing for LOSTTMO beats; `babble` says that wraps for
error-rate breaches at both neighbours cut it off (R759, R809). -/
def execRingPeerLostTimeout (pos : Fin 32) (babble : Bool) (s : State) : Host.Outcome State Fault Refusal :=
  .next (s.onDev fun d =>
    let p := pos.val
    if d.boot.role != .manager || p == d.pos || !d.wr.present.testBit p || decide (mget 0 d.wr.missing p < d.fld F.WR_CTRL_LOSTTMO) then d else
    let d := d.fenceWorker p (if babble then Rsn.ringBabble else Rsn.ringPeerLost)
    let ser := d.serialAt p
    let d := if babble then { d with fen := { d.fen with babble := mset 0 d.fen.babble p ser } } else d
    { d with wr := { d.wr with present := d.wr.present ^^^ 2 ^ p, missing := mset 0 d.wr.missing p 0 } })

/-- RING_ORPHAN: 16 beats without a frame of an origin (R760). -/
def execRingOrphan (s : State) : Host.Outcome State Fault Refusal :=
  .next (s.onDev fun d =>
    if d.isMgr || !d.linked || !d.pwr.vcore || decide (d.wr.noOrigin < 16) then d
    else d.raiseAll (timingDoms.map (fun k => (k, Rsn.ringOrphan))))

/-- TAKEOVER: the reserve has missed the manager's frames of two beats while a side carried VOID frames (R763). -/
def execTakeover (s : State) : Host.Outcome State Fault Refusal :=
  .next (s.onDev fun d =>
    let heard := match d.wr.voidBn with
      | some b => decide (d.now ≤ b + 2)
      | none => false
    if d.boot.role == .reserve && d.boot.roleKnown && !d.boot.conflict && d.pwr.vcore && decide (2 ≤ d.wr.noOrigin) && heard then
      let d := d.endDual
      { d with ldg := { d.ldg with dual := false, catchup := false } }.takeCharge
    else d)

/-- MANAGER_ISOLATED: the manager has missed its own frames of two beats (R765). -/
def execManagerIsolated (s : State) : Host.Outcome State Fault Refusal :=
  .next (s.onDev fun d =>
    if d.boot.role != .manager || !d.pwr.vcore || d.wr.isolated || decide (d.wr.noOwn < 2) then d else
    let d := { d with wr := { d.wr with stopped := true, isolated := true } }
    (d.raiseAll (timingDoms.map (fun k => (k, Rsn.ringIsolated)))).raiseIrq 19)

/-- WR_HANDOVER: WR_CMD written with HANDOVER; the handover beat is WR_HBN (R767, R869). -/
def execWrHandover (port : Port) (s : State) : Host.Outcome State Fault Refusal :=
  .next (s.onDev fun d => d.viaPort port R.WR_CMD fun d => d.handoverAt (d.num2 R.WR_HBN_LO R.WR_HBN_HI % 2 ^ 56))

/-- HANDOVER_BEAT: at beat H the reserve originates, and dual seal goes on (R767). -/
def execHandoverBeat (s : State) : Host.Outcome State Fault Refusal :=
  .next (s.onDev fun d =>
    match d.wr.handover with
    | none => d
    | some h =>
      if d.now < h then d
      else if d.boot.role == .manager then (match d.wr.resPos with
        | some p => d.yieldTo p
        | none => d)
      else if d.boot.role == .reserve then
        let old := d.wr.mgrPos
        let d := d.takeCharge
        ({ d with wr := { d.wr with resPos := some old }, ldg := { d.ldg with dual := true } }.setFlag F.LDG_STAT_DUAL true).setFlag
          F.SUP_ROLE_DUAL_SEAL true
      else d)

/-- UNWRAP: both neighbours of the position named unwrap at the apply beat; the newcomer's timing outputs stay fenced until its
alignment and skew calibration have completed (R755). -/
def execUnwrap (s : State) : Host.Outcome State Fault Refusal :=
  .next (s.onDev fun d =>
    match d.wr.unwrap with
    | none => d
    | some (p, b) =>
      if d.now < b then d else
      let d := { d with wr := { d.wr with unwrap := none } }
      let d := (List.range 2).foldl (fun d k => if (d.side k).nbrPos = p ∨ p = d.pos then d.unwrapSide k else d) d
      let d := if d.boot.role == .manager then d.setCuts (d.wr.cut.filter (fun c => c != p && c != d.before p)) else d
      if p = d.pos then { d with boot := { d.boot with joining := true } }.rskewDisturb else d.rskewDisturb)

end Sys2Proof.Machine
end

