-- ==== Sys2Proof/Machine/Messages.lean ====
section
/-!
DEFINITION. Sys2Proof/Machine/Messages.lean: bulk messages that a device takes (Table RNG-7): calendar sets, details, offset tables,
declarations and reports; and provisioning on the manager (Table RNG-8; 03_straps_and_startup.md R126 to R145).
-/
namespace Sys2Proof.Machine
open Sys2Proof

/-! ## Offset tables (R737, R755, R833) -/

/-- The reasons of a whole-device fence. -/
def wholeReasons : List Reason := [Rsn.ringPeerLost, Rsn.ringBabble, Rsn.timeRegress, Rsn.bnLeap, Rsn.commitLost]

/-- A provisioned device is let back in: its whole-device fence clears and its incarnation steps (R60, R796, R809). A newcomer that the
ring was closed through waits for the table of its skew calibration (R755). -/
def Dev.rejoin (d : Dev) (skew : Bool) : Dev :=
  if d.isMgr || !d.boot.provisioned || d.t.regress || (d.boot.joining && !skew) then d else
  let d := { d with boot := { d.boot with joining := false } }
  let ks := (List.range 113).filter (fun k => (d.dom k).causes.any wholeReasons.contains)
  if ks.isEmpty then d else
  let d := ks.foldl (fun d k => d.clearCauses k wholeReasons.contains) d
  { d with mram := { d.mram with wdinc := nextInc d.mram.wdinc } }.setNum R.FEN_WDINC (nextInc d.mram.wdinc)

/-- The Edge phase at which a table that waited for its beat, or for the end of a change of clock side, takes effect (R776, R833). -/
def Dev.offEdge (d : Dev) : Dev :=
  match d.wr.offPend with
  | some (b, t) => if b ≤ d.now ∧ d.wr.sideChange = none then ({ d with wr := { d.wr with offPend := none } }.putOffsets t).rejoin true else d
  | none => d

/-! ## Catch-up of a reserve (R130, R134, R384, R388) -/

/-- The reserve joins: the manager sends its checkpoint's identity, next hallmark and rings, then every record from the retained
start, in MIRROR messages. -/
def Dev.startCatchup (d : Dev) (p : Nat) : Dev :=
  let d := d.endDual
  let recs := (d.mram.log.filter (fun s => mirrored s.body.typ || s.body.typ == 0x12)).map (fun s => (s.lpos, s.body))
  let w := fun n : Nat => BitVec.ofNat 32 n
  let d := d.bulkPut p 0 [w d.sysId.toNat, w (d.sysId.toNat / 2 ^ 32), w d.adm.nextHm, w (d.adm.nextHm / 2 ^ 32)]
  { d with wr := { d.wr with resPos := some p }, ldg := { d.ldg with catchup := true, toMirror := recs, mirror := [] } }.setFlag
    F.LDG_STAT_CATCHUP true

/-! ## Declarations (R56, R126 to R128, R133, R405, R775, R809) -/

/-- The image that the manager holds for a position uses a head port that HPSET does not enable there (R127). -/
def Dev.hpShort (d : Dev) (p hpset : Nat) : Bool :=
  d.wr.imgActive.any (fun x => x.1 == p && (List.range 16).any (fun q => decide (hpset ≤ q) && x.2.1 == R.HP_CFG q &&
    slice x.2.2 (F.HP_CFG_MODE q).hi (F.HP_CFG_MODE q).lo != 0))

/-- Record a declaration. A second device at a position is reported and not provisioned, nor is one that waits beside it; a device that
is already provisioned there stays (R128). A position that has been provisioned and declares itself again without a fence has restarted:
its jobs are decided from its reports (R188); one whose last applied beat number lies above the count has fenced itself with TIME_REGRESS
(Table FEN-4), and the manager fences it as well. The number reported counts towards R56 from the reserve, and from a worker of this
system. -/
def Dev.declared (d : Dev) (p inc cap hpset last : Nat) (serial sysId : BitVec 64) (held : List (Nat × Bool)) : Dev :=
  let old := d.wr.decl.find? (fun (x : Nat × BitVec 64 × Nat × BitVec 64) => x.1 == p)
  let other := match old with
    | some x => x.2.1 != serial
    | none => false
  let fenced := d.fenced (domWorker p)
  let prov := mget 0 d.wr.prov p
  if other && !fenced && prov == 6 then d.badPos p Rsn.posnDuplicate else
  let d := if prov = 6 && !fenced && decide (d.now < last) then d.fenceWorker p Rsn.timeRegress else d
  let dup := (other && !fenced) || d.wr.badPos.contains (p, Rsn.posnDuplicate)
  let short := d.hpShort p hpset
  let rest := d.wr.decl.filter (fun (x : Nat × BitVec 64 × Nat × BitVec 64) => x.1 != p)
  let wr := { d.wr with decl := rest ++ [(p, serial, hpset, sysId)], prov := mset 0 d.wr.prov p (if dup || short then 0 else 1) }
  let ldg := { d.ldg with declared := d.ldg.declared.filter (· != p) ++ [p],
                          decide_ := d.ldg.decide_.filter (fun (x : Nat × List (Nat × Bool)) => x.1 != p) ++ [(p, held)] }
  let counts := cap == 1 || sysId == d.sysId
  let wr := { wr with capPos := if cap = 1 then wr.capPos ||| 2 ^ p else wr.capPos }
  let d : Dev := { d with wr := wr, ldg := ldg, t := { d.t with reported := if counts then max d.t.reported last else d.t.reported },
                          fen := { d.fen with posInc := mset 0 d.fen.posInc p inc } }
  let d := if dup then d.badPos p Rsn.posnDuplicate else d
  if short then d.badPos p Rsn.provMismatch else d

/-- A declaration arrives. The census ends the wait of a position-0 device when a worker declares position 1 (R133). A device that
declares the manager's own position is reported (R128). A manager that has sent no READY frame yet raises its beat number to what is
reported (R56). -/
def Dev.declareIn (d : Dev) (us p inc cap hpset last : Nat) (serial sysId : BitVec 64) (held : List (Nat × Bool)) : Dev :=
  if !(d.boot.role == .manager || (d.boot.capable && !d.boot.roleKnown)) then d
  else if p = d.pos then d.badPos p Rsn.posnDuplicate else
  let d := d.declared p inc cap hpset last serial sysId held
  let d := if d.boot.role == .manager && !d.boot.readySent && d.t.running && decide (d.now < d.t.reported) then d.runFrom d.t.reported else d
  if d.boot.role == .manager then (if cap = 1 then (d.startCatchup p).raiseIrq 19 else d.raiseIrq 19)
  else if d.boot.claimOpen && d.pos == 0 && p == 1 && cap == 0 && d.boot.claims.isEmpty && !d.boot.conflict then d.becomeManager us
  else d

/-! ## Provisioning on the manager (Table RNG-8, R713, R753, R755, R809, R836, R864) -/

/-- What step 4 sends to a position: its active image with the words of the rings that name it, and its provision set. Registers that
are not named take their reset values. -/
def Dev.provImage (d : Dev) (p : Nat) : List (Nat × Word) :=
  let img := (d.wr.imgActive.filter (fun x => x.1 == p)).map (fun x => x.2)
  let jr := ((ringsNaming d.reg p).flatMap jrRegs).map (fun a => (a, d.reg a))
  img ++ jr ++ (d.wr.provSet.filter (fun x => x.1 == p)).map (fun x => x.2)

/-- An image in parts of 27 registers, as many as a bulk message carries (R748). -/
def imageParts (l : List (Nat × Word)) : List (List (Nat × Word)) :=
  (List.range (max 1 (ceilDiv l.length 27))).map (fun i => (l.drop (27 * i)).take 27)

/-- Set the step that a position has reached. -/
def Dev.setProv (d : Dev) (p n : Nat) : Dev := { d with wr := { d.wr with prov := mset 0 d.wr.prov p n } }

/-- Steps 4 to 6 reach the end: offset table, READY, and the fence clears, for RING_BABBLE only with another die (R809). The ring closes
through the newcomer at a named beat (R755), and its skew calibration is due (R836). -/
def Dev.provEnd (d : Dev) (p : Nat) : Dev :=
  let d := d.bulkPut p 10 (offWords d.now d.wr.offTab)
  let d := if d.wstate p = 5 then d.pwrSend 2 false false p (d.now + d.lat + 8) else d
  let d := if (d.dom (domWorker p)).causes.contains Rsn.ringBabble && mget 0 d.fen.babble p == d.serialAt p then d else d.clearWorker p
  let d := d.setProv p 6
  let b := d.now + d.lat + 8
  if d.wr.cut.any (fun c => c == p || c == d.before p) then
    let asy := { d.asy with rskewPend := p :: d.asy.rskewPend.filter (· != p), rskewDue := b + 131072 }
    { d with wr := { d.wr with unwrap := some (p, b) }, asy := asy }.sendHeader (b % 2 ^ 19 * 2 ^ 45) (2 ^ 60 + p * 2 ^ 55)
  else d

/-- One position's next step. Step 3, closing the reported outcomes, is REPLAY_DECIDE's. -/
def Dev.provOne (d : Dev) (m : List Host.Cell) (p : Nat) : Dev :=
  let w := fun n : Nat => BitVec.ofNat 32 n
  match mget 0 d.wr.prov p with
  | 1 =>
    let n := d.sysId.toNat
    (d.bulkPut p 8 [0, w n, w (n / 2 ^ 32), w d.now, w (d.now / 2 ^ 32)]).setProv p 3
  | 3 =>
    if d.ldg.decide_.any (fun x => x.1 == p) then d else
    let img := d.provImage p
    let rd := fun a : Nat => ((img.find? (fun x => x.1 == a)).map (fun x => x.2)).getD (resetWord a)
    let d := ((imageParts img).zipIdx).foldl (fun d x => d.bulkPut p 8 (w (if x.2 = 0 then 1 else 6) :: x.1.flatMap (fun y => [w y.1, y.2]))) d
    let d := (imageRanges m rd).foldl (fun d r => d.bulkPut p 7 [w r.1, w r.2]) d
    let act := d.wr.imgActive.filter (fun (x : Nat × Nat × Word) => x.1 == p)
    let oth := d.wr.imgStage.filter (fun (x : Nat × Nat × Word) => x.1 != p)
    { d with wr := { d.wr with imgStage := oth ++ act } }.setProv p 4
  | 4 =>
    if d.scc.cur.isSome || d.scc.await != 0 then d else
    let c : CommitSt := { id := d.num R.SCC_LASTID, ms := d.now + 3 * d.latOver (2 ^ p) + d.lat + 64, scope := 2 ^ p, local_ := false,
                          checkBn := d.now, prov := true, pendV := 2 ^ p }
    let d := ({ d with scc := { d.scc with cur := some c } }.setProv p 5).cmtHeader c 1 0 0
    d.bulkPut p 3 [w c.id, w c.ms, w (c.ms / 2 ^ 32), w c.scope]
  | 5 => if d.scc.cur.isNone && d.scc.await == 0 then d.provEnd p else d
  | _ => d

/-- The manager provisions in READY, RUN and STANDBY, one step a beat at each position that has declared itself. A reserve is given its
registers as well (R864). -/
def Dev.provStep (d : Dev) (m : List Host.Cell) : Dev :=
  if d.boot.role != .manager || decide (2 < d.pstate) || !d.boot.readySent then d
  else (d.wr.decl.map (fun x => x.1)).foldl (fun d p => d.provOne m p) d

/-- While the manager holds a whole-device fence, it sends a PROV FENCE in every beat (R789); one that still waits for its blocks stands
for those of the beats before. -/
def Dev.fenceBeat (d : Dev) : Dev :=
  if d.boot.role != .manager then d else
  let ps := (List.range 32).filter (fun p => d.fenced (domWorker p))
  ps.foldl (fun d p => if d.wr.bulk.any (fun x => x.dst == p && x.kind == 8 && x.words.head? == some 2) then d else d.bulkPut p 8 [2, (d.dom (domWorker p)).reason.setWidth 32]) d

/-! ## Meanings -/

/-- CALSET_MESSAGE: the set is held for its tag beat (R72). -/
def execCalsetMessage (sec : BitVec 64) (sub : Word) (regressOk : Bool) (tag : BitVec 56) (s : State) : Host.Outcome State Fault Refusal :=
  .next (s.onDev fun d =>
    if d.isMgr || !d.pwr.vcore then d
    else d.calHold { val := { sec := sec.toNat, sub := sub.toNat }, tag := tag.toNat, regressOk := regressOk })

/-- DETAIL_MESSAGE: the details of an outcome reach the manager, after the report item or before it (R747, R798). -/
def execDetailMessage (pos : Fin 32) (inc : BitVec 8) (tag : BitVec 12) (d0 : Word) (d1 : BitVec 16) (s : State) :
    Host.Outcome State Fault Refusal :=
  .next (s.onDev fun d =>
    if d.boot.role != .manager then d
    else if d.stale pos.val inc.toNat then d.countStale
    else match d.tagJob pos.val tag.toNat with
      | none => d
      | some hm =>
        if d.wr.needDetail.contains hm then
          let d := { d with wr := { d.wr with needDetail := d.wr.needDetail.filter (· != hm) } }
          d.modJob hm (fun j => { j with out := j.out.map (fun o => { o with d0 := d0.toNat, d1 := d1.toNat }) })
        else match d.job? hm with
          | some j => if j.out.isSome then d else
            { d with wr := { d.wr with details := d.wr.details ++ [(pos.val, tag.toNat, d0.toNat, d1.toNat)] } }
          | none => d)

/-- OFFTAB_MESSAGE: a table applies at its beat, or at once when that has come; one that arrives during a change of clock side applies at
the next beat boundary after the change is complete (R737, R776, R833). -/
def execOfftabMessage (bn : BitVec 56) (tab : List (Fin 32 × BitVec 24 × BitVec 24)) (s : State) : Host.Outcome State Fault Refusal :=
  .next (s.onDev fun d =>
    if d.isMgr || !d.pwr.vcore then d else
    let t := (List.range 32).flatMap (fun p => match tab.find? (fun x => x.1.val == p) with
      | some x => [(x.2.1.toNat : Int), (x.2.2.toNat : Int)]
      | none => [d.wr.offTab.getD (2 * p) 0, d.wr.offTab.getD (2 * p + 1) 0])
    if d.now < bn.toNat ∨ d.wr.sideChange.isSome = true then { d with wr := { d.wr with offPend := some (bn.toNat, t) } } else (d.putOffsets t).rejoin false)

/-- LEDGER_MESSAGE: a declaration, an outcome, or an entry of a reason log (R126, R404, R408, R413, R792, R798). -/
def execLedgerMessage (us : Nat) (pos : Fin 32) (inc : BitVec 8) (m : LedgerIn) (s : State) : Host.Outcome State Fault Refusal :=
  .next (s.onDev fun d =>
    let p := pos.val
    if !d.pwr.vcore then d else
    match m with
    | .declare cap hpset serial sysId last _ held =>
      d.declareIn us p inc.toNat cap.val hpset.val last.toNat serial sysId (held.map (fun h => (h.1.toNat, h.2)))
    | .outcome hm typ reason bn d0 d1 =>
      if d.stale p inc.toNat then d.countStale
      else if d.boot.role != .manager then d
      else d.takeOutcome p hm.toNat { typ := typ.val, reason := reason, bn := bn.toNat, d0 := d0.toNat, d1 := d1.toNat }
    | .log dom reason einc clear bn =>
      if d.stale p inc.toNat then d.countStale
      else if d.boot.role != .manager then d
      else d.logFar { dom := dom.toNat, reason := reason, inc := einc.toNat, clear := clear, pos := p, bn := bn.toNat })

end Sys2Proof.Machine
end

