-- ==== Sys2Proof/Machine/RegAccess.lean ====
section
/-!
DEFINITION. Sys2Proof/Machine/RegAccess.lean: what a write and a read of any register do: the registers that act, those that show
state held elsewhere, and the access codes of Table SCP-6 for all others (R14 to R18); the SPI service port's transactions and the
test access port (18_register_map.md, 06_host_port.md R295 to R311, R900 to R902).
-/
namespace Sys2Proof.Machine
open Sys2Proof

/-- The index of an offset in a row of registers at equal distances. -/
def idxIn (a base stride n : Nat) : Option Nat :=
  if base ≤ a ∧ (a - base) % stride = 0 ∧ (a - base) / stride < n then some ((a - base) / stride) else none

/-- The place of a port's SCC_VIEW (R681): the host port, the SPI port, the window. -/
def portKey : Port → Nat
  | .host => 0
  | .spi | .spiRo => 1
  | .window | .windowRo => 2

/-! ## Writes -/

/-- A write by access codes alone (Table SCP-6): rw bits take the word, w1c bits written as 1 clear, st bits go to the stage image. -/
def Dev.writePlain (d : Dev) (a : Nat) (w : Word) : Dev :=
  match regRow? a with
  | none => d
  | some r =>
    let d := if r.st = 0 then d else d.writeStage a w
    if r.rw = 0 ∧ r.w1c = 0 then d else
    let rw := BitVec.ofNat 32 r.rw
    d.setReg a (((d.reg a &&& ~~~rw) ||| (w &&& rw)) &&& ~~~(w &&& BitVec.ofNat 32 r.w1c))

/-- The registers of power, clocks, calendar and fences whose writes act. -/
def Dev.writeSys (d : Dev) (a : Nat) (w : Word) : Option Dev :=
  if a = R.PWR_CMD then some (d.writePwrCmd w)
  else if a = R.SUP_DCTHR0 then some (d.writeDcthr false w)
  else if a = R.SUP_DCTHR1 then some (d.writeDcthr true w)
  else if a = R.CLK_CMD then some (d.writeClkCmd w)
  else if a = R.AS_CMD then some (d.writeAsCmd w)
  else if a = R.AS_CTRL then some (d.writeAsCtrl w)
  else if a = R.AS_BYP then some (d.writePlain a w).bypSync
  else if a = R.CAL_CTRL then some (d.writeCalCtrl w)
  else if a = R.FEN_CMD then some (d.writeFenCmd w)
  else if a = R.ASY_CMD then some (d.writeAsyCmd w)
  else (idxIn a (R.ASY_HOPASYM 0) 4 32).map (fun p => d.writeHopAsym p w)

/-- The registers of the host port, admission, ledger and commit whose writes act. Base, size and head of a submission ring take no
write while it is enabled (R275). -/
def Dev.writeAdm (d : Dev) (p : Port) (a : Nat) (w : Word) : Option Dev :=
  if a = R.HST_CTRL then some (d.writeHstCtrl w)
  else if a = R.HST_SUBGO then some (d.writeSubgo (slice w 8 0))
  else if 0x4800 ≤ a ∧ a < 0x4C00 ∧ a % 4 = 0 then some (d.writeMsix a w)
  else if a = R.JR_CANCEL_CMD then some (d.writeCancel w)
  else if a = R.LDG_CMD then some (d.writeLdgCmd w)
  else if a = R.LDG_FMTKEY then some (d.writeFmtKey w)
  else if a = R.SCC_CMD then some (d.writeSccCmd w)
  else if a = R.SCC_ID ∨ a = R.SCC_MS_LO ∨ a = R.SCC_MS_HI ∨ a = R.SCC_SCOPE then some (d.writeSccSet a w)
  else if a = R.SCC_VIEW then some { d with scc := { d.scc with view := mset false d.scc.view (portKey p) (bitOf w 0) } }
  else if 0x10000 ≤ a ∧ a < 0x18000 then
    let j := (a - 0x10000) / 64
    if a = R.JR_SQCFG j then some (d.writeSqcfg j w)
    else if a = R.JR_DB j then some (d.writeBell j w)
    else if a = R.JR_NEXTSEQ j then some (d.writeNextSeq j w)
    else if (a = R.JR_SQBASE_LO j ∨ a = R.JR_SQBASE_HI j ∨ a = R.JR_SQHEAD j) ∧ d.flag (F.JR_SQCFG_EN j) = true then some d
    else none
  else match idxIn a (R.HST_CQ_CFG 0) 32 16, idxIn a (R.HST_CQ_HEAD 0) 32 16 with
    | some q, _ => some (d.writeCqCfg q w)
    | none, some q => some (d.writeCqHead q w)
    | none, none => none

/-- The registers of head ports, players, engines and the ring whose writes act. WR_CTRL.LOSTTMO keeps its value on a write of 0 or of
65 to 127 (Table RNG-11). -/
def Dev.writeUnit (d : Dev) (m : List Host.Cell) (a : Nat) (w : Word) : Option Dev :=
  if a = R.SP_LDCMD then some (d.writeLdcmd m w false)
  else if a = R.TNK_CMD then some (d.writeTnkCmd w)
  else if a = R.TNK_KICK_LO then some (d.writeKick false w)
  else if a = R.TNK_KICK_HI then some (d.writeKick true w)
  else if a = R.WR_CMD then some (if bitOf w 0 then d.handoverAt (d.num2 R.WR_HBN_LO R.WR_HBN_HI % 2 ^ 56) else d)
  else if a = R.WR_CTRL then
    let t := slice w 6 0
    some (d.writePlain a (if t = 0 ∨ 64 < t then setSlice w 6 0 (slice (d.reg a) 6 0) else w))
  else match idxIn a (R.HP_CMD 0) 0x100 16, idxIn a (R.HP_TRAIN 0) 0x100 16, idxIn a (R.SP_SBWR 0) 0x40 16,
      idxIn a (R.TNK_RXWR 0) 0x1000 64 with
    | some p, _, _, _ => some (d.writeHpCmd p w)
    | _, some p, _, _ => some (if bitOf w 0 then d.hpTrain p else d)
    | _, _, some n, _ => some (d.writeSbwr n w)
    | _, _, _, some n => some (d.writeRx n w)
    | none, none, none, none => none

/-- A write of any register of BAR0. -/
def Dev.writeReg (d : Dev) (m : List Host.Cell) (p : Port) (a : Nat) (w : Word) : Dev :=
  match d.writeSys a w <|> d.writeAdm p a w <|> d.writeUnit m a w with
  | some d' => d'
  | none => d.writePlain a w

/-! ## What a register shows -/

/-- ID_EVTSUM (R859): the blocks of Table MAP-4 that hold a set w1c bit or an entry. -/
def Dev.evtSum (d : Dev) : Word :=
  let blocks := [(0x1000, 0x1800), (0x1800, 0x2000), (0x2000, 0x3000), (0x3000, 0x4000), (0x20000, 0x21000), (0x21000, 0x22000),
    (0x30000, 0x34000), (0x34000, 0x40000), (0x40000, 0x50000), (0x50000, 0x60000), (0x60000, 0xA0000), (0xA0000, 0xB0000),
    (0xB0000, 0xC0000), (0xC0000, 0xD0000)]
  let hot := fun b : Nat × Nat => d.regs.any (fun c => decide (b.1 ≤ c.1) && decide (c.1 < b.2) && (match regRow? c.1 with
    | some r => (c.2 &&& BitVec.ofNat 32 r.w1c) != 0
    | none => false))
  let bits := (blocks.zipIdx).map (fun (x : (Nat × Nat) × Nat) =>
    if hot x.1 || (x.2 == 0 && !d.pwr.mevt.isEmpty) || (x.2 == 12 && !d.fen.log.isEmpty) then 2 ^ x.2 else 0)
  BitVec.ofNat 32 bits.sum

/-- Registers that return the shadow of an earlier latching read (R61, R62, R870). -/
def shadowed (a : Nat) : Bool :=
  [R.BT_BN_HI, R.BT_CI, R.CAL_NOW_SEC_HI, R.CAL_NOW_SUB, R.CAL_PRINT_SEC_HI, R.CAL_PRINT_SUB, R.SUP_MEVT_BN_LO, R.SUP_MEVT_BN_HI,
    R.SUP_MEVT_VAL, R.FEN_LOG1, R.FEN_LOG2, R.FEN_LOG3].contains a ||
  (idxIn a (R.TRG_CAP1 0) 0x40 16).isSome || (idxIn a (R.TRG_CAP2 0) 0x40 16).isSome ||
  (idxIn a (R.ENC_POSI_HI 0) 0x40 8).isSome || (idxIn a (R.ENC_SPEED 0) 0x40 8).isSome

/-- Identity, time and clock registers that show other state (Table MAP-4, Table BEA-7). -/
def Dev.viewSys (d : Dev) (a : Nat) : Option Word :=
  let last := if d.boot.role == .worker then d.t.last else d.now
  if a = R.ID_REV then some ((Config.idRev &&& 0xFF#32) ||| 0x01010100#32)
  else if a = R.ID_SERIAL_LO then some (Config.serial.setWidth 32)
  else if a = R.ID_SERIAL_HI then some ((Config.serial >>> 32).setWidth 32)
  else if a = R.ID_GRADE then some ((Config.idGrade &&& 3#32) ||| 0x7D00#32)
  else if a = R.ID_EVTSUM then some d.evtSum
  else if a = R.CLK_HOFREQ then some ((Config.holdoverDev d.now).setWidth 32)
  else if a = R.BT_LAST_LO then some (BitVec.ofNat 32 last)
  else if a = R.BT_LAST_HI then some (BitVec.ofNat 32 (last / 2 ^ 32))
  else if a = R.HST_STAT then some (putBit (d.reg a) 6 d.dmaOk)
  else if a = R.AS_STAT then some (if d.asStopped then setSlice (d.reg a) 2 0 6 else d.reg a)
  else none

/-- The jobs of a ring by state (JR_COUNT). -/
def Dev.jrCount (d : Dev) (j : Nat) : Word :=
  let n := fun f : Job → Bool => (d.jobs.filter (fun x => x.ring == j && !x.term && f x)).length
  BitVec.ofNat 32 (satAdd 13 (n (fun x => x.st == .accepted)) 0 + 2 ^ 16 * satAdd 7 (n (fun x => x.st == .dispatched)) 0 +
    2 ^ 24 * satAdd 8 (n Job.active) 0)

/-- SCC_DIRTY: bit g for group g of Table SCC-2, when a register that the group's unit owns differs (DEDUCED: the spec gives the bits no
places). Groups 2 and 8 share the head-port registers; group 11's load comes from JR_ACFG. -/
def Dev.dirty (d : Dev) : Word :=
  let ks := d.dirtyKeys
  let inB := fun lo hi : Nat => ks.any (fun a => decide (lo ≤ a) && decide (a < hi))
  let b := fun (g : Nat) (x : Bool) => if x then 2 ^ g else 0
  BitVec.ofNat 32 (b 2 ((List.range 16).any (fun p => ks.contains (R.HP_CFG p))) + b 3 (inB 0x2000 0x3000) + b 4 (inB 0x1000 0x1800) +
    b 5 (inB 0x30000 0x34000) + b 6 (inB 0x34000 0x40000) + b 7 (inB 0x50000 0x60000) + b 8 (inB 0x40000 0x50000) +
    b 9 (inB 0x60000 0xA0000) + b 10 (inB 0x10000 0x1A000) + b 11 (ks.any (fun a => decide (0x10000 ≤ a) && decide (a < 0x18000) &&
      a % 64 == 0x24)))

/-- Admission, ledger, commit and completion registers that show other state. -/
def Dev.viewAdm (d : Dev) (p : Port) (a : Nat) : Option Word :=
  let n := fun v : Nat => some (BitVec.ofNat 32 v)
  if a = R.JR_IK_TOKENS then n (d.adm.tokens / 10 ^ 9)
  else if a = R.JR_IK_NONTERM then n (d.jobs.filter (fun j => !j.term)).length
  else if a = R.LDG_FREE then n d.logFree
  else if a = R.LDG_NEEDED then n d.neededSlots.length
  else if a = R.LDG_WINTOT then n d.winTotal
  else if a = R.LDG_MIRLAG then some (setSlice (d.reg a) 3 0 (min 15 (d.ldg.mirror.length + d.ldg.toMirror.length)))
  else if a = R.SCC_DIRTY then some d.dirty
  else if a = R.SCC_VIEW then n (if mget false d.scc.view (portKey p) then 1 else 0)
  else match idxIn a (R.JR_COUNT 0) 64 512, idxIn a (R.HST_CQW 0) 4 8 with
    | some j, _ => some (d.jrCount j)
    | none, some k => some (d.cqWord k)
    | none, none => none

/-- TRG_STAT: qualified level, armed, holding. -/
def Dev.viewTrg (d : Dev) (a : Nat) : Option Word :=
  match idxIn a (R.TRG_STAT 0) 0x40 16, idxIn a (R.ENC_RPOS 0) 0x40 8 with
  | some n, _ =>
    let v := d.trgIn n
    some (BitVec.ofNat 32 ((if v.level then 1 else 0) + (if v.disarmed then 0 else 2) + (if d.trgHeld n (d.cyc * fsPerCycle) then 4 else 0)))
  | none, some n => some (BitVec.ofInt 32 ((d.enc n).pos - (d.enc n).offset))
  | none, none => none

/-- PO_STAT and ASY_SKEW: an output's level, safe level, interlock and holders; its pin skew, from the model of driver and package unless
measured. -/
def Dev.viewPo (d : Dev) (a : Nat) : Option Word :=
  match idxIn a (R.PO_STAT 0) 0x100 32, idxIn a (R.ASY_SKEW 0) 4 32 with
  | some n, _ =>
    let w := putBit (putBit (putBit (d.reg a) 0 (d.outActive n)) 1 (d.outSafe n)) 2 (d.po.ilkLow || d.po.acting)
    some (setSlice w 15 8 (min 255 (d.outSt n).holders.length))
  | none, some n =>
    if d.flag (F.ASY_SKEW_EXT n) then none
    else some ((Config.pinSkew n (d.reg (R.PO_CFG n)) (d.reg (R.PO_GCFG (n / 8))) (d.boot.vio.getD (n / 8) 0)).setWidth 32)
  | none, none => none

/-- The play in progress on a player: one whose job has passed a column slot (DEDUCED). -/
def Dev.playing (d : Dev) (n : Nat) : Option (Job × PlayRun) :=
  (d.jobs.filter Job.active).findSome? (fun j => (j.plays.find? (fun p => p.sp == n && !p.done && p.slot != 0)).map (fun p => (j, p)))

/-- HP_STAT, SP_STAT, SP_MKSTAT and TAL_STAT. -/
def Dev.viewPlay (d : Dev) (a : Nat) : Option Word :=
  if a = R.SP_MKSTAT then some (BitVec.ofNat 32 (((List.range 16).filter (fun k => d.sp.marks.any (fun x => x.1 == k))).map (2 ^ ·)).sum)
  else match idxIn a (R.HP_STAT 0) 0x100 16, idxIn a (R.SP_STAT 0) 0x40 16, idxIn a (R.TAL_STAT 0) 0x20 32 with
    | some p, _, _ =>
      let w := if d.hpEnabled p then d.reg a else setSlice (d.reg a) 2 0 6
      some (setSlice (setSlice (putBit w 3 (d.hpSafe p d.now)) 11 8 (d.hpLead p)) 23 16 (d.dom (domHp p)).inc)
    | _, some n, _ => (match d.playing n with
      | some (j, p) => some (setSlice (putBit (putBit (d.reg a) 0 true) 1 p.waitFrom.isSome) 31 16 j.hm)
      | none => none)
    | _, _, some t => some (setSlice (d.reg a) 7 0 (min 255 (d.tal t).open_.length))
    | none, none, none => none

/-- The words in an engine's TX queue: those of its join when it writes one (R647). -/
def Dev.txCount (d : Dev) (n : Nat) : Nat :=
  match d.joinReader n with
  | some r => (d.eng r).rx.items.length
  | none => (d.eng n).tx.items.length

/-- The registers of one engine that show its state (Table TNK-7), by offset in its 4 KiB. -/
def Dev.viewEng (d : Dev) (n o : Nat) : Option Word :=
  let e := d.eng n
  let b := fun (k : Nat) (x : Bool) => if x then 2 ^ k else 0
  let w := fun v : Nat => some (BitVec.ofNat 32 v)
  if o = 0x420 then
    let k := d.engBlock n
    w (e.state % 64 + b 6 e.running + b 7 e.halted + b 8 (k != 0) + k * 2 ^ 9 + b 11 (d.blockedInGroup n) + e.outv % 256 * 2 ^ 16 +
      b 24 (d.fenced (domTe n)))
  else if o = 0x424 then some e.sr
  else if o = 0x428 then w e.cnt
  else if o = 0x42C then
    w (e.rx.items.length % 256 + d.txCount n % 256 * 2 ^ 8 + b 16 (d.flag (F.TNK_QSTAT_HOSTDROP n)) +
      b 17 (d.joins.any (fun j => j.reader == n)) + b 18 (d.joins.any (fun j => j.writer == n || j.lenders.contains n)))
  else if o = 0x43C then w e.steps
  else none

/-- Engine registers, and TNK_SGSTAT: the groups running. -/
def Dev.viewTnk (d : Dev) (a : Nat) : Option Word :=
  if a = R.TNK_SGSTAT then some (setSlice (d.reg a) 15 0 (((List.range 16).filter d.tnk.grp.contains).map (2 ^ ·)).sum)
  else if 0x60000 ≤ a ∧ a < 0xA0000 then d.viewEng ((a - 0x60000) / 4096) ((a - 0x60000) % 4096)
  else none

/-- A bit for every number below n that satisfies f. -/
def bitsWhere (n : Nat) (f : Nat → Bool) : Nat := (((List.range n).filter f).map (2 ^ ·)).sum

/-- FEN_INC of a domain (Table FEN-8); UNFENCING is a cause held (R807). -/
def Dev.fenInc (d : Dev) (k : Nat) : Word :=
  if !domExists k then 0 else
  let v := d.dom k
  let b := fun (i : Nat) (x : Bool) => if x then 2 ^ i else 0
  let inc := if 0x2000 ≤ k then mget 0 d.fen.posInc (k - 0x2000) else v.inc
  BitVec.ofNat 32 (inc % 256 + b 8 v.isFenced + b 9 (v.causes.contains Rsn.domainParked) + b 10 v.unfencing +
    min 31 (v.causes.length + b 0 v.unfencing) * 2 ^ 11 + (if v.isFenced then v.reason.toNat else 0) * 2 ^ 16)

/-- Ring and fence registers that show other state (Tables RNG-11 and FEN-8). -/
def Dev.viewRing (d : Dev) (a : Nat) : Option Word :=
  let w := fun v : Nat => some (BitVec.ofNat 32 v)
  if a = R.WR_STAT then some (setSlice (d.reg a) 9 0 (d.wr.mgrPos % 32 + d.wr.resPos.getD 0 * 2 ^ 5))
  else if a = R.WR_PRESENT then w d.wr.present
  else if a = R.WR_FENCED then w (bitsWhere 32 (fun p => d.fenced (domWorker p)))
  else if a = R.WR_CREDIT then
    let p := slice (d.reg R.WR_WINSEL) 4 0
    w (p + mget 256 d.wr.credit p * 2 ^ 8)
  else if a = R.FEN_INC then some (d.fenInc (slice (d.reg R.FEN_INCSEL) 15 0))
  else match idxIn a (R.WR_SIDE 0) 0x40 2, idxIn a (R.FEN_DOM 0) 4 4, idxIn a (R.FEN_JR 0) 4 16 with
    | some s, _, _ =>
      let v := d.side s
      w (v.lstate % 8 + (if d.wr.clockSide = s then 8 else 0) + (if v.wrapped then 16 else 0) + v.nbrPos % 32 * 2 ^ 8 + v.nbrInc % 256 * 2 ^ 16)
    | _, some k, _ => w (bitsWhere 32 (fun i => decide (32 * k + i < 117) && d.fenced (32 * k + i)))
    | _, _, some k => w (bitsWhere 32 (fun i => d.fenced (domRing (32 * k + i))))
    | none, none, none => none

/-- The word that a register shows: a view, a latch shadow of the port, or its stored word. -/
def Dev.showReg (d : Dev) (p : Port) (a : Nat) : Word :=
  if shadowed a then d.shadow p a else
  (d.viewSys a <|> d.viewAdm p a <|> d.viewTrg a <|> d.viewPo a <|> d.viewPlay a <|> d.viewTnk a <|> d.viewRing a).getD (d.reg a)

/-! ## Reads -/

/-- Registers whose reads latch others (R61, R62). -/
def latching (a : Nat) : Bool :=
  [R.BT_BN_LO, R.CAL_NOW_SEC_LO, R.CAL_PRINT_SEC_LO].contains a || (idxIn a (R.TRG_CAP0 0) 0x40 16).isSome ||
  (idxIn a (R.ENC_POSI_LO 0) 0x40 8).isSome

/-- A latching or popping read. -/
def Dev.readLatch (d : Dev) (p : Port) (a : Nat) : Option (Dev × Word) :=
  if a = R.BT_BN_LO then some (d.readBn p d.t.ci)
  else if a = R.CAL_NOW_SEC_LO then some (d.readCal p d.cal.now R.CAL_NOW_SEC_HI R.CAL_NOW_SUB)
  else if a = R.CAL_PRINT_SEC_LO then some (d.readCal p d.cal.print R.CAL_PRINT_SEC_HI R.CAL_PRINT_SUB)
  else if a = R.SUP_MEVT_CODE then some (d.readMevt p)
  else if a = R.FEN_LOG0 then some (d.readFenLog p)
  else if a = R.HST_CQW 7 then some (d.readCqw7 p)
  else match idxIn a (R.TRG_CAP0 0) 0x40 16, idxIn a (R.ENC_POSI_LO 0) 0x40 8, idxIn a (R.TNK_TXRD 0) 0x1000 64 with
    | some n, _, _ => some (d.latch p [(R.TRG_CAP1 n, d.reg (R.TRG_CAP1 n)), (R.TRG_CAP2 n, d.reg (R.TRG_CAP2 n))], d.reg a)
    | _, some n, _ => some (d.readPosi p n)
    | _, _, some n =>
      let r := d.readTx n
      some (if d.portRo p then d else r.1, r.2)
    | none, none, none => none

/-- A read of any register (R14, R15): wo and reserved bits read 0, rc bits clear unless the port is read-only, st bits come from the
copy that `view` selects (R681). The worst latency of LDG_MIRLAG counts from the last read. -/
def Dev.readReg (d : Dev) (p : Port) (view : Bool) (a : Nat) : Dev × Word :=
  match d.readLatch p a with
  | some r => r
  | none => match regRow? a with
    | none => (d, 0)
    | some r =>
      let n := fun v : Nat => BitVec.ofNat 32 v
      let w := d.showReg p a
      let w := if view then (w &&& ~~~(n r.st)) ||| (d.stg a &&& n r.st) else w
      let w := w &&& (n r.rw ||| n r.ro ||| n r.w1c ||| n r.rc ||| n r.st)
      if d.portRo p then (d, w)
      else if r.rc ≠ 0 then (d.setReg a (d.reg a &&& ~~~(n r.rc)), w)
      else if a = R.LDG_MIRLAG then (d.setFld F.LDG_MIRLAG_WORST 0, w)
      else (d, w)

/-- The read clears, pops or latches, so that a window read of it is recorded (R860). -/
def readActs (a : Nat) : Bool :=
  latching a || a == R.HST_CQW 7 || (match regRow? a with
    | some r => r.rc != 0
    | none => false)

/-- The copy of st registers that a port sees. -/
def Dev.portView (d : Dev) (p : Port) : Bool := mget false d.scc.view (portKey p)

/-- Of the bits given, those that a register's rc fields, its w1c fields or its rw fields hold. -/
def rcBits (a : Nat) (same : Word) : Word := match regRow? a with
  | some r => same &&& BitVec.ofNat 32 r.rc
  | none => 0
def w1cBits (a : Nat) (same : Word) : Word := match regRow? a with
  | some r => same &&& BitVec.ofNat 32 r.w1c
  | none => 0
def rwBits (a : Nat) (same : Word) : Word := match regRow? a with
  | some r => same &&& BitVec.ofNat 32 r.rw
  | none => 0

/-- A read in whose core cycle events have added `same` to the rc fields: it returns the value before them, and they are held for the
next read (R17). -/
def Dev.readHeld (d : Dev) (p : Port) (view : Bool) (a : Nat) (same : Word) : Dev × Word :=
  let late := rcBits a same
  let r := d.readReg p view a
  if late = 0 then r else ((if d.portRo p then r.1 else r.1.setReg a (r.1.reg a ||| late)), r.2 - late)

/-- A write in whose core cycle hardware sets the w1c bits `same`, which stay set (R16), and updates the rw bits `same`, which keep
the device's value (R868). -/
def Dev.writeHeld (d : Dev) (m : List Host.Cell) (p : Port) (a : Nat) (w same : Word) : Dev :=
  let d' := d.writeReg m p a w
  let kept := w1cBits a same &&& d.reg a
  let own := rwBits a same
  if kept = 0 ∧ own = 0 then d' else d'.setReg a ((d'.reg a &&& ~~~own) ||| kept ||| (d.reg a &&& own))

/-- RC_REGISTER_READ: a read of a register; what events of the same core cycle add to its rc fields comes field by field (R17). -/
def execRcRegisterRead (port : Port) (x : RegAt) (s : State) : Host.Outcome State Fault Refusal :=
  .next (s.onDev fun d => d.readVia port x.a.toNat (readActs x.a.toNat) fun d => d.readHeld port (d.portView port) x.a.toNat x.same)

/-- REGISTER_WRITE: a write of a register, with the w1c bits that hardware has set and the rw bits that the device has updated in the same
core cycle (R16, R868). -/
def execRegisterWrite (port : Port) (x : RegAt) (w : Word) (s : State) : Host.Outcome State Fault Refusal :=
  .next (s.onDevR fun m d => d.viaPort port x.a.toNat fun d => d.writeHeld m port x.a.toNat w x.same)

/-! ## The test access port (R900 to R902) -/

/-- JTAG_INSTRUCTION: while PORST_L is asserted the instruction is loaded; released, all but BYPASS and SAMPLE load as BYPASS. The
boundary cells are no function of the device, and the spec gives a factory instruction no effect. -/
def execJtagInstruction (i : TapInstr) (testMode : Bool) (s : State) : Host.Outcome State Fault Refusal :=
  match i with
  | .factory _ => if s.dev.boot.porst && testMode then .refused .factoryTap else .next (s.onDev fun d => { d with tap := .bypass })
  | i => .next (s.onDev fun d => { d with tap := if d.boot.porst || i == .sample then i else .bypass })

end Sys2Proof.Machine
end

