-- ==== Sys2Proof/Machine/Window.lean ====
section
/-!
DEFINITION. Sys2Proof/Machine/Window.lean: the remote window on the manager and at its target, PROV messages as a target takes them,
and the SPI service port (15_wilin_ring.md R768, R769; 18_register_map.md R871 to R878; 06_host_port.md R295 to R310).
-/
namespace Sys2Proof.Machine
open Sys2Proof

/-! ## Accesses on the manager (R768, R769, R871, R875 to R877) -/

/-- The target position and its BAR0 offset; none where the access ends as at an undeclared position. -/
def Dev.winTarget (d : Dev) (off : Nat) : Option (Nat × Nat) :=
  let p := d.fld F.WR_WINSEL_POS
  let g := d.fld F.WR_WINSEL_PAGE
  if d.boot.role != .manager || p == d.pos || g == 14 || !(d.wr.decl.any (fun x => x.1 == p)) || d.fenced (domWorker p) then none
  else some (p, g * 65536 + off)

/-- Send a REG message for an access: offset, write, data, SCC_VIEW of the issuing port, read-only port. -/
def Dev.regSend (d : Dev) (x : WinAcc) : Dev :=
  let b := fun (k : Nat) (c : Bool) => if c then 2 ^ k else 0
  d.bulkPut x.pos 6 [BitVec.ofNat 32 (x.off + b 20 x.write.isSome + b 21 (d.portView x.port) + b 22 (d.portRo x.port)), x.write.getD 0]

/-- Show the count of writes that are not acknowledged. -/
def Dev.showWpend (d : Dev) : Dev :=
  d.setFld F.WR_WINSTAT_WPEND (min 255 (d.wr.win.filter (fun w => w.write.isSome)).length)

/-- Put an access in line; it goes out at once when nothing is outstanding at its position (R875). -/
def Dev.winPut (d : Dev) (x : WinAcc) : Dev :=
  let first := !d.wr.win.any (fun y => y.pos == x.pos)
  let d := { d with wr := { d.wr with win := d.wr.win ++ [x] } }.showWpend
  if first then d.regSend x else d

/-- The oldest access at a position is over: the next one goes out, and its 50 µs start (R877). -/
def Dev.winNext (d : Dev) (pos : Nat) : Dev :=
  let mine := d.wr.win.filter (fun (x : WinAcc) => x.pos == pos)
  let rest := d.wr.win.filter (fun (x : WinAcc) => x.pos != pos)
  match mine with
  | [] => d
  | _ :: l =>
    let l : List WinAcc := match l with
      | x :: r => { x with bn := d.now } :: r
      | [] => []
    let d := { d with wr := { d.wr with win := rest ++ l } }.showWpend
    match l with
    | x :: _ => d.regSend x
    | [] => d

/-- The registers of Table MAP-6. -/
def provRegs : List Nat :=
  [R.PWR_CTRL, R.PWR_RESUME, R.PWR_PENTMO, R.SUP_MTHR0, R.SUP_MTHR1, R.SUP_MACT, R.SUP_MGAIN, R.SUP_DCTHR0, R.SUP_DCTHR1, R.SUP_BKPTHR,
    R.CLK_CTRL, R.AS_CTRL, R.AS_BYP, R.AS_DIV 0, R.AS_DIV 1, R.AS_DIV 2, R.AS_DIV 3, R.PO_ILKREL, R.TNK_HFLAG_LO, R.TNK_HFLAG_HI,
    R.TNK_IRQEN_LO, R.TNK_IRQEN_HI, R.WR_CTRL, R.ASY_CTRL, R.ASY_TDCPER, R.ASY_XLDLY]

/-- Put one register of a position in place of its earlier value. -/
def putImg (l : List (Nat × Nat × Word)) (p a : Nat) (w : Word) : List (Nat × Nat × Word) :=
  l.filter (fun (x : Nat × Nat × Word) => x.1 != p || x.2.1 != a) ++ [(p, a, w)]

/-- Keep a register of a position: of its stage image, or of its provision set (R864, R865). -/
def Dev.noteImg (d : Dev) (p : Nat) (staged : Bool) (a : Nat) (w : Word) : Dev :=
  if staged then
    let old := ((d.wr.imgStage.find? (fun (x : Nat × Nat × Word) => x.1 == p && x.2.1 == a)).map (fun x => x.2.2)).getD (resetWord a)
    { d with wr := { d.wr with imgStage := putImg d.wr.imgStage p a ((old &&& ~~~(stMask a)) ||| (w &&& stMask a)) } }
  else { d with wr := { d.wr with provSet := putImg d.wr.provSet p a w } }

/-- What the manager keeps of a window write: none where the register is out of the window's reach. -/
def noteKind (a : Nat) : Option Bool :=
  if windowHidden a then none
  else if stMask a != 0 then some true
  else if provRegs.contains a then some false
  else none

/-- Record a write issued to a position. A write to a locked image aborts the commit (R686, R883). -/
def Dev.winNote (d : Dev) (p a : Nat) (w : Word) : Dev :=
  match noteKind a with
  | none => d
  | some staged =>
    let d := d.noteImg p staged a w
    match staged, d.scc.cur with
    | true, some c => if c.scope.testBit p && c.decision.isNone then d.commitAbort Chk.stageWrite p 0 else d
    | _, _ => d

/-- A window write is acknowledged: its value goes to the reserve (R865). -/
def Dev.winMirror (d : Dev) (p a : Nat) (w : Word) : Dev :=
  match noteKind a, d.wr.resPos with
  | some staged, some r => d.bulkPut r 8 [5, BitVec.ofNat 32 p, if staged then 1 else 0, BitVec.ofNat 32 a, w]
  | _, _ => d

/-- A window access ends without its target: a read returns 0, and the bit of WR_WINSTAT says why (R769), but for a read through a
read-only service port, which changes no field (R263). -/
def Dev.winErr (d : Dev) (port : Port) (write timeout : Bool) : Dev :=
  let d := if d.portRo port then d
    else if timeout then d.setFlag F.WR_WINSTAT_TIMEOUT true else d.setFlag F.WR_WINSTAT_ERR true
  if write then d else d.emit (.readData port 0)

/-- A write through the window. -/
def Dev.winWrite (d : Dev) (port : Port) (off : Nat) (w : Word) : Dev :=
  if !d.isMgr then d else
  match d.winTarget off with
  | none => d.winErr port true false
  | some (p, a) => (d.winPut { pos := p, write := some w, off := a, bn := d.now, port := port }).winNote p a w

/-- WINDOW_READ. -/
def execWindowRead (port : Port) (off : BitVec 16) (s : State) : Host.Outcome State Fault Refusal :=
  .next (s.onDev fun d =>
    match d.rgate port (0xE0000 + off.toNat) with
    | .none => d
    | .zero | .reset => d.emit (.readData port 0)
    | .full =>
      if !d.isMgr then d.emit (.readData port 0) else
      match d.winTarget off.toNat with
      | none => d.winErr port false false
      | some (p, a) => d.winPut { pos := p, write := none, off := a, bn := d.now, port := port })

/-- WINDOW_WRITE. -/
def execWindowWrite (port : Port) (off : BitVec 16) (w : Word) (s : State) : Host.Outcome State Fault Refusal :=
  .next (s.onDev fun d => d.viaPort port (0xE0000 + off.toNat) fun d => d.winWrite port off.toNat w)

/-- WINDOW_TIMEOUT: 50 µs, which end in the 105th beat, have passed over the access in front at a position. -/
def execWindowTimeout (pos : Fin 32) (s : State) : Host.Outcome State Fault Refusal :=
  .next (s.onDev fun d =>
    match d.wr.win.find? (fun x => x.pos == pos.val) with
    | none => d
    | some x => if d.now < x.bn + 105 then d else (d.winErr x.port x.write.isSome true).winNext pos.val)

/-! ## At the target (R860, R872 to R874) -/

/-- Serve a window access, and send the reply: [0, data] of a read, [1] of a write. -/
def Dev.regServe (d : Dev) (m : List Host.Cell) (a : Nat) (write : Option Word) (view ro : Bool) : Dev :=
  let p := if ro then Port.windowRo else .window
  match write with
  | some w => if d.rgate p a = .none then d else (d.viaPort p a (fun d => d.writeReg m p a w)).bulkPut d.wr.mgrPos 6 [1]
  | none => match d.rgate p a with
    | .none => d
    | .zero => d.bulkPut d.wr.mgrPos 6 [0, 0]
    | .reset => d.bulkPut d.wr.mgrPos 6 [0, d.resetRead a]
    | .full =>
      let r := d.readReg p view a
      let d := if readActs a then r.1.wrLast p a r.2 else r.1
      d.bulkPut d.wr.mgrPos 6 [0, r.2]

/-- A reply ends the access in front at a position, if it is of that kind; one of an earlier incarnation is discarded (R798). -/
def Dev.regReply (d : Dev) (pos inc : Nat) (write : Bool) (w : Word) : Dev :=
  if d.stale pos inc then d.countStale else
  match d.wr.win.find? (fun x => x.pos == pos) with
  | none => d
  | some x => match x.write, write with
    | some v, true => (d.winMirror pos x.off v).winNext pos
    | none, false => (d.emit (.readData x.port w)).winNext pos
    | _, _ => d

/-- REG_MESSAGE. -/
def execRegMessage (msg : RegIn) (s : State) : Host.Outcome State Fault Refusal :=
  .next (s.onDevR fun m d =>
    match msg with
    | .access a write view ro => if d.isMgr then d else (d.regServe m a.toNat write view ro).freeBlocks 2
    | .reply pos inc write w => if d.boot.role == .manager then d.regReply pos.val inc.toNat write w else d)

/-! ## PROV messages at a target (Table RNG-8, R59, R682, R767, R789, R864, R865) -/

/-- Step 2: identity and beat number. A worker under another identity formats its ledger, and takes the beat number when it does not
lie below its last applied one (R59). A reserve keeps its own count and identity. -/
def Dev.provIdentity (d : Dev) (sys : BitVec 64) (bn : Nat) : Dev :=
  if d.boot.role != .worker then d else
  let d := if d.sysId = sys then d else
    let d := d.format sys
    { d with t := { d.t with last := 0 } }
  if bn < d.t.last then d else d.applyBn bn

/-- Step 4: the stage image holds the registers named, all others at their reset values, and so do the registers of Table MAP-6 (R713,
R864). The first part of an image resets both; the parts after it add to them. -/
def Dev.provImageIn (d : Dev) (first : Bool) (l : List (Nat × Word)) : Dev :=
  let named := provRegs.filter (fun a => first || l.any (fun x => x.1 == a))
  let val := fun a : Nat => ((l.find? (fun x => x.1 == a)).map (fun x => x.2)).getD (resetWord a)
  let d := named.foldl (fun d a => if a = R.AS_CTRL then (if d.reg a = val a then d else d.writeAsCtrl (val a)) else d.setReg a (val a)) d
  let d := d.bypSync
  let d := if !first then d else
    (List.range (d.fld F.SUP_RCODE_HPSET)).foldl (fun d p => d.setStg (R.HP_CFG p) 0x35) { d with stage := [] }
  l.foldl (fun d x => if stMask x.1 = 0 then d else d.setStg x.1 (x.2 &&& stMask x.1)) d

/-- A PROV FENCE acts at the next Edge phase, unless the device has fenced itself for that reason already. -/
def Dev.provFenceEdge (d : Dev) : Dev :=
  match d.wr.fencePend with
  | none => d
  | some r =>
    let d := { d with wr := { d.wr with fencePend := none } }
    if (d.dom 0).causes.contains r then d else d.selfFence r

/-- Words of a PROV message. -/
def provWords : ProvIn → Nat
  | .identity _ _ => 5
  | .image _ l => 1 + 2 * l.length
  | .fence _ => 2
  | .handover _ => 3
  | .discard => 1
  | .note _ _ _ _ => 5
  | .rings l => 1 + 2 * l.length

/-- PROV_MESSAGE. -/
def execProvMessage (m : ProvIn) (s : State) : Host.Outcome State Fault Refusal :=
  .next (s.onDev fun d =>
    if d.isMgr || !d.pwr.vcore then d else
    let d := d.freeBlocks (bulkBlocks (provWords m))
    match m with
    | .identity sys bn => d.provIdentity sys bn.toNat
    | .image first words => d.provImageIn first (words.map (fun x => (x.1.toNat, x.2)))
    | .fence r => { d with wr := { d.wr with fencePend := some r } }
    | .handover h => if d.boot.role == .reserve then { d with wr := { d.wr with handover := some h.toNat } } else d
    | .discard => d.discardStage.stageTouched
    | .note pos staged a w => if d.boot.role == .reserve then d.noteImg pos.val staged a.toNat w else d
    | .rings l => l.foldl (fun d x => let a := x.1.toNat
        if !ringWord a then d else (d.setReg a (x.2 &&& stMask a)).setStg a (x.2 &&& stMask a)) d)

/-! ## The SPI service port (R295 to R310) -/

/-- The bytes of a number, most significant first. -/
def beBytes (n v : Nat) : List Byte := (List.range n).map (fun i => BitVec.ofNat 8 (v / 2 ^ (8 * (n - 1 - i))))

/-- The CRC-8 of the port. -/
def spiCrc (bs : List Byte) : Byte := crc8 7 0 bs

/-- What SPI_MISO carries in a transaction whose request has a number of data words: 0xFF in each byte of the request, then RSP, its
words, and the CRC over them (R296, Table HST-6). The fill bytes between the two are 0xFF as well; their number is a matter of time
(R299). Between two transactions SPI_MISO is at high impedance. -/
def Dev.spiSend (d : Dev) (n rsp : Nat) (ws : List Word) : Dev :=
  let bs := BitVec.ofNat 8 rsp :: ws.flatMap (fun w => beBytes 4 w.toNat)
  d.emit (.spi (List.replicate (4 * n + 5) 0xFF ++ bs ++ [spiCrc bs]))

/-- A refused transaction with a number of data words in its request: response, reason and count (Table HST-7). -/
def Dev.spiBad (d : Dev) (n rsp : Nat) : Dev :=
  let d := match rsp with
    | 0xA1 => (d.addSat F.HST_SPI_ERRCNT_CRC 1).hstErr 0 Rsn.spiCrc
    | 0xA2 => (d.addSat F.HST_SPI_ERRCNT_CMD 1).hstErr 0 Rsn.spiCmd
    | 0xA3 => (d.addSat F.HST_SPI_ERRCNT_CMD 1).hstErr 0 Rsn.spiAddr
    | 0xA4 => d.hstErr 0 Rsn.spiRo
    | 0xA5 => (d.addSat F.HST_SPI_ERRCNT_TIMEOUT 1).hstErr 0 Rsn.spiTimeout
    | _ => d.hstErr 0 Rsn.spiBusy
  d.spiSend n rsp []

/-- The command byte of an operation over the low bits SPACE, bit 4 and LEN (Table HST-5). -/
def spiCmdByte (op : Nat) (low : BitVec 6) : Byte := BitVec.ofNat 8 (op * 64 + low.toNat)

/-- SPACE and the words of a transaction. -/
def spiStore (low : BitVec 6) : Bool := low.getLsbD 5
def spiLen (low : BitVec 6) : Nat := low.toNat % 16 + 1

/-- What a request draws before it acts, in the order of Table HST-7; none when it may act (R297). A STATUS request's address may have
any value. -/
def Dev.spiCheck (d : Dev) (op : Nat) (low : BitVec 6) (addr : Nat) (ws : List Word) (crc : Byte) : Option Nat :=
  let bs := spiCmdByte op low :: beBytes 3 addr ++ ws.flatMap (fun w => beBytes 4 w.toNat)
  let top := if spiStore low then 2 ^ 24 else 2 ^ 20
  let sub := decide (addr < 0x4440) && decide (0x4400 < addr + 4 * spiLen low)
  if spiCrc bs != crc then some 0xA1
  else if op = 3 ∨ low.getLsbD 4 = true then some 0xA2
  else if op = 0 then none
  else if addr % 4 ≠ 0 ∨ top < addr + 4 * spiLen low then some 0xA3
  else if op = 2 ∧ d.hostSpi = false then some 0xA4
  else if op = 2 ∧ spiStore low = false ∧ sub = true ∧ d.flag F.HST_SUBSTAT_BUSY = true then some 0xA6
  else none

/-- The port answers: it is live, and the device has power. -/
def Dev.spiLive (d : Dev) : Bool := d.portLive .spi && !d.pwr.dormant && d.pstate != 4

/-- Serve one word of a read. A word of the window brings the target's answer with it: none when 50 µs have passed. -/
def Dev.spiWord (d : Dev) (m : List Host.Cell) (store : Bool) (a : Nat) (far : Option Word) : Dev × Option Word :=
  if store then (d, some (if d.rgate .spi 0x50000 = .full then storeWord m a else 0))
  else match d.rgate .spi a with
    | .none | .zero => (d, some 0)
    | .reset => (d, some (d.resetRead a))
    | .full =>
      if 0xE0000 ≤ a ∧ a < 0xF0000 then
        if !d.isMgr then (d, some 0) else
        match d.winTarget (a - 0xE0000) with
        | none => (if d.portRo .spi then d else d.setFlag F.WR_WINSTAT_ERR true, some 0)
        | some (p, x) =>
          let d := d.regSend { pos := p, write := none, off := x, bn := d.now, port := .spi }
          match far with
          | some w => (d, some w)
          | none => (if d.portRo .spi then d else d.setFlag F.WR_WINSTAT_TIMEOUT true, none)
      else
        let r := d.readReg .spi (d.portView .spi) a
        (r.1, some r.2)

/-- Serve the words of a burst in order, up to one that is not answered (R299, R310). -/
def Dev.spiWords (d : Dev) (m : List Host.Cell) (store : Bool) (a : Nat) : Nat → List (Option Word) → List Word → Dev × Option (List Word)
  | 0, _, acc => (d, some acc)
  | k + 1, far, acc =>
    match d.spiWord m store a (far.head?.getD none) with
    | (d, some w) => d.spiWords m store (a + 4) k far.tail (acc ++ [w])
    | (d, none) => (d, none)

/-- SPI_READ: `far` gives the answers of targets to the words that reach the window. -/
def execSpiRead (low : BitVec 6) (addr : BitVec 24) (crc : Byte) (far : List (Option Word)) (s : State) : Host.Outcome State Fault Refusal :=
  .next (s.onDevR fun m d =>
    if !d.spiLive then d else
    match d.spiCheck 1 low addr.toNat [] crc with
    | some r => d.spiBad 0 r
    | none => match d.spiWords m (spiStore low) addr.toNat (spiLen low) far [] with
      | (d, some ws) => d.spiSend 0 0xA0 ws
      | (d, none) => d.spiBad 0 0xA5)

/-- Carry out the words of a register burst in order. -/
def Dev.spiPut (d : Dev) (m : List Host.Cell) (a : Nat) : List Word → Dev
  | [] => d
  | w :: r =>
    let d := if 0xE0000 ≤ a ∧ a < 0xF0000 then d.viaPort .spi a (fun d => d.winWrite .spi (a - 0xE0000) w)
      else d.viaPort .spi a (fun d => d.writeReg m .spi a w)
    d.spiPut m (a + 4) r

/-- Missing words of a write read as 0. -/
def spiData (low : BitVec 6) (ws : List Word) : List Word := (List.range (spiLen low)).map (fun i => ws.getD i 0)

/-- The request of a write acts on the segment store: it passes its checks, in SPACE 1, where the port may write and no range is
protected (R522). -/
def Dev.spiStores (d : Dev) (m : List Host.Cell) (low : BitVec 6) (addr : Nat) (ws : List Word) (crc : Byte) : Bool :=
  d.spiLive && spiStore low && (d.spiCheck 2 low addr ws crc).isNone && d.storeGate .spi && !d.protects m addr (4 * ws.length)

/-- SPI_WRITE: carried out when its last CRC bit has arrived (R298). -/
def execSpiWrite (low : BitVec 6) (addr : BitVec 24) (ws : List Word) (crc : Byte) (s : State) : Host.Outcome State Fault Refusal :=
  let ws := spiData low ws
  let dev := s.dev
  if !dev.spiLive then .next s else
  match dev.spiCheck 2 low addr.toNat ws crc with
  | some r => .next (s.onDev fun d => d.spiBad ws.length r)
  | none =>
    let count := fun d : Dev => (d.addWrap F.HST_SPI_WCNT_WRITE ws.length).spiSend ws.length 0xA0 []
    if dev.spiStores s.store low addr.toNat ws crc then
      .next { s with store := storeWrite s.store addr.toNat (ws.flatMap wordBytes), dev := count dev }
    else if spiStore low then
      .next (s.onDevR fun m d => count (if d.protects m addr.toNat (4 * ws.length) then d.addSat F.SP_WPROT_DISCARDED 1 else d))
    else .next (s.onDevR fun m d => count (d.spiPut m addr.toNat ws))

/-- SPI_STATUS: the interrupt registers; OP 0b11 draws CMD (Table HST-7). -/
def execSpiStatus (op3 : Bool) (low : BitVec 6) (addr : BitVec 24) (crc : Byte) (s : State) : Host.Outcome State Fault Refusal :=
  .next (s.onDev fun d =>
    if !d.spiLive then d else
    match d.spiCheck (if op3 then 3 else 0) low addr.toNat [] crc with
    | some r => d.spiBad 0 r
    | none => d.spiSend 0 0xA0 [d.reg R.HST_ISR0, d.reg R.HST_ISR1])

/-- SPI_ABORT: SPI_CS_L rises early (R300). -/
def execSpiAbort (s : State) : Host.Outcome State Fault Refusal :=
  .next (s.onDev fun d => if d.spiLive then d.addSat F.HST_SPI_ERRCNT_ABORT 1 else d)

end Sys2Proof.Machine
end

