-- ==== Sys2Proof/Machine/Beat.lean ====
section
/-!
DEFINITION. Sys2Proof/Machine/Beat.lean: the beat (R26, R48, Table SYS-2). BEAT_EDGE ends the beat in progress with its Prepare and
Seal phases, and begins the next one with its Edge phase and the part of its Gather phase that no other command carries. The work of
Gather and Decide that waits for an event is the command of that event, between two edges; what the table lists as commands of their
own at an Edge phase (milestones, power commands, starts of groups) comes after BEAT_EDGE (DEDUCED; log entry 24).
-/
namespace Sys2Proof.Machine
open Sys2Proof

/-! ## Prepare: lanes, columns and frames for the beats to come (R379, R490, R532, R580) -/

/-- The jobs whose ARMED groups the Seal phase of this beat will seal (R377). -/
def Dev.sealsNow (d : Dev) : List Nat :=
  let q := d.ldg.queue.mergeSort (fun a b => decide (a.prec < b.prec) || (a.prec == b.prec && decide (a.due ≤ b.due)))
  (((takeSeals 4 q).1.flatMap (fun x => x.recs)).filter (fun r => r.typ == 0x20)).map Rec.hm

/-- A bound job that this device executes and no fence is closing. -/
def Dev.works (d : Dev) (j : Job) : Bool := j.active && j.exec == d.pos && !j.tallyWait && j.closing.isNone

/-- The jobs whose edges and columns may be issued: their ARMED group is sealed, or is sealed in this beat (R379). A frame for a beat
further ahead is built only for such a job as well (DEDUCED from R379 and R580). -/
def Dev.readyJobs (d : Dev) : List Job :=
  let now := d.sealsNow
  d.jobs.filter (fun j => d.works j && (j.armed || now.contains j.hm))

/-- The next column of a port, from the first of its jobs that has one for execution beat b (R532). -/
def Dev.portColumn (d : Dev) (m : List Host.Cell) (p b : Nat) (js : List Job) : Dev × Option ColOut :=
  js.foldl (fun (a : Dev × Option ColOut) j =>
    (List.range j.plays.length).foldl (fun (a : Dev × Option ColOut) k =>
      match a.2, j.plays[k]? with
      | none, some q => if q.hp = p then a.1.playPrep m j.hm k b else a
      | _, _ => a) a) (d, none)

/-- Build the frames of every FRAMED port (R580), and play the players of jobs whose port has no frame to carry them. -/
def Dev.framesBuild (d : Dev) (m : List Host.Cell) (js : List Job) : Dev :=
  (List.range 16).foldl (fun d p =>
    let b := d.now + d.hpLead p
    let r := d.portColumn m p b js
    r.1.hpBuild p b r.2) d

/-- The Prepare phase: lanes, columns and frames; jobs of which a part has failed end once their other parts are done. -/
def Dev.prepPhase (d : Dev) (m : List Host.Cell) : Dev :=
  let js := d.readyJobs
  let d := js.foldl Dev.lanesLoad d
  let d := d.framesBuild m js
  (js.map Job.hm).foldl Dev.settle d

/-! ## ARMED groups that come too late (R379, R380) -/

/-- A lane of the job has an edge due in the next beat. -/
def Dev.lanesDue (d : Dev) (j : Job) : Bool :=
  j.lanes.any (fun l => match l.edges[l.idx]? with
    | none => false
    | some e => match j.edgeAt l (d.fld (F.PO_TRIM_TRIM l.out)) l.rep e with
      | none => false
      | some t => decide (beatOf t ≤ d.now + 1))

/-- A player of the job has a column due in the frame that this Prepare phase builds. -/
def Dev.playsDue (d : Dev) (j : Job) : Bool :=
  j.plays.any (fun p => !p.done && (match j.slotInst p with
    | none => false
    | some t => decide (beatOf (d.hpInst p.hp t) ≤ d.now + d.hpLead p.hp)))

/-- Put the ARMED group of a job that has been moved in place of the one waiting, which keeps its turn. -/
def Dev.rearm (d : Dev) (hm : Nat) : Dev :=
  match d.job? hm with
  | none => d
  | some j =>
    let r := d.armGroup j
    let q := r.1.ldg.queue.map (fun q => if q.recs.any (fun x => x.typ == 0x20 && x.hm == hm) then { q with recs := groupOf r.2 } else q)
    { r.1 with ldg := { r.1.ldg with queue := q } }

/-- The bound of R379 has passed for a job whose ARMED group is not sealed: a whole beat's delay within its limit, or the end. -/
def Dev.sealLate (d : Dev) (hm : Nat) : Dev :=
  match d.job? hm with
  | none => d
  | some j =>
    if j.limit < j.delay + 1 then d.endJob hm { typ := 6, reason := Rsn.expSealLate, bn := d.now }
    else (d.modJob hm (fun j => j.shifted 1)).rearm hm

/-- The jobs that the Seal phase has left unsealed past the bound. -/
def Dev.lateJobs (d : Dev) : List Nat :=
  (d.jobs.filter (fun j => d.works j && !j.armed && (d.lanesDue j || d.playsDue j))).map Job.hm

/-! ## What leaves for the ring -/

/-- The origin's frames of the next beat are made in the Prepare phase with 16 free slots in each direction, and its own captures fill
them (R26, R442, R443, R743, R744). Any other device fills the free slots of the frames that it forwards. -/
def Dev.bindOut (d : Dev) : Dev :=
  if d.boot.role != .manager || !d.linked then d else
  (List.range 2).foldl (fun d dir =>
    let r := d.fillSlots dir (List.replicate 16 0)
    (r.2.filter (fun w => w % 2 == 1)).foldl (fun d w => d.emit (.binding dir w)) r.1) d

/-- The status slot of the beat, with at most four report items, those of sealed records first (R746). A vote counts as sent. -/
def Dev.statusOut (d : Dev) : Dev :=
  let its := d.wr.items.filter (fun x => x.1) ++ d.wr.items.filter (fun x => !x.1)
  let d' := d.emit (.status d.pos d.statusSlot ((its.take 4).map (fun x => x.2)))
  let wr := { d'.wr with items := its.drop 4, sealAck := d.wr.sealAck - 7, freed := d.wr.freed - 255 }
  let d' := { d' with wr := wr }
  match d'.scc.cur with
  | some c => if c.result.isSome && !d'.isMgr then { d' with scc := { d'.scc with cur := some { c with voted := true } } } else d'
  | none => d'

/-- A frame sent now carries the holdover flag: in holdover, and in a return from it until the beat after the unfence (R50, R225). -/
def Dev.holdoverFlag (d : Dev) : Bool := d.clk.holdover || d.spll == 6 || d.clk.recal || d.clk.unfenceDue || d.clk.unfenceWait

/-- The manager's frames of the new beat: the commit fields (R695, R698), the first header word (Table RNG-3, R50, R57), where `ho` is
the holdover flag, the grant and the bulk areas (R749, R750). -/
def Dev.originOut (d : Dev) (ho : Bool) : Dev :=
  let b := fun (k : Nat) (c : Bool) => if c then 2 ^ k else 0
  let d := match d.scc.hdr with
    | some h => if d.now ≤ h.2.2 then d.sendHeader h.1 h.2.1 else { d with scc := { d.scc with hdr := none } }
    | none => d
  let h0 := d.now + b 56 ho + b 57 (!d.wr.cut.isEmpty) + b 58 d.ldg.dual + d.wr.resPos.getD 31 % 32 * 2 ^ 59
  match d.nextGrant with
  | none => (d.emit (.origin h0 0)).bulkOut 0
  | some (p, n) =>
    let wr := { d.wr with bulkReq := d.wr.bulkReq ^^^ 2 ^ p, grantTurn := p }
    ({ d with wr := wr }.emit (.origin h0 (p + 2 ^ 5 + n * 2 ^ 6))).bulkOut n

/-- The acknowledged points of the queues go to a reserve that mirrors, in every beat (06_host_port.md, "Durable delivery"; Table RNG-7
gives them no field: DESIGN CHOICE, log entry 152). -/
def Dev.sendAcked (d : Dev) : Dev :=
  if !(d.ldg.dual || d.ldg.catchup) then d else d.emit (.acked (d.ackedPoints))

/-- What a device on the ring sends with a new beat: a manager starts its frames (R726) with the records sealed in the last beat in
front (R384, R750), and every device gives its status. -/
def Dev.ringOut (d : Dev) (ho : Bool) : Dev :=
  if !d.linked || !d.pwr.vcore then d else
  let d := if d.boot.role == .manager then (d.sendMirror.originOut ho).sendAcked else d
  d.statusOut

/-- The counts of what has not arrived in the beat that ends: frames of an origin, the manager's own frames, status slots (R759, R760,
R763, R765). -/
def Dev.ringWatch (d : Dev) : Dev :=
  if !d.inRing then d else
  let got := (List.range 2).any (fun s => (d.side s).origin)
  let d := (List.range 2).foldl (fun d s => if (d.side s).origin then d.setSide s { d.side s with origin := false } else d) d
  let mgr := d.boot.role == .manager
  let miss := if mgr && got then (onesBelow 32 d.wr.present).foldl (fun (m : SMap Nat) p =>
      mset 0 m p (if d.wr.heard.testBit p || p == d.pos then 0 else mget 0 m p + 1)) d.wr.missing else d.wr.missing
  let wr := { d.wr with missing := miss, heard := 0, noOrigin := if mgr || got then 0 else d.wr.noOrigin + 1,
                        noOwn := if mgr && !got then d.wr.noOwn + 1 else 0 }
  { d with wr := wr }

/-! ## The end of a beat -/

/-- The Prepare and Seal phases of the beat in progress (R379, R490, R580, R780). `over` gives the units that do not finish the work
of the beat (R23). -/
def Dev.beatEnd (d : Dev) (m : List Host.Cell) (overran : List Nat) : Dev :=
  let d := d.clockDecide
  let d := (((d.colsPass d.now).prepPhase m).sampleHeads).bindOut
  let d := d.stallWatch
  let mounted := d.flag F.LDG_STAT_MOUNTED && !d.flag F.LDG_STAT_BLANK && !d.ldg.corrupt
  let d := if mounted then d.ceilDue.sealPhase else d
  let d := d.lateJobs.foldl Dev.sealLate d
  (d.raiseAll (overran.map (fun k => (k, Rsn.beatOverrun)))).ringWatch

/-! ## The Edge and Gather phases of the new beat -/

/-- The beat number advances by 1 (R48); a worker's own count is its last applied number (R58). What is counted by the beat starts
anew; the bucket gains its tokens (R329, Table SYS-3). -/
def Dev.nextBeat (d : Dev) : Dev :=
  let b := d.now + 1
  let t := { d.t with bn := BitVec.ofNat 56 b, ci := 0, lastUsed := b, last := if d.t.regress then d.t.last else b }
  let adm := { d.adm with examined := 0, acceptedN := 0, dispatched := 0, tokens := min (d.adm.tokens + 125829120) 4096000000000 }
  let trg := { d.trg with bound := 0, edgesNow := [], raisesNow := [] }
  { d with t := t, adm := adm, trg := trg }

/-- Fences, parks and what they reclaim; the clock and calibration; commands that wait for an Edge phase (R34, R43, R301, R684, R783,
R789, R794, R807, R824, R837). -/
def Dev.edgeUnits (d : Dev) (m : List Host.Cell) : Dev :=
  let d := d.provFenceEdge.fenceEdge.fenTake.fenceLift
  let d := d.goEdge
  let d := (d.clkEdge.asyEdge.driftMeasure).asEdge
  let d := d.offEdge.sideEdge.sccTake.pwrRingStep
  let d := (d.provStep m).fenceBeat.handoverAsk
  d.takeBells.issueReads

/-- Engines halt at the first Edge phase outside RUN at which no job is bound or striking; a BRACE halts them at its close-out (R660,
R677). -/
def Dev.haltEdge (d : Dev) : Dev :=
  if d.inRun || d.braced || d.jobs.any (fun j => j.active && j.exec == d.pos) then d else d.haltEngines

/-- Outputs, markers, streams and head ports (R484, R539, R542, R558, R613). -/
def Dev.edgeOuts (d : Dev) : Dev :=
  let d := d.haltEdge.marksEdge.outsDrain.sbEdge
  let d := (List.range 16).foldl Dev.sbWater d
  (List.range 16).foldl Dev.hpEdge d

/-- The Gather phase of every encoder (R455); windows of 65 536 beats begin anew (R449, R606, R756). -/
def Dev.gather (d : Dev) : Dev :=
  let d := (List.range 8).foldl Dev.encGather d
  if d.now % 65536 != 0 then d else
  let d := (List.range 8).foldl (fun d n => let e := d.enc n; if e.perrWin = 0 then d else d.setEnc n { e with perrWin := 0 }) d
  (List.range 2).foldl (fun d s => let v := d.side s; if v.errWin = 0 then d else d.setSide s { v with errWin := 0 }) d

/-- The first part of a beat. The calendar advances with the locked core clock (R68). -/
def Dev.beatStart (d : Dev) (m : List Host.Cell) (i : BeatIn) : Dev :=
  let d := d.nextBeat.supSample i
  let ho := d.holdoverFlag
  let d := (d.addSat (F.WR_ERRCNT_SYNC 0) i.sync.1).addSat (F.WR_ERRCNT_SYNC 1) i.sync.2
  let d := d.edgeUnits m
  let d := if d.calByBeat then d.calEdge else d
  let d := d.edgeOuts.gather
  d.ringOut ho

/-- BEAT_EDGE (R48). Without a running beat counter only the supervisor takes its sample; a job that a late seal has moved is decided
against the others again in the new beat (R339, R380). -/
def execBeatEdge (i : BeatIn) (s : State) : Host.Outcome State Fault Refusal :=
  .next (s.onDevR fun m d =>
    if !d.pwr.vcore || !d.t.running then d.supSample i
    else
      let e := d.beatEnd m (i.overrun.map Fin.val)
      let moved := e.jobs.any (fun j => match d.job? j.hm with
        | some k => k.delay != j.delay
        | none => false)
      let e := e.beatStart m i
      if moved then e.settleConflicts else e)

end Sys2Proof.Machine
end

