-- ==== Sys2Proof/Machine/Dispatch.lean ====
section
/-!
DEFINITION. Sys2Proof/Machine/Dispatch.lean: what each command does, one arm per constructor of Instr, each one call of
the meaning in the file of its family.
-/
namespace Sys2Proof.Machine
open Sys2Proof

/-- The effect of a command on everything but the queue. -/
def exec (i : Instr) (s : State) : Host.Outcome State Fault Refusal :=
  match i with
  | .beatEdge inp => Sys2Proof.Machine.execBeatEdge inp s
  | .ceilingRewrite => Sys2Proof.Machine.execCeilingRewrite s
  | .checkpoint => Sys2Proof.Machine.execCheckpoint s
  | .superblockWrite => Sys2Proof.Machine.execSuperblockWrite s
  | .carryRecord => Sys2Proof.Machine.execCarryRecord s
  | .calOscTick => Sys2Proof.Machine.execCalOscTick s
  | .coldStart lowNs r => Sys2Proof.Machine.execColdStart lowNs r s
  | .porstLAssert => Sys2Proof.Machine.execPorstLAssert s
  | .vauxPowerOnReset r => Sys2Proof.Machine.execVauxPowerOnReset r s
  | .bkpExhausted mains => Sys2Proof.Machine.execBkpExhausted mains s
  | .strapLiveCheck r => Sys2Proof.Machine.execStrapLiveCheck r s
  | .spllLock us => Sys2Proof.Machine.execSpllLock us s
  | .spllLockTimeout us kind => Sys2Proof.Machine.execSpllLockTimeout us kind s
  | .selfCalibrationDone us sets => Sys2Proof.Machine.execSelfCalibrationDone us sets s
  | .ledgerMount m => Sys2Proof.Machine.execLedgerMount m s
  | .replay r => Sys2Proof.Machine.execReplay r s
  | .replayDecide => Sys2Proof.Machine.execReplayDecide s
  | .ringSideLock side => Sys2Proof.Machine.execRingSideLock side s
  | .ringSideAlign side => Sys2Proof.Machine.execRingSideAlign side s
  | .ringIdent us side ident running => Sys2Proof.Machine.execRingIdent us side ident running s
  | .ringTrainingTimeout us side => Sys2Proof.Machine.execRingTrainingTimeout us side s
  | .claimMessage us pos formatted sysId => Sys2Proof.Machine.execClaimMessage us pos formatted sysId s
  | .claimTimeout us => Sys2Proof.Machine.execClaimTimeout us s
  | .beatAlignmentComplete us loop tab => Sys2Proof.Machine.execBeatAlignmentComplete us loop tab s
  | .readyWaitClockLoss => Sys2Proof.Machine.execReadyWaitClockLoss s
  | .perstLRelease => Sys2Proof.Machine.execPerstLRelease s
  | .pwrCmdRun port tgt => Sys2Proof.Machine.execPwrCmdRun port tgt s
  | .pwrCmdReady port tgt => Sys2Proof.Machine.execPwrCmdReady port tgt s
  | .pwrCmdStandby port tgt => Sys2Proof.Machine.execPwrCmdStandby port tgt s
  | .pwrCmdPark port tgt expire isolate => Sys2Proof.Machine.execPwrCmdPark port tgt expire isolate s
  | .pwrCmdOff port tgt expire => Sys2Proof.Machine.execPwrCmdOff port tgt expire s
  | .powerApply => Sys2Proof.Machine.execPowerApply s
  | .readyDrainDone => Sys2Proof.Machine.execReadyDrainDone s
  | .penTimeout => Sys2Proof.Machine.execPenTimeout s
  | .vcoreGood => Sys2Proof.Machine.execVcoreGood s
  | .wakeSignal => Sys2Proof.Machine.execWakeSignal s
  | .braceStart => Sys2Proof.Machine.execBraceStart s
  | .braceCloseoutComplete => Sys2Proof.Machine.execBraceCloseoutComplete s
  | .braceClear => Sys2Proof.Machine.execBraceClear s
  | .dormancyResume => Sys2Proof.Machine.execDormancyResume s
  | .supplyUv rail => Sys2Proof.Machine.execSupplyUv rail s
  | .mainsPhasePoint n ci => Sys2Proof.Machine.execMainsPhasePoint n ci s
  | .supDcthrWrite port second w => Sys2Proof.Machine.execSupDcthrWrite port second w s
  | .supMevtPop port => Sys2Proof.Machine.execSupMevtPop port s
  | .clockFault kind => Sys2Proof.Machine.execClockFault kind s
  | .spllFail => Sys2Proof.Machine.execSpllFail s
  | .refQualified => Sys2Proof.Machine.execRefQualified s
  | .spllSlewDone => Sys2Proof.Machine.execSpllSlewDone s
  | .coreClockReturn => Sys2Proof.Machine.execCoreClockReturn s
  | .clkCmdUnfence port => Sys2Proof.Machine.execClkCmdUnfence port s
  | .asCmdHop port w => Sys2Proof.Machine.execAsCmdHop port w s
  | .asCmdSync port => Sys2Proof.Machine.execAsCmdSync port s
  | .asCmdReturn port => Sys2Proof.Machine.execAsCmdReturn port s
  | .asCmdDivApply port sync => Sys2Proof.Machine.execAsCmdDivApply port sync s
  | .asCmdSearchAll port => Sys2Proof.Machine.execAsCmdSearchAll port s
  | .asCmdCancel port => Sys2Proof.Machine.execAsCmdCancel port s
  | .asApply => Sys2Proof.Machine.execAsApply s
  | .bandSearchDone found => Sys2Proof.Machine.execBandSearchDone found s
  | .asLockDeclare => Sys2Proof.Machine.execAsLockDeclare s
  | .asMonitorWindow dev => Sys2Proof.Machine.execAsMonitorWindow dev s
  | .asUnlock => Sys2Proof.Machine.execAsUnlock s
  | .muxNoEdgeTimeout => Sys2Proof.Machine.execMuxNoEdgeTimeout s
  | .bypclkLoss => Sys2Proof.Machine.execBypclkLoss s
  | .cksyncEdge => Sys2Proof.Machine.execCksyncEdge s
  | .hostPortReset => Sys2Proof.Machine.execHostPortReset s
  | .functionLevelReset => Sys2Proof.Machine.execFunctionLevelReset s
  | .d3hotEntry => Sys2Proof.Machine.execD3hotEntry s
  | .d0Return => Sys2Proof.Machine.execD0Return s
  | .waybillReadComplete ring slots => Sys2Proof.Machine.execWaybillReadComplete ring slots s
  | .waybillReadFail ring => Sys2Proof.Machine.execWaybillReadFail ring s
  | .poisonedWrite => Sys2Proof.Machine.execPoisonedWrite s
  | .bar0SizeError read => Sys2Proof.Machine.execBar0SizeError read s
  | .storeWrite port off bytes => Sys2Proof.Machine.execStoreWrite port off bytes s
  | .doorbellWrite port ring w => Sys2Proof.Machine.execDoorbellWrite port ring w s
  | .sqEnable port ring w => Sys2Proof.Machine.execSqEnable port ring w s
  | .cqEnable port q w => Sys2Proof.Machine.execCqEnable port q w s
  | .cqHeadWrite port q w => Sys2Proof.Machine.execCqHeadWrite port q w s
  | .completionPost q => Sys2Proof.Machine.execCompletionPost q s
  | .cqModerationTimeout q => Sys2Proof.Machine.execCqModerationTimeout q s
  | .msixUnmask port v => Sys2Proof.Machine.execMsixUnmask port v s
  | .hostGo port => Sys2Proof.Machine.execHostGo port s
  | .spiRead low addr crc far => Sys2Proof.Machine.execSpiRead low addr crc far s
  | .spiWrite low addr ws crc => Sys2Proof.Machine.execSpiWrite low addr ws crc s
  | .spiStatus op3 low addr crc => Sys2Proof.Machine.execSpiStatus op3 low addr crc s
  | .spiAbort => Sys2Proof.Machine.execSpiAbort s
  | .hstSubgo port ring => Sys2Proof.Machine.execHstSubgo port ring s
  | .hstCqw7Read port => Sys2Proof.Machine.execHstCqw7Read port s
  | .waybillExamine far => Sys2Proof.Machine.execWaybillExamine far s
  | .jobDispatch => Sys2Proof.Machine.execJobDispatch s
  | .dispatchMessage inp => Sys2Proof.Machine.execDispatchMessage inp s
  | .bindCapture => Sys2Proof.Machine.execBindCapture s
  | .waitExpire ring => Sys2Proof.Machine.execWaitExpire ring s
  | .hostCancelOne port ring => Sys2Proof.Machine.execHostCancelOne port ring s
  | .hostCancelRest port ring => Sys2Proof.Machine.execHostCancelRest port ring s
  | .cancelMessage tags => Sys2Proof.Machine.execCancelMessage tags s
  | .jrNextseqWrite port ring w => Sys2Proof.Machine.execJrNextseqWrite port ring w s
  | .struckSeal hm => Sys2Proof.Machine.execStruckSeal hm s
  | .termSeal hm => Sys2Proof.Machine.execTermSeal hm s
  | .ldgFormat port => Sys2Proof.Machine.execLdgFormat port s
  | .ldgWriteOff port pos => Sys2Proof.Machine.execLdgWriteOff port pos s
  | .ldgCheckpointNow port => Sys2Proof.Machine.execLdgCheckpointNow port s
  | .mirrorMessage ck recs bodies acks => Sys2Proof.Machine.execMirrorMessage ck recs bodies acks s
  | .mirrorLag => Sys2Proof.Machine.execMirrorLag s
  | .catchupComplete => Sys2Proof.Machine.execCatchupComplete s
  | .triggerTransition n level ci fs => Sys2Proof.Machine.execTriggerTransition n level ci fs s
  | .triggerQualify n ci => Sys2Proof.Machine.execTriggerQualify n ci s
  | .triggerRearm n ci => Sys2Proof.Machine.execTriggerRearm n ci s
  | .encoderTransition n a b ci => Sys2Proof.Machine.execEncoderTransition n a b ci s
  | .encoderIndex n => Sys2Proof.Machine.execEncoderIndex n s
  | .encoderStop n => Sys2Proof.Machine.execEncoderStop n s
  | .originResolve hm => Sys2Proof.Machine.execOriginResolve hm s
  | .reachResolve hm => Sys2Proof.Machine.execReachResolve hm s
  | .poEdgeInstant n => Sys2Proof.Machine.execPoEdgeInstant n s
  | .maxactLimit n => Sys2Proof.Machine.execMaxactLimit n s
  | .markerAction n => Sys2Proof.Machine.execMarkerAction n s
  | .ilkAssert => Sys2Proof.Machine.execIlkAssert s
  | .interlockBeat => Sys2Proof.Machine.execInterlockBeat s
  | .ilkRelease beats => Sys2Proof.Machine.execIlkRelease beats s
  | .stepWaitTimeout n => Sys2Proof.Machine.execStepWaitTimeout n s
  | .spSbwrWrite port n w => Sys2Proof.Machine.execSpSbwrWrite port n w s
  | .loadStart port w farRefuses => Sys2Proof.Machine.execLoadStart port w farRefuses s
  | .loadMessage m => Sys2Proof.Machine.execLoadMessage m s
  | .loadComplete lost => Sys2Proof.Machine.execLoadComplete lost s
  | .headFrameSend p => Sys2Proof.Machine.execHeadFrameSend p s
  | .headStatusFrame p bytes => Sys2Proof.Machine.execHeadStatusFrame p bytes s
  | .headReportMissing p => Sys2Proof.Machine.execHeadReportMissing p s
  | .headLockPattern p => Sys2Proof.Machine.execHeadLockPattern p s
  | .headAlignDone p => Sys2Proof.Machine.execHeadAlignDone p s
  | .headDeclaration p words => Sys2Proof.Machine.execHeadDeclaration p words s
  | .headTrainTimeout p => Sys2Proof.Machine.execHeadTrainTimeout p s
  | .headAutotrain p => Sys2Proof.Machine.execHeadAutotrain p s
  | .headLinkLoss p => Sys2Proof.Machine.execHeadLinkLoss p s
  | .hpCmdWrite port p => Sys2Proof.Machine.execHpCmdWrite port p s
  | .hpCmdRead port p => Sys2Proof.Machine.execHpCmdRead port p s
  | .hpCmdPartner port p cop => Sys2Proof.Machine.execHpCmdPartner port p cop s
  | .hpCmdTimeout p => Sys2Proof.Machine.execHpCmdTimeout p s
  | .hpRetrain port p => Sys2Proof.Machine.execHpRetrain port p s
  | .engineTick n ci => Sys2Proof.Machine.execEngineTick n ci s
  | .engineInputEdge g level ci => Sys2Proof.Machine.execEngineInputEdge g level ci s
  | .tnkStartCommand port idx engine => Sys2Proof.Machine.execTnkStartCommand port idx engine s
  | .tnkStopCommand port idx engine => Sys2Proof.Machine.execTnkStopCommand port idx engine s
  | .tnkStartAct => Sys2Proof.Machine.execTnkStartAct s
  | .tnkStopAct => Sys2Proof.Machine.execTnkStopAct s
  | .tnkKick port hi w => Sys2Proof.Machine.execTnkKick port hi w s
  | .tnkRxwr port n w => Sys2Proof.Machine.execTnkRxwr port n w s
  | .tnkTxrd port n => Sys2Proof.Machine.execTnkTxrd port n s
  | .tnkCmdChannelIssue n => Sys2Proof.Machine.execTnkCmdChannelIssue n s
  | .groupStall => Sys2Proof.Machine.execGroupStall s
  | .sccGo port => Sys2Proof.Machine.execSccGo port s
  | .sccCheckonly port => Sys2Proof.Machine.execSccCheckonly port s
  | .sccAbort port => Sys2Proof.Machine.execSccAbort port s
  | .sccDiscard port => Sys2Proof.Machine.execSccDiscard port s
  | .stRegisterWrite port a w => Sys2Proof.Machine.execStRegisterWrite port a w s
  | .checkComplete => Sys2Proof.Machine.execCheckComplete s
  | .commitMessage id ms scope jr => Sys2Proof.Machine.execCommitMessage id ms scope jr s
  | .commitDecide far => Sys2Proof.Machine.execCommitDecide far s
  | .commitMilestone => Sys2Proof.Machine.execCommitMilestone s
  | .commitReportTimeout => Sys2Proof.Machine.execCommitReportTimeout s
  | .ringFrameReceive side f => Sys2Proof.Machine.execRingFrameReceive side f s
  | .voidFrameSend side => Sys2Proof.Machine.execVoidFrameSend side s
  | .ringLaneLoss side => Sys2Proof.Machine.execRingLaneLoss side s
  | .ringPeerLostTimeout pos babble => Sys2Proof.Machine.execRingPeerLostTimeout pos babble s
  | .ringOrphan => Sys2Proof.Machine.execRingOrphan s
  | .takeover => Sys2Proof.Machine.execTakeover s
  | .managerIsolated => Sys2Proof.Machine.execManagerIsolated s
  | .wrHandover port => Sys2Proof.Machine.execWrHandover port s
  | .handoverBeat => Sys2Proof.Machine.execHandoverBeat s
  | .unwrap => Sys2Proof.Machine.execUnwrap s
  | .windowRead port off => Sys2Proof.Machine.execWindowRead port off s
  | .windowWrite port off w => Sys2Proof.Machine.execWindowWrite port off w s
  | .windowTimeout pos => Sys2Proof.Machine.execWindowTimeout pos s
  | .regMessage m => Sys2Proof.Machine.execRegMessage m s
  | .calsetMessage sec sub regressOk tag => Sys2Proof.Machine.execCalsetMessage sec sub regressOk tag s
  | .detailMessage pos inc tag d0 d1 => Sys2Proof.Machine.execDetailMessage pos inc tag d0 d1 s
  | .offtabMessage bn tab => Sys2Proof.Machine.execOfftabMessage bn tab s
  | .ledgerMessage us pos inc m => Sys2Proof.Machine.execLedgerMessage us pos inc m s
  | .provMessage m => Sys2Proof.Machine.execProvMessage m s
  | .fenFence port dom => Sys2Proof.Machine.execFenFence port dom s
  | .fenUnfence port dom => Sys2Proof.Machine.execFenUnfence port dom s
  | .fenPark port dom expire => Sys2Proof.Machine.execFenPark port dom expire s
  | .fenceJobClose hm => Sys2Proof.Machine.execFenceJobClose hm s
  | .fenLogPop port => Sys2Proof.Machine.execFenLogPop port s
  | .asyCmdLines port target => Sys2Proof.Machine.execAsyCmdLines port target s
  | .asyCmdTdc port target => Sys2Proof.Machine.execAsyCmdTdc port target s
  | .asyCmdXloop port target loopIn => Sys2Proof.Machine.execAsyCmdXloop port target loopIn s
  | .asyCmdRskew port => Sys2Proof.Machine.execAsyCmdRskew port s
  | .asyCmdAbort port => Sys2Proof.Machine.execAsyCmdAbort port s
  | .assayAttemptStart => Sys2Proof.Machine.execAssayAttemptStart s
  | .assayDisturbed => Sys2Proof.Machine.execAssayDisturbed s
  | .assayPostcheck inp => Sys2Proof.Machine.execAssayPostcheck inp s
  | .tdcAutoStart => Sys2Proof.Machine.execTdcAutoStart s
  | .driftApply corr => Sys2Proof.Machine.execDriftApply corr s
  | .rskewRetry => Sys2Proof.Machine.execRskewRetry s
  | .calCtrlArm port regressOk => Sys2Proof.Machine.execCalCtrlArm port regressOk s
  | .calCtrlCancel port regressOk => Sys2Proof.Machine.execCalCtrlCancel port regressOk s
  | .calendarSetApply => Sys2Proof.Machine.execCalendarSetApply s
  | .btBnLoRead port ci => Sys2Proof.Machine.execBtBnLoRead port ci s
  | .calNowRead port => Sys2Proof.Machine.execCalNowRead port s
  | .calPrintRead port => Sys2Proof.Machine.execCalPrintRead port s
  | .trgCap0Read port n => Sys2Proof.Machine.execTrgCap0Read port n s
  | .encPosiLoRead port n => Sys2Proof.Machine.execEncPosiLoRead port n s
  | .rcRegisterRead port a => Sys2Proof.Machine.execRcRegisterRead port a s
  | .jtagInstruction inp testMode => Sys2Proof.Machine.execJtagInstruction inp testMode s
  | .registerWrite port a w => Sys2Proof.Machine.execRegisterWrite port a w s
  | .bypassSourceReturn => Sys2Proof.Machine.execBypassSourceReturn s
  | .linkUp gen2 width bme msixEn intDis => Sys2Proof.Machine.execLinkUp gen2 width bme msixEn intDis s
  | .signalDetected side => Sys2Proof.Machine.execSignalDetected side s

end Sys2Proof.Machine
end

