-- ==== Sys2Proof/Safety.lean ====
section
/-!
DEFINITION. Sys2Proof/Safety.lean: the words in which the statements speak: the canonical form of the segment store, a safe step, which
commands are register accesses of a port, and what a command leaves alone.
-/
namespace Sys2Proof.Machine
open Sys2Proof

/-- The segment store is in canonical form: addresses strictly rising, no entry equal to what an unlisted address reads as. -/
def Memory.wf (m : List Host.Cell) : Bool := mwf storeDefault m

/-- A safe step: it answers a next state, neither a fault nor a refusal. -/
def SafeStep (s : State) : Prop := ∃ t, step s = .next t

/-- The port and the BAR0 offset of a command that is a register write of a port; none for any other command. -/
def writeOf : Instr → Option (Port × Nat)
  | .pwrCmdRun port _ => some (port, R.PWR_CMD)
  | .pwrCmdReady port _ => some (port, R.PWR_CMD)
  | .pwrCmdStandby port _ => some (port, R.PWR_CMD)
  | .pwrCmdPark port _ _ _ => some (port, R.PWR_CMD)
  | .pwrCmdOff port _ _ => some (port, R.PWR_CMD)
  | .supDcthrWrite port second _ => some (port, (if second then R.SUP_DCTHR1 else R.SUP_DCTHR0))
  | .clkCmdUnfence port => some (port, R.CLK_CMD)
  | .asCmdHop port _ => some (port, R.AS_CMD)
  | .asCmdSync port => some (port, R.AS_CMD)
  | .asCmdReturn port => some (port, R.AS_CMD)
  | .asCmdDivApply port _ => some (port, R.AS_CMD)
  | .asCmdSearchAll port => some (port, R.AS_CMD)
  | .asCmdCancel port => some (port, R.AS_CMD)
  | .doorbellWrite port ring _ => some (port, (R.JR_DB ring.val))
  | .sqEnable port ring _ => some (port, (R.JR_SQCFG ring.val))
  | .cqEnable port q _ => some (port, (R.HST_CQ_CFG q.val))
  | .cqHeadWrite port q _ => some (port, (R.HST_CQ_HEAD q.val))
  | .msixUnmask port v => some (port, (R.MSIX_TABLE (4 * v.val + 3)))
  | .hostGo port => some (port, R.HST_CTRL)
  | .hstSubgo port _ => some (port, R.HST_SUBGO)
  | .hostCancelOne port _ => some (port, R.JR_CANCEL_CMD)
  | .hostCancelRest port _ => some (port, R.JR_CANCEL_CMD)
  | .jrNextseqWrite port ring _ => some (port, (R.JR_NEXTSEQ ring.val))
  | .ldgFormat port => some (port, R.LDG_CMD)
  | .ldgWriteOff port _ => some (port, R.LDG_CMD)
  | .ldgCheckpointNow port => some (port, R.LDG_CMD)
  | .spSbwrWrite port n _ => some (port, (R.SP_SBWR n.val))
  | .loadStart port _ _ => some (port, R.SP_LDCMD)
  | .hpCmdWrite port p => some (port, (R.HP_CMD p.val))
  | .hpCmdRead port p => some (port, (R.HP_CMD p.val))
  | .hpCmdPartner port p _ => some (port, (R.HP_CMD p.val))
  | .hpRetrain port p => some (port, (R.HP_TRAIN p.val))
  | .tnkStartCommand port _ _ => some (port, R.TNK_CMD)
  | .tnkStopCommand port _ _ => some (port, R.TNK_CMD)
  | .tnkKick port hi _ => some (port, (if hi then R.TNK_KICK_HI else R.TNK_KICK_LO))
  | .tnkRxwr port n _ => some (port, (R.TNK_RXWR n.val))
  | .sccGo port => some (port, R.SCC_CMD)
  | .sccCheckonly port => some (port, R.SCC_CMD)
  | .sccAbort port => some (port, R.SCC_CMD)
  | .sccDiscard port => some (port, R.SCC_CMD)
  | .stRegisterWrite port a _ => some (port, (a.toNat / 4 * 4))
  | .wrHandover port => some (port, R.WR_CMD)
  | .windowWrite port off _ => some (port, (0xE0000 + off.toNat))
  | .fenFence port _ => some (port, R.FEN_CMD)
  | .fenUnfence port _ => some (port, R.FEN_CMD)
  | .fenPark port _ _ => some (port, R.FEN_CMD)
  | .asyCmdLines port _ => some (port, R.ASY_CMD)
  | .asyCmdTdc port _ => some (port, R.ASY_CMD)
  | .asyCmdXloop port _ _ => some (port, R.ASY_CMD)
  | .asyCmdRskew port => some (port, R.ASY_CMD)
  | .asyCmdAbort port => some (port, R.ASY_CMD)
  | .calCtrlArm port _ => some (port, R.CAL_CTRL)
  | .calCtrlCancel port _ => some (port, R.CAL_CTRL)
  | .registerWrite port x _ => some (port, x.a.toNat)
  | _ => none

/-- The port and the BAR0 offset of a command that is a register read of a port; none for any other command. -/
def readOf : Instr → Option (Port × Nat)
  | .supMevtPop port => some (port, R.SUP_MEVT_CODE)
  | .hstCqw7Read port => some (port, (R.HST_CQW 7))
  | .tnkTxrd port n => some (port, (R.TNK_TXRD n.val))
  | .fenLogPop port => some (port, R.FEN_LOG0)
  | .btBnLoRead port _ => some (port, R.BT_BN_LO)
  | .calNowRead port => some (port, R.CAL_NOW_SEC_LO)
  | .calPrintRead port => some (port, R.CAL_PRINT_SEC_LO)
  | .trgCap0Read port n => some (port, (R.TRG_CAP0 n.val))
  | .encPosiLoRead port n => some (port, (R.ENC_POSI_LO n.val))
  | .rcRegisterRead port x => some (port, x.a.toNat)
  | _ => none

/-- Outside the offsets of l, every active register holds what it held. -/
def Dev.regsBut (d d' : Dev) (l : List Nat) : Prop := ∀ a, a ∉ l → d'.reg a = d.reg a

/-- The registers that raising an interrupt vector may change: the ISR and the pending-bit array (R289, R290). -/
def irqRegs : List Nat := [R.HST_ISR0, R.HST_ISR1, R.MSIX_PBA 0, R.MSIX_PBA 1]

/-- Serving a read of a port has touched nothing but what was sent, the latch shadows and, for a window read, ID_WRLAST (R860). -/
def ReadLeaves (s t : State) (p : Port) : Prop :=
  t = { s with dev := { s.dev with regs := t.dev.regs, out := t.dev.out, shHost := t.dev.shHost, shSpi := t.dev.shSpi,
                                   shWin := t.dev.shWin } } ∧
  s.dev.regsBut t.dev (if p = .window then [R.ID_WRLAST_ADDR, R.ID_WRLAST_DATA] else [])

/-- The latch shadows of the ports other than p are untouched (R264, R874). -/
def OtherShadows (s t : State) (p : Port) : Prop :=
  (p ≠ .host → t.dev.shHost = s.dev.shHost) ∧ (p ≠ .spi → p ≠ .spiRo → t.dev.shSpi = s.dev.shSpi) ∧
  (p ≠ .window → t.dev.shWin = s.dev.shWin)

end Sys2Proof.Machine
end

