-- ==== Sys2Proof/WellFormed.lean ====
section
/-!
DEFINITION. Sys2Proof/WellFormed.lean: what the world outside can hand the block: the lengths that the spec fixes for
waybills, bodies, records, frames, declarations and write transactions. A command that is not well formed has its
meaning all the same (missing words read as 0).
-/
namespace Sys2Proof

/-- A command carries operands of the lengths the spec gives. -/
def wellFormed : Instr → Bool
  -- A waybill is 16 words (R315), and a DISPATCH message carries one whole (Table RNG-6).
  | .dispatchMessage m => decide (m.body.length = 16)
  -- A log record is 8 words (Table LDG-2), an ACCEPT with its body 20 (R751), and a waybill body 16 (R390).
  | .mirrorMessage _ recs bodies _ =>
      recs.all (fun r => decide (r.length = 8) || decide (r.length = 20)) && bodies.all (fun b => decide (b.2.length = 16))
  -- A status frame is 12 bytes (R587), and a declaration cycle 8 words (Table HPT-6).
  | .headStatusFrame _ bytes => decide (bytes.length = 12)
  | .headDeclaration _ words => decide (words.length = 8)
  -- A segment-store write carries at least one byte and at most one payload of 256 (R266).
  -- It lies in the 16 MiB that BAR2 maps (Table HST-3), and the data of a load in those of the store (R524).
  | .storeWrite _ off bytes => decide (0 < bytes.length) && decide (bytes.length ≤ 256) && decide (off.toNat + bytes.length ≤ 2 ^ 24)
  | .loadMessage m => m.stream || decide (m.dst.toNat + m.bytes.length ≤ 2 ^ 24)
  -- A read brings whole waybills of 16 words (R315).
  | .waybillReadComplete _ slots => slots.all (fun w => decide (w.length = 16))
  -- A write transaction carries the 1 to 16 words LEN names (Table HST-5).
  | .spiWrite low _ ws _ => decide (ws.length = low.toNat % 16 + 1)
  -- A frame has 16 binding slots and two report items in each status slot (Tables RNG-1, RNG-5).
  | .ringFrameReceive _ f => decide (f.binds.length ≤ 16) && f.slots.all (fun x => decide (x.items.length ≤ 2))
  | _ => true

end Sys2Proof
end

