-- ==== Sys2Proof/Certificates/Slice0/Obligations.lean ====
section
/-!
DEFINITION. Sys2Proof/Certificates/Slice0/Obligations.lean: the statements for the provers, chapter by chapter. `t` is the next state; an
equation for `t` says at once what the command writes and that it writes nothing else.
-/
open Sys2Proof Sys2Proof.Machine

/-! ## The queue, reset, the segment store and what may stop the block -/

/-- A step runs the command at the front of the queue, with the rest of the queue left. The model's own choice (log entry 2): on an
empty queue the block idles. -/
def Obligations.StepRunsFrontCommand : Prop :=
  (∀ (c : Instr) (rest : List Instr) (s : State), s.pending = c :: rest → step s = exec c { s with pending := rest }) ∧
  (∀ s : State, s.pending = [] → step s = .next s)

/-- R853, R854 and Table MAP-2: the reset value of every register, in both images: those listed, and 0 everywhere else. -/
def Obligations.ResetValuesOfRegisters : Prop :=
  let listed : List (Nat × Word) :=
    [(R.ID_VENDEV, 0x40961F6C), (R.ID_CAPS, 0x10401020), (R.PWR_STAT, 0xF), (R.PWR_CTRL, 1), (R.PWR_RESUME, 0x00C80000),
     (R.PWR_PENTMO, 0x14), (R.SUP_MTHR0, 0x0A735028), (R.SUP_MTHR1, 0x00144222), (R.SUP_MACT, 0x23), (R.SUP_MGAIN, 0x4000),
     (R.SUP_DCTHR1, 0x4B0), (R.SUP_BKPTHR, 0xCE4), (R.CLK_CTRL, 4), (R.AS_CTRL, 2), (R.AS_BYP, 0x10), (R.PO_ILKREL, 0x824),
     (R.WR_CTRL, 0x00100004), (R.ASY_CTRL, 0x08240103), (R.ASY_TDCPER, 0x774)] ++
    (List.range 4).flatMap (fun i => [(R.PWR_WSTATE i, 0xFFFFFFFF), (R.AS_DIV i, 4), (R.AS_OUT i, 0x10)]) ++
    (List.range 8).flatMap (fun p => (R.AS_PN p, 0x80) :: (List.range 4).map (fun i => (R.AS_PD p i, 4))) ++
    (List.range 16).flatMap (fun q => [(R.HST_CQ_MOD q, 1), (R.HP_CFG q, 0x34), (R.HP_LATMAX q, 0x4B0), (R.HP_EXPECT1 q, 0x00010001),
      (R.HP_ERRTHR q, 0x10), (R.TNK_SGCFG q, 0x800)]) ++
    (List.range 64).flatMap (fun v => [(R.MSIX_TABLE (4 * v + 3), 1), (R.TNK_DIV v, 0x00010000)]) ++
    (List.range 8).flatMap (fun n => [(R.ENC_SPWIN n, 0x51620100), (R.ENC_PERRMAX n, 0x10)]) ++
    (List.range 32).map (fun t => (R.TAL_STEP t, 1)) ++ (List.range 512).map (fun j => (R.JR_ACFG j, 0x00014000))
  (∀ c ∈ listed, State.reset.dev.reg c.1 = c.2) ∧ (∀ a, a ∉ listed.map (fun c => c.1) → State.reset.dev.reg a = 0) ∧
  ∀ a, State.reset.dev.stg a = State.reset.dev.reg a

/-- After reset the store holds nothing and is canonical, no command waits, no job is held, PORST_L is asserted and no core runs. -/
def Obligations.ResetStateIsIdle : Prop :=
  Memory.wf State.reset.store = true ∧ State.reset.pending = [] ∧ (∀ a, storeByte State.reset.store a = 0) ∧
  State.reset.dev.jobs = [] ∧ State.reset.dev.boot.porst = true ∧ State.reset.dev.pwr.vcore = false ∧ State.reset.dev.t.running = false ∧
  State.reset.dev.pstate = 15

/-- Every step keeps the segment store in canonical form. -/
def Obligations.StoreStaysCanonical : Prop :=
  ∀ s t : State, Memory.wf s.store = true → step s = .next t → Memory.wf t.store = true

/-- No command touches the queue, and only a store write, a load message and an SPI write touch the segment store. -/
def Obligations.QueueAndStoreFrame : Prop :=
  ∀ (c : Instr) (s t : State), exec c s = .next t →
    t.pending = s.pending ∧
    ((∀ p off b, c ≠ .storeWrite p off b) → (∀ m, c ≠ .loadMessage m) → (∀ l a w k, c ≠ .spiWrite l a w k) →
      ∀ a, storeByte t.store a = storeByte s.store a)

/-- What stops the block: an ill-formed store write or load, one whose bytes leave the 16 MiB store, faults; a factory instruction of the test access port
under PORST_L and TESTMODE is refused; every other command answers a next state. -/
def Obligations.OnlyTheseCommandsStop : Prop :=
  ∀ (c : Instr) (s : State),
    (∀ f, exec c s = .fault f → f = .outsideStore ∧ wellFormed c = false ∧ ((∃ p off b, c = .storeWrite p off b) ∨ ∃ m, c = .loadMessage m)) ∧
    (∀ r, exec c s = .refused r → r = .factoryTap ∧ s.dev.boot.porst = true ∧ ∃ k, c = .jtagInstruction (.factory k) true) ∧
    (wellFormed c = true → (∀ k, c = .jtagInstruction (.factory k) true → s.dev.boot.porst = false) → ∃ t, exec c s = .next t) ∧
    (∀ (i : TapInstr) (tm : Bool), (∀ k, i = .factory k → s.dev.boot.porst = false ∨ tm = false) →
      ∃ t, exec (.jtagInstruction i tm) s = .next t ∧
        ((∃ k, i = .factory k) ∨ (s.dev.boot.porst = false ∧ i ≠ .sample) → t.dev.tap = .bypass) ∧
        ((∀ k, i ≠ .factory k) → s.dev.boot.porst = true ∨ i = .sample → t.dev.tap = i) ∧
        t = { s with dev := { s.dev with tap := t.dev.tap } })

/-! ## Which accesses act (06_host_port.md, 03_straps_and_startup.md, 18_register_map.md) -/

/-- A register write of a port that the gate drops changes nothing, and one that it turns into RSV_WRITE sets that bit alone. A register
read of a port that is not live sends nothing; one of a register that the port does not reach reads 0, and before READY one of any
register but the ID_ block and those of the start-up chapter reads the reset value (R121), which for HP_CFG of a port that HPSET
enables is 0x35 and of any other port 0x34 (R567); none of them changes a register. R263,
R874: a read from a read-only SPI port, and a window read that comes from one, changes nothing but what is sent. -/
def Obligations.RefusedAccessesChangeNothing : Prop :=
  (∀ (c : Instr) (p : Port) (a : Nat) (s : State), writeOf c = some (p, a) →
     (s.dev.gate p a = .drop → exec c s = .next s) ∧
     (s.dev.gate p a = .rsv → exec c s = .next { s with dev := s.dev.setFlag F.HST_STAT_RSV_WRITE true })) ∧
  (∀ (c : Instr) (p : Port) (a : Nat) (s : State), readOf c = some (p, a) →
     (s.dev.rgate p a = .none → exec c s = .next s) ∧
     (s.dev.rgate p a = .zero → exec c s = .next { s with dev := { s.dev with out := s.dev.out ++ [.readData p 0] } }) ∧
     (s.dev.rgate p a = .reset → exec c s =
       .next { s with dev := { s.dev with out := s.dev.out ++ [.readData p (s.dev.resetRead a)] } })) ∧
  (∀ (d : Dev) (a : Nat), ((∀ k, a ≠ R.HP_CFG k) → d.resetRead a = resetWord a) ∧
     (∀ k < 16, d.resetRead (R.HP_CFG k) = if k < d.fld F.SUP_RCODE_HPSET then 0x35 else 0x34)) ∧
  (∀ (s : State) (p : Port) (a : BitVec 20) (w : Word), s.dev.portRo p = true → s.dev.readLatch p a.toNat = none →
     ∃ t, exec (.rcRegisterRead p ⟨a, w⟩) s = .next t ∧ t = { s with dev := { s.dev with out := t.dev.out } })

/-- Which writes reach a register: none through a read-only SPI port (R263), none on a worker's host-facing ports (R262), only
host-interface registers on a reserve (R71), and before READY only ID_ and start-up registers and doorbells (R117, R121), with the
exception of log entry 5. -/
def Obligations.WriteGate : Prop :=
  ∀ (d : Dev) (a : Nat),
    (d.flag F.SUP_STRAP_HOSTSEL = false → d.gate .spi a = .drop) ∧
    (d.boot.role = .worker → d.gate .host a = .drop ∧ d.gate .spi a = .drop) ∧
    (d.gate .windowRo a = .drop ∧ d.gate .spiRo a = .drop) ∧
    (d.flag F.SUP_STRAP_HOSTSEL = true → d.gate .host a = .drop) ∧
    (d.boot.role = .reserve → d.boot.roleKnown = true → d.boot.strapsValid = true → d.boot.conflict = false → hostReg a = false → ringHostReg a = false →
      d.flag F.SUP_STRAP_HOSTSEL = false → d.gate .host a = .rsv) ∧
    (∀ p, d.started = false → d.pwr.exiting = false → d.boot.conflict = false → d.pwr.vcore = true → earlyReg a = false →
      bellReg a = false → d.gate p a ≠ .pass)

/-! ## Reads that latch and pop (02_beat_and_time.md, 09, 18_register_map.md) -/

/-- R61, R62: a read of the low word of the beat number or of a calendar sends it, and latches the rest at the same cycle into the
shadows of its own port; the others keep theirs, and nothing else changes but ID_WRLAST of a window read (R264, R860, R874). R61: a
read of TRG_CAP0 sends it and latches TRG_CAP1 and TRG_CAP2; a read of ENC_POSI_LO sends bits 47 to 16 of the reported position in
2^-16 counts and latches the rest with the speed. -/
def Obligations.TimeAndCaptureReadsLatch : Prop :=
  (∀ (s : State) (p : Port),
     (∀ ci : Fin 240, s.dev.rgate p R.BT_BN_LO = .full → ∃ t, exec (.btBnLoRead p ci) s = .next t ∧ ReadLeaves s t p ∧ OtherShadows s t p ∧
       t.dev.out = s.dev.out ++ [.readData p (s.dev.t.bn.setWidth 32)] ∧
       (p ≠ .windowRo → t.dev.shadow p R.BT_BN_HI = (s.dev.t.bn >>> 32).setWidth 32 ∧ t.dev.shadow p R.BT_CI = BitVec.ofNat 32 ci.val)) ∧
     (s.dev.rgate p R.CAL_NOW_SEC_LO = .full → ∃ t, exec (.calNowRead p) s = .next t ∧ ReadLeaves s t p ∧ OtherShadows s t p ∧
       t.dev.out = s.dev.out ++ [.readData p (BitVec.ofNat 32 s.dev.cal.now.sec)] ∧
       (p ≠ .windowRo → t.dev.shadow p R.CAL_NOW_SEC_HI = BitVec.ofNat 32 (s.dev.cal.now.sec / 2 ^ 32) ∧
         t.dev.shadow p R.CAL_NOW_SUB = BitVec.ofNat 32 s.dev.cal.now.sub)) ∧
     (s.dev.rgate p R.CAL_PRINT_SEC_LO = .full → ∃ t, exec (.calPrintRead p) s = .next t ∧ ReadLeaves s t p ∧ OtherShadows s t p ∧
       t.dev.out = s.dev.out ++ [.readData p (BitVec.ofNat 32 s.dev.cal.print.sec)] ∧
       (p ≠ .windowRo → t.dev.shadow p R.CAL_PRINT_SEC_HI = BitVec.ofNat 32 (s.dev.cal.print.sec / 2 ^ 32) ∧
         t.dev.shadow p R.CAL_PRINT_SUB = BitVec.ofNat 32 s.dev.cal.print.sub))) ∧
  (∀ (s : State) (p : Port),
     (∀ n : Fin 16, s.dev.rgate p (R.TRG_CAP0 n.val) = .full → ∃ t, exec (.trgCap0Read p n) s = .next t ∧ ReadLeaves s t p ∧
       OtherShadows s t p ∧ t.dev.out = s.dev.out ++ [.readData p (s.dev.reg (R.TRG_CAP0 n.val))] ∧
       (p ≠ .windowRo → t.dev.shadow p (R.TRG_CAP1 n.val) = s.dev.reg (R.TRG_CAP1 n.val) ∧
         t.dev.shadow p (R.TRG_CAP2 n.val) = s.dev.reg (R.TRG_CAP2 n.val))) ∧
     (∀ n : Fin 8, s.dev.rgate p (R.ENC_POSI_LO n.val) = .full → ∃ t, exec (.encPosiLoRead p n) s = .next t ∧ ReadLeaves s t p ∧
       OtherShadows s t p ∧
       t.dev.out = s.dev.out ++ [.readData p (BitVec.ofNat 32 (unsigned 56 (s.dev.enc n.val).shown / 2 ^ 16))] ∧
       (p ≠ .windowRo →
         t.dev.shadow p (R.ENC_POSI_HI n.val) = BitVec.ofNat 32 (unsigned 56 (s.dev.enc n.val).shown / 2 ^ 48 +
           unsigned 56 (s.dev.enc n.val).shown % 2 ^ 16 * 2 ^ 16) ∧
         t.dev.shadow p (R.ENC_SPEED n.val) = (s.dev.enc n.val).speedWord)))

/-- A popping read of a port that is not read-only takes the oldest entry: of the supply events (R168), of the reason log (R791), of the
selected completion queue (R302) or of an engine's TX queue (R645). R15, R17: a read of a register that neither latches nor pops,
from a port that is not read-only, sends its word (wo and reserved bits as 0) and clears its rc bits; of an event that falls in the
same core cycle, `w`, the read does not show the rc bits, which are held for the next read; every other register keeps its word (but
for ID_WRLAST of a window read of an rc register). -/
def Obligations.PoppingAndClearingReads : Prop :=
  (∀ (s : State) (p : Port), s.dev.portRo p = false →
     (∀ (e : SupEvt) (r : List SupEvt), s.dev.rgate p R.SUP_MEVT_CODE = .full → s.dev.pwr.mevt = e :: r →
       ∃ t, exec (.supMevtPop p) s = .next t ∧ t.dev.pwr = { s.dev.pwr with mevt := r, mevtLost := 0 } ∧
         t.dev.out = s.dev.out ++ [.readData p (BitVec.ofNat 32 (e.code.toNat + s.dev.pwr.mevtLost * 2 ^ 16 + 2 ^ 24))] ∧
         t.dev.shadow p R.SUP_MEVT_BN_LO = BitVec.ofNat 32 e.bn ∧ t.dev.shadow p R.SUP_MEVT_BN_HI = BitVec.ofNat 32 (e.bn / 2 ^ 32) ∧
         t.dev.shadow p R.SUP_MEVT_VAL = BitVec.ofNat 32 e.val ∧ OtherShadows s t p ∧
         ReadLeaves { s with dev := { s.dev with pwr := t.dev.pwr } } t p) ∧
     (∀ (e : LogEntry) (r : List LogEntry), s.dev.rgate p R.FEN_LOG0 = .full → s.dev.fen.log = e :: r →
       ∃ t, exec (.fenLogPop p) s = .next t ∧ t.dev.fen = { s.dev.fen with log := r } ∧
         t.dev.out = s.dev.out ++ [.readData p (BitVec.ofNat 32 (e.reason.toNat + e.inc * 2 ^ 16 + (if e.clear then 2 ^ 24 else 0) + 2 ^ 25))] ∧
         t.dev.shadow p R.FEN_LOG2 = BitVec.ofNat 32 e.bn ∧ t.dev.shadow p R.FEN_LOG3 = BitVec.ofNat 32 (e.bn / 2 ^ 32) ∧
         OtherShadows s t p ∧ ReadLeaves { s with dev := { s.dev with fen := t.dev.fen } } t p) ∧
     (∀ (e : List Word) (r : List (List Word)), s.dev.rgate p (R.HST_CQW 7) = .full →
       (s.dev.cq (s.dev.fld F.HST_CQSEL_COMPLETION)).fifo = e :: r →
       ∃ t, exec (.hstCqw7Read p) s = .next t ∧ t.dev.out = s.dev.out ++ [.readData p (e.getD 7 0)] ∧
         (t.dev.cq (s.dev.fld F.HST_CQSEL_COMPLETION)).fifo = r ∧
         t.dev.num (R.HST_CQ_HEAD (s.dev.fld F.HST_CQSEL_COMPLETION)) =
           (s.dev.num (R.HST_CQ_HEAD (s.dev.fld F.HST_CQSEL_COMPLETION)) + 1) % 2 ^ 32 ∧
         s.dev.regsBut t.dev [R.HST_CQ_HEAD (s.dev.fld F.HST_CQSEL_COMPLETION), R.HST_CQ_STAT (s.dev.fld F.HST_CQSEL_COMPLETION)] ∧
         (∀ k, k ≠ s.dev.fld F.HST_CQSEL_COMPLETION → t.dev.cq k = s.dev.cq k) ∧
         t = { s with dev := { s.dev with regs := t.dev.regs, hst := { s.dev.hst with cqs := t.dev.hst.cqs }, out := t.dev.out } }) ∧
     (∀ (n : Fin 64) (w : Word) (c : Nat) (r : List (Word × Nat)), s.dev.rgate p (R.TNK_TXRD n.val) = .full →
       s.dev.flag (F.TNK_CFG_TXDST n.val) = false → (s.dev.eng n.val).tx.items = (w, c) :: r →
       ∃ t, exec (.tnkTxrd p n) s = .next t ∧ t.dev.out = s.dev.out ++ [.readData p w] ∧ (t.dev.eng n.val).tx.items = r ∧
         (∀ k, k ≠ n.val → t.dev.eng k = s.dev.eng k) ∧
         ReadLeaves { s with dev := { s.dev with tnk := { s.dev.tnk with eng := t.dev.tnk.eng } } } t p)) ∧
  (∀ (s : State) (p : Port) (a : BitVec 20) (w : Word) (r : RegRow), s.dev.portRo p = false → s.dev.rgate p a.toNat = .full →
     s.dev.readLatch p a.toNat = none → regRow? a.toNat = some r → r.rc ≠ 0 → s.dev.portView p = false →
     a.toNat ≠ R.ID_WRLAST_ADDR → a.toNat ≠ R.ID_WRLAST_DATA →
     ∃ t, exec (.rcRegisterRead p ⟨a, w⟩) s = .next t ∧
       t.dev.out = s.dev.out ++ [.readData p ((s.dev.showReg p a.toNat &&&
         (BitVec.ofNat 32 r.rw ||| BitVec.ofNat 32 r.ro ||| BitVec.ofNat 32 r.w1c ||| BitVec.ofNat 32 r.rc ||| BitVec.ofNat 32 r.st)) -
         (w &&& BitVec.ofNat 32 r.rc))] ∧
       t.dev.reg a.toNat = (s.dev.reg a.toNat &&& ~~~(BitVec.ofNat 32 r.rc)) ||| (w &&& BitVec.ofNat 32 r.rc) ∧
       s.dev.regsBut t.dev (a.toNat :: if p = .window then [R.ID_WRLAST_ADDR, R.ID_WRLAST_DATA] else []) ∧
       t = { s with dev := { s.dev with regs := t.dev.regs, out := t.dev.out } })

/-- R15: a write of a register with neither staged bits nor an effect of its own writes its rw bits, clears the w1c bits written as 1,
and leaves every other bit and register alone; R16, R868: of the bits `x` that the device sets or updates in the same core cycle, w1c
bits stay set and rw bits keep the device's value. An offset with no register takes no write and reads 0 (R14). R18: a write of an st
register with no commit in progress changes its staged bits in the stage image and nothing else: no active value changes. -/
def Obligations.RegisterWritesByBitType : Prop :=
  (∀ (s : State) (p : Port) (a : BitVec 20) (w x : Word), s.dev.gate p a.toNat = .pass → s.dev.writeSys a.toNat w = none →
     s.dev.writeAdm p a.toNat w = none → s.dev.writeUnit s.store a.toNat w = none →
     (∀ r, regRow? a.toNat = some r → r.st = 0 →
       ∃ t, exec (.registerWrite p ⟨a, x⟩ w) s = .next t ∧
         t.dev.reg a.toNat = ((((s.dev.reg a.toNat &&& ~~~(BitVec.ofNat 32 r.rw)) ||| (w &&& BitVec.ofNat 32 r.rw)) &&&
             ~~~(w &&& BitVec.ofNat 32 r.w1c)) &&& ~~~(x &&& BitVec.ofNat 32 r.rw)) |||
           (x &&& BitVec.ofNat 32 r.w1c &&& s.dev.reg a.toNat) ||| (s.dev.reg a.toNat &&& (x &&& BitVec.ofNat 32 r.rw)) ∧
         s.dev.regsBut t.dev [a.toNat] ∧ t = { s with dev := { s.dev with regs := t.dev.regs } }) ∧
     (regRow? a.toNat = none → exec (.registerWrite p ⟨a, x⟩ w) s = .next s ∧
       (s.dev.rgate p a.toNat = .full ∨ s.dev.rgate p a.toNat = .zero → s.dev.readLatch p a.toNat = none →
         ∃ t, exec (.rcRegisterRead p ⟨a, x⟩) s = .next t ∧ t.dev.out = s.dev.out ++ [.readData p 0]))) ∧
  (∀ (s : State) (p : Port) (a : BitVec 20) (w : Word), a.toNat % 4 = 0 → stMask a.toNat ≠ 0 → s.dev.gate p a.toNat = .pass →
     s.dev.scc.cur = none →
     ∃ t, exec (.stRegisterWrite p a w) s = .next t ∧
       t.dev.stg a.toNat = (s.dev.stg a.toNat &&& ~~~(stMask a.toNat)) ||| (w &&& stMask a.toNat) ∧
       (∀ b, b ≠ a.toNat → t.dev.stg b = s.dev.stg b) ∧ t = { s with dev := { s.dev with stage := t.dev.stage } })

/-! ## Time and the calendar (02_beat_and_time.md) -/

/-- R68: n beat-driven advances together move the true calendar on by 2 061 units each and by the carries of the remainder counter of
modulus 390 625; so 390 625 of them by exactly 805 306 368 units. R69, R54: a calendar-oscillator tick advances the true calendar by
131 072 units while VCORE is absent, while the core runs on its holdover oscillator or with the beat counter stopped, and is counted
while the counter is stopped; while beats on the locked or the ring-recovered core clock advance the calendar it changes nothing. That
a running counter means a locked clock outside the holdover oscillator is the model's choice (log entry 111). -/
def Obligations.CalendarRateAndOscillatorTick : Prop :=
  ((∀ (d : Dev) (n : Nat), d.cal.now.units < 2 ^ 96 → d.cal.rem < 390625 →
     (Nat.repeat Dev.calBeat n d).cal.now.units = (d.cal.now.units + 2061 * n + (d.cal.rem + 228243 * n) / 390625) % 2 ^ 96 ∧
     (Nat.repeat Dev.calBeat n d).cal.rem = (d.cal.rem + 228243 * n) % 390625) ∧
   ∀ d : Dev, d.cal.now.units + 805306368 < 2 ^ 96 → d.cal.rem < 390625 →
     (Nat.repeat Dev.calBeat 390625 d).cal.now.units = d.cal.now.units + 805306368 ∧ (Nat.repeat Dev.calBeat 390625 d).cal.rem = d.cal.rem) ∧
  (∀ s : State,
     (s.dev.pwr.vcore = false ∨ s.dev.flag F.CLK_STAT_HOLDOVER = true ∨ s.dev.t.running = false →
       ∃ t, exec .calOscTick s = .next t ∧ t.dev.cal.now = CalVal.ofUnits (s.dev.cal.now.units + 131072) ∧
         t.dev.t = { s.dev.t with stopTicks := s.dev.t.stopTicks + if s.dev.t.running then 0 else 1 } ∧
         t.dev.cal.rem = s.dev.cal.rem ∧ t.dev.cal.pend = s.dev.cal.pend ∧ s.dev.regsBut t.dev (R.CAL_STAT :: irqRegs) ∧
         t = { s with dev := { s.dev with regs := t.dev.regs, out := t.dev.out, cal := t.dev.cal, t := t.dev.t } }) ∧
     (s.dev.pwr.vcore = true → s.dev.flag F.CLK_STAT_HOLDOVER = false → s.dev.t.running = true →
       exec .calOscTick s = .next s))

/-- R70, R72, R73, R77, R90: ARM copies the set registers into the pending set with the REGRESS_OK of the write, in place of an earlier
set, and a manager sends it to every device; a refused set leaves the pending one (the model's choice: log entry 6), records its
reason, consumes REGRESS_OK and raises vector 21. Table BEA-6: a set is refused with REF_WINDOW when its tag beat lies too near (4 beats standalone, L + 8 in a
ring) or more than 2^32 beats ahead, with REF_FORMAT beyond 9999-12-31 23:59:59, and with REF_STATE for a set back under REGRESS_OK
at epoch 0xFFFF; no other set is refused, and a set that meets several cases is refused with the reason of one of them. R73, R77:
CANCEL withdraws a pending set and its REGRESS_OK; with none pending it stores REGRESS_OK alone. -/
def Obligations.CalendarArmAndCancel : Prop :=
  (∀ (s : State) (p : Port) (g : Bool), s.dev.gate p R.CAL_CTRL = .pass →
     let v : CalVal := { sec := s.dev.num2 R.CAL_SET_SEC_LO R.CAL_SET_SEC_HI, sub := s.dev.num R.CAL_SET_SUB }
     let tag := s.dev.num2 R.CAL_SET_BN_LO R.CAL_SET_BN_HI
     (s.dev.calRefusal v tag g = none → ∃ t, exec (.calCtrlArm p g) s = .next t ∧
       t.dev.cal = { s.dev.cal with pend := some { val := v, tag := tag, regressOk := g } } ∧ t.dev.flag F.CAL_STAT_PENDING = true ∧
       t.dev.flag F.CAL_CTRL_REGRESS_OK = g ∧ s.dev.regsBut t.dev [R.CAL_CTRL, R.CAL_STAT] ∧
       t.dev.wr = { s.dev.wr with bulk := s.dev.wr.bulk ++ (if s.dev.boot.role = .manager then
         [{ dst := 63, kind := 4, words := [BitVec.ofNat 32 v.sec, BitVec.ofNat 32 (v.sec / 2 ^ 32), BitVec.ofNat 32 v.sub,
            BitVec.ofNat 32 tag, BitVec.ofNat 32 (tag / 2 ^ 32), if g then 1 else 0], left := 4 }] else []) } ∧
       t = { s with dev := { s.dev with regs := t.dev.regs, wr := t.dev.wr, cal := t.dev.cal } }) ∧
     (∀ r, s.dev.calRefusal v tag g = some r → ∃ t, exec (.calCtrlArm p g) s = .next t ∧
       t.dev.fld F.CAL_STAT_SET_RESULT = r.toNat ∧ t.dev.flag F.CAL_CTRL_REGRESS_OK = false ∧ bitOf (t.dev.reg R.HST_ISR0) 21 = true ∧
       s.dev.regsBut t.dev (R.CAL_CTRL :: R.CAL_STAT :: irqRegs) ∧
       t = { s with dev := { s.dev with regs := t.dev.regs, out := t.dev.out } })) ∧
  (∀ (d : Dev) (v : CalVal) (tag : Nat) (g : Bool),
     let near := tag < (if d.boot.role = .standalone then d.now + 4 else d.now + d.lat + 8) ∨ d.now + 2 ^ 32 < tag
     let late := 252455615999 < v.sec
     let full := g = true ∧ v.units < d.cal.print.units ∧ d.fld F.CAL_EPOCH_CALENDAR = 0xFFFF
     (d.calRefusal v tag g = none ↔ ¬near ∧ ¬late ∧ ¬full) ∧
     ∀ r, d.calRefusal v tag g = some r → (near ∧ r = 0x1004) ∨ (late ∧ r = 0x1006) ∨ (full ∧ r = 0x1005)) ∧
  (∀ (s : State) (p : Port) (g : Bool), s.dev.gate p R.CAL_CTRL = .pass →
     ∃ t, exec (.calCtrlCancel p g) s = .next t ∧ t.dev.cal = { s.dev.cal with pend := none } ∧
       s.dev.regsBut t.dev [R.CAL_CTRL, R.CAL_STAT] ∧
       (s.dev.cal.pend ≠ none → t.dev.flag F.CAL_STAT_PENDING = false ∧ t.dev.flag F.CAL_CTRL_REGRESS_OK = false) ∧
       (s.dev.cal.pend = none → t.dev.flag F.CAL_CTRL_REGRESS_OK = g ∧ t.dev.reg R.CAL_STAT = s.dev.reg R.CAL_STAT) ∧
       t = { s with dev := { s.dev with regs := t.dev.regs, cal := t.dev.cal } })

/-- R74 to R78, R85: at its tag beat a set overwrites the true calendar. A forward set leaves CAL_EPOCH; a backward one holds the print
calendar under the clamp, or with REGRESS_OK sets it back and steps CAL_EPOCH, which a due record journals (R80). R82: after a loss of
the calendar the first set is held by the print high-water, or by nothing. -/
def Obligations.CalendarApply : Prop :=
  ∀ (s : State) (c : CalSet), s.dev.cal.pend = some c →
    let held : CalVal := if s.dev.flag F.CAL_STAT_VALID then s.dev.cal.print else s.dev.cal.hiWater.getD {}
    (s.dev.now < c.tag → exec .calendarSetApply s = .next s) ∧
    (c.tag ≤ s.dev.now → ∃ t, exec .calendarSetApply s = .next t ∧ t.dev.cal.now = c.val ∧ t.dev.cal.pend = none ∧
      t.dev.fld F.CAL_STAT_SET_RESULT = 0 ∧ t.dev.flag F.CAL_STAT_VALID = true ∧ t.dev.flag F.CAL_STAT_PENDING = false ∧
      t.dev.flag F.CAL_CTRL_REGRESS_OK = false ∧ s.dev.regsBut t.dev (R.CAL_STAT :: R.CAL_CTRL :: R.CAL_EPOCH :: irqRegs) ∧
      (held.units ≤ c.val.units → t.dev.fld F.CAL_EPOCH_CALENDAR = s.dev.fld F.CAL_EPOCH_CALENDAR ∧ t.dev.ldg = s.dev.ldg ∧
        (s.dev.cal.hiWater = none → t.dev.cal.print = c.val ∧ t.dev.flag F.CAL_STAT_CLAMPED = false)) ∧
      (c.val.units < held.units → c.regressOk = false →
        t.dev.cal.print = held ∧ t.dev.flag F.CAL_STAT_CLAMPED = true ∧
        t.dev.fld F.CAL_EPOCH_CALENDAR = s.dev.fld F.CAL_EPOCH_CALENDAR ∧ t.dev.ldg = s.dev.ldg) ∧
      (c.val.units < held.units → c.regressOk = true →
        t.dev.cal.print = c.val ∧ t.dev.flag F.CAL_STAT_CLAMPED = false ∧
        t.dev.fld F.CAL_EPOCH_CALENDAR = (s.dev.fld F.CAL_EPOCH_CALENDAR + 1) % 2 ^ 16 ∧
        ∃ x, t.dev.ldg = { s.dev.ldg with queue := s.dev.ldg.queue ++ [x] } ∧ x.recs.map Rec.typ = [0x31]) ∧
      t = { s with dev := { s.dev with regs := t.dev.regs, out := t.dev.out, cal := t.dev.cal, ldg := t.dev.ldg } })

/-- R52: a beat number within 2^19 of the stored ceiling, with no CEIL record waiting, makes one at BN + 2^20 due, and nothing else
changes; with a ceiling more than 2^19 beats ahead nothing changes at all. R391, R392: with the head within 1 024 slots of a
needed record that no waiting record replaces, a CARRY record with the job's current state falls due, or the ARMED group as it
stands; with none so near nothing changes. -/
def Obligations.CeilingAndCarryRecords : Prop :=
  (∀ s : State, s.dev.t.running = true → (∀ q ∈ s.dev.ldg.queue, q.prec ≠ 1) →
     (s.dev.t.ceil ≤ s.dev.now + 2 ^ 19 → ∃ x, exec .ceilingRewrite s =
       .next { s with dev := { s.dev with ldg := { s.dev.ldg with queue := s.dev.ldg.queue ++ [x] } } } ∧ x.prec = 1 ∧ x.due = s.dev.now ∧
       x.recs = [{ typ := 0x30, bn := s.dev.now + 2 ^ 20, gidx := 0, glen := 0 }]) ∧
     (s.dev.now + 2 ^ 19 < s.dev.t.ceil → exec .ceilingRewrite s = .next s)) ∧
  (∀ s : State,
     let near := fun x : Slot => decide (225280 ≤ s.dev.headPos - x.lpos + 1024) && [0x10, 0x12, 0x20].contains x.body.typ
     let covered := fun x : Slot => s.dev.ldg.queue.any (fun q => q.recs.any (fun r => r.hm == x.body.hm && (r.typ == 0x12 || r.typ == 0x20)))
     ((∀ x ∈ s.dev.neededSlots, near x = true → covered x = true) → exec .carryRecord s = .next s) ∧
     (∀ x, (s.dev.neededSlots.filter near).find? (fun x => !covered x) = some x →
       (x.body.typ = 0x20 → exec .carryRecord s = .next { s with dev := s.dev.dueRec 4 (s.dev.groupAt x) }) ∧
       (x.body.typ ≠ 0x20 → ∃ (st : Nat) (r : Rec), r = { x.body with typ := 0x12, byteA := x.body.byteA % 16 + 16 * st } ∧
         exec .carryRecord s = .next { s with dev := s.dev.dueRec 4 [r] } ∧ ∀ j, s.dev.job? x.body.hm = some j → st = j.st.code)))

/-! ## The ledger (08_ledger.md) -/

/-- R396: a checkpoint falls due 65 536 beats after the last one, or at once by LDG_CMD.CHECKPOINT on a mounted ledger. It is the
newest, at this beat, with the head, the ceiling and the next hallmark in force; the log, the head and every other part of the
device stay. R368: a superblock write replaces the copy that is not the newest, with the next sequence number and the identity,
format beat and mount count of the newest, and leaves the newest copy and everything else. -/
def Obligations.CheckpointAndSuperblockWritten : Prop :=
  (∀ s : State, s.dev.flag F.LDG_STAT_MOUNTED = true → s.dev.flag F.LDG_STAT_BLANK = false →
     let written := fun (t : State) =>
       (∃ c ∈ t.dev.mram.ckpts, c.bn = s.dev.now ∧ c.rev = s.dev.mram.rev ∧ c.head = s.dev.mram.head ∧ c.ceil = s.dev.t.ceil ∧
         c.nextHm = s.dev.adm.nextHm ∧ c.confirmed = s.dev.ldg.confirmed ∧ ∀ x ∈ s.dev.mram.ckpts, x.seq < c.seq) ∧
       t.dev.mram.log = s.dev.mram.log ∧ t.dev.mram.head = s.dev.mram.head ∧ t.dev.mram.rev = s.dev.mram.rev ∧
       t.dev.ldg.ckptBn = s.dev.now ∧ t.dev.ldg.queue = s.dev.ldg.queue ∧
       s.dev.regsBut t.dev [R.LDG_CKPT_BN_LO, R.LDG_CKPT_BN_HI, R.LDG_WEAR_LO, R.LDG_WEAR_HI, R.LDG_STAT] ∧
       t = { s with dev := { s.dev with regs := t.dev.regs, mram := t.dev.mram, ldg := t.dev.ldg } }
     (s.dev.ldg.ckptBn + 65536 ≤ s.dev.now → ∃ t, exec .checkpoint s = .next t ∧ written t) ∧
     (s.dev.now < s.dev.ldg.ckptBn + 65536 → exec .checkpoint s = .next s) ∧
     (∀ p, s.dev.gate p R.LDG_CMD = .pass → ∃ t, exec (.ldgCheckpointNow p) s = .next t ∧ written t ∧ t.dev.fld F.LDG_STAT_RESULT = 0)) ∧
  (∀ (s : State) (x : Super), s.dev.flag F.LDG_STAT_MOUNTED = true → s.dev.flag F.LDG_STAT_BLANK = false →
     bestSuper s.dev.mram.supA s.dev.mram.supB = some x →
     ∃ (t : State) (y : Super), exec .superblockWrite s = .next t ∧ bestSuper t.dev.mram.supA t.dev.mram.supB = some y ∧ y.valid = true ∧
       y.seq = x.seq + 1 ∧ y.sysId = x.sysId ∧ y.formatBn = x.formatBn ∧ y.mounts = x.mounts ∧ y.wear = s.dev.mram.wear ∧
       ((t.dev.mram.supA = s.dev.mram.supA ∧ s.dev.mram.supA = x ∧ t.dev.mram.supB = y) ∨
         (t.dev.mram.supB = s.dev.mram.supB ∧ s.dev.mram.supB = x ∧ t.dev.mram.supA = y)) ∧
       t = { s with dev := { s.dev with
         mram := { s.dev.mram with supA := t.dev.mram.supA, supB := t.dev.mram.supB }, ldg := { s.dev.ldg with superBn := s.dev.now } } })

/-- R370, R371: FORMAT acts only with the key written in the same beat, in READY, in READY-WAIT or held at LDG_CORRUPT: the log is
erased and no checkpoint of an earlier beat is left, the incarnation is kept, hallmarks start at 1 and every expected sequence at 0,
the identity is new (a worker or reserve keeps the ring's); any other write is refused with REF_STATE and changes nothing else.
R406: WRITE_OFF on a mounted manager makes a WRITEOFF record due, and every job of that position without an outcome ends UNCONFIRMED
with UNC_EXECUTOR_LOST; jobs of other positions keep their state and outcome. -/
def Obligations.FormatAndWriteOff : Prop :=
  (∀ (s : State) (p : Port), s.dev.gate p R.LDG_CMD = .pass → s.dev.boot.conflict = false →
     (s.dev.ldg.keyBn = some s.dev.now → s.dev.pstate = 1 ∨ s.dev.pstate = 5 ∨ s.dev.ldg.corrupt = true →
       ∃ t, exec (.ldgFormat p) s = .next t ∧ t.dev.mram.log = [] ∧ (∀ c ∈ t.dev.mram.ckpts, c.bn = s.dev.now) ∧ t.dev.mram.wdinc = s.dev.mram.wdinc ∧
         t.dev.jobs = [] ∧ t.dev.adm.nextHm = 1 ∧ (∀ j < 512, t.dev.reg (R.JR_NEXTSEQ j) = 0) ∧ t.dev.ldg.corrupt = false ∧
         t.dev.sysId = (if s.dev.isMgr then Config.newSysId s.dev.draws else s.dev.sysId) ∧
         t.dev.flag F.LDG_STAT_BLANK = false ∧ t.dev.flag F.LDG_STAT_MOUNTED = true ∧ t.dev.fld F.LDG_STAT_RESULT = 0) ∧
     (s.dev.ldg.keyBn ≠ some s.dev.now ∨ (s.dev.pstate ≠ 1 ∧ s.dev.pstate ≠ 5 ∧ s.dev.ldg.corrupt = false) →
       ∃ t, exec (.ldgFormat p) s = .next t ∧ t.dev.fld F.LDG_STAT_RESULT = 0x1005 ∧ s.dev.regsBut t.dev [R.LDG_STAT] ∧
         t = { s with dev := { s.dev with regs := t.dev.regs } })) ∧
  (∀ (s : State) (p : Port) (pos : Fin 32), s.dev.gate p R.LDG_CMD = .pass → s.dev.isMgr = true → s.dev.flag F.LDG_STAT_MOUNTED = true →
     (s.dev.jobs.map Job.hm).Nodup → pos.val ∉ s.dev.ldg.declared →
     ∃ t, exec (.ldgWriteOff p pos) s = .next t ∧ t.dev.ldg.writtenOff = s.dev.ldg.writtenOff ++ [pos.val] ∧
       t.dev.fld F.LDG_STAT_RESULT = 0 ∧ (∃ q ∈ t.dev.ldg.queue, q.recs.map (fun r => (r.typ, r.w5)) = [(0x36, pos.val)]) ∧
       t.dev.jobs.map Job.hm = s.dev.jobs.map Job.hm ∧
       ∀ j ∈ s.dev.jobs, ∃ k ∈ t.dev.jobs, k.hm = j.hm ∧
         (j.exec = pos.val → j.out = none → k.out = some { typ := 7, reason := 0x3002, bn := s.dev.now } ∧ k.st = .unconfirmed) ∧
         (j.exec ≠ pos.val ∨ j.out ≠ none → k = j))

/-- R385, R386: under dual seal a record that the reserve has not acknowledged 4 beats after the manager's seal raises LDG_MIRROR_LAG
and counts as single-sealed from then on; with none so late, or under single seal, nothing changes. R383, R388: once the reserve has
sealed every record of a manager in catch-up, over a direct unwrapped link, dual seal is active, and a SEAL record is due; with a
record outstanding, or with the reserve in PARK or OFF (R164), nothing changes. R384, R389, R751: the reserve seals every mirrored
record of a message, acknowledges each with its next status slot, and keeps no hallmark of an accepted job unused; any other device,
and one held at ROLE_CONFLICT, ignores the message. How an ACCEPT's words stand in it is the model's reading (log entry 146). -/
def Obligations.MirroringAndDualSeal : Prop :=
  (∀ s : State,
     (s.dev.ldg.dual = true → (∃ x ∈ s.dev.ldg.mirror, x.2 + 4 ≤ s.dev.now) →
       ∃ t, exec .mirrorLag s = .next t ∧ (∀ x, x ∈ t.dev.ldg.mirror ↔ x ∈ s.dev.ldg.mirror ∧ s.dev.now < x.2 + 4) ∧
         (0x9007 : Reason) ∈ t.dev.ldg.raised ∧
         t = { s with dev := { s.dev with ldg := { s.dev.ldg with mirror := t.dev.ldg.mirror, raised := t.dev.ldg.raised } } }) ∧
     (s.dev.ldg.dual = false ∨ (∀ x ∈ s.dev.ldg.mirror, s.dev.now < x.2 + 4) → exec .mirrorLag s = .next s)) ∧
  (∀ s : State, s.dev.boot.role = .manager → s.dev.ldg.catchup = true → s.dev.wr.resPos ≠ none → s.dev.directLink = true →
     (s.dev.ldg.mirror = [] → s.dev.ldg.toMirror = [] → (∀ p, s.dev.wr.resPos = some p → s.dev.parked p = false) → ∃ t q, exec .catchupComplete s = .next t ∧
       t.dev.ldg = { s.dev.ldg with dual := true, catchup := false, queue := s.dev.ldg.queue ++ [q] } ∧
       q.recs.map (fun r => (r.typ, r.byteA, r.bn)) = [(0x34, 1, s.dev.now)] ∧ t.dev.flag F.LDG_STAT_DUAL = true ∧
       t.dev.flag F.SUP_ROLE_DUAL_SEAL = true ∧ t.dev.flag F.LDG_STAT_CATCHUP = false ∧
       s.dev.regsBut t.dev [R.LDG_STAT, R.SUP_ROLE] ∧ t = { s with dev := { s.dev with regs := t.dev.regs, ldg := t.dev.ldg } }) ∧
     (s.dev.ldg.mirror ≠ [] ∨ s.dev.ldg.toMirror ≠ [] ∨ (∃ p, s.dev.wr.resPos = some p ∧ s.dev.parked p = true) →
       exec .catchupComplete s = .next s)) ∧
  (∀ (s : State) (recs : List (List Word)) (bodies : List (BitVec 48 × List Word)),
     let rs := ((recs.filterMap mirrorRecOf).map (fun r => r.1)).filter (fun r => mirrored r.typ || r.typ == 0x12)
     (s.dev.boot.role = .reserve → s.dev.boot.roleKnown = true → s.dev.boot.conflict = false → s.dev.pwr.vcore = true →
       ∃ t, exec (.mirrorMessage none recs bodies []) s = .next t ∧ t.dev.wr.sealAck = s.dev.wr.sealAck + rs.length ∧
         s.dev.adm.nextHm ≤ t.dev.adm.nextHm ∧ (∀ r ∈ rs, r.typ = 0x10 → r.hm < t.dev.adm.nextHm) ∧
         (∀ j ∈ s.dev.jobs, j.exec = s.dev.pos → ∃ k ∈ t.dev.jobs, k.hm = j.hm ∧ k.st = j.st ∧ k.out = j.out) ∧
         t.dev.boot = s.dev.boot) ∧
     (∀ ck acks, s.dev.boot.role ≠ .reserve ∨ s.dev.boot.roleKnown = false ∨ s.dev.boot.conflict = true → exec (.mirrorMessage ck recs bodies acks) s = .next s))

/-- R341, R381: a bound or striking job of this device with every part done, armed and without a flaw ends STRUCK once the beat of its
last instant has passed, OK or with its delay OK_DELAYED, and its STRUCK record falls due; before that, and in a clock-fault beat
(Table CLK-3), nothing changes. R358, R382: the manager makes the TERM record of a decided job due once every earlier-accepted job
of its ring is terminal. R377: a Seal phase takes at most 4 records, whole groups only, from the front of the line: what it takes
and what it leaves make up the line again. -/
def Obligations.OutcomesSealedInOrder : Prop :=
  (∀ (s : State) (hm : BitVec 48) (j : Job), s.dev.job? hm.toNat = some j → j.active = true → j.exec = s.dev.pos → j.resolved = true →
     j.armed = true → j.partsDone = true → j.flaw = none → j.closing = none → j.out = none →
     (s.dev.clk.jobsDue = false → beatOf (max j.endAt (j.origin.getD 0)) < s.dev.now → ∃ t, exec (.struckSeal hm) s = .next t ∧
       (∃ k, t.dev.job? hm.toNat = some k ∧ k.st = .struck ∧
         k.out = some { typ := 4, reason := if j.delay = 0 then 0 else 1, bn := j.lastBn, d0 := j.delay }) ∧
       (∃ q, t.dev.ldg = { s.dev.ldg with queue := s.dev.ldg.queue ++ [q] } ∧ q.recs.map (fun r => (r.typ, r.hm)) = [(0x23, j.hm)]) ∧
       (∀ k ∈ s.dev.jobs, k.hm ≠ hm.toNat → k ∈ t.dev.jobs)) ∧
     (s.dev.clk.jobsDue = true ∨ s.dev.now ≤ beatOf (max j.endAt (j.origin.getD 0)) → exec (.struckSeal hm) s = .next s)) ∧
  (∀ (s : State) (hm : BitVec 48) (j : Job) (o : Outcome), s.dev.job? hm.toNat = some j → j.out = some o →
     (s.dev.isMgr = true → s.dev.termReady j = true → ∃ t q, exec (.termSeal hm) s = .next t ∧
       t.dev.ldg = { s.dev.ldg with queue := s.dev.ldg.queue ++ [q] } ∧
       q.recs.map (fun r => (r.typ, r.hm, r.ring, r.pos, r.bn, r.byteA, r.w6)) = [(0x11, j.hm, j.ring, j.exec, o.bn, o.typ, o.d0)] ∧
       t.dev.jobs = s.dev.jobs.map (fun k => if k.hm == j.hm then { k with term := true } else k) ∧
       t = { s with dev := { s.dev with ldg := t.dev.ldg, jobs := t.dev.jobs } }) ∧
     (s.dev.isMgr = false ∨ s.dev.termReady j = false → exec (.termSeal hm) s = .next s)) ∧
  (∀ q : List SealItem, ((takeSeals 4 q).1.flatMap (fun x => x.recs)).length ≤ 4 ∧ (takeSeals 4 q).1 ++ (takeSeals 4 q).2 = q)

/-! ## The beat, cold starts, start-up, roles and ring training (02_beat_and_time.md, 03_straps_and_startup.md, 15_wilin_ring.md) -/

/-- R48: with VCORE present and the counter running, every beat edge advances the beat number by exactly 1, whatever else happens at it;
with the counter stopped it stays. -/
def Obligations.BeatNumberAdvancesByOne : Prop :=
  ∀ (i : BeatIn) (s : State), ∃ t, exec (.beatEdge i) s = .next t ∧ t = { s with dev := t.dev } ∧
    (s.dev.pwr.vcore = true → s.dev.t.running = true → t.dev.t.bn = s.dev.t.bn + 1) ∧
    (s.dev.pwr.vcore = false ∨ s.dev.t.running = false → t.dev.t.bn = s.dev.t.bn ∧ t.dev.jobs = s.dev.jobs ∧ t.dev.cal = s.dev.cal)

/-- R92, R107, R112, R113, R123, R143, R189, R190, R796, R861: what starts a cold start, and what one leaves: the cause recorded, the
ledger kept, and the calendar kept but after the loss of the backup cell (R81), the whole-device incarnation stepped, everything of the
core domain reset, and a strap fault held. R137: PORST_L asserted abandons a strap read in progress, and no value of it is applied; at
any other time nothing happens before its release. -/
def Obligations.ColdStartKeepsLedger : Prop :=
  let cold := fun (s t : State) (r : StrapRead) (cause : Nat) =>
    t.dev.fld F.SUP_BOOT_COLD_CAUSE = cause ∧ t.dev.boot.strapsValid = !r.cut ∧ t.dev.boot.reading = r.cut ∧
    t.dev.boot.perst = (s.dev.boot.perst || r.perst) ∧
    (r.cut = true → t.dev.phase = 0 ∧ (∀ a ∈ [R.SUP_STRAP, R.SUP_RCODE, R.SUP_STRAPDIAG], t.dev.reg a = 0) ∧ t.dev.pstate = 15 ∧
      ∀ n, t.dev.outPin n = none) ∧
    t.dev.boot.capable = (!r.cut && strapCap r == 1) ∧ t.dev.pwr.vcore = true ∧ t.dev.jobs = [] ∧ t.dev.fen = {} ∧ t.dev.ldg = {} ∧
    t.dev.mram = { s.dev.mram with wdinc := if s.dev.mram.wdinc = 0 then 1 else nextInc s.dev.mram.wdinc } ∧
    (cause ≠ 3 → t.dev.cal = { s.dev.cal with pend := none }) ∧
    (cause = 3 → t.dev.flag F.CAL_STAT_VALID = false ∧ t.dev.cal.pend = none ∧ t.dev.cal.hiWater = none) ∧
    (r.cut = false → strapFaults r = [] → t.dev.phase = (if strapCap r = 0 then 9 else 1) ∧ (strapCap r = 0 → t.dev.pstate = 5)) ∧
    (r.cut = false → strapFaults r ≠ [] → t.dev.phase = 15 ∧ t.dev.fld F.SUP_BOOT_REASON = 0xC001) ∧ t = { s with dev := t.dev }
  let porst := fun (s : State) (b : Bool) (k : Nat) =>
    { s with dev := { s.dev with boot := { s.dev.boot with porst := b, pulses := s.dev.boot.pulses + k } } }
  ∀ (s : State) (r : StrapRead),
    let bkp := r.bkpOut || s.dev.pwr.bkpDead
    let held := s.dev.flag F.PWR_STAT_HOLDUP = true ∨ s.dev.pwr.dormant = true ∨ s.dev.pstate = 3
    exec .porstLAssert s = .next { s with dev := { s.dev with boot := { s.dev.boot with porst := true, reading := false } } } ∧
    (∀ n, s.dev.boot.porst = false → exec (.coldStart n r) s = .next s) ∧
    (∀ n, s.dev.boot.porst = true → n < 1000 → exec (.coldStart n r) s = .next (porst s false 0)) ∧
    (∀ n, s.dev.boot.porst = true → 1000 ≤ n → n < 10000 → ∃ t, exec (.coldStart n r) s = .next t ∧ t.dev.boot.porst = false ∧
      (t = porst s false 1 ∨ cold s t r (if bkp then 3 else if r.vauxPor then 2 else 1))) ∧
    (∀ n, s.dev.boot.porst = true → 10000 ≤ n → ∃ t, exec (.coldStart n r) s = .next t ∧ t.dev.boot.porst = false ∧
      cold s t r (if bkp then 3 else if r.vauxPor then 2 else 1)) ∧
    (∃ t, exec (.vauxPowerOnReset r) s = .next t ∧ t.dev.boot.porst = s.dev.boot.porst ∧ cold s t r (if bkp then 3 else 2)) ∧
    (held → ∃ t, exec (.bkpExhausted (some r)) s = .next t ∧ cold s t r 3) ∧
    (held → ∃ t, exec (.bkpExhausted none) s = .next t ∧ t.dev.pwr.bkpDead = true ∧ t.dev.pwr.dormFlag = false ∧
      bitOf (t.dev.reg R.HST_ISR0) 17 = true ∧ s.dev.regsBut t.dev irqRegs ∧
      t = { s with dev := { s.dev with regs := t.dev.regs, out := t.dev.out, pwr := t.dev.pwr } }) ∧
    (¬held → ∀ m, exec (.bkpExhausted m) s = .next s)

/-- R92, R110, R138: the live check of the pins shows differences in SUP_STRAPLIVE with vector 24, once per change, and applies nothing:
every other register and the straps in force keep their values. R115, R116, R119, R123, R125: the phases that a lock, a calibration
and a mount end, the clock loss of a waiting worker, and the release of PERST_L. Before its phase each does nothing of this. -/
def Obligations.StartupPhasesInOrder : Prop :=
  (∀ (s : State) (r : StrapRead),
     (s.dev.boot.strapsValid = true → ∃ t, exec (.strapLiveCheck r) s = .next t ∧ s.dev.regsBut t.dev (R.SUP_STRAPLIVE :: irqRegs) ∧
       t = { s with dev := { s.dev with regs := t.dev.regs, out := t.dev.out, boot := { s.dev.boot with liveBad := t.dev.boot.liveBad } } } ∧
       (s.dev.boot.liveBad = [] → (∃ c, rDecode r.hpset 16 = .inl c ∧ c ≠ s.dev.fld F.SUP_RCODE_HPSET) →
         bitOf (t.dev.reg R.SUP_STRAPLIVE) 8 = true ∧ bitOf (t.dev.reg R.HST_ISR0) 24 = true) ∧
       ∃ u, exec (.strapLiveCheck r) t = .next u ∧ u.dev.out = t.dev.out ∧ u.dev.boot = t.dev.boot ∧
         ∀ a, u.dev.reg a = t.dev.reg a) ∧
     (s.dev.boot.strapsValid = false → exec (.strapLiveCheck r) s = .next s)) ∧
  (∀ s : State,
     (∀ us, s.dev.pwr.vcore = true → s.dev.spll = 0 → s.dev.ownHoldover = false → s.dev.started = false →
       s.dev.phase = 1 ∨ s.dev.phase = 10 → ∃ t, exec (.spllLock us) s = .next t ∧ t.dev.phase = 2 ∧ t.dev.spll = 1 ∧
         t.dev.flag F.CLK_STAT_LOCKED = true ∧ t.dev.flag F.CLK_STAT_REF_QUAL = true ∧
         (s.dev.phase = 1 → s.dev.pwr.exiting = false → t.dev.fld (F.SUP_BOOT_T_COMPLETION 1) = min us 0xFFFFFF) ∧
         s.dev.regsBut t.dev (R.CLK_STAT :: R.SUP_BOOT :: R.SUP_BOOT_T 1 :: irqRegs) ∧
         t = { s with dev := { s.dev with regs := t.dev.regs, out := t.dev.out } }) ∧
     (∀ us l, s.dev.phase = 2 → s.dev.started = false → ∃ t, exec (.selfCalibrationDone us l) s = .next t ∧
       t.dev.boot.calDone = true ∧ t.dev.boot.calDeferred = false ∧ t.dev.jobs.map Job.hm = s.dev.jobs.map Job.hm ∧
       t.dev.phase = (if s.dev.boot.replayed then (if s.dev.boot.role = .worker then 11 else 4)
         else if s.dev.flag F.LDG_STAT_MOUNTED || s.dev.flag F.LDG_STAT_BLANK then 4 else 3)) ∧
     (∀ m x, s.dev.pwr.vcore = true → s.dev.phase = 3 → s.dev.boot.replayed = false →
       bestSuper { s.dev.mram.supA with valid := s.dev.mram.supA.valid && !m.badA }
         { s.dev.mram.supB with valid := s.dev.mram.supB.valid && !m.badB } = some x →
       (∃ c ∈ s.dev.mram.ckpts, c.sysId = x.sysId ∧ c.block ∉ m.badBlocks) →
       ∃ t y, exec (.ledgerMount m) s = .next t ∧ bestSuper t.dev.mram.supA t.dev.mram.supB = some y ∧ y.sysId = x.sysId ∧
         y.mounts = x.mounts + 1 ∧ t.dev.sysId = x.sysId ∧ t.dev.flag F.LDG_STAT_MOUNTED = true ∧ t.dev.phase = 4 ∧
         t.dev.mram.log = s.dev.mram.log) ∧
     (s.dev.boot.role = .worker → s.dev.pstate = 5 → s.dev.phase ≠ 9 → s.dev.phase ≠ 15 → ∃ t, exec .readyWaitClockLoss s = .next t ∧
       t.dev.phase = 9 ∧ t.dev.spll = 0 ∧ t.dev.flag F.CLK_STAT_LOCKED = false ∧
       s.dev.regsBut t.dev (R.CLK_STAT :: R.ASY_STAT :: R.SUP_BOOT :: irqRegs) ∧
       t = { s with dev := { s.dev with regs := t.dev.regs, out := t.dev.out } }) ∧
     (s.dev.boot.role ≠ .worker ∨ s.dev.pstate ≠ 5 → exec .readyWaitClockLoss s = .next s) ∧
     (∃ t, exec .perstLRelease s = .next t ∧ t.dev.boot.perst = false ∧
       (t.dev.boot.linkTraining = true ↔ s.dev.boot.strapsValid = true ∧ s.dev.boot.role ≠ .worker ∧ s.dev.flag F.SUP_STRAP_HOSTSEL = false) ∧
       t = { s with dev := { s.dev with boot := { s.dev.boot with perst := false, linkTraining := t.dev.boot.linkTraining } } }))

/-- R354, R400, R407: a replay without a gap ends with replay done, the newest checkpoint written anew, and no hallmark that an ACCEPT
record of the retained log holds is left to assign again. R405, R406: the manager's decision after replay: a job of a declared
position takes the outcome that its executor reported; jobs of positions that have not declared themselves stay as they are. -/
def Obligations.ReplayRestoresLedger : Prop :=
  (∀ (s : State) (i : ReplayIn) (c : Ckpt), s.dev.pwr.vcore = true → s.dev.phase = 4 → s.dev.boot.replayed = false →
     s.dev.ldg.corrupt = false → s.dev.boot.role = .reserve → s.dev.pwr.exiting = false → s.dev.flag F.LDG_STAT_BLANK = false →
     s.dev.newestCkpt = some c → i.gap = false →
     ∃ t, exec (.replay i) s = .next t ∧ t.dev.boot.replayed = true ∧ t.dev.phase = 5 ∧ c.nextHm ≤ t.dev.adm.nextHm ∧
       ∀ x ∈ t.dev.mram.log, x.body.typ = 0x10 → c.retained ≤ x.lpos → x.body.hm < t.dev.adm.nextHm) ∧
  (∀ s : State, s.dev.isMgr = true → s.dev.boot.roleKnown = true → (s.dev.jobs.map Job.hm).Nodup →
     ∃ t, exec .replayDecide s = .next t ∧ t.dev.ldg.decide_ = [] ∧ t.dev.ldg.reports = [] ∧
       t.dev.jobs.map Job.hm = s.dev.jobs.map Job.hm ∧
       (∀ j ∈ s.dev.jobs, j.exec ∉ s.dev.ldg.decide_.map (fun x => x.1) → j ∈ t.dev.jobs) ∧
       (∀ j ∈ s.dev.jobs, j.exec ∈ s.dev.ldg.decide_.map (fun x => x.1) → j.out = none → j.sent = true →
         ∀ x, s.dev.ldg.reports.find? (fun r => r.1 == j.hm) = some x →
           ∃ k ∈ t.dev.jobs, k.hm = j.hm ∧ k.out = some x.2 ∧ k.st = stOfTyp x.2.typ))

/-- R129 to R133: two claims are ranked by a formatted ledger first and the lower position then; two formatted ledgers of different
identities hold both devices; a device that hears no claim becomes manager without a reserve. -/
def Obligations.ManagerIsElectedByRank : Prop :=
  ∀ (s : State) (us : Nat), s.dev.boot.capable = true → s.dev.boot.roleKnown = false → s.dev.boot.claimOpen = true →
    s.dev.boot.conflict = false →
    (∀ (p : Fin 32) (f : Bool) (id : BitVec 64), p.val ≠ s.dev.pos →
      let own := s.dev.flag F.SUP_ROLE_LEDGER_FORMATTED
      ∃ t, exec (.claimMessage us p f id) s = .next t ∧ t = { s with dev := t.dev } ∧
        (own = true → f = true → s.dev.sysId ≠ id → t.dev.boot.conflict = true ∧ t.dev.boot.roleKnown = false ∧
          t.dev.boot.role = s.dev.boot.role ∧ t.dev.phase = 15 ∧ t.dev.fld F.SUP_BOOT_REASON = 0xC003) ∧
        (own = false ∨ f = false ∨ s.dev.sysId = id → t.dev.boot.roleKnown = true ∧ t.dev.phase = 7 ∧ t.dev.boot.role =
          (if (own = true ∧ f = false) ∨ (own = f ∧ s.dev.pos < p.val) then .manager else .reserve))) ∧
    (s.dev.boot.claims = [] → ∃ t, exec (.claimTimeout us) s = .next t ∧ t.dev.boot.role = .manager ∧ t.dev.boot.roleKnown = true ∧
      t.dev.wr.resPos = none ∧ t.dev.wr.mgrPos = s.dev.pos ∧ t.dev.phase = 7 ∧ t.dev.t.running = true ∧ t = { s with dev := t.dev })

/-- Table RNG-4, R739, R740: a side in service goes from DARK to LOCK, ALIGN, PEER and UP on what it sees, each only from the state
before; an attempt that times out returns to LOCK, and with the other side up the side wraps around what does not answer (R141, the
model's reading: log entry 90); a neighbour of this device's own position does not bring the side up. R117, R735
to R737: the end of beat alignment shows the loop time, puts the distributed delays in force, and in phase 0x7 brings the device to
READY with vector 17. A standalone device has none. -/
def Obligations.RingTrainsAndAligns : Prop :=
  (∀ (s : State) (k : Fin 2),
     let v := s.dev.side k.val
     let at_ := fun (n : Nat) => (Host.Outcome.next { s with dev := s.dev.setSide k.val { v with lstate := n } } : Host.Outcome State Fault Refusal)
     (s.dev.linked = false → exec (.signalDetected k) s = .next s ∧ exec (.ringSideLock k) s = .next s ∧ exec (.ringSideAlign k) s = .next s) ∧
     (s.dev.linked = true → s.dev.pwr.vcore = true → v.lstate = 0 ∨ v.lstate = 5 → exec (.signalDetected k) s = at_ 1) ∧
     (s.dev.pwr.vcore = false → exec (.signalDetected k) s = .next s) ∧
     (s.dev.linked = true → v.lstate = 1 → s.dev.boot.role ≠ .worker ∨ s.dev.phase ≠ 9 → exec (.ringSideLock k) s = at_ 2) ∧
     (s.dev.linked = true → v.lstate = 2 → exec (.ringSideAlign k) s = at_ 3) ∧
     (∀ us w r, s.dev.linked = true → v.lstate ≠ 3 → exec (.ringIdent us k w r) s = .next s) ∧
     (∀ us w r, s.dev.linked = true → v.lstate = 3 → w.toNat % 32 ≠ s.dev.pos → s.dev.phase ≠ 5 → ∃ t,
       exec (.ringIdent us k w r) s = .next t ∧ (t.dev.side k.val).lstate = 4 ∧ (t.dev.side k.val).nbrPos = w.toNat % 32 ∧
       mget 0 t.dev.fen.posInc (w.toNat % 32) = w.toNat / 2 ^ 8 % 256 ∧ s.dev.regsBut t.dev irqRegs) ∧
     (∀ us w r, s.dev.linked = true → v.lstate = 3 → w.toNat % 32 = s.dev.pos → ∃ t, exec (.ringIdent us k w r) s = .next t ∧
       (t.dev.side k.val).lstate = 3 ∧ (s.dev.pos, (0xC004 : Reason)) ∈ t.dev.wr.badPos ∧ s.dev.regsBut t.dev irqRegs) ∧
     (∀ us, s.dev.linked = true → 1 ≤ v.lstate → v.lstate ≤ 3 → s.dev.phase ≠ 5 →
       v.wrapped = true ∨ (s.dev.side (1 - k.val)).lstate ≠ 4 → exec (.ringTrainingTimeout us k) s = at_ 1) ∧
     (∀ us, s.dev.linked = true → 1 ≤ v.lstate → v.lstate ≤ 3 → s.dev.phase ≠ 5 → v.wrapped = false →
       (s.dev.side (1 - k.val)).lstate = 4 → ∃ t, exec (.ringTrainingTimeout us k) s = .next t ∧ (t.dev.side k.val).lstate = 1 ∧
         (t.dev.side k.val).wrapped = true ∧ s.dev.hopOf k.val ∈ t.dev.wr.cut)) ∧
  (∀ (s : State) (us : Nat) (loop : BitVec 24) (tab : List (Fin 32 × BitVec 24 × BitVec 24)),
     (s.dev.boot.role = .standalone → exec (.beatAlignmentComplete us loop tab) s = .next s) ∧
     (s.dev.boot.role = .worker ∨ s.dev.boot.role = .reserve → ∃ t, exec (.beatAlignmentComplete us loop tab) s = .next t ∧
       t.dev.num R.WR_LOOP = loop.toNat ∧
       (∀ x ∈ tab, tab.find? (fun y => y.1.val == x.1.val) = some x →
         t.dev.wr.offTab.getD (2 * x.1.val) 0 = x.2.1.toNat ∧ t.dev.wr.offTab.getD (2 * x.1.val + 1) 0 = x.2.2.toNat) ∧
       (s.dev.phase = 7 → t.dev.pstate = 1 ∧ t.dev.phase = 8 ∧ t.dev.fld F.SUP_BOOT_REASON = 0 ∧ t.dev.pwr.exiting = false ∧
         bitOf (t.dev.reg R.HST_ISR0) 17 = true) ∧
       (s.dev.phase ≠ 7 → t.dev.pstate = s.dev.pstate ∧ t.dev.phase = s.dev.phase ∧ t.dev.boot = s.dev.boot ∧ t.dev.pwr = s.dev.pwr) ∧
       t.dev.jobs = s.dev.jobs ∧ t.dev.mram = s.dev.mram))

/-! ## Power, mains and the backup cell (04_power_and_supply.md) -/

/-- R150 to R152 and Table PWR-2: a command for this device that its state admits is held for the beat 4 beats on, its state unchanged
until then; any other is refused with its reason and vector 17. R150, R153, R155, Table PWR-2: at its apply beat a pending command
takes effect, and not before: RUN and STANDBY at once; READY from RUN, with a job bound, drains first; PARK and OFF close out and
remove VCORE, and the beat counter stops; a device in PARK goes to OFF. -/
def Obligations.PowerCommandsHeldAndApplied : Prop :=
  (∀ (s : State) (p : Port), s.dev.gate p R.PWR_CMD = .pass →
     let held := fun (t : State) (n : Nat) (x i : Bool) =>
       t.dev.pwr = { s.dev.pwr with pend := some { state := n, expire := x, isolate := i, applyBn := s.dev.now + 4 } } ∧
       t.dev.flag F.PWR_STAT_PENDING = true ∧ t.dev.num2 R.PWR_APPLY_LO R.PWR_APPLY_HI = s.dev.now + 4 ∧ t.dev.pstate = s.dev.pstate ∧
       s.dev.regsBut t.dev [R.PWR_STAT, R.PWR_APPLY_LO, R.PWR_APPLY_HI] ∧
       t = { s with dev := { s.dev with regs := t.dev.regs, pwr := t.dev.pwr } }
     let refused := fun (t : State) (r : Reason) => t.dev.fld F.PWR_STAT_CMD_RESULT = r.toNat ∧ t.dev.pstate = s.dev.pstate ∧
       bitOf (t.dev.reg R.HST_ISR0) 17 = true ∧ s.dev.regsBut t.dev (R.PWR_STAT :: irqRegs) ∧
       t = { s with dev := { s.dev with regs := t.dev.regs, out := t.dev.out, wr := { s.dev.wr with items := t.dev.wr.items } } }
     let on := fun (c : Instr) (n : Nat) (x i : Bool) =>
       (s.dev.pwrRefusal n x = none → ∃ t, exec c s = .next t ∧ held t n x i) ∧
       (∀ r, s.dev.pwrRefusal n x = some r → ∃ t, exec c s = .next t ∧ refused t r)
     on (.pwrCmdRun p 62) 1 false false ∧ on (.pwrCmdReady p 62) 2 false false ∧ on (.pwrCmdStandby p 62) 3 false false ∧
     (s.dev.boot.role ≠ .manager → (∀ x i, on (.pwrCmdPark p 62 x i) 4 x i) ∧ ∀ x, on (.pwrCmdOff p 62 x) 5 x false) ∧
     (∀ n x, s.dev.braced = true ∨ s.dev.flag F.PWR_STAT_HOLDUP = true ∨ s.dev.pwr.pend ≠ none ∨ s.dev.pwr.draining = true ∨
       s.dev.pwr.all ≠ none ∨ pwrListed s.dev.pstate n = false →
       s.dev.pwrRefusal n x = some 0x1005) ∧
     (s.dev.pwrRefusal 1 false = none → s.dev.flag F.PWR_CTRL_RUN_NEEDS_BKP = true → s.dev.flag F.PWR_STAT_BKP_READY = true) ∧
     (s.dev.boot.role = .manager → ∀ x, ∃ t, exec (.pwrCmdOff p 62 x) s = .next t ∧ refused t 0x1005)) ∧
  (∀ (s : State) (q : PwrPend), s.dev.pwr.pend = some q → s.dev.pwr.draining = false → s.dev.pwr.exiting = false →
     s.dev.pwr.braceDue = none → s.dev.t.running = true →
     let busy := s.dev.jobs.any (fun j => j.active && j.exec == s.dev.pos)
     let done := fun (t : State) (n : Nat) => t.dev.pstate = n ∧ t.dev.pwr.pend = none ∧ t.dev.flag F.PWR_STAT_PENDING = false ∧
       t.dev.fld F.PWR_STAT_CMD_RESULT = 0 ∧ t.dev.jobs = s.dev.jobs ∧ t.dev.t = s.dev.t ∧ t = { s with dev := t.dev }
     (s.dev.now < q.applyBn → exec .powerApply s = .next s) ∧
     (q.applyBn ≤ s.dev.now → q.state = 1 → ∃ t, exec .powerApply s = .next t ∧ done t 0) ∧
     (q.applyBn ≤ s.dev.now → q.state = 3 → ∃ t, exec .powerApply s = .next t ∧ done t 2) ∧
     (q.applyBn ≤ s.dev.now → q.state = 2 → s.dev.pstate = 0 ∧ busy = false ∨ s.dev.pstate = 2 →
       ∃ t, exec .powerApply s = .next t ∧ done t 1) ∧
     (q.applyBn ≤ s.dev.now → q.state = 2 → s.dev.pstate = 0 → busy = true → ∃ t, exec .powerApply s = .next t ∧ t.dev.pstate = 1 ∧
       t.dev.pwr = { s.dev.pwr with draining := true } ∧ t.dev.flag F.PWR_STAT_DRAINING = true ∧ s.dev.regsBut t.dev [R.PWR_STAT] ∧
       t = { s with dev := { s.dev with regs := t.dev.regs, pwr := t.dev.pwr } }) ∧
     (q.applyBn ≤ s.dev.now → s.dev.pwr.vcore = true → q.state = 4 ∨ q.state = 5 → ∃ t, exec .powerApply s = .next t ∧
       t.dev.pstate = (if q.state = 4 then 3 else 4) ∧ t.dev.pwr.vcore = false ∧ t.dev.pwr.pend = none ∧
       t.dev.pwr.isolated = (q.isolate || q.state == 5) ∧ t.dev.flag F.PWR_STAT_PEN_CORE = false ∧
       t.dev.t = { t.dev.t with running := false, bn := s.dev.t.bn } ∧ s.dev.now ≤ t.dev.t.lastUsed)) ∧
  (∀ (s : State) (q : PwrPend), s.dev.pwr.pend = some q → s.dev.pwr.draining = false → s.dev.pwr.exiting = false →
     s.dev.t.running = false → s.dev.pwr.vcore = false → q.state = 5 → ∃ t, exec .powerApply s = .next t ∧ t.dev.pstate = 4 ∧
       t.dev.pwr.isolated = true ∧ t.dev.pwr.pend = none ∧ t.dev.pwr.vcore = false ∧ t.dev.jobs = s.dev.jobs ∧ t.dev.mram = s.dev.mram ∧
       t.dev.t = s.dev.t)

/-- R153, R157 to R159, R186, R191, R762: draining ends with the last bound job; a wake signal or the bus back above DCREL asserts
PEN_CORE, unless the backup cell ran out; VCORE restarts the core from its reset with the ledger kept; without it in time the device
stays where it was and says so. -/
def Obligations.ParkAndDormancyExits : Prop :=
  ∀ s : State,
    let busy := s.dev.jobs.any (fun j => j.active && j.exec == s.dev.pos)
    let up := fun (t : State) => t.dev.flag F.PWR_STAT_PEN_CORE = true ∧ t.dev.pwr = { s.dev.pwr with exiting := true } ∧
      s.dev.regsBut t.dev [R.PWR_STAT] ∧ t = { s with dev := { s.dev with regs := t.dev.regs, pwr := t.dev.pwr } }
    (s.dev.pwr.draining = true → busy = false → ∃ t, exec .readyDrainDone s = .next t ∧
      t.dev.pwr = { s.dev.pwr with draining := false, pend := none } ∧ t.dev.flag F.PWR_STAT_DRAINING = false ∧
      t.dev.flag F.PWR_STAT_PENDING = false ∧ t.dev.fld F.PWR_STAT_CMD_RESULT = 0 ∧ bitOf (t.dev.reg R.HST_ISR0) 17 = true ∧
      s.dev.regsBut t.dev (R.PWR_STAT :: irqRegs)) ∧
    (s.dev.pwr.draining = false ∨ busy = true → exec .readyDrainDone s = .next s) ∧
    (s.dev.pstate = 3 → s.dev.pwr.isolated = true → s.dev.pwr.exiting = false → s.dev.pwr.bkpDead = false →
      ∃ t, exec .wakeSignal s = .next t ∧ up t) ∧
    (s.dev.pwr.dormant = true → s.dev.pwr.dormFlag = true → s.dev.pwr.exiting = false → s.dev.pwr.bkpDead = false → s.dev.dcRel = true →
      ∃ t, exec .dormancyResume s = .next t ∧ up t) ∧
    (s.dev.pwr.bkpDead = true → exec .wakeSignal s = .next s ∧ exec .dormancyResume s = .next s) ∧
    (s.dev.pwr.exiting = true → s.dev.pwr.vcore = false →
      (∃ t, exec .vcoreGood s = .next t ∧ t.dev.pwr.vcore = true ∧ t.dev.pwr.dormant = false ∧ t.dev.pwr.exiting = true ∧
        t.dev.phase = (if s.dev.boot.role = .worker then 9 else 1) ∧ t.dev.boot.role = s.dev.boot.role ∧ t.dev.boot.replayed = false ∧
        t.dev.jobs = [] ∧ t.dev.mram = s.dev.mram ∧ t.dev.t.bn = s.dev.t.bn ∧ t.dev.t.ceil = s.dev.t.ceil ∧
        t.dev.cal = { s.dev.cal with pend := none }) ∧
      (s.dev.pwr.mevt.length < 16 → ∃ t, exec .penTimeout s = .next t ∧ t.dev.flag F.PWR_STAT_PEN_CORE = false ∧
        t.dev.pwr.exiting = false ∧ t.dev.pwr.pend = none ∧ t.dev.pstate = s.dev.pstate ∧
        t.dev.pwr.mevt = s.dev.pwr.mevt ++ [{ code := 0xA00A, bn := s.dev.now, val := 0 }])) ∧
    (s.dev.pwr.exiting = false ∨ s.dev.pwr.vcore = true → exec .vcoreGood s = .next s ∧ exec .penTimeout s = .next s)

/-- R175, R177, R178, R181 to R187, R189, R201: a BRACE starts at its beat, with HOLDUP where the bus fell below DCHOLD, refuses a
pending command, leaves STANDBY and ends the bound jobs whose origin is not known and of which nothing is placed; its close-out ends
it safe, or in HOLDUP with the bus low, or the backup cell exhausted, asleep; it clears to RUN only under its permit, and never out
of HOLDUP once the cell is exhausted. -/
def Obligations.BraceStartsClosesAndClears : Prop :=
  ∀ s : State,
    (∀ b, s.dev.pwr.braceDue = some b → b ≤ s.dev.now → s.dev.braced = false → (s.dev.jobs.map Job.hm).Nodup →
      ∃ t, exec .braceStart s = .next t ∧ t.dev.braced = true ∧ t.dev.flag F.PWR_STAT_CLOSED_OUT = false ∧ t.dev.pwr.braceDue = none ∧
        t.dev.pwr.braceBn = s.dev.now ∧ t.dev.pwr.pend = none ∧
        t.dev.pwr.wasRun = (s.dev.inRun && !s.dev.pwr.pend.any (fun c => c.state == 2 && decide (c.applyBn ≤ s.dev.now))) ∧
        (s.dev.pwr.holdDue = true → t.dev.flag F.PWR_STAT_HOLDUP = true) ∧
        t.dev.pstate = (if s.dev.pstate = 2 then 1 else s.dev.pstate) ∧ bitOf (t.dev.reg R.HST_ISR0) 17 = true ∧
        (s.dev.pwr.pend ≠ none → t.dev.fld F.PWR_STAT_CMD_RESULT = 0x1005) ∧ t.dev.jobs.map Job.hm = s.dev.jobs.map Job.hm ∧
        (∀ j ∈ s.dev.jobs, j.exec ≠ s.dev.pos ∨ j.active = false → j ∈ t.dev.jobs) ∧
        (∀ j ∈ s.dev.jobs, j.exec = s.dev.pos → j.active = true → j.out = none → j.sched = none → j.placed = false → j.colsPlayed = 0 →
          ∃ k ∈ t.dev.jobs, k.hm = j.hm ∧ k.st = .expired ∧ k.out = some { typ := 6, reason := 0x2005, bn := s.dev.now })) ∧
    (s.dev.pwr.braceDue = none ∨ s.dev.braced = true → exec .braceStart s = .next s) ∧
    (s.dev.braced = true → s.dev.flag F.PWR_STAT_CLOSED_OUT = false → s.dev.jobs.any (fun j => j.active && j.exec == s.dev.pos) = false →
      ∃ t, exec .braceCloseoutComplete s = .next t ∧
        (s.dev.flag F.PWR_STAT_HOLDUP = false → t.dev.flag F.PWR_STAT_CLOSED_OUT = true ∧ t.dev.braced = true ∧
          t.dev.pstate = s.dev.pstate ∧ ∀ n < 32, t.dev.outActive n = false) ∧
        (s.dev.flag F.PWR_STAT_HOLDUP = true → s.dev.dcRel = true → s.dev.pwr.bkpDead = false → t.dev.flag F.PWR_STAT_HOLDEN = false ∧ t.dev.braced = true ∧
          t.dev.pwr.dormant = s.dev.pwr.dormant) ∧
        (s.dev.flag F.PWR_STAT_HOLDUP = true → s.dev.dcRel = false ∨ s.dev.pwr.bkpDead = true → t.dev.pwr.dormant = true ∧
          t.dev.pwr.dormFlag = (!s.dev.pwr.bkpDead) ∧
          t.dev.pwr.vcore = false ∧ t.dev.t.running = false ∧ t.dev.flag F.PWR_STAT_PEN_CORE = false)) ∧
    (s.dev.braceOver = true → ∃ t, exec .braceClear s = .next t ∧ t.dev.braced = false ∧ t.dev.flag F.PWR_STAT_HOLDUP = false ∧
      t.dev.pstate = (if s.dev.pwr.wasRun = true ∧ s.dev.flag F.PWR_RESUME_EN = true ∧ s.dev.pwr.heldUp = false ∧
        (s.dev.now - s.dev.pwr.braceBn) * 480 ≤ s.dev.fld F.PWR_RESUME_LIMIT_MS * 1000000 then 0
        else if s.dev.pstate ≤ 2 then 1 else s.dev.pstate) ∧
      t.dev.reg R.PWR_RESUME = s.dev.reg R.PWR_RESUME ∧ t.dev.jobs = s.dev.jobs) ∧
    (s.dev.braceOver = false → exec .braceClear s = .next s) ∧
    (s.dev.braceOver = true → s.dev.flag F.PWR_STAT_CLOSED_OUT = true ∧ s.dev.dcRel = true ∧
      (s.dev.flag F.PWR_STAT_HOLDUP = true → s.dev.pwr.bkpDead = false) ∧
      (s.dev.fld F.SUP_RCODE_MNOM ≠ 0 → s.dev.fld F.SUP_MTHR1_GOOD_N ≤ s.dev.pwr.good))

/-- R167, R169, R174, R175: a rail below its minimum is recorded once per episode, with its mV (log entry 149), and starts a BRACE at
the next beat in a device that may brace, VAUX alone shows in SUP_RAILS; a VIO rail at 0 mV takes its bank away (log entry 156); DCHOLD, DCBRACE and DCREL are written together only in rising order. -/
def Obligations.SupplyEventsAndThresholds : Prop :=
  ∀ s : State,
    (∀ (k : Fin 8) (mv : BitVec 16), ∃ t, exec (.supplyUv ⟨k, mv⟩) s = .next t ∧ bitOf (t.dev.reg R.SUP_RAILS) k.val = true ∧
      s.dev.regsBut t.dev (R.SUP_RAILS :: irqRegs) ∧
      (k.val = 3 ∨ (0xA007 : Reason) ∈ s.dev.pwr.raised →
        t = { s with dev := { s.dev with regs := t.dev.regs, boot := { s.dev.boot with bankOff := t.dev.boot.bankOff } } }) ∧
      (k.val < 4 → t.dev.boot.bankOff = s.dev.boot.bankOff) ∧
      (4 ≤ k.val → (k.val - 4 ∈ t.dev.boot.bankOff ↔ mv = 0) ∧ ∀ b, b ≠ k.val - 4 → (b ∈ t.dev.boot.bankOff ↔ b ∈ s.dev.boot.bankOff)) ∧
      (k.val ≠ 3 → (0xA007 : Reason) ∉ s.dev.pwr.raised → s.dev.pwr.mevt.length < 16 →
        t.dev.pwr.mevt = s.dev.pwr.mevt ++ [{ code := 0xA007, bn := s.dev.now, val := mv.toNat }] ∧ (0xA007 : Reason) ∈ t.dev.pwr.raised ∧
        (s.dev.canBrace = true → s.dev.braced = false → s.dev.pwr.braceDue = none →
          t.dev.pwr.braceDue = some (s.dev.now + 1)) ∧
        (s.dev.canBrace = false ∨ s.dev.braced = true → t.dev.pwr.braceDue = s.dev.pwr.braceDue)) ∧
      t = { s with dev := { s.dev with regs := t.dev.regs, out := t.dev.out, pwr := t.dev.pwr,
                                       boot := { s.dev.boot with bankOff := t.dev.boot.bankOff } } }) ∧
    (s.dev.canBrace = true → s.dev.pwr.vcore = true ∧ s.dev.pstate ≠ 3 ∧ s.dev.pstate ≠ 4) ∧
    (∀ (p : Port) (b : Bool) (w : Word), s.dev.gate p (if b then R.SUP_DCTHR1 else R.SUP_DCTHR0) = .pass →
      let t0 : Word := if b then s.dev.reg R.SUP_DCTHR0 else w &&& 0x0FFF0FFF
      let t1 : Word := if b then w &&& 0xFFF else s.dev.reg R.SUP_DCTHR1
      let ok := slice t0 27 16 < slice t0 11 0 ∧ slice t0 11 0 < slice t1 11 0
      ∃ t, exec (.supDcthrWrite p b w) s = .next t ∧ t = { s with dev := { s.dev with regs := t.dev.regs } } ∧
        (ok → t.dev.reg R.SUP_DCTHR0 = t0 ∧ t.dev.reg R.SUP_DCTHR1 = t1 ∧ s.dev.regsBut t.dev [R.SUP_DCTHR0, R.SUP_DCTHR1]) ∧
        (¬ok → t.dev.flag F.SUP_DCVAL_THR_ERR = true ∧ s.dev.regsBut t.dev [R.SUP_DCVAL]))

/-! ## Clocks (05_clock_synthesis.md) -/

/-- R118, R212 to R219, R223, R253: a clock fault of the SPLL puts the core on the holdover oscillator, fences every timing output with
its reason, and the end of that beat decides its jobs by Table CLK-3; a start whose reference does not lock goes on from there; a
fault during a return starts qualification again; a device that is locked to the ring has no fault while a side can supply a clock; a
reserve that loses its own REFCLK loses the bits of that reference alone (R211); SPLL_FAIL stops the ring sides. -/
def Obligations.ClockFaultEntersHoldover : Prop :=
  ∀ s : State,
    let code := fun (k : Fin 3) => [(0x7001 : Reason), 0x7002, 0x7003].getD k.val 0
    let held := fun (t : State) (r : Reason) => t.dev.ownHoldover = true ∧ t.dev.flag F.CLK_STAT_LOCKED = false ∧ t.dev.spll = 2 ∧
      t.dev.fld F.CLK_STAT_REASON = r.toNat ∧ t.dev.clk.faultBn = s.dev.now ∧ t.dev.clk.faultDue = true ∧
      (∀ k ∈ timingDoms, r ∈ (t.dev.dom k).causes) ∧ bitOf (t.dev.reg R.HST_ISR0) 18 = true ∧
      t.dev.clk.jobsDue = true ∧ t.dev.jobs = s.dev.jobs
    (∀ k x, x = false ∨ s.dev.boot.role ≠ .reserve → s.dev.flag F.CLK_STAT_RING_SRC = false ∨ s.dev.sideClock = false →
      s.dev.pwr.vcore = true → s.dev.pstate ≠ 5 →
      (s.dev.ownHoldover = false → s.dev.spll = 1 → ∃ t, exec (.clockFault ⟨k, x⟩) s = .next t ∧ held t (code k)) ∧
      (s.dev.ownHoldover = true → s.dev.spll = 5 → ∃ t, exec (.clockFault ⟨k, x⟩) s = .next t ∧ t.dev.spll = 4 ∧
        t.dev.ownHoldover = true ∧ t.dev.flag F.CLK_STAT_REF_QUAL = false ∧ bitOf (t.dev.reg R.HST_ISR0) 18 = true ∧
        s.dev.regsBut t.dev (R.CLK_STAT :: R.CLK_EVT_CNT :: irqRegs) ∧
        t = { s with dev := { s.dev with regs := t.dev.regs, out := t.dev.out } })) ∧
    (∀ k x, s.dev.pwr.vcore = false → exec (.clockFault ⟨k, x⟩) s = .next s) ∧
    (∀ k x, x = false ∨ s.dev.boot.role ≠ .reserve →
      s.dev.pstate = 5 ∨ (s.dev.flag F.CLK_STAT_RING_SRC = true ∧ s.dev.sideClock = true) → exec (.clockFault ⟨k, x⟩) s = .next s) ∧
    (∀ k, s.dev.boot.role = .reserve → s.dev.pwr.vcore = true → ∃ t, exec (.clockFault ⟨k, true⟩) s = .next t ∧
      t.dev.ownHoldover = s.dev.ownHoldover ∧ t.dev.spll = s.dev.spll ∧ (k.val ≠ 2 → t.dev.flag F.CLK_STAT_REF_QUAL = false) ∧
      (k.val = 0 → t.dev.flag F.CLK_STAT_REF_PRESENT = false) ∧ s.dev.regsBut t.dev [R.CLK_STAT] ∧
      t = { s with dev := { s.dev with regs := t.dev.regs } }) ∧
    (∀ us k, s.dev.phase = 1 → s.dev.boot.role ≠ .worker → ∃ t, exec (.spllLockTimeout us k) s = .next t ∧ held t (code k) ∧
      t.dev.boot.calDeferred = true ∧ t.dev.phase = (if s.dev.boot.replayed then 4 else 3)) ∧
    (∀ us k, s.dev.phase ≠ 1 ∨ s.dev.boot.role = .worker → exec (.spllLockTimeout us k) s = .next s) ∧
    (s.dev.ownHoldover = true → s.dev.spll = 2 → ∃ t, exec .spllFail s = .next t ∧ t.dev.spll = 7 ∧ t.dev.wr.stopped = true ∧
      t.dev.fld F.CLK_STAT_REASON = 0x7004 ∧ bitOf (t.dev.reg R.HST_ISR0) 18 = true ∧ s.dev.regsBut t.dev (R.CLK_STAT :: irqRegs) ∧
      t = { s with dev := { s.dev with regs := t.dev.regs, out := t.dev.out, wr := { s.dev.wr with stopped := true } } }) ∧
    (s.dev.ownHoldover = false → exec .spllFail s = .next s) ∧
    (s.dev.clk.jobsDue = false → s.dev.clockDecide = s.dev) ∧
    (s.dev.clk.jobsDue = true → (s.dev.jobs.map Job.hm).Nodup →
      (∀ j ∈ s.dev.jobs, j.exec = s.dev.pos → j.active = true → j.out = none → ∃ q ∈ s.dev.clockDecide.jobs, q.hm = j.hm ∧
        q.out = some (if j.issued then { typ := 5, reason := 0x3006, bn := j.lastBn, d0 := j.partDetail }
          else { typ := 6, reason := 0x2004, bn := s.dev.now })) ∧
      ∀ j ∈ s.dev.jobs, j.exec ≠ s.dev.pos → j ∈ s.dev.clockDecide.jobs)

/-- R213, R215, R223, R224, Table CLK-4: the return: the slew to the holdover oscillator and its lock, a qualified reference, the slew
back, the lock to REFCLK, and the core's return, after which the holdover bit clears unless the ring's flag holds it; UNFENCE ends
the wait of HO_MANUAL. -/
def Obligations.HoldoverReturnsInPhases : Prop :=
  ∀ s : State,
    let only := fun (t : State) (l : List Nat) => s.dev.regsBut t.dev l ∧
      t = { s with dev := { s.dev with regs := t.dev.regs, out := t.dev.out, clk := t.dev.clk } }
    (s.dev.spll = 2 → ∃ t, exec .spllSlewDone s = .next t ∧ t.dev.spll = 0 ∧ t.dev.clk = { s.dev.clk with lockRef := false } ∧
      only t [R.CLK_STAT]) ∧
    (s.dev.spll = 5 → ∃ t, exec .spllSlewDone s = .next t ∧ t.dev.spll = 0 ∧ t.dev.clk = { s.dev.clk with lockRef := true } ∧
      t.dev.flag F.CLK_STAT_LOCKED = false ∧ only t [R.CLK_STAT]) ∧
    (s.dev.spll ≠ 2 → s.dev.spll ≠ 5 → exec .spllSlewDone s = .next s) ∧
    (∀ us, s.dev.spll = 0 → s.dev.pwr.vcore = true → s.dev.ownHoldover = true → s.dev.clk.lockRef = false →
      ∃ t, exec (.spllLock us) s = .next t ∧ t.dev.flag F.CLK_STAT_LOCKED = true ∧ t.dev.ownHoldover = true ∧ only t [R.CLK_STAT] ∧
        (t.dev.spll = 5 ↔ s.dev.flag F.CLK_STAT_REF_QUAL = true)) ∧
    (∃ t, exec .refQualified s = .next t ∧ t.dev.flag F.CLK_STAT_REF_PRESENT = true ∧ t.dev.flag F.CLK_STAT_REF_QUAL = true ∧
      only t [R.CLK_STAT] ∧ t.dev.clk = s.dev.clk ∧
      t.dev.spll = (if s.dev.ownHoldover = true ∧ (s.dev.spll = 3 ∨ s.dev.spll = 4 ∨ s.dev.spll = 7) then 5 else s.dev.spll)) ∧
    (s.dev.ownHoldover = true → s.dev.spll = 0 → s.dev.clk.lockRef = true → s.dev.flag F.CLK_STAT_LOCKED = true →
      ∃ t, exec .coreClockReturn s = .next t ∧ t.dev.spll = 6 ∧ t.dev.ownHoldover = false ∧
        t.dev.flag F.BT_STAT_HOLDOVER = s.dev.clk.flagSeen ∧ t.dev.clk.holdover = s.dev.clk.flagSeen ∧
        t.dev.num R.CLK_HO_DUR = min (s.dev.now - s.dev.clk.faultBn) (2 ^ 32 - 1) ∧ bitOf (t.dev.reg R.HST_ISR0) 18 = true ∧
        t.dev.pwr = { s.dev.pwr with bindBn := s.dev.now } ∧ s.dev.regsBut t.dev (R.CLK_STAT :: R.BT_STAT :: R.CLK_HO_DUR :: irqRegs) ∧
        t = { s with dev := { s.dev with regs := t.dev.regs, out := t.dev.out, clk := t.dev.clk, pwr := t.dev.pwr } }) ∧
    (s.dev.ownHoldover = false → exec .coreClockReturn s = .next s) ∧
    (∀ p, s.dev.gate p R.CLK_CMD = .pass → exec (.clkCmdUnfence p) s = .next { s with dev := { s.dev with clk :=
      { s.dev.clk with unfenceDue := s.dev.clk.unfenceDue || s.dev.clk.unfenceWait, unfenceWait := false } } })

/-- R232, R243, R244, R256, R260: a command of the synthesizer waits for AS_APPLY, or for the beat 4 beats on where that is 0 or too
near, in place of an earlier one; RETURN without lock or a clean window, SEARCH_ALL under a job of AS_DEP and DIV_APPLY beside HOP
draw REF_STATE; CANCEL withdraws it. R228 to R231, R233, R242, R243: at its beat a hop loads the profile and unlocks, DIV_APPLY
loads the dividers and RETURN leaves bypass; a band found is stored with the die temperature, none found goes to bypass and fences
FD112; lock is declared for the restart of the outputs. R230, R235 to R239, R241, R242, R247: an unlock takes every enabled output
off the synthesized clock and, where one left it, fences the AS_DEP domains; a deviation over 100 ppm suspects the lock; a dead old clock no longer
delays the switch; a dead bypass source holds outputs low; a CKSYNC edge is dropped where the rule says so. -/
def Obligations.SynthesizerLocksAndBypasses : Prop :=
  (∀ (s : State) (p : Port), s.dev.gate p R.AS_CMD = .pass → (s.dev.dom domAsyn).causes.contains Rsn.domainParked = false →
     let b := max (s.dev.num2 R.AS_APPLY_LO R.AS_APPLY_HI) (s.dev.now + 4)
     let waits := fun (t : State) (c : AsPend) => t.dev.clk = { s.dev.clk with asPend := some c } ∧ t.dev.flag F.AS_STAT_PENDING = true ∧
       s.dev.regsBut t.dev [R.AS_STAT] ∧ t = { s with dev := { s.dev with regs := t.dev.regs, clk := t.dev.clk } }
     let refused := fun (t : State) => t.dev.fld F.AS_STAT_REASON = 0x1005 ∧ s.dev.regsBut t.dev [R.AS_STAT] ∧
       t = { s with dev := { s.dev with regs := t.dev.regs } }
     (∀ k : Fin 8, ∃ t, exec (.asCmdHop p (BitVec.ofNat 9 k.val)) s = .next t ∧ waits t { prof := k.val, hop := true, applyBn := b }) ∧
     (∀ k : Fin 8, ∃ t, exec (.asCmdHop p (BitVec.ofNat 9 (k.val + 64))) s = .next t ∧ t.dev.fld F.AS_STAT_REASON = 0x1005 ∧
       waits t { prof := k.val, hop := true, applyBn := b }) ∧
     (∃ t, exec (.asCmdSync p) s = .next t ∧ waits t { prof := 0, sync := true, applyBn := b }) ∧
     (∀ y, ∃ t, exec (.asCmdDivApply p y) s = .next t ∧ waits t { prof := 0, div := true, sync := y, applyBn := b }) ∧
     (s.dev.flag F.AS_STAT_LOCKED = true → s.dev.clk.cleanWin = true →
       ∃ t, exec (.asCmdReturn p) s = .next t ∧ waits t { prof := 0, ret := true, applyBn := b }) ∧
     (s.dev.flag F.AS_STAT_LOCKED = false ∨ s.dev.clk.cleanWin = false → ∃ t, exec (.asCmdReturn p) s = .next t ∧ refused t) ∧
     (s.dev.depBusy = false → ∃ t, exec (.asCmdSearchAll p) s = .next t ∧ waits t { prof := 0, search := true, applyBn := b }) ∧
     (s.dev.depBusy = true → ∃ t, exec (.asCmdSearchAll p) s = .next t ∧ refused t) ∧
     (∃ t, exec (.asCmdCancel p) s = .next t ∧ t.dev.clk = { s.dev.clk with asPend := none } ∧ t.dev.flag F.AS_STAT_PENDING = false ∧
       s.dev.regsBut t.dev [R.AS_STAT] ∧ t = { s with dev := { s.dev with regs := t.dev.regs, clk := t.dev.clk } })) ∧
  (∀ s : State,
     (∀ c, s.dev.clk.asPend = some c → s.dev.now < c.applyBn → exec .asApply s = .next s) ∧
     (s.dev.clk.asPend = none → exec .asApply s = .next s) ∧
     (∀ (k : Fin 8) (b : Nat), s.dev.clk.asPend = some { prof := k.val, hop := true, applyBn := b } → b ≤ s.dev.now →
       s.dev.flag F.AS_CTRL_EN = true → ∃ t, exec .asApply s = .next t ∧ t.dev.fld F.AS_STAT_ACTIVE = k.val ∧
         t.dev.flag F.AS_STAT_LOCKED = false ∧ t.dev.clk.asPend = none ∧ t.dev.clk.hopping = true ∧
         t.dev.fld F.AS_STAT_STATE = (if s.dev.flag (F.AS_PBAND_VALID k.val) then 2 else 1) ∧
         (∀ i < 4, mget 0 t.dev.clk.div i = s.dev.fld (F.AS_PD_DIVIDER k.val i)) ∧
         t.dev.clk.asN = s.dev.fld (F.AS_PN_N_INT k.val) ∧ t.dev.clk.asFrac = s.dev.num (R.AS_PFRAC k.val) % 2 ^ 24 ∧
         t.dev.clk.asBand = (if s.dev.flag (F.AS_PBAND_VALID k.val) then some (s.dev.fld (F.AS_PBAND_BAND k.val)) else none) ∧
         s.dev.regsBut t.dev [R.AS_STAT] ∧ t.dev.fen = s.dev.fen) ∧
     (∀ b, s.dev.clk.asPend = some { prof := 0, div := true, applyBn := b } → b ≤ s.dev.now → ∃ t, exec .asApply s = .next t ∧
       (∀ i < 4, mget 0 t.dev.clk.div i = s.dev.fld (F.AS_DIV_SHADOW i)) ∧ t.dev.clk.asPend = none ∧ s.dev.regsBut t.dev [R.AS_STAT] ∧
       t = { s with dev := { s.dev with regs := t.dev.regs, out := t.dev.out,
                                        clk := { s.dev.clk with asPend := none, div := t.dev.clk.div } } }) ∧
     (∀ b, s.dev.clk.asPend = some { prof := 0, ret := true, applyBn := b } → b ≤ s.dev.now → s.dev.asBypass = true →
       s.dev.flag F.AS_STAT_LOCKED = true → s.dev.clk.cleanWin = true → ∃ t, exec .asApply s = .next t ∧ t.dev.asBypass = false ∧
         t.dev.fld F.AS_STAT_STATE = 3 ∧ t.dev.fld F.AS_STAT_REASON = 0 ∧ bitOf (t.dev.reg R.HST_ISR0) 18 = true) ∧
     (∀ w : Fin 64, s.dev.fld F.AS_STAT_STATE = 1 → ∃ t, exec (.bandSearchDone (some w)) s = .next t ∧
       t.dev.fld (F.AS_PBAND_BAND (s.dev.fld F.AS_STAT_ACTIVE)) = w.val ∧ t.dev.flag (F.AS_PBAND_VALID (s.dev.fld F.AS_STAT_ACTIVE)) = true ∧
       t.dev.fld (F.AS_PBAND_DIE (s.dev.fld F.AS_STAT_ACTIVE)) = s.dev.fld F.ASY_TEMP_DIE ∧ t.dev.fld F.AS_STAT_STATE = 2 ∧
       s.dev.regsBut t.dev [R.AS_STAT, (F.AS_PBAND_BAND (s.dev.fld F.AS_STAT_ACTIVE)).a] ∧
       t = { s with dev := { s.dev with regs := t.dev.regs, clk := { s.dev.clk with asBand := some w.val } } }) ∧
     (s.dev.fld F.AS_STAT_STATE = 1 → s.dev.flag F.AS_CTRL_EN = true → ∃ t, exec (.bandSearchDone none) s = .next t ∧
       t.dev.asBypass = true ∧ t.dev.fld F.AS_STAT_REASON = 0x7013 ∧ t.dev.fld F.AS_STAT_STATE = 5 ∧
       (0x7013 : Reason) ∈ (t.dev.dom domAsyn).causes) ∧
     (∀ f, s.dev.fld F.AS_STAT_STATE ≠ 1 → exec (.bandSearchDone f) s = .next s) ∧
     (s.dev.flag F.AS_CTRL_EN = true → s.dev.flag F.AS_STAT_LOCKED = false → s.dev.fld F.AS_STAT_STATE = 2 → s.dev.ownHoldover = false →
       s.dev.asBypass = false → s.dev.clk.back = none → ∃ t, exec .asLockDeclare s = .next t ∧ t.dev.flag F.AS_STAT_LOCKED = true ∧
         t.dev.fld F.AS_STAT_STATE = 3 ∧
         t.dev.clk = { s.dev.clk with hopping := false, cleanWin := false, syncAt := some (s.dev.now + 1) } ∧
         s.dev.regsBut t.dev [R.AS_STAT] ∧ t = { s with dev := { s.dev with regs := t.dev.regs, clk := t.dev.clk } }) ∧
     (s.dev.flag F.AS_STAT_LOCKED = true → exec .asLockDeclare s = .next s)) ∧
  (∀ s : State,
     (s.dev.flag F.AS_CTRL_EN = true → s.dev.flag F.AS_STAT_LOCKED = true → ∃ t, exec .asUnlock s = .next t ∧
       t.dev.flag F.AS_STAT_LOCKED = false ∧ t.dev.asBypass = true ∧ t.dev.fld F.AS_STAT_STATE = 5 ∧ t.dev.fld F.AS_STAT_REASON = 0x7011 ∧
       t.dev.flag (F.AS_PBAND_VALID (s.dev.fld F.AS_STAT_ACTIVE)) = false ∧
       (s.dev.ckSynth = true → ∀ k ∈ s.dev.asDeps, (0x7011 : Reason) ∈ (t.dev.dom k).causes) ∧
       (s.dev.ckSynth = false → t.dev.fen = s.dev.fen) ∧
       (∀ n < 4, s.dev.ckEnabled n = true → s.dev.ck n = .synth →
         t.dev.ck n = (if s.dev.fld (F.AS_OUT_BYPDIV n) = 0 then .bypLow else s.dev.ckHeld .switching)) ∧ t.dev.jobs = s.dev.jobs) ∧
     (s.dev.flag F.AS_CTRL_EN = false ∨ s.dev.flag F.AS_STAT_LOCKED = false → exec .asUnlock s = .next s) ∧
     (∀ v : Int, s.dev.flag F.AS_STAT_LOCKED = true → 1000 < v.natAbs → s.dev.flag F.AS_CTRL_SUSPECT_BYP = false → s.dev.asBypass = false →
       ∃ t, exec (.asMonitorWindow v) s = .next t ∧ t.dev.flag F.AS_STAT_LOCK_SUSPECT = true ∧ t.dev.fld F.AS_STAT_STATE = 4 ∧
         t.dev.flag F.AS_STAT_LOCKED = true ∧ t.dev.clk = { s.dev.clk with cleanWin := false } ∧ t.dev.fen = s.dev.fen ∧
         t.dev.flag (F.AS_PBAND_VALID (s.dev.fld F.AS_STAT_ACTIVE)) = false ∧
         (s.dev.clk.unlockBn ≠ some s.dev.now → t.dev.fld F.AS_STAT_REASON = 0x7012) ∧
         t.dev.fld F.AS_FREQERR_DEVIATION = unsigned 16 v ∧ bitOf (t.dev.reg R.HST_ISR0) 18 = true) ∧
     (∀ v : Int, s.dev.flag F.AS_STAT_LOCKED = true → v.natAbs ≤ 1000 → s.dev.asBypass = false → s.dev.fld F.AS_STAT_STATE ≠ 4 →
       ∃ t, exec (.asMonitorWindow v) s = .next t ∧ t.dev.fld F.AS_FREQERR_DEVIATION = unsigned 16 v ∧
         s.dev.regsBut t.dev [R.AS_FREQERR] ∧
         t = { s with dev := { s.dev with regs := t.dev.regs, clk := { s.dev.clk with cleanWin := true } } }) ∧
     (∃ t, exec .muxNoEdgeTimeout s = .next t ∧ t.dev.regs = s.dev.regs ∧ ∀ n < 4,
       t.dev.ck n = (if s.dev.ckEnabled n = true ∧ s.dev.ck n = .switching then s.dev.ckHeld (s.dev.bypSrc n) else s.dev.ck n)) ∧
     (∃ t, exec .bypclkLoss s = .next t ∧ t.dev.flag F.AS_STAT_BYPCLK_LOST = true ∧ t.dev.fld F.AS_STAT_REASON = 0x7014 ∧
       t.dev.bypGone = true ∧ bitOf (t.dev.reg R.HST_ISR0) 18 = true ∧ s.dev.regsBut t.dev (R.AS_STAT :: irqRegs) ∧
       ∀ n < 4, s.dev.ckEnabled n = true → s.dev.ck n = .bypass ∨ s.dev.ck n = .switching → t.dev.ck n = .deadLow) ∧
     (∃ t, exec .bypassSourceReturn s = .next t ∧ t.dev.flag F.AS_STAT_BYPCLK_LOST = false ∧ t.dev.bypGone = false ∧
       s.dev.regsBut t.dev [R.AS_STAT] ∧ ∀ n < 4, s.dev.ckEnabled n = true → s.dev.ck n = .deadLow →
         t.dev.ck n = (if s.dev.fld (F.AS_OUT_BYPDIV n) = 0 then .bypLow else s.dev.ckHeld .bypass)) ∧
     (s.dev.clk.cksyncBn = some s.dev.now ∨ s.dev.clk.hopping = true ∨ s.dev.asBypass = true → ∃ t, exec .cksyncEdge s = .next t ∧
       t.dev.flag F.AS_STAT_SYNC_DROP = true ∧ s.dev.regsBut t.dev [R.AS_STAT] ∧ t.dev.out = s.dev.out) ∧
     (s.dev.clk.cksyncBn ≠ some s.dev.now → s.dev.clk.hopping = false → s.dev.asBypass = false → ∃ t, exec .cksyncEdge s = .next t ∧
       t.dev.out = s.dev.out ++ (List.range 4).flatMap (fun n => if s.dev.ckEnabled n && s.dev.flag (F.AS_OUT_SYNCEN n) &&
         s.dev.ck n == .synth then [s.dev.ckOut n .holdLow, s.dev.ckOut n .synth] else []) ∧
       t = { s with dev := { s.dev with clk := { s.dev.clk with cksyncBn := some s.dev.now }, out := t.dev.out } }))

/-! ## The host port (06_host_port.md) -/

/-- R119, R262, R267 to R271, R274: a host-port reset clears the host-port domain alone; a function-level reset also leaves the link up
and FD113 free; D3hot, the return to D0, a trained link, a poisoned write and an access of a wrong size do what their rules say and
no more, and nothing on a port that is not live. -/
def Obligations.HostPortResetsKeepJobs : Prop :=
  ∀ s : State,
    let kept := fun (t : State) => t.dev.jobs = s.dev.jobs ∧ t.dev.mram = s.dev.mram ∧ t.dev.ldg = s.dev.ldg ∧
      t.dev.adm.ready = [] ∧ t.dev.adm.reading = [] ∧ t.dev.adm.bells = [] ∧
      (∀ a, hostReg a = false → ringHostReg a = false → t.dev.reg a = s.dev.reg a) ∧
      t.dev.reg R.HST_SPI_WCNT = s.dev.reg R.HST_SPI_WCNT ∧ (∀ j < 512, t.dev.reg (R.JR_SQCFG j) = 0) ∧ t = { s with dev := t.dev }
    let only := fun (t : State) (l : List Nat) => s.dev.regsBut t.dev l ∧
      t = { s with dev := { s.dev with regs := t.dev.regs, out := t.dev.out } }
    (s.dev.boot.role ≠ .worker → s.dev.flag F.SUP_STRAP_HOSTSEL = false →
      (∃ t, exec .hostPortReset s = .next t ∧ kept t ∧ t.dev.fld F.HST_STAT_LAST = 0xB005 ∧
        t.dev.flag F.HST_STAT_LINK_UP = false ∧ (0xB005 : Reason) ∈ (t.dev.dom domHost).causes ∧
        t.dev.boot = s.dev.boot) ∧
      (s.dev.flag F.HST_STAT_LINK_UP = true → (0xB004 : Reason) ∉ (s.dev.dom domHost).causes →
        ∃ t, exec .functionLevelReset s = .next t ∧ kept t ∧ t.dev.fld F.HST_STAT_LAST = 0xB004 ∧
          t.dev.flag F.HST_STAT_LINK_UP = true ∧ (t.dev.dom domHost).causes = (s.dev.dom domHost).causes) ∧
      (∀ (g : Bool) (w : Fin 3) (b m i : Bool), s.dev.boot.perst = false → s.dev.boot.strapsValid = true →
        ∃ t, exec (.linkUp g w b m i) s = .next t ∧ t.dev.flag F.HST_STAT_LINK_UP = true ∧ t.dev.flag F.HST_STAT_GEN2 = g ∧
          t.dev.fld F.HST_STAT_WIDTH = w.val ∧ t.dev.flag F.HST_STAT_BME = b ∧ t.dev.hst.msixEn = m ∧ t.dev.hst.intDis = i ∧
          t.dev.boot.linkTraining = false ∧ (t.dev.dom domHost).causes = [] ∧ t.dev.jobs = s.dev.jobs)) ∧
    (s.dev.boot.role = .worker → exec .hostPortReset s = .next s ∧ exec .functionLevelReset s = .next s) ∧
    (s.dev.flag F.HST_STAT_LINK_UP = true → ∃ t, exec .d3hotEntry s = .next t ∧ t.dev.flag F.HST_STAT_D3HOT = true ∧
      only t [R.HST_STAT]) ∧
    (s.dev.flag F.HST_STAT_LINK_UP = false → exec .d3hotEntry s = .next s) ∧
    (∃ t, exec .d0Return s = .next t ∧ t.dev.flag F.HST_STAT_D3HOT = false ∧ only t [R.HST_STAT, R.MSIX_PBA 0, R.MSIX_PBA 1]) ∧
    (s.dev.portLive .host = true → exec .poisonedWrite s = .next { s with dev := { s.dev with hst := { s.dev.hst with aerPoison := true } } }) ∧
    (s.dev.portLive .host = false → exec .poisonedWrite s = .next s ∧ ∀ r, exec (.bar0SizeError r) s = .next s) ∧
    (∀ r, s.dev.portLive .host = true → ∃ t, exec (.bar0SizeError r) s = .next t ∧ t.dev.flag F.HST_STAT_SIZE_ERR = true ∧
      t.dev.out = s.dev.out ++ (if r then [.readData .host 0] else []) ∧ only t [R.HST_STAT])

/-- R273, R275 to R278, R293, R301, R394: doorbells wait for the Edge phase, and are refused at once off the active manager; a completed
read hands its waybills to admission; a read that fails twice disables its ring; a ring is enabled only within the window total, and
what is owed to it comes in line at its queue (R286); HOST_GO and HST_SUBGO act once. -/
def Obligations.SubmissionRingsServed : Prop :=
  ∀ (s : State) (j : Fin 512),
    let n := (mget (0, 0) s.dev.adm.reading j.val).1
    let k := (mget (0, 0) s.dev.adm.reading j.val).2
    let regsAdm := fun (t : State) (l : List Nat) => s.dev.regsBut t.dev l ∧
      t = { s with dev := { s.dev with regs := t.dev.regs, out := t.dev.out, adm := t.dev.adm } }
    (∀ (p : Port) (w : Word), s.dev.gate p (R.JR_DB j.val) = .pass → s.dev.flag F.SUP_STRAP_HOSTSEL = false →
      (s.dev.isMgr = true → s.dev.wr.isolated = false → exec (.doorbellWrite p j w) s = .next { s with dev := { s.dev with adm :=
        { s.dev.adm with bells := mset none s.dev.adm.bells j.val (some w.toNat) } } }) ∧
      (s.dev.isMgr = false → s.dev.boot.roleKnown = true ∨ s.dev.started = true → ∃ t, exec (.doorbellWrite p j w) s = .next t ∧
        t.dev.flag (F.JR_HSTAT_DB_REFUSED j.val) = true ∧
        t.dev.fld (F.JR_HSTAT_REASON j.val) = 0xB020 ∧ t.dev.fld F.HST_ERR_REASON = 0xB020 ∧ t.dev.fld F.HST_ERR_JOB = j.val ∧
        bitOf (t.dev.reg R.HST_ISR0) 22 = true ∧ regsAdm t (R.JR_HSTAT j.val :: R.HST_ERR :: irqRegs) ∧ t.dev.adm = s.dev.adm)) ∧
    (∀ ws, k = 1 ∨ k = 3 → ∃ t, exec (.waybillReadComplete j ws) s = .next t ∧
      t.dev.readyOf j.val = s.dev.readyOf j.val ++ (List.range n).map (fun i => ws.getD i []) ∧
      mget (0, 0) t.dev.adm.reading j.val = (0, 0) ∧ t.dev.num (R.JR_SQHEAD j.val) = (s.dev.num (R.JR_SQHEAD j.val) + n) % 2 ^ 32 ∧
      (∀ i, i ≠ j.val → t.dev.readyOf i = s.dev.readyOf i) ∧ regsAdm t [R.JR_SQHEAD j.val]) ∧
    (k ≠ 1 → k ≠ 3 → (∀ ws, exec (.waybillReadComplete j ws) s = .next s) ∧ exec (.waybillReadFail j) s = .next s) ∧
    (k = 1 → ∃ t, exec (.waybillReadFail j) s = .next t ∧ mget (0, 0) t.dev.adm.reading j.val = (n, 2) ∧
      regsAdm t [R.HST_DMA_FAILCNT]) ∧
    (k = 3 → ∃ t, exec (.waybillReadFail j) s = .next t ∧ mget (0, 0) t.dev.adm.reading j.val = (0, 0) ∧
      t.dev.flag (F.JR_SQCFG_EN j.val) = false ∧ t.dev.flag (F.JR_HSTAT_DMA_FAIL j.val) = true ∧
      t.dev.fld (F.JR_HSTAT_REASON j.val) = 0xB002 ∧ bitOf (t.dev.reg R.HST_ISR0) 22 = true ∧
      regsAdm t (R.HST_DMA_FAILCNT :: R.JR_SQCFG j.val :: R.JR_HSTAT j.val :: R.HST_ERR :: irqRegs)) ∧
    (∀ (p : Port) (w : Word), s.dev.gate p (R.JR_SQCFG j.val) = .pass →
      let on := s.dev.flag (F.JR_SQCFG_EN j.val)
      let fits := s.dev.winTotal + s.dev.winOf w ≤ 131072
      (on = false → bitOf w 31 = true → fits → ∃ t, exec (.sqEnable p j w) s = .next t ∧
        t.dev.reg (R.JR_SQCFG j.val) = w &&& 0x800F000F ∧
        s.dev.regsBut t.dev [R.JR_SQCFG j.val, R.HST_CQ_STAT (slice w 19 16)] ∧
        (∀ e ∈ t.dev.hst.owed, e.1 ≠ j.val) ∧ (∀ e ∈ s.dev.hst.owed, e.1 ≠ j.val → e ∈ t.dev.hst.owed) ∧
        (s.dev.owedOf j.val (slice w 19 16) = [] → ∀ q, t.dev.cq q = s.dev.cq q) ∧
        (s.dev.owedOf j.val (slice w 19 16) ≠ [] →
          (t.dev.cq (slice w 19 16)).wait = ((s.dev.cq (slice w 19 16)).again (s.dev.owedOf j.val (slice w 19 16))).wait) ∧
        mget [] t.dev.adm.win j.val = (mget [] s.dev.adm.win j.val).take (s.dev.winOf w) ∧
        t = { s with dev := { s.dev with regs := t.dev.regs, hst := t.dev.hst, adm := { s.dev.adm with win := t.dev.adm.win } } }) ∧
      (on = false → bitOf w 31 = true → ¬fits → ∃ t, exec (.sqEnable p j w) s = .next t ∧
        t.dev.fld (F.JR_HSTAT_REASON j.val) = 0x9006 ∧ regsAdm t [R.JR_HSTAT j.val] ∧ t.dev.adm = s.dev.adm) ∧
      (on = true → bitOf w 31 = true → exec (.sqEnable p j w) s = .next s) ∧
      (on = true → bitOf w 31 = false → ∃ t, exec (.sqEnable p j w) s = .next t ∧ t.dev.flag (F.JR_SQCFG_EN j.val) = false ∧
        t.dev.readyOf j.val = [] ∧ mget (0, 0) t.dev.adm.reading j.val = (0, 0) ∧ t.dev.jobs = s.dev.jobs ∧
        regsAdm t [R.JR_SQCFG j.val, R.JR_SQHEAD j.val])) ∧
    (∀ p, s.dev.gate p R.HST_CTRL = .pass → exec (.hostGo p) s = .next { s with dev := { s.dev with hst :=
      { s.dev.hst with goDue := s.dev.hst.goDue || (s.dev.hst.held && s.dev.isMgr) } } }) ∧
    (∀ p, s.dev.gate p R.HST_SUBGO = .pass →
      (s.dev.flag F.SUP_STRAP_HOSTSEL = true → s.dev.flag F.HST_SUBSTAT_BUSY = false → ∃ t, exec (.hstSubgo p j) s = .next t ∧
        t.dev.flag F.HST_SUBSTAT_BUSY = true ∧ t.dev.hst = { s.dev.hst with subRing := some j.val, subDue := true } ∧
        s.dev.regsBut t.dev [R.HST_SUBSTAT] ∧ t = { s with dev := { s.dev with regs := t.dev.regs, hst := t.dev.hst } }) ∧
      (s.dev.flag F.SUP_STRAP_HOSTSEL = false ∨ s.dev.flag F.HST_SUBSTAT_BUSY = true → exec (.hstSubgo p j) s = .next s))

/-- R280, R282, R284 to R286, R288 to R290: enabling a completion queue takes its counts to 0 and delivers its unacknowledged entries
again; entries are posted in order, with the phase of the count and never into a queue that is full by the HEAD of the last Prepare
phase (R306); HEAD moves only forward and up to TAIL;
an unmasked pending vector is sent. -/
def Obligations.CompletionQueuesPost : Prop :=
  ∀ (s : State) (q : Fin 16),
    let c := s.dev.cq q.val
    let others := fun (t : State) => ∀ i, i ≠ q.val → t.dev.cq i = s.dev.cq i
    let head := s.dev.num (R.HST_CQ_HEAD q.val)
    let tail := s.dev.num (R.HST_CQ_TAIL q.val)
    (∀ (p : Port) (w : Word), s.dev.gate p (R.HST_CQ_CFG q.val) = .pass →
      (s.dev.flag (F.HST_CQ_CFG_EN q.val) = false → bitOf w 16 = true → ∃ t, exec (.cqEnable p q w) s = .next t ∧
        t.dev.reg (R.HST_CQ_CFG q.val) = w &&& 0x1000F ∧ t.dev.num (R.HST_CQ_TAIL q.val) = 0 ∧ t.dev.num (R.HST_CQ_HEAD q.val) = 0 ∧
        (t.dev.cq q.val).wait = c.posted.filter CqEntry.durable ++ c.wait ∧ (t.dev.cq q.val).acked = c.acked ∧
        (t.dev.cq q.val).redo = (c.posted.filter CqEntry.durable).length + c.redo ∧
        (t.dev.cq q.val).posted = [] ∧ others t ∧ t.dev.hst.owed = s.dev.hst.owed ∧
        s.dev.regsBut t.dev [R.HST_CQ_CFG q.val, R.HST_CQ_TAIL q.val, R.HST_CQ_HEAD q.val, R.HST_CQ_STAT q.val]) ∧
      (s.dev.flag (F.HST_CQ_CFG_EN q.val) = true → bitOf w 16 = true → exec (.cqEnable p q w) s = .next s) ∧
      (s.dev.flag (F.HST_CQ_CFG_EN q.val) = true → bitOf w 16 = false → ∃ t, exec (.cqEnable p q w) s = .next t ∧
        t.dev.flag (F.HST_CQ_CFG_EN q.val) = false ∧ s.dev.regsBut t.dev [R.HST_CQ_CFG q.val] ∧ t.dev.hst = s.dev.hst)) ∧
    (∀ (p : Port) (w : Word), s.dev.gate p (R.HST_CQ_HEAD q.val) = .pass →
      let m := (w.toNat + 2 ^ 32 - head) % 2 ^ 32
      (m ≤ (tail + 2 ^ 32 - head) % 2 ^ 32 → ∃ t, exec (.cqHeadWrite p q w) s = .next t ∧ t.dev.reg (R.HST_CQ_HEAD q.val) = w ∧
        (t.dev.cq q.val).posted = c.posted.drop m ∧ (t.dev.cq q.val).wait = c.wait ∧ c.acked ≤ (t.dev.cq q.val).acked ∧ others t ∧
        s.dev.regsBut t.dev [R.HST_CQ_HEAD q.val, R.HST_CQ_STAT q.val]) ∧
      ((tail + 2 ^ 32 - head) % 2 ^ 32 < m → ∃ t, exec (.cqHeadWrite p q w) s = .next t ∧
        t.dev.flag (F.HST_CQ_STAT_HEAD_ERR q.val) = true ∧ s.dev.regsBut t.dev [R.HST_CQ_STAT q.val] ∧ t.dev.hst = s.dev.hst)) ∧
    (∀ e r, c.wait = e :: r → s.dev.flag (F.HST_CQ_CFG_EN q.val) = true → s.dev.dmaOk = true → s.dev.cqRoom q.val = true →
      s.dev.flag F.SUP_STRAP_HOSTSEL = false → s.dev.unmirrored e.lpos = false → ∃ t, exec (.completionPost q) s = .next t ∧
        (t.dev.cq q.val).wait = r ∧ (t.dev.cq q.val).posted = c.posted ++ [e] ∧ t.dev.num (R.HST_CQ_TAIL q.val) = (tail + 1) % 2 ^ 32 ∧
        .cqWrite q.val (e.words.set 7 (putBit (e.words.getD 7 0) 31 (tail / s.dev.cqDepth q.val % 2 == 0))) ∈ t.dev.out ∧
        others t ∧ t.dev.jobs = s.dev.jobs) ∧
    (c.wait = [] ∨ s.dev.flag (F.HST_CQ_CFG_EN q.val) = false ∨ s.dev.dmaOk = false ∨ s.dev.cqRoom q.val = false →
      exec (.completionPost q) s = .next s) ∧
    (c.since ≠ 0 → c.sinceBn + s.dev.fld (F.HST_CQ_MOD_TIME q.val) ≤ s.dev.now → ∃ t, exec (.cqModerationTimeout q) s = .next t ∧
      t.dev.cq q.val = { c with since := 0 } ∧ others t ∧ bitOf (t.dev.reg R.HST_ISR0) q.val = true ∧ s.dev.regsBut t.dev irqRegs) ∧
    (c.since = 0 → exec (.cqModerationTimeout q) s = .next s) ∧
    (∀ (p : Port) (v : Fin 64), s.dev.gate p (R.MSIX_TABLE (4 * v.val + 3)) = .pass →
      ∃ t, exec (.msixUnmask p v) s = .next t ∧ t.dev.reg (R.MSIX_TABLE (4 * v.val + 3)) = 0 ∧
        (s.dev.mayMsix v.val = true → bitOf (s.dev.reg (R.MSIX_PBA (v.val / 32))) (v.val % 32) = true →
          .msix v.val ∈ t.dev.out ∧ bitOf (t.dev.reg (R.MSIX_PBA (v.val / 32))) (v.val % 32) = false) ∧
        s.dev.regsBut t.dev [R.MSIX_TABLE (4 * v.val + 3), R.MSIX_PBA 0, R.MSIX_PBA 1] ∧
        t = { s with dev := { s.dev with regs := t.dev.regs, out := t.dev.out } })

/-- R296 to R300, Tables HST-5 to HST-7: the SPI service port answers after the bytes of the request, in which it drives 0xFF, and
checks a request whole before it acts: a wrong CRC, an OP of 3 and an
address that is not aligned or leaves the space draw 0xA1, 0xA2 and 0xA3 and change only the error report; STATUS answers the
interrupt registers; a store write that passes is made; an abort is counted. -/
def Obligations.SpiRequestsCheckedWhole : Prop :=
  ∀ (s : State) (low : BitVec 6) (addr : BitVec 24) (crc : Byte), s.dev.spiLive = true →
    let answer := fun (n rsp : Nat) (ws : List Word) =>
      let bs := BitVec.ofNat 8 rsp :: ws.flatMap (fun w => beBytes 4 w.toNat)
      Out.spi (List.replicate (4 * n + 5) 0xFF ++ bs ++ [spiCrc bs])
    let good := fun (op : Nat) (ws : List Word) =>
      spiCrc (spiCmdByte op low :: beBytes 3 addr.toNat ++ ws.flatMap (fun w => beBytes 4 w.toNat)) = crc
    let bad := fun (t : State) (n rsp r : Nat) => t.dev.fld F.HST_ERR_REASON = r ∧ answer n rsp [] ∈ t.dev.out ∧
      s.dev.regsBut t.dev (R.HST_ERR :: R.HST_SPI_ERRCNT :: irqRegs) ∧
      t = { s with dev := { s.dev with regs := t.dev.regs, out := t.dev.out } }
    let len := low.toNat % 16 + 1
    let top := if low.getLsbD 5 then 2 ^ 24 else 2 ^ 20
    (∀ far, ¬good 1 [] → ∃ t, exec (.spiRead low addr crc far) s = .next t ∧ bad t 0 0xA1 0xB010) ∧
    (∀ far, good 1 [] → low.getLsbD 4 = false → addr.toNat % 4 ≠ 0 ∨ top < addr.toNat + 4 * len →
      ∃ t, exec (.spiRead low addr crc far) s = .next t ∧ bad t 0 0xA3 0xB012) ∧
    (∀ far, good 1 [] → low.getLsbD 4 = false → low.getLsbD 5 = true → addr.toNat % 4 = 0 → addr.toNat + 4 * len ≤ 2 ^ 24 →
      s.dev.rgate .spi 0x50000 = .full → exec (.spiRead low addr crc far) s = .next { s with dev := { s.dev with out := s.dev.out ++
        [answer 0 0xA0 ((List.range len).map (fun i => storeWord s.store (addr.toNat + 4 * i)))] } }) ∧
    (∀ ws, ws.length = len → ¬good 2 ws → ∃ t, exec (.spiWrite low addr ws crc) s = .next t ∧ bad t len 0xA1 0xB010) ∧
    (∀ ws, ws.length = len → good 2 ws → low.getLsbD 4 = false → low.getLsbD 5 = true → addr.toNat % 4 = 0 →
      addr.toNat + 4 * len ≤ 2 ^ 24 → s.dev.storeGate .spi = true → s.dev.protects s.store addr.toNat (4 * len) = false →
      ∃ t, exec (.spiWrite low addr ws crc) s = .next t ∧ t.store = storeWrite s.store addr.toNat (ws.flatMap wordBytes) ∧
        t.dev.num R.HST_SPI_WCNT = (s.dev.num R.HST_SPI_WCNT + len) % 2 ^ 32 ∧ s.dev.regsBut t.dev [R.HST_SPI_WCNT] ∧
        t.dev.out = s.dev.out ++ [answer len 0xA0 []]) ∧
    (good 3 [] → ∃ t, exec (.spiStatus true low addr crc) s = .next t ∧ bad t 0 0xA2 0xB011) ∧
    (good 0 [] → low.getLsbD 4 = false → exec (.spiStatus false low addr crc) s = .next { s with dev := { s.dev with out := s.dev.out ++
      [answer 0 0xA0 [s.dev.reg R.HST_ISR0, s.dev.reg R.HST_ISR1]] } }) ∧
    (∃ t, exec .spiAbort s = .next t ∧ t.dev.fld F.HST_SPI_ERRCNT_ABORT = min (s.dev.fld F.HST_SPI_ERRCNT_ABORT + 1) 255 ∧
      s.dev.regsBut t.dev [R.HST_SPI_ERRCNT] ∧ t = { s with dev := { s.dev with regs := t.dev.regs } })

/-! ## Admission and jobs (07_waybills_and_admission.md, 01_system_overview.md) -/

/-- R318 to R322, R326 to R330: the Innkeeper examines at most two waybills a beat, of the ring whose turn it is; one that passes every
check is accepted under the next hallmark with an ACCEPT record due, and any other is answered and leaves no job. -/
def Obligations.WaybillAcceptedOrAnswered : Prop :=
  ∀ (s : State) (far : FarExec),
    let may := s.dev.admits = true ∧ s.dev.adm.examined < 2 ∧ (s.dev.backlog = true ∨ s.dev.dueCount 3 < 4)
    let rs := (s.dev.adm.ready.map (fun c => c.1)).filter (fun j => match s.dev.readyOf j with
      | b :: _ => s.dev.flag (F.JR_SQCFG_EN j) && !s.dev.cqFull (s.dev.ringCq j) && !s.dev.frozenBy s.store j b far
      | [] => false)
    (¬may → exec (.waybillExamine far) s = .next s) ∧
    (∀ j b rest, may → s.dev.nextRing s.dev.adm.rrExam rs = some j → s.dev.readyOf j = b :: rest →
      let adm := { s.dev.adm with examined := s.dev.adm.examined + 1, ready := mset [] s.dev.adm.ready j rest,
                                  rrExam := mset 511 s.dev.adm.rrExam (s.dev.fld (F.JR_ACFG_PRIO j)) j }
      let d : Dev := { s.dev with adm := adm }
      let seq := (b.getD 0 0).toNat
      (d.examineAnswer s.store j b far = none → ∃ t x q, exec (.waybillExamine far) s = .next t ∧
        t.dev.jobs = s.dev.jobs ++ [x] ∧ x.hm = s.dev.adm.nextHm ∧ x.ring = j ∧ x.rseq = seq ∧ x.body = b ∧ x.st = .accepted ∧
        x.exec = s.dev.fld (F.JR_BIND_EXEC_POS j) ∧ x.out = none ∧ t.dev.adm.nextHm = s.dev.adm.nextHm + 1 ∧ t.dev.readyOf j = rest ∧
        t.dev.adm.tokens = s.dev.adm.tokens - 10 ^ 9 ∧ t.dev.num (R.JR_NEXTSEQ j) = (seq + 1) % 2 ^ 32 ∧
        t.dev.ldg = { s.dev.ldg with queue := s.dev.ldg.queue ++ [q] } ∧ q.prec = 3 ∧
        q.recs.map (fun r => (r.typ, r.hm, r.ring, r.w5)) = [(0x10, x.hm, j, seq)] ∧
        s.dev.regsBut t.dev [R.JR_NEXTSEQ j, R.JR_LASTHM_LO j, R.JR_LASTHM_HI j, R.JR_IK_NEXTHM_LO, R.JR_IK_NEXTHM_HI] ∧
        seq = s.dev.num (R.JR_NEXTSEQ j) ∧ s.dev.flag (F.JR_BIND_VALID j) = true ∧ s.dev.formatOk j b (d.execFacts s.store j b far).calendar = true ∧
        10 ^ 9 ≤ s.dev.adm.tokens ∧ s.dev.jobs.length < 65536 ∧ s.dev.adm.nextHm < 2 ^ 48) ∧
      (∀ a, d.examineAnswer s.store j b far = some a → ∃ t e, exec (.waybillExamine far) s = .next t ∧ t.dev.jobs = s.dev.jobs ∧
        t.dev.adm = adm ∧ t.dev.ldg = s.dev.ldg ∧ (t.dev.cq (s.dev.ringCq j)).wait = (s.dev.cq (s.dev.ringCq j)).wait ++ [e] ∧
        e.durable = false ∧ (a.typ = 3 → t.dev.fld (F.JR_REFLAST_REASON j) = a.reason.toNat) ∧
        s.dev.regsBut t.dev [(F.JR_REFLAST_REASON j).a, F.JR_IK_REFCNT_REFUSALS.a]) ∧
      (∀ e, ((mget [] s.dev.adm.win j).take (s.dev.winLen j)).find? (fun e => e.rseq == seq) = some e → seq ≠ s.dev.num (R.JR_NEXTSEQ j) →
        s.dev.flag (F.JR_BIND_VALID j) = true → s.dev.adm.nextHm < 2 ^ 48 →
        ∃ a, d.examineAnswer s.store j b far = some a ∧ a.typ = 2 ∧ a.reason = 0x0002 ∧ a.hm = e.hm))

/-- R331 to R333, R745: the next job of the ring whose turn it is goes to its executor under a free tag, at most two in a beat; the
executor holds it as DISPATCHED from this beat, and reports it; a hallmark that it holds is not taken again. -/
def Obligations.JobDispatchedToExecutor : Prop :=
  ∀ s : State,
    let held := fun r : Nat => (s.dev.jobs.filter (fun j => j.ring == r && (j.st == .dispatched || (j.st == .accepted && j.sent)))).length
    let rs := ((s.dev.jobs.map Job.ring).eraseDups).filter (fun r => match s.dev.nextJob r with
      | some j => s.dev.acceptSealed j && s.dev.takesJobs j.exec && !s.dev.fenced (domRing r) &&
          decide (held r < s.dev.fld (F.JR_ACFG_DWIN r)) && (j.exec == s.dev.pos || (s.dev.freeTag j.exec).isSome)
      | none => false)
    (s.dev.keeps = false ∨ 2 ≤ s.dev.adm.dispatched → exec .jobDispatch s = .next s) ∧
    (∀ r j g, s.dev.keeps = true → s.dev.boot.role = .manager → s.dev.adm.dispatched < 2 → s.dev.nextRing s.dev.adm.rrDisp rs = some r → s.dev.nextJob r = some j →
      j.exec ≠ s.dev.pos → s.dev.freeTag j.exec = some g → ∃ t ws, exec .jobDispatch s = .next t ∧
        t.dev.jobs = s.dev.jobs.map (fun k => if k.hm == j.hm then { k with sent := true } else k) ∧
        t.dev.wr = { s.dev.wr with tags := s.dev.wr.tags ++ [(g, j.exec, j.hm)],
                                   bulk := s.dev.wr.bulk ++ [{ dst := j.exec, kind := 1, words := ws, left := bulkBlocks ws.length }] } ∧
        ws.getD 0 0 = BitVec.ofNat 32 j.hm ∧ ws.drop 5 = j.body ∧ t.dev.adm.dispatched = s.dev.adm.dispatched + 1 ∧
        t = { s with dev := { s.dev with jobs := t.dev.jobs, wr := t.dev.wr, adm := t.dev.adm } }) ∧
    (∀ i : DispatchIn, s.dev.isMgr = false → s.dev.started = true → s.dev.job? i.hm.toNat = none →
      s.dev.fld (F.JR_BIND_TSRC i.ring.val) ≠ 3 → ∃ t k, exec (.dispatchMessage i) s = .next t ∧ t.dev.jobs = s.dev.jobs ++ [k] ∧
        k.hm = i.hm.toNat ∧ k.ring = i.ring.val ∧ k.dtag = i.tag.toNat ∧ k.tag = slice (i.body.getD 1 0) 31 16 ∧ k.body = i.body ∧ k.st = .dispatched ∧ k.dispBn = s.dev.now ∧
        k.exec = s.dev.pos ∧ k.acceptBn = i.acceptBn.toNat ∧
        t.dev.wr.items = s.dev.wr.items ++ [(false, 1 + i.tag.toNat * 2 ^ 4 + s.dev.now % 4096 * 2 ^ 16)] ∧
        s.dev.regsBut t.dev ((List.range 16).map R.SP_SBNEXT)) ∧
    (∀ i : DispatchIn, s.dev.isMgr = true ∨ (∃ j, s.dev.job? i.hm.toNat = some j ∧ j.st ≠ .accepted) →
      exec (.dispatchMessage i) s = .next s)

/-- R39, R42, R148, R334, R350: a capture is offered to the oldest waiting job that its ring has here, which takes its stamp, and is
then spent; captures of earlier beats are dropped where the device may bind none. -/
def Obligations.CaptureBindsOldestWaitingJob : Prop :=
  ∀ s : State,
    let kept := s.dev.trg.caps.filter (fun c => !decide (c.bn < s.dev.now))
    (s.dev.mayBind = false → (∀ k ∈ s.dev.jobs, k.tallyWait = false) →
      exec .bindCapture s = .next { s with dev := { s.dev with trg := { s.dev.trg with caps := kept } } }) ∧
    (∀ (c : Capture) (r : Nat) (j : Job), s.dev.mayBind = true → s.dev.trg.caps = [c] → c.bn < s.dev.now → c.rings = [r] →
      s.dev.ringHeld r = false → s.dev.trg.bound < 16 → (s.dev.jobs.map Job.hm).Nodup →
      (∀ k ∈ s.dev.jobs, k.tallyWait = false ∧ (k.waiting = true → s.dev.fld (F.JR_BIND_TSRC k.ring) ≠ 3)) →
      oldestJob (s.dev.jobs.filter (fun k => k.ring == r && k.exec == s.dev.pos && k.waiting && decide (k.dispBn ≤ c.bn) &&
        (k.wait_ == 0 || decide (c.bn < k.acceptBn + k.wait_)))) = some j →
      ∃ t k, exec .bindCapture s = .next t ∧ t.dev.trg.caps = [] ∧ t.dev.job? j.hm = some k ∧ k.stamp = c.stamp ∧
        (k.st = .bound ∨ k.out ≠ none) ∧ t.dev.jobs.map Job.hm = s.dev.jobs.map Job.hm)

/-- R334, R343, R344: a waiting job whose WAIT has run out ends EXPIRED with EXP_NO_TRIGGER; a host cancel ends the job of its sequence,
or that and every later one, that is accepted and not yet sent, with EXP_HOST_CANCEL, and answers REF_STATE where no job has the
sequence; an executor ends the waiting jobs of the tags. -/
def Obligations.WaitingJobsExpireOrCancel : Prop :=
  ∀ s : State, (s.dev.jobs.map Job.hm).Nodup →
    let ended := fun (t : State) (j : Job) (r : Reason) =>
      ∃ k ∈ t.dev.jobs, k.hm = j.hm ∧ k.st = .expired ∧ k.out = some { typ := 6, reason := r, bn := s.dev.now }
    (∀ (ring : Fin 512) (j : Job),
      oldestJob (s.dev.jobs.filter (fun j => j.ring == ring.val && (j.st == .accepted || j.st == .dispatched))) = some j → j.out = none →
      (j.wait_ ≠ 0 → j.acceptBn + j.wait_ ≤ s.dev.now → s.dev.trg.caps = [] →
        (j.st = .dispatched ∧ j.exec = s.dev.pos) ∨ (j.st = .accepted ∧ j.sent = false) →
        ∃ t, exec (.waitExpire ring) s = .next t ∧ ended t j 0x2003 ∧ ∀ k ∈ s.dev.jobs, k.hm ≠ j.hm → k ∈ t.dev.jobs) ∧
      (j.wait_ = 0 ∨ s.dev.now < j.acceptBn + j.wait_ → exec (.waitExpire ring) s = .next s)) ∧
    (∀ (p : Port) (ring : Fin 512), s.dev.gate p R.JR_CANCEL_CMD = .pass → s.dev.isMgr = true → s.dev.flag F.JR_CANCEL_STAT_BUSY = false →
      let named := s.dev.jobs.find? (fun j => j.ring == ring.val && j.rseq == s.dev.num R.JR_CANCEL_SEQ)
      (named = none → ∃ t, exec (.hostCancelOne p ring) s = .next t ∧ exec (.hostCancelRest p ring) s = .next t ∧
        t.dev.fld F.JR_CANCEL_STAT_RESULT = 0x1005 ∧ t.dev.jobs = s.dev.jobs ∧ s.dev.regsBut t.dev [R.JR_CANCEL_STAT, R.JR_CANCEL_CNT]) ∧
      (∀ f, named = some f → f.st = .accepted → f.sent = false → f.out = none → ∃ t, exec (.hostCancelOne p ring) s = .next t ∧
        ended t f 0x2006 ∧ t.dev.fld F.JR_CANCEL_CNT_JOBS = 1 ∧ t.dev.fld F.JR_CANCEL_STAT_RESULT = 0 ∧
        t.dev.flag F.JR_CANCEL_STAT_BUSY = false ∧ ∀ k ∈ s.dev.jobs, k.hm ≠ f.hm → k ∈ t.dev.jobs) ∧
      (∀ f, named = some f → ∃ t, exec (.hostCancelRest p ring) s = .next t ∧
        (∀ j ∈ s.dev.jobs, j.ring = ring.val → f.hm ≤ j.hm → j.st = .accepted → j.sent = false → j.out = none → ended t j 0x2006) ∧
        ∀ k ∈ s.dev.jobs, k.ring ≠ ring.val ∨ k.hm < f.hm ∨ k.active = true → k ∈ t.dev.jobs)) ∧
    (∀ tags : List (BitVec 12), s.dev.isMgr = false → ∃ t, exec (.cancelMessage tags) s = .next t ∧
      (∀ j ∈ s.dev.jobs, j.st = .dispatched → j.exec = s.dev.pos → j.out = none → (∃ g ∈ tags, g.toNat = j.dtag) → ended t j 0x2006) ∧
      ∀ j ∈ s.dev.jobs, j.st ≠ .dispatched ∨ j.exec ≠ s.dev.pos ∨ (∀ g ∈ tags, g.toNat ≠ j.dtag) → j ∈ t.dev.jobs) ∧
    (∀ tags, s.dev.isMgr = true → exec (.cancelMessage tags) s = .next s)

/-- R321: JR_NEXTSEQ takes a write only while its ring is disabled and holds no job; the write clears the ring's ALREADY window and
makes a NEXTSEQ record due. -/
def Obligations.ExpectedSequenceWrite : Prop :=
  ∀ (s : State) (p : Port) (j : Fin 512) (w : Word), s.dev.gate p (R.JR_NEXTSEQ j.val) = .pass →
    (s.dev.flag (F.JR_SQCFG_EN j.val) = false → (∀ x ∈ s.dev.jobs, x.ring ≠ j.val) → ∃ t q, exec (.jrNextseqWrite p j w) s = .next t ∧
      t.dev.reg (R.JR_NEXTSEQ j.val) = w ∧ mget [] t.dev.adm.win j.val = [] ∧ (∀ i, i ≠ j.val → mget [] t.dev.adm.win i = mget [] s.dev.adm.win i) ∧
      t.dev.ldg = { s.dev.ldg with queue := s.dev.ldg.queue ++ [q] } ∧ q.recs.map (fun r => (r.typ, r.ring, r.w5)) = [(0x32, j.val, w.toNat)] ∧
      s.dev.regsBut t.dev [R.JR_NEXTSEQ j.val] ∧
      t = { s with dev := { s.dev with regs := t.dev.regs, ldg := t.dev.ldg, adm := { s.dev.adm with win := t.dev.adm.win } } }) ∧
    (s.dev.flag (F.JR_SQCFG_EN j.val) = true ∨ (∃ x ∈ s.dev.jobs, x.ring = j.val) → exec (.jrNextseqWrite p j w) s = .next s)

/-! ## Triggers and encoders (09_triggers_and_encoders.md) -/

/-- R430 to R434, R470, Table TRG-1, R173: a raw transition is stamped; a qualified active edge is counted and, unless disarmed,
captured with the TDC's stamp, while an edge of a disarmed input only counts as held, and one on the holdover oscillator is only
counted (R220); the input rearms once it has been inactive long enough; a mains phase point fires in its predicted beat, and is
captured with its cycle. -/
def Obligations.TriggerInputsCapture : Prop :=
  ∀ s : State,
    let ciOnly := fun (ci : Nat) => (Host.Outcome.next { s with dev := { s.dev with t := { s.dev.t with ci := ci } } } : Host.Outcome State Fault Refusal)
    (∀ (n : Fin 16) (l : Bool) (ci : Fin 240) (fs : Fin 2048),
      (s.dev.trgOn n.val = true → (s.dev.trgIn n.val).raw ≠ l → ∃ t, exec (.triggerTransition n l ci fs) s = .next t ∧
        t.dev.trgIn n.val = { s.dev.trgIn n.val with raw := l, rawAt := (s.dev.now * 240 + ci.val) * 2048 + fs.val } ∧
        (∀ k, k ≠ n.val → t.dev.trgIn k = s.dev.trgIn k) ∧ t.dev.regs = s.dev.regs ∧ t.dev.trg.caps = s.dev.trg.caps) ∧
      (s.dev.trgOn n.val = false ∨ (s.dev.trgIn n.val).raw = l → exec (.triggerTransition n l ci fs) s = ciOnly ci.val)) ∧
    (∀ (n : Fin 16) (ci : Fin 240),
      let v := s.dev.trgIn n.val
      let q := v.rawAt / 2048 + s.dev.fld (F.TRG_CFG_GLITCH n.val)
      s.dev.trgOn n.val = true → v.raw ≠ v.level → q ≤ s.dev.now * 240 + ci.val →
      (s.dev.trgActive n.val v.raw = true → s.dev.clk.holdover = true → ∃ t, exec (.triggerQualify n ci) s = .next t ∧
        t.dev.trg.caps = s.dev.trg.caps ∧ t.dev.trg.remote = s.dev.trg.remote ∧ s.dev.regsBut t.dev [R.TRG_CNT n.val] ∧
        t.dev.fld (F.TRG_CNT_ACTIVE n.val) = (s.dev.fld (F.TRG_CNT_ACTIVE n.val) + 1) % 2 ^ 32) ∧
      (s.dev.trgActive n.val v.raw = true → s.dev.clk.holdover = false → v.disarmed = false → s.dev.fld (F.TRG_CFG_HMODE n.val) = 0 →
        v.capBn ≠ some s.dev.now →
        ∃ t, exec (.triggerQualify n ci) s = .next t ∧ t.dev.reg (R.TRG_CAP0 n.val) = tsw0 v.rawAt ∧ t.dev.reg (R.TRG_CAP1 n.val) = tsw1 v.rawAt ∧
          t.dev.reg (R.TRG_CAP2 n.val) = tsw2 v.rawAt ∧ (t.dev.trgIn n.val).disarmed = true ∧ (t.dev.trgIn n.val).level = v.raw ∧
          (t.dev.trgIn n.val).capBn = some s.dev.now ∧ t.dev.fld (F.TRG_CNT_ACTIVE n.val) = (s.dev.fld (F.TRG_CNT_ACTIVE n.val) + 1) % 2 ^ 32 ∧
          t.dev.jobs = s.dev.jobs) ∧
      (s.dev.trgActive n.val v.raw = true → v.disarmed = true → q < v.inactAt + s.dev.fld (F.TRG_DEB_DEBOUNCE n.val) →
        ∃ t, exec (.triggerQualify n ci) s = .next t ∧ t.dev.trg.caps = s.dev.trg.caps ∧ t.dev.trg.remote = s.dev.trg.remote ∧
          s.dev.regsBut t.dev [R.TRG_CNT n.val, R.TRG_HELD n.val] ∧
          t.dev.fld (F.TRG_CNT_ACTIVE n.val) = (s.dev.fld (F.TRG_CNT_ACTIVE n.val) + 1) % 2 ^ 32) ∧
      (s.dev.trgActive n.val v.raw = false → ∃ t, exec (.triggerQualify n ci) s = .next t ∧
        t.dev.trgIn n.val = { v with level := v.raw, inactAt := q } ∧ t.dev.regs = s.dev.regs ∧ t.dev.trg.caps = s.dev.trg.caps)) ∧
    (∀ (n : Fin 16) (ci : Fin 240),
      let v := s.dev.trgIn n.val
      (v.disarmed = true → s.dev.trgActive n.val v.level = false →
        v.inactAt + s.dev.fld (F.TRG_DEB_DEBOUNCE n.val) ≤ s.dev.now * 240 + ci.val → ∃ t, exec (.triggerRearm n ci) s = .next t ∧
          t.dev.trgIn n.val = { v with disarmed := false } ∧ t.dev.regs = s.dev.regs) ∧
      (v.disarmed = false → exec (.triggerRearm n ci) s = ciOnly ci.val)) ∧
    (∀ (n : Fin 4) (ci : Fin 240),
      let rs := (List.range 512).filter (fun j => s.dev.flag (F.JR_BIND_VALID j) && s.dev.fld (F.JR_BIND_TSRC j) == 2 &&
        s.dev.fld (F.JR_BIND_TIDX j) == n.val && s.dev.fld (F.JR_BIND_TRIG_POS j) == s.dev.pos && s.dev.fld (F.JR_BIND_EXEC_POS j) == s.dev.pos)
      (s.dev.t.running = true → s.dev.flag (F.SUP_MPH_EN n.val) = true → s.dev.fld F.SUP_RCODE_MNOM ≠ 0 → s.dev.pwr.trackLost = false →
        s.dev.phaseBeat n.val = some s.dev.now → s.dev.po.ilkLow = false → s.dev.po.acting = false → s.dev.clk.holdover = false →
        s.dev.started = true → s.dev.mayBind = true → rs ≠ [] →
        ∃ t, exec (.mainsPhasePoint n ci) s = .next t ∧ t.dev.trg.caps = s.dev.trg.caps ++
          [{ tsrc := 2, tidx := n.val, stamp := (s.dev.now * 240 + ci.val) * 2048, bn := s.dev.now, pos := s.dev.pos, rings := rs }] ∧
          t.dev.regs = s.dev.regs) ∧
      (s.dev.flag (F.SUP_MPH_EN n.val) = false ∨ s.dev.fld F.SUP_RCODE_MNOM = 0 ∨ s.dev.pwr.trackLost = true ∨
        s.dev.phaseBeat n.val ≠ some s.dev.now →
        exec (.mainsPhasePoint n ci) s = .next s))

/-- R446 to R452, R457, Table TRG-4: an enabled encoder counts as its mode and direction say, modulo 2^40; both channels at once are a
phase error and count nothing; more than 12 transitions in a beat fence it; Z latches or offsets the position; without transitions
it stops. -/
def Obligations.EncodersCount : Prop :=
  ∀ (s : State) (n : Fin 8),
    let e := s.dev.enc n.val
    let mode := s.dev.fld (F.ENC_CFG_MODE n.val)
    let others := fun (t : State) => ∀ k, k ≠ n.val → t.dev.enc k = s.dev.enc k
    (∀ (a b : Bool) (ci : Fin 240),
      let k := (if a != e.a then 1 else 0) + (if b != e.b then 1 else 0)
      let st := if s.dev.flag (F.ENC_CFG_DIR n.val) then -(encStep mode e.a e.b a b) else encStep mode e.a e.b a b
      (s.dev.flag (F.ENC_CFG_EN n.val) = false ∨ s.dev.pwr.vcore = false → exec (.encoderTransition n a b ci) s =
        .next { s with dev := { s.dev with t := { s.dev.t with ci := ci.val } } }) ∧
      (s.dev.flag (F.ENC_CFG_EN n.val) = true → s.dev.pwr.vcore = true → ∃ t, exec (.encoderTransition n a b ci) s = .next t ∧
        (t.dev.enc n.val).a = a ∧ (t.dev.enc n.val).b = b ∧ (t.dev.enc n.val).inBeat = e.inBeat + k ∧ others t ∧
        (k ≤ 1 ∨ mode = 3 → st ≠ 0 → (t.dev.enc n.val).pos = wrapS 40 (e.pos + st)) ∧
        (k = 2 → mode ≠ 3 → (t.dev.enc n.val).pos = e.pos ∧ (t.dev.enc n.val).perrWin = e.perrWin + 1) ∧
        (e.inBeat ≤ 12 → 12 < e.inBeat + k → (0x5040 : Reason) ∈ (t.dev.dom (domEnc n.val)).causes))) ∧
    (s.dev.flag (F.ENC_CFG_EN n.val) = true → s.dev.pwr.vcore = true → ∃ t, exec (.encoderIndex n) s = .next t ∧
      (t.dev.enc n.val).zPrev = some e.pos ∧ (t.dev.enc n.val).pos = e.pos ∧ others t ∧
      (s.dev.fld (F.ENC_CFG_ZMODE n.val) = 1 ∨ s.dev.fld (F.ENC_CFG_ZMODE n.val) = 2 → t.dev.num (R.ENC_ZLATCH n.val) = unsigned 32 e.pos) ∧
      (t.dev.enc n.val).offset = (if s.dev.fld (F.ENC_CFG_ZMODE n.val) = 2 then e.pos else e.offset)) ∧
    (s.dev.flag (F.ENC_CFG_EN n.val) = false → exec (.encoderIndex n) s = .next s ∧ exec (.encoderStop n) s = .next s) ∧
    (s.dev.flag (F.ENC_CFG_EN n.val) = true → e.lastBn + s.dev.fld (F.ENC_SPWIN_STOPTMO n.val) ≤ s.dev.now →
      ∃ t, exec (.encoderStop n) s = .next t ∧ t.dev.enc n.val = { e with spN := 0, spD := 1 } ∧
        t.dev.flag (F.ENC_STAT_STOPPED n.val) = true ∧ others t ∧ s.dev.regsBut t.dev [R.ENC_STAT n.val])

/-- R462 to R464, R488: the origin of a distance job stays a prediction until it comes within the lead, and is then fixed; one that its
target has overtaken beyond the job's limit ends it EXPIRED; the reach instants of its edges are fixed one beat ahead. -/
def Obligations.OriginsAndReachesResolve : Prop :=
  ∀ (s : State) (hm : BitVec 48) (j : Job), s.dev.job? hm.toNat = some j → j.active = true → j.exec = s.dev.pos →
    let n := s.dev.fld (F.JR_BIND_ENC j.ring)
    (j.dkind = true → j.resolved = false → j.closing = none →
      let pred := (s.dev.predict n j.target).map (· + j.delay * fsPerBeat)
      let soon := s.dev.now + s.dev.jobLead j
      let js := s.dev.jobs.map (fun k => if k.hm == j.hm then { k with pred := pred } else k)
      (pred = none ∨ (∃ x, pred = some x ∧ soon < beatOf x) →
        exec (.originResolve hm) s = .next { s with dev := { s.dev with jobs := js } }) ∧
      (∀ x, pred = some x → beatOf x = soon → ∃ t k, exec (.originResolve hm) s = .next t ∧ t.dev.job? hm.toNat = some k ∧
        k.resolved = true ∧ k.stamp = j.stamp) ∧
      (∀ x, pred = some x → beatOf x < soon → j.limit < j.delay + (soon - beatOf x) → j.out = none → ∃ t k,
        exec (.originResolve hm) s = .next t ∧ t.dev.job? hm.toNat = some k ∧ k.st = .expired ∧
        k.out = some { typ := 6, reason := 0x200A, bn := s.dev.now })) ∧
    (j.dkind = false ∨ j.resolved = true → exec (.originResolve hm) s = .next s) ∧
    (s.dev.flag (F.JR_BIND_ENC_EN j.ring) = false → exec (.reachResolve hm) s = .next s) ∧
    (∀ p, s.dev.flag (F.JR_BIND_ENC_EN j.ring) = true → j.opos = some p → ∃ t k, exec (.reachResolve hm) s = .next t ∧
      t.dev.job? hm.toNat = some k ∧ k.st = j.st ∧ k.origin = j.origin ∧ (∀ x ∈ j.reach, x ∈ k.reach) ∧
      (∀ x ∈ k.reach, x ∈ j.reach ∨ (s.dev.reachInst n (wrapS 56 (p + x.1)) = some x.2 ∧ beatOf x.2 ≤ s.dev.now + 1)) ∧
      t = { s with dev := { s.dev with jobs := t.dev.jobs } })

/-! ## Outputs, markers and the interlock (10_precision_outputs.md, 11_segment_players.md) -/

/-- R501, R502, R504, R507, R541: the earliest loaded edge of an output is placed once its beat has come, and takes or releases the
output for its lane; under the interlock or with the output held safe it is dropped unplaced. An output active for PO_MAXACT beats
goes inactive and the jobs that hold it end PARTIAL. The earliest waiting action of a marker drives it. -/
def Obligations.OutputsAndMarkersAct : Prop :=
  ∀ s : State,
    (∀ (n : Fin 32) (l : Loaded), l ∈ s.dev.po.queue → l.out = n.val →
      (∀ x ∈ s.dev.po.queue, x.out = n.val → x = l ∨ l.inst < x.inst) →
      let safe := s.dev.po.ilkLow || s.dev.po.acting || (s.dev.outSt n.val).safe
      (s.dev.now < beatOf l.inst → exec (.poEdgeInstant n) s = .next s) ∧
      (beatOf l.inst ≤ s.dev.now → safe = true → ∃ t, exec (.poEdgeInstant n) s = .next t ∧
        t.dev.po = { s.dev.po with queue := s.dev.po.queue.filter (fun x => x != l) } ∧
        t = { s with dev := { s.dev with po := t.dev.po, jobs := t.dev.jobs } } ∧
        ∀ j, s.dev.job? l.hm = some j → ∃ k, t.dev.job? l.hm = some k ∧ k = { j with edgesOpen := j.edgesOpen - 1 }) ∧
      (beatOf l.inst ≤ s.dev.now → safe = false → (∀ j, s.dev.job? l.hm = some j → j.flaw = none) →
        ∃ t, exec (.poEdgeInstant n) s = .next t ∧ t.dev.po.queue = s.dev.po.queue.filter (fun x => x != l) ∧
          ((l.hm, l.lane) ∈ (t.dev.outSt n.val).holders ↔ l.lvl = true) ∧
          (∀ h, h ≠ (l.hm, l.lane) → (h ∈ (t.dev.outSt n.val).holders ↔ h ∈ (s.dev.outSt n.val).holders)) ∧
          (∀ k, k ≠ n.val → t.dev.outSt k = s.dev.outSt k) ∧ s.dev.regsBut t.dev [R.PO_EDGECNT n.val] ∧
          (∀ j, s.dev.job? l.hm = some j → ∃ k, t.dev.job? l.hm = some k ∧ k.edges = j.edges + 1 ∧ k.edgesOpen = j.edgesOpen - 1 ∧
            k.lastBn = max j.lastBn (beatOf l.inst) ∧ k.st = (if j.st = .bound then .striking else j.st) ∧ k.out = j.out) ∧
          (∀ k ∈ s.dev.jobs, k.hm ≠ l.hm → k ∈ t.dev.jobs) ∧
          t = { s with dev := { s.dev with regs := t.dev.regs, out := t.dev.out, po := t.dev.po, jobs := t.dev.jobs } })) ∧
    (∀ n : Fin 32, (∀ x ∈ s.dev.po.queue, x.out ≠ n.val) → exec (.poEdgeInstant n) s = .next s) ∧
    (∀ (n : Fin 32) (b : Nat), (s.dev.outSt n.val).since = some b →
      let lim := s.dev.fld (F.PO_MAXACT_MAXIMUM n.val)
      (lim = 0 ∨ s.dev.now < b + lim → exec (.maxactLimit n) s = .next s) ∧
      (lim ≠ 0 → b + lim ≤ s.dev.now → s.dev.outActive n.val = true → (s.dev.jobs.map Job.hm).Nodup →
        ∃ t, exec (.maxactLimit n) s = .next t ∧ t.dev.outActive n.val = false ∧ t.dev.flag (F.PO_STAT_MAXACT n.val) = true ∧
          (∀ h ∈ (s.dev.outSt n.val).holders, ∀ j ∈ s.dev.jobs, j.hm = h.1 → j.out = none → ∃ k ∈ t.dev.jobs, k.hm = j.hm ∧
            k.st = .partial_ ∧ k.out = some { typ := 5, reason := 0x300A, bn := j.lastBn, d0 := j.partDetail }) ∧
          (∀ j ∈ s.dev.jobs, (∀ h ∈ (s.dev.outSt n.val).holders, h.1 ≠ j.hm) → j ∈ t.dev.jobs))) ∧
    (∀ n : Fin 32, (s.dev.outSt n.val).since = none → exec (.maxactLimit n) s = .next s) ∧
    (∀ (n : Fin 16) (a : MkAct), a ∈ s.dev.sp.acts → a.marker = n.val →
      (∀ x ∈ s.dev.sp.acts, x.marker = n.val → x = a ∨ a.inst < x.inst) →
      let left := s.dev.sp.acts.erase a
      (s.dev.now < beatOf a.inst → exec (.markerAction n) s = .next s) ∧
      (beatOf a.inst ≤ s.dev.now → s.dev.po.ilkLow = true ∨ s.dev.po.acting = true →
        exec (.markerAction n) s = .next { s with dev := { s.dev with sp := { s.dev.sp with acts := left } } }) ∧
      (beatOf a.inst ≤ s.dev.now → s.dev.po.ilkLow = false → s.dev.po.acting = false → ∃ t, exec (.markerAction n) s = .next t ∧
        ((∃ m ∈ t.dev.sp.marks, m.1 = n.val) ↔ a.set = true) ∧ (∀ m, m.1 ≠ n.val → (m ∈ t.dev.sp.marks ↔ m ∈ s.dev.sp.marks)) ∧
        t = { s with dev := { s.dev with out := t.dev.out, sp := { s.dev.sp with acts := left, marks := t.dev.sp.marks } } })) ∧
    (∀ n : Fin 16, (∀ x ∈ s.dev.sp.acts, x.marker ≠ n.val) → exec (.markerAction n) s = .next s)

/-- R504 to R506, R513: ILK_L low makes every output inactive at once and makes an interlock beat due; at it every bound or striking job
of this device ends, EXPIRED or, with anything placed, PARTIAL; the interlock ends once ILK_L has been high for PO_ILKREL beats, and
is releasing until then. -/
def Obligations.InterlockStopsOutputs : Prop :=
  ∀ s : State,
    (∃ t, exec .ilkAssert s = .next t ∧ t.dev.po.ilkLow = true ∧ t.dev.po.acting = true ∧
      t.dev.po.beatDue = (s.dev.po.beatDue || !s.dev.po.acting) ∧ t.dev.flag F.PO_ILKSTAT_ILK_L = true ∧
      t.dev.flag F.PO_ILKSTAT_ACTING = true ∧ t.dev.flag F.PO_ILKSTAT_RELEASING = false ∧ (∀ n, t.dev.outActive n = false) ∧
      t.dev.jobs.map (fun j => (j.hm, j.st, j.out)) = s.dev.jobs.map (fun j => (j.hm, j.st, j.out))) ∧
    (s.dev.po.beatDue = false → exec .interlockBeat s = .next s) ∧
    (s.dev.po.beatDue = true → (s.dev.jobs.map Job.hm).Nodup → ∃ t, exec .interlockBeat s = .next t ∧ t.dev.po.beatDue = false ∧
      t.dev.fld F.PO_ILKCNT_INTERLOCK = satAdd 16 (s.dev.fld F.PO_ILKCNT_INTERLOCK) 1 ∧
      (∀ j ∈ s.dev.jobs, j.active = true → j.exec = s.dev.pos → j.out = none → ∃ k ∈ t.dev.jobs, k.hm = j.hm ∧ k.out =
        some (if j.placed || j.colsPlayed != 0 then { typ := 5, reason := 0x3008, bn := j.lastBn, d0 := j.partDetail }
          else { typ := 6, reason := 0x2007, bn := s.dev.now })) ∧
      (∀ j ∈ s.dev.jobs, j.active = false ∨ j.exec ≠ s.dev.pos → j ∈ t.dev.jobs)) ∧
    (∀ b, s.dev.po.acting = false → exec (.ilkRelease b) s = .next s) ∧
    (∀ b, s.dev.po.acting = true → s.dev.fld F.PO_ILKREL_RELEASE ≤ b → ∃ t, exec (.ilkRelease b) s = .next t ∧
      t.dev.po = { s.dev.po with ilkLow := false, acting := false } ∧ t.dev.flag F.PO_ILKSTAT_ILK_L = false ∧
      t.dev.flag F.PO_ILKSTAT_ACTING = false ∧ t.dev.flag F.PO_ILKSTAT_RELEASING = false ∧
      s.dev.regsBut t.dev (R.PO_ILKSTAT :: (List.range 32).map R.PO_EDGECNT) ∧
      t.dev.pwr = { s.dev.pwr with bindBn := s.dev.now } ∧
      t = { s with dev := { s.dev with regs := t.dev.regs, po := t.dev.po, clk := t.dev.clk, out := t.dev.out, pwr := t.dev.pwr } }) ∧
    (∀ b, s.dev.po.acting = true → b < s.dev.fld F.PO_ILKREL_RELEASE → ∃ t, exec (.ilkRelease b) s = .next t ∧
      t.dev.po = { s.dev.po with ilkLow := false } ∧ t.dev.flag F.PO_ILKSTAT_ILK_L = false ∧
      t.dev.flag F.PO_ILKSTAT_RELEASING = true ∧ s.dev.regsBut t.dev [R.PO_ILKSTAT] ∧
      t = { s with dev := { s.dev with regs := t.dev.regs, po := t.dev.po, clk := { s.dev.clk with syncAt := t.dev.clk.syncAt } } })

/-- R518, R521 to R525: a store write inside the 16 MiB is made whole, or discarded whole and counted where it touches a protected
range; one that leaves the store faults, and a port that may not write changes nothing. LOAD data arrives under the same protection,
and that of a stream in its player's buffer (log entry 155); a load is taken or refused with REF_STATE, and ends. R528, R538, R558: a step condition not met in WAITMAX beats goes on or fails
its job as WAITACT says, and is counted; a write of SP_SBWR within the depth waits for the Edge phase, and any other sets WR_ERR. -/
def Obligations.PlayersStoreAndLoads : Prop :=
  (∀ s : State,
     let made := fun (t : State) (a : Nat) (bs : List Byte) => (∀ i (h : i < bs.length), storeByte t.store (a + i) = bs[i]) ∧
       ∀ k, k < a ∨ a + bs.length ≤ k → storeByte t.store k = storeByte s.store k
     let discarded := fun (t : State) => t.store = s.store ∧ s.dev.regsBut t.dev [R.SP_WPROT] ∧
       t.dev.fld F.SP_WPROT_DISCARDED = satAdd 16 (s.dev.fld F.SP_WPROT_DISCARDED) 1
     (∀ (p : Port) (off : BitVec 24) (bs : List Byte),
       let e := off.toNat + bs.length
       (2 ^ 24 < e → exec (.storeWrite p off bs) s = .fault .outsideStore) ∧
       (e ≤ 2 ^ 24 → s.dev.storeGate p = false → exec (.storeWrite p off bs) s = .next s) ∧
       (e ≤ 2 ^ 24 → s.dev.storeGate p = true → s.dev.protects s.store off.toNat bs.length = true →
         ∃ t, exec (.storeWrite p off bs) s = .next t ∧ discarded t ∧ t = { s with dev := { s.dev with regs := t.dev.regs } }) ∧
       (e ≤ 2 ^ 24 → s.dev.storeGate p = true → s.dev.protects s.store off.toNat bs.length = false →
         ∃ t, exec (.storeWrite p off bs) s = .next t ∧ made t off.toNat bs ∧ t = { s with store := t.store })) ∧
     (∀ (low : BitVec 6) (addr : BitVec 24) (ws : List Word) (crc : Byte), s.dev.spiLive = true →
       s.dev.spiCheck 2 low addr.toNat (spiData low ws) crc = none → spiStore low = true →
       s.dev.protects s.store addr.toNat (4 * (spiData low ws).length) = true → ∃ t, exec (.spiWrite low addr ws crc) s = .next t ∧
         t.store = s.store ∧ s.dev.regsBut t.dev [R.SP_WPROT, R.HST_SPI_WCNT] ∧
         t.dev.fld F.SP_WPROT_DISCARDED = satAdd 16 (s.dev.fld F.SP_WPROT_DISCARDED) 1) ∧
     (∀ m : LoadIn,
       let a := s.dev.loadAt s.store m
       let e := a + m.bytes.length
       (m.stream = false → a = m.dst.toNat) ∧ (s.dev.pwr.vcore = false → exec (.loadMessage m) s = .next s) ∧
       (s.dev.pwr.vcore = true → m.stream = false → 2 ^ 24 < e → exec (.loadMessage m) s = .fault .outsideStore) ∧
       (s.dev.pwr.vcore = true → e ≤ 2 ^ 24 → m.stream = false → s.dev.protects s.store a m.bytes.length = true →
         ∃ t, exec (.loadMessage m) s = .next t ∧ discarded t ∧
           t = { s with dev := { s.dev with regs := t.dev.regs, wr := { s.dev.wr with freed := t.dev.wr.freed } } }) ∧
       (s.dev.pwr.vcore = true → m.stream = true ∨ (e ≤ 2 ^ 24 ∧ s.dev.protects s.store a m.bytes.length = false) →
         ∃ t, exec (.loadMessage m) s = .next t ∧ made t a (m.bytes.take (2 ^ 24 - a)) ∧ (m.stream = false → t.dev.sp = s.dev.sp) ∧
           t = { s with store := t.store, dev := { s.dev with sp := t.dev.sp, wr := { s.dev.wr with freed := t.dev.wr.freed } } })) ∧
     (∀ (p : Port) (w : Word) (far : Bool), s.dev.gate p R.SP_LDCMD = .pass → bitOf w 31 = true → bitOf w 8 = false →
       let src := s.dev.fld F.SP_LDSRC_SOURCE
       let dst := s.dev.fld F.SP_LDDST_DESTINATION
       let len := s.dev.fld F.SP_LDLEN_BYTES
       let ok := len ≠ 0 ∧ len % 32 = 0 ∧ src + len ≤ 2 ^ 24 ∧ dst + len ≤ 2 ^ 24 ∧ far = false ∧ s.dev.sp.load = none ∧
         (if slice w 4 0 = s.dev.pos then s.dev.protects s.store dst len = false else s.dev.wr.decl.any (fun x => x.1 == slice w 4 0) = true)
       (ok → ∃ t, exec (.loadStart p w far) s = .next t ∧ t.dev.flag F.SP_LDSTAT_BUSY = true ∧
         t.dev.sp = { s.dev.sp with load := some { src := src, dst := dst, len := len, pos := slice w 4 0, stream := false,
                                                   player := slice w 19 16 } } ∧
         (slice w 4 0 = s.dev.pos → made t dst ((List.range len).map (fun i => storeByte s.store (src + i)))) ∧
         (slice w 4 0 ≠ s.dev.pos → s.dev.boot.role = .manager → t.store = s.store ∧
           let ws := [BitVec.ofNat 32 dst, BitVec.ofNat 32 len] ++ (List.range (len / 4)).map (fun i => storeWord s.store (src + 4 * i))
           t.dev.wr = { s.dev.wr with bulk := s.dev.wr.bulk ++
             [{ dst := slice w 4 0, kind := 7, words := ws, left := bulkBlocks ws.length }] }) ∧
         s.dev.regsBut t.dev [R.SP_LDSTAT]) ∧
       (¬ok → ∃ t, exec (.loadStart p w far) s = .next t ∧ t.dev.fld F.SP_LDSTAT_RESULT = 0x1005 ∧
         s.dev.regsBut t.dev [R.SP_LDSTAT] ∧ t = { s with dev := { s.dev with regs := t.dev.regs } })) ∧
     (∀ lost, s.dev.sp.load ≠ none → ∃ t, exec (.loadComplete lost) s = .next t ∧ t.dev.flag F.SP_LDSTAT_BUSY = false ∧
       t.dev.fld F.SP_LDSTAT_RESULT = (if lost then 0x1002 else 0) ∧ s.dev.regsBut t.dev [R.SP_LDSTAT] ∧
       t = { s with dev := { s.dev with regs := t.dev.regs, sp := { s.dev.sp with load := none } } }) ∧
     (∀ lost, s.dev.sp.load = none → exec (.loadComplete lost) s = .next s)) ∧
  (∀ (s : State) (n : Fin 16),
     (∀ (j : Job) (p : PlayRun) (wf : Nat), s.dev.jobs = [j] → j.active = true → j.plays = [p] → p.sp = n.val → p.done = false →
       p.waitFrom = some wf → p.metAt = none →
       let st := stepAt s.store p.stBase p.step
       1 ≤ st.adv → st.adv ≤ 3 →
       (s.dev.now < wf + st.waitMax → exec (.stepWaitTimeout n) s = .next s) ∧
       (wf + st.waitMax ≤ s.dev.now → ∃ t k, exec (.stepWaitTimeout n) s = .next t ∧ t.dev.jobs = [k] ∧
         t.dev.fld (F.SP_UNDCNT_STEP n.val) = satAdd 16 (s.dev.fld (F.SP_UNDCNT_STEP n.val)) 1 ∧
         (st.waitAct = true → k = { j with plays := [{ p with metAt := some s.dev.now }] } ∧ s.dev.regsBut t.dev [R.SP_UNDCNT n.val]) ∧
         (st.waitAct = false → k.hm = j.hm ∧ k.plays = [{ p with done := true }] ∧ k.flaw = some (j.flaw.getD 0x300B)))) ∧
     ((∀ j ∈ s.dev.jobs, j.active = false) → exec (.stepWaitTimeout n) s = .next s) ∧
     (∀ (port : Port) (w : Word), s.dev.gate port (R.SP_SBWR n.val) = .pass →
       let cur := (mget none s.dev.sp.sbwr n.val).getD (s.dev.num (R.SP_SBWR n.val))
       let ok := (w.toNat + 2 ^ 32 - cur) % 2 ^ 32 < 2 ^ 31 ∧
         (w.toNat + 2 ^ 32 - s.dev.num (R.SP_SBRD n.val)) % 2 ^ 32 ≤ s.dev.sbDepth n.val
       (ok → ∃ t, exec (.spSbwrWrite port n w) s = .next t ∧ mget none t.dev.sp.sbwr n.val = some w.toNat ∧
         (∀ k, k ≠ n.val → mget none t.dev.sp.sbwr k = mget none s.dev.sp.sbwr k) ∧
         t = { s with dev := { s.dev with sp := { s.dev.sp with sbwr := t.dev.sp.sbwr } } }) ∧
       (¬ok → ∃ t, exec (.spSbwrWrite port n w) s = .next t ∧ t.dev.flag (F.SP_STAT_WR_ERR n.val) = true ∧
         s.dev.regsBut t.dev [R.SP_STAT n.val] ∧ t = { s with dev := { s.dev with regs := t.dev.regs } })))

/-! ## Head ports (12_head_ports.md) -/

/-- R594 to R598, R606, R607, R622, Tables HPT-5 and HPT-7: a FRAMED port goes LOCK, ALIGN, DECLARE and UP, each only from the state
before; a declaration that does not meet its expectations, or a latency out of range, fences it; attempts that time out are counted
and end in FAULT; a lost link is fenced; RETRAIN and AUTOTRAIN start again from LOCK. -/
def Obligations.HeadLinksTrain : Prop :=
  ∀ (s : State) (p : Fin 16),
    let l := s.dev.lstate p.val
    let h := s.dev.hpSt p.val
    let framed := s.dev.hpFramed p.val
    let parked := (s.dev.dom p.val).causes.contains 0x5003
    let others := fun (t : State) => (∀ k, k ≠ p.val → t.dev.hpSt k = s.dev.hpSt k) ∧
      t.dev.jobs.map (fun j => (j.hm, j.st, j.out)) = s.dev.jobs.map (fun j => (j.hm, j.st, j.out))
    let moved := fun (t : State) (n : Nat) => t.dev.lstate p.val = n ∧ (t.dev.hpSt p.val).since = s.dev.now ∧ others t
    let fault := fun (t : State) (r : Reason) => moved t 7 ∧ r ∈ (t.dev.dom p.val).causes
    let again := fun (t : State) => moved t 1 ∧ t.dev.fld (F.HP_STAT_TRAINING p.val) = satAdd 8 (s.dev.fld (F.HP_STAT_TRAINING p.val)) 1 ∧
      (t.dev.hpSt p.val).lat = none ∧ (t.dev.hpSt p.val).cancel = (h.cancel || h.cmd.isSome)
    (framed = true → l = 1 → ∃ t, exec (.headLockPattern p) s = .next t ∧ moved t 2 ∧ bitOf (t.dev.reg R.HST_ISR0) 16 = true ∧
      s.dev.regsBut t.dev (R.HP_STAT p.val :: R.HP_EVT :: irqRegs) ∧
      t = { s with dev := { s.dev with regs := t.dev.regs, hp := t.dev.hp, out := t.dev.out } }) ∧
    (framed = false ∨ l ≠ 1 → exec (.headLockPattern p) s = .next s) ∧
    (framed = true → l = 2 → ∃ t, exec (.headAlignDone p) s = .next t ∧ moved t 3 ∧ bitOf (t.dev.reg R.HST_ISR0) 16 = true ∧
      s.dev.regsBut t.dev (R.HP_STAT p.val :: R.HP_EVT :: irqRegs) ∧
      t = { s with dev := { s.dev with regs := t.dev.regs, hp := t.dev.hp, out := t.dev.out } }) ∧
    (framed = false ∨ l ≠ 2 → exec (.headAlignDone p) s = .next s) ∧
    (∀ ws : List (BitVec 16),
      let w := fun k => (ws.getD k 0).toNat
      let fits := (s.dev.fld (F.HP_EXPECT0_VENDOR p.val) = 0 ∨ s.dev.fld (F.HP_EXPECT0_VENDOR p.val) = w 0) ∧
        (s.dev.fld (F.HP_EXPECT0_PRODUCT p.val) = 0 ∨ s.dev.fld (F.HP_EXPECT0_PRODUCT p.val) = w 1) ∧
        s.dev.fld (F.HP_EXPECT1_MINCH p.val) ≤ w 3 % 512 ∧ w 3 % 512 ≤ 256 ∧ s.dev.fld (F.HP_EXPECT1_MAXCOL p.val) ≤ w 5 ∧ w 7 % 256 = 1
      let near := 480 ≤ w 2 ∧ w 2 ≤ s.dev.fld (F.HP_LATMAX_NS p.val)
      (framed = false ∨ l ≠ 3 → exec (.headDeclaration p ws) s = .next s) ∧
      (framed = true → l = 3 → ∃ t, exec (.headDeclaration p ws) s = .next t ∧
        (∀ k < 4, t.dev.num (R.HP_DECL p.val k) = w (2 * k) + 2 ^ 16 * w (2 * k + 1)) ∧
        (fits → near → moved t 4 ∧ (t.dev.hpSt p.val).lat = some (w 2) ∧ (t.dev.dom p.val).unfencing = false ∧
          (t.dev.dom p.val).causes = (s.dev.dom p.val).causes) ∧
        (¬fits → fault t 0x5012) ∧ (fits → ¬near → fault t 0x5013))) ∧
    (framed = true → 1 ≤ l → l ≤ 3 → h.since + (if l = 1 then 4096 else 512) ≤ s.dev.now →
      ∃ t, exec (.headTrainTimeout p) s = .next t ∧ (t.dev.hpSt p.val).fails = h.fails + 1 ∧
        (s.dev.fld (F.HP_CFG_RETRY p.val) ≤ h.fails + 1 → fault t 0x5011) ∧ (h.fails + 1 < s.dev.fld (F.HP_CFG_RETRY p.val) → again t)) ∧
    (framed = false ∨ l = 0 ∨ 3 < l ∨ s.dev.now < h.since + (if l = 1 then 4096 else 512) → exec (.headTrainTimeout p) s = .next s) ∧
    (s.dev.flag (F.HP_CFG_AUTOTRAIN p.val) = true → l = 7 → h.since + 65536 ≤ s.dev.now → framed = true → parked = false →
      ∃ t, exec (.headAutotrain p) s = .next t ∧ again t ∧ (t.dev.hpSt p.val).fails = 0) ∧
    (s.dev.flag (F.HP_CFG_AUTOTRAIN p.val) = false ∨ l ≠ 7 ∨ s.dev.now < h.since + 65536 → exec (.headAutotrain p) s = .next s) ∧
    (framed = true → l = 4 → ∃ t, exec (.headLinkLoss p) s = .next t ∧ (0x5010 : Reason) ∈ (t.dev.dom p.val).causes ∧ others t ∧
      (s.dev.flag (F.HP_CFG_AUTOTRAIN p.val) = false → t.dev.lstate p.val = 7) ∧
      (s.dev.flag (F.HP_CFG_AUTOTRAIN p.val) = true → parked = false → t.dev.lstate p.val = 1)) ∧
    (framed = false ∨ l ≠ 4 → exec (.headLinkLoss p) s = .next s) ∧
    (∀ port, s.dev.gate port (R.HP_TRAIN p.val) = .pass →
      (framed = true → parked = false → ∃ t, exec (.hpRetrain port p) s = .next t ∧ again t ∧ (t.dev.hpSt p.val).fails = 0) ∧
      (framed = false ∨ parked = true → exec (.hpRetrain port p) s = .next s))

/-- R572, R577, R586 to R593, R606, R608, R621: the oldest unsent frame of a sending port leaves in the beat of T_B - LAT - C, with that
instant, and not before; a status frame with a wrong CRC-16, or of
another incarnation, only counts; a good report of a fired column counts it as placed; a report that never comes counts the column
as placed and fences the port. R609 to R612, R646, R800: a command with an admitted COP of the channel's owner, with none
outstanding, is taken under the next CSEQ; any other only writes CSTAT; a command not answered 64 beats after its frame ends with
CSTAT 4; an engine with TXDST issues its two oldest TX words as a command. -/
def Obligations.HeadFramesAndPartnerCommands : Prop :=
  (∀ (s : State) (p : Fin 16),
     let h := s.dev.hpSt p.val
     let others := fun (t : State) => ∀ k, k ≠ p.val → t.dev.hpSt k = s.dev.hpSt k
     let placed := fun (t : State) (hm b : Nat) => ∀ j, s.dev.job? hm = some j → j.flaw = none → ∃ k, t.dev.job? hm = some k ∧
       k.colsFired = j.colsFired + 1 ∧ k.colsOpen = j.colsOpen - 1 ∧ k.lastBn = max j.lastBn b ∧ k.out = j.out ∧
       k.st = (if j.st = .bound then .striking else j.st)
     let up := s.dev.hpSends p.val && s.dev.lstate p.val == 4
     (∀ f, s.dev.hpSends p.val = true → h.frames.find? (fun f => !f.sent) = some f → s.dev.hpSendNs p.val f.bn / 480 ≤ s.dev.now →
       ∃ t, exec (.headFrameSend p) s = .next t ∧ t.dev.out = s.dev.out ++ [.frame p.val (s.dev.hpSendNs p.val f.bn) f.bytes] ∧ others t ∧
       t.dev.hpSt p.val = { h with frames := h.frames.map (fun x => if x.bn = f.bn then { x with sent := true } else x) } ∧
       t = { s with dev := { s.dev with out := t.dev.out, hp := t.dev.hp } }) ∧
     (s.dev.hpSends p.val = false ∨ (∀ f ∈ h.frames, f.sent = true) ∨
       (∃ f, h.frames.find? (fun f => !f.sent) = some f ∧ s.dev.now < s.dev.hpSendNs p.val f.bn / 480) → exec (.headFrameSend p) s = .next s) ∧
     (∀ b, s.dev.hpSendNs p.val b = b * 480 - (h.lat.getD (s.dev.fld (F.HP_LATMAX_NS p.val)) +
       (s.dev.fld (F.HP_CABLE_CABLE p.val) + 127) / 128)) ∧
     (∀ bs : List Byte,
       let b := fun k => (bs.getD k 0).toNat
       let good := crc16 ((bs.drop 1).take 9) = BitVec.ofNat 16 (b 10 + 256 * b 11)
       let mine := b 5 = (s.dev.dom p.val).inc
       (up = false → exec (.headStatusFrame p bs) s = .next s) ∧
       (up = true → ¬good → ∃ t, exec (.headStatusFrame p bs) s = .next t ∧ (t.dev.hpSt p.val).errs = h.errs + 1 ∧
         t.dev.fld (F.HP_ERRCNT_CRC16 p.val) = satAdd 8 (s.dev.fld (F.HP_ERRCNT_CRC16 p.val)) 1 ∧ t.dev.jobs = s.dev.jobs ∧ others t ∧
         s.dev.regsBut t.dev (R.HP_ERRCNT p.val :: irqRegs)) ∧
       (up = true → good → ¬mine → ∃ t, exec (.headStatusFrame p bs) s = .next t ∧
         t.dev.fld (F.HP_ERRCNT_DISCARDED p.val) = satAdd 8 (s.dev.fld (F.HP_ERRCNT_DISCARDED p.val)) 1 ∧
         t.dev.fld F.FEN_STALECNT_MESSAGES = satAdd 16 (s.dev.fld F.FEN_STALECNT_MESSAGES) 1 ∧
         s.dev.regsBut t.dev [R.HP_ERRCNT p.val, R.FEN_STALECNT] ∧ t = { s with dev := { s.dev with regs := t.dev.regs } }) ∧
       (∀ f hm, up = true → good → mine → b 4 % 16 = 0 → f.reported = false → f.job = some hm →
         h.frames.find? (fun f => f.bn % 65536 == b 2 + 256 * b 3 && decide (f.bn ≤ s.dev.now) && decide (s.dev.now ≤ f.bn + 3) && f.sent) =
           some f →
         ∃ t, exec (.headStatusFrame p bs) s = .next t ∧ placed t hm f.bn ∧ others t ∧
           t.dev.fld (F.HP_FIRECNT_FRAMES p.val) = (s.dev.fld (F.HP_FIRECNT_FRAMES p.val) + 1) % 2 ^ 32 ∧
           ∀ x ∈ (t.dev.hpSt p.val).frames, x.bn = f.bn → x.reported = true)) ∧
     (∀ f, h.frames.find? (fun f => !f.reported && decide (f.bn + 3 ≤ s.dev.now)) = some f →
       ∃ t, exec (.headReportMissing p) s = .next t ∧ others t ∧
         t.dev.fld (F.HP_ERRCNT_MISSING p.val) = satAdd 8 (s.dev.fld (F.HP_ERRCNT_MISSING p.val)) 1 ∧
         (∀ x ∈ (t.dev.hpSt p.val).frames, x.bn = f.bn → x.reported = true) ∧
         (∀ hm, f.job = some hm → placed t hm f.bn ∧ (0x5014 : Reason) ∈ (t.dev.dom p.val).causes) ∧
         (f.job = none → (t.dev.hpSt p.val).errs = h.errs + 1 ∧ t.dev.jobs = s.dev.jobs)) ∧
     ((∀ f ∈ h.frames, f.reported = true ∨ s.dev.now < f.bn + 3) → exec (.headReportMissing p) s = .next s)) ∧
  (∀ (s : State),
     let taken := fun (t : State) (p cop addr data : Nat) (eng : Option Nat) =>
       let h := s.dev.hpSt p
       let q := (h.cseq + 1) % 16
       t.dev.hpSt p = { h with cmd := some { cseq := q, cop := cop, addr := addr, data := data }, cseq := q, cancel := false, byEng := eng } ∧
       t.dev.reg (R.HP_CRESP p) = BitVec.ofNat 32 (q * 2 ^ 16 + 2 ^ 31) ∧ s.dev.regsBut t.dev [R.HP_CRESP p] ∧
       (∀ k, k ≠ p → t.dev.hpSt k = s.dev.hpSt k)
     let refused := fun (t : State) (p cstat : Nat) => t.dev.fld (F.HP_CRESP_CSTAT p) = cstat ∧ s.dev.regsBut t.dev [R.HP_CRESP p] ∧
       t = { s with dev := { s.dev with regs := t.dev.regs } }
     let parked := fun p : Nat => (s.dev.dom p).causes.contains 0x5003
     (∀ (port : Port) (p : Fin 16), s.dev.gate port (R.HP_CMD p.val) = .pass →
       let busy := s.dev.flag (F.HP_CMDOWN_OWNER p.val) || (s.dev.hpSt p.val).cmd.isSome
       let addr := s.dev.fld (F.HP_CADDR_COMMAND p.val)
       let data := s.dev.fld (F.HP_CDATA_COMMAND p.val)
       let on := fun (c : Instr) (cop : Nat) =>
         (parked p.val = false → busy = false → ∃ t, exec c s = .next t ∧ taken t p.val cop addr data none ∧
           t = { s with dev := { s.dev with regs := t.dev.regs, hp := t.dev.hp } }) ∧
         (parked p.val = false → busy = true → ∃ t, exec c s = .next t ∧ refused t p.val 6) ∧
         (parked p.val = true → ∃ t, exec c s = .next t ∧ refused t p.val 2)
       on (.hpCmdWrite port p) 1 ∧ on (.hpCmdRead port p) 2 ∧
       (∀ cop : BitVec 4, 8 ≤ cop.toNat → on (.hpCmdPartner port p cop) cop.toNat) ∧
       (∀ cop : BitVec 4, cop.toNat = 0 ∨ (3 ≤ cop.toNat ∧ cop.toNat ≤ 7) → parked p.val = false →
         s.dev.flag (F.HP_CMDOWN_OWNER p.val) = false → ∃ t, exec (.hpCmdPartner port p cop) s = .next t ∧ refused t p.val 7)) ∧
     (∀ (p : Fin 16) (c : HpCmd), (s.dev.hpSt p.val).cmd = some c →
       (∀ b, c.bn = some b → b + 64 ≤ s.dev.now → (s.dev.hpSt p.val).byEng = none → ∃ t, exec (.hpCmdTimeout p) s = .next t ∧
         t.dev.hpSt p.val = { s.dev.hpSt p.val with cmd := none, cancel := false } ∧ t.dev.fld (F.HP_CRESP_CSTAT p.val) = 4 ∧
         s.dev.regsBut t.dev [R.HP_CRESP p.val] ∧ t = { s with dev := { s.dev with regs := t.dev.regs, hp := t.dev.hp } }) ∧
       (c.bn = none ∨ (∃ b, c.bn = some b ∧ s.dev.now < b + 64) → exec (.hpCmdTimeout p) s = .next s)) ∧
     (∀ p : Fin 16, (s.dev.hpSt p.val).cmd = none → exec (.hpCmdTimeout p) s = .next s) ∧
     (∀ n : Fin 64,
       let p := s.dev.fld (F.TNK_CFG_CMDPORT n.val)
       let e := s.dev.eng n.val
       (∀ w0 w1 c0 c1 r, e.tx.items = (w0, c0) :: (w1, c1) :: r → s.dev.flag (F.TNK_CFG_TXDST n.val) = true →
         (s.dev.hpSt p).cmd = none → s.dev.fenced (domTe n.val) = false → parked p = false → s.dev.flag (F.HP_CMDOWN_OWNER p) = true →
         s.dev.fld (F.HP_CMDOWN_ENGINE p) = n.val → slice w0 19 16 = 1 ∨ slice w0 19 16 = 2 ∨ 8 ≤ slice w0 19 16 →
         ∃ t, exec (.tnkCmdChannelIssue n) s = .next t ∧ taken t p (slice w0 19 16) (slice w0 15 0) (slice w1 15 0) (some n.val) ∧
           (t.dev.eng n.val).tx.items = r ∧ (∀ k, k ≠ n.val → t.dev.eng k = s.dev.eng k)) ∧
       (e.tx.items.length < 2 ∨ s.dev.flag (F.TNK_CFG_TXDST n.val) = false ∨ (s.dev.hpSt p).cmd ≠ none ∨
         s.dev.fenced (domTe n.val) = true → exec (.tnkCmdChannelIssue n) s = .next s)))

/-! ## Tinker engines (13_tinker_engines.md) -/

/-- R654 to R657, R659, R660, R678, R800: a start or stop command of engines that its rules admit is pending until its beat, no nearer
than 4 beats; any other is refused. At its beat it starts each engine at its START state with its divider at CI 0, or stops it at
its idle outputs; with a member fenced meanwhile it ends REF_STATE. -/
def Obligations.EnginesStartAndStop : Prop :=
  ∀ s : State,
    let parked := fun ns : List Nat => ns.any (fun n => (s.dev.dom (domTe n)).causes.contains 0x5003)
    let res := fun (t : State) (r : Nat) => t.dev.fld F.TNK_CMDSTAT_RESULT = r ∧ s.dev.regsBut t.dev [R.TNK_CMDSTAT] ∧
      t = { s with dev := { s.dev with regs := t.dev.regs } }
    (∀ (port : Port) (idx : Fin 64) (engine start : Bool), s.dev.gate port R.TNK_CMD = .pass →
      let c : Instr := if start then .tnkStartCommand port idx engine else .tnkStopCommand port idx engine
      let ns := s.dev.cmdEngines engine idx.val
      let bad := ns = [] ∨ (engine = true ∧ s.dev.groupPeers idx.val ≠ []) ∨ (start = true ∧ ∃ n ∈ ns, s.dev.fenced (domTe n) = true)
      (s.dev.tnk.pend = none → parked ns = false → ¬bad → ∃ t, exec c s = .next t ∧ t.dev.flag F.TNK_CMDSTAT_PENDING = true ∧
        t.dev.tnk = { s.dev.tnk with pend := some { idx := idx.val, engine := engine, start := start,
                                                    bn := max (s.dev.num2 R.TNK_CMDBN_LO R.TNK_CMDBN_HI) (s.dev.now + 4) } } ∧
        s.dev.regsBut t.dev [R.TNK_CMDSTAT] ∧ t = { s with dev := { s.dev with regs := t.dev.regs, tnk := t.dev.tnk } }) ∧
      (s.dev.tnk.pend ≠ none ∨ (parked ns = false ∧ bad) → ∃ t, exec c s = .next t ∧ res t 0x1005) ∧
      (s.dev.tnk.pend = none → parked ns = true → ∃ t, exec c s = .next t ∧ res t 0x5003)) ∧
    (∀ c : TnkPend, s.dev.tnk.pend = some c →
      let ns := s.dev.cmdEngines c.engine c.idx
      let ended := fun (t : State) (r : Nat) => t.dev.tnk.pend = none ∧ t.dev.flag F.TNK_CMDSTAT_PENDING = false ∧
        t.dev.fld F.TNK_CMDSTAT_RESULT = r ∧ s.dev.regsBut t.dev [R.TNK_CMDSTAT, R.TNK_SGSTAT] ∧
        (∀ n, n ∉ ns → t.dev.eng n = s.dev.eng n) ∧ t = { s with dev := { s.dev with regs := t.dev.regs, tnk := t.dev.tnk } }
      let a : Instr := if c.start then .tnkStartAct else .tnkStopAct
      (c.start = false ∨ s.dev.now < c.bn → exec .tnkStartAct s = .next s) ∧
      (c.start = true ∨ s.dev.now < c.bn → exec .tnkStopAct s = .next s) ∧
      (c.bn ≤ s.dev.now → (∃ n ∈ ns, s.dev.fenced (domTe n) = true) → ∃ t, exec a s = .next t ∧ ended t 0x1005 ∧
        ∀ n, t.dev.eng n = s.dev.eng n) ∧
      (c.bn ≤ s.dev.now → (∀ n ∈ ns, s.dev.fenced (domTe n) = false) → ∃ t, exec a s = .next t ∧ ended t 0 ∧
        ∀ n ∈ ns, (t.dev.eng n).running = c.start ∧ (t.dev.eng n).outv = s.dev.fld (F.TNK_CFG_OUTINIT n) ∧
          (c.start = true → (t.dev.eng n).state = s.dev.fld (F.TNK_CFG_START n) ∧ (t.dev.eng n).entered = false ∧
            (t.dev.eng n).c0 = s.dev.now * 240 ∧ (t.dev.eng n).halted = !s.dev.inRun) ∧
          (c.start = false → (t.dev.eng n).state = (s.dev.eng n).state))) ∧
    (s.dev.tnk.pend = none → exec .tnkStartAct s = .next s ∧ exec .tnkStopAct s = .next s)

/-- R628, R632, R636, R638, R642 to R645, R659, R669, R673: an engine ticks only on its divider's grid, enabled, running and unfenced; a
state without a wait that has been held for HOLD ticks goes on as its two conditions say; an input change reaches waits two cycles
later; kicks reach running engines; host words enter a queue with room; a group stalled for its limit is fenced. -/
def Obligations.EnginesTickAndTakeInputs : Prop :=
  ∀ s : State,
    let at_ := fun ci : Nat => { s with dev := s.dev.setCi ci }
    (∀ (n : Fin 64) (ci : Fin 240),
      let d := s.dev.setCi ci.val
      let e := s.dev.eng n.val
      let w0 := s.dev.entry n.val 0
      let w1 := s.dev.entry n.val 1
      let w2 := s.dev.entry n.val 2
      (s.dev.flag (F.TNK_CFG_EN n.val) = false ∨ e.running = false ∨ e.halted = true ∨ s.dev.fenced (domTe n.val) = true ∨
        s.dev.pwr.vcore = false ∨ onGrid e.c0 (s.dev.num (R.TNK_DIV n.val)) d.cyc = false →
        exec (.engineTick n ci) s = .next (at_ ci.val)) ∧
      (d.engTicks n.val d.cyc = true → ∃ t, exec (.engineTick n ci) s = .next t ∧ (t.dev.eng n.val).lastTick = d.cyc + 1 ∧
        (t.dev.eng n.val).steps = (e.steps + 1) % 2 ^ 32 ∧ t.dev.jobs = s.dev.jobs ∧
        (e.entered = true → e.swapDue = false → blocks w0 (s.dev.entry n.val 3) = false →
          (e.ticks + 1 < slice w2 31 16 → (t.dev.eng n.val).state = e.state ∧ (t.dev.eng n.val).entered = true ∧
            (t.dev.eng n.val).ticks = e.ticks + 1 ∧ (t.dev.eng n.val).outv = e.outv) ∧
          (e.ticks + 1 = slice w2 31 16 → slice w0 5 0 = 0 → slice w0 13 8 = 0 →
            let k := (if bitOf w0 6 then 1 else 0) + (if bitOf w0 14 then 2 else 0)
            (t.dev.eng n.val).state = slice w1 (8 * k + 5) (8 * k) ∧ (t.dev.eng n.val).entered = false)))) ∧
    (∀ (g : Fin 169) (level : Bool) (ci : Fin 240),
      let d := s.dev.setCi ci.val
      let v := mget (false, 0) s.dev.tnk.inputs g.val
      (s.dev.inputOff g.val = true ∨ v.1 = level ∨ s.dev.pwr.vcore = false → exec (.engineInputEdge g level ci) s = .next (at_ ci.val)) ∧
      (s.dev.inputOff g.val = false → v.1 ≠ level → s.dev.pwr.vcore = true → (s.dev.ownInput g.val).getD level = level →
        ∃ t, exec (.engineInputEdge g level ci) s = .next t ∧ mget (false, 0) t.dev.tnk.inputs g.val = (level, d.cyc) ∧
          (∀ n < 64, ∀ i < 16, s.dev.inMap n i = g.val → (s.dev.eng n).running = true → (s.dev.eng n).halted = false →
            ((if level then 64 else 80) + i, d.cyc + 2) ∈ (t.dev.eng n).ev) ∧
          t = { s with dev := { d with tnk := { s.dev.tnk with inputs := t.dev.tnk.inputs, eng := t.dev.tnk.eng } } })) ∧
    (∀ (port : Port) (hi : Bool) (w : Word), s.dev.gate port (if hi then R.TNK_KICK_HI else R.TNK_KICK_LO) = .pass →
      ∃ t, exec (.tnkKick port hi w) s = .next t ∧ t = { s with dev := { s.dev with tnk := { s.dev.tnk with eng := t.dev.tnk.eng } } } ∧
        (∀ k < 32, let n := if hi then 32 + k else k
          (bitOf w k = true → (s.dev.eng n).running = true → t.dev.eng n = { s.dev.eng n with ev := (s.dev.eng n).ev ++ [(97, s.dev.cyc)] }) ∧
          (bitOf w k = false ∨ (s.dev.eng n).running = false → t.dev.eng n = s.dev.eng n))) ∧
    (∀ (port : Port) (n : Fin 64) (w : Word), s.dev.gate port (R.TNK_RXWR n.val) = .pass →
      let e := s.dev.eng n.val
      let room := s.dev.flag (F.TNK_CFG_HOSTQ n.val) = true ∧ e.rx.taken s.dev.cyc < s.dev.rxCap n.val
      (room → ∃ t, exec (.tnkRxwr port n w) s = .next t ∧
        t.dev.eng n.val = { e with rx := { e.rx with items := e.rx.items ++ [(w, s.dev.cyc)] } } ∧ (∀ k, k ≠ n.val → t.dev.eng k = s.dev.eng k) ∧
        t = { s with dev := { s.dev with tnk := { s.dev.tnk with eng := t.dev.tnk.eng } } }) ∧
      (¬room → ∃ t, exec (.tnkRxwr port n w) s = .next t ∧ t.dev.flag (F.TNK_QSTAT_HOSTDROP n.val) = true ∧
        s.dev.regsBut t.dev [R.TNK_QSTAT n.val] ∧ t = { s with dev := { s.dev with regs := t.dev.regs } })) ∧
    ((∀ g ∈ s.dev.tnk.grp, mget 0 s.dev.tnk.stall g < s.dev.fld (F.TNK_SGCFG_STALL g)) → exec .groupStall s = .next s) ∧
    (∃ t, exec .groupStall s = .next t ∧ t.dev.jobs = s.dev.jobs ∧ s.dev.regsBut t.dev (R.TNK_SGSTAT :: irqRegs) ∧
      ∀ g ∈ s.dev.tnk.grp, g < 16 → s.dev.fld (F.TNK_SGCFG_STALL g) ≤ mget 0 s.dev.tnk.stall g →
        bitOf (t.dev.reg R.TNK_SGSTAT) (16 + g) = true ∧ ∀ n ∈ s.dev.grpMask g, (0x5051 : Reason) ∈ (t.dev.dom (domTe n)).causes)

/-! ## Stage, check and commit (14_stage_check_commit.md) -/

/-- R682 to R684, R702, R706, R718: the active manager and a standalone device hold an SCC_CMD write for the next Edge phase; any other
device ignores it. GO and CHECKONLY are taken there under their refusals, and begin to check a local image; ABORT before the
decision ends the commit with CHK_HOST_ABORT and leaves both images, and after it is refused with REF_STATE and vector 20. The swap of a milestone
takes every staged bit into the active image, and DISCARD the other way, and neither touches another bit. -/
def Obligations.CommitCommandsTaken : Prop :=
  (∀ (s : State) (p : Port), s.dev.gate p R.SCC_CMD = .pass →
    let cmds : List (Instr × Word) := [(.sccGo p, 1), (.sccCheckonly p, 2), (.sccAbort p, 4), (.sccDiscard p, 8)]
    ∀ c ∈ cmds, (s.dev.isMgr = true → exec c.1 s = .next { s with dev := { s.dev with scc := { s.dev.scc with cmd := some c.2 } } }) ∧
      (s.dev.isMgr = false → exec c.1 s = .next s)) ∧
  (∀ (d : Dev) (co : Bool), d.scc.cmd = some (if co then 2 else 1) →
    (∀ r, d.sccRefusal = some r → d.sccTake.scc = { d.scc with cmd := none } ∧ d.sccTake.fld F.SCC_STAT_RESULT = r.toNat ∧
      bitOf (d.sccTake.reg R.HST_ISR0) 20 = true ∧ d.regsBut d.sccTake (R.SCC_STAT :: irqRegs)) ∧
    (d.sccRefusal = none → d.sccScope = 2 ^ d.pos → d.sccTake.scc.cur =
        some { id := d.num R.SCC_ID, ms := d.num2 R.SCC_MS_LO R.SCC_MS_HI, scope := d.sccScope, local_ := true, checkOnly := co, checkBn := d.now } ∧
      d.sccTake.fld F.SCC_STAT_PHASE = 1 ∧ d.sccTake.flag F.SCC_STAT_LOCKED = true ∧ d.sccTake.stage = d.stage)) ∧
  (∀ (d : Dev) (c : CommitSt), d.scc.cmd = some 4 → d.scc.cur = some c → c.decision = none → c.prov = false → d.sccTake.scc.cur = none ∧
    d.sccTake.fld F.SCC_STAT_PHASE = 5 ∧ d.sccTake.fld F.SCC_STAT_RESULT = 0x4006 ∧ d.sccTake.stage = d.stage ∧
    d.regsBut d.sccTake (R.SCC_STAT :: R.SCC_FAIL :: irqRegs)) ∧
  (∀ (d : Dev) (c : CommitSt), d.scc.cmd = some 4 → d.scc.cur = some c → c.decision ≠ none → d.sccTake.scc = { d.scc with cmd := none } ∧
    d.sccTake.fld F.SCC_STAT_RESULT = 0x1005 ∧ bitOf (d.sccTake.reg R.HST_ISR0) 20 = true ∧ d.regsBut d.sccTake (R.SCC_STAT :: irqRegs)) ∧
  ∀ (d : Dev) (a : Nat), d.swapImage.reg a = (d.reg a &&& ~~~(stMask a)) ||| (d.stg a &&& stMask a) ∧ d.swapImage.stg a = d.stg a ∧
    d.discardStage.stg a = (d.stg a &&& ~~~(stMask a)) ||| (d.reg a &&& stMask a) ∧ d.discardStage.reg a = d.reg a

/-- R689, R694, R696, R699, R718: a check in progress of a local image ends it with the first failing condition and unit, or as late
when its milestone has come; a local check that passes ends a CHECKONLY, and lets a GO wait for its milestone; a device of a
ring-wide scope keeps its result for its vote. The stage image stays. R691, R694, R695, R697, R699, R701, R706, R717: PREPARE locks
a scope device's image and starts its check; the manager decides APPLY when every vote is YES, aborts on a NO with its code, and as
late when votes still miss L + 8 beats before the milestone, with L over the scope (log entry 145); at the milestone a checked local
commit ends as applied, unlocked, with vector 20, and one without a result or with work in flight aborts; scope devices that do not
report in time are fenced. -/
def Obligations.CommitCheckedAndRun : Prop :=
  (∀ (s : State) (c : CommitSt), s.dev.scc.cur = some c → c.result = none → c.scope.testBit s.dev.pos = true → c.prov = false →
     let f := (s.dev.setNum R.SCC_CHKT (min (s.dev.now - c.checkBn) 65535)).chkAll s.store c.scope
     let ended := fun (t : State) (code : Reason) => t.dev.scc.cur = none ∧ t.dev.fld F.SCC_STAT_PHASE = 5 ∧
       t.dev.fld F.SCC_STAT_RESULT = code.toNat ∧ t.dev.flag F.SCC_STAT_LOCKED = false ∧ bitOf (t.dev.reg R.HST_ISR0) 20 = true
     ∃ t, exec .checkComplete s = .next t ∧ t.dev.stage = s.dev.stage ∧ t.dev.num R.SCC_CHKT = min (s.dev.now - c.checkBn) 65535 ∧
       s.dev.regsBut t.dev ([R.SCC_CHKT, R.SCC_STAT, R.SCC_FAIL, R.SCC_VOTES, R.SCC_PENDV] ++ irqRegs) ∧
       (∀ u code, c.local_ = true → f = some (u, code) → ended t code) ∧
       (c.local_ = true → f = none → c.ms ≤ s.dev.now → ended t 0x4002) ∧
       (c.local_ = true → f = none → s.dev.now < c.ms → c.checkOnly = true → t.dev.scc.cur = none ∧ t.dev.fld F.SCC_STAT_PHASE = 0 ∧
         t.dev.fld F.SCC_STAT_RESULT = 0) ∧
       (c.local_ = true → f = none → s.dev.now < c.ms → c.checkOnly = false → t.dev.scc.cur = some { c with result := some 0 }) ∧
       (c.local_ = false → s.dev.isMgr = false → t.dev.scc.cur = some { c with result := some ((f.map (fun x => x.2)).getD 0) } ∧
         t.dev.fld F.SCC_STAT_PHASE = 2)) ∧
  ((∀ (s : State) (id : Word) (ms : BitVec 56) (scope : Word) (jr : List (BitVec 20 × Word)),
     (s.dev.isMgr = true ∨ s.dev.pwr.vcore = false → exec (.commitMessage id ms scope jr) s = .next s) ∧
     (s.dev.isMgr = false → s.dev.pwr.vcore = true → scope.toNat.testBit s.dev.pos = true → (∀ c, s.dev.scc.cur = some c → c.id ≠ id.toNat) →
       id.toNat ≠ s.dev.num R.SCC_LASTID → ∃ t, exec (.commitMessage id ms scope jr) s = .next t ∧
         t.dev.scc = { s.dev.scc with cur := some { id := id.toNat, ms := ms.toNat, scope := scope.toNat, local_ := false, checkBn := s.dev.now } } ∧
         t.dev.fld F.SCC_STAT_PHASE = 1 ∧ t.dev.flag F.SCC_STAT_LOCKED = true ∧ s.dev.regsBut t.dev [R.SCC_STAT] ∧
         (∀ a, a < 0x10000 ∨ 0x1A000 ≤ a → t.dev.stg a = s.dev.stg a) ∧
         t = { s with dev := { s.dev with regs := t.dev.regs, stage := t.dev.stage, scc := t.dev.scc } })) ∧
   (∀ (s : State) (c : CommitSt) (far : Option (Fin 32 × BitVec 8 × BitVec 16)), s.dev.scc.cur = some c →
     let ended := fun (t : State) (code : Reason) => t.dev.scc.cur = none ∧ t.dev.fld F.SCC_STAT_PHASE = 5 ∧
       t.dev.fld F.SCC_STAT_RESULT = code.toNat ∧ t.dev.stage = s.dev.stage ∧ s.dev.regsBut t.dev (R.SCC_STAT :: R.SCC_FAIL :: irqRegs)
     (s.dev.isMgr = false ∨ c.local_ = true ∨ c.decision ≠ none → exec (.commitDecide far) s = .next s) ∧
     (s.dev.isMgr = true → c.local_ = false → c.decision = none → c.prov = false →
       (c.pendV = 0 → c.no = [] → s.dev.decideTests s.store c far = none → c.checkOnly = false → ∃ t, exec (.commitDecide far) s = .next t ∧
         t.dev.scc.cur = some { c with decision := some 0 } ∧ t.dev.fld F.SCC_STAT_PHASE = 3 ∧ s.dev.regsBut t.dev [R.SCC_STAT]) ∧
       (∀ p u r, c.pendV = 0 → c.no = [] → s.dev.decideTests s.store c far = some (p, u, r) →
         ∃ t, exec (.commitDecide far) s = .next t ∧ ended t r) ∧
       (∀ p r, c.no = [(p, r)] → ∃ t, exec (.commitDecide far) s = .next t ∧ ended t r) ∧
       (c.pendV ≠ 0 → c.no = [] → c.ms ≤ s.dev.now + s.dev.latOver c.scope + 8 → ∃ t, exec (.commitDecide far) s = .next t ∧ ended t 0x4002)) ∧
     (c.ms = 0 ∨ s.dev.now < c.ms → s.dev.cal.pend = none → exec .commitMilestone s = .next s) ∧
     (c.ms ≠ 0 → c.ms ≤ s.dev.now → s.dev.cal.pend = none → c.local_ = true → c.checkOnly = false → c.prov = false →
       (c.result ≠ some 0 → ∃ t, exec .commitMilestone s = .next t ∧ ended t 0x4002) ∧
       (∀ u r, c.result = some 0 → s.dev.chkBusy s.store = some (u, r) → ∃ t, exec .commitMilestone s = .next t ∧ ended t r) ∧
       (c.result = some 0 → s.dev.chkBusy s.store = none → s.dev.scc.awaitProv = false → ∃ t, exec .commitMilestone s = .next t ∧
         t.dev.fld F.SCC_STAT_PHASE = 4 ∧ t.dev.fld F.SCC_STAT_RESULT = 0 ∧ t.dev.flag F.SCC_STAT_LOCKED = false ∧
         t.dev.scc.cur = none ∧ bitOf (t.dev.reg R.HST_ISR0) 20 = true))) ∧
   ∀ s : State,
     (s.dev.scc.await = 0 ∨ s.dev.now ≤ s.dev.scc.awaitBn + 1 ∨ s.dev.isMgr = false → exec .commitReportTimeout s = .next s) ∧
     (s.dev.scc.await ≠ 0 → s.dev.scc.awaitBn + 1 < s.dev.now → s.dev.isMgr = true → ∃ t, exec .commitReportTimeout s = .next t ∧
       t.dev.scc.await = 0 ∧ (∀ p < 32, s.dev.scc.await.testBit p = true → (0x5060 : Reason) ∈ (t.dev.dom (domWorker p)).causes) ∧
       (s.dev.scc.awaitProv = false → t.dev.fld F.SCC_STAT_PHASE = 4 ∧ t.dev.fld F.SCC_STAT_RESULT = 0)))

/-! ## The Wilin ring: frames, losses, takeover and handover (15_wilin_ring.md, 02_beat_and_time.md) -/

/-- R57, R58, R60, R730 to R732, R763: a side out of service takes no frame; a frame with a wrong CRC or POISON is counted, goes on with
POISON set on the sides that lie behind this device (R729, R754), and nothing of it acts; a VOID frame is noted; an origin frame within
64 beats of a worker's last applied beat sets its beat number, and one from before it is counted and does not, nor does its origin
become the known manager (R58, R88); a device with power sends VOID frames on a side without one. -/
def Obligations.RingFramesReceived : Prop :=
  ∀ (s : State) (k : Fin 2) (f : FrameIn),
    let v := s.dev.side k.val
    let n := f.h0.toNat % 2 ^ 56
    let origin := f.crcOk = true ∧ f.poison = false ∧ f.void = false ∧ s.dev.linked = true ∧ s.dev.pwr.vcore = true ∧
      s.dev.boot.role = .worker ∧ s.dev.originOk f.origin.val = true ∧ s.dev.t.running = true
    let on := s.dev.out ++ (if s.dev.isMgr then [] else (s.dev.sidesOut k.val).map (fun o => Out.forward o true (f.binds.map BitVec.toNat)))
    (s.dev.linked = false → exec (.ringFrameReceive k f) s = .next s) ∧
    (s.dev.linked = true → f.crcOk = false → v.errWin + 1 ≤ s.dev.fld F.WR_CTRL_ERRTHR → ∃ t, exec (.ringFrameReceive k f) s = .next t ∧
      t.dev.fld (F.WR_ERRCNT_CRC k.val) = satAdd 16 (s.dev.fld (F.WR_ERRCNT_CRC k.val)) 1 ∧ t.dev.side k.val = { v with errWin := v.errWin + 1 } ∧
      s.dev.regsBut t.dev [R.WR_ERRCNT k.val] ∧
      t = { s with dev := { s.dev with regs := t.dev.regs, wr := { s.dev.wr with side := t.dev.wr.side }, out := on } }) ∧
    (s.dev.linked = true → f.crcOk = false → s.dev.fld F.WR_CTRL_ERRTHR < v.errWin + 1 → v.lstate = 4 → ∃ t,
      exec (.ringFrameReceive k f) s = .next t ∧ (t.dev.side k.val).wrapped = true ∧ (t.dev.side k.val).lstate = 5 ∧
      (0x6004 : Reason) ∈ (t.dev.dom (domSide k.val)).causes) ∧
    (s.dev.linked = true → f.crcOk = true → f.poison = true → ∃ t, exec (.ringFrameReceive k f) s = .next t ∧
      t.dev.fld (F.WR_POISON_POISONED k.val) = satAdd 16 (s.dev.fld (F.WR_POISON_POISONED k.val)) 1 ∧ s.dev.regsBut t.dev [R.WR_POISON k.val] ∧
      t = { s with dev := { s.dev with regs := t.dev.regs, out := on } }) ∧
    (s.dev.linked = true → f.crcOk = true → f.poison = false → f.void = true →
      exec (.ringFrameReceive k f) s = .next { s with dev := { s.dev with wr := { s.dev.wr with voidBn := some s.dev.now } } }) ∧
    (origin → s.dev.t.last ≤ n → n ≤ s.dev.t.last + 64 → ∃ t, exec (.ringFrameReceive k f) s = .next t ∧
      (n ≠ s.dev.t.last → t.dev.t = { s.dev.t with bn := BitVec.ofNat 56 n, last := n, lastUsed := n, running := true, regress := false }) ∧
      (n = s.dev.t.last → t.dev.t = s.dev.t) ∧ t.dev.boot.role = .worker) ∧
    (origin → n < s.dev.t.last → ∃ t, exec (.ringFrameReceive k f) s = .next t ∧ t.dev.t = { s.dev.t with regress := true } ∧
      t.dev.fld F.BT_REGRESS_CNT_FRAMES = satAdd 16 (s.dev.fld F.BT_REGRESS_CNT_FRAMES) 1 ∧ t.dev.flag F.BT_STAT_REGRESS = true ∧
      (0x7020 : Reason) ∈ (t.dev.dom 0).causes ∧ bitOf (t.dev.reg R.HST_ISR0) 21 = true ∧ t.dev.wr.mgrPos = s.dev.wr.mgrPos) ∧
    (s.dev.linked = true → s.dev.isMgr = false → s.dev.pwr.vcore = true → ∃ t, exec (.voidFrameSend k) s = .next t ∧
      t.dev.out = s.dev.out ++ [.void k.val s.dev.now] ∧ t.dev.clk.frozen = (s.dev.clk.frozen || s.dev.wr.clockSide == 1 - k.val) ∧
      t = { s with dev := { s.dev with out := t.dev.out, clk := { s.dev.clk with frozen := t.dev.clk.frozen } } }) ∧
    (s.dev.linked = false ∨ s.dev.isMgr = true ∨ s.dev.pwr.vcore = false → exec (.voidFrameSend k) s = .next s)

/-- R734, R755 to R757, R759, R760, R764, R765: a side that loses its lanes wraps under its fence; a device that took its clock from it
changes to the other side within 2 beats, or freezes its VCO where that side has no stream; a device whose
slots are missing for LOSTTMO beats is fenced as a whole, its active jobs UNCONFIRMED; a device without an origin frame for 16
beats, and a manager without its own for 2, fence every timing output; an unwrap lifts the wraps it names. -/
def Obligations.RingLossesFence : Prop :=
  ∀ s : State,
    (∀ k : Fin 2, s.dev.linked = true → (s.dev.side k.val).lstate = 4 → ∃ t, exec (.ringLaneLoss k) s = .next t ∧
      (t.dev.side k.val).lstate = 5 ∧ (t.dev.side k.val).wrapped = true ∧ (t.dev.side k.val).laneLost = true ∧
      (0x6005 : Reason) ∈ (t.dev.dom (domSide k.val)).causes ∧ t.dev.wr.clockSide = s.dev.wr.clockSide ∧
      (s.dev.isMgr = false → s.dev.wr.clockSide = k.val → s.dev.wr.sideChange = none →
        ((s.dev.side (1 - k.val)).lstate = 4 → ∃ b, t.dev.wr.sideChange = some b ∧ s.dev.now ≤ b ∧ b ≤ s.dev.now + 2) ∧
        ((s.dev.side (1 - k.val)).lstate ≠ 4 → t.dev.clk.frozen = true)) ∧
      s.dev.hopOf k.val ∈ t.dev.wr.cut ∧ (s.dev.hopOf k.val ∉ s.dev.wr.cut → t.dev.flag F.WR_STAT_WRAPPED = true)) ∧
    (∀ k : Fin 2, s.dev.linked = false → exec (.ringLaneLoss k) s = .next s) ∧
    (∀ (p : Fin 32) (b : Bool),
      let due := s.dev.boot.role = .manager ∧ p.val ≠ s.dev.pos ∧ s.dev.wr.present.testBit p.val = true ∧
        s.dev.fld F.WR_CTRL_LOSTTMO ≤ mget 0 s.dev.wr.missing p.val
      (¬due → exec (.ringPeerLostTimeout p b) s = .next s) ∧
      (due → (s.dev.jobs.map Job.hm).Nodup → ∃ t, exec (.ringPeerLostTimeout p b) s = .next t ∧
        (if b then 0x6002 else 0x6001 : Reason) ∈ (t.dev.dom (domWorker p.val)).causes ∧ t.dev.wr.present.testBit p.val = false ∧
        t.dev.jobs.map Job.hm = s.dev.jobs.map Job.hm ∧
        (s.dev.fenced (domWorker p.val) = false → ∀ j ∈ s.dev.jobs, j.exec = p.val → j.active = true → j.out = none → ∃ k ∈ t.dev.jobs,
          k.hm = j.hm ∧ k.st = .unconfirmed ∧ k.out = some { typ := 7, reason := 0x3002, bn := s.dev.now }) ∧
        (∀ j ∈ s.dev.jobs, j.exec ≠ p.val → j ∈ t.dev.jobs))) ∧
    (s.dev.isMgr = false → s.dev.linked = true → s.dev.pwr.vcore = true → 16 ≤ s.dev.wr.noOrigin → ∃ t, exec .ringOrphan s = .next t ∧
      (∀ k ∈ timingDoms, (0x6003 : Reason) ∈ (t.dev.dom k).causes) ∧ t.dev.jobs = s.dev.jobs ∧ s.dev.regsBut t.dev irqRegs) ∧
    (s.dev.isMgr = true ∨ s.dev.linked = false ∨ s.dev.pwr.vcore = false ∨ s.dev.wr.noOrigin < 16 → exec .ringOrphan s = .next s) ∧
    (s.dev.boot.role = .manager → s.dev.pwr.vcore = true → s.dev.wr.isolated = false → 2 ≤ s.dev.wr.noOwn → ∃ t, exec .managerIsolated s = .next t ∧
      t.dev.wr.stopped = true ∧ t.dev.wr.isolated = true ∧ (∀ k ∈ timingDoms, (0x6009 : Reason) ∈ (t.dev.dom k).causes) ∧
      bitOf (t.dev.reg R.HST_ISR0) 19 = true ∧ t.dev.jobs = s.dev.jobs ∧ s.dev.regsBut t.dev irqRegs) ∧
    (s.dev.boot.role ≠ .manager ∨ s.dev.pwr.vcore = false ∨ s.dev.wr.isolated = true ∨ s.dev.wr.noOwn < 2 → exec .managerIsolated s = .next s) ∧
    (s.dev.wr.unwrap = none → exec .unwrap s = .next s) ∧
    (∀ p b, s.dev.wr.unwrap = some (p, b) →
      (s.dev.now < b → exec .unwrap s = .next s) ∧
      (b ≤ s.dev.now → ∃ t, exec .unwrap s = .next t ∧ t.dev.wr.unwrap = none ∧ t.dev.boot.joining = (s.dev.boot.joining || p == s.dev.pos) ∧
        ∀ k < 2, (s.dev.side k).nbrPos = p ∨ p = s.dev.pos → (t.dev.side k).wrapped = false))

/-- R57, R412, R763, R766, R767, R869: a reserve, unless held at ROLE_CONFLICT, that misses the manager's frames of two beats while VOID frames come becomes the
manager under single seal, with no reserve; a handover is taken under dual seal with its beat L + 8 ahead, and at that beat manager
and reserve exchange their roles. -/
def Obligations.TakeoverAndHandover : Prop :=
  ∀ s : State,
    let charge := fun (t : State) => t.dev.boot.role = .manager ∧ t.dev.wr.mgrPos = s.dev.pos ∧ t.dev.wr.handover = none ∧
      t.dev.hst.held = true ∧ bitOf (t.dev.reg R.HST_ISR0) 19 = true ∧ t.dev.jobs.map Job.hm = s.dev.jobs.map Job.hm ∧
      t.dev.fld F.SUP_ROLE_CURRENT = 1
    (∀ b, s.dev.boot.role = .reserve → s.dev.boot.roleKnown = true → s.dev.boot.conflict = false → s.dev.pwr.vcore = true →
      2 ≤ s.dev.wr.noOrigin → s.dev.wr.voidBn = some b → s.dev.now ≤ b + 2 → ∃ t, exec .takeover s = .next t ∧ charge t ∧ t.dev.wr.resPos = none ∧
        t.dev.ldg.dual = false ∧ t.dev.ldg.catchup = false) ∧
    (s.dev.boot.role ≠ .reserve ∨ s.dev.boot.conflict = true ∨ s.dev.wr.noOrigin < 2 ∨ s.dev.wr.voidBn = none →
      exec .takeover s = .next s) ∧
    (∀ p, s.dev.gate p R.WR_CMD = .pass →
      let h := s.dev.num2 R.WR_HBN_LO R.WR_HBN_HI % 2 ^ 56
      let result := fun (t : State) (r : Nat) => t.dev.fld F.WR_STAT_RESULT = r ∧ s.dev.regsBut t.dev [R.WR_STAT] ∧
        t = { s with dev := { s.dev with regs := t.dev.regs } }
      (s.dev.boot.role ≠ .manager → ∃ t, exec (.wrHandover p) s = .next t ∧ result t 0xB020) ∧
      (s.dev.boot.role = .manager → s.dev.ldg.dual = false → ∃ t, exec (.wrHandover p) s = .next t ∧ result t 0x1008) ∧
      (s.dev.boot.role = .manager → s.dev.ldg.dual = true → h < s.dev.now + s.dev.lat + 8 →
        ∃ t, exec (.wrHandover p) s = .next t ∧ result t 0x1004) ∧
      (s.dev.boot.role = .manager → s.dev.ldg.dual = true → s.dev.now + s.dev.lat + 8 ≤ h → ∃ t, exec (.wrHandover p) s = .next t ∧
        t.dev.wr.handover = some h ∧ t.dev.fld F.WR_STAT_RESULT = 0 ∧ s.dev.regsBut t.dev [R.WR_STAT] ∧
        t.dev.wr.bulk = s.dev.wr.bulk ++ [{ dst := s.dev.wr.resPos.getD 63, kind := 8, left := bulkBlocks 3,
                                            words := [3, BitVec.ofNat 32 h, BitVec.ofNat 32 (h / 2 ^ 32)] }])) ∧
    (s.dev.wr.handover = none → exec .handoverBeat s = .next s) ∧
    (∀ h, s.dev.wr.handover = some h → s.dev.now < h → exec .handoverBeat s = .next s) ∧
    (∀ h p, s.dev.wr.handover = some h → h ≤ s.dev.now → s.dev.boot.role = .manager → s.dev.wr.resPos = some p →
      ∃ t, exec .handoverBeat s = .next t ∧ t.dev.boot.role = .reserve ∧ t.dev.wr.mgrPos = p ∧ t.dev.wr.resPos = some s.dev.pos ∧
        t.dev.wr.handover = none ∧ t.dev.jobs = s.dev.jobs ∧ t.dev.ldg.dual = s.dev.ldg.dual) ∧
    (∀ h, s.dev.wr.handover = some h → h ≤ s.dev.now → s.dev.boot.role = .reserve → ∃ t, exec .handoverBeat s = .next t ∧ charge t ∧
      t.dev.wr.resPos = some s.dev.wr.mgrPos ∧ t.dev.ldg.dual = true ∧ t.dev.flag F.LDG_STAT_DUAL = true)

/-- R768, R769, R860, R871 to R877: the remote window sends an access to the position and page that WR_WINSEL names, one at a time per
position; one to a position that has not declared itself or is fenced ends with ERR and reads 0; one unanswered for 50 us ends with
TIMEOUT; a read through a read-only service port sets neither bit (R263); a target serves it and answers; the answer of a read is what the port reads. -/
def Obligations.RemoteWindowAccesses : Prop :=
  ∀ s : State,
    let zero := fun (p : Port) => ({ s with dev := { s.dev with out := s.dev.out ++ [.readData p 0] } } : State)
    (∀ (p : Port) (off : BitVec 16),
      let g := s.dev.rgate p (0xE0000 + off.toNat)
      (g = .none → exec (.windowRead p off) s = .next s) ∧ (g = .zero ∨ g = .reset → exec (.windowRead p off) s = .next (zero p)) ∧
      (g = .full → s.dev.isMgr = false → exec (.windowRead p off) s = .next (zero p)) ∧
      (g = .full → s.dev.isMgr = true → s.dev.winTarget off.toNat = none → ∃ t, exec (.windowRead p off) s = .next t ∧
        (s.dev.portRo p = false → t.dev.flag F.WR_WINSTAT_ERR = true) ∧ (s.dev.portRo p = true → t.dev.regs = s.dev.regs) ∧ t.dev.out = s.dev.out ++ [.readData p 0] ∧ s.dev.regsBut t.dev [R.WR_WINSTAT] ∧ t.dev.wr = s.dev.wr) ∧
      (∀ q a, g = .full → s.dev.isMgr = true → s.dev.winTarget off.toNat = some (q, a) → ∃ t, exec (.windowRead p off) s = .next t ∧
        t.dev.wr.win = s.dev.wr.win ++ [{ pos := q, write := none, off := a, bn := s.dev.now, port := p }] ∧
        ((∀ y ∈ s.dev.wr.win, y.pos ≠ q) ↔ t.dev.wr.bulk ≠ s.dev.wr.bulk) ∧ s.dev.regsBut t.dev [R.WR_WINSTAT])) ∧
    (∀ (p : Port) (off : BitVec 16) (w : Word), s.dev.gate p (0xE0000 + off.toNat) = .pass →
      (s.dev.isMgr = false → exec (.windowWrite p off w) s = .next s) ∧
      (s.dev.isMgr = true → s.dev.winTarget off.toNat = none → ∃ t, exec (.windowWrite p off w) s = .next t ∧
        t.dev.flag F.WR_WINSTAT_ERR = true ∧ s.dev.regsBut t.dev [R.WR_WINSTAT] ∧ t = { s with dev := { s.dev with regs := t.dev.regs } }) ∧
      (∀ q a, s.dev.isMgr = true → s.dev.winTarget off.toNat = some (q, a) → s.dev.scc.cur = none → ∃ t, exec (.windowWrite p off w) s = .next t ∧
        t.dev.wr.win = s.dev.wr.win ++ [{ pos := q, write := some w, off := a, bn := s.dev.now, port := p }] ∧
        t.dev.fld F.WR_WINSTAT_WPEND = min 255 ((s.dev.wr.win.filter (fun x => x.write.isSome)).length + 1) ∧
        s.dev.regsBut t.dev [R.WR_WINSTAT])) ∧
    (∀ (q : Fin 32) (x : WinAcc), s.dev.wr.win.find? (fun x => x.pos == q.val) = some x →
      (s.dev.now < x.bn + 105 → exec (.windowTimeout q) s = .next s) ∧
      (x.bn + 105 ≤ s.dev.now → ∃ t, exec (.windowTimeout q) s = .next t ∧
        (s.dev.portRo x.port = false → t.dev.flag F.WR_WINSTAT_TIMEOUT = true) ∧
        t.dev.wr.win.length + 1 = s.dev.wr.win.length ∧ (x.write = none → .readData x.port 0 ∈ t.dev.out) ∧
        s.dev.regsBut t.dev [R.WR_WINSTAT])) ∧
    (∀ q : Fin 32, (∀ y ∈ s.dev.wr.win, y.pos ≠ q.val) → exec (.windowTimeout q) s = .next s) ∧
    (∀ (a : BitVec 20) (w : Option Word) (view ro : Bool),
      let g := s.dev.rgate (if ro then .windowRo else .window) a.toNat
      let reply := fun (t : State) (ws : List Word) => t.dev.inRing = true → Out.ring 2 t.dev.wr.mgrPos 6 ws ∈ t.dev.out ∨
        ∃ m ∈ t.dev.wr.bulk, m.dst = t.dev.wr.mgrPos ∧ m.kind = 6 ∧ m.words = ws
      (s.dev.isMgr = true → exec (.regMessage (.access a w view ro)) s = .next s) ∧
      (s.dev.isMgr = false → ∃ t, exec (.regMessage (.access a w view ro)) s = .next t ∧ t.pending = s.pending ∧
        (w.isSome = true → g ≠ .none → reply t [1]) ∧ (w = none → g = .zero → reply t [0, 0]) ∧
        (w = none → g = .reset → reply t [0, s.dev.resetRead a.toNat]) ∧
        (w = none → g = .full → reply t [0, (s.dev.readReg (if ro then .windowRo else .window) view a.toNat).2]))) ∧
    (∀ (q : Fin 32) (inc : BitVec 8) (wr : Bool) (w : Word),
      (s.dev.boot.role ≠ .manager → exec (.regMessage (.reply q inc wr w)) s = .next s) ∧
      (∀ x, s.dev.boot.role = .manager → s.dev.stale q.val inc.toNat = false → s.dev.wr.win.find? (fun x => x.pos == q.val) = some x →
        x.write.isSome = wr → ∃ t, exec (.regMessage (.reply q inc wr w)) s = .next t ∧ t.dev.wr.win.length + 1 = s.dev.wr.win.length ∧
          (wr = false → .readData x.port w ∈ t.dev.out) ∧ s.dev.regsBut t.dev [R.WR_WINSTAT]))

/-! ## Bulk messages and provisioning (15_wilin_ring.md) -/

/-- R72, R126, R404, R405, R408, R737, R747, R792, R798, R833, Tables RNG-7 and RNG-8: calendar sets and offset tables are held for
their beat or put in force at once; the manager takes details, declarations, outcomes and log entries, but counts what comes under
another incarnation than the recorded one; a target takes its identity, image, fence, handover beat, discard and notes from PROV
messages, and the words of job rings that a commit of the manager changed (the model's own message: log entry 154). -/
def Obligations.BulkMessagesTaken : Prop :=
  ∀ s : State,
    let deaf := s.dev.isMgr = true ∨ s.dev.pwr.vcore = false
    let live := s.dev.isMgr = false ∧ s.dev.pwr.vcore = true
    let staleOnly := fun (t : State) => t.dev.fld F.FEN_STALECNT_MESSAGES = satAdd 16 (s.dev.fld F.FEN_STALECNT_MESSAGES) 1 ∧
      s.dev.regsBut t.dev [R.FEN_STALECNT] ∧ t = { s with dev := { s.dev with regs := t.dev.regs } }
    (∀ sec sub g tag, (deaf → exec (.calsetMessage sec sub g tag) s = .next s) ∧
      (live → ∃ t, exec (.calsetMessage sec sub g tag) s = .next t ∧ t.dev.flag F.CAL_STAT_PENDING = true ∧ s.dev.regsBut t.dev [R.CAL_STAT] ∧
        t.dev.cal = { s.dev.cal with pend := some { val := { sec := sec.toNat, sub := sub.toNat }, tag := tag.toNat, regressOk := g } } ∧
        t = { s with dev := { s.dev with regs := t.dev.regs, cal := t.dev.cal } })) ∧
    (∀ (p : Fin 32) inc tag d0 d1, (s.dev.boot.role ≠ .manager → exec (.detailMessage p inc tag d0 d1) s = .next s) ∧
      (s.dev.boot.role = .manager → s.dev.stale p.val inc.toNat = true → ∃ t, exec (.detailMessage p inc tag d0 d1) s = .next t ∧ staleOnly t) ∧
      (∀ hm, s.dev.boot.role = .manager → s.dev.stale p.val inc.toNat = false → s.dev.tagJob p.val tag.toNat = some hm →
        s.dev.wr.needDetail.contains hm = true → ∃ t, exec (.detailMessage p inc tag d0 d1) s = .next t ∧
          t.dev.jobs = s.dev.jobs.map (fun j => if j.hm == hm then
            { j with out := j.out.map (fun o => { o with d0 := d0.toNat, d1 := d1.toNat }) } else j) ∧
          t = { s with dev := { s.dev with jobs := t.dev.jobs,
                                           wr := { s.dev.wr with needDetail := s.dev.wr.needDetail.filter (fun x => x != hm) } } })) ∧
    (∀ (bn : BitVec 56) tab, (deaf → exec (.offtabMessage bn tab) s = .next s) ∧
      (live → s.dev.now < bn.toNat ∨ s.dev.wr.sideChange ≠ none → ∃ t l, exec (.offtabMessage bn tab) s = .next t ∧ t.dev.wr = { s.dev.wr with offPend := some (bn.toNat, l) } ∧
        t = { s with dev := { s.dev with wr := t.dev.wr } }) ∧
      (live → bn.toNat ≤ s.dev.now → s.dev.wr.sideChange = none → ∃ t, exec (.offtabMessage bn tab) s = .next t ∧ t.dev.jobs.map Job.hm = s.dev.jobs.map Job.hm ∧
        ∀ x ∈ tab, tab.find? (fun y => y.1.val == x.1.val) = some x →
          t.dev.wr.offTab.getD (2 * x.1.val) 0 = x.2.1.toNat ∧ t.dev.wr.offTab.getD (2 * x.1.val + 1) 0 = x.2.2.toNat)) ∧
    (∀ us (p : Fin 32) (inc : BitVec 8) m, s.dev.pwr.vcore = false → exec (.ledgerMessage us p inc m) s = .next s) ∧
    (∀ us (p : Fin 32) (inc : BitVec 8) (cap : Fin 4) (hpset : Fin 17) serial sysId (last : BitVec 56) unc (held : List (BitVec 48 × Bool)),
      s.dev.pwr.vcore = true → s.dev.boot.role = .manager → p.val ≠ s.dev.pos →
      (∀ x ∈ s.dev.wr.decl, x.1 = p.val → x.2.1 = serial) → ∃ t, exec (.ledgerMessage us p inc (.declare cap hpset serial sysId last unc held)) s = .next t ∧
        (p.val, serial, hpset.val, sysId) ∈ t.dev.wr.decl ∧ p.val ∈ t.dev.ldg.declared ∧
        (p.val, held.map (fun h => (h.1.toNat, h.2))) ∈ t.dev.ldg.decide_ ∧ mget 0 t.dev.fen.posInc p.val = inc.toNat ∧
        bitOf (t.dev.reg R.HST_ISR0) 19 = true ∧ t.dev.jobs.map Job.hm = s.dev.jobs.map Job.hm) ∧
    (∀ us (p : Fin 32) (inc : BitVec 8) m, s.dev.pwr.vcore = true → s.dev.stale p.val inc.toNat = true →
      (∀ a b c d e f g, m ≠ .declare a b c d e f g) → ∃ t, exec (.ledgerMessage us p inc m) s = .next t ∧ staleOnly t) ∧
    (∀ us (p : Fin 32) (inc : BitVec 8) (hm : BitVec 48) typ reason (bn : BitVec 56) (d0 : Word) (d1 : BitVec 16) (j : Job), s.dev.pwr.vcore = true → s.dev.stale p.val inc.toNat = false →
      s.dev.boot.role = .manager → s.dev.job? hm.toNat = some j → j.out = none → j.exec = p.val → p.val ∉ s.dev.ldg.writtenOff →
      (∀ x ∈ s.dev.ldg.decide_, x.1 ≠ p.val) → ∃ t k, exec (.ledgerMessage us p inc (.outcome hm typ reason bn d0 d1)) s = .next t ∧
        t.dev.job? hm.toNat = some k ∧ k.st = stOfTyp typ.val ∧
        k.out = some { typ := typ.val, reason := reason, bn := bn.toNat, d0 := d0.toNat, d1 := d1.toNat } ∧
        (∀ x ∈ s.dev.jobs, x.hm ≠ hm.toNat → x ∈ t.dev.jobs) ∧ t = { s with dev := { s.dev with jobs := t.dev.jobs } }) ∧
    (∀ us (p : Fin 32) (inc : BitVec 8) (dom : BitVec 16) reason (einc : BitVec 8) clear (bn : BitVec 56), s.dev.pwr.vcore = true → s.dev.stale p.val inc.toNat = false →
      s.dev.boot.role = .manager → s.dev.fen.log.length < 64 → ∃ t, exec (.ledgerMessage us p inc (.log dom reason einc clear bn)) s = .next t ∧
        t.dev.fen = { s.dev.fen with log := s.dev.fen.log ++
          [{ dom := dom.toNat, reason := reason, inc := einc.toNat, clear := clear, pos := p.val, bn := bn.toNat }] } ∧
        bitOf (t.dev.reg R.HST_ISR0) 16 = true ∧ s.dev.regsBut t.dev irqRegs) ∧
    (∀ m, deaf → exec (.provMessage m) s = .next s) ∧
    (∀ sys (bn : BitVec 56), live → s.dev.boot.role = .worker → s.dev.sysId = sys → s.dev.t.running = true → ∃ t, exec (.provMessage (.identity sys bn)) s = .next t ∧
      t.dev.t = (if bn.toNat < s.dev.t.last then s.dev.t else
        { s.dev.t with bn := bn, last := bn.toNat, lastUsed := bn.toNat, running := true, regress := false }) ∧ t.dev.jobs = s.dev.jobs) ∧
    (∀ first (ws : List (BitVec 20 × Word)), live → ∃ t, exec (.provMessage (.image first ws)) s = .next t ∧ t.dev.jobs = s.dev.jobs ∧
      ∀ x ∈ ws, ws.filter (fun y => y.1 == x.1) = [x] → stMask x.1.toNat ≠ 0 → t.dev.stg x.1.toNat = x.2 &&& stMask x.1.toNat) ∧
    (∀ r, live → ∃ t, exec (.provMessage (.fence r)) s = .next t ∧ t.dev.wr.fencePend = some r ∧ t = { s with dev := { s.dev with wr := t.dev.wr } }) ∧
    (∀ h : BitVec 56, live → s.dev.boot.role = .reserve → ∃ t, exec (.provMessage (.handover h)) s = .next t ∧
      t.dev.wr.handover = some h.toNat ∧ t = { s with dev := { s.dev with wr := t.dev.wr } }) ∧
    (live → s.dev.scc.cur = none → ∃ t, exec (.provMessage .discard) s = .next t ∧ t.dev.regs = s.dev.regs ∧
      ∀ a, t.dev.stg a &&& stMask a = s.dev.reg a &&& stMask a) ∧
    (∀ ws : List (BitVec 20 × Word), live → ∃ t, exec (.provMessage (.rings ws)) s = .next t ∧ t.dev.jobs = s.dev.jobs ∧
      (∀ x ∈ ws, ws.filter (fun y => y.1 == x.1) = [x] → ringWord x.1.toNat = true →
        t.dev.reg x.1.toNat = x.2 &&& stMask x.1.toNat ∧ t.dev.stg x.1.toNat = x.2 &&& stMask x.1.toNat) ∧
      ∀ a, (∀ x ∈ ws, x.1.toNat ≠ a) → t.dev.reg a = s.dev.reg a ∧ t.dev.stg a = s.dev.stg a) ∧
    (∀ (p : Fin 32) (a : BitVec 20) (w : Word), live → s.dev.boot.role = .reserve → ∃ t, exec (.provMessage (.note p false a w)) s = .next t ∧
      (p.val, a.toNat, w) ∈ t.dev.wr.provSet ∧ t = { s with dev := { s.dev with wr := t.dev.wr } })

/-! ## Fences (16_fences_and_recovery.md) -/

/-- R779 to R785, R796, R797, R799, R800, R804, R806, R807, R811: a FEN_CMD waits for the next Edge phase, and a second one is refused;
FENCE adds its cause, UNFENCE of a unit whose causes the host may clear takes them away and steps its incarnation, PARK of a busy
unit is refused without EXPIRE; a job that a fence closes ends once nothing of it is open. -/
def Obligations.FencesAreHostCommands : Prop :=
  (∀ (s : State) (p : Port) (dom : BitVec 16) (x : Bool), s.dev.gate p R.FEN_CMD = .pass →
    let cmds : List (Instr × FenCmd) := [(.fenFence p dom, { dom := dom.toNat, op := 1, expire := false }),
      (.fenUnfence p dom, { dom := dom.toNat, op := 2, expire := false }), (.fenPark p dom x, { dom := dom.toNat, op := 3, expire := x })]
    ∀ c ∈ cmds,
      (s.dev.fen.cmd = none → ∃ t, exec c.1 s = .next t ∧ t.dev.fen = { s.dev.fen with cmd := some c.2 } ∧
        t.dev.flag F.FEN_CMDSTAT_BUSY = true ∧ s.dev.regsBut t.dev [R.FEN_CMDSTAT] ∧
        t = { s with dev := { s.dev with regs := t.dev.regs, fen := t.dev.fen } }) ∧
      (s.dev.fen.cmd ≠ none → ∃ t, exec c.1 s = .next t ∧ t.dev.fld F.FEN_CMDSTAT_RESULT = 0x1005 ∧ s.dev.regsBut t.dev [R.FEN_CMDSTAT] ∧
        t = { s with dev := { s.dev with regs := t.dev.regs } })) ∧
  (∀ (d : Dev) (c : FenCmd), d.fen.cmd = some c →
    let e := d.fenTake
    let result := fun r : Nat => e.flag F.FEN_CMDSTAT_BUSY = false ∧ e.fld F.FEN_CMDSTAT_RESULT = r ∧ e.fen.cmd = none
    let parked := (d.dom c.dom).causes.contains 0x5003
    (c.op = 1 ∨ c.op = 3 → parked = true → result 0x5003 ∧ e.dom c.dom = d.dom c.dom) ∧
    (c.op = 1 → c.dom ≤ 116 → parked = false → result 0 ∧ (0x5002 : Reason) ∈ (e.dom c.dom).causes) ∧
    (c.op = 1 → domExists c.dom = false → parked = false → result 0x1005) ∧
    (c.op = 3 → c.dom ≤ 116 → parked = false → d.domBusy c.dom = true → c.expire = false → result 0x1005 ∧ e.dom c.dom = d.dom c.dom) ∧
    (c.op = 3 → c.dom ≤ 116 → parked = false → d.domBusy c.dom = false ∨ c.expire = true → result 0 ∧ (0x5003 : Reason) ∈ (e.dom c.dom).causes) ∧
    (c.op = 2 → 16 ≤ c.dom → c.dom ≤ 116 → d.unfenceBad c.dom = false → (d.dom c.dom).causes ≠ [] → result 0 ∧ (e.dom c.dom).causes = [] ∧ (e.dom c.dom).inc = nextInc (d.dom c.dom).inc) ∧
    (c.op = 2 → c.dom < 0x2000 → d.unfenceBad c.dom = true → result 0x1005 ∧ e.dom c.dom = d.dom c.dom)) ∧
  ∀ (s : State) (hm : BitVec 48),
    (∀ j, s.dev.job? hm.toNat = some j → j.closing = none ∨ j.active = false ∨ j.colsOpen ≠ 0 ∨ j.edgesOpen ≠ 0 →
      exec (.fenceJobClose hm) s = .next s) ∧
    (∀ j, s.dev.job? hm.toNat = some j → j.closing ≠ none → j.active = true → j.colsOpen = 0 → j.edgesOpen = 0 → j.out = none →
      ∃ t k, exec (.fenceJobClose hm) s = .next t ∧ t.dev.job? hm.toNat = some k ∧ (∀ x ∈ s.dev.jobs, x.hm ≠ hm.toNat → x ∈ t.dev.jobs) ∧
        k.out = some (if j.placed then { typ := 5, reason := 0x3004, bn := j.lastBn, d0 := j.partDetail }
          else { typ := 6, reason := 0x2002, bn := s.dev.now })) ∧
    (s.dev.job? hm.toNat = none → exec (.fenceJobClose hm) s = .next s)

/-! ## The assay, and the test access port (17_assay.md, 19_balls_and_electrical.md) -/

/-- R820 to R823, R826 to R829, R833, Table ASY-4a: a procedure that its rules admit starts with a first attempt at the next beat, any
other is refused; ABORT ends one disturbed; an attempt whose precondition fails is disturbed, and retried BACKOFF beats on while
retries are left. R824, R825, R828, R836 to R839, R848: the end of an attempt that stayed undisturbed keeps its sets for the next
Edge phase, or with a result out of range leaves the coefficients and marks the lines; the automatic TDC calibration takes every
enabled input in turn; drift corrections come every 1 024 measurements and only within a tenth; a joining position's RSKEW is tried
again. -/
def Obligations.AssayRunsAndApplies : Prop :=
  (∀ s : State,
     let disturbed := fun (t : State) (r : AsyRun) =>
       (r.attempts ≤ s.dev.fld F.ASY_CTRL_RETRY → t.dev.asy.run = some { r with retryBn := some (s.dev.now + s.dev.fld F.ASY_CTRL_BACKOFF) } ∧
         t.dev.fld F.ASY_STAT_RESULT = 0x8001) ∧
       (s.dev.fld F.ASY_CTRL_RETRY < r.attempts → t.dev.asy.run = none ∧ t.dev.fld F.ASY_STAT_RESULT = 0x8002 ∧
         bitOf (t.dev.reg R.HST_ISR0) 23 = true) ∧
       t.dev.asy.coef = s.dev.asy.coef ∧ t.dev.jobs = s.dev.jobs
     (∀ (p : Port) (g : BitVec 8) (i : Fin 16), s.dev.gate p R.ASY_CMD = .pass →
       let cmds : List (Instr × Nat × Nat × Nat) := [(.asyCmdLines p g, 1, g.toNat, 0), (.asyCmdTdc p g, 2, g.toNat, 0),
         (.asyCmdXloop p g i, 3, g.toNat, i.val), (.asyCmdRskew p, 4, 0, 0)]
       ∀ c ∈ cmds,
         (∀ r, s.dev.asyRefusal c.2.1 c.2.2.1 c.2.2.2 = some r → ∃ t, exec c.1 s = .next t ∧ t.dev.fld F.ASY_STAT_RESULT = r.toNat ∧
           s.dev.regsBut t.dev [R.ASY_STAT] ∧ t = { s with dev := { s.dev with regs := t.dev.regs } }) ∧
         (s.dev.asyRefusal c.2.1 c.2.2.1 c.2.2.2 = none → ∃ t, exec c.1 s = .next t ∧ t.dev.flag F.ASY_STAT_BUSY = true ∧
           t.dev.fld F.ASY_STAT_PROC = c.2.1 ∧ s.dev.regsBut t.dev [R.ASY_STAT] ∧
           t.dev.asy.run = some { proc := c.2.1, target := if c.2.1 = 4 then s.dev.num R.ASY_RSCOPE else c.2.2.1, loopIn := c.2.2.2,
                                  retryBn := some (s.dev.now + 1) } ∧
           t = { s with dev := { s.dev with regs := t.dev.regs, asy := t.dev.asy } })) ∧
     (∀ p, s.dev.gate p R.ASY_CMD = .pass →
       (s.dev.asy.run = none → exec (.asyCmdAbort p) s = .next s) ∧
       (s.dev.asy.run ≠ none → ∃ t, exec (.asyCmdAbort p) s = .next t ∧ t.dev.asy.run = none ∧ t.dev.fld F.ASY_STAT_RESULT = 0x8001 ∧
         t.dev.flag F.ASY_STAT_BUSY = false ∧ bitOf (t.dev.reg R.HST_ISR0) 23 = true ∧ s.dev.regsBut t.dev (R.ASY_STAT :: irqRegs))) ∧
     (s.dev.asy.run = none → exec .assayAttemptStart s = .next s ∧ exec .assayDisturbed s = .next s ∧ ∀ i, exec (.assayPostcheck i) s = .next s) ∧
     (∀ r, s.dev.asy.run = some r →
       let r' := { r with attempts := r.attempts + 1, startBn := s.dev.now, retryBn := none }
       (∀ b, r.retryBn = some b → exec .assayDisturbed s = .next s ∧ (∀ i, exec (.assayPostcheck i) s = .next s) ∧
         (s.dev.now < b → exec .assayAttemptStart s = .next s) ∧
         (b ≤ s.dev.now → ∃ t, exec .assayAttemptStart s = .next t ∧
           t.dev.fld F.ASY_STAT_ATTEMPTS = (r.attempts + 1) % 16 ∧
           (s.dev.asyPre r' = true → t.dev.asy.run = some r' ∧ s.dev.regsBut t.dev [R.ASY_STAT]) ∧
           (s.dev.asyPre r' = false → disturbed t r'))) ∧
       (r.retryBn = none → exec .assayAttemptStart s = .next s ∧ ∃ t, exec .assayDisturbed s = .next t ∧ disturbed t r))) ∧
  (∀ s : State,
     (∀ (r : AsyRun) (i : AssayIn), s.dev.asy.run = some r → r.retryBn = none → s.dev.asy.applyDue = none →
       (s.dev.now + 1 < r.startBn + s.dev.asyBeats r → exec (.assayPostcheck i) s = .next s) ∧
       (r.startBn + s.dev.asyBeats r ≤ s.dev.now + 1 → ∃ t, exec (.assayPostcheck i) s = .next t ∧ t.dev.asy.coef = s.dev.asy.coef ∧
         t.dev.jobs = s.dev.jobs ∧
         (s.dev.asyPre r = false ∨ i.quiet = false → t.dev.asy.applyDue = none ∧
           t.dev.fld F.ASY_STAT_RESULT = (if r.attempts ≤ s.dev.fld F.ASY_CTRL_RETRY then 0x8001 else 0x8002)) ∧
         (s.dev.asyPre r = true → i.quiet = true → i.inRange = false → t.dev.asy.run = none ∧ t.dev.fld F.ASY_STAT_RESULT = 0x8003 ∧
           (∀ l ∈ r.lines, l ∈ t.dev.asy.range) ∧ t.dev.flag F.ASY_STAT_RANGE_HELD = !(t.dev.asy.range.isEmpty)) ∧
         (s.dev.asyPre r = true → i.quiet = true → i.inRange = true → r.proc ≠ 4 → t.dev.asy.run = some r ∧ t.dev.asy.applyDue =
           some (if r.proc = 3 then [] else (i.sets.map (fun x => (x.1.val, x.2))).filter (fun x => r.lines.contains x.1), i.offset)) ∧
         (s.dev.asyPre r = true → i.quiet = true → i.inRange = true → r.proc = 4 → t.dev.asy.run = none ∧ t.dev.fld F.ASY_STAT_RESULT = 0 ∧
           t.dev.wr.offPend.map (fun x => x.1) = some (s.dev.now + s.dev.lat + 8)))) ∧
     (let due := s.dev.flag F.ASY_CTRL_TDCAUTO = true ∧ s.dev.t.running = true ∧ s.dev.asy.tdcDue ≤ s.dev.now
      (¬due → exec .tdcAutoStart s = .next s) ∧
      (due → exec .tdcAutoStart s = .next { s with dev := { s.dev with asy := { s.dev.asy with
        tdcLeft := (List.range 16).filter (fun n => s.dev.flag (F.TRG_CFG_EN n)), tdcDue := s.dev.now + s.dev.fld F.ASY_TDCPER_AUTOMATIC * 65536 } } })) ∧
     (∀ corr : List Int, (s.dev.asy.driftN < 1024 → exec (.driftApply corr) s = .next s) ∧
       (1024 ≤ s.dev.asy.driftN → ∃ t, exec (.driftApply corr) s = .next t ∧ t.dev.asy.driftN = 0 ∧ t.dev.asy.coef = s.dev.asy.coef ∧
         ∀ c < 8, mget 0 s.dev.asy.baseBn c ≠ s.dev.now + 1 →
           ((corr.getD c 0).natAbs * 10 ≤ 65536 → t.dev.fld (F.ASY_DRIFT_SCALE c) = unsigned 16 (corr.getD c 0) ∧
             t.dev.flag (F.ASY_DRIFT_RANGE c) = false) ∧
           (65536 < (corr.getD c 0).natAbs * 10 → t.dev.fld (F.ASY_DRIFT_SCALE c) = s.dev.fld (F.ASY_DRIFT_SCALE c) ∧
             t.dev.flag (F.ASY_DRIFT_RANGE c) = true ∧ ∀ l ∈ linesOf c, l ∈ t.dev.asy.range))) ∧
     (s.dev.asy.rskewPend = [] ∨ s.dev.now < s.dev.asy.rskewDue ∨ s.dev.boot.role ≠ .manager ∨ s.dev.asy.run ≠ none →
       exec .rskewRetry s = .next s) ∧
     (s.dev.asy.rskewPend ≠ [] → s.dev.asy.rskewDue ≤ s.dev.now → s.dev.boot.role = .manager → s.dev.asy.run = none →
       ∃ t r, exec .rskewRetry s = .next t ∧ t.dev.asy.run = some r ∧ r.proc = 4 ∧ r.retryBn = some (s.dev.now + 1) ∧
         (∀ p ∈ s.dev.asy.rskewPend, r.target.testBit p = true) ∧ t.dev.flag F.ASY_STAT_RSKEW_PEND = true))
end

