-- ==== Sys2Proof/Laws/Maps.lean ====
section
/-!
SUPPORT. Sys2Proof/Laws/Maps.lean: sparse maps and the segment store: a read after a write to the same key gives the value written,
a write leaves every other key alone, and every write keeps the canonical form.
-/
namespace Sys2Proof.Machine

section maps
variable {V : Type}

theorem find_minsert (k k' : Nat) (v : V) (m : SMap V) (h : ∀ c ∈ m, c.1 ≠ k) :
    (minsert k v m).find? (fun c => c.1 == k') =
      if k' = k then some (k, v) else m.find? (fun c => c.1 == k') := by
  induction m with
  | nil =>
    by_cases e : k' = k
    · subst e; simp [minsert]
    · have h' : (k == k') = false := by simp [Ne.symm e]
      simp [minsert, h', e]
  | cons c r ih =>
    have hc : c.1 ≠ k := h c (by simp)
    have hr : ∀ x ∈ r, x.1 ≠ k := fun x hx => h x (by simp [hx])
    unfold minsert
    by_cases hk : k < c.1
    · rw [if_pos hk]
      by_cases e : k' = k
      · subst e; simp
      · have : (k == k') = false := by simp [Ne.symm e]
        simp [List.find?_cons, this, e]
    · rw [if_neg hk, List.find?_cons, ih hr]
      by_cases e : k' = k
      · subst e
        have : (c.1 == k') = false := by simp [hc]
        simp [this]
      · simp only [List.find?_cons, if_neg e]

theorem find_filter_ne (k k' : Nat) (m : SMap V) (h : k' ≠ k) :
    (m.filter (fun c => c.1 != k)).find? (fun c => c.1 == k') = m.find? (fun c => c.1 == k') := by
  induction m with
  | nil => rfl
  | cons c r ih =>
    by_cases e : c.1 = k
    · have h1 : (c.1 != k) = false := by simp [e]
      have h2 : (c.1 == k') = false := by simp [e, Ne.symm h]
      rw [List.filter_cons, h1, List.find?_cons, h2]; simpa using ih
    · have h1 : (c.1 != k) = true := by simp [e]
      rw [List.filter_cons, h1]
      simp only [if_true, List.find?_cons, ih]

theorem find_filter_same (k : Nat) (m : SMap V) :
    (m.filter (fun c => c.1 != k)).find? (fun c => c.1 == k) = none := by
  simp [List.find?_eq_none]

variable [DecidableEq V]

/-- A read after a write to the same key gives the value written. -/
theorem mgetD_msetD_same (d : Nat → V) (m : SMap V) (k : Nat) (v : V) : mgetD d (msetD d m k v) k = v := by
  unfold mgetD msetD
  by_cases h : v = d k
  · simp only [if_pos h, find_filter_same]; exact h.symm
  · simp only [if_neg h]; rw [ find_minsert k k v _ (by simp), if_pos rfl]

/-- A write leaves every other key alone. -/
theorem mgetD_msetD_ne (d : Nat → V) (m : SMap V) (k k' : Nat) (v : V) (h : k' ≠ k) :
    mgetD d (msetD d m k v) k' = mgetD d m k' := by
  unfold mgetD msetD
  by_cases e : v = d k
  · simp [e, find_filter_ne k k' m h]
  · simp only [if_neg e]
    rw [find_minsert k k' v _ (by simp), if_neg h, find_filter_ne k k' m h]

/-- Both cases of a read after a write. -/
theorem mgetD_msetD (d : Nat → V) (m : SMap V) (k k' : Nat) (v : V) :
    mgetD d (msetD d m k v) k' = if k' = k then v else mgetD d m k' := by
  by_cases h : k' = k
  · subst h; simp [mgetD_msetD_same]
  · simp [h, mgetD_msetD_ne]

/-- Both cases, with one constant default. -/
@[simp] theorem mget_mset (d : V) (m : SMap V) (k k' : Nat) (v : V) :
    mget d (mset d m k v) k' = if k' = k then v else mget d m k' := mgetD_msetD _ m k k' v

omit [DecidableEq V] in
@[simp] theorem mget_nil (d : V) (k : Nat) : mget d ([] : SMap V) k = d := rfl

theorem mwf_iff (d : Nat → V) (m : SMap V) :
    mwf d m = true ↔ (∀ c ∈ m, c.2 ≠ d c.1) ∧ m.Pairwise (fun a b => a.1 < b.1) := by
  induction m with
  | nil => simp [mwf]
  | cons c r ih =>
    cases r with
    | nil => simp [mwf]
    | cons c' r =>
      rw [mwf, Bool.and_eq_true, Bool.and_eq_true, ih, List.pairwise_cons (a := c)]
      constructor
      · rintro ⟨⟨h1, h2⟩, h3, h4⟩
        refine ⟨?_, ?_, h4⟩
        · intro x hx
          rcases List.mem_cons.1 hx with rfl | hx
          · simpa using h1
          · exact h3 x hx
        · intro x hx
          have h2 : c.1 < c'.1 := by simpa using h2
          rcases List.mem_cons.1 hx with rfl | hx
          · exact h2
          · exact Nat.lt_trans h2 ((List.pairwise_cons.1 h4).1 x hx)
      · rintro ⟨h1, h2, h3⟩
        exact ⟨⟨by simpa using h1 c (by simp), by simpa using h2 c' (by simp)⟩, fun x hx => h1 x (by simp [hx]), h3⟩

omit [DecidableEq V] in
theorem pairwise_minsert (k : Nat) (v : V) (m : SMap V) (h : ∀ c ∈ m, c.1 ≠ k)
    (hp : m.Pairwise (fun a b => a.1 < b.1)) : (minsert k v m).Pairwise (fun a b => a.1 < b.1) := by
  induction m with
  | nil => simp [minsert]
  | cons c r ih =>
    rw [List.pairwise_cons] at hp
    unfold minsert
    by_cases hk : k < c.1
    · rw [if_pos hk, List.pairwise_cons, List.pairwise_cons]
      refine ⟨?_, hp⟩
      intro x hx
      rcases List.mem_cons.1 hx with rfl | hx
      · exact hk
      · exact Nat.lt_trans hk (hp.1 x hx)
    · rw [if_neg hk, List.pairwise_cons]
      refine ⟨?_, ih (fun x hx => h x (by simp [hx])) hp.2⟩
      have hlt : c.1 < k := Nat.lt_of_le_of_ne (Nat.le_of_not_lt hk) (h c (by simp))
      intro x hx
      have : x = (k, v) ∨ x ∈ r := by
        clear ih h hp hlt hk
        induction r with
        | nil => simpa [minsert] using hx
        | cons y r ih =>
          unfold minsert at hx
          by_cases hy : k < y.1
          · rw [if_pos hy] at hx; simpa using hx
          · rw [if_neg hy] at hx
            rcases List.mem_cons.1 hx with rfl | hx
            · simp
            · rcases ih hx with h | h
              · exact Or.inl h
              · exact Or.inr (by simp [h])
      rcases this with rfl | hx
      · exact hlt
      · exact hp.1 x hx

omit [DecidableEq V] in
theorem mem_minsert (k : Nat) (v : V) (m : SMap V) (x : Nat × V) (hx : x ∈ minsert k v m) : x = (k, v) ∨ x ∈ m := by
  induction m with
  | nil => simpa [minsert] using hx
  | cons c r ih =>
    unfold minsert at hx
    by_cases hk : k < c.1
    · rw [if_pos hk] at hx; simpa using hx
    · rw [if_neg hk] at hx
      rcases List.mem_cons.1 hx with rfl | hx
      · simp
      · rcases ih hx with h | h
        · exact Or.inl h
        · exact Or.inr (by simp [h])

/-- A write keeps the canonical form. -/
theorem mwf_msetD (d : Nat → V) (m : SMap V) (k : Nat) (v : V) (h : mwf d m = true) : mwf d (msetD d m k v) = true := by
  rw [mwf_iff] at h ⊢
  have hf : (m.filter (fun c => c.1 != k)).Pairwise (fun a b => a.1 < b.1) := h.2.sublist List.filter_sublist
  unfold msetD
  by_cases e : v = d k
  · simp only [e, if_true]
    exact ⟨fun c hc => h.1 c (List.mem_of_mem_filter hc), hf⟩
  · simp only [if_neg e]
    refine ⟨?_, pairwise_minsert k v _ (by simp) hf⟩
    intro c hc
    rcases mem_minsert k v _ c hc with rfl | hc
    · exact e
    · exact h.1 c (List.mem_of_mem_filter hc)

end maps

/-! ## The segment store -/

/-- Writing bytes keeps the canonical form. -/
theorem mwf_storeWrite (bs : List Byte) : ∀ (m : List Host.Cell) (a : Nat), mwf storeDefault m = true →
    mwf storeDefault (storeWrite m a bs) = true := by
  induction bs with
  | nil => intro m a h; exact h
  | cons b r ih => intro m a h; exact ih _ _ (mwf_msetD _ m a b h)

/-- A byte outside the written ones reads as before. -/
theorem storeByte_storeWrite_out (bs : List Byte) : ∀ (m : List Host.Cell) (a k : Nat), k < a ∨ a + bs.length ≤ k →
    storeByte (storeWrite m a bs) k = storeByte m k := by
  induction bs with
  | nil => intro m a k _; rfl
  | cons b r ih =>
    intro m a k h
    have hl : (b :: r).length = r.length + 1 := rfl
    have h1 : storeByte (storeWrite m a (b :: r)) k = storeByte (msetD storeDefault m a b) k := by
      show storeByte (storeWrite _ (a + 1) r) k = _
      exact ih _ _ _ (by omega)
    rw [h1]
    exact mgetD_msetD_ne _ m a k b (by omega)

/-- The written bytes read back. -/
theorem storeByte_storeWrite_in (bs : List Byte) : ∀ (m : List Host.Cell) (a i : Nat) (h : i < bs.length),
    storeByte (storeWrite m a bs) (a + i) = bs[i] := by
  induction bs with
  | nil => intro m a i h; simp at h
  | cons b r ih =>
    intro m a i h
    cases i with
    | zero =>
      show storeByte (storeWrite _ (a + 1) r) a = b
      rw [storeByte_storeWrite_out _ _ _ _ (by omega)]
      exact mgetD_msetD_same _ m a b
    | succ i =>
      have hi : i < r.length := by simpa using h
      show storeByte (storeWrite _ (a + 1) r) (a + (i + 1)) = r[i]
      rw [show a + (i + 1) = a + 1 + i by omega]
      exact ih _ _ i hi

end Sys2Proof.Machine
end

