-- ==== Sys2Proof/Laws/State.lean ====
section
/-!
SUPPORT. Sys2Proof/Laws/State.lean: what each shared update of the device leaves alone: one lemma per field, so that no later proof
unfolds a record update. A lemma is missing where the update may change that field.
-/
namespace Sys2Proof.Machine

/-- What one step of a fold leaves alone, the fold leaves alone. -/
theorem foldl_keeps {A B : Type} (f : Dev → A → Dev) (p : Dev → B) (h : ∀ d a, p (f d a) = p d) (l : List A) :
    ∀ d, p (l.foldl f d) = p d := by
  induction l with
  | nil => intro d; rfl
  | cons a r ih => intro d; rw [List.foldl_cons, ih, h]

@[simp] theorem Dev.setReg_keeps (d : Dev) (a : Nat) (w : Word) :
    (d.setReg a w).stage = d.stage ∧ (d.setReg a w).shHost = d.shHost ∧ (d.setReg a w).shSpi = d.shSpi ∧
    (d.setReg a w).shWin = d.shWin ∧ (d.setReg a w).t = d.t ∧ (d.setReg a w).cal = d.cal ∧ (d.setReg a w).boot = d.boot ∧
    (d.setReg a w).pwr = d.pwr ∧ (d.setReg a w).clk = d.clk ∧ (d.setReg a w).hst = d.hst ∧ (d.setReg a w).adm = d.adm ∧
    (d.setReg a w).jobs = d.jobs ∧ (d.setReg a w).mram = d.mram ∧ (d.setReg a w).ldg = d.ldg ∧ (d.setReg a w).trg = d.trg ∧
    (d.setReg a w).po = d.po ∧ (d.setReg a w).sp = d.sp ∧ (d.setReg a w).hp = d.hp ∧ (d.setReg a w).tnk = d.tnk ∧
    (d.setReg a w).scc = d.scc ∧ (d.setReg a w).wr = d.wr ∧ (d.setReg a w).fen = d.fen ∧ (d.setReg a w).asy = d.asy ∧
    (d.setReg a w).out = d.out ∧ (d.setReg a w).tap = d.tap ∧ (d.setReg a w).draws = d.draws := by
  exact ⟨rfl, rfl, rfl, rfl, rfl, rfl, rfl, rfl, rfl, rfl, rfl, rfl, rfl, rfl, rfl, rfl, rfl, rfl, rfl, rfl, rfl, rfl, rfl, rfl, rfl, rfl⟩

@[simp] theorem Dev.setStg_keeps (d : Dev) (a : Nat) (w : Word) :
    (d.setStg a w).regs = d.regs ∧ (d.setStg a w).shHost = d.shHost ∧ (d.setStg a w).shSpi = d.shSpi ∧
    (d.setStg a w).shWin = d.shWin ∧ (d.setStg a w).t = d.t ∧ (d.setStg a w).cal = d.cal ∧ (d.setStg a w).boot = d.boot ∧
    (d.setStg a w).pwr = d.pwr ∧ (d.setStg a w).clk = d.clk ∧ (d.setStg a w).hst = d.hst ∧ (d.setStg a w).adm = d.adm ∧
    (d.setStg a w).jobs = d.jobs ∧ (d.setStg a w).mram = d.mram ∧ (d.setStg a w).ldg = d.ldg ∧ (d.setStg a w).trg = d.trg ∧
    (d.setStg a w).po = d.po ∧ (d.setStg a w).sp = d.sp ∧ (d.setStg a w).hp = d.hp ∧ (d.setStg a w).tnk = d.tnk ∧
    (d.setStg a w).scc = d.scc ∧ (d.setStg a w).wr = d.wr ∧ (d.setStg a w).fen = d.fen ∧ (d.setStg a w).asy = d.asy ∧
    (d.setStg a w).out = d.out ∧ (d.setStg a w).tap = d.tap ∧ (d.setStg a w).draws = d.draws := by
  exact ⟨rfl, rfl, rfl, rfl, rfl, rfl, rfl, rfl, rfl, rfl, rfl, rfl, rfl, rfl, rfl, rfl, rfl, rfl, rfl, rfl, rfl, rfl, rfl, rfl, rfl, rfl⟩

@[simp] theorem Dev.setFld_keeps (d : Dev) (f : Fld) (v : Nat) :
    (d.setFld f v).stage = d.stage ∧ (d.setFld f v).shHost = d.shHost ∧ (d.setFld f v).shSpi = d.shSpi ∧
    (d.setFld f v).shWin = d.shWin ∧ (d.setFld f v).t = d.t ∧ (d.setFld f v).cal = d.cal ∧ (d.setFld f v).boot = d.boot ∧
    (d.setFld f v).pwr = d.pwr ∧ (d.setFld f v).clk = d.clk ∧ (d.setFld f v).hst = d.hst ∧ (d.setFld f v).adm = d.adm ∧
    (d.setFld f v).jobs = d.jobs ∧ (d.setFld f v).mram = d.mram ∧ (d.setFld f v).ldg = d.ldg ∧ (d.setFld f v).trg = d.trg ∧
    (d.setFld f v).po = d.po ∧ (d.setFld f v).sp = d.sp ∧ (d.setFld f v).hp = d.hp ∧ (d.setFld f v).tnk = d.tnk ∧
    (d.setFld f v).scc = d.scc ∧ (d.setFld f v).wr = d.wr ∧ (d.setFld f v).fen = d.fen ∧ (d.setFld f v).asy = d.asy ∧
    (d.setFld f v).out = d.out ∧ (d.setFld f v).tap = d.tap ∧ (d.setFld f v).draws = d.draws := by
  exact ⟨rfl, rfl, rfl, rfl, rfl, rfl, rfl, rfl, rfl, rfl, rfl, rfl, rfl, rfl, rfl, rfl, rfl, rfl, rfl, rfl, rfl, rfl, rfl, rfl, rfl, rfl⟩

@[simp] theorem Dev.setFlag_keeps (d : Dev) (f : Fld) (b : Bool) :
    (d.setFlag f b).stage = d.stage ∧ (d.setFlag f b).shHost = d.shHost ∧ (d.setFlag f b).shSpi = d.shSpi ∧
    (d.setFlag f b).shWin = d.shWin ∧ (d.setFlag f b).t = d.t ∧ (d.setFlag f b).cal = d.cal ∧ (d.setFlag f b).boot = d.boot ∧
    (d.setFlag f b).pwr = d.pwr ∧ (d.setFlag f b).clk = d.clk ∧ (d.setFlag f b).hst = d.hst ∧ (d.setFlag f b).adm = d.adm ∧
    (d.setFlag f b).jobs = d.jobs ∧ (d.setFlag f b).mram = d.mram ∧ (d.setFlag f b).ldg = d.ldg ∧ (d.setFlag f b).trg = d.trg ∧
    (d.setFlag f b).po = d.po ∧ (d.setFlag f b).sp = d.sp ∧ (d.setFlag f b).hp = d.hp ∧ (d.setFlag f b).tnk = d.tnk ∧
    (d.setFlag f b).scc = d.scc ∧ (d.setFlag f b).wr = d.wr ∧ (d.setFlag f b).fen = d.fen ∧ (d.setFlag f b).asy = d.asy ∧
    (d.setFlag f b).out = d.out ∧ (d.setFlag f b).tap = d.tap ∧ (d.setFlag f b).draws = d.draws := by
  exact ⟨rfl, rfl, rfl, rfl, rfl, rfl, rfl, rfl, rfl, rfl, rfl, rfl, rfl, rfl, rfl, rfl, rfl, rfl, rfl, rfl, rfl, rfl, rfl, rfl, rfl, rfl⟩

@[simp] theorem Dev.addSat_keeps (d : Dev) (f : Fld) (n : Nat) :
    (d.addSat f n).stage = d.stage ∧ (d.addSat f n).shHost = d.shHost ∧ (d.addSat f n).shSpi = d.shSpi ∧
    (d.addSat f n).shWin = d.shWin ∧ (d.addSat f n).t = d.t ∧ (d.addSat f n).cal = d.cal ∧ (d.addSat f n).boot = d.boot ∧
    (d.addSat f n).pwr = d.pwr ∧ (d.addSat f n).clk = d.clk ∧ (d.addSat f n).hst = d.hst ∧ (d.addSat f n).adm = d.adm ∧
    (d.addSat f n).jobs = d.jobs ∧ (d.addSat f n).mram = d.mram ∧ (d.addSat f n).ldg = d.ldg ∧ (d.addSat f n).trg = d.trg ∧
    (d.addSat f n).po = d.po ∧ (d.addSat f n).sp = d.sp ∧ (d.addSat f n).hp = d.hp ∧ (d.addSat f n).tnk = d.tnk ∧
    (d.addSat f n).scc = d.scc ∧ (d.addSat f n).wr = d.wr ∧ (d.addSat f n).fen = d.fen ∧ (d.addSat f n).asy = d.asy ∧
    (d.addSat f n).out = d.out ∧ (d.addSat f n).tap = d.tap ∧ (d.addSat f n).draws = d.draws := by
  exact ⟨rfl, rfl, rfl, rfl, rfl, rfl, rfl, rfl, rfl, rfl, rfl, rfl, rfl, rfl, rfl, rfl, rfl, rfl, rfl, rfl, rfl, rfl, rfl, rfl, rfl, rfl⟩

@[simp] theorem Dev.addWrap_keeps (d : Dev) (f : Fld) (n : Nat) :
    (d.addWrap f n).stage = d.stage ∧ (d.addWrap f n).shHost = d.shHost ∧ (d.addWrap f n).shSpi = d.shSpi ∧
    (d.addWrap f n).shWin = d.shWin ∧ (d.addWrap f n).t = d.t ∧ (d.addWrap f n).cal = d.cal ∧ (d.addWrap f n).boot = d.boot ∧
    (d.addWrap f n).pwr = d.pwr ∧ (d.addWrap f n).clk = d.clk ∧ (d.addWrap f n).hst = d.hst ∧ (d.addWrap f n).adm = d.adm ∧
    (d.addWrap f n).jobs = d.jobs ∧ (d.addWrap f n).mram = d.mram ∧ (d.addWrap f n).ldg = d.ldg ∧ (d.addWrap f n).trg = d.trg ∧
    (d.addWrap f n).po = d.po ∧ (d.addWrap f n).sp = d.sp ∧ (d.addWrap f n).hp = d.hp ∧ (d.addWrap f n).tnk = d.tnk ∧
    (d.addWrap f n).scc = d.scc ∧ (d.addWrap f n).wr = d.wr ∧ (d.addWrap f n).fen = d.fen ∧ (d.addWrap f n).asy = d.asy ∧
    (d.addWrap f n).out = d.out ∧ (d.addWrap f n).tap = d.tap ∧ (d.addWrap f n).draws = d.draws := by
  exact ⟨rfl, rfl, rfl, rfl, rfl, rfl, rfl, rfl, rfl, rfl, rfl, rfl, rfl, rfl, rfl, rfl, rfl, rfl, rfl, rfl, rfl, rfl, rfl, rfl, rfl, rfl⟩

@[simp] theorem Dev.setNum_keeps (d : Dev) (a v : Nat) :
    (d.setNum a v).stage = d.stage ∧ (d.setNum a v).shHost = d.shHost ∧ (d.setNum a v).shSpi = d.shSpi ∧
    (d.setNum a v).shWin = d.shWin ∧ (d.setNum a v).t = d.t ∧ (d.setNum a v).cal = d.cal ∧ (d.setNum a v).boot = d.boot ∧
    (d.setNum a v).pwr = d.pwr ∧ (d.setNum a v).clk = d.clk ∧ (d.setNum a v).hst = d.hst ∧ (d.setNum a v).adm = d.adm ∧
    (d.setNum a v).jobs = d.jobs ∧ (d.setNum a v).mram = d.mram ∧ (d.setNum a v).ldg = d.ldg ∧ (d.setNum a v).trg = d.trg ∧
    (d.setNum a v).po = d.po ∧ (d.setNum a v).sp = d.sp ∧ (d.setNum a v).hp = d.hp ∧ (d.setNum a v).tnk = d.tnk ∧
    (d.setNum a v).scc = d.scc ∧ (d.setNum a v).wr = d.wr ∧ (d.setNum a v).fen = d.fen ∧ (d.setNum a v).asy = d.asy ∧
    (d.setNum a v).out = d.out ∧ (d.setNum a v).tap = d.tap ∧ (d.setNum a v).draws = d.draws := by
  exact ⟨rfl, rfl, rfl, rfl, rfl, rfl, rfl, rfl, rfl, rfl, rfl, rfl, rfl, rfl, rfl, rfl, rfl, rfl, rfl, rfl, rfl, rfl, rfl, rfl, rfl, rfl⟩

@[simp] theorem Dev.setNum2_keeps (d : Dev) (lo hi v : Nat) :
    (d.setNum2 lo hi v).stage = d.stage ∧ (d.setNum2 lo hi v).shHost = d.shHost ∧ (d.setNum2 lo hi v).shSpi = d.shSpi ∧
    (d.setNum2 lo hi v).shWin = d.shWin ∧ (d.setNum2 lo hi v).t = d.t ∧ (d.setNum2 lo hi v).cal = d.cal ∧
    (d.setNum2 lo hi v).boot = d.boot ∧ (d.setNum2 lo hi v).pwr = d.pwr ∧ (d.setNum2 lo hi v).clk = d.clk ∧
    (d.setNum2 lo hi v).hst = d.hst ∧ (d.setNum2 lo hi v).adm = d.adm ∧ (d.setNum2 lo hi v).jobs = d.jobs ∧
    (d.setNum2 lo hi v).mram = d.mram ∧ (d.setNum2 lo hi v).ldg = d.ldg ∧ (d.setNum2 lo hi v).trg = d.trg ∧
    (d.setNum2 lo hi v).po = d.po ∧ (d.setNum2 lo hi v).sp = d.sp ∧ (d.setNum2 lo hi v).hp = d.hp ∧
    (d.setNum2 lo hi v).tnk = d.tnk ∧ (d.setNum2 lo hi v).scc = d.scc ∧ (d.setNum2 lo hi v).wr = d.wr ∧
    (d.setNum2 lo hi v).fen = d.fen ∧ (d.setNum2 lo hi v).asy = d.asy ∧ (d.setNum2 lo hi v).out = d.out ∧
    (d.setNum2 lo hi v).tap = d.tap ∧ (d.setNum2 lo hi v).draws = d.draws := by
  exact ⟨rfl, rfl, rfl, rfl, rfl, rfl, rfl, rfl, rfl, rfl, rfl, rfl, rfl, rfl, rfl, rfl, rfl, rfl, rfl, rfl, rfl, rfl, rfl, rfl, rfl, rfl⟩

@[simp] theorem Dev.emit_keeps (d : Dev) (o : Out) :
    (d.emit o).regs = d.regs ∧ (d.emit o).stage = d.stage ∧ (d.emit o).shHost = d.shHost ∧ (d.emit o).shSpi = d.shSpi ∧
    (d.emit o).shWin = d.shWin ∧ (d.emit o).t = d.t ∧ (d.emit o).cal = d.cal ∧ (d.emit o).boot = d.boot ∧
    (d.emit o).pwr = d.pwr ∧ (d.emit o).clk = d.clk ∧ (d.emit o).hst = d.hst ∧ (d.emit o).adm = d.adm ∧
    (d.emit o).jobs = d.jobs ∧ (d.emit o).mram = d.mram ∧ (d.emit o).ldg = d.ldg ∧ (d.emit o).trg = d.trg ∧
    (d.emit o).po = d.po ∧ (d.emit o).sp = d.sp ∧ (d.emit o).hp = d.hp ∧ (d.emit o).tnk = d.tnk ∧ (d.emit o).scc = d.scc ∧
    (d.emit o).wr = d.wr ∧ (d.emit o).fen = d.fen ∧ (d.emit o).asy = d.asy ∧ (d.emit o).tap = d.tap ∧
    (d.emit o).draws = d.draws := by
  exact ⟨rfl, rfl, rfl, rfl, rfl, rfl, rfl, rfl, rfl, rfl, rfl, rfl, rfl, rfl, rfl, rfl, rfl, rfl, rfl, rfl, rfl, rfl, rfl, rfl, rfl, rfl⟩

@[simp] theorem Dev.w1c_keeps (d : Dev) (a : Nat) (m w : Word) :
    (d.w1c a m w).stage = d.stage ∧ (d.w1c a m w).shHost = d.shHost ∧ (d.w1c a m w).shSpi = d.shSpi ∧
    (d.w1c a m w).shWin = d.shWin ∧ (d.w1c a m w).t = d.t ∧ (d.w1c a m w).cal = d.cal ∧ (d.w1c a m w).boot = d.boot ∧
    (d.w1c a m w).pwr = d.pwr ∧ (d.w1c a m w).clk = d.clk ∧ (d.w1c a m w).hst = d.hst ∧ (d.w1c a m w).adm = d.adm ∧
    (d.w1c a m w).jobs = d.jobs ∧ (d.w1c a m w).mram = d.mram ∧ (d.w1c a m w).ldg = d.ldg ∧ (d.w1c a m w).trg = d.trg ∧
    (d.w1c a m w).po = d.po ∧ (d.w1c a m w).sp = d.sp ∧ (d.w1c a m w).hp = d.hp ∧ (d.w1c a m w).tnk = d.tnk ∧
    (d.w1c a m w).scc = d.scc ∧ (d.w1c a m w).wr = d.wr ∧ (d.w1c a m w).fen = d.fen ∧ (d.w1c a m w).asy = d.asy ∧
    (d.w1c a m w).out = d.out ∧ (d.w1c a m w).tap = d.tap ∧ (d.w1c a m w).draws = d.draws := by
  exact ⟨rfl, rfl, rfl, rfl, rfl, rfl, rfl, rfl, rfl, rfl, rfl, rfl, rfl, rfl, rfl, rfl, rfl, rfl, rfl, rfl, rfl, rfl, rfl, rfl, rfl, rfl⟩

@[simp] theorem Dev.setDom_keeps (d : Dev) (k : Nat) (v : DomSt) :
    (d.setDom k v).regs = d.regs ∧ (d.setDom k v).stage = d.stage ∧ (d.setDom k v).shHost = d.shHost ∧
    (d.setDom k v).shSpi = d.shSpi ∧ (d.setDom k v).shWin = d.shWin ∧ (d.setDom k v).t = d.t ∧ (d.setDom k v).cal = d.cal ∧
    (d.setDom k v).boot = d.boot ∧ (d.setDom k v).pwr = d.pwr ∧ (d.setDom k v).clk = d.clk ∧ (d.setDom k v).hst = d.hst ∧
    (d.setDom k v).adm = d.adm ∧ (d.setDom k v).jobs = d.jobs ∧ (d.setDom k v).mram = d.mram ∧ (d.setDom k v).ldg = d.ldg ∧
    (d.setDom k v).trg = d.trg ∧ (d.setDom k v).po = d.po ∧ (d.setDom k v).sp = d.sp ∧ (d.setDom k v).hp = d.hp ∧
    (d.setDom k v).tnk = d.tnk ∧ (d.setDom k v).scc = d.scc ∧ (d.setDom k v).wr = d.wr ∧ (d.setDom k v).asy = d.asy ∧
    (d.setDom k v).out = d.out ∧ (d.setDom k v).tap = d.tap ∧ (d.setDom k v).draws = d.draws := by
  exact ⟨rfl, rfl, rfl, rfl, rfl, rfl, rfl, rfl, rfl, rfl, rfl, rfl, rfl, rfl, rfl, rfl, rfl, rfl, rfl, rfl, rfl, rfl, rfl, rfl, rfl, rfl⟩

@[simp] theorem Dev.setHp_keeps (d : Dev) (p : Nat) (h : HpSt) :
    (d.setHp p h).regs = d.regs ∧ (d.setHp p h).stage = d.stage ∧ (d.setHp p h).shHost = d.shHost ∧
    (d.setHp p h).shSpi = d.shSpi ∧ (d.setHp p h).shWin = d.shWin ∧ (d.setHp p h).t = d.t ∧ (d.setHp p h).cal = d.cal ∧
    (d.setHp p h).boot = d.boot ∧ (d.setHp p h).pwr = d.pwr ∧ (d.setHp p h).clk = d.clk ∧ (d.setHp p h).hst = d.hst ∧
    (d.setHp p h).adm = d.adm ∧ (d.setHp p h).jobs = d.jobs ∧ (d.setHp p h).mram = d.mram ∧ (d.setHp p h).ldg = d.ldg ∧
    (d.setHp p h).trg = d.trg ∧ (d.setHp p h).po = d.po ∧ (d.setHp p h).sp = d.sp ∧ (d.setHp p h).tnk = d.tnk ∧
    (d.setHp p h).scc = d.scc ∧ (d.setHp p h).wr = d.wr ∧ (d.setHp p h).fen = d.fen ∧ (d.setHp p h).asy = d.asy ∧
    (d.setHp p h).out = d.out ∧ (d.setHp p h).tap = d.tap ∧ (d.setHp p h).draws = d.draws := by
  exact ⟨rfl, rfl, rfl, rfl, rfl, rfl, rfl, rfl, rfl, rfl, rfl, rfl, rfl, rfl, rfl, rfl, rfl, rfl, rfl, rfl, rfl, rfl, rfl, rfl, rfl, rfl⟩

@[simp] theorem Dev.setOut_keeps (d : Dev) (n : Nat) (o : OutSt) :
    (d.setOut n o).regs = d.regs ∧ (d.setOut n o).stage = d.stage ∧ (d.setOut n o).shHost = d.shHost ∧
    (d.setOut n o).shSpi = d.shSpi ∧ (d.setOut n o).shWin = d.shWin ∧ (d.setOut n o).t = d.t ∧ (d.setOut n o).cal = d.cal ∧
    (d.setOut n o).boot = d.boot ∧ (d.setOut n o).pwr = d.pwr ∧ (d.setOut n o).clk = d.clk ∧ (d.setOut n o).hst = d.hst ∧
    (d.setOut n o).adm = d.adm ∧ (d.setOut n o).jobs = d.jobs ∧ (d.setOut n o).mram = d.mram ∧ (d.setOut n o).ldg = d.ldg ∧
    (d.setOut n o).trg = d.trg ∧ (d.setOut n o).sp = d.sp ∧ (d.setOut n o).hp = d.hp ∧ (d.setOut n o).tnk = d.tnk ∧
    (d.setOut n o).scc = d.scc ∧ (d.setOut n o).wr = d.wr ∧ (d.setOut n o).fen = d.fen ∧ (d.setOut n o).asy = d.asy ∧
    (d.setOut n o).out = d.out ∧ (d.setOut n o).tap = d.tap ∧ (d.setOut n o).draws = d.draws := by
  exact ⟨rfl, rfl, rfl, rfl, rfl, rfl, rfl, rfl, rfl, rfl, rfl, rfl, rfl, rfl, rfl, rfl, rfl, rfl, rfl, rfl, rfl, rfl, rfl, rfl, rfl, rfl⟩

@[simp] theorem Dev.dueRec_keeps (d : Dev) (p : Nat) (r : List Rec) :
    (d.dueRec p r).regs = d.regs ∧ (d.dueRec p r).stage = d.stage ∧ (d.dueRec p r).shHost = d.shHost ∧
    (d.dueRec p r).shSpi = d.shSpi ∧ (d.dueRec p r).shWin = d.shWin ∧ (d.dueRec p r).t = d.t ∧ (d.dueRec p r).cal = d.cal ∧
    (d.dueRec p r).boot = d.boot ∧ (d.dueRec p r).pwr = d.pwr ∧ (d.dueRec p r).clk = d.clk ∧ (d.dueRec p r).hst = d.hst ∧
    (d.dueRec p r).adm = d.adm ∧ (d.dueRec p r).jobs = d.jobs ∧ (d.dueRec p r).mram = d.mram ∧ (d.dueRec p r).trg = d.trg ∧
    (d.dueRec p r).po = d.po ∧ (d.dueRec p r).sp = d.sp ∧ (d.dueRec p r).hp = d.hp ∧ (d.dueRec p r).tnk = d.tnk ∧
    (d.dueRec p r).scc = d.scc ∧ (d.dueRec p r).wr = d.wr ∧ (d.dueRec p r).fen = d.fen ∧ (d.dueRec p r).asy = d.asy ∧
    (d.dueRec p r).out = d.out ∧ (d.dueRec p r).tap = d.tap ∧ (d.dueRec p r).draws = d.draws := by
  exact ⟨rfl, rfl, rfl, rfl, rfl, rfl, rfl, rfl, rfl, rfl, rfl, rfl, rfl, rfl, rfl, rfl, rfl, rfl, rfl, rfl, rfl, rfl, rfl, rfl, rfl, rfl⟩

@[simp] theorem Dev.modJob_keeps (d : Dev) (h : Nat) (f : Job → Job) :
    (d.modJob h f).regs = d.regs ∧ (d.modJob h f).stage = d.stage ∧ (d.modJob h f).shHost = d.shHost ∧
    (d.modJob h f).shSpi = d.shSpi ∧ (d.modJob h f).shWin = d.shWin ∧ (d.modJob h f).t = d.t ∧ (d.modJob h f).cal = d.cal ∧
    (d.modJob h f).boot = d.boot ∧ (d.modJob h f).pwr = d.pwr ∧ (d.modJob h f).clk = d.clk ∧ (d.modJob h f).hst = d.hst ∧
    (d.modJob h f).adm = d.adm ∧ (d.modJob h f).mram = d.mram ∧ (d.modJob h f).ldg = d.ldg ∧ (d.modJob h f).trg = d.trg ∧
    (d.modJob h f).po = d.po ∧ (d.modJob h f).sp = d.sp ∧ (d.modJob h f).hp = d.hp ∧ (d.modJob h f).tnk = d.tnk ∧
    (d.modJob h f).scc = d.scc ∧ (d.modJob h f).wr = d.wr ∧ (d.modJob h f).fen = d.fen ∧ (d.modJob h f).asy = d.asy ∧
    (d.modJob h f).out = d.out ∧ (d.modJob h f).tap = d.tap ∧ (d.modJob h f).draws = d.draws := by
  exact ⟨rfl, rfl, rfl, rfl, rfl, rfl, rfl, rfl, rfl, rfl, rfl, rfl, rfl, rfl, rfl, rfl, rfl, rfl, rfl, rfl, rfl, rfl, rfl, rfl, rfl, rfl⟩

/-- What is sent is last in line. -/
@[simp] theorem Dev.emit_out (d : Dev) (o : Out) : (d.emit o).out = d.out ++ [o] := rfl

@[simp] theorem Dev.bulkPut_keeps (d : Dev) (p k : Nat) (l : List Word) :
    (d.bulkPut p k l).regs = d.regs ∧ (d.bulkPut p k l).stage = d.stage ∧ (d.bulkPut p k l).shHost = d.shHost ∧
    (d.bulkPut p k l).shSpi = d.shSpi ∧ (d.bulkPut p k l).shWin = d.shWin ∧ (d.bulkPut p k l).t = d.t ∧
    (d.bulkPut p k l).cal = d.cal ∧ (d.bulkPut p k l).boot = d.boot ∧ (d.bulkPut p k l).pwr = d.pwr ∧
    (d.bulkPut p k l).clk = d.clk ∧ (d.bulkPut p k l).hst = d.hst ∧ (d.bulkPut p k l).adm = d.adm ∧
    (d.bulkPut p k l).jobs = d.jobs ∧ (d.bulkPut p k l).mram = d.mram ∧ (d.bulkPut p k l).ldg = d.ldg ∧
    (d.bulkPut p k l).trg = d.trg ∧ (d.bulkPut p k l).po = d.po ∧ (d.bulkPut p k l).sp = d.sp ∧ (d.bulkPut p k l).hp = d.hp ∧
    (d.bulkPut p k l).tnk = d.tnk ∧ (d.bulkPut p k l).scc = d.scc ∧ (d.bulkPut p k l).fen = d.fen ∧
    (d.bulkPut p k l).asy = d.asy ∧ (d.bulkPut p k l).tap = d.tap ∧ (d.bulkPut p k l).draws = d.draws := by
  unfold Dev.bulkPut
  (repeat' split) <;> simp

@[simp] theorem Dev.sendHeader_keeps (d : Dev) (x y : Nat) :
    (d.sendHeader x y).regs = d.regs ∧ (d.sendHeader x y).stage = d.stage ∧ (d.sendHeader x y).shHost = d.shHost ∧
    (d.sendHeader x y).shSpi = d.shSpi ∧ (d.sendHeader x y).shWin = d.shWin ∧ (d.sendHeader x y).t = d.t ∧
    (d.sendHeader x y).cal = d.cal ∧ (d.sendHeader x y).boot = d.boot ∧ (d.sendHeader x y).pwr = d.pwr ∧
    (d.sendHeader x y).clk = d.clk ∧ (d.sendHeader x y).hst = d.hst ∧ (d.sendHeader x y).adm = d.adm ∧
    (d.sendHeader x y).jobs = d.jobs ∧ (d.sendHeader x y).mram = d.mram ∧ (d.sendHeader x y).ldg = d.ldg ∧
    (d.sendHeader x y).trg = d.trg ∧ (d.sendHeader x y).po = d.po ∧ (d.sendHeader x y).sp = d.sp ∧ (d.sendHeader x y).hp = d.hp ∧
    (d.sendHeader x y).tnk = d.tnk ∧ (d.sendHeader x y).scc = d.scc ∧ (d.sendHeader x y).wr = d.wr ∧
    (d.sendHeader x y).fen = d.fen ∧ (d.sendHeader x y).asy = d.asy ∧ (d.sendHeader x y).tap = d.tap ∧
    (d.sendHeader x y).draws = d.draws := by
  unfold Dev.sendHeader
  split <;> simp

@[simp] theorem Dev.raiseIrq_keeps (d : Dev) (v : Nat) :
    (d.raiseIrq v).stage = d.stage ∧ (d.raiseIrq v).shHost = d.shHost ∧ (d.raiseIrq v).shSpi = d.shSpi ∧
    (d.raiseIrq v).shWin = d.shWin ∧ (d.raiseIrq v).t = d.t ∧ (d.raiseIrq v).cal = d.cal ∧ (d.raiseIrq v).boot = d.boot ∧
    (d.raiseIrq v).pwr = d.pwr ∧ (d.raiseIrq v).clk = d.clk ∧ (d.raiseIrq v).hst = d.hst ∧ (d.raiseIrq v).adm = d.adm ∧
    (d.raiseIrq v).jobs = d.jobs ∧ (d.raiseIrq v).mram = d.mram ∧ (d.raiseIrq v).ldg = d.ldg ∧ (d.raiseIrq v).trg = d.trg ∧
    (d.raiseIrq v).po = d.po ∧ (d.raiseIrq v).sp = d.sp ∧ (d.raiseIrq v).hp = d.hp ∧ (d.raiseIrq v).tnk = d.tnk ∧
    (d.raiseIrq v).scc = d.scc ∧ (d.raiseIrq v).wr = d.wr ∧ (d.raiseIrq v).fen = d.fen ∧ (d.raiseIrq v).asy = d.asy ∧
    (d.raiseIrq v).tap = d.tap ∧ (d.raiseIrq v).draws = d.draws := by
  unfold Dev.raiseIrq; try dsimp only
  all_goals (repeat' split) <;> simp [*]

@[simp] theorem Dev.freeBlocks_keeps (d : Dev) (n : Nat) :
    (d.freeBlocks n).regs = d.regs ∧ (d.freeBlocks n).stage = d.stage ∧ (d.freeBlocks n).shHost = d.shHost ∧
    (d.freeBlocks n).shSpi = d.shSpi ∧ (d.freeBlocks n).shWin = d.shWin ∧ (d.freeBlocks n).t = d.t ∧
    (d.freeBlocks n).cal = d.cal ∧ (d.freeBlocks n).boot = d.boot ∧ (d.freeBlocks n).pwr = d.pwr ∧
    (d.freeBlocks n).clk = d.clk ∧ (d.freeBlocks n).hst = d.hst ∧ (d.freeBlocks n).adm = d.adm ∧
    (d.freeBlocks n).jobs = d.jobs ∧ (d.freeBlocks n).mram = d.mram ∧ (d.freeBlocks n).ldg = d.ldg ∧
    (d.freeBlocks n).trg = d.trg ∧ (d.freeBlocks n).po = d.po ∧ (d.freeBlocks n).sp = d.sp ∧ (d.freeBlocks n).hp = d.hp ∧
    (d.freeBlocks n).tnk = d.tnk ∧ (d.freeBlocks n).scc = d.scc ∧ (d.freeBlocks n).fen = d.fen ∧ (d.freeBlocks n).asy = d.asy ∧
    (d.freeBlocks n).out = d.out ∧ (d.freeBlocks n).tap = d.tap ∧ (d.freeBlocks n).draws = d.draws := by
  unfold Dev.freeBlocks; try dsimp only
  all_goals (repeat' split) <;> simp [*]

@[simp] theorem Dev.report_keeps (d : Dev) (s : Bool) (k t e : Nat) (m : Bool) :
    (d.report s k t e m).regs = d.regs ∧ (d.report s k t e m).stage = d.stage ∧ (d.report s k t e m).shHost = d.shHost ∧
    (d.report s k t e m).shSpi = d.shSpi ∧ (d.report s k t e m).shWin = d.shWin ∧ (d.report s k t e m).t = d.t ∧
    (d.report s k t e m).cal = d.cal ∧ (d.report s k t e m).boot = d.boot ∧ (d.report s k t e m).pwr = d.pwr ∧
    (d.report s k t e m).clk = d.clk ∧ (d.report s k t e m).hst = d.hst ∧ (d.report s k t e m).adm = d.adm ∧
    (d.report s k t e m).jobs = d.jobs ∧ (d.report s k t e m).mram = d.mram ∧ (d.report s k t e m).ldg = d.ldg ∧
    (d.report s k t e m).trg = d.trg ∧ (d.report s k t e m).po = d.po ∧ (d.report s k t e m).sp = d.sp ∧
    (d.report s k t e m).hp = d.hp ∧ (d.report s k t e m).tnk = d.tnk ∧ (d.report s k t e m).scc = d.scc ∧
    (d.report s k t e m).fen = d.fen ∧ (d.report s k t e m).asy = d.asy ∧ (d.report s k t e m).out = d.out ∧
    (d.report s k t e m).tap = d.tap ∧ (d.report s k t e m).draws = d.draws := by
  unfold Dev.report; try dsimp only
  all_goals (repeat' split) <;> simp [*]

@[simp] theorem Dev.outTrans_keeps (d : Dev) (n : Nat) (w : Option Bool) :
    (d.outTrans n w).stage = d.stage ∧ (d.outTrans n w).shHost = d.shHost ∧ (d.outTrans n w).shSpi = d.shSpi ∧
    (d.outTrans n w).shWin = d.shWin ∧ (d.outTrans n w).t = d.t ∧ (d.outTrans n w).cal = d.cal ∧
    (d.outTrans n w).boot = d.boot ∧ (d.outTrans n w).pwr = d.pwr ∧ (d.outTrans n w).clk = d.clk ∧
    (d.outTrans n w).hst = d.hst ∧ (d.outTrans n w).adm = d.adm ∧ (d.outTrans n w).jobs = d.jobs ∧
    (d.outTrans n w).mram = d.mram ∧ (d.outTrans n w).ldg = d.ldg ∧ (d.outTrans n w).trg = d.trg ∧ (d.outTrans n w).po = d.po ∧
    (d.outTrans n w).sp = d.sp ∧ (d.outTrans n w).hp = d.hp ∧ (d.outTrans n w).tnk = d.tnk ∧ (d.outTrans n w).scc = d.scc ∧
    (d.outTrans n w).fen = d.fen ∧ (d.outTrans n w).asy = d.asy ∧ (d.outTrans n w).tap = d.tap ∧
    (d.outTrans n w).draws = d.draws := by
  unfold Dev.outTrans; try dsimp only
  all_goals (repeat' split) <;> simp [*]

@[simp] theorem Dev.logFence_keeps (d : Dev) (k : Nat) (r : Reason) (c : Bool) :
    (d.logFence k r c).stage = d.stage ∧ (d.logFence k r c).shHost = d.shHost ∧ (d.logFence k r c).shSpi = d.shSpi ∧
    (d.logFence k r c).shWin = d.shWin ∧ (d.logFence k r c).t = d.t ∧ (d.logFence k r c).cal = d.cal ∧
    (d.logFence k r c).boot = d.boot ∧ (d.logFence k r c).pwr = d.pwr ∧ (d.logFence k r c).clk = d.clk ∧
    (d.logFence k r c).hst = d.hst ∧ (d.logFence k r c).adm = d.adm ∧ (d.logFence k r c).jobs = d.jobs ∧
    (d.logFence k r c).mram = d.mram ∧ (d.logFence k r c).ldg = d.ldg ∧ (d.logFence k r c).trg = d.trg ∧
    (d.logFence k r c).po = d.po ∧ (d.logFence k r c).sp = d.sp ∧ (d.logFence k r c).hp = d.hp ∧
    (d.logFence k r c).tnk = d.tnk ∧ (d.logFence k r c).scc = d.scc ∧
    (d.logFence k r c).asy = d.asy ∧ (d.logFence k r c).tap = d.tap ∧ (d.logFence k r c).draws = d.draws := by
  unfold Dev.logFence; dsimp only
  split <;> split <;> simp

@[simp] theorem Dev.raiseOne_keeps (d : Dev) (k : Nat) (r : Reason) :
    (d.raiseOne k r).stage = d.stage ∧ (d.raiseOne k r).shHost = d.shHost ∧ (d.raiseOne k r).shSpi = d.shSpi ∧
    (d.raiseOne k r).shWin = d.shWin ∧ (d.raiseOne k r).t = d.t ∧ (d.raiseOne k r).cal = d.cal ∧
    (d.raiseOne k r).boot = d.boot ∧ (d.raiseOne k r).pwr = d.pwr ∧ (d.raiseOne k r).clk = d.clk ∧
    (d.raiseOne k r).hst = d.hst ∧ (d.raiseOne k r).adm = d.adm ∧ (d.raiseOne k r).jobs = d.jobs ∧
    (d.raiseOne k r).mram = d.mram ∧ (d.raiseOne k r).ldg = d.ldg ∧ (d.raiseOne k r).trg = d.trg ∧ (d.raiseOne k r).po = d.po ∧
    (d.raiseOne k r).sp = d.sp ∧ (d.raiseOne k r).hp = d.hp ∧ (d.raiseOne k r).tnk = d.tnk ∧ (d.raiseOne k r).scc = d.scc ∧
    (d.raiseOne k r).asy = d.asy ∧ (d.raiseOne k r).tap = d.tap ∧
    (d.raiseOne k r).draws = d.draws := by
  unfold Dev.raiseOne; try dsimp only
  all_goals (repeat' split) <;> simp [*]

@[simp] theorem Dev.raiseCause_keeps (d : Dev) (k : Nat) (r : Reason) :
    (d.raiseCause k r).stage = d.stage ∧ (d.raiseCause k r).shHost = d.shHost ∧ (d.raiseCause k r).shSpi = d.shSpi ∧
    (d.raiseCause k r).shWin = d.shWin ∧ (d.raiseCause k r).t = d.t ∧ (d.raiseCause k r).cal = d.cal ∧
    (d.raiseCause k r).boot = d.boot ∧ (d.raiseCause k r).pwr = d.pwr ∧ (d.raiseCause k r).clk = d.clk ∧
    (d.raiseCause k r).hst = d.hst ∧ (d.raiseCause k r).adm = d.adm ∧ (d.raiseCause k r).jobs = d.jobs ∧
    (d.raiseCause k r).mram = d.mram ∧ (d.raiseCause k r).ldg = d.ldg ∧ (d.raiseCause k r).trg = d.trg ∧
    (d.raiseCause k r).po = d.po ∧ (d.raiseCause k r).sp = d.sp ∧ (d.raiseCause k r).hp = d.hp ∧
    (d.raiseCause k r).tnk = d.tnk ∧ (d.raiseCause k r).scc = d.scc ∧
    (d.raiseCause k r).asy = d.asy ∧ (d.raiseCause k r).tap = d.tap ∧ (d.raiseCause k r).draws = d.draws := by
  unfold Dev.raiseCause; dsimp only
  split
  · refine ⟨(foldl_keeps _ (fun d => d.stage) ?_ _ _).trans ?_, (foldl_keeps _ (fun d => d.shHost) ?_ _ _).trans ?_, (foldl_keeps _ (fun d => d.shSpi) ?_ _ _).trans ?_, (foldl_keeps _ (fun d => d.shWin) ?_ _ _).trans ?_, (foldl_keeps _ (fun d => d.t) ?_ _ _).trans ?_, (foldl_keeps _ (fun d => d.cal) ?_ _ _).trans ?_, (foldl_keeps _ (fun d => d.boot) ?_ _ _).trans ?_, (foldl_keeps _ (fun d => d.pwr) ?_ _ _).trans ?_, (foldl_keeps _ (fun d => d.clk) ?_ _ _).trans ?_, (foldl_keeps _ (fun d => d.hst) ?_ _ _).trans ?_, (foldl_keeps _ (fun d => d.adm) ?_ _ _).trans ?_, (foldl_keeps _ (fun d => d.jobs) ?_ _ _).trans ?_, (foldl_keeps _ (fun d => d.mram) ?_ _ _).trans ?_, (foldl_keeps _ (fun d => d.ldg) ?_ _ _).trans ?_, (foldl_keeps _ (fun d => d.trg) ?_ _ _).trans ?_, (foldl_keeps _ (fun d => d.po) ?_ _ _).trans ?_, (foldl_keeps _ (fun d => d.sp) ?_ _ _).trans ?_, (foldl_keeps _ (fun d => d.hp) ?_ _ _).trans ?_, (foldl_keeps _ (fun d => d.tnk) ?_ _ _).trans ?_, (foldl_keeps _ (fun d => d.scc) ?_ _ _).trans ?_, (foldl_keeps _ (fun d => d.asy) ?_ _ _).trans ?_, (foldl_keeps _ (fun d => d.tap) ?_ _ _).trans ?_, (foldl_keeps _ (fun d => d.draws) ?_ _ _).trans ?_⟩ <;> (intros; simp)
  · simp

@[simp] theorem Dev.raiseAll_keeps (d : Dev) (l : List (Nat × Reason)) :
    (d.raiseAll l).stage = d.stage ∧ (d.raiseAll l).shHost = d.shHost ∧ (d.raiseAll l).shSpi = d.shSpi ∧
    (d.raiseAll l).shWin = d.shWin ∧ (d.raiseAll l).t = d.t ∧ (d.raiseAll l).cal = d.cal ∧ (d.raiseAll l).boot = d.boot ∧
    (d.raiseAll l).pwr = d.pwr ∧ (d.raiseAll l).clk = d.clk ∧ (d.raiseAll l).hst = d.hst ∧ (d.raiseAll l).adm = d.adm ∧
    (d.raiseAll l).jobs = d.jobs ∧ (d.raiseAll l).mram = d.mram ∧ (d.raiseAll l).ldg = d.ldg ∧ (d.raiseAll l).trg = d.trg ∧
    (d.raiseAll l).po = d.po ∧ (d.raiseAll l).sp = d.sp ∧ (d.raiseAll l).hp = d.hp ∧ (d.raiseAll l).tnk = d.tnk ∧
    (d.raiseAll l).scc = d.scc ∧ (d.raiseAll l).asy = d.asy ∧ (d.raiseAll l).tap = d.tap ∧
    (d.raiseAll l).draws = d.draws := by
  unfold Dev.raiseAll
  refine ⟨foldl_keeps _ (fun d => d.stage) ?_ _ _, foldl_keeps _ (fun d => d.shHost) ?_ _ _, foldl_keeps _ (fun d => d.shSpi) ?_ _ _, foldl_keeps _ (fun d => d.shWin) ?_ _ _, foldl_keeps _ (fun d => d.t) ?_ _ _, foldl_keeps _ (fun d => d.cal) ?_ _ _, foldl_keeps _ (fun d => d.boot) ?_ _ _, foldl_keeps _ (fun d => d.pwr) ?_ _ _, foldl_keeps _ (fun d => d.clk) ?_ _ _, foldl_keeps _ (fun d => d.hst) ?_ _ _, foldl_keeps _ (fun d => d.adm) ?_ _ _, foldl_keeps _ (fun d => d.jobs) ?_ _ _, foldl_keeps _ (fun d => d.mram) ?_ _ _, foldl_keeps _ (fun d => d.ldg) ?_ _ _, foldl_keeps _ (fun d => d.trg) ?_ _ _, foldl_keeps _ (fun d => d.po) ?_ _ _, foldl_keeps _ (fun d => d.sp) ?_ _ _, foldl_keeps _ (fun d => d.hp) ?_ _ _, foldl_keeps _ (fun d => d.tnk) ?_ _ _, foldl_keeps _ (fun d => d.scc) ?_ _ _, foldl_keeps _ (fun d => d.asy) ?_ _ _, foldl_keeps _ (fun d => d.tap) ?_ _ _, foldl_keeps _ (fun d => d.draws) ?_ _ _⟩ <;> (intro d a; simp)

@[simp] theorem Dev.hpLink_keeps (d : Dev) (p n : Nat) :
    (d.hpLink p n).stage = d.stage ∧ (d.hpLink p n).shHost = d.shHost ∧ (d.hpLink p n).shSpi = d.shSpi ∧
    (d.hpLink p n).shWin = d.shWin ∧ (d.hpLink p n).t = d.t ∧ (d.hpLink p n).cal = d.cal ∧ (d.hpLink p n).boot = d.boot ∧
    (d.hpLink p n).pwr = d.pwr ∧ (d.hpLink p n).clk = d.clk ∧ (d.hpLink p n).hst = d.hst ∧ (d.hpLink p n).adm = d.adm ∧
    (d.hpLink p n).jobs = d.jobs ∧ (d.hpLink p n).mram = d.mram ∧ (d.hpLink p n).ldg = d.ldg ∧ (d.hpLink p n).trg = d.trg ∧
    (d.hpLink p n).po = d.po ∧ (d.hpLink p n).sp = d.sp ∧ (d.hpLink p n).tnk = d.tnk ∧ (d.hpLink p n).scc = d.scc ∧
    (d.hpLink p n).wr = d.wr ∧ (d.hpLink p n).fen = d.fen ∧ (d.hpLink p n).asy = d.asy ∧
    (d.hpLink p n).tap = d.tap ∧ (d.hpLink p n).draws = d.draws := by
  unfold Dev.hpLink; try dsimp only
  all_goals (repeat' split) <;> simp [*]

@[simp] theorem Dev.hpCut_keeps (d : Dev) (p : Nat) (r : Option Reason) :
    (d.hpCut p r).regs = d.regs ∧ (d.hpCut p r).stage = d.stage ∧ (d.hpCut p r).shHost = d.shHost ∧
    (d.hpCut p r).shSpi = d.shSpi ∧ (d.hpCut p r).shWin = d.shWin ∧ (d.hpCut p r).t = d.t ∧ (d.hpCut p r).cal = d.cal ∧
    (d.hpCut p r).boot = d.boot ∧ (d.hpCut p r).pwr = d.pwr ∧ (d.hpCut p r).clk = d.clk ∧ (d.hpCut p r).hst = d.hst ∧
    (d.hpCut p r).adm = d.adm ∧ (d.hpCut p r).mram = d.mram ∧ (d.hpCut p r).ldg = d.ldg ∧ (d.hpCut p r).trg = d.trg ∧
    (d.hpCut p r).po = d.po ∧ (d.hpCut p r).sp = d.sp ∧ (d.hpCut p r).tnk = d.tnk ∧ (d.hpCut p r).scc = d.scc ∧
    (d.hpCut p r).wr = d.wr ∧ (d.hpCut p r).fen = d.fen ∧ (d.hpCut p r).asy = d.asy ∧ (d.hpCut p r).out = d.out ∧
    (d.hpCut p r).tap = d.tap ∧ (d.hpCut p r).draws = d.draws := by
  unfold Dev.hpCut; try dsimp only
  all_goals simp [*]

@[simp] theorem Dev.hpAttempt_keeps (d : Dev) (p : Nat) :
    (d.hpAttempt p).stage = d.stage ∧ (d.hpAttempt p).shHost = d.shHost ∧ (d.hpAttempt p).shSpi = d.shSpi ∧
    (d.hpAttempt p).shWin = d.shWin ∧ (d.hpAttempt p).t = d.t ∧ (d.hpAttempt p).cal = d.cal ∧ (d.hpAttempt p).boot = d.boot ∧
    (d.hpAttempt p).pwr = d.pwr ∧ (d.hpAttempt p).clk = d.clk ∧ (d.hpAttempt p).hst = d.hst ∧ (d.hpAttempt p).adm = d.adm ∧
    (d.hpAttempt p).mram = d.mram ∧ (d.hpAttempt p).ldg = d.ldg ∧ (d.hpAttempt p).trg = d.trg ∧ (d.hpAttempt p).po = d.po ∧
    (d.hpAttempt p).sp = d.sp ∧ (d.hpAttempt p).tnk = d.tnk ∧ (d.hpAttempt p).scc = d.scc ∧ (d.hpAttempt p).wr = d.wr ∧
    (d.hpAttempt p).fen = d.fen ∧ (d.hpAttempt p).asy = d.asy ∧ (d.hpAttempt p).tap = d.tap ∧
    (d.hpAttempt p).draws = d.draws := by
  unfold Dev.hpAttempt; try dsimp only
  all_goals simp [*]

@[simp] theorem Dev.hpTrain_keeps (d : Dev) (p : Nat) :
    (d.hpTrain p).stage = d.stage ∧ (d.hpTrain p).shHost = d.shHost ∧ (d.hpTrain p).shSpi = d.shSpi ∧
    (d.hpTrain p).shWin = d.shWin ∧ (d.hpTrain p).t = d.t ∧ (d.hpTrain p).cal = d.cal ∧ (d.hpTrain p).boot = d.boot ∧
    (d.hpTrain p).pwr = d.pwr ∧ (d.hpTrain p).clk = d.clk ∧ (d.hpTrain p).hst = d.hst ∧ (d.hpTrain p).adm = d.adm ∧
    (d.hpTrain p).mram = d.mram ∧ (d.hpTrain p).ldg = d.ldg ∧ (d.hpTrain p).trg = d.trg ∧ (d.hpTrain p).po = d.po ∧
    (d.hpTrain p).sp = d.sp ∧ (d.hpTrain p).tnk = d.tnk ∧ (d.hpTrain p).scc = d.scc ∧ (d.hpTrain p).wr = d.wr ∧
    (d.hpTrain p).fen = d.fen ∧ (d.hpTrain p).asy = d.asy ∧ (d.hpTrain p).tap = d.tap ∧
    (d.hpTrain p).draws = d.draws := by
  unfold Dev.hpTrain; try dsimp only
  all_goals (repeat' split) <;> simp [*]

@[simp] theorem Dev.clearCauses_keeps (d : Dev) (k : Nat) (p : Reason → Bool) :
    (d.clearCauses k p).stage = d.stage ∧ (d.clearCauses k p).shHost = d.shHost ∧ (d.clearCauses k p).shSpi = d.shSpi ∧
    (d.clearCauses k p).shWin = d.shWin ∧ (d.clearCauses k p).t = d.t ∧ (d.clearCauses k p).cal = d.cal ∧
    (d.clearCauses k p).boot = d.boot ∧ (d.clearCauses k p).pwr = d.pwr ∧ (d.clearCauses k p).clk = d.clk ∧
    (d.clearCauses k p).hst = d.hst ∧ (d.clearCauses k p).adm = d.adm ∧ (d.clearCauses k p).mram = d.mram ∧
    (d.clearCauses k p).ldg = d.ldg ∧ (d.clearCauses k p).trg = d.trg ∧ (d.clearCauses k p).po = d.po ∧
    (d.clearCauses k p).sp = d.sp ∧ (d.clearCauses k p).tnk = d.tnk ∧ (d.clearCauses k p).scc = d.scc ∧
    (d.clearCauses k p).asy = d.asy ∧ (d.clearCauses k p).tap = d.tap ∧ (d.clearCauses k p).draws = d.draws := by
  unfold Dev.clearCauses; try dsimp only
  all_goals (repeat' split) <;> simp [*]

@[simp] theorem Dev.closeTallies_keeps (d : Dev) (j : Job) (c : Bool) :
    (d.closeTallies j c).stage = d.stage ∧ (d.closeTallies j c).shHost = d.shHost ∧ (d.closeTallies j c).shSpi = d.shSpi ∧
    (d.closeTallies j c).shWin = d.shWin ∧ (d.closeTallies j c).t = d.t ∧ (d.closeTallies j c).cal = d.cal ∧
    (d.closeTallies j c).boot = d.boot ∧ (d.closeTallies j c).pwr = d.pwr ∧ (d.closeTallies j c).clk = d.clk ∧
    (d.closeTallies j c).hst = d.hst ∧ (d.closeTallies j c).adm = d.adm ∧ (d.closeTallies j c).jobs = d.jobs ∧
    (d.closeTallies j c).mram = d.mram ∧ (d.closeTallies j c).ldg = d.ldg ∧ (d.closeTallies j c).trg = d.trg ∧
    (d.closeTallies j c).po = d.po ∧ (d.closeTallies j c).hp = d.hp ∧ (d.closeTallies j c).tnk = d.tnk ∧
    (d.closeTallies j c).scc = d.scc ∧ (d.closeTallies j c).wr = d.wr ∧ (d.closeTallies j c).fen = d.fen ∧
    (d.closeTallies j c).asy = d.asy ∧ (d.closeTallies j c).out = d.out ∧ (d.closeTallies j c).tap = d.tap ∧
    (d.closeTallies j c).draws = d.draws := by
  unfold Dev.closeTallies
  refine ⟨foldl_keeps _ (fun d => d.stage) ?_ _ _, foldl_keeps _ (fun d => d.shHost) ?_ _ _, foldl_keeps _ (fun d => d.shSpi) ?_ _ _, foldl_keeps _ (fun d => d.shWin) ?_ _ _, foldl_keeps _ (fun d => d.t) ?_ _ _, foldl_keeps _ (fun d => d.cal) ?_ _ _, foldl_keeps _ (fun d => d.boot) ?_ _ _, foldl_keeps _ (fun d => d.pwr) ?_ _ _, foldl_keeps _ (fun d => d.clk) ?_ _ _, foldl_keeps _ (fun d => d.hst) ?_ _ _, foldl_keeps _ (fun d => d.adm) ?_ _ _, foldl_keeps _ (fun d => d.jobs) ?_ _ _, foldl_keeps _ (fun d => d.mram) ?_ _ _, foldl_keeps _ (fun d => d.ldg) ?_ _ _, foldl_keeps _ (fun d => d.trg) ?_ _ _, foldl_keeps _ (fun d => d.po) ?_ _ _, foldl_keeps _ (fun d => d.hp) ?_ _ _, foldl_keeps _ (fun d => d.tnk) ?_ _ _, foldl_keeps _ (fun d => d.scc) ?_ _ _, foldl_keeps _ (fun d => d.wr) ?_ _ _, foldl_keeps _ (fun d => d.fen) ?_ _ _, foldl_keeps _ (fun d => d.asy) ?_ _ _, foldl_keeps _ (fun d => d.out) ?_ _ _, foldl_keeps _ (fun d => d.tap) ?_ _ _, foldl_keeps _ (fun d => d.draws) ?_ _ _⟩ <;> (intro d a; dsimp only; (repeat' split) <;> simp)

@[simp] theorem Dev.releaseLanes_keeps (d : Dev) (h : Nat) :
    (d.releaseLanes h).stage = d.stage ∧ (d.releaseLanes h).shHost = d.shHost ∧ (d.releaseLanes h).shSpi = d.shSpi ∧
    (d.releaseLanes h).shWin = d.shWin ∧ (d.releaseLanes h).t = d.t ∧ (d.releaseLanes h).cal = d.cal ∧
    (d.releaseLanes h).boot = d.boot ∧ (d.releaseLanes h).pwr = d.pwr ∧ (d.releaseLanes h).clk = d.clk ∧
    (d.releaseLanes h).hst = d.hst ∧ (d.releaseLanes h).adm = d.adm ∧ (d.releaseLanes h).jobs = d.jobs ∧
    (d.releaseLanes h).mram = d.mram ∧ (d.releaseLanes h).ldg = d.ldg ∧ (d.releaseLanes h).trg = d.trg ∧
    (d.releaseLanes h).sp = d.sp ∧ (d.releaseLanes h).hp = d.hp ∧ (d.releaseLanes h).tnk = d.tnk ∧
    (d.releaseLanes h).scc = d.scc ∧ (d.releaseLanes h).fen = d.fen ∧ (d.releaseLanes h).asy = d.asy ∧
    (d.releaseLanes h).tap = d.tap ∧ (d.releaseLanes h).draws = d.draws := by
  unfold Dev.releaseLanes
  refine ⟨foldl_keeps _ (fun d => d.stage) ?_ _ _, foldl_keeps _ (fun d => d.shHost) ?_ _ _, foldl_keeps _ (fun d => d.shSpi) ?_ _ _, foldl_keeps _ (fun d => d.shWin) ?_ _ _, foldl_keeps _ (fun d => d.t) ?_ _ _, foldl_keeps _ (fun d => d.cal) ?_ _ _, foldl_keeps _ (fun d => d.boot) ?_ _ _, foldl_keeps _ (fun d => d.pwr) ?_ _ _, foldl_keeps _ (fun d => d.clk) ?_ _ _, foldl_keeps _ (fun d => d.hst) ?_ _ _, foldl_keeps _ (fun d => d.adm) ?_ _ _, foldl_keeps _ (fun d => d.jobs) ?_ _ _, foldl_keeps _ (fun d => d.mram) ?_ _ _, foldl_keeps _ (fun d => d.ldg) ?_ _ _, foldl_keeps _ (fun d => d.trg) ?_ _ _, foldl_keeps _ (fun d => d.sp) ?_ _ _, foldl_keeps _ (fun d => d.hp) ?_ _ _, foldl_keeps _ (fun d => d.tnk) ?_ _ _, foldl_keeps _ (fun d => d.scc) ?_ _ _, foldl_keeps _ (fun d => d.fen) ?_ _ _, foldl_keeps _ (fun d => d.asy) ?_ _ _, foldl_keeps _ (fun d => d.tap) ?_ _ _, foldl_keeps _ (fun d => d.draws) ?_ _ _⟩ <;> (intro d a; dsimp only; (repeat' split) <;> simp)

@[simp] theorem Dev.releaseGranules_keeps (d : Dev) (j : Job) :
    (d.releaseGranules j).stage = d.stage ∧ (d.releaseGranules j).shHost = d.shHost ∧ (d.releaseGranules j).shSpi = d.shSpi ∧
    (d.releaseGranules j).shWin = d.shWin ∧ (d.releaseGranules j).t = d.t ∧ (d.releaseGranules j).cal = d.cal ∧
    (d.releaseGranules j).boot = d.boot ∧ (d.releaseGranules j).pwr = d.pwr ∧ (d.releaseGranules j).clk = d.clk ∧
    (d.releaseGranules j).hst = d.hst ∧ (d.releaseGranules j).adm = d.adm ∧ (d.releaseGranules j).jobs = d.jobs ∧
    (d.releaseGranules j).mram = d.mram ∧ (d.releaseGranules j).ldg = d.ldg ∧ (d.releaseGranules j).trg = d.trg ∧
    (d.releaseGranules j).po = d.po ∧ (d.releaseGranules j).sp = d.sp ∧ (d.releaseGranules j).hp = d.hp ∧
    (d.releaseGranules j).tnk = d.tnk ∧ (d.releaseGranules j).scc = d.scc ∧ (d.releaseGranules j).wr = d.wr ∧
    (d.releaseGranules j).fen = d.fen ∧ (d.releaseGranules j).asy = d.asy ∧ (d.releaseGranules j).out = d.out ∧
    (d.releaseGranules j).tap = d.tap ∧ (d.releaseGranules j).draws = d.draws := by
  unfold Dev.releaseGranules
  refine ⟨foldl_keeps _ (fun d => d.stage) ?_ _ _, foldl_keeps _ (fun d => d.shHost) ?_ _ _, foldl_keeps _ (fun d => d.shSpi) ?_ _ _, foldl_keeps _ (fun d => d.shWin) ?_ _ _, foldl_keeps _ (fun d => d.t) ?_ _ _, foldl_keeps _ (fun d => d.cal) ?_ _ _, foldl_keeps _ (fun d => d.boot) ?_ _ _, foldl_keeps _ (fun d => d.pwr) ?_ _ _, foldl_keeps _ (fun d => d.clk) ?_ _ _, foldl_keeps _ (fun d => d.hst) ?_ _ _, foldl_keeps _ (fun d => d.adm) ?_ _ _, foldl_keeps _ (fun d => d.jobs) ?_ _ _, foldl_keeps _ (fun d => d.mram) ?_ _ _, foldl_keeps _ (fun d => d.ldg) ?_ _ _, foldl_keeps _ (fun d => d.trg) ?_ _ _, foldl_keeps _ (fun d => d.po) ?_ _ _, foldl_keeps _ (fun d => d.sp) ?_ _ _, foldl_keeps _ (fun d => d.hp) ?_ _ _, foldl_keeps _ (fun d => d.tnk) ?_ _ _, foldl_keeps _ (fun d => d.scc) ?_ _ _, foldl_keeps _ (fun d => d.wr) ?_ _ _, foldl_keeps _ (fun d => d.fen) ?_ _ _, foldl_keeps _ (fun d => d.asy) ?_ _ _, foldl_keeps _ (fun d => d.out) ?_ _ _, foldl_keeps _ (fun d => d.tap) ?_ _ _, foldl_keeps _ (fun d => d.draws) ?_ _ _⟩ <;> (intro d a; dsimp only; (repeat' split) <;> simp)

@[simp] theorem Dev.reportEnd_keeps (d : Dev) (h : Nat) :
    (d.reportEnd h).regs = d.regs ∧ (d.reportEnd h).stage = d.stage ∧ (d.reportEnd h).shHost = d.shHost ∧
    (d.reportEnd h).shSpi = d.shSpi ∧ (d.reportEnd h).shWin = d.shWin ∧ (d.reportEnd h).t = d.t ∧ (d.reportEnd h).cal = d.cal ∧
    (d.reportEnd h).boot = d.boot ∧ (d.reportEnd h).pwr = d.pwr ∧ (d.reportEnd h).clk = d.clk ∧ (d.reportEnd h).hst = d.hst ∧
    (d.reportEnd h).adm = d.adm ∧ (d.reportEnd h).mram = d.mram ∧ (d.reportEnd h).ldg = d.ldg ∧ (d.reportEnd h).trg = d.trg ∧
    (d.reportEnd h).po = d.po ∧ (d.reportEnd h).sp = d.sp ∧ (d.reportEnd h).hp = d.hp ∧ (d.reportEnd h).tnk = d.tnk ∧
    (d.reportEnd h).scc = d.scc ∧ (d.reportEnd h).fen = d.fen ∧ (d.reportEnd h).asy = d.asy ∧ (d.reportEnd h).tap = d.tap ∧
    (d.reportEnd h).draws = d.draws := by
  unfold Dev.reportEnd; try dsimp only
  all_goals (repeat' split) <;> simp [*]

@[simp] theorem Dev.endJob_keeps (d : Dev) (h : Nat) (r : Outcome) :
    (d.endJob h r).stage = d.stage ∧ (d.endJob h r).shHost = d.shHost ∧ (d.endJob h r).shSpi = d.shSpi ∧
    (d.endJob h r).shWin = d.shWin ∧ (d.endJob h r).t = d.t ∧ (d.endJob h r).cal = d.cal ∧ (d.endJob h r).boot = d.boot ∧
    (d.endJob h r).pwr = d.pwr ∧ (d.endJob h r).clk = d.clk ∧ (d.endJob h r).hst = d.hst ∧ (d.endJob h r).adm = d.adm ∧
    (d.endJob h r).mram = d.mram ∧ (d.endJob h r).trg = d.trg ∧ (d.endJob h r).hp = d.hp ∧ (d.endJob h r).tnk = d.tnk ∧
    (d.endJob h r).scc = d.scc ∧ (d.endJob h r).fen = d.fen ∧ (d.endJob h r).asy = d.asy ∧ (d.endJob h r).tap = d.tap ∧
    (d.endJob h r).draws = d.draws := by
  unfold Dev.endJob; try dsimp only
  all_goals (repeat' split) <;> simp [*]

@[simp] theorem Dev.endAs_keeps (d : Dev) (h : Nat) (q : Bool) (a b : Reason) :
    (d.endAs h q a b).stage = d.stage ∧ (d.endAs h q a b).shHost = d.shHost ∧ (d.endAs h q a b).shSpi = d.shSpi ∧
    (d.endAs h q a b).shWin = d.shWin ∧ (d.endAs h q a b).t = d.t ∧ (d.endAs h q a b).cal = d.cal ∧
    (d.endAs h q a b).boot = d.boot ∧ (d.endAs h q a b).pwr = d.pwr ∧ (d.endAs h q a b).clk = d.clk ∧
    (d.endAs h q a b).hst = d.hst ∧ (d.endAs h q a b).adm = d.adm ∧ (d.endAs h q a b).mram = d.mram ∧
    (d.endAs h q a b).trg = d.trg ∧ (d.endAs h q a b).hp = d.hp ∧ (d.endAs h q a b).tnk = d.tnk ∧
    (d.endAs h q a b).scc = d.scc ∧ (d.endAs h q a b).fen = d.fen ∧ (d.endAs h q a b).asy = d.asy ∧
    (d.endAs h q a b).tap = d.tap ∧ (d.endAs h q a b).draws = d.draws := by
  unfold Dev.endAs; try dsimp only
  all_goals (repeat' split) <;> simp [*]

@[simp] theorem Dev.latch_keeps (d : Dev) (p : Port) (l : List (Nat × Word)) :
    (d.latch p l).regs = d.regs ∧ (d.latch p l).stage = d.stage ∧ (d.latch p l).t = d.t ∧ (d.latch p l).cal = d.cal ∧
    (d.latch p l).boot = d.boot ∧ (d.latch p l).pwr = d.pwr ∧ (d.latch p l).clk = d.clk ∧ (d.latch p l).hst = d.hst ∧
    (d.latch p l).adm = d.adm ∧ (d.latch p l).jobs = d.jobs ∧ (d.latch p l).mram = d.mram ∧ (d.latch p l).ldg = d.ldg ∧
    (d.latch p l).trg = d.trg ∧ (d.latch p l).po = d.po ∧ (d.latch p l).sp = d.sp ∧ (d.latch p l).hp = d.hp ∧
    (d.latch p l).tnk = d.tnk ∧ (d.latch p l).scc = d.scc ∧ (d.latch p l).wr = d.wr ∧ (d.latch p l).fen = d.fen ∧
    (d.latch p l).asy = d.asy ∧ (d.latch p l).out = d.out ∧ (d.latch p l).tap = d.tap ∧ (d.latch p l).draws = d.draws := by
  unfold Dev.latch; try dsimp only
  all_goals (repeat' split) <;> simp [*]

@[simp] theorem Dev.wrLast_keeps (d : Dev) (p : Port) (a : Nat) (w : Word) :
    (d.wrLast p a w).stage = d.stage ∧ (d.wrLast p a w).shHost = d.shHost ∧ (d.wrLast p a w).shSpi = d.shSpi ∧
    (d.wrLast p a w).shWin = d.shWin ∧ (d.wrLast p a w).t = d.t ∧ (d.wrLast p a w).cal = d.cal ∧
    (d.wrLast p a w).boot = d.boot ∧ (d.wrLast p a w).pwr = d.pwr ∧ (d.wrLast p a w).clk = d.clk ∧
    (d.wrLast p a w).hst = d.hst ∧ (d.wrLast p a w).adm = d.adm ∧ (d.wrLast p a w).jobs = d.jobs ∧
    (d.wrLast p a w).mram = d.mram ∧ (d.wrLast p a w).ldg = d.ldg ∧ (d.wrLast p a w).trg = d.trg ∧ (d.wrLast p a w).po = d.po ∧
    (d.wrLast p a w).sp = d.sp ∧ (d.wrLast p a w).hp = d.hp ∧ (d.wrLast p a w).tnk = d.tnk ∧ (d.wrLast p a w).scc = d.scc ∧
    (d.wrLast p a w).wr = d.wr ∧ (d.wrLast p a w).fen = d.fen ∧ (d.wrLast p a w).asy = d.asy ∧ (d.wrLast p a w).out = d.out ∧
    (d.wrLast p a w).tap = d.tap ∧ (d.wrLast p a w).draws = d.draws := by
  unfold Dev.wrLast; try dsimp only
  all_goals (repeat' split) <;> simp [*]


end Sys2Proof.Machine
end

