-- ==== Sys2Proof/Laws/Regs.lean ====
section
/-!
SUPPORT. Sys2Proof/Laws/Regs.lean: bit fields and registers: what a field reads after a field is written, and what the shared operations
do to registers.
-/
namespace Sys2Proof.Machine

/-! ## Fields of a word -/

theorem testBit_slice (w : Word) (hi lo i : Nat) :
    (slice w hi lo).testBit i = (decide (i < hi + 1 - lo) && w.getLsbD (lo + i)) := by
  simp [slice, Nat.testBit_mod_two_pow, Nat.testBit_shiftRight, BitVec.testBit_toNat]

theorem getLsbD_fieldMask (hi lo i : Nat) (h : i < 32) :
    (fieldMask hi lo).getLsbD i = decide (lo ≤ i ∧ i < hi + 1 ∧ lo < hi + 1) := by
  rw [fieldMask, BitVec.getLsbD_ofNat, Nat.testBit_mul_two_pow]
  rw [Nat.testBit_two_pow_sub_one]
  by_cases h1 : lo ≤ i
  · have : (i - lo < hi + 1 - lo) ↔ (i < hi + 1 ∧ lo < hi + 1) := by omega
    simp only [h, h1, this, decide_true, Bool.true_and, true_and]
  · simp [h, h1]

theorem getLsbD_setSlice (w : Word) (hi lo v i : Nat) (h : i < 32) :
    (setSlice w hi lo v).getLsbD i = if lo ≤ i ∧ i < hi + 1 then v.testBit (i - lo) else w.getLsbD i := by
  rw [setSlice, BitVec.getLsbD_or, BitVec.getLsbD_and, BitVec.getLsbD_not, getLsbD_fieldMask hi lo i h,
    BitVec.getLsbD_ofNat, Nat.testBit_mul_two_pow, Nat.testBit_mod_two_pow]
  by_cases h1 : lo ≤ i ∧ i < hi + 1
  · have h2 : lo < hi + 1 := by omega
    have h3 : i - lo < hi + 1 - lo := by omega
    simp [h, h1, h2, h3]
  · rw [if_neg h1]
    by_cases h2 : lo ≤ i
    · have h3 : ¬ i - lo < hi + 1 - lo := by omega
      have h4 : ¬ (lo ≤ i ∧ i < hi + 1 ∧ lo < hi + 1) := by omega
      simp [h, h2, h3]
      omega
    · simp [h, h2]

/-- A field reads the low bits of what was written to it. -/
theorem slice_setSlice_same (w : Word) (hi lo v : Nat) (h : hi < 32) :
    slice (setSlice w hi lo v) hi lo = v % 2 ^ (hi + 1 - lo) := by
  apply Nat.eq_of_testBit_eq
  intro i
  rw [testBit_slice, Nat.testBit_mod_two_pow]
  by_cases h1 : i < hi + 1 - lo
  · rw [getLsbD_setSlice _ _ _ _ _ (by omega), if_pos (by omega)]
    simp [h1]
  · simp [h1]

/-- Writing a field leaves disjoint fields alone. -/
theorem slice_setSlice_ne (w : Word) (hi lo v hi' lo' : Nat) (h' : hi' < 32) (h : hi' < lo ∨ hi < lo') :
    slice (setSlice w hi lo v) hi' lo' = slice w hi' lo' := by
  apply Nat.eq_of_testBit_eq
  intro i
  rw [testBit_slice, testBit_slice]
  by_cases h1 : i < hi' + 1 - lo'
  · rw [getLsbD_setSlice _ _ _ _ _ (by omega), if_neg (by omega)]
  · simp [h1]

theorem bitOf_putBit (w : Word) (k i : Nat) (b : Bool) (h : i < 32) : bitOf (putBit w k b) i = if i = k then b else bitOf w i := by
  rw [bitOf, putBit, getLsbD_setSlice _ _ _ _ _ h]
  by_cases e : i = k
  · subst e; cases b <;> simp
  · have : ¬ (k ≤ i ∧ i < k + 1) := by omega
    rw [if_neg this, if_neg e, bitOf]

theorem slice_bit (w : Word) (k : Nat) : slice w k k = if bitOf w k then 1 else 0 := by
  have h1 : k + 1 - k = 1 := by omega
  rw [slice, h1, bitOf, BitVec.getLsbD, Nat.testBit_eq_decide_div_mod_eq, Nat.shiftRight_eq_div_pow]
  rcases Nat.mod_two_eq_zero_or_one (w.toNat / 2 ^ k) with h | h <;> simp [h]

/-! ## Registers of the device -/

@[simp] theorem Dev.reg_setReg (d : Dev) (a b : Nat) (w : Word) : (d.setReg a w).reg b = if b = a then w else d.reg b :=
  mgetD_msetD _ _ _ _ _

@[simp] theorem Dev.stg_setStg (d : Dev) (a b : Nat) (w : Word) : (d.setStg a w).stg b = if b = a then w else d.stg b :=
  mgetD_msetD _ _ _ _ _

/-- The registers are those of `regs`: an update that leaves `regs` alone leaves every register alone. -/
theorem Dev.reg_congr {d d' : Dev} (h : d'.regs = d.regs) (a : Nat) : d'.reg a = d.reg a := by unfold Dev.reg; rw [h]

theorem Dev.fld_congr {d d' : Dev} (h : d'.regs = d.regs) (f : Fld) : d'.fld f = d.fld f := by
  unfold Dev.fld; rw [Dev.reg_congr h]

theorem Dev.flag_congr {d d' : Dev} (h : d'.regs = d.regs) (f : Fld) : d'.flag f = d.flag f := by
  unfold Dev.flag; rw [Dev.fld_congr h]

@[simp] theorem Dev.reg_setStg (d : Dev) (a b : Nat) (w : Word) : (d.setStg a w).reg b = d.reg b := rfl
@[simp] theorem Dev.reg_emit (d : Dev) (o : Out) (b : Nat) : (d.emit o).reg b = d.reg b := rfl
@[simp] theorem Dev.reg_setDom (d : Dev) (k : Nat) (v : DomSt) (b : Nat) : (d.setDom k v).reg b = d.reg b := rfl
@[simp] theorem Dev.reg_setHp (d : Dev) (p : Nat) (h : HpSt) (b : Nat) : (d.setHp p h).reg b = d.reg b := rfl
@[simp] theorem Dev.reg_setOut (d : Dev) (n : Nat) (o : OutSt) (b : Nat) : (d.setOut n o).reg b = d.reg b := rfl
@[simp] theorem Dev.reg_dueRec (d : Dev) (p : Nat) (r : List Rec) (b : Nat) : (d.dueRec p r).reg b = d.reg b := rfl
@[simp] theorem Dev.reg_modJob (d : Dev) (h : Nat) (f : Job → Job) (b : Nat) : (d.modJob h f).reg b = d.reg b := rfl
@[simp] theorem Dev.reg_latch (d : Dev) (p : Port) (l : List (Nat × Word)) (b : Nat) : (d.latch p l).reg b = d.reg b :=
  Dev.reg_congr (by simp) b
@[simp] theorem Dev.fld_emit (d : Dev) (o : Out) (f : Fld) : (d.emit o).fld f = d.fld f := rfl
@[simp] theorem Dev.flag_emit (d : Dev) (o : Out) (f : Fld) : (d.emit o).flag f = d.flag f := rfl

theorem Dev.reg_setFld (d : Dev) (f : Fld) (v b : Nat) :
    (d.setFld f v).reg b = if b = f.a then setSlice (d.reg f.a) f.hi f.lo v else d.reg b := by
  unfold Dev.setFld; simp

/-- A field write leaves every other register alone. -/
theorem Dev.reg_setFld_ne (d : Dev) (f : Fld) (v b : Nat) (h : b ≠ f.a) : (d.setFld f v).reg b = d.reg b := by
  rw [Dev.reg_setFld, if_neg h]

/-- A field reads the low bits of what was written to it. -/
theorem Dev.fld_setFld_same (d : Dev) (f : Fld) (v : Nat) (h : f.hi < 32) :
    (d.setFld f v).fld f = v % 2 ^ (f.hi + 1 - f.lo) := by
  unfold Dev.fld; rw [Dev.reg_setFld, if_pos rfl, slice_setSlice_same _ _ _ _ h]

/-- A field write leaves every disjoint field alone. -/
theorem Dev.fld_setFld_ne (d : Dev) (f g : Fld) (v : Nat) (hg : g.hi < 32) (h : g.a ≠ f.a ∨ g.hi < f.lo ∨ f.hi < g.lo) :
    (d.setFld f v).fld g = d.fld g := by
  unfold Dev.fld; rw [Dev.reg_setFld]
  by_cases e : g.a = f.a
  · rw [if_pos e, slice_setSlice_ne _ _ _ _ _ _ hg (by tauto), e]
  · rw [if_neg e]

theorem Dev.reg_setFlag_ne (d : Dev) (f : Fld) (v : Bool) (b : Nat) (h : b ≠ f.a) : (d.setFlag f v).reg b = d.reg b :=
  Dev.reg_setFld_ne d f _ b h

theorem Dev.flag_setFlag_same (d : Dev) (f : Fld) (b : Bool) (h : f.hi < 32) (hw : f.lo = f.hi) :
    (d.setFlag f b).flag f = b := by
  unfold Dev.flag Dev.setFlag; rw [Dev.fld_setFld_same _ _ _ h, hw]
  have : f.hi + 1 - f.hi = 1 := by omega
  rw [this]; cases b <;> rfl

theorem Dev.flag_setFlag_ne (d : Dev) (f g : Fld) (b : Bool) (hg : g.hi < 32)
    (h : g.a ≠ f.a ∨ g.hi < f.lo ∨ f.hi < g.lo) : (d.setFlag f b).flag g = d.flag g := by
  unfold Dev.flag Dev.setFlag; rw [Dev.fld_setFld_ne _ _ _ _ hg h]

theorem Dev.fld_setFlag_ne (d : Dev) (f g : Fld) (b : Bool) (hg : g.hi < 32)
    (h : g.a ≠ f.a ∨ g.hi < f.lo ∨ f.hi < g.lo) : (d.setFlag f b).fld g = d.fld g := Dev.fld_setFld_ne _ _ _ _ hg h

theorem Dev.flag_setFld_ne (d : Dev) (f g : Fld) (v : Nat) (hg : g.hi < 32)
    (h : g.a ≠ f.a ∨ g.hi < f.lo ∨ f.hi < g.lo) : (d.setFld f v).flag g = d.flag g := by
  unfold Dev.flag; rw [Dev.fld_setFld_ne _ _ _ _ hg h]

theorem Dev.fld_setReg_ne (d : Dev) (g : Fld) (a : Nat) (w : Word) (h : g.a ≠ a) : (d.setReg a w).fld g = d.fld g := by
  unfold Dev.fld; simp [h]

theorem Dev.flag_setReg_ne (d : Dev) (g : Fld) (a : Nat) (w : Word) (h : g.a ≠ a) : (d.setReg a w).flag g = d.flag g := by
  unfold Dev.flag; rw [Dev.fld_setReg_ne _ _ _ _ h]

/-! ## Interrupts (R289, R290) -/

/-- The registers that an interrupt cause may change: the ISR and the pending-bit array. -/
def irqReg (a : Nat) : Bool := a == R.HST_ISR0 || a == R.HST_ISR1 || (decide (0x4C00 ≤ a) && decide (a < 0x4C08))

/-- An interrupt cause changes no register but the ISR and the pending-bit array. -/
theorem Dev.reg_raiseIrq (d : Dev) (v a : Nat) (hv : v < 64) (h : irqReg a = false) : (d.raiseIrq v).reg a = d.reg a := by
  have h1 : a ≠ R.HST_ISR0 := by rintro rfl; simp [irqReg] at h
  have h2 : a ≠ R.HST_ISR1 := by rintro rfl; simp [irqReg] at h
  have h3 : a ≠ R.MSIX_PBA (v / 32) := by
    rintro rfl
    have : v / 32 < 2 := by omega
    have h4 : irqReg (R.MSIX_PBA (v / 32)) = true := by
      simp only [irqReg, R.MSIX_PBA, Bool.or_eq_true, Bool.and_eq_true, decide_eq_true_eq]
      right; omega
    rw [h4] at h; exact absurd h (by decide)
  have ha : a ≠ (if v < 32 then R.HST_ISR0 else R.HST_ISR1) := by split <;> assumption
  unfold Dev.raiseIrq
  generalize (if v < 32 then R.HST_ISR0 else R.HST_ISR1) = x at *
  dsimp only
  split
  · rw [Dev.reg_setReg, if_neg ha]
  · split
    · rw [Dev.reg_setReg, if_neg h3, Dev.reg_setReg, if_neg ha]
    · rw [Dev.reg_emit, Dev.reg_setReg, if_neg ha]

theorem Dev.fld_raiseIrq (d : Dev) (v : Nat) (f : Fld) (hv : v < 64) (h : irqReg f.a = false) :
    (d.raiseIrq v).fld f = d.fld f := by
  unfold Dev.fld; rw [Dev.reg_raiseIrq _ _ _ hv h]

theorem Dev.flag_raiseIrq (d : Dev) (v : Nat) (f : Fld) (hv : v < 64) (h : irqReg f.a = false) :
    (d.raiseIrq v).flag f = d.flag f := by
  unfold Dev.flag; rw [Dev.fld_raiseIrq _ _ _ hv h]

/-- A cause of vector v sets its ISR bit (R289). -/
theorem Dev.isr_raiseIrq (d : Dev) (v : Nat) (hv : v < 64) :
    bitOf ((d.raiseIrq v).reg (if v < 32 then R.HST_ISR0 else R.HST_ISR1)) (v % 32) = true := by
  have key : ∀ a, a ≠ R.MSIX_PBA (v / 32) → a = (if v < 32 then R.HST_ISR0 else R.HST_ISR1) →
      (d.raiseIrq v).reg a = putBit (d.reg a) (v % 32) true := by
    intro a h3 ha
    unfold Dev.raiseIrq
    rw [← ha]
    dsimp only
    split
    · simp
    · split
      · rw [Dev.reg_setReg, if_neg h3]; simp
      · simp
  rw [key _ _ rfl, bitOf_putBit _ _ _ _ (by omega), if_pos rfl]
  have : v / 32 < 2 := by omega
  simp only [R.MSIX_PBA]; split <;> simp only [R.HST_ISR0, R.HST_ISR1] <;> omega

end Sys2Proof.Machine
end

