-- ==== Sys2Proof/Tests/Slice0.lean ====
section
/-!
SUPPORT. Sys2Proof/Tests/Slice0.lean: for every statement that has hypotheses, a theorem witness_<statement> with concrete states
and operands that meet them, at the boundary values of each clause; and tests whose expected values are those of the spec's own
worked examples, with the well-formedness smoke tests.
-/
namespace Sys2Proof.Tests
open Sys2Proof Sys2Proof.Machine
-- One theorem after another: elaborated all at once, they would hold a thread each.
set_option Elab.async false
/-- A device of a role in a power state, running at beat 1 000, with a mounted ledger and its host link up. -/
def devOf (role : Role) (ps : Nat) : Dev :=
  let d := State.reset.dev
  let d := { d with boot := { d.boot with porst := false, strapsValid := true, capable := role != Role.worker, role := role, roleKnown := true,
                                          calDone := true, replayed := true, readySent := true, perst := false },
                    pwr := { d.pwr with vcore := true }, t := { d.t with bn := 1000, running := true, ceil := 2000000, last := 1000 } }
  let d := ((d.setFld F.PWR_STAT_STATE ps).setFld F.SUP_BOOT_PHASE 8).setFlag F.HST_STAT_LINK_UP true
  (d.setFlag F.HST_STAT_BME true).setFlag F.LDG_STAT_MOUNTED true

/-- A state with that device. -/
def at_ (d : Dev) : State := { State.reset with dev := d }
def alone : Dev := devOf .standalone 1
def aloneRun : Dev := devOf .standalone 0
def mgr : Dev := devOf .manager 0
def rsvDev : Dev := (devOf .reserve 1).setFld F.SUP_RCODE_POSN 1
def wrkDev : Dev := (devOf .worker 0).setFld F.SUP_RCODE_POSN 5
/-- A job of ring 0 under hallmark 7 in a state. -/
def job7 (st : JState) : Job := { ring := 0, rseq := 3, hm := 7, st := st }
def ran (o : Host.Outcome State Fault Refusal) : Bool := match o with
  | .next _ => true
  | _ => false
def faultOf (o : Host.Outcome State Fault Refusal) : Option Fault := match o with
  | .fault f => some f
  | _ => none
def refusalOf (o : Host.Outcome State Fault Refusal) : Option Refusal := match o with
  | .refused r => some r
  | _ => none

/-! ## Witnesses: hypotheses of the statements, met together by a concrete state and operands, one clause after the other -/

theorem witness_StepRunsFrontCommand :
    ({ at_ alone with pending := [.spiAbort, .d0Return] } : State).pending = .spiAbort :: [.d0Return] ∧ (at_ alone).pending = [] := by decide +kernel
theorem witness_StoreStaysCanonical :
    let s : State := { at_ alone with pending := [.storeWrite .host 16 [1, 0, 2]] }
    Memory.wf s.store = true ∧ ran (step s) = true := by decide +kernel
theorem witness_QueueAndStoreFrame :
    ran (exec .spiAbort (at_ alone)) = true ∧ ran (exec (.storeWrite .host 0xFFFFFF [1]) (at_ alone)) = true := by decide +kernel
theorem witness_OnlyTheseCommandsStop :
    faultOf (exec (.storeWrite .host 0xFFFFFF [1, 2]) (at_ alone)) = some .outsideStore ∧
    refusalOf (exec (.jtagInstruction (.factory 3) true) State.reset) = some .factoryTap ∧
    (at_ alone).dev.boot.porst = false ∧ (TapInstr.extest ≠ .sample) ∧ wellFormed .spiAbort = true := by decide +kernel
theorem witness_RefusedAccessesChangeNothing :
    writeOf (.spSbwrWrite .host 0 1) = some (.host, R.SP_SBWR 0) ∧ (at_ wrkDev).dev.gate .host (R.SP_SBWR 0) = .drop ∧
    (at_ rsvDev).dev.gate .host (R.SP_SBWR 0) = .rsv ∧ readOf (.calNowRead .host) = some (.host, R.CAL_NOW_SEC_LO) ∧
    (at_ wrkDev).dev.rgate .host R.CAL_NOW_SEC_LO = .none ∧
    (at_ { alone with pwr := { alone.pwr with vcore := false } }).dev.rgate .host R.CAL_NOW_SEC_LO = .zero ∧
    (at_ (devOf .standalone 15)).dev.rgate .host R.CAL_NOW_SEC_LO = .reset ∧
    (at_ alone).dev.portRo .spi = true ∧ (at_ alone).dev.readLatch .spi R.HST_STAT = none := by decide +kernel
theorem witness_WriteGate :
    alone.flag F.SUP_STRAP_HOSTSEL = false ∧ wrkDev.boot.role = .worker ∧
    (alone.setFlag F.SUP_STRAP_HOSTSEL true).flag F.SUP_STRAP_HOSTSEL = true ∧
    (rsvDev.boot.role = .reserve ∧ rsvDev.boot.strapsValid = true ∧ rsvDev.boot.conflict = false ∧ hostReg R.CAL_CTRL = false ∧
      ringHostReg R.CAL_CTRL = false ∧ rsvDev.flag F.SUP_STRAP_HOSTSEL = false) ∧
    (devOf .standalone 15).started = false ∧ (devOf .standalone 15).pwr.vcore = true ∧ earlyReg R.SP_LDCMD = false := by decide +kernel
theorem witness_TimeAndCaptureReadsLatch :
    (at_ alone).dev.rgate .host R.BT_BN_LO = .full ∧ (at_ alone).dev.rgate .host R.CAL_NOW_SEC_LO = .full ∧
    (at_ alone).dev.rgate .host R.CAL_PRINT_SEC_LO = .full ∧ (at_ alone).dev.rgate .window (R.TRG_CAP0 15) = .full ∧
    (at_ alone).dev.rgate .host (R.ENC_POSI_LO 7) = .full := by decide +kernel

/-- One entry to pop of each kind. -/
def popDev : Dev :=
  { alone with pwr := { alone.pwr with mevt := [{ code := 0xA001, bn := 9, val := 5 }] },
               fen := { alone.fen with log := [{ dom := 3, reason := 0x5002, inc := 1, clear := false, pos := 0, bn := 4 }] },
               hst := { alone.hst with cqs := [(0, { fifo := [[1, 2, 3, 4, 5, 6, 7, 8]] })] },
               tnk := { alone.tnk with eng := [(63, { tx := { items := [(0xAB, 2)] } })] } }
theorem witness_PoppingAndClearingReads :
    popDev.portRo .host = false ∧ popDev.rgate .host R.SUP_MEVT_CODE = .full ∧
    popDev.pwr.mevt = { code := 0xA001, bn := 9, val := 5 } :: [] ∧ popDev.rgate .host R.FEN_LOG0 = .full ∧
    popDev.fen.log = { dom := 3, reason := 0x5002, inc := 1, clear := false, pos := 0, bn := 4 } :: [] ∧
    popDev.rgate .host (R.HST_CQW 7) = .full ∧
    (popDev.cq (popDev.fld F.HST_CQSEL_COMPLETION)).fifo = [1, 2, 3, 4, 5, 6, 7, 8] :: [] ∧ popDev.rgate .host (R.TNK_TXRD 63) = .full ∧
    popDev.flag (F.TNK_CFG_TXDST 63) = false ∧ (popDev.eng 63).tx.items = (0xAB, 2) :: [] ∧
    (popDev.rgate .host R.CLK_EVT_CNT = .full ∧ popDev.readLatch .host R.CLK_EVT_CNT = none ∧ popDev.portView .host = false) := by
  decide +kernel

theorem witness_CalendarRateAndOscillatorTick :
    (alone.cal.now.units < 2 ^ 96 ∧ alone.cal.rem < 390625 ∧ alone.cal.now.units + 805306368 < 2 ^ 96) ∧
    ({ alone with pwr := { alone.pwr with vcore := false } } : Dev).pwr.vcore = false ∧
    (alone.setFlag F.CLK_STAT_HOLDOVER true).flag F.CLK_STAT_HOLDOVER = true ∧
    alone.pwr.vcore = true ∧ alone.flag F.CLK_STAT_HOLDOVER = false ∧ alone.t.running = true := by decide +kernel

/-- A set for the nearest beat that is not too near, with one pending already. -/
def setDev (tag : Nat) : Dev :=
  { alone.setNum R.CAL_SET_BN_LO tag with cal := { alone.cal with pend := some { val := { sec := 1, sub := 0 }, tag := 2000, regressOk := true } } }
theorem witness_CalendarArmAndCancel :
    ((setDev 1004).gate .host R.CAL_CTRL = .pass ∧ (setDev 1004).calRefusal {} ((setDev 1004).num2 R.CAL_SET_BN_LO R.CAL_SET_BN_HI) false = none) ∧
    (setDev 1003).calRefusal {} ((setDev 1003).num2 R.CAL_SET_BN_LO R.CAL_SET_BN_HI) false = some 0x1004 ∧
    alone.calRefusal { sec := 252455616000, sub := 0 } 1004 false = some 0x1006 ∧
    alone.calRefusal { sec := 252455615999, sub := 0 } 1004 false = none ∧
    alone.calRefusal {} (1000 + 2 ^ 32 + 1) false = some 0x1004 ∧ alone.calRefusal {} (1000 + 2 ^ 32) false = none ∧
    ({ alone.setFld F.CAL_EPOCH_CALENDAR 0xFFFF with cal := { alone.cal with print := { sec := 1, sub := 0 } } } : Dev).calRefusal {} 1004 true =
      some 0x1005 ∧ (setDev 1004).cal.pend ≠ none ∧ alone.cal.pend = none := by decide +kernel

/-- A set due at the beat of the state, forward or backward. -/
def dueSet (sec tag : Nat) (g : Bool) : Dev :=
  { alone with cal := { alone.cal with now := { sec := 5, sub := 0 }, print := { sec := 5, sub := 0 },
                                       pend := some { val := { sec := sec, sub := 0 }, tag := tag, regressOk := g } } }
theorem witness_CalendarApply :
    (dueSet 5 1001 false).now < 1001 ∧ 1000 ≤ (dueSet 5 1000 false).now ∧ (dueSet 5 1000 false).cal.hiWater = none ∧
    (dueSet 5 1000 false).cal.print.units ≤ ({ sec := 5, sub := 0 } : CalVal).units ∧
    ({ sec := 4, sub := 0 } : CalVal).units < (dueSet 4 1000 false).cal.print.units ∧
    (dueSet 4 1000 true).cal.pend = some { val := { sec := 4, sub := 0 }, tag := 1000, regressOk := true } := by decide +kernel

/-- A device whose ceiling lies a given number of beats ahead. -/
def ceilDev (n : Nat) : Dev := { alone with t := { alone.t with ceil := 1000 + n } }
/-- A needed ACCEPT record of job 7, or an ARMED group, n slots behind the head's limit. -/
def carryDev (typ head : Nat) : Dev :=
  { alone with jobs := [job7 .accepted],
               mram := { alone.mram with log := [{ slot := 0, lap := 0, body := { typ := typ, hm := 7, glen := 1 } }], head := head } }
theorem witness_CeilingAndCarryRecords :
    ((ceilDev (2 ^ 19)).t.running = true ∧ (ceilDev (2 ^ 19)).ldg.queue = [] ∧
      (ceilDev (2 ^ 19)).t.ceil ≤ (ceilDev (2 ^ 19)).now + 2 ^ 19) ∧
    (ceilDev (2 ^ 19 + 1)).now + 2 ^ 19 < (ceilDev (2 ^ 19 + 1)).t.ceil ∧
    (carryDev 0x10 224255).neededSlots.length = 1 ∧ (carryDev 0x10 224256).neededSlots.length = 1 ∧
    (carryDev 0x10 224256).headPos + 1024 = 225280 ∧ (carryDev 0x20 224256).neededSlots.length = 1 ∧
    (carryDev 0x10 224256).job? 7 = some (job7 .accepted) ∧ (carryDev 0x10 224256).ldg.queue = [] := by decide +kernel

/-- A mounted device whose copy A is the newest superblock. -/
def supDev : Dev := { alone with mram := { alone.mram with supA := { valid := true, sysId := 9, seq := 4 } } }
theorem witness_CheckpointAndSuperblockWritten :
    (alone.flag F.LDG_STAT_MOUNTED = true ∧ alone.flag F.LDG_STAT_BLANK = false ∧ alone.now < alone.ldg.ckptBn + 65536) ∧
    (let d : Dev := { alone with t := { alone.t with bn := 65536 } }; d.ldg.ckptBn + 65536 ≤ d.now) ∧
    alone.gate .host R.LDG_CMD = .pass ∧
    (supDev.flag F.LDG_STAT_MOUNTED = true ∧ supDev.flag F.LDG_STAT_BLANK = false ∧
      bestSuper supDev.mram.supA supDev.mram.supB = some { valid := true, sysId := 9, seq := 4 }) := by decide +kernel

/-- A manager with a job of position 5. -/
def mgrJob (st : JState) : Dev := { mgr with jobs := [{ job7 st with exec := 5 }] }
theorem witness_FormatAndWriteOff :
    (let d : Dev := { alone with ldg := { alone.ldg with keyBn := some 1000 } }
     d.gate .host R.LDG_CMD = .pass ∧ d.boot.conflict = false ∧ d.ldg.keyBn = some d.now ∧ d.pstate = 1) ∧
    alone.ldg.keyBn ≠ some alone.now ∧ (aloneRun.pstate ≠ 1 ∧ aloneRun.pstate ≠ 5 ∧ aloneRun.ldg.corrupt = false) ∧
    ((mgrJob .bound).gate .host R.LDG_CMD = .pass ∧ (mgrJob .bound).isMgr = true ∧ (mgrJob .bound).flag F.LDG_STAT_MOUNTED = true ∧
      ((mgrJob .bound).jobs.map Job.hm).Nodup ∧ 5 ∉ (mgrJob .bound).ldg.declared) := by decide +kernel

/-- A manager under dual seal, with a record sealed at a beat that the reserve has not acknowledged. -/
def lagDev (b : Nat) : Dev := { mgr with ldg := { mgr.ldg with dual := true, mirror := [(0, b)] } }
/-- A manager in catch-up that the reserve has caught up with. -/
def catchDev : Dev :=
  { (mgr.setSide 0 { mgr.side 0 with lstate := 4, nbrPos := 1 }) with ldg := { mgr.ldg with catchup := true }, wr := { (mgr.setSide 0 { mgr.side 0 with lstate := 4, nbrPos := 1 }).wr with resPos := some 1 } }
theorem witness_MirroringAndDualSeal :
    ((lagDev 996).ldg.dual = true ∧ ∃ x ∈ (lagDev 996).ldg.mirror, x.2 + 4 ≤ (lagDev 996).now) ∧
    (∀ x ∈ (lagDev 997).ldg.mirror, (lagDev 997).now < x.2 + 4) ∧
    (catchDev.boot.role = .manager ∧ catchDev.ldg.catchup = true ∧ catchDev.wr.resPos ≠ none ∧ catchDev.directLink = true ∧
      catchDev.ldg.mirror = [] ∧ catchDev.ldg.toMirror = [] ∧ (catchDev.setNum (R.PWR_WSTATE 0) 0).parked 1 = false ∧
      (catchDev.setNum (R.PWR_WSTATE 0) 0x30).parked 1 = true) ∧
    ({ catchDev with ldg := { catchDev.ldg with mirror := [(0, 999)] } } : Dev).ldg.mirror ≠ [] ∧
    (rsvDev.boot.role = .reserve ∧ rsvDev.boot.roleKnown = true ∧ rsvDev.boot.conflict = false ∧ rsvDev.pwr.vcore = true) ∧
    alone.boot.role ≠ .reserve := by decide +kernel

/-- A bound job of a standalone device whose last instant lies in a beat. -/
def doneDev (b : Nat) : Dev :=
  { aloneRun with jobs := [{ job7 .bound with resolved := true, armed := true, origin := some (b * fsPerBeat), endAt := b * fsPerBeat }] }
theorem witness_OutcomesSealedInOrder :
    (let j : Job := { job7 .bound with resolved := true, armed := true, origin := some (999 * fsPerBeat), endAt := 999 * fsPerBeat }
     (doneDev 999).job? 7 = some j ∧ j.active = true ∧ j.exec = (doneDev 999).pos ∧ j.partsDone = true ∧ j.flaw = none ∧
     j.closing = none ∧ j.out = none ∧ (doneDev 999).clk.jobsDue = false ∧ beatOf (max j.endAt (j.origin.getD 0)) < (doneDev 999).now) ∧
    beatOf (1000 * fsPerBeat) = (doneDev 1000).now ∧
    (let j : Job := { job7 .expired with out := some { typ := 6, reason := 0x2003, bn := 999 } }
     let d : Dev := { alone with jobs := [j] }
     d.job? 7 = some j ∧ d.isMgr = true ∧ d.termReady j = true ∧ ({ d with boot := { d.boot with role := .worker } } : Dev).isMgr = false) := by
  decide +kernel

/-- A quiet beat. -/
def quiet : BeatIn :=
  { dc := 0, vbkp := 3300, vchg := 0, chgCur := 0, chgFault := false, deficit := 0, deficitNom := 0, half := none, rising := false,
    tracking := true, uv := false, temp := 25, overrun := [], sync := (0, 0) }
theorem witness_BeatNumberAdvancesByOne :
    alone.pwr.vcore = true ∧ alone.t.running = true ∧
    ({ alone with pwr := { alone.pwr with vcore := false } } : Dev).pwr.vcore = false := by decide +kernel

/-- The strap read of a standalone device with code 0 on every resistor-coded pin. -/
def straps : StrapRead :=
  { us := 900, role1 := .high, role0 := .low, refsel1 := .low, refsel0 := .low, hostsel := .low, safea := some .low, safeb := some .low,
    posn := (some 10000, some 10000), hpset := (some 10000, some 10000), mnom := (some 10000, some 10000), chgset := (some 10000, some 10000),
    vio := [3300, 3300, 3300, 3300], bkpOut := false, vauxPor := false }
theorem witness_ColdStartKeepsLedger :
    (at_ alone).dev.boot.porst = false ∧ State.reset.dev.boot.porst = true ∧ strapFaults straps = [] ∧ strapCap straps = 2 ∧
    strapFaults { straps with posn := (none, none), role1 := .low } ≠ [] ∧ strapCap { straps with role1 := .low } = 0 ∧
    straps.cut = false ∧ ({ straps with cut := true } : StrapRead).cut = true ∧
    (devOf .standalone 3).pstate = 3 ∧ ¬(alone.flag F.PWR_STAT_HOLDUP = true ∨ alone.pwr.dormant = true ∨ alone.pstate = 3) := by decide +kernel

/-- R137: a strap read that PORST_L cuts short applies nothing, and the assertion abandons it. -/
theorem test_porst_abandons_strap_read :
    (match exec (.vauxPowerOnReset { straps with cut := true }) (at_ alone) with
     | .next t => t.dev.boot.reading && !t.dev.boot.strapsValid && (t.dev.outPin 0).isNone &&
         (match exec .porstLAssert t with | .next u => !u.dev.boot.reading && u.dev.boot.porst | _ => false)
     | _ => false) = true := by decide +kernel

/-- A device in a phase of its start-up. -/
def starting (role : Role) (ps ph : Nat) : Dev :=
  let d := (devOf role ps).setFld F.SUP_BOOT_PHASE ph
  { d with boot := { d.boot with replayed := false } }
theorem witness_StartupPhasesInOrder :
    (alone.boot.strapsValid = true ∧ alone.boot.liveBad = [] ∧ rDecode (some 10700, some 10700) 16 = .inl 1 ∧
      1 ≠ alone.fld F.SUP_RCODE_HPSET ∧ State.reset.dev.boot.strapsValid = false) ∧
    (let d := starting .standalone 15 1
     d.pwr.vcore = true ∧ d.spll = 0 ∧ d.ownHoldover = false ∧ d.started = false ∧ d.phase = 1 ∧ d.pwr.exiting = false) ∧
    (let d := starting .standalone 15 2; d.phase = 2 ∧ d.started = false) ∧
    (let d : Dev := { starting .standalone 15 3 with mram := { supA := { valid := true, sysId := 9, seq := 4 },
                                                               ckpts := [{ (alone.ckptOf 1 0) with sysId := 9 }] } }
     d.pwr.vcore = true ∧ d.phase = 3 ∧ d.boot.replayed = false ∧
     bestSuper { d.mram.supA with valid := d.mram.supA.valid && !false } { d.mram.supB with valid := d.mram.supB.valid && !false } =
       some { valid := true, sysId := 9, seq := 4 } ∧ ∃ c ∈ d.mram.ckpts, c.sysId = 9 ∧ c.block ∉ []) ∧
    (let d := starting .worker 5 12; d.boot.role = .worker ∧ d.pstate = 5 ∧ d.phase ≠ 9 ∧ d.phase ≠ 15) ∧ alone.boot.role ≠ .worker := by
  decide +kernel

/-- A reserve that replays from a checkpoint of incarnation 0 with two ACCEPT records behind it. -/
def replayDev : Dev :=
  { starting .reserve 15 4 with mram := { head := 2, ckpts := [{ (alone.ckptOf 1 0) with nextHm := 5, retained := 0 }],
                                          log := [{ slot := 0, lap := 0, body := { typ := 0x10, hm := 5 } },
                                                  { slot := 1, lap := 0, body := { typ := 0x10, hm := 6 } }] } }
/-- A manager that decides for position 5, which has reported job 7 and not held job 8. -/
def decideDev : Dev :=
  { mgr with jobs := [{ job7 .bound with exec := 5, sent := true }, { job7 .bound with hm := 8, exec := 6 }],
             ldg := { mgr.ldg with decide_ := [(5, [])], reports := [(7, { typ := 4, reason := 0, bn := 900 })] } }
theorem witness_ReplayRestoresLedger :
    (replayDev.pwr.vcore = true ∧ replayDev.phase = 4 ∧ replayDev.boot.replayed = false ∧ replayDev.ldg.corrupt = false ∧
      replayDev.boot.role = .reserve ∧ replayDev.pwr.exiting = false ∧ replayDev.flag F.LDG_STAT_BLANK = false ∧
      replayDev.newestCkpt.isSome = true) ∧
    (decideDev.isMgr = true ∧ decideDev.boot.roleKnown = true ∧ (decideDev.jobs.map Job.hm).Nodup ∧
      (∃ j ∈ decideDev.jobs, j.exec ∉ decideDev.ldg.decide_.map (fun x => x.1)) ∧
      (∃ j ∈ decideDev.jobs, j.exec ∈ decideDev.ldg.decide_.map (fun x => x.1) ∧ j.out = none ∧ j.sent = true ∧
        decideDev.ldg.reports.find? (fun r => r.1 == j.hm) = some (7, { typ := 4, reason := 0, bn := 900 }))) := by decide +kernel

/-- A manager-capable device at claim and census, formatted or not. -/
def claiming (pos : Nat) (f : Bool) : Dev :=
  let d := ((starting .reserve 15 6).setFld F.SUP_RCODE_POSN pos).setFlag F.SUP_ROLE_LEDGER_FORMATTED f
  { d with boot := { d.boot with roleKnown := false, claimOpen := true } }
theorem witness_ManagerIsElectedByRank :
    let d := claiming 1 true
    (d.boot.capable = true ∧ d.boot.roleKnown = false ∧ d.boot.claimOpen = true ∧ d.boot.conflict = false ∧ 0 ≠ d.pos ∧ d.boot.claims = []) ∧
    d.flag F.SUP_ROLE_LEDGER_FORMATTED = true ∧ d.sysId ≠ 1 ∧ d.sysId = 0 ∧ (claiming 0 false).flag F.SUP_ROLE_LEDGER_FORMATTED = false ∧
    (claiming 0 false).pos < 1 := by decide +kernel

/-- A ring device with side A in a state. -/
def sideDev (n : Nat) : Dev := wrkDev.setSide 0 { wrkDev.side 0 with lstate := n }
theorem witness_RingTrainsAndAligns :
    alone.linked = false ∧ ((sideDev 0).linked = true ∧ (sideDev 0).side 0 = {} ∧ ((sideDev 5).side 0).lstate = 5) ∧
    ((sideDev 1).linked = true ∧ ((sideDev 1).side 0).lstate = 1 ∧ (sideDev 1).phase ≠ 9 ∧ (sideDev 1).phase ≠ 5) ∧
    ((sideDev 1).side (1 - 0)).lstate ≠ 4 ∧ ((sideDev 1).side 0).wrapped = false ∧
    (((sideDev 1).setSide 1 { lstate := 4 }).side (1 - 0)).lstate = 4 ∧
    ((sideDev 2).side 0).lstate = 2 ∧ (((sideDev 3).side 0).lstate = 3 ∧ (sideDev 3).pos = 5 ∧ (0x106 : BitVec 64).toNat % 32 ≠ 5) ∧
    alone.boot.role = .standalone ∧ wrkDev.boot.role = .worker ∧
    ((starting .worker 15 7).phase = 7 ∧ ([(3, 10, 20)] : List (Fin 32 × BitVec 24 × BitVec 24)).find? (fun y => y.1.val == 3) = some (3, 10, 20)) := by
  decide +kernel

theorem witness_PowerCommandsHeldAndApplied :
    (alone.gate .host R.PWR_CMD = .pass ∧ (alone.setFlag F.PWR_STAT_BKP_READY true).pwrRefusal 1 false = none ∧ aloneRun.pwrRefusal 2 false = none ∧ alone.pwrRefusal 3 false = none ∧
      aloneRun.pwrRefusal 1 false = some 0x1005 ∧ alone.pwrRefusal 2 false = some 0x1005) ∧
    (alone.boot.role ≠ .manager ∧ alone.pwrRefusal 4 false = none ∧ alone.pwrRefusal 5 true = none ∧ mgr.boot.role = .manager) ∧
    (pwrListed aloneRun.pstate 1 = false ∧
      alone.pwrRefusal 1 false = some 0xA008) ∧
    (∀ b ∈ [999, 1000, 1001], ∀ n ∈ [1, 2, 3, 4, 5],
      let d : Dev := { aloneRun with pwr := { aloneRun.pwr with pend := some { state := n, expire := false, isolate := false, applyBn := b } } }
      d.pwr.draining = false ∧ d.pwr.exiting = false ∧ d.pwr.braceDue = none ∧ d.t.running = true ∧ d.pstate = 0 ∧
      d.jobs.any (fun j => j.active && j.exec == d.pos) = false) ∧
    ({ aloneRun with jobs := [job7 .bound] } : Dev).jobs.any (fun j => j.active && j.exec == 0) = true ∧
    (devOf .standalone 2).pstate = 2 ∧
    (let d := devOf .worker 3
     let q : PwrPend := { state := 5, expire := false, isolate := false, applyBn := 1001 }
     let d : Dev := { d with pwr := { d.pwr with vcore := false, pend := some q }, t := { d.t with running := false } }
     d.pwr.draining = false ∧ d.pwr.exiting = false ∧ d.t.running = false ∧ d.pwr.vcore = false ∧ q.state = 5) := by decide +kernel

/-- A parked or sleeping device without VCORE, on its way out or not. -/
def asleep (ps : Nat) (dorm ex : Bool) : Dev :=
  let d := devOf .standalone ps
  { d with pwr := { d.pwr with vcore := false, dormant := dorm, dormFlag := dorm, isolated := !dorm, exiting := ex }, t := { d.t with running := false } }
theorem witness_ParkAndDormancyExits :
    (let d : Dev := { alone with pwr := { alone.pwr with draining := true } }
     d.pwr.draining = true ∧ d.jobs.any (fun j => j.active && j.exec == d.pos) = false) ∧ alone.pwr.draining = false ∧
    ((asleep 3 false false).pstate = 3 ∧ (asleep 3 false false).pwr.isolated = true ∧ (asleep 3 false false).pwr.exiting = false ∧
      (asleep 3 false false).pwr.bkpDead = false) ∧
    ((asleep 1 true false).pwr.dormant = true ∧ (asleep 1 true false).pwr.dormFlag = true ∧ (asleep 1 true false).dcRel = true) ∧
    ({ asleep 1 true false with pwr := { (asleep 1 true false).pwr with bkpDead := true } } : Dev).pwr.bkpDead = true ∧
    ((asleep 3 false true).pwr.exiting = true ∧ (asleep 3 false true).pwr.vcore = false ∧ (asleep 3 false true).pwr.mevt.length < 16) := by decide +kernel

/-- A device with a BRACE in force. -/
def bracedDev (closed holdup : Bool) : Dev :=
  ((aloneRun.setFlag F.PWR_STAT_BRACE true).setFlag F.PWR_STAT_CLOSED_OUT closed).setFlag F.PWR_STAT_HOLDUP holdup
theorem witness_BraceStartsClosesAndClears :
    (let q : PwrPend := { state := 2, expire := false, isolate := false, applyBn := 1000 }
     let d : Dev := { aloneRun with jobs := [job7 .bound], pwr := { aloneRun.pwr with braceDue := some 1000, pend := some q } }
     d.pwr.braceDue = some 1000 ∧ 1000 ≤ d.now ∧ d.braced = false ∧ (d.jobs.map Job.hm).Nodup ∧ d.pwr.pend ≠ none ∧
     (job7 .bound).exec = d.pos ∧ (job7 .bound).active = true ∧ (job7 .bound).out = none ∧ (job7 .bound).sched = none ∧
     (job7 .bound).placed = false ∧ (job7 .bound).colsPlayed = 0 ∧ (job7 .accepted).active = false) ∧
    aloneRun.pwr.braceDue = none ∧
    ((bracedDev false false).braced = true ∧ (bracedDev false false).flag F.PWR_STAT_CLOSED_OUT = false ∧
      (bracedDev false false).jobs.any (fun j => j.active && j.exec == (bracedDev false false).pos) = false ∧
      (bracedDev false false).flag F.PWR_STAT_HOLDUP = false) ∧
    ((bracedDev false true).flag F.PWR_STAT_HOLDUP = true ∧ (bracedDev false true).dcRel = true ∧
      ((bracedDev false true).setNum R.SUP_DCTHR0 1).dcRel = false) ∧
    (bracedDev true false).braceOver = true ∧ (bracedDev false false).braceOver = false := by decide +kernel

theorem witness_SupplyEventsAndThresholds :
    (0xA007 : Reason) ∉ alone.pwr.raised ∧ alone.pwr.mevt.length < 16 ∧ alone.canBrace = true ∧ (devOf .standalone 3).canBrace = false ∧
    alone.braced = false ∧
    alone.pwr.braceDue = none ∧ (bracedDev false false).braced = true ∧ alone.gate .host R.SUP_DCTHR0 = .pass ∧
    alone.gate .host R.SUP_DCTHR1 = .pass ∧
    (slice (0x00030002 : Word) 27 16 = 3 ∧ ¬slice (0x00030003 : Word) 27 16 < slice (0x00030003 : Word) 11 0) ∧
    slice (0x00020003 : Word) 27 16 < slice (0x00020003 : Word) 11 0 := by decide +kernel

/-- A device whose own SPLL is in holdover, in a phase of Table CLK-12. -/
def holdDev (n : Nat) : Dev := (aloneRun.setFlag F.CLK_STAT_HOLDOVER true).setFld F.CLK_STAT_SPLL n
theorem witness_ClockFaultEntersHoldover :
    (let d : Dev := { aloneRun.setFld F.CLK_STAT_SPLL 1 with jobs := [job7 .bound] }
     d.pwr.vcore = true ∧ d.pstate ≠ 5 ∧ d.ownHoldover = false ∧ d.spll = 1 ∧ d.clk.jobsDue = false ∧
     ({ d with clk := { d.clk with jobsDue := true } } : Dev).clk.jobsDue = true ∧ (d.jobs.map Job.hm).Nodup ∧ (job7 .bound).exec = d.pos ∧
     (job7 .bound).active = true ∧ (job7 .bound).issued = false ∧ ({ job7 .bound with edges := 1 } : Job).issued = true ∧
     (job7 .bound).out = none ∧ ({ job7 .bound with exec := 9 } : Job).exec ≠ d.pos) ∧
    ((holdDev 5).pwr.vcore = true ∧ (holdDev 5).pstate ≠ 5 ∧ (holdDev 5).ownHoldover = true ∧ (holdDev 5).spll = 5) ∧
    (rsvDev.boot.role = .reserve ∧ rsvDev.pwr.vcore = true) ∧
    (let d := (wrkDev.setSide 0 { lstate := 4 }).setFlag F.CLK_STAT_RING_SRC true
     d.flag F.CLK_STAT_RING_SRC = true ∧ d.sideClock = true) ∧
    (devOf .worker 5).pstate = 5 ∧ ((starting .standalone 15 1).phase = 1 ∧ (starting .standalone 15 1).boot.role ≠ .worker) ∧ alone.phase ≠ 1 ∧
    ((holdDev 2).ownHoldover = true ∧ (holdDev 2).spll = 2) ∧ aloneRun.ownHoldover = false := by decide +kernel

theorem witness_HoldoverReturnsInPhases :
    (holdDev 2).spll = 2 ∧ (holdDev 5).spll = 5 ∧ ((holdDev 1).spll ≠ 2 ∧ (holdDev 1).spll ≠ 5) ∧
    ((holdDev 0).spll = 0 ∧ (holdDev 0).pwr.vcore = true ∧ (holdDev 0).ownHoldover = true ∧ ({ holdDev 0 with clk := { aloneRun.clk with lockRef := false } } : Dev).clk.lockRef = false) ∧
    (let d : Dev := { (holdDev 0).setFlag F.CLK_STAT_LOCKED true with clk := { aloneRun.clk with lockRef := true } }
     d.ownHoldover = true ∧ d.spll = 0 ∧ d.clk.lockRef = true ∧ d.flag F.CLK_STAT_LOCKED = true) ∧
    aloneRun.ownHoldover = false ∧ aloneRun.gate .host R.CLK_CMD = .pass := by decide +kernel

/-- A synthesizer in a state, locked or not. -/
def synDev (lock : Bool) (n : Nat) : Dev :=
  ((aloneRun.setFlag F.AS_CTRL_EN true).setFlag F.AS_STAT_LOCKED lock).setFld F.AS_STAT_STATE n
theorem witness_SynthesizerLocksAndBypasses :
    (aloneRun.gate .host R.AS_CMD = .pass ∧ (aloneRun.dom domAsyn).causes.contains Rsn.domainParked = false ∧ aloneRun.depBusy = false ∧
      max ((aloneRun.setNum R.AS_APPLY_LO 1005).num2 R.AS_APPLY_LO R.AS_APPLY_HI) (aloneRun.now + 4) = 1005) ∧
    (let d := synDev true 3; d.flag F.AS_STAT_LOCKED = true ∧ ({ d with clk := { d.clk with cleanWin := true } } : Dev).clk.cleanWin = true) ∧
    (synDev false 2).flag F.AS_STAT_LOCKED = false ∧
    (∃ d : Dev, d.depBusy = true ∧ d.gate .host R.AS_CMD = .pass) ∧
    (∀ b ∈ [1000, 1001],
      let d : Dev := { (synDev true 3).setFlag F.AS_STAT_BYPASS true with clk := { aloneRun.clk with cleanWin := true, asPend := some { prof := 7, hop := true, applyBn := b } } }
      d.asBypass = true ∧ d.clk.cleanWin = true ∧ d.flag F.AS_CTRL_EN = true) ∧
    (synDev false 1).fld F.AS_STAT_STATE = 1 ∧ (synDev false 2).fld F.AS_STAT_STATE ≠ 1 ∧
    ((synDev false 2).ownHoldover = false ∧ (synDev false 2).asBypass = false ∧ (synDev false 2).clk.back = none) ∧
    (synDev true 3).ckSynth = false ∧ (let d := ((synDev true 3).setFlag (F.AS_OUT_EN 0) true).setFld (F.AS_OUT_FMT 0) 1
      ({ d with clk := { d.clk with outs := [(0, .synth)] } } : Dev).ckSynth = true) ∧
    (synDev true 3).clk.unlockBn ≠ some (synDev true 3).now ∧ ((synDev true 3).setFlag F.AS_CTRL_SUSPECT_BYP false).flag F.AS_CTRL_SUSPECT_BYP = false ∧
    (synDev true 3).clk.cksyncBn ≠ some (synDev true 3).now ∧ (synDev true 3).clk.hopping = false ∧
    ({ synDev true 3 with clk := { aloneRun.clk with hopping := true } } : Dev).clk.hopping = true := by
  refine ⟨by decide +kernel, by decide +kernel, by decide +kernel, ⟨{ aloneRun.setNum R.AS_DEP 0x3FFFFFFF with
    jobs := [{ job7 .bound with lanes := [{ out := 0, mode := 0, edges := [] }] }] }, by decide +kernel⟩, by decide +kernel, by decide +kernel, by decide +kernel, by decide +kernel, by decide +kernel⟩

theorem witness_HostPortResetsKeepJobs :
    (alone.boot.role ≠ .worker ∧ alone.flag F.SUP_STRAP_HOSTSEL = false ∧ alone.flag F.HST_STAT_LINK_UP = true ∧
      (0xB004 : Reason) ∉ (alone.dom domHost).causes ∧ alone.boot.perst = false ∧ alone.boot.strapsValid = true ∧ alone.portLive .host = true) ∧
    wrkDev.boot.role = .worker ∧ wrkDev.portLive .host = false ∧ (alone.setFlag F.HST_STAT_LINK_UP false).flag F.HST_STAT_LINK_UP = false := by decide +kernel

/-- A standalone device that reads n waybills of ring 511, in a stage of the read. -/
def reading (n k : Nat) : Dev := { alone with adm := { alone.adm with reading := [(511, (n, k))] } }
/-- The same device with its host on the SPI port. -/
def spiDev : Dev := alone.setFlag F.SUP_STRAP_HOSTSEL true
theorem witness_SubmissionRingsServed :
    (alone.gate .host (R.JR_DB 511) = .pass ∧ alone.isMgr = true ∧ alone.wr.isolated = false ∧ rsvDev.isMgr = false ∧
      rsvDev.gate .host (R.JR_DB 511) = .pass ∧ rsvDev.boot.roleKnown = true ∧ rsvDev.flag F.SUP_STRAP_HOSTSEL = false) ∧
    (mget (0, 0) (reading 2 1).adm.reading 511).2 = 1 ∧ (mget (0, 0) (reading 2 3).adm.reading 511).2 = 3 ∧
    ((mget (0, 0) alone.adm.reading 511).2 ≠ 1 ∧ (mget (0, 0) alone.adm.reading 511).2 ≠ 3) ∧
    (alone.gate .host (R.JR_SQCFG 511) = .pass ∧ alone.flag (F.JR_SQCFG_EN 511) = false ∧ bitOf (0x80000004 : Word) 31 = true ∧
      alone.winTotal + alone.winOf 0x80000004 ≤ 131072 ∧ alone.owedOf 511 0 = [] ∧
      (let d : Dev := { alone with hst := { alone.hst with owed := [(511, { words := [] })] } }; d.owedOf 511 0 ≠ []) ∧ (alone.setFlag (F.JR_SQCFG_EN 511) true).flag (F.JR_SQCFG_EN 511) = true) ∧
    alone.gate .host R.HST_CTRL = .pass ∧
    (spiDev.gate .spi R.HST_SUBGO = .pass ∧ spiDev.flag F.SUP_STRAP_HOSTSEL = true ∧ spiDev.flag F.HST_SUBSTAT_BUSY = false) := by decide +kernel

/-- A standalone device with queue 15 enabled, its TAIL and HEAD, and one waiting entry. -/
def cqDev (tail head : Nat) : Dev :=
  let d := ((alone.setNum (R.HST_CQ_CFG 15) 0x10004).setNum (R.HST_CQ_TAIL 15) tail).setNum (R.HST_CQ_HEAD 15) head
  { d with hst := { d.hst with msixEn := true, cqs := [(15, { wait := [{ words := [0, 0, 0, 0, 0, 0, 0, 0] }], since := 1, sinceBn := 999 })] } }
theorem witness_CompletionQueuesPost :
    (alone.gate .host (R.HST_CQ_CFG 15) = .pass ∧ alone.flag (F.HST_CQ_CFG_EN 15) = false ∧ bitOf (0x10004 : Word) 16 = true) ∧
    ((cqDev 3 0).flag (F.HST_CQ_CFG_EN 15) = true ∧ bitOf (4 : Word) 16 = false ∧ (cqDev 3 0).gate .host (R.HST_CQ_HEAD 15) = .pass) ∧
    (∀ w ∈ [0, 3], (w + 2 ^ 32 - (cqDev 3 0).num (R.HST_CQ_HEAD 15)) % 2 ^ 32 ≤
      ((cqDev 3 0).num (R.HST_CQ_TAIL 15) + 2 ^ 32 - (cqDev 3 0).num (R.HST_CQ_HEAD 15)) % 2 ^ 32) ∧
    (((cqDev 3 0).num (R.HST_CQ_TAIL 15) + 2 ^ 32 - 0) % 2 ^ 32 < (4 + 2 ^ 32 - 0) % 2 ^ 32) ∧
    (((cqDev 15 0).cq 15).wait = { words := [0, 0, 0, 0, 0, 0, 0, 0] } :: [] ∧ (cqDev 15 0).dmaOk = true ∧ (cqDev 15 0).cqRoom 15 = true ∧
      (cqDev 15 0).flag F.SUP_STRAP_HOSTSEL = false ∧ (cqDev 15 0).unmirrored 0 = false) ∧
    (cqDev 16 0).cqRoom 15 = false ∧
    (((cqDev 3 0).cq 15).since ≠ 0 ∧ ((cqDev 3 0).cq 15).sinceBn + (cqDev 3 0).fld (F.HST_CQ_MOD_TIME 15) ≤ (cqDev 3 0).now) ∧
    (alone.cq 15).since = 0 ∧
    (let d := (cqDev 3 0).setNum (R.MSIX_PBA 1) 0x80000000
     d.gate .host (R.MSIX_TABLE (4 * 63 + 3)) = .pass ∧ d.mayMsix 63 = true ∧ bitOf (d.reg (R.MSIX_PBA (63 / 32))) (63 % 32) = true) := by
  decide +kernel

theorem witness_SpiRequestsCheckedWhole :
    let good := fun (op : Nat) (low : BitVec 6) (addr : Nat) (ws : List Word) =>
      spiCrc (spiCmdByte op low :: beBytes 3 addr ++ ws.flatMap (fun w => beBytes 4 w.toNat))
    spiDev.spiLive = true ∧ good 1 0 0 [] = 0x9B ∧ good 1 0 0 [] ≠ 0 ∧
    ((0x20 : BitVec 6).getLsbD 4 = false ∧ (0x20 : BitVec 6).getLsbD 5 = true ∧ 2 ^ 24 - 4 + 4 * 1 ≤ 2 ^ 24 ∧ 2 ^ 24 < 2 ^ 24 - 4 + 4 * 2 ∧
      spiDev.rgate .spi 0x50000 = .full ∧ spiDev.storeGate .spi = true ∧ spiDev.protects [] 0xFFFFFC 4 = false) := by decide +kernel

/-- What a position reports of an executor that may carry everything. -/
def farOk : FarExec :=
  { fenced := none, missing := none, calendar := false, cols := [], edges := [], occ := [], lead := 0, vmax := 0, glitch := 0, frozen := false }
/-- A waybill without lanes, players or tallies. -/
def bill (seq : Nat) : List Word := BitVec.ofNat 32 seq :: 1 :: 0x00FFFFFF :: List.replicate 7 0 ++ (0xFF :: List.replicate 5 0)
/-- A standalone device in RUN with ring 3 enabled, bound and expecting sequence 0, and one read waybill. -/
def examDev (b : List Word) : Dev :=
  let d := ((aloneRun.setFlag (F.JR_SQCFG_EN 3) true).setFlag (F.JR_BIND_VALID 3) true).setNum (R.HST_CQ_CFG 0) 0x10004
  let d := (d.setFlag (F.JR_ACFG_CRCEN 3) false).setFlag (F.TRG_CFG_EN 0) true
  { d with adm := { d.adm with ready := [(3, [b])], win := [(3, [{ rseq := 9, hm := 2, st := .struck }])] } }

theorem witness_WaybillAcceptedOrAnswered :
    let d := examDev (bill 0)
    (d.admits = true ∧ d.adm.examined < 2 ∧ (d.backlog = true ∨ d.dueCount 3 < 4) ∧ d.readyOf 3 = bill 0 :: [] ∧
      d.cqFull (d.ringCq 3) = false ∧ d.nextRing d.adm.rrExam [3] = some 3 ∧ d.examineAnswer [] 3 (bill 0) farOk = none) ∧
    (examDev (bill 1)).examineAnswer [] 3 (bill 1) farOk ≠ none ∧
    ((mget [] d.adm.win 3).find? (fun e => e.rseq == 9) = some { rseq := 9, hm := 2, st := .struck } ∧ 9 ≠ d.num (R.JR_NEXTSEQ 3) ∧
      d.flag (F.JR_BIND_VALID 3) = true ∧ d.adm.nextHm < 2 ^ 48) ∧
    ({ d with adm := { d.adm with examined := 2 } } : Dev).adm.examined = 2 := by decide +kernel

theorem witness_ExpectedSequenceWrite :
    alone.gate .host (R.JR_NEXTSEQ 511) = .pass ∧ alone.flag (F.JR_SQCFG_EN 511) = false ∧ (∀ x ∈ alone.jobs, x.ring ≠ 511) ∧
    (examDev []).flag (F.JR_SQCFG_EN 3) = true ∧ (∃ x ∈ (mgrJob .bound).jobs, x.ring = 0) := by decide +kernel

/-- A manager with a sealed job for the provisioned position 5. -/
def dispDev : Dev :=
  { mgr.setNum (R.PWR_WSTATE 0) 0 with jobs := [{ job7 .accepted with exec := 5, sealed := true, body := bill 0 }], wr := { mgr.wr with prov := [(5, 6)] } }
/-- A DISPATCH message for hallmark 9 of ring 1. -/
def dispatch9 : DispatchIn := { hm := 9, tag := 5, ring := 1, acceptBn := 900, body := bill 0 }
theorem witness_JobDispatchedToExecutor :
    (dispDev.keeps = true ∧ dispDev.boot.role = .manager ∧ dispDev.adm.dispatched < 2 ∧ dispDev.nextJob 0 = dispDev.jobs.head? ∧ dispDev.nextRing dispDev.adm.rrDisp [0] = some 0 ∧
      5 ≠ dispDev.pos ∧ dispDev.freeTag 5 = some 0 ∧ (∀ j ∈ dispDev.jobs, dispDev.acceptSealed j = true ∧ dispDev.takesJobs j.exec = true)) ∧
    rsvDev.keeps = false ∧
    (wrkDev.isMgr = false ∧ wrkDev.started = true ∧ wrkDev.job? 9 = none ∧ wrkDev.fld (F.JR_BIND_TSRC 1) ≠ 3) ∧ mgr.isMgr = true := by
  decide +kernel

/-- A standalone device in RUN with a dispatched job of ring 0 and a capture of the beat before for it. -/
def bindDev : Dev :=
  { aloneRun with jobs := [{ job7 .dispatched with dispBn := 999, body := bill 0 }],
                  trg := { aloneRun.trg with caps := [{ tsrc := 0, tidx := 0, stamp := 999 * fsPerBeat, bn := 999, pos := 0, rings := [0] }] } }
theorem witness_CaptureBindsOldestWaitingJob :
    alone.mayBind = false ∧
    (bindDev.mayBind = true ∧ (∀ c ∈ bindDev.trg.caps, c.bn < bindDev.now ∧ c.rings = [0]) ∧ bindDev.ringHeld 0 = false ∧
      bindDev.trg.bound < 16 ∧ (bindDev.jobs.map Job.hm).Nodup ∧
      (∀ k ∈ bindDev.jobs, k.tallyWait = false ∧ bindDev.fld (F.JR_BIND_TSRC k.ring) ≠ 3) ∧
      oldestJob (bindDev.jobs.filter (fun k => k.ring == 0 && k.exec == bindDev.pos && k.waiting && decide (k.dispBn ≤ 999) &&
        (k.wait_ == 0 || decide (999 < k.acceptBn + k.wait_)))) = bindDev.jobs.head?) := by decide +kernel

/-- A standalone device with a waiting job whose WAIT of 4 beats counts from an accept beat, and an unsent job behind it. -/
def waitDev (b : Nat) : Dev :=
  { alone with jobs := [{ job7 .dispatched with acceptBn := b, body := 0 :: 1 :: 0 :: 0 :: 4 :: List.replicate 11 0 },
                        { job7 .accepted with hm := 8, rseq := 4 }] }
theorem witness_WaitingJobsExpireOrCancel :
    (((waitDev 996).jobs.map Job.hm).Nodup ∧ ((waitDev 996).jobs.head?.map Job.wait_) = some 4 ∧
      oldestJob ((waitDev 996).jobs.filter (fun j => j.ring == 0 && (j.st == .accepted || j.st == .dispatched))) = (waitDev 996).jobs.head? ∧
      996 + 4 ≤ (waitDev 996).now ∧ (waitDev 996).trg.caps = [] ∧ (waitDev 997).now < 997 + 4) ∧
    (let d := (waitDev 996).setNum R.JR_CANCEL_SEQ 4
     d.gate .host R.JR_CANCEL_CMD = .pass ∧ d.isMgr = true ∧ d.flag F.JR_CANCEL_STAT_BUSY = false ∧
     (d.jobs.find? (fun j => j.ring == 0 && j.rseq == d.num R.JR_CANCEL_SEQ)).map Job.hm = some 8) ∧
    (waitDev 996).jobs.find? (fun j => j.ring == 0 && j.rseq == (waitDev 996).num R.JR_CANCEL_SEQ) = none ∧
    (wrkDev.isMgr = false ∧ (waitDev 996).isMgr = true) := by decide +kernel

/-- A device in RUN with trigger input 15 enabled, rising edges active, at a raw level since an instant. -/
def trgDev (raw level disarmed : Bool) (at0 : Nat) : Dev :=
  let d := (aloneRun.setFlag (F.TRG_CFG_EN 15) true).setFld (F.TRG_GCFG_FMT 3) 1
  { d with trg := { d.trg with inp := [(15, { raw := raw, level := level, disarmed := disarmed, rawAt := at0 })] } }
/-- A device in RUN that captures mains phase point 3 for ring 2. -/
def mphDev : Dev :=
  let d := (((aloneRun.setFlag (F.SUP_MPH_EN 3) true).setFld F.SUP_RCODE_MNOM 9).setFlag (F.JR_BIND_VALID 2) true)
  let d := (d.setFld (F.JR_BIND_TSRC 2) 2).setFld (F.JR_BIND_TIDX 2) 3
  { d with pwr := { d.pwr with zcRise := some 1000, mfreq := 50000 } }
theorem witness_TriggerInputsCapture :
    ((trgDev false false false 0).trgOn 15 = true ∧ ((trgDev false false false 0).trgIn 15).raw ≠ true ∧ alone.trgOn 15 = false) ∧
    (let d := trgDev true false false (1000 * fsPerBeat)
     let v := d.trgIn 15
     v.raw ≠ v.level ∧ v.rawAt / 2048 + d.fld (F.TRG_CFG_GLITCH 15) ≤ d.now * 240 + 0 ∧ d.trgActive 15 v.raw = true ∧ v.disarmed = false ∧
     d.clk.holdover = false ∧ d.fld (F.TRG_CFG_HMODE 15) = 0 ∧ v.capBn ≠ some d.now) ∧
    (let d := (trgDev true false true 0).setFld (F.TRG_DEB_DEBOUNCE 15) 0xFFFF
     let v := d.trgIn 15
     d.trgActive 15 v.raw = true ∧ v.disarmed = true ∧
     v.rawAt / 2048 + d.fld (F.TRG_CFG_GLITCH 15) < v.inactAt + d.fld (F.TRG_DEB_DEBOUNCE 15)) ∧
    (let d := trgDev false true true (1000 * fsPerBeat); d.trgActive 15 (d.trgIn 15).raw = false) ∧
    (let d := trgDev false false true 0
     let v := d.trgIn 15
     v.disarmed = true ∧ d.trgActive 15 v.level = false ∧ v.inactAt + d.fld (F.TRG_DEB_DEBOUNCE 15) ≤ d.now * 240 + 0) ∧
    (mphDev.t.running = true ∧ mphDev.flag (F.SUP_MPH_EN 3) = true ∧ mphDev.fld F.SUP_RCODE_MNOM ≠ 0 ∧ mphDev.pwr.trackLost = false ∧
      mphDev.phaseBeat 3 = some mphDev.now ∧ mphDev.po.ilkLow = false ∧ mphDev.po.acting = false ∧ mphDev.clk.holdover = false ∧ mphDev.started = true ∧ mphDev.mayBind = true ∧
      mphDev.flag (F.JR_BIND_VALID 2) = true ∧ mphDev.fld (F.JR_BIND_TSRC 2) = 2 ∧ mphDev.fld (F.JR_BIND_TIDX 2) = 3) ∧
    alone.flag (F.SUP_MPH_EN 3) = false := by decide +kernel

/-- A device with encoder 7 enabled in a mode, after a number of transitions in the beat. -/
def encDev (mode n : Nat) : Dev :=
  let d := (alone.setFlag (F.ENC_CFG_EN 7) true).setFld (F.ENC_CFG_MODE 7) mode
  { d with trg := { d.trg with enc := [(7, { inBeat := n, pos := 5 })] } }
theorem witness_EncodersCount :
    alone.flag (F.ENC_CFG_EN 7) = false ∧ ((encDev 0 12).flag (F.ENC_CFG_EN 7) = true ∧ (encDev 0 12).pwr.vcore = true ∧
      encStep 0 false false true false ≠ 0 ∧ ((encDev 0 12).enc 7).inBeat ≤ 12 ∧ 12 < ((encDev 0 12).enc 7).inBeat + 1) ∧
    (encDev 0 0).fld (F.ENC_CFG_MODE 7) ≠ 3 ∧ ((encDev 0 0).setFld (F.ENC_CFG_ZMODE 7) 2).fld (F.ENC_CFG_ZMODE 7) = 2 ∧
    ((encDev 0 0).enc 7).lastBn + (encDev 0 0).fld (F.ENC_SPWIN_STOPTMO 7) ≤
      ({ encDev 0 0 with t := { alone.t with bn := 70000 } } : Dev).now := by decide +kernel

/-- A device in RUN with a bound distance job of ring 0 whose origin is open; encoder 0 makes one count a beat from position 0 at beat 1 000. -/
def distDev (target : Int) : Dev :=
  let d := (aloneRun.setFlag (F.JR_BIND_ENC_EN 0) true).setFlag (F.ENC_STAT_SPEED_VALID 0) true
  { d with trg := { d.trg with enc := [(0, { spN := 1, spD := fsPerBeat, hist := [(1000 * fsPerBeat, 0)] })] },
           jobs := [{ job7 .bound with body := 0 :: 0x401 :: List.replicate 14 0, target := target * 65536 }] }
theorem witness_OriginsAndReachesResolve :
    (∀ n ∈ [(0 : Int), 1, 2], (distDev n).job? 7 = (distDev n).jobs.head? ∧
      (∀ j ∈ (distDev n).jobs, j.active = true ∧ j.exec = (distDev n).pos ∧ j.dkind = true ∧ j.resolved = false ∧ j.closing = none ∧
        j.out = none ∧ j.limit = 0 ∧ (distDev n).jobLead j = 1)) ∧
    ((distDev 2).predict 0 (2 * 65536)).map beatOf = some 1002 ∧ ((distDev 1).predict 0 65536).map beatOf = some 1001 ∧
    ((distDev 0).predict 0 0).map beatOf = some 1000 ∧ bindDev.flag (F.JR_BIND_ENC_EN 0) = false ∧
    (distDev 1).flag (F.JR_BIND_ENC_EN 0) = true := by decide +kernel

/-- A device in RUN with an edge of job 7 loaded for output 31, and a marker action, at the start of a beat. -/
def edgeDev (b : Nat) (low : Bool) : Dev :=
  { aloneRun with jobs := [{ job7 .bound with edgesOpen := 1 }],
                  po := { aloneRun.po with ilkLow := low, outs := [(31, { safe := false })], queue := [{ out := 31, inst := b * fsPerBeat, lvl := true, hm := 7, lane := 2 }] }
                  sp := { aloneRun.sp with acts := [{ marker := 15, inst := b * fsPerBeat, set := true, hm := 7 }] } }
/-- A device in RUN whose output 31 has been active for job 7 since a beat, with a limit of 10 beats. -/
def actDev (b : Nat) : Dev :=
  { (aloneRun.setFld (F.PO_MAXACT_MAXIMUM 31) 10).setFlag (F.PO_CFG_EN 31) true with jobs := [job7 .striking], po := { aloneRun.po with outs := [(31, { holders := [(7, 0)], since := some b, safe := false })] } }
theorem witness_OutputsAndMarkersAct :
    ((∀ x ∈ (edgeDev 1000 false).po.queue, x.out = 31 ∧ beatOf x.inst ≤ (edgeDev 1000 false).now) ∧
      ((edgeDev 1000 false).po.ilkLow || (edgeDev 1000 false).po.acting || ((edgeDev 1000 false).outSt 31).safe) = false ∧
      ((edgeDev 1000 true).po.ilkLow || (edgeDev 1000 true).po.acting || ((edgeDev 1000 true).outSt 31).safe) = true ∧
      (∀ x ∈ (edgeDev 1001 false).po.queue, (edgeDev 1001 false).now < beatOf x.inst) ∧ ∀ j ∈ (edgeDev 1000 false).jobs, j.flaw = none) ∧
    aloneRun.po.queue = [] ∧ (aloneRun.outSt 31).since = none ∧
    (((actDev 990).outSt 31).since = some 990 ∧ (actDev 990).fld (F.PO_MAXACT_MAXIMUM 31) = 10 ∧ 990 + 10 ≤ (actDev 990).now ∧
      (actDev 990).outActive 31 = true ∧ ((actDev 990).jobs.map Job.hm).Nodup ∧ (actDev 991).now < 991 + 10) ∧
    (∀ x ∈ (edgeDev 1000 false).sp.acts, x.marker = 15 ∧ beatOf x.inst ≤ (edgeDev 1000 false).now) := by decide +kernel

/-- A device in RUN in which the interlock acts. -/
def ilkDev : Dev := { aloneRun with jobs := [job7 .bound], po := { aloneRun.po with ilkLow := true, acting := true, beatDue := true } }
theorem witness_InterlockStopsOutputs :
    aloneRun.po.beatDue = false ∧ aloneRun.po.acting = false ∧ (ilkDev.po.beatDue = true ∧ (ilkDev.jobs.map Job.hm).Nodup ∧ ilkDev.po.acting = true ∧
      (∀ j ∈ ilkDev.jobs, j.active = true ∧ j.exec = ilkDev.pos ∧ j.out = none)) ∧
    ilkDev.fld F.PO_ILKREL_RELEASE = 2084 := by decide +kernel

/-- A standalone device in READY with a load set up. -/
def loadDev (len dst : Nat) : Dev := ((alone.setNum R.SP_LDLEN len).setNum R.SP_LDSRC 0).setNum R.SP_LDDST dst
/-- A device with player 0 enabled, whose step table at the store's start is protected. -/
def lockDev : Dev := spiDev.setNum (R.SP_CFG 0) 1
/-- LOAD data for a store address or a stream. -/
def load4 (dst : BitVec 24) (stream : Bool) : LoadIn := { dst := dst, bytes := [1, 2, 3, 4], stream := stream, player := 15 }
/-- A device in RUN with an active job whose player 15 has waited in a step since a beat; the step waits 10 beats and then goes on (act) or fails. -/
def stepSt (b : Nat) (act : Bool) : State :=
  { pending := [], store := storeWrite [] 0x3000 (wordBytes 0 ++ wordBytes (if act then 0x10001 else 1) ++ wordBytes 10),
    dev := { aloneRun with jobs := [{ job7 .striking with plays := [{ sp := 15, hp := 0, stBase := 24, segTab := 0, slTab := 0, step := 0,
                                                                      waitFrom := some b }] }] } }
/-- A device whose player 15 has a stream buffer of 4 granules, of which one is written and none read. -/
def sbDev : Dev := (alone.setNum (R.SP_SBCFG 15) 2).setNum (R.SP_SBWR 15) 1
theorem witness_PlayersStoreAndLoads :
    (2 ^ 24 < 0xFFFFFF + 2 ∧ 0xFFFFFF + 1 ≤ 2 ^ 24 ∧ (at_ rsvDev).dev.storeGate .host = false ∧ (at_ alone).dev.storeGate .host = true ∧
      lockDev.storeGate .spi = true ∧ lockDev.protects [] 0x3FFF 1 = true ∧ alone.protects [] 0xFFFFFF 1 = false) ∧
    (lockDev.spiLive = true ∧ lockDev.spiCheck 2 0x20 0 (spiData 0x20 [1])
        (spiCrc (spiCmdByte 2 0x20 :: beBytes 3 0 ++ (spiData 0x20 [1]).flatMap (fun w => beBytes 4 w.toNat))) = none ∧ spiStore 0x20 = true ∧
      lockDev.protects [] 0 (4 * (spiData 0x20 [1]).length) = true) ∧
    (alone.pwr.vcore = true ∧ 2 ^ 24 < alone.loadAt [] (load4 0xFFFFFD false) + 4 ∧ alone.loadAt [] (load4 0xFFFFFC false) + 4 ≤ 2 ^ 24 ∧
      lockDev.protects [] (lockDev.loadAt [] (load4 0x3FFD false)) 4 = true ∧ (load4 0 true).stream = true) ∧
    (alone.gate .host R.SP_LDCMD = .pass ∧ bitOf (0x80000000 : Word) 31 = true ∧ bitOf (0x80000000 : Word) 8 = false ∧ alone.sp.load = none ∧
      (loadDev 32 0xFFFFE0).fld F.SP_LDLEN_BYTES = 32 ∧ (loadDev 32 0xFFFFE0).fld F.SP_LDDST_DESTINATION + 32 ≤ 2 ^ 24 ∧
      2 ^ 24 < (loadDev 64 0xFFFFE0).fld F.SP_LDDST_DESTINATION + 64 ∧ (loadDev 32 0xFFFFE0).protects [] 0xFFFFE0 32 = false) ∧
    (∀ b ∈ [990, 991], ∀ a ∈ [true, false], (stepSt b a).dev.jobs.length = 1 ∧
      (stepAt (stepSt b a).store 24 0).adv = 1 ∧ (stepAt (stepSt b a).store 24 0).waitMax = 10 ∧ (stepAt (stepSt b a).store 24 0).waitAct = a ∧
      (b = 990 → b + 10 ≤ (stepSt b a).dev.now) ∧ (b = 991 → (stepSt b a).dev.now < b + 10)) ∧
    (sbDev.gate .host (R.SP_SBWR 15) = .pass ∧ sbDev.sbDepth 15 = 4 ∧ (4 + 2 ^ 32 - sbDev.num (R.SP_SBRD 15)) % 2 ^ 32 ≤ sbDev.sbDepth 15 ∧
      sbDev.sbDepth 15 < (5 + 2 ^ 32 - sbDev.num (R.SP_SBRD 15)) % 2 ^ 32) := by decide +kernel

/-- A device in RUN with every head port enabled and port 15 FRAMED in a link state since a beat, after failed attempts. -/
def hpDev (n since fails : Nat) : Dev :=
  let d := (((aloneRun.setFld F.SUP_RCODE_HPSET 16).setFld (F.HP_CFG_MODE 15) 1).setFld (F.HP_STAT_LSTATE 15) n)
  { d with hp := [(15, { since := since, fails := fails })] }
theorem witness_HeadLinksTrain :
    ((hpDev 1 0 0).hpFramed 15 = true ∧ (hpDev 1 0 0).lstate 15 = 1 ∧ (hpDev 2 0 0).lstate 15 = 2 ∧ (hpDev 3 0 0).lstate 15 = 3 ∧
      (hpDev 4 0 0).lstate 15 = 4 ∧ (hpDev 7 0 0).lstate 15 = 7 ∧ aloneRun.hpFramed 15 = false) ∧
    ((hpDev 3 0 0).fld (F.HP_EXPECT0_VENDOR 15) = 0 ∧ (hpDev 3 0 0).fld (F.HP_EXPECT0_PRODUCT 15) = 0 ∧
      (hpDev 3 0 0).fld (F.HP_EXPECT1_MINCH 15) = 1 ∧ (hpDev 3 0 0).fld (F.HP_EXPECT1_MAXCOL 15) = 1 ∧ (hpDev 3 0 0).fld (F.HP_LATMAX_NS 15) = 1200) ∧
    (488 + 512 ≤ (hpDev 2 488 2).now ∧ (hpDev 2 489 0).now < 489 + 512 ∧ (hpDev 1 0 0).now < 0 + 4096 ∧
      (hpDev 2 488 2).fld (F.HP_CFG_RETRY 15) = 3 ∧ ((hpDev 2 488 2).hpSt 15).fails + 1 = 3 ∧ ((hpDev 2 488 1).hpSt 15).fails + 1 < 3) ∧
    (let d : Dev := { hpDev 7 0 0 with t := { aloneRun.t with bn := 65536 } }
     d.flag (F.HP_CFG_AUTOTRAIN 15) = true ∧ d.lstate 15 = 7 ∧ (d.hpSt 15).since + 65536 ≤ d.now ∧
     (d.dom 15).causes.contains 0x5003 = false) ∧
    ((hpDev 4 0 0).setFlag (F.HP_CFG_AUTOTRAIN 15) false).flag (F.HP_CFG_AUTOTRAIN 15) = false ∧
    (hpDev 7 0 0).gate .host (R.HP_TRAIN 15) = .pass := by decide +kernel

/-- Port 15 UP, with a frame of an execution beat that carries a column of job 7, or none. -/
def frameDev (b : Nat) (job : Option Nat) (sent reported : Bool) : Dev :=
  { hpDev 4 0 0 with jobs := [{ job7 .bound with colsOpen := 1 }],
                     hp := [(15, { frames := [{ bn := b, bytes := [1, 2], job := job, sent := sent, reported := reported }] })] }
/-- A status frame that reports the frame of beat 998 FIRED under an incarnation, with a good CRC-16. -/
def statusBytes (inc : Byte) : List Byte :=
  let c : List Byte := [0, 0, 0xE6, 3, 0, inc, 0, 0, 0, 0]
  c ++ [(crc16 (c.drop 1)).setWidth 8, ((crc16 (c.drop 1)) >>> 8).setWidth 8]
/-- Port 15 with an outstanding command since a beat, or none; and engine 63 with two TX words for it. -/
def cmdDev (c : Option (Option Nat)) (own : Bool) : Dev :=
  let d := (((aloneRun.setFlag (F.TNK_CFG_TXDST 63) true).setFld (F.TNK_CFG_CMDPORT 63) 15).setFlag (F.HP_CMDOWN_OWNER 15) own)
  let d := d.setFld (F.HP_CMDOWN_ENGINE 15) (if own then 63 else 0)
  { d with hp := [(15, { cmd := c.map (fun b => { cseq := 1, cop := 1, addr := 0, data := 0, bn := b }) })],
           tnk := { d.tnk with eng := [(63, { tx := { items := [(0x10002, 5), (0xAB, 6)] } })] } }
theorem witness_HeadFramesAndPartnerCommands :
    ((frameDev 998 none false false).hpSends 15 = true ∧
      (((frameDev 998 none false false).hpSt 15).frames.find? (fun f => !f.sent)).isSome = true ∧
      (frameDev 998 none false false).hpSendNs 15 998 / 480 ≤ 1000 ∧ 1000 < (frameDev 1004 none false false).hpSendNs 15 1004 / 480 ∧ aloneRun.hpSends 15 = false) ∧
    (((frameDev 998 (some 7) true false).hpSends 15 && (frameDev 998 (some 7) true false).lstate 15 == 4) = true ∧
      crc16 (((statusBytes 1).drop 1).take 9) = BitVec.ofNat 16 (((statusBytes 1).getD 10 0).toNat + 256 * ((statusBytes 1).getD 11 0).toNat) ∧
      crc16 ((([] : List Byte).drop 1).take 9) ≠ 0 ∧ ((statusBytes 1).getD 5 0).toNat = ((frameDev 998 (some 7) true false).dom 15).inc ∧
      ((statusBytes 2).getD 5 0).toNat ≠ ((frameDev 998 (some 7) true false).dom 15).inc ∧ ((statusBytes 1).getD 4 0).toNat % 16 = 0 ∧
      ((frameDev 996 (some 7) true false).now ≤ 996 + 4)) ∧
    ((((frameDev 997 (some 7) true false).hpSt 15).frames.find? (fun f => !f.reported && decide (f.bn + 3 ≤ 1000))).isSome = true ∧
      (∀ f ∈ ((frameDev 998 none true false).hpSt 15).frames, 1000 < f.bn + 3)) ∧
    ((cmdDev none false).gate .host (R.HP_CMD 15) = .pass ∧ ((cmdDev none false).dom 15).causes.contains 0x5003 = false ∧
      ((cmdDev none false).flag (F.HP_CMDOWN_OWNER 15) || ((cmdDev none false).hpSt 15).cmd.isSome) = false ∧
      ((cmdDev (some none) false).hpSt 15).cmd.isSome = true ∧ (cmdDev none true).flag (F.HP_CMDOWN_OWNER 15) = true) ∧
    (936 + 64 ≤ (cmdDev (some (some 936)) false).now ∧ (cmdDev (some (some 937)) false).now < 937 + 64 ∧
      ((cmdDev (some (some 936)) false).hpSt 15).byEng = none) ∧
    (((cmdDev none true).eng 63).tx.items = (0x10002, 5) :: (0xAB, 6) :: [] ∧ (cmdDev none true).flag (F.TNK_CFG_TXDST 63) = true ∧
      (cmdDev none true).fenced (domTe 63) = false ∧ (cmdDev none true).fld (F.HP_CMDOWN_ENGINE 15) = 63 ∧ slice (0x10002 : Word) 19 16 = 1 ∧
      (aloneRun.eng 63).tx.items.length < 2) := by decide +kernel

/-- A device in RUN with sync group 0 made of engines 0 and 63. -/
def grpDev : Dev := (aloneRun.setNum (R.TNK_SGMASK_LO 0) 1).setNum (R.TNK_SGMASK_HI 0) 0x80000000
/-- The same device with a command pending for a beat. -/
def pendDev (start : Bool) (b : Nat) : Dev := { grpDev with tnk := { grpDev.tnk with pend := some { idx := 0, engine := false, start := start, bn := b } } }
theorem witness_EnginesStartAndStop :
    (grpDev.gate .host R.TNK_CMD = .pass ∧ grpDev.tnk.pend = none ∧ grpDev.cmdEngines false 0 = [0, 63] ∧ grpDev.cmdEngines true 5 = [5] ∧
      grpDev.groupPeers 5 = [] ∧ grpDev.groupPeers 63 ≠ [] ∧ grpDev.cmdEngines false 16 = [] ∧
      (∀ n ∈ [0, 63], grpDev.fenced (domTe n) = false ∧ (grpDev.dom (domTe n)).causes.contains 0x5003 = false)) ∧
    ((pendDev true 1000).tnk.pend ≠ none ∧ 1000 ≤ (pendDev true 1000).now ∧ (pendDev true 1001).now < 1001) ∧
    ({ grpDev with fen := { grpDev.fen with doms := [(domTe 63, { causes := [0x5003] })] } } : Dev).fenced (domTe 63) = true := by decide +kernel

/-- Engine 63 running in a state without a wait that is held for 2 ticks, with ticks made since its entry. -/
def engDev (ticks : Nat) : Dev :=
  let d := (aloneRun.setFlag (F.TNK_CFG_EN 63) true).setNum (R.TNK_PROG 63 0 2) 0x20000
  { d with tnk := { d.tnk with eng := [(63, { running := true, entered := true, ticks := ticks, c0 := 240000 })] } }
/-- A group stalled for its limit, or one stall less. -/
def stallDev (n : Nat) : Dev :=
  { grpDev with tnk := { grpDev.tnk with grp := [0], stall := [(0, n)] } }
theorem witness_EnginesTickAndTakeInputs :
    (alone.flag (F.TNK_CFG_EN 63) = false ∧ onGrid 240000 0x10000 239999 = false ∧ (engDev 0).num (R.TNK_DIV 63) = 0x10000) ∧
    ((engDev 0).engTicks 63 240000 = true ∧ ((engDev 0).eng 63).entered = true ∧ ((engDev 0).eng 63).swapDue = false ∧
      blocks ((engDev 0).entry 63 0) ((engDev 0).entry 63 3) = false ∧ 0 + 1 < slice ((engDev 0).entry 63 2) 31 16 ∧
      1 + 1 = slice ((engDev 1).entry 63 2) 31 16 ∧ slice ((engDev 1).entry 63 0) 5 0 = 0 ∧ slice ((engDev 1).entry 63 0) 13 8 = 0) ∧
    (aloneRun.inputOff 0xA9 = true ∧ aloneRun.inputOff 0 = false ∧ (mget (false, 0) aloneRun.tnk.inputs 0).1 ≠ true ∧
      (aloneRun.ownInput 0).getD true = true) ∧
    (aloneRun.gate .host R.TNK_KICK_HI = .pass ∧ aloneRun.gate .host R.TNK_KICK_LO = .pass ∧ aloneRun.gate .host (R.TNK_RXWR 63) = .pass) ∧
    ((aloneRun.setFlag (F.TNK_CFG_HOSTQ 63) true).flag (F.TNK_CFG_HOSTQ 63) = true ∧
      (aloneRun.eng 63).rx.taken aloneRun.cyc < aloneRun.rxCap 63 ∧ aloneRun.flag (F.TNK_CFG_HOSTQ 63) = false) ∧
    ((stallDev 2047).fld (F.TNK_SGCFG_STALL 0) = 2048 ∧ mget 0 (stallDev 2047).tnk.stall 0 < 2048 ∧ 2048 ≤ mget 0 (stallDev 2048).tnk.stall 0) := by
  decide +kernel

/-- A local commit of the standalone device for a milestone, and a ring-wide one for positions 0 and 5. -/
def localC (ms : Nat) (co : Bool) : CommitSt := { id := 1, ms := ms, scope := 1, local_ := true, checkOnly := co, checkBn := 990 }
def wideC (ms pend : Nat) : CommitSt := { id := 1, ms := ms, scope := 33, local_ := false, pendV := pend, checkBn := 990 }
/-- A device with a commit in progress and a waiting SCC_CMD. -/
def sccDev (d : Dev) (c : Option CommitSt) (cmd : Option Word) : Dev := { d with scc := { d.scc with cur := c, cmd := cmd } }
/-- A standalone device with commit 1 staged for a milestone, and a waiting GO. -/
def goDev (ms : Nat) : Dev :=
  sccDev (((aloneRun.setNum R.SCC_ID 1).setNum R.SCC_MS_LO ms).setNum R.SCC_SCOPE 1) none (some 1)
theorem witness_CommitCommandsTaken :
    (aloneRun.gate .host R.SCC_CMD = .pass ∧ aloneRun.isMgr = true ∧ rsvDev.isMgr = false ∧
      (spiDev.setFlag F.SUP_STRAP_HOSTSEL false).gate .host R.SCC_CMD = .pass) ∧
    ((goDev 1004).scc.cmd = some 1 ∧ (goDev 1004).sccRefusal = none ∧ (goDev 1004).sccScope = 2 ^ (goDev 1004).pos ∧
      (goDev 1003).sccRefusal = some 0x4001) ∧
    ((sccDev aloneRun (some (localC 2000 false)) (some 4)).scc.cur = some (localC 2000 false) ∧ (localC 2000 false).decision = none ∧
      (localC 2000 false).prov = false ∧ ({ wideC 2000 0 with decision := some 0 } : CommitSt).decision ≠ none) := by decide +kernel

theorem witness_CommitCheckedAndRun :
    ((localC 1001 false).result = none ∧ (localC 1001 false).scope.testBit aloneRun.pos = true ∧ (localC 1001 false).prov = false ∧
      (localC 1001 false).local_ = true ∧ (sccDev aloneRun (some (localC 1001 false)) none).now < (localC 1001 false).ms ∧
      (localC 1000 true).ms ≤ aloneRun.now ∧ (wideC 1001 0).scope.testBit wrkDev.pos = true ∧ (wideC 1001 0).local_ = false) ∧
    (wrkDev.isMgr = false ∧ wrkDev.pwr.vcore = true ∧ (33 : Word).toNat.testBit wrkDev.pos = true ∧ wrkDev.scc.cur = none ∧
      (7 : Word).toNat ≠ wrkDev.num R.SCC_LASTID ∧ mgr.isMgr = true) ∧
    (let d := sccDev mgr (some (wideC 2000 0)) none
     d.isMgr = true ∧ (wideC 2000 0).decision = none ∧ (wideC 2000 0).pendV = 0 ∧ (wideC 2000 0).no = [] ∧ d.decideTests [] (wideC 2000 0) none = none ∧
     d.decideTests [] (wideC 2000 0) (some (5, 3, 0x4071)) = some (5, 3, 0x4071) ∧ (wideC 1008 32).pendV ≠ 0 ∧ (wideC 1008 32).ms ≤ d.now + d.latOver (wideC 1008 32).scope + 8) ∧
    ((localC 1001 false).ms ≠ 0 ∧ aloneRun.cal.pend = none ∧
      (localC 1000 false).ms ≤ aloneRun.now ∧ (localC 1000 false).result ≠ some 0 ∧
      ({ localC 1000 false with result := some 0 } : CommitSt).result = some 0 ∧
      (sccDev aloneRun (some { localC 1000 false with result := some 0 }) none).chkBusy [] = none ∧ aloneRun.scc.awaitProv = false) ∧
    (aloneRun.scc.await = 0 ∧
      (let d : Dev := { mgr with scc := { mgr.scc with await := 32, awaitBn := 998 } }
       d.scc.await ≠ 0 ∧ d.scc.awaitBn + 1 < d.now ∧ d.isMgr = true ∧ d.scc.await.testBit 5 = true)) := by decide +kernel

/-- A ring frame of an origin and a beat. -/
def frameOf (crcOk poison void : Bool) (bn : Nat) : FrameIn :=
  { us := 5, crcOk := crcOk, poison := poison, void := void, origin := 0, h0 := BitVec.ofNat 64 bn, h1 := 0, h2 := 0, binds := [], slots := [],
    bulk := 0, confirmed := [], cuts := [] }
theorem witness_RingFramesReceived :
    (alone.linked = false ∧ wrkDev.linked = true ∧ wrkDev.pwr.vcore = true ∧ wrkDev.boot.role = .worker ∧ wrkDev.originOk 0 = true ∧ wrkDev.isMgr = false ∧
      wrkDev.t.running = true) ∧
    ((wrkDev.side 1).errWin + 1 ≤ wrkDev.fld F.WR_CTRL_ERRTHR ∧
      (let d := wrkDev.setSide 1 { errWin := 16, lstate := 4 }; d.fld F.WR_CTRL_ERRTHR < (d.side 1).errWin + 1 ∧ (d.side 1).lstate = 4 ∧ d.linked = true)) ∧
    (∀ n ∈ [1000, 1001, 1064], wrkDev.t.last ≤ (frameOf true false false n).h0.toNat % 2 ^ 56 ∧
      (frameOf true false false n).h0.toNat % 2 ^ 56 ≤ wrkDev.t.last + 64) ∧
    (frameOf true false false 999).h0.toNat % 2 ^ 56 < wrkDev.t.last ∧
    (frameOf false false false 0).crcOk = false ∧ (frameOf true true false 0).poison = true ∧ (frameOf true false true 0).void = true := by decide +kernel

/-- A manager with a job of position 5, which has been missing for a number of beats. -/
def lostDev (n : Nat) : Dev := { mgrJob .bound with wr := { mgr.wr with present := 33, missing := [(5, n)] } }
theorem witness_RingLossesFence :
    (let d := wrkDev.setSide 1 { lstate := 4 }; d.linked = true ∧ (d.side 1).lstate = 4 ∧ alone.linked = false) ∧
    (let d := (wrkDev.setSide 0 { lstate := 4 }).setSide 1 { lstate := 4 }
     d.isMgr = false ∧ d.wr.clockSide = 0 ∧ d.wr.sideChange = none ∧ (d.side (1 - 0)).lstate = 4 ∧
     ((wrkDev.setSide 0 { lstate := 4 }).side (1 - 0)).lstate ≠ 4) ∧
    ((lostDev 4).boot.role = .manager ∧ 5 ≠ (lostDev 4).pos ∧ (lostDev 4).wr.present.testBit 5 = true ∧
      (lostDev 4).fld F.WR_CTRL_LOSTTMO = 4 ∧ mget 0 (lostDev 4).wr.missing 5 = 4 ∧ mget 0 (lostDev 3).wr.missing 5 < 4 ∧
      ((lostDev 4).jobs.map Job.hm).Nodup ∧ (lostDev 4).fenced (domWorker 5) = false) ∧
    (let d : Dev := { wrkDev with wr := { wrkDev.wr with noOrigin := 16 } }; d.isMgr = false ∧ d.linked = true ∧ d.pwr.vcore = true ∧ 16 ≤ d.wr.noOrigin) ∧
    wrkDev.wr.noOrigin < 16 ∧
    (let d : Dev := { mgr with wr := { mgr.wr with noOwn := 2 } }; d.boot.role = .manager ∧ d.pwr.vcore = true ∧ d.wr.isolated = false ∧ 2 ≤ d.wr.noOwn) ∧
    mgr.wr.noOwn < 2 ∧ wrkDev.wr.unwrap = none ∧
    ({ wrkDev with wr := { wrkDev.wr with unwrap := some (5, 1000) } } : Dev).wr.unwrap = some (5, 1000) := by decide +kernel

/-- A reserve without a frame of its manager for a number of beats, and a manager with a handover set up or due. -/
def silentDev (n : Nat) : Dev := { rsvDev with wr := { rsvDev.wr with noOrigin := n, voidBn := some 998 } }
def handDev (d : Dev) (h : Option Nat) : Dev :=
  { d.setNum R.WR_HBN_LO 1008 with wr := { d.wr with handover := h, resPos := some 1 }, ldg := { d.ldg with dual := true } }
theorem witness_TakeoverAndHandover :
    ((silentDev 2).boot.role = .reserve ∧ (silentDev 2).boot.roleKnown = true ∧ (silentDev 2).boot.conflict = false ∧ (silentDev 2).pwr.vcore = true ∧ 2 ≤ (silentDev 2).wr.noOrigin ∧
      (silentDev 2).wr.voidBn = some 998 ∧ (silentDev 2).now ≤ 998 + 2 ∧ (silentDev 1).wr.noOrigin < 2) ∧
    (mgr.gate .host R.WR_CMD = .pass ∧ alone.gate .host R.WR_CMD = .pass ∧ mgr.ldg.dual = false ∧ alone.boot.role ≠ .manager ∧
      (handDev mgr none).num2 R.WR_HBN_LO R.WR_HBN_HI = (handDev mgr none).now + (handDev mgr none).lat + 8 ∧ (handDev mgr none).ldg.dual = true ∧
      ((handDev mgr none).setNum R.WR_HBN_LO 1007).num2 R.WR_HBN_LO R.WR_HBN_HI < 1008) ∧
    (mgr.wr.handover = none ∧ (handDev mgr (some 1001)).now < 1001 ∧ (handDev mgr (some 1000)).wr.resPos = some 1 ∧
      (handDev rsvDev (some 1000)).boot.role = .reserve) := by decide +kernel

/-- A manager whose window is set to the declared position 5, page 2; an access to it outstanding since a beat, or none. -/
def winDev (b : Option Nat) : Dev :=
  let d := (mgr.setFld F.WR_WINSEL_POS 5).setFld F.WR_WINSEL_PAGE 2
  { d with wr := { d.wr with decl := [(5, 1, 16, 9)], win := (b.map (fun b => { pos := 5, write := none, off := 0, bn := b, port := .host })).toList } }
theorem witness_RemoteWindowAccesses :
    ((winDev none).rgate .host 0xE0010 = .full ∧ wrkDev.rgate .host 0xE0010 = .none ∧ rsvDev.isMgr = false ∧ rsvDev.rgate .host 0xE0010 = .full ∧
      (devOf .manager 15).rgate .host 0xE0010 = .reset ∧ (winDev none).winTarget 0x10 = some (5, 0x20010) ∧ mgr.winTarget 0x10 = none ∧ mgr.portRo .host = false ∧
      mgr.portRo .spi = true) ∧
    ((winDev none).gate .host 0xE0010 = .pass ∧ mgr.gate .host 0xE0010 = .pass ∧ (winDev none).scc.cur = none) ∧
    (((winDev (some 895)).wr.win.find? (fun x => x.pos == 5)).isSome = true ∧ 895 + 105 ≤ (winDev (some 895)).now ∧
      (winDev (some 896)).now < 896 + 105 ∧ (winDev none).wr.win = []) ∧
    (wrkDev.isMgr = false ∧ wrkDev.rgate .window R.BT_STAT = .full ∧ wrkDev.inRing = true ∧
      (winDev (some 990)).stale 5 1 = false) := by decide +kernel

/-- A manager with a job of position 5 under tag 3, struck, whose details are still to come. -/
def tagDev : Dev :=
  { mgr with jobs := [{ job7 .struck with exec := 5, out := some { typ := 4, reason := 1, bn := 990 } }],
             wr := { mgr.wr with tags := [(3, 5, 7)], needDetail := [7] } }
theorem witness_BulkMessagesTaken :
    (mgr.isMgr = true ∧ wrkDev.isMgr = false ∧ wrkDev.pwr.vcore = true ∧ wrkDev.boot.role ≠ .manager ∧ mgr.boot.role = .manager) ∧
    (({ mgr with fen := { mgr.fen with posInc := [(5, 2)] } } : Dev).stale 5 1 = true ∧ mgr.stale 5 1 = false ∧ tagDev.tagJob 5 3 = some 7 ∧
      tagDev.wr.needDetail.contains 7 = true) ∧
    (wrkDev.now < (1001 : BitVec 56).toNat ∧ (1000 : BitVec 56).toNat ≤ wrkDev.now ∧ wrkDev.wr.sideChange = none ∧
      ({ wrkDev with wr := { wrkDev.wr with sideChange := some 1001 } } : Dev).wr.sideChange ≠ none) ∧
    (∀ x ∈ mgr.wr.decl, x.1 = 5 → x.2.1 = 1) ∧ ringWord (R.JR_BIND 511) = true ∧
    ((mgrJob .bound).job? 7 = (mgrJob .bound).jobs.head? ∧ (∀ j ∈ (mgrJob .bound).jobs, j.out = none ∧ j.exec = 5) ∧
      5 ∉ (mgrJob .bound).ldg.writtenOff ∧ (mgrJob .bound).ldg.decide_ = []) ∧
    (mgr.fen.log.length < 64 ∧ 5 ≠ mgr.pos ∧ alone.boot.role ≠ .manager ∧ ({ wrkDev with pwr := { wrkDev.pwr with vcore := false } } : Dev).pwr.vcore = false) ∧
    (wrkDev.boot.role = .worker ∧ wrkDev.t.running = true ∧ wrkDev.sysId = 0 ∧ (999 : BitVec 56).toNat < wrkDev.t.last ∧ rsvDev.boot.role = .reserve ∧ wrkDev.scc.cur = none) ∧
    stMask (R.TRG_CFG 0) ≠ 0 := by decide +kernel

/-- A device with a FEN_CMD waiting for a domain that has causes. -/
def fenDev (op dom : Nat) (x : Bool) (causes : List Reason) : Dev :=
  { aloneRun with fen := { aloneRun.fen with cmd := some { dom := dom, op := op, expire := x }, doms := [(dom, { causes := causes })] } }
/-- A device with job 7, which a fence closes or not. -/
def closeDev (placed : Bool) (n : Nat) : Dev :=
  { aloneRun with jobs := [{ job7 .striking with closing := some 0x5002, colsOpen := n, edges := if placed then 1 else 0 }] }
theorem witness_FencesAreHostCommands :
    (aloneRun.gate .host R.FEN_CMD = .pass ∧ aloneRun.fen.cmd = none ∧ (fenDev 1 0 false []).fen.cmd ≠ none) ∧
    (((fenDev 1 116 false [0x5003]).dom 116).causes.contains 0x5003 = true ∧ ((fenDev 1 116 false []).dom 116).causes.contains 0x5003 = false ∧
      domExists 117 = false ∧ (fenDev 3 116 false []).domBusy 116 = false) ∧
    (∃ d : Dev, ∃ c : FenCmd, d.fen.cmd = some c ∧ c.op = 3 ∧ c.dom ≤ 116 ∧ (d.dom c.dom).causes.contains 0x5003 = false ∧ d.domBusy c.dom = true) ∧
    ((fenDev 2 16 false [0x5002]).unfenceBad 16 = false ∧ ((fenDev 2 16 false [0x5002]).dom 16).causes ≠ [] ∧ (fenDev 2 16 false []).unfenceBad 16 = true) ∧
    ((closeDev true 1).job? 7 = (closeDev true 1).jobs.head? ∧ (∀ b, (closeDev b 0).jobs.length = 1) ∧
      (∀ b, ∀ j ∈ (closeDev b 0).jobs, j.closing ≠ none ∧ j.active = true ∧ j.colsOpen = 0 ∧ j.edgesOpen = 0 ∧ j.out = none ∧ j.placed = b) ∧
      aloneRun.job? 7 = none) := by
  refine ⟨by decide +kernel, by decide +kernel, ⟨{ (fenDev 3 96 false []) with
    jobs := [{ job7 .bound with lanes := [{ out := 0, mode := 0, edges := [] }] }] }, { dom := 96, op := 3, expire := false }, by decide +kernel⟩,
    by decide +kernel, by decide +kernel⟩

/-- A device with an assay procedure that measures TDC 15 since a beat, or waits for its attempt. -/
def asyDev (start : Nat) (retry : Option Nat) (tries : Nat) : Dev :=
  let d := ((aloneRun.setFlag F.CLK_STAT_LOCKED true).setFld F.CLK_STAT_SPLL 1)
  { d with asy := { d.asy with run := some { proc := 2, target := 15, attempts := tries, startBn := start, retryBn := retry } } }
theorem witness_AssayRunsAndApplies :
    (aloneRun.gate .host R.ASY_CMD = .pass ∧ aloneRun.asyRefusal 1 3 0 = none ∧ aloneRun.asyRefusal 2 15 0 = none ∧ aloneRun.asyRefusal 3 31 15 = none ∧
      mgr.asyRefusal 4 0 0 = none ∧ aloneRun.asyRefusal 1 4 0 = some 0x1006 ∧ aloneRun.asyRefusal 4 0 0 = some 0x1005) ∧
    (aloneRun.asy.run = none ∧ (asyDev 900 (some 1000) 0).asy.run ≠ none ∧ (asyDev 900 (some 1001) 0).now < 1001) ∧
    ((asyDev 900 none 1).fld F.ASY_CTRL_RETRY = 3 ∧ 1 ≤ 3 ∧ 3 < 4) ∧
    (let r : AsyRun := { proc := 2, target := 15, attempts := 1, startBn := 1001 - (asyDev 0 none 1).asyBeats { proc := 2, target := 15 } }
     let d := asyDev r.startBn none 1
     d.asy.run = some r ∧ d.asy.applyDue = none ∧ r.startBn + d.asyBeats r = d.now + 1 ∧ d.asyPre r = true ∧ r.proc ≠ 4) ∧
    (let r : AsyRun := { proc := 4, target := 1, attempts := 1, startBn := 0 }
     let d : Dev := { (mgr.setFlag F.CLK_STAT_LOCKED true).setFld F.CLK_STAT_SPLL 1 with t := { mgr.t with bn := 131071 }, asy := { mgr.asy with run := some r } }
     r.startBn + d.asyBeats r ≤ d.now + 1 ∧ d.asyPre r = true) ∧
    ((aloneRun.setFlag F.ASY_CTRL_TDCAUTO true).flag F.ASY_CTRL_TDCAUTO = true ∧ aloneRun.t.running = true ∧ aloneRun.asy.tdcDue ≤ aloneRun.now) ∧
    (aloneRun.asy.driftN < 1024 ∧ (6553 : Int).natAbs * 10 ≤ 65536 ∧ 65536 < (6554 : Int).natAbs * 10 ∧ mget 0 aloneRun.asy.baseBn 0 ≠ aloneRun.now + 1) ∧
    (aloneRun.asy.rskewPend = [] ∧ ({ mgr with asy := { mgr.asy with rskewPend := [5] } } : Dev).asy.rskewDue ≤ mgr.now) := by decide +kernel

/-! Tests on figures of the spec's own worked examples. -/

/-- The TS96 words of the trigger of line K, and of its first column 60 ms on (00_scope.md, 02_beat_and_time.md, R73). -/
theorem test_stamp_words :
    let t := instant 0x123456789A 137 1500
    (tsw2 t, tsw1 t, tsw0 t) = (0x1234, 0x56789A89, 0x5DC) ∧
    (tsw2 (t + 61440000000), tsw1 (t + 61440000000), tsw0 (t + 61440000000)) = (0x1234, 0x5860E289, 0x5DC) := by decide +kernel

/-- CRC-16 check value over "123456789" (R586), and a frame is 96 bytes with its fields where Table HPT-9 has them. -/
theorem test_crc16_check_value : crc16 [0x31, 0x32, 0x33, 0x34, 0x35, 0x36, 0x37, 0x38, 0x39] = 0x29B1 := by decide +kernel
theorem test_frame_of_column_8 :
    let f : FrameDef := { ftype := 3, flags := 0, bn := 0x34586446, inc := 1, port := 0, pos := 2, fire := [], offs := List.replicate 16 0xD55, slot := 8 }
    f.bytes.length = 96 ∧ f.bytes.take 12 = [0xBC, 0xBC, 0x13, 0x00, 0x46, 0x64, 0x58, 0x34, 0x01, 0x00, 0x02, 0x00] ∧
    (f.bytes.drop 44).take 4 = [0x55, 0x0D, 0x55, 0x0D] ∧ (f.bytes.drop 76).take 4 = [8, 0, 0, 0] := by decide +kernel
theorem test_head_lead_of_line_k : leadOf 800 1920 = 3 := by decide +kernel

/-- Reading ID_VENDEV over SPI (06_host_port.md): request CRC 0x9B, response A0 40 96 1F 6C 2B after the five bytes of the request, in
which MISO carries 0xFF (R296). -/
theorem test_spi_read_vendev :
    (match exec (.spiRead 0 0 0x9B []) (at_ spiDev) with
     | .next t => t.dev.out
     | _ => []) = spiDev.out ++ [.spi [0xFF, 0xFF, 0xFF, 0xFF, 0xFF, 0xA0, 0x40, 0x96, 0x1F, 0x6C, 0x2B]] := by decide +kernel
theorem test_spi_read_bad_crc :
    (match exec (.spiRead 0 0 0x9A []) (at_ spiDev) with
     | .next t => t.dev.out.map (fun o => match o with
       | .spi bs => (bs.drop 5).take 1
       | _ => [])
     | _ => []) = [[0xA1]] := by decide +kernel

/-- The line K waybill (07_waybills_and_admission.md): its fields as the text gives them, and a reserved bit refuses it. -/
def lineK : List Word := [0x2A10, 0x00070401, 0x1C200000, 0, 0x013DE435, 0, 0, 0, 0x8000, 0, 0, 3, 0, 0, 0, 0]
theorem test_line_k_waybill :
    let j : Job := { job7 .accepted with body := lineK }
    j.dkind = true ∧ j.delayField = 7200 * 65536 ∧ j.wait_ = 20833333 ∧ playStep lineK 0 = some 0 ∧ playStep lineK 1 = none ∧
    progOf lineK = some 0 ∧ talliesOf lineK = [0, 1] ∧ (aloneRun.setFlag (F.JR_BIND_ENC_EN 0) true).formatOk 0 lineK true = true ∧
    (aloneRun.setFlag (F.JR_BIND_ENC_EN 0) true).formatOk 0 (lineK.set 10 0x100) true = false := by decide +kernel

/-- Table SPL-9's marks: its tallies print 004217 and 140331, and the mark occupies its player for 13 889 beats. -/
theorem test_line_k_tallies :
    printed 1 0 6 4217 true = [0x30, 0x30, 0x34, 0x32, 0x31, 0x37] ∧ civil 11395 = (2031, 3, 14) ∧
    calField { sec := 984550440 } 0 10 = [0x31, 0x34, 0x30, 0x33, 0x33, 0x31] ∧ calField { sec := 984550440 } 0 8 = [0x30, 0x36, 0x31, 0x34] := by
  decide +kernel
theorem test_line_k_occupancy : occupancyOf true 0 19200 128 0 = 13889 := by decide +kernel

/-- A step, a segment and a slot of the mark read from the segment store as 11_segment_players.md lays them out. -/
def markStore : List Host.Cell :=
  storeWrite (storeWrite (storeWrite [] 0 (([0x0001000A, 0x8000, 0, 0x90] : List Word).flatMap wordBytes))
    0x8050 (([0x80080080, 0x800] : List Word).flatMap wordBytes)) 0x18008 (([0x00200008, 0xA01] : List Word).flatMap wordBytes)
theorem test_line_k_mark :
    stepAt markStore 0 0 = { seg := 10, times := 1, adv := 0, src := 0, last := true, waitAct := false, waitMax := 0, mksel := 0, mkStart := 1,
                             mkEnd := 2, fm := 0 } ∧
    segAt markStore 0x40 10 = { base := 0x80, offs := false, ngran := 8, stream := false, valid := true, firstSlot := 0, nslot := 2 } ∧
    slotAt markStore 0xC0 1 = { col := 8, row := 32, march := false, tal := 1, gtab := 0, cfield := 10, mcol := 0 } ∧
    mwf storeDefault markStore = true := by decide +kernel

/-- The line K strobe (10_precision_outputs.md): program 0 has one lane of two edges on PO0. -/
def strobe : Dev :=
  ((((((aloneRun.setNum (R.PO_PROG 0) 0x80000200).setNum (R.PO_LANE 0 0) 0x100).setNum (R.PO_LANE 0 1) 1).setNum (R.PO_EDGE 0 0) 1).setNum
    (R.PO_EDGE 0 1) 0x98968000).setNum (R.PO_EDGE 0 3) 0x3200000).setNum (R.PO_EDGE 1 1) 0x99CF0000 |>.setNum (R.PO_EDGE 1 3) 0x3200000
theorem test_line_k_strobe :
    (progLanes strobe.reg 0).map (fun l => (l.out, l.mode, l.count, l.edges)) =
      [(0, 0, 1, [{ lvl := true, time := 2560000000, dist := 800 * 65536 }, { lvl := false, time := 2580480000, dist := 800 * 65536 }])] ∧
    progValid strobe.reg 0 = true := by decide +kernel

/-- The trigger position of line K (09_triggers_and_encoders.md): 0.36 counts on from P0 is P0 + 0x5C29 in 2^-16 counts. -/
theorem test_line_k_trigger_position :
    ({ pos := 5, hist := [(1000000, 5), (991466, 4)], spN := 1, spD := 8533333 } : EncSt).at (1000000 + 3072000) = some (5 * 65536 + 0x5C29) := by
  decide +kernel

/-- The states that the reject-gate watch's entries name (13_tinker_engines.md). -/
def gate : Dev := ((aloneRun.setNum (R.TNK_PROG 0 1 0) 0xC1030000).setNum (R.TNK_PROG 0 1 1) 2).setNum (R.TNK_PROG 0 1 2) 0x9C400000
theorem test_reject_gate_entry : nextStates gate.reg 0 1 = [2, 0, 0, 0, 3] ∧ slice (gate.reg (R.TNK_PROG 0 1 2)) 31 16 = 40000 := by decide +kernel

/-- The handshake that the check refuses (13_tinker_engines.md): two engines of a group that wait for each other. -/
def hands (hold : Nat) : Nat → Word := fun a =>
  if a = R.TNK_SGMASK_LO 1 then 0x30 else if a = R.TNK_CFG 4 ∨ a = R.TNK_CFG 5 then 1
  else if a = R.TNK_PROG 4 2 0 then 0x85000000 else if a = R.TNK_PROG 5 1 0 then 0x84000000
  else if a = R.TNK_PROG 4 2 2 then BitVec.ofNat 32 (hold * 65536) else 0
theorem test_handshake_waits :
    waitsOn (hands 0) 4 = [5] ∧ waitsOn (hands 0) 5 = [4] ∧ waitsOn (hands 2000) 4 = [] := by decide +kernel

/-- The calendar's beat (02_beat_and_time.md): 2 061 + 228 243 / 390 625 units, the fraction carried. -/
theorem test_calendar_beat :
    let d : Dev := { alone with cal := { alone.cal with now := { sec := 5, sub := 2 ^ 32 - 2062 } } }
    let e := d.calBeat
    let f := e.calBeat
    e.cal.now = { sec := 5, sub := 2 ^ 32 - 1 } ∧ f.cal.now = { sec := 6, sub := 2061 } ∧ f.cal.rem = 2 * 228243 - 390625 := by decide +kernel

/-- Reset values that the text gives by their fields: ASY_CTRL 0x0824_0103 (17_assay.md), ID_VENDEV 0x4096_1F6C (06_host_port.md). -/
theorem test_reset_words : resetWord R.ASY_CTRL = 0x08240103 ∧ resetWord R.ID_VENDEV = 0x40961F6C ∧ resetWord 0xFFFFC = 0 := by decide +kernel

/-! Well-formedness: each check refuses a command that breaks it, and none is needed for a step to run. -/

theorem test_wellformed_waybill_read : wellFormed (.waybillReadComplete 0 [[1, 2]]) = false ∧ wellFormed (.waybillReadComplete 0 [lineK]) = true := by
  decide +kernel
theorem test_wellformed_dispatch : wellFormed (.dispatchMessage { dispatch9 with body := [] }) = false ∧ wellFormed (.dispatchMessage dispatch9) = true := by
  decide +kernel
theorem test_wellformed_mirror :
    wellFormed (.mirrorMessage none [[0]] [] []) = false ∧ wellFormed (.mirrorMessage none [] [(7, [0])] []) = false ∧
    wellFormed (.mirrorMessage none [List.replicate 8 0] [(7, lineK)] []) = true := by decide +kernel
theorem test_wellformed_head :
    wellFormed (.headStatusFrame 0 [0xBC]) = false ∧ wellFormed (.headDeclaration 0 [0]) = false ∧ wellFormed (.headStatusFrame 0 (statusBytes 1)) = true ∧
    wellFormed (.headDeclaration 0 (List.replicate 8 0)) = true := by decide +kernel
theorem test_wellformed_store :
    wellFormed (.storeWrite .host 0 []) = false ∧ wellFormed (.storeWrite .host 0 (List.replicate 257 0)) = false ∧
    wellFormed (.storeWrite .host 0 (List.replicate 256 0)) = true := by decide +kernel
theorem test_wellformed_spi : wellFormed (.spiWrite 1 0 [5] 0) = false ∧ wellFormed (.spiWrite 1 0 [5, 6] 0) = true := by decide +kernel
theorem test_wellformed_frame :
    let f := frameOf true false false 1000
    wellFormed (.ringFrameReceive 0 f) = true ∧ wellFormed (.ringFrameReceive 0 { f with binds := List.replicate 17 0 }) = false := by decide +kernel

/-! The step. -/

theorem test_empty_queue_idles : step State.reset = .next State.reset := rfl
theorem test_front_command_runs :
    (match step { at_ alone with pending := [.ringOrphan, .unwrap] } with
     | .next t => decide (t = { at_ alone with pending := [.unwrap] })
     | _ => false) = true := by decide +kernel
theorem test_no_word_spells_a_command : decodeTableWord 32 5 = none ∧ State.reset.withFetchWord 32 5 = State.reset := by decide +kernel

end Sys2Proof.Tests
end

section
/-!
PROOF. Writes by access code (R14 to R18, R868): what a write of a register with no effect of its own leaves in the active image, what
an st write leaves in the stage image, and what an access of an offset without a register does.
-/
namespace Sys2Proof.Machine
open Sys2Proof

/-! ## Accesses that their gate lets through -/

theorem Dev.viaPort_of_pass {d : Dev} {p : Port} {a : Nat} (h : d.gate p a = .pass) (f : Dev → Dev) : d.viaPort p a f = f d := by
  rw [Dev.viaPort, h]

/-- A read served as 0, and a whole read whose word is 0 and that leaves what was sent, send 0. -/
theorem Dev.readVia_out_zero {d : Dev} {p : Port} {a : Nat} {act : Bool} {f : Dev → Dev × Word}
    (h : d.rgate p a = .full ∨ d.rgate p a = .zero) (hf : f d = (d, 0)) : (d.readVia p a act f).out = d.out ++ [.readData p 0] := by
  unfold Dev.readVia
  rcases h with h | h
  · cases act <;> simp [h, hf]
  · simp [h]

theorem exec_registerWrite_of_pass {s : State} {p : Port} {a : BitVec 20} (x w : Word) (h : s.dev.gate p a.toNat = .pass) :
    exec (.registerWrite p ⟨a, x⟩ w) s = .next { s with dev := s.dev.writeHeld s.store p a.toNat w x } := by
  change execRegisterWrite p ⟨a, x⟩ w s = _
  rw [execRegisterWrite, State.onDevR, Dev.viaPort_of_pass h]

theorem exec_rcRegisterRead (s : State) (p : Port) (a : BitVec 20) (x : Word) :
    exec (.rcRegisterRead p ⟨a, x⟩) s = .next (s.onDev fun d =>
      d.readVia p a.toNat (readActs a.toNat) fun d => d.readHeld p (d.portView p) a.toNat x) := rfl

/-! ## An offset without a register (R14) -/

theorem Dev.writePlain_of_noRow {a : Nat} (h : regRow? a = none) (d : Dev) (w : Word) : d.writePlain a w = d := by
  unfold Dev.writePlain; rw [h]

theorem Dev.readHeld_of_noRow {d : Dev} {p : Port} {a : Nat} (h : regRow? a = none) (hl : d.readLatch p a = none) (view : Bool)
    (x : Word) : d.readHeld p view a x = (d, 0) := by
  simp [Dev.readHeld, Dev.readReg, rcBits, h, hl]

/-! ## A register without staged bits (R15) -/

/-- A mask without bits clears none. -/
theorem and_not_zero (v : Word) : v &&& ~~~(0 : Word) = v := by
  rw [BitVec.ofNat_eq_ofNat, BitVec.not_zero, BitVec.and_allOnes]

/-- The word that a write of w leaves in a register of row r that held v: rw bits take w, w1c bits written as 1 clear. -/
def RegRow.written (r : RegRow) (v w : Word) : Word :=
  ((v &&& ~~~(BitVec.ofNat 32 r.rw)) ||| (w &&& BitVec.ofNat 32 r.rw)) &&& ~~~(w &&& BitVec.ofNat 32 r.w1c)

theorem RegRow.written_of_readOnly {r : RegRow} (h : r.rw = 0 ∧ r.w1c = 0) (v w : Word) : r.written v w = v := by
  obtain ⟨hrw, hw1c⟩ := h
  simp only [RegRow.written, hrw, hw1c, BitVec.and_zero, BitVec.or_zero]
  exact (and_not_zero _).trans (and_not_zero v)

theorem Dev.writePlain_of_unstaged {a : Nat} {r : RegRow} (h : regRow? a = some r) (hst : r.st = 0) (d : Dev) (w : Word) :
    d.writePlain a w = if r.rw = 0 ∧ r.w1c = 0 then d else d.setReg a (r.written (d.reg a) w) := by
  unfold Dev.writePlain; rw [h]; simp only [if_pos hst]; rfl

theorem Dev.writePlain_regs_only {a : Nat} {r : RegRow} (h : regRow? a = some r) (hst : r.st = 0) (d : Dev) (w : Word) :
    d.writePlain a w = { d with regs := (d.writePlain a w).regs } := by
  rw [Dev.writePlain_of_unstaged h hst]; split <;> rfl

theorem Dev.reg_writePlain {a : Nat} {r : RegRow} (h : regRow? a = some r) (hst : r.st = 0) (d : Dev) (w : Word) (b : Nat) :
    (d.writePlain a w).reg b = if b = a then r.written (d.reg a) w else d.reg b := by
  rw [Dev.writePlain_of_unstaged h hst]
  split
  case isTrue hro => rw [RegRow.written_of_readOnly hro]; split <;> simp [*]
  case isFalse => exact Dev.reg_setReg d a b _

/-! ## What the device does to the register in the same core cycle (R16, R868) -/

/-- A register none of whose writes act is written by its access codes alone. -/
theorem Dev.writeReg_eq_writePlain {d : Dev} {m : List Host.Cell} {p : Port} {a : Nat} {w : Word} (hs : d.writeSys a w = none)
    (ha : d.writeAdm p a w = none) (hu : d.writeUnit m a w = none) : d.writeReg m p a w = d.writePlain a w := by
  simp [Dev.writeReg, hs, ha, hu]

theorem Dev.writeHeld_of_noRow {d : Dev} {m : List Host.Cell} {p : Port} {a : Nat} {w : Word} (h : regRow? a = none)
    (hw : d.writeReg m p a w = d.writePlain a w) (x : Word) : d.writeHeld m p a w x = d := by
  simp [Dev.writeHeld, hw, Dev.writePlain_of_noRow h, w1cBits, rwBits, h]

/-- What a write leaves beside the active registers is what the write without the held bits leaves. -/
theorem Dev.writeHeld_regs_only (d : Dev) (m : List Host.Cell) (p : Port) (a : Nat) (w x : Word) :
    d.writeHeld m p a w x = { d.writeReg m p a w with regs := (d.writeHeld m p a w x).regs } := by
  unfold Dev.writeHeld; dsimp only; split <;> rfl

theorem Dev.reg_writeHeld_ne (d : Dev) (m : List Host.Cell) (p : Port) {a b : Nat} (w x : Word) (h : b ≠ a) :
    (d.writeHeld m p a w x).reg b = (d.writeReg m p a w).reg b := by
  unfold Dev.writeHeld; dsimp only; split <;> simp [h]

/-- Of the bits x, w1c bits that are set stay set and rw bits keep the device's value; the others are those of the write. -/
theorem Dev.reg_writeHeld_same {a : Nat} {r : RegRow} (h : regRow? a = some r) (d : Dev) (m : List Host.Cell) (p : Port) (w x : Word) :
    (d.writeHeld m p a w x).reg a = ((d.writeReg m p a w).reg a &&& ~~~(x &&& BitVec.ofNat 32 r.rw)) |||
      (x &&& BitVec.ofNat 32 r.w1c &&& d.reg a) ||| (d.reg a &&& (x &&& BitVec.ofNat 32 r.rw)) := by
  simp only [Dev.writeHeld, w1cBits, rwBits, h]
  split
  case isTrue hno =>
    obtain ⟨hkept, hown⟩ := hno
    rw [hkept, hown, and_not_zero]; simp
  case isFalse => simp

/-! ## Staged registers (R18) -/

/-- With no commit in progress a stage write moves nothing but the stage word. -/
theorem Dev.writeStage_of_idle {d : Dev} (h : d.scc.cur = none) (a : Nat) (w : Word) :
    d.writeStage a w = d.setStg a ((d.stg a &&& ~~~(stMask a)) ||| (w &&& stMask a)) := by
  unfold Dev.writeStage Dev.stageTouched; simp [h]

theorem exec_stRegisterWrite_of_pass {s : State} {p : Port} {a : BitVec 20} (w : Word) (ha : a.toNat % 4 = 0) (hst : stMask a.toNat ≠ 0)
    (h : s.dev.gate p a.toNat = .pass) : exec (.stRegisterWrite p a w) s = .next { s with dev := s.dev.writeStage a.toNat w } := by
  have hal : a.toNat / 4 * 4 = a.toNat := by omega
  change execStRegisterWrite p a w s = _
  rw [execStRegisterWrite, State.onDev, hal, Dev.viaPort_of_pass h, if_neg hst]

/-! ## The statement -/

/-- One access of each clause at the window of a device in RUN: a register with rw bits alone, an offset between two registers, and
an st register. -/
theorem witness_RegisterWritesByBitType :
    let d : Dev := { State.reset.dev with pwr := { State.reset.dev.pwr with vcore := true } }.setFld F.PWR_STAT_STATE 0
    (d.gate .window R.PWR_CTRL = .pass ∧ d.writeSys R.PWR_CTRL 5 = none ∧ d.writeAdm .window R.PWR_CTRL 5 = none ∧
      d.writeUnit [] R.PWR_CTRL 5 = none ∧ (regRow? R.PWR_CTRL).any (fun r => r.st == 0 && r.rw != 0) = true) ∧
    (d.gate .window (R.PWR_CTRL + 2) = .pass ∧ regRow? (R.PWR_CTRL + 2) = none ∧ d.rgate .window (R.PWR_CTRL + 2) = .full ∧
      d.readLatch .window (R.PWR_CTRL + 2) = none) ∧
    R.TRG_CFG 0 % 4 = 0 ∧ stMask (R.TRG_CFG 0) ≠ 0 ∧ d.gate .window (R.TRG_CFG 0) = .pass ∧ d.scc.cur = none := by
  decide +kernel

/-- Settles O11: a write that passes its gate is the write by access codes with the bits of the same core cycle put back, and a stage
write with no commit in progress is one write of the stage word. -/
theorem registerWritesByBitType : Obligations.RegisterWritesByBitType := by
  unfold Obligations.RegisterWritesByBitType
  refine ⟨fun s p a w x hg hs ha hu => ?_, fun s p a w hal hst hg hidle => ?_⟩
  · have hplain : s.dev.writeReg s.store p a.toNat w = s.dev.writePlain a.toNat w := Dev.writeReg_eq_writePlain hs ha hu
    refine ⟨fun r hr hst => ⟨_, exec_registerWrite_of_pass x w hg, ?word, ?others, ?frame⟩, fun hno => ⟨?write, fun hrg hl => ?read⟩⟩
    case word =>
      dsimp only
      rw [Dev.reg_writeHeld_same hr, hplain, Dev.reg_writePlain hr hst, if_pos rfl]; rfl
    case others =>
      intro b hb
      have hne : b ≠ a.toNat := by simpa using hb
      rw [Dev.reg_writeHeld_ne _ _ _ _ _ hne, hplain, Dev.reg_writePlain hr hst, if_neg hne]
    case frame =>
      have hheld := Dev.writeHeld_regs_only s.dev s.store p a.toNat w x
      rw [hplain, Dev.writePlain_regs_only hr hst] at hheld
      exact congrArg (fun d => { s with dev := d }) hheld
    case write => rw [exec_registerWrite_of_pass x w hg, Dev.writeHeld_of_noRow hno hplain]
    case read =>
      refine ⟨_, exec_rcRegisterRead s p a x, ?_⟩
      dsimp only [State.onDev]
      exact Dev.readVia_out_zero hrg (Dev.readHeld_of_noRow hno hl _ x)
  · refine ⟨_, exec_stRegisterWrite_of_pass w hal hst hg, ?_⟩
    rw [Dev.writeStage_of_idle hidle]
    exact ⟨by simp, fun b hb => by simp [hb], rfl⟩

end Sys2Proof.Machine
end

section
/-!
PROOF. Arming and cancelling a calendar set (R70 to R73, R77, R90): what ARM and CANCEL leave, and which sets are refused.
-/
namespace Sys2Proof.Machine
open Sys2Proof

/-! ## What the shared operations leave of the registers and of the device -/

namespace Dev.regsBut
variable {d e : Dev} {l : List Nat}

theorem refl (d : Dev) (l : List Nat) : d.regsBut d l := fun _ _ => rfl

theorem trans {f : Dev} (h : d.regsBut e l) (h' : e.regsBut f l) : d.regsBut f l := fun a ha => (h' a ha).trans (h a ha)

theorem setFld (h : d.regsBut e l) {f : Fld} (hf : f.a ∈ l) (v : Nat) : d.regsBut (e.setFld f v) l := fun a ha => by
  rw [Dev.reg_setFld_ne _ _ _ _ (fun he : a = f.a => ha (he.symm ▸ hf)), h a ha]

theorem setFlag (h : d.regsBut e l) {f : Fld} (hf : f.a ∈ l) (b : Bool) : d.regsBut (e.setFlag f b) l := h.setFld hf _

/-- A cause of an interrupt changes no register outside the ISR and the pending-bit array. -/
theorem raiseIrq (h : d.regsBut e l) (hl : irqRegs ⊆ l) (v : Nat) : d.regsBut (e.raiseIrq v) l := fun a ha => by
  have hne : ∀ b ∈ irqRegs, a ≠ b := fun b hb he => ha (hl (he ▸ hb))
  have hisr : a ≠ if v < 32 then R.HST_ISR0 else R.HST_ISR1 := hne _ (by split <;> simp [irqRegs])
  have hpba : a ≠ R.MSIX_PBA (v / 32) := hne _ (by
    rcases Nat.mod_two_eq_zero_or_one (v / 32) with h2 | h2 <;> simp [irqRegs, R.MSIX_PBA, h2])
  rw [← h a ha]
  unfold Dev.raiseIrq
  generalize (if v < 32 then R.HST_ISR0 else R.HST_ISR1) = isr at *
  dsimp only
  split
  · rw [Dev.reg_setReg, if_neg hisr]
  · split
    · rw [Dev.reg_setReg, if_neg hpba, Dev.reg_setReg, if_neg hisr]
    · rw [Dev.reg_emit, Dev.reg_setReg, if_neg hisr]

end Dev.regsBut

theorem Dev.raiseIrq_regs_out_only (d : Dev) (v : Nat) :
    d.raiseIrq v = { d with regs := (d.raiseIrq v).regs, out := (d.raiseIrq v).out } := by
  have hkeeps := Dev.raiseIrq_keeps d v
  generalize d.raiseIrq v = e at *
  cases d; cases e
  simpa using hkeeps

/-! ## The end of a set: its result (R72, R77) -/

theorem Dev.calResult_regs_out_only (d : Dev) (r : Reason) :
    d.calResult r = { d with regs := (d.calResult r).regs, out := (d.calResult r).out } := Dev.raiseIrq_regs_out_only _ 21

theorem Dev.regsBut.calResult {d e : Dev} {l : List Nat} (h : d.regsBut e l) (hl : R.CAL_CTRL :: R.CAL_STAT :: irqRegs ⊆ l) (r : Reason) :
    d.regsBut (e.calResult r) l :=
  have hcal : R.CAL_STAT ∈ l ∧ R.CAL_CTRL ∈ l := ⟨hl (by simp), hl (by simp)⟩
  ((h.setFld hcal.1 _).setFlag hcal.2 _).raiseIrq (fun _ ha => hl (by simp [ha])) 21

@[simp] theorem Dev.calResult_keeps (d : Dev) (r : Reason) : (d.calResult r).cal = d.cal ∧ (d.calResult r).ldg = d.ldg := by
  simp [Dev.calResult]

theorem Dev.setResult_calResult (d : Dev) (r : Reason) : (d.calResult r).fld F.CAL_STAT_SET_RESULT = r.toNat := by
  rw [Dev.calResult, Dev.fld_raiseIrq _ _ _ (by decide) (by decide), Dev.fld_setFlag_ne _ _ _ _ (by decide) (by decide),
    Dev.fld_setFld_same _ _ _ (by decide)]
  exact Nat.mod_eq_of_lt r.isLt

theorem Dev.permit_calResult (d : Dev) (r : Reason) : (d.calResult r).flag F.CAL_CTRL_REGRESS_OK = false := by
  rw [Dev.calResult, Dev.flag_raiseIrq _ _ _ (by decide) (by decide), Dev.flag_setFlag_same _ _ _ (by decide) rfl]

theorem Dev.isr_calResult (d : Dev) (r : Reason) : bitOf ((d.calResult r).reg R.HST_ISR0) 21 = true :=
  Dev.isr_raiseIrq _ 21 (by decide)

/-- Beside SET_RESULT, REGRESS_OK and vector 21, a result leaves every field. -/
theorem Dev.fld_calResult_ne (d : Dev) (r : Reason) (g : Fld) (hg : g.hi < 32) (hi : irqReg g.a = false) (hc : g.a ≠ R.CAL_CTRL)
    (hs : g.a ≠ R.CAL_STAT ∨ g.hi < 16) : (d.calResult r).fld g = d.fld g := by
  rw [Dev.calResult, Dev.fld_raiseIrq _ _ _ (by decide) hi, Dev.fld_setFlag_ne _ _ _ _ hg (.inl hc),
    Dev.fld_setFld_ne _ _ _ _ hg (hs.imp_right .inl)]

theorem Dev.flag_calResult_ne (d : Dev) (r : Reason) (g : Fld) (hg : g.hi < 32) (hi : irqReg g.a = false) (hc : g.a ≠ R.CAL_CTRL)
    (hs : g.a ≠ R.CAL_STAT ∨ g.hi < 16) : (d.calResult r).flag g = d.flag g := by
  unfold Dev.flag; rw [Dev.fld_calResult_ne d r g hg hi hc hs]

/-! ## Which sets are refused (Table BEA-6) -/

/-- The first tag beat that lies far enough ahead. -/
def Dev.calFirst (d : Dev) : Nat := if d.boot.role = .standalone then d.now + 4 else d.now + d.lat + 8

theorem Dev.calRefusal_eq (d : Dev) (v : CalVal) (tag : Nat) (g : Bool) :
    d.calRefusal v tag g =
      if tag < d.calFirst ∨ d.now + 2 ^ 32 < tag then some 0x1004
      else if 252455615999 < v.sec then some 0x1006
      else if g = true ∧ v.units < d.cal.print.units ∧ d.fld F.CAL_EPOCH_CALENDAR = 0xFFFF then some 0x1005
      else none := by
  simp only [Dev.calRefusal, Dev.calFirst, beq_iff_eq]; rfl

theorem Dev.calRefusal_eq_none_iff (d : Dev) (v : CalVal) (tag : Nat) (g : Bool) :
    d.calRefusal v tag g = none ↔
      ¬(tag < d.calFirst ∨ d.now + 2 ^ 32 < tag) ∧ ¬252455615999 < v.sec ∧
      ¬(g = true ∧ v.units < d.cal.print.units ∧ d.fld F.CAL_EPOCH_CALENDAR = 0xFFFF) := by
  rw [Dev.calRefusal_eq]
  split
  case isTrue hnear => exact ⟨fun h => absurd h (by simp), fun h => absurd hnear h.1⟩
  case isFalse hfar =>
    split
    case isTrue hlate => exact ⟨fun h => absurd h (by simp), fun h => absurd hlate h.2.1⟩
    case isFalse hearly =>
      split
      case isTrue hfull => exact ⟨fun h => absurd h (by simp), fun h => absurd hfull h.2.2⟩
      case isFalse hroom => exact ⟨fun _ => ⟨hfar, hearly, hroom⟩, fun _ => rfl⟩

theorem Dev.calRefusal_reason {d : Dev} {v : CalVal} {tag : Nat} {g : Bool} {r : Reason} (h : d.calRefusal v tag g = some r) :
    ((tag < d.calFirst ∨ d.now + 2 ^ 32 < tag) ∧ r = 0x1004) ∨ (252455615999 < v.sec ∧ r = 0x1006) ∨
      ((g = true ∧ v.units < d.cal.print.units ∧ d.fld F.CAL_EPOCH_CALENDAR = 0xFFFF) ∧ r = 0x1005) := by
  rw [Dev.calRefusal_eq] at h
  split at h
  case isTrue hnear => exact .inl ⟨hnear, (Option.some.inj h).symm⟩
  case isFalse =>
    split at h
    case isTrue hlate => exact .inr (.inl ⟨hlate, (Option.some.inj h).symm⟩)
    case isFalse =>
      split at h
      case isTrue hfull => exact .inr (.inr ⟨hfull, (Option.some.inj h).symm⟩)
      case isFalse => exact absurd h (by simp)

/-- Whether a set is refused does not depend on the REGRESS_OK that the register holds. -/
theorem Dev.calRefusal_setPermit (d : Dev) (b : Bool) (v : CalVal) (tag : Nat) (g : Bool) :
    (d.setFlag F.CAL_CTRL_REGRESS_OK b).calRefusal v tag g = d.calRefusal v tag g := by
  have hnow : (d.setFlag F.CAL_CTRL_REGRESS_OK b).now = d.now := rfl
  have hcal : (d.setFlag F.CAL_CTRL_REGRESS_OK b).cal = d.cal := rfl
  have hboot : (d.setFlag F.CAL_CTRL_REGRESS_OK b).boot = d.boot := rfl
  have hlat : (d.setFlag F.CAL_CTRL_REGRESS_OK b).lat = d.lat := Dev.fld_setFlag_ne _ _ F.WR_STAT_L _ (by decide) (by decide)
  rw [Dev.calRefusal, Dev.calRefusal, hnow, hcal, hboot, hlat, Dev.fld_setFlag_ne _ _ _ _ (by decide) (by decide)]

/-! ## ARM (R70, R73) -/

/-- The set that the set registers name, under a given REGRESS_OK. -/
def Dev.armedSet (d : Dev) (g : Bool) : CalSet where
  val := { sec := d.num2 R.CAL_SET_SEC_LO R.CAL_SET_SEC_HI, sub := d.num R.CAL_SET_SUB }
  tag := d.num2 R.CAL_SET_BN_LO R.CAL_SET_BN_HI
  regressOk := g

/-- Whether this device refuses a set. -/
def Dev.refusalOf (d : Dev) (c : CalSet) : Option Reason := d.calRefusal c.val c.tag c.regressOk

/-- The words that carry a set from the manager to every device (R72). -/
def calSetWords (c : CalSet) : List Word :=
  [BitVec.ofNat 32 c.val.sec, BitVec.ofNat 32 (c.val.sec / 2 ^ 32), BitVec.ofNat 32 c.val.sub, BitVec.ofNat 32 c.tag,
    BitVec.ofNat 32 (c.tag / 2 ^ 32), if c.regressOk then 1 else 0]

/-- The messages that carry a set from this device: none but from a manager. -/
def Dev.calSetMsgs (d : Dev) (c : CalSet) : List BulkMsg :=
  if d.boot.role = .manager then [{ dst := 63, kind := 4, words := calSetWords c, left := 4 }] else []

theorem Dev.bulkPut_of_manager {d : Dev} (h : d.boot.role = .manager) (p k : Nat) (ws : List Word) :
    d.bulkPut p k ws =
      { d with wr := { d.wr with bulk := d.wr.bulk ++ [{ dst := p, kind := k, words := ws, left := bulkBlocks ws.length }] } } := by
  simp [Dev.bulkPut, Dev.inRing, h]

theorem Dev.bulkPut_calSet (d : Dev) (c : CalSet) :
    (if d.boot.role == .manager then d.bulkPut 63 4 (calSetWords c) else d) =
      { d with wr := { d.wr with bulk := d.wr.bulk ++ d.calSetMsgs c } } := by
  have hblocks : bulkBlocks (calSetWords c).length = 4 := by simp [bulkBlocks, calSetWords]
  unfold Dev.calSetMsgs
  by_cases hm : d.boot.role = .manager
  · rw [if_pos (beq_iff_eq.2 hm), if_pos hm, Dev.bulkPut_of_manager hm, hblocks]
  · rw [if_neg (by simpa using hm), if_neg hm, List.append_nil]

theorem Dev.calArm_of_refused {d : Dev} {g : Bool} {r : Reason} (hg : d.flag F.CAL_CTRL_REGRESS_OK = g)
    (h : d.refusalOf (d.armedSet g) = some r) : d.calArm = d.calResult r := by
  subst hg
  simp only [Dev.refusalOf, Dev.armedSet] at h
  simp only [Dev.calArm, h]

theorem Dev.calArm_of_taken {d : Dev} {g : Bool} (hg : d.flag F.CAL_CTRL_REGRESS_OK = g) (h : d.refusalOf (d.armedSet g) = none) :
    d.calArm = { d.calHold (d.armedSet g) with wr := { d.wr with bulk := d.wr.bulk ++ d.calSetMsgs (d.armedSet g) } } := by
  subst hg
  simp only [Dev.refusalOf, Dev.armedSet] at h
  simp only [Dev.calArm, h]
  exact Dev.bulkPut_calSet (d.calHold (d.armedSet (d.flag F.CAL_CTRL_REGRESS_OK))) (d.armedSet (d.flag F.CAL_CTRL_REGRESS_OK))

theorem Dev.pending_calHold (d : Dev) (c : CalSet) : (d.calHold c).flag F.CAL_STAT_PENDING = true :=
  Dev.flag_setFlag_same _ _ _ (by decide) rfl

theorem Dev.permit_calHold (d : Dev) (c : CalSet) : (d.calHold c).flag F.CAL_CTRL_REGRESS_OK = d.flag F.CAL_CTRL_REGRESS_OK :=
  (Dev.flag_setFlag_ne _ _ _ _ (by decide) (by decide)).trans (Dev.flag_congr rfl _)

/-! ## CANCEL (R73, R77) -/

theorem Dev.calCancel_of_none {d : Dev} (h : d.cal.pend = none) : d.calCancel = d := by rw [Dev.calCancel, h]

theorem Dev.calCancel_of_some {d : Dev} {c : CalSet} (h : d.cal.pend = some c) :
    d.calCancel = ({ d with cal := { d.cal with pend := none } }.setFlag F.CAL_STAT_PENDING false).setFlag F.CAL_CTRL_REGRESS_OK false := by
  rw [Dev.calCancel, h]

/-! ## Writes of CAL_CTRL that pass their gate -/

/-- The device once a write of CAL_CTRL with ARM has stored REGRESS_OK, before ARM acts. -/
def Dev.permitted (d : Dev) (g : Bool) : Dev := (d.setFlag F.CAL_CTRL_REGRESS_OK g).setFlag F.CAL_CTRL_REGRESS_OK g

theorem Dev.flag_permitted (d : Dev) (g : Bool) : (d.permitted g).flag F.CAL_CTRL_REGRESS_OK = g :=
  Dev.flag_setFlag_same _ _ _ (by decide) rfl

theorem Dev.regsBut_permitted (d : Dev) (g : Bool) {l : List Nat} (hl : R.CAL_CTRL ∈ l) : d.regsBut (d.permitted g) l :=
  ((Dev.regsBut.refl d l).setFlag hl g).setFlag hl g

theorem Dev.armedSet_permitted (d : Dev) (g : Bool) : (d.permitted g).armedSet g = d.armedSet g := by
  simp (disch := decide) only [Dev.armedSet, Dev.permitted, Dev.num2, Dev.num, Dev.reg_setFlag_ne]

theorem Dev.refusalOf_permitted (d : Dev) (g : Bool) (c : CalSet) : (d.permitted g).refusalOf c = d.refusalOf c :=
  (Dev.calRefusal_setPermit _ g _ _ _).trans (Dev.calRefusal_setPermit d g _ _ _)

theorem exec_calCtrlArm_of_pass {s : State} {p : Port} (g : Bool) (h : s.dev.gate p R.CAL_CTRL = .pass) :
    exec (.calCtrlArm p g) s = .next { s with dev := (s.dev.permitted g).calArm } := by
  change execCalCtrlArm p g s = _
  rw [execCalCtrlArm, State.onDev, Dev.viaPort_of_pass h]
  cases g <;> rfl

theorem exec_calCtrlCancel_of_pass {s : State} {p : Port} (g : Bool) (h : s.dev.gate p R.CAL_CTRL = .pass) :
    exec (.calCtrlCancel p g) s = .next { s with dev := (s.dev.setFlag F.CAL_CTRL_REGRESS_OK g).calCancel } := by
  change execCalCtrlCancel p g s = _
  rw [execCalCtrlCancel, State.onDev, Dev.viaPort_of_pass h]
  cases g <;> rfl

/-- Settles O13: ARM holds the set or shows its refusal, the refusals are the cases of Table BEA-6, and CANCEL drops a pending set with
its REGRESS_OK. -/
theorem calendarArmAndCancel : Obligations.CalendarArmAndCancel := by
  unfold Obligations.CalendarArmAndCancel
  refine ⟨fun s p g hg => ⟨fun hnone => ?taken, fun r hr => ?refused⟩, fun d v tag g => ⟨?none, fun r hr => ?reason⟩, fun s p g hg => ?cancel⟩
  case taken =>
    have harm := Dev.calArm_of_taken (s.dev.flag_permitted g) (by rw [Dev.armedSet_permitted, Dev.refusalOf_permitted]; exact hnone)
    rw [Dev.armedSet_permitted] at harm
    refine ⟨_, exec_calCtrlArm_of_pass g hg, ?_⟩
    rw [harm]
    refine ⟨rfl, ?_, ?_, ?_, rfl, rfl⟩
    · exact (Dev.flag_congr rfl _).trans (Dev.pending_calHold _ _)
    · exact (Dev.flag_congr rfl _).trans ((Dev.permit_calHold _ _).trans (Dev.flag_permitted _ _))
    · exact (s.dev.regsBut_permitted g (by simp)).setFlag (by simp) true
  case refused =>
    have harm := Dev.calArm_of_refused (s.dev.flag_permitted g) (by rw [Dev.armedSet_permitted, Dev.refusalOf_permitted]; exact hr)
    refine ⟨_, exec_calCtrlArm_of_pass g hg, ?_⟩
    rw [harm]
    refine ⟨Dev.setResult_calResult _ r, Dev.permit_calResult _ r, Dev.isr_calResult _ r, ?_, ?_⟩
    · exact (s.dev.regsBut_permitted g (by simp)).calResult (by simp) r
    · exact congrArg (fun d => { s with dev := d }) ((s.dev.permitted g).calResult_regs_out_only r)
  case none => exact d.calRefusal_eq_none_iff v tag g
  case reason => exact Dev.calRefusal_reason hr
  case cancel =>
    refine ⟨_, exec_calCtrlCancel_of_pass g hg, ?_⟩
    have hpermit := (Dev.regsBut.refl s.dev [R.CAL_CTRL, R.CAL_STAT]).setFlag (f := F.CAL_CTRL_REGRESS_OK) (by simp) g
    rcases hp : s.dev.cal.pend with _ | c
    · rw [Dev.calCancel_of_none (d := s.dev.setFlag F.CAL_CTRL_REGRESS_OK g) hp]
      refine ⟨?_, hpermit, fun h => absurd rfl h, fun _ => ⟨Dev.flag_setFlag_same _ _ _ (by decide) rfl, ?_⟩, rfl⟩
      · rw [← hp]; rfl
      · exact Dev.reg_setFlag_ne _ _ _ _ (by decide)
    · rw [Dev.calCancel_of_some (d := s.dev.setFlag F.CAL_CTRL_REGRESS_OK g) hp]
      refine ⟨rfl, ?_, fun _ => ⟨?_, Dev.flag_setFlag_same _ _ _ (by decide) rfl⟩, fun h => absurd h (by simp), rfl⟩
      · exact Dev.regsBut.setFlag (Dev.regsBut.setFlag hpermit (by simp) false) (by simp) false
      · exact (Dev.flag_setFlag_ne _ _ _ _ (by decide) (by decide)).trans (Dev.flag_setFlag_same _ _ _ (by decide) rfl)

end Sys2Proof.Machine
end

section
/-!
PROOF. A calendar set at its tag beat (R74 to R78, R80, R82, R85): the true calendar is overwritten, the print calendar follows it, is held by
the clamp, or steps back with the epoch.
-/
namespace Sys2Proof.Machine
open Sys2Proof

/-! ## What a set moves -/

/-- Beside registers, what is sent, the calendars and the ledger's due records, e is d. -/
def Dev.calFrame (d e : Dev) : Prop := e = { d with regs := e.regs, out := e.out, cal := e.cal, ldg := e.ldg }

theorem Dev.calFrame.trans {d e f : Dev} (h : d.calFrame e) (h' : e.calFrame f) : d.calFrame f := by
  cases d; cases e; cases f
  simp_all [Dev.calFrame]

theorem Dev.calFrame_raiseIrq (d : Dev) (v : Nat) : d.calFrame (d.raiseIrq v) := by
  simpa only [Dev.calFrame, Dev.raiseIrq_keeps] using d.raiseIrq_regs_out_only v

theorem Dev.calFrame_calResult (d : Dev) (r : Reason) : d.calFrame (d.calResult r) :=
  Dev.calFrame.trans (e := (d.setFld F.CAL_STAT_SET_RESULT r.toNat).setFlag F.CAL_CTRL_REGRESS_OK false) rfl (Dev.calFrame_raiseIrq _ 21)

/-- e is d but for the print calendar, its high-water, CLAMPED and a cause of vector 21. -/
structure Dev.PrintMoved (d e : Dev) : Prop where
  frame : d.calFrame e
  regs : d.regsBut e (R.CAL_STAT :: irqRegs)
  now : e.cal.now = d.cal.now
  pend : e.cal.pend = d.cal.pend
  ldg : e.ldg = d.ldg
  valid : e.flag F.CAL_STAT_VALID = d.flag F.CAL_STAT_VALID
  pending : e.flag F.CAL_STAT_PENDING = d.flag F.CAL_STAT_PENDING

namespace Dev.PrintMoved
variable {d e f : Dev}

theorem refl (d : Dev) : d.PrintMoved d := ⟨rfl, Dev.regsBut.refl _ _, rfl, rfl, rfl, rfl, rfl⟩

theorem trans (h : d.PrintMoved e) (h' : e.PrintMoved f) : d.PrintMoved f :=
  ⟨h.frame.trans h'.frame, h.regs.trans h'.regs, h'.now.trans h.now, h'.pend.trans h.pend, h'.ldg.trans h.ldg, h'.valid.trans h.valid,
    h'.pending.trans h.pending⟩

theorem setPrint (d : Dev) (v : CalVal) (w : Option CalVal) : d.PrintMoved { d with cal := { d.cal with print := v, hiWater := w } } :=
  ⟨rfl, fun _ _ => Dev.reg_congr rfl _, rfl, rfl, rfl, Dev.flag_congr rfl _, Dev.flag_congr rfl _⟩

theorem setClamped (d : Dev) (b : Bool) : d.PrintMoved (d.setFlag F.CAL_STAT_CLAMPED b) :=
  ⟨rfl, (Dev.regsBut.refl d _).setFlag (by simp) b, rfl, rfl, rfl, Dev.flag_setFlag_ne _ _ _ _ (by decide) (by decide),
    Dev.flag_setFlag_ne _ _ _ _ (by decide) (by decide)⟩

theorem raiseIrq (d : Dev) : d.PrintMoved (d.raiseIrq 21) where
  frame := Dev.calFrame_raiseIrq d 21
  regs := (Dev.regsBut.refl d _).raiseIrq (by simp) 21
  now := by simp
  pend := by simp
  ldg := by simp
  valid := Dev.flag_raiseIrq _ _ _ (by decide) (by decide)
  pending := Dev.flag_raiseIrq _ _ _ (by decide) (by decide)

/-- The epoch does not move with the print calendar. -/
theorem epoch (h : d.PrintMoved e) : e.fld F.CAL_EPOCH_CALENDAR = d.fld F.CAL_EPOCH_CALENDAR := by
  unfold Dev.fld; rw [h.regs _ (by decide)]

end Dev.PrintMoved

/-! ## The print calendar follows, is clamped, or steps back (R75 to R79) -/

theorem Dev.printMoved_calFollow (d : Dev) : d.PrintMoved d.calFollow := by
  have hprint := Dev.PrintMoved.setPrint d
  unfold Dev.calFollow
  dsimp only
  split
  case isTrue =>
    split
    case isTrue => exact ((hprint _ _).trans (.setClamped _ false)).trans (.raiseIrq _)
    case isFalse => exact .refl d
  case isFalse =>
    split
    next => exact hprint _ _
    next h _ =>
      split
      case isTrue => exact hprint _ _
      case isFalse =>
        split
        case isTrue => exact hprint _ _
        case isFalse => exact ((hprint _ _).trans (.setClamped _ true)).trans (.raiseIrq _)

/-- With no high-water, a print calendar that the true one has reached follows it. -/
theorem Dev.calFollow_of_reached {d : Dev} (hle : d.cal.print.units ≤ d.cal.now.units) (hw : d.cal.hiWater = none) :
    d.calFollow.cal.print = d.cal.now ∧ d.calFollow.flag F.CAL_STAT_CLAMPED = false := by
  unfold Dev.calFollow
  dsimp only
  split
  case isTrue =>
    refine ⟨by simp, ?_⟩
    rw [Dev.flag_raiseIrq _ _ _ (by decide) (by decide), Dev.flag_setFlag_same _ _ _ (by decide) rfl]
  case isFalse hfree =>
    rw [hw]
    exact ⟨rfl, (Dev.flag_congr rfl _).trans (Bool.eq_false_iff.2 hfree)⟩

/-- Hold the print calendar where it stands (R75). -/
def Dev.calClamp (d : Dev) : Dev :=
  if d.flag F.CAL_STAT_CLAMPED then d else (d.setFlag F.CAL_STAT_CLAMPED true).raiseIrq 21

theorem Dev.printMoved_calClamp (d : Dev) : d.PrintMoved d.calClamp := by
  unfold Dev.calClamp
  split
  case isTrue => exact .refl d
  case isFalse => exact (Dev.PrintMoved.setClamped d true).trans (.raiseIrq _)

theorem Dev.print_calClamp (d : Dev) : d.calClamp.cal.print = d.cal.print ∧ d.calClamp.flag F.CAL_STAT_CLAMPED = true := by
  unfold Dev.calClamp
  split
  case isTrue hc => exact ⟨rfl, hc⟩
  case isFalse =>
    rw [Dev.flag_raiseIrq _ _ _ (by decide) (by decide), Dev.flag_setFlag_same _ _ _ (by decide) rfl]
    exact ⟨by simp, rfl⟩

/-- Set the print calendar back, free of the clamp (R76). -/
def Dev.calPrintBack (d : Dev) (v : CalVal) : Dev :=
  let d := if d.flag F.CAL_STAT_CLAMPED then d.raiseIrq 21 else d
  { d with cal := { d.cal with print := v, hiWater := none } }.setFlag F.CAL_STAT_CLAMPED false

theorem Dev.printMoved_calPrintBack (d : Dev) (v : CalVal) : d.PrintMoved (d.calPrintBack v) := by
  unfold Dev.calPrintBack
  refine .trans ?irq ((Dev.PrintMoved.setPrint _ v none).trans (.setClamped _ false))
  case irq =>
    split
    case isTrue => exact .raiseIrq d
    case isFalse => exact .refl d

theorem Dev.print_calPrintBack (d : Dev) (v : CalVal) :
    (d.calPrintBack v).cal.print = v ∧ (d.calPrintBack v).flag F.CAL_STAT_CLAMPED = false :=
  ⟨rfl, Dev.flag_setFlag_same _ _ _ (by decide) rfl⟩

/-- Step the epoch and make its record due (R76, R80). -/
def Dev.epochStep (d : Dev) : Dev :=
  let d := d.addWrap F.CAL_EPOCH_CALENDAR 1
  d.dueRec 5 [{ typ := 0x31, bn := d.now, w5 := d.fld F.CAL_EPOCH_CALENDAR }]

theorem Dev.ldg_epochStep (d : Dev) :
    ∃ x, d.epochStep.ldg = { d.ldg with queue := d.ldg.queue ++ [x] } ∧ x.recs.map Rec.typ = [0x31] := ⟨_, rfl, rfl⟩

theorem Dev.epoch_epochStep (d : Dev) : d.epochStep.fld F.CAL_EPOCH_CALENDAR = (d.fld F.CAL_EPOCH_CALENDAR + 1) % 2 ^ 16 :=
  (Dev.fld_congr rfl _).trans (Dev.fld_setFld_same d F.CAL_EPOCH_CALENDAR _ (by decide))

/-! ## A set value over the true calendar (R74, R82, R85) -/

/-- What holds a set: the print calendar, or after a loss of the calendar the print high-water (R82). -/
def Dev.calHeld (d : Dev) : CalVal := if d.flag F.CAL_STAT_VALID then d.cal.print else d.cal.hiWater.getD {}

/-- The device with the value over its true calendar, before the print calendar has answered. -/
def Dev.calStand (d : Dev) (v : CalVal) : Dev :=
  { d.calRevive with cal := { d.calRevive.cal with now := v } }.setFlag F.CAL_STAT_VALID true

theorem Dev.printMoved_calRevive (d : Dev) : d.PrintMoved d.calRevive := by
  unfold Dev.calRevive
  split
  case isTrue => exact .refl d
  case isFalse => exact (Dev.PrintMoved.setPrint d _ _).trans (.setClamped _ false)

theorem Dev.print_calRevive (d : Dev) : d.calRevive.cal.print = d.calHeld := by
  unfold Dev.calRevive Dev.calHeld; split <;> rfl

theorem Dev.hiWater_calRevive (d : Dev) : d.calRevive.cal.hiWater = d.cal.hiWater := by
  unfold Dev.calRevive; split <;> rfl

theorem Dev.calOverwrite_eq (d : Dev) (v : CalVal) (g : Bool) :
    d.calOverwrite v g =
      if v.units < d.calHeld.units then
        if g then ((d.calStand v).calPrintBack v).epochStep else (d.calStand v).calClamp
      else (d.calStand v).calFollow := by
  rw [← Dev.print_calRevive]; rfl

/-- e is d with the true calendar overwritten by v, its print calendar and its epoch moved. -/
structure Dev.Overwritten (d e : Dev) (v : CalVal) : Prop where
  frame : d.calFrame e
  regs : d.regsBut e (R.CAL_STAT :: R.CAL_CTRL :: R.CAL_EPOCH :: irqRegs)
  now : e.cal.now = v
  pend : e.cal.pend = d.cal.pend
  valid : e.flag F.CAL_STAT_VALID = true
  pending : e.flag F.CAL_STAT_PENDING = d.flag F.CAL_STAT_PENDING

theorem Dev.overwritten_calStand (d : Dev) (v : CalVal) : d.Overwritten (d.calStand v) v := by
  have hrev := d.printMoved_calRevive
  refine ⟨hrev.frame.trans rfl, fun a ha => ?regs, rfl, hrev.pend, Dev.flag_setFlag_same _ _ _ (by decide) rfl, ?pending⟩
  case regs =>
    rw [← hrev.regs a (by simp_all), Dev.calStand, Dev.reg_setFlag_ne _ _ _ _ (by simp_all)]
    exact Dev.reg_congr rfl a
  case pending =>
    rw [← hrev.pending, Dev.calStand, Dev.flag_setFlag_ne _ _ _ _ (by decide) (by decide)]
    exact Dev.flag_congr rfl _

theorem Dev.Overwritten.printMoved {d e f : Dev} {v : CalVal} (h : d.Overwritten e v) (h' : e.PrintMoved f) : d.Overwritten f v :=
  ⟨h.frame.trans h'.frame, h.regs.trans fun a ha => h'.regs a (by simp_all), h'.now.trans h.now, h'.pend.trans h.pend,
    h'.valid.trans h.valid, h'.pending.trans h.pending⟩

theorem Dev.Overwritten.epochStep {d e : Dev} {v : CalVal} (h : d.Overwritten e v) : d.Overwritten e.epochStep v where
  frame := h.frame.trans rfl
  regs := (h.regs.setFld (f := F.CAL_EPOCH_CALENDAR) (by simp) _).trans fun _ _ => rfl
  now := h.now
  pend := h.pend
  valid := (Dev.flag_setFld_ne _ _ _ _ (by decide) (by decide)).trans h.valid
  pending := (Dev.flag_setFld_ne _ _ _ _ (by decide) (by decide)).trans h.pending

theorem Dev.overwritten_calOverwrite (d : Dev) (v : CalVal) (g : Bool) : d.Overwritten (d.calOverwrite v g) v := by
  have hstand := d.overwritten_calStand v
  rw [Dev.calOverwrite_eq]
  split
  case isTrue =>
    split
    case isTrue => exact (hstand.printMoved (Dev.printMoved_calPrintBack _ v)).epochStep
    case isFalse => exact hstand.printMoved (Dev.printMoved_calClamp _)
  case isFalse => exact hstand.printMoved (Dev.printMoved_calFollow _)

theorem Dev.ldg_calStand (d : Dev) (v : CalVal) : (d.calStand v).ldg = d.ldg := d.printMoved_calRevive.ldg

theorem Dev.epoch_calStand (d : Dev) (v : CalVal) : (d.calStand v).fld F.CAL_EPOCH_CALENDAR = d.fld F.CAL_EPOCH_CALENDAR :=
  (Dev.fld_setFlag_ne _ _ _ _ (by decide) (by decide)).trans ((Dev.fld_congr rfl _).trans d.printMoved_calRevive.epoch)

/-- A forward set leaves the epoch and the ledger, and with no high-water the print calendar follows it (R78). -/
theorem Dev.calOverwrite_of_forward {d : Dev} {v : CalVal} (h : d.calHeld.units ≤ v.units) (g : Bool) :
    (d.calOverwrite v g).fld F.CAL_EPOCH_CALENDAR = d.fld F.CAL_EPOCH_CALENDAR ∧ (d.calOverwrite v g).ldg = d.ldg ∧
    (d.cal.hiWater = none → (d.calOverwrite v g).cal.print = v ∧ (d.calOverwrite v g).flag F.CAL_STAT_CLAMPED = false) := by
  rw [Dev.calOverwrite_eq, if_neg (Nat.not_lt.2 h)]
  have hmoved := Dev.printMoved_calFollow (d.calStand v)
  refine ⟨hmoved.epoch.trans (d.epoch_calStand v), hmoved.ldg.trans (d.ldg_calStand v), fun hw => ?_⟩
  rw [← Dev.print_calRevive] at h
  exact Dev.calFollow_of_reached (d := d.calStand v) h (d.hiWater_calRevive.trans hw)

/-- A backward set without REGRESS_OK holds the print calendar under the clamp (R75, R85). -/
theorem Dev.calOverwrite_of_clamped {d : Dev} {v : CalVal} (h : v.units < d.calHeld.units) :
    (d.calOverwrite v false).cal.print = d.calHeld ∧ (d.calOverwrite v false).flag F.CAL_STAT_CLAMPED = true ∧
    (d.calOverwrite v false).fld F.CAL_EPOCH_CALENDAR = d.fld F.CAL_EPOCH_CALENDAR ∧ (d.calOverwrite v false).ldg = d.ldg := by
  rw [Dev.calOverwrite_eq, if_pos h, if_neg Bool.false_ne_true]
  have hmoved := Dev.printMoved_calClamp (d.calStand v)
  obtain ⟨hprint, hclamp⟩ := Dev.print_calClamp (d.calStand v)
  exact ⟨hprint.trans d.print_calRevive, hclamp, hmoved.epoch.trans (d.epoch_calStand v), hmoved.ldg.trans (d.ldg_calStand v)⟩

/-- A backward set under REGRESS_OK takes the print calendar back and steps the epoch, with one record due (R76, R80). -/
theorem Dev.calOverwrite_of_stepped {d : Dev} {v : CalVal} (h : v.units < d.calHeld.units) :
    (d.calOverwrite v true).cal.print = v ∧ (d.calOverwrite v true).flag F.CAL_STAT_CLAMPED = false ∧
    (d.calOverwrite v true).fld F.CAL_EPOCH_CALENDAR = (d.fld F.CAL_EPOCH_CALENDAR + 1) % 2 ^ 16 ∧
    ∃ x, (d.calOverwrite v true).ldg = { d.ldg with queue := d.ldg.queue ++ [x] } ∧ x.recs.map Rec.typ = [0x31] := by
  rw [Dev.calOverwrite_eq, if_pos h, if_pos rfl]
  have hmoved := Dev.printMoved_calPrintBack (d.calStand v) v
  obtain ⟨hprint, hclamp⟩ := Dev.print_calPrintBack (d.calStand v) v
  refine ⟨hprint, (Dev.flag_setFld_ne _ _ _ _ (by decide) (by decide)).trans hclamp, ?epoch, ?record⟩
  case epoch => rw [Dev.epoch_epochStep, hmoved.epoch, Dev.epoch_calStand]
  case record => rw [← d.ldg_calStand v, ← hmoved.ldg]; exact Dev.ldg_epochStep _

/-! ## The Edge phase of the tag beat (R74, R89) -/

/-- The device once its due set is no longer pending. -/
def Dev.calDue (d : Dev) : Dev := { d with cal := { d.cal with pend := none } }.setFlag F.CAL_STAT_PENDING false

theorem Dev.calApplyDue_of_early {d : Dev} {c : CalSet} (hp : d.cal.pend = some c) (h : d.now < c.tag) : d.calApplyDue = d := by
  rw [Dev.calApplyDue, hp]; exact if_neg (Nat.not_le.2 h)

theorem Dev.calApplyDue_of_due {d : Dev} {c : CalSet} (hp : d.cal.pend = some c) (h : c.tag ≤ d.now) :
    d.calApplyDue = (d.calDue.calOverwrite c.val c.regressOk).calResult Rsn.ok := by
  rw [Dev.calApplyDue, hp]; exact if_pos h

theorem Dev.calFrame_calDue (d : Dev) : d.calFrame d.calDue := rfl

theorem Dev.regsBut_calDue (d : Dev) {l : List Nat} (hl : R.CAL_STAT ∈ l) : d.regsBut d.calDue l :=
  Dev.regsBut.setFlag (e := { d with cal := { d.cal with pend := none } }) (fun _ _ => Dev.reg_congr rfl _) hl false

theorem Dev.flag_calDue (d : Dev) : d.calDue.flag F.CAL_STAT_PENDING = false := Dev.flag_setFlag_same _ _ _ (by decide) rfl

theorem Dev.calHeld_calDue (d : Dev) : d.calDue.calHeld = d.calHeld := by
  unfold Dev.calHeld
  rw [Dev.calDue, Dev.flag_setFlag_ne _ _ _ _ (by decide) (by decide)]; rfl

theorem Dev.epoch_calDue (d : Dev) : d.calDue.fld F.CAL_EPOCH_CALENDAR = d.fld F.CAL_EPOCH_CALENDAR :=
  (Dev.fld_setFlag_ne _ _ _ _ (by decide) (by decide)).trans (Dev.fld_congr rfl _)

theorem exec_calendarSetApply (s : State) : exec .calendarSetApply s = .next { s with dev := s.dev.calApplyDue } := rfl

/-- Settles O14: before its tag beat a set changes nothing; from it on, the set is overwritten and its result shown. -/
theorem calendarApply : Obligations.CalendarApply := by
  unfold Obligations.CalendarApply
  intro s c hp held
  refine ⟨fun hearly => ?early, fun hdue => ?due⟩
  case early => rw [exec_calendarSetApply, Dev.calApplyDue_of_early hp hearly]
  case due =>
    have hover := s.dev.calDue.overwritten_calOverwrite c.val c.regressOk
    have hdueRegs := s.dev.regsBut_calDue (l := R.CAL_STAT :: R.CAL_CTRL :: R.CAL_EPOCH :: irqRegs) (by simp)
    have hheld : s.dev.calDue.calHeld = held := s.dev.calHeld_calDue
    have hframe := (s.dev.calFrame_calDue.trans hover.frame).trans (Dev.calFrame_calResult _ Rsn.ok)
    rw [exec_calendarSetApply, Dev.calApplyDue_of_due hp hdue]
    refine ⟨_, rfl, ?_⟩
    simp (disch := decide) only [Dev.calResult_keeps, Dev.flag_calResult_ne, Dev.fld_calResult_ne]
    refine ⟨hover.now, hover.pend, Dev.setResult_calResult _ _, hover.valid, hover.pending.trans s.dev.flag_calDue,
      Dev.permit_calResult _ _, (hdueRegs.trans hover.regs).calResult (by decide) _, fun hle => ?forward, fun hlt hg => ?clamped,
      fun hlt hg => ?stepped, ?frame⟩
    case forward =>
      rw [← s.dev.epoch_calDue]
      exact Dev.calOverwrite_of_forward (hheld ▸ hle) _
    case clamped =>
      rw [← s.dev.epoch_calDue, hg, ← hheld]
      exact Dev.calOverwrite_of_clamped (hheld ▸ hlt)
    case stepped =>
      rw [← s.dev.epoch_calDue, hg]
      exact Dev.calOverwrite_of_stepped (hheld ▸ hlt)
    case frame =>
      rw [Dev.calFrame, (Dev.calResult_keeps _ _).1, (Dev.calResult_keeps _ _).2] at hframe
      exact congrArg (fun d => { s with dev := d }) hframe

end Sys2Proof.Machine
end

section
/-!
PROOF. Claim and census (R129 to R133, R136): how two claims rank, what each decision leaves of the device, and the device that hears
no claim.
-/
namespace Sys2Proof.Machine
open Sys2Proof

/-! ## What writing the ledger leaves alone -/

@[simp] theorem Dev.ldgRaise_keeps (d : Dev) (r : Reason) :
    (d.ldgRaise r).boot = d.boot ∧ (d.ldgRaise r).wr = d.wr ∧ (d.ldgRaise r).t = d.t := by
  unfold Dev.ldgRaise; split <;> exact ⟨rfl, rfl, rfl⟩

@[simp] theorem Dev.wearBy_keeps (d : Dev) (n : Nat) :
    (d.wearBy n).boot = d.boot ∧ (d.wearBy n).wr = d.wr ∧ (d.wearBy n).t = d.t := by
  unfold Dev.wearBy; dsimp only; (repeat' split) <;> simp

@[simp] theorem Dev.writeCkpt_keeps (d : Dev) : d.writeCkpt.boot = d.boot ∧ d.writeCkpt.wr = d.wr ∧ d.writeCkpt.t = d.t := by
  simp [Dev.writeCkpt]

@[simp] theorem Dev.advanceHead_keeps (d : Dev) : d.advanceHead.boot = d.boot ∧ d.advanceHead.wr = d.wr ∧ d.advanceHead.t = d.t := by
  unfold Dev.advanceHead; dsimp only; (repeat' split) <;> simp

@[simp] theorem Dev.writeRec_keeps (d : Dev) (r : Rec) :
    (d.writeRec r).boot = d.boot ∧ (d.writeRec r).wr = d.wr ∧ (d.writeRec r).t = d.t := by
  simp [Dev.writeRec, Dev.showHead]

@[simp] theorem Dev.format_keeps (d : Dev) (i : BitVec 64) :
    (d.format i).boot = d.boot ∧ (d.format i).wr = d.wr ∧ (d.format i).t = d.t := by
  have hrings : ∀ (l : List Nat) (e : Dev),
      let f := l.foldl (fun d j => ((d.setNum (R.JR_NEXTSEQ j) 0).setNum (R.JR_LASTHM_LO j) 0).setNum (R.JR_LASTHM_HI j) 0) e
      f.boot = e.boot ∧ f.wr = e.wr ∧ f.t = e.t := fun l e =>
    ⟨foldl_keeps _ Dev.boot (by simp) l e, foldl_keeps _ Dev.wr (by simp) l e, foldl_keeps _ Dev.t (by simp) l e⟩
  simp [Dev.format, Dev.showHead, Dev.writeSuper, Dev.setSysId, hrings]

/-- A sealed CEIL record moves only the ceiling of the time. -/
theorem Dev.sealCeil_keeps (d : Dev) (c : Nat) :
    let e := d.sealRec { typ := 0x30, bn := c }
    e.boot = d.boot ∧ e.wr = d.wr ∧ e.t = { d.t with ceil := c } := by
  have hmirror : mirrored 0x30 = false := rfl
  simp [Dev.sealRec, Dev.onSealed, Dev.setCeil, hmirror]

/-! ## The start of the counter (R52 to R56) -/

/-- A started counter runs, and the role stands. -/
theorem Dev.runFrom_running (d : Dev) (b : Nat) :
    (d.runFrom b).t.running = true ∧ (d.runFrom b).boot = { d.boot with bkpRanOut := false } ∧ (d.runFrom b).wr = d.wr := by
  unfold Dev.runFrom
  dsimp only
  split
  case isTrue => simp [Dev.sealCeil_keeps]
  case isFalse => exact ⟨rfl, rfl, rfl⟩

theorem Dev.startCounter_running (d : Dev) :
    d.startCounter.t.running = true ∧ d.startCounter.boot = { d.boot with bkpRanOut := false } ∧ d.startCounter.wr = d.wr := by
  unfold Dev.startCounter
  dsimp only
  split <;> simp [Dev.runFrom_running]

/-! ## Phases -/

theorem Dev.phase_setPhase (d : Dev) (n : Nat) (hn : n < 16) : (d.setPhase n).phase = n := by
  rw [Dev.phase, Dev.setPhase, Dev.fld_raiseIrq _ _ _ (by decide) (by decide), Dev.fld_setFld_same _ _ _ (by decide)]
  exact Nat.mod_eq_of_lt hn

theorem Dev.phase_raiseIrq (d : Dev) (v : Nat) (hv : v < 64) : (d.raiseIrq v).phase = d.phase := Dev.fld_raiseIrq _ _ _ hv (by decide)

@[simp] theorem Dev.setPhase_keeps (d : Dev) (n : Nat) :
    (d.setPhase n).boot = d.boot ∧ (d.setPhase n).wr = d.wr ∧ (d.setPhase n).t = d.t := by
  simp [Dev.setPhase]

/-- The end of claim and census brings phase 0x7; the role, the ring and the time stand. -/
theorem Dev.phaseDone_census (d : Dev) (us : Nat) :
    (d.phaseDone 6 us).phase = 7 ∧ (d.phaseDone 6 us).boot = d.boot ∧ (d.phaseDone 6 us).wr = d.wr ∧ (d.phaseDone 6 us).t = d.t := by
  have htimed : d.phaseDone 6 us =
      (if !d.pwr.exiting then d.setFld (F.SUP_BOOT_T_COMPLETION 6) (min us 0xFFFFFF) else d).setPhase 7 := rfl
  rw [htimed, Dev.phase_setPhase _ _ (by decide)]
  split <;> simp

/-! ## The three decisions (R129 to R131) -/

/-- A declaration is sent: the registers and the role stand. -/
theorem Dev.declareSelf_keeps (d : Dev) : d.declareSelf.regs = d.regs ∧ d.declareSelf.boot = d.boot := by
  unfold Dev.declareSelf
  dsimp only
  constructor
  · rw [foldl_keeps _ Dev.regs (fun d j => by split <;> simp)]; simp
  · rw [foldl_keeps _ Dev.boot (fun d j => by split <;> simp)]; simp

@[simp] theorem Dev.setRole_keeps (d : Dev) (r : Role) :
    (d.setRole r).boot = { d.boot with role := r } ∧ (d.setRole r).wr = d.wr ∧ (d.setRole r).t = d.t := by
  simp [Dev.setRole]

theorem Dev.becomeManager_decides (d : Dev) (us : Nat) :
    let e := d.becomeManager us
    e.phase = 7 ∧ e.boot.role = .manager ∧ e.boot.roleKnown = true ∧ e.wr.mgrPos = d.pos ∧
      e.wr.resPos = d.boot.claims.head?.map Claim.pos ∧ e.t.running = true := by
  unfold Dev.becomeManager
  dsimp only
  rw [Dev.phase_raiseIrq _ _ (by decide)]
  split <;> simp [Dev.phaseDone_census, Dev.startCounter_running, Dev.draw]

theorem Dev.becomeReserve_decides (d : Dev) (mgr us : Nat) :
    let e := d.becomeReserve mgr us
    e.phase = 7 ∧ e.boot.role = .reserve ∧ e.boot.roleKnown = true := by
  unfold Dev.becomeReserve
  dsimp only
  rw [Dev.phase_raiseIrq _ _ (by decide), Dev.phase, Dev.fld_congr (Dev.declareSelf_keeps _).1]
  refine ⟨(Dev.phaseDone_census _ us).1, ?_⟩
  simp [Dev.declareSelf_keeps, Dev.phaseDone_census]

/-- A hold shows its reason in phase 0xF and leaves the role undecided as it was. -/
theorem Dev.conflictHold_holds (d : Dev) :
    d.conflictHold.boot = { d.boot with conflict := true } ∧ d.conflictHold.phase = 15 ∧
      d.conflictHold.fld F.SUP_BOOT_REASON = 0xC003 := by
  unfold Dev.conflictHold Dev.holdBoot
  refine ⟨by simp, ?phase, ?reason⟩
  case phase => rw [Dev.phase_raiseIrq _ _ (by decide), Dev.phase_setPhase _ _ (by decide)]
  case reason =>
    rw [Dev.fld_raiseIrq _ _ _ (by decide) (by decide), Dev.setPhase, Dev.fld_raiseIrq _ _ _ (by decide) (by decide),
      Dev.fld_setFld_ne _ _ _ _ (by decide) (by decide), Dev.fld_setFld_same _ _ _ (by decide)]
    rfl

/-! ## Ranking the claims of two devices (R129, R131) -/

/-- A device at claim and census whose role is open. -/
structure Dev.AwaitsClaim (d : Dev) : Prop where
  capable : d.boot.capable = true
  undecided : d.boot.roleKnown = false
  trained : d.boot.claimOpen = true
  free : d.boot.conflict = false

/-- The device once it holds a claim. -/
def Dev.hear (d : Dev) (c : Claim) : Dev := { d with boot := { d.boot with claims := [c] } }

/-- Two claims of different histories: neither device may become manager (R131). -/
def Claim.Clash (a b : Claim) : Prop := a.formatted = true ∧ b.formatted = true ∧ a.sysId ≠ b.sysId

theorem Claim.above_iff (a b : Claim) :
    a.above b = true ↔ (a.formatted = true ∧ b.formatted = false) ∨ (a.formatted = b.formatted ∧ a.pos < b.pos) := by
  simp [Claim.above]

theorem Claim.not_clash_iff (a b : Claim) : ¬a.Clash b ↔ a.formatted = false ∨ b.formatted = false ∨ a.sysId = b.sysId := by
  unfold Claim.Clash
  cases a.formatted <;> cases b.formatted <;> simp

namespace Dev.AwaitsClaim
variable {d : Dev} {c : Claim}

/-- A claim that is heard is ranked at once, against the claim of this device. -/
theorem rankClaims_hear (h : d.AwaitsClaim) (c : Claim) (us : Nat) :
    (d.hear c).rankClaims us =
      if d.ownClaim.formatted && c.formatted && d.ownClaim.sysId != c.sysId then (d.hear c).conflictHold
      else if d.ownClaim.above c then (d.hear c).becomeManager us
      else (d.hear c).becomeReserve c.pos us := by
  rw [Dev.rankClaims, if_neg (by simp [Dev.hear, h.capable, h.undecided, h.trained, h.free])]
  rfl

theorem rankClaims_of_clash (h : d.AwaitsClaim) (hc : d.ownClaim.Clash c) (us : Nat) :
    (d.hear c).rankClaims us = (d.hear c).conflictHold := by
  obtain ⟨hown, hother, hne⟩ := hc
  rw [h.rankClaims_hear]
  exact if_pos (by simp [hown, hother, hne])

theorem rankClaims_of_not_clash (h : d.AwaitsClaim) (hc : ¬d.ownClaim.Clash c) (us : Nat) :
    (d.hear c).rankClaims us = if d.ownClaim.above c then (d.hear c).becomeManager us else (d.hear c).becomeReserve c.pos us := by
  rw [h.rankClaims_hear]
  exact if_neg (by simpa [Claim.Clash, and_assoc] using hc)

/-- Without a clash the role is decided: this device becomes manager exactly when its claim ranks above. -/
theorem rankClaims_decides (h : d.AwaitsClaim) (hc : ¬d.ownClaim.Clash c) (us : Nat) :
    let e := (d.hear c).rankClaims us
    e.boot.roleKnown = true ∧ e.phase = 7 ∧ e.boot.role = if d.ownClaim.above c then .manager else .reserve := by
  rw [h.rankClaims_of_not_clash hc]
  split
  case isTrue =>
    obtain ⟨hphase, hrole, hknown, -⟩ := (d.hear c).becomeManager_decides us
    exact ⟨hknown, hphase, hrole⟩
  case isFalse =>
    obtain ⟨hphase, hrole, hknown⟩ := (d.hear c).becomeReserve_decides c.pos us
    exact ⟨hknown, hphase, hrole⟩

end Dev.AwaitsClaim

/-! ## The two commands of claim and census -/

theorem exec_claimMessage_of_awaits {s : State} (h : s.dev.AwaitsClaim) {p : Fin 32} (hp : p.val ≠ s.dev.pos) (us : Nat) (f : Bool)
    (id : BitVec 64) :
    exec (.claimMessage us p f id) s = .next { s with dev := (s.dev.hear ⟨p.val, f, id⟩).rankClaims us } := by
  change execClaimMessage us p f id s = _
  simp [execClaimMessage, State.onDev, Dev.hear, h.capable, h.undecided, h.free, hp]

/-- With no claim in its 500 ms a device decides alone (R132, R133). -/
theorem exec_claimTimeout_of_awaits {s : State} (h : s.dev.AwaitsClaim) (hnone : s.dev.boot.claims = []) (us : Nat) :
    exec (.claimTimeout us) s = .next { s with dev := s.dev.becomeManager us } := by
  change execClaimTimeout us s = _
  simp [execClaimTimeout, State.onDev, h.capable, h.undecided, h.trained, h.free, hnone]

/-- Settles O24: a clash of two histories holds the device, any other claim decides its role by rank, and no claim makes it manager. -/
theorem managerIsElectedByRank : Obligations.ManagerIsElectedByRank := by
  unfold Obligations.ManagerIsElectedByRank
  intro s us hcap hknown hopen hconf
  have hwait : s.dev.AwaitsClaim := ⟨hcap, hknown, hopen, hconf⟩
  refine ⟨fun p f id hp => ⟨_, exec_claimMessage_of_awaits hwait hp us f id, rfl, fun hown hf hne => ?clash, fun hno => ?ranked⟩,
    fun hnone => ⟨_, exec_claimTimeout_of_awaits hwait hnone us, ?alone⟩⟩
  case clash =>
    obtain ⟨hboot, hphase, hreason⟩ := (s.dev.hear ⟨p.val, f, id⟩).conflictHold_holds
    rw [hwait.rankClaims_of_clash (c := ⟨p.val, f, id⟩) ⟨hown, hf, hne⟩, hboot]
    exact ⟨rfl, hknown, rfl, hphase, hreason⟩
  case ranked =>
    obtain ⟨hdecided, hphase, hrole⟩ := hwait.rankClaims_decides ((Claim.not_clash_iff _ ⟨p.val, f, id⟩).2 hno) us
    refine ⟨hdecided, hphase, hrole.trans ?_⟩
    simp only [Claim.above_iff]
    rfl
  case alone =>
    obtain ⟨hphase, hrole, hdecided, hmgr, hres, hruns⟩ := s.dev.becomeManager_decides us
    exact ⟨hrole, hdecided, hres.trans (by rw [hnone]; rfl), hmgr, hphase, hruns, rfl⟩

end Sys2Proof.Machine
end

section
/-!
PROOF. Supply events and the thresholds of the DC bus (R167 to R169, R172, R174, R175): what one event records and when it starts a
BRACE, a rail below its minimum, and the writes of SUP_DCTHR0 and SUP_DCTHR1.
-/
namespace Sys2Proof.Machine
open Sys2Proof

/-! ## What a supply event moves -/

/-- Beside registers, what is sent and the supply state, e is d. -/
def Dev.supFrame (d e : Dev) : Prop := e = { d with regs := e.regs, out := e.out, pwr := e.pwr }

theorem Dev.supFrame.trans {d e f : Dev} (h : d.supFrame e) (h' : e.supFrame f) : d.supFrame f := by
  unfold Dev.supFrame at *; rw [h', h]

/-- The declaration of an event: its episode begins, and it is recorded. -/
def Dev.declare (d : Dev) (r : Reason) (v : Nat) : Dev := { d with pwr := { d.pwr with raised := d.pwr.raised ++ [r] } }.supEvent r v

theorem Dev.supFrame_declare (d : Dev) (r : Reason) (v : Nat) : d.supFrame (d.declare r v) := by
  unfold Dev.supFrame Dev.declare Dev.supEvent
  dsimp only
  rw [Dev.raiseIrq_regs_out_only]

theorem Dev.regsBut_declare (d : Dev) (r : Reason) (v : Nat) : d.regsBut (d.declare r v) irqRegs :=
  Dev.regsBut.raiseIrq (fun _ _ => Dev.reg_congr rfl _) (List.Subset.refl _) 17

/-- An event that finds room is the newest entry of the FIFO. -/
theorem Dev.pwr_declare_of_room {d : Dev} (h : d.pwr.mevt.length < 16) (r : Reason) (v : Nat) :
    (d.declare r v).pwr = { d.pwr with raised := d.pwr.raised ++ [r],
                                       mevt := d.pwr.mevt ++ [{ code := r, bn := d.now, val := v % 65536 }] } := by
  have hroom : ¬16 ≤ d.pwr.mevt.length := Nat.not_le.2 h
  simp [Dev.declare, Dev.supEvent, hroom, Dev.now]

@[simp] theorem Dev.now_declare (d : Dev) (r : Reason) (v : Nat) : (d.declare r v).now = d.now := by
  simp [Dev.declare, Dev.supEvent, Dev.now]

/-- Recording an event decides nothing about whether a BRACE is in force or can start. -/
@[simp] theorem Dev.braced_declare (d : Dev) (r : Reason) (v : Nat) : (d.declare r v).braced = d.braced := by
  unfold Dev.braced Dev.flag Dev.fld
  rw [d.regsBut_declare r v _ (by decide)]

@[simp] theorem Dev.canBrace_declare (d : Dev) (r : Reason) (v : Nat) : (d.declare r v).canBrace = d.canBrace := by
  have hstate : (d.declare r v).pstate = d.pstate := by
    unfold Dev.pstate Dev.fld
    rw [d.regsBut_declare r v _ (by decide)]
  unfold Dev.canBrace
  rw [hstate]
  simp [Dev.declare, Dev.supEvent]

/-! ## The BRACE that an event starts (R169, R172, R175) -/

theorem Dev.braceReq_keeps (d : Dev) (r : Reason) :
    d.braceReq r = { d with pwr := { d.pwr with braceDue := (d.braceReq r).pwr.braceDue, open_ := (d.braceReq r).pwr.open_ } } := by
  unfold Dev.braceReq
  (repeat' split) <;> rfl

theorem Dev.braceDue_braceReq_of_free {d : Dev} (hc : d.canBrace = true) (hb : d.braced = false) (hd : d.pwr.braceDue = none)
    (r : Reason) : (d.braceReq r).pwr.braceDue = some (d.now + 1) := by
  simp [Dev.braceReq, hc, hb, hd]

theorem Dev.braceDue_braceReq_of_shut {d : Dev} (h : d.canBrace = false ∨ d.braced = true) (r : Reason) :
    (d.braceReq r).pwr.braceDue = d.pwr.braceDue := by
  unfold Dev.braceReq
  rcases h with hc | hb
  · simp [hc]
  · simp only [hb, Bool.true_or, if_true]; split <;> rfl

theorem Dev.canBrace_powered {d : Dev} (h : d.canBrace = true) : d.pwr.vcore = true ∧ d.pstate ≠ 3 ∧ d.pstate ≠ 4 := by
  simp only [Dev.canBrace, Bool.and_eq_true, bne_iff_ne] at h
  obtain ⟨⟨⟨⟨hcore, -⟩, -⟩, hpark⟩, hoff⟩ := h
  exact ⟨hcore, hpark, hoff⟩

/-! ## A condition that holds (R167) -/

theorem Dev.supWatch_of_raised {d : Dev} {r : Reason} (h : r ∈ d.pwr.raised) (brace : Bool) (v : Nat) :
    d.supWatch r true brace v = d := by
  simp [Dev.supWatch, h]

theorem Dev.supWatch_of_new {d : Dev} {r : Reason} (h : r ∉ d.pwr.raised) (v : Nat) :
    d.supWatch r true true v = (d.declare r v).braceReq r := by
  simp [Dev.supWatch, Dev.declare, h]

/-- A condition that holds and asks for a BRACE changes registers as a cause of its vector does. -/
theorem Dev.supWatch_moves (d : Dev) (r : Reason) (v : Nat) :
    d.supFrame (d.supWatch r true true v) ∧ d.regsBut (d.supWatch r true true v) irqRegs := by
  by_cases h : r ∈ d.pwr.raised
  · rw [Dev.supWatch_of_raised h]; exact ⟨rfl, .refl _ _⟩
  · have hbrace := (d.declare r v).braceReq_keeps r
    rw [Dev.supWatch_of_new h]
    refine ⟨(d.supFrame_declare r v).trans ?_, (d.regsBut_declare r v).trans fun a _ => ?_⟩
    · rw [hbrace]; rfl
    · rw [hbrace]; rfl

/-- A new episode is recorded with its beat and value. -/
theorem Dev.recorded_supWatch {d : Dev} {r : Reason} (h : r ∉ d.pwr.raised) (hroom : d.pwr.mevt.length < 16) (v : Nat) :
    (d.supWatch r true true v).pwr.mevt = d.pwr.mevt ++ [{ code := r, bn := d.now, val := v % 65536 }] ∧
    r ∈ (d.supWatch r true true v).pwr.raised := by
  rw [Dev.supWatch_of_new h, Dev.braceReq_keeps, Dev.pwr_declare_of_room hroom]
  exact ⟨rfl, by simp⟩

/-- A new episode starts a BRACE at the next beat where one may start and none is due or in force. -/
theorem Dev.braceDue_supWatch {d : Dev} {r : Reason} (h : r ∉ d.pwr.raised) (hroom : d.pwr.mevt.length < 16) (v : Nat) :
    (d.canBrace = true → d.braced = false → d.pwr.braceDue = none → (d.supWatch r true true v).pwr.braceDue = some (d.now + 1)) ∧
    (d.canBrace = false ∨ d.braced = true → (d.supWatch r true true v).pwr.braceDue = d.pwr.braceDue) := by
  have hdue : (d.declare r v).pwr.braceDue = d.pwr.braceDue := by rw [Dev.pwr_declare_of_room hroom]
  rw [Dev.supWatch_of_new h]
  refine ⟨fun hc hb hd => ?_, fun hshut => ?_⟩
  · rw [Dev.braceDue_braceReq_of_free (by simpa using hc) (by simpa using hb) (hdue.trans hd), Dev.now_declare]
  · rw [Dev.braceDue_braceReq_of_shut (by simpa using hshut), hdue]

/-! ## A rail below its minimum (Table PWR-4) -/

/-- The VIO banks without a supply once rail k has fallen to mv millivolts. -/
def banksOff (off : List Nat) (k : Fin 8) (mv : BitVec 16) : List Nat :=
  if k.val < 4 then off
  else if mv.toNat = 0 then (k.val - 4) :: off.filter (· != k.val - 4) else off.filter (· != k.val - 4)

theorem mem_banksOff_same {k : Fin 8} (hk : 4 ≤ k.val) (off : List Nat) (mv : BitVec 16) :
    k.val - 4 ∈ banksOff off k mv ↔ mv = 0 := by
  have hzero : mv = 0 ↔ mv.toNat = 0 := BitVec.toNat_inj.symm
  rw [banksOff, if_neg (Nat.not_lt.2 hk), hzero]
  split <;> simp [*]

theorem mem_banksOff_ne {k : Fin 8} (hk : 4 ≤ k.val) (off : List Nat) (mv : BitVec 16) {b : Nat} (hb : b ≠ k.val - 4) :
    b ∈ banksOff off k mv ↔ b ∈ off := by
  rw [banksOff, if_neg (Nat.not_lt.2 hk)]
  split <;> simp [hb]

/-- The device once a fallen rail shows in SUP_RAILS and, of the VIO rails, in its bank. -/
def Dev.railLow (d : Dev) (k : Fin 8) (mv : BitVec 16) : Dev :=
  { d.setReg R.SUP_RAILS (putBit (d.reg R.SUP_RAILS) k.val true) with boot := { d.boot with bankOff := banksOff d.boot.bankOff k mv } }

theorem Dev.reg_railLow (d : Dev) (k : Fin 8) (mv : BitVec 16) (a : Nat) :
    (d.railLow k mv).reg a = if a = R.SUP_RAILS then putBit (d.reg R.SUP_RAILS) k.val true else d.reg a :=
  (Dev.reg_congr rfl a).trans (Dev.reg_setReg d R.SUP_RAILS a _)

theorem Dev.fld_railLow (d : Dev) (k : Fin 8) (mv : BitVec 16) (f : Fld) (h : f.a ≠ R.SUP_RAILS) :
    (d.railLow k mv).fld f = d.fld f := by
  unfold Dev.fld; rw [Dev.reg_railLow, if_neg h]

theorem Dev.canBrace_railLow (d : Dev) (k : Fin 8) (mv : BitVec 16) : (d.railLow k mv).canBrace = d.canBrace := by
  unfold Dev.canBrace Dev.pstate; rw [Dev.fld_railLow _ _ _ _ (by decide)]; rfl

theorem Dev.braced_railLow (d : Dev) (k : Fin 8) (mv : BitVec 16) : (d.railLow k mv).braced = d.braced := by
  unfold Dev.braced Dev.flag; rw [Dev.fld_railLow _ _ _ _ (by decide)]

/-- SUPPLY_UV of every rail: VAUX declares no event (Table PWR-4). -/
def Dev.railEvent (d : Dev) (k : Fin 8) (mv : BitVec 16) : Dev :=
  if k.val = 3 then d.railLow k mv else (d.railLow k mv).supWatch Rsn.supplyUv true true mv.toNat

theorem exec_supplyUv (s : State) (k : Fin 8) (mv : BitVec 16) :
    exec (.supplyUv ⟨k, mv⟩) s = .next { s with dev := s.dev.railEvent k mv } := by
  change execSupplyUv ⟨k, mv⟩ s = _
  unfold execSupplyUv State.onDev Dev.railEvent Dev.railLow banksOff
  dsimp only
  by_cases hk : k.val < 4
  · simp only [if_pos hk]; rfl
  · simp only [if_neg hk]; rfl

theorem Dev.railEvent_moves (d : Dev) (k : Fin 8) (mv : BitVec 16) :
    (d.railLow k mv).supFrame (d.railEvent k mv) ∧ (d.railLow k mv).regsBut (d.railEvent k mv) irqRegs := by
  unfold Dev.railEvent
  split
  · exact ⟨rfl, .refl _ _⟩
  · exact Dev.supWatch_moves _ _ _

theorem Dev.boot_railEvent (d : Dev) (k : Fin 8) (mv : BitVec 16) :
    (d.railEvent k mv).boot = { d.boot with bankOff := banksOff d.boot.bankOff k mv } :=
  congrArg Dev.boot (d.railEvent_moves k mv).1

theorem Dev.railEvent_of_silent {d : Dev} {k : Fin 8} (h : k.val = 3 ∨ Rsn.supplyUv ∈ d.pwr.raised) (mv : BitVec 16) :
    d.railEvent k mv = d.railLow k mv := by
  unfold Dev.railEvent
  split
  · rfl
  · next hk => exact Dev.supWatch_of_raised (d := d.railLow k mv) (h.resolve_left hk) true mv.toNat

/-- The first fallen rail of an episode but VAUX. -/
theorem Dev.railEvent_of_new {d : Dev} {k : Fin 8} (hk : k.val ≠ 3) (mv : BitVec 16) :
    d.railEvent k mv = (d.railLow k mv).supWatch Rsn.supplyUv true true mv.toNat := if_neg hk

/-! ## The thresholds of the DC bus (R174) -/

/-- The words that SUP_DCTHR0 and SUP_DCTHR1 would hold after a write of one of them. -/
def Dev.dcthr0 (d : Dev) (second : Bool) (w : Word) : Word := if second then d.reg R.SUP_DCTHR0 else w &&& 0x0FFF0FFF
def Dev.dcthr1 (d : Dev) (second : Bool) (w : Word) : Word := if second then w &&& 0xFFF else d.reg R.SUP_DCTHR1

/-- DCHOLD < DCBRACE < DCREL. -/
def DcRising (t0 t1 : Word) : Prop := slice t0 27 16 < slice t0 11 0 ∧ slice t0 11 0 < slice t1 11 0

theorem Dev.writeDcthr_of_rising {d : Dev} {b : Bool} {w : Word} (h : DcRising (d.dcthr0 b w) (d.dcthr1 b w)) :
    d.writeDcthr b w = (d.setReg R.SUP_DCTHR0 (d.dcthr0 b w)).setReg R.SUP_DCTHR1 (d.dcthr1 b w) := if_pos h

theorem Dev.writeDcthr_of_not_rising {d : Dev} {b : Bool} {w : Word} (h : ¬DcRising (d.dcthr0 b w) (d.dcthr1 b w)) :
    d.writeDcthr b w = d.setFlag F.SUP_DCVAL_THR_ERR true := if_neg h

theorem Dev.writeDcthr_regs_only (d : Dev) (b : Bool) (w : Word) : d.writeDcthr b w = { d with regs := (d.writeDcthr b w).regs } := by
  by_cases h : DcRising (d.dcthr0 b w) (d.dcthr1 b w)
  · rw [Dev.writeDcthr_of_rising h]; rfl
  · rw [Dev.writeDcthr_of_not_rising h]; rfl

theorem Dev.reg_writeDcthr_of_rising {d : Dev} {b : Bool} {w : Word} (h : DcRising (d.dcthr0 b w) (d.dcthr1 b w)) (a : Nat) :
    (d.writeDcthr b w).reg a =
      if a = R.SUP_DCTHR1 then d.dcthr1 b w else if a = R.SUP_DCTHR0 then d.dcthr0 b w else d.reg a := by
  rw [Dev.writeDcthr_of_rising h, Dev.reg_setReg, Dev.reg_setReg]

theorem exec_supDcthrWrite_of_pass {s : State} {p : Port} {b : Bool} (w : Word)
    (h : s.dev.gate p (if b then R.SUP_DCTHR1 else R.SUP_DCTHR0) = .pass) :
    exec (.supDcthrWrite p b w) s = .next { s with dev := s.dev.writeDcthr b w } := by
  change execSupDcthrWrite p b w s = _
  rw [execSupDcthrWrite, State.onDev, Dev.viaPort_of_pass h]

/-! ## The statement -/

/-- Settles O29: a fallen rail shows in SUP_RAILS and in its bank, its episode declares one event, and the thresholds are written
together or not at all. -/
theorem supplyEventsAndThresholds : Obligations.SupplyEventsAndThresholds := by
  unfold Obligations.SupplyEventsAndThresholds
  refine fun s => ⟨fun k mv => ?rail, Dev.canBrace_powered, fun p b w hg => ?thresholds⟩
  case rail =>
    obtain ⟨hframe, hregs⟩ := s.dev.railEvent_moves k mv
    have hboot := s.dev.boot_railEvent k mv
    have hbank : (s.dev.railEvent k mv).boot.bankOff = banksOff s.dev.boot.bankOff k mv := by rw [hboot]
    refine ⟨_, exec_supplyUv s k mv, ?shown, ?regs, fun hsilent => ?silent, fun hk => ?core, fun hk => ?bank,
      fun hk hnew hroom => ?declared, ?frame⟩
    case shown =>
      dsimp only
      rw [hregs _ (by decide), Dev.reg_railLow, if_pos rfl, bitOf_putBit _ _ _ _ (by omega), if_pos rfl]
    case regs =>
      refine Dev.regsBut.trans (e := s.dev.railLow k mv) (fun a ha => ?_) fun a ha => hregs a fun h => ha (by simp [h])
      rw [Dev.reg_railLow, if_neg fun h => ha (by simp [h])]
    case silent => rw [Dev.railEvent_of_silent hsilent mv]; rfl
    case core => dsimp only; rw [hbank, banksOff, if_pos hk]
    case bank =>
      dsimp only
      rw [hbank]
      exact ⟨mem_banksOff_same hk _ mv, fun b hb => mem_banksOff_ne hk _ mv hb⟩
    case declared =>
      have hval : mv.toNat % 65536 = mv.toNat := Nat.mod_eq_of_lt mv.isLt
      obtain ⟨hevt, hraised⟩ := Dev.recorded_supWatch (d := s.dev.railLow k mv) hnew hroom mv.toNat
      obtain ⟨hstart, hshut⟩ := Dev.braceDue_supWatch (d := s.dev.railLow k mv) hnew hroom mv.toNat
      rw [hval] at hevt
      rw [Dev.canBrace_railLow, Dev.braced_railLow] at hstart hshut
      rw [Dev.railEvent_of_new hk]
      exact ⟨hevt, hraised, hstart, hshut⟩
    case frame =>
      dsimp only
      rw [hbank]
      exact congrArg (fun d => { s with dev := d }) hframe
  case thresholds =>
    refine ⟨_, exec_supDcthrWrite_of_pass w hg, congrArg (fun d => { s with dev := d }) (s.dev.writeDcthr_regs_only b w),
      fun hok => ?rising, fun hbad => ?refused⟩
    case rising =>
      have hreg := Dev.reg_writeDcthr_of_rising (d := s.dev) (b := b) (w := w) hok
      refine ⟨hreg R.SUP_DCTHR0, hreg R.SUP_DCTHR1, fun a ha => ?_⟩
      simp only [List.mem_cons, List.not_mem_nil, or_false, not_or] at ha
      exact (hreg a).trans ((if_neg ha.2).trans (if_neg ha.1))
    case refused =>
      have hwrite := Dev.writeDcthr_of_not_rising (d := s.dev) (b := b) (w := w) hbad
      dsimp only
      rw [hwrite]
      exact ⟨Dev.flag_setFlag_same _ _ _ (by decide) rfl, (Dev.regsBut.refl _ _).setFlag (by simp) true⟩

end Sys2Proof.Machine
end

section
/-!
PROOF. The CKOUT outputs and the fence causes (R233, R238 to R242, R251, R779 to R782): what a change of an output's source and what a raised
or cleared cause leave alone, the source that each output shows afterwards, and the causes that a domain then holds.
-/
namespace Sys2Proof.Machine
open Sys2Proof

/-! ## Fields read through the frame of an operation -/

namespace Dev.regsBut
variable {d e : Dev} {l m : List Nat}

theorem mono (h : d.regsBut e l) (hl : l ⊆ m) : d.regsBut e m := fun a ha => h a fun hm => ha (hl hm)

theorem of_regs (h : e.regs = d.regs) (l : List Nat) : d.regsBut e l := fun a _ => Dev.reg_congr h a

theorem fld (h : d.regsBut e l) {f : Fld} (hf : f.a ∉ l) : e.fld f = d.fld f := by unfold Dev.fld; rw [h _ hf]

theorem flag (h : d.regsBut e l) {f : Fld} (hf : f.a ∉ l) : e.flag f = d.flag f := by unfold Dev.flag; rw [h.fld hf]

theorem setReg (h : d.regsBut e l) {a : Nat} (ha : a ∈ l) (w : Word) : d.regsBut (e.setReg a w) l := fun b hb => by
  rw [Dev.reg_setReg, if_neg (fun he : b = a => hb (he ▸ ha)), h b hb]

/-- What every step of a fold leaves of the registers, the fold leaves. -/
theorem foldl {A : Type} {f : Dev → A → Dev} (hf : ∀ (d : Dev) (a : A), d.regsBut (f d a) l) (as : List A) :
    ∀ d : Dev, d.regsBut (as.foldl f d) l := by
  induction as with
  | nil => exact fun d => refl d l
  | cons a as ih => exact fun d => (hf d a).trans (ih (f d a))

end Dev.regsBut

/-- The registers do not move with the clock state. -/
theorem Dev.fld_withClk (d : Dev) (c : ClkSt) (f : Fld) : ({ d with clk := c } : Dev).fld f = d.fld f := rfl

theorem Dev.flag_withClk (d : Dev) (c : ClkSt) (f : Fld) : ({ d with clk := c } : Dev).flag f = d.flag f := rfl

theorem Dev.regsBut.withClk {d e : Dev} {l : List Nat} (h : d.regsBut e l) (c : ClkSt) : d.regsBut { e with clk := c } l := h

/-- A field that is wide enough reads what was written to it. -/
theorem Dev.fld_setFld_of_lt (d : Dev) {f : Fld} {v : Nat} (hf : f.hi < 32) (hv : v < 2 ^ (f.hi + 1 - f.lo)) :
    (d.setFld f v).fld f = v := by
  rw [Dev.fld_setFld_same _ _ _ hf, Nat.mod_eq_of_lt hv]

/-! ## Sources of the outputs (R238, R239, R251) -/

/-- Beside what the CKOUT pins carry and what is sent, e is d. -/
def Dev.pinFrame (d e : Dev) : Prop := e = { d with clk := { d.clk with outs := e.clk.outs }, out := e.out }

namespace Dev.pinFrame
variable {d e f : Dev}

theorem refl (d : Dev) : d.pinFrame d := rfl

theorem trans (h : d.pinFrame e) (h' : e.pinFrame f) : d.pinFrame f := by unfold Dev.pinFrame at *; rw [h', h]

theorem regs (h : d.pinFrame e) : e.regs = d.regs := (congrArg Dev.regs h :)

theorem clk (h : d.pinFrame e) : e.clk = { d.clk with outs := e.clk.outs } := congrArg Dev.clk h

theorem fen (h : d.pinFrame e) : e.fen = d.fen := (congrArg Dev.fen h :)

theorem jobs (h : d.pinFrame e) : e.jobs = d.jobs := (congrArg Dev.jobs h :)

theorem ckEnabled (h : d.pinFrame e) (n : Nat) : e.ckEnabled n = d.ckEnabled n := by
  unfold Dev.ckEnabled; rw [Dev.flag_congr h.regs, Dev.fld_congr h.regs]

theorem ckHeld (h : d.pinFrame e) (c : CkSrc) : e.ckHeld c = d.ckHeld c := by
  have hdep : e.asStopped = d.asStopped := congrArg (fun c => c.depReason.isSome) h.clk
  unfold Dev.ckHeld; rw [hdep]

end Dev.pinFrame

/-- What an output shows that showed `was` and is changed to c. -/
def Dev.ckNext (d : Dev) (was c : CkSrc) : CkSrc := if was = c then c else d.ckHeld c

theorem Dev.ckNext_same (d : Dev) (c : CkSrc) : d.ckNext c c = c := if_pos rfl

theorem Dev.ckNext_ne (d : Dev) {was c : CkSrc} (h : was ≠ c) : d.ckNext was c = d.ckHeld c := if_neg h

/-- A source that carries no clock is not held back. -/
theorem Dev.ckHeld_of_still (d : Dev) {c : CkSrc} (h : (c == .synth || c == .bypass || c == .switching) = false) : d.ckHeld c = c := by
  simp [Dev.ckHeld, h]

theorem Dev.ckHeld_bypLow (d : Dev) : d.ckHeld .bypLow = .bypLow := d.ckHeld_of_still rfl
theorem Dev.ckHeld_deadLow (d : Dev) : d.ckHeld .deadLow = .deadLow := d.ckHeld_of_still rfl

theorem Dev.pinFrame_setCk (d : Dev) (n : Nat) (c : CkSrc) : d.pinFrame (d.setCk n c) := by
  unfold Dev.setCk; dsimp only; split <;> rfl

theorem Dev.ck_setCk (d : Dev) (n m : Nat) (c : CkSrc) : (d.setCk n c).ck m = if m = n then d.ckNext (d.ck n) c else d.ck m := by
  by_cases hc : d.ck n = c
  · simp only [Dev.setCk, Dev.ckNext, hc, true_or, if_true]; split <;> simp [*]
  · by_cases hh : d.ck n = d.ckHeld c
    · simp only [Dev.setCk, Dev.ckNext, ← hh, if_neg hc, or_true, if_true]; split <;> simp [*]
    · simp only [Dev.setCk, Dev.ckNext, hc, hh, or_self, if_false]
      exact mget_mset _ _ _ _ _

/-- An enabled output follows a rule; another one stays. -/
def Dev.ckStep (f : Nat → CkSrc → CkSrc) (d : Dev) (n : Nat) : Dev := if d.ckEnabled n then d.setCk n (f n (d.ck n)) else d

/-- What an output shows once it has followed a rule. -/
def Dev.ckRuled (d : Dev) (f : Nat → CkSrc → CkSrc) (n : Nat) : CkSrc :=
  if d.ckEnabled n then d.ckNext (d.ck n) (f n (d.ck n)) else d.ck n

theorem Dev.ckEach_eq_foldl (d : Dev) (f : Nat → CkSrc → CkSrc) : d.ckEach f = (List.range 4).foldl (Dev.ckStep f) d := rfl

theorem Dev.pinFrame_ckStep (f : Nat → CkSrc → CkSrc) (d : Dev) (n : Nat) : d.pinFrame (d.ckStep f n) := by
  unfold Dev.ckStep; split
  · exact d.pinFrame_setCk n _
  · rfl

theorem Dev.ck_ckStep (f : Nat → CkSrc → CkSrc) (d : Dev) (n m : Nat) :
    (d.ckStep f n).ck m = if m = n then d.ckRuled f n else d.ck m := by
  unfold Dev.ckStep Dev.ckRuled
  split
  · exact d.ck_setCk n m _
  · split <;> simp [*]

theorem Dev.pinFrame.ckRuled {d e : Dev} (h : d.pinFrame e) (f : Nat → CkSrc → CkSrc) {n : Nat} (hn : e.ck n = d.ck n) :
    e.ckRuled f n = d.ckRuled f n := by
  simp only [Dev.ckRuled, Dev.ckNext, h.ckEnabled, h.ckHeld, hn]

theorem Dev.pinFrame_foldl (f : Nat → CkSrc → CkSrc) (l : List Nat) : ∀ d : Dev, d.pinFrame (l.foldl (Dev.ckStep f) d) := by
  induction l with
  | nil => exact Dev.pinFrame.refl
  | cons n l ih => exact fun d => (d.pinFrame_ckStep f n).trans (ih _)

/-- Outputs that follow a rule one after the other do so independently. -/
theorem Dev.ck_foldl_ckStep (f : Nat → CkSrc → CkSrc) {l : List Nat} (hl : l.Nodup) :
    ∀ (d : Dev) (m : Nat), (l.foldl (Dev.ckStep f) d).ck m = if m ∈ l then d.ckRuled f m else d.ck m := by
  induction l with
  | nil => simp
  | cons n l ih =>
    obtain ⟨hn, hl⟩ := List.nodup_cons.1 hl
    intro d m
    have hstep := d.ck_ckStep f n m
    rw [List.foldl_cons, ih hl]
    by_cases hm : m = n
    · subst hm
      rw [if_neg hn, hstep, if_pos rfl, if_pos (List.mem_cons_self ..)]
    · rw [if_neg hm] at hstep
      rw [(d.pinFrame_ckStep f n).ckRuled f hstep, hstep]
      simp [hm]

theorem Dev.pinFrame_ckEach (d : Dev) (f : Nat → CkSrc → CkSrc) : d.pinFrame (d.ckEach f) := Dev.pinFrame_foldl f _ d

theorem Dev.ck_ckEach (d : Dev) (f : Nat → CkSrc → CkSrc) {n : Nat} (hn : n < 4) : (d.ckEach f).ck n = d.ckRuled f n := by
  rw [Dev.ckEach_eq_foldl, Dev.ck_foldl_ckStep f List.nodup_range, if_pos (List.mem_range.2 hn)]

theorem Dev.ckRuled_of_enabled {d : Dev} {n : Nat} (h : d.ckEnabled n = true) (f : Nat → CkSrc → CkSrc) :
    d.ckRuled f n = d.ckNext (d.ck n) (f n (d.ck n)) := if_pos h

/-! ## What is sent for each output -/

/-- Send several things. -/
def Dev.sendAll (d : Dev) (l : List Out) : Dev := { d with out := d.out ++ l }

/-- What is sent for one thing after the other is sent at once, where it does not depend on what was sent. -/
theorem Dev.foldl_sendAll {A : Type} {f : Dev → A → Dev} {g : Dev → A → List Out} (hf : ∀ d a, f d a = d.sendAll (g d a))
    (hg : ∀ d l a, g (d.sendAll l) a = g d a) (as : List A) : ∀ d : Dev, as.foldl f d = d.sendAll (as.flatMap (g d)) := by
  induction as with
  | nil => intro d; simp [Dev.sendAll]
  | cons a as ih =>
    intro d
    have hrest : g (d.sendAll (g d a)) = g d := funext (hg d _)
    rw [List.foldl_cons, hf, ih, hrest]
    simp [Dev.sendAll]

/-! ## Causes of fences (R779 to R782) -/

@[simp] theorem Dev.doms_logFence (d : Dev) (k : Nat) (r : Reason) (c : Bool) : (d.logFence k r c).fen.doms = d.fen.doms := by
  unfold Dev.logFence; dsimp only; split <;> split <;> simp

theorem Dev.regsBut_logFence (d : Dev) (k : Nat) (r : Reason) (c : Bool) : d.regsBut (d.logFence k r c) irqRegs := by
  have hirq : ∀ e : Dev, e.regs = d.regs → d.regsBut (e.raiseIrq 16) irqRegs := fun e he =>
    (Dev.regsBut.of_regs he _).raiseIrq (List.Subset.refl _) 16
  have hsend : ∀ (e : Dev) (p k : Nat) (ws : List Word), d.regsBut e irqRegs → d.regsBut (e.bulkPut p k ws) irqRegs :=
    fun e p k ws h => h.trans (.of_regs (by simp) _)
  unfold Dev.logFence
  dsimp only
  split <;> split
  · exact hsend _ _ _ _ (hirq _ rfl)
  · exact hirq _ rfl
  · exact hsend _ _ _ _ (hirq _ rfl)
  · exact hirq _ rfl

theorem Dev.regsBut_raiseOne (d : Dev) (k : Nat) (r : Reason) : d.regsBut (d.raiseOne k r) irqRegs := by
  have hlog : ∀ v, d.regsBut ((d.setDom k v).logFence k r false) irqRegs := fun v =>
    Dev.regsBut.trans (e := d.setDom k v) (.of_regs rfl _) (Dev.regsBut_logFence _ k r false)
  unfold Dev.raiseOne
  dsimp only
  split
  · exact .refl _ _
  · split <;> exact hlog _

theorem Dev.regsBut_raiseCause (d : Dev) (k : Nat) (r : Reason) : d.regsBut (d.raiseCause k r) irqRegs := by
  unfold Dev.raiseCause
  dsimp only
  split
  · exact (d.regsBut_raiseOne k r).trans (.foldl (fun d m => d.regsBut_raiseOne _ _) _ _)
  · exact d.regsBut_raiseOne k r

theorem Dev.regsBut_raiseAll (d : Dev) (l : List (Nat × Reason)) : d.regsBut (d.raiseAll l) irqRegs :=
  .foldl (fun e (c : Nat × Reason) => e.regsBut_raiseCause c.1 c.2) _ d

/-- A raised cause is held beside those held before. -/
theorem Dev.mem_causes_raiseOne (d : Dev) (k j : Nat) (r x : Reason) :
    x ∈ ((d.raiseOne k r).dom j).causes ↔ x ∈ (d.dom j).causes ∨ (j = k ∧ x = r) := by
  unfold Dev.raiseOne
  dsimp only
  split
  case isTrue hheld =>
    have hheld : r ∈ (d.dom k).causes := by simpa using hheld
    exact ⟨.inl, fun h => h.elim id fun ⟨hj, hx⟩ => by rw [hj, hx]; exact hheld⟩
  case isFalse =>
    have hset : ∀ v : DomSt, (((d.setDom k v).logFence k r false).dom j).causes = if j = k then v.causes else (d.dom j).causes := by
      intro v
      unfold Dev.dom Dev.setDom
      rw [Dev.doms_logFence, mget_mset]
      split <;> rfl
    split
    case isTrue hfirst =>
      have hnone : (d.dom k).causes = [] := by simpa using hfirst
      refine (iff_of_eq (congrArg (x ∈ ·) (hset _))).trans ?_
      split <;> simp_all
    case isFalse =>
      refine (iff_of_eq (congrArg (x ∈ ·) (hset _))).trans ?_
      split <;> simp_all

/-- No cause goes when another is raised. -/
theorem Dev.causes_mono_raiseCause {d : Dev} {j : Nat} {x : Reason} (h : x ∈ (d.dom j).causes) (k : Nat) (r : Reason) :
    x ∈ ((d.raiseCause k r).dom j).causes := by
  have hone := (d.mem_causes_raiseOne k j r x).2 (.inl h)
  unfold Dev.raiseCause
  dsimp only
  split
  · exact List.foldlRecOn (motive := fun e : Dev => x ∈ (e.dom j).causes) _ _ hone fun e he _ _ =>
      (e.mem_causes_raiseOne _ j _ x).2 (.inl he)
  · exact hone

theorem Dev.mem_causes_raiseCause (d : Dev) (k : Nat) (r : Reason) : r ∈ ((d.raiseCause k r).dom k).causes := by
  have hone := (d.mem_causes_raiseOne k k r r).2 (.inr ⟨rfl, rfl⟩)
  unfold Dev.raiseCause
  dsimp only
  split
  · exact List.foldlRecOn (motive := fun e : Dev => r ∈ (e.dom k).causes) _ _ hone fun e he _ _ =>
      (e.mem_causes_raiseOne _ k _ r).2 (.inl he)
  · exact hone

/-- Of causes that are raised one after the other, every one is held. -/
theorem Dev.mem_causes_foldl {k : Nat} {r : Reason} {l : List (Nat × Reason)} :
    ∀ d : Dev, (k, r) ∈ l ∨ r ∈ (d.dom k).causes → r ∈ ((l.foldl (fun d c => d.raiseCause c.1 c.2) d).dom k).causes := by
  induction l with
  | nil => simp
  | cons c l ih =>
    rintro d (hc | hd)
    · rcases List.mem_cons.1 hc with rfl | hl
      · exact ih _ (.inr (d.mem_causes_raiseCause k r))
      · exact ih _ (.inl hl)
    · exact ih _ (.inr (Dev.causes_mono_raiseCause hd c.1 c.2))

theorem Dev.mem_causes_raiseAll (d : Dev) {l : List (Nat × Reason)} {k : Nat} {r : Reason} (h : (k, r) ∈ l) :
    r ∈ ((d.raiseAll l).dom k).causes :=
  Dev.mem_causes_foldl d (.inl (List.mem_mergeSort.2 h))

/-! ## Cleared causes (R594, R797, R807) -/

/-- The registers that the clear of a cause may change: those of a head port's training beside the interrupts. -/
def clearRegs : List Nat := R.HP_EVT :: (List.range 16).map R.HP_STAT ++ irqRegs

theorem irqRegs_subset_clearRegs : irqRegs ⊆ clearRegs := fun _ ha => List.mem_append_right _ ha

theorem hpStat_mem_clearRegs (p : Nat) : R.HP_STAT p ∈ clearRegs :=
  have hport : p % 16 ∈ List.range 16 := List.mem_range.2 (Nat.mod_lt p (by decide))
  List.mem_append_left _ (List.mem_cons_of_mem _ (List.mem_map.2 ⟨p % 16, hport, by simp [R.HP_STAT]⟩))

theorem Dev.regsBut_hpLink (d : Dev) (p n : Nat) : d.regsBut (d.hpLink p n) clearRegs := by
  have hstate : d.regsBut ((d.setHp p { d.hpSt p with since := d.now }).setFld (F.HP_STAT_LSTATE p) n) clearRegs :=
    (Dev.regsBut.of_regs (by simp) _).setFld (hpStat_mem_clearRegs p) n
  unfold Dev.hpLink
  dsimp only
  split
  · exact hstate
  · exact (hstate.setReg (by simp [clearRegs]) _).raiseIrq irqRegs_subset_clearRegs 16

theorem Dev.regsBut_hpTrain (d : Dev) (p : Nat) : d.regsBut (d.hpTrain p) clearRegs := by
  unfold Dev.hpTrain
  split
  · unfold Dev.hpAttempt
    exact ((Dev.regsBut.of_regs (by simp) _).trans (Dev.regsBut_hpLink _ p 1)).setFld (hpStat_mem_clearRegs p) _
  · exact .refl _ _

theorem Dev.regsBut_clearCauses (d : Dev) (k : Nat) (q : Reason → Bool) : d.regsBut (d.clearCauses k q) clearRegs := by
  have hset : ∀ v, d.regsBut (d.setDom k v) clearRegs := fun v => .of_regs rfl _
  unfold Dev.clearCauses
  dsimp only
  split
  · exact .refl _ _
  · split
    · split
      · exact (hset _).trans (Dev.regsBut_hpTrain _ k)
      · exact (hset _).trans ((Dev.regsBut_logFence _ k _ true).mono irqRegs_subset_clearRegs)
    · exact hset _

/-- The ASYN reasons go, and with them only registers of cleared causes change (R242). -/
theorem Dev.regsBut_asFree (d : Dev) : d.regsBut d.asFree clearRegs := .foldl (fun d k => d.regsBut_clearCauses k _) _ d

/-- A sync of the outputs changes registers only where it frees the AS_DEP domains (R242, R246). -/
theorem Dev.regsBut_asSync (d : Dev) (all : Bool) : d.regsBut (d.asSync all) clearRegs := by
  have hsetCk : ∀ (e : Dev) (n : Nat) (c : CkSrc), (e.setCk n c).regs = e.regs := fun e n c => (e.pinFrame_setCk n c).regs
  unfold Dev.asSync
  extract_lets clk d1 d2
  have hloop : d2.regs = d1.regs := by
    unfold d2
    refine foldl_keeps _ Dev.regs (fun e n => ?_) _ _
    split
    · rfl
    split
    · exact hsetCk _ _ _
    split
    · rfl
    rw [hsetCk]; split <;> rfl
  have hframe : d.regsBut d2 clearRegs := .of_regs hloop _
  clear_value d2
  split
  · exact hframe.trans d2.regsBut_asFree
  · exact hframe

end Sys2Proof.Machine
end

section
/-!
PROOF. The commands of the synthesizer (R232, R243, R256, R260): which words of AS_CMD a device refuses, and the command that it holds
otherwise.
-/
namespace Sys2Proof.Machine
open Sys2Proof

/-! ## Registers of the synthesizer and the fields of AS_STAT -/

/-- The registers of the synthesizer before its profiles are none of their bands. -/
theorem ne_asBand {a : Nat} (h : a < 0x2208) (k : Nat) : a ≠ R.AS_PBAND k := by simp only [R.AS_PBAND]; omega

theorem asBand_notMem_irqRegs (k : Nat) : R.AS_PBAND k ∉ irqRegs := by
  simp only [irqRegs, List.mem_cons, List.not_mem_nil, or_false, R.AS_PBAND, R.HST_ISR0, R.HST_ISR1, R.MSIX_PBA]; omega

theorem asBand_notMem_shown (k : Nat) : R.AS_PBAND k ∉ R.AS_STAT :: irqRegs :=
  List.not_mem_cons_of_ne_of_not_mem (ne_asBand (by decide) k).symm (asBand_notMem_irqRegs k)

theorem asDiv_notMem_asStat (i : Nat) : R.AS_DIV i ∉ [R.AS_STAT] := by simp only [List.mem_singleton, R.AS_DIV, R.AS_STAT]; omega

theorem asPd_notMem_asStat (k i : Nat) : R.AS_PD k i ∉ [R.AS_STAT] := by simp only [List.mem_singleton, R.AS_PD, R.AS_STAT]; omega

theorem asPn_notMem_asStat (k : Nat) : R.AS_PN k ∉ [R.AS_STAT] := by simp only [List.mem_singleton, R.AS_PN, R.AS_STAT]; omega

theorem asPfrac_notMem_asStat (k : Nat) : R.AS_PFRAC k ∉ [R.AS_STAT] := by simp only [List.mem_singleton, R.AS_PFRAC, R.AS_STAT]; omega

theorem Dev.state_setAs (d : Dev) {n : Nat} (hn : n < 8) : (d.setAs n).fld F.AS_STAT_STATE = n :=
  d.fld_setFld_of_lt (by decide) hn

theorem Dev.reason_asReason (d : Dev) (r : Reason) : (d.asReason r).fld F.AS_STAT_REASON = r.toNat :=
  d.fld_setFld_of_lt (by decide) r.isLt

/-! ## AS_CMD (R232, R243, R256, R260) -/

/-- The command t holds c, in place of any other, and beside that and AS_STAT it is s. -/
def AsWaits (s t : State) (c : AsPend) : Prop :=
  t.dev.clk = { s.dev.clk with asPend := some c } ∧ t.dev.flag F.AS_STAT_PENDING = true ∧ s.dev.regsBut t.dev [R.AS_STAT] ∧
    t = { s with dev := { s.dev with regs := t.dev.regs, clk := t.dev.clk } }

/-- Beside REF_STATE in AS_STAT, t is s. -/
def AsRefused (s t : State) : Prop :=
  t.dev.fld F.AS_STAT_REASON = 0x1005 ∧ s.dev.regsBut t.dev [R.AS_STAT] ∧ t = { s with dev := { s.dev with regs := t.dev.regs } }

/-- The device once it holds a command. -/
def Dev.asHold (d : Dev) (c : AsPend) : Dev := { d with clk := { d.clk with asPend := some c } }.setFlag F.AS_STAT_PENDING true

/-- The device once a held command is gone. -/
def Dev.asDrop (d : Dev) : Dev := { d with clk := { d.clk with asPend := none } }.setFlag F.AS_STAT_PENDING false

theorem Dev.regsBut_asDrop (d : Dev) : d.regsBut d.asDrop [R.AS_STAT] :=
  (Dev.regsBut.of_regs (d := d) (e := { d with clk := { d.clk with asPend := none } }) rfl _).setFlag (f := F.AS_STAT_PENDING) (by simp) false

/-- The command that a word of AS_CMD names. -/
def asPendOf (w : Word) (b : Nat) : AsPend where
  prof := slice w 2 0
  hop := bitOf w 3
  sync := bitOf w 4
  ret := bitOf w 5
  div := bitOf w 6 && !bitOf w 3
  search := bitOf w 7
  applyBn := b

/-- A word of AS_CMD names an operation and cancels none. -/
def AsOperates (w : Word) : Prop :=
  bitOf w 8 = false ∧ (bitOf w 3 || bitOf w 4 || bitOf w 5 || bitOf w 6 || bitOf w 7) = true

/-- SEARCH_ALL under a job of AS_DEP, and RETURN without lock or a clean window (R243, R260). -/
def Dev.asRefuses (d : Dev) (w : Word) : Bool :=
  (bitOf w 7 && d.depBusy) || (bitOf w 5 && !(d.flag F.AS_STAT_LOCKED && d.clk.cleanWin))

theorem Dev.asRefuses_of_neither {w : Word} (hsearch : bitOf w 7 = false) (hret : bitOf w 5 = false) (d : Dev) :
    d.asRefuses w = false := by
  simp [Dev.asRefuses, hsearch, hret]

theorem Dev.writeAsCmd_of_refused {d : Dev} {w : Word} (hw : AsOperates w)
    (hpark : (d.dom domAsyn).causes.contains Rsn.domainParked = false) (h : d.asRefuses w = true) :
    d.writeAsCmd w = d.asReason Rsn.refState := by
  obtain ⟨hcancel, hop⟩ := hw
  simp only [Dev.writeAsCmd, hcancel, hop, hpark, Bool.not_true, Bool.false_eq_true, if_false]
  rcases Bool.or_eq_true_iff.1 h with hsearch | hret
  · rw [if_pos hsearch]
  · rw [if_pos hret, ite_self]

theorem Dev.asApplyBn_asReason (d : Dev) (r : Reason) : (d.asReason r).asApplyBn = d.asApplyBn := by
  have hnow : (d.setFld F.AS_STAT_REASON r.toNat).now = d.now := rfl
  simp (disch := decide) only [Dev.asApplyBn, hnow, Dev.num2, Dev.num, Dev.asReason, Dev.reg_setFld_ne]

/-- A taken command is held for its beat; DIV_APPLY beside HOP is not, and shows REF_STATE (R256). -/
theorem Dev.writeAsCmd_of_taken {d : Dev} {w : Word} (hw : AsOperates w)
    (hpark : (d.dom domAsyn).causes.contains Rsn.domainParked = false) (h : d.asRefuses w = false) :
    d.writeAsCmd w = (if bitOf w 3 && bitOf w 6 then d.asReason Rsn.refState else d).asHold (asPendOf w d.asApplyBn) := by
  obtain ⟨hcancel, hop⟩ := hw
  obtain ⟨hsearch, hret⟩ := Bool.or_eq_false_iff.1 h
  simp only [Dev.writeAsCmd, hcancel, hop, hpark, hsearch, hret, Bool.not_true, Bool.false_eq_true, if_false]
  split
  · rw [← Dev.asApplyBn_asReason d Rsn.refState]; rfl
  · rfl

theorem Dev.writeAsCmd_cancel (d : Dev) : d.writeAsCmd 0x100 = d.asDrop := rfl

section
variable {s : State} {p : Port} {i : Instr} {w : Word}

theorem exec_asCmd_of_pass (hi : exec i s = .next (s.onDev fun d => d.viaPort p R.AS_CMD fun d => d.writeAsCmd w))
    (hg : s.dev.gate p R.AS_CMD = .pass) : exec i s = .next { s with dev := s.dev.writeAsCmd w } := by
  rw [hi, State.onDev, Dev.viaPort_of_pass hg]

theorem exec_asCmd_refused (hi : exec i s = .next (s.onDev fun d => d.viaPort p R.AS_CMD fun d => d.writeAsCmd w))
    (hg : s.dev.gate p R.AS_CMD = .pass) (hw : AsOperates w)
    (hpark : (s.dev.dom domAsyn).causes.contains Rsn.domainParked = false) (h : s.dev.asRefuses w = true) :
    ∃ t, exec i s = .next t ∧ AsRefused s t := by
  refine ⟨_, exec_asCmd_of_pass hi hg, ?_⟩
  rw [Dev.writeAsCmd_of_refused hw hpark h]
  exact ⟨Dev.reason_asReason _ _, (Dev.regsBut.refl _ _).setFld (by simp) _, rfl⟩

/-- A command that is taken waits for AS_APPLY, or for 4 beats on. -/
theorem exec_asCmd_waits {c : AsPend} (hi : exec i s = .next (s.onDev fun d => d.viaPort p R.AS_CMD fun d => d.writeAsCmd w))
    (hg : s.dev.gate p R.AS_CMD = .pass) (hw : AsOperates w)
    (hpark : (s.dev.dom domAsyn).causes.contains Rsn.domainParked = false) (h : s.dev.asRefuses w = false)
    (hc : asPendOf w s.dev.asApplyBn = c) :
    ∃ t, exec i s = .next t ∧ ((bitOf w 3 && bitOf w 6) = true → t.dev.fld F.AS_STAT_REASON = 0x1005) ∧ AsWaits s t c := by
  refine ⟨_, exec_asCmd_of_pass hi hg, ?_⟩
  rw [Dev.writeAsCmd_of_taken hw hpark h, hc]
  have hpend : ∀ d : Dev, (d.asHold c).flag F.AS_STAT_PENDING = true := fun d => Dev.flag_setFlag_same _ _ _ (by decide) rfl
  have hregs : ∀ d : Dev, s.dev.regsBut d [R.AS_STAT] → s.dev.regsBut (d.asHold c) [R.AS_STAT] := fun d hd =>
    Dev.regsBut.setFlag (e := { d with clk := { d.clk with asPend := some c } }) (hd.trans (.of_regs rfl _)) (by simp) true
  split
  case isTrue =>
    refine ⟨fun _ => ?_, rfl, hpend _, hregs _ ((Dev.regsBut.refl _ _).setFld (by simp) _), rfl⟩
    exact (Dev.fld_setFlag_ne _ _ _ _ (by decide) (by decide)).trans
      ((Dev.fld_congr rfl _).trans (s.dev.reason_asReason Rsn.refState))
  case isFalse hno => exact ⟨fun hyes => absurd hyes hno, rfl, hpend _, hregs _ (.refl _ _), rfl⟩

end

/-- The word that a write of AS_CMD with HOP carries, of its nine bits. -/
def hopWord (n : Nat) : Word := (BitVec.ofNat 9 n).setWidth 32 ||| 8

/-- The word of HOP to profile k, with DIV_APPLY beside it or without (R256). -/
theorem hopWord_bits (k : Fin 8) (y : Bool) (b : Nat) :
    let w := hopWord (if y then k.val + 64 else k.val)
    AsOperates w ∧ bitOf w 7 = false ∧ bitOf w 5 = false ∧ (bitOf w 3 && bitOf w 6) = y ∧
      asPendOf w b = { prof := k.val, hop := true, applyBn := b } := by
  have hzero : ∀ (k : Fin 8) (y : Bool),
      let w := hopWord (if y then k.val + 64 else k.val)
      (bitOf w 8 = false ∧ (bitOf w 3 || bitOf w 4 || bitOf w 5 || bitOf w 6 || bitOf w 7) = true) ∧ bitOf w 7 = false ∧
        bitOf w 5 = false ∧ (bitOf w 3 && bitOf w 6) = y ∧ asPendOf w 0 = { prof := k.val, hop := true, applyBn := 0 } := by decide
  obtain ⟨hop, hsearch, hret, hdiv, hpend⟩ := hzero k y
  exact ⟨hop, hsearch, hret, hdiv, congrArg (fun c : AsPend => { c with applyBn := b }) hpend⟩

end Sys2Proof.Machine
end

section
/-!
PROOF. Hops, dividers and faults of the synthesizer (R228, R232, R233, R236 to R238, R242, R244, R257): what a held command leaves at its
beat, and what a fault leaves of AS_STAT, the outputs and the AS_DEP domains.
-/
namespace Sys2Proof.Machine
open Sys2Proof

/-! ## The beat of a held command (R232) -/

theorem exec_asApply_of_none {s : State} (h : s.dev.clk.asPend = none) : exec .asApply s = .next s := by
  change execAsApply s = _
  simp only [execAsApply, State.onDev, h]

theorem exec_asApply_of_early {s : State} {c : AsPend} (h : s.dev.clk.asPend = some c) (hb : s.dev.now < c.applyBn) :
    exec .asApply s = .next s := by
  change execAsApply s = _
  simp only [execAsApply, State.onDev, h, if_neg (Nat.not_le.2 hb)]

theorem exec_asApply_of_due {s : State} {c : AsPend} (h : s.dev.clk.asPend = some c) (hb : c.applyBn ≤ s.dev.now) :
    exec .asApply s = .next { s with dev := s.dev.asTake c } := by
  change execAsApply s = _
  simp only [execAsApply, State.onDev, h, if_pos hb]

theorem Dev.asTake_hop (d : Dev) (k b : Nat) : d.asTake { prof := k, hop := true, applyBn := b } = d.asDrop.asHop k := rfl

theorem Dev.asTake_return (d : Dev) (b : Nat) : d.asTake { prof := 0, ret := true, applyBn := b } = d.asDrop.asReturn := rfl

/-! ## Dividers (R244, R257) -/

/-- The dividers once the four of v are loaded. -/
def loadDivs (v : Nat → Nat) (m : SMap Nat) : SMap Nat := (List.range 4).foldl (fun m i => mset 0 m i (v i)) m

theorem mget_loadDivs (v : Nat → Nat) (m : SMap Nat) {i : Nat} (hi : i < 4) : mget 0 (loadDivs v m) i = v i := by
  simp only [loadDivs, List.range, List.range.loop, List.foldl_cons, List.foldl_nil, mget_mset]
  interval_cases i <;> rfl

/-- The device once DIV_APPLY has loaded the shadows, before the outputs show their dividers. -/
def Dev.divLoaded (d : Dev) : Dev :=
  { d.asDrop with clk := { d.asDrop.clk with div := loadDivs (fun i => d.asDrop.fld (F.AS_DIV_SHADOW i)) d.clk.div } }

/-- DIV_APPLY loads the dividers, and the outputs on the synthesized clock show them. -/
theorem Dev.asTake_div (d : Dev) (b : Nat) :
    d.asTake { prof := 0, div := true, applyBn := b } = d.divLoaded.sendAll ((List.range 4).flatMap fun n =>
      if d.divLoaded.ck n == .synth then [d.divLoaded.ckOut n .synth] else []) :=
  Dev.foldl_sendAll (f := fun d n => if d.ck n == .synth then d.emit (d.ckOut n .synth) else d)
    (g := fun d n => if d.ck n == .synth then [d.ckOut n .synth] else [])
    (fun d n => by split <;> simp [Dev.sendAll, Dev.emit]) (fun _ _ _ => rfl) (List.range 4) d.divLoaded

/-! ## The hop (R228, R233, R257) -/

/-- The device once a hop has loaded profile p and lost lock, before its outputs follow. -/
def Dev.hopLoaded (d : Dev) (p : Nat) : Dev :=
  let e := d.setFld F.AS_STAT_ACTIVE p
  { e.setFlag F.AS_STAT_LOCKED false with clk := { d.clk with
      div := loadDivs (fun i => e.fld (F.AS_PD_DIVIDER p i)) d.clk.div, asN := e.fld (F.AS_PN_N_INT p),
      asFrac := e.num (R.AS_PFRAC p) % 2 ^ 24,
      asBand := if e.flag (F.AS_PBAND_VALID p) then some (e.fld (F.AS_PBAND_BAND p)) else none,
      hopping := true, cleanWin := false, syncAt := none } }

/-- Outputs in bypass stay; others may follow a rule. -/
theorem Dev.pinFrame_ite_ckEach (d : Dev) (b : Bool) (f : Nat → CkSrc → CkSrc) : d.pinFrame (if b then d else d.ckEach f) := by
  cases b
  · exact d.pinFrame_ckEach f
  · exact .refl d

/-- Beside the pins, a hop leaves the loaded profile and the state that it settles or searches in. -/
theorem Dev.asHop_of_enabled {d : Dev} (h : d.flag F.AS_CTRL_EN = true) (p : Nat) :
    ∃ e, (d.hopLoaded p).pinFrame e ∧ d.asHop p = e.setAs (if e.flag (F.AS_PBAND_VALID p) then 2 else 1) := by
  have hen : ∀ e : Dev, e.regs = (d.setFld F.AS_STAT_ACTIVE p).regs → ¬(!e.flag F.AS_CTRL_EN) = true := fun e he => by
    rw [Dev.flag_congr he, Dev.flag_setFld_ne _ _ _ _ (by decide) (by decide), h]; decide
  refine ⟨_, ?_, if_neg (hen _ rfl)⟩
  exact Dev.pinFrame_ite_ckEach (d.hopLoaded p) _ _

theorem Dev.regsBut_hopLoaded (d : Dev) (p : Nat) : d.regsBut (d.hopLoaded p) [R.AS_STAT] :=
  Dev.regsBut.trans (e := (d.setFld F.AS_STAT_ACTIVE p).setFlag F.AS_STAT_LOCKED false)
    (((Dev.regsBut.refl d _).setFld (by simp) p).setFlag (by simp) false) (.of_regs rfl _)

/-- A hop of a device that differs from c in AS_STAT alone loads the profile that c stores. -/
theorem Dev.asHop_loads {c d : Dev} (hcd : c.regsBut d [R.AS_STAT]) (hen : c.flag F.AS_CTRL_EN = true) (k : Fin 8) :
    let e := d.asHop k
    e.fld F.AS_STAT_ACTIVE = k.val ∧ e.flag F.AS_STAT_LOCKED = false ∧ e.clk.asPend = d.clk.asPend ∧ e.clk.hopping = true ∧
      e.fld F.AS_STAT_STATE = (if c.flag (F.AS_PBAND_VALID k.val) then 2 else 1) ∧
      (∀ i < 4, mget 0 e.clk.div i = c.fld (F.AS_PD_DIVIDER k.val i)) ∧
      e.clk.asN = c.fld (F.AS_PN_N_INT k.val) ∧ e.clk.asFrac = c.num (R.AS_PFRAC k.val) % 2 ^ 24 ∧
      e.clk.asBand = (if c.flag (F.AS_PBAND_VALID k.val) then some (c.fld (F.AS_PBAND_BAND k.val)) else none) ∧
      c.regsBut e [R.AS_STAT] ∧ e.fen = d.fen := by
  obtain ⟨e, hpins, hhop⟩ := Dev.asHop_of_enabled ((hcd.flag (by decide)).trans hen) k.val
  have hband : R.AS_PBAND k.val ∉ [R.AS_STAT] := by simpa using (ne_asBand (a := R.AS_STAT) (by decide) k.val).symm
  have hact : c.regsBut (d.setFld F.AS_STAT_ACTIVE k.val) [R.AS_STAT] := hcd.setFld (by simp) _
  have hregs : c.regsBut e [R.AS_STAT] := (hcd.trans (d.regsBut_hopLoaded k.val)).trans (.of_regs hpins.regs _)
  have hvalid := hregs.flag (f := F.AS_PBAND_VALID k.val) hband
  have hstate : (if e.flag (F.AS_PBAND_VALID k.val) then 2 else 1) < 8 := by split <;> decide
  dsimp only
  rw [hhop]
  refine ⟨?active, ?locked, (congrArg ClkSt.asPend hpins.clk :), (congrArg ClkSt.hopping hpins.clk :), ?state, fun i hi => ?div, ?int,
    ?frac, ?band, hregs.setFld (by simp) _, hpins.fen⟩
  case active =>
    rw [Dev.setAs, Dev.fld_setFld_ne _ _ _ _ (by decide) (by decide), Dev.fld_congr hpins.regs]
    exact (Dev.fld_setFlag_ne _ _ _ _ (by decide) (by decide)).trans (Dev.fld_setFld_of_lt _ (by decide) k.isLt)
  case locked =>
    rw [Dev.setAs, Dev.flag_setFld_ne _ _ _ _ (by decide) (by decide), Dev.flag_congr hpins.regs]
    exact Dev.flag_setFlag_same _ _ _ (by decide) rfl
  case state => rw [Dev.state_setAs _ hstate, hvalid]
  case div =>
    have hdiv : mget 0 e.clk.div i = mget 0 (d.hopLoaded k.val).clk.div i := (congrArg (fun c => mget 0 c.div i) hpins.clk :)
    have hload := mget_loadDivs (fun i => (d.setFld F.AS_STAT_ACTIVE k.val).fld (F.AS_PD_DIVIDER k.val i)) d.clk.div hi
    exact hdiv.trans (hload.trans (hact.fld (asPd_notMem_asStat _ _)))
  case int => exact (congrArg ClkSt.asN hpins.clk :).trans (hact.fld (asPn_notMem_asStat _))
  case frac =>
    refine (congrArg ClkSt.asFrac hpins.clk :).trans ?_
    rw [Dev.num, ← hact (R.AS_PFRAC k.val) (asPfrac_notMem_asStat _)]; rfl
  case band =>
    refine (congrArg ClkSt.asBand hpins.clk :).trans ?_
    rw [← hact.flag (f := F.AS_PBAND_VALID k.val) hband, ← hact.fld (f := F.AS_PBAND_BAND k.val) hband]; rfl

/-! ## Faults (R236 to R238, R242) -/

/-- The device once a fault has ended a hop, a search and a due sync (R238). -/
def Dev.faultCleared (d : Dev) : Dev :=
  { d with clk := { d.clk with cleanWin := false, hopping := false, searching := [], back := none, syncAt := none } }

/-- The fault in AS_STAT: lock stays under a suspicion alone. -/
def Dev.faultShown (d : Dev) (r : Reason) : Dev :=
  (((d.setFlag F.AS_STAT_LOCKED (d.flag F.AS_STAT_LOCKED && r == Rsn.lockSuspect)).asReason r).setFlag F.AS_STAT_BYPASS true).setAs 5

/-- The device once a fault shows, before its outputs leave. -/
def Dev.faulted (d : Dev) (r : Reason) : Dev := d.faultCleared.faultShown r

/-- Outputs on the synthesized clock switch to the bypass clock, or go low where the bypass divider is 0 (R238). -/
theorem Dev.asFault_of_enabled {d : Dev} (h : d.flag F.AS_CTRL_EN = true) (r : Reason) :
    ∃ f : Nat → CkSrc → CkSrc, (∀ n, f n .synth = if (d.faulted r).fld (F.AS_OUT_BYPDIV n) = 0 then .bypLow else .switching) ∧
      d.asFault r = (((d.faulted r).ckEach f).asLeave d.ckSynth r).raiseIrq 18 :=
  ⟨_, fun _ => rfl, if_neg (by simp [h])⟩

theorem Dev.regsBut_faultShown (d : Dev) (r : Reason) : d.regsBut (d.faultShown r) [R.AS_STAT] :=
  ((((Dev.regsBut.refl d _).setFlag (by simp) _).setFld (by simp) _).setFlag (by simp) true).setFld (by simp) 5

theorem Dev.stat_faultShown (d : Dev) (r : Reason) :
    let e := d.faultShown r
    e.asBypass = true ∧ e.fld F.AS_STAT_STATE = 5 ∧ e.fld F.AS_STAT_REASON = r.toNat ∧
      e.flag F.AS_STAT_LOCKED = (d.flag F.AS_STAT_LOCKED && r == Rsn.lockSuspect) := by
  unfold Dev.faultShown
  refine ⟨?bypass, Dev.state_setAs _ (by decide), ?reason, ?locked⟩
  case bypass =>
    rw [Dev.asBypass, Dev.setAs, Dev.flag_setFld_ne _ _ _ _ (by decide) (by decide), Dev.flag_setFlag_same _ _ _ (by decide) rfl]
  case reason =>
    rw [Dev.setAs, Dev.fld_setFld_ne _ _ _ _ (by decide) (by decide), Dev.fld_setFlag_ne _ _ _ _ (by decide) (by decide),
      Dev.reason_asReason]
  case locked =>
    rw [Dev.setAs, Dev.flag_setFld_ne _ _ _ _ (by decide) (by decide), Dev.flag_setFlag_ne _ _ _ _ (by decide) (by decide),
      Dev.asReason, Dev.flag_setFld_ne _ _ _ _ (by decide) (by decide), Dev.flag_setFlag_same _ _ _ (by decide) rfl]

theorem Dev.regsBut_faulted (d : Dev) (r : Reason) : d.regsBut (d.faulted r) [R.AS_STAT] :=
  (Dev.regsBut.of_regs (e := d.faultCleared) rfl _).trans (d.faultCleared.regsBut_faultShown r)

/-! ## The AS_DEP domains -/

theorem Dev.regsBut_asLeave (d : Dev) (left : Bool) (r : Reason) : d.regsBut (d.asLeave left r) irqRegs := by
  unfold Dev.asLeave; split
  · exact d.regsBut_raiseAll _
  · exact .refl _ _

@[simp] theorem Dev.asLeave_keeps (d : Dev) (left : Bool) (r : Reason) :
    (d.asLeave left r).clk = d.clk ∧ (d.asLeave left r).jobs = d.jobs := by
  unfold Dev.asLeave; split <;> simp

theorem Dev.mem_causes_asLeave (d : Dev) (r : Reason) {k : Nat} (hk : k ∈ d.asDeps) : r ∈ ((d.asLeave true r).dom k).causes :=
  d.mem_causes_raiseAll (List.mem_map.2 ⟨k, hk, rfl⟩)

theorem Dev.regsBut.asDeps {d e : Dev} {l : List Nat} (h : d.regsBut e l) (hl : R.AS_DEP ∉ l) : e.asDeps = d.asDeps := by
  unfold Dev.asDeps; rw [h.fld hl, h.fld hl]

theorem Dev.regsBut.ckEnabled {d e : Dev} {l : List Nat} (h : d.regsBut e l) {n : Nat} (hl : R.AS_OUT n ∉ l) :
    e.ckEnabled n = d.ckEnabled n := by
  unfold Dev.ckEnabled; rw [h.flag hl, h.fld hl]

theorem asOut_notMem_asStat (n : Nat) : R.AS_OUT n ∉ [R.AS_STAT] := by simp only [List.mem_singleton, R.AS_OUT, R.AS_STAT]; omega

/-- A fault fences the AS_DEP domains where an output left the synthesized clock, takes every output off it, and leaves the jobs. -/
theorem Dev.asFault_leaves {d : Dev} (h : d.flag F.AS_CTRL_EN = true) (r : Reason) :
    let e := d.asFault r
    (d.faulted r).regsBut e irqRegs ∧ (d.ckSynth = true → ∀ k ∈ d.asDeps, r ∈ (e.dom k).causes) ∧
      (d.ckSynth = false → e.fen = d.fen) ∧ e.jobs = d.jobs ∧
      ∀ n < 4, d.ckEnabled n = true → d.ck n = .synth →
        e.ck n = if d.fld (F.AS_OUT_BYPDIV n) = 0 then .bypLow else d.ckHeld .switching := by
  obtain ⟨f, hf, hfault⟩ := Dev.asFault_of_enabled h r
  have hpins := (d.faulted r).pinFrame_ckEach f
  have hstat := d.regsBut_faulted r
  have hregs := (Dev.regsBut.of_regs hpins.regs irqRegs).trans (Dev.regsBut_asLeave _ d.ckSynth r)
  dsimp only
  rw [hfault]
  refine ⟨hregs.raiseIrq (List.Subset.refl _) 18, fun hleft k hk => ?fenced, fun hstay => ?free, ?jobs, fun n hn hen hck => ?pin⟩
  case fenced =>
    have hdeps : ((d.faulted r).ckEach f).asDeps = d.asDeps := (hstat.trans (.of_regs hpins.regs _)).asDeps (by decide)
    have hraise : ∀ e : Dev, (e.raiseIrq 18).dom k = e.dom k := fun e => by simp [Dev.dom]
    rw [hleft, hraise]
    exact Dev.mem_causes_asLeave _ r (hdeps ▸ hk)
  case free =>
    have hsame : ∀ e : Dev, e.asLeave false r = e := fun e => rfl
    have hfen : ((d.faulted r).ckEach f).fen = d.fen := hpins.fen
    simp [hstay, hsame, hfen]
  case jobs =>
    have hjobs : ((d.faulted r).ckEach f).jobs = d.jobs := hpins.jobs
    simp [hjobs]
  case pin =>
    have hbyp : (d.faulted r).fld (F.AS_OUT_BYPDIV n) = d.fld (F.AS_OUT_BYPDIV n) := hstat.fld (asOut_notMem_asStat n)
    have hon : (d.faulted r).ckEnabled n = true := (hstat.ckEnabled (asOut_notMem_asStat n)).trans hen
    have hsynth : (d.faulted r).ck n = .synth := hck
    have hclk : ∀ e : Dev, ((e.asLeave d.ckSynth r).raiseIrq 18).ck n = e.ck n := fun e => by simp [Dev.ck]
    rw [hclk, Dev.ck_ckEach _ _ hn, Dev.ckRuled_of_enabled hon, hsynth, hf, hbyp]
    split
    · rw [Dev.ckNext_ne _ (by decide), Dev.ckHeld_bypLow]
    · exact Dev.ckNext_ne _ (by decide)

end Sys2Proof.Machine
end

section
/-!
PROOF. The return from bypass, the band search, lock and the monitor (R228 to R231, R235 to R237, R242, R243): what each command writes
out, and what AS_STAT and the band of the active profile then show.
-/
namespace Sys2Proof.Machine
open Sys2Proof

/-! ## The return from bypass (R242, R243) -/

/-- AS_STAT once the outputs have left bypass. -/
def Dev.returned (d : Dev) : Dev := ((d.setFlag F.AS_STAT_BYPASS false).setAs 3).asReason Rsn.ok

theorem Dev.stat_returned (d : Dev) :
    d.returned.asBypass = false ∧ d.returned.fld F.AS_STAT_STATE = 3 ∧ d.returned.fld F.AS_STAT_REASON = 0 := by
  unfold Dev.returned
  refine ⟨?bypass, ?state, Dev.reason_asReason _ Rsn.ok⟩
  case bypass =>
    rw [Dev.asBypass, Dev.asReason, Dev.flag_setFld_ne _ _ _ _ (by decide) (by decide), Dev.setAs,
      Dev.flag_setFld_ne _ _ _ _ (by decide) (by decide), Dev.flag_setFlag_same _ _ _ (by decide) rfl]
  case state => rw [Dev.asReason, Dev.fld_setFld_ne _ _ _ _ (by decide) (by decide), Dev.state_setAs _ (by decide)]

theorem Dev.asReturn_of_clean {d : Dev} (hbyp : d.asBypass = true) (hlock : d.flag F.AS_STAT_LOCKED = true) (hclean : d.clk.cleanWin = true) :
    ∃ e, d.returned.pinFrame e ∧ d.asReturn = ((e.asSync true).asFree).raiseIrq 18 :=
  ⟨_, d.returned.pinFrame_ckEach _, if_pos (by simp [hbyp, hlock, hclean])⟩

theorem Dev.asReturn_leaves {d : Dev} (hbyp : d.asBypass = true) (hlock : d.flag F.AS_STAT_LOCKED = true) (hclean : d.clk.cleanWin = true) :
    let e := d.asReturn
    e.asBypass = false ∧ e.fld F.AS_STAT_STATE = 3 ∧ e.fld F.AS_STAT_REASON = 0 ∧ bitOf (e.reg R.HST_ISR0) 18 = true := by
  obtain ⟨e, hpins, hret⟩ := Dev.asReturn_of_clean hbyp hlock hclean
  have hregs : d.returned.regsBut d.asReturn clearRegs := by
    rw [hret]
    exact (((Dev.regsBut.of_regs hpins.regs _).trans (e.regsBut_asSync true)).trans (Dev.regsBut_asFree _)).raiseIrq
      irqRegs_subset_clearRegs 18
  obtain ⟨hbypass, hstate, hreason⟩ := d.stat_returned
  refine ⟨(hregs.flag (by decide)).trans hbypass, (hregs.fld (by decide)).trans hstate, (hregs.fld (by decide)).trans hreason, ?_⟩
  rw [hret]
  exact Dev.isr_raiseIrq _ 18 (by decide)

/-! ## The band search (R228, R231) -/

/-- The device once a band is stored with the die temperature. -/
def Dev.bandStored (d : Dev) (p w : Nat) : Dev :=
  ((d.setFld (F.AS_PBAND_BAND p) w).setFlag (F.AS_PBAND_VALID p) true).setFld (F.AS_PBAND_DIE p) (d.fld F.ASY_TEMP_DIE)

theorem Dev.stored_bandStored (d : Dev) (p : Nat) (w : Fin 64) :
    let e := d.bandStored p w.val
    e.fld (F.AS_PBAND_BAND p) = w.val ∧ e.flag (F.AS_PBAND_VALID p) = true ∧ e.fld (F.AS_PBAND_DIE p) = d.fld F.ASY_TEMP_DIE ∧
      d.regsBut e [R.AS_PBAND p] := by
  unfold Dev.bandStored
  refine ⟨?band, ?valid, ?die, (((Dev.regsBut.refl d _).setFld (by simp) _).setFlag (by simp) true).setFld (by simp) _⟩
  case band =>
    rw [Dev.fld_setFld_ne _ _ _ _ (by simp) (.inr (.inl (by simp))), Dev.fld_setFlag_ne _ _ _ _ (by simp) (.inr (.inl (by simp))),
      Dev.fld_setFld_of_lt _ (by simp) w.isLt]
  case valid =>
    rw [Dev.flag_setFld_ne _ _ _ _ (by simp) (.inr (.inl (by simp))), Dev.flag_setFlag_same _ _ _ (by simp) rfl]
  case die => exact Dev.fld_setFld_of_lt _ (by simp) (Nat.mod_lt _ (by simp))

/-- The device once a band is found. -/
def Dev.bandFound (d : Dev) (w : Nat) : Dev :=
  let e := d.bandStored (d.fld F.AS_STAT_ACTIVE) w
  { e with clk := { d.clk with asBand := some w } }.setAs 2

theorem Dev.bandFound_leaves (d : Dev) (w : Fin 64) :
    let e := d.bandFound w.val
    let p := d.fld F.AS_STAT_ACTIVE
    e.fld (F.AS_PBAND_BAND p) = w.val ∧ e.flag (F.AS_PBAND_VALID p) = true ∧ e.fld (F.AS_PBAND_DIE p) = d.fld F.ASY_TEMP_DIE ∧
      e.fld F.AS_STAT_STATE = 2 ∧ d.regsBut e [R.AS_STAT, R.AS_PBAND p] := by
  obtain ⟨hband, hvalid, hdie, hstored⟩ := d.stored_bandStored (d.fld F.AS_STAT_ACTIVE) w
  have hregs : (d.bandStored (d.fld F.AS_STAT_ACTIVE) w.val).regsBut (d.bandFound w.val) [R.AS_STAT] :=
    Dev.regsBut.setFld ((Dev.regsBut.refl _ _).withClk _) (by simp) 2
  have hprof : R.AS_PBAND (d.fld F.AS_STAT_ACTIVE) ∉ [R.AS_STAT] := by
    simpa using (ne_asBand (a := R.AS_STAT) (by decide) (d.fld F.AS_STAT_ACTIVE)).symm
  exact ⟨(hregs.fld hprof).trans hband, (hregs.flag hprof).trans hvalid, (hregs.fld hprof).trans hdie, Dev.state_setAs _ (by decide),
    (hstored.mono (by simp)).trans (hregs.mono (by simp))⟩

theorem exec_bandSearchDone_of_idle {s : State} (h : s.dev.fld F.AS_STAT_STATE ≠ 1) (f : Option (Fin 64)) :
    exec (.bandSearchDone f) s = .next s := by
  change execBandSearchDone f s = _
  simp only [execBandSearchDone, State.onDev, if_neg h]

theorem exec_bandSearchDone_found {s : State} (h : s.dev.fld F.AS_STAT_STATE = 1) (w : Fin 64) :
    exec (.bandSearchDone (some w)) s = .next { s with dev := s.dev.bandFound w.val } := by
  change execBandSearchDone (some w) s = _
  rw [execBandSearchDone, State.onDev, if_pos h]; rfl

theorem exec_bandSearchDone_failed {s : State} (h : s.dev.fld F.AS_STAT_STATE = 1) :
    exec (.bandSearchDone none) s = .next { s with dev := (s.dev.asFault Rsn.asBandFail).raiseCause domAsyn Rsn.asBandFail } := by
  change execBandSearchDone none s = _
  rw [execBandSearchDone, State.onDev, if_pos h]

/-! ## Lock (R229) and its loss (R230, R236) -/

theorem exec_asLockDeclare_of_locked {s : State} (h : s.dev.flag F.AS_STAT_LOCKED = true) : exec .asLockDeclare s = .next s := by
  change execAsLockDeclare s = _
  simp [execAsLockDeclare, State.onDev, h]

/-- The device once lock is declared and a sync is due for the restart of the outputs. -/
def Dev.lockDeclared (d : Dev) : Dev :=
  let e := ((d.setFlag F.AS_STAT_LOCKED true).setAs 3)
  { e with clk := { d.clk with hopping := false, cleanWin := false, syncAt := some (d.now + 1) } }

theorem Dev.lockDeclared_leaves (d : Dev) :
    let e := d.lockDeclared
    e.flag F.AS_STAT_LOCKED = true ∧ e.fld F.AS_STAT_STATE = 3 ∧ d.regsBut e [R.AS_STAT] := by
  refine ⟨?locked, Dev.state_setAs _ (by decide), ((Dev.regsBut.refl d _).setFlag (by simp) true).setFld (by simp) 3⟩
  case locked => exact (Dev.flag_setFld_ne _ _ _ _ (by decide) (by decide)).trans (Dev.flag_setFlag_same _ _ _ (by decide) rfl)

theorem exec_asLockDeclare_of_settled {s : State} (hen : s.dev.flag F.AS_CTRL_EN = true) (hlock : s.dev.flag F.AS_STAT_LOCKED = false)
    (hstate : s.dev.fld F.AS_STAT_STATE = 2) (hho : s.dev.ownHoldover = false) (hbyp : s.dev.asBypass = false)
    (hback : s.dev.clk.back = none) : exec .asLockDeclare s = .next { s with dev := s.dev.lockDeclared } := by
  have hcond : (s.dev.flag F.AS_CTRL_EN && !s.dev.flag F.AS_STAT_LOCKED &&
      (s.dev.fld F.AS_STAT_STATE == 2 || s.dev.fld F.AS_STAT_STATE == 5) && !s.dev.flag F.CLK_STAT_HOLDOVER) = true := by
    simp only [Dev.ownHoldover] at hho
    simp [hen, hlock, hstate, hho]
  refine congrArg (fun d => Host.Outcome.next { s with dev := d }) ((if_pos hcond).trans ?_)
  extract_lets dLock clk d d' clk'
  have hd : d.asBypass = false := by
    refine (Dev.flag_congr (d := s.dev.setFlag F.AS_STAT_LOCKED true) rfl _).trans ?_
    exact (Dev.flag_setFlag_ne _ _ _ _ (by decide) (by decide)).trans hbyp
  have hd' : d'.asBypass = false := (Dev.flag_setFld_ne _ _ _ _ (by decide) (by decide)).trans hd
  have hnext : d'.clk.back.isSome = false := congrArg Option.isSome hback
  rw [if_neg (Bool.not_eq_true _ ▸ hnext), if_neg (Bool.not_eq_true _ ▸ hd')]
  unfold clk' d'
  rw [hd]; rfl

/-- The device once a cycle slip has spoiled its band. -/
def Dev.slipped (d : Dev) : Dev := { d.badBand with clk := { d.clk with unlockBn := some d.now } }

theorem exec_asUnlock_of_locked {s : State} (hen : s.dev.flag F.AS_CTRL_EN = true) (hlock : s.dev.flag F.AS_STAT_LOCKED = true) :
    exec .asUnlock s = .next { s with dev := s.dev.slipped.asFault Rsn.asUnlock } := by
  change execAsUnlock s = _
  rw [execAsUnlock, State.onDev, if_pos (by simp [hen, hlock])]; rfl

theorem exec_asUnlock_of_idle {s : State} (h : s.dev.flag F.AS_CTRL_EN = false ∨ s.dev.flag F.AS_STAT_LOCKED = false) :
    exec .asUnlock s = .next s := by
  change execAsUnlock s = _
  rw [execAsUnlock, State.onDev, if_neg (by rcases h with h | h <;> simp [h])]

/-! ## The monitor (R235, R237, R243) -/

theorem unsigned_lt (n : Nat) (v : Int) : unsigned n v < 2 ^ n := by
  unfold unsigned
  have hpos : (0 : Int) < ((2 ^ n : Nat) : Int) := by positivity
  have hlt := Int.emod_lt_of_pos v hpos
  have hnn := Int.emod_nonneg v hpos.ne'
  omega

/-- The device once a window over 100 ppm has made its lock suspect and its band bad. -/
def Dev.suspected (d : Dev) (v : Int) : Dev :=
  { ((d.setFld F.AS_FREQERR_DEVIATION (unsigned 16 v)).setFlag F.AS_STAT_LOCK_SUSPECT true).badBand with
    clk := { d.clk with cleanWin := false } }

/-- LOCK_SUSPECT is the reason but at the beat of an unlock (R237). -/
def Dev.suspectReason (d : Dev) : Dev := if d.clk.unlockBn = some d.now then d else d.asReason Rsn.lockSuspect

/-- The device once a window over 100 ppm has ended, before its state shows. -/
def Dev.suspectShown (d : Dev) (v : Int) : Dev := (d.suspected v).suspectReason.raiseIrq 18

/-- The device once a clean window has ended. -/
def Dev.windowClean (d : Dev) (v : Int) : Dev :=
  { d.setFld F.AS_FREQERR_DEVIATION (unsigned 16 v) with clk := { d.clk with cleanWin := true } }

/-- A band is bad: the band of the active profile, and that bit alone. -/
theorem Dev.reg_badBand_ne (d : Dev) {a : Nat} (h : a ≠ R.AS_PBAND (d.fld F.AS_STAT_ACTIVE)) : d.badBand.reg a = d.reg a :=
  Dev.reg_setFlag_ne _ _ _ _ h

theorem Dev.valid_badBand (d : Dev) : d.badBand.flag (F.AS_PBAND_VALID (d.fld F.AS_STAT_ACTIVE)) = false :=
  Dev.flag_setFlag_same _ _ _ (by simp) rfl

/-- The active profile is the one at the beginning of the window. -/
theorem Dev.active_suspected (d : Dev) (v : Int) :
    ((d.setFld F.AS_FREQERR_DEVIATION (unsigned 16 v)).setFlag F.AS_STAT_LOCK_SUSPECT true).fld F.AS_STAT_ACTIVE =
      d.fld F.AS_STAT_ACTIVE := by
  rw [Dev.fld_setFlag_ne _ _ _ _ (by decide) (by decide), Dev.fld_setFld_ne _ _ _ _ (by decide) (by decide)]

theorem asStat_ne_asFreqerr : R.AS_STAT ≠ R.AS_FREQERR := by decide

/-- A field of AS_STAT outside the state, LOCK_SUSPECT and the reason stays at a window over 100 ppm. -/
theorem Dev.fld_suspected (d : Dev) (v : Int) (hi lo : Nat) (h : hi < 4 ∨ (4 < lo ∧ hi < 32)) :
    (d.suspected v).fld ⟨R.AS_STAT, hi, lo⟩ = d.fld ⟨R.AS_STAT, hi, lo⟩ := by
  have hlt : hi < 32 := by omega
  have hbad : ∀ e : Dev, e.badBand.fld ⟨R.AS_STAT, hi, lo⟩ = e.fld ⟨R.AS_STAT, hi, lo⟩ := fun e => by
    unfold Dev.fld; rw [e.reg_badBand_ne (ne_asBand (a := R.AS_STAT) (by decide) _)]
  rw [Dev.suspected, Dev.fld_withClk, hbad, Dev.fld_setFlag_ne _ _ _ _ hlt (.inr (h.imp id And.left)),
    Dev.fld_setFld_ne _ _ _ _ hlt (.inl asStat_ne_asFreqerr)]

theorem Dev.regsBut_suspectReason (d : Dev) : d.regsBut d.suspectReason [R.AS_STAT] := by
  unfold Dev.suspectReason; split
  · exact .refl _ _
  · exact (Dev.regsBut.refl d _).setFld (by simp) _

theorem Dev.fld_suspectReason (d : Dev) (f : Fld) (h : f.hi < 16) : d.suspectReason.fld f = d.fld f := by
  unfold Dev.suspectReason; split
  · rfl
  · exact Dev.fld_setFld_ne _ _ _ _ (by omega) (.inr (.inl h))

theorem Dev.fld_suspectShown (d : Dev) (v : Int) (hi lo : Nat) (h : hi < 4 ∨ (4 < lo ∧ hi < 16)) :
    (d.suspectShown v).fld ⟨R.AS_STAT, hi, lo⟩ = d.fld ⟨R.AS_STAT, hi, lo⟩ := by
  rw [Dev.suspectShown, Dev.fld_raiseIrq _ _ _ (by decide) rfl, Dev.fld_suspectReason _ _ (by dsimp only; omega),
    Dev.fld_suspected _ _ _ _ (by omega)]

theorem Dev.regsBut_suspectShown (d : Dev) (v : Int) : (d.suspected v).regsBut (d.suspectShown v) (R.AS_STAT :: irqRegs) :=
  ((d.suspected v).regsBut_suspectReason.mono (by simp)).raiseIrq (by simp) 18

/-- The device once a window over 100 ppm has ended. -/
def Dev.windowOver (d : Dev) (v : Int) : Dev := (d.suspectShown v).setAs 4

theorem exec_asMonitorWindow_over {s : State} {v : Int} (hlock : s.dev.flag F.AS_STAT_LOCKED = true) (hv : 1000 < v.natAbs)
    (hsus : s.dev.flag F.AS_CTRL_SUSPECT_BYP = false) (hbyp : s.dev.asBypass = false) :
    exec (.asMonitorWindow v) s = .next { s with dev := s.dev.windowOver v } := by
  have hon : ¬(!s.dev.flag F.AS_STAT_LOCKED) = true := by simp [hlock]
  have hstay : ¬(s.dev.suspectShown v).asBypass = true := by
    unfold Dev.asBypass Dev.flag at *
    rw [Dev.fld_suspectShown _ _ _ _ (by decide), hbyp]; decide
  have hopt : ¬((s.dev.suspectShown v).flag F.AS_CTRL_SUSPECT_BYP && !(s.dev.suspectShown v).asBypass) = true := by
    have hctrl : (s.dev.suspectShown v).flag F.AS_CTRL_SUSPECT_BYP = s.dev.flag F.AS_CTRL_SUSPECT_BYP := by
      rw [(s.dev.regsBut_suspectShown v).flag (by decide), Dev.suspected, Dev.flag_withClk]
      exact (Dev.flag_setFlag_ne _ _ _ _ (by decide) (.inl (ne_asBand (by decide) _))).trans
        ((Dev.flag_setFlag_ne _ _ _ _ (by decide) (by decide)).trans (Dev.flag_setFld_ne _ _ _ _ (by decide) (by decide)))
    simp [hctrl, hsus]
  exact congrArg (fun d => Host.Outcome.next { s with dev := d })
    ((if_neg hon).trans ((if_pos hv).trans ((if_neg hopt).trans (if_neg hstay))))

theorem Dev.suspectReason_keeps (d : Dev) : d.suspectReason.clk = d.clk ∧ d.suspectReason.fen = d.fen := by
  unfold Dev.suspectReason; split <;> exact ⟨rfl, rfl⟩

theorem Dev.windowOver_keeps (d : Dev) (v : Int) :
    (d.windowOver v).clk = { d.clk with cleanWin := false } ∧ (d.windowOver v).fen = d.fen := by
  have hclk : (d.suspected v).clk = { d.clk with cleanWin := false } := rfl
  have hfen : (d.suspected v).fen = d.fen := rfl
  simp [Dev.windowOver, Dev.setAs, Dev.suspectShown, Dev.suspectReason_keeps, hclk, hfen]

theorem Dev.windowOver_leaves (d : Dev) (v : Int) :
    let e := d.windowOver v
    e.flag F.AS_STAT_LOCK_SUSPECT = true ∧ e.fld F.AS_STAT_STATE = 4 ∧ e.flag F.AS_STAT_LOCKED = d.flag F.AS_STAT_LOCKED ∧
      e.clk = { d.clk with cleanWin := false } ∧ e.fen = d.fen ∧ e.flag (F.AS_PBAND_VALID (d.fld F.AS_STAT_ACTIVE)) = false ∧
      (d.clk.unlockBn ≠ some d.now → e.fld F.AS_STAT_REASON = 0x7012) ∧ e.fld F.AS_FREQERR_DEVIATION = unsigned 16 v ∧
      bitOf (e.reg R.HST_ISR0) 18 = true := by
  have hregs : (d.suspected v).regsBut (d.windowOver v) (R.AS_STAT :: irqRegs) := (d.regsBut_suspectShown v).setFld (by simp) 4
  have hstat : ∀ f : Fld, f.hi < 32 → f.a = R.AS_STAT → 2 < f.lo → (d.windowOver v).fld f = (d.suspected v).suspectReason.fld f := by
    intro f hf ha hlo
    rw [Dev.windowOver, Dev.setAs, Dev.fld_setFld_ne _ _ _ _ hf (.inr (.inr hlo)), Dev.suspectShown,
      Dev.fld_raiseIrq _ _ _ (by decide) (ha ▸ rfl)]
  obtain ⟨hclk, hfen⟩ := d.windowOver_keeps v
  refine ⟨?suspect, Dev.state_setAs _ (by decide), ?locked, hclk, hfen, ?valid, fun hno => ?reason, ?deviation, ?isr⟩
  case suspect =>
    rw [Dev.flag, hstat _ (by decide) rfl (by decide), Dev.fld_suspectReason _ _ (by decide), Dev.suspected, Dev.fld_withClk, ← Dev.flag]
    refine (Dev.flag_setFlag_ne _ _ _ _ (by decide) (.inl (ne_asBand (by decide) _))).trans ?_
    exact Dev.flag_setFlag_same _ _ _ (by decide) rfl
  case locked =>
    rw [Dev.flag, hstat _ (by decide) rfl (by decide), Dev.fld_suspectReason _ _ (by decide), Dev.fld_suspected _ _ _ _ (by decide), Dev.flag]
  case valid =>
    rw [← d.active_suspected v, hregs.flag (asBand_notMem_shown _), Dev.suspected, Dev.flag_withClk]
    exact Dev.valid_badBand _
  case reason =>
    have hother : (d.suspected v).suspectReason = (d.suspected v).asReason Rsn.lockSuspect := if_neg hno
    rw [hstat _ (by decide) rfl (by decide), hother, Dev.reason_asReason]; rfl
  case deviation =>
    rw [hregs.fld (by decide), Dev.suspected, Dev.fld_withClk, Dev.badBand,
      Dev.fld_setFlag_ne _ _ _ _ (by decide) (.inl (ne_asBand (by decide) _)),
      Dev.fld_setFlag_ne _ _ _ _ (by decide) (by decide), Dev.fld_setFld_of_lt _ (by decide) (unsigned_lt 16 v)]
  case isr =>
    rw [Dev.windowOver, Dev.setAs, Dev.reg_setFld_ne _ _ _ _ (by decide)]
    exact Dev.isr_raiseIrq _ 18 (by decide)

theorem Dev.windowClean_leaves (d : Dev) (v : Int) :
    (d.windowClean v).fld F.AS_FREQERR_DEVIATION = unsigned 16 v ∧ d.regsBut (d.windowClean v) [R.AS_FREQERR] := by
  refine ⟨?deviation, Dev.regsBut.withClk ((Dev.regsBut.refl d _).setFld (f := F.AS_FREQERR_DEVIATION) (by simp) _) _⟩
  case deviation => rw [Dev.windowClean, Dev.fld_withClk, Dev.fld_setFld_of_lt _ (by decide) (unsigned_lt 16 v)]

theorem exec_asMonitorWindow_clean {s : State} {v : Int} (hlock : s.dev.flag F.AS_STAT_LOCKED = true) (hv : v.natAbs ≤ 1000)
    (hbyp : s.dev.asBypass = false) (hstate : s.dev.fld F.AS_STAT_STATE ≠ 4) :
    exec (.asMonitorWindow v) s = .next { s with dev := s.dev.windowClean v } := by
  have hon : ¬(!s.dev.flag F.AS_STAT_LOCKED) = true := by simp [hlock]
  have hst : ¬(s.dev.windowClean v).fld F.AS_STAT_STATE = 4 := by
    rwa [Dev.windowClean, Dev.fld_withClk, Dev.fld_setFld_ne _ _ _ _ (by decide) (by decide)]
  have hauto : ¬((s.dev.windowClean v).flag F.AS_CTRL_AUTORET && (s.dev.windowClean v).asBypass &&
      (s.dev.windowClean v).clk.asPend.isNone) = true := by
    have hstay : (s.dev.windowClean v).asBypass = false := by
      rwa [Dev.asBypass, Dev.windowClean, Dev.flag_withClk, Dev.flag_setFld_ne _ _ _ _ (by decide) (by decide)]
    simp [hstay]
  refine congrArg (fun d => Host.Outcome.next { s with dev := d }) ((if_neg hon).trans ((if_neg (Nat.not_lt.2 hv)).trans ?_))
  extract_lets clk dWin d
  have hsame : d = s.dev.windowClean v := if_neg hst
  rw [hsame]
  exact if_neg hauto

end Sys2Proof.Machine
end

section
/-!
PROOF. The multiplexer, the bypass source and CKSYNC (R239 to R241, R247): what every output carries after a dead clock or a lost or
returned source, and what an edge of CKSYNC sends.
-/
namespace Sys2Proof.Machine
open Sys2Proof

/-! ## The multiplexer (R239) -/

theorem Dev.bypSrc_ne_switching (d : Dev) (n : Nat) : d.bypSrc n ≠ .switching := by
  unfold Dev.bypSrc; split
  · decide
  · split <;> decide

theorem exec_muxNoEdgeTimeout (s : State) : exec .muxNoEdgeTimeout s = .next { s with dev := s.dev.muxDone } := rfl

theorem Dev.regs_muxDone (d : Dev) : d.muxDone.regs = d.regs := by rw [Dev.muxDone, (d.pinFrame_ckEach _).regs]

/-- A pending switch completes; every other output stays. -/
theorem Dev.ck_muxDone (d : Dev) {n : Nat} (hn : n < 4) :
    d.muxDone.ck n = if d.ckEnabled n = true ∧ d.ck n = .switching then d.ckHeld (d.bypSrc n) else d.ck n := by
  rw [Dev.muxDone, Dev.ck_ckEach _ _ hn, Dev.ckRuled]
  by_cases hen : d.ckEnabled n = true
  · by_cases hck : d.ck n = .switching
    · rw [if_pos hen, if_pos hck, if_pos ⟨hen, hck⟩, hck, Dev.ckNext_ne _ (d.bypSrc_ne_switching n).symm]
    · rw [if_pos hen, if_neg hck, if_neg (fun h => hck h.2), Dev.ckNext_same]
  · rw [if_neg hen, if_neg (fun h => hen h.1)]

/-! ## The bypass source (R240, R241) -/

/-- The selected bypass source shows no edge, or shows edges again. -/
def Dev.bypSourceIs (d : Dev) (dead : Bool) : Dev :=
  if d.bypRef then { d with clk := { d.clk with refDead := dead } } else { d with clk := { d.clk with bypDead := dead } }

theorem Dev.regs_bypSourceIs (d : Dev) (dead : Bool) : (d.bypSourceIs dead).regs = d.regs := by
  unfold Dev.bypSourceIs; split <;> rfl

theorem Dev.ck_bypSourceIs (d : Dev) (dead : Bool) (n : Nat) : (d.bypSourceIs dead).ck n = d.ck n := by
  unfold Dev.bypSourceIs; split <;> rfl

theorem Dev.ckHeld_bypSourceIs (d : Dev) (dead : Bool) (c : CkSrc) : (d.bypSourceIs dead).ckHeld c = d.ckHeld c := by
  unfold Dev.bypSourceIs; split <;> rfl

theorem Dev.bypGone_bypSourceIs (d : Dev) (dead : Bool) : (d.bypSourceIs dead).bypGone = dead := by
  have href : (d.bypSourceIs dead).bypRef = d.bypRef := Dev.flag_congr (d.regs_bypSourceIs dead) _
  rw [Dev.bypGone, href, Dev.bypSourceIs]
  cases d.bypRef <;> rfl

/-- Whether the bypass source is dead does not depend on AS_STAT or on the outputs. -/
theorem Dev.bypGone_congr {d e : Dev} {l : List Nat} (hregs : d.regsBut e l) (hl : R.AS_BYP ∉ l) (href : e.clk.refDead = d.clk.refDead)
    (hbyp : e.clk.bypDead = d.clk.bypDead) : e.bypGone = d.bypGone := by
  unfold Dev.bypGone Dev.bypRef; rw [hregs.flag hl, href, hbyp]

/-- AS_STAT once the bypass source is lost. -/
def Dev.bypLost (d : Dev) : Dev := ((d.bypSourceIs true).setFlag F.AS_STAT_BYPCLK_LOST true).asReason Rsn.bypclkLoss

/-- Outputs that carry the bypass clock, or switch to it, hold low. -/
theorem Dev.bypLoss_eq (d : Dev) :
    d.bypLoss = (d.bypLost.ckEach (fun _ c => if c = .bypass ∨ c = .switching then .deadLow else c)).raiseIrq 18 := rfl

theorem exec_bypclkLoss (s : State) : exec .bypclkLoss s = .next { s with dev := s.dev.bypLoss } := rfl

theorem Dev.bypLoss_leaves (d : Dev) :
    let e := d.bypLoss
    e.flag F.AS_STAT_BYPCLK_LOST = true ∧ e.fld F.AS_STAT_REASON = 0x7014 ∧ e.bypGone = true ∧ bitOf (e.reg R.HST_ISR0) 18 = true ∧
      d.regsBut e (R.AS_STAT :: irqRegs) ∧
      ∀ n < 4, d.ckEnabled n = true → d.ck n = .bypass ∨ d.ck n = .switching → e.ck n = .deadLow := by
  have hlost : (d.bypSourceIs true).regsBut d.bypLost [R.AS_STAT] :=
    ((Dev.regsBut.refl _ _).setFlag (by simp) true).setFld (by simp) _
  have hpins := d.bypLost.pinFrame_ckEach (fun _ c => if c = .bypass ∨ c = .switching then .deadLow else c)
  have hregs : d.bypLost.regsBut d.bypLoss irqRegs := (Dev.regsBut.of_regs hpins.regs _).raiseIrq (List.Subset.refl _) 18
  have hall : (d.bypSourceIs true).regsBut d.bypLoss (R.AS_STAT :: irqRegs) := (hlost.mono (by simp)).trans (hregs.mono (by simp))
  have hclk : d.bypLoss.clk = { (d.bypSourceIs true).clk with outs := d.bypLoss.clk.outs } := by
    simp only [Dev.bypLoss_eq, Dev.raiseIrq_keeps]; exact hpins.clk
  have hstart : d.regsBut (d.bypSourceIs true) [R.AS_STAT] := .of_regs (d.regs_bypSourceIs true) _
  refine ⟨?lost, ?reason, ?gone, Dev.isr_raiseIrq _ 18 (by decide), ?regs, fun n hn hen hck => ?pin⟩
  case lost =>
    rw [hregs.flag (by decide), Dev.bypLost, Dev.asReason, Dev.flag_setFld_ne _ _ _ _ (by decide) (by decide),
      Dev.flag_setFlag_same _ _ _ (by decide) rfl]
  case reason => exact (hregs.fld (by decide)).trans (Dev.reason_asReason _ Rsn.bypclkLoss)
  case gone =>
    rw [Dev.bypGone_congr hall (by decide) (congrArg ClkSt.refDead hclk :) (congrArg ClkSt.bypDead hclk :), d.bypGone_bypSourceIs]
  case regs => exact (hstart.mono (by simp)).trans hall
  case pin =>
    have hon : d.bypLost.ckEnabled n = true := ((hstart.trans hlost).ckEnabled (asOut_notMem_asStat n)).trans hen
    have hwas : d.bypLost.ck n = d.ck n := d.ck_bypSourceIs true n
    have hout : d.bypLoss.ck n = (d.bypLost.ckEach (fun _ c => if c = .bypass ∨ c = .switching then .deadLow else c)).ck n := by
      simp [Dev.bypLoss_eq, Dev.ck]
    rw [hout, Dev.ck_ckEach _ _ hn, Dev.ckRuled_of_enabled hon, hwas, if_pos hck]
    rcases hck with h | h <;> rw [h, Dev.ckNext_ne _ (by decide), Dev.ckHeld_deadLow]

theorem exec_bypassSourceReturn (s : State) :
    exec .bypassSourceReturn s = .next { s with dev := (s.dev.bypSourceIs false).bypSync } := rfl

/-- AS_STAT once the bypass source shows edges again. -/
def Dev.bypBack (d : Dev) : Dev := (d.bypSourceIs false).setFlag F.AS_STAT_BYPCLK_LOST (d.bypSourceIs false).bypGone

/-- Outputs that hold low for the dead source carry the bypass clock again. -/
theorem Dev.bypSync_eq (d : Dev) :
    (d.bypSourceIs false).bypSync =
      d.bypBack.ckEach (fun n c => if c = .bypass ∨ c = .deadLow then (d.bypSourceIs false).bypSrc n else c) := rfl

theorem Dev.bypReturn_leaves (d : Dev) :
    let e := (d.bypSourceIs false).bypSync
    e.flag F.AS_STAT_BYPCLK_LOST = false ∧ e.bypGone = false ∧ d.regsBut e [R.AS_STAT] ∧
      ∀ n < 4, d.ckEnabled n = true → d.ck n = .deadLow →
        e.ck n = if d.fld (F.AS_OUT_BYPDIV n) = 0 then .bypLow else d.ckHeld .bypass := by
  have hgone := d.bypGone_bypSourceIs false
  have hshown : (d.bypSourceIs false).regsBut d.bypBack [R.AS_STAT] := (Dev.regsBut.refl _ _).setFlag (by simp) _
  have hpins := d.bypBack.pinFrame_ckEach (fun n c => if c = .bypass ∨ c = .deadLow then (d.bypSourceIs false).bypSrc n else c)
  have hall : (d.bypSourceIs false).regsBut (d.bypSourceIs false).bypSync [R.AS_STAT] := hshown.trans (.of_regs hpins.regs _)
  have hstart : d.regsBut (d.bypSourceIs false) [R.AS_STAT] := .of_regs (d.regs_bypSourceIs false) _
  refine ⟨?back, ?gone, hstart.trans hall, fun n hn hen hck => ?pin⟩
  case back =>
    rw [Dev.bypSync_eq, Dev.flag_congr hpins.regs, Dev.bypBack, Dev.flag_setFlag_same _ _ _ (by decide) rfl, hgone]
  case gone => rw [Dev.bypGone_congr hall (by decide) (congrArg ClkSt.refDead hpins.clk :) (congrArg ClkSt.bypDead hpins.clk :), hgone]
  case pin =>
    have hon : d.bypBack.ckEnabled n = true := ((hstart.trans hshown).ckEnabled (asOut_notMem_asStat n)).trans hen
    have hwas : d.bypBack.ck n = .deadLow := (d.ck_bypSourceIs false n).trans hck
    have hheld : d.bypBack.ckHeld .bypass = d.ckHeld .bypass := d.ckHeld_bypSourceIs false .bypass
    rw [Dev.bypSync_eq, Dev.ck_ckEach _ _ hn, Dev.ckRuled_of_enabled hon, hwas, if_pos (.inr rfl), Dev.bypSrc, hgone,
      hstart.fld (asOut_notMem_asStat n)]
    split
    · rw [Dev.ckNext_ne _ (by decide), Dev.ckHeld_bypLow]
    · rw [if_neg (by decide), Dev.ckNext_ne _ (by decide), hheld]

/-! ## CKSYNC (R247) -/

/-- The device at an edge of CKSYNC. -/
def Dev.cksyncSeen (d : Dev) : Dev := { d with clk := { d.clk with cksyncBn := some d.now } }

theorem exec_cksyncEdge_dropped {s : State} (h : s.dev.clk.cksyncBn = some s.dev.now ∨ s.dev.clk.hopping = true ∨ s.dev.asBypass = true) :
    exec .cksyncEdge s = .next { s with dev := s.dev.cksyncSeen.setFlag F.AS_STAT_SYNC_DROP true } := by
  change execCksyncEdge s = _
  rw [execCksyncEdge, State.onDev, if_pos h]; rfl

/-- An edge that counts restarts the dividers of the outputs with SYNCEN. -/
theorem exec_cksyncEdge_taken {s : State}
    (h : ¬(s.dev.clk.cksyncBn = some s.dev.now ∨ s.dev.clk.hopping = true ∨ s.dev.asBypass = true)) :
    exec .cksyncEdge s = .next { s with dev := s.dev.cksyncSeen.sendAll ((List.range 4).flatMap fun n =>
      if s.dev.ckEnabled n && s.dev.flag (F.AS_OUT_SYNCEN n) && s.dev.ck n == .synth then
        [s.dev.ckOut n .holdLow, s.dev.ckOut n .synth] else []) } := by
  refine congrArg (fun d => Host.Outcome.next { s with dev := d }) ((if_neg h).trans ?_)
  exact Dev.foldl_sendAll (g := fun d n => if d.ckEnabled n && d.flag (F.AS_OUT_SYNCEN n) && d.ck n == .synth then
      [d.ckOut n .holdLow, d.ckOut n .synth] else [])
    (fun d n => by split <;> simp [Dev.sendAll, Dev.emit]) (fun _ _ _ => rfl) (List.range 4) s.dev.cksyncSeen

end Sys2Proof.Machine
end

section
/-!
PROOF. The statement on the synthesizer: an unlock and a failed search as faults, the commands of AS_CMD, and the clauses together.
-/
namespace Sys2Proof.Machine
open Sys2Proof

/-! ## Faults of the two commands that raise them (R230, R231, R236) -/

theorem Dev.asFault_stat {d : Dev} (h : d.flag F.AS_CTRL_EN = true) (r : Reason) :
    let e := d.asFault r
    e.asBypass = true ∧ e.fld F.AS_STAT_STATE = 5 ∧ e.fld F.AS_STAT_REASON = r.toNat ∧
      e.flag F.AS_STAT_LOCKED = (d.flag F.AS_STAT_LOCKED && r == Rsn.lockSuspect) := by
  obtain ⟨hregs, -⟩ := Dev.asFault_leaves h r
  obtain ⟨hbyp, hstate, hreason, hlock⟩ := d.faultCleared.stat_faultShown r
  exact ⟨(hregs.flag (by decide)).trans hbyp, (hregs.fld (by decide)).trans hstate, (hregs.fld (by decide)).trans hreason,
    (hregs.flag (by decide)).trans hlock⟩

/-- A search without a band goes to bypass and fences FD112 (R231). -/
theorem Dev.bandFail_leaves {d : Dev} (h : d.flag F.AS_CTRL_EN = true) :
    let e := (d.asFault Rsn.asBandFail).raiseCause domAsyn Rsn.asBandFail
    e.asBypass = true ∧ e.fld F.AS_STAT_REASON = 0x7013 ∧ e.fld F.AS_STAT_STATE = 5 ∧ (0x7013 : Reason) ∈ (e.dom domAsyn).causes := by
  have hregs := (d.asFault Rsn.asBandFail).regsBut_raiseCause domAsyn Rsn.asBandFail
  obtain ⟨hbyp, hstate, hreason, -⟩ := Dev.asFault_stat h Rsn.asBandFail
  exact ⟨(hregs.flag (by decide)).trans hbyp, (hregs.fld (by decide)).trans hreason, (hregs.fld (by decide)).trans hstate,
    Dev.mem_causes_raiseCause _ domAsyn Rsn.asBandFail⟩

theorem Dev.regsBut_slipped (d : Dev) : d.regsBut d.slipped [R.AS_PBAND (d.fld F.AS_STAT_ACTIVE)] :=
  ((Dev.regsBut.refl d _).setFlag (f := F.AS_PBAND_VALID (d.fld F.AS_STAT_ACTIVE)) (by simp) false).withClk _

theorem Dev.valid_slipped (d : Dev) : d.slipped.flag (F.AS_PBAND_VALID (d.fld F.AS_STAT_ACTIVE)) = false := d.valid_badBand

/-- A cycle slip takes every enabled output off the synthesized clock and, where one left it, fences the AS_DEP domains. -/
theorem Dev.unlock_leaves {d : Dev} (h : d.flag F.AS_CTRL_EN = true) :
    let e := d.slipped.asFault Rsn.asUnlock
    e.flag F.AS_STAT_LOCKED = false ∧ e.asBypass = true ∧ e.fld F.AS_STAT_STATE = 5 ∧ e.fld F.AS_STAT_REASON = 0x7011 ∧
      e.flag (F.AS_PBAND_VALID (d.fld F.AS_STAT_ACTIVE)) = false ∧
      (d.ckSynth = true → ∀ k ∈ d.asDeps, (0x7011 : Reason) ∈ (e.dom k).causes) ∧ (d.ckSynth = false → e.fen = d.fen) ∧
      (∀ n < 4, d.ckEnabled n = true → d.ck n = .synth →
        e.ck n = (if d.fld (F.AS_OUT_BYPDIV n) = 0 then .bypLow else d.ckHeld .switching)) ∧ e.jobs = d.jobs := by
  have hslip := d.regsBut_slipped
  have hother : ∀ {a : Nat}, a < 0x2208 → a ∉ [R.AS_PBAND (d.fld F.AS_STAT_ACTIVE)] := fun ha hmem =>
    ne_asBand ha _ (List.mem_singleton.1 hmem)
  have hout : ∀ n, R.AS_OUT n ∉ [R.AS_PBAND (d.fld F.AS_STAT_ACTIVE)] := fun n => hother (by simp only [R.AS_OUT]; omega)
  have hen : d.slipped.flag F.AS_CTRL_EN = true := (hslip.flag (hother (by decide))).trans h
  have hon : ∀ n, d.slipped.ckEnabled n = d.ckEnabled n := fun n => hslip.ckEnabled (hout n)
  have hsynth : d.slipped.ckSynth = d.ckSynth := by
    have hck : ∀ n, d.slipped.ck n = d.ck n := fun _ => rfl
    simp only [Dev.ckSynth, hon, hck]
  obtain ⟨hregs, hdeps, hfen, hjobs, hpins⟩ := Dev.asFault_leaves hen Rsn.asUnlock
  obtain ⟨hbyp, hstate, hreason, hlock⟩ := Dev.asFault_stat hen Rsn.asUnlock
  rw [hsynth, hslip.asDeps (hother (by decide))] at hdeps
  rw [hsynth] at hfen
  refine ⟨hlock.trans (Bool.and_false _), hbyp, hstate, hreason, ?valid, hdeps, hfen, fun n hn hen hck => ?pin, hjobs⟩
  case valid =>
    have hstat : R.AS_PBAND (d.fld F.AS_STAT_ACTIVE) ∉ [R.AS_STAT] := fun hm => ne_asBand (by decide) _ (List.mem_singleton.1 hm).symm
    rw [hregs.flag (asBand_notMem_irqRegs _), (d.slipped.regsBut_faulted _).flag hstat, d.valid_slipped]
  case pin =>
    rw [hpins n hn ((hon n).trans hen) hck, hslip.fld (hout n)]; rfl

/-! ## The clauses -/

/-- The commands of AS_CMD at a port that may write it. -/
theorem asCmd_waitsOrRefused {s : State} {p : Port} (hg : s.dev.gate p R.AS_CMD = .pass)
    (hpark : (s.dev.dom domAsyn).causes.contains Rsn.domainParked = false) :
    let b := s.dev.asApplyBn
    (∀ k : Fin 8, ∃ t, exec (.asCmdHop p (BitVec.ofNat 9 k.val)) s = .next t ∧
      AsWaits s t { prof := k.val, hop := true, applyBn := b }) ∧
    (∀ k : Fin 8, ∃ t, exec (.asCmdHop p (BitVec.ofNat 9 (k.val + 64))) s = .next t ∧ t.dev.fld F.AS_STAT_REASON = 0x1005 ∧
      AsWaits s t { prof := k.val, hop := true, applyBn := b }) ∧
    (∃ t, exec (.asCmdSync p) s = .next t ∧ AsWaits s t { prof := 0, sync := true, applyBn := b }) ∧
    (∀ y, ∃ t, exec (.asCmdDivApply p y) s = .next t ∧ AsWaits s t { prof := 0, div := true, sync := y, applyBn := b }) ∧
    (s.dev.flag F.AS_STAT_LOCKED = true → s.dev.clk.cleanWin = true →
      ∃ t, exec (.asCmdReturn p) s = .next t ∧ AsWaits s t { prof := 0, ret := true, applyBn := b }) ∧
    (s.dev.flag F.AS_STAT_LOCKED = false ∨ s.dev.clk.cleanWin = false → ∃ t, exec (.asCmdReturn p) s = .next t ∧ AsRefused s t) ∧
    (s.dev.depBusy = false → ∃ t, exec (.asCmdSearchAll p) s = .next t ∧ AsWaits s t { prof := 0, search := true, applyBn := b }) ∧
    (s.dev.depBusy = true → ∃ t, exec (.asCmdSearchAll p) s = .next t ∧ AsRefused s t) := by
  have hwait : ∀ {i : Instr} {w : Word} {c : AsPend}, exec i s = .next (s.onDev fun d => d.viaPort p R.AS_CMD fun d => d.writeAsCmd w) →
      AsOperates w → s.dev.asRefuses w = false → asPendOf w s.dev.asApplyBn = c → ∃ t, exec i s = .next t ∧ AsWaits s t c := by
    intro i w c hi hw hno hc
    obtain ⟨t, ht, -, hwaits⟩ := exec_asCmd_waits hi hg hw hpark hno hc
    exact ⟨t, ht, hwaits⟩
  have hret : s.dev.asRefuses 0x20 = !(s.dev.flag F.AS_STAT_LOCKED && s.dev.clk.cleanWin) := rfl
  have hsearch : s.dev.asRefuses 0x80 = s.dev.depBusy := by rw [Dev.asRefuses]; exact (Bool.or_false _).trans (Bool.true_and _)
  refine ⟨fun k => ?hop, fun k => ?hopDiv, ?sync, fun y => ?div, fun hlock hclean => ?ret, fun hno => ?noRet, fun hfree => ?search,
    fun hbusy => ?noSearch⟩
  case hop =>
    obtain ⟨hop, hsearch, hret, -, hpend⟩ := hopWord_bits k false s.dev.asApplyBn
    exact hwait rfl hop (s.dev.asRefuses_of_neither hsearch hret) hpend
  case hopDiv =>
    obtain ⟨hop, hsearch, hret, hdiv, hpend⟩ := hopWord_bits k true s.dev.asApplyBn
    obtain ⟨t, ht, hreason, hwaits⟩ :=
      exec_asCmd_waits (i := .asCmdHop p (BitVec.ofNat 9 (k.val + 64))) rfl hg hop hpark (s.dev.asRefuses_of_neither hsearch hret) hpend
    exact ⟨t, ht, hreason hdiv, hwaits⟩
  case sync => exact hwait rfl ⟨rfl, rfl⟩ (s.dev.asRefuses_of_neither rfl rfl) rfl
  case div =>
    cases y <;> exact hwait rfl ⟨rfl, rfl⟩ (s.dev.asRefuses_of_neither rfl rfl) rfl
  case ret => exact hwait rfl ⟨rfl, rfl⟩ (by rw [hret, hlock, hclean]; rfl) rfl
  case noRet =>
    exact exec_asCmd_refused (w := 0x20) rfl hg ⟨rfl, rfl⟩ hpark (by rw [hret]; rcases hno with h | h <;> simp [h])
  case search => exact hwait rfl ⟨rfl, rfl⟩ (hsearch.trans hfree) rfl
  case noSearch => exact exec_asCmd_refused (w := 0x80) rfl hg ⟨rfl, rfl⟩ hpark (hsearch.trans hbusy)

/-- Settles O32: a command of AS_CMD waits for its beat or draws REF_STATE, and each hop, lock, fault, monitor window and clock edge leaves
what its rule says. -/
theorem synthesizerLocksAndBypasses : Obligations.SynthesizerLocksAndBypasses := by
  unfold Obligations.SynthesizerLocksAndBypasses
  refine ⟨fun s p hg hpark => ?commands, fun s => ?beat, fun s => ?monitors⟩
  case commands =>
    obtain ⟨hhop, hhopDiv, hsync, hdiv, hret, hnoRet, hsearch, hnoSearch⟩ := asCmd_waitsOrRefused hg hpark
    refine ⟨hhop, hhopDiv, hsync, hdiv, hret, hnoRet, hsearch, hnoSearch, _, exec_asCmd_of_pass (w := 0x100) rfl hg, ?_⟩
    rw [Dev.writeAsCmd_cancel]
    exact ⟨rfl, Dev.flag_setFlag_same _ _ _ (by decide) rfl, s.dev.regsBut_asDrop, rfl⟩
  case beat =>
    have hdrop := s.dev.regsBut_asDrop
    refine ⟨fun c hc hb => exec_asApply_of_early hc hb, exec_asApply_of_none, fun k b hc hb hen => ⟨_, exec_asApply_of_due hc hb, ?hop⟩,
      fun b hc hb => ⟨_, exec_asApply_of_due hc hb, ?div⟩,
      fun b hc hb hbyp hlock hclean => ⟨_, exec_asApply_of_due hc hb, ?ret⟩,
      fun w hsearch => ⟨_, exec_bandSearchDone_found hsearch w, ?found⟩,
      fun hsearch hen => ⟨_, exec_bandSearchDone_failed hsearch, Dev.bandFail_leaves hen⟩,
      fun f hidle => exec_bandSearchDone_of_idle hidle f,
      fun hen hlock hstate hho hbyp hback => ⟨_, exec_asLockDeclare_of_settled hen hlock hstate hho hbyp hback, ?lock⟩,
      exec_asLockDeclare_of_locked⟩
    case hop =>
      rw [Dev.asTake_hop]
      exact Dev.asHop_loads hdrop hen k
    case div =>
      rw [Dev.asTake_div]
      refine ⟨fun i hi => ?_, rfl, hdrop, rfl⟩
      exact (mget_loadDivs (fun i => s.dev.asDrop.fld (F.AS_DIV_SHADOW i)) s.dev.clk.div hi).trans (hdrop.fld (asDiv_notMem_asStat i))
    case ret =>
      have hstat : ∀ f : Fld, f.hi < 9 → s.dev.asDrop.flag f = s.dev.flag f := fun f hf =>
        (Dev.flag_setFlag_ne _ _ _ _ (by omega) (.inr (.inl hf))).trans (Dev.flag_congr rfl f)
      rw [Dev.asTake_return]
      exact Dev.asReturn_leaves ((hstat _ (by decide)).trans hbyp) ((hstat _ (by decide)).trans hlock) hclean
    case found =>
      obtain ⟨hband, hvalid, hdie, hstate, hregs⟩ := s.dev.bandFound_leaves w
      exact ⟨hband, hvalid, hdie, hstate, hregs, rfl⟩
    case lock =>
      obtain ⟨hlocked, hsettled, hregs⟩ := s.dev.lockDeclared_leaves
      exact ⟨hlocked, hsettled, rfl, hregs, rfl⟩
  case monitors =>
    refine ⟨fun hen hlock => ⟨_, exec_asUnlock_of_locked hen hlock, Dev.unlock_leaves hen⟩, exec_asUnlock_of_idle,
      fun v hlock hv hsus hbyp => ⟨_, exec_asMonitorWindow_over hlock hv hsus hbyp, ?excess⟩,
      fun v hlock hv hbyp hstate => ⟨_, exec_asMonitorWindow_clean hlock hv hbyp hstate, ?clean⟩,
      ⟨_, exec_muxNoEdgeTimeout s, s.dev.regs_muxDone, fun n hn => s.dev.ck_muxDone hn⟩,
      ⟨_, exec_bypclkLoss s, s.dev.bypLoss_leaves⟩, ⟨_, exec_bypassSourceReturn s, s.dev.bypReturn_leaves⟩,
      fun hdrop => ⟨_, exec_cksyncEdge_dropped hdrop, ?dropped⟩,
      fun hbeat hhop hbyp => ⟨_, exec_cksyncEdge_taken (by simp [hbeat, hhop, hbyp]), rfl, rfl⟩⟩
    case excess =>
      obtain ⟨hsuspect, hstate, hlocked, hrest⟩ := s.dev.windowOver_leaves v
      exact ⟨hsuspect, hstate, hlocked.trans hlock, hrest⟩
    case clean =>
      obtain ⟨hdev, hregs⟩ := s.dev.windowClean_leaves v
      exact ⟨hdev, hregs, rfl⟩
    case dropped =>
      have hseen : s.dev.regsBut s.dev.cksyncSeen [R.AS_STAT] := .of_regs rfl _
      exact ⟨Dev.flag_setFlag_same _ _ _ (by decide) rfl, hseen.setFlag (by simp) true, rfl⟩

end Sys2Proof.Machine
end

section
/-!
PROOF. The operations of the host port (R268 to R270, R290, R779 to R782): which registers a host-port reset keeps, the causes of one
domain after a raise and after a clear, and what the error report and the messages of pending vectors leave alone.
-/
namespace Sys2Proof.Machine
open Sys2Proof

/-! ## Registers that a host-port reset keeps (R268, R269) -/

/-- A map cut down to the keys that satisfy a test reads as before there, and as its default elsewhere. -/
theorem mgetD_filter {V : Type} (dflt : Nat → V) (keep : Nat → Bool) (m : SMap V) (k : Nat) :
    mgetD dflt (m.filter fun c => keep c.1) k = if keep k then mgetD dflt m k else dflt k := by
  have hfind : (m.filter fun c => keep c.1).find? (fun c => c.1 == k) = if keep k then m.find? (fun c => c.1 == k) else none := by
    rw [List.find?_filter]
    split
    case isTrue hk =>
      congr 1; funext c
      by_cases hc : c.1 = k <;> simp [hc, hk]
    case isFalse hk =>
      refine List.find?_eq_none.2 fun c _ => ?_
      by_cases hc : c.1 = k <;> simp [hc, hk]
  unfold mgetD
  rw [hfind]
  cases keep k <;> rfl

/-- The registers that a host-port reset keeps: those outside the host-port domain, and the two SPI counters. -/
def hostKept (a : Nat) : Bool := !(hostReg a || ringHostReg a) || a == R.HST_SPI_ERRCNT || a == R.HST_SPI_WCNT

theorem Dev.reg_resetHost (d : Dev) (a : Nat) : d.resetHost.reg a = if hostKept a then d.reg a else resetWord a :=
  mgetD_filter resetWord hostKept d.regs a

@[simp] theorem Dev.resetHost_keeps (d : Dev) :
    d.resetHost.jobs = d.jobs ∧ d.resetHost.mram = d.mram ∧ d.resetHost.ldg = d.ldg ∧ d.resetHost.boot = d.boot ∧
    d.resetHost.fen = d.fen := ⟨rfl, rfl, rfl, rfl, rfl⟩

/-- JR_SQCFG is 0 after reset: no ring is enabled. -/
theorem resetWord_sqcfg (j : Nat) : resetWord (R.JR_SQCFG j) = 0 := by
  have hrow : ∀ r ∈ resetRows, (decide (r.1 ≤ R.JR_SQCFG j) && inDims r.2.1 (R.JR_SQCFG j - r.1)) = false := by
    simp only [resetRows, List.forall_mem_cons, inDims, R.JR_SQCFG, Bool.and_eq_false_iff,
      decide_eq_false_iff_not, beq_eq_false_iff_ne, List.not_mem_nil, false_imp_iff, implies_true, and_true]
    omega
  have hmask : ¬(0x4800 ≤ R.JR_SQCFG j ∧ R.JR_SQCFG j < 0x4C00 ∧ R.JR_SQCFG j % 16 = 12) := by simp only [R.JR_SQCFG]; omega
  rw [resetWord, if_neg hmask, List.find?_eq_none.2 fun r hr => by simp [hrow r hr]]

/-! ## Causes of one domain, raised and cleared (R779 to R782, R797) -/

theorem Dev.dom_setDom (d : Dev) (k : Nat) (v : DomSt) : (d.setDom k v).dom k = v := by
  unfold Dev.dom Dev.setDom; rw [mget_mset, if_pos rfl]

theorem Dev.dom_logFence (d : Dev) (k j : Nat) (r : Reason) (c : Bool) : (d.logFence k r c).dom j = d.dom j := by
  unfold Dev.dom; rw [Dev.doms_logFence]

/-- A cause that is new to its domain stands after those it held. -/
theorem Dev.causes_raiseOne {d : Dev} {k : Nat} {r : Reason} (h : r ∉ (d.dom k).causes) :
    ((d.raiseOne k r).dom k).causes = (d.dom k).causes ++ [r] := by
  have hset : ∀ v : DomSt, (((d.setDom k v).logFence k r false).dom k).causes = v.causes := fun v => by
    rw [Dev.dom_logFence, Dev.dom_setDom]
  unfold Dev.raiseOne
  dsimp only
  rw [if_neg (by simpa using h)]
  split
  case isTrue hfirst =>
    have hnone : (d.dom k).causes = [] := by simpa using hfirst
    exact (hset _).trans (by rw [hnone]; rfl)
  case isFalse => exact hset _

/-- The host port is no engine: a cause on it reaches no sync group. -/
theorem Dev.raiseCause_domHost (d : Dev) (r : Reason) : d.raiseCause domHost r = d.raiseOne domHost r := by
  unfold Dev.raiseCause; exact if_neg (by simp [domHost])

/-- What a clear of causes leaves of a domain that is no head port. -/
structure Dev.CausesCleared (d e : Dev) (k : Nat) (p : Reason → Bool) : Prop where
  causes : (e.dom k).causes = (d.dom k).causes.filter fun r => !p r
  jobs : e.jobs = d.jobs
  regs : d.regsBut e irqRegs

theorem Dev.clearCauses_cleared (d : Dev) {k : Nat} (hk : 16 ≤ k) (p : Reason → Bool) : d.CausesCleared (d.clearCauses k p) k p := by
  have hlog : ∀ v : DomSt, (d.setDom k v).regsBut ((d.setDom k v).logFence k (d.dom k).reason true) irqRegs := fun v =>
    Dev.regsBut_logFence _ k _ true
  unfold Dev.clearCauses
  dsimp only
  rw [decide_eq_false (Nat.not_lt.2 hk)]
  split
  case isTrue hall =>
    have hleft := List.filter_sublist.eq_of_length hall
    exact ⟨hleft.symm, rfl, .refl _ _⟩
  case isFalse =>
    split
    case isTrue hnone =>
      have hnone : (d.dom k).causes.filter (fun r => !p r) = [] := by simpa using hnone
      refine ⟨?_, by simp, hlog _⟩
      simp only [Bool.false_and, Bool.false_eq_true, if_false]
      rw [Dev.dom_logFence, Dev.dom_setDom, hnone]
    case isFalse => exact ⟨by rw [Dev.dom_setDom], rfl, .of_regs rfl _⟩

/-! ## The error report (HST_ERR, vector 22) -/

theorem Dev.regsBut.hstErr {d e : Dev} {l : List Nat} (h : d.regsBut e l) (hl : R.HST_ERR :: irqRegs ⊆ l) (ring : Nat) (r : Reason) :
    d.regsBut (e.hstErr ring r) l :=
  have herr : R.HST_ERR ∈ l := hl (by simp)
  ((h.setFld herr _).setFld herr _).raiseIrq (fun _ ha => hl (by simp [ha])) 22

theorem Dev.reason_hstErr (d : Dev) (ring : Nat) (r : Reason) : (d.hstErr ring r).fld F.HST_ERR_REASON = r.toNat := by
  rw [Dev.hstErr, Dev.fld_raiseIrq _ _ _ (by decide) (by decide), Dev.fld_setFld_of_lt _ (by decide) r.isLt]

theorem Dev.hstErr_regs_out_only (d : Dev) (ring : Nat) (r : Reason) :
    d.hstErr ring r = { d with regs := (d.hstErr ring r).regs, out := (d.hstErr ring r).out } := Dev.raiseIrq_regs_out_only _ 22

/-! ## Messages of pending vectors (R290) -/

/-- Send the message of one vector, if it is pending and may be sent. -/
def Dev.flushVector (d : Dev) (v : Nat) : Dev :=
  let pba := d.reg (R.MSIX_PBA (v / 32))
  if bitOf pba (v % 32) && !bitOf (d.reg (R.MSIX_TABLE (4 * v + 3))) 0 && d.mayMsix v then
    (d.setReg (R.MSIX_PBA (v / 32)) (putBit pba (v % 32) false)).emit (.msix v)
  else d

theorem Dev.flushMsix_eq_foldl (d : Dev) : d.flushMsix = if !d.hst.msixEn then d else (List.range 64).foldl Dev.flushVector d := rfl

/-- The pending-bit array. -/
def pbaRegs : List Nat := [R.MSIX_PBA 0, R.MSIX_PBA 1]

theorem msixPba_mem_pbaRegs (k : Nat) : R.MSIX_PBA k ∈ pbaRegs := by
  rcases Nat.mod_two_eq_zero_or_one k with hk | hk <;> simp [pbaRegs, R.MSIX_PBA, hk]

theorem Dev.flushVector_regs_out_only (d : Dev) (v : Nat) :
    d.flushVector v = { d with regs := (d.flushVector v).regs, out := (d.flushVector v).out } := by
  unfold Dev.flushVector; dsimp only; split <;> rfl

theorem Dev.regsBut_flushVector (d : Dev) (v : Nat) : d.regsBut (d.flushVector v) pbaRegs := by
  unfold Dev.flushVector
  dsimp only
  split
  · exact (Dev.regsBut.refl d _).setReg (msixPba_mem_pbaRegs _) _
  · exact .refl _ _

/-- Sending pending messages touches the pending-bit array and what is sent. -/
theorem Dev.flushMsix_regs_out_only (d : Dev) : d.flushMsix = { d with regs := d.flushMsix.regs, out := d.flushMsix.out } := by
  have hfold : ∀ (l : List Nat) (e : Dev), l.foldl Dev.flushVector e =
      { e with regs := (l.foldl Dev.flushVector e).regs, out := (l.foldl Dev.flushVector e).out } := by
    intro l
    induction l with
    | nil => exact fun _ => rfl
    | cons v l ih =>
      intro e
      rw [List.foldl_cons]
      generalize hf : e.flushVector v = f
      have hstep := e.flushVector_regs_out_only v
      rw [hf] at hstep
      generalize hg : l.foldl Dev.flushVector f = g
      have hrest := ih f
      rw [hg] at hrest
      rw [hrest, hstep]
  rw [Dev.flushMsix_eq_foldl]
  split
  · rfl
  · exact hfold _ d

theorem Dev.flushMsix_keeps (d : Dev) :
    d.flushMsix.hst = d.hst ∧ d.flushMsix.boot = d.boot ∧ d.flushMsix.jobs = d.jobs ∧ d.flushMsix.fen = d.fen := by
  have hkeeps := d.flushMsix_regs_out_only
  exact ⟨(congrArg Dev.hst hkeeps :), (congrArg Dev.boot hkeeps :), (congrArg Dev.jobs hkeeps :), (congrArg Dev.fen hkeeps :)⟩

theorem Dev.regsBut_flushMsix (d : Dev) : d.regsBut d.flushMsix pbaRegs := by
  rw [Dev.flushMsix_eq_foldl]
  split
  · exact .refl _ _
  · exact .foldl Dev.regsBut_flushVector _ d

end Sys2Proof.Machine
end

section
/-!
PROOF. The resets of the host port and its link (R119, R262, R267 to R271, R274): what each reset clears, what a trained link shows, and
what a poisoned write and an access of a wrong size leave alone.
-/
namespace Sys2Proof.Machine
open Sys2Proof

/-! ## The two resets (R268 to R270) -/

/-- Beside HST_STAT and the interrupts, e is what a reset of the host port leaves of d in what the host port and the jobs hold. -/
structure Dev.HostCleared (d e : Dev) : Prop where
  regs : d.resetHost.regsBut e (R.HST_STAT :: irqRegs)
  adm : e.adm = d.resetHost.adm
  jobs : e.jobs = d.jobs
  mram : e.mram = d.mram
  ldg : e.ldg = d.ldg
  boot : e.boot = d.boot

/-- Only registers of the host port are cleared. -/
theorem Dev.HostCleared.reg_of_outside {d e : Dev} (h : d.HostCleared e) {a : Nat} (ha : hostReg a = false) (hr : ringHostReg a = false) :
    e.reg a = d.reg a := by
  have hhost : ∀ b ∈ R.HST_STAT :: irqRegs, hostReg b = true := by decide
  have hout : a ∉ R.HST_STAT :: irqRegs := fun hmem => Bool.false_ne_true (ha.symm.trans (hhost a hmem))
  rw [h.regs a hout, Dev.reg_resetHost, if_pos (by simp [hostKept, ha, hr])]

theorem Dev.HostCleared.spiWrites {d e : Dev} (h : d.HostCleared e) : e.reg R.HST_SPI_WCNT = d.reg R.HST_SPI_WCNT := by
  rw [h.regs _ (by decide), Dev.reg_resetHost, if_pos (by decide)]

theorem ringHostReg_sqcfg (j : Nat) : ringHostReg (R.JR_SQCFG j) = true := by
  simp only [ringHostReg, R.JR_SQCFG, Bool.and_eq_true, decide_eq_true_eq]; omega

theorem Dev.HostCleared.ringsDisabled {d e : Dev} (h : d.HostCleared e) (j : Nat) : e.reg (R.JR_SQCFG j) = 0 := by
  have hnoRing : ∀ b ∈ R.HST_STAT :: irqRegs, ringHostReg b = false := by decide
  have hout : R.JR_SQCFG j ∉ R.HST_STAT :: irqRegs := fun hmem => Bool.false_ne_true ((hnoRing _ hmem).symm.trans (ringHostReg_sqcfg j))
  have hcleared : hostKept (R.JR_SQCFG j) = false := by
    simp only [hostKept, ringHostReg_sqcfg, Bool.or_true, Bool.not_true, Bool.false_or, Bool.or_eq_false_iff, beq_eq_false_iff_ne,
      R.JR_SQCFG, R.HST_SPI_ERRCNT, R.HST_SPI_WCNT]
    omega
  rw [h.regs _ hout, Dev.reg_resetHost, hcleared, if_neg Bool.false_ne_true, resetWord_sqcfg]

/-- The device after a hot reset, a link-down or an assertion of PERST_L. -/
def Dev.linkReset (d : Dev) : Dev := (d.resetHost.setFld F.HST_STAT_LAST Rsn.linkDown.toNat).raiseCause domHost Rsn.linkDown

theorem Dev.hostCleared_linkReset (d : Dev) : d.HostCleared d.linkReset := by
  have hlast : d.resetHost.regsBut (d.resetHost.setFld F.HST_STAT_LAST Rsn.linkDown.toNat) (R.HST_STAT :: irqRegs) :=
    (Dev.regsBut.refl _ _).setFld (by simp) _
  refine ⟨hlast.trans ((Dev.regsBut_raiseCause _ _ _).mono (List.subset_cons_self _ _)), ?_, ?_, ?_, ?_, ?_⟩ <;> simp [Dev.linkReset]

/-- HST_STAT shows the reset and no link. -/
theorem Dev.stat_linkReset (d : Dev) :
    d.linkReset.fld F.HST_STAT_LAST = 0xB005 ∧ d.linkReset.flag F.HST_STAT_LINK_UP = false := by
  have hirq := (d.resetHost.setFld F.HST_STAT_LAST Rsn.linkDown.toNat).regsBut_raiseCause domHost Rsn.linkDown
  have hzero : d.resetHost.reg R.HST_STAT = 0 := (d.reg_resetHost _).trans ((if_neg (by decide)).trans (by decide +kernel))
  refine ⟨(hirq.fld (by decide)).trans (Dev.fld_setFld_of_lt _ (by decide) (by decide)), (hirq.flag (by decide)).trans ?_⟩
  rw [Dev.flag_setFld_ne _ _ _ _ (by decide) (by decide), Dev.flag, Dev.fld, hzero]
  decide

/-- The device while a function-level reset is in force. -/
def Dev.flrHeld (d : Dev) : Dev :=
  ((d.resetHost.raiseCause domHost Rsn.hstFlr).setReg R.HST_STAT (d.reg R.HST_STAT &&& 0xF#32)).setFld F.HST_STAT_LAST Rsn.hstFlr.toNat

/-- The device when a function-level reset is complete. -/
def Dev.flrDone (d : Dev) : Dev := d.flrHeld.clearCauses domHost fun r => r == Rsn.hstFlr

theorem Dev.flrHeld_cleared (d : Dev) : d.flrHeld.CausesCleared d.flrDone domHost fun r => r == Rsn.hstFlr :=
  d.flrHeld.clearCauses_cleared (by decide) _

theorem Dev.hostCleared_flrDone (d : Dev) : d.HostCleared d.flrDone := by
  have hcause : d.resetHost.regsBut (d.resetHost.raiseCause domHost Rsn.hstFlr) (R.HST_STAT :: irqRegs) :=
    (Dev.regsBut_raiseCause _ _ _).mono (List.subset_cons_self _ _)
  have hheld : d.resetHost.regsBut d.flrHeld (R.HST_STAT :: irqRegs) := (hcause.setReg (by simp) _).setFld (by simp) _
  obtain ⟨-, hjobs, hregs⟩ := d.flrHeld_cleared
  refine ⟨hheld.trans (hregs.mono (List.subset_cons_self _ _)), ?_, hjobs.trans ?_, ?_, ?_, ?_⟩ <;> simp [Dev.flrDone, Dev.flrHeld]

/-- The link stays up, and HST_STAT shows the reset. -/
theorem Dev.stat_flrDone {d : Dev} (hup : d.flag F.HST_STAT_LINK_UP = true) :
    d.flrDone.fld F.HST_STAT_LAST = 0xB004 ∧ d.flrDone.flag F.HST_STAT_LINK_UP = true := by
  have hirq := d.flrHeld_cleared.regs
  refine ⟨(hirq.fld (by decide)).trans (Dev.fld_setFld_of_lt _ (by decide) (by decide)), (hirq.flag (by decide)).trans ?_⟩
  rw [Dev.flrHeld, Dev.flag_setFld_ne _ _ _ _ (by decide) (by decide), ← hup]
  unfold Dev.flag Dev.fld
  rw [Dev.reg_setReg, if_pos rfl, slice_bit, slice_bit]
  simp [bitOf]

/-- FD113 holds what it held before the reset (R270). -/
theorem Dev.causes_flrDone {d : Dev} (h : Rsn.hstFlr ∉ (d.dom domHost).causes) : (d.flrDone.dom domHost).causes = (d.dom domHost).causes := by
  have hheld : (d.flrHeld.dom domHost).causes = (d.dom domHost).causes ++ [Rsn.hstFlr] :=
    (congrArg (fun e : Dev => (e.dom domHost).causes) (d.resetHost.raiseCause_domHost Rsn.hstFlr)).trans (Dev.causes_raiseOne h)
  have hold : ∀ r ∈ (d.dom domHost).causes, (!(r == Rsn.hstFlr)) = true := fun r hr => by
    simpa using fun he : r = Rsn.hstFlr => h (he ▸ hr)
  rw [d.flrHeld_cleared.causes, hheld, List.filter_append, List.filter_eq_self.2 hold]
  simp

/-! ## The link (R270, R271) -/

/-- The device whose link has trained, before what waits for it is sent. -/
def Dev.linkTrained (d : Dev) (g : Bool) (w : Fin 3) (b m i : Bool) : Dev :=
  let d := { d with hst := { d.hst with msixEn := m, intDis := i }, boot := { d.boot with linkTraining := false } }
  (((d.setFlag F.HST_STAT_LINK_UP true).setFlag F.HST_STAT_GEN2 g).setFld F.HST_STAT_WIDTH w.val).setFlag F.HST_STAT_BME b

/-- The device whose link is up. -/
def Dev.linkRaised (d : Dev) (g : Bool) (w : Fin 3) (b m i : Bool) : Dev :=
  ((d.linkTrained g w b m i).clearCauses domHost fun _ => true).flushMsix

/-- HST_STAT shows the rate, the width and Bus Master Enable of the trained link. -/
theorem Dev.stat_linkTrained (d : Dev) (g : Bool) (w : Fin 3) (b m i : Bool) :
    let e := d.linkTrained g w b m i
    e.flag F.HST_STAT_LINK_UP = true ∧ e.flag F.HST_STAT_GEN2 = g ∧ e.fld F.HST_STAT_WIDTH = w.val ∧ e.flag F.HST_STAT_BME = b := by
  refine ⟨?_, ?_, ?_, Dev.flag_setFlag_same _ _ _ (by decide) rfl⟩
  · rw [Dev.linkTrained, Dev.flag_setFlag_ne _ _ _ _ (by decide) (by decide), Dev.flag_setFld_ne _ _ _ _ (by decide) (by decide),
      Dev.flag_setFlag_ne _ _ _ _ (by decide) (by decide), Dev.flag_setFlag_same _ _ _ (by decide) rfl]
  · rw [Dev.linkTrained, Dev.flag_setFlag_ne _ _ _ _ (by decide) (by decide), Dev.flag_setFld_ne _ _ _ _ (by decide) (by decide),
      Dev.flag_setFlag_same _ _ _ (by decide) rfl]
  · rw [Dev.linkTrained, Dev.fld_setFlag_ne _ _ _ _ (by decide) (by decide), Dev.fld_setFld_of_lt _ (by decide)]
    exact w.isLt.trans (by decide)

theorem Dev.linkRaised_leaves (d : Dev) (g : Bool) (w : Fin 3) (b m i : Bool) :
    let e := d.linkRaised g w b m i
    e.flag F.HST_STAT_LINK_UP = true ∧ e.flag F.HST_STAT_GEN2 = g ∧ e.fld F.HST_STAT_WIDTH = w.val ∧ e.flag F.HST_STAT_BME = b ∧
      e.hst.msixEn = m ∧ e.hst.intDis = i ∧ e.boot.linkTraining = false ∧ (e.dom domHost).causes = [] ∧ e.jobs = d.jobs := by
  obtain ⟨hcauses, hjobs, hregs⟩ := (d.linkTrained g w b m i).clearCauses_cleared (k := domHost) (by decide) fun _ => true
  obtain ⟨hhst, hboot, hflushed, hfen⟩ := ((d.linkTrained g w b m i).clearCauses domHost fun _ => true).flushMsix_keeps
  obtain ⟨hup, hgen, hwidth, hbme⟩ := d.stat_linkTrained g w b m i
  have hstat : ∀ f : Fld, f.a = R.HST_STAT → (d.linkRaised g w b m i).fld f = (d.linkTrained g w b m i).fld f := fun f hf =>
    ((Dev.regsBut_flushMsix _).fld (by rw [hf]; decide)).trans (hregs.fld (by rw [hf]; decide))
  have hflag : ∀ f : Fld, f.a = R.HST_STAT → (d.linkRaised g w b m i).flag f = (d.linkTrained g w b m i).flag f := fun f hf =>
    congrArg (· != 0) (hstat f hf)
  have hset : ((d.linkTrained g w b m i).clearCauses domHost fun _ => true).hst = (d.linkTrained g w b m i).hst ∧
      ((d.linkTrained g w b m i).clearCauses domHost fun _ => true).boot = (d.linkTrained g w b m i).boot := by simp
  refine ⟨(hflag _ rfl).trans hup, (hflag _ rfl).trans hgen, (hstat _ rfl).trans hwidth, (hflag _ rfl).trans hbme,
    congrArg HstSt.msixEn (hhst.trans hset.1), congrArg HstSt.intDis (hhst.trans hset.1),
    congrArg BootSt.linkTraining (hboot.trans hset.2), ?_, hflushed.trans hjobs⟩
  rw [Dev.linkRaised, Dev.dom, hfen]
  exact hcauses.trans (List.filter_eq_nil_iff.2 (by simp))

/-! ## The commands -/

section
variable {s : State} (hrole : s.dev.boot.role ≠ .worker) (hsel : s.dev.flag F.SUP_STRAP_HOSTSEL = false)
include hrole hsel

theorem exec_hostPortReset_of_endpoint : exec .hostPortReset s = .next { s with dev := s.dev.linkReset } := by
  change execHostPortReset s = _
  simp [execHostPortReset, State.onDev, Dev.hostSpi, hrole, hsel, Dev.linkReset]

theorem exec_functionLevelReset_of_up (hup : s.dev.flag F.HST_STAT_LINK_UP = true) :
    exec .functionLevelReset s = .next { s with dev := s.dev.flrDone } := by
  change execFunctionLevelReset s = _
  simp [execFunctionLevelReset, State.onDev, Dev.hostSpi, hrole, hsel, hup, Dev.flrDone, Dev.flrHeld]

theorem exec_linkUp_of_released (hperst : s.dev.boot.perst = false) (hstraps : s.dev.boot.strapsValid = true) (g : Bool) (w : Fin 3)
    (b m i : Bool) : exec (.linkUp g w b m i) s = .next { s with dev := s.dev.linkRaised g w b m i } := by
  change execLinkUp g w b m i s = _
  simp [execLinkUp, State.onDev, Dev.hostSpi, hrole, hsel, hperst, hstraps, Dev.linkRaised, Dev.linkTrained]

end

/-- A worker has no endpoint: neither reset touches it (R262). -/
theorem exec_hostResets_of_worker {s : State} (h : s.dev.boot.role = .worker) :
    exec .hostPortReset s = .next s ∧ exec .functionLevelReset s = .next s := by
  constructor
  · change execHostPortReset s = _; simp [execHostPortReset, State.onDev, h]
  · change execFunctionLevelReset s = _; simp [execFunctionLevelReset, State.onDev, h]

theorem exec_d3hotEntry_of_up {s : State} (h : s.dev.flag F.HST_STAT_LINK_UP = true) :
    exec .d3hotEntry s = .next { s with dev := s.dev.setFlag F.HST_STAT_D3HOT true } := by
  change execD3hotEntry s = _
  simp [execD3hotEntry, State.onDev, h]

theorem exec_d3hotEntry_of_down {s : State} (h : s.dev.flag F.HST_STAT_LINK_UP = false) : exec .d3hotEntry s = .next s := by
  change execD3hotEntry s = _
  simp [execD3hotEntry, State.onDev, h]

theorem exec_d0Return (s : State) : exec .d0Return s = .next { s with dev := (s.dev.setFlag F.HST_STAT_D3HOT false).flushMsix } := rfl

theorem exec_poisonedWrite_of_live {s : State} (h : s.dev.portLive .host = true) :
    exec .poisonedWrite s = .next { s with dev := { s.dev with hst := { s.dev.hst with aerPoison := true } } } := by
  change execPoisonedWrite s = _
  simp [execPoisonedWrite, State.onDev, h]

/-- What an access of a wrong size sends: a read returns 0 (R267). -/
def Dev.sizeError (d : Dev) (r : Bool) : Dev :=
  let d := d.setFlag F.HST_STAT_SIZE_ERR true
  if r then d.emit (.readData .host 0) else d

theorem exec_bar0SizeError_of_live {s : State} (h : s.dev.portLive .host = true) (r : Bool) :
    exec (.bar0SizeError r) s = .next { s with dev := s.dev.sizeError r } := by
  change execBar0SizeError r s = _
  simp [execBar0SizeError, State.onDev, Dev.sizeError, h]

/-- A host port that is not live has no endpoint to write to or read from (Table HST-1). -/
theorem exec_badAccess_of_dead {s : State} (h : s.dev.portLive .host = false) :
    exec .poisonedWrite s = .next s ∧ ∀ r, exec (.bar0SizeError r) s = .next s := by
  refine ⟨?_, fun r => ?_⟩
  · change execPoisonedWrite s = _; simp [execPoisonedWrite, State.onDev, h]
  · change execBar0SizeError r s = _; simp [execBar0SizeError, State.onDev, h]

/-- Settles O33: the resets clear the host-port domain and keep jobs, ledger and the registers outside; the link commands, a poisoned write
and an access of a wrong size touch what their rules name. -/
theorem hostPortResetsKeepJobs : Obligations.HostPortResetsKeepJobs := by
  unfold Obligations.HostPortResetsKeepJobs
  intro s kept only
  have hkept : ∀ e : Dev, s.dev.HostCleared e → kept { s with dev := e } := fun e h =>
    ⟨h.jobs, h.mram, h.ldg, congrArg AdmSt.ready h.adm, congrArg AdmSt.reading h.adm, congrArg AdmSt.bells h.adm,
      fun a ha hr => h.reg_of_outside ha hr, h.spiWrites, fun j _ => h.ringsDisabled j, rfl⟩
  refine ⟨fun hrole hsel => ⟨?reset, fun hup hfree => ?flr, fun g w b m i hperst hstraps => ?link⟩, exec_hostResets_of_worker,
    fun hup => ⟨_, exec_d3hotEntry_of_up hup, ?d3hot⟩, exec_d3hotEntry_of_down, ⟨_, exec_d0Return s, ?d0⟩, exec_poisonedWrite_of_live,
    exec_badAccess_of_dead, fun r hlive => ⟨_, exec_bar0SizeError_of_live hlive r, ?size⟩⟩
  case reset =>
    obtain ⟨hlast, hup⟩ := s.dev.stat_linkReset
    exact ⟨_, exec_hostPortReset_of_endpoint hrole hsel, hkept _ s.dev.hostCleared_linkReset, hlast, hup, Dev.mem_causes_raiseCause _ _ _,
      s.dev.hostCleared_linkReset.boot⟩
  case flr =>
    obtain ⟨hlast, hstays⟩ := Dev.stat_flrDone hup
    exact ⟨_, exec_functionLevelReset_of_up hrole hsel hup, hkept _ s.dev.hostCleared_flrDone, hlast, hstays, Dev.causes_flrDone hfree⟩
  case link => exact ⟨_, exec_linkUp_of_released hrole hsel hperst hstraps g w b m i, s.dev.linkRaised_leaves g w b m i⟩
  case d3hot => exact ⟨Dev.flag_setFlag_same _ _ _ (by decide) rfl, (Dev.regsBut.refl _ _).setFlag (by simp) _, rfl⟩
  case d0 =>
    have hawake : s.dev.regsBut (s.dev.setFlag F.HST_STAT_D3HOT false) (R.HST_STAT :: pbaRegs) := (Dev.regsBut.refl _ _).setFlag (by simp) _
    refine ⟨?_, hawake.trans ((Dev.regsBut_flushMsix _).mono (List.subset_cons_self _ _)), ?_⟩
    · exact ((Dev.regsBut_flushMsix _).flag (by decide)).trans (Dev.flag_setFlag_same _ _ _ (by decide) rfl)
    · exact congrArg (fun e : Dev => { s with dev := e }) (Dev.flushMsix_regs_out_only _)
  case size =>
    have hflag := (s.dev).flag_setFlag_same F.HST_STAT_SIZE_ERR true (by decide) rfl
    have hregs : s.dev.regsBut (s.dev.setFlag F.HST_STAT_SIZE_ERR true) [R.HST_STAT] := (Dev.regsBut.refl _ _).setFlag (by simp) _
    cases r
    · exact ⟨hflag, (List.append_nil _).symm, hregs, rfl⟩
    · exact ⟨hflag, rfl, hregs, rfl⟩

end Sys2Proof.Machine
end

section
/-!
PROOF. Completion queues (R280, R282, R284 to R286, R288 to R290, R306): what enabling a queue, a write of HEAD, a posted entry and the
moderation timeout leave of the queue and of the registers, and the message of a vector that is unmasked while it is pending.
-/
namespace Sys2Proof.Machine
open Sys2Proof

/-! ## A pending vector that is unmasked (R290) -/

/-- The message of vector v is pending, unmasked, and may be sent. -/
structure Dev.MsixDue (d : Dev) (v : Nat) : Prop where
  pending : bitOf (d.reg (R.MSIX_PBA (v / 32))) (v % 32) = true
  unmasked : bitOf (d.reg (R.MSIX_TABLE (4 * v + 3))) 0 = false
  may : d.mayMsix v = true

/-- The message of vector v is sent and no longer pending. -/
structure Dev.MsixSent (d : Dev) (v : Nat) : Prop where
  sent : .msix v ∈ d.out
  clear : bitOf (d.reg (R.MSIX_PBA (v / 32))) (v % 32) = false

theorem Dev.mayMsix_congr {d e : Dev} (hhst : e.hst = d.hst) (hboot : e.boot = d.boot) (hstat : e.reg R.HST_STAT = d.reg R.HST_STAT)
    (v : Nat) : e.mayMsix v = d.mayMsix v := by
  simp only [Dev.mayMsix, Dev.flag, Dev.fld, Dev.isMgr, hhst, hboot, hstat]

theorem msixTable_notMem_pbaRegs (v : Nat) : R.MSIX_TABLE (4 * v + 3) ∉ pbaRegs := by
  simp only [pbaRegs, List.mem_cons, List.not_mem_nil, or_false, R.MSIX_TABLE, R.MSIX_PBA]; omega

theorem Dev.flushVector_of_due {d : Dev} {v : Nat} (h : d.MsixDue v) : d.flushVector v =
    (d.setReg (R.MSIX_PBA (v / 32)) (putBit (d.reg (R.MSIX_PBA (v / 32))) (v % 32) false)).emit (.msix v) := by
  simp [Dev.flushVector, h.pending, h.unmasked, h.may]

theorem Dev.MsixDue.sent {d : Dev} {v : Nat} (h : d.MsixDue v) : (d.flushVector v).MsixSent v := by
  rw [Dev.flushVector_of_due h]
  refine ⟨by simp, ?_⟩
  rw [Dev.reg_emit, Dev.reg_setReg, if_pos rfl, bitOf_putBit _ _ _ _ (by omega), if_pos rfl]

/-- A pending bit after the message of a vector: cleared if it is the vector's own, and else as it was. -/
theorem Dev.pending_flushVector (d : Dev) (v w : Nat) :
    bitOf ((d.flushVector w).reg (R.MSIX_PBA (v / 32))) (v % 32) = bitOf (d.reg (R.MSIX_PBA (v / 32))) (v % 32) ∨
      (R.MSIX_PBA (v / 32) = R.MSIX_PBA (w / 32) ∧ v % 32 = w % 32 ∧
        bitOf ((d.flushVector w).reg (R.MSIX_PBA (v / 32))) (v % 32) = false) := by
  unfold Dev.flushVector
  dsimp only
  split
  case isFalse => exact .inl rfl
  case isTrue =>
    rw [Dev.reg_emit, Dev.reg_setReg]
    by_cases ha : R.MSIX_PBA (v / 32) = R.MSIX_PBA (w / 32)
    · rw [if_pos ha, bitOf_putBit _ _ _ _ (by omega), ha]
      by_cases hb : v % 32 = w % 32
      · exact .inr ⟨rfl, hb, if_pos hb⟩
      · exact .inl (if_neg hb)
    · exact .inl (by rw [if_neg ha])

theorem Dev.out_flushVector (d : Dev) (v : Nat) : d.out ⊆ (d.flushVector v).out := by
  unfold Dev.flushVector
  dsimp only
  split
  · exact List.subset_append_left _ _
  · exact List.Subset.refl _

theorem Dev.MsixSent.flushVector {d : Dev} {v : Nat} (h : d.MsixSent v) (w : Nat) : (d.flushVector w).MsixSent v where
  sent := d.out_flushVector w h.sent
  clear := (d.pending_flushVector v w).elim (fun hsame => hsame.trans h.clear) fun hown => hown.2.2

theorem Dev.MsixDue.flushVector {d : Dev} {v w : Nat} (h : d.MsixDue v) (hv : v < 64) (hw : w < 64) (hne : v ≠ w) :
    (d.flushVector w).MsixDue v where
  pending := by
    rcases d.pending_flushVector v w with hsame | ⟨ha, hb, -⟩
    · exact hsame.trans h.pending
    · simp only [R.MSIX_PBA] at ha; omega
  unmasked := by rw [d.regsBut_flushVector w _ (msixTable_notMem_pbaRegs v)]; exact h.unmasked
  may := by
    have hkeeps := d.flushVector_regs_out_only w
    have hstat := d.regsBut_flushVector w R.HST_STAT (by decide)
    exact (Dev.mayMsix_congr (d := d) (congrArg Dev.hst hkeeps :) (congrArg Dev.boot hkeeps :) hstat v).trans h.may

theorem Dev.msixSent_foldl {v : Nat} (hv : v < 64) {l : List Nat} (hl : ∀ w ∈ l, w < 64) :
    ∀ d : Dev, (v ∈ l ∧ d.MsixDue v) ∨ d.MsixSent v → (l.foldl Dev.flushVector d).MsixSent v := by
  induction l with
  | nil => simp
  | cons w l ih =>
    have ih := ih fun x hx => hl x (List.mem_cons_of_mem _ hx)
    rintro d (⟨hmem, hdue⟩ | hsent)
    · by_cases hw : v = w
      · exact ih _ (.inr (hw ▸ hdue.sent))
      · exact ih _ (.inl ⟨List.mem_of_ne_of_mem hw hmem, hdue.flushVector hv (hl w List.mem_cons_self) hw⟩)
    · exact ih _ (.inr (hsent.flushVector w))

/-- A pending vector that may send its message sends it. -/
theorem Dev.MsixDue.flushMsix {d : Dev} {v : Nat} (h : d.MsixDue v) (hv : v < 64) : d.flushMsix.MsixSent v := by
  have hen : d.hst.msixEn = true := by
    have hmay := h.may
    simp only [Dev.mayMsix, Bool.and_eq_true] at hmay
    exact hmay.1.1.1.1
  rw [Dev.flushMsix_eq_foldl, hen]
  exact Dev.msixSent_foldl hv (fun w hw => List.mem_range.1 hw) d (.inl ⟨List.mem_range.2 hv, h⟩)

/-- The device with vector v unmasked, before what waits for it is sent. -/
def Dev.unmasked (d : Dev) (v : Nat) : Dev := d.setReg (R.MSIX_TABLE (4 * v + 3)) 0

theorem Dev.reg_unmasked (d : Dev) (v : Nat) : (d.unmasked v).reg (R.MSIX_TABLE (4 * v + 3)) = 0 := by
  rw [Dev.unmasked, Dev.reg_setReg, if_pos rfl]

theorem Dev.regsBut_unmasked (d : Dev) (v : Nat) : d.regsBut (d.unmasked v) [R.MSIX_TABLE (4 * v + 3)] :=
  (Dev.regsBut.refl d _).setReg (by simp) 0

theorem Dev.msixDue_unmasked {d : Dev} {v : Nat} (hmay : d.mayMsix v = true) (hpend : bitOf (d.reg (R.MSIX_PBA (v / 32))) (v % 32) = true) :
    (d.unmasked v).MsixDue v where
  pending := by
    rw [d.regsBut_unmasked v _ (by simp only [List.mem_singleton, R.MSIX_TABLE, R.MSIX_PBA]; omega)]; exact hpend
  unmasked := by rw [Dev.reg_unmasked]; rfl
  may := (Dev.mayMsix_congr (by simp [Dev.unmasked]) (by simp [Dev.unmasked])
    (d.regsBut_unmasked v _ (by simp only [List.mem_singleton, R.MSIX_TABLE, R.HST_STAT]; omega)) v).trans hmay

theorem Dev.writeMsix_unmask (d : Dev) (v : Nat) : d.writeMsix (R.MSIX_TABLE (4 * v + 3)) 0 = (d.unmasked v).flushMsix := by
  unfold Dev.writeMsix Dev.unmasked
  split <;> rfl

/-! ## The queues and their registers -/

theorem Dev.cq_setCq (d : Dev) (q i : Nat) (c : CqSt) : (d.setCq q c).cq i = if i = q then c else d.cq i := mget_mset _ _ _ _ _

theorem Dev.cq_setCq_same (d : Dev) (q : Nat) (c : CqSt) : (d.setCq q c).cq q = c := by rw [Dev.cq_setCq, if_pos rfl]

theorem Dev.cq_congr {d e : Dev} (h : e.hst = d.hst) (i : Nat) : e.cq i = d.cq i := by
  unfold Dev.cq; rw [h]

theorem Dev.cq_raiseIrq (d : Dev) (v i : Nat) : (d.raiseIrq v).cq i = d.cq i := Dev.cq_congr (by simp) i

theorem Dev.num_setNum (d : Dev) (a v : Nat) : (d.setNum a v).num a = v % 2 ^ 32 := by
  rw [Dev.num, Dev.setNum, Dev.reg_setReg, if_pos rfl, BitVec.toNat_ofNat]

theorem Dev.regsBut.setNum {d e : Dev} {l : List Nat} (h : d.regsBut e l) {a : Nat} (ha : a ∈ l) (v : Nat) : d.regsBut (e.setNum a v) l :=
  h.setReg ha _

theorem Dev.regsBut.num {d e : Dev} {l : List Nat} (h : d.regsBut e l) {a : Nat} (ha : a ∉ l) : e.num a = d.num a :=
  congrArg BitVec.toNat (h a ha)

theorem Dev.regsBut.setCq {d e : Dev} {l : List Nat} (h : d.regsBut e l) (q : Nat) (c : CqSt) : d.regsBut (e.setCq q c) l := h

theorem cqCfg_notMem (q : Nat) : R.HST_CQ_CFG q ∉ [R.HST_CQ_TAIL q, R.HST_CQ_HEAD q, R.HST_CQ_STAT q] := by
  simp only [List.mem_cons, List.not_mem_nil, or_false, R.HST_CQ_CFG, R.HST_CQ_TAIL, R.HST_CQ_HEAD, R.HST_CQ_STAT]; omega

theorem cqTail_notMem (q : Nat) : R.HST_CQ_TAIL q ∉ [R.HST_CQ_HEAD q, R.HST_CQ_STAT q] := by
  simp only [List.mem_cons, List.not_mem_nil, or_false, R.HST_CQ_TAIL, R.HST_CQ_HEAD, R.HST_CQ_STAT]; omega

theorem cqHead_notMem (q : Nat) : R.HST_CQ_HEAD q ∉ [R.HST_CQ_STAT q] := by
  simp only [List.mem_singleton, R.HST_CQ_HEAD, R.HST_CQ_STAT]; omega

/-! ## Enabling a queue (R280, R286) -/

/-- The queue that delivers again what is not acknowledged. -/
def CqSt.reopened (c : CqSt) : CqSt :=
  { c with wait := c.posted.filter CqEntry.durable ++ c.wait, posted := [], fifo := [],
           redo := (c.posted.filter CqEntry.durable).length + c.redo, since := 0, fullRaised := false, head := 0 }

/-- The device with queue q enabled under a configuration. -/
def Dev.cqOpened (d : Dev) (q : Nat) (w : Word) : Dev :=
  (((((d.setReg (R.HST_CQ_CFG q) w).setCq q (d.cq q).reopened).setNum (R.HST_CQ_TAIL q) 0).setNum (R.HST_CQ_HEAD q) 0).setFlag
    (F.HST_CQ_STAT_FULL q) false).setFlag (F.HST_CQ_STAT_REDELIVERING q) ((d.cq q).reopened.redo != 0)

theorem Dev.writeCqCfg_of_off {d : Dev} {q : Nat} {w : Word} (hoff : d.flag (F.HST_CQ_CFG_EN q) = false) (hw : bitOf w 16 = true) :
    d.writeCqCfg q w = d.cqOpened q (w &&& 0x1000F) := by
  unfold Dev.writeCqCfg
  dsimp only
  rw [hoff, hw]
  rfl

theorem Dev.writeCqCfg_of_on {d : Dev} {q : Nat} {w : Word} (hon : d.flag (F.HST_CQ_CFG_EN q) = true) :
    d.writeCqCfg q w = if bitOf w 16 then d else d.setFlag (F.HST_CQ_CFG_EN q) false := by
  rw [Dev.writeCqCfg, hon, if_pos rfl]

theorem Dev.cqOpened_leaves (d : Dev) (q : Nat) (w : Word) :
    let e := d.cqOpened q w
    e.reg (R.HST_CQ_CFG q) = w ∧ e.num (R.HST_CQ_TAIL q) = 0 ∧ e.num (R.HST_CQ_HEAD q) = 0 ∧ e.cq q = (d.cq q).reopened ∧
      (∀ i, i ≠ q → e.cq i = d.cq i) ∧ e.hst.owed = d.hst.owed ∧
      d.regsBut e [R.HST_CQ_CFG q, R.HST_CQ_TAIL q, R.HST_CQ_HEAD q, R.HST_CQ_STAT q] := by
  let d1 := (d.setReg (R.HST_CQ_CFG q) w).setCq q (d.cq q).reopened
  let d2 := d1.setNum (R.HST_CQ_TAIL q) 0
  let d3 := d2.setNum (R.HST_CQ_HEAD q) 0
  have hflags : d3.regsBut (d.cqOpened q w) [R.HST_CQ_STAT q] := ((Dev.regsBut.refl d3 _).setFlag (by simp) _).setFlag (by simp) _
  have hhead : d2.regsBut (d.cqOpened q w) [R.HST_CQ_HEAD q, R.HST_CQ_STAT q] :=
    ((Dev.regsBut.refl d2 _).setNum (by simp) 0).trans (hflags.mono (by simp))
  have htail : d1.regsBut (d.cqOpened q w) [R.HST_CQ_TAIL q, R.HST_CQ_HEAD q, R.HST_CQ_STAT q] :=
    ((Dev.regsBut.refl d1 _).setNum (by simp) 0).trans (hhead.mono (by simp))
  have hcq : ∀ i, (d.cqOpened q w).cq i = if i = q then (d.cq q).reopened else d.cq i := fun i => d.cq_setCq q i _
  refine ⟨(htail _ (cqCfg_notMem q)).trans ((d.reg_setReg _ _ _).trans (if_pos rfl)), (hhead.num (cqTail_notMem q)).trans (d1.num_setNum _ _),
    (hflags.num (cqHead_notMem q)).trans (d2.num_setNum _ _), (hcq q).trans (if_pos rfl), fun i hi => (hcq i).trans (if_neg hi), rfl, ?_⟩
  exact (((Dev.regsBut.refl d _).setReg (by simp) w).setCq q _).trans (htail.mono (by simp))

/-! ## A write of HEAD (R284, R286) -/

/-- The point up to which the host has acknowledged once it has consumed n more entries. -/
def CqSt.ackPoint (c : CqSt) (n : Nat) : Nat :=
  ((c.posted.take n).filter CqEntry.durable).foldl (fun a e => max a (e.lpos + 1)) c.acked

/-- The acknowledged point never goes back. -/
theorem CqSt.acked_le_ackPoint (c : CqSt) (n : Nat) : c.acked ≤ c.ackPoint n :=
  List.foldlRecOn (motive := fun a : Nat => c.acked ≤ a) _ _ (Nat.le_refl _) fun _ ha _ _ => ha.trans (Nat.le_max_left _ _)

/-- The device once the host has consumed n more entries of queue q, before FULL is looked at. -/
def Dev.cqConsumed (d : Dev) (q n : Nat) : Dev :=
  let c := d.cq q
  (d.setCq q { c with posted := c.posted.drop n, fifo := c.fifo.drop n, acked := c.ackPoint n }).setNum (R.HST_CQ_HEAD q)
    ((d.num (R.HST_CQ_HEAD q) + n) % 2 ^ 32)

theorem Dev.consume_eq (d : Dev) (q n : Nat) :
    d.consume q n = if (d.cqConsumed q n).cqFull q then d.cqConsumed q n
      else ((d.cqConsumed q n).setCq q { (d.cqConsumed q n).cq q with fullRaised := false }).setFlag (F.HST_CQ_STAT_FULL q) false := rfl

/-- Consumed entries leave the queue and may be acknowledged; beside HEAD, only FULL and its report follow (R285). -/
theorem Dev.consume_leaves (d : Dev) (q n : Nat) :
    let e := d.consume q n
    e.num (R.HST_CQ_HEAD q) = (d.num (R.HST_CQ_HEAD q) + n) % 2 ^ 32 ∧ (e.cq q).posted = (d.cq q).posted.drop n ∧
      (e.cq q).wait = (d.cq q).wait ∧ (e.cq q).acked = (d.cq q).ackPoint n ∧ (∀ i, i ≠ q → e.cq i = d.cq i) ∧
      d.regsBut e [R.HST_CQ_HEAD q, R.HST_CQ_STAT q] := by
  have hhead : (d.cqConsumed q n).num (R.HST_CQ_HEAD q) = (d.num (R.HST_CQ_HEAD q) + n) % 2 ^ 32 :=
    (Dev.num_setNum _ _ _).trans (Nat.mod_mod _ _)
  have hcq := fun i => d.cq_setCq q i { d.cq q with
    posted := (d.cq q).posted.drop n, fifo := (d.cq q).fifo.drop n, acked := (d.cq q).ackPoint n }
  have hown : (d.cqConsumed q n).cq q = _ := (hcq q).trans (if_pos rfl)
  have hothers : ∀ i, i ≠ q → (d.cqConsumed q n).cq i = d.cq i := fun i hi => (hcq i).trans (if_neg hi)
  have hregs : d.regsBut (d.cqConsumed q n) [R.HST_CQ_HEAD q, R.HST_CQ_STAT q] := ((Dev.regsBut.refl d _).setCq q _).setNum (by simp) _
  rw [Dev.consume_eq]
  generalize d.cqConsumed q n = e at *
  split
  case isTrue => exact ⟨hhead, by rw [hown], by rw [hown], by rw [hown], hothers, hregs⟩
  case isFalse =>
    have hclear : e.regsBut ((e.setCq q { e.cq q with fullRaised := false }).setFlag (F.HST_CQ_STAT_FULL q) false) [R.HST_CQ_STAT q] :=
      ((Dev.regsBut.refl e _).setCq q _).setFlag (by simp) _
    have hreport := e.cq_setCq q q { e.cq q with fullRaised := false }
    rw [if_pos rfl] at hreport
    refine ⟨(hclear.num (cqHead_notMem q)).trans hhead, ?_, ?_, ?_, fun i hi => ?_, hregs.trans (hclear.mono (by simp))⟩
    · exact (congrArg CqSt.posted hreport).trans (by rw [hown])
    · exact (congrArg CqSt.wait hreport).trans (by rw [hown])
    · exact (congrArg CqSt.acked hreport).trans (by rw [hown])
    · exact ((e.cq_setCq q i _).trans (if_neg hi)).trans (hothers i hi)

/-- HEAD moved on to a value is that value. -/
theorem headCount_forward (w : Word) {head : Nat} (h : head < 2 ^ 32) : (head + (w.toNat + 2 ^ 32 - head) % 2 ^ 32) % 2 ^ 32 = w.toNat := by
  have := w.isLt; omega

/-- A HEAD that stays within what is posted is taken, and what it passes is acknowledged. -/
theorem Dev.writeCqHead_of_forward {d : Dev} {q : Nat} {w : Word}
    (h : (w.toNat + 2 ^ 32 - d.num (R.HST_CQ_HEAD q)) % 2 ^ 32 ≤ (d.num (R.HST_CQ_TAIL q) + 2 ^ 32 - d.num (R.HST_CQ_HEAD q)) % 2 ^ 32) :
    d.writeCqHead q w = d.consume q ((w.toNat + 2 ^ 32 - d.num (R.HST_CQ_HEAD q)) % 2 ^ 32) := if_pos h

theorem Dev.writeCqHead_of_beyond {d : Dev} {q : Nat} {w : Word}
    (h : (d.num (R.HST_CQ_TAIL q) + 2 ^ 32 - d.num (R.HST_CQ_HEAD q)) % 2 ^ 32 < (w.toNat + 2 ^ 32 - d.num (R.HST_CQ_HEAD q)) % 2 ^ 32) :
    d.writeCqHead q w = d.setFlag (F.HST_CQ_STAT_HEAD_ERR q) true := if_neg (Nat.not_le.2 h)

/-! ## A posted entry (R282, R283, R285, R288) -/

/-- What follows a posted entry may change these registers. -/
def postRegs (q : Nat) : List Nat := R.HST_CQ_STAT q :: R.HST_SUBSTAT :: R.HST_ERR :: irqRegs

theorem cqTail_notMem_postRegs (q : Nat) : R.HST_CQ_TAIL q ∉ postRegs q := by
  simp only [postRegs, irqRegs, List.mem_cons, List.not_mem_nil, or_false, R.HST_CQ_TAIL, R.HST_CQ_STAT, R.HST_SUBSTAT, R.HST_ERR,
    R.HST_ISR0, R.HST_ISR1, R.MSIX_PBA]
  omega

/-- The entries of the queues stand as they stood, and what was sent stays sent. -/
structure Dev.EntriesKept (d e : Dev) (q : Nat) : Prop where
  regs : d.regsBut e (postRegs q)
  wait : (e.cq q).wait = (d.cq q).wait
  posted : (e.cq q).posted = (d.cq q).posted
  others : ∀ i, i ≠ q → e.cq i = d.cq i
  jobs : e.jobs = d.jobs
  out : d.out ⊆ e.out

namespace Dev.EntriesKept
variable {d e f : Dev} {q : Nat}

theorem refl (d : Dev) (q : Nat) : d.EntriesKept d q := ⟨.refl _ _, rfl, rfl, fun _ _ => rfl, rfl, List.Subset.refl _⟩

theorem trans (h : d.EntriesKept e q) (h' : e.EntriesKept f q) : d.EntriesKept f q :=
  ⟨h.regs.trans h'.regs, h'.wait.trans h.wait, h'.posted.trans h.posted, fun i hi => (h'.others i hi).trans (h.others i hi),
    h'.jobs.trans h.jobs, List.Subset.trans h.out h'.out⟩

/-- An update that leaves the queues and the jobs. -/
theorem of_frame (hregs : d.regsBut e (postRegs q)) (hhst : e.hst = d.hst) (hjobs : e.jobs = d.jobs) (hout : d.out ⊆ e.out) :
    d.EntriesKept e q :=
  ⟨hregs, by rw [Dev.cq_congr hhst], by rw [Dev.cq_congr hhst], fun i _ => Dev.cq_congr hhst i, hjobs, hout⟩

theorem setFld (d : Dev) {g : Fld} (hg : g.a ∈ postRegs q) (v : Nat) : d.EntriesKept (d.setFld g v) q :=
  of_frame ((Dev.regsBut.refl d _).setFld hg v) rfl rfl (List.Subset.refl _)

theorem setCq (d : Dev) {c : CqSt} (hwait : c.wait = (d.cq q).wait) (hposted : c.posted = (d.cq q).posted) :
    d.EntriesKept (d.setCq q c) q :=
  ⟨(Dev.regsBut.refl d _).setCq q c, by rw [Dev.cq_setCq_same, hwait], by rw [Dev.cq_setCq_same, hposted],
    fun i hi => by rw [Dev.cq_setCq, if_neg hi], rfl, List.Subset.refl _⟩

end Dev.EntriesKept

theorem Dev.out_raiseIrq (d : Dev) (v : Nat) : d.out ⊆ (d.raiseIrq v).out := by
  unfold Dev.raiseIrq
  dsimp only
  generalize (if v < 32 then R.HST_ISR0 else R.HST_ISR1) = isr
  split
  · exact List.Subset.refl _
  · split
    · exact List.Subset.refl _
    · exact List.subset_append_left _ _

theorem irqRegs_subset_postRegs (q : Nat) : irqRegs ⊆ postRegs q := fun _ ha => by simp [postRegs, ha]

theorem Dev.entriesKept_raiseIrq (d : Dev) (q v : Nat) : d.EntriesKept (d.raiseIrq v) q :=
  .of_frame ((Dev.regsBut.refl d _).raiseIrq (irqRegs_subset_postRegs q) v) (by simp) (by simp) (d.out_raiseIrq v)

theorem Dev.entriesKept_hstErr (d : Dev) (q ring : Nat) (r : Reason) : d.EntriesKept (d.hstErr ring r) q :=
  ((Dev.EntriesKept.setFld d (by simp [postRegs]) ring).trans (.setFld _ (by simp [postRegs]) r.toNat)).trans (Dev.entriesKept_raiseIrq _ q 22)

theorem Dev.entriesKept_cqModerate (d : Dev) (q : Nat) : d.EntriesKept (d.cqModerate q) q := by
  unfold Dev.cqModerate
  dsimp only
  split
  · exact .refl d q
  · split
    · exact (Dev.EntriesKept.setCq d (c := { d.cq q with since := 0 }) rfl rfl).trans (Dev.entriesKept_raiseIrq _ q q)
    · exact .refl d q

/-- FULL and its report after an entry is posted (R285). -/
def Dev.cqFullShown (d : Dev) (q ring : Nat) : Dev :=
  if d.cqFull q then
    let d := d.setFlag (F.HST_CQ_STAT_FULL q) true
    if (d.cq q).fullRaised then d else (d.setCq q { d.cq q with fullRaised := true }).hstErr ring Rsn.cqFull
  else d

theorem Dev.entriesKept_cqFullShown (d : Dev) (q ring : Nat) : d.EntriesKept (d.cqFullShown q ring) q := by
  have hfull : d.EntriesKept (d.setFlag (F.HST_CQ_STAT_FULL q) true) q := .setFld d (by simp [postRegs]) _
  unfold Dev.cqFullShown
  dsimp only
  split
  · split
    · exact hfull
    · refine hfull.trans (Dev.EntriesKept.trans (.setCq _ ?_ ?_) (Dev.entriesKept_hstErr _ q ring _)) <;> rfl
  · exact .refl d q

/-- The answer to the waybill of HST_SUBW clears BUSY (R301). -/
def Dev.subAnswered (d : Dev) (ws : List Word) : Dev :=
  let j := slice (ws.getD 2 0) 24 16
  if d.hst.subRing = some j ∧ d.hst.subDue = false ∧ slice (ws.getD 2 0) 31 28 ≤ 3 ∧ ws.getD 0 0 = d.reg (R.HST_SUBW 0) then
    ({ d with hst := { d.hst with subRing := none } }.setFlag F.HST_SUBSTAT_BUSY false).setFld F.HST_SUBSTAT_REASON
      (if slice (ws.getD 2 0) 31 28 = 1 then 0 else slice (ws.getD 3 0) 15 0)
  else d

theorem Dev.entriesKept_subAnswered (d : Dev) (q : Nat) (ws : List Word) : d.EntriesKept (d.subAnswered ws) q := by
  unfold Dev.subAnswered
  dsimp only
  split
  · refine (Dev.EntriesKept.trans (e := { d with hst := { d.hst with subRing := none } }) ?_ (.setFld _ (by simp [postRegs]) 0)).trans
      (.setFld _ (by simp [postRegs]) _)
    exact ⟨.of_regs rfl _, rfl, rfl, fun _ _ => rfl, rfl, List.Subset.refl _⟩
  · exact .refl d q

/-- The words of an entry with the phase of its count (R283). -/
def Dev.phased (d : Dev) (q : Nat) (e : CqEntry) : List Word :=
  e.words.set 7 (putBit (e.words.getD 7 0) 31 (d.num (R.HST_CQ_TAIL q) / d.cqDepth q % 2 == 0))

/-- The device that has taken the oldest waiting entry of queue q out of line. -/
def Dev.cqTaken (d : Dev) (q : Nat) (e : CqEntry) (rest : List CqEntry) : Dev :=
  let c := d.cq q
  ((d.setCq q { c with wait := rest, posted := c.posted ++ [e], redo := c.redo - 1,
                       fifo := if d.hostSpi then c.fifo ++ [d.phased q e] else [], since := c.since + 1,
                       sinceBn := if c.since = 0 then d.now else c.sinceBn }).setNum (R.HST_CQ_TAIL q)
    ((d.num (R.HST_CQ_TAIL q) + 1) % 2 ^ 32)).setFlag (F.HST_CQ_STAT_REDELIVERING q) (c.redo - 1 != 0)

/-- The write of an entry to the memory of a PCI Express host (R282). -/
def Dev.cqSent (d : Dev) (q : Nat) (ws : List Word) : Dev := if d.hostSpi then d else d.emit (.cqWrite q ws)

/-- The device that has posted the oldest waiting entry of queue q. -/
def Dev.cqPosted (d : Dev) (q : Nat) (e : CqEntry) (rest : List CqEntry) : Dev :=
  let ws := d.phased q e
  ((((d.cqTaken q e rest).cqSent q ws).subAnswered ws).cqModerate q).cqFullShown q (slice (ws.getD 2 0) 24 16)

/-- No entry waits, or the queue may not post. -/
theorem Dev.postEntry_of_held {d : Dev} {q : Nat}
    (h : (d.cq q).wait = [] ∨ d.flag (F.HST_CQ_CFG_EN q) = false ∨ d.dmaOk = false ∨ d.cqRoom q = false) : d.postEntry q = d := by
  unfold Dev.postEntry
  dsimp only
  split
  case h_1 => rfl
  case h_2 e rest hwait =>
    refine if_pos ?_
    rcases h with h | h | h | h
    · rw [hwait] at h; cases h
    all_goals simp [h]

theorem supStrap_notMem (q : Nat) : R.SUP_STRAP ∉ [R.HST_CQ_TAIL q, R.HST_CQ_STAT q] := by
  simp only [List.mem_cons, List.not_mem_nil, or_false, R.SUP_STRAP, R.HST_CQ_TAIL, R.HST_CQ_STAT]; omega

theorem Dev.postEntry_of_ready {d : Dev} {q : Nat} {e : CqEntry} {rest : List CqEntry} (hwait : (d.cq q).wait = e :: rest)
    (hen : d.flag (F.HST_CQ_CFG_EN q) = true) (hdma : d.dmaOk = true) (hroom : d.cqRoom q = true) (hmir : d.unmirrored e.lpos = false) :
    d.postEntry q = d.cqPosted q e rest := by
  unfold Dev.postEntry
  dsimp only
  rw [hwait]
  exact if_neg (by simp [hen, hdma, hroom, hmir])

theorem Dev.regsBut_cqTaken (d : Dev) (q : Nat) (e : CqEntry) (rest : List CqEntry) :
    d.regsBut (d.cqTaken q e rest) [R.HST_CQ_TAIL q, R.HST_CQ_STAT q] :=
  (((Dev.regsBut.refl d _).setCq q _).setNum (by simp) _).setFlag (by simp) _

theorem Dev.cqTaken_leaves (d : Dev) (q : Nat) (e : CqEntry) (rest : List CqEntry) :
    let t := d.cqTaken q e rest
    (t.cq q).wait = rest ∧ (t.cq q).posted = (d.cq q).posted ++ [e] ∧ t.num (R.HST_CQ_TAIL q) = (d.num (R.HST_CQ_TAIL q) + 1) % 2 ^ 32 ∧
      ∀ i, i ≠ q → t.cq i = d.cq i := by
  have hcq := fun i => d.cq_setCq q i { d.cq q with
    wait := rest, posted := (d.cq q).posted ++ [e], redo := (d.cq q).redo - 1,
    fifo := if d.hostSpi then (d.cq q).fifo ++ [d.phased q e] else [], since := (d.cq q).since + 1,
    sinceBn := if (d.cq q).since = 0 then d.now else (d.cq q).sinceBn }
  have hown := (hcq q).trans (if_pos rfl)
  refine ⟨congrArg CqSt.wait hown, congrArg CqSt.posted hown, ?_, fun i hi => (hcq i).trans (if_neg hi)⟩
  have htail : R.HST_CQ_TAIL q ∉ [R.HST_CQ_STAT q] := fun hmem => cqTail_notMem q (List.mem_cons_of_mem _ hmem)
  unfold Dev.cqTaken
  rw [((Dev.regsBut.refl _ [R.HST_CQ_STAT q]).setFlag (by simp) _).num htail, Dev.num_setNum, Nat.mod_mod]

/-- What follows the entry that is taken leaves the queues, and sends the entry to a PCI Express host. -/
theorem Dev.cqPosted_leaves {d : Dev} (hsel : d.flag F.SUP_STRAP_HOSTSEL = false) (q : Nat) (e : CqEntry) (rest : List CqEntry) :
    (d.cqTaken q e rest).EntriesKept (d.cqPosted q e rest) q ∧ .cqWrite q (d.phased q e) ∈ (d.cqPosted q e rest).out := by
  have hhost : (d.cqTaken q e rest).hostSpi = false := ((d.regsBut_cqTaken q e rest).flag (supStrap_notMem q)).trans hsel
  have hsent : (d.cqTaken q e rest).cqSent q (d.phased q e) = (d.cqTaken q e rest).emit (.cqWrite q (d.phased q e)) := by
    rw [Dev.cqSent, hhost, if_neg Bool.false_ne_true]
  unfold Dev.cqPosted
  dsimp only
  rw [hsent]
  have hemit : (d.cqTaken q e rest).EntriesKept ((d.cqTaken q e rest).emit (.cqWrite q (d.phased q e))) q :=
    .of_frame (.of_regs rfl _) rfl rfl (List.subset_append_left _ _)
  have hrest := ((Dev.entriesKept_subAnswered ((d.cqTaken q e rest).emit (.cqWrite q (d.phased q e))) q (d.phased q e)).trans
    (Dev.entriesKept_cqModerate _ q)).trans (Dev.entriesKept_cqFullShown _ q (slice ((d.phased q e).getD 2 0) 24 16))
  exact ⟨hemit.trans hrest, hrest.out (by simp)⟩

/-! ## The moderation timeout (R288) -/

theorem Dev.cqModerate_of_none {d : Dev} {q : Nat} (h : (d.cq q).since = 0) : d.cqModerate q = d := if_pos h

theorem Dev.cqModerate_of_due {d : Dev} {q : Nat} (h : (d.cq q).since ≠ 0)
    (ht : (d.cq q).sinceBn + d.fld (F.HST_CQ_MOD_TIME q) ≤ d.now) :
    d.cqModerate q = (d.setCq q { d.cq q with since := 0 }).raiseIrq q :=
  (if_neg h).trans (if_pos (.inr ht))

/-! ## The commands -/

section
variable {s : State} {p : Port}

theorem exec_cqEnable_of_pass {q : Fin 16} (h : s.dev.gate p (R.HST_CQ_CFG q.val) = .pass) (w : Word) :
    exec (.cqEnable p q w) s = .next { s with dev := s.dev.writeCqCfg q.val w } := by
  change execCqEnable p q w s = _
  rw [execCqEnable, State.onDev, Dev.viaPort_of_pass h]

theorem exec_cqHeadWrite_of_pass {q : Fin 16} (h : s.dev.gate p (R.HST_CQ_HEAD q.val) = .pass) (w : Word) :
    exec (.cqHeadWrite p q w) s = .next { s with dev := s.dev.writeCqHead q.val w } := by
  change execCqHeadWrite p q w s = _
  rw [execCqHeadWrite, State.onDev, Dev.viaPort_of_pass h]

theorem exec_msixUnmask_of_pass {v : Fin 64} (h : s.dev.gate p (R.MSIX_TABLE (4 * v.val + 3)) = .pass) :
    exec (.msixUnmask p v) s = .next { s with dev := (s.dev.unmasked v.val).flushMsix } := by
  change execMsixUnmask p v s = _
  rw [execMsixUnmask, State.onDev, Dev.viaPort_of_pass h, Dev.writeMsix_unmask]

end

theorem exec_completionPost (s : State) (q : Fin 16) : exec (.completionPost q) s = .next { s with dev := s.dev.postEntry q.val } := rfl

theorem exec_cqModerationTimeout (s : State) (q : Fin 16) :
    exec (.cqModerationTimeout q) s = .next { s with dev := s.dev.cqModerate q.val } := rfl

/-- Settles O35: each write of a queue's registers, each posted entry and each moderated or unmasked vector leaves what its rule says. -/
theorem completionQueuesPost : Obligations.CompletionQueuesPost := by
  unfold Obligations.CompletionQueuesPost
  intro s q c others head tail
  refine ⟨fun p w hg => ⟨fun hoff hw => ?enabled, fun hon hw => ?keptOn, fun hon hw => ?disabled⟩,
    fun p w hg => ⟨fun hm => ?forward, fun hm => ?beyond⟩, fun e r hwait hen hdma hroom hsel hmir => ?post,
    fun hheld => (exec_completionPost s q).trans (by rw [Dev.postEntry_of_held hheld]), fun hsince htime => ?timeout,
    fun hsince => (exec_cqModerationTimeout s q).trans (by rw [Dev.cqModerate_of_none hsince]),
    fun p v hg => ⟨_, exec_msixUnmask_of_pass hg, ?table, fun hmay hpend => ?sent, ?frame, ?rest⟩⟩
  case enabled =>
    obtain ⟨hcfg, htail, hhead, hown, hothers, howed, hregs⟩ := s.dev.cqOpened_leaves q.val (w &&& 0x1000F)
    refine ⟨_, exec_cqEnable_of_pass hg w, ?_⟩
    rw [Dev.writeCqCfg_of_off hoff hw]
    exact ⟨hcfg, htail, hhead, congrArg CqSt.wait hown, (congrArg CqSt.acked hown :), congrArg CqSt.redo hown, congrArg CqSt.posted hown,
      hothers, howed, hregs⟩
  case keptOn => rw [exec_cqEnable_of_pass hg, Dev.writeCqCfg_of_on hon, if_pos hw]
  case disabled =>
    refine ⟨_, exec_cqEnable_of_pass hg w, ?_⟩
    rw [Dev.writeCqCfg_of_on hon, hw, if_neg Bool.false_ne_true]
    exact ⟨Dev.flag_setFlag_same _ _ _ (show 16 < 32 by decide) rfl, (Dev.regsBut.refl _ _).setFlag (by simp) _, rfl⟩
  case forward =>
    obtain ⟨hhead, hposted, hwait, hacked, hothers, hregs⟩ := s.dev.consume_leaves q.val ((w.toNat + 2 ^ 32 - head) % 2 ^ 32)
    refine ⟨_, exec_cqHeadWrite_of_pass hg w, ?_⟩
    rw [Dev.writeCqHead_of_forward hm]
    exact ⟨BitVec.eq_of_toNat_eq (hhead.trans (headCount_forward w (BitVec.isLt _))), hposted, hwait,
      (CqSt.acked_le_ackPoint _ _).trans hacked.ge, hothers, hregs⟩
  case beyond =>
    refine ⟨_, exec_cqHeadWrite_of_pass hg w, ?_⟩
    rw [Dev.writeCqHead_of_beyond hm]
    exact ⟨Dev.flag_setFlag_same _ _ _ (show 1 < 32 by decide) rfl, (Dev.regsBut.refl _ _).setFlag (by simp) _, rfl⟩
  case post =>
    obtain ⟨htaken, hposted, htail, hothers⟩ := s.dev.cqTaken_leaves q.val e r
    obtain ⟨hkept, hsent⟩ := Dev.cqPosted_leaves hsel q.val e r
    refine ⟨_, exec_completionPost s q, ?_⟩
    rw [Dev.postEntry_of_ready hwait hen hdma hroom hmir]
    exact ⟨hkept.wait.trans htaken, hkept.posted.trans hposted, (hkept.regs.num (cqTail_notMem_postRegs _)).trans htail, hsent,
      fun i hi => (hkept.others i hi).trans (hothers i hi), hkept.jobs⟩
  case timeout =>
    have hcq := fun i => (Dev.cq_raiseIrq _ q.val i).trans (s.dev.cq_setCq q.val i { c with since := 0 })
    have hisr := (s.dev.setCq q.val { c with since := 0 }).isr_raiseIrq q.val (by omega)
    rw [if_pos (show q.val < 32 by omega), Nat.mod_eq_of_lt (show q.val < 32 by omega)] at hisr
    refine ⟨_, exec_cqModerationTimeout s q, ?_⟩
    rw [Dev.cqModerate_of_due hsince htime]
    exact ⟨(hcq _).trans (if_pos rfl), fun i hi => (hcq i).trans (if_neg hi), hisr,
      ((Dev.regsBut.refl s.dev _).setCq _ _).raiseIrq (List.Subset.refl _) _⟩
  case table => exact (Dev.regsBut_flushMsix _ _ (msixTable_notMem_pbaRegs _)).trans (Dev.reg_unmasked _ _)
  case sent =>
    obtain ⟨hsent, hclear⟩ := (Dev.msixDue_unmasked hmay hpend).flushMsix v.isLt
    exact ⟨hsent, hclear⟩
  case frame =>
    exact ((s.dev.regsBut_unmasked v.val).mono (by simp)).trans ((Dev.regsBut_flushMsix _).mono (List.subset_cons_self _ _))
  case rest => exact congrArg (fun e : Dev => { s with dev := e }) (Dev.flushMsix_regs_out_only _)

end Sys2Proof.Machine
end

section
/-!
PROOF. The SPI service port (R296 to R300, R522, Tables HST-5 to HST-7): what a request draws in its check, what a refused one leaves, and
what a store burst, a STATUS request and an abort leave.
-/
namespace Sys2Proof.Machine
open Sys2Proof

/-! ## The check of a request (R297, Table HST-7) -/

/-- The bytes that the CRC of a request covers. -/
def spiBytes (op : Nat) (low : BitVec 6) (addr : Nat) (ws : List Word) : List Byte :=
  spiCmdByte op low :: beBytes 3 addr ++ ws.flatMap (fun w => beBytes 4 w.toNat)

theorem Dev.spiCheck_of_badCrc {op : Nat} {low : BitVec 6} {addr : Nat} {ws : List Word} {crc : Byte}
    (h : spiCrc (spiBytes op low addr ws) ≠ crc) (d : Dev) : d.spiCheck op low addr ws crc = some 0xA1 :=
  if_pos (bne_iff_ne.2 h)

section
variable {low : BitVec 6} {addr : Nat} {ws : List Word} {crc : Byte}

/-- The grounds that follow a right CRC. -/
theorem Dev.spiCheck_of_crc {op : Nat} (h : spiCrc (spiBytes op low addr ws) = crc) (d : Dev) :
    d.spiCheck op low addr ws crc =
      if op = 3 ∨ low.getLsbD 4 = true then some 0xA2
      else if op = 0 then none
      else if addr % 4 ≠ 0 ∨ (if low.getLsbD 5 then 2 ^ 24 else 2 ^ 20) < addr + 4 * spiLen low then some 0xA3
      else if op = 2 ∧ d.hostSpi = false then some 0xA4
      else if op = 2 ∧ low.getLsbD 5 = false ∧ (decide (addr < 0x4440) && decide (0x4400 < addr + 4 * spiLen low)) = true ∧
        d.flag F.HST_SUBSTAT_BUSY = true then some 0xA6
      else none :=
  if_neg fun hbad => bne_iff_ne.1 hbad h

theorem Dev.spiCheck_of_op3 (h : spiCrc (spiBytes 3 low addr ws) = crc) (d : Dev) : d.spiCheck 3 low addr ws crc = some 0xA2 :=
  (d.spiCheck_of_crc h).trans (if_pos (.inl rfl))

theorem Dev.spiCheck_of_status (h : spiCrc (spiBytes 0 low addr ws) = crc) (h4 : low.getLsbD 4 = false) (d : Dev) :
    d.spiCheck 0 low addr ws crc = none := by
  rw [d.spiCheck_of_crc h, h4, if_neg (by decide), if_pos rfl]

/-- A read that is not aligned or leaves its space. -/
theorem Dev.spiCheck_of_badAddr (h : spiCrc (spiBytes 1 low addr ws) = crc) (h4 : low.getLsbD 4 = false)
    (ha : addr % 4 ≠ 0 ∨ (if low.getLsbD 5 then 2 ^ 24 else 2 ^ 20) < addr + 4 * spiLen low) (d : Dev) :
    d.spiCheck 1 low addr ws crc = some 0xA3 := by
  rw [d.spiCheck_of_crc h, h4, if_neg (by decide), if_neg (by decide), if_pos ha]

/-- A burst inside the store passes where the port may read, or is the host's and may write. -/
theorem Dev.spiCheck_of_store {op : Nat} (h : spiCrc (spiBytes op low addr ws) = crc) (h4 : low.getLsbD 4 = false)
    (h5 : low.getLsbD 5 = true) (halign : addr % 4 = 0) (hfits : addr + 4 * spiLen low ≤ 2 ^ 24) {d : Dev}
    (hop : op = 1 ∨ op = 2 ∧ d.hostSpi = true) : d.spiCheck op low addr ws crc = none := by
  have hinside : ¬(addr % 4 ≠ 0 ∨ (if true = true then 2 ^ 24 else 2 ^ 20) < addr + 4 * spiLen low) := by
    rw [if_pos rfl]; omega
  rw [d.spiCheck_of_crc h, h4, h5, if_neg (c := addr % 4 ≠ 0 ∨ _) hinside]
  rcases hop with rfl | ⟨rfl, hhost⟩
  · rfl
  · simp [hhost]

end

/-! ## A refused request (Table HST-7) -/

/-- What the port drives onto SPI_MISO for a request with n data words (R296, Table HST-6). -/
def spiAnswer (n rsp : Nat) (ws : List Word) : Out :=
  let bs := BitVec.ofNat 8 rsp :: ws.flatMap (fun w => beBytes 4 w.toNat)
  .spi (List.replicate (4 * n + 5) 0xFF ++ bs ++ [spiCrc bs])

/-- A request that counts in a field of HST_SPI_ERRCNT and is reported with a reason. -/
def Dev.spiRefused (d : Dev) (f : Fld) (n rsp : Nat) (r : Reason) : Dev := ((d.addSat f 1).hstErr 0 r).spiSend n rsp []

theorem Dev.spiBad_crc (d : Dev) (n : Nat) : d.spiBad n 0xA1 = d.spiRefused F.HST_SPI_ERRCNT_CRC n 0xA1 Rsn.spiCrc := rfl
theorem Dev.spiBad_cmd (d : Dev) (n : Nat) : d.spiBad n 0xA2 = d.spiRefused F.HST_SPI_ERRCNT_CMD n 0xA2 Rsn.spiCmd := rfl
theorem Dev.spiBad_addr (d : Dev) (n : Nat) : d.spiBad n 0xA3 = d.spiRefused F.HST_SPI_ERRCNT_CMD n 0xA3 Rsn.spiAddr := rfl

/-- A refused request leaves its answer and the error report, and touches nothing else. -/
theorem Dev.spiRefused_leaves (d : Dev) {f : Fld} (hf : f.a = R.HST_SPI_ERRCNT) (n rsp : Nat) (r : Reason) :
    let e := d.spiRefused f n rsp r
    e.fld F.HST_ERR_REASON = r.toNat ∧ spiAnswer n rsp [] ∈ e.out ∧ d.regsBut e (R.HST_ERR :: R.HST_SPI_ERRCNT :: irqRegs) ∧
      e = { d with regs := e.regs, out := e.out } := by
  have hcount : d.regsBut (d.addSat f 1) (R.HST_ERR :: R.HST_SPI_ERRCNT :: irqRegs) := (Dev.regsBut.refl d _).setFld (by simp [hf]) _
  refine ⟨Dev.reason_hstErr _ 0 r, List.mem_append_right _ (List.mem_singleton.2 rfl), ?_, ?_⟩
  · exact hcount.hstErr (List.cons_subset_cons _ (List.subset_cons_self _ _)) 0 r
  · exact congrArg (fun e : Dev => e.spiSend n rsp []) (Dev.hstErr_regs_out_only _ 0 r)

/-! ## The words of a store burst (R296, R518) -/

/-- The words of the segment store from an address on. -/
def storeWords (m : List Host.Cell) (a k : Nat) : List Word := (List.range k).map fun i => storeWord m (a + 4 * i)

theorem storeWords_succ (m : List Host.Cell) (a k : Nat) : storeWords m a (k + 1) = storeWord m a :: storeWords m (a + 4) k := by
  have hnext : ∀ i, a + 4 * (i + 1) = a + 4 + 4 * i := fun i => by omega
  simp [storeWords, List.range_succ_eq_map, hnext]

theorem Dev.spiWords_store {d : Dev} (h : d.rgate .spi 0x50000 = .full) (m : List Host.Cell) (k : Nat) :
    ∀ (a : Nat) (far : List (Option Word)) (acc : List Word),
      d.spiWords m true a k far acc = (d, some (acc ++ storeWords m a k)) := by
  induction k with
  | zero => intro a far acc; simp [Dev.spiWords, storeWords]
  | succ k ih =>
    intro a far acc
    have hword : d.spiWord m true a (far.head?.getD none) = (d, some (storeWord m a)) := by simp [Dev.spiWord, h]
    rw [Dev.spiWords, hword]
    dsimp only
    rw [ih, storeWords_succ, List.append_assoc, List.singleton_append]

theorem spiData_of_length {low : BitVec 6} {ws : List Word} (h : ws.length = spiLen low) : spiData low ws = ws := by
  refine List.ext_getElem (by simp [spiData, h]) fun i hi hi' => ?_
  simp [spiData, hi']

/-- The port may write the store only as the host's own (R263). -/
theorem Dev.hostSpi_of_storeGate {d : Dev} (h : d.storeGate .spi = true) : d.hostSpi = true := by
  cases hsel : d.hostSpi with
  | true => rfl
  | false => simp [Dev.storeGate, Dev.portOf, hsel] at h

/-! ## The commands -/

section
variable {s : State} {low : BitVec 6} {addr : BitVec 24} {crc : Byte} (hlive : s.dev.spiLive = true)
include hlive

theorem exec_spiRead_of_refused {r : Nat} (h : s.dev.spiCheck 1 low addr.toNat [] crc = some r) (far : List (Option Word)) :
    exec (.spiRead low addr crc far) s = .next { s with dev := s.dev.spiBad 0 r } := by
  change execSpiRead low addr crc far s = _
  simp [execSpiRead, State.onDevR, hlive, h]

theorem exec_spiRead_of_store (h : s.dev.spiCheck 1 low addr.toNat [] crc = none) (h5 : low.getLsbD 5 = true)
    (hgate : s.dev.rgate .spi 0x50000 = .full) (far : List (Option Word)) :
    exec (.spiRead low addr crc far) s = .next { s with dev := s.dev.spiSend 0 0xA0 (storeWords s.store addr.toNat (spiLen low)) } := by
  have hstore : spiStore low = true := h5
  change execSpiRead low addr crc far s = _
  simp [execSpiRead, State.onDevR, hlive, h, hstore, Dev.spiWords_store hgate]

theorem exec_spiWrite_of_refused {ws : List Word} (hlen : ws.length = spiLen low) {r : Nat}
    (h : s.dev.spiCheck 2 low addr.toNat ws crc = some r) :
    exec (.spiWrite low addr ws crc) s = .next { s with dev := s.dev.spiBad (spiLen low) r } := by
  change execSpiWrite low addr ws crc s = _
  simp [execSpiWrite, State.onDev, spiData_of_length hlen, hlive, h, hlen]

theorem exec_spiWrite_of_store {ws : List Word} (hlen : ws.length = spiLen low) (h : s.dev.spiCheck 2 low addr.toNat ws crc = none)
    (h5 : low.getLsbD 5 = true) (hgate : s.dev.storeGate .spi = true) (hfree : s.dev.protects s.store addr.toNat (4 * spiLen low) = false) :
    exec (.spiWrite low addr ws crc) s = .next { s with
      store := storeWrite s.store addr.toNat (ws.flatMap wordBytes),
      dev := (s.dev.addWrap F.HST_SPI_WCNT_WRITE (spiLen low)).spiSend (spiLen low) 0xA0 [] } := by
  have hstore : spiStore low = true := h5
  change execSpiWrite low addr ws crc s = _
  simp [execSpiWrite, Dev.spiStores, spiData_of_length hlen, hlive, h, hstore, hgate, hlen, hfree]

theorem exec_spiStatus_of_refused (h : s.dev.spiCheck 3 low addr.toNat [] crc = some 0xA2) :
    exec (.spiStatus true low addr crc) s = .next { s with dev := s.dev.spiBad 0 0xA2 } := by
  change execSpiStatus true low addr crc s = _
  simp [execSpiStatus, State.onDev, hlive, h]

theorem exec_spiStatus_of_taken (h : s.dev.spiCheck 0 low addr.toNat [] crc = none) :
    exec (.spiStatus false low addr crc) s = .next { s with dev := s.dev.spiSend 0 0xA0 [s.dev.reg R.HST_ISR0, s.dev.reg R.HST_ISR1] } := by
  change execSpiStatus false low addr crc s = _
  simp [execSpiStatus, State.onDev, hlive, h]

theorem exec_spiAbort_of_live : exec .spiAbort s = .next { s with dev := s.dev.addSat F.HST_SPI_ERRCNT_ABORT 1 } := by
  change execSpiAbort s = _
  simp [execSpiAbort, State.onDev, hlive]

end

/-- HST_SPI_WCNT counts the words written, modulo its 32 bits. -/
theorem Dev.num_spiWrites (d : Dev) (n : Nat) :
    (d.addWrap F.HST_SPI_WCNT_WRITE n).num R.HST_SPI_WCNT = (d.num R.HST_SPI_WCNT + n) % 2 ^ 32 := by
  have hwhole : ∀ e : Dev, e.num R.HST_SPI_WCNT = e.fld F.HST_SPI_WCNT_WRITE := fun e =>
    (Nat.mod_eq_of_lt (e.reg R.HST_SPI_WCNT).isLt).symm
  rw [hwhole, hwhole]
  exact Dev.fld_setFld_same _ _ _ (by decide)

/-- A saturating count of 8 bits stands at most at 255. -/
theorem Dev.fld_spiAborts (d : Dev) :
    (d.addSat F.HST_SPI_ERRCNT_ABORT 1).fld F.HST_SPI_ERRCNT_ABORT = min (d.fld F.HST_SPI_ERRCNT_ABORT + 1) 255 :=
  Dev.fld_setFld_of_lt _ (by decide) (Nat.lt_of_le_of_lt (Nat.min_le_right _ _) (by decide))

/-- Settles O36: each ground of refusal leaves its response and the error report alone, and what passes is answered or made. -/
theorem spiRequestsCheckedWhole : Obligations.SpiRequestsCheckedWhole := by
  unfold Obligations.SpiRequestsCheckedWhole
  intro s low addr crc hlive answer good bad len top
  have hcrc : ∀ op ws, ¬good op ws → s.dev.spiCheck op low addr.toNat ws crc = some 0xA1 := fun op ws h => Dev.spiCheck_of_badCrc h _
  have hbad : ∀ {n rsp : Nat} {r : Reason} {f : Fld} {e : Dev}, e = s.dev.spiRefused f n rsp r → f.a = R.HST_SPI_ERRCNT →
      bad { s with dev := e } n rsp r.toNat := by
    rintro n rsp r f e rfl hf
    obtain ⟨hreason, hanswer, hregs, hrest⟩ := s.dev.spiRefused_leaves hf n rsp r
    exact ⟨hreason, hanswer, hregs, congrArg (fun e : Dev => { s with dev := e }) hrest⟩
  refine ⟨fun far h => ⟨_, exec_spiRead_of_refused hlive (hcrc 1 [] h) far, hbad (s.dev.spiBad_crc 0) rfl⟩,
    fun far h h4 ha => ⟨_, exec_spiRead_of_refused hlive (Dev.spiCheck_of_badAddr h h4 ha _) far, hbad (s.dev.spiBad_addr 0) rfl⟩,
    fun far h h4 h5 halign hfits hgate => exec_spiRead_of_store hlive (Dev.spiCheck_of_store h h4 h5 halign hfits (.inl rfl)) h5 hgate far,
    fun ws hlen h => ⟨_, exec_spiWrite_of_refused hlive hlen (hcrc 2 ws h), hbad (s.dev.spiBad_crc _) rfl⟩,
    fun ws hlen h h4 h5 halign hfits hgate hfree => ?write,
    fun h => ⟨_, exec_spiStatus_of_refused hlive (Dev.spiCheck_of_op3 h _), hbad (s.dev.spiBad_cmd 0) rfl⟩,
    fun h h4 => exec_spiStatus_of_taken hlive (Dev.spiCheck_of_status h h4 _),
    ⟨_, exec_spiAbort_of_live hlive, s.dev.fld_spiAborts, (Dev.regsBut.refl _ _).setFld (by simp) _, rfl⟩⟩
  case write =>
    have hpass := Dev.spiCheck_of_store h h4 h5 halign hfits (.inr ⟨rfl, Dev.hostSpi_of_storeGate hgate⟩)
    exact ⟨_, exec_spiWrite_of_store hlive hlen hpass h5 hgate hfree, rfl, s.dev.num_spiWrites len,
      (Dev.regsBut.refl s.dev _).setFld (by simp) _, rfl⟩

end Sys2Proof.Machine
end

section
/-!
PROOF. Writes of the expected sequence (R321): the group that a record due forms, and what a write of JR_NEXTSEQ that its ring lets
through leaves.
-/
namespace Sys2Proof.Machine
open Sys2Proof

/-! ## Records due -/

/-- The group that records due at this beat form. -/
def Dev.dueItem (d : Dev) (prec : Nat) (rs : List Rec) : SealItem := { prec := prec, due := d.now, recs := groupOf rs }

/-- Records that fall due stand last in line. -/
theorem Dev.ldg_dueRec (d : Dev) (prec : Nat) (rs : List Rec) :
    (d.dueRec prec rs).ldg = { d.ldg with queue := d.ldg.queue ++ [d.dueItem prec rs] } := rfl

/-! ## A write of JR_NEXTSEQ -/

/-- The record of a new expected sequence. -/
def Dev.nextSeqRec (d : Dev) (j : Nat) (w : Word) : Rec := { typ := 0x32, ring := j, bn := d.now, w5 := w.toNat }

/-- The device once a write of JR_NEXTSEQ has been taken. -/
def Dev.nextSeqTaken (d : Dev) (j : Nat) (w : Word) : Dev :=
  { (d.setReg (R.JR_NEXTSEQ j) w).dueRec 5 [d.nextSeqRec j w] with adm := { d.adm with win := mset [] d.adm.win j [] } }

theorem Dev.window_nextSeqTaken (d : Dev) (j : Nat) (w : Word) (i : Nat) :
    mget [] (d.nextSeqTaken j w).adm.win i = if i = j then [] else mget [] d.adm.win i := mget_mset [] d.adm.win j i []

/-- A write has effect only while the ring is disabled and holds no job. -/
theorem Dev.writeNextSeq_eq (d : Dev) (j : Nat) (w : Word) :
    d.writeNextSeq j w = if d.flag (F.JR_SQCFG_EN j) = true ∨ ∃ x ∈ d.jobs, x.ring = j then d else d.nextSeqTaken j w := by
  simp only [Dev.writeNextSeq, Bool.or_eq_true, List.any_eq_true, beq_iff_eq]
  rfl

theorem exec_jrNextseqWrite_of_pass {s : State} {p : Port} {j : Fin 512} (h : s.dev.gate p (R.JR_NEXTSEQ j.val) = .pass) (w : Word) :
    exec (.jrNextseqWrite p j w) s = .next { s with dev := s.dev.writeNextSeq j.val w } := by
  change execJrNextseqWrite p j w s = _
  rw [execJrNextseqWrite, State.onDev, Dev.viaPort_of_pass h]

/-- Settles O41: a write is taken only on a disabled ring without a job, and then clears the ALREADY window and makes its record due. -/
theorem expectedSequenceWrite : Obligations.ExpectedSequenceWrite := by
  unfold Obligations.ExpectedSequenceWrite
  intro s p j w hpass
  have hexec := exec_jrNextseqWrite_of_pass hpass w
  rw [Dev.writeNextSeq_eq] at hexec
  refine ⟨fun hoff hfree => ?taken, fun hheld => by rw [hexec, if_pos hheld]⟩
  have hlets : ¬(s.dev.flag (F.JR_SQCFG_EN j.val) = true ∨ ∃ x ∈ s.dev.jobs, x.ring = j.val) := by
    rintro (hon | ⟨x, hx, hring⟩)
    · exact absurd hoff (by simp [hon])
    · exact hfree x hx hring
  rw [if_neg hlets] at hexec
  refine ⟨_, s.dev.dueItem 5 [s.dev.nextSeqRec j.val w], hexec, ?word, ?cleared, fun i hi => ?others,
    Dev.ldg_dueRec _ _ _, rfl, ?regs, rfl⟩
  case word => exact (Dev.reg_setReg _ _ _ _).trans (if_pos rfl)
  case cleared => exact (Dev.window_nextSeqTaken _ _ _ _).trans (if_pos rfl)
  case others => exact (Dev.window_nextSeqTaken _ _ _ _).trans (if_neg hi)
  case regs => exact (Dev.regsBut.refl s.dev [R.JR_NEXTSEQ j.val]).setReg (by simp) w

end Sys2Proof.Machine
end

section
/-!
PROOF. Examination of waybills (R318 to R322, R326 to R330): whose waybill is examined, what the checks of Table JOB-5 leave of one that
passes them all, and what an acceptance and an answer leave of the device.
-/
namespace Sys2Proof.Machine
open Sys2Proof

/-! ## Which waybill is examined (R326, R378) -/

/-- A waybill may be examined now. -/
def Dev.mayExamine (d : Dev) : Prop := d.admits = true ∧ d.adm.examined < 2 ∧ (d.backlog = true ∨ d.dueCount 3 < 4)

theorem Dev.mayExamine_iff (d : Dev) :
    d.mayExamine ↔ (!d.admits || decide (2 ≤ d.adm.examined) || (!d.backlog && decide (4 ≤ d.dueCount 3))) = false := by
  simp [Dev.mayExamine, and_assoc, or_iff_not_imp_left]

/-- The rings whose oldest waybill may be examined. -/
def Dev.examinable (d : Dev) (m : List Host.Cell) (far : FarExec) : List Nat :=
  (d.adm.ready.map (fun c => c.1)).filter (fun j => match d.readyOf j with
    | b :: _ => d.flag (F.JR_SQCFG_EN j) && !d.cqFull (d.ringCq j) && !d.frozenBy m j b far
    | [] => false)

/-- Admission once a waybill of ring j has been taken for examination and `rest` still waits there. -/
def Dev.admTaken (d : Dev) (j : Nat) (rest : List (List Word)) : AdmSt :=
  { d.adm with examined := d.adm.examined + 1, rrExam := mset 511 d.adm.rrExam (d.fld (F.JR_ACFG_PRIO j)) j,
               ready := mset [] d.adm.ready j rest }

/-- The device with that waybill taken. -/
def Dev.taken (d : Dev) (j : Nat) (rest : List (List Word)) : Dev := { d with adm := d.admTaken j rest }

/-- The waybill taken is answered, or accepted when no check answers it. -/
def Dev.judged (d : Dev) (m : List Host.Cell) (j : Nat) (b : List Word) (far : FarExec) : Dev :=
  match d.examineAnswer m j b far with
  | some a => d.answer j b a
  | none => d.accept j b

theorem Dev.judged_of_none {d : Dev} {m : List Host.Cell} {j : Nat} {b : List Word} {far : FarExec}
    (h : d.examineAnswer m j b far = none) : d.judged m j b far = d.accept j b := by rw [Dev.judged, h]

theorem Dev.judged_of_some {d : Dev} {m : List Host.Cell} {j : Nat} {b : List Word} {far : FarExec} {a : Answer}
    (h : d.examineAnswer m j b far = some a) : d.judged m j b far = d.answer j b a := by rw [Dev.judged, h]

/-- The oldest waybill of the ring in turn is taken and judged. -/
def Dev.examineNext (d : Dev) (m : List Host.Cell) (far : FarExec) : Dev :=
  match d.nextRing d.adm.rrExam (d.examinable m far) with
  | none => d
  | some j => match d.readyOf j with
    | [] => d
    | b :: rest => (d.taken j rest).judged m j b far

theorem exec_waybillExamine (far : FarExec) (s : State) :
    exec (.waybillExamine far) s = .next (s.onDevR fun m d =>
      if !d.admits || decide (2 ≤ d.adm.examined) || (!d.backlog && decide (4 ≤ d.dueCount 3)) then d else d.examineNext m far) := rfl

theorem exec_waybillExamine_of_not {s : State} (h : ¬s.dev.mayExamine) (far : FarExec) : exec (.waybillExamine far) s = .next s := by
  rw [Dev.mayExamine_iff, Bool.not_eq_false] at h
  rw [exec_waybillExamine, State.onDevR, if_pos h]

theorem exec_waybillExamine_of_may {s : State} (h : s.dev.mayExamine) (far : FarExec) :
    exec (.waybillExamine far) s = .next { s with dev := s.dev.examineNext s.store far } := by
  rw [Dev.mayExamine_iff, ← Bool.not_eq_true] at h
  rw [exec_waybillExamine, State.onDevR, if_neg h]

theorem Dev.examineNext_of_turn {d : Dev} {m : List Host.Cell} {far : FarExec} {j : Nat} {b : List Word} {rest : List (List Word)}
    (hturn : d.nextRing d.adm.rrExam (d.examinable m far) = some j) (hready : d.readyOf j = b :: rest) :
    d.examineNext m far = (d.taken j rest).judged m j b far := by
  simp only [Dev.examineNext, hturn, hready]

/-! ## The checks of Table JOB-5 -/

theorem not_of_refuses_eq_none {c : Prop} [Decidable c] {r : Reason} {n : Nat} (h : (if c then refuse r n else none) = none) : ¬c := by
  intro hc
  simp [hc, refuse] at h

theorem of_passes_eq_none {c : Prop} [Decidable c] {r : Reason} {n : Nat} (h : (if c then none else refuse r n) = none) : c := by
  by_contra hc
  simp [hc, refuse] at h

/-- The expected sequence is the only one that check 2 lets pass. -/
theorem Dev.chkSeq_eq_none {d : Dev} {j n : Nat} (h : d.chkSeq j n = none) : n = d.num (R.JR_NEXTSEQ j) := by
  by_contra hne
  rw [Dev.chkSeq, if_neg hne] at h
  split at h <;> simp [refuse] at h

/-- Check 2 answers any other sequence inside the ALREADY window with ALREADY. -/
theorem Dev.chkSeq_of_inWindow {d : Dev} {j n : Nat} {e : WinEntry} (hne : n ≠ d.num (R.JR_NEXTSEQ j))
    (h : ((mget [] d.adm.win j).take (d.winLen j)).find? (fun e => e.rseq == n) = some e) :
    ∃ a, d.chkSeq j n = some a ∧ a.typ = 2 ∧ a.reason = 0x0002 ∧ a.hm = e.hm := by
  rw [Dev.chkSeq, if_neg hne, h]
  exact ⟨_, rfl, rfl, rfl, rfl⟩

/-- What the checks leave of a waybill that passes them all. -/
structure Dev.PassesChecks (d : Dev) (m : List Host.Cell) (j : Nat) (b : List Word) (far : FarExec) : Prop where
  bound : d.flag (F.JR_BIND_VALID j) = true
  hallmark : d.adm.nextHm < 2 ^ 48
  expected : (b.getD 0 0).toNat = d.num (R.JR_NEXTSEQ j)
  format : d.formatOk j b (d.execFacts m j b far).calendar = true
  token : 10 ^ 9 ≤ d.adm.tokens
  room : d.jobs.length < 65536

theorem Dev.passesChecks_of_none {d : Dev} {m : List Host.Cell} {j : Nat} {b : List Word} {far : FarExec}
    (h : d.examineAnswer m j b far = none) : d.PassesChecks m j b far := by
  simp only [Dev.examineAnswer, Option.orElse_eq_none] at h
  obtain ⟨hstate, hseq, hformat, -, -, -, -, -, -, hbusy⟩ := h
  have hbound := not_of_refuses_eq_none hstate
  have hroom := not_of_refuses_eq_none hbusy
  simp only [Bool.or_eq_true, not_or, Bool.not_eq_true', Bool.not_eq_false, decide_eq_true_eq, Nat.not_le, Nat.not_lt] at hbound hroom
  obtain ⟨hvalid, hleft⟩ := hbound
  obtain ⟨hjobs, htoken, -, -⟩ := hroom
  exact ⟨hvalid, hleft, Dev.chkSeq_eq_none hseq, of_passes_eq_none hformat, htoken, hjobs⟩

/-- While hallmarks are left, a bound ring answers with its check of the sequence first. -/
theorem Dev.examineAnswer_of_chkSeq {d : Dev} {m : List Host.Cell} {j : Nat} {b : List Word} {far : FarExec} {a : Answer}
    (hbound : d.flag (F.JR_BIND_VALID j) = true) (hhm : d.adm.nextHm < 2 ^ 48) (h : d.chkSeq j (b.getD 0 0).toNat = some a) :
    d.examineAnswer m j b far = some a := by
  have hstate : ¬((!d.flag (F.JR_BIND_VALID j) || decide (2 ^ 48 ≤ d.adm.nextHm)) = true) := by simpa [hbound] using hhm
  simp only [Dev.examineAnswer, if_neg hstate, h]
  rfl

/-! ## An acceptance (R322, R328, R329, R379) -/

/-- The job that an accepted waybill makes. -/
def Dev.acceptedJob (d : Dev) (j : Nat) (b : List Word) : Job :=
  { ring := j, rseq := (b.getD 0 0).toNat, hm := d.adm.nextHm, tag := slice (b.getD 1 0) 31 16, cls := slice (b.getD 1 0) 9 8, body := b,
    exec := d.fld (F.JR_BIND_EXEC_POS j), acceptBn := d.now, dual := d.ldg.dual }

/-- Its ACCEPT record. -/
def Dev.acceptRec (d : Dev) (j : Nat) (b : List Word) : Rec :=
  { typ := 0x10, hm := d.adm.nextHm, ring := j, pos := d.fld (F.JR_BIND_EXEC_POS j), bn := d.now,
    byteA := slice (b.getD 1 0) 9 8 + (if d.ldg.dual then 4 else 0), w5 := (b.getD 0 0).toNat, w6 := slice (b.getD 1 0) 31 16 }

/-- The registers that an acceptance writes. -/
def acceptRegs (j : Nat) : List Nat := [R.JR_NEXTSEQ j, R.JR_LASTHM_LO j, R.JR_LASTHM_HI j, R.JR_IK_NEXTHM_LO, R.JR_IK_NEXTHM_HI]

theorem Dev.regsBut.setNum2 {d e : Dev} {l : List Nat} (h : d.regsBut e l) {lo hi : Nat} (hlo : lo ∈ l) (hhi : hi ∈ l) (v : Nat) :
    d.regsBut (e.setNum2 lo hi v) l := (h.setNum hlo _).setNum hhi _

theorem Dev.num_setNum2_ne (d : Dev) {lo hi a : Nat} (hlo : a ≠ lo) (hhi : a ≠ hi) (v : Nat) : (d.setNum2 lo hi v).num a = d.num a :=
  ((Dev.regsBut.refl d [lo, hi]).setNum2 (by simp) (by simp) v).num (by simp [hlo, hhi])

theorem Dev.jobs_accept (d : Dev) (j : Nat) (b : List Word) : (d.accept j b).jobs = d.jobs ++ [d.acceptedJob j b] := rfl

theorem Dev.ldg_accept (d : Dev) (j : Nat) (b : List Word) :
    (d.accept j b).ldg = { d.ldg with queue := d.ldg.queue ++ [d.dueItem 3 [d.acceptRec j b]] } := Dev.ldg_dueRec _ _ _

theorem Dev.adm_accept (d : Dev) (j : Nat) (b : List Word) :
    (d.accept j b).adm.nextHm = d.adm.nextHm + 1 ∧ (d.accept j b).adm.tokens = d.adm.tokens - 10 ^ 9 ∧
    (d.accept j b).adm.ready = d.adm.ready := ⟨rfl, rfl, rfl⟩

/-- The registers of the accepting device, before its record falls due. -/
theorem Dev.regs_accept (d : Dev) (j : Nat) (b : List Word) :
    (d.accept j b).regs = (((d.setNum (R.JR_NEXTSEQ j) (((b.getD 0 0).toNat + 1) % 2 ^ 32)).setNum2 (R.JR_LASTHM_LO j) (R.JR_LASTHM_HI j)
      d.adm.nextHm).setNum2 R.JR_IK_NEXTHM_LO R.JR_IK_NEXTHM_HI ((d.adm.nextHm + 1) % 2 ^ 48)).regs := rfl

theorem Dev.regsBut_accept (d : Dev) (j : Nat) (b : List Word) : d.regsBut (d.accept j b) (acceptRegs j) :=
  ((((Dev.regsBut.refl d (acceptRegs j)).setNum (by simp [acceptRegs]) _).setNum2 (by simp [acceptRegs]) (by simp [acceptRegs]) _).setNum2
    (by simp [acceptRegs]) (by simp [acceptRegs]) _).trans (.of_regs (d.regs_accept j b) _)

theorem Dev.nextSeq_accept (d : Dev) (j : Nat) (b : List Word) :
    (d.accept j b).num (R.JR_NEXTSEQ j) = ((b.getD 0 0).toNat + 1) % 2 ^ 32 := by
  rw [(Dev.regsBut.of_regs (d.regs_accept j b) []).num (by simp), Dev.num_setNum2_ne, Dev.num_setNum2_ne, Dev.num_setNum, Nat.mod_mod]
  all_goals simp only [R.JR_NEXTSEQ, R.JR_LASTHM_LO, R.JR_LASTHM_HI, R.JR_IK_NEXTHM_LO, R.JR_IK_NEXTHM_HI]; omega

/-! ## An answer (R320, R346) -/

/-- The entry that an answer puts in line. -/
def Dev.answerEntry (d : Dev) (j : Nat) (b : List Word) (a : Answer) : CqEntry :=
  { words := entryWords (b.getD 0 0).toNat a.hm j a.typ a.reason (slice (b.getD 1 0) 31 16) d.now a.d0 0, lpos := d.headPos,
    durable := false }

/-- A refusal shows its reason and is counted. -/
def Dev.refusalShown (d : Dev) (j : Nat) (r : Reason) : Dev := (d.setFld (F.JR_REFLAST_REASON j) r.toNat).addSat F.JR_IK_REFCNT_REFUSALS 1

theorem Dev.answer_eq (d : Dev) (j : Nat) (b : List Word) (a : Answer) :
    d.answer j b a = if a.typ = 3 then (d.queueEntry (d.ringCq j) (d.answerEntry j b a)).refusalShown j a.reason
      else d.queueEntry (d.ringCq j) (d.answerEntry j b a) := rfl

theorem Dev.wait_queueEntry (d : Dev) (q : Nat) (e : CqEntry) : ((d.queueEntry q e).cq q).wait = (d.cq q).wait ++ [e] := by
  rw [Dev.queueEntry, Dev.cq_setCq_same]

theorem Dev.refusalShown_keeps (d : Dev) (j : Nat) (r : Reason) :
    (d.refusalShown j r).jobs = d.jobs ∧ (d.refusalShown j r).adm = d.adm ∧ (d.refusalShown j r).ldg = d.ldg ∧
    (d.refusalShown j r).hst = d.hst := by simp [Dev.refusalShown]

theorem Dev.regsBut_refusalShown (d : Dev) (j : Nat) (r : Reason) :
    d.regsBut (d.refusalShown j r) [(F.JR_REFLAST_REASON j).a, F.JR_IK_REFCNT_REFUSALS.a] :=
  ((Dev.regsBut.refl d _).setFld (by simp) _).setFld (by simp) _

theorem Dev.reason_refusalShown (d : Dev) (j : Nat) (r : Reason) : (d.refusalShown j r).fld (F.JR_REFLAST_REASON j) = r.toNat := by
  have hapart : R.JR_REFLAST j ≠ R.JR_IK_REFCNT := by simp only [R.JR_REFLAST, R.JR_IK_REFCNT]; omega
  rw [Dev.refusalShown, Dev.addSat, Dev.fld_setFld_ne _ _ _ _ (show 15 < 32 by decide) (.inl hapart),
    Dev.fld_setFld_of_lt _ (show 15 < 32 by decide) r.isLt]

/-- What an answer leaves: its entry in line, and the reason of a refusal. -/
structure Dev.Answered (d e : Dev) (j : Nat) (b : List Word) (a : Answer) : Prop where
  jobs : e.jobs = d.jobs
  adm : e.adm = d.adm
  ldg : e.ldg = d.ldg
  wait : (e.cq (d.ringCq j)).wait = (d.cq (d.ringCq j)).wait ++ [d.answerEntry j b a]
  reason : a.typ = 3 → e.fld (F.JR_REFLAST_REASON j) = a.reason.toNat
  regs : d.regsBut e [(F.JR_REFLAST_REASON j).a, F.JR_IK_REFCNT_REFUSALS.a]

theorem Dev.answered_answer (d : Dev) (j : Nat) (b : List Word) (a : Answer) : d.Answered (d.answer j b a) j b a := by
  have hwait := d.wait_queueEntry (d.ringCq j) (d.answerEntry j b a)
  rw [Dev.answer_eq]
  split
  case isTrue =>
    obtain ⟨hjobs, hadm, hldg, hhst⟩ := (d.queueEntry (d.ringCq j) (d.answerEntry j b a)).refusalShown_keeps j a.reason
    exact ⟨hjobs, hadm, hldg, by rw [Dev.cq_congr hhst, hwait], fun _ => Dev.reason_refusalShown _ j _, Dev.regsBut_refusalShown _ j _⟩
  case isFalse h => exact ⟨rfl, rfl, rfl, hwait, fun h' => absurd h' h, .refl _ _⟩

/-- Settles O37: the waybill of the ring in turn passes every check and is accepted, or draws an answer. -/
theorem waybillAcceptedOrAnswered : Obligations.WaybillAcceptedOrAnswered := by
  unfold Obligations.WaybillAcceptedOrAnswered
  intro s far may rs
  refine ⟨fun hnot => exec_waybillExamine_of_not hnot far, fun j b rest hmay hturn hready => ?_⟩
  intro adm d seq
  have hexec := exec_waybillExamine_of_may hmay far
  rw [Dev.examineNext_of_turn hturn hready] at hexec
  refine ⟨fun hpass => ?accepted, fun a ha => ?answered, fun e he hne hbound hhm => ?already⟩
  case accepted =>
    have hchecks := Dev.passesChecks_of_none hpass
    obtain ⟨hnextHm, htokens, hkept⟩ := d.adm_accept j b
    have htaken : (d.accept j b).readyOf j = rest := by
      rw [Dev.readyOf, hkept]
      exact (mget_mset _ _ _ _ _).trans (if_pos rfl)
    rw [show (s.dev.taken j rest).judged s.store j b far = d.accept j b from Dev.judged_of_none hpass] at hexec
    exact ⟨_, d.acceptedJob j b, d.dueItem 3 [d.acceptRec j b], hexec, d.jobs_accept j b, rfl, rfl, rfl, rfl, rfl, rfl, rfl, hnextHm,
      htaken, htokens, d.nextSeq_accept j b, d.ldg_accept j b, rfl, rfl, d.regsBut_accept j b, hchecks.expected, hchecks.bound, hchecks.format,
      hchecks.token, hchecks.room, hchecks.hallmark⟩
  case answered =>
    obtain ⟨hjobs, hadm, hldg, hwait, hreason, hregs⟩ := d.answered_answer j b a
    rw [show (s.dev.taken j rest).judged s.store j b far = d.answer j b a from Dev.judged_of_some ha] at hexec
    exact ⟨_, d.answerEntry j b a, hexec, hjobs, hadm, hldg, hwait, rfl, hreason, hregs⟩
  case already =>
    obtain ⟨a, ha, hkind⟩ := Dev.chkSeq_of_inWindow (d := d) hne he
    exact ⟨a, Dev.examineAnswer_of_chkSeq (d := d) hbound hhm ha, hkind⟩

end Sys2Proof.Machine
end

section
/-!
PROOF. Outcomes and the Seal phase (R341, R358, R377, R381, R382): what the end of an armed job leaves, when its STRUCK record and its TERM
record fall due, and which groups a Seal phase takes.
-/
namespace Sys2Proof.Machine
open Sys2Proof

/-! ## The job with a hallmark -/

theorem Dev.hm_of_job? {d : Dev} {h : Nat} {j : Job} (hj : d.job? h = some j) : j.hm = h := by
  simpa using List.find?_some hj

theorem Dev.job?_congr {d e : Dev} (h : e.jobs = d.jobs) (n : Nat) : e.job? n = d.job? n := by rw [Dev.job?, h, Dev.job?]

/-- A change that keeps hallmarks changes the job that the hallmark names. -/
theorem Dev.job?_modJob {d : Dev} {h : Nat} {j : Job} {f : Job → Job} (hj : d.job? h = some j) (hf : ∀ k, (f k).hm = k.hm) :
    (d.modJob h f).job? h = some (f j) := by
  have hsame : ((fun k : Job => k.hm == h) ∘ fun k => if k.hm == h then f k else k) = fun k => k.hm == h := by
    funext k
    dsimp only [Function.comp]
    split <;> simp [*]
  rw [Dev.job?, Dev.modJob, List.find?_map, hsame, show d.jobs.find? (fun k => k.hm == h) = some j from hj, Option.map_some,
    if_pos (beq_iff_eq.2 (Dev.hm_of_job? hj))]

theorem Dev.mem_jobs_modJob_of_ne {d : Dev} {h : Nat} {k : Job} (hk : k ∈ d.jobs) (hne : k.hm ≠ h) (f : Job → Job) :
    k ∈ (d.modJob h f).jobs :=
  List.mem_map.2 ⟨k, hk, if_neg (by simpa using hne)⟩

/-! ## The end of an armed job (R381, R414) -/

theorem Dev.reg_setNum_ne (d : Dev) {a b : Nat} (h : b ≠ a) (v : Nat) : (d.setNum a v).reg b = d.reg b := by
  rw [Dev.setNum, Dev.reg_setReg, if_neg h]

section releases
variable {a : Nat}

/-- Counting a transition writes no register below the output registers. -/
theorem Dev.reg_outTrans_of_low (ha : a < 0x34000) (d : Dev) (n : Nat) (was : Option Bool) : (d.outTrans n was).reg a = d.reg a := by
  have hcount : a ≠ (F.PO_EDGECNT_TRANSITIONS n).a := by simp only [R.PO_EDGECNT]; omega
  unfold Dev.outTrans
  split
  · split
    · rfl
    · exact Dev.reg_setFld_ne _ _ _ _ hcount
  · rfl

theorem Dev.reg_closeTallies_of_low (ha : a < 0x34000) (d : Dev) (j : Job) (c : Bool) : (d.closeTallies j c).reg a = d.reg a := by
  refine foldl_keeps _ (fun d => d.reg a) (fun d tv => ?_) _ d
  have hlast : a ≠ R.TAL_LAST tv.1 := by simp only [R.TAL_LAST]; omega
  have hvalid : a ≠ (F.TAL_STAT_LAST_VALID tv.1).a := by simp only [R.TAL_STAT]; omega
  have hgap : a ≠ (F.TAL_GAPCNT_VALUES tv.1).a := by simp only [R.TAL_GAPCNT]; omega
  dsimp only
  split
  · rfl
  · split
    · split
      · exact (Dev.reg_setFlag_ne _ _ _ _ hvalid).trans (Dev.reg_setNum_ne _ hlast _)
      · rfl
    · exact Dev.reg_setFld_ne _ _ _ _ hgap

theorem Dev.reg_releaseLanes_of_low (ha : a < 0x34000) (d : Dev) (h : Nat) : (d.releaseLanes h).reg a = d.reg a := by
  refine (foldl_keeps _ (fun d => d.reg a) (fun d n => ?_) _ _).trans rfl
  dsimp only
  split
  · rfl
  · split <;> exact Dev.reg_outTrans_of_low ha _ _ _

theorem Dev.reg_releaseGranules_of_low (ha : a < 0x34000) (d : Dev) (j : Job) : (d.releaseGranules j).reg a = d.reg a := by
  refine foldl_keeps _ (fun d => d.reg a) (fun d p => ?_) _ d
  have hread : a ≠ R.SP_SBRD p.sp := by simp only [R.SP_SBRD]; omega
  dsimp only
  split
  · rfl
  · split
    · exact Dev.reg_setNum_ne _ hread _
    · rfl

end releases

/-- The job with its outcome. -/
def Job.ended (o : Outcome) (j : Job) : Job := { j with st := stOfTyp o.typ, out := some o, closing := none }

/-- The device once a job has its outcome and holds no tally, lane, granule or activation. -/
def Dev.jobReleased (d : Dev) (j : Job) (o : Outcome) : Dev :=
  let e := (((d.modJob j.hm (Job.ended o)).closeTallies j (o.typ != 6)).releaseLanes j.hm).releaseGranules j
  { e with sp := { e.sp with acts := e.sp.acts.filter (fun a => a.hm != j.hm) } }

theorem Dev.jobReleased_keeps (d : Dev) (j : Job) (o : Outcome) :
    (d.jobReleased j o).jobs = (d.modJob j.hm (Job.ended o)).jobs ∧ (d.jobReleased j o).ldg = d.ldg ∧
    (d.jobReleased j o).boot = d.boot := by simp [Dev.jobReleased]

theorem Dev.pos_jobReleased (d : Dev) (j : Job) (o : Outcome) : (d.jobReleased j o).pos = d.pos := by
  obtain ⟨-, -, hboot⟩ := d.jobReleased_keeps j o
  have hstrap : (d.jobReleased j o).reg R.SUP_RCODE = d.reg R.SUP_RCODE := by
    have hlow : R.SUP_RCODE < 0x34000 := by decide
    exact (Dev.reg_releaseGranules_of_low hlow _ _).trans <| (Dev.reg_releaseLanes_of_low hlow _ _).trans <|
      Dev.reg_closeTallies_of_low hlow _ _ _
  rw [Dev.pos, hboot, Dev.fld, hstrap, Dev.pos, Dev.fld]

/-- The ENDED record of an outcome: STRUCK, or the type of any other end. -/
def Job.endRec (j : Job) (o : Outcome) : Rec :=
  { typ := if o.typ = 4 then 0x23 else 0x24, hm := j.hm, ring := j.ring, pos := j.exec, bn := o.bn, byteA := if o.typ = 4 then 0 else o.typ,
    w5 := if o.typ = 4 then o.reason.toNat else o.reason.toNat + 2 ^ 16 * (o.d1 % 2 ^ 16), w6 := o.d0 }

/-- An armed job of this device that has no outcome yet ends with a record due. -/
theorem Dev.endJob_of_armed {d : Dev} {j : Job} (hj : d.job? j.hm = some j) (hout : j.out = none) (harmed : j.armed = true)
    (hpos : j.exec = d.pos) (o : Outcome) : d.endJob j.hm o = (d.jobReleased j o).dueRec 2 [j.endRec o] := by
  have hhere : (j.armed && j.exec == (d.jobReleased j o).pos) = true := by rw [Dev.pos_jobReleased]; simp [harmed, hpos]
  have hopen : ¬(j.out.isSome = true) := by simp [hout]
  simp only [Dev.endJob, hj]
  rw [if_neg hopen]
  exact if_pos hhere

/-! ## STRUCK (R341, R381) -/

/-- A job of this device that has struck in full: every part is done, and nothing of it failed. -/
def Dev.struckInFull (d : Dev) (j : Job) : Bool :=
  j.active && j.exec == d.pos && j.resolved && j.armed && j.partsDone && j.flaw.isNone && j.closing.isNone

/-- The beat of the job's last instant has passed, and no clock fault holds the decisions of this beat (Table CLK-3). -/
def Dev.lastPassed (d : Dev) (j : Job) : Bool := !d.clk.jobsDue && decide (beatOf (max j.endAt (j.origin.getD 0)) < d.now)

/-- STRUCK, with the delay of a delayed job. -/
def Job.struckOutcome (j : Job) : Outcome :=
  { typ := 4, reason := if j.delay = 0 then Rsn.ok else Rsn.okDelayed, bn := j.lastBn, d0 := j.delay }

theorem exec_struckSeal {s : State} {hm : BitVec 48} {j : Job} (hj : s.dev.job? hm.toNat = some j) :
    exec (.struckSeal hm) s =
      .next (if s.dev.struckInFull j && s.dev.lastPassed j then { s with dev := s.dev.endJob j.hm j.struckOutcome } else s) := by
  have hguard : (!s.dev.clk.jobsDue && j.active && j.exec == s.dev.pos && j.resolved && j.armed && j.partsDone && j.flaw.isNone &&
      j.closing.isNone && decide (beatOf (max j.endAt (j.origin.getD 0)) < s.dev.now)) =
      (s.dev.struckInFull j && s.dev.lastPassed j) := by
    simp only [Dev.struckInFull, Dev.lastPassed]
    ac_rfl
  change execStruckSeal hm s = _
  simp only [execStruckSeal, State.onDev, hj, hguard, Nat.max_zero]
  split <;> rfl

/-! ## TERM (R358, R382) -/

/-- The TERM record of a job with its outcome. -/
def Job.termRec (j : Job) (o : Outcome) : Rec :=
  { typ := 0x11, hm := j.hm, ring := j.ring, pos := j.exec, bn := o.bn, byteA := o.typ, w5 := o.reason.toNat + 2 ^ 16 * (o.d1 % 2 ^ 16),
    w6 := o.d0 }

/-- The device once the TERM record of a job is due. -/
def Dev.termDue (d : Dev) (j : Job) (o : Outcome) : Dev := (d.dueRec 2 [j.termRec o]).modJob j.hm fun k => { k with term := true }

theorem exec_termSeal {s : State} {hm : BitVec 48} {j : Job} {o : Outcome} (hj : s.dev.job? hm.toNat = some j) (ho : j.out = some o) :
    exec (.termSeal hm) s = .next (if s.dev.isMgr && s.dev.termReady j then { s with dev := s.dev.termDue j o } else s) := by
  change execTermSeal hm s = _
  simp only [execTermSeal, State.onDev, Dev.termSeal, hj, ho]
  split <;> rfl

/-! ## The Seal phase (R376, R377) -/

/-- What a Seal phase takes and what it leaves make up the line again. -/
theorem takeSeals_append (q : List SealItem) : ∀ n, (takeSeals n q).1 ++ (takeSeals n q).2 = q := by
  induction q with
  | nil => exact fun _ => rfl
  | cons x q ih =>
    intro n
    rw [takeSeals]
    split
    · exact congrArg (x :: ·) (ih _)
    · rfl

/-- A Seal phase takes no more records than it has slots. -/
theorem length_takeSeals (q : List SealItem) : ∀ n, ((takeSeals n q).1.flatMap (fun x => x.recs)).length ≤ n := by
  induction q with
  | nil => exact fun n => Nat.zero_le n
  | cons x q ih =>
    intro n
    rw [takeSeals]
    split
    case isTrue hfits =>
      have hrest := ih (n - x.recs.length)
      rw [List.flatMap_cons, List.length_append]
      omega
    case isFalse => exact Nat.zero_le n

/-- Settles O19: a job that has struck in full ends STRUCK with its record due once its last beat has passed, a decided job's TERM record
falls due in its ring's order, and a Seal phase takes a front of the line that fits its slots. -/
theorem outcomesSealedInOrder : Obligations.OutcomesSealedInOrder := by
  unfold Obligations.OutcomesSealedInOrder
  refine ⟨fun s hm j hj hact hexec hres harmed hparts hflaw hclosing hout => ⟨fun hclk hlast => ?struck, fun h => ?held⟩,
    fun s hm j o hj ho => ⟨fun hmgr hready => ?term, fun h => ?notReady⟩, fun q => ⟨length_takeSeals q 4, takeSeals_append q 4⟩⟩
  case struck =>
    have hhm : j.hm = hm.toNat := Dev.hm_of_job? hj
    have hnow : (s.dev.struckInFull j && s.dev.lastPassed j) = true := by simp [Dev.struckInFull, Dev.lastPassed, *]
    have hnext := exec_struckSeal hj
    rw [if_pos hnow, Dev.endJob_of_armed (hhm ▸ hj) hout harmed hexec] at hnext
    obtain ⟨hjobs, hldg, -⟩ := s.dev.jobReleased_keeps j j.struckOutcome
    refine ⟨_, hnext, ⟨Job.ended j.struckOutcome j, ?job, rfl, rfl⟩,
      ⟨(s.dev.jobReleased j j.struckOutcome).dueItem 2 [j.endRec j.struckOutcome], ?record, rfl⟩, fun k hk hne => ?others⟩
    case job => exact (Dev.job?_congr hjobs _).trans (hhm ▸ Dev.job?_modJob (hhm ▸ hj) fun _ => rfl)
    case record => exact (Dev.ldg_dueRec _ _ _).trans (by rw [hldg])
    case others => exact hjobs ▸ Dev.mem_jobs_modJob_of_ne hk (hhm ▸ hne) _
  case held =>
    have hheld : s.dev.lastPassed j = false := by
      rcases h with hclk | hlast
      · simp [Dev.lastPassed, hclk]
      · simp [Dev.lastPassed, Nat.not_lt.2 hlast]
    simp [exec_struckSeal hj, hheld]
  case term =>
    have hnext := exec_termSeal hj ho
    rw [hmgr, hready, Bool.and_self, if_pos rfl] at hnext
    exact ⟨_, s.dev.dueItem 2 [j.termRec o], hnext, rfl, rfl, rfl, rfl⟩
  case notReady => rcases h with h | h <;> simp [exec_termSeal hj ho, h]

end Sys2Proof.Machine
end

section
/-!
PROOF. Format and write-off (R370, R371, R406): what writing a superblock or a checkpoint leaves alone, what a format leaves of the ledger
and of the registers, and how the jobs of a position that is written off end.
-/
namespace Sys2Proof.Machine
open Sys2Proof

/-! ## What writing a superblock or a checkpoint leaves alone -/

@[simp] theorem Dev.ldgRaise_ledger (d : Dev) (r : Reason) :
    (d.ldgRaise r).mram = d.mram ∧ (d.ldgRaise r).jobs = d.jobs ∧ (d.ldgRaise r).adm = d.adm ∧ (d.ldgRaise r).regs = d.regs ∧
    (d.ldgRaise r).ldg.corrupt = d.ldg.corrupt := by
  unfold Dev.ldgRaise; split <;> exact ⟨rfl, rfl, rfl, rfl, rfl⟩

@[simp] theorem Dev.wearBy_ledger (d : Dev) (n : Nat) :
    (d.wearBy n).mram.log = d.mram.log ∧ (d.wearBy n).mram.ckpts = d.mram.ckpts ∧ (d.wearBy n).mram.wdinc = d.mram.wdinc ∧
    (d.wearBy n).jobs = d.jobs ∧ (d.wearBy n).adm = d.adm ∧ (d.wearBy n).ldg.corrupt = d.ldg.corrupt := by
  unfold Dev.wearBy; dsimp only; split <;> split <;> simp

@[simp] theorem Dev.writeCkpt_ledger (d : Dev) :
    d.writeCkpt.mram.log = d.mram.log ∧ d.writeCkpt.mram.wdinc = d.mram.wdinc ∧ d.writeCkpt.jobs = d.jobs ∧
    d.writeCkpt.adm = d.adm ∧ d.writeCkpt.ldg.corrupt = d.ldg.corrupt := by
  simp [Dev.writeCkpt]

@[simp] theorem Dev.writeSuper_ledger (d : Dev) (i : BitVec 64) (b n : Nat) :
    (d.writeSuper i b n).mram.log = d.mram.log ∧ (d.writeSuper i b n).mram.ckpts = d.mram.ckpts ∧
    (d.writeSuper i b n).mram.wdinc = d.mram.wdinc ∧ (d.writeSuper i b n).jobs = d.jobs ∧ (d.writeSuper i b n).adm = d.adm ∧
    (d.writeSuper i b n).ldg.corrupt = d.ldg.corrupt ∧ (d.writeSuper i b n).t = d.t := by
  unfold Dev.writeSuper; dsimp only; split <;> exact ⟨rfl, rfl, rfl, rfl, rfl, rfl, rfl⟩

/-- Every checkpoint in the MRAM was there before, or is the one of this beat. -/
theorem Dev.mem_ckpts_writeCkpt {d : Dev} {c : Ckpt} (h : c ∈ d.writeCkpt.mram.ckpts) : c ∈ d.mram.ckpts ∨ c.bn = d.now := by
  simp only [Dev.writeCkpt, Dev.wearBy_ledger, Dev.setNum2_keeps, List.mem_append, List.mem_filter, List.mem_singleton] at h
  rcases h with ⟨hold, -⟩ | rfl
  · exact .inl hold
  · exact .inr rfl

/-- The registers that a checkpoint shows itself in. -/
def ckptRegs : List Nat := [R.LDG_CKPT_BN_LO, R.LDG_CKPT_BN_HI, R.LDG_WEAR_LO, R.LDG_WEAR_HI, R.LDG_HEAD, R.LDG_REV]

theorem Dev.regsBut.ldgRaise {d e : Dev} {l : List Nat} (h : d.regsBut e l) (r : Reason) : d.regsBut (e.ldgRaise r) l :=
  h.trans (.of_regs (by simp) l)

theorem Dev.regsBut_wearBy (d : Dev) (n : Nat) : d.regsBut (d.wearBy n) ckptRegs := by
  have hwear : ∀ (m : MramSt) (v : Nat), d.regsBut (({ d with mram := m } : Dev).setNum2 R.LDG_WEAR_LO R.LDG_WEAR_HI v) ckptRegs :=
    fun m v => .setNum2 (.of_regs rfl _) (by simp [ckptRegs]) (by simp [ckptRegs]) v
  unfold Dev.wearBy
  dsimp only
  split <;> split
  · exact ((hwear _ _).ldgRaise _).ldgRaise _
  · exact (hwear _ _).ldgRaise _
  · exact (hwear _ _).ldgRaise _
  · exact hwear _ _

theorem Dev.regsBut_writeCkpt (d : Dev) : d.regsBut d.writeCkpt ckptRegs :=
  (Dev.regsBut.setNum2 (.of_regs rfl _) (by simp [ckptRegs]) (by simp [ckptRegs]) _).trans (Dev.regsBut_wearBy _ _)

theorem Dev.regsBut_showHead (d : Dev) : d.regsBut d.showHead ckptRegs :=
  ((Dev.regsBut.refl d _).setNum (by simp [ckptRegs]) _).setNum (by simp [ckptRegs]) _

/-! ## The expected sequences of a formatted ledger (R371) -/

/-- A ring's expected sequence and last hallmark start over. -/
def Dev.ringReset (d : Dev) (j : Nat) : Dev := ((d.setNum (R.JR_NEXTSEQ j) 0).setNum (R.JR_LASTHM_LO j) 0).setNum (R.JR_LASTHM_HI j) 0

theorem Dev.reg_setNum_zero {d : Dev} {a b : Nat} (h : b = a ∨ d.reg b = 0) : (d.setNum a 0).reg b = 0 := by
  rw [Dev.setNum, Dev.reg_setReg]
  split
  case isTrue => rfl
  case isFalse hne => exact h.resolve_left hne

theorem Dev.reg_ringReset {d : Dev} {j a : Nat} (h : a = R.JR_NEXTSEQ j ∨ d.reg a = 0) : (d.ringReset j).reg a = 0 :=
  Dev.reg_setNum_zero (.inr (Dev.reg_setNum_zero (.inr (Dev.reg_setNum_zero h))))

/-- Every ring of the list expects sequence 0; a register that read 0 still does. -/
theorem Dev.reg_foldl_ringReset {a : Nat} {l : List Nat} :
    ∀ {d : Dev}, ((∃ j ∈ l, a = R.JR_NEXTSEQ j) ∨ d.reg a = 0) → (l.foldl Dev.ringReset d).reg a = 0 := by
  induction l with
  | nil => intro d h; simpa using h
  | cons i l ih =>
    intro d h
    refine ih ?_
    rcases h with ⟨j, hj, ha⟩ | hzero
    · rcases List.mem_cons.1 hj with rfl | hj
      · exact .inr (Dev.reg_ringReset (.inl ha))
      · exact .inl ⟨j, hj, ha⟩
    · exact .inr (Dev.reg_ringReset (.inr hzero))

/-- Every job ring expects sequence 0 again. -/
def Dev.ringsReset (d : Dev) : Dev := (List.range 512).foldl Dev.ringReset d

theorem Dev.nextSeq_ringsReset (d : Dev) {j : Nat} (hj : j < 512) : d.ringsReset.reg (R.JR_NEXTSEQ j) = 0 :=
  Dev.reg_foldl_ringReset (.inl ⟨j, List.mem_range.2 hj, rfl⟩)

@[simp] theorem Dev.ringsReset_keeps (d : Dev) :
    d.ringsReset.t = d.t ∧ d.ringsReset.mram = d.mram ∧ d.ringsReset.ldg = d.ldg ∧ d.ringsReset.adm = d.adm ∧
    d.ringsReset.jobs = d.jobs := by
  unfold Dev.ringsReset
  generalize List.range 512 = l
  exact ⟨foldl_keeps ringReset Dev.t (fun _ _ => rfl) l d, foldl_keeps ringReset Dev.mram (fun _ _ => rfl) l d,
    foldl_keeps ringReset Dev.ldg (fun _ _ => rfl) l d, foldl_keeps ringReset Dev.adm (fun _ _ => rfl) l d,
    foldl_keeps ringReset Dev.jobs (fun _ _ => rfl) l d⟩

/-- JR_NEXTSEQ is none of the registers outside the job rings. -/
theorem nextSeq_notMem {l : List Nat} (h : ∀ a ∈ l, a < 0x10000 ∨ 0x20000 ≤ a) (j : Nat) : R.JR_NEXTSEQ j ∉ l := fun hj => by
  have hbeside := h _ hj
  simp only [R.JR_NEXTSEQ] at hbeside
  omega

/-! ## The identity -/

theorem Dev.num2_setNum2 (d : Dev) {lo hi v : Nat} (h : lo ≠ hi) (hv : v < 2 ^ 64) : (d.setNum2 lo hi v).num2 lo hi = v := by
  have hlow : (d.setNum2 lo hi v).num lo = v % 2 ^ 32 := by
    rw [Dev.setNum2, Dev.num, Dev.reg_setNum_ne _ h]
    exact (Dev.num_setNum d lo _).trans (Nat.mod_mod _ _)
  have hhigh : (d.setNum2 lo hi v).num hi = v / 2 ^ 32 := (Dev.num_setNum _ hi _).trans (Nat.mod_eq_of_lt (by omega))
  rw [Dev.num2, hlow, hhigh]
  omega

theorem Dev.sysId_setSysId (d : Dev) (i : BitVec 64) : (d.setSysId i).sysId = i := by
  rw [Dev.sysId, Dev.setSysId, Dev.num2_setNum2 _ (by decide) i.isLt, BitVec.ofNat_toNat, BitVec.setWidth_eq]

theorem Dev.regsBut.sysId {d e : Dev} {l : List Nat} (h : d.regsBut e l) (hlo : R.BT_SYSID_LO ∉ l) (hhi : R.BT_SYSID_HI ∉ l) :
    e.sysId = d.sysId := by
  rw [Dev.sysId, Dev.num2, h.num hlo, h.num hhi, Dev.sysId, Dev.num2]

/-! ## A formatted ledger (R371) -/

/-- What a format at beat `now` leaves under identity i, with `inc` the incarnation. -/
structure Dev.Formatted (e : Dev) (now inc : Nat) (i : BitVec 64) : Prop where
  log : e.mram.log = []
  ckpts : ∀ c ∈ e.mram.ckpts, c.bn = now
  incarnation : e.mram.wdinc = inc
  jobs : e.jobs = []
  hallmark : e.adm.nextHm = 1
  sequences : ∀ j < 512, e.reg (R.JR_NEXTSEQ j) = 0
  sound : e.ldg.corrupt = false
  sysId : e.sysId = i
  blank : e.flag F.LDG_STAT_BLANK = false
  mounted : e.flag F.LDG_STAT_MOUNTED = true

/-- The device without what a format erases. -/
def Dev.erased (d : Dev) : Dev :=
  { d with mram := { d.mram with log := [], ckpts := [], head := 0, rev := d.mram.rev + 1, lastUsed := 0 },
           ldg := { d.ldg with corrupt := false, queue := [], toMirror := [], mirror := [], confirmed := [] },
           adm := { d.adm with nextHm := 1, win := [] }, jobs := [], hst := { d.hst with owed := [] } }

/-- The device with a superblock under its new identity. -/
def Dev.renamed (d : Dev) (i : BitVec 64) : Dev := (d.setSysId i).writeSuper i d.now (d.num R.LDG_MOUNTS)

/-- LDG_STAT and SUP_ROLE show a mounted ledger. -/
def Dev.mountShown (d : Dev) : Dev :=
  (((d.setFlag F.LDG_STAT_BLANK false).setFlag F.LDG_STAT_CORRUPT false).setFlag F.LDG_STAT_MOUNTED true).setFlag
    F.SUP_ROLE_LEDGER_FORMATTED true

theorem Dev.format_eq (d : Dev) (i : BitVec 64) : d.format i = (d.erased.ringsReset.renamed i).mountShown.writeCkpt.showHead := rfl

@[simp] theorem Dev.renamed_keeps (d : Dev) (i : BitVec 64) :
    (d.renamed i).t = d.t ∧ (d.renamed i).mram.log = d.mram.log ∧ (d.renamed i).mram.ckpts = d.mram.ckpts ∧
    (d.renamed i).mram.wdinc = d.mram.wdinc ∧ (d.renamed i).jobs = d.jobs ∧ (d.renamed i).adm = d.adm ∧
    (d.renamed i).ldg.corrupt = d.ldg.corrupt := by
  simp [Dev.renamed, Dev.setSysId]

theorem Dev.sysId_renamed (d : Dev) (i : BitVec 64) : (d.renamed i).sysId = i := Dev.sysId_setSysId d i

theorem Dev.regsBut_renamed (d : Dev) (i : BitVec 64) : d.regsBut (d.renamed i) [R.BT_SYSID_LO, R.BT_SYSID_HI] :=
  (Dev.regsBut.refl d _).setNum2 (by simp) (by simp) _

@[simp] theorem Dev.mountShown_keeps (d : Dev) :
    d.mountShown.t = d.t ∧ d.mountShown.mram = d.mram ∧ d.mountShown.jobs = d.jobs ∧ d.mountShown.adm = d.adm ∧
    d.mountShown.ldg = d.ldg := ⟨rfl, rfl, rfl, rfl, rfl⟩

theorem Dev.regsBut_mountShown (d : Dev) : d.regsBut d.mountShown [R.LDG_STAT, R.SUP_ROLE] :=
  ((((Dev.regsBut.refl d _).setFlag (by simp) _).setFlag (by simp) _).setFlag (by simp) _).setFlag (by simp) _

theorem Dev.blank_mountShown (d : Dev) : d.mountShown.flag F.LDG_STAT_BLANK = false := by
  rw [Dev.mountShown, Dev.flag_setFlag_ne _ _ _ _ (by decide) (by decide), Dev.flag_setFlag_ne _ _ _ _ (by decide) (by decide),
    Dev.flag_setFlag_ne _ _ _ _ (by decide) (by decide), Dev.flag_setFlag_same _ _ _ (by decide) rfl]

theorem Dev.mounted_mountShown (d : Dev) : d.mountShown.flag F.LDG_STAT_MOUNTED = true := by
  rw [Dev.mountShown, Dev.flag_setFlag_ne _ _ _ _ (by decide) (by decide), Dev.flag_setFlag_same _ _ _ (by decide) rfl]

/-- The registers that a format writes after the rings have started over. -/
def formatRegs : List Nat := R.BT_SYSID_LO :: R.BT_SYSID_HI :: R.LDG_STAT :: R.SUP_ROLE :: ckptRegs

/-- What is shown of the first checkpoint. -/
theorem Dev.regsBut_ckptShown (d : Dev) : d.regsBut d.writeCkpt.showHead ckptRegs := d.regsBut_writeCkpt.trans (Dev.regsBut_showHead _)

@[simp] theorem Dev.showHead_keeps (d : Dev) :
    d.showHead.mram = d.mram ∧ d.showHead.jobs = d.jobs ∧ d.showHead.adm = d.adm ∧ d.showHead.ldg = d.ldg := ⟨rfl, rfl, rfl, rfl⟩

theorem Dev.formatted_format (d : Dev) (i : BitVec 64) : (d.format i).Formatted d.now d.mram.wdinc i := by
  rw [Dev.format_eq]
  have hident := Dev.regsBut_renamed d.erased.ringsReset i
  have hmount := Dev.regsBut_mountShown (d.erased.ringsReset.renamed i)
  have hshown := Dev.regsBut_ckptShown (d.erased.ringsReset.renamed i).mountShown
  have hflags : R.LDG_STAT ∉ ckptRegs := by decide
  refine ⟨by simp [Dev.erased], fun c hc => ?ckpts, by simp [Dev.erased], by simp [Dev.erased], by simp [Dev.erased],
    fun j hj => ?sequences, by simp [Dev.erased], ?sysId, (hshown.flag hflags).trans (Dev.blank_mountShown _),
    (hshown.flag hflags).trans (Dev.mounted_mountShown _)⟩
  case ckpts =>
    rcases Dev.mem_ckpts_writeCkpt (by simpa using hc) with hold | hbn
    · simp [Dev.erased] at hold
    · simpa [Dev.now, Dev.erased] using hbn
  case sequences =>
    have hrings : d.erased.ringsReset.regsBut _ formatRegs :=
      ((hident.mono (by decide)).trans (hmount.mono (by decide))).trans (hshown.mono (by decide))
    rw [hrings _ (nextSeq_notMem (by decide) j), Dev.nextSeq_ringsReset _ hj]
  case sysId => rw [hshown.sysId (by decide) (by decide), hmount.sysId (by decide) (by decide), Dev.sysId_renamed]

/-! ## The end of the hold at LDG_CORRUPT, and the result (R370, R402) -/

/-- The registers that the end of a format writes. -/
def releaseRegs : List Nat := R.LDG_STAT :: R.SUP_BOOT :: irqRegs

/-- A format outlives what leaves ledger, jobs and admission alone and shows the same two flags. -/
theorem Dev.Formatted.of_kept {e f : Dev} {now inc : Nat} {i : BitVec 64} (h : e.Formatted now inc i)
    (hkept : f.mram = e.mram ∧ f.jobs = e.jobs ∧ f.adm = e.adm ∧ f.ldg = e.ldg) (hregs : e.regsBut f releaseRegs)
    (hblank : f.flag F.LDG_STAT_BLANK = e.flag F.LDG_STAT_BLANK) (hmounted : f.flag F.LDG_STAT_MOUNTED = e.flag F.LDG_STAT_MOUNTED) :
    f.Formatted now inc i := by
  obtain ⟨hmram, hjobs, hadm, hldg⟩ := hkept
  exact ⟨hmram ▸ h.log, hmram ▸ h.ckpts, hmram ▸ h.incarnation, hjobs ▸ h.jobs, hadm ▸ h.hallmark,
    fun j hj => (hregs _ (nextSeq_notMem (by decide) j)).trans (h.sequences j hj), hldg ▸ h.sound,
    (hregs.sysId (by decide) (by decide)).trans h.sysId, hblank.trans h.blank, hmounted.trans h.mounted⟩

/-- Clearing a cause of a domain other than a head port leaves every job and shows itself in vector 16 only. -/
theorem Dev.clearCauses_of_notHead {k : Nat} (hk : 16 ≤ k) (d : Dev) (q : Reason → Bool) :
    (d.clearCauses k q).jobs = d.jobs ∧ d.regsBut (d.clearCauses k q) irqRegs := by
  unfold Dev.clearCauses
  dsimp only
  split
  · exact ⟨rfl, .refl _ _⟩
  · split
    · rw [if_neg (by simp [Nat.not_lt.2 hk])]
      exact ⟨by simp, (Dev.regsBut.of_regs (by simp) _).trans (Dev.regsBut_logFence _ _ _ _)⟩
    · exact ⟨by simp, .of_regs (by simp) _⟩

/-- The ledger's domain without its cause LDG_CORRUPT, and SUP_BOOT without a reason. -/
def Dev.corruptReleased (d : Dev) : Dev := (d.clearCauses domLdg fun r => r == Rsn.ldgCorrupt).setFld F.SUP_BOOT_REASON 0

theorem Dev.Formatted.corruptReleased {e : Dev} {now inc : Nat} {i : BitVec 64} (h : e.Formatted now inc i) :
    e.corruptReleased.Formatted now inc i := by
  obtain ⟨hjobs, hirq⟩ := Dev.clearCauses_of_notHead (by decide : 16 ≤ domLdg) e fun r => r == Rsn.ldgCorrupt
  have hregs : e.regsBut e.corruptReleased (R.SUP_BOOT :: irqRegs) := (hirq.mono (by simp)).setFld (by simp) 0
  exact h.of_kept ⟨by simp [Dev.corruptReleased], by simp [Dev.corruptReleased, hjobs], by simp [Dev.corruptReleased],
    by simp [Dev.corruptReleased]⟩ (hregs.mono (by decide)) (hregs.flag (by decide)) (hregs.flag (by decide))

theorem Dev.regsBut_ldgResult (d : Dev) (r : Reason) : d.regsBut (d.ldgResult r) [R.LDG_STAT] := (Dev.regsBut.refl d _).setFld (by simp) _

theorem Dev.result_ldgResult (d : Dev) (r : Reason) : (d.ldgResult r).fld F.LDG_STAT_RESULT = r.toNat :=
  Dev.fld_setFld_of_lt d (by decide) r.isLt

theorem Dev.Formatted.ldgResult {e : Dev} {now inc : Nat} {i : BitVec 64} (h : e.Formatted now inc i) (r : Reason) :
    (e.ldgResult r).Formatted now inc i :=
  h.of_kept ⟨rfl, rfl, rfl, rfl⟩ ((e.regsBut_ldgResult r).mono (by decide)) (Dev.flag_setFld_ne _ _ _ _ (by decide) (by decide))
    (Dev.flag_setFld_ne _ _ _ _ (by decide) (by decide))

/-! ## FORMAT (R370, R371) -/

/-- The identity that a format gives: a new one on a manager, the ring's on any other device. -/
def Dev.formatId (d : Dev) : BitVec 64 := if d.isMgr then Config.newSysId d.draws else d.sysId

/-- The device with its key used and a number drawn. -/
def Dev.keyUsed (d : Dev) : Dev := { d with ldg := { d.ldg with keyBn := none }, draws := d.draws + 1 }

/-- The device once a keyed format is done. -/
def Dev.formatDone (d : Dev) : Dev :=
  (if d.ldg.corrupt then (d.keyUsed.format d.formatId).corruptReleased else d.keyUsed.format d.formatId).ldgResult Rsn.ok

theorem Dev.cmdFormat_of_keyed {d : Dev} (hkey : d.ldg.keyBn = some d.now) (hmay : d.mayFormat = true) (hfree : d.boot.conflict = false) :
    d.cmdFormat = d.formatDone := by
  have hheld : ¬d.boot.conflict = true := by simp [hfree]
  rw [Dev.cmdFormat, if_pos ⟨hkey, hmay⟩]
  exact if_neg hheld

theorem Dev.cmdFormat_of_refused {d : Dev} (h : ¬(d.ldg.keyBn = some d.now ∧ d.mayFormat = true)) :
    d.cmdFormat = d.ldgResult Rsn.refState := if_neg h

theorem Dev.mayFormat_iff {d : Dev} (hfree : d.boot.conflict = false) :
    d.mayFormat = true ↔ d.pstate = 1 ∨ d.pstate = 5 ∨ d.ldg.corrupt = true := by
  simp [Dev.mayFormat, hfree, or_assoc]

theorem Dev.formatted_formatDone (d : Dev) : d.formatDone.Formatted d.now d.mram.wdinc d.formatId := by
  have hformat : (d.keyUsed.format d.formatId).Formatted d.now d.mram.wdinc d.formatId := Dev.formatted_format d.keyUsed _
  unfold Dev.formatDone
  split
  · exact hformat.corruptReleased.ldgResult _
  · exact hformat.ldgResult _

theorem exec_ldgFormat_of_pass {s : State} {p : Port} (h : s.dev.gate p R.LDG_CMD = .pass) :
    exec (.ldgFormat p) s = .next { s with dev := s.dev.cmdFormat } := by
  change execLdgFormat p s = _
  rw [execLdgFormat, State.onDev, Dev.viaPort_of_pass h]
  rfl

/-! ## The end of a job that has no ARMED group (R381) -/

theorem Dev.reportEnd_of_mgr {d : Dev} (h : d.isMgr = true) (hm : Nat) : d.reportEnd hm = d := by
  unfold Dev.reportEnd
  split
  · rfl
  · split
    · rfl
    · exact if_pos (by simp [h])

/-- The ARMED group of a job falls out of the line. -/
def Dev.armedDropped (d : Dev) (hm : Nat) : Dev :=
  { d with ldg := { d.ldg with queue := d.ldg.queue.filter fun q => !q.recs.any fun r => r.typ == 0x20 && r.hm == hm } }

/-- On a manager a job without an ARMED group ends without a record. -/
theorem Dev.endJob_of_unarmed {d : Dev} {j : Job} (hj : d.job? j.hm = some j) (hout : j.out = none) (harmed : j.armed = false)
    (hmgr : d.isMgr = true) (o : Outcome) : d.endJob j.hm o = (d.jobReleased j o).armedDropped j.hm := by
  have hopen : ¬(j.out.isSome = true) := by simp [hout]
  have hbare : ¬((j.armed && j.exec == (d.jobReleased j o).pos) = true) := by simp [harmed]
  obtain ⟨-, -, hboot⟩ := d.jobReleased_keeps j o
  have hmgr' : ((d.jobReleased j o).armedDropped j.hm).isMgr = true := by
    rw [← hmgr, Dev.isMgr, Dev.isMgr, ← hboot]; rfl
  simp only [Dev.endJob, hj]
  rw [if_neg hopen]
  exact (if_neg hbare).trans (Dev.reportEnd_of_mgr hmgr' _)

/-! ## The jobs of a position written off (R406) -/

/-- The job without its ARMED group. -/
def Job.disarmed (j : Job) : Job := { j with armed := false }

/-- UNCONFIRMED, with the executor lost. -/
def lossOutcome (bn : Nat) : Outcome := { typ := 7, reason := Rsn.uncExecutorLost, bn := bn }

/-- The job as the loss of its executor leaves it. -/
def Job.lost (bn : Nat) (j : Job) : Job := Job.ended (lossOutcome bn) j.disarmed

/-- The job once the jobs with the hallmarks of l are lost. -/
def Job.lostIn (l : List Nat) (bn : Nat) (j : Job) : Job := if j.hm ∈ l then j.lost bn else j

theorem Job.hm_lostIn (l : List Nat) (bn : Nat) (j : Job) : (j.lostIn l bn).hm = j.hm := by
  unfold Job.lostIn; split <;> rfl

theorem Job.lostIn_of_notMem {l : List Nat} {j : Job} (h : j.hm ∉ l) (bn : Nat) : j.lostIn l bn = j := if_neg h

theorem Job.lostIn_nil (bn : Nat) (j : Job) : j.lostIn [] bn = j := Job.lostIn_of_notMem List.not_mem_nil bn

theorem Job.lostIn_cons {h : Nat} {l : List Nat} (hl : h ∉ l) (bn : Nat) (j : Job) :
    (j.lostIn [h] bn).lostIn l bn = j.lostIn (h :: l) bn := by
  by_cases hj : j.hm = h
  · rw [Job.lostIn_of_notMem (by rw [Job.hm_lostIn, hj]; exact hl)]
    simp [Job.lostIn, hj]
  · have hkept : j.lostIn [h] bn = j := Job.lostIn_of_notMem (by simpa using hj) bn
    rw [hkept]
    simp [Job.lostIn, hj]

/-- The job with a hallmark ends with its executor lost. -/
def Dev.jobLost (d : Dev) (hm : Nat) : Dev := (d.modJob hm Job.disarmed).endJob hm (lossOutcome d.now)

/-- What the end of the jobs with the hallmarks of l leaves: each of them lost, any other job as it was, and every record in line but
those of ARMED groups. -/
structure Dev.JobsLost (d e : Dev) (l : List Nat) : Prop where
  jobs : e.jobs = d.jobs.map (Job.lostIn l d.now)
  writtenOff : e.ldg.writtenOff = d.ldg.writtenOff
  queue : ∀ q ∈ d.ldg.queue, (∀ r ∈ q.recs, r.typ ≠ 0x20) → q ∈ e.ldg.queue
  boot : e.boot = d.boot
  now : e.now = d.now

theorem Dev.modJob_ended_disarmed (d : Dev) (h bn : Nat) :
    ((d.modJob h Job.disarmed).modJob h (Job.ended (lossOutcome bn))).jobs = d.jobs.map (Job.lostIn [h] bn) := by
  rw [Dev.modJob, Dev.modJob, List.map_map]
  refine List.map_congr_left fun k _ => ?_
  by_cases hk : k.hm = h
  · simp [Job.lostIn, Job.lost, Job.disarmed, hk]
  · simp [Job.lostIn, hk]

/-- On a manager an open job ends lost, and nothing but its ARMED group leaves the line. -/
theorem Dev.jobsLost_jobLost {d : Dev} {j : Job} (hj : d.job? j.hm = some j) (hout : j.out = none) (hmgr : d.isMgr = true) :
    d.JobsLost (d.jobLost j.hm) [j.hm] := by
  have hfound : (d.modJob j.hm Job.disarmed).job? j.disarmed.hm = some j.disarmed := Dev.job?_modJob hj fun _ => rfl
  have hend : d.jobLost j.hm = ((d.modJob j.hm Job.disarmed).jobReleased j.disarmed (lossOutcome d.now)).armedDropped j.hm :=
    Dev.endJob_of_unarmed hfound hout rfl hmgr _
  obtain ⟨hjobs, hldg, -⟩ := (d.modJob j.hm Job.disarmed).jobReleased_keeps j.disarmed (lossOutcome d.now)
  refine ⟨?jobs, ?writtenOff, fun q hq hrecs => ?queue, ?boot, ?now⟩
  case jobs => rw [hend]; exact hjobs.trans (d.modJob_ended_disarmed j.hm d.now)
  case writtenOff => rw [hend]; exact (congrArg LdgSt.writtenOff hldg :)
  case queue =>
    rw [hend]
    refine List.mem_filter.2 ⟨hldg ▸ hq, ?_⟩
    simpa using fun r hr htyp => absurd htyp (hrecs r hr)
  case boot => simp [Dev.jobLost]
  case now => simp [Dev.jobLost, Dev.now]

theorem Dev.JobsLost.isMgr {d e : Dev} {l : List Nat} (h : d.JobsLost e l) : e.isMgr = d.isMgr := by
  rw [Dev.isMgr, h.boot, Dev.isMgr]

/-- A job whose hallmark is not among the lost ones is still found. -/
theorem Dev.JobsLost.job? {d e : Dev} {l : List Nat} (hl : d.JobsLost e l) {h : Nat} {j : Job} (hj : d.job? h = some j) (hh : h ∉ l) :
    e.job? h = some j := by
  have hsame : ((fun k : Job => k.hm == h) ∘ Job.lostIn l d.now) = fun k => k.hm == h :=
    funext fun k => congrArg (· == h) (Job.hm_lostIn l d.now k)
  rw [Dev.job?, hl.jobs, List.find?_map, hsame, show d.jobs.find? (fun k => k.hm == h) = some j from hj, Option.map_some,
    Job.lostIn_of_notMem (Dev.hm_of_job? hj ▸ hh)]

theorem Dev.JobsLost.cons {d e f : Dev} {h : Nat} {l : List Nat} (hh : h ∉ l) (hfirst : d.JobsLost e [h]) (hrest : e.JobsLost f l) :
    d.JobsLost f (h :: l) where
  jobs := by
    rw [hrest.jobs, hfirst.jobs, hfirst.now, List.map_map]
    exact List.map_congr_left fun k _ => Job.lostIn_cons hh d.now k
  writtenOff := hrest.writtenOff.trans hfirst.writtenOff
  queue := fun q hq hrecs => hrest.queue q (hfirst.queue q hq hrecs) hrecs
  boot := hrest.boot.trans hfirst.boot
  now := hrest.now.trans hfirst.now

/-- The open jobs of a list of hallmarks end one after the other. -/
theorem Dev.jobsLost_foldl {l : List Nat} (hl : l.Nodup) :
    ∀ {d : Dev}, d.isMgr = true → (∀ h ∈ l, ∃ j, d.job? h = some j ∧ j.out = none) → d.JobsLost (l.foldl Dev.jobLost d) l := by
  induction l with
  | nil =>
    intro d _ _
    refine ⟨?_, rfl, fun q hq _ => hq, rfl, rfl⟩
    rw [funext (Job.lostIn_nil d.now), List.map_id']; rfl
  | cons h l ih =>
    intro d hmgr hopen
    obtain ⟨hh, hrest⟩ := List.nodup_cons.1 hl
    obtain ⟨j, hj, hout⟩ := hopen h (by simp)
    obtain rfl := Dev.hm_of_job? hj
    have hfirst := Dev.jobsLost_jobLost hj hout hmgr
    refine hfirst.cons hh (ih hrest (hfirst.isMgr.trans hmgr) fun i hi => ?_)
    obtain ⟨k, hk, hkout⟩ := hopen i (by simp [hi])
    exact ⟨k, hfirst.job? hk (fun hmem => hh (List.mem_singleton.1 hmem ▸ hi)), hkout⟩

/-! ## WRITE_OFF (R406) -/

/-- With distinct hallmarks every job is the one that its hallmark names. -/
theorem Dev.job?_of_mem {d : Dev} (hd : (d.jobs.map Job.hm).Nodup) {j : Job} (hj : j ∈ d.jobs) : d.job? j.hm = some j := by
  obtain ⟨k, hk⟩ : ∃ k, d.job? j.hm = some k := Option.isSome_iff_exists.1 (List.find?_isSome.2 ⟨j, hj, by simp⟩)
  rw [hk, List.inj_on_of_nodup_map hd (List.mem_of_find?_eq_some hk) hj (Dev.hm_of_job? hk)]

/-- The hallmarks of the open jobs of a position. -/
def Dev.openHms (d : Dev) (pos : Nat) : List Nat := (d.jobs.filter fun j => j.exec == pos && j.out.isNone).map Job.hm

theorem Dev.nodup_openHms {d : Dev} (hd : (d.jobs.map Job.hm).Nodup) (pos : Nat) : (d.openHms pos).Nodup :=
  hd.sublist (List.filter_sublist.map Job.hm)

theorem Dev.mem_openHms {d : Dev} (hd : (d.jobs.map Job.hm).Nodup) {pos : Nat} {j : Job} (hj : j ∈ d.jobs) :
    j.hm ∈ d.openHms pos ↔ j.exec = pos ∧ j.out = none := by
  simp only [Dev.openHms, List.mem_map, List.mem_filter, Bool.and_eq_true, beq_iff_eq, Option.isNone_iff_eq_none]
  constructor
  · rintro ⟨k, ⟨hk, hopen⟩, hhm⟩
    exact List.inj_on_of_nodup_map hd hk hj hhm ▸ hopen
  · exact fun hopen => ⟨j, ⟨hj, hopen⟩, rfl⟩

/-- Every hallmark of an open job names an open job. -/
theorem Dev.job?_of_mem_openHms {d : Dev} (hd : (d.jobs.map Job.hm).Nodup) {pos h : Nat} (hh : h ∈ d.openHms pos) :
    ∃ j, d.job? h = some j ∧ j.out = none := by
  obtain ⟨j, hj, rfl⟩ := List.mem_map.1 hh
  obtain ⟨hmem, hopen⟩ := List.mem_filter.1 hj
  exact ⟨j, Dev.job?_of_mem hd hmem, by simpa using (Bool.and_eq_true_iff.1 hopen).2⟩

/-- The WRITEOFF record of a position. -/
def Dev.writeOffRec (d : Dev) (pos : Nat) : Rec := { typ := 0x36, bn := d.now, w5 := pos }

/-- The device with a position written off, before the jobs of the position end. -/
def Dev.offWritten (d : Dev) (pos : Nat) : Dev :=
  { d with ldg := { d.ldg with queue := d.ldg.queue ++ [d.dueItem 5 [d.writeOffRec pos]], writtenOff := d.ldg.writtenOff ++ [pos] } }

theorem Dev.cmdWriteOff_of_mounted {d : Dev} {pos : Nat} (hmgr : d.isMgr = true) (hmounted : d.flag F.LDG_STAT_MOUNTED = true)
    (hpos : pos ∉ d.ldg.declared) : d.cmdWriteOff pos = ((d.openHms pos).foldl Dev.jobLost (d.offWritten pos)).ldgResult Rsn.ok := by
  have hguard : (d.isMgr && d.flag F.LDG_STAT_MOUNTED) = true := by simp [hmgr, hmounted]
  have hopen : (fun j : Job => j.exec == pos && j.out.isNone && !d.ldg.declared.contains pos) = fun j => j.exec == pos && j.out.isNone := by
    funext j; simp [hpos]
  rw [Dev.openHms, ← hopen]
  exact if_pos hguard

/-- The word of LDG_CMD that writes a position off. -/
def writeOffWord (pos : Fin 32) : Word := BitVec.ofNat 32 (2 + 256 * pos.val)

theorem writeOffWord_bits (pos : Fin 32) :
    bitOf (writeOffWord pos) 0 = false ∧ bitOf (writeOffWord pos) 1 = true ∧ bitOf (writeOffWord pos) 16 = false ∧
    slice (writeOffWord pos) 12 8 = pos.val := by
  revert pos; decide

theorem exec_ldgWriteOff_of_pass {s : State} {p : Port} (h : s.dev.gate p R.LDG_CMD = .pass) (pos : Fin 32) :
    exec (.ldgWriteOff p pos) s = .next { s with dev := s.dev.cmdWriteOff pos.val } := by
  obtain ⟨hformat, hoff, hckpt, hpos⟩ := writeOffWord_bits pos
  have hword : s.dev.writeLdgCmd (writeOffWord pos) = s.dev.cmdWriteOff pos.val := by
    simp [Dev.writeLdgCmd, hformat, hoff, hckpt, hpos]
  change execLdgWriteOff p pos s = _
  rw [execLdgWriteOff, State.onDev, Dev.viaPort_of_pass h]
  rw [← hword]
  rfl

/-- Settles O17: a keyed format leaves an erased ledger whose sequences start over and any other write shows REF_STATE, and a write-off
makes its record due and ends the open jobs of its position alone. -/
theorem formatAndWriteOff : Obligations.FormatAndWriteOff := by
  unfold Obligations.FormatAndWriteOff
  refine ⟨fun s p hpass hfree => ⟨fun hkey hstate => ?format, fun hno => ?refused⟩,
    fun s p pos hpass hmgr hmounted hdistinct hpos => ?writeOff⟩
  case format =>
    have hdone := s.dev.formatted_formatDone
    have hexec := exec_ldgFormat_of_pass hpass
    rw [Dev.cmdFormat_of_keyed hkey ((Dev.mayFormat_iff hfree).2 hstate) hfree] at hexec
    exact ⟨_, hexec, hdone.log, hdone.ckpts, hdone.incarnation, hdone.jobs, hdone.hallmark, hdone.sequences, hdone.sound, hdone.sysId,
      hdone.blank, hdone.mounted, Dev.result_ldgResult _ _⟩
  case refused =>
    have hnot : ¬(s.dev.ldg.keyBn = some s.dev.now ∧ s.dev.mayFormat = true) := by
      rw [Dev.mayFormat_iff hfree]
      rintro ⟨hkey, hstate⟩
      rcases hno with hnokey | ⟨hready, hwait, hsound⟩
      · exact hnokey hkey
      · simp [hready, hwait, hsound] at hstate
    have hexec := exec_ldgFormat_of_pass hpass
    rw [Dev.cmdFormat_of_refused hnot] at hexec
    exact ⟨_, hexec, Dev.result_ldgResult _ _, Dev.regsBut_ldgResult _ _, rfl⟩
  case writeOff =>
    have hexec := exec_ldgWriteOff_of_pass hpass pos
    rw [Dev.cmdWriteOff_of_mounted hmgr hmounted hpos] at hexec
    have hlost : (s.dev.offWritten pos.val).JobsLost _ (s.dev.openHms pos.val) :=
      Dev.jobsLost_foldl (Dev.nodup_openHms hdistinct pos.val) hmgr fun h hh => Dev.job?_of_mem_openHms hdistinct hh
    refine ⟨_, hexec, hlost.writtenOff, Dev.result_ldgResult _ _, ⟨s.dev.dueItem 5 [s.dev.writeOffRec pos.val], ?due, rfl⟩, ?hallmarks,
      fun j hj => ⟨j.lostIn (s.dev.openHms pos.val) s.dev.now, ?job, Job.hm_lostIn _ _ j, fun hexecutor hout => ?lost,
        fun hother => ?kept⟩⟩
    case due => exact hlost.queue _ (by simp [Dev.offWritten]) (by simp [Dev.dueItem, groupOf, Dev.writeOffRec])
    case hallmarks =>
      refine (congrArg (List.map Job.hm) hlost.jobs).trans ?_
      rw [List.map_map]
      exact List.map_congr_left fun j _ => Job.hm_lostIn _ _ j
    case job => exact hlost.jobs ▸ List.mem_map_of_mem hj
    case lost =>
      rw [Job.lostIn, if_pos ((Dev.mem_openHms hdistinct hj).2 ⟨hexecutor, hout⟩)]
      exact ⟨rfl, rfl⟩
    case kept =>
      refine Job.lostIn_of_notMem (fun hmem => ?_) _
      obtain ⟨hexecutor, hout⟩ := (Dev.mem_openHms hdistinct hj).1 hmem
      exact hother.elim (· hexecutor) (· hout)

end Sys2Proof.Machine
end

section
/-!
PROOF. What a store write, a load and its data leave (R518, R521 to R525): made whole or discarded whole and counted, whatever the port.
-/
namespace Sys2Proof.Machine
open Sys2Proof

/-! ## Counts -/

theorem satAdd_lt (n a b : Nat) : satAdd n a b < 2 ^ n :=
  Nat.lt_of_le_of_lt (Nat.min_le_right _ _) (Nat.sub_lt (Nat.two_pow_pos n) Nat.one_pos)

/-- A saturating count reads its sum, or its largest value. -/
theorem Dev.fld_addSat_same (d : Dev) {f : Fld} (hf : f.hi < 32) (n : Nat) :
    (d.addSat f n).fld f = satAdd (f.hi + 1 - f.lo) (d.fld f) n := Dev.fld_setFld_of_lt d hf (satAdd_lt _ _ _)

theorem Dev.regsBut.addSat {d e : Dev} {l : List Nat} (h : d.regsBut e l) {f : Fld} (hf : f.a ∈ l) (n : Nat) :
    d.regsBut (e.addSat f n) l := h.setFld hf _

/-- The device once a discarded write is counted. -/
def Dev.discardCounted (d : Dev) : Dev := d.addSat F.SP_WPROT_DISCARDED 1

theorem Dev.discards_discardCounted (d : Dev) :
    d.discardCounted.fld F.SP_WPROT_DISCARDED = satAdd 16 (d.fld F.SP_WPROT_DISCARDED) 1 := d.fld_addSat_same (by decide) 1

theorem Dev.regsBut_discardCounted (d : Dev) {l : List Nat} (hl : R.SP_WPROT ∈ l) : d.regsBut d.discardCounted l :=
  (Dev.regsBut.refl d l).addSat hl 1

/-! ## Writes of a port (R263, R266, R522) -/

section
variable {s : State} {p : Port} {off : BitVec 24} {bs : List Byte}

theorem exec_storeWrite_of_outside (h : 2 ^ 24 < off.toNat + bs.length) : exec (.storeWrite p off bs) s = .fault .outsideStore :=
  if_pos h

theorem exec_storeWrite_of_inside (h : off.toNat + bs.length ≤ 2 ^ 24) :
    exec (.storeWrite p off bs) s =
      .next (if !s.dev.storeGate p then s
        else if s.dev.protects s.store off.toNat bs.length = true then { s with dev := s.dev.discardCounted }
        else { s with store := storeWrite s.store off.toNat bs }) := by
  change execStoreWrite p off bs s = _
  rw [execStoreWrite, if_neg (c := storeBytes < _) (Nat.not_lt.2 h)]
  split
  · rfl
  · split <;> rfl

end

/-- A burst of the SPI service port that touches a protected range is counted, and answered as one that is made (R298, R522). -/
theorem exec_spiWrite_of_protected {s : State} {low : BitVec 6} {addr : BitVec 24} {ws : List Word} {crc : Byte}
    (hlive : s.dev.spiLive = true) (hpass : s.dev.spiCheck 2 low addr.toNat (spiData low ws) crc = none) (hstore : spiStore low = true)
    (hprot : s.dev.protects s.store addr.toNat (4 * (spiData low ws).length) = true) :
    exec (.spiWrite low addr ws crc) s = .next { s with
      dev := (s.dev.discardCounted.addWrap F.HST_SPI_WCNT_WRITE (spiData low ws).length).spiSend (spiData low ws).length 0xA0 [] } := by
  change execSpiWrite low addr ws crc s = _
  simp [execSpiWrite, Dev.spiStores, State.onDevR, hlive, hpass, hstore, hprot, Dev.discardCounted]

/-! ## Data of a load (R522, R523) -/

theorem Dev.freeBlocks_wr_only (d : Dev) (n : Nat) :
    d.freeBlocks n = { d with wr := { d.wr with freed := (d.freeBlocks n).wr.freed } } := by
  unfold Dev.freeBlocks; split <;> rfl

theorem Dev.loadCount_sp_only (d : Dev) (m : List Host.Cell) (i : LoadIn) :
    d.loadCount m i = { d with sp := (d.loadCount m i).sp } := by
  unfold Dev.loadCount
  split
  · dsimp only; split <;> rfl
  · rfl

theorem Dev.loadCount_of_store {i : LoadIn} (h : i.stream = false) (d : Dev) (m : List Host.Cell) : d.loadCount m i = d := by
  simp [Dev.loadCount, h]

theorem Dev.loadAt_of_store {i : LoadIn} (h : i.stream = false) (d : Dev) (m : List Host.Cell) : d.loadAt m i = i.dst.toNat := by
  simp [Dev.loadAt, h]

/-- Data for a protected range of the store is discarded whole. -/
theorem State.loadStore_of_protected {s : State} {m : LoadIn} (hstore : m.stream = false)
    (hprot : s.dev.protects s.store (s.dev.loadAt s.store m) m.bytes.length = true) :
    s.loadStore m = { s with dev := s.dev.discardCounted } := by
  simp [State.loadStore, State.onDev, Dev.discardCounted, hstore, hprot]

/-- Any other data is stored, as far as the store reaches. -/
theorem State.loadStore_of_free {s : State} {m : LoadIn}
    (h : m.stream = true ∨ s.dev.protects s.store (s.dev.loadAt s.store m) m.bytes.length = false) :
    s.loadStore m = { s with store := storeWrite s.store (s.dev.loadAt s.store m) (m.bytes.take (2 ^ 24 - s.dev.loadAt s.store m)),
                             dev := s.dev.loadCount s.store m } := by
  have hfree : ¬((!m.stream && s.dev.protects s.store (s.dev.loadAt s.store m) m.bytes.length) = true) := by
    rcases h with h | h <;> simp [h]
  exact if_neg hfree

section
variable {s : State} {m : LoadIn}

theorem exec_loadMessage_of_unpowered (h : s.dev.pwr.vcore = false) : exec (.loadMessage m) s = .next s :=
  if_pos (by simp [h])

theorem exec_loadMessage_of_outside (hv : s.dev.pwr.vcore = true) (hstore : m.stream = false)
    (h : 2 ^ 24 < m.dst.toNat + m.bytes.length) : exec (.loadMessage m) s = .fault .outsideStore := by
  change execLoadMessage m s = _
  rw [execLoadMessage, if_neg (by simp [hv]), hstore]
  exact if_pos (decide_eq_true h)

/-- The message is worked off whatever becomes of its data (R752). -/
theorem exec_loadMessage_of_taken (hv : s.dev.pwr.vcore = true) (h : m.stream = true ∨ m.dst.toNat + m.bytes.length ≤ 2 ^ 24) :
    exec (.loadMessage m) s = .next { s.loadStore m with dev := (s.loadStore m).dev.freeBlocks (m.bytes.length / 8 + 1) } := by
  have hinside : ¬((!m.stream && decide (storeBytes < m.dst.toNat + m.bytes.length)) = true) := by
    rcases h with h | h
    · simp [h]
    · rw [Bool.and_eq_true, decide_eq_true_eq]
      exact fun hout => Nat.not_lt.2 h hout.2
  change execLoadMessage m s = _
  rw [execLoadMessage, if_neg (by simp [hv]), if_neg hinside]
  rfl

theorem exec_loadMessage_of_discarded (hv : s.dev.pwr.vcore = true) (hstore : m.stream = false)
    (hin : s.dev.loadAt s.store m + m.bytes.length ≤ 2 ^ 24)
    (hprot : s.dev.protects s.store (s.dev.loadAt s.store m) m.bytes.length = true) :
    exec (.loadMessage m) s = .next { s with dev := s.dev.discardCounted.freeBlocks (m.bytes.length / 8 + 1) } := by
  rw [exec_loadMessage_of_taken hv (.inr (Dev.loadAt_of_store hstore s.dev s.store ▸ hin)), State.loadStore_of_protected hstore hprot]

theorem exec_loadMessage_of_stored (hv : s.dev.pwr.vcore = true) (h : m.stream = true ∨
      s.dev.loadAt s.store m + m.bytes.length ≤ 2 ^ 24 ∧ s.dev.protects s.store (s.dev.loadAt s.store m) m.bytes.length = false) :
    exec (.loadMessage m) s = .next { s with
      store := storeWrite s.store (s.dev.loadAt s.store m) (m.bytes.take (2 ^ 24 - s.dev.loadAt s.store m)),
      dev := (s.dev.loadCount s.store m).freeBlocks (m.bytes.length / 8 + 1) } := by
  have hin : m.stream = true ∨ m.dst.toNat + m.bytes.length ≤ 2 ^ 24 := by
    cases hst : m.stream with
    | true => exact .inl rfl
    | false =>
      obtain ⟨hin, -⟩ := h.resolve_left (by simp [hst])
      exact .inr (Dev.loadAt_of_store hst s.dev s.store ▸ hin)
  rw [exec_loadMessage_of_taken hv hin, State.loadStore_of_free (h.imp_right And.right)]

end

/-! ## A write of SP_LDCMD (R523, R524) -/

/-- The load into the segment store of a position that SP_LDCMD starts. -/
def Dev.loadOrdered (d : Dev) (w : Word) : Load :=
  { src := d.fld F.SP_LDSRC_SOURCE, dst := d.fld F.SP_LDDST_DESTINATION, len := d.fld F.SP_LDLEN_BYTES, pos := slice w 4 0,
    stream := false, player := slice w 19 16 }

/-- The conditions of R523 and R524 under which the load is taken. -/
def Dev.TakesLoad (d : Dev) (m : List Host.Cell) (w : Word) (far : Bool) : Prop :=
  let l := d.loadOrdered w
  l.len ≠ 0 ∧ l.len % 32 = 0 ∧ l.src + l.len ≤ 2 ^ 24 ∧ l.dst + l.len ≤ 2 ^ 24 ∧ far = false ∧ d.sp.load = none ∧
    (if l.pos = d.pos then d.protects m l.dst l.len = false else d.wr.decl.any (fun x => x.1 == l.pos) = true)

/-- The device with the load under way. -/
def Dev.loading (d : Dev) (w : Word) : Dev :=
  { d with sp := { d.sp with load := some (d.loadOrdered w) } }.setFlag F.SP_LDSTAT_BUSY true

/-- The payload of the load's bulk message: destination, length and the words. -/
def loadWords (m : List Host.Cell) (l : Load) : List Word :=
  [BitVec.ofNat 32 l.dst, BitVec.ofNat 32 l.len] ++ (List.range (l.len / 4)).map (fun i => storeWord m (l.src + 4 * i))

/-- The device that has sent the load to another position. -/
def Dev.loadSent (d : Dev) (m : List Host.Cell) (w : Word) : Dev := (d.loading w).bulkPut (slice w 4 0) 7 (loadWords m (d.loadOrdered w))

/-- The device that refuses a load. -/
def Dev.loadRefused (d : Dev) : Dev := d.setFld F.SP_LDSTAT_RESULT Rsn.refState.toNat

/-- The grounds on which the load is refused. -/
def Dev.RefusesLoad (d : Dev) (m : List Host.Cell) (l : Load) (far : Bool) : Prop :=
  l.len = 0 ∨ l.len % 32 ≠ 0 ∨ storeBytes < l.src + l.len ∨ storeBytes < l.dst + l.len ∨
    l.pos = d.pos ∧ d.protects m l.dst l.len = true ∨ far = true ∨ d.sp.load.isSome = true ∨
    l.pos ≠ d.pos ∧ d.wr.decl.any (fun x => x.1 == l.pos) = false

theorem Dev.not_refusesLoad_iff (d : Dev) (m : List Host.Cell) (w : Word) (far : Bool) :
    ¬d.RefusesLoad m (d.loadOrdered w) far ↔ d.TakesLoad m w far := by
  unfold Dev.RefusesLoad Dev.TakesLoad
  by_cases hown : (d.loadOrdered w).pos = d.pos
  all_goals
    simp only [hown, if_true, if_false, not_or, Nat.not_lt, not_not, ne_eq, not_true_eq_false, not_false_eq_true, true_and, false_and,
      Bool.not_eq_true, Bool.not_eq_false, Option.isSome_eq_false_iff, Option.isNone_iff_eq_none, storeBytes]
    tauto

/-- A load that is no stream: refused, copied at once, or sent. -/
theorem Dev.writeLdcmd_of_store {d : Dev} {w : Word} (hgo : bitOf w 31 = true) (hstore : bitOf w 8 = false) (m : List Host.Cell)
    (far : Bool) [Decidable (d.RefusesLoad m (d.loadOrdered w) far)] :
    d.writeLdcmd m w far =
      if d.RefusesLoad m (d.loadOrdered w) far then d.loadRefused
      else if (d.loadOrdered w).pos = d.pos then d.loading w else d.loadSent m w := by
  rw [Dev.writeLdcmd, if_neg (by simp [hgo]), hstore]
  refine (if_neg (by simp)).trans (if_congr ?_ rfl (if_congr beq_iff_eq rfl rfl))
  simp [Dev.RefusesLoad, Dev.loadOrdered]

theorem Dev.result_loadRefused (d : Dev) : d.loadRefused.fld F.SP_LDSTAT_RESULT = 0x1005 :=
  Dev.fld_setFld_of_lt d (by decide) (by decide)

theorem Dev.regsBut_loadRefused (d : Dev) : d.regsBut d.loadRefused [R.SP_LDSTAT] := (Dev.regsBut.refl d _).setFld (by simp) _

theorem Dev.busy_loading (d : Dev) (w : Word) : (d.loading w).flag F.SP_LDSTAT_BUSY = true := Dev.flag_setFlag_same _ _ _ (by decide) rfl

theorem Dev.regsBut_loading (d : Dev) (w : Word) : d.regsBut (d.loading w) [R.SP_LDSTAT] :=
  Dev.regsBut.setFlag (d := d) (e := { d with sp := { d.sp with load := some (d.loadOrdered w) } }) (fun _ _ => rfl) (by simp) true

/-- Sending the load adds no change of registers to its start. -/
theorem Dev.regs_loadSent (d : Dev) (m : List Host.Cell) (w : Word) : (d.loadSent m w).regs = (d.loading w).regs := by
  simp [Dev.loadSent]

theorem Dev.sp_loadSent (d : Dev) (m : List Host.Cell) (w : Word) :
    (d.loadSent m w).sp = { d.sp with load := some (d.loadOrdered w) } := by
  simp [Dev.loadSent, Dev.loading]

theorem Dev.wr_loadSent_of_manager {d : Dev} (h : d.boot.role = .manager) (m : List Host.Cell) (w : Word) :
    (d.loadSent m w).wr = { d.wr with bulk := d.wr.bulk ++ [{ dst := slice w 4 0, kind := 7, words := loadWords m (d.loadOrdered w),
                                                              left := bulkBlocks (loadWords m (d.loadOrdered w)).length }] } :=
  congrArg Dev.wr (Dev.bulkPut_of_manager (d := d.loading w) h _ _ _)

/-- SP_LDSTAT names no object of the store. -/
theorem imageRanges_congr {rd rd' : Nat → Word} (h : ∀ a, a ∉ [R.SP_LDSTAT] → rd' a = rd a) (m : List Host.Cell) :
    imageRanges m rd' = imageRanges m rd := by
  have hkept : ∀ a, a ≠ R.SP_LDSTAT → rd' a = rd a := fun a ha => h a (by simpa using ha)
  have hcfg : ∀ n, rd' (R.SP_CFG n) = rd (R.SP_CFG n) := fun n => hkept _ (by dsimp only [R.SP_CFG, R.SP_LDSTAT]; omega)
  have hbase : ∀ n, rd' (R.SP_STBASE n) = rd (R.SP_STBASE n) := fun n => hkept _ (by dsimp only [R.SP_STBASE, R.SP_LDSTAT]; omega)
  have hglyph : ∀ n, rd' (R.GLY_TAB n) = rd (R.GLY_TAB n) := fun n => hkept _ (by dsimp only [R.GLY_TAB, R.SP_LDSTAT]; omega)
  simp only [imageRanges, hcfg, hbase, hglyph, hkept R.SP_SEGTAB (by decide), hkept R.SP_SLTAB (by decide)]

theorem Dev.protects_loading (d : Dev) (w : Word) (m : List Host.Cell) (a n : Nat) : (d.loading w).protects m a n = d.protects m a n := by
  have himage : imageRanges m (d.loading w).reg = imageRanges m d.reg := imageRanges_congr (d.regsBut_loading w) m
  rw [Dev.protects, Dev.protectedRanges, himage]
  rfl

/-- The data of a load within the device's own store, as one message of the load path. -/
def Load.copied (l : Load) (m : List Host.Cell) : LoadIn :=
  { dst := BitVec.ofNat 24 l.dst, stream := l.stream, player := Fin.ofNat 16 l.player,
    bytes := (List.range l.len).map fun i => storeByte m (l.src + i) }

section
variable {s : State} {p : Port} {w : Word} {far : Bool} {e : Dev} (hpass : s.dev.gate p R.SP_LDCMD = .pass)
  (hwrite : s.dev.writeLdcmd s.store w far = e)
include hpass hwrite

theorem exec_loadStart_of_kept (hkept : e.sp.load = s.dev.sp.load) : exec (.loadStart p w far) s = .next { s with dev := e } := by
  change execLoadStart p w far s = _
  simp only [execLoadStart, State.onDevR, Dev.viaPort_of_pass hpass, hwrite, hkept]
  cases s.dev.sp.load <;> rfl

theorem exec_loadStart_of_begun {l : Load} (hidle : s.dev.sp.load = none) (hload : e.sp.load = some l) :
    exec (.loadStart p w far) s =
      .next (if l.pos = s.dev.pos then { s with dev := e }.loadStore (l.copied s.store) else { s with dev := e }) := by
  change execLoadStart p w far s = _
  simp only [execLoadStart, State.onDevR, Dev.viaPort_of_pass hpass, hwrite, hidle, hload, ne_eq, ite_not]
  split <;> rfl

end

section
variable {s : State} {p : Port} {w : Word} {far : Bool} (hpass : s.dev.gate p R.SP_LDCMD = .pass) (hgo : bitOf w 31 = true)
  (hstore : bitOf w 8 = false)
include hpass hgo hstore

theorem exec_loadStart_of_refused (h : ¬s.dev.TakesLoad s.store w far) :
    exec (.loadStart p w far) s = .next { s with dev := s.dev.loadRefused } := by
  classical
  have hrefused := not_not.1 (mt (s.dev.not_refusesLoad_iff s.store w far).1 h)
  exact exec_loadStart_of_kept hpass ((Dev.writeLdcmd_of_store hgo hstore _ _).trans (if_pos hrefused)) rfl

/-- A load to another position is sent. -/
theorem exec_loadStart_of_far (h : s.dev.TakesLoad s.store w far) (hfar : slice w 4 0 ≠ s.dev.pos) :
    exec (.loadStart p w far) s = .next { s with dev := s.dev.loadSent s.store w } := by
  classical
  have htaken := (s.dev.not_refusesLoad_iff s.store w far).2 h
  have hwrite := (Dev.writeLdcmd_of_store hgo hstore s.store far).trans ((if_neg htaken).trans (if_neg hfar))
  obtain ⟨-, -, -, -, -, hidle, -⟩ := h
  have hload : (s.dev.loadSent s.store w).sp.load = some (s.dev.loadOrdered w) := by rw [Dev.sp_loadSent]
  exact (exec_loadStart_of_begun hpass hwrite hidle hload).trans (congrArg _ (if_neg hfar))

/-- A load within the device's own store is copied at once. -/
theorem exec_loadStart_of_own (h : s.dev.TakesLoad s.store w far) (hown : slice w 4 0 = s.dev.pos) :
    exec (.loadStart p w far) s = .next { s with
      store := storeWrite s.store (s.dev.loadOrdered w).dst ((s.dev.loadOrdered w).copied s.store).bytes, dev := s.dev.loading w } := by
  classical
  have htaken := (s.dev.not_refusesLoad_iff s.store w far).2 h
  have hwrite := (Dev.writeLdcmd_of_store hgo hstore s.store far).trans ((if_neg htaken).trans (if_pos hown))
  obtain ⟨-, -, -, hdst, -, hidle, hfree⟩ := h
  have hpos : (s.dev.loadOrdered w).pos = s.dev.pos := hown
  generalize hl : s.dev.loadOrdered w = l at *
  have hlen : (l.copied s.store).bytes.length = l.len := by simp [Load.copied]
  have hat : (s.dev.loading w).loadAt s.store (l.copied s.store) = l.dst := by
    have hlt : l.dst < 2 ^ 24 := hl ▸ Nat.mod_lt _ (by decide)
    rw [Dev.loadAt_of_store (by subst hl; rfl)]
    exact Nat.mod_eq_of_lt hlt
  have hcopied := State.loadStore_of_free (s := { s with dev := s.dev.loading w }) (m := l.copied s.store) <| .inr <| by
    rw [hat, hlen, Dev.protects_loading]
    exact (if_pos hpos).mp hfree
  rw [hat, List.take_of_length_le (by omega), Dev.loadCount_of_store (by subst hl; rfl)] at hcopied
  exact (exec_loadStart_of_begun hpass hwrite hidle (l := l) (by subst hl; rfl)).trans (congrArg _ ((if_pos hpos).trans hcopied))

end

/-! ## The end of a load (R525) -/

/-- The device once a load has ended. -/
def Dev.loadEnded (d : Dev) (lost : Bool) : Dev :=
  ({ d with sp := { d.sp with load := none } }.setFlag F.SP_LDSTAT_BUSY false).setFld F.SP_LDSTAT_RESULT
    (if lost then Rsn.refFenced else Rsn.ok).toNat

theorem exec_loadComplete (s : State) (lost : Bool) :
    exec (.loadComplete lost) s = .next { s with dev := if s.dev.sp.load.isSome then s.dev.loadEnded lost else s.dev } := rfl

theorem Dev.busy_loadEnded (d : Dev) (lost : Bool) : (d.loadEnded lost).flag F.SP_LDSTAT_BUSY = false :=
  (Dev.flag_setFld_ne _ _ _ _ (by decide) (by simp)).trans (Dev.flag_setFlag_same _ _ _ (by decide) rfl)

theorem Dev.result_loadEnded (d : Dev) (lost : Bool) : (d.loadEnded lost).fld F.SP_LDSTAT_RESULT = if lost then 0x1002 else 0 := by
  refine (Dev.fld_setFld_of_lt _ (by decide) ?_).trans ?_ <;> cases lost <;> decide

theorem Dev.regsBut_loadEnded (d : Dev) (lost : Bool) : d.regsBut (d.loadEnded lost) [R.SP_LDSTAT] :=
  (Dev.regsBut.setFlag (d := d) (e := { d with sp := { d.sp with load := none } }) (fun _ _ => rfl) (by simp) false).setFld (by simp) _

end Sys2Proof.Machine
end

section
/-!
PROOF. Step conditions and stream counts (R528, R538, R558): what the end of a job leaves of its players and of their underrun counts, what
a step that has waited too long does, and what a write of SP_SBWR leaves.
-/
namespace Sys2Proof.Machine
open Sys2Proof

/-! ## A write of SP_SBWR (R538, R558) -/

/-- The write count that stands for a player, a held one before the register. -/
def Dev.sbWritten (d : Dev) (n : Nat) : Nat := (mget none d.sp.sbwr n).getD (d.num (R.SP_SBWR n))

/-- A write count that moves forward and stays within the depth. -/
def Dev.TakesSbwr (d : Dev) (n : Nat) (w : Word) : Prop :=
  (w.toNat + 2 ^ 32 - d.sbWritten n) % 2 ^ 32 < 2 ^ 31 ∧ (w.toNat + 2 ^ 32 - d.num (R.SP_SBRD n)) % 2 ^ 32 ≤ d.sbDepth n

section
variable {s : State} {p : Port} {n : Fin 16} {w : Word} (hpass : s.dev.gate p (R.SP_SBWR n.val) = .pass)
include hpass

theorem exec_spSbwrWrite_of_taken (h : s.dev.TakesSbwr n.val w) :
    exec (.spSbwrWrite p n w) s =
      .next { s with dev := { s.dev with sp := { s.dev.sp with sbwr := mset none s.dev.sp.sbwr n.val (some w.toNat) } } } := by
  change execSpSbwrWrite p n w s = _
  rw [execSpSbwrWrite, State.onDev, Dev.viaPort_of_pass hpass]
  exact congrArg (fun e => Host.Outcome.next { s with dev := e }) (if_pos h)

theorem exec_spSbwrWrite_of_refused (h : ¬s.dev.TakesSbwr n.val w) :
    exec (.spSbwrWrite p n w) s = .next { s with dev := s.dev.setFlag (F.SP_STAT_WR_ERR n.val) true } := by
  change execSpSbwrWrite p n w s = _
  rw [execSpSbwrWrite, State.onDev, Dev.viaPort_of_pass hpass]
  exact congrArg (fun e => Host.Outcome.next { s with dev := e }) (if_neg h)

end

/-! ## What the end of a job leaves of its players (R381) -/

/-- What the end of a job keeps of it: hallmark, plays and the failure noted. -/
def Job.course (j : Job) : Nat × List PlayRun × Option Reason := (j.hm, j.plays, j.flaw)

/-- The courses of the jobs. -/
def Dev.courses (d : Dev) : List (Nat × List PlayRun × Option Reason) := d.jobs.map Job.course

theorem Dev.courses_congr {d e : Dev} (h : e.jobs = d.jobs) : e.courses = d.courses := congrArg (List.map Job.course) h

theorem Dev.courses_modJob {f : Job → Job} (hf : ∀ j, (f j).course = j.course) (d : Dev) (h : Nat) :
    (d.modJob h f).courses = d.courses := by
  rw [Dev.courses, Dev.modJob, List.map_map]
  refine List.map_congr_left fun j _ => ?_
  dsimp only [Function.comp]
  split
  · exact hf j
  · rfl

/-- The job once its end is reported. -/
def Job.told (j : Job) : Job := { j with reported := true }

theorem Dev.courses_reportEnd (d : Dev) (h : Nat) : (d.reportEnd h).courses = d.courses := by
  have htold : (d.modJob h Job.told).courses = d.courses := Dev.courses_modJob (f := Job.told) (fun _ => rfl) d h
  unfold Dev.reportEnd
  split
  · rfl
  · split
    · rfl
    · split
      · rfl
      · rw [← htold]
        refine Dev.courses_congr ?_
        dsimp only
        split <;> simp <;> rfl

/-- The end of a job: none for a job that is unknown or decided, else its ENDED record is due or its end is reported. -/
theorem Dev.endJob_cases (d : Dev) (h : Nat) (o : Outcome) :
    d.endJob h o = d ∨ ∃ j : Job, d.endJob h o = (d.jobReleased j o).dueRec 2 [j.endRec o] ∨
      d.endJob h o = ((d.jobReleased j o).armedDropped h).reportEnd h := by
  cases hj : d.job? h with
  | none => exact .inl (by simp [Dev.endJob, hj])
  | some j =>
    obtain rfl := Dev.hm_of_job? hj
    by_cases hout : j.out.isSome = true
    · exact .inl (by simp [Dev.endJob, hj, hout])
    · have hend : d.endJob j.hm o = if (j.armed && j.exec == (d.jobReleased j o).pos) = true then (d.jobReleased j o).dueRec 2 [j.endRec o]
          else ((d.jobReleased j o).armedDropped j.hm).reportEnd j.hm := by
        simp only [Dev.endJob, hj]
        exact if_neg hout
      refine .inr ⟨j, ?_⟩
      rw [hend]
      split
      · exact .inl rfl
      · exact .inr rfl

theorem Dev.courses_jobReleased (d : Dev) (j : Job) (o : Outcome) : (d.jobReleased j o).courses = d.courses := by
  obtain ⟨hjobs, -, -⟩ := d.jobReleased_keeps j o
  exact (Dev.courses_congr hjobs).trans (Dev.courses_modJob (f := Job.ended o) (fun _ => rfl) d j.hm)

theorem Dev.courses_endJob (d : Dev) (h : Nat) (o : Outcome) : (d.endJob h o).courses = d.courses := by
  rcases d.endJob_cases h o with hend | ⟨j, hend | hend⟩
  · rw [hend]
  · rw [hend]; exact d.courses_jobReleased j o
  · rw [hend, Dev.courses_reportEnd]; exact d.courses_jobReleased j o

theorem Dev.reg_releaseGranules_of_notRead {a : Nat} (hread : ∀ i, a ≠ R.SP_SBRD i) (d : Dev) (j : Job) :
    (d.releaseGranules j).reg a = d.reg a := by
  refine foldl_keeps _ (fun d => d.reg a) (fun d p => ?_) _ d
  dsimp only
  split
  · rfl
  · split
    · exact Dev.reg_setNum_ne _ (hread _) _
    · rfl

section released
variable {a : Nat} (hlo : 0x50000 ≤ a) (hhi : a < 0x50800)
include hlo hhi

/-- Counting a transition writes no register of the players. -/
theorem Dev.reg_outTrans_of_player (d : Dev) (n : Nat) (was : Option Bool) : (d.outTrans n was).reg a = d.reg a := by
  have hcount : a ≠ (F.PO_EDGECNT_TRANSITIONS n).a := by simp only [R.PO_EDGECNT]; omega
  unfold Dev.outTrans
  split
  · split
    · rfl
    · exact Dev.reg_setFld_ne _ _ _ _ hcount
  · rfl

theorem Dev.reg_closeTallies_of_player (d : Dev) (j : Job) (c : Bool) : (d.closeTallies j c).reg a = d.reg a := by
  refine foldl_keeps _ (fun d => d.reg a) (fun d tv => ?_) _ d
  have hlast : a ≠ R.TAL_LAST tv.1 := by simp only [R.TAL_LAST]; omega
  have hvalid : a ≠ (F.TAL_STAT_LAST_VALID tv.1).a := by simp only [R.TAL_STAT]; omega
  have hgap : a ≠ (F.TAL_GAPCNT_VALUES tv.1).a := by simp only [R.TAL_GAPCNT]; omega
  dsimp only
  split
  · rfl
  · split
    · split
      · exact (Dev.reg_setFlag_ne _ _ _ _ hvalid).trans (Dev.reg_setNum_ne _ hlast _)
      · rfl
    · exact Dev.reg_setFld_ne _ _ _ _ hgap

theorem Dev.reg_releaseLanes_of_player (d : Dev) (h : Nat) : (d.releaseLanes h).reg a = d.reg a := by
  refine (foldl_keeps _ (fun d => d.reg a) (fun d n => ?_) _ _).trans rfl
  dsimp only
  split
  · rfl
  · split <;> exact Dev.reg_outTrans_of_player hlo hhi _ _ _

/-- The end of a job writes no register of the players but their read counts. -/
theorem Dev.reg_endJob_of_player (hread : ∀ i, a ≠ R.SP_SBRD i) (d : Dev) (h : Nat) (o : Outcome) :
    (d.endJob h o).reg a = d.reg a := by
  have hreleased : ∀ j, (d.jobReleased j o).reg a = d.reg a := fun j =>
    (Dev.reg_releaseGranules_of_notRead hread _ _).trans <| (Dev.reg_releaseLanes_of_player hlo hhi _ _).trans <|
      Dev.reg_closeTallies_of_player hlo hhi _ _ _
  rcases d.endJob_cases h o with hend | ⟨j, hend | hend⟩
  · rw [hend]
  · rw [hend]; exact hreleased j
  · rw [hend, Dev.reg_congr (Dev.reportEnd_keeps _ h).1]; exact hreleased j

end released

/-! ## A job whose parts are all done (R528) -/

theorem Dev.settle_cases (d : Dev) (h : Nat) : d.settle h = d ∨ ∃ o, d.settle h = d.endJob h o := by
  unfold Dev.settle
  split
  · exact .inl rfl
  · split
    · exact .inl rfl
    · split
      · exact .inl rfl
      · split
        · exact .inr ⟨_, rfl⟩
        · exact .inr ⟨_, rfl⟩

theorem Dev.courses_settle (d : Dev) (h : Nat) : (d.settle h).courses = d.courses := by
  rcases d.settle_cases h with hs | ⟨o, hs⟩
  · rw [hs]
  · rw [hs, Dev.courses_endJob]

/-- The count of steps that ran out of time outlasts the end of a job. -/
theorem Dev.fld_settle_stepCount (d : Dev) (h n : Nat) : (d.settle h).fld (F.SP_UNDCNT_STEP n) = d.fld (F.SP_UNDCNT_STEP n) := by
  rcases d.settle_cases h with hs | ⟨o, hs⟩
  · rw [hs]
  · have hreg : (d.endJob h o).reg (R.SP_UNDCNT n) = d.reg (R.SP_UNDCNT n) :=
      Dev.reg_endJob_of_player (by simp only [R.SP_UNDCNT]; omega) (by simp only [R.SP_UNDCNT]; omega)
        (fun i => by simp only [R.SP_UNDCNT, R.SP_SBRD]; omega) d h o
    rw [hs, Dev.fld, hreg, Dev.fld]

/-! ## A step that has waited too long (R528) -/

/-- The play goes on, its condition taken as met. -/
def PlayRun.met (b : Nat) (p : PlayRun) : PlayRun := { p with metAt := some b }

/-- The play has ended. -/
def PlayRun.stopped (p : PlayRun) : PlayRun := { p with done := true }

/-- The device once the step st of the first play of a job has run out of time. -/
def Dev.stepTimedOut (d : Dev) (n hm : Nat) (st : StepDef) : Dev :=
  let e := d.addSat (F.SP_UNDCNT_STEP n) 1
  if st.waitAct then e.modPlay hm 0 (PlayRun.met e.now) else ((e.modPlay hm 0 PlayRun.stopped).flawJob hm Rsn.partStepwait).settle hm

theorem exec_stepWaitTimeout_of_idle {s : State} (h : ∀ j ∈ s.dev.jobs, j.active = false) (n : Fin 16) :
    exec (.stepWaitTimeout n) s = .next s := by
  change execStepWaitTimeout n s = _
  rw [execStepWaitTimeout, State.onDevR]
  dsimp only
  rw [List.find?_eq_none.2 (fun j hj => by simp [h j hj])]

theorem exec_stepWaitTimeout_of_waiting {s : State} {n : Fin 16} {j : Job} {p : PlayRun} {wf : Nat} (hjobs : s.dev.jobs = [j])
    (hact : j.active = true) (hplays : j.plays = [p]) (hsp : p.sp = n.val) (hdone : p.done = false) (hwait : p.waitFrom = some wf)
    (hmet : p.metAt = none) (hlo : 1 ≤ (stepAt s.store p.stBase p.step).adv) (hhi : (stepAt s.store p.stBase p.step).adv ≤ 3) :
    exec (.stepWaitTimeout n) s = .next { s with
      dev := if wf + (stepAt s.store p.stBase p.step).waitMax ≤ s.dev.now then
          s.dev.stepTimedOut n.val j.hm (stepAt s.store p.stBase p.step)
        else s.dev } := by
  change execStepWaitTimeout n s = _
  simp [execStepWaitTimeout, State.onDevR, hjobs, hact, hplays, hsp, hdone, hwait, hmet, hlo, hhi, Dev.stepTimedOut] <;> rfl

section
variable {d : Dev} {j : Job} {p : PlayRun} (hjobs : d.jobs = [j]) (hplays : j.plays = [p])
include hjobs hplays

theorem Dev.modPlay_of_only (f : PlayRun → PlayRun) : d.modPlay j.hm 0 f = { d with jobs := [{ j with plays := [f p] }] } := by
  simp [Dev.modPlay, Dev.modJob, hjobs, hplays]

theorem Dev.stepTimedOut_of_goesOn {st : StepDef} (h : st.waitAct = true) (n : Nat) :
    d.stepTimedOut n j.hm st = { d.addSat (F.SP_UNDCNT_STEP n) 1 with jobs := [{ j with plays := [p.met d.now] }] } :=
  (if_pos h).trans (Dev.modPlay_of_only (d := d.addSat (F.SP_UNDCNT_STEP n) 1) hjobs hplays _)

/-- The play has ended, and the failure is noted unless an earlier one stands, whether or not the job ends with it. -/
theorem Dev.job_stepTimedOut_of_fails {st : StepDef} (h : st.waitAct = false) (n : Nat) :
    ∃ k, (d.stepTimedOut n j.hm st).jobs = [k] ∧ k.hm = j.hm ∧ k.plays = [p.stopped] ∧
      k.flaw = some (j.flaw.getD Rsn.partStepwait) := by
  have hcourses : (d.stepTimedOut n j.hm st).courses = [(j.hm, [p.stopped], some (j.flaw.getD Rsn.partStepwait))] := by
    rw [Dev.stepTimedOut, if_neg (by simp [h]), Dev.courses_settle,
      Dev.modPlay_of_only (d := d.addSat (F.SP_UNDCNT_STEP n) 1) hjobs hplays]
    simp [Dev.courses, Dev.flawJob, Dev.modJob, Job.course]
  obtain ⟨k, hk, hcourse⟩ := List.map_eq_singleton_iff.1 hcourses
  simp only [Job.course, Prod.mk.injEq] at hcourse
  exact ⟨k, hk, hcourse⟩

end

theorem Dev.stepCount_stepTimedOut (d : Dev) (n hm : Nat) (st : StepDef) :
    (d.stepTimedOut n hm st).fld (F.SP_UNDCNT_STEP n) = satAdd 16 (d.fld (F.SP_UNDCNT_STEP n)) 1 := by
  have hcount : (d.addSat (F.SP_UNDCNT_STEP n) 1).fld (F.SP_UNDCNT_STEP n) = satAdd 16 (d.fld (F.SP_UNDCNT_STEP n)) 1 :=
    Dev.fld_addSat_same d (show 31 < 32 by decide) 1
  rw [← hcount, Dev.stepTimedOut]
  split
  · rfl
  · exact Dev.fld_settle_stepCount _ _ n

/-! ## The statement -/

/-- Settles O47: the store takes a write, a burst or a load's data whole or not at all, a load is taken or refused and ends, and a step's
wait and a stream's write count follow their limits. -/
theorem playersStoreAndLoads : Obligations.PlayersStoreAndLoads := by
  unfold Obligations.PlayersStoreAndLoads
  refine ⟨?store, fun s n => ⟨?wait, fun h => exec_stepWaitTimeout_of_idle h n, ?count⟩⟩
  case store =>
    intro s made discarded
    have hmade : ∀ (e : Dev) (a : Nat) (bs : List Byte), made { s with store := storeWrite s.store a bs, dev := e } a bs := fun e a bs =>
      ⟨storeByte_storeWrite_in bs s.store a, storeByte_storeWrite_out bs s.store a⟩
    have hdiscarded : ∀ e : Dev, e.regs = s.dev.discardCounted.regs → discarded { s with dev := e } := fun e he =>
      ⟨rfl, fun a ha => (Dev.reg_congr he a).trans (s.dev.regsBut_discardCounted (by simp) a ha),
        (Dev.fld_congr he _).trans s.dev.discards_discardCounted⟩
    refine ⟨fun p off bs => ⟨exec_storeWrite_of_outside, fun hin hgate => ?closed, fun hin hgate hprot => ?protect,
        fun hin hgate hprot => ?free⟩,
      fun low addr ws crc hlive hcheck hspi hprot => ⟨_, exec_spiWrite_of_protected hlive hcheck hspi hprot, rfl, ?spiRegs, ?spiCount⟩,
      fun m => ⟨fun hst => Dev.loadAt_of_store hst _ _, exec_loadMessage_of_unpowered, fun hv hst hout => ?outside,
        fun hv hin hst hprot => ?discard, fun hv hfree => ?stored⟩,
      fun p w far hpass hgo hst => ⟨fun hok => ?begun,
        fun hok => ⟨_, exec_loadStart_of_refused hpass hgo hst hok, s.dev.result_loadRefused, s.dev.regsBut_loadRefused, rfl⟩⟩,
      fun lost hload => ?ended, fun lost hload => ?idle⟩
    case closed => rw [exec_storeWrite_of_inside hin, hgate]; rfl
    case protect =>
      refine ⟨_, exec_storeWrite_of_inside hin, ?_⟩
      rw [hgate, hprot]
      exact ⟨hdiscarded _ rfl, rfl⟩
    case free =>
      refine ⟨_, exec_storeWrite_of_inside hin, ?_⟩
      rw [hgate, hprot]
      exact ⟨hmade _ _ _, rfl⟩
    case spiRegs => exact (s.dev.regsBut_discardCounted (by simp)).setFld (by simp) _
    case spiCount => exact (Dev.fld_setFld_ne _ _ _ _ (by decide) (by decide)).trans s.dev.discards_discardCounted
    case outside => exact exec_loadMessage_of_outside hv hst (Dev.loadAt_of_store hst s.dev s.store ▸ hout)
    case discard =>
      have hexec := exec_loadMessage_of_discarded hv hst hin hprot
      rw [Dev.freeBlocks_wr_only] at hexec
      exact ⟨_, hexec, hdiscarded _ rfl, rfl⟩
    case stored =>
      have hexec := exec_loadMessage_of_stored hv hfree
      rw [Dev.freeBlocks_wr_only, Dev.loadCount_sp_only] at hexec
      have hkept : m.stream = false → (s.dev.loadCount s.store m).sp = s.dev.sp := fun hst => by rw [Dev.loadCount_of_store hst]
      exact ⟨_, hexec, hmade _ _ _, hkept, rfl⟩
    case begun =>
      by_cases hown : slice w 4 0 = s.dev.pos
      · exact ⟨_, exec_loadStart_of_own hpass hgo hst hok hown, s.dev.busy_loading w, rfl, fun _ => hmade _ _ _,
          fun hfar => absurd hown hfar, s.dev.regsBut_loading w⟩
      · have hregs := s.dev.regs_loadSent s.store w
        exact ⟨_, exec_loadStart_of_far hpass hgo hst hok hown, (Dev.flag_congr hregs _).trans (s.dev.busy_loading w),
          s.dev.sp_loadSent s.store w, fun h => absurd h hown, fun _ hmgr => ⟨rfl, Dev.wr_loadSent_of_manager hmgr _ _⟩,
          (s.dev.regsBut_loading w).trans (.of_regs hregs _)⟩
    case ended =>
      have hbusy : s.dev.sp.load.isSome = true := Option.isSome_iff_ne_none.2 hload
      have hexec := exec_loadComplete s lost
      rw [if_pos hbusy] at hexec
      exact ⟨_, hexec, s.dev.busy_loadEnded lost, s.dev.result_loadEnded lost, s.dev.regsBut_loadEnded lost, rfl⟩
    case idle => rw [exec_loadComplete, hload]; rfl
  case wait =>
    intro j p wf hjobs hact hplays hsp hdone hwait hmet st hlo hhi
    have hexec := exec_stepWaitTimeout_of_waiting hjobs hact hplays hsp hdone hwait hmet hlo hhi
    refine ⟨fun hearly => ?early, fun hdue => ?due⟩
    case early => rw [hexec, if_neg (Nat.not_le.2 hearly)]
    case due =>
      rw [if_pos hdue] at hexec
      cases hgo : st.waitAct with
      | true =>
        have hnext := Dev.stepTimedOut_of_goesOn hjobs hplays hgo n.val
        exact ⟨_, { j with plays := [p.met s.dev.now] }, hexec, congrArg Dev.jobs hnext, s.dev.stepCount_stepTimedOut n.val j.hm st,
          fun _ => ⟨rfl, hnext ▸ (Dev.regsBut.refl s.dev _).addSat (by simp) 1⟩, fun h => absurd h (by simp)⟩
      | false =>
        obtain ⟨k, hk, hcourse⟩ := Dev.job_stepTimedOut_of_fails hjobs hplays hgo n.val
        exact ⟨_, k, hexec, hk, s.dev.stepCount_stepTimedOut n.val j.hm st, fun h => absurd h (by simp), fun _ => hcourse⟩
  case count =>
    intro p w hpass
    exact ⟨fun hok => ⟨_, exec_spSbwrWrite_of_taken hpass hok, by simp, fun k hk => by simp [hk], rfl⟩,
      fun hok => ⟨_, exec_spSbwrWrite_of_refused hpass hok, Dev.flag_setFlag_same _ _ _ (show 2 < 32 by decide) rfl,
        (Dev.regsBut.refl _ _).setFlag (by simp) true, rfl⟩⟩

end Sys2Proof.Machine
end

section
/-!
PROOF. SCC_CMD (R682 to R684, R687, R702, R718): what its write leaves, what GO, CHECKONLY and ABORT do when the Edge phase takes them, and
the copies of one image over the other.
-/
namespace Sys2Proof.Machine
open Sys2Proof

/-! ## A write of SCC_CMD (R683, R684) -/

/-- The instructions that write SCC_CMD, with the word that each writes. -/
def sccCmds (p : Port) : List (Instr × Word) := [(.sccGo p, 1), (.sccCheckonly p, 2), (.sccAbort p, 4), (.sccDiscard p, 8)]

theorem exec_sccCmd_of_pass {s : State} {p : Port} (h : s.dev.gate p R.SCC_CMD = .pass) {c : Instr × Word} (hc : c ∈ sccCmds p) :
    exec c.1 s = .next { s with dev := s.dev.writeSccCmd c.2 } := by
  have hexec : exec c.1 s = .next (s.onDev fun d => d.viaPort p R.SCC_CMD fun d => d.writeSccCmd c.2) := by
    simp only [sccCmds, List.mem_cons, List.not_mem_nil, or_false] at hc
    obtain rfl | rfl | rfl | rfl := hc <;> rfl
  rw [hexec, State.onDev, Dev.viaPort_of_pass h]

theorem Dev.writeSccCmd_of_active {d : Dev} (h : d.isMgr = true) (w : Word) :
    d.writeSccCmd w = { d with scc := { d.scc with cmd := some w } } := if_pos h

theorem Dev.writeSccCmd_of_other {d : Dev} (h : d.isMgr = false) (w : Word) : d.writeSccCmd w = d := by
  rw [Dev.writeSccCmd, h, if_neg Bool.false_ne_true]

/-! ## What the Edge phase takes (R684) -/

/-- The device once the waiting SCC_CMD is taken out, before it acts. -/
def Dev.cmdTaken (d : Dev) : Dev := { d with scc := { d.scc with cmd := none } }

theorem Dev.sccTake_of_go {d : Dev} {co : Bool} (h : d.scc.cmd = some (if co then 2 else 1)) : d.sccTake = d.cmdTaken.sccGo co := by
  cases co <;> rw [Dev.sccTake, h] <;> rfl

theorem Dev.sccTake_of_abort {d : Dev} (h : d.scc.cmd = some 4) : d.sccTake = d.cmdTaken.sccAbort := by
  rw [Dev.sccTake, h]; rfl

theorem Dev.sccRefusal_cmdTaken (d : Dev) : d.cmdTaken.sccRefusal = d.sccRefusal := rfl

/-! ## A command refused (Table SCC-1) -/

/-- RESULT and vector 20 show the code of a refused command. -/
def Dev.cmdRefused (d : Dev) (r : Reason) : Dev := (d.setFld F.SCC_STAT_RESULT r.toNat).raiseIrq 20

theorem Dev.scc_cmdRefused (d : Dev) (r : Reason) : (d.cmdRefused r).scc = d.scc := by simp [Dev.cmdRefused]

theorem Dev.result_cmdRefused (d : Dev) (r : Reason) : (d.cmdRefused r).fld F.SCC_STAT_RESULT = r.toNat :=
  (Dev.fld_raiseIrq _ _ _ (by decide) (by decide)).trans (d.fld_setFld_of_lt (by decide) r.isLt)

theorem Dev.isr_cmdRefused (d : Dev) (r : Reason) : bitOf ((d.cmdRefused r).reg R.HST_ISR0) 20 = true :=
  Dev.isr_raiseIrq _ 20 (by decide)

theorem Dev.regsBut_cmdRefused (d : Dev) (r : Reason) : d.regsBut (d.cmdRefused r) (R.SCC_STAT :: irqRegs) :=
  ((Dev.regsBut.refl d _).setFld (by simp) _).raiseIrq (by simp) 20

theorem Dev.sccGo_of_refused {d : Dev} {r : Reason} (h : d.sccRefusal = some r) (co : Bool) : d.sccGo co = d.cmdRefused r := by
  rw [Dev.sccGo, h]; rfl

theorem Dev.sccAbort_of_decided {d : Dev} {c : CommitSt} (hcur : d.scc.cur = some c) (hdec : c.decision ≠ none) :
    d.sccAbort = d.cmdRefused Rsn.refState := by
  rw [Dev.sccAbort, hcur]
  exact if_pos (Option.isSome_iff_ne_none.2 hdec)

/-! ## The check of a local image begins (R687, R718) -/

/-- The local commit that the SCC registers name, its check begun now. -/
def Dev.localCommit (d : Dev) (co : Bool) : CommitSt :=
  { id := d.num R.SCC_ID, ms := d.num2 R.SCC_MS_LO R.SCC_MS_HI, scope := d.sccScope, local_ := true, checkOnly := co, checkBn := d.now }

/-- The device with the check of a local commit begun: no vote is waited for. -/
def Dev.checkBegun (d : Dev) (c : CommitSt) : Dev :=
  let e := ((d.startCheck c).setNum R.SCC_VOTES 0).setNum R.SCC_PENDV 0
  { e with scc := { e.scc with await := 0 } }

theorem Dev.sccGo_of_local {d : Dev} (hfree : d.sccRefusal = none) (hloc : d.sccScope = 2 ^ d.pos) (co : Bool) :
    d.sccGo co = d.checkBegun (d.localCommit co) := by
  simp only [Dev.sccGo, hfree, hloc, beq_self_eq_true, if_true, Dev.localCommit]
  rfl

theorem Dev.cur_checkBegun (d : Dev) (c : CommitSt) : (d.checkBegun c).scc.cur = some { c with checkBn := d.now } := rfl

theorem Dev.stage_checkBegun (d : Dev) (c : CommitSt) : (d.checkBegun c).stage = d.stage := rfl

/-- The vote registers do not move the fields of SCC_STAT. -/
theorem Dev.fld_checkBegun {f : Fld} (hf : f.a = R.SCC_STAT) (d : Dev) (c : CommitSt) :
    (d.checkBegun c).fld f = (d.startCheck c).fld f := by
  have hregs : (d.checkBegun c).regs = (((d.startCheck c).setNum R.SCC_VOTES 0).setNum R.SCC_PENDV 0).regs := rfl
  rw [Dev.fld_congr hregs, Dev.setNum, Dev.fld_setReg_ne _ _ _ _ (by rw [hf]; decide), Dev.setNum,
    Dev.fld_setReg_ne _ _ _ _ (by rw [hf]; decide)]

theorem Dev.phase_checkBegun (d : Dev) (c : CommitSt) : (d.checkBegun c).fld F.SCC_STAT_PHASE = 1 :=
  (d.fld_checkBegun rfl c).trans <|
    (Dev.fld_setFlag_ne _ _ _ _ (by decide) (by decide)).trans (Dev.fld_setFld_of_lt _ (by decide) (by decide))

theorem Dev.locked_checkBegun (d : Dev) (c : CommitSt) : (d.checkBegun c).flag F.SCC_STAT_LOCKED = c.scope.testBit d.pos := by
  rw [Dev.flag, d.fld_checkBegun rfl c]
  exact Dev.flag_setFlag_same _ _ _ (by decide) rfl

/-! ## The end of a commit without applying (R682, R699, R702, R709) -/

/-- The failing position, unit and code, as SCC_FAIL shows them. -/
def failWord (code : Reason) (pos unit : Nat) : Nat := pos % 32 + unit % 256 * 2 ^ 8 + code.toNat * 2 ^ 16

/-- SCC_STAT and SCC_FAIL show an aborted commit: unlocked, phase 5, and why it failed. -/
def Dev.abortShown (d : Dev) (code : Reason) (pos unit : Nat) : Dev :=
  (((d.setFlag F.SCC_STAT_LOCKED false).sccPhase 5).setFld F.SCC_STAT_RESULT code.toNat).setNum R.SCC_FAIL (failWord code pos unit)

/-- The COMMIT record of the abort, due on the manager and on a device that has voted. -/
def Dev.abortSealed (d : Dev) (c : CommitSt) (code : Reason) (pos : Nat) : Dev :=
  if d.isMgr || c.voted then d.dueRec 5 [cmtRec c 1 d.now (code.toNat + pos % 32 * 2 ^ 16) 0] else d

/-- The ABORT that the manager of a ring-wide commit sends. -/
def Dev.abortTold (d : Dev) (c : CommitSt) (code : Reason) (pos : Nat) : Dev :=
  if d.isMgr && !c.local_ then d.cmtHeader c 3 code pos else d

@[simp] theorem Dev.abortShown_keeps (d : Dev) (code : Reason) (pos unit : Nat) :
    (d.abortShown code pos unit).stage = d.stage ∧ (d.abortShown code pos unit).scc = d.scc := ⟨rfl, rfl⟩

@[simp] theorem Dev.abortSealed_keeps (d : Dev) (c : CommitSt) (code : Reason) (pos : Nat) :
    (d.abortSealed c code pos).regs = d.regs ∧ (d.abortSealed c code pos).stage = d.stage ∧ (d.abortSealed c code pos).scc = d.scc := by
  unfold Dev.abortSealed; split <;> exact ⟨rfl, rfl, rfl⟩

@[simp] theorem Dev.abortTold_keeps (d : Dev) (c : CommitSt) (code : Reason) (pos : Nat) :
    (d.abortTold c code pos).regs = d.regs ∧ (d.abortTold c code pos).stage = d.stage ∧
    (d.abortTold c code pos).scc.cur = d.scc.cur := by
  unfold Dev.abortTold; split <;> exact ⟨rfl, rfl, rfl⟩

/-- The device with no commit in progress. -/
def Dev.uncommitted (d : Dev) : Dev := { d with scc := { d.scc with cur := none } }

section
variable {d : Dev} {c : CommitSt} (hcur : d.scc.cur = some c) (hprov : c.prov = false) (code : Reason) (pos unit : Nat)
include hcur hprov

theorem Dev.commitAbort_of_images : d.commitAbort code pos unit =
    (((d.uncommitted.abortShown code pos unit).abortSealed c code pos).raiseIrq 20).abortTold c code pos := by
  simp only [Dev.commitAbort, hcur, hprov, Bool.false_eq_true, if_false]
  rfl

theorem Dev.cur_commitAbort : (d.commitAbort code pos unit).scc.cur = none := by
  simp [Dev.commitAbort_of_images hcur hprov, Dev.uncommitted]

theorem Dev.stage_commitAbort : (d.commitAbort code pos unit).stage = d.stage := by
  simp [Dev.commitAbort_of_images hcur hprov, Dev.uncommitted]

/-- Beside the interrupt's, the fields after an abort are those that SCC_STAT and SCC_FAIL show. -/
theorem Dev.fld_commitAbort {f : Fld} (hf : irqReg f.a = false) :
    (d.commitAbort code pos unit).fld f = (d.abortShown code pos unit).fld f := by
  rw [Dev.commitAbort_of_images hcur hprov, Dev.fld_congr (Dev.abortTold_keeps ..).1, Dev.fld_raiseIrq _ _ _ (by decide) hf,
    Dev.fld_congr (Dev.abortSealed_keeps ..).1]
  rfl

theorem Dev.regsBut_commitAbort : d.regsBut (d.commitAbort code pos unit) (R.SCC_STAT :: R.SCC_FAIL :: irqRegs) := by
  rw [Dev.commitAbort_of_images hcur hprov]
  have hshown : d.regsBut (d.uncommitted.abortShown code pos unit) (R.SCC_STAT :: R.SCC_FAIL :: irqRegs) :=
    (((((Dev.regsBut.of_regs rfl _).setFlag (by simp) _).setFld (by simp) _).setFld (by simp) _).setNum (by simp) _)
  have hsealed := hshown.trans (.of_regs (Dev.abortSealed_keeps _ c code pos).1 _)
  exact (hsealed.raiseIrq (by simp) 20).trans (.of_regs (Dev.abortTold_keeps ..).1 _)

end

/-- SCC_FAIL stands beside the fields of SCC_STAT. -/
theorem Dev.fld_abortShown {f : Fld} (hf : f.a = R.SCC_STAT) (d : Dev) (code : Reason) (pos unit : Nat) :
    (d.abortShown code pos unit).fld f =
      (((d.setFlag F.SCC_STAT_LOCKED false).sccPhase 5).setFld F.SCC_STAT_RESULT code.toNat).fld f :=
  Dev.fld_setReg_ne _ _ _ _ (by rw [hf]; decide)

theorem Dev.phase_abortShown (d : Dev) (code : Reason) (pos unit : Nat) : (d.abortShown code pos unit).fld F.SCC_STAT_PHASE = 5 :=
  (d.fld_abortShown rfl code pos unit).trans <|
    (Dev.fld_setFld_ne _ _ _ _ (by decide) (by decide)).trans (Dev.fld_setFld_of_lt _ (by decide) (by decide))

theorem Dev.result_abortShown (d : Dev) (code : Reason) (pos unit : Nat) :
    (d.abortShown code pos unit).fld F.SCC_STAT_RESULT = code.toNat :=
  (d.fld_abortShown rfl code pos unit).trans (Dev.fld_setFld_of_lt _ (by decide) code.isLt)

theorem Dev.sccAbort_of_undecided {d : Dev} {c : CommitSt} (hcur : d.scc.cur = some c) (hdec : c.decision = none) :
    d.sccAbort = d.commitAbort Chk.hostAbort d.pos 0 := by
  simp [Dev.sccAbort, hcur, hdec]

/-! ## A copy of the staged bits (R682) -/

/-- The word v with the bits of a mask taken from w. -/
def copied (m v w : Word) : Word := (v &&& ~~~m) ||| (w &&& m)

theorem copied_of_agree {m v w : Word} (h : v &&& m = w &&& m) : copied m v w = v := by
  rw [copied, ← h, ← BitVec.and_or_distrib_left, BitVec.not_or_self, BitVec.and_allOnes]

theorem copied_and_mask (m v w : Word) : copied m v w &&& m = w &&& m := by
  ext i hi
  cases hm : m[i] <;> simp [copied, hm]

theorem copied_copied (m v w : Word) : copied m (copied m v w) w = copied m v w := copied_of_agree (copied_and_mask m v w)

/-- A fold of copies at single offsets, seen at the offset a: the word written takes the bits there once a is in the list, and the word
read from never moves. -/
theorem foldl_copies {a : Nat} {m : Word} {written source : Dev → Word} {f : Dev → Nat → Dev}
    (hsource : ∀ d b, source (f d b) = source d)
    (hwritten : ∀ d b, written (f d b) = if a = b then copied m (written d) (source d) else written d) (l : List Nat) :
    ∀ d, written (l.foldl f d) = if a ∈ l then copied m (written d) (source d) else written d := by
  induction l with
  | nil => intro d; rfl
  | cons b l ih =>
    intro d
    rw [List.foldl_cons, ih, hsource, hwritten]
    by_cases hb : a = b <;> by_cases hl : a ∈ l <;> simp [hb, hl, copied_copied]

/-! ## Where the images differ -/

theorem exists_key_of_mgetD_ne {V : Type} {dflt : Nat → V} {m : SMap V} {k : Nat} (h : mgetD dflt m k ≠ dflt k) :
    k ∈ m.map fun c => c.1 := by
  by_contra hno
  refine h ?_
  have hfind : m.find? (fun c => c.1 == k) = none :=
    List.find?_eq_none.2 fun c hc he => hno (List.mem_map.2 ⟨c, hc, beq_iff_eq.1 he⟩)
  rw [mgetD, hfind]

/-- The dirty offsets are those whose staged bits differ. -/
theorem Dev.mem_dirtyKeys_iff (d : Dev) (a : Nat) : a ∈ d.dirtyKeys ↔ d.reg a &&& stMask a ≠ d.stg a &&& stMask a := by
  have hkey : d.reg a &&& stMask a ≠ d.stg a &&& stMask a → a ∈ d.imageKeys := fun hne => by
    have hmask : stMask a ≠ 0 := fun h0 => hne (by rw [h0]; exact BitVec.and_zero.trans BitVec.and_zero.symm)
    have hset : d.reg a ≠ resetWord a ∨ d.stg a ≠ resetWord a := by
      by_contra hboth
      obtain ⟨hreg, hstg⟩ := not_or.1 hboth
      exact hne (by rw [not_not.1 hreg, not_not.1 hstg])
    have hmem := hset.imp exists_key_of_mgetD_ne exists_key_of_mgetD_ne
    exact List.mem_filter.2 ⟨List.mem_eraseDups.2 (List.mem_append.2 hmem), bne_iff_ne.2 hmask⟩
  simpa [Dev.dirtyKeys] using hkey

/-- Copying at the dirty offsets alone is copying everywhere. -/
theorem Dev.copied_at_dirty (d : Dev) (a : Nat) {v w : Word} (h : a ∉ d.dirtyKeys → v &&& stMask a = w &&& stMask a) :
    (if a ∈ d.dirtyKeys then copied (stMask a) v w else v) = copied (stMask a) v w := by
  split
  case isTrue => rfl
  case isFalse hclean => exact (copied_of_agree (h hclean)).symm

theorem Dev.agree_of_clean {d : Dev} {a : Nat} (h : a ∉ d.dirtyKeys) : d.reg a &&& stMask a = d.stg a &&& stMask a :=
  not_not.1 (mt (d.mem_dirtyKeys_iff a).2 h)

/-! ## The swap and DISCARD (R682) -/

/-- One word of the swap: the staged bits of an offset go into the active image. -/
def Dev.swapAt (d : Dev) (a : Nat) : Dev := d.setReg a (copied (stMask a) (d.reg a) (d.stg a))

/-- One word of DISCARD: the staged bits of an offset go back into the stage image. -/
def Dev.discardAt (d : Dev) (a : Nat) : Dev := d.setStg a (copied (stMask a) (d.stg a) (d.reg a))

theorem Dev.swapImage_eq_foldl (d : Dev) : d.swapImage = d.dirtyKeys.foldl Dev.swapAt d := rfl

theorem Dev.discardStage_eq_foldl (d : Dev) : d.discardStage = d.dirtyKeys.foldl Dev.discardAt d := rfl

theorem Dev.stg_swapImage (d : Dev) (a : Nat) : d.swapImage.stg a = d.stg a :=
  foldl_keeps Dev.swapAt (fun d => d.stg a) (fun _ _ => rfl) _ d

theorem Dev.reg_discardStage (d : Dev) (a : Nat) : d.discardStage.reg a = d.reg a :=
  foldl_keeps Dev.discardAt (fun d => d.reg a) (fun _ _ => rfl) _ d

theorem Dev.reg_swapAt (d : Dev) (a b : Nat) :
    (d.swapAt b).reg a = if a = b then copied (stMask a) (d.reg a) (d.stg a) else d.reg a := by
  rw [Dev.swapAt, Dev.reg_setReg]
  split
  case isTrue hab => rw [hab]
  case isFalse => rfl

theorem Dev.stg_discardAt (d : Dev) (a b : Nat) :
    (d.discardAt b).stg a = if a = b then copied (stMask a) (d.stg a) (d.reg a) else d.stg a := by
  rw [Dev.discardAt, Dev.stg_setStg]
  split
  case isTrue hab => rw [hab]
  case isFalse => rfl

theorem Dev.reg_swapImage (d : Dev) (a : Nat) : d.swapImage.reg a = copied (stMask a) (d.reg a) (d.stg a) := by
  rw [Dev.swapImage_eq_foldl, foldl_copies (f := Dev.swapAt) (written := fun d => d.reg a) (source := fun d => d.stg a)
    (fun _ _ => rfl) (fun d b => d.reg_swapAt a b), d.copied_at_dirty a Dev.agree_of_clean]

theorem Dev.stg_discardStage (d : Dev) (a : Nat) : d.discardStage.stg a = copied (stMask a) (d.stg a) (d.reg a) := by
  rw [Dev.discardStage_eq_foldl, foldl_copies (f := Dev.discardAt) (written := fun d => d.stg a) (source := fun d => d.reg a)
    (fun _ _ => rfl) (fun d b => d.stg_discardAt a b), d.copied_at_dirty a fun h => (Dev.agree_of_clean h).symm]

/-! ## The statement -/

/-- Settles O52: an SCC_CMD write waits for the Edge phase on the active manager and a standalone device alone; GO and CHECKONLY there show
their refusal or begin the check; ABORT ends an undecided commit and is refused after the decision; the swap and DISCARD copy the staged
bits. -/
theorem commitCommandsTaken : Obligations.CommitCommandsTaken := by
  unfold Obligations.CommitCommandsTaken
  refine ⟨fun s p hpass => ?written,
    fun d co hcmd => ⟨fun r hr => ?refused, fun hfree hloc => ?begun⟩, fun d c hcmd hcur hdec hprov => ?aborted,
    fun d c hcmd hcur hdec => ?late, fun d a => ⟨d.reg_swapImage a, d.stg_swapImage a, d.stg_discardStage a, d.reg_discardStage a⟩⟩
  case written =>
    intro cmds c hc
    rw [exec_sccCmd_of_pass hpass hc]
    exact ⟨fun hact => by rw [Dev.writeSccCmd_of_active hact], fun hother => by rw [Dev.writeSccCmd_of_other hother]⟩
  case refused =>
    rw [Dev.sccTake_of_go hcmd, Dev.sccGo_of_refused (d.sccRefusal_cmdTaken.trans hr)]
    exact ⟨Dev.scc_cmdRefused _ r, Dev.result_cmdRefused _ r, Dev.isr_cmdRefused _ r, d.cmdTaken.regsBut_cmdRefused r⟩
  case begun =>
    rw [Dev.sccTake_of_go hcmd, Dev.sccGo_of_local (d.sccRefusal_cmdTaken.trans hfree) hloc]
    have hown : (d.cmdTaken.localCommit co).scope.testBit d.pos = true := by
      rw [show (d.cmdTaken.localCommit co).scope = 2 ^ d.pos from hloc, Nat.testBit_two_pow_self]
    exact ⟨Dev.cur_checkBegun _ _, Dev.phase_checkBegun _ _, (Dev.locked_checkBegun _ _).trans hown, Dev.stage_checkBegun _ _⟩
  case aborted =>
    have htaken : d.cmdTaken.scc.cur = some c := hcur
    rw [Dev.sccTake_of_abort hcmd, Dev.sccAbort_of_undecided htaken hdec]
    exact ⟨Dev.cur_commitAbort htaken hprov _ _ _,
      (Dev.fld_commitAbort htaken hprov _ _ _ (by decide)).trans (Dev.phase_abortShown ..),
      (Dev.fld_commitAbort htaken hprov _ _ _ (by decide)).trans (Dev.result_abortShown ..),
      Dev.stage_commitAbort htaken hprov _ _ _, Dev.regsBut_commitAbort htaken hprov _ _ _⟩
  case late =>
    rw [Dev.sccTake_of_abort hcmd, Dev.sccAbort_of_decided (d := d.cmdTaken) hcur hdec]
    exact ⟨Dev.scc_cmdRefused _ _, Dev.result_cmdRefused _ _, Dev.isr_cmdRefused _ _, d.cmdTaken.regsBut_cmdRefused _⟩

end Sys2Proof.Machine
end

section
/-!
PROOF. Reset values of the registers (R853, R854, Table MAP-2): the offsets that a row of reset values covers, no offset in two rows, and
what `resetWord` answers for an offset in a row and for one in none.
-/
namespace Sys2Proof.Machine
open Sys2Proof

/-! ## The offsets that a row covers -/

/-- A row of reset values, as in `resetRows`: offset, strides and counts, value. -/
abbrev ResetRow := Nat × List (Nat × Nat) × Nat

/-- The row gives the reset value of the offset. -/
def ResetRow.covers (r : ResetRow) (a : Nat) : Bool := decide (r.1 ≤ a) && inDims r.2.1 (a - r.1)

theorem ResetRow.covers_iff {b v a : Nat} {dims : List (Nat × Nat)} :
    ResetRow.covers (b, dims, v) a = true ↔ ∃ o, inDims dims o = true ∧ a = b + o := by
  simp only [ResetRow.covers, Bool.and_eq_true, decide_eq_true_eq]
  constructor
  · rintro ⟨hle, hin⟩
    exact ⟨a - b, hin, by omega⟩
  · rintro ⟨o, hin, rfl⟩
    exact ⟨Nat.le_add_right b o, by rwa [Nat.add_sub_cancel_left]⟩

theorem inDims_nil {o : Nat} : inDims [] o = true ↔ o = 0 := beq_iff_eq

theorem inDims_cons {s n o : Nat} {dims : List (Nat × Nat)} :
    inDims ((s, n) :: dims) o = true ↔ o / s < n ∧ inDims dims (o % s) = true := by
  simp only [inDims, Bool.and_eq_true, decide_eq_true_eq]

/-- An offset lies on a grid when it is an index times the outer stride, and a rest below that stride on the inner grid. -/
theorem inDims_cons_iff_exists {s n o : Nat} {dims : List (Nat × Nat)} (hs : 0 < s) :
    inDims ((s, n) :: dims) o = true ↔ ∃ i < n, ∃ u < s, inDims dims u = true ∧ o = s * i + u := by
  rw [inDims_cons]
  constructor
  · rintro ⟨hi, hu⟩
    exact ⟨o / s, hi, o % s, Nat.mod_lt o hs, hu, (Nat.div_add_mod o s).symm⟩
  · rintro ⟨i, hi, u, hus, hu, rfl⟩
    rw [Nat.mul_add_div hs, Nat.div_eq_of_lt hus, Nat.mul_add_mod, Nat.mod_eq_of_lt hus]
    exact ⟨hi, hu⟩

theorem ResetRow.covers_register {b v a : Nat} : ResetRow.covers (b, [], v) a = true ↔ a = b := by
  simp [ResetRow.covers_iff, inDims_nil]

/-- The index wraps at the count, as it does in the offsets of `R`. -/
theorem ResetRow.covers_array {b s n v a : Nat} (hs : 0 < s) :
    ResetRow.covers (b, [(s, n)], v) a = true ↔ ∃ i < n, a = b + s * (i % n) := by
  simp only [ResetRow.covers_iff, inDims_cons_iff_exists hs, inDims_nil]
  constructor
  · rintro ⟨_, ⟨i, hi, _, -, rfl, rfl⟩, rfl⟩
    exact ⟨i, hi, by rw [Nat.mod_eq_of_lt hi]; rfl⟩
  · rintro ⟨i, hi, rfl⟩
    exact ⟨_, ⟨i, hi, 0, hs, rfl, rfl⟩, by rw [Nat.mod_eq_of_lt hi]; rfl⟩

theorem ResetRow.covers_table {b s n t m v a : Nat} (hs : 0 < s) (ht : 0 < t) (hfit : t * m ≤ s) :
    ResetRow.covers (b, [(s, n), (t, m)], v) a = true ↔ ∃ i < n, ∃ j < m, a = b + s * (i % n) + t * (j % m) := by
  simp only [ResetRow.covers_iff, inDims_cons_iff_exists hs, inDims_cons_iff_exists ht, inDims_nil]
  constructor
  · rintro ⟨_, ⟨i, hi, _, -, ⟨j, hj, _, -, rfl, rfl⟩, rfl⟩, rfl⟩
    exact ⟨i, hi, j, hj, by rw [Nat.mod_eq_of_lt hi, Nat.mod_eq_of_lt hj, Nat.add_zero, Nat.add_assoc]⟩
  · rintro ⟨i, hi, j, hj, rfl⟩
    have hinner : t * j < s := (Nat.mul_lt_mul_of_pos_left hj ht).trans_le hfit
    exact ⟨_, ⟨i, hi, t * j, hinner, ⟨j, hj, 0, ht, rfl, rfl⟩, rfl⟩, by
      rw [Nat.mod_eq_of_lt hi, Nat.mod_eq_of_lt hj, Nat.add_assoc]⟩

/-! ## No offset in two rows -/

/-- The last offset modulo m of a grid that starts at 0: a stride that m divides adds nothing to it. -/
def windowEnd (m : Nat) : List (Nat × Nat) → Nat
  | [] => 0
  | (s, n) :: dims => (if s % m = 0 then 0 else s * (n - 1)) + windowEnd m dims

theorem mod_le_windowEnd {m o : Nat} {dims : List (Nat × Nat)} (h : inDims dims o = true) : o % m ≤ windowEnd m dims := by
  induction dims generalizing o with
  | nil => rw [inDims_nil.1 h, Nat.zero_mod]; exact Nat.zero_le _
  | cons d dims ih =>
    obtain ⟨s, n⟩ := d
    obtain ⟨hi, hu⟩ := inDims_cons.1 h
    rw [windowEnd]
    split
    case isTrue hdvd =>
      rw [← Nat.mod_mod_of_dvd o (Nat.dvd_of_mod_eq_zero hdvd), Nat.zero_add]
      exact ih hu
    case isFalse =>
      calc o % m = (s * (o / s) + o % s % m) % m := by rw [Nat.add_mod_mod, Nat.div_add_mod]
        _ ≤ s * (o / s) + o % s % m := Nat.mod_le _ _
        _ ≤ s * (n - 1) + windowEnd m dims := Nat.add_le_add (Nat.mul_le_mul_left s (Nat.le_sub_one_of_lt hi)) (ih hu)

/-- Modulo m, the window of the first row ends before that of the second begins, and the second does not wrap. -/
abbrev ResetRow.before (m : Nat) (r q : ResetRow) : Prop :=
  r.1 % m + windowEnd m r.2.1 < q.1 % m ∧ q.1 % m + windowEnd m q.2.1 < m

/-- Two rows lie in windows apart, modulo one of the strides or over the whole map. -/
abbrev ResetRow.apart (r q : ResetRow) : Prop :=
  ∃ m ∈ [0x20, 0x40, 0x100, 0x1000, 2 ^ 20], ResetRow.before m r q ∨ ResetRow.before m q r

theorem ResetRow.mod_mem_window {m a : Nat} {r : ResetRow} (h : r.covers a = true) (hfit : r.1 % m + windowEnd m r.2.1 < m) :
    r.1 % m ≤ a % m ∧ a % m ≤ r.1 % m + windowEnd m r.2.1 := by
  obtain ⟨o, hin, rfl⟩ := ResetRow.covers_iff.1 h
  have hend : o % m ≤ windowEnd m r.2.1 := mod_le_windowEnd hin
  have hmod : (r.1 + o) % m = r.1 % m + o % m := by rw [Nat.add_mod, Nat.mod_eq_of_lt (by omega)]
  rw [hmod]
  exact ⟨Nat.le_add_right _ _, Nat.add_le_add_left hend _⟩

theorem ResetRow.not_covers_of_before {m a : Nat} {r q : ResetRow} (h : ResetRow.before m r q) (hr : r.covers a = true) :
    ¬ q.covers a = true := fun hq => by
  obtain ⟨hbelow, hfit⟩ := h
  have hra := ResetRow.mod_mem_window (m := m) hr (by omega)
  have hqa := ResetRow.mod_mem_window hq hfit
  omega

theorem ResetRow.not_covers_of_apart {r q : ResetRow} {a : Nat} (h : r.apart q) (hr : r.covers a = true) : ¬ q.covers a = true := by
  obtain ⟨m, -, h | h⟩ := h
  · exact ResetRow.not_covers_of_before h hr
  · exact fun hq => ResetRow.not_covers_of_before h hq hr

/-- The rows that `resetWord` looks through: the masked words of the MSI-X vectors as one row, then those of `resetRows`. -/
def resetTable : List ResetRow := (0x480C, [(0x10, 64)], 1) :: resetRows

theorem resetTable_apart : resetTable.Pairwise ResetRow.apart := by decide +kernel

theorem eq_of_covers {r q : ResetRow} {a : Nat} (hr : r ∈ resetTable) (hq : q ∈ resetTable) (hra : r.covers a = true)
    (hqa : q.covers a = true) : r = q := by
  by_contra hne
  have hsymm : Std.Symm ResetRow.apart := ⟨fun _ _ h => h.imp fun _ ⟨hm, hb⟩ => ⟨hm, hb.symm⟩⟩
  exact ResetRow.not_covers_of_apart (resetTable_apart.forall hr hq hne) hra hqa

/-! ## What `resetWord` answers (R853) -/

theorem covers_msixMask {a : Nat} :
    ResetRow.covers (0x480C, [(0x10, 64)], 1) a = true ↔ 0x4800 ≤ a ∧ a < 0x4C00 ∧ a % 16 = 12 := by
  rw [ResetRow.covers_array (by decide)]
  constructor
  · rintro ⟨i, hi, rfl⟩
    omega
  · intro h
    exact ⟨(a - 0x480C) / 16, by omega, by omega⟩

theorem resetWord_eq_find? (a : Nat) :
    resetWord a = ((resetTable.find? fun r => r.covers a).map fun r => BitVec.ofNat 32 r.2.2).getD 0 := by
  simp only [resetWord, resetTable, List.find?_cons, ← covers_msixMask]
  cases ResetRow.covers (0x480C, [(0x10, 64)], 1) a
  case true => rfl
  case false =>
    unfold ResetRow.covers
    cases resetRows.find? _ <;> rfl

theorem resetWord_of_covers {r : ResetRow} {a : Nat} (hr : r ∈ resetTable) (h : r.covers a = true) :
    resetWord a = BitVec.ofNat 32 r.2.2 := by
  have hsome : (resetTable.find? fun r => r.covers a).isSome := List.find?_isSome.2 ⟨r, hr, h⟩
  obtain ⟨q, hq⟩ := Option.isSome_iff_exists.1 hsome
  have hqa : q.covers a = true := List.find?_some (p := fun r => ResetRow.covers r a) hq
  rw [resetWord_eq_find?, hq, eq_of_covers hr (List.mem_of_find?_eq_some hq) h hqa]
  rfl

theorem resetWord_of_no_row {a : Nat} (h : ∀ r ∈ resetTable, ¬ r.covers a = true) : resetWord a = 0 := by
  rw [resetWord_eq_find?, List.find?_eq_none.2 h]; rfl

/-- The reset state lists no register word, so each image reads the word of its reset value. -/
theorem Dev.reg_reset (a : Nat) : State.reset.dev.reg a = resetWord a := rfl

theorem Dev.stg_reset (a : Nat) : State.reset.dev.stg a = resetWord a := rfl

/-- The vector control words of the MSI-X table are those of its row. -/
theorem exists_msixMask_iff {a : Nat} :
    (∃ v < 64, a = R.MSIX_TABLE (4 * v + 3)) ↔ ∃ v < 64, a = 0x480C + 0x10 * (v % 64) :=
  exists_congr fun v => and_congr_right fun hv => by rw [R.MSIX_TABLE]; omega

/-! ## The statement -/

/-- Settles O2: the listed words are those of the rows that `resetWord` looks through, so a listed offset reads its word and any other
reads 0, in both images. -/
theorem resetValuesOfRegisters : Obligations.ResetValuesOfRegisters := by
  unfold Obligations.ResetValuesOfRegisters
  intro listed
  have hlisted : ∀ a w, (a, w) ∈ listed ↔ ∃ r ∈ resetTable, r.covers a = true ∧ w = BitVec.ofNat 32 r.2.2 := by
    intro a w
    -- Both sides become one disjunction over the registers of Table MAP-2, in two orders.
    simp (disch := decide) only [resetTable, resetRows, List.exists_mem_cons_iff, List.not_mem_nil, false_and, exists_false,
      or_false, ResetRow.covers_register, ResetRow.covers_array, ResetRow.covers_table]
    simp only [listed, List.mem_append, List.mem_cons, List.mem_flatMap, List.mem_map, List.mem_range, List.not_mem_nil, or_false,
      Prod.mk.injEq, and_or_left, exists_or, ← and_assoc, exists_and_right, exists_msixMask_iff, @eq_comm _ _ a, @eq_comm _ _ w,
      BitVec.ofNat_eq_ofNat]
    simp only [R.ID_VENDEV, R.ID_CAPS, R.PWR_STAT, R.PWR_CTRL, R.PWR_RESUME, R.PWR_PENTMO, R.PWR_WSTATE, R.SUP_MTHR0, R.SUP_MTHR1,
      R.SUP_MACT, R.SUP_MGAIN, R.SUP_DCTHR1, R.SUP_BKPTHR, R.CLK_CTRL, R.AS_CTRL, R.AS_BYP, R.AS_DIV, R.AS_OUT, R.AS_PN, R.AS_PD,
      R.HST_CQ_MOD, R.JR_ACFG, R.ENC_SPWIN, R.ENC_PERRMAX, R.PO_ILKREL, R.HP_CFG, R.HP_LATMAX, R.HP_EXPECT1, R.HP_ERRTHR, R.TAL_STEP,
      R.TNK_DIV, R.TNK_SGCFG, R.WR_CTRL, R.ASY_CTRL, R.ASY_TDCPER]
    refine iff_of_eq ?_
    ac_rfl
  refine ⟨fun ⟨a, w⟩ hc => ?listed, fun a ha => ?elsewhere, fun a => (Dev.stg_reset a).trans (Dev.reg_reset a).symm⟩
  case listed =>
    obtain ⟨r, hr, hcov, rfl⟩ := (hlisted a w).1 hc
    exact (Dev.reg_reset a).trans (resetWord_of_covers hr hcov)
  case elsewhere =>
    refine (Dev.reg_reset a).trans (resetWord_of_no_row fun r hr hcov => ha ?_)
    exact List.mem_map_of_mem ((hlisted a _).2 ⟨r, hr, hcov, rfl⟩)

end Sys2Proof.Machine
end

section
/-!
PROOF. What a command may touch and where it may stop: all but five commands answer a next state that differs in the device alone, the
segment store changes by writes of bytes only, and a fault or a refusal has one ground each (R518, R902).
-/
namespace Sys2Proof.Machine
open Sys2Proof

/-! ## The queue -/

/-- Settles O1: `step` is defined by the two shapes of the queue. -/
theorem stepRunsFrontCommand : Obligations.StepRunsFrontCommand := by
  refine ⟨fun c rest s h => ?_, fun s h => ?_⟩
  · rw [step, h]
  · rw [step, h]

/-- Settles O3: no register, cell or field of the reset state departs from its default. -/
theorem resetStateIsIdle : Obligations.ResetStateIsIdle :=
  ⟨rfl, rfl, fun _ => rfl, rfl, rfl, rfl, rfl, by decide⟩

/-! ## Commands of the device alone -/

/-- The commands that neither write the segment store nor can be refused. -/
def ofDevice : Instr → Bool
  | .storeWrite .. | .loadStart .. | .loadMessage _ | .spiWrite .. | .jtagInstruction .. => false
  | _ => true

theorem exec_ofDevice {c : Instr} (h : ofDevice c = true) (s : State) : ∃ d, exec c s = .next { s with dev := d } := by
  cases c with
  | storeWrite | loadStart | loadMessage | spiWrite | jtagInstruction => cases h
  | _ => exact ⟨_, rfl⟩

/-! ## The five others -/

/-- The store is as it was, or bytes have been written to it from one address on. -/
def State.storeWritten (s t : State) : Prop := t.store = s.store ∨ ∃ a bs, t.store = storeWrite s.store a bs

theorem State.storeWritten_loadStore (s : State) (m : LoadIn) : s.storeWritten (s.loadStore m) := by
  unfold State.loadStore
  dsimp only
  split
  · exact .inl rfl
  · exact .inr ⟨_, _, rfl⟩

theorem exec_storeWrite_fits {p : Port} {off : BitVec 24} {bs : List Byte} (h : off.toNat + bs.length ≤ 2 ^ 24) (s : State) :
    ∃ t, exec (.storeWrite p off bs) s = .next t ∧ s.storeWritten t := by
  rw [exec_storeWrite_of_inside h]
  split
  · exact ⟨_, rfl, .inl rfl⟩
  · split
    · exact ⟨_, rfl, .inl rfl⟩
    · exact ⟨_, rfl, .inr ⟨_, _, rfl⟩⟩

theorem exec_loadStart_answers (p : Port) (w : Word) (far : Bool) (s : State) :
    ∃ t, exec (.loadStart p w far) s = .next t ∧ s.storeWritten t := by
  change ∃ t, execLoadStart p w far s = .next t ∧ _
  unfold execLoadStart
  dsimp only
  split
  · split
    · exact ⟨_, rfl, .inl rfl⟩
    · exact ⟨_, rfl, State.storeWritten_loadStore _ _⟩
  · exact ⟨_, rfl, .inl rfl⟩

theorem exec_loadMessage_fits {m : LoadIn} (h : m.stream = true ∨ m.dst.toNat + m.bytes.length ≤ 2 ^ 24) (s : State) :
    ∃ t, exec (.loadMessage m) s = .next t ∧ s.storeWritten t := by
  cases hv : s.dev.pwr.vcore with
  | false => exact ⟨s, exec_loadMessage_of_unpowered hv, .inl rfl⟩
  | true => exact ⟨_, exec_loadMessage_of_taken hv h, State.storeWritten_loadStore s m⟩

theorem exec_spiWrite_answers (low : BitVec 6) (addr : BitVec 24) (ws : List Word) (crc : Byte) (s : State) :
    ∃ t, exec (.spiWrite low addr ws crc) s = .next t ∧ s.storeWritten t := by
  change ∃ t, execSpiWrite low addr ws crc s = .next t ∧ _
  unfold execSpiWrite
  dsimp only
  split
  · exact ⟨_, rfl, .inl rfl⟩
  split
  · exact ⟨_, rfl, .inl rfl⟩
  split
  · exact ⟨_, rfl, .inr ⟨_, _, rfl⟩⟩
  split <;> exact ⟨_, rfl, .inl rfl⟩

theorem exec_jtagInstruction_of_taken {i : TapInstr} {tm : Bool} {s : State}
    (h : ∀ k, i = .factory k → s.dev.boot.porst = false ∨ tm = false) : ∃ k : TapInstr,
    exec (.jtagInstruction i tm) s = .next { s with dev := { s.dev with tap := k } } ∧
    ((∃ n, i = .factory n) → k = .bypass) ∧
    ((∀ n, i ≠ .factory n) → k = if s.dev.boot.porst || i == .sample then i else .bypass) := by
  change ∃ k : TapInstr, execJtagInstruction i tm s = _ ∧ _
  cases i with
  | factory n =>
    have hoff : ¬(s.dev.boot.porst && tm) = true := by rcases h n rfl with h | h <;> simp [h]
    exact ⟨.bypass, if_neg hoff, fun _ => rfl, fun hn => absurd rfl (hn n)⟩
  | _ => exact ⟨_, rfl, fun ⟨_, hn⟩ => (nomatch hn), fun _ => rfl⟩

/-! ## What a command answers -/

/-- A command for the segment store that carries operands outside it. -/
def leavesStore (c : Instr) : Prop := wellFormed c = false ∧ ((∃ p off b, c = .storeWrite p off b) ∨ ∃ m, c = .loadMessage m)

/-- A factory instruction of the test access port, under PORST_L and TESTMODE. -/
def State.factoryTest (s : State) (c : Instr) : Prop := s.dev.boot.porst = true ∧ ∃ k, c = .jtagInstruction (.factory k) true

theorem exec_storeWrite_outcome (p : Port) (off : BitVec 24) (bs : List Byte) (s : State) :
    (∃ t, exec (.storeWrite p off bs) s = .next t ∧ s.storeWritten t) ∨
    (exec (.storeWrite p off bs) s = .fault .outsideStore ∧ leavesStore (.storeWrite p off bs)) := by
  by_cases hfit : off.toNat + bs.length ≤ 2 ^ 24
  · exact .inl (exec_storeWrite_fits hfit s)
  · refine .inr ⟨exec_storeWrite_of_outside (Nat.lt_of_not_le hfit), ?_, .inl ⟨p, off, bs, rfl⟩⟩
    rw [wellFormed, decide_eq_false hfit, Bool.and_false]

theorem exec_loadMessage_outcome (m : LoadIn) (s : State) :
    (∃ t, exec (.loadMessage m) s = .next t ∧ s.storeWritten t) ∨
    (exec (.loadMessage m) s = .fault .outsideStore ∧ leavesStore (.loadMessage m)) := by
  by_cases hfit : m.stream = true ∨ m.dst.toNat + m.bytes.length ≤ 2 ^ 24
  · exact .inl (exec_loadMessage_fits hfit s)
  · obtain ⟨hstore, hout⟩ := not_or.1 hfit
    rw [Bool.not_eq_true] at hstore
    cases hv : s.dev.pwr.vcore with
    | false => exact .inl ⟨s, exec_loadMessage_of_unpowered hv, .inl rfl⟩
    | true =>
      refine .inr ⟨exec_loadMessage_of_outside hv hstore (Nat.lt_of_not_le hout), ?_, .inr ⟨m, rfl⟩⟩
      rw [wellFormed, hstore, decide_eq_false hout, Bool.or_false]

theorem exec_jtagInstruction_outcome (i : TapInstr) (tm : Bool) (s : State) :
    (∃ t, exec (.jtagInstruction i tm) s = .next t ∧ s.storeWritten t) ∨
    (exec (.jtagInstruction i tm) s = .refused .factoryTap ∧ s.factoryTest (.jtagInstruction i tm)) := by
  by_cases htest : s.factoryTest (.jtagInstruction i tm)
  · obtain ⟨hporst, k, hk⟩ := id htest
    cases hk
    exact .inr ⟨if_pos (by rw [hporst, Bool.true_and]), htest⟩
  · obtain ⟨k, hk, -⟩ := exec_jtagInstruction_of_taken (i := i) (tm := tm) (s := s) (by
      rintro n rfl
      cases htm : tm with
      | false => exact .inr rfl
      | true => exact .inl (Bool.eq_false_iff.2 fun hp => htest ⟨hp, n, by rw [htm]⟩))
    exact .inl ⟨_, hk, .inl rfl⟩

theorem exec_outcome (c : Instr) (s : State) : (∃ t, exec c s = .next t ∧ s.storeWritten t) ∨
    (exec c s = .fault .outsideStore ∧ leavesStore c) ∨ (exec c s = .refused .factoryTap ∧ s.factoryTest c) := by
  cases hc : ofDevice c with
  | true =>
    obtain ⟨d, hd⟩ := exec_ofDevice hc s
    exact .inl ⟨_, hd, .inl rfl⟩
  | false =>
    cases c with
    | storeWrite p off bs => exact (exec_storeWrite_outcome p off bs s).imp_right .inl
    | loadMessage m => exact (exec_loadMessage_outcome m s).imp_right .inl
    | jtagInstruction i tm => exact (exec_jtagInstruction_outcome i tm s).imp_right .inr
    | loadStart p w far => exact .inl (exec_loadStart_answers p w far s)
    | spiWrite low addr ws crc => exact .inl (exec_spiWrite_answers low addr ws crc s)
    | _ => cases hc

/-! ## The statements -/

/-- Settles O4: a step leaves the store or writes bytes to it (`exec_outcome`), and each byte written keeps the form. -/
theorem storeStaysCanonical : Obligations.StoreStaysCanonical := by
  intro s t hwf hstep
  cases hq : s.pending with
  | nil =>
    rw [stepRunsFrontCommand.2 s hq] at hstep
    cases hstep
    exact hwf
  | cons c rest =>
    rw [stepRunsFrontCommand.1 c rest s hq] at hstep
    rcases exec_outcome c { s with pending := rest } with ⟨u, hu, hw⟩ | ⟨hu, -⟩ | ⟨hu, -⟩
    · cases hu.symm.trans hstep
      rcases hw with hw | ⟨a, bs, hw⟩
      · rw [hw]; exact hwf
      · rw [hw]; exact mwf_storeWrite bs s.store a hwf
    · cases hu.symm.trans hstep
    · cases hu.symm.trans hstep

/-- Settles O6: `exec_outcome` gives each stop its ground, and excludes both for the commands of the third clause. -/
theorem onlyTheseCommandsStop : Obligations.OnlyTheseCommandsStop := by
  intro c s
  refine ⟨fun f hf => ?fault, fun r hr => ?refusal, fun hwf hfree => ?goesOn, fun i tm hfree => ?jtag⟩
  case fault =>
    rcases exec_outcome c s with ⟨u, hu, -⟩ | ⟨hu, hout⟩ | ⟨hu, -⟩ <;> cases hu.symm.trans hf
    exact ⟨rfl, hout⟩
  case refusal =>
    rcases exec_outcome c s with ⟨u, hu, -⟩ | ⟨hu, -⟩ | ⟨hu, htest⟩ <;> cases hu.symm.trans hr
    exact ⟨rfl, htest⟩
  case goesOn =>
    rcases exec_outcome c s with ⟨u, hu, -⟩ | ⟨-, hout, -⟩ | ⟨-, hporst, k, hk⟩
    · exact ⟨u, hu⟩
    · rw [hwf] at hout; cases hout
    · rw [hfree k hk] at hporst; cases hporst
  case jtag =>
    obtain ⟨k, hk, hfactory, hother⟩ := exec_jtagInstruction_of_taken hfree
    refine ⟨_, hk, ?_, ?_, rfl⟩
    · rintro (hf | ⟨hporst, hne⟩)
      · exact hfactory hf
      · by_cases hf : ∃ n, i = .factory n
        · exact hfactory hf
        · have hsample : (i == TapInstr.sample) = false := beq_eq_false_iff_ne.2 hne
          rw [not_exists] at hf
          simp [hother hf, hporst, hsample]
    · rintro hne (hporst | rfl)
      · simp [hother hne, hporst]
      · simp [hother hne]

end Sys2Proof.Machine
end

section
/-!
PROOF. The beat number (R48): what the phases of a beat do, and what they leave of the beat number. Each operation of the Prepare, Seal,
Edge and Gather phases keeps it, chapter by chapter in the order of the model's files; only `Dev.nextBeat` moves it.
-/
namespace Sys2Proof.Machine
open Sys2Proof

/-! ## Folds and choices -/

@[simp] theorem Dev.bn_ite (c : Prop) [Decidable c] (a b : Dev) : (if c then a else b).t.bn = if c then a.t.bn else b.t.bn :=
  apply_ite (fun d : Dev => d.t.bn) c a b

@[simp] theorem Dev.bn_foldl {A : Type} {f : Dev → A → Dev} (hf : ∀ d a, (f d a).t.bn = d.t.bn) (l : List A) (d : Dev) :
    (l.foldl f d).t.bn = d.t.bn := foldl_keeps f (fun d => d.t.bn) hf l d

@[simp] theorem Dev.jobs_ite (c : Prop) [Decidable c] (a b : Dev) : (if c then a else b).jobs = if c then a.jobs else b.jobs :=
  apply_ite Dev.jobs c a b

@[simp] theorem Dev.cal_ite (c : Prop) [Decidable c] (a b : Dev) : (if c then a else b).cal = if c then a.cal else b.cal :=
  apply_ite Dev.cal c a b

/-- What one step of a fold leaves alone of the device in a pair, the fold leaves alone. -/
theorem fst_foldl_keeps {A B C : Type} {f : Dev × C → A → Dev × C} {p : Dev → B} (hf : ∀ a x, p (f a x).1 = p a.1) (l : List A) :
    ∀ a, p (l.foldl f a).1 = p a.1 := by
  induction l with
  | nil => intro a; rfl
  | cons x l ih => intro a; rw [List.foldl_cons, ih, hf]

/-! ## The calendar -/

@[simp] theorem Dev.bn_calFollow (d : Dev) : d.calFollow.t.bn = d.t.bn := by
  unfold Dev.calFollow
  (repeat' split) <;> simp

@[simp] theorem Dev.bn_calAdvance (d : Dev) (n : Nat) : (d.calAdvance n).t.bn = d.t.bn := by simp [Dev.calAdvance]

@[simp] theorem Dev.bn_calBeat (d : Dev) : d.calBeat.t.bn = d.t.bn := by simp [Dev.calBeat]

@[simp] theorem Dev.bn_calEdge (d : Dev) : d.calEdge.t.bn = d.t.bn := by simp [Dev.calEdge]

@[simp] theorem Dev.bn_setCeil (d : Dev) (c : Nat) : (d.setCeil c).t.bn = d.t.bn := by simp [Dev.setCeil]

@[simp] theorem Dev.bn_ceilDue (d : Dev) : d.ceilDue.t.bn = d.t.bn := by simp [Dev.ceilDue]

/-! ## The ledger -/

@[simp] theorem Dev.bn_setCq (d : Dev) (q : Nat) (c : CqSt) : (d.setCq q c).t.bn = d.t.bn := by simp [Dev.setCq]

@[simp] theorem Dev.bn_queueEntry (d : Dev) (q : Nat) (e : CqEntry) : (d.queueEntry q e).t.bn = d.t.bn := by simp [Dev.queueEntry]

@[simp] theorem Dev.bn_entryOf (d : Dev) (ring lpos : Nat) (ws : List Word) : (d.entryOf ring lpos ws).t.bn = d.t.bn := by
  unfold Dev.entryOf
  (repeat' split) <;> simp

@[simp] theorem Dev.bn_setWinState (d : Dev) (hm : Nat) (st : JState) : (d.setWinState hm st).t.bn = d.t.bn := by
  simp [Dev.setWinState]

@[simp] theorem Dev.bn_onSealed (d : Dev) (lpos : Nat) (r : Rec) : (d.onSealed lpos r).t.bn = d.t.bn := by
  unfold Dev.onSealed
  dsimp only
  (repeat' split) <;> simp [*]

@[simp] theorem Dev.bn_sealRec (d : Dev) (r : Rec) : (d.sealRec r).t.bn = d.t.bn := by simp [Dev.sealRec]

@[simp] theorem Dev.bn_sealPhase (d : Dev) : d.sealPhase.t.bn = d.t.bn := by simp [Dev.sealPhase]

@[simp] theorem Dev.bn_endDual (d : Dev) : d.endDual.t.bn = d.t.bn := by simp [Dev.endDual]

@[simp] theorem Dev.bn_sendMirror (d : Dev) : d.sendMirror.t.bn = d.t.bn := by
  unfold Dev.sendMirror
  (repeat' split) <;> simp

@[simp] theorem Dev.draw_keepsTime (d : Dev) :
    (d.draw).1.t.bn = d.t.bn ∧ (d.draw).1.jobs = d.jobs ∧ (d.draw).1.cal = d.cal := by simp [Dev.draw]

/-! ## The synthesizer -/

@[simp] theorem Dev.bn_setCk (d : Dev) (n : Nat) (c : CkSrc) : (d.setCk n c).t.bn = d.t.bn := by simp [Dev.setCk]

@[simp] theorem Dev.bn_ckEach (d : Dev) (f : Nat → CkSrc → CkSrc) : (d.ckEach f).t.bn = d.t.bn := by simp [Dev.ckEach]

@[simp] theorem Dev.bn_asFree (d : Dev) : d.asFree.t.bn = d.t.bn := by simp [Dev.asFree]

@[simp] theorem Dev.bn_asSync (d : Dev) (all : Bool) : (d.asSync all).t.bn = d.t.bn := by simp [Dev.asSync]

@[simp] theorem Dev.bn_muxDone (d : Dev) : d.muxDone.t.bn = d.t.bn := by simp [Dev.muxDone]

@[simp] theorem Dev.bn_asDepFence (d : Dev) (r : Reason) : (d.asDepFence r).t.bn = d.t.bn := by simp [Dev.asDepFence]

@[simp] theorem Dev.bn_asFenced (d : Dev) (r : Reason) : (d.asFenced r).t.bn = d.t.bn := by simp [Dev.asFenced]

@[simp] theorem Dev.bn_asUnfenced (d : Dev) (r : Reason) : (d.asUnfenced r).t.bn = d.t.bn := by simp [Dev.asUnfenced]

@[simp] theorem Dev.bn_asEdge (d : Dev) : d.asEdge.t.bn = d.t.bn := by
  unfold Dev.asEdge
  refine (Dev.bn_foldl (fun d p => by simp) _ _).trans ?_
  split <;> simp

/-! ## Jobs that end -/

@[simp] theorem Dev.bn_settle (d : Dev) (hm : Nat) : (d.settle hm).t.bn = d.t.bn := by
  unfold Dev.settle
  (repeat' split) <;> simp

@[simp] theorem Dev.bn_flawJob (d : Dev) (hm : Nat) (r : Reason) : (d.flawJob hm r).t.bn = d.t.bn := by simp [Dev.flawJob]

/-! ## Encoders -/

@[simp] theorem Dev.bn_setEnc (d : Dev) (n : Nat) (e : EncSt) : (d.setEnc n e).t.bn = d.t.bn := by simp [Dev.setEnc]

@[simp] theorem Dev.bn_encFault (d : Dev) (n : Nat) (f : Fld) (r : Reason) (fence : Bool) : (d.encFault n f r fence).t.bn = d.t.bn := by
  simp [Dev.encFault]

@[simp] theorem Dev.bn_encGather (d : Dev) (n : Nat) : (d.encGather n).t.bn = d.t.bn := by
  rw [Dev.encGather]
  extract_lets
  split
  rename_i d1 e1 h
  extract_lets d2 fast e2 was d3
  have h1 : d1.t.bn = d.t.bn := by
    refine (congrArg (fun r : Dev × EncSt => r.1.t.bn) h).symm.trans ?_
    split
    · exact (Dev.bn_ite ..).trans (by rw [(Dev.setFlag_keeps _ _ _).2.2.2.2.1, ite_self])
    · split <;> rfl
  have h2 : d3.t.bn = d1.t.bn := by
    change (d2.setEnc n e2).t.bn = _
    rw [Dev.bn_setEnc, Dev.bn_ite, (Dev.setFlag_keeps _ _ _).2.2.2.2.1, ite_self]
  rw [Dev.bn_ite, Dev.bn_encFault, ite_self, h2, h1]

/-! ## Tinker engines -/

@[simp] theorem Dev.bn_setEng (d : Dev) (n : Nat) (e : EngSt) : (d.setEng n e).t.bn = d.t.bn := by simp [Dev.setEng]

@[simp] theorem Dev.bn_rxReply (d : Dev) (n : Nat) (w : Word) : (d.rxReply n w).t.bn = d.t.bn := by
  unfold Dev.rxReply Dev.rxPush
  dsimp only
  cases (d.eng n).rx.push (d.rxCap n) d.cyc w with
  | none => simp
  | some q => rfl

@[simp] theorem Dev.bn_reclaimEngine (d : Dev) (n : Nat) : (d.reclaimEngine n).t.bn = d.t.bn := by simp [Dev.reclaimEngine]

@[simp] theorem Dev.bn_haltEngines (d : Dev) : d.haltEngines.t.bn = d.t.bn := by simp [Dev.haltEngines]

@[simp] theorem Dev.bn_stallWatch (d : Dev) : d.stallWatch.t.bn = d.t.bn := by simp [Dev.stallWatch]

/-! ## Head ports -/

@[simp] theorem Dev.bn_hpBuild (d : Dev) (p b : Nat) (col : Option ColOut) : (d.hpBuild p b col).t.bn = d.t.bn := by
  simp [Dev.hpBuild]

@[simp] theorem Dev.bn_hpAbort (d : Dev) (p : Nat) : (d.hpAbort p).t.bn = d.t.bn := by simp [Dev.hpAbort]

@[simp] theorem Dev.bn_hpEnd (d : Dev) (p data cstat : Nat) : (d.hpEnd p data cstat).t.bn = d.t.bn := by
  unfold Dev.hpEnd
  dsimp only
  (repeat' split) <;> simp [*]

@[simp] theorem Dev.bn_hpEdge (d : Dev) (p : Nat) : (d.hpEdge p).t.bn = d.t.bn := by simp [Dev.hpEdge]

@[simp] theorem Dev.bn_hpLapse (d : Dev) (n : Nat) : (d.hpLapse n).t.bn = d.t.bn := by simp [Dev.hpLapse]

/-! ## Precision outputs and markers -/

@[simp] theorem Dev.bn_loadEdge (d : Dev) (hm i : Nat) (l : LaneRun) (e : EdgeDef) (want t : Nat) :
    (d.loadEdge hm i l e want t).t.bn = d.t.bn := by
  simp [Dev.loadEdge]

@[simp] theorem Dev.bn_overtake (d : Dev) (hm i : Nat) (l : LaneRun) : (d.overtake hm i l).t.bn = d.t.bn := by simp [Dev.overtake]

@[simp] theorem Dev.bn_laneLoad (f : Nat) : ∀ (d : Dev) (hm i k : Nat), (Dev.laneLoad f d hm i k).t.bn = d.t.bn := by
  induction f with
  | zero => intros; rfl
  | succ f ih =>
    intro d hm i k
    unfold Dev.laneLoad
    (repeat' split) <;> simp [ih]

@[simp] theorem Dev.bn_lanesLoad (d : Dev) (j : Job) : (d.lanesLoad j).t.bn = d.t.bn := by simp [Dev.lanesLoad]

@[simp] theorem Dev.bn_outsRun (d : Dev) : d.outsRun.t.bn = d.t.bn := by simp [Dev.outsRun]

@[simp] theorem Dev.bn_outsFence (d : Dev) : d.outsFence.t.bn = d.t.bn := by simp [Dev.outsFence]

@[simp] theorem Dev.bn_outsDrain (d : Dev) : d.outsDrain.t.bn = d.t.bn := by simp [Dev.outsDrain]

@[simp] theorem Dev.bn_markAt (d : Dev) (marker t hm : Nat) (set : Bool) : (d.markAt marker t hm set).t.bn = d.t.bn := by
  simp [Dev.markAt]

@[simp] theorem Dev.bn_setMark (d : Dev) (marker hm : Nat) (on : Bool) : (d.setMark marker hm on).t.bn = d.t.bn := by
  simp [Dev.setMark]

@[simp] theorem Dev.bn_marksEdge (d : Dev) : d.marksEdge.t.bn = d.t.bn := by simp [Dev.marksEdge]

/-! ## Players -/

@[simp] theorem Dev.bn_sbRelease (d : Dev) (n upTo : Nat) : (d.sbRelease n upTo).t.bn = d.t.bn := by simp [Dev.sbRelease]

@[simp] theorem Dev.bn_sbEdge (d : Dev) : d.sbEdge.t.bn = d.t.bn := by
  unfold Dev.sbEdge
  exact Dev.bn_foldl (fun d c => by split <;> simp) _ _

@[simp] theorem Dev.bn_sbWater (d : Dev) (n : Nat) : (d.sbWater n).t.bn = d.t.bn := by simp [Dev.sbWater]

@[simp] theorem Dev.bn_underrun (d : Dev) (n hm : Nat) : (d.underrun n hm).t.bn = d.t.bn := by simp [Dev.underrun]

@[simp] theorem Dev.bn_modPlay (d : Dev) (hm k : Nat) (f : PlayRun → PlayRun) : (d.modPlay hm k f).t.bn = d.t.bn := by
  simp [Dev.modPlay]

@[simp] theorem Dev.bn_playMarks (d : Dev) (hm k : Nat) (p : PlayRun) (t : Nat) : (d.playMarks hm k p t).t.bn = d.t.bn := by
  simp [Dev.playMarks]

@[simp] theorem Dev.bn_playEnd (d : Dev) (hm k : Nat) (p : PlayRun) (t : Nat) : (d.playEnd hm k p t).t.bn = d.t.bn := by
  simp [Dev.playEnd]

@[simp] theorem Dev.bn_sendColumn (d : Dev) (m : List Host.Cell) (j : Job) (k : Nat) (p : PlayRun) (b t : Nat) :
    (d.sendColumn m j k p b t).1.t.bn = d.t.bn := by
  unfold Dev.sendColumn
  extract_lets s g ti late off fresh used gno short blank d0 p1 c sums clipped d1 d2 own mk d3 later endSeg endStep marks p2 p3 d4 col
  have h0 : d0.t.bn = d.t.bn := by rw [Dev.bn_ite, Dev.bn_underrun, ite_self]
  have h1 : d1.t.bn = d0.t.bn := by rw [Dev.bn_ite, (Dev.addSat_keeps _ _ _).2.2.2.2.1, ite_self]
  have h2 : d2.t.bn = d1.t.bn := by rw [Dev.bn_ite, (Dev.addSat_keeps _ _ _).2.2.2.2.1, ite_self]
  have h3 : d3.t.bn = d2.t.bn := Dev.bn_foldl (fun d x => by rw [Dev.bn_ite, Dev.bn_markAt, ite_self]) mk d2
  have h4 : d4.t.bn = d.t.bn := (Dev.bn_modPlay ..).trans (h3.trans (h2.trans (h1.trans h0)))
  split
  · exact h4
  · exact (Dev.bn_flawJob ..).trans h4

@[simp] theorem Dev.bn_passWaits (f : Nat) : ∀ (d : Dev) (hm k l : Nat), (Dev.passWaits f d hm k l).t.bn = d.t.bn := by
  induction f with
  | zero => intros; rfl
  | succ f ih =>
    intro d hm k l
    unfold Dev.passWaits
    (repeat' split) <;> simp [ih]

@[simp] theorem Dev.bn_playPrep (d : Dev) (m : List Host.Cell) (hm k b : Nat) : (d.playPrep m hm k b).1.t.bn = d.t.bn := by
  unfold Dev.playPrep
  split
  · rfl
  split
  · rfl
  split
  · rfl
  split
  · split
    · split
      · simp
      · rfl
    · rfl
  extract_lets s
  split
  rename_i d1 p1 h
  have h1 : d1.t.bn = d.t.bn := by
    refine (congrArg (fun r : Dev × PlayRun => r.1.t.bn) h).symm.trans ?_
    split
    · rfl
    · extract_lets p2 lim d2 p3
      have h2 : d2.t.bn = d.t.bn := (Dev.bn_passWaits ..).trans (Dev.bn_modPlay ..)
      split
      · split
        · exact (Dev.bn_modPlay ..).trans h2
        · exact h2
      · exact h2
  split
  · exact h1
  split
  · exact h1
  · extract_lets d4
    have h4 : d4.t.bn = d.t.bn := (Dev.bn_playMarks ..).trans h1
    split
    · exact (Dev.bn_sendColumn ..).trans h4
    · exact h4

@[simp] theorem Dev.bn_colsPass (d : Dev) (n : Nat) : (d.colsPass n).t.bn = d.t.bn := by
  unfold Dev.colsPass
  split
  · rfl
  refine Dev.bn_foldl (fun d p => Dev.bn_foldl (fun d f => ?_) _ _) _ _
  split
  · rfl
  · dsimp only
    split <;> simp

/-! ## Conflicts of bound jobs -/

@[simp] theorem Dev.bn_armGroup (d : Dev) (j : Job) : (d.armGroup j).1.t.bn = d.t.bn := by
  unfold Dev.armGroup
  (repeat' split) <;> simp

@[simp] theorem Dev.bn_armDue (d : Dev) (hm : Nat) : (d.armDue hm).t.bn = d.t.bn := by
  unfold Dev.armDue
  (repeat' split) <;> simp

@[simp] theorem Dev.bn_settleOne (d : Dev) (hm : Nat) : (d.settleOne hm).t.bn = d.t.bn := by
  unfold Dev.settleOne
  dsimp only
  (repeat' split) <;> simp [*]

@[simp] theorem Dev.bn_settleConflicts (d : Dev) : d.settleConflicts.t.bn = d.t.bn := by simp [Dev.settleConflicts]

/-! ## Admission -/

@[simp] theorem Dev.bn_answer (d : Dev) (j : Nat) (b : List Word) (a : Answer) : (d.answer j b a).t.bn = d.t.bn := by
  simp [Dev.answer]

@[simp] theorem Dev.bn_cancelDone (d : Dev) : d.cancelDone.t.bn = d.t.bn := by simp [Dev.cancelDone]

@[simp] theorem Dev.bn_cancelAnswer (d : Dev) (hm : Nat) (r : Reason) : (d.cancelAnswer hm r).t.bn = d.t.bn := by
  simp [Dev.cancelAnswer]

/-! ## The host port -/

@[simp] theorem Dev.bn_hstErr (d : Dev) (ring : Nat) (r : Reason) : (d.hstErr ring r).t.bn = d.t.bn := by simp [Dev.hstErr]

@[simp] theorem Dev.bn_ringErr (d : Dev) (j : Nat) (r : Reason) : (d.ringErr j r).t.bn = d.t.bn := by simp [Dev.ringErr]

@[simp] theorem Dev.bn_refuseBell (d : Dev) (j : Nat) (r : Reason) : (d.refuseBell j r).t.bn = d.t.bn := by simp [Dev.refuseBell]

@[simp] theorem Dev.bn_takeBell (d : Dev) (j t : Nat) : (d.takeBell j t).t.bn = d.t.bn := by simp [Dev.takeBell]

@[simp] theorem Dev.bn_takeBells (d : Dev) : d.takeBells.t.bn = d.t.bn := by
  unfold Dev.takeBells
  split
  · rfl
  extract_lets e
  have he : e.t.bn = d.t.bn := Dev.bn_foldl (fun d c => by split <;> simp) _ _
  split
  · split
    · exact he
    · exact (Dev.bn_answer ..).trans he
  · exact he

@[simp] theorem Dev.bn_issueReads (d : Dev) : d.issueReads.t.bn = d.t.bn := by simp [Dev.issueReads]

@[simp] theorem Dev.bn_sampleHeads (d : Dev) : d.sampleHeads.t.bn = d.t.bn := by simp [Dev.sampleHeads]

@[simp] theorem Dev.bn_goEdge (d : Dev) : d.goEdge.t.bn = d.t.bn := by simp [Dev.goEdge]

/-! ## The assay -/

@[simp] theorem Dev.bn_asyResult (d : Dev) (r : Reason) : (d.asyResult r).t.bn = d.t.bn := by simp [Dev.asyResult]

@[simp] theorem Dev.bn_asyShow (d : Dev) : d.asyShow.t.bn = d.t.bn := by
  unfold Dev.asyShow
  (repeat' split) <;> simp

@[simp] theorem Dev.bn_asyEnd (d : Dev) (r : Reason) : (d.asyEnd r).t.bn = d.t.bn := by
  unfold Dev.asyEnd
  (repeat' split) <;> simp

@[simp] theorem Dev.bn_loopPulses (d : Dev) (n k : Nat) : (d.loopPulses n k).t.bn = d.t.bn := by simp [Dev.loopPulses]

@[simp] theorem Dev.bn_asyDisturb (d : Dev) : d.asyDisturb.t.bn = d.t.bn := by
  unfold Dev.asyDisturb
  (repeat' split) <;> simp

@[simp] theorem Dev.bn_asyAttempt (d : Dev) : d.asyAttempt.t.bn = d.t.bn := by
  unfold Dev.asyAttempt
  (repeat' split) <;> simp

@[simp] theorem Dev.bn_asyStart (d : Dev) (proc target loopIn : Nat) (auto : Bool) :
    (d.asyStart proc target loopIn auto).t.bn = d.t.bn := by
  simp [Dev.asyStart]

@[simp] theorem Dev.bn_putSets (d : Dev) (sets : List (Nat × List Int)) : (d.putSets sets).t.bn = d.t.bn := by simp [Dev.putSets]

@[simp] theorem Dev.bn_asyEdge (d : Dev) : d.asyEdge.t.bn = d.t.bn := by
  unfold Dev.asyEdge
  dsimp only
  (repeat' split) <;> simp [*]

@[simp] theorem Dev.bn_driftMeasure (d : Dev) : d.driftMeasure.t.bn = d.t.bn := by simp [Dev.driftMeasure]

/-! ## The clock -/

@[simp] theorem Dev.bn_clockJobs (d : Dev) : d.clockJobs.t.bn = d.t.bn := by simp [Dev.clockJobs]

@[simp] theorem Dev.bn_clockDecide (d : Dev) : d.clockDecide.t.bn = d.t.bn := by simp [Dev.clockDecide]

@[simp] theorem Dev.bn_handoverAt (d : Dev) (h : Nat) : (d.handoverAt h).t.bn = d.t.bn := by simp [Dev.handoverAt]

@[simp] theorem Dev.bn_handoverAsk (d : Dev) : d.handoverAsk.t.bn = d.t.bn := by simp [Dev.handoverAsk]

@[simp] theorem Dev.bn_clkEdge (d : Dev) : d.clkEdge.t.bn = d.t.bn := by simp [Dev.clkEdge]

/-! ## Start-up and offsets -/

@[simp] theorem Dev.bn_declareSelf (d : Dev) : d.declareSelf.t.bn = d.t.bn := by
  unfold Dev.declareSelf
  refine (Dev.bn_foldl (fun d j => ?_) _ _).trans (by simp)
  split <;> simp

@[simp] theorem Dev.bn_showLat (d : Dev) : d.showLat.t.bn = d.t.bn := by simp [Dev.showLat]

@[simp] theorem Dev.bn_putOffsets (d : Dev) (t : List Int) : (d.putOffsets t).t.bn = d.t.bn := by simp [Dev.putOffsets]

/-! ## Power and supply -/

@[simp] theorem Dev.supEvent_keepsTime (d : Dev) (r : Reason) (val : Nat) :
    (d.supEvent r val).t.bn = d.t.bn ∧ (d.supEvent r val).jobs = d.jobs ∧ (d.supEvent r val).cal = d.cal := by simp [Dev.supEvent]

@[simp] theorem Dev.braceReq_keepsTime (d : Dev) (r : Reason) :
    (d.braceReq r).t.bn = d.t.bn ∧ (d.braceReq r).jobs = d.jobs ∧ (d.braceReq r).cal = d.cal := by simp [Dev.braceReq]

@[simp] theorem Dev.supWatch_keepsTime (d : Dev) (r : Reason) (on brace : Bool) (val : Nat) :
    (d.supWatch r on brace val).t.bn = d.t.bn ∧ (d.supWatch r on brace val).jobs = d.jobs ∧
    (d.supWatch r on brace val).cal = d.cal := by
  simp [Dev.supWatch]

@[simp] theorem Dev.sleep_keepsTime (d : Dev) :
    d.sleep.t.bn = d.t.bn ∧ d.sleep.jobs = d.jobs ∧ d.sleep.cal = d.cal := by simp [Dev.sleep]

@[simp] theorem Dev.holdupEnd_keepsTime (d : Dev) :
    d.holdupEnd.t.bn = d.t.bn ∧ d.holdupEnd.jobs = d.jobs ∧ d.holdupEnd.cal = d.cal := by simp [Dev.holdupEnd]

@[simp] theorem Dev.holdupOn_keepsTime (d : Dev) :
    d.holdupOn.t.bn = d.t.bn ∧ d.holdupOn.jobs = d.jobs ∧ d.holdupOn.cal = d.cal := by simp [Dev.holdupOn]

@[simp] theorem Dev.holdup_keepsTime (d : Dev) :
    d.holdup.t.bn = d.t.bn ∧ d.holdup.jobs = d.jobs ∧ d.holdup.cal = d.cal := by simp [Dev.holdup]

@[simp] theorem Dev.watchN_keepsTime (d : Dev) (r : Reason) (on : Bool) (need n : Nat) (brace : Bool) (val : Nat) :
    (d.watchN r on need n brace val).t.bn = d.t.bn ∧ (d.watchN r on need n brace val).jobs = d.jobs ∧
    (d.watchN r on need n brace val).cal = d.cal := by
  simp [Dev.watchN]

@[simp] theorem Dev.halfCount_keepsTime (d : Dev) (sag swell cut bad : Bool) :
    (d.halfCount sag swell cut bad).t.bn = d.t.bn ∧ (d.halfCount sag swell cut bad).jobs = d.jobs ∧
    (d.halfCount sag swell cut bad).cal = d.cal := by
  simp [Dev.halfCount]

@[simp] theorem Dev.freqEvent_keepsTime (d : Dev) (tracking bad : Bool) (f : Nat) :
    (d.freqEvent tracking bad f).t.bn = d.t.bn ∧ (d.freqEvent tracking bad f).jobs = d.jobs ∧
    (d.freqEvent tracking bad f).cal = d.cal := by
  simp [Dev.freqEvent]

@[simp] theorem Dev.halfWatch_keepsTime (d : Dev) (i : BeatIn) (miss : Bool) (rms f : Nat) :
    (d.halfWatch i miss rms f).t.bn = d.t.bn ∧ (d.halfWatch i miss rms f).jobs = d.jobs ∧ (d.halfWatch i miss rms f).cal = d.cal := by
  simp [Dev.halfWatch]

@[simp] theorem Dev.mainsWatch_keepsTime (d : Dev) (i : BeatIn) :
    (d.mainsWatch i).t.bn = d.t.bn ∧ (d.mainsWatch i).jobs = d.jobs ∧ (d.mainsWatch i).cal = d.cal := by
  unfold Dev.mainsWatch
  (repeat' split) <;> simp

@[simp] theorem Dev.dcWatch_keepsTime (d : Dev) (dc : Nat) :
    (d.dcWatch dc).t.bn = d.t.bn ∧ (d.dcWatch dc).jobs = d.jobs ∧ (d.dcWatch dc).cal = d.cal := by simp [Dev.dcWatch]

@[simp] theorem Dev.bkpWatch_keepsTime (d : Dev) (v : Nat) :
    (d.bkpWatch v).t.bn = d.t.bn ∧ (d.bkpWatch v).jobs = d.jobs ∧ (d.bkpWatch v).cal = d.cal := by simp [Dev.bkpWatch]

@[simp] theorem Dev.chargeWatch_keepsTime (d : Dev) (i : BeatIn) :
    (d.chargeWatch i).t.bn = d.t.bn ∧ (d.chargeWatch i).jobs = d.jobs ∧ (d.chargeWatch i).cal = d.cal := by simp [Dev.chargeWatch]

@[simp] theorem Dev.busWatch_keepsTime (d : Dev) (i : BeatIn) :
    (d.busWatch i).t.bn = d.t.bn ∧ (d.busWatch i).jobs = d.jobs ∧ (d.busWatch i).cal = d.cal := by simp [Dev.busWatch]

@[simp] theorem Dev.supSample_keepsTime (d : Dev) (i : BeatIn) :
    (d.supSample i).t.bn = d.t.bn ∧ (d.supSample i).jobs = d.jobs ∧ (d.supSample i).cal = d.cal := by simp [Dev.supSample]

@[simp] theorem Dev.bn_showApply (d : Dev) (b : Nat) : (d.showApply b).t.bn = d.t.bn := by simp [Dev.showApply]

@[simp] theorem Dev.bn_pwrHold (d : Dev) (cmd : Nat) (expire isolate : Bool) (b : Nat) :
    (d.pwrHold cmd expire isolate b).t.bn = d.t.bn := by
  simp [Dev.pwrHold]

@[simp] theorem Dev.bn_pwrSend (d : Dev) (cmd : Nat) (expire isolate : Bool) (tgt b : Nat) :
    (d.pwrSend cmd expire isolate tgt b).t.bn = d.t.bn := by
  simp [Dev.pwrSend]

@[simp] theorem Dev.bn_pwrRingStep (d : Dev) : d.pwrRingStep.t.bn = d.t.bn := by
  unfold Dev.pwrRingStep
  dsimp only
  split
  · rfl
  split
  · split
    · rfl
    · split <;> simp
  · simp
  · simp
  · rfl

/-! ## Fences -/

@[simp] theorem Dev.bn_closeJobs (d : Dev) (all : Bool) : (d.closeJobs all).t.bn = d.t.bn := by simp [Dev.closeJobs]

@[simp] theorem Dev.bn_reclaimed (d : Dev) (n : Nat) : (d.reclaimed n).t.bn = d.t.bn := by simp [Dev.reclaimed]

@[simp] theorem Dev.bn_reclaimDom (d : Dev) (k : Nat) : (d.reclaimDom k).t.bn = d.t.bn := by simp [Dev.reclaimDom]

@[simp] theorem Dev.bn_asFenceSync (d : Dev) : d.asFenceSync.t.bn = d.t.bn := by
  unfold Dev.asFenceSync
  (repeat' split) <;> simp

@[simp] theorem Dev.bn_fenceEdge (d : Dev) : d.fenceEdge.t.bn = d.t.bn := by simp [Dev.fenceEdge]

@[simp] theorem Dev.bn_fenceLift (d : Dev) : d.fenceLift.t.bn = d.t.bn := by
  unfold Dev.fenceLift
  (repeat' split) <;> simp

@[simp] theorem Dev.bn_lostJobs (d : Dev) (p : Nat) : (d.lostJobs p).t.bn = d.t.bn := by simp [Dev.lostJobs]

@[simp] theorem Dev.bn_fenceWorker (d : Dev) (p : Nat) (r : Reason) : (d.fenceWorker p r).t.bn = d.t.bn := by simp [Dev.fenceWorker]

@[simp] theorem Dev.bn_selfFence (d : Dev) (r : Reason) : (d.selfFence r).t.bn = d.t.bn := by simp [Dev.selfFence]

@[simp] theorem Dev.bn_clearWorker (d : Dev) (p : Nat) : (d.clearWorker p).t.bn = d.t.bn := by simp [Dev.clearWorker]

@[simp] theorem Dev.bn_closeRing (d : Dev) (ring : Nat) : (d.closeRing ring).t.bn = d.t.bn := by simp [Dev.closeRing]

@[simp] theorem Dev.bn_hostFence (d : Dev) (k : Nat) (r : Reason) : (d.hostFence k r).1.t.bn = d.t.bn := by
  unfold Dev.hostFence
  (repeat' split) <;> simp

@[simp] theorem Dev.bn_hostUnfence (d : Dev) (k : Nat) : (d.hostUnfence k).1.t.bn = d.t.bn := by
  unfold Dev.hostUnfence
  dsimp only
  (repeat' split) <;> simp [*]

@[simp] theorem Dev.bn_hostPark (d : Dev) (k : Nat) (expire : Bool) : (d.hostPark k expire).1.t.bn = d.t.bn := by
  unfold Dev.hostPark
  dsimp only
  (repeat' split) <;> simp [*]

@[simp] theorem Dev.bn_fenRun (d : Dev) (c : FenCmd) : (d.fenRun c).1.t.bn = d.t.bn := by
  unfold Dev.fenRun
  dsimp only
  (repeat' split) <;> simp [*]

@[simp] theorem Dev.bn_fenTake (d : Dev) : d.fenTake.t.bn = d.t.bn := by
  unfold Dev.fenTake
  (repeat' split) <;> simp

/-! ## Commits -/

@[simp] theorem Dev.bn_discardStage (d : Dev) : d.discardStage.t.bn = d.t.bn := by simp [Dev.discardStage]

@[simp] theorem Dev.bn_sccPhase (d : Dev) (n : Nat) : (d.sccPhase n).t.bn = d.t.bn := by simp [Dev.sccPhase]

@[simp] theorem Dev.bn_cmtHeader (d : Dev) (c : CommitSt) (phase : Nat) (r : Reason) (pos : Nat) :
    (d.cmtHeader c phase r pos).t.bn = d.t.bn := by
  simp [Dev.cmtHeader]

@[simp] theorem Dev.bn_commitAbort (d : Dev) (code : Reason) (pos unit : Nat) : (d.commitAbort code pos unit).t.bn = d.t.bn := by
  unfold Dev.commitAbort
  (repeat' split) <;> simp

@[simp] theorem Dev.bn_startCheck (d : Dev) (c : CommitSt) : (d.startCheck c).t.bn = d.t.bn := by simp [Dev.startCheck]

@[simp] theorem Dev.bn_sccGo (d : Dev) (checkOnly : Bool) : (d.sccGo checkOnly).t.bn = d.t.bn := by
  unfold Dev.sccGo
  (repeat' split) <;> simp

@[simp] theorem Dev.bn_sccAbort (d : Dev) : d.sccAbort.t.bn = d.t.bn := by
  unfold Dev.sccAbort
  (repeat' split) <;> simp

@[simp] theorem Dev.bn_stageTouched (d : Dev) : d.stageTouched.t.bn = d.t.bn := by
  unfold Dev.stageTouched
  (repeat' split) <;> simp

@[simp] theorem Dev.bn_sccDiscard (d : Dev) : d.sccDiscard.t.bn = d.t.bn := by simp [Dev.sccDiscard]

@[simp] theorem Dev.bn_sccTake (d : Dev) : d.sccTake.t.bn = d.t.bn := by
  unfold Dev.sccTake
  (repeat' split) <;> simp

/-! ## The ring -/

@[simp] theorem Dev.bn_setSide (d : Dev) (s : Nat) (v : SideSt) : (d.setSide s v).t.bn = d.t.bn := by simp [Dev.setSide]

@[simp] theorem Dev.bn_sideEdge (d : Dev) : d.sideEdge.t.bn = d.t.bn := by
  unfold Dev.sideEdge
  (repeat' split) <;> simp

@[simp] theorem Dev.bn_fillSlots (d : Dev) (dir : Nat) (slots : List Nat) : (d.fillSlots dir slots).1.t.bn = d.t.bn := by
  simp [Dev.fillSlots]

@[simp] theorem bn_bulkStep (side : BulkMsg → Nat) (a : Dev × Nat × Nat) (x : BulkMsg) : (bulkStep side a x).1.t.bn = a.1.t.bn := by
  simp [bulkStep]

theorem bn_foldl_bulkStep (side : BulkMsg → Nat) (l : List BulkMsg) : ∀ a :
    Dev × Nat × Nat, (l.foldl (bulkStep side) a).1.t.bn = a.1.t.bn := by
  induction l with
  | nil => intro a; rfl
  | cons x l ih => intro a; rw [List.foldl_cons, ih, bn_bulkStep]

@[simp] theorem Dev.bn_bulkOut (d : Dev) (n : Nat) : (d.bulkOut n).t.bn = d.t.bn := by
  unfold Dev.bulkOut
  exact bn_foldl_bulkStep ..

/-! ## Messages and provisioning -/

@[simp] theorem Dev.bn_rejoin (d : Dev) (skew : Bool) : (d.rejoin skew).t.bn = d.t.bn := by simp [Dev.rejoin]

@[simp] theorem Dev.bn_offEdge (d : Dev) : d.offEdge.t.bn = d.t.bn := by
  unfold Dev.offEdge
  (repeat' split) <;> simp

@[simp] theorem Dev.bn_setProv (d : Dev) (p n : Nat) : (d.setProv p n).t.bn = d.t.bn := by simp [Dev.setProv]

@[simp] theorem Dev.bn_provEnd (d : Dev) (p : Nat) : (d.provEnd p).t.bn = d.t.bn := by simp [Dev.provEnd]

@[simp] theorem Dev.bn_provOne (d : Dev) (m : List Host.Cell) (p : Nat) : (d.provOne m p).t.bn = d.t.bn := by
  unfold Dev.provOne
  (repeat' split) <;> simp

@[simp] theorem Dev.bn_provStep (d : Dev) (m : List Host.Cell) : (d.provStep m).t.bn = d.t.bn := by simp [Dev.provStep]

@[simp] theorem Dev.bn_fenceBeat (d : Dev) : d.fenceBeat.t.bn = d.t.bn := by simp [Dev.fenceBeat]

/-! ## Fences of provisioning -/

@[simp] theorem Dev.bn_provFenceEdge (d : Dev) : d.provFenceEdge.t.bn = d.t.bn := by
  unfold Dev.provFenceEdge
  (repeat' split) <;> simp

/-! ## The phases of a beat -/

@[simp] theorem Dev.bn_portColumn (d : Dev) (m : List Host.Cell) (p b : Nat) (js : List Job) :
    (d.portColumn m p b js).1.t.bn = d.t.bn := by
  unfold Dev.portColumn
  refine fst_foldl_keeps (p := fun d => d.t.bn) (fun a j => fst_foldl_keeps (p := fun d => d.t.bn) (fun a k => ?_) _ _) _ _
  split
  · split
    · exact Dev.bn_playPrep ..
    · rfl
  · rfl

@[simp] theorem Dev.bn_framesBuild (d : Dev) (m : List Host.Cell) (js : List Job) : (d.framesBuild m js).t.bn = d.t.bn := by
  simp [Dev.framesBuild]

@[simp] theorem Dev.bn_prepPhase (d : Dev) (m : List Host.Cell) : (d.prepPhase m).t.bn = d.t.bn := by simp [Dev.prepPhase]

@[simp] theorem Dev.bn_rearm (d : Dev) (hm : Nat) : (d.rearm hm).t.bn = d.t.bn := by
  unfold Dev.rearm
  (repeat' split) <;> simp

@[simp] theorem Dev.bn_sealLate (d : Dev) (hm : Nat) : (d.sealLate hm).t.bn = d.t.bn := by
  unfold Dev.sealLate
  (repeat' split) <;> simp

@[simp] theorem Dev.bn_bindOut (d : Dev) : d.bindOut.t.bn = d.t.bn := by simp [Dev.bindOut]

@[simp] theorem Dev.bn_statusOut (d : Dev) : d.statusOut.t.bn = d.t.bn := by
  unfold Dev.statusOut
  dsimp only
  (repeat' split) <;> simp [*]

@[simp] theorem Dev.bn_originOut (d : Dev) (ho : Bool) : (d.originOut ho).t.bn = d.t.bn := by
  unfold Dev.originOut
  dsimp only
  (repeat' split) <;> simp [*]

@[simp] theorem Dev.bn_sendAcked (d : Dev) : d.sendAcked.t.bn = d.t.bn := by simp [Dev.sendAcked]

@[simp] theorem Dev.bn_ringOut (d : Dev) (ho : Bool) : (d.ringOut ho).t.bn = d.t.bn := by simp [Dev.ringOut]

@[simp] theorem Dev.bn_ringWatch (d : Dev) : d.ringWatch.t.bn = d.t.bn := by simp [Dev.ringWatch]

@[simp] theorem Dev.bn_beatEnd (d : Dev) (m : List Host.Cell) (overran : List Nat) : (d.beatEnd m overran).t.bn = d.t.bn := by
  simp [Dev.beatEnd]

@[simp] theorem Dev.bn_edgeUnits (d : Dev) (m : List Host.Cell) : (d.edgeUnits m).t.bn = d.t.bn := by simp [Dev.edgeUnits]

@[simp] theorem Dev.bn_haltEdge (d : Dev) : d.haltEdge.t.bn = d.t.bn := by simp [Dev.haltEdge]

@[simp] theorem Dev.bn_edgeOuts (d : Dev) : d.edgeOuts.t.bn = d.t.bn := by simp [Dev.edgeOuts]

@[simp] theorem Dev.bn_gather (d : Dev) : d.gather.t.bn = d.t.bn := by simp [Dev.gather]

/-! ## The beat edge (R48) -/

/-- The beat number that `Dev.nextBeat` sets is the next one. -/
theorem Dev.bn_nextBeat (d : Dev) : d.nextBeat.t.bn = d.t.bn + 1 := by
  change BitVec.ofNat 56 (d.t.bn.toNat + 1) = _
  rw [BitVec.ofNat_add, BitVec.ofNat_toNat, BitVec.setWidth_eq]
  rfl

theorem Dev.bn_beatStart (d : Dev) (m : List Host.Cell) (i : BeatIn) : (d.beatStart m i).t.bn = d.t.bn + 1 := by
  simp [Dev.beatStart, Dev.bn_nextBeat]

/-- Settles O20: with the counter stopped the supervisor alone takes its sample; with it running, the end of the beat keeps the number
(`Dev.bn_beatEnd`) and its start steps it once (`Dev.bn_beatStart`). -/
theorem beatNumberAdvancesByOne : Obligations.BeatNumberAdvancesByOne := by
  intro i s
  refine ⟨_, rfl, rfl, fun hv hrun => ?running, fun hstop => ?stopped⟩
  case running =>
    dsimp only [State.onDevR]
    rw [if_neg (by simp [hv, hrun])]
    rw [Dev.bn_ite, Dev.bn_settleConflicts, ite_self, Dev.bn_beatStart, Dev.bn_beatEnd]
  case stopped =>
    dsimp only [State.onDevR]
    rw [if_pos (by rcases hstop with h | h <;> simp [h])]
    exact s.dev.supSample_keepsTime i

end Sys2Proof.Machine
end

section
/-!
PROOF. Which register writes a port may make, and what becomes of accesses that it may not make (06_host_port.md R262, R263; 03_straps_and_startup.md
R117, R121).
-/
namespace Sys2Proof.Machine
open Sys2Proof

/-! ## Which writes reach a register (R71, R117, R121, R262, R263) -/

theorem Dev.portOf_spi_of_readOnly {d : Dev} (h : d.flag F.SUP_STRAP_HOSTSEL = false) : d.portOf .spi = .spiRo := by
  simp [Dev.portOf, Dev.hostSpi, h]

theorem Dev.gate_spi_of_readOnly {d : Dev} (h : d.flag F.SUP_STRAP_HOSTSEL = false) (a : Nat) : d.gate .spi a = .drop := by
  simp [Dev.gate, Dev.portOf_spi_of_readOnly h]

theorem Dev.gate_host_of_dead {d : Dev} (h : d.portLive .host = false) (a : Nat) : d.gate .host a = .drop := by
  simp [Dev.gate, Dev.portOf, h]

theorem Dev.gate_spi_of_dead {d : Dev} (h : d.portLive .spi = false) (a : Nat) : d.gate .spi a = .drop := by
  cases hs : d.flag F.SUP_STRAP_HOSTSEL
  · exact Dev.gate_spi_of_readOnly hs a
  · simp [Dev.gate, Dev.portOf, Dev.hostSpi, hs, h]

/-- Before READY the device's own state passes no write but of the ID_ and start-up registers and of a doorbell (R117, R121). -/
theorem Dev.stateGate_of_unready {d : Dev} {a : Nat} (hs : d.started = false) (hx : d.pwr.exiting = false) (hc : d.boot.conflict = false)
    (hv : d.pwr.vcore = true) (he : earlyReg a = false) (hb : bellReg a = false) : d.stateGate a = .drop := by
  simp [Dev.stateGate, hs, hx, hc, hv, he, hb]

/-- Whatever the port, a write passes only where the device's own state lets it. -/
theorem Dev.stateGate_of_pass {d : Dev} {p : Port} {a : Nat} (h : d.gate p a = .pass) : d.stateGate a = .pass := by
  unfold Dev.gate at h
  split at h
  · cases h
  · cases h
  · split at h
    · cases h
    · exact h
  all_goals
    split at h
    · cases h
    · split at h
      · cases h
      · exact h

/-- Settles O8: each clause is a case of the port as it acts, or of the device's own state. -/
theorem writeGate : Obligations.WriteGate := by
  unfold Obligations.WriteGate
  refine fun d a => ⟨fun h => d.gate_spi_of_readOnly h a, fun h => ⟨d.gate_host_of_dead ?_ a, d.gate_spi_of_dead ?_ a⟩, ⟨rfl, rfl⟩,
    fun h => d.gate_host_of_dead ?_ a, fun hr hk hv hc ha hj hs => ?_, fun p hs hx hc hv he hb hp => ?_⟩
  · simp [Dev.portLive, h]
  · simp [Dev.portLive, h]
  · simp [Dev.portLive, Dev.hostSpi, h]
  · simp [Dev.gate, Dev.portOf, Dev.portLive, Dev.hostSpi, hr, hk, hv, hc, ha, hj, hs]
  · cases (Dev.stateGate_of_pass hp).symm.trans (Dev.stateGate_of_unready hs hx hc hv he hb)

/-! ## Writes that their gate stops -/

theorem Dev.viaPort_of_drop {d : Dev} {p : Port} {a : Nat} (h : d.gate p a = .drop) (f : Dev → Dev) : d.viaPort p a f = d := by
  rw [Dev.viaPort, h]

theorem Dev.viaPort_of_rsv {d : Dev} {p : Port} {a : Nat} (h : d.gate p a = .rsv) (f : Dev → Dev) :
    d.viaPort p a f = d.setFlag F.HST_STAT_RSV_WRITE true := by
  rw [Dev.viaPort, h]

/-- A register write of a port acts on the device through its gate; LOAD_START may copy bytes besides. -/
theorem exec_write {c : Instr} {p : Port} {a : Nat} (h : writeOf c = some (p, a)) (hc : ∀ p w far, c ≠ .loadStart p w far) :
    ∃ f : List Host.Cell → Dev → Dev, ∀ s, exec c s = .next (s.onDevR fun m d => d.viaPort p a (f m)) := by
  cases c with
  | loadStart p w far => exact absurd rfl (hc p w far)
  | _ => cases h <;> exact ⟨fun _ => _, fun _ => rfl⟩

theorem exec_write_of_drop {c : Instr} {p : Port} {a : Nat} {s : State} (h : writeOf c = some (p, a)) (hg : s.dev.gate p a = .drop) :
    exec c s = .next s := by
  by_cases hc : ∀ p w far, c ≠ .loadStart p w far
  · obtain ⟨f, hf⟩ := exec_write h hc
    rw [hf, State.onDevR, Dev.viaPort_of_drop hg]
  · push Not at hc
    obtain ⟨p', w, far, rfl⟩ := hc
    cases h
    change execLoadStart p w far s = _
    simp only [execLoadStart, State.onDevR, Dev.viaPort_of_drop hg]
    cases s.dev.sp.load <;> rfl

theorem exec_write_of_rsv {c : Instr} {p : Port} {a : Nat} {s : State} (h : writeOf c = some (p, a)) (hg : s.dev.gate p a = .rsv) :
    exec c s = .next { s with dev := s.dev.setFlag F.HST_STAT_RSV_WRITE true } := by
  by_cases hc : ∀ p w far, c ≠ .loadStart p w far
  · obtain ⟨f, hf⟩ := exec_write h hc
    rw [hf, State.onDevR, Dev.viaPort_of_rsv hg]
  · push Not at hc
    obtain ⟨p', w, far, rfl⟩ := hc
    cases h
    change execLoadStart p w far s = _
    have hsp : (s.dev.setFlag F.HST_STAT_RSV_WRITE true).sp = s.dev.sp := rfl
    simp only [execLoadStart, State.onDevR, Dev.viaPort_of_rsv hg, hsp]
    cases s.dev.sp.load <;> rfl

/-! ## Reads that are not served whole (R121, R262, R885) -/

/-- A register read of a port is served through its gate. -/
theorem exec_read {c : Instr} {p : Port} {a : Nat} (h : readOf c = some (p, a)) :
    ∃ (act : Bool) (f : Dev → Dev × Word), ∀ s, exec c s = .next (s.onDev fun d => d.readVia p a act f) := by
  cases c with
  | _ => cases h <;> exact ⟨_, fun _ => _, fun _ => rfl⟩

theorem Dev.readVia_of_none {d : Dev} {p : Port} {a : Nat} (h : d.rgate p a = .none) (act : Bool) (f : Dev → Dev × Word) :
    d.readVia p a act f = d := by
  rw [Dev.readVia, h]

theorem Dev.readVia_of_zero {d : Dev} {p : Port} {a : Nat} (h : d.rgate p a = .zero) (act : Bool) (f : Dev → Dev × Word) :
    d.readVia p a act f = d.emit (.readData p 0) := by
  rw [Dev.readVia, h]

theorem Dev.readVia_of_reset {d : Dev} {p : Port} {a : Nat} (h : d.rgate p a = .reset) (act : Bool) (f : Dev → Dev × Word) :
    d.readVia p a act f = d.emit (.readData p (d.resetRead a)) := by
  rw [Dev.readVia, h]

theorem Dev.readVia_of_full {d : Dev} {p : Port} {a : Nat} (h : d.rgate p a = .full) (act : Bool) (f : Dev → Dev × Word) :
    d.readVia p a act f = (if act then (f d).1.wrLast p a (f d).2 else (f d).1).emit (.readData p (f d).2) := by
  rw [Dev.readVia, h]

/-! ## What a register reads before READY (R121, R567) -/

theorem Dev.resetRead_of_notHpCfg (d : Dev) {a : Nat} (h : ∀ k, a ≠ R.HP_CFG k) : d.resetRead a = resetWord a := by
  refine if_neg fun ⟨hlo, hhi, hmod, _⟩ => h ((a - 0x40000) / 0x100) ?_
  simp only [R.HP_CFG]
  omega

theorem resetWord_hpCfg : ∀ k < 16, resetWord (R.HP_CFG k) = 0x34 := by decide

theorem Dev.resetRead_hpCfg (d : Dev) {k : Nat} (hk : k < 16) :
    d.resetRead (R.HP_CFG k) = if k < d.fld F.SUP_RCODE_HPSET then 0x35 else 0x34 := by
  have hport : (R.HP_CFG k - 0x40000) / 0x100 = k := by simp only [R.HP_CFG]; omega
  have hgrid : 0x40000 ≤ R.HP_CFG k ∧ R.HP_CFG k < 0x41000 ∧ (R.HP_CFG k - 0x40000) % 0x100 = 0 := by simp only [R.HP_CFG]; omega
  obtain ⟨hlo, hhi, hmod⟩ := hgrid
  simp only [Dev.resetRead, hlo, hhi, hmod, hport, Dev.hpEnabled, true_and, decide_eq_true_eq, resetWord_hpCfg k hk]
  rfl

/-! ## Reads that change nothing (R263, R874) -/

theorem Dev.wrLast_of_readOnly {d : Dev} {p : Port} (h : d.portRo p = true) (e : Dev) (a : Nat) (w : Word) : e.wrLast p a w = e := by
  refine if_neg fun hp => ?_
  rw [beq_iff_eq] at hp
  subst hp
  simp [Dev.portRo, Dev.portOf] at h

/-- A read-only port's read of a register that neither latches nor pops leaves the device. -/
theorem Dev.readHeld_of_readOnly {d : Dev} {p : Port} {a : Nat} (h : d.portRo p = true) (hl : d.readLatch p a = none) (view : Bool)
    (x : Word) : (d.readHeld p view a x).1 = d := by
  have hread : (d.readReg p view a).1 = d := by
    unfold Dev.readReg
    rw [hl]
    dsimp only
    cases regRow? a with
    | none => rfl
    | some r => simp only [h, if_true]
  unfold Dev.readHeld
  dsimp only
  split
  · exact hread
  · simpa only [h, if_true] using hread

/-- A read that leaves the device, of a port whose reads are not recorded, changes nothing but what is sent. -/
theorem Dev.readVia_sends_only {d : Dev} {p : Port} {a : Nat} {act : Bool} {f : Dev → Dev × Word} (hf : (f d).1 = d)
    (hw : ∀ w, d.wrLast p a w = d) : d.readVia p a act f = { d with out := (d.readVia p a act f).out } := by
  cases hr : d.rgate p a with
  | none => rw [Dev.readVia_of_none hr]
  | zero => rw [Dev.readVia_of_zero hr]; rfl
  | reset => rw [Dev.readVia_of_reset hr]; rfl
  | full => rw [Dev.readVia_of_full hr, hf, hw, ite_self]; rfl

/-- Settles O7: every register access of a port goes through its gate, and each case of the gate says what becomes of it. -/
theorem refusedAccessesChangeNothing : Obligations.RefusedAccessesChangeNothing := by
  unfold Obligations.RefusedAccessesChangeNothing
  refine ⟨fun c p a s h => ⟨exec_write_of_drop h, exec_write_of_rsv h⟩, fun c p a s h => ?_,
    fun d a => ⟨d.resetRead_of_notHpCfg, fun k hk => d.resetRead_hpCfg hk⟩, fun s p a w hp hl => ?_⟩
  · obtain ⟨act, f, hread⟩ := exec_read h
    simp only [hread, State.onDev]
    refine ⟨fun hg => ?_, fun hg => ?_, fun hg => ?_⟩
    · rw [Dev.readVia_of_none hg]
    · rw [Dev.readVia_of_zero hg]; rfl
    · rw [Dev.readVia_of_reset hg]; rfl
  · refine ⟨_, exec_rcRegisterRead s p a w, ?_⟩
    have hdev := Dev.readVia_sends_only (a := a.toNat) (act := readActs a.toNat)
      (f := fun d => d.readHeld p (d.portView p) a.toNat w) (Dev.readHeld_of_readOnly hp hl _ w) (Dev.wrLast_of_readOnly hp _ _)
    exact congrArg (fun d => { s with dev := d }) hdev

end Sys2Proof.Machine
end

section
/-!
PROOF. Reads that latch, that pop and that clear (02_beat_and_time.md R61, R62; 18_register_map.md R15, R17, R860).
-/
namespace Sys2Proof.Machine
open Sys2Proof

/-! ## A read that latches the rest for its port (R61, R264, R860, R874) -/

/-- The latch shadows of a port. -/
def Dev.shadows (d : Dev) : Port → SMap Word
  | .host => d.shHost
  | .spi | .spiRo => d.shSpi
  | .window | .windowRo => d.shWin

theorem Dev.shadow_eq (d : Dev) (p : Port) (a : Nat) : d.shadow p a = mget 0 (d.shadows p) a := by
  cases p <;> rfl

/-- Device e once a read of offset a by port p has latched l, been recorded, and sent w. -/
def Dev.served (e : Dev) (p : Port) (a : Nat) (l : List (Nat × Word)) (w : Word) : Dev :=
  ((e.latch p l).wrLast p a w).emit (.readData p w)

theorem Dev.regsBut_wrLast (d : Dev) (p : Port) (a : Nat) (w : Word) :
    d.regsBut (d.wrLast p a w) (if p = .window then [R.ID_WRLAST_ADDR, R.ID_WRLAST_DATA] else []) := by
  unfold Dev.wrLast
  by_cases hp : p = .window
  · simp only [hp, beq_self_eq_true, if_true]
    exact ((((Dev.regsBut.refl d _).setFld (by simp) _).setFld (by simp) _).setFlag (by simp) _).setReg (by simp) _
  · simp only [beq_eq_false_iff_ne.2 hp, hp, if_false, Bool.false_eq_true]
    exact Dev.regsBut.refl d _

theorem Dev.setFld_regs_only (d : Dev) (f : Fld) (v : Nat) : d.setFld f v = { d with regs := (d.setFld f v).regs } := rfl

theorem Dev.regs_only_trans {d e f : Dev} (h : e = { d with regs := e.regs }) (h' : f = { e with regs := f.regs }) :
    f = { d with regs := f.regs } := by rw [h', h]

theorem Dev.wrLast_regs_only (d : Dev) (p : Port) (a : Nat) (w : Word) : d.wrLast p a w = { d with regs := (d.wrLast p a w).regs } := by
  unfold Dev.wrLast
  split
  · exact Dev.regs_only_trans (Dev.regs_only_trans (Dev.regs_only_trans (Dev.setFld_regs_only _ _ _) (Dev.setFld_regs_only _ _ _))
      (Dev.setFld_regs_only _ _ _)) rfl
  · rfl

theorem Dev.out_served (e : Dev) (p : Port) (a : Nat) (l : List (Nat × Word)) (w : Word) :
    (e.served p a l w).out = e.out ++ [.readData p w] := by
  simp [Dev.served, Dev.emit]

theorem Dev.readLeaves_served (s : State) (e : Dev) (p : Port) (a : Nat) (l : List (Nat × Word)) (w : Word) :
    ReadLeaves { s with dev := e } { s with dev := e.served p a l w } p := by
  refine ⟨?_, fun b hb => ?_⟩
  · rw [Dev.served, Dev.wrLast_regs_only]
    cases p <;> rfl
  · exact ((e.latch p l).regsBut_wrLast p a w b hb).trans (Dev.reg_latch e p l b)

theorem Dev.otherShadows_served (s : State) (e : Dev) (p : Port) (a : Nat) (l : List (Nat × Word)) (w : Word) :
    OtherShadows { s with dev := e } { s with dev := e.served p a l w } p := by
  cases p <;> simp [OtherShadows, Dev.served, Dev.emit, Dev.latch]

theorem Dev.shadow_served {p : Port} (hp : p ≠ .windowRo) (e : Dev) (a : Nat) (l : List (Nat × Word)) (w : Word) (b : Nat) :
    (e.served p a l w).shadow p b = mget 0 (l.foldl (fun m c => mset 0 m c.1 c.2) (e.shadows p)) b := by
  cases p with
  | windowRo => exact absurd rfl hp
  | _ => simp [Dev.shadow, Dev.served, Dev.shadows, Dev.emit, Dev.latch]

theorem Dev.shadow_served_two {p : Port} (hp : p ≠ .windowRo) (e : Dev) (a : Nat) {b c : Nat} (hbc : b ≠ c) (v u w : Word) :
    (e.served p a [(b, v), (c, u)] w).shadow p b = v ∧ (e.served p a [(b, v), (c, u)] w).shadow p c = u := by
  simp [Dev.shadow_served hp, hbc]

/-- What a latching read answers. -/
theorem latchingRead_served {s : State} {p : Port} {a : Nat} {l : List (Nat × Word)} {w : Word} {f : Dev → Dev × Word}
    (h : s.dev.rgate p a = .full) (hf : f s.dev = (s.dev.latch p l, w)) :
    s.onDev (fun d => d.readVia p a true f) = { s with dev := s.dev.served p a l w } := by
  rw [State.onDev, Dev.readVia_of_full h, hf]
  rfl

/-- A read that latches two registers for its port: what it sends, latches and leaves. -/
theorem latchingRead_two {c : Instr} {s : State} {p : Port} {a b b' : Nat} {v v' w : Word} {f : Dev → Dev × Word}
    (hc : exec c s = .next (s.onDev fun d => d.readVia p a true f)) (h : s.dev.rgate p a = .full)
    (hf : f s.dev = (s.dev.latch p [(b, v), (b', v')], w)) (hb : b ≠ b') :
    ∃ t, exec c s = .next t ∧ ReadLeaves s t p ∧ OtherShadows s t p ∧ t.dev.out = s.dev.out ++ [.readData p w] ∧
      (p ≠ .windowRo → t.dev.shadow p b = v ∧ t.dev.shadow p b' = v') := by
  rw [latchingRead_served h hf] at hc
  exact ⟨_, hc, Dev.readLeaves_served s s.dev p a _ w, Dev.otherShadows_served s s.dev p a _ w, Dev.out_served _ _ _ _ _,
    fun hp => Dev.shadow_served_two hp _ _ hb _ _ _⟩

theorem ofNat_bn_low {n : Nat} (bn : BitVec n) : BitVec.ofNat 32 bn.toNat = bn.setWidth 32 := by
  apply BitVec.eq_of_toNat_eq; simp

theorem ofNat_bn_high {n : Nat} (bn : BitVec n) : BitVec.ofNat 32 (bn.toNat / 2 ^ 32) = (bn >>> 32).setWidth 32 := by
  apply BitVec.eq_of_toNat_eq; simp [Nat.shiftRight_eq_div_pow]

/-- Settles O9: all five reads latch two registers for their port. -/
theorem timeAndCaptureReadsLatch : Obligations.TimeAndCaptureReadsLatch := by
  unfold Obligations.TimeAndCaptureReadsLatch
  refine ⟨fun s p => ⟨fun ci h => ?_, fun h => ?_, fun h => ?_⟩, fun s p => ⟨fun n h => ?_, fun n h => ?_⟩⟩
  · rw [← ofNat_bn_low, ← ofNat_bn_high]
    exact latchingRead_two rfl h rfl (by decide)
  · exact latchingRead_two rfl h rfl (by decide)
  · exact latchingRead_two rfl h rfl (by decide)
  · exact latchingRead_two rfl h rfl (by simp only [R.TRG_CAP1, R.TRG_CAP2]; omega)
  · exact latchingRead_two rfl h rfl (by simp only [R.ENC_POSI_HI, R.ENC_SPEED]; omega)

end Sys2Proof.Machine
end

section
/-!
PROOF. Reads that pop the oldest entry, and reads that clear rc bits (04_power_and_supply.md R168; 06_host_port.md R302; 13_tinker_engines.md R645;
16_fences_and_recovery.md R791; 00_scope.md R15, R17).
-/
namespace Sys2Proof.Machine
open Sys2Proof

/-! ## Ports that pop -/

theorem Dev.notWindowRo_of_popping {d : Dev} {p : Port} (h : d.portRo p = false) : p ≠ .windowRo := by
  rintro rfl
  simp [Dev.portRo] at h

theorem Dev.latch_nil (d : Dev) (p : Port) : d.latch p [] = d := by cases p <;> rfl

/-- What a popping read of a supply event answers (R168). -/
theorem Dev.readMevt_of_pop {d : Dev} {p : Port} (hp : d.portRo p = false) {e : SupEvt} {r : List SupEvt} (h : d.pwr.mevt = e :: r) :
    d.readMevt p = ({ d with pwr := { d.pwr with mevt := r, mevtLost := 0 } }.latch p e.latched,
      BitVec.ofNat 32 (e.code.toNat + d.pwr.mevtLost * 2 ^ 16 + 2 ^ 24)) := by
  simp [Dev.readMevt, hp, h]

/-- What a popping read of the reason log latches beside the entry's reason (R791). -/
def LogEntry.latched (d : Dev) (e : LogEntry) : List (Nat × Word) :=
  [(R.FEN_LOG1, d.log1 e.dom e.pos), (R.FEN_LOG2, BitVec.ofNat 32 e.bn), (R.FEN_LOG3, BitVec.ofNat 32 (e.bn / 2 ^ 32))]

theorem Dev.readFenLog_of_pop {d : Dev} {p : Port} (hp : d.portRo p = false) {e : LogEntry} {r : List LogEntry} (h : d.fen.log = e :: r) :
    d.readFenLog p = ({ d with fen := { d.fen with log := r } }.latch p (e.latched d),
      BitVec.ofNat 32 (e.reason.toNat + e.inc * 2 ^ 16 + (if e.clear then 2 ^ 24 else 0) + 2 ^ 25)) := by
  simp only [Dev.readFenLog, hp, h, Bool.false_eq_true, if_false]
  cases p <;> rfl

/-- A popping read of a TX queue takes its oldest word (R645). -/
theorem Dev.readTx_of_pop {d : Dev} {n : Nat} (hd : d.flag (F.TNK_CFG_TXDST n) = false) {w : Word} {c : Nat} {r : List (Word × Nat)}
    (h : (d.eng n).tx.items = (w, c) :: r) : ∃ e : EngSt, d.readTx n = (d.setEng n e, w) ∧ e.tx.items = r := by
  simp only [Dev.readTx, hd, h, Bool.false_eq_true, if_false]
  exact ⟨_, rfl, rfl⟩

theorem Dev.eng_setEng (d : Dev) (n k : Nat) (e : EngSt) : (d.setEng n e).eng k = if k = n then e else d.eng k := mget_mset _ _ _ _ _

/-! ## The selected completion queue (R302) -/

/-- The queues that the host consumes change in their own map alone, beside registers. -/
theorem Dev.consume_frame (d : Dev) (q n : Nat) :
    d.consume q n = { d with regs := (d.consume q n).regs, hst := { d.hst with cqs := (d.consume q n).hst.cqs } } := by
  rw [Dev.consume_eq]
  split <;> rfl

theorem Dev.fifo_consume (d : Dev) (q n : Nat) : ((d.consume q n).cq q).fifo = (d.cq q).fifo.drop n := by
  have hown : ((d.cqConsumed q n).cq q).fifo = (d.cq q).fifo.drop n := congrArg CqSt.fifo (Dev.cq_setCq_same d q _)
  rw [Dev.consume_eq]
  split
  · exact hown
  · exact (congrArg CqSt.fifo (Dev.cq_setCq_same (d.cqConsumed q n) q { (d.cqConsumed q n).cq q with fullRaised := false })).trans hown

/-- A whole read of the last word of an entry comes from no window, which the registers of the host ports hide (Table MAP-7). -/
theorem Dev.notWindow_of_cqw7 {d : Dev} {p : Port} (h : d.rgate p (R.HST_CQW 7) = .full) : p ≠ .window := by
  rintro rfl
  have hhid : windowHidden (R.HST_CQW 7) = true := by decide
  simp [Dev.rgate, Dev.portLive, hhid] at h

theorem Dev.wrLast_of_notWindow {p : Port} (h : p ≠ .window) (d : Dev) (a : Nat) (w : Word) : d.wrLast p a w = d := by
  simp [Dev.wrLast, h]

theorem Dev.readCqw7_of_pop {d : Dev} {p : Port} (hp : d.portRo p = false) {e : List Word} {r : List (List Word)}
    (h : (d.cq (d.fld F.HST_CQSEL_COMPLETION)).fifo = e :: r) :
    d.readCqw7 p = (d.consume (d.fld F.HST_CQSEL_COMPLETION) 1, e.getD 7 0) := by
  simp [Dev.readCqw7, Dev.cqWord, hp, h]

/-! ## Reads that clear rc bits (R15, R17) -/

/-- The bits of a register that a read shows: its rw, ro, w1c, rc and st bits (R15). -/
def RegRow.shown (r : RegRow) : Word :=
  BitVec.ofNat 32 r.rw ||| BitVec.ofNat 32 r.ro ||| BitVec.ofNat 32 r.w1c ||| BitVec.ofNat 32 r.rc ||| BitVec.ofNat 32 r.st

/-- A read of a register with rc bits, from a port that pops, with what falls in the same core cycle. -/
theorem Dev.readHeld_of_rc {d : Dev} {p : Port} {a : Nat} {r : RegRow} (hp : d.portRo p = false) (hl : d.readLatch p a = none)
    (hr : regRow? a = some r) (hrc : r.rc ≠ 0) (w : Word) :
    ∃ e : Dev, d.readHeld p false a w = (e, (d.showReg p a &&& r.shown) - (w &&& BitVec.ofNat 32 r.rc)) ∧
      e = { d with regs := e.regs } ∧ e.reg a = (d.reg a &&& ~~~(BitVec.ofNat 32 r.rc)) ||| (w &&& BitVec.ofNat 32 r.rc) ∧
      d.regsBut e [a] := by
  have hread : d.readReg p false a = (d.setReg a (d.reg a &&& ~~~(BitVec.ofNat 32 r.rc)), d.showReg p a &&& r.shown) := by
    simp only [Dev.readReg, hl, hr, hp, hrc, Bool.false_eq_true, if_false, ne_eq, not_false_eq_true, if_true, RegRow.shown]
  have hlate : rcBits a w = w &&& BitVec.ofNat 32 r.rc := by rw [rcBits, hr]
  have hcleared : d.regsBut (d.setReg a (d.reg a &&& ~~~(BitVec.ofNat 32 r.rc))) [a] := (Dev.regsBut.refl d _).setReg (by simp) _
  simp only [Dev.readHeld, hread, hlate, hp, Bool.false_eq_true, if_false]
  split
  case isTrue h0 =>
    refine ⟨_, by rw [h0, show (0 : Word) = 0#32 from rfl, BitVec.sub_zero], rfl, ?_, hcleared⟩
    rw [h0, show (0 : Word) = 0#32 from rfl, BitVec.or_zero, Dev.reg_setReg, if_pos rfl]
  case isFalse =>
    refine ⟨_, rfl, rfl, ?_, hcleared.setReg (by simp) _⟩
    rw [Dev.reg_setReg, if_pos rfl, Dev.reg_setReg, if_pos rfl]

theorem readActs_of_rc {a : Nat} {r : RegRow} (hr : regRow? a = some r) (hrc : r.rc ≠ 0) : readActs a = true := by
  simp [readActs, hr, hrc]

/-- A whole read of a register with rc bits: the word sent, and what becomes of the register (R15, R17). -/
theorem rcRead_of_pop {s : State} {p : Port} {a : BitVec 20} {w : Word} {r : RegRow} (hp : s.dev.portRo p = false)
    (hg : s.dev.rgate p a.toNat = .full) (hl : s.dev.readLatch p a.toNat = none) (hr : regRow? a.toNat = some r) (hrc : r.rc ≠ 0)
    (hv : s.dev.portView p = false) (haddr : a.toNat ≠ R.ID_WRLAST_ADDR) (hdata : a.toNat ≠ R.ID_WRLAST_DATA) :
    ∃ t, exec (.rcRegisterRead p ⟨a, w⟩) s = .next t ∧
      t.dev.out = s.dev.out ++ [.readData p ((s.dev.showReg p a.toNat &&& r.shown) - (w &&& BitVec.ofNat 32 r.rc))] ∧
      t.dev.reg a.toNat = (s.dev.reg a.toNat &&& ~~~(BitVec.ofNat 32 r.rc)) ||| (w &&& BitVec.ofNat 32 r.rc) ∧
      s.dev.regsBut t.dev (a.toNat :: if p = .window then [R.ID_WRLAST_ADDR, R.ID_WRLAST_DATA] else []) ∧
      t = { s with dev := { s.dev with regs := t.dev.regs, out := t.dev.out } } := by
  obtain ⟨e, heq, honly, hreg, hbut⟩ := Dev.readHeld_of_rc hp hl hr hrc w
  refine ⟨_, exec_rcRegisterRead s p a w, ?_⟩
  simp only [State.onDev]
  rw [Dev.readVia_of_full hg, readActs_of_rc hr hrc, hv, heq]
  generalize (s.dev.showReg p a.toNat &&& r.shown) - (w &&& BitVec.ofNat 32 r.rc) = word
  have hlast := e.regsBut_wrLast p a.toNat word
  have hleft : s.dev.regsBut e (a.toNat :: if p = .window then [R.ID_WRLAST_ADDR, R.ID_WRLAST_DATA] else []) := hbut.mono (by simp)
  have hout : (e.wrLast p a.toNat word).out = s.dev.out := by rw [Dev.wrLast_regs_only, honly]
  refine ⟨congrArg (· ++ [Out.readData p word]) hout, ?_, hleft.trans (hlast.mono (List.subset_cons_self _ _)), ?_⟩
  · refine (hlast a.toNat ?_).trans hreg
    split
    · simp [haddr, hdata]
    · exact List.not_mem_nil
  · have hdev := Dev.regs_only_trans honly (e.wrLast_regs_only p a.toNat word)
    simp only [if_true, Dev.emit]
    rw [hdev]

/-! ## The statement -/

/-- A popping read that latches: the device e without the entry serves it. -/
theorem poppingRead_served {c : Instr} {s : State} {p : Port} {a : Nat} {e : Dev} {l : List (Nat × Word)} {w : Word} {f : Dev → Dev × Word}
    (hc : exec c s = .next (s.onDev fun d => d.readVia p a true f)) (h : s.dev.rgate p a = .full) (hf : f s.dev = (e.latch p l, w)) :
    exec c s = .next { s with dev := e.served p a l w } := by
  rw [hc, State.onDev, Dev.readVia_of_full h, hf]
  rfl

theorem Dev.pwr_served (e : Dev) (p : Port) (a : Nat) (l : List (Nat × Word)) (w : Word) : (e.served p a l w).pwr = e.pwr := by
  simp [Dev.served, Dev.emit]

theorem Dev.fen_served (e : Dev) (p : Port) (a : Nat) (l : List (Nat × Word)) (w : Word) : (e.served p a l w).fen = e.fen := by
  simp [Dev.served, Dev.emit]

/-- Settles O10: what each popping read takes from its queue, and what a clearing read leaves of its register. -/
theorem poppingAndClearingReads : Obligations.PoppingAndClearingReads := by
  unfold Obligations.PoppingAndClearingReads
  refine ⟨fun s p hp => ?_, fun s p a w r hp hg hl hr hrc hv haddr hdata => rcRead_of_pop hp hg hl hr hrc hv haddr hdata⟩
  have hro := Dev.notWindowRo_of_popping hp
  refine ⟨fun e r hg h => ?_, fun e r hg h => ?_, fun e r hg h => ?_, fun n w c r hg hd h => ?_⟩
  case refine_1 =>
    let popped : Dev := { s.dev with pwr := { s.dev.pwr with mevt := r, mevtLost := 0 } }
    refine ⟨_, poppingRead_served (e := popped) rfl hg (Dev.readMevt_of_pop hp h), Dev.pwr_served _ _ _ _ _, Dev.out_served _ _ _ _ _, ?_, ?_, ?_,
      Dev.otherShadows_served s popped p _ _ _, ?_⟩
    case refine_4 => rw [Dev.pwr_served]; exact Dev.readLeaves_served s popped p _ _ _
    all_goals simp [Dev.shadow_served hro, SupEvt.latched, R.SUP_MEVT_BN_LO, R.SUP_MEVT_BN_HI, R.SUP_MEVT_VAL]
  case refine_2 =>
    let popped : Dev := { s.dev with fen := { s.dev.fen with log := r } }
    refine ⟨_, poppingRead_served (e := popped) rfl hg (Dev.readFenLog_of_pop hp h), Dev.fen_served _ _ _ _ _, Dev.out_served _ _ _ _ _, ?_, ?_,
      Dev.otherShadows_served s popped p _ _ _, ?_⟩
    case refine_3 => rw [Dev.fen_served]; exact Dev.readLeaves_served s popped p _ _ _
    all_goals simp [Dev.shadow_served hro, LogEntry.latched, R.FEN_LOG1, R.FEN_LOG2, R.FEN_LOG3]
  case refine_3 =>
    have hread : exec (.hstCqw7Read p) s =
        .next { s with dev := (s.dev.consume (s.dev.fld F.HST_CQSEL_COMPLETION) 1).emit (.readData p (e.getD 7 0)) } := by
      change execHstCqw7Read p s = _
      rw [execHstCqw7Read, State.onDev, Dev.readVia_of_full hg, Dev.readCqw7_of_pop hp h, if_pos rfl, Dev.wrLast_of_notWindow (Dev.notWindow_of_cqw7 hg)]
    obtain ⟨hhead, -, -, -, hothers, hregs⟩ := s.dev.consume_leaves (s.dev.fld F.HST_CQSEL_COMPLETION) 1
    have hframe := s.dev.consume_frame (s.dev.fld F.HST_CQSEL_COMPLETION) 1
    have hfifo := s.dev.fifo_consume (s.dev.fld F.HST_CQSEL_COMPLETION) 1
    rw [h, List.drop_one, List.tail_cons] at hfifo
    generalize s.dev.consume (s.dev.fld F.HST_CQSEL_COMPLETION) 1 = taken at *
    have hout : taken.out = s.dev.out := by rw [hframe]
    refine ⟨_, hread, congrArg (· ++ [Out.readData p (e.getD 7 0)]) hout, hfifo, hhead, hregs, hothers, ?_⟩
    simp only [Dev.emit]
    rw [hframe]
  case refine_4 =>
    obtain ⟨e, htx, hitems⟩ := Dev.readTx_of_pop hd h
    have hread : (fun d : Dev => (if d.portRo p then d else (d.readTx n.val).1, (d.readTx n.val).2)) s.dev =
        ((s.dev.setEng n.val e).latch p [], w) := by
      simp only [htx, hp, Bool.false_eq_true, if_false, Dev.latch_nil]
    refine ⟨_, poppingRead_served rfl hg hread, Dev.out_served _ _ _ _ _, ?_, fun k hk => ?_, ?_⟩
    · simp [Dev.served, Dev.emit, Dev.eng, Dev.latch_nil, Dev.setEng, hitems]
    · simp [Dev.served, Dev.emit, Dev.eng, Dev.latch_nil, Dev.setEng, hk]
    · have := Dev.readLeaves_served s (s.dev.setEng n.val e) p (R.TNK_TXRD n.val) [] w
      simpa [Dev.served, Dev.emit, Dev.latch_nil, Dev.setEng] using this

end Sys2Proof.Machine
end

section
/-!
PROOF. The rate of the calendar, ceiling records and carry records (02_beat_and_time.md R52, R54, R68, R69, R87; 08_ledger.md R391, R392).
-/
namespace Sys2Proof.Machine
open Sys2Proof

/-! ## The beat-driven advance (R68) -/

theorem CalVal.units_ofUnits (n : Nat) : (CalVal.ofUnits n).units = n % 2 ^ 96 := by
  simp only [CalVal.units, CalVal.ofUnits]
  omega

theorem Dev.rem_calFollow (d : Dev) : d.calFollow.cal.rem = d.cal.rem := by
  unfold Dev.calFollow
  dsimp only
  split
  · split <;> simp
  · split
    · rfl
    · split
      · rfl
      · split <;> simp

/-- The device with the true calendar at a value. -/
def Dev.setNow (d : Dev) (v : CalVal) : Dev := { d with cal := { d.cal with now := v } }

/-- The device with the remainder counter at a value. -/
def Dev.setRem (d : Dev) (r : Nat) : Dev := { d with cal := { d.cal with rem := r } }

theorem Dev.setNow_leaves (d : Dev) (v : CalVal) :
    (d.setNow v).cal.now = v ∧ (d.setNow v).cal.rem = d.cal.rem ∧ (d.setNow v).cal.pend = d.cal.pend ∧
      (d.setNow v).regs = d.regs ∧ (d.setNow v).ldg = d.ldg ∧ (d.setNow v).t = d.t := ⟨rfl, rfl, rfl, rfl, rfl, rfl⟩

theorem Dev.setRem_leaves (d : Dev) (r : Nat) : (d.setRem r).cal.now = d.cal.now ∧ (d.setRem r).cal.rem = r := ⟨rfl, rfl⟩

theorem Dev.calAdvance_eq (d : Dev) (n : Nat) : d.calAdvance n = (d.setNow (CalVal.ofUnits (d.cal.now.units + n))).calFollow := by
  rw [Dev.calAdvance, Dev.setNow]

theorem Dev.calBeat_eq (d : Dev) :
    d.calBeat = (d.setRem ((d.cal.rem + 228243) % 390625)).calAdvance (2061 + (d.cal.rem + 228243) / 390625) := by
  rw [Dev.calBeat, Dev.setRem]

theorem Dev.now_calAdvance (d : Dev) (n : Nat) : (d.calAdvance n).cal.now = CalVal.ofUnits (d.cal.now.units + n) := by
  rw [Dev.calAdvance_eq, (Dev.printMoved_calFollow _).now, (Dev.setNow_leaves _ _).1]

theorem Dev.rem_calAdvance (d : Dev) (n : Nat) : (d.calAdvance n).cal.rem = d.cal.rem := by
  rw [Dev.calAdvance_eq, Dev.rem_calFollow, (Dev.setNow_leaves _ _).2.1]

theorem Dev.calBeat_counts (d : Dev) :
    d.calBeat.cal.now.units = (d.cal.now.units + (2061 + (d.cal.rem + 228243) / 390625)) % 2 ^ 96 ∧
      d.calBeat.cal.rem = (d.cal.rem + 228243) % 390625 := by
  rw [Dev.calBeat_eq, Dev.now_calAdvance, Dev.rem_calAdvance, CalVal.units_ofUnits, (Dev.setRem_leaves _ _).1, (Dev.setRem_leaves _ _).2]
  exact ⟨rfl, rfl⟩

/-- n beat-driven advances, from a value in range and a remainder below its modulus (R68). -/
theorem calBeat_repeat (d : Dev) (n : Nat) (hu : d.cal.now.units < 2 ^ 96) (hr : d.cal.rem < 390625) :
    (Nat.repeat Dev.calBeat n d).cal.now.units = (d.cal.now.units + 2061 * n + (d.cal.rem + 228243 * n) / 390625) % 2 ^ 96 ∧
      (Nat.repeat Dev.calBeat n d).cal.rem = (d.cal.rem + 228243 * n) % 390625 := by
  induction n with
  | zero =>
    change d.cal.now.units = _ ∧ d.cal.rem = _
    omega
  | succ n ih =>
    obtain ⟨ihu, ihr⟩ := ih
    change (Nat.repeat Dev.calBeat n d).calBeat.cal.now.units = _ ∧ (Nat.repeat Dev.calBeat n d).calBeat.cal.rem = _
    obtain ⟨hunits, hrem⟩ := (Nat.repeat Dev.calBeat n d).calBeat_counts
    rw [hunits, hrem, ihu, ihr]
    omega

/-- The remainder counter's whole turn: 390 625 beats carry 228 243 times over 2 061 units each. -/
theorem calBeat_turn (d : Dev) (hu : d.cal.now.units + 805306368 < 2 ^ 96) (hr : d.cal.rem < 390625) :
    (Nat.repeat Dev.calBeat 390625 d).cal.now.units = d.cal.now.units + 805306368 ∧
      (Nat.repeat Dev.calBeat 390625 d).cal.rem = d.cal.rem := by
  obtain ⟨hunits, hrem⟩ := calBeat_repeat d 390625 (by omega) hr
  rw [hunits, hrem]
  omega

/-! ## A tick of the calendar oscillator (R54, R69) -/

theorem Dev.calFollow_setNow_frame (d : Dev) (v : CalVal) :
    (d.setNow v).calFollow.cal.pend = d.cal.pend ∧ d.regsBut (d.setNow v).calFollow (R.CAL_STAT :: irqRegs) ∧
      (d.setNow v).calFollow =
        { d with regs := (d.setNow v).calFollow.regs, out := (d.setNow v).calFollow.out, cal := (d.setNow v).calFollow.cal } := by
  obtain ⟨hframe, hregs, -, hpend, hldg, -, -⟩ := Dev.printMoved_calFollow (d.setNow v)
  refine ⟨hpend, hregs, ?_⟩
  rw [Dev.calFrame, hldg] at hframe
  exact hframe

/-- An advance moves the print calendar after the true one and leaves the rest. -/
theorem Dev.calAdvance_frame (d : Dev) (n : Nat) :
    (d.calAdvance n).cal.pend = d.cal.pend ∧ d.regsBut (d.calAdvance n) (R.CAL_STAT :: irqRegs) ∧
      d.calAdvance n = { d with regs := (d.calAdvance n).regs, out := (d.calAdvance n).out, cal := (d.calAdvance n).cal } := by
  rw [Dev.calAdvance_eq]
  exact d.calFollow_setNow_frame _

/-- A tick is counted while the beat counter is stopped. -/
def Dev.tickCounted (d : Dev) : Dev :=
  { d with t := { d.t with stopTicks := d.t.stopTicks + if d.t.running then 0 else 1 } }

theorem exec_calOscTick (s : State) :
    exec .calOscTick s = .next (s.onDev fun d => if d.calByBeat then d.tickCounted else d.tickCounted.calAdvance 131072) := by
  change execCalOscTick s = _
  have hcounted : (if s.dev.t.running then s.dev else { s.dev with t := { s.dev.t with stopTicks := s.dev.t.stopTicks + 1 } }) =
      s.dev.tickCounted := by
    unfold Dev.tickCounted
    split <;> rfl
  have hby : s.dev.tickCounted.calByBeat = s.dev.calByBeat := rfl
  simp only [execCalOscTick, State.onDev, hcounted, hby]

/-- Settles O12: the advances by induction on their number, the tick by what drives the calendar. -/
theorem calendarRateAndOscillatorTick : Obligations.CalendarRateAndOscillatorTick := by
  unfold Obligations.CalendarRateAndOscillatorTick
  refine ⟨⟨calBeat_repeat, calBeat_turn⟩, fun s => ⟨fun h => ?_, fun hv hh hr => ?_⟩⟩
  · have hby : s.dev.calByBeat = false := by
      rw [Dev.calByBeat]
      rcases h with h | h | h <;> simp [h]
    have hnow := s.dev.tickCounted.now_calAdvance 131072
    have hrem := s.dev.tickCounted.rem_calAdvance 131072
    have hframe := s.dev.tickCounted.calAdvance_frame 131072
    rw [exec_calOscTick, State.onDev, hby, if_neg Bool.false_ne_true]
    generalize s.dev.tickCounted.calAdvance 131072 = e at *
    obtain ⟨hpend, hregs, hframe⟩ := hframe
    refine ⟨_, rfl, hnow, ?_, hrem, hpend, hregs, ?_⟩
    · rw [hframe]; rfl
    · rw [hframe]; rfl
  · have hby : s.dev.calByBeat = true := by simp [Dev.calByBeat, hv, hh, hr]
    have hcounted : s.dev.tickCounted = s.dev := by rw [Dev.tickCounted, if_pos hr]; rfl
    rw [exec_calOscTick, State.onDev, hby, if_pos rfl, hcounted]

/-! ## Ceiling records and carry records (R52, R87, R391, R392) -/

theorem exec_ceilingRewrite (s : State) : exec .ceilingRewrite s = .next { s with dev := s.dev.ceilDue } := rfl

theorem Dev.ceilDue_of_near {d : Dev} (hr : d.t.running = true) (hq : ∀ q ∈ d.ldg.queue, q.prec ≠ 1) (h : d.t.ceil ≤ d.now + 2 ^ 19) :
    d.ceilDue = d.dueRec 1 [{ typ := 0x30, bn := d.now + 2 ^ 20 }] := by
  have hnone : (d.ldg.queue.any fun q => q.prec == 1) = false := by simpa [List.any_eq_false] using hq
  rw [Dev.ceilDue, hr, hnone, decide_eq_true h]
  rfl

theorem Dev.ceilDue_of_far {d : Dev} (h : d.now + 2 ^ 19 < d.t.ceil) : d.ceilDue = d := by
  rw [Dev.ceilDue, decide_eq_false (Nat.not_le.2 h), Bool.and_false, Bool.false_and]
  rfl

/-- A needed record that may be carried, with the head within 1 024 slots (R391). -/
def Dev.nearHead (d : Dev) (x : Slot) : Bool :=
  decide (225280 ≤ d.headPos - x.lpos + 1024) && [0x10, 0x12, 0x20].contains x.body.typ

/-- A record that waits to be sealed replaces the slot. -/
def Dev.covered (d : Dev) (x : Slot) : Bool :=
  d.ldg.queue.any fun q => q.recs.any fun r => r.hm == x.body.hm && (r.typ == 0x12 || r.typ == 0x20)

/-- The state that a CARRY record of a slot takes: the job's, or the one its window of sealed outcomes or the slot itself gives. -/
def Dev.carriedState (d : Dev) (x : Slot) : Nat :=
  match d.job? x.body.hm with
  | some j => j.st.code
  | none => match (d.adm.win.flatMap (fun c => c.2)).find? (fun e => e.hm == x.body.hm) with
    | some e => e.st.code
    | none => x.body.byteA / 16

theorem Dev.carriedState_of_job {d : Dev} {x : Slot} {j : Job} (h : d.job? x.body.hm = some j) : d.carriedState x = j.st.code := by
  rw [Dev.carriedState, h]

/-- What the next slot to carry makes due. -/
theorem exec_carryRecord (s : State) :
    exec .carryRecord s = .next (s.onDev fun d => match (d.neededSlots.filter d.nearHead).find? (fun x => !d.covered x) with
      | none => d
      | some x => if x.body.typ = 0x20 then d.dueRec 4 (d.groupAt x)
        else d.dueRec 4 [{ x.body with typ := 0x12, byteA := x.body.byteA % 16 + 16 * d.carriedState x }]) := rfl

/-- Settles O15: which record each step makes due. -/
theorem ceilingAndCarryRecords : Obligations.CeilingAndCarryRecords := by
  unfold Obligations.CeilingAndCarryRecords
  refine ⟨fun s hr hq => ⟨fun h => ?_, fun h => ?_⟩, fun s => ⟨fun h => ?_, fun x hx => ⟨fun ht => ?_, fun ht => ?_⟩⟩⟩
  · refine ⟨{ prec := 1, due := s.dev.now, recs := groupOf [{ typ := 0x30, bn := s.dev.now + 2 ^ 20 }] },
      ?_, rfl, rfl, rfl⟩
    rw [exec_ceilingRewrite, Dev.ceilDue_of_near hr hq h]
    rfl
  · rw [exec_ceilingRewrite, Dev.ceilDue_of_far h]
  · have hnone : (s.dev.neededSlots.filter s.dev.nearHead).find? (fun x => !s.dev.covered x) = none := by
      rw [List.find?_eq_none]
      intro x hx
      obtain ⟨hmem, hnear⟩ := List.mem_filter.1 hx
      rw [show s.dev.covered x = true from h x hmem hnear]
      exact Bool.false_ne_true
    rw [exec_carryRecord, State.onDev, hnone]
  all_goals
    have hfresh : (s.dev.neededSlots.filter s.dev.nearHead).find? (fun x => !s.dev.covered x) = some x := hx
    rw [exec_carryRecord, State.onDev, hfresh]
  · simp only [ht, if_true]
  · exact ⟨s.dev.carriedState x, _, rfl, by simp only [ht, if_false], fun j hj => Dev.carriedState_of_job hj⟩

end Sys2Proof.Machine
end

section
/-!
PROOF. What a checkpoint and a superblock write store (08_ledger.md R366, R368, R396).
-/
namespace Sys2Proof.Machine
open Sys2Proof

/-! ## The newest checkpoint -/

/-- The newer of the newest checkpoint so far and another. -/
def newerCkpt (b : Option Ckpt) (c : Ckpt) : Option Ckpt :=
  match b with
  | some x => if x.seq < c.seq then some c else some x
  | none => some c

theorem newerCkpt_some (b : Option Ckpt) (c : Ckpt) :
    ∃ y, newerCkpt b c = some y ∧ c.seq ≤ y.seq ∧ (∀ x, b = some x → x.seq ≤ y.seq) := by
  cases b with
  | none => exact ⟨c, rfl, Nat.le_refl _, fun x hx => nomatch hx⟩
  | some x =>
    by_cases h : x.seq < c.seq
    · exact ⟨c, if_pos h, Nat.le_refl _, fun _ hy => by cases hy; exact h.le⟩
    · exact ⟨x, if_neg h, Nat.not_lt.1 h, fun _ hy => by cases hy; exact Nat.le_refl _⟩

theorem foldl_newerCkpt (l : List Ckpt) :
    ∀ b : Option Ckpt, (∀ x, b = some x → ∃ y, l.foldl newerCkpt b = some y ∧ x.seq ≤ y.seq) ∧
      ∀ x ∈ l, ∃ y, l.foldl newerCkpt b = some y ∧ x.seq ≤ y.seq := by
  induction l with
  | nil => exact fun b => ⟨fun x hx => ⟨x, hx, Nat.le_refl _⟩, fun x hx => absurd hx List.not_mem_nil⟩
  | cons c l ih =>
    intro b
    obtain ⟨z, hz, hcz, hbz⟩ := newerCkpt_some b c
    obtain ⟨y, hy, hzy⟩ := (ih (newerCkpt b c)).1 z hz
    refine ⟨fun x hx => ⟨y, hy, (hbz x hx).trans hzy⟩, fun x hx => ?_⟩
    rcases List.mem_cons.1 hx with rfl | hx
    · exact ⟨y, hy, hcz.trans hzy⟩
    · exact (ih _).2 x hx

theorem Dev.newestCkpt_eq (d : Dev) : d.newestCkpt = d.mram.ckpts.foldl newerCkpt none := rfl

/-- The newest checkpoint has the highest sequence. -/
theorem Dev.seq_le_newestCkpt {d : Dev} {x : Ckpt} (h : x ∈ d.mram.ckpts) : ∃ c, d.newestCkpt = some c ∧ x.seq ≤ c.seq :=
  (foldl_newerCkpt _ none).2 x h

/-! ## What a checkpoint writes -/

/-- Beside registers, the MRAM and the ledger's own state, e is d. -/
def Dev.ckptFrame (d e : Dev) : Prop := e = { d with regs := e.regs, mram := e.mram, ldg := e.ldg }

theorem Dev.ckptFrame.trans {d e f : Dev} (h : d.ckptFrame e) (h' : e.ckptFrame f) : d.ckptFrame f := by
  cases d; cases e; cases f
  simp_all [Dev.ckptFrame]

theorem Dev.ckptFrame_setNum2 (d : Dev) (lo hi v : Nat) : d.ckptFrame (d.setNum2 lo hi v) := rfl

theorem Dev.ckptFrame_setFld (d : Dev) (f : Fld) (v : Nat) : d.ckptFrame (d.setFld f v) := rfl

theorem Dev.ckptFrame_ldgRaise (d : Dev) (r : Reason) : d.ckptFrame (d.ldgRaise r) := by
  unfold Dev.ckptFrame Dev.ldgRaise
  split <;> rfl

/-- The device with the wear counted. -/
def Dev.setWear (d : Dev) (written wear : Nat) : Dev :=
  { d with mram := { d.mram with written := written, wear := wear } }.setNum2 R.LDG_WEAR_LO R.LDG_WEAR_HI wear

theorem Dev.ckptFrame_setWear (d : Dev) (a b : Nat) : d.ckptFrame (d.setWear a b) := rfl

/-- The registers that count wear. -/
def wearRegs : List Nat := [R.LDG_WEAR_LO, R.LDG_WEAR_HI]

theorem Dev.regsBut_setWear (d : Dev) (a b : Nat) : d.regsBut (d.setWear a b) wearRegs :=
  .setNum2 (.of_regs rfl _) (by simp [wearRegs]) (by simp [wearRegs]) b

theorem Dev.wearBy_eq (d : Dev) (n : Nat) : ∃ a b, d.wearBy n =
    (let e := d.setWear a b
     let e := if 8 * 10 ^ 9 ≤ b then e.ldgRaise Rsn.ldgWearWarn else e
     if 10 ^ 10 ≤ b then e.ldgRaise Rsn.ldgWearEnd else e) := ⟨_, _, rfl⟩

/-- A property that the wear count and the notes about it keep holds after wear is counted. -/
theorem Dev.wearBy_induction {P : Dev → Prop} {d : Dev} (n : Nat) (hset : ∀ a b, P (d.setWear a b))
    (hraise : ∀ e r, P e → P (e.ldgRaise r)) : P (d.wearBy n) := by
  obtain ⟨a, b, heq⟩ := d.wearBy_eq n
  rw [heq]
  dsimp only
  have hwarn : P (if 8 * 10 ^ 9 ≤ b then (d.setWear a b).ldgRaise Rsn.ldgWearWarn else d.setWear a b) := by
    split
    · exact hraise _ _ (hset a b)
    · exact hset a b
  split
  · exact hraise _ _ hwarn
  · exact hwarn

theorem Dev.queue_ldgRaise (d : Dev) (r : Reason) :
    (d.ldgRaise r).ldg.queue = d.ldg.queue ∧ (d.ldgRaise r).ldg.ckptBn = d.ldg.ckptBn := by
  unfold Dev.ldgRaise
  split <;> exact ⟨rfl, rfl⟩

theorem Dev.ckptFrame_wearBy (d : Dev) (n : Nat) : d.ckptFrame (d.wearBy n) :=
  Dev.wearBy_induction n d.ckptFrame_setWear fun _ _ h => h.trans (Dev.ckptFrame_ldgRaise _ _)

theorem Dev.regsBut_wearBy_only (d : Dev) (n : Nat) : d.regsBut (d.wearBy n) wearRegs :=
  Dev.wearBy_induction (P := fun e => d.regsBut e wearRegs) n d.regsBut_setWear fun _ r h => h.ldgRaise r

/-- Beside its counts of wear, the MRAM and what the ledger waits for stay. -/
theorem Dev.wearBy_leaves (d : Dev) (n : Nat) :
    (d.wearBy n).mram = { d.mram with written := (d.wearBy n).mram.written, wear := (d.wearBy n).mram.wear } ∧
      (d.wearBy n).ldg.queue = d.ldg.queue ∧ (d.wearBy n).ldg.ckptBn = d.ldg.ckptBn := by
  refine Dev.wearBy_induction (P := fun e => e.mram = { d.mram with written := e.mram.written, wear := e.mram.wear } ∧
    e.ldg.queue = d.ldg.queue ∧ e.ldg.ckptBn = d.ldg.ckptBn) n (fun a b => ⟨rfl, rfl, rfl⟩) fun e r ⟨hm, hq, hc⟩ => ?_
  obtain ⟨hq', hc'⟩ := e.queue_ldgRaise r
  have hm' : (e.ldgRaise r).mram = e.mram := by simp
  rw [hm', hq', hc']
  exact ⟨hm, hq, hc⟩

/-- The sequence of the next checkpoint. -/
def Dev.nextCkptSeq (d : Dev) : Nat := match d.newestCkpt with
  | some c => c.seq + 1
  | none => 1

theorem Dev.seq_lt_nextCkptSeq {d : Dev} {x : Ckpt} (h : x ∈ d.mram.ckpts) : x.seq < d.nextCkptSeq := by
  obtain ⟨c, hc, hle⟩ := Dev.seq_le_newestCkpt h
  rw [Dev.nextCkptSeq, hc]
  exact Nat.lt_succ_of_le hle

/-- The next checkpoint. -/
def Dev.nextCkpt (d : Dev) : Ckpt := d.ckptOf d.nextCkptSeq d.nextBlock

/-- The device with a checkpoint in its block, in place of the one that stood there. -/
def Dev.ckptStored (d : Dev) (c : Ckpt) : Dev :=
  { d with mram := { d.mram with ckpts := d.mram.ckpts.filter (fun x : Ckpt => x.block != c.block) ++ [c] },
           ldg := { d.ldg with ckptBn := d.now } }

theorem Dev.writeCkpt_eq (d : Dev) :
    d.writeCkpt = ((d.ckptStored d.nextCkpt).setNum2 R.LDG_CKPT_BN_LO R.LDG_CKPT_BN_HI d.nextCkpt.bn).wearBy blockSlots := rfl

/-- What a checkpoint of the ledger's state stores and what it leaves (R366, R396). -/
structure Dev.CkptWritten (d e : Dev) : Prop where
  newest : ∃ c ∈ e.mram.ckpts, c.bn = d.now ∧ c.rev = d.mram.rev ∧ c.head = d.mram.head ∧ c.ceil = d.t.ceil ∧ c.nextHm = d.adm.nextHm ∧
    c.confirmed = d.ldg.confirmed ∧ ∀ x ∈ d.mram.ckpts, x.seq < c.seq
  log : e.mram.log = d.mram.log
  head : e.mram.head = d.mram.head
  rev : e.mram.rev = d.mram.rev
  bn : e.ldg.ckptBn = d.now
  queue : e.ldg.queue = d.ldg.queue
  regs : d.regsBut e [R.LDG_CKPT_BN_LO, R.LDG_CKPT_BN_HI, R.LDG_WEAR_LO, R.LDG_WEAR_HI, R.LDG_STAT]
  frame : d.ckptFrame e

theorem Dev.ckptWritten_writeCkpt (d : Dev) : d.CkptWritten d.writeCkpt := by
  rw [Dev.writeCkpt_eq]
  have hseq := fun x (h : x ∈ d.mram.ckpts) => Dev.seq_lt_nextCkptSeq h
  have hc : d.nextCkpt.seq = d.nextCkptSeq ∧ d.nextCkpt.bn = d.now ∧ d.nextCkpt.rev = d.mram.rev ∧ d.nextCkpt.head = d.mram.head ∧
    d.nextCkpt.ceil = d.t.ceil ∧ d.nextCkpt.nextHm = d.adm.nextHm ∧ d.nextCkpt.confirmed = d.ldg.confirmed := ⟨rfl, rfl, rfl, rfl, rfl, rfl, rfl⟩
  generalize d.nextCkpt = c at hc
  obtain ⟨hcseq, hbn, hrev, hhead, hceil, hhm, hconf⟩ := hc
  rw [← hcseq] at hseq
  generalize hf : (d.ckptStored c).setNum2 R.LDG_CKPT_BN_LO R.LDG_CKPT_BN_HI c.bn = f
  have hmram : f.mram = (d.ckptStored c).mram := by rw [← hf]; simp
  have hldg : f.ldg = (d.ckptStored c).ldg := by rw [← hf]; simp
  have hregs : d.regsBut f [R.LDG_CKPT_BN_LO, R.LDG_CKPT_BN_HI] := by
    rw [← hf]; exact .setNum2 (.of_regs rfl _) (by simp) (by simp) _
  have hframe : d.ckptFrame f := by rw [← hf]; exact Dev.ckptFrame.trans (e := d.ckptStored c) rfl (Dev.ckptFrame_setNum2 _ _ _ _)
  obtain ⟨hm, hq, hck⟩ := f.wearBy_leaves blockSlots
  have hlist : (f.wearBy blockSlots).mram.ckpts = f.mram.ckpts := by rw [hm]
  refine ⟨⟨c, ?_, hbn, hrev, hhead, hceil, hhm, hconf, hseq⟩, ?_, ?_, ?_, ?_, ?_, ?_, hframe.trans (f.ckptFrame_wearBy _)⟩
  · rw [hlist, hmram]; exact List.mem_append_right _ (List.mem_singleton.2 rfl)
  · rw [hm, hmram]; rfl
  · rw [hm, hmram]; rfl
  · rw [hm, hmram]; rfl
  · rw [hck, hldg]; rfl
  · rw [hq, hldg]; rfl
  · exact (hregs.mono (by simp)).trans ((f.regsBut_wearBy_only _).mono (by simp [wearRegs]))

/-- The result of the command beside it leaves what the checkpoint stored. -/
theorem Dev.CkptWritten.ldgResult {d e : Dev} (h : d.CkptWritten e) (r : Reason) : d.CkptWritten (e.ldgResult r) where
  newest := h.newest
  log := h.log
  head := h.head
  rev := h.rev
  bn := h.bn
  queue := h.queue
  regs := h.regs.setFld (by simp) _
  frame := h.frame.trans (Dev.ckptFrame_setFld _ _ _)

/-! ## The superblock (R368) -/

/-- The copy that a write of an identity, a format beat and a mount count leaves, beside its sequence and slot. -/
def Dev.superCopy (d : Dev) (sysId : BitVec 64) (formatBn mounts seq slot : Nat) : Super :=
  { valid := true, sysId := sysId, formatBn := formatBn, mounts := mounts, wear := d.mram.wear, seq := seq, slot := slot }

/-- A superblock write goes to copy A where the newest is B, and to copy B where it is A. -/
def Super.writesA (a b : Super) : Bool := !(a.valid && (!b.valid || decide (b.seq ≤ a.seq)))

theorem Super.writesA_iff {a b x : Super} (h : bestSuper a b = some x) : (a.writesA b = true ∧ b = x) ∨ (a.writesA b = false ∧ a = x) := by
  unfold bestSuper at h
  unfold Super.writesA
  split at h
  case isTrue ha =>
    split at h
    case isTrue hb =>
      obtain ⟨hv, hlt⟩ := Bool.and_eq_true_iff.1 hb
      exact .inl ⟨by simpa [ha, hv] using of_decide_eq_true hlt, Option.some.inj h⟩
    case isFalse hb =>
      refine .inr ⟨?_, Option.some.inj h⟩
      simp only [Bool.and_eq_true, decide_eq_true_eq, not_and, Nat.not_lt] at hb
      cases hv : b.valid <;> simp [ha, hv, hb]
  case isFalse ha =>
    split at h
    · exact .inl ⟨by simp [ha], Option.some.inj h⟩
    · cases h

/-- The copy that a superblock write replaces. -/
theorem Dev.writeSuper_eq {d : Dev} {x : Super} (h : bestSuper d.mram.supA d.mram.supB = some x) (i : BitVec 64) (b n : Nat) :
    ∃ k, d.writeSuper i b n = { d with
      mram := if d.mram.supA.writesA d.mram.supB then { d.mram with supA := d.superCopy i b n (x.seq + 1) k }
        else { d.mram with supB := d.superCopy i b n (x.seq + 1) k },
      ldg := { d.ldg with superBn := d.now } } := by
  refine ⟨((if d.mram.supA.writesA d.mram.supB then d.mram.supA else d.mram.supB).slot + 1) % 2048, ?_⟩
  simp only [Dev.writeSuper, h, Super.writesA, Dev.superCopy]
  rfl

/-- A copy with a higher sequence than the other is the newest. -/
theorem bestSuper_left {a b : Super} (ha : a.valid = true) (h : b.seq < a.seq) : bestSuper a b = some a := by
  simp [bestSuper, ha, Nat.not_lt.2 h.le]

theorem bestSuper_right {a b : Super} (hb : b.valid = true) (h : a.seq < b.seq) : bestSuper a b = some b := by
  cases ha : a.valid <;> simp [bestSuper, ha, hb, h]

/-! ## The statement -/

theorem exec_checkpoint (s : State) : exec .checkpoint s = .next (s.onDev fun d =>
    if d.flag F.LDG_STAT_MOUNTED && !d.flag F.LDG_STAT_BLANK && decide (d.ldg.ckptBn + 65536 ≤ d.now) then d.writeCkpt else d) := rfl

theorem exec_ldgCheckpointNow {s : State} {p : Port} (h : s.dev.gate p R.LDG_CMD = .pass) :
    exec (.ldgCheckpointNow p) s = .next { s with dev := s.dev.cmdCheckpoint } := by
  change execLdgCheckpointNow p s = _
  rw [execLdgCheckpointNow, State.onDev, Dev.viaPort_of_pass h]
  rfl

theorem exec_superblockWrite {s : State} {x : Super} (hm : s.dev.flag F.LDG_STAT_MOUNTED = true) (hb : s.dev.flag F.LDG_STAT_BLANK = false)
    (h : bestSuper s.dev.mram.supA s.dev.mram.supB = some x) :
    exec .superblockWrite s = .next { s with dev := s.dev.writeSuper x.sysId x.formatBn x.mounts } := by
  change execSuperblockWrite s = _
  simp only [execSuperblockWrite, State.onDev, hm, hb, h, Bool.not_false, Bool.and_self, if_true]

/-- What a checkpoint stores, as the statement words it. -/
theorem Dev.CkptWritten.stated {s : State} {e : Dev} (h : s.dev.CkptWritten e) :
    (∃ c ∈ e.mram.ckpts, c.bn = s.dev.now ∧ c.rev = s.dev.mram.rev ∧ c.head = s.dev.mram.head ∧ c.ceil = s.dev.t.ceil ∧
        c.nextHm = s.dev.adm.nextHm ∧ c.confirmed = s.dev.ldg.confirmed ∧ ∀ x ∈ s.dev.mram.ckpts, x.seq < c.seq) ∧
      e.mram.log = s.dev.mram.log ∧ e.mram.head = s.dev.mram.head ∧ e.mram.rev = s.dev.mram.rev ∧ e.ldg.ckptBn = s.dev.now ∧
      e.ldg.queue = s.dev.ldg.queue ∧ s.dev.regsBut e [R.LDG_CKPT_BN_LO, R.LDG_CKPT_BN_HI, R.LDG_WEAR_LO, R.LDG_WEAR_HI, R.LDG_STAT] ∧
      ({ s with dev := e } : State) = { s with dev := { s.dev with regs := e.regs, mram := e.mram, ldg := e.ldg } } :=
  ⟨h.newest, h.log, h.head, h.rev, h.bn, h.queue, h.regs, congrArg (fun d => ({ s with dev := d } : State)) h.frame⟩

/-- Settles O16: what a checkpoint writes, whatever makes it due, and which copy a superblock write replaces. -/
theorem checkpointAndSuperblockWritten : Obligations.CheckpointAndSuperblockWritten := by
  unfold Obligations.CheckpointAndSuperblockWritten
  refine ⟨fun s hm hb => ⟨fun hdue => ?_, fun hnot => ?_, fun p hp => ?_⟩, fun s x hm hb hx => ?_⟩
  · refine ⟨{ s with dev := s.dev.writeCkpt }, ?_, s.dev.ckptWritten_writeCkpt.stated⟩
    rw [exec_checkpoint, State.onDev, hm, hb, decide_eq_true hdue]
    rfl
  · rw [exec_checkpoint, State.onDev, hm, hb, decide_eq_false (Nat.not_le.2 hnot)]
    rfl
  · have hcmd : s.dev.cmdCheckpoint = s.dev.writeCkpt.ldgResult Rsn.ok := by
      rw [Dev.cmdCheckpoint, hm, hb]
      rfl
    rw [exec_ldgCheckpointNow hp, hcmd]
    exact ⟨_, rfl, (s.dev.ckptWritten_writeCkpt.ldgResult _).stated, Dev.fld_setFld_same _ _ _ (by decide)⟩
  · obtain ⟨k, hk⟩ := Dev.writeSuper_eq hx x.sysId x.formatBn x.mounts
    rw [exec_superblockWrite hm hb hx, hk]
    rcases Super.writesA_iff hx with ⟨hA, hbest⟩ | ⟨hB, hbest⟩
    · rw [if_pos hA]
      exact ⟨_, s.dev.superCopy x.sysId x.formatBn x.mounts (x.seq + 1) k, rfl,
        bestSuper_left rfl (by rw [hbest]; exact Nat.lt_succ_self _), rfl, rfl, rfl, rfl, rfl, rfl, .inr ⟨rfl, hbest, rfl⟩, rfl⟩
    · rw [if_neg (Bool.eq_false_iff.1 hB)]
      exact ⟨_, s.dev.superCopy x.sysId x.formatBn x.mounts (x.seq + 1) k, rfl,
        bestSuper_right rfl (by rw [hbest]; exact Nat.lt_succ_self _), rfl, rfl, rfl, rfl, rfl, rfl, .inl ⟨rfl, hbest, rfl⟩, rfl⟩

end Sys2Proof.Machine
end

section
/-!
PROOF. What a cold start keeps, records and clears (03_straps_and_startup.md R92, R107, R112, R113, R123, R137, R143; 04_power_and_supply.md R189, R190;
16_fences_and_recovery.md R796; 18_register_map.md R861).
-/
namespace Sys2Proof.Machine
open Sys2Proof

/-! ## The reset of the core domain (R861, R863) -/

/-- The core domain reset, before what the reset shows in registers. -/
def Dev.coreCleared (d : Dev) : Dev :=
  { regs := d.regs.filter (fun c => regClass c.1 == .v || regClass c.1 == .k), cal := { d.cal with pend := none }, boot := d.boot, pwr := d.pwr,
    mram := d.mram, out := d.out, draws := d.draws, tap := if d.tap = .sample then .sample else .bypass,
    t := { bn := d.t.bn, ceil := d.t.ceil, last := d.t.last, stopTicks := d.t.stopTicks, lastUsed := max d.t.lastUsed d.now },
    trg := { inp := (d.trg.inp.map (fun c => (c.1, ({ raw := c.2.raw } : TrgSt)))).filter (fun c => decide (c.2 ≠ {})),
             enc := (d.trg.enc.map (fun c => (c.1, ({ a := c.2.a, b := c.2.b } : EncSt)))).filter (fun c => decide (c.2 ≠ {})) },
    tnk := { inputs := d.tnk.inputs }, po := { ilkLow := d.po.ilkLow, acting := d.po.ilkLow } }

/-- A cancelled calendar set shows REF_STATE. -/
def Dev.pendShown (d : Dev) (cancelled : Bool) : Dev :=
  if cancelled then (d.setFlag F.CAL_STAT_PENDING false).setFld F.CAL_STAT_SET_RESULT Rsn.refState.toNat else d

theorem Dev.coreReset_eq (d : Dev) :
    d.coreReset = (((d.coreCleared.pendShown d.cal.pend.isSome).setFlag F.PO_ILKSTAT_ILK_L d.po.ilkLow).setFlag F.PO_ILKSTAT_ACTING
      d.po.ilkLow).resetPorts := rfl

@[simp] theorem Dev.pendShown_keeps (d : Dev) (b : Bool) :
    (d.pendShown b).boot = d.boot ∧ (d.pendShown b).pwr = d.pwr ∧ (d.pendShown b).jobs = d.jobs ∧ (d.pendShown b).fen = d.fen ∧
      (d.pendShown b).ldg = d.ldg ∧ (d.pendShown b).mram = d.mram ∧ (d.pendShown b).cal = d.cal := by
  unfold Dev.pendShown
  split <;> simp

@[simp] theorem Dev.resetPorts_keeps (d : Dev) :
    d.resetPorts.boot = d.boot ∧ d.resetPorts.pwr = d.pwr ∧ d.resetPorts.jobs = d.jobs ∧ d.resetPorts.fen = d.fen ∧
      d.resetPorts.ldg = d.ldg ∧ d.resetPorts.mram = d.mram ∧ d.resetPorts.cal = d.cal := by
  unfold Dev.resetPorts
  generalize List.range _ = l
  refine ⟨foldl_keeps _ Dev.boot ?_ l d, foldl_keeps _ Dev.pwr ?_ l d, foldl_keeps _ Dev.jobs ?_ l d, foldl_keeps _ Dev.fen ?_ l d,
    foldl_keeps _ Dev.ldg ?_ l d, foldl_keeps _ Dev.mram ?_ l d, foldl_keeps _ Dev.cal ?_ l d⟩
  all_goals intro d p; simp

/-- What the core domain does not hold stays through its reset, and what it holds is cleared. -/
theorem Dev.coreReset_keeps (d : Dev) :
    d.coreReset.boot = d.boot ∧ d.coreReset.pwr = d.pwr ∧ d.coreReset.jobs = [] ∧ d.coreReset.fen = {} ∧ d.coreReset.ldg = {} ∧
      d.coreReset.mram = d.mram ∧ d.coreReset.cal = { d.cal with pend := none } := by
  rw [Dev.coreReset_eq]
  simp [Dev.coreCleared]

/-- Only HP_CFG registers are reset to the value that HPSET gives them. -/
theorem Dev.reg_resetPorts (d : Dev) {a : Nat} (h : ∀ p, a ≠ R.HP_CFG p) : d.resetPorts.reg a = d.reg a := by
  unfold Dev.resetPorts
  refine foldl_keeps _ (fun e => e.reg a) (fun e p => ?_) _ d
  rw [Dev.reg_setStg, Dev.reg_setReg, if_neg (h p)]

theorem Dev.reg_coreCleared (d : Dev) (a : Nat) :
    d.coreCleared.reg a = if regClass a == .v || regClass a == .k then d.reg a else resetWord a :=
  mgetD_filter resetWord (fun a => regClass a == .v || regClass a == .k) d.regs a

/-- A calendar that is not valid stays so through the reset. -/
theorem Dev.calValid_coreReset {d : Dev} (h : d.flag F.CAL_STAT_VALID = false) : d.coreReset.flag F.CAL_STAT_VALID = false := by
  have hcleared : d.coreCleared.flag F.CAL_STAT_VALID = false := by
    unfold Dev.flag Dev.fld at h ⊢
    rw [Dev.reg_coreCleared]
    split
    · exact h
    · decide
  have hport : ∀ p, F.CAL_STAT_VALID.a ≠ R.HP_CFG p := fun p => by
    change (0x3138 : Nat) ≠ 0x40000 + 0x100 * (p % 16)
    omega
  rw [Dev.coreReset_eq, Dev.flag, Dev.fld, Dev.reg_resetPorts _ hport]
  change Dev.flag _ F.CAL_STAT_VALID = false
  rw [Dev.flag_setFlag_ne _ _ _ _ (by decide) (by decide), Dev.flag_setFlag_ne _ _ _ _ (by decide) (by decide), Dev.pendShown]
  split
  · rw [Dev.flag_setFld_ne _ _ _ _ (by decide) (by decide), Dev.flag_setFlag_ne _ _ _ _ (by decide) (by decide)]
    exact hcleared
  · exact hcleared

/-! ## The stages of a cold start (R92, R143, R796) -/

/-- The boot state at the end of the strap read. -/
def Dev.coldBoot (d : Dev) (r : StrapRead) (bkp : Bool) : BootSt where
  porst := d.boot.porst
  strapsValid := true
  capable := strapCap r == 1
  bkpRanOut := bkp || d.boot.bkpRanOut
  perst := d.boot.perst || r.perst
  pulses := d.boot.pulses
  vio := r.vio.map vioClass

/-- The device as the strap read begins: the VBKP registers reset, the whole-device incarnation stepped. -/
def Dev.coldBase (d : Dev) (r : StrapRead) (bkp : Bool) : Dev :=
  let d := if bkp then d.calLost else d
  { d with regs := d.regs.filter (fun c => regClass c.1 != .v),
           boot := d.coldBoot r bkp, pwr := { vcore := true }, mram := { d.mram with wdinc := if d.mram.wdinc = 0 then 1 else nextInc d.mram.wdinc } }

/-- The cause of a cold start shown, with PEN_CORE asserted. -/
def Dev.coldShown (d : Dev) (cause : Nat) : Dev :=
  ((d.setFld F.SUP_BOOT_COLD_CAUSE cause).setFlag F.PWR_STAT_PEN_CORE true).setFlag F.SUP_BKP_EXHAUSTED (cause == 3)

/-- The role that the straps give. -/
def strappedRole (r : StrapRead) : Role := if strapCap r = 0 then .worker else if strapCap r = 1 then .reserve else .standalone

/-- The straps applied, the core reset and the role in force. -/
def Dev.coldStrapped (d : Dev) (r : StrapRead) : Dev :=
  let e := (d.applyStraps r).coreReset.setRole (strappedRole r)
  { e with boot := { e.boot with offA := r.safea.isNone, offB := r.safeb.isNone,
                                 linkTraining := strapCap r != 0 && r.hostsel == .low && !e.boot.perst } }

/-- The strap read ended at its time. -/
def Dev.coldTimed (d : Dev) (us : Nat) : Dev :=
  { d with wr := { d.wr with mgrPos := 0 } }.setFld (F.SUP_BOOT_T_COMPLETION 0) (min us 0xFFFFFF)

/-- The first phase after the strap read, or the hold at a strap fault (R107, R123). -/
def Dev.coldPhase (d : Dev) (r : StrapRead) : Dev :=
  if (strapFaults r).isEmpty then (if strapCap r = 0 then (d.phaseDone 0 r.us).setFld F.PWR_STAT_STATE 5 else d.phaseDone 0 r.us)
  else d.holdBoot Rsn.strapFault

theorem Dev.coldStart_eq (d : Dev) (r : StrapRead) (por : Bool) :
    d.coldStart r por =
      if r.cut then (d.coldBase r (r.bkpOut || d.pwr.bkpDead)).coreReset.readOpen.coldShown (coldCause (por || r.vauxPor) (r.bkpOut || d.pwr.bkpDead))
      else ((((d.coldBase r (r.bkpOut || d.pwr.bkpDead)).coldStrapped r).coldShown
        (coldCause (por || r.vauxPor) (r.bkpOut || d.pwr.bkpDead))).coldTimed r.us).coldPhase r := rfl

/-! ## What each stage keeps -/

/-- The parts of the device that the stages after the reset leave alone. -/
def Dev.ColdSame (d e : Dev) : Prop :=
  e.pwr = d.pwr ∧ e.jobs = d.jobs ∧ e.fen = d.fen ∧ e.ldg = d.ldg ∧ e.mram = d.mram ∧ e.cal = d.cal ∧
    e.flag F.CAL_STAT_VALID = d.flag F.CAL_STAT_VALID

namespace Dev.ColdSame
variable {d e f : Dev}

theorem refl (d : Dev) : d.ColdSame d := ⟨rfl, rfl, rfl, rfl, rfl, rfl, rfl⟩

theorem trans (h : d.ColdSame e) (h' : e.ColdSame f) : d.ColdSame f := by
  obtain ⟨h1, h2, h3, h4, h5, h6, h7⟩ := h
  obtain ⟨g1, g2, g3, g4, g5, g6, g7⟩ := h'
  exact ⟨g1.trans h1, g2.trans h2, g3.trans h3, g4.trans h4, g5.trans h5, g6.trans h6, g7.trans h7⟩

theorem setReg (h : d.ColdSame e) {a : Nat} (ha : F.CAL_STAT_VALID.a ≠ a) (w : Word) : d.ColdSame (e.setReg a w) :=
  h.trans ⟨rfl, rfl, rfl, rfl, rfl, rfl, Dev.flag_setReg_ne _ _ _ _ ha⟩

theorem setFld (h : d.ColdSame e) {f : Fld} (hf : F.CAL_STAT_VALID.a ≠ f.a) (v : Nat) : d.ColdSame (e.setFld f v) := h.setReg hf _

theorem setFlag (h : d.ColdSame e) {f : Fld} (hf : F.CAL_STAT_VALID.a ≠ f.a) (b : Bool) : d.ColdSame (e.setFlag f b) := h.setFld hf _

theorem raiseIrq (h : d.ColdSame e) {v : Nat} (hv : v < 64) : d.ColdSame (e.raiseIrq v) :=
  h.trans ⟨by simp, by simp, by simp, by simp, by simp, by simp, Dev.flag_raiseIrq _ _ _ hv (by decide)⟩

theorem setNum (h : d.ColdSame e) {a : Nat} (ha : F.CAL_STAT_VALID.a ≠ a) (v : Nat) : d.ColdSame (e.setNum a v) := h.setReg ha _

theorem withDraws (h : d.ColdSame e) (n : Nat) : d.ColdSame { e with draws := n } := h

theorem withBoot (h : d.ColdSame e) (b : BootSt) : d.ColdSame { e with boot := b } := h

theorem withWr (h : d.ColdSame e) (w : RingSt) : d.ColdSame { e with wr := w } := h

theorem setPhase (h : d.ColdSame e) (n : Nat) : d.ColdSame (e.setPhase n) := (h.setFld (by decide) n).raiseIrq (by decide)

theorem setRole (h : d.ColdSame e) (r : Role) : d.ColdSame (e.setRole r) :=
  ((h.withBoot { e.boot with role := r }).setFld (by decide) _).setFlag (by decide) _

theorem readOpen (h : d.ColdSame e) : d.ColdSame e.readOpen := by
  unfold Dev.readOpen
  refine withBoot (setRole (setFld ?_ (by decide) 15) .worker) _
  exact ((((((((h.setReg (by decide) _).setReg (by decide) _).setReg (by decide) _).setReg (by decide) _).setReg (by decide) _).setReg
    (by decide) _).setReg (by decide) _).setReg (by decide) _).setReg (by decide) _

theorem coldShown (h : d.ColdSame e) (c : Nat) : d.ColdSame (e.coldShown c) :=
  ((h.setFld (by decide) c).setFlag (by decide) true).setFlag (by decide) _

theorem coldTimed (h : d.ColdSame e) (us : Nat) : d.ColdSame (e.coldTimed us) := (h.withWr { e.wr with mgrPos := 0 }).setFld (by decide) _

end Dev.ColdSame

/-- The strap read is done: a worker waits for a clock, any other role for its own. -/
theorem Dev.phaseDone_strapRead (d : Dev) (us : Nat) :
    d.phaseDone 0 us = (if !d.pwr.exiting then d.setFld (F.SUP_BOOT_T_COMPLETION 0) (min us 0xFFFFFF) else d).setPhase
      (if d.boot.role = .worker then 9 else 1) := by
  cases hx : d.pwr.exiting <;> simp [Dev.phaseDone, hx]

theorem Dev.ColdSame.phaseDone_strapRead {d e : Dev} (h : d.ColdSame e) (us : Nat) : d.ColdSame (e.phaseDone 0 us) := by
  rw [Dev.phaseDone_strapRead]
  refine .setPhase ?_ _
  split
  · exact h.setFld (by decide) _
  · exact h

theorem Dev.ColdSame.coldPhase {d e : Dev} (h : d.ColdSame e) (r : StrapRead) : d.ColdSame (e.coldPhase r) := by
  unfold Dev.coldPhase
  split
  · split
    · exact (h.phaseDone_strapRead _).setFld (by decide) _
    · exact h.phaseDone_strapRead _
  · exact (h.setFld (by decide) _).setPhase _

/-! ## What the stages leave of the boot state -/

theorem Dev.boot_phaseDone_strapRead (d : Dev) (us : Nat) : (d.phaseDone 0 us).boot = d.boot := by
  rw [Dev.phaseDone_strapRead]
  split <;> simp

theorem Dev.boot_coldShown (d : Dev) (c : Nat) : (d.coldShown c).boot = d.boot := rfl

theorem Dev.boot_coldTimed (d : Dev) (us : Nat) : (d.coldTimed us).boot = d.boot := rfl

theorem Dev.boot_coldPhase (d : Dev) (r : StrapRead) : (d.coldPhase r).boot = d.boot := by
  unfold Dev.coldPhase
  split
  · split
    · exact (Dev.setFld_keeps _ _ _).2.2.2.2.2.2.1.trans (d.boot_phaseDone_strapRead _)
    · exact d.boot_phaseDone_strapRead _
  · simp [Dev.holdBoot]

/-! ## What the stages show in SUP_BOOT and PWR_STAT -/

/-- Entering a phase leaves the other fields of the start. -/
theorem Dev.fld_setPhase_ne (d : Dev) (n : Nat) (f : Fld) (hf : f.hi < 32) (hi : irqReg f.a = false)
    (hne : f.a ≠ R.SUP_BOOT ∨ 3 < f.lo) : (d.setPhase n).fld f = d.fld f := by
  rw [Dev.setPhase, Dev.fld_raiseIrq _ _ _ (by decide) hi, Dev.fld_setFld_ne _ _ _ _ hf]
  exact hne.imp id .inr

theorem Dev.coldCause_coldShown (d : Dev) (c : Nat) (hc : c < 16) : (d.coldShown c).fld F.SUP_BOOT_COLD_CAUSE = c := by
  rw [Dev.coldShown, Dev.fld_setFlag_ne _ _ _ _ (by decide) (by decide), Dev.fld_setFlag_ne _ _ _ _ (by decide) (by decide),
    Dev.fld_setFld_same _ _ _ (by decide)]
  exact Nat.mod_eq_of_lt hc

theorem Dev.coldCause_coldTimed (d : Dev) (us : Nat) :
    (d.coldTimed us).fld F.SUP_BOOT_COLD_CAUSE = d.fld F.SUP_BOOT_COLD_CAUSE :=
  Dev.fld_setFld_ne _ _ _ _ (by decide) (by decide)

theorem Dev.coldCause_phaseDone (d : Dev) (us : Nat) :
    (d.phaseDone 0 us).fld F.SUP_BOOT_COLD_CAUSE = d.fld F.SUP_BOOT_COLD_CAUSE := by
  rw [Dev.phaseDone_strapRead, Dev.fld_setPhase_ne _ _ _ (by decide) (by decide) (by decide)]
  split
  · exact Dev.fld_setFld_ne _ _ _ _ (by decide) (by decide)
  · rfl

theorem Dev.coldCause_coldPhase (d : Dev) (r : StrapRead) :
    (d.coldPhase r).fld F.SUP_BOOT_COLD_CAUSE = d.fld F.SUP_BOOT_COLD_CAUSE := by
  unfold Dev.coldPhase
  split
  · split
    · exact (Dev.fld_setFld_ne _ _ _ _ (by decide) (by decide)).trans (d.coldCause_phaseDone _)
    · exact d.coldCause_phaseDone _
  · rw [Dev.holdBoot, Dev.fld_setPhase_ne _ _ _ (by decide) (by decide) (by decide)]
    exact Dev.fld_setFld_ne _ _ _ _ (by decide) (by decide)

/-- Without a strap fault the start goes on, and a worker waits in READY-WAIT. -/
theorem Dev.coldPhase_of_noFault {d : Dev} {r : StrapRead} (h : strapFaults r = []) (hrole : d.boot.role = strappedRole r) :
    (d.coldPhase r).phase = (if strapCap r = 0 then 9 else 1) ∧ (strapCap r = 0 → (d.coldPhase r).pstate = 5) := by
  have hworker : d.boot.role = .worker ↔ strapCap r = 0 := by
    rw [hrole, strappedRole]
    split
    · simp [*]
    · split <;> simp [*]
  have hphase : (d.phaseDone 0 r.us).phase = if strapCap r = 0 then 9 else 1 := by
    rw [Dev.phaseDone_strapRead]
    simp only [hworker]
    refine Dev.phase_setPhase _ _ ?_
    split <;> decide
  unfold Dev.coldPhase
  rw [h, if_pos List.isEmpty_nil]
  split
  case isTrue h0 =>
    rw [if_pos h0] at hphase
    exact ⟨(Dev.fld_setFld_ne _ _ _ _ (by decide) (by decide)).trans hphase, fun _ => Dev.fld_setFld_same _ _ _ (by decide)⟩
  case isFalse h0 =>
    rw [if_neg h0] at hphase
    exact ⟨hphase, fun h => absurd h h0⟩

/-- A strap fault holds the start with STRAP_FAULT. -/
theorem Dev.coldPhase_of_fault (d : Dev) {r : StrapRead} (h : strapFaults r ≠ []) :
    (d.coldPhase r).phase = 15 ∧ (d.coldPhase r).fld F.SUP_BOOT_REASON = 0xC001 := by
  have hne : (strapFaults r).isEmpty = false := by simpa using h
  rw [Dev.coldPhase, hne, if_neg Bool.false_ne_true, Dev.holdBoot]
  refine ⟨Dev.phase_setPhase _ _ (by decide), ?_⟩
  rw [Dev.fld_setPhase_ne _ _ _ (by decide) (by decide) (by decide), Dev.fld_setFld_same _ _ _ (by decide)]
  decide

/-- The registers of the strap read while it is open: none has a value of it. -/
def Dev.strapRegsZero (d : Dev) : Dev :=
  let d := (((d.setNum R.SUP_STRAP 0).setNum R.SUP_RCODE 0).setNum R.SUP_STRAPDIAG 0).setNum R.SUP_BOOT 0
  ((((d.setNum R.SUP_RMEAS_POSN 0).setNum R.SUP_RMEAS_HPSET 0).setNum R.SUP_RMEAS_MNOM 0).setNum R.SUP_RMEAS_CHGSET 0).setNum
    (R.SUP_BOOT_T 0) 0

theorem Dev.reg_strapRegsZero (d : Dev) : ∀ a ∈ [R.SUP_STRAP, R.SUP_RCODE, R.SUP_STRAPDIAG, R.SUP_BOOT], d.strapRegsZero.reg a = 0 := by
  intro a ha
  simp only [List.mem_cons, List.not_mem_nil, or_false] at ha
  rcases ha with rfl | rfl | rfl | rfl <;> simp [Dev.strapRegsZero, Dev.setNum]

theorem Dev.regs_readOpen (d : Dev) :
    d.readOpen.regs = ((d.strapRegsZero.setFld F.PWR_STAT_STATE 15).setRole .worker).regs := rfl

theorem Dev.regsBut_setRole (d : Dev) (r : Role) : d.regsBut (d.setRole r) [R.SUP_ROLE, R.CLK_STAT] :=
  (Dev.regsBut.setFld (e := { d with boot := { d.boot with role := r } }) (Dev.regsBut.of_regs rfl _) (by simp) _).setFlag (by simp) _

/-- A strap read that is cut leaves nothing of it: no phase, no straps and no state (R99, R137). -/
theorem Dev.readOpen_shows (d : Dev) :
    d.readOpen.phase = 0 ∧ (∀ a ∈ [R.SUP_STRAP, R.SUP_RCODE, R.SUP_STRAPDIAG], d.readOpen.reg a = 0) ∧ d.readOpen.pstate = 15 := by
  have hrole := (d.strapRegsZero.setFld F.PWR_STAT_STATE 15).regsBut_setRole .worker
  have hstraps : ∀ a ∈ [R.SUP_STRAP, R.SUP_RCODE, R.SUP_STRAPDIAG, R.SUP_BOOT], d.readOpen.reg a = 0 := by
    intro a ha
    have hzero := d.reg_strapRegsZero a ha
    simp only [List.mem_cons, List.not_mem_nil, or_false] at ha
    rw [Dev.reg_congr d.regs_readOpen, hrole a (by rcases ha with rfl | rfl | rfl | rfl <;> decide),
      Dev.reg_setFld_ne _ _ _ _ (by rcases ha with rfl | rfl | rfl | rfl <;> decide), hzero]
  refine ⟨?_, fun a ha => hstraps a ?_, ?_⟩
  · rw [Dev.phase, Dev.fld, hstraps _ (by decide)]
    decide
  · simp only [List.mem_cons, List.not_mem_nil, or_false] at ha ⊢
    rcases ha with h | h | h <;> simp [h]
  · rw [Dev.pstate, Dev.fld_congr d.regs_readOpen, hrole.fld (by decide), Dev.fld_setFld_same _ _ _ (by decide)]
    rfl

/-- The cause shown leaves the phase, the straps and the state. -/
theorem Dev.coldShown_leaves (d : Dev) (c : Nat) :
    (d.coldShown c).phase = d.phase ∧ (∀ a ∈ [R.SUP_STRAP, R.SUP_RCODE, R.SUP_STRAPDIAG], (d.coldShown c).reg a = d.reg a) ∧
      (d.coldShown c).pstate = d.pstate := by
  refine ⟨?_, fun a ha => ?_, ?_⟩
  · rw [Dev.phase, Dev.coldShown, Dev.fld_setFlag_ne _ _ _ _ (by decide) (by decide), Dev.fld_setFlag_ne _ _ _ _ (by decide) (by decide),
      Dev.fld_setFld_ne _ _ _ _ (by decide) (by decide)]
    rfl
  · simp only [List.mem_cons, List.not_mem_nil, or_false] at ha
    rw [Dev.coldShown, Dev.reg_setFlag_ne _ _ _ _ (by rcases ha with rfl | rfl | rfl <;> decide),
      Dev.reg_setFlag_ne _ _ _ _ (by rcases ha with rfl | rfl | rfl <;> decide),
      Dev.reg_setFld_ne _ _ _ _ (by rcases ha with rfl | rfl | rfl <;> decide)]
  · rw [Dev.pstate, Dev.coldShown, Dev.fld_setFlag_ne _ _ _ _ (by decide) (by decide), Dev.fld_setFlag_ne _ _ _ _ (by decide) (by decide),
      Dev.fld_setFld_ne _ _ _ _ (by decide) (by decide)]
    rfl

/-! ## The base of a cold start -/

/-- What the cold start has before the reset of the core domain. -/
theorem Dev.coldBase_holds (d : Dev) (r : StrapRead) (bkp : Bool) :
    (d.coldBase r bkp).boot = d.coldBoot r bkp ∧ (d.coldBase r bkp).pwr = { vcore := true } ∧
      (d.coldBase r bkp).mram = { d.mram with wdinc := if d.mram.wdinc = 0 then 1 else nextInc d.mram.wdinc } := by
  cases bkp <;> exact ⟨rfl, rfl, rfl⟩

theorem Dev.cal_coldBase_of_kept (d : Dev) (r : StrapRead) : (d.coldBase r false).cal = d.cal := rfl

/-- A calendar whose backup ran out comes back without a value that holds (R81, R82). -/
theorem Dev.cal_coldBase_of_lost (d : Dev) (r : StrapRead) :
    (d.coldBase r true).cal.hiWater = none ∧ (d.coldBase r true).flag F.CAL_STAT_VALID = false := by
  have hlost : d.calLost.cal.hiWater = none ∧ d.calLost.flag F.CAL_STAT_VALID = false := by
    refine ⟨rfl, ?_⟩
    rw [Dev.calLost, Dev.flag_setFlag_ne _ _ _ _ (by decide) (by decide), Dev.flag_setFlag_same _ _ _ (by decide) rfl]
  refine ⟨hlost.1, ?_⟩
  have hreg : (d.coldBase r true).reg R.CAL_STAT =
      if (fun a => regClass a != .v) R.CAL_STAT then d.calLost.reg R.CAL_STAT else resetWord R.CAL_STAT :=
    mgetD_filter resetWord (fun a => regClass a != .v) d.calLost.regs R.CAL_STAT
  rw [Dev.flag, Dev.fld, hreg]
  split
  · exact hlost.2
  · decide

/-- The straps shown leave the calendar, the ledger and the boot state. -/
theorem Dev.applyStraps_keeps (d : Dev) (r : StrapRead) : (d.applyStraps r).boot = d.boot ∧ d.ColdSame (d.applyStraps r) := by
  have hdrawn : d.ColdSame { d with draws := d.draws + 1 } := (Dev.ColdSame.refl d).withDraws _
  have hshown : ∀ (strap code posn hpset mnom chg diag : Nat), d.ColdSame (((((((({ d with draws := d.draws + 1 } : Dev).setNum R.SUP_STRAP
      strap).setNum R.SUP_RCODE code).setNum R.SUP_RMEAS_POSN posn).setNum R.SUP_RMEAS_HPSET hpset).setNum R.SUP_RMEAS_MNOM mnom).setNum
      R.SUP_RMEAS_CHGSET chg).setNum R.SUP_STRAPDIAG diag) := fun _ _ _ _ _ _ _ =>
    ((((((hdrawn.setNum (by decide) _).setNum (by decide) _).setNum (by decide) _).setNum (by decide) _).setNum (by decide) _).setNum
      (by decide) _).setNum (by decide) _
  unfold Dev.applyStraps
  dsimp only
  split
  · exact ⟨by simp, hshown _ _ _ _ _ _ _⟩
  · exact ⟨by simp, hshown _ _ _ _ _ _ _⟩

/-- The device after the reset of its core domain under the straps. -/
theorem Dev.coldStrapped_holds (d : Dev) (r : StrapRead) :
    (d.coldStrapped r).boot = { d.boot with role := strappedRole r, offA := r.safea.isNone, offB := r.safeb.isNone,
                                            linkTraining := strapCap r != 0 && r.hostsel == .low && !d.boot.perst } ∧
      (d.applyStraps r).coreReset.ColdSame (d.coldStrapped r) := by
  have hboot : ((d.applyStraps r).coreReset.setRole (strappedRole r)).boot = { d.boot with role := strappedRole r } := by
    rw [(Dev.setRole_keeps _ _).1, (Dev.coreReset_keeps _).1, (Dev.applyStraps_keeps d r).1]
  refine ⟨?_, ((Dev.ColdSame.refl _).setRole _).withBoot _⟩
  simp only [Dev.coldStrapped, hboot]

theorem coldCause_cases (por bkp : Bool) : coldCause por bkp < 16 ∧ (coldCause por bkp = 3 ↔ bkp = true) := by
  cases por <;> cases bkp <;> decide

/-- What the reset of the core domain under e's calendar and MRAM leaves, through the rest of a cold start. -/
structure Dev.ColdKept (d e : Dev) : Prop where
  pwr : e.pwr = d.pwr
  jobs : e.jobs = []
  fen : e.fen = {}
  ldg : e.ldg = {}
  mram : e.mram = d.mram
  cal : e.cal = { d.cal with pend := none }
  valid : d.flag F.CAL_STAT_VALID = false → e.flag F.CAL_STAT_VALID = false

theorem Dev.coldKept_of_same {d b e : Dev} (h : d.ColdSame b) (h' : b.coreReset.ColdSame e) : d.ColdKept e := by
  obtain ⟨hpwr, hjobs, hfen, hldg, hmram, hcal, hvalid⟩ := h
  obtain ⟨hpwr', hjobs', hfen', hldg', hmram', hcal', hvalid'⟩ := h'
  obtain ⟨-, rpwr, rjobs, rfen, rldg, rmram, rcal⟩ := b.coreReset_keeps
  exact ⟨hpwr'.trans (rpwr.trans hpwr), hjobs'.trans rjobs, hfen'.trans rfen, hldg'.trans rldg, hmram'.trans (rmram.trans hmram),
    hcal'.trans (rcal.trans (by rw [hcal])), fun hv => hvalid'.trans (Dev.calValid_coreReset (hvalid.trans hv))⟩

/-- Whatever its straps, a cold start keeps the ledger and the calendar of its base, and clears the core. -/
theorem Dev.coldKept_coldStart (d : Dev) (r : StrapRead) (por : Bool) :
    (d.coldBase r (r.bkpOut || d.pwr.bkpDead)).ColdKept (d.coldStart r por) := by
  rw [Dev.coldStart_eq]
  split
  · exact Dev.coldKept_of_same (.refl _) ((Dev.ColdSame.refl _).readOpen.coldShown _)
  · exact Dev.coldKept_of_same (Dev.applyStraps_keeps _ r).2
      ((((Dev.coldStrapped_holds _ r).2.coldShown _).coldTimed _).coldPhase r)

theorem Dev.boot_readOpen (d : Dev) : d.readOpen.boot =
    { porst := d.boot.porst, pulses := d.boot.pulses, perst := d.boot.perst, bkpRanOut := d.boot.bkpRanOut, reading := true } := by
  simp [Dev.readOpen]

/-- The boot state that a cold start leaves. -/
theorem Dev.boot_coldStart (d : Dev) (r : StrapRead) (por : Bool) :
    let e := d.coldStart r por
    e.boot.strapsValid = !r.cut ∧ e.boot.reading = r.cut ∧ e.boot.perst = (d.boot.perst || r.perst) ∧
      e.boot.capable = (!r.cut && strapCap r == 1) ∧ e.boot.porst = d.boot.porst ∧ (r.cut = false → e.boot.role = strappedRole r) := by
  obtain ⟨hboot, -, -⟩ := d.coldBase_holds r (r.bkpOut || d.pwr.bkpDead)
  dsimp only
  rw [Dev.coldStart_eq]
  cases hcut : r.cut with
  | true =>
    rw [if_pos rfl, Dev.boot_coldShown, Dev.boot_readOpen, (Dev.coreReset_keeps _).1, hboot]
    exact ⟨rfl, rfl, rfl, rfl, rfl, fun h => absurd h Bool.true_eq_false_eq_False⟩
  | false =>
    rw [if_neg Bool.false_ne_true, Dev.boot_coldPhase, Dev.boot_coldTimed, Dev.boot_coldShown, (Dev.coldStrapped_holds _ r).1, hboot]
    exact ⟨rfl, rfl, rfl, rfl, rfl, fun _ => rfl⟩

/-- The cause, the phase and the straps that a cold start shows. -/
theorem Dev.coldStart_shows (d : Dev) (r : StrapRead) (por : Bool) :
    let e := d.coldStart r por
    e.fld F.SUP_BOOT_COLD_CAUSE = coldCause (por || r.vauxPor) (r.bkpOut || d.pwr.bkpDead) ∧
      (r.cut = true → e.phase = 0 ∧ (∀ a ∈ [R.SUP_STRAP, R.SUP_RCODE, R.SUP_STRAPDIAG], e.reg a = 0) ∧ e.pstate = 15) ∧
      (r.cut = false → strapFaults r = [] → e.phase = (if strapCap r = 0 then 9 else 1) ∧ (strapCap r = 0 → e.pstate = 5)) ∧
      (r.cut = false → strapFaults r ≠ [] → e.phase = 15 ∧ e.fld F.SUP_BOOT_REASON = 0xC001) := by
  have hcause := (coldCause_cases (por || r.vauxPor) (r.bkpOut || d.pwr.bkpDead)).1
  dsimp only
  rw [Dev.coldStart_eq]
  cases hcut : r.cut with
  | true =>
    rw [if_pos rfl]
    obtain ⟨hphase, hregs, hstate⟩ := Dev.readOpen_shows (d.coldBase r (r.bkpOut || d.pwr.bkpDead)).coreReset
    obtain ⟨sphase, sregs, sstate⟩ := Dev.coldShown_leaves (d.coldBase r (r.bkpOut || d.pwr.bkpDead)).coreReset.readOpen
      (coldCause (por || r.vauxPor) (r.bkpOut || d.pwr.bkpDead))
    exact ⟨Dev.coldCause_coldShown _ _ hcause,
      fun _ => ⟨sphase.trans hphase, fun a ha => (sregs a ha).trans (hregs a ha), sstate.trans hstate⟩, nofun, nofun⟩
  | false =>
    rw [if_neg Bool.false_ne_true, Dev.coldCause_coldPhase, Dev.coldCause_coldTimed, Dev.coldCause_coldShown _ _ hcause]
    refine ⟨rfl, nofun, fun _ h => Dev.coldPhase_of_noFault h ?_, fun _ h => Dev.coldPhase_of_fault _ h⟩
    rw [Dev.boot_coldTimed, Dev.boot_coldShown, (Dev.coldStrapped_holds _ r).1]

/-! ## The statement -/

/-- What a cold start with a cause leaves of a state, as the statement words it. -/
def ColdStarted (s t : State) (r : StrapRead) (cause : Nat) : Prop :=
  t.dev.fld F.SUP_BOOT_COLD_CAUSE = cause ∧ t.dev.boot.strapsValid = !r.cut ∧ t.dev.boot.reading = r.cut ∧
  t.dev.boot.perst = (s.dev.boot.perst || r.perst) ∧
  (r.cut = true → t.dev.phase = 0 ∧ (∀ a ∈ [R.SUP_STRAP, R.SUP_RCODE, R.SUP_STRAPDIAG], t.dev.reg a = 0) ∧ t.dev.pstate = 15 ∧
    ∀ n, t.dev.outPin n = none) ∧
  t.dev.boot.capable = (!r.cut && strapCap r == 1) ∧ t.dev.pwr.vcore = true ∧ t.dev.jobs = [] ∧ t.dev.fen = {} ∧ t.dev.ldg = {} ∧
  t.dev.mram = { s.dev.mram with wdinc := if s.dev.mram.wdinc = 0 then 1 else nextInc s.dev.mram.wdinc } ∧
  (cause ≠ 3 → t.dev.cal = { s.dev.cal with pend := none }) ∧
  (cause = 3 → t.dev.flag F.CAL_STAT_VALID = false ∧ t.dev.cal.pend = none ∧ t.dev.cal.hiWater = none) ∧
  (r.cut = false → strapFaults r = [] → t.dev.phase = (if strapCap r = 0 then 9 else 1) ∧ (strapCap r = 0 → t.dev.pstate = 5)) ∧
  (r.cut = false → strapFaults r ≠ [] → t.dev.phase = 15 ∧ t.dev.fld F.SUP_BOOT_REASON = 0xC001) ∧ t = { s with dev := t.dev }

/-- A cold start of a device that has the calendar, the MRAM and the level of PERST_L of a state. -/
theorem coldStarted_coldStart {s : State} {d : Dev} (r : StrapRead) (por : Bool) (hperst : d.boot.perst = s.dev.boot.perst)
    (hmram : d.mram = s.dev.mram) (hcal : d.cal = s.dev.cal) {cause : Nat}
    (hc : coldCause (por || r.vauxPor) (r.bkpOut || d.pwr.bkpDead) = cause) :
    ColdStarted s { s with dev := d.coldStart r por } r cause := by
  obtain ⟨hshown, hcut, hgo, hfault⟩ := d.coldStart_shows r por
  obtain ⟨hvalid, hreading, hpst, hcap, -, -⟩ := d.boot_coldStart r por
  obtain ⟨hpwr, hjobs, hfen, hldg, hm, hcalKept, hvalidKept⟩ := d.coldKept_coldStart r por
  obtain ⟨-, bpwr, bmram⟩ := d.coldBase_holds r (r.bkpOut || d.pwr.bkpDead)
  have hthree := (coldCause_cases (por || r.vauxPor) (r.bkpOut || d.pwr.bkpDead)).2
  rw [hc] at hshown hthree
  generalize (r.bkpOut || d.pwr.bkpDead) = bkp at *
  unfold ColdStarted
  generalize d.coldStart r por = e at *
  refine ⟨hshown, hvalid, hreading, hpst.trans (by rw [hperst]), fun h => ?_, hcap, ?_, hjobs, hfen, hldg, ?_, fun h => ?_, fun h => ?_,
    hgo, hfault, rfl⟩
  · obtain ⟨hphase, hregs, hstate⟩ := hcut h
    refine ⟨hphase, hregs, hstate, fun n => ?_⟩
    rw [h] at hvalid
    rw [Dev.outPin, hvalid]
    rfl
  · rw [hpwr, bpwr]
  · rw [hm, bmram, hmram]
  · have hb : bkp = false := by simpa using mt hthree.2 h
    subst hb
    rw [hcalKept, d.cal_coldBase_of_kept r, hcal]
  · have hb := hthree.1 h
    subst hb
    obtain ⟨hhi, hv⟩ := d.cal_coldBase_of_lost r
    rw [hcalKept]
    exact ⟨hvalidKept hv, rfl, hhi⟩

/-- The device with PORST_L released after a pulse, of which k more count as short. -/
def Dev.porstReleased (d : Dev) (k : Nat) : Dev := { d with boot := { d.boot with porst := false, pulses := d.boot.pulses + k } }

/-- A release of PORST_L after a low pulse of n ns (R112, R113). -/
theorem exec_coldStart {s : State} {n : Nat} {r : StrapRead} (h : s.dev.boot.porst = true) :
    exec (.coldStart n r) s = .next { s with dev :=
      let e := s.dev.porstReleased (if n < 10000 ∧ 1000 ≤ n then 1 else 0)
      if n < 1000 ∨ (n < 10000 ∧ Config.shortPulseStarts s.dev.boot.pulses = false) then e else e.coldStart r false } := by
  change execColdStart n r s = _
  have hpulses : (if n < 10000 ∧ 1000 ≤ n then s.dev.boot.pulses + 1 else s.dev.boot.pulses) =
      s.dev.boot.pulses + if n < 10000 ∧ 1000 ≤ n then 1 else 0 := by
    split <;> rfl
  simp only [execColdStart, State.onDev, h, hpulses, Dev.porstReleased, Bool.or_eq_true, Bool.and_eq_true, decide_eq_true_eq,
    Bool.not_eq_true', Bool.not_true, Bool.false_eq_true, if_false]

/-- The device once the backup cell is declared exhausted (R189, R191). -/
def Dev.bkpOut (d : Dev) : Dev :=
  let evt : SupEvt := { code := Rsn.bkpExhausted, bn := d.now, val := d.fld F.SUP_BKP_VBKP }
  let full := decide (16 ≤ d.pwr.mevt.length)
  { d with pwr := { d.pwr with bkpDead := true, dormFlag := false,
                               mevt := if full then d.pwr.mevt else d.pwr.mevt ++ [evt],
                               mevtLost := if full then satAdd 8 d.pwr.mevtLost 1 else d.pwr.mevtLost } }

/-- It is declared in HOLDUP, dormancy and PARK only (Table PWR-4). -/
def Dev.bkpHeld (d : Dev) : Bool := d.flag F.PWR_STAT_HOLDUP || d.pwr.dormant || d.pstate == 3

theorem Dev.bkpHeld_iff (d : Dev) : d.bkpHeld = true ↔ d.flag F.PWR_STAT_HOLDUP = true ∨ d.pwr.dormant = true ∨ d.pstate = 3 := by
  simp [Dev.bkpHeld, or_assoc]

theorem exec_bkpExhausted (s : State) (m : Option StrapRead) : exec (.bkpExhausted m) s = .next (s.onDev fun d =>
    if !d.bkpHeld then d else match m with
      | some r => d.bkpOut.coldStart r false
      | none => d.bkpOut.raiseIrq 17) := rfl

/-- Settles O21: each entry that starts the device cold comes to the same cold start, with its own cause. -/
theorem coldStartKeepsLedger : Obligations.ColdStartKeepsLedger := by
  unfold Obligations.ColdStartKeepsLedger
  intro cold porst s r bkp held
  have hheld : held ↔ s.dev.bkpHeld = true := (s.dev.bkpHeld_iff).symm
  have hreleased : ∀ k, ColdStarted s { s with dev := (s.dev.porstReleased k).coldStart r false } r
      (if bkp then 3 else if r.vauxPor then 2 else 1) := fun k => by
    refine coldStarted_coldStart (d := s.dev.porstReleased k) r false rfl rfl rfl ?_
    rw [Bool.false_or]
    rfl
  have hporst : ∀ k, ((s.dev.porstReleased k).coldStart r false).boot.porst = false := fun k =>
    (Dev.boot_coldStart _ r false).2.2.2.2.1
  refine ⟨rfl, fun n h => ?_, fun n h hn => ?_, fun n h hlo hhi => ?_, fun n h hn => ?_, ?_, fun h => ?_, fun h => ?_, fun h m => ?_⟩
  · change execColdStart n r s = _
    rw [execColdStart, State.onDev, h]
    rfl
  · rw [exec_coldStart h]
    dsimp only
    rw [if_pos (.inl hn), if_neg (by omega)]
    rfl
  · rw [exec_coldStart h]
    dsimp only
    rw [if_pos (show n < 10000 ∧ 1000 ≤ n from ⟨hhi, hlo⟩)]
    cases Config.shortPulseStarts s.dev.boot.pulses with
    | false =>
      rw [if_pos (show n < 1000 ∨ (n < 10000 ∧ false = false) from .inr ⟨hhi, rfl⟩)]
      exact ⟨_, rfl, rfl, .inl rfl⟩
    | true =>
      rw [if_neg (show ¬(n < 1000 ∨ (n < 10000 ∧ true = false)) by simp [hlo])]
      exact ⟨_, rfl, hporst 1, .inr (hreleased 1)⟩
  · rw [exec_coldStart h]
    dsimp only
    rw [if_neg (by omega), if_neg (by omega)]
    exact ⟨_, rfl, hporst 0, hreleased 0⟩
  · exact ⟨_, rfl, (Dev.boot_coldStart _ r true).2.2.2.2.1, coldStarted_coldStart (d := s.dev) r true rfl rfl rfl rfl⟩
  · rw [exec_bkpExhausted, State.onDev, hheld.1 h]
    refine ⟨_, rfl, coldStarted_coldStart (d := s.dev.bkpOut) r false rfl rfl rfl ?_⟩
    rw [show s.dev.bkpOut.pwr.bkpDead = true from rfl, Bool.or_true]
    rfl
  · rw [exec_bkpExhausted, State.onDev, hheld.1 h]
    refine ⟨_, rfl, ?_, ?_, s.dev.bkpOut.isr_raiseIrq 17 (by decide), ?_, ?_⟩
    · simp [Dev.bkpOut]
    · simp [Dev.bkpOut]
    · exact (Dev.regsBut.of_regs (d := s.dev) (e := s.dev.bkpOut) rfl _).raiseIrq (List.Subset.refl _) 17
    · have honly := s.dev.bkpOut.raiseIrq_regs_out_only 17
      have hpwr : (s.dev.bkpOut.raiseIrq 17).pwr = s.dev.bkpOut.pwr := by simp
      generalize s.dev.bkpOut.raiseIrq 17 = e at *
      rw [honly]
      rfl
  · have hnot : s.dev.bkpHeld = false := by simpa using mt hheld.2 h
    rw [exec_bkpExhausted, State.onDev, hnot]
    rfl

end Sys2Proof.Machine
end

section
/-!
PROOF. The live check of the pins, and the order of the start-up phases (03_straps_and_startup.md R92, R110, R115, R116, R119, R123, R125, R138).
-/
namespace Sys2Proof.Machine
open Sys2Proof

/-! ## The live check of the pins (R110, R138) -/

/-- Every pin as the supervisor reads it now, with the value in force. -/
def Dev.livePins (d : Dev) (r : StrapRead) : List (Nat × Nat × Nat) :=
  let b := fun (l : Level) (n : Nat) => (if l = .open_ then 2 else levelBit l, slice (d.reg R.SUP_STRAP) n n)
  let v := fun (m : Option Nat × Option Nat) (top : Nat) (f : Fld) => (match rDecode m top with
    | .inl c => c
    | .inr cause => 256 + cause, d.fld f)
  let up := d.boot.role != .worker
  let host := if up then [(2, b r.refsel0 2), (3, b r.refsel1 3), (4, b r.hostsel 4)] else []
  let posn := if d.boot.role != .standalone then [(7, v r.posn 31 F.SUP_RCODE_POSN)] else []
  [(0, b r.role0 0), (1, b r.role1 1)] ++ host ++ [(5, (levelTri 3 r.safea, d.fld F.SUP_STRAP_SAFEA)),
    (6, (levelTri 3 r.safeb, d.fld F.SUP_STRAP_SAFEB))] ++ posn ++ [(8, v r.hpset 16 F.SUP_RCODE_HPSET),
    (9, v r.mnom 12 F.SUP_RCODE_MNOM), (10, v r.chgset 15 F.SUP_RCODE_CHGSET)]

/-- The pins whose reading differs from the value in force, with that reading. -/
def Dev.liveDiff (d : Dev) (r : StrapRead) : List (Nat × Nat) :=
  ((d.livePins r).filter fun x => x.2.1 != x.2.2).map fun x => (x.1, x.2.1)

/-- A pin shown to differ in SUP_STRAPLIVE. -/
def Dev.liveMarked (d : Dev) (x : Nat × Nat) : Dev := d.setReg R.SUP_STRAPLIVE (putBit (d.reg R.SUP_STRAPLIVE) x.1 true)

/-- The differing readings noted and shown. -/
def Dev.liveShown (d : Dev) (l : List (Nat × Nat)) : Dev :=
  l.foldl Dev.liveMarked { d with boot := { d.boot with liveBad := l } }

/-- Vector 24 once for every entry of a list. -/
def Dev.liveRaised (d : Dev) (l : List (Nat × Nat)) : Dev := l.foldl (fun d _ => d.raiseIrq 24) d

theorem exec_strapLiveCheck (r : StrapRead) (s : State) : exec (.strapLiveCheck r) s = .next (s.onDev fun d =>
    if !d.boot.strapsValid then d
    else (d.liveShown (d.liveDiff r)).liveRaised ((d.liveDiff r).filter fun x => !d.boot.liveBad.contains x)) := rfl

theorem Dev.regsBut_liveShown (d : Dev) (l : List (Nat × Nat)) : d.regsBut (d.liveShown l) [R.SUP_STRAPLIVE] :=
  (Dev.regsBut.of_regs rfl _).trans (.foldl (fun _ _ => .setReg (.refl _ _) (by simp) _) l _)

theorem Dev.regsBut_liveRaised (d : Dev) (l : List (Nat × Nat)) : d.regsBut (d.liveRaised l) irqRegs :=
  .foldl (fun _ _ => .raiseIrq (.refl _ _) (List.Subset.refl _) _) l d

theorem Dev.liveShown_frame (d : Dev) (l : List (Nat × Nat)) :
    d.liveShown l = { d with regs := (d.liveShown l).regs, boot := { d.boot with liveBad := l } } := by
  have hmarks : ∀ (k : List (Nat × Nat)) (e : Dev), k.foldl Dev.liveMarked e = { e with regs := (k.foldl Dev.liveMarked e).regs } := by
    intro k
    induction k with
    | nil => exact fun e => rfl
    | cons x k ih => exact fun e => Dev.regs_only_trans (e := e.liveMarked x) rfl (ih _)
  exact hmarks l _

theorem Dev.regs_out_trans {d e f : Dev} (h : e = { d with regs := e.regs, out := e.out }) (h' : f = { e with regs := f.regs, out := f.out }) :
    f = { d with regs := f.regs, out := f.out } := by rw [h', h]

theorem Dev.liveRaised_frame (l : List (Nat × Nat)) :
    ∀ d : Dev, d.liveRaised l = { d with regs := (d.liveRaised l).regs, out := (d.liveRaised l).out } := by
  induction l with
  | nil => exact fun d => rfl
  | cons x l ih =>
    exact fun d => Dev.regs_out_trans (d.raiseIrq_regs_out_only 24) (ih _)

/-- A bit of SUP_STRAPLIVE that is set stays set while pins are marked, and every marked pin has its bit. -/
theorem Dev.bit_foldl_liveMarked {i : Nat} (hi : i < 32) (l : List (Nat × Nat)) :
    ∀ d : Dev, (bitOf (d.reg R.SUP_STRAPLIVE) i = true ∨ ∃ x ∈ l, x.1 = i) →
      bitOf ((l.foldl Dev.liveMarked d).reg R.SUP_STRAPLIVE) i = true := by
  induction l with
  | nil => intro d h; simpa using h
  | cons x l ih =>
    intro d h
    refine ih (d.liveMarked x) ?_
    have hreg : (d.liveMarked x).reg R.SUP_STRAPLIVE = putBit (d.reg R.SUP_STRAPLIVE) x.1 true := by simp [Dev.liveMarked]
    rw [hreg, bitOf_putBit _ _ _ _ hi]
    rcases h with h | ⟨y, hy, rfl⟩
    · left; split
      · rfl
      · exact h
    · rcases List.mem_cons.1 hy with rfl | hy
      · exact .inl (if_pos rfl)
      · exact .inr ⟨y, hy, rfl⟩

theorem Dev.bit_liveShown {l : List (Nat × Nat)} {x : Nat × Nat} (hx : x ∈ l) (hi : x.1 < 32) (d : Dev) :
    bitOf ((d.liveShown l).reg R.SUP_STRAPLIVE) x.1 = true := Dev.bit_foldl_liveMarked hi l _ (.inr ⟨x, hx, rfl⟩)

/-- A bit put where it stands changes nothing. -/
theorem putBit_of_set {w : Word} {k : Nat} (h : bitOf w k = true) : putBit w k true = w := by
  refine BitVec.eq_of_getLsbD_eq fun i hi => ?_
  change bitOf (putBit w k true) i = bitOf w i
  rw [bitOf_putBit _ _ _ _ hi]
  split
  case isTrue hik => rw [hik, h]
  case isFalse => rfl

/-- Marking again the pins that are marked changes no register. -/
theorem Dev.reg_foldl_liveMarked (l : List (Nat × Nat)) :
    ∀ d : Dev, (∀ x ∈ l, bitOf (d.reg R.SUP_STRAPLIVE) x.1 = true) → ∀ a, (l.foldl Dev.liveMarked d).reg a = d.reg a := by
  induction l with
  | nil => exact fun _ _ _ => rfl
  | cons x l ih =>
    intro d h
    have hone : ∀ a, (d.liveMarked x).reg a = d.reg a := fun a => by
      rw [Dev.liveMarked, putBit_of_set (h x List.mem_cons_self), Dev.reg_setReg]
      split
      case isTrue ha => rw [ha]
      case isFalse => rfl
    exact fun a => (ih _ (fun y hy => (hone _).symm ▸ h y (List.mem_cons_of_mem _ hy)) a).trans (hone a)

/-- The pins' numbers. -/
theorem Dev.fst_lt_of_mem_liveDiff {d : Dev} {r : StrapRead} {x : Nat × Nat} (h : x ∈ d.liveDiff r) : x.1 < 32 := by
  obtain ⟨y, hy, rfl⟩ := List.mem_map.1 h
  have hy := (List.mem_filter.1 hy).1
  simp only [Dev.livePins, List.mem_append, List.mem_cons, List.not_mem_nil, or_false, List.mem_ite_nil_right] at hy
  rcases hy with (((hy | ⟨-, hy⟩) | hy) | ⟨-, hy⟩) | hy
  · rcases hy with rfl | rfl <;> simp
  · rcases hy with rfl | rfl | rfl <;> simp
  · rcases hy with rfl | rfl <;> simp
  · rw [hy]; simp
  · rcases hy with rfl | rfl | rfl <;> simp

/-- A pin HPSET that now reads another code is among the differing ones. -/
theorem Dev.hpset_mem_liveDiff {d : Dev} {r : StrapRead} {c : Nat} (hc : rDecode r.hpset 16 = .inl c) (hne : c ≠ d.fld F.SUP_RCODE_HPSET) :
    (8, c) ∈ d.liveDiff r := by
  refine List.mem_map.2 ⟨(8, c, d.fld F.SUP_RCODE_HPSET), List.mem_filter.2 ⟨?_, by simpa using hne⟩, rfl⟩
  simp [Dev.livePins, hc]

/-- A list that is not empty raises vector 24. -/
theorem Dev.isr_liveRaised (l : List (Nat × Nat)) :
    ∀ d : Dev, (bitOf (d.reg R.HST_ISR0) 24 = true ∨ l ≠ []) → bitOf ((d.liveRaised l).reg R.HST_ISR0) 24 = true := by
  induction l with
  | nil => exact fun _ h => h.resolve_right fun hne => hne rfl
  | cons x l ih => exact fun d _ => ih _ (.inl (d.isr_raiseIrq 24 (by decide)))

theorem Dev.regs_boot_out_trans {d e f : Dev} {b : BootSt} (h : e = { d with regs := e.regs, boot := b })
    (h' : f = { e with regs := f.regs, out := f.out }) : f = { d with regs := f.regs, out := f.out, boot := b } := by rw [h', h]

/-- The device after a live check that finds l. -/
def Dev.liveChecked (d : Dev) (l : List (Nat × Nat)) : Dev :=
  (d.liveShown l).liveRaised (l.filter fun x => !d.boot.liveBad.contains x)

theorem Dev.regsBut_liveChecked (d : Dev) (l : List (Nat × Nat)) : d.regsBut (d.liveChecked l) (R.SUP_STRAPLIVE :: irqRegs) :=
  ((d.regsBut_liveShown l).mono (by simp)).trans ((Dev.regsBut_liveRaised _ _).mono (by simp))

theorem Dev.liveChecked_frame (d : Dev) (l : List (Nat × Nat)) : d.liveChecked l = { d with
    regs := (d.liveChecked l).regs, out := (d.liveChecked l).out, boot := { d.boot with liveBad := l } } :=
  Dev.regs_boot_out_trans (d.liveShown_frame l) (Dev.liveRaised_frame _ _)

/-- The same readings checked again change nothing. -/
theorem Dev.liveChecked_again {d : Dev} {l : List (Nat × Nat)} (hbad : d.boot.liveBad = l)
    (hbits : ∀ x ∈ l, bitOf (d.reg R.SUP_STRAPLIVE) x.1 = true) :
    (d.liveChecked l).out = d.out ∧ (d.liveChecked l).boot = d.boot ∧ ∀ a, (d.liveChecked l).reg a = d.reg a := by
  have hnone : (l.filter fun x => !d.boot.liveBad.contains x) = [] := by
    rw [hbad, List.filter_eq_nil_iff]
    intro x hx
    simpa using hx
  have heq : d.liveChecked l = d.liveShown l := by rw [Dev.liveChecked, hnone]; rfl
  rw [heq]
  refine ⟨by rw [d.liveShown_frame l], ?_, fun a => ?_⟩
  · rw [d.liveShown_frame l, ← hbad]
  · exact Dev.reg_foldl_liveMarked l { d with boot := { d.boot with liveBad := l } } hbits a

/-- The registers and the role that a live check compares stand, so it finds the same again. -/
theorem Dev.liveDiff_liveChecked (d : Dev) (r : StrapRead) (l : List (Nat × Nat)) : (d.liveChecked l).liveDiff r = d.liveDiff r := by
  have hregs := d.regsBut_liveChecked l
  have hstrap : (d.liveChecked l).reg R.SUP_STRAP = d.reg R.SUP_STRAP := hregs _ (by decide)
  have hcode : (d.liveChecked l).reg R.SUP_RCODE = d.reg R.SUP_RCODE := hregs _ (by decide)
  have hrole : (d.liveChecked l).boot.role = d.boot.role := by rw [d.liveChecked_frame l]
  simp only [Dev.liveDiff, Dev.livePins, Dev.fld, hstrap, hcode, hrole]

/-- The live check of a device whose straps are in force (R110, R138). -/
theorem strapLiveCheck_stated (s : State) (r : StrapRead) :
    (s.dev.boot.strapsValid = true → ∃ t, exec (.strapLiveCheck r) s = .next t ∧ s.dev.regsBut t.dev (R.SUP_STRAPLIVE :: irqRegs) ∧
       t = { s with dev := { s.dev with regs := t.dev.regs, out := t.dev.out, boot := { s.dev.boot with liveBad := t.dev.boot.liveBad } } } ∧
       (s.dev.boot.liveBad = [] → (∃ c, rDecode r.hpset 16 = .inl c ∧ c ≠ s.dev.fld F.SUP_RCODE_HPSET) →
         bitOf (t.dev.reg R.SUP_STRAPLIVE) 8 = true ∧ bitOf (t.dev.reg R.HST_ISR0) 24 = true) ∧
       ∃ u, exec (.strapLiveCheck r) t = .next u ∧ u.dev.out = t.dev.out ∧ u.dev.boot = t.dev.boot ∧
         ∀ a, u.dev.reg a = t.dev.reg a) ∧
     (s.dev.boot.strapsValid = false → exec (.strapLiveCheck r) s = .next s) := by
  have hexec : ∀ t : State, t.dev.boot.strapsValid = true →
      exec (.strapLiveCheck r) t = .next { t with dev := t.dev.liveChecked (t.dev.liveDiff r) } := fun t ht => by
    rw [exec_strapLiveCheck, State.onDev, ht]
    rfl
  refine ⟨fun h => ?_, fun h => by rw [exec_strapLiveCheck, State.onDev, h]; rfl⟩
  have hdiff := s.dev.liveDiff_liveChecked r (s.dev.liveDiff r)
  have hframe := s.dev.liveChecked_frame (s.dev.liveDiff r)
  have hregs := s.dev.regsBut_liveChecked (s.dev.liveDiff r)
  have hbits : ∀ x ∈ s.dev.liveDiff r, bitOf ((s.dev.liveChecked (s.dev.liveDiff r)).reg R.SUP_STRAPLIVE) x.1 = true := fun x hx => by
    have hraised := Dev.regsBut_liveRaised (s.dev.liveShown (s.dev.liveDiff r)) ((s.dev.liveDiff r).filter fun x => !s.dev.boot.liveBad.contains x)
    rw [Dev.liveChecked, hraised _ (by decide)]
    exact Dev.bit_liveShown hx (Dev.fst_lt_of_mem_liveDiff hx) _
  refine ⟨_, hexec s h, hregs, ?_, fun hbad ⟨c, hc, hne⟩ => ?_, ?_⟩
  · generalize s.dev.liveChecked (s.dev.liveDiff r) = e at *
    rw [hframe]
  · have hmem := Dev.hpset_mem_liveDiff hc hne
    refine ⟨hbits _ hmem, Dev.isr_liveRaised _ _ (.inr (List.ne_nil_of_mem (a := (8, c)) ?_))⟩
    simpa [hbad] using hmem
  · generalize s.dev.liveChecked (s.dev.liveDiff r) = e at *
    have hvalid : e.boot.strapsValid = true := by rw [hframe]; exact h
    have hbad : e.boot.liveBad = s.dev.liveDiff r := by rw [hframe]
    refine ⟨_, hexec { s with dev := e } hvalid, ?_⟩
    rw [show ({ s with dev := e } : State).dev.liveDiff r = s.dev.liveDiff r from hdiff]
    exact Dev.liveChecked_again hbad hbits

/-! ## The phases that a lock, a calibration and a mount end (R115, R116, R119, R123, R125) -/

/-- The lock of a start: its flags, then the phase after the clock's. -/
def Dev.lockShown (d : Dev) : Dev :=
  (((d.setSpll 1).setFlag F.CLK_STAT_LOCKED true).setFlag F.CLK_STAT_REF_PRESENT true).setFlag F.CLK_STAT_REF_QUAL true

theorem Dev.regsBut_lockShown (d : Dev) : d.regsBut d.lockShown [R.CLK_STAT] :=
  ((((Dev.regsBut.refl d _).setFld (by simp) _).setFlag (by simp) _).setFlag (by simp) _).setFlag (by simp) _

theorem Dev.lockShown_shows (d : Dev) :
    d.lockShown.spll = 1 ∧ d.lockShown.flag F.CLK_STAT_LOCKED = true ∧ d.lockShown.flag F.CLK_STAT_REF_QUAL = true := by
  refine ⟨?_, ?_, Dev.flag_setFlag_same _ _ _ (by decide) rfl⟩
  · rw [Dev.spll, Dev.lockShown, Dev.fld_setFlag_ne _ _ _ _ (by decide) (by decide), Dev.fld_setFlag_ne _ _ _ _ (by decide) (by decide),
      Dev.fld_setFlag_ne _ _ _ _ (by decide) (by decide), Dev.setSpll, Dev.fld_setFld_same _ _ _ (by decide)]
    rfl
  · rw [Dev.lockShown, Dev.flag_setFlag_ne _ _ _ _ (by decide) (by decide), Dev.flag_setFlag_ne _ _ _ _ (by decide) (by decide),
      Dev.flag_setFlag_same _ _ _ (by decide) rfl]

theorem Dev.started_congr {d e : Dev} (hp : e.pwr = d.pwr) (hs : e.pstate = d.pstate) : e.started = d.started := by
  rw [Dev.started, Dev.started, hp, hs]

/-- Phase 0x1 or 0xA ends. -/
theorem Dev.phaseDone_lock (d : Dev) {n : Nat} (hn : n = 1 ∨ n = 10) (us : Nat) :
    d.phaseDone n us =
      (if n = 1 ∧ d.pwr.exiting = false then d.setFld (F.SUP_BOOT_T_COMPLETION 1) (min us 0xFFFFFF) else d).setPhase 2 := by
  rcases hn with rfl | rfl
  · cases hx : d.pwr.exiting <;> simp [Dev.phaseDone, hx]
  · simp [Dev.phaseDone]

theorem exec_spllLock {s : State} {us : Nat} (hv : s.dev.pwr.vcore = true) (hs : s.dev.spll = 0) (ho : s.dev.ownHoldover = false)
    (hst : s.dev.started = false) (hp : s.dev.phase = 1 ∨ s.dev.phase = 10) :
    exec (.spllLock us) s = .next { s with dev := s.dev.lockShown.phaseDone s.dev.phase us } := by
  change execSpllLock us s = _
  have hphase : s.dev.lockShown.phase = s.dev.phase := s.dev.regsBut_lockShown.fld (by decide)
  have hstarted : s.dev.lockShown.started = false := by
    rw [← hst]
    exact Dev.started_congr (by simp [Dev.lockShown, Dev.setSpll]) (s.dev.regsBut_lockShown.fld (by decide))
  simp only [execSpllLock, State.onDev, hv, hs, ho]
  simp only [Dev.lockShown] at hphase hstarted ⊢
  rcases hp with h | h <;> simp [h, hphase, hstarted]

/-- A lock of a start (R115, R116, R123). -/
theorem spllLock_stated {s : State} {us : Nat} (hv : s.dev.pwr.vcore = true) (hs : s.dev.spll = 0) (ho : s.dev.ownHoldover = false)
    (hst : s.dev.started = false) (hp : s.dev.phase = 1 ∨ s.dev.phase = 10) :
    ∃ t, exec (.spllLock us) s = .next t ∧ t.dev.phase = 2 ∧ t.dev.spll = 1 ∧
      t.dev.flag F.CLK_STAT_LOCKED = true ∧ t.dev.flag F.CLK_STAT_REF_QUAL = true ∧
      (s.dev.phase = 1 → s.dev.pwr.exiting = false → t.dev.fld (F.SUP_BOOT_T_COMPLETION 1) = min us 0xFFFFFF) ∧
      s.dev.regsBut t.dev (R.CLK_STAT :: R.SUP_BOOT :: R.SUP_BOOT_T 1 :: irqRegs) ∧
      t = { s with dev := { s.dev with regs := t.dev.regs, out := t.dev.out } } := by
  obtain ⟨hspll, hlocked, hqual⟩ := s.dev.lockShown_shows
  have hregs := s.dev.regsBut_lockShown
  have honly : s.dev.lockShown = { s.dev with regs := s.dev.lockShown.regs } := rfl
  rw [exec_spllLock hv hs ho hst hp, Dev.phaseDone_lock _ hp]
  have hx : s.dev.lockShown.pwr = s.dev.pwr := rfl
  generalize s.dev.lockShown = e at *
  rw [hx]
  generalize hf : (if s.dev.phase = 1 ∧ s.dev.pwr.exiting = false then e.setFld (F.SUP_BOOT_T_COMPLETION 1) (min us 0xFFFFFF) else e) = f
  have hef : e.regsBut f [R.SUP_BOOT_T 1] := by
    rw [← hf]; split
    · exact (Dev.regsBut.refl e _).setFld (by simp) _
    · exact .refl _ _
  have hfonly : f = { e with regs := f.regs } := by rw [← hf]; split <;> rfl
  have hphase : f.regsBut (f.setPhase 2) (R.SUP_BOOT :: irqRegs) := ((Dev.regsBut.refl f _).setFld (by simp) _).raiseIrq (by simp) _
  have hall : e.regsBut (f.setPhase 2) (R.SUP_BOOT :: R.SUP_BOOT_T 1 :: irqRegs) := (hef.mono (by simp)).trans (hphase.mono (by simp))
  refine ⟨_, rfl, Dev.phase_setPhase _ _ (by decide), (hall.fld (by decide)).trans hspll, (hall.flag (by decide)).trans hlocked,
    (hall.flag (by decide)).trans hqual, fun h1 hex => ?_, (hregs.mono (by simp)).trans (hall.mono (by simp)), ?_⟩
  · rw [if_pos ⟨h1, hex⟩] at hf
    rw [hphase.fld (by decide), ← hf, Dev.fld_setFld_same _ _ _ (by decide)]
    exact Nat.mod_eq_of_lt (by simp)
  · have hset := (f.setFld F.SUP_BOOT_PHASE 2).raiseIrq_regs_out_only 24
    have hfd := Dev.regs_only_trans honly (Dev.regs_only_trans hfonly (f.setFld_regs_only F.SUP_BOOT_PHASE 2))
    change f.setPhase 2 = _ at hset
    generalize f.setPhase 2 = u at *
    rw [hset, hfd]

/-- A worker that loses its clock in READY-WAIT (R125). -/
theorem readyWaitClockLoss_stated (s : State) :
    (s.dev.boot.role = .worker → s.dev.pstate = 5 → s.dev.phase ≠ 9 → s.dev.phase ≠ 15 → ∃ t, exec .readyWaitClockLoss s = .next t ∧
       t.dev.phase = 9 ∧ t.dev.spll = 0 ∧ t.dev.flag F.CLK_STAT_LOCKED = false ∧
       s.dev.regsBut t.dev (R.CLK_STAT :: R.ASY_STAT :: R.SUP_BOOT :: irqRegs) ∧
       t = { s with dev := { s.dev with regs := t.dev.regs, out := t.dev.out } }) ∧
     (s.dev.boot.role ≠ .worker ∨ s.dev.pstate ≠ 5 → exec .readyWaitClockLoss s = .next s) := by
  have hexec : exec .readyWaitClockLoss s = .next { s with dev :=
    if s.dev.boot.role == .worker && s.dev.pstate == 5 && s.dev.phase != 9 && s.dev.phase != 15 then
      (((s.dev.setSpll 0).setFlag F.CLK_STAT_LOCKED false).setFlag F.ASY_STAT_DRIFT_ON false).setPhase 9 else s.dev } := rfl
  refine ⟨fun hr hp h9 h15 => ?_, fun h => ?_⟩
  · rw [hexec, if_pos (by simp [hr, hp, h9, h15])]
    generalize hf : ((s.dev.setSpll 0).setFlag F.CLK_STAT_LOCKED false).setFlag F.ASY_STAT_DRIFT_ON false = f
    have hsf : s.dev.regsBut f (R.CLK_STAT :: R.ASY_STAT :: R.SUP_BOOT :: irqRegs) := by
      rw [← hf]
      exact (((Dev.regsBut.refl _ _).setFld (by simp) _).setFlag (by simp) _).setFlag (by simp) _
    have hphase : f.regsBut (f.setPhase 9) (R.SUP_BOOT :: irqRegs) := ((Dev.regsBut.refl f _).setFld (by simp) _).raiseIrq (by simp) _
    have honly : f = { s.dev with regs := f.regs } := by rw [← hf]; rfl
    refine ⟨_, rfl, Dev.phase_setPhase _ _ (by decide), ?_, ?_, hsf.trans (hphase.mono (by simp)), ?_⟩
    · rw [Dev.spll, hphase.fld (by decide), ← hf, Dev.fld_setFlag_ne _ _ _ _ (by decide) (by decide),
        Dev.fld_setFlag_ne _ _ _ _ (by decide) (by decide), Dev.setSpll, Dev.fld_setFld_same _ _ _ (by decide)]
      rfl
    · rw [hphase.flag (by decide), ← hf, Dev.flag_setFlag_ne _ _ _ _ (by decide) (by decide), Dev.flag_setFlag_same _ _ _ (by decide) rfl]
    · have hset := (f.setFld F.SUP_BOOT_PHASE 9).raiseIrq_regs_out_only 24
      have hfd := Dev.regs_only_trans honly (f.setFld_regs_only F.SUP_BOOT_PHASE 9)
      change f.setPhase 9 = _ at hset
      generalize f.setPhase 9 = u at *
      rw [hset, hfd]
  · rw [hexec, if_neg]
    rcases h with h | h <;> simp [h]

/-- The release of PERST_L lets the endpoint train where the host port is in service (R119). -/
theorem perstLRelease_stated (s : State) : ∃ t, exec .perstLRelease s = .next t ∧ t.dev.boot.perst = false ∧
    (t.dev.boot.linkTraining = true ↔ s.dev.boot.strapsValid = true ∧ s.dev.boot.role ≠ .worker ∧ s.dev.flag F.SUP_STRAP_HOSTSEL = false) ∧
    t = { s with dev := { s.dev with boot := { s.dev.boot with perst := false, linkTraining := t.dev.boot.linkTraining } } } := by
  refine ⟨_, rfl, rfl, ?_, rfl⟩
  simp [State.onDev, Dev.hostSpi, and_assoc]

/-! ## The end of self-calibration -/

/-- The hallmarks of the jobs held, in order. -/
def Dev.hms (d : Dev) : List Nat := d.jobs.map Job.hm

theorem Dev.hms_of_jobs {d e : Dev} (h : e.jobs = d.jobs) : e.hms = d.hms := by rw [Dev.hms, h, Dev.hms]

/-- A change of jobs one by one that keeps each one's hallmark keeps the hallmarks. -/
theorem hms_map (l : List Job) {f : Job → Job} (hf : ∀ j, (f j).hm = j.hm) : (l.map f).map Job.hm = l.map Job.hm := by
  rw [List.map_map]
  exact List.map_congr_left fun j _ => hf j

theorem Dev.hms_modJob (d : Dev) (h : Nat) {f : Job → Job} (hf : ∀ j, (f j).hm = j.hm) : (d.modJob h f).hms = d.hms :=
  hms_map _ fun j => by split <;> simp [hf]

@[simp] theorem Dev.hms_hpCut (d : Dev) (p : Nat) (r : Option Reason) : (d.hpCut p r).hms = d.hms :=
  hms_map _ fun j => by dsimp only; split <;> rfl

@[simp] theorem Dev.hms_hpTrain (d : Dev) (p : Nat) : (d.hpTrain p).hms = d.hms := by
  unfold Dev.hpTrain
  split
  · unfold Dev.hpAttempt
    dsimp only
    rw [Dev.hms_of_jobs (d := (d.setHp p { d.hpSt p with fails := 0 }).hpCut p (some Rsn.partHeadlink)) (by simp), Dev.hms_hpCut]
    rfl
  · rfl

/-- The registers that coefficients put in force and the return from holdover show themselves in. -/
def calRegs : List Nat := [R.ASY_GEN, R.ASY_STAT, R.CLK_STAT]

theorem Dev.asyShow_shows (d : Dev) : d.regsBut d.asyShow calRegs ∧ d.asyShow.boot = d.boot ∧ d.asyShow.jobs = d.jobs := by
  unfold Dev.asyShow
  dsimp only
  split
  · exact ⟨(((Dev.regsBut.refl d _).setFlag (by simp [calRegs]) _).setFld (by simp [calRegs]) _).setFlag (by simp [calRegs]) _, rfl, rfl⟩
  · exact ⟨(((Dev.regsBut.refl d _).setFlag (by simp [calRegs]) _).setFld (by simp [calRegs]) _).setFlag (by simp [calRegs]) _, rfl, rfl⟩

theorem Dev.linesAll_leaves (d : Dev) (l : List (Nat × List Int)) :
    d.regsBut (d.linesAll l) calRegs ∧ (d.linesAll l).boot = d.boot ∧ (d.linesAll l).jobs = d.jobs := by
  have hset : ∀ a : AsySt, d.regsBut (({ d with asy := a } : Dev).addWrap F.ASY_GEN_COEFFICIENT l.length) calRegs := fun a =>
    (Dev.regsBut.of_regs (e := { d with asy := a }) rfl _).setFld (by simp [calRegs]) _
  obtain ⟨hregs, hboot, hjobs⟩ := Dev.asyShow_shows (({ d with asy := { d.asy with
    coef := l.foldl (fun m s => mset [] m s.1 s.2) d.asy.coef
    baseBn := ((List.range 8).filter (fun c => l.any (fun s => (linesOf c).contains s.1))).foldl (fun m c => mset 0 m c (d.now + 1)) d.asy.baseBn
    range := d.asy.range.filter (fun k => !l.any (fun s => s.1 == k)) } } : Dev).addWrap F.ASY_GEN_COEFFICIENT l.length)
  unfold Dev.linesAll Dev.putSets
  dsimp only
  exact ⟨((hset _).trans hregs).setFlag (by simp [calRegs]) _, hboot, hjobs⟩

theorem Dev.returnCal_leaves (d : Dev) : d.regsBut d.returnCal calRegs ∧ d.returnCal.boot = d.boot ∧ d.returnCal.jobs = d.jobs := by
  unfold Dev.returnCal
  split
  · exact ⟨.refl _ _, rfl, rfl⟩
  · dsimp only
    split
    · exact ⟨(Dev.regsBut.refl d _).setFld (by simp [calRegs]) _, rfl, rfl⟩
    · exact ⟨.of_regs rfl _, rfl, rfl⟩

/-- The device calibrated, and its head ports in training. -/
def Dev.calibrated (d : Dev) (l : List (Nat × List Int)) : Dev :=
  let e := d.linesAll l
  (List.range 16).foldl Dev.hpTrain { e with boot := { e.boot with calDone := true, calDeferred := false } }.returnCal

theorem Dev.calibrated_leaves (d : Dev) (l : List (Nat × List Int)) :
    d.regsBut (d.calibrated l) (calRegs ++ clearRegs) ∧ (d.calibrated l).boot = { d.boot with calDone := true, calDeferred := false } ∧
      (d.calibrated l).hms = d.hms := by
  obtain ⟨hregs, hboot, hjobs⟩ := d.linesAll_leaves l
  obtain ⟨rregs, rboot, rjobs⟩ := Dev.returnCal_leaves
    { d.linesAll l with boot := { (d.linesAll l).boot with calDone := true, calDeferred := false } }
  unfold Dev.calibrated
  dsimp only
  generalize List.range 16 = ports
  refine ⟨?_, ?_, ?_⟩
  · refine ((hregs.trans rregs).mono (by simp)).trans (.foldl (fun e p => (e.regsBut_hpTrain p).mono (by simp)) ports _)
  · rw [foldl_keeps Dev.hpTrain Dev.boot (fun e p => by simp), rboot, hboot]
  · rw [foldl_keeps Dev.hpTrain Dev.hms (fun e p => e.hms_hpTrain p), Dev.hms_of_jobs rjobs]
    exact Dev.hms_of_jobs hjobs

theorem Dev.declareSelf_phase (d : Dev) : d.declareSelf.phase = d.phase := Dev.fld_congr d.declareSelf_keeps.1 _

theorem Dev.jobs_declareSelf (d : Dev) : d.declareSelf.jobs = d.jobs := by
  unfold Dev.declareSelf
  dsimp only
  rw [foldl_keeps _ Dev.jobs (fun d j => by split <;> simp)]
  simp

@[simp] theorem Dev.setPhase_leaves (d : Dev) (n : Nat) :
    (d.setPhase n).jobs = d.jobs ∧ (d.setPhase n).mram = d.mram ∧ (d.setPhase n).pwr = d.pwr ∧ (d.setPhase n).cal = d.cal ∧
    (d.setPhase n).ldg = d.ldg ∧ (d.setPhase n).adm = d.adm ∧ (d.setPhase n).asy = d.asy ∧ (d.setPhase n).clk = d.clk ∧
    (d.setPhase n).fen = d.fen ∧ (d.setPhase n).hst = d.hst ∧ (d.setPhase n).stage = d.stage ∧ (d.setPhase n).scc = d.scc := by
  simp [Dev.setPhase]

/-- Where phase 0x2 goes on to. -/
def Dev.phaseAfterCal (d : Dev) : Nat :=
  if d.boot.replayed then (if d.boot.role = .worker then 11 else 4)
  else if d.flag F.LDG_STAT_MOUNTED || d.flag F.LDG_STAT_BLANK then 4 else 3

theorem Dev.phaseDone_cal (d : Dev) (us : Nat) :
    (d.phaseDone 2 us).phase = d.phaseAfterCal ∧ (d.phaseDone 2 us).boot = d.boot ∧ (d.phaseDone 2 us).jobs = d.jobs := by
  generalize hf : (if !d.pwr.exiting then d.setFld (F.SUP_BOOT_T_COMPLETION 2) (min us 0xFFFFFF) else d) = f
  have hboot : f.boot = d.boot := by rw [← hf]; split <;> rfl
  have hjobs : f.jobs = d.jobs := by rw [← hf]; split <;> rfl
  have hregs : d.regsBut f [R.SUP_BOOT_T 2] := by
    rw [← hf]; split
    · exact (Dev.regsBut.refl d _).setFld (by simp) _
    · exact .refl _ _
  have heq : d.phaseDone 2 us = if f.boot.replayed then (if d.boot.role == .worker then (f.setPhase 11).declareSelf else f.setPhase 4)
      else f.setPhase (if f.flag F.LDG_STAT_MOUNTED || f.flag F.LDG_STAT_BLANK then 4 else 3) := by rw [← hf]; cases hx : d.pwr.exiting <;> simp [Dev.phaseDone, hx]
  rw [heq, hboot, hregs.flag (f := F.LDG_STAT_MOUNTED) (by decide), hregs.flag (f := F.LDG_STAT_BLANK) (by decide), Dev.phaseAfterCal]
  simp only [beq_iff_eq]
  split
  · split
    · rw [Dev.declareSelf_phase, Dev.phase_setPhase _ _ (by decide), Dev.declareSelf_keeps _ |>.2, Dev.jobs_declareSelf]
      simp [hboot, hjobs]
    · rw [Dev.phase_setPhase _ _ (by decide)]
      simp [hboot, hjobs]
  · rw [Dev.phase_setPhase _ _ (by split <;> decide)]
    simp [hboot, hjobs]

theorem exec_selfCalibrationDone {s : State} {us : Nat} {l : List (Fin 64 × List Int)} (hp : s.dev.phase = 2) (hs : s.dev.started = false) :
    exec (.selfCalibrationDone us l) s =
      .next { s with dev := (s.dev.calibrated (l.map fun x => (x.1.val, x.2))).phaseDone 2 us } := by
  change execSelfCalibrationDone us l s = _
  simp [execSelfCalibrationDone, State.onDev, hp, hs, Dev.calibrated]

theorem selfCalibrationDone_stated {s : State} (us : Nat) (l : List (Fin 64 × List Int)) (hp : s.dev.phase = 2)
    (hs : s.dev.started = false) : ∃ t, exec (.selfCalibrationDone us l) s = .next t ∧
      t.dev.boot.calDone = true ∧ t.dev.boot.calDeferred = false ∧ t.dev.jobs.map Job.hm = s.dev.jobs.map Job.hm ∧
      t.dev.phase = (if s.dev.boot.replayed then (if s.dev.boot.role = .worker then 11 else 4)
        else if s.dev.flag F.LDG_STAT_MOUNTED || s.dev.flag F.LDG_STAT_BLANK then 4 else 3) := by
  obtain ⟨hregs, hboot, hhms⟩ := s.dev.calibrated_leaves (l.map fun x => (x.1.val, x.2))
  rw [exec_selfCalibrationDone hp hs]
  generalize s.dev.calibrated (l.map fun x => (x.1.val, x.2)) = e at *
  obtain ⟨hphase, pboot, pjobs⟩ := e.phaseDone_cal us
  refine ⟨_, rfl, ?_, ?_, ?_, ?_⟩
  · rw [pboot, hboot]
  · rw [pboot, hboot]
  · rw [pjobs]; exact hhms
  · rw [hphase, Dev.phaseAfterCal, hboot, hregs.flag (f := F.LDG_STAT_MOUNTED) (by decide), hregs.flag (f := F.LDG_STAT_BLANK) (by decide)]

/-! ## The mount (R368, R369) -/

/-- The copies and the checkpoints that count after the mount has read them. -/
def Dev.mountRead (d : Dev) (m : MountIn) : Dev :=
  let a : Super := { d.mram.supA with valid := d.mram.supA.valid && !m.badA }
  let b : Super := { d.mram.supB with valid := d.mram.supB.valid && !m.badB }
  let ckpts := d.mram.ckpts.filter (fun c => !m.badBlocks.contains c.block && (match bestSuper a b with
    | some x => c.sysId == x.sysId
    | none => true))
  ({ d with mram := { d.mram with supA := a, supB := b, ckpts := ckpts } }.setNum2 R.LDG_WEAR_LO R.LDG_WEAR_HI d.mram.wear).setNum R.FEN_WDINC d.mram.wdinc

/-- A ledger of an identity shown. -/
def Dev.mountNamed (d : Dev) (x : Super) : Dev := ((d.setFlag F.SUP_ROLE_LEDGER_FORMATTED true).setSysId x.sysId).showHead

/-- The mount counted, and shown. -/
def Dev.mountCounted (d : Dev) (x : Super) : Dev :=
  ((d.writeSuper x.sysId x.formatBn (x.mounts + 1)).setNum R.LDG_MOUNTS (x.mounts + 1)).setFlag F.LDG_STAT_MOUNTED true

theorem Dev.mount_of_found {d : Dev} {m : MountIn} {x : Super}
    (hx : bestSuper { d.mram.supA with valid := d.mram.supA.valid && !m.badA } { d.mram.supB with valid := d.mram.supB.valid && !m.badB } = some x)
    (hc : ∃ c ∈ d.mram.ckpts, c.sysId = x.sysId ∧ c.block ∉ m.badBlocks) :
    d.mount m = (((d.mountRead m).mountNamed x).mountCounted x).phaseDone 3 m.us := by
  have hsome : (d.mram.ckpts.filter fun c => !m.badBlocks.contains c.block && c.sysId == x.sysId).isEmpty = false := by
    obtain ⟨c, hmem, hid, hblock⟩ := hc
    rw [List.isEmpty_eq_false_iff_exists_mem]
    exact ⟨c, List.mem_filter.2 ⟨hmem, by simp [hid, hblock]⟩⟩
  unfold Dev.mount
  simp only [hx, hsome, Bool.false_eq_true, if_false]
  simp only [Dev.mountRead, hx]
  rfl

/-- After a superblock write the newest copy is the one written. -/
theorem Dev.bestSuper_writeSuper {d : Dev} {x : Super} (h : bestSuper d.mram.supA d.mram.supB = some x) (i : BitVec 64) (b n : Nat) :
    ∃ y, bestSuper (d.writeSuper i b n).mram.supA (d.writeSuper i b n).mram.supB = some y ∧ y.sysId = i ∧ y.mounts = n := by
  obtain ⟨k, hk⟩ := Dev.writeSuper_eq h i b n
  rw [hk]
  rcases Super.writesA_iff h with ⟨hA, hbest⟩ | ⟨hB, hbest⟩
  · rw [if_pos hA]
    exact ⟨_, bestSuper_left rfl (by rw [hbest]; exact Nat.lt_succ_self _), rfl, rfl⟩
  · rw [if_neg (Bool.eq_false_iff.1 hB)]
    exact ⟨_, bestSuper_right rfl (by rw [hbest]; exact Nat.lt_succ_self _), rfl, rfl⟩

/-- Phase 0x3 ends in 0x4, and only the start-up registers show it. -/
theorem Dev.phaseDone_mount (d : Dev) (us : Nat) :
    (d.phaseDone 3 us).phase = 4 ∧ d.regsBut (d.phaseDone 3 us) (R.SUP_BOOT :: R.SUP_BOOT_T 3 :: irqRegs) ∧
      (d.phaseDone 3 us).mram = d.mram := by
  have heq : d.phaseDone 3 us =
      (if !d.pwr.exiting then d.setFld (F.SUP_BOOT_T_COMPLETION 3) (min us 0xFFFFFF) else d).setPhase 4 := by
    cases hx : d.pwr.exiting <;> simp [Dev.phaseDone, hx]
  have htimed : d.regsBut (if !d.pwr.exiting then d.setFld (F.SUP_BOOT_T_COMPLETION 3) (min us 0xFFFFFF) else d)
      (R.SUP_BOOT :: R.SUP_BOOT_T 3 :: irqRegs) := by
    split
    · exact (Dev.regsBut.refl d _).setFld (by simp) _
    · exact .refl _ _
  have hmram : (if !d.pwr.exiting then d.setFld (F.SUP_BOOT_T_COMPLETION 3) (min us 0xFFFFFF) else d).mram = d.mram := by
    split <;> rfl
  rw [heq]
  exact ⟨Dev.phase_setPhase _ _ (by decide), (htimed.setFld (by simp) _).raiseIrq (by simp) _, by rw [(Dev.setPhase_leaves _ _).2.1, hmram]⟩

theorem exec_ledgerMount {s : State} {m : MountIn} (hv : s.dev.pwr.vcore = true) (hp : s.dev.phase = 3) (hr : s.dev.boot.replayed = false) :
    exec (.ledgerMount m) s = .next { s with dev := s.dev.mount m } := by
  change execLedgerMount m s = _
  simp [execLedgerMount, State.onDev, hv, hp, hr]

theorem ledgerMount_stated {s : State} {m : MountIn} {x : Super} (hv : s.dev.pwr.vcore = true) (hp : s.dev.phase = 3)
    (hr : s.dev.boot.replayed = false)
    (hx : bestSuper { s.dev.mram.supA with valid := s.dev.mram.supA.valid && !m.badA }
      { s.dev.mram.supB with valid := s.dev.mram.supB.valid && !m.badB } = some x)
    (hc : ∃ c ∈ s.dev.mram.ckpts, c.sysId = x.sysId ∧ c.block ∉ m.badBlocks) :
    ∃ t y, exec (.ledgerMount m) s = .next t ∧ bestSuper t.dev.mram.supA t.dev.mram.supB = some y ∧ y.sysId = x.sysId ∧
      y.mounts = x.mounts + 1 ∧ t.dev.sysId = x.sysId ∧ t.dev.flag F.LDG_STAT_MOUNTED = true ∧ t.dev.phase = 4 ∧
      t.dev.mram.log = s.dev.mram.log := by
  rw [exec_ledgerMount hv hp hr, Dev.mount_of_found hx hc]
  have hread : bestSuper ((s.dev.mountRead m).mountNamed x).mram.supA ((s.dev.mountRead m).mountNamed x).mram.supB = some x := hx
  have hlog : ((s.dev.mountRead m).mountNamed x).mram.log = s.dev.mram.log := rfl
  have hid : ((s.dev.mountRead m).mountNamed x).sysId = x.sysId :=
    (Dev.regsBut.sysId (Dev.regsBut_showHead _) (by decide) (by decide)).trans (Dev.sysId_setSysId _ _)
  generalize (s.dev.mountRead m).mountNamed x = e at *
  obtain ⟨y, hy, hyid, hymounts⟩ := Dev.bestSuper_writeSuper hread x.sysId x.formatBn (x.mounts + 1)
  have hmram : (e.mountCounted x).mram = (e.writeSuper x.sysId x.formatBn (x.mounts + 1)).mram := rfl
  have hregs : e.regsBut (e.mountCounted x) [R.LDG_MOUNTS, R.LDG_STAT] :=
    ((Dev.regsBut.of_regs (e := e.writeSuper x.sysId x.formatBn (x.mounts + 1)) rfl _).setNum (by simp) _).setFlag (by simp) _
  have hmounted : (e.mountCounted x).flag F.LDG_STAT_MOUNTED = true := Dev.flag_setFlag_same _ _ _ (by decide) rfl
  generalize e.mountCounted x = f at *
  obtain ⟨hphase, pregs, pmram⟩ := f.phaseDone_mount m.us
  refine ⟨_, y, rfl, ?_, hyid, hymounts, ?_, (pregs.flag (by decide)).trans hmounted, hphase, ?_⟩
  · rw [pmram, hmram]; exact hy
  · exact (pregs.sysId (by decide) (by decide)).trans ((hregs.sysId (by decide) (by decide)).trans hid)
  · rw [pmram, hmram, (Dev.writeSuper_ledger _ _ _ _).1, hlog]

/-- Settles O22: the live check applies nothing, and each end of a phase leads to the next one. -/
theorem startupPhasesInOrder : Obligations.StartupPhasesInOrder := by
  unfold Obligations.StartupPhasesInOrder
  refine ⟨strapLiveCheck_stated, fun s => ⟨fun us hv hs ho hst hp => spllLock_stated hv hs ho hst hp,
    fun us l hp hst => selfCalibrationDone_stated us l hp hst, fun m x hv hp hr hx hc => ledgerMount_stated hv hp hr hx hc,
    (readyWaitClockLoss_stated s).1, (readyWaitClockLoss_stated s).2, perstLRelease_stated s⟩⟩

end Sys2Proof.Machine
end

section

/-!
PROOF. The return from holdover (05_clock_synthesis.md R213, R215, R223, R224, Table CLK-4).
-/

namespace Sys2Proof.Machine
open Sys2Proof

theorem Dev.spll_setSpll (d : Dev) (n : Nat) (h : n < 8) : (d.setSpll n).spll = n := by
  unfold Dev.setSpll Dev.spll
  rw [Dev.fld_setFld_same _ _ _ (by decide)]
  exact Nat.mod_eq_of_lt h

theorem Dev.ownHoldover_setSpll (d : Dev) (n : Nat) : (d.setSpll n).ownHoldover = d.ownHoldover :=
  Dev.flag_setFld_ne d F.CLK_STAT_SPLL F.CLK_STAT_HOLDOVER n (by decide) (by decide)

theorem Dev.spll_setFlag (d : Dev) {f : Fld} (b : Bool) (h : F.CLK_STAT_SPLL.a ≠ f.a ∨ F.CLK_STAT_SPLL.hi < f.lo ∨ f.hi < F.CLK_STAT_SPLL.lo) :
    (d.setFlag f b).spll = d.spll :=
  Dev.fld_setFlag_ne d f F.CLK_STAT_SPLL b (by decide) h

theorem Dev.regsBut.setSpll {d e : Dev} {l : List Nat} (h : d.regsBut e l) (hl : R.CLK_STAT ∈ l) (n : Nat) : d.regsBut (e.setSpll n) l :=
  h.setFld hl n

/-- A device that differs only in its registers, its output, its clock and its power records, by a chain of such changes. -/
theorem Dev.clock_trans {d e f : Dev} (h : e = { d with regs := e.regs, out := e.out, clk := e.clk, pwr := e.pwr })
    (h' : f = { e with regs := f.regs, out := f.out, clk := f.clk, pwr := f.pwr }) :
    f = { d with regs := f.regs, out := f.out, clk := f.clk, pwr := f.pwr } := by rw [h', h]

theorem Dev.clock_of_regs_out {d e : Dev} (h : e = { d with regs := e.regs, out := e.out }) :
    e = { d with regs := e.regs, out := e.out, clk := e.clk, pwr := e.pwr } := by rw [h]

/-! ## The slews and the lock -/

theorem exec_spllSlewDone (s : State) : exec .spllSlewDone s = .next (s.onDev fun d =>
    if d.spll = 2 then { d.setSpll 0 with clk := { d.clk with lockRef := false } }
    else if d.spll = 5 then { (d.setSpll 0).setFlag F.CLK_STAT_LOCKED false with clk := { d.clk with lockRef := true } }
    else d) := rfl

theorem exec_spllSlewDone_toHoldover {s : State} (h : s.dev.spll = 2) :
    exec .spllSlewDone s = .next (s.onDev fun d => { d.setSpll 0 with clk := { d.clk with lockRef := false } }) := by
  rw [exec_spllSlewDone, State.onDev, if_pos h]; rfl

theorem exec_spllSlewDone_toRef {s : State} (h : s.dev.spll = 5) : exec .spllSlewDone s =
    .next (s.onDev fun d => { (d.setSpll 0).setFlag F.CLK_STAT_LOCKED false with clk := { d.clk with lockRef := true } }) := by
  rw [exec_spllSlewDone, State.onDev, if_neg (by omega), if_pos h]; rfl

/-- The state after the lock to the holdover oscillator: the return, the qualification or the wait for a reference (Table CLK-4). -/
def Dev.holdoverLocked (d : Dev) : Dev :=
  (d.setSpll (if d.flag F.CLK_STAT_REF_QUAL then 5 else if d.flag F.CLK_STAT_REF_PRESENT then 4 else 3)).setFlag F.CLK_STAT_LOCKED true

theorem exec_spllLock_toHoldover (us : Nat) {s : State} (h0 : s.dev.spll = 0) (hv : s.dev.pwr.vcore = true) (hh : s.dev.ownHoldover = true)
    (hr : s.dev.clk.lockRef = false) : exec (.spllLock us) s = .next (s.onDev Dev.holdoverLocked) := by
  change execSpllLock us s = _
  simp [execSpllLock, State.onDev, h0, hv, hh, hr, Dev.holdoverLocked]

theorem Dev.spll_holdoverLocked (d : Dev) : d.holdoverLocked.spll = 5 ↔ d.flag F.CLK_STAT_REF_QUAL = true := by
  rw [Dev.holdoverLocked, Dev.spll_setFlag _ _ (by decide), Dev.spll_setSpll _ _ (by split <;> [skip; split] <;> omega)]
  by_cases hq : d.flag F.CLK_STAT_REF_QUAL = true <;> by_cases hp : d.flag F.CLK_STAT_REF_PRESENT = true <;> simp [hq, hp]

/-! ## A qualified reference -/

/-- The reference shown as present and qualified. -/
def Dev.refShown (d : Dev) : Dev := (d.setFlag F.CLK_STAT_REF_PRESENT true).setFlag F.CLK_STAT_REF_QUAL true

theorem Dev.spll_refShown (d : Dev) : d.refShown.spll = d.spll := by
  rw [Dev.refShown, Dev.spll_setFlag _ _ (by decide), Dev.spll_setFlag _ _ (by decide)]

theorem Dev.ownHoldover_refShown (d : Dev) : d.refShown.ownHoldover = d.ownHoldover := by
  unfold Dev.ownHoldover Dev.refShown
  rw [Dev.flag_setFlag_ne _ _ _ _ (by decide) (by decide), Dev.flag_setFlag_ne _ _ _ _ (by decide) (by decide)]

theorem Dev.refPresent_refShown (d : Dev) : d.refShown.flag F.CLK_STAT_REF_PRESENT = true := by
  rw [Dev.refShown, Dev.flag_setFlag_ne _ _ _ _ (by decide) (by decide)]
  exact Dev.flag_setFlag_same _ _ _ (by decide) rfl

theorem Dev.refQual_refShown (d : Dev) : d.refShown.flag F.CLK_STAT_REF_QUAL = true :=
  Dev.flag_setFlag_same _ _ _ (by decide) rfl

theorem Dev.regsBut_refShown (d : Dev) : d.regsBut d.refShown [R.CLK_STAT] :=
  ((Dev.regsBut.refl d _).setFlag (by decide) true).setFlag (by decide) true

/-- A qualified reference: shown, and the slew back started where the device waits for one (R213, R223). -/
def Dev.refReturn (d : Dev) : Dev :=
  if d.ownHoldover = true ∧ (d.spll = 3 ∨ d.spll = 4 ∨ d.spll = 7) then d.refShown.setSpll 5 else d.refShown

theorem exec_refQualified (s : State) : exec .refQualified s = .next (s.onDev Dev.refReturn) := by
  change Host.Outcome.next { s with dev := if s.dev.refShown.ownHoldover && (s.dev.refShown.spll == 3 || s.dev.refShown.spll == 4 ||
    s.dev.refShown.spll == 7) then s.dev.refShown.setSpll 5 else s.dev.refShown } = _
  simp only [Dev.spll_refShown, Dev.ownHoldover_refShown, Bool.and_eq_true, Bool.or_eq_true, beq_iff_eq, or_assoc]
  rfl

theorem Dev.refReturn_cases (d : Dev) : d.refReturn = d.refShown ∨ d.refReturn = d.refShown.setSpll 5 := by
  unfold Dev.refReturn; split <;> simp

theorem Dev.refPresent_refReturn (d : Dev) : d.refReturn.flag F.CLK_STAT_REF_PRESENT = true := by
  rcases d.refReturn_cases with h | h <;> rw [h]
  · exact d.refPresent_refShown
  · exact (Dev.flag_setFld_ne _ F.CLK_STAT_SPLL F.CLK_STAT_REF_PRESENT _ (by decide) (by decide)).trans d.refPresent_refShown

theorem Dev.refQual_refReturn (d : Dev) : d.refReturn.flag F.CLK_STAT_REF_QUAL = true := by
  rcases d.refReturn_cases with h | h <;> rw [h]
  · exact d.refQual_refShown
  · exact (Dev.flag_setFld_ne _ F.CLK_STAT_SPLL F.CLK_STAT_REF_QUAL _ (by decide) (by decide)).trans d.refQual_refShown

theorem Dev.regsBut_refReturn (d : Dev) : d.regsBut d.refReturn [R.CLK_STAT] := by
  rcases d.refReturn_cases with h | h <;> rw [h]
  · exact d.regsBut_refShown
  · exact d.regsBut_refShown.setSpll (by simp) 5

theorem Dev.refReturn_regs_only (d : Dev) : d.refReturn = { d with regs := d.refReturn.regs } := by
  rcases d.refReturn_cases with h | h <;> rw [h] <;> rfl

theorem Dev.spll_refReturn (d : Dev) :
    d.refReturn.spll = if d.ownHoldover = true ∧ (d.spll = 3 ∨ d.spll = 4 ∨ d.spll = 7) then 5 else d.spll := by
  unfold Dev.refReturn
  split
  · exact Dev.spll_setSpll _ 5 (by decide)
  · exact d.spll_refShown

/-! ## The core's return -/

/-- The core back on its VCO, with the time in holdover shown: before what ends the holdover. -/
def Dev.coreBack (d : Dev) : Dev :=
  let e := (d.setSpll 6).setFlag F.CLK_STAT_HOLDOVER false
  { e with clk := { d.clk with faultDue := false } }.setNum R.CLK_HO_DUR (min (d.now - d.clk.faultBn) (2 ^ 32 - 1))

theorem exec_coreClockReturn {s : State} (hh : s.dev.ownHoldover = true) (h0 : s.dev.spll = 0) (hr : s.dev.clk.lockRef = true)
    (hl : s.dev.flag F.CLK_STAT_LOCKED = true) : exec .coreClockReturn s = .next (s.onDev fun d => d.coreBack.holdoverEnd) := by
  change execCoreClockReturn s = _
  rw [execCoreClockReturn, State.onDev, if_pos (by simp [hh, h0, hr, hl])]
  rfl

theorem exec_coreClockReturn_locked {s : State} (hh : s.dev.ownHoldover = false) : exec .coreClockReturn s = .next s := by
  change execCoreClockReturn s = _
  rw [execCoreClockReturn, State.onDev, if_neg (by simp [hh])]

theorem Dev.coreBack_frame (d : Dev) :
    d.coreBack = { d with regs := d.coreBack.regs, out := d.coreBack.out, clk := d.coreBack.clk, pwr := d.coreBack.pwr } := rfl

theorem Dev.ownHoldover_coreBack (d : Dev) : d.coreBack.ownHoldover = false := by
  refine (Dev.flag_setReg_ne _ _ _ _ (by decide)).trans ?_
  exact Dev.flag_setFlag_same (d.setSpll 6) F.CLK_STAT_HOLDOVER false (by decide) rfl

theorem Dev.regsBut_coreBack (d : Dev) : d.regsBut d.coreBack [R.CLK_STAT, R.CLK_HO_DUR] := by
  have hshown : d.regsBut ((d.setSpll 6).setFlag F.CLK_STAT_HOLDOVER false) [R.CLK_STAT, R.CLK_HO_DUR] :=
    ((Dev.regsBut.refl d _).setSpll (by simp) 6).setFlag (by decide) false
  exact (hshown.trans (.of_regs rfl _)).setNum (by simp) _

theorem Dev.spll_coreBack (d : Dev) : d.coreBack.spll = 6 :=
  (Dev.fld_setReg_ne _ _ _ _ (by decide)).trans <|
    (Dev.spll_setFlag (d.setSpll 6) (f := F.CLK_STAT_HOLDOVER) false (by decide)).trans (Dev.spll_setSpll d 6 (by decide))

/-- The records of clock and power as the end of a holdover leaves them. -/
def Dev.holdoverOver (d : Dev) : Dev :=
  { d with clk := { d.clk with holdover := d.ownHoldover || d.clk.flagSeen }, pwr := { d.pwr with bindBn := d.now } }

theorem Dev.holdoverEnd_eq (d : Dev) :
    d.holdoverEnd = (d.holdoverOver.setFlag F.BT_STAT_HOLDOVER (d.ownHoldover || d.clk.flagSeen)).raiseIrq 18 := rfl

theorem Dev.regsBut_holdoverEnd (d : Dev) : d.regsBut d.holdoverEnd (R.BT_STAT :: irqRegs) :=
  ((Dev.regsBut.of_regs rfl _).setFlag (by decide) _).raiseIrq (by simp) 18

theorem Dev.clk_holdoverEnd (d : Dev) : d.holdoverEnd.clk = { d.clk with holdover := d.ownHoldover || d.clk.flagSeen } := by
  simp [Dev.holdoverEnd]

theorem Dev.pwr_holdoverEnd (d : Dev) : d.holdoverEnd.pwr = { d.pwr with bindBn := d.now } := by
  simp [Dev.holdoverEnd]

theorem Dev.btHoldover_holdoverEnd (d : Dev) : d.holdoverEnd.flag F.BT_STAT_HOLDOVER = (d.ownHoldover || d.clk.flagSeen) := by
  rw [Dev.holdoverEnd_eq, Dev.flag_raiseIrq _ _ _ (by decide) (by decide)]
  exact Dev.flag_setFlag_same _ _ _ (by decide) rfl

theorem Dev.holdoverEnd_frame (d : Dev) :
    d.holdoverEnd = { d with regs := d.holdoverEnd.regs, out := d.holdoverEnd.out, clk := d.holdoverEnd.clk, pwr := d.holdoverEnd.pwr } := by
  have hshown : d.holdoverOver.setFlag F.BT_STAT_HOLDOVER (d.ownHoldover || d.clk.flagSeen) =
      { d with regs := (d.holdoverOver.setFlag F.BT_STAT_HOLDOVER (d.ownHoldover || d.clk.flagSeen)).regs
               out := d.out, clk := d.holdoverOver.clk, pwr := d.holdoverOver.pwr } := rfl
  rw [Dev.holdoverEnd_eq]
  exact Dev.clock_trans hshown (Dev.clock_of_regs_out (Dev.raiseIrq_regs_out_only _ 18))

/-- The core's return from the holdover oscillator, as one change of the device. -/
theorem Dev.coreReturn_shown (d : Dev) : let t := d.coreBack.holdoverEnd
    t.spll = 6 ∧ t.ownHoldover = false ∧ t.flag F.BT_STAT_HOLDOVER = d.clk.flagSeen ∧ t.clk.holdover = d.clk.flagSeen ∧
    t.num R.CLK_HO_DUR = min (d.now - d.clk.faultBn) (2 ^ 32 - 1) ∧ bitOf (t.reg R.HST_ISR0) 18 = true ∧
    t.pwr = { d.pwr with bindBn := d.now } := by
  have hregs := d.coreBack.regsBut_holdoverEnd
  have hheld := d.ownHoldover_coreBack
  refine ⟨?_, ?_, ?_, ?_, ?_, ?_, ?_⟩
  · exact (hregs.fld (f := F.CLK_STAT_SPLL) (by decide)).trans d.spll_coreBack
  · exact (hregs.flag (f := F.CLK_STAT_HOLDOVER) (by decide)).trans hheld
  · rw [Dev.btHoldover_holdoverEnd, hheld]; exact Bool.false_or _
  · rw [Dev.clk_holdoverEnd, hheld]; exact Bool.false_or _
  · rw [hregs.num (by decide), Dev.coreBack, Dev.num_setNum]
    exact Nat.mod_eq_of_lt (by omega)
  · exact Dev.isr_raiseIrq _ 18 (by decide)
  · rw [Dev.pwr_holdoverEnd]; rfl

/-! ## UNFENCE -/

theorem exec_clkCmdUnfence {s : State} {p : Port} (h : s.dev.gate p R.CLK_CMD = .pass) : exec (.clkCmdUnfence p) s =
    .next { s with dev := { s.dev with clk :=
      { s.dev.clk with unfenceDue := s.dev.clk.unfenceDue || s.dev.clk.unfenceWait, unfenceWait := false } } } := by
  change execClkCmdUnfence p s = _
  rw [execClkCmdUnfence, State.onDev, Dev.viaPort_of_pass h, Dev.writeClkCmd]
  cases hw : s.dev.clk.unfenceWait
  · rw [if_neg (by simp)]
    simp only [Bool.or_false]
    rw [← hw]
  · rw [if_pos (by simp; decide)]
    simp only [Bool.or_true]

/-- Settles O31: each phase of the return is one change of CLK_STAT and of the clock record, and the core's return ends the holdover. -/
theorem holdoverReturnsInPhases : Obligations.HoldoverReturnsInPhases := by
  unfold Obligations.HoldoverReturnsInPhases
  intro s
  dsimp only
  refine ⟨fun h => ?_, fun h => ?_, fun h2 h5 => ?_, fun us h0 hv hh hr => ?_, ?_, fun hh h0 hr hl => ?_,
    exec_coreClockReturn_locked, fun p => exec_clkCmdUnfence⟩
  · refine ⟨_, exec_spllSlewDone_toHoldover h, Dev.spll_setSpll _ 0 (by decide), rfl, ?_, rfl⟩
    exact ((Dev.regsBut.refl s.dev _).setSpll (by simp) 0).trans (.of_regs rfl _)
  · refine ⟨_, exec_spllSlewDone_toRef h, ?_, rfl, ?_, ?_, rfl⟩
    · exact (Dev.spll_setFlag (s.dev.setSpll 0) (f := F.CLK_STAT_LOCKED) false (by decide)).trans (Dev.spll_setSpll s.dev 0 (by decide))
    · exact Dev.flag_setFlag_same (s.dev.setSpll 0) F.CLK_STAT_LOCKED false (by decide) rfl
    · exact (((Dev.regsBut.refl s.dev _).setSpll (by simp) 0).setFlag (by decide) false).trans (.of_regs rfl _)
  · rw [exec_spllSlewDone, State.onDev, if_neg h2, if_neg h5]
  · refine ⟨_, exec_spllLock_toHoldover us h0 hv hh hr, Dev.flag_setFlag_same _ _ _ (by decide) rfl, ?_, ⟨?_, rfl⟩,
      s.dev.spll_holdoverLocked⟩
    · exact (Dev.flag_setFlag_ne _ F.CLK_STAT_LOCKED F.CLK_STAT_HOLDOVER _ (by decide) (by decide)).trans ((Dev.ownHoldover_setSpll _ _).trans hh)
    · exact ((Dev.regsBut.refl s.dev _).setSpll (by simp) _).setFlag (by decide) true
  · refine ⟨_, exec_refQualified s, s.dev.refPresent_refReturn, s.dev.refQual_refReturn, ⟨s.dev.regsBut_refReturn, ?_⟩, ?_,
      s.dev.spll_refReturn⟩
    · have h := s.dev.refReturn_regs_only
      unfold State.onDev
      generalize s.dev.refReturn = e at *
      rw [h]
    · have h := s.dev.refReturn_regs_only
      unfold State.onDev
      generalize s.dev.refReturn = e at *
      rw [h]
  · obtain ⟨hspll, hown, hbt, hclk, hdur, hisr, hpwr⟩ := s.dev.coreReturn_shown
    refine ⟨_, exec_coreClockReturn hh h0 hr hl, hspll, hown, hbt, hclk, hdur, hisr, hpwr, ?_, ?_⟩
    · exact (s.dev.regsBut_coreBack.mono (by simp)).trans (s.dev.coreBack.regsBut_holdoverEnd.mono (by simp [irqRegs]))
    · have hback := s.dev.coreBack_frame
      have h := Dev.clock_trans hback s.dev.coreBack.holdoverEnd_frame
      rw [State.onDev, ← h]

end Sys2Proof.Machine
end

section

/-!
PROOF. Draining, and the exits from PARK and dormancy (04_power_and_supply.md R153, R157 to R159, R186, R191; 15_wilin_ring.md R762).
-/

namespace Sys2Proof.Machine
open Sys2Proof

/-! ## The result of a power command -/

theorem Dev.pwrResult_eq (d : Dev) (r : Reason) :
    d.pwrResult r = ((d.setFld F.PWR_STAT_CMD_RESULT r.toNat).raiseIrq 17).report false 8 0 r.toNat false := rfl

theorem Dev.report_items_only (d : Dev) (b : Bool) (kind tag detail : Nat) (more : Bool) :
    d.report b kind tag detail more = { d with wr := { d.wr with items := (d.report b kind tag detail more).wr.items } } := by
  unfold Dev.report; split <;> rfl

theorem Dev.regs_report (d : Dev) (b : Bool) (kind tag detail : Nat) (more : Bool) : (d.report b kind tag detail more).regs = d.regs := by
  unfold Dev.report; split <;> rfl

theorem Dev.regsBut_pwrResult (d : Dev) (r : Reason) : d.regsBut (d.pwrResult r) (R.PWR_STAT :: irqRegs) :=
  (((Dev.regsBut.refl d _).setFld (by decide) _).raiseIrq (by simp) 17).trans (.of_regs (Dev.regs_report _ _ _ _ _ _) _)

theorem Dev.fld_pwrResult (d : Dev) (r : Reason) : (d.pwrResult r).fld F.PWR_STAT_CMD_RESULT = r.toNat := by
  rw [Dev.pwrResult_eq, Dev.fld_congr (Dev.regs_report _ _ _ _ _ _), Dev.fld_raiseIrq _ _ _ (by decide) (by decide),
    Dev.fld_setFld_same _ _ _ (by decide)]
  exact Nat.mod_eq_of_lt r.isLt

theorem Dev.fld_pwrResult_ne (d : Dev) (r : Reason) (f : Fld) (hf : f.hi < 32) (hi : irqReg f.a = false)
    (hne : f.a ≠ R.PWR_STAT ∨ f.hi < 16) : (d.pwrResult r).fld f = d.fld f := by
  rw [Dev.pwrResult_eq, Dev.fld_congr (Dev.regs_report _ _ _ _ _ _), Dev.fld_raiseIrq _ _ _ (by decide) hi,
    Dev.fld_setFld_ne _ _ _ _ hf (hne.imp id .inl)]

theorem Dev.flag_pwrResult_ne (d : Dev) (r : Reason) (f : Fld) (hf : f.hi < 32) (hi : irqReg f.a = false)
    (hne : f.a ≠ R.PWR_STAT ∨ f.hi < 16) : (d.pwrResult r).flag f = d.flag f := by
  unfold Dev.flag; rw [Dev.fld_pwrResult_ne d r f hf hi hne]

theorem Dev.isr_pwrResult (d : Dev) (r : Reason) : bitOf ((d.pwrResult r).reg R.HST_ISR0) 17 = true := by
  rw [Dev.pwrResult_eq, Dev.reg_congr (Dev.regs_report _ _ _ _ _ _)]
  exact Dev.isr_raiseIrq _ 17 (by decide)

theorem Dev.pstate_pwrResult (d : Dev) (r : Reason) : (d.pwrResult r).pstate = d.pstate :=
  d.fld_pwrResult_ne r F.PWR_STAT_STATE (by decide) (by decide) (by decide)

@[simp] theorem Dev.pwrResult_keeps (d : Dev) (r : Reason) :
    (d.pwrResult r).pwr = d.pwr ∧ (d.pwrResult r).jobs = d.jobs ∧ (d.pwrResult r).t = d.t ∧ (d.pwrResult r).mram = d.mram ∧
      (d.pwrResult r).clk = d.clk ∧ (d.pwrResult r).boot = d.boot ∧ (d.pwrResult r).adm = d.adm ∧ (d.pwrResult r).ldg = d.ldg ∧
      (d.pwrResult r).fen = d.fen ∧ (d.pwrResult r).po = d.po := by
  simp [Dev.pwrResult]

/-! ## Draining -/

/-- A drained device: the READY command is done. -/
def Dev.drained (d : Dev) : Dev :=
  (({ d with pwr := { d.pwr with draining := false, pend := none } }.setFlag F.PWR_STAT_DRAINING false).setFlag F.PWR_STAT_PENDING false).pwrResult
    Rsn.ok

theorem exec_readyDrainDone (s : State) : exec .readyDrainDone s = .next (s.onDev fun d =>
    if d.pwr.draining && !d.jobs.any (fun j => j.active && j.exec == d.pos) then d.drained else d) := rfl

theorem exec_readyDrainDone_drained {s : State} (h : s.dev.pwr.draining = true)
    (hb : s.dev.jobs.any (fun j => j.active && j.exec == s.dev.pos) = false) : exec .readyDrainDone s = .next (s.onDev Dev.drained) := by
  rw [exec_readyDrainDone, State.onDev, h, hb, if_pos (by decide)]; rfl

theorem exec_readyDrainDone_waits {s : State} (h : s.dev.pwr.draining = false ∨
    s.dev.jobs.any (fun j => j.active && j.exec == s.dev.pos) = true) : exec .readyDrainDone s = .next s := by
  rw [exec_readyDrainDone, State.onDev]
  rcases h with h | h <;> rw [h, if_neg (by simp)]

theorem Dev.pwr_drained (d : Dev) : d.drained.pwr = { d.pwr with draining := false, pend := none } := by
  rw [Dev.drained, (Dev.pwrResult_keeps _ _).1]; rfl

theorem Dev.draining_drained (d : Dev) : d.drained.flag F.PWR_STAT_DRAINING = false := by
  rw [Dev.drained, Dev.flag_pwrResult_ne _ _ _ (by decide) (by decide) (by decide), Dev.flag_setFlag_ne _ _ _ _ (by decide) (by decide)]
  exact Dev.flag_setFlag_same _ _ _ (by decide) rfl

theorem Dev.pending_drained (d : Dev) : d.drained.flag F.PWR_STAT_PENDING = false := by
  rw [Dev.drained, Dev.flag_pwrResult_ne _ _ _ (by decide) (by decide) (by decide)]
  exact Dev.flag_setFlag_same _ _ _ (by decide) rfl

theorem Dev.regsBut_drained (d : Dev) : d.regsBut d.drained (R.PWR_STAT :: irqRegs) :=
  (((Dev.regsBut.of_regs rfl _).setFlag (by decide) false).setFlag (by decide) false).trans (Dev.regsBut_pwrResult _ _)

/-! ## PEN_CORE asserted -/

/-- PEN_CORE asserted: the exit has begun (R157). -/
def Dev.exitBegun (d : Dev) : Dev := { (d.setFlag F.PWR_STAT_PEN_CORE true) with pwr := { d.pwr with exiting := true } }

theorem Dev.penUp_of_alive {d : Dev} (h : d.pwr.bkpDead = false) : d.penUp = d.exitBegun := by
  rw [Dev.penUp, if_neg (by simp [h])]; rfl

theorem exec_wakeSignal (s : State) : exec .wakeSignal s = .next (s.onDev fun d =>
    if d.pstate == 3 && d.pwr.isolated && !d.pwr.exiting && !d.pwr.bkpDead then d.penUp else d) := rfl

theorem exec_dormancyResume (s : State) : exec .dormancyResume s = .next (s.onDev fun d =>
    if d.pwr.dormant && d.pwr.dormFlag && !d.pwr.bkpDead && !d.pwr.exiting && d.dcRel then d.penUp else d) := rfl

theorem exec_exits_dead {s : State} (h : s.dev.pwr.bkpDead = true) : exec .wakeSignal s = .next s ∧ exec .dormancyResume s = .next s := by
  constructor
  · rw [exec_wakeSignal, State.onDev, if_neg (by simp [h])]
  · rw [exec_dormancyResume, State.onDev, if_neg (by simp [h])]

theorem State.exitBegun_shown (s : State) :
    (s.onDev Dev.exitBegun).dev.flag F.PWR_STAT_PEN_CORE = true ∧ (s.onDev Dev.exitBegun).dev.pwr = { s.dev.pwr with exiting := true } ∧
      s.dev.regsBut (s.onDev Dev.exitBegun).dev [R.PWR_STAT] ∧ s.onDev Dev.exitBegun =
        { s with dev := { s.dev with regs := (s.onDev Dev.exitBegun).dev.regs, pwr := (s.onDev Dev.exitBegun).dev.pwr } } := by
  refine ⟨Dev.flag_setFlag_same s.dev F.PWR_STAT_PEN_CORE true (by decide) rfl, rfl, ?_, rfl⟩
  exact ((Dev.regsBut.refl s.dev _).setFlag (by decide) true).trans (.of_regs rfl _)

/-! ## VCORE good -/

/-- The records of power and start-up as good VCORE leaves them. -/
def Dev.coreLive (d : Dev) : Dev :=
  { d with pwr := { d.pwr with vcore := true, dormant := false, isolated := false, heldUp := false },
           boot := { d.boot with replayed := false, calDone := false, calDeferred := false } }

/-- What the supervisor restores of the ring and of a command in progress after the core's reset. -/
def Dev.ringKept (e d : Dev) : Dev :=
  { e with wr := { e.wr with mgrPos := d.wr.mgrPos, resPos := d.wr.resPos, present := d.wr.present }, pwr := { e.pwr with all := d.pwr.all } }

/-- The core restarted at the exit of a device. -/
def Dev.coreRestarted (d : Dev) : Dev :=
  ((d.coreLive.coreReset.ringKept d).setRole d.boot.role).setPhase (if d.boot.role = .worker then 9 else 1)

theorem exec_vcoreGood (s : State) : exec .vcoreGood s = .next (s.onDev fun d =>
    if d.pwr.exiting && !d.pwr.vcore then d.coreRestarted else d) := rfl

@[simp] theorem Dev.t_pendShown (d : Dev) (b : Bool) : (d.pendShown b).t = d.t := by
  unfold Dev.pendShown; split <;> simp

@[simp] theorem Dev.t_resetPorts (d : Dev) : d.resetPorts.t = d.t :=
  foldl_keeps _ Dev.t (fun d p => by simp) _ d

theorem Dev.t_coreReset (d : Dev) : d.coreReset.t.bn = d.t.bn ∧ d.coreReset.t.ceil = d.t.ceil := by
  rw [Dev.coreReset_eq]
  simp [Dev.coreCleared]

@[simp] theorem Dev.setRole_leaves (d : Dev) (r : Role) :
    (d.setRole r).jobs = d.jobs ∧ (d.setRole r).mram = d.mram ∧ (d.setRole r).pwr = d.pwr ∧ (d.setRole r).cal = d.cal := by
  simp [Dev.setRole]

/-- What the restart keeps of the device, and what it clears. -/
theorem Dev.coreRestarted_keeps (d : Dev) :
    d.coreRestarted.pwr = { d.coreLive.pwr with all := d.pwr.all } ∧
      d.coreRestarted.boot = { d.coreLive.boot with role := d.boot.role } ∧ d.coreRestarted.jobs = [] ∧
      d.coreRestarted.mram = d.mram ∧ d.coreRestarted.t.bn = d.t.bn ∧ d.coreRestarted.t.ceil = d.t.ceil ∧
      d.coreRestarted.cal = { d.cal with pend := none } := by
  obtain ⟨hboot, hpwr, hjobs, -, -, hmram, hcal⟩ := d.coreLive.coreReset_keeps
  obtain ⟨hbn, hceil⟩ := d.coreLive.t_coreReset
  simp only [Dev.coreRestarted, Dev.setPhase_keeps, Dev.setPhase_leaves, Dev.setRole_keeps, Dev.setRole_leaves, Dev.ringKept, hboot, hpwr, hjobs,
    hmram, hcal, hbn, hceil]
  exact ⟨trivial, trivial, trivial, rfl, rfl, rfl, rfl⟩

theorem Dev.phase_coreRestarted (d : Dev) : d.coreRestarted.phase = if d.boot.role = .worker then 9 else 1 :=
  Dev.phase_setPhase _ _ (by split <;> decide)

/-! ## VCORE too late -/

/-- PEN_CORE withdrawn, with what was to come after it. -/
def Dev.exitGivenUp (d : Dev) : Dev :=
  { (d.setFlag F.PWR_STAT_PEN_CORE false) with pwr := { d.pwr with exiting := false, pend := none, all := none } }

/-- The failed exit, shown to who commanded it. -/
def Dev.penExpired (d : Dev) : Dev :=
  let e := d.exitGivenUp.supEvent Rsn.penTimeout 0
  if d.pwr.pend.isSome then (e.setFlag F.PWR_STAT_PENDING false).setFld F.PWR_STAT_CMD_RESULT Rsn.penTimeout.toNat else e

theorem exec_penTimeout (s : State) : exec .penTimeout s = .next (s.onDev fun d =>
    if d.pwr.exiting && !d.pwr.vcore then d.penExpired else d) := rfl

@[simp] theorem Dev.pwr_supEvent_room {d : Dev} (h : d.pwr.mevt.length < 16) (r : Reason) (v : Nat) :
    (d.supEvent r v).pwr = { d.pwr with mevt := d.pwr.mevt ++ [{ code := r, bn := d.now, val := v % 65536 }] } := by
  simp [Dev.supEvent, show ¬ 16 ≤ d.pwr.mevt.length by omega]

theorem Dev.penExpired_cases (d : Dev) : d.penExpired = d.exitGivenUp.supEvent Rsn.penTimeout 0 ∨ d.penExpired =
    ((d.exitGivenUp.supEvent Rsn.penTimeout 0).setFlag F.PWR_STAT_PENDING false).setFld F.PWR_STAT_CMD_RESULT Rsn.penTimeout.toNat := by
  unfold Dev.penExpired; dsimp only; split <;> simp

theorem Dev.pwr_penExpired {d : Dev} (h : d.pwr.mevt.length < 16) :
    d.penExpired.pwr = { d.exitGivenUp.pwr with mevt := d.pwr.mevt ++ [{ code := 0xA00A, bn := d.now, val := 0 }] } := by
  have hshown := Dev.pwr_supEvent_room (d := d.exitGivenUp) h Rsn.penTimeout 0
  rcases d.penExpired_cases with he | he <;> rw [he]
  · exact hshown
  · exact hshown

/-- The failed exit moves no field of PWR_STAT but PEN_CORE, PENDING and CMD_RESULT. -/
theorem Dev.fld_penExpired (d : Dev) {f : Fld} (ha : f.a = R.PWR_STAT) (hf : f.hi < 11) : d.penExpired.fld f = d.exitGivenUp.fld f := by
  have hevent : (d.exitGivenUp.supEvent Rsn.penTimeout 0).fld f = d.exitGivenUp.fld f := by
    rw [Dev.supEvent, Dev.fld_raiseIrq _ _ _ (by decide) (by rw [ha]; decide)]
    rfl
  rcases d.penExpired_cases with he | he <;> rw [he]
  · exact hevent
  · rw [Dev.fld_setFld_ne _ _ _ _ (by omega) (.inr (.inl (by change f.hi < 16; omega))),
      Dev.fld_setFlag_ne _ _ _ _ (by omega) (.inr (.inl (by change f.hi < 11; omega))), hevent]

theorem exec_vcoreGood_exit {s : State} (he : s.dev.pwr.exiting = true) (hv : s.dev.pwr.vcore = false) :
    exec .vcoreGood s = .next (s.onDev Dev.coreRestarted) := by
  rw [exec_vcoreGood, State.onDev, he, hv, if_pos (by decide)]; rfl

theorem exec_penTimeout_exit {s : State} (he : s.dev.pwr.exiting = true) (hv : s.dev.pwr.vcore = false) :
    exec .penTimeout s = .next (s.onDev Dev.penExpired) := by
  rw [exec_penTimeout, State.onDev, he, hv, if_pos (by decide)]; rfl

theorem Dev.penExpired_shown {d : Dev} (h : d.pwr.mevt.length < 16) :
    d.penExpired.flag F.PWR_STAT_PEN_CORE = false ∧ d.penExpired.pwr.exiting = false ∧ d.penExpired.pwr.pend = none ∧
      d.penExpired.pstate = d.pstate ∧ d.penExpired.pwr.mevt = d.pwr.mevt ++ [{ code := 0xA00A, bn := d.now, val := 0 }] := by
  have hpwr := Dev.pwr_penExpired h
  refine ⟨?_, by rw [hpwr]; rfl, by rw [hpwr]; rfl, ?_, by rw [hpwr]⟩
  · rw [Dev.flag, Dev.fld_penExpired _ rfl (by decide)]
    exact Dev.flag_setFlag_same d F.PWR_STAT_PEN_CORE false (by decide) rfl
  · rw [Dev.pstate, Dev.fld_penExpired _ rfl (by decide)]
    exact Dev.fld_setFlag_ne d F.PWR_STAT_PEN_CORE F.PWR_STAT_STATE _ (by decide) (by decide)

/-- The restart as the statement reads it. -/
theorem Dev.coreRestarted_shown {d : Dev} (h : d.pwr.exiting = true) :
    d.coreRestarted.pwr.vcore = true ∧ d.coreRestarted.pwr.dormant = false ∧ d.coreRestarted.pwr.exiting = true ∧
      d.coreRestarted.boot.role = d.boot.role ∧ d.coreRestarted.boot.replayed = false := by
  obtain ⟨hpwr, hboot, -⟩ := d.coreRestarted_keeps
  rw [hpwr, hboot]
  exact ⟨rfl, rfl, h, rfl, rfl⟩

theorem exec_exit_idle {s : State} (h : s.dev.pwr.exiting = false ∨ s.dev.pwr.vcore = true) :
    exec .vcoreGood s = .next s ∧ exec .penTimeout s = .next s := by
  have hoff : ¬(s.dev.pwr.exiting && !s.dev.pwr.vcore) = true := by rcases h with h | h <;> simp [h]
  exact ⟨by rw [exec_vcoreGood, State.onDev, if_neg hoff], by rw [exec_penTimeout, State.onDev, if_neg hoff]⟩

/-- Settles O27: the end of the drain, the two exits, and good VCORE in time or too late, each as one change of the device. -/
theorem parkAndDormancyExits : Obligations.ParkAndDormancyExits := by
  unfold Obligations.ParkAndDormancyExits
  intro s
  dsimp only
  refine ⟨fun hdrain hbusy => ?_, exec_readyDrainDone_waits, fun h3 hi he hd => ?_, fun hdorm hflag he hd hrel => ?_, exec_exits_dead,
    fun he hv => ⟨?_, fun hroom => ?_⟩, exec_exit_idle⟩
  · exact ⟨_, exec_readyDrainDone_drained hdrain hbusy, s.dev.pwr_drained, s.dev.draining_drained, s.dev.pending_drained,
      Dev.fld_pwrResult _ _, Dev.isr_pwrResult _ _, s.dev.regsBut_drained⟩
  · refine ⟨_, ?_, s.exitBegun_shown⟩
    rw [exec_wakeSignal, State.onDev, if_pos (by simp [h3, hi, he, hd]), Dev.penUp_of_alive hd]; rfl
  · refine ⟨_, ?_, s.exitBegun_shown⟩
    rw [exec_dormancyResume, State.onDev, if_pos (by simp [hdorm, hflag, he, hd, hrel]), Dev.penUp_of_alive hd]; rfl
  · obtain ⟨hvcore, hdorm, hexit, hrole, hrep⟩ := Dev.coreRestarted_shown he
    obtain ⟨-, -, hjobs, hmram, hbn, hceil, hcal⟩ := s.dev.coreRestarted_keeps
    exact ⟨_, exec_vcoreGood_exit he hv, hvcore, hdorm, hexit, s.dev.phase_coreRestarted, hrole, hrep, hjobs, hmram, hbn, hceil, hcal⟩
  · exact ⟨_, exec_penTimeout_exit he hv, Dev.penExpired_shown hroom⟩

end Sys2Proof.Machine
end

section

/-!
PROOF. Power commands: held or refused, and their effect at the apply beat (04_power_and_supply.md R150 to R155, Table PWR-2).
-/

namespace Sys2Proof.Machine
open Sys2Proof

/-! ## A command held or refused -/

/-- A command for this device: refused by its reason, or held for the beat 4 beats on. -/
def Dev.pwrTake (d : Dev) (n : Nat) (x i : Bool) : Dev :=
  match d.pwrRefusal n x with
  | some r => d.pwrResult r
  | none => d.pwrHold n x i (d.now + 4)

theorem pwrWord_fields {n : Nat} (h : n < 8) (x i : Bool) : slice (pwrWord n x i 62) 2 0 = n ∧ bitOf (pwrWord n x i 62) 4 = x ∧
    bitOf (pwrWord n x i 62) 5 = i ∧ slice (pwrWord n x i 62) 13 8 = 62 := by
  interval_cases n <;> cases x <;> cases i <;> decide

theorem Dev.writePwrCmd_own (d : Dev) {n : Nat} (hn : n < 8) (h : d.boot.role ≠ .manager ∨ n < 4) (x i : Bool) :
    d.writePwrCmd (pwrWord n x i 62) = d.pwrTake n x i := by
  obtain ⟨hcmd, hx, hi, htgt⟩ := pwrWord_fields hn x i
  have hmgr : (d.boot.role == .manager && decide (4 ≤ n)) = false := by
    rcases h with h | h
    · simp [h]
    · simp [show ¬ 4 ≤ n by omega]
  rw [Dev.writePwrCmd, hcmd, hx, hi, htgt]
  rw [if_pos (Or.inl rfl), hmgr]
  rfl

theorem Dev.writePwrCmd_mgr (d : Dev) {n : Nat} (hn : n < 8) (h4 : 4 ≤ n) (h : d.boot.role = .manager) (x i : Bool) :
    d.writePwrCmd (pwrWord n x i 62) = d.pwrResult Rsn.refState := by
  obtain ⟨hcmd, hx, hi, htgt⟩ := pwrWord_fields hn x i
  rw [Dev.writePwrCmd, hcmd, hx, hi, htgt]
  simp [h, h4]

/-- What holding a command shows, and what it leaves. -/
def Dev.PwrHeld (d e : Dev) (n : Nat) (x i : Bool) : Prop :=
  e.pwr = { d.pwr with pend := some { state := n, expire := x, isolate := i, applyBn := d.now + 4 } } ∧
    e.flag F.PWR_STAT_PENDING = true ∧ e.num2 R.PWR_APPLY_LO R.PWR_APPLY_HI = d.now + 4 ∧ e.pstate = d.pstate ∧
    d.regsBut e [R.PWR_STAT, R.PWR_APPLY_LO, R.PWR_APPLY_HI] ∧ e = { d with regs := e.regs, pwr := e.pwr }

theorem Dev.pwrHeld_pwrHold (d : Dev) (n : Nat) (x i : Bool) : d.PwrHeld (d.pwrHold n x i (d.now + 4)) n x i := by
  have happly : d.regsBut ({ d with pwr := { d.pwr with pend := some { state := n, expire := x, isolate := i, applyBn := d.now + 4 } } }.showApply
      (d.now + 4)) [R.PWR_APPLY_LO, R.PWR_APPLY_HI] := (Dev.regsBut.of_regs rfl _).setNum2 (by simp) (by simp) _
  refine ⟨rfl, Dev.flag_setFlag_same _ F.PWR_STAT_PENDING true (by decide) rfl, ?_, ?_, (happly.mono (by simp)).setFlag (by decide) true, rfl⟩
  · have hstat : ∀ e : Dev, (e.setFlag F.PWR_STAT_PENDING true).num2 R.PWR_APPLY_LO R.PWR_APPLY_HI = e.num2 R.PWR_APPLY_LO R.PWR_APPLY_HI := by
      intro e
      rw [Dev.num2, Dev.num, Dev.num, Dev.reg_setFlag_ne _ _ _ _ (by decide), Dev.reg_setFlag_ne _ _ _ _ (by decide)]; rfl
    have hnow : d.now < 2 ^ 56 := d.t.bn.isLt
    exact (hstat _).trans (Dev.num2_setNum2 _ (by decide) (by omega))
  · exact (Dev.fld_setFlag_ne _ F.PWR_STAT_PENDING F.PWR_STAT_STATE _ (by decide) (by decide)).trans (happly.fld (f := F.PWR_STAT_STATE) (by decide))

/-- What the refusal of a command shows, and what it leaves. -/
def Dev.PwrRefused (d e : Dev) (r : Reason) : Prop :=
  e.fld F.PWR_STAT_CMD_RESULT = r.toNat ∧ e.pstate = d.pstate ∧ bitOf (e.reg R.HST_ISR0) 17 = true ∧ d.regsBut e (R.PWR_STAT :: irqRegs) ∧
    e = { d with regs := e.regs, out := e.out, wr := { d.wr with items := e.wr.items } }

theorem Dev.pwrResult_frame (d : Dev) (r : Reason) :
    d.pwrResult r = { d with regs := (d.pwrResult r).regs, out := (d.pwrResult r).out, wr := { d.wr with items := (d.pwrResult r).wr.items } } := by
  have hshown := Dev.regs_out_trans (d := d) (e := d.setFld F.PWR_STAT_CMD_RESULT r.toNat) rfl (Dev.raiseIrq_regs_out_only _ 17)
  rw [Dev.pwrResult_eq]
  generalize (d.setFld F.PWR_STAT_CMD_RESULT r.toNat).raiseIrq 17 = e at *
  have hitems := e.report_items_only false 8 0 r.toNat false
  generalize e.report false 8 0 r.toNat false = f at *
  rw [hitems, hshown]

theorem Dev.pwrRefused_pwrResult (d : Dev) (r : Reason) : d.PwrRefused (d.pwrResult r) r :=
  ⟨d.fld_pwrResult r, d.pstate_pwrResult r, d.isr_pwrResult r, d.regsBut_pwrResult r, d.pwrResult_frame r⟩

theorem Dev.pwrTake_of_none {d : Dev} {n : Nat} {x : Bool} (h : d.pwrRefusal n x = none) (i : Bool) :
    d.pwrTake n x i = d.pwrHold n x i (d.now + 4) := by rw [Dev.pwrTake, h]

theorem Dev.pwrTake_of_some {d : Dev} {n : Nat} {x : Bool} {r : Reason} (h : d.pwrRefusal n x = some r) (i : Bool) :
    d.pwrTake n x i = d.pwrResult r := by rw [Dev.pwrTake, h]

theorem State.pwrHeld_stated {s : State} {e : Dev} {n : Nat} {x i : Bool} (h : s.dev.PwrHeld e n x i) :
    e.pwr = { s.dev.pwr with pend := some { state := n, expire := x, isolate := i, applyBn := s.dev.now + 4 } } ∧
      e.flag F.PWR_STAT_PENDING = true ∧ e.num2 R.PWR_APPLY_LO R.PWR_APPLY_HI = s.dev.now + 4 ∧ e.pstate = s.dev.pstate ∧
      s.dev.regsBut e [R.PWR_STAT, R.PWR_APPLY_LO, R.PWR_APPLY_HI] ∧
      ({ s with dev := e } : State) = { s with dev := { s.dev with regs := e.regs, pwr := e.pwr } } := by
  obtain ⟨hpwr, hpend, happly, hstate, hregs, hframe⟩ := h
  exact ⟨hpwr, hpend, happly, hstate, hregs, congrArg (fun d => { s with dev := d }) hframe⟩

theorem State.pwrRefused_stated {s : State} {e : Dev} {r : Reason} (h : s.dev.PwrRefused e r) :
    e.fld F.PWR_STAT_CMD_RESULT = r.toNat ∧ e.pstate = s.dev.pstate ∧ bitOf (e.reg R.HST_ISR0) 17 = true ∧
      s.dev.regsBut e (R.PWR_STAT :: irqRegs) ∧
      ({ s with dev := e } : State) = { s with dev := { s.dev with regs := e.regs, out := e.out, wr := { s.dev.wr with items := e.wr.items } } } := by
  obtain ⟨hres, hstate, hisr, hregs, hframe⟩ := h
  exact ⟨hres, hstate, hisr, hregs, congrArg (fun d => { s with dev := d }) hframe⟩

/-- A PWR_CMD for this device that its role may take, by its refusal. -/
theorem exec_pwrTake {c : Instr} {s : State} {p : Port} {n : Nat} {x i : Bool} (hn : n < 8) (hrole : s.dev.boot.role ≠ .manager ∨ n < 4)
    (hgate : s.dev.gate p R.PWR_CMD = .pass)
    (hc : exec c s = .next (s.onDev fun d => d.viaPort p R.PWR_CMD fun d => d.writePwrCmd (pwrWord n x i 62))) :
    (s.dev.pwrRefusal n x = none → ∃ t, exec c s = .next t ∧
      t.dev.pwr = { s.dev.pwr with pend := some { state := n, expire := x, isolate := i, applyBn := s.dev.now + 4 } } ∧
      t.dev.flag F.PWR_STAT_PENDING = true ∧ t.dev.num2 R.PWR_APPLY_LO R.PWR_APPLY_HI = s.dev.now + 4 ∧ t.dev.pstate = s.dev.pstate ∧
      s.dev.regsBut t.dev [R.PWR_STAT, R.PWR_APPLY_LO, R.PWR_APPLY_HI] ∧
      t = { s with dev := { s.dev with regs := t.dev.regs, pwr := t.dev.pwr } }) ∧
    (∀ r, s.dev.pwrRefusal n x = some r → ∃ t, exec c s = .next t ∧ t.dev.fld F.PWR_STAT_CMD_RESULT = r.toNat ∧
      t.dev.pstate = s.dev.pstate ∧ bitOf (t.dev.reg R.HST_ISR0) 17 = true ∧ s.dev.regsBut t.dev (R.PWR_STAT :: irqRegs) ∧
      t = { s with dev := { s.dev with regs := t.dev.regs, out := t.dev.out, wr := { s.dev.wr with items := t.dev.wr.items } } }) := by
  have htake : exec c s = .next { s with dev := s.dev.pwrTake n x i } := by
    rw [hc, State.onDev, Dev.viaPort_of_pass hgate, Dev.writePwrCmd_own _ hn hrole]
  refine ⟨fun h => ?_, fun r h => ?_⟩
  · rw [Dev.pwrTake_of_none h] at htake
    exact ⟨_, htake, State.pwrHeld_stated (s.dev.pwrHeld_pwrHold n x i)⟩
  · rw [Dev.pwrTake_of_some h] at htake
    exact ⟨_, htake, State.pwrRefused_stated (s.dev.pwrRefused_pwrResult r)⟩

theorem Dev.pwrRefusal_busy {d : Dev} {n : Nat} {x : Bool} (h : d.braced = true ∨ d.flag F.PWR_STAT_HOLDUP = true ∨ d.pwr.pend ≠ none ∨
    d.pwr.draining = true ∨ d.pwr.all ≠ none ∨ pwrListed d.pstate n = false) : d.pwrRefusal n x = some 0x1005 := by
  rw [Dev.pwrRefusal, if_pos]
  · rfl
  · rw [Option.ne_none_iff_isSome, Option.ne_none_iff_isSome] at h
    rcases h with h | h | h | h | h | h <;> simp [h]

theorem Dev.bkpReady_of_run {d : Dev} (h : d.pwrRefusal 1 false = none) (hn : d.flag F.PWR_CTRL_RUN_NEEDS_BKP = true) :
    d.flag F.PWR_STAT_BKP_READY = true := by
  by_contra hb
  rw [Bool.not_eq_true] at hb
  unfold Dev.pwrRefusal at h
  simp [hn, hb] at h
  split at h <;> simp at h

/-! ## What the close-out leaves of power and time -/

@[simp] theorem Dev.pwr_ite (c : Prop) [Decidable c] (a b : Dev) : (if c then a else b).pwr = if c then a.pwr else b.pwr :=
  apply_ite Dev.pwr c a b

@[simp] theorem Dev.pwr_setCq (d : Dev) (q : Nat) (c : CqSt) : (d.setCq q c).pwr = d.pwr := by simp [Dev.setCq]

@[simp] theorem Dev.pwr_queueEntry (d : Dev) (q : Nat) (e : CqEntry) : (d.queueEntry q e).pwr = d.pwr := by simp [Dev.queueEntry]

@[simp] theorem Dev.pwr_entryOf (d : Dev) (ring lpos : Nat) (ws : List Word) : (d.entryOf ring lpos ws).pwr = d.pwr := by
  unfold Dev.entryOf
  (repeat' split) <;> simp

@[simp] theorem Dev.pwr_setWinState (d : Dev) (hm : Nat) (st : JState) : (d.setWinState hm st).pwr = d.pwr := by
  simp [Dev.setWinState]

@[simp] theorem Dev.pwr_setCeil (d : Dev) (c : Nat) : (d.setCeil c).pwr = d.pwr := by simp [Dev.setCeil]

@[simp] theorem Dev.pwr_onSealed (d : Dev) (lpos : Nat) (r : Rec) : (d.onSealed lpos r).pwr = d.pwr := by
  unfold Dev.onSealed
  dsimp only
  (repeat' split) <;> simp [*]

@[simp] theorem Dev.pwr_wearBy (d : Dev) (n : Nat) : (d.wearBy n).pwr = d.pwr :=
  Dev.wearBy_induction (P := fun e => e.pwr = d.pwr) n (fun _ _ => rfl) fun e r h => by
    unfold Dev.ldgRaise; split <;> simp [h]

@[simp] theorem Dev.pwr_writeCkpt (d : Dev) : d.writeCkpt.pwr = d.pwr := by simp [Dev.writeCkpt]

@[simp] theorem Dev.pwr_advanceHead (d : Dev) : d.advanceHead.pwr = d.pwr := by
  unfold Dev.advanceHead
  generalize (if d.mram.head + 1 = ringSlots then _ else _ : Nat × Nat) = x
  dsimp only
  split <;> simp

@[simp] theorem Dev.pwr_writeRec (d : Dev) (r : Rec) : (d.writeRec r).pwr = d.pwr := by
  simp [Dev.writeRec, Dev.showHead]

@[simp] theorem Dev.pwr_sealRec (d : Dev) (r : Rec) : (d.sealRec r).pwr = d.pwr := by simp [Dev.sealRec]

@[simp] theorem Dev.pwr_sealAll (d : Dev) : d.sealAll.pwr = d.pwr := by
  unfold Dev.sealAll
  exact (foldl_keeps _ Dev.pwr (fun d r => d.pwr_sealRec r) _ _).trans rfl

@[simp] theorem Dev.pwr_termSeal (d : Dev) (hm : Nat) : (d.termSeal hm).pwr = d.pwr := by
  unfold Dev.termSeal
  (repeat' split) <;> simp

@[simp] theorem Dev.pwr_sealTerms (d : Dev) : d.sealTerms.pwr = d.pwr := by
  unfold Dev.sealTerms
  simp [foldl_keeps _ Dev.pwr (fun d (j : Job) => d.pwr_termSeal j.hm)]

@[simp] theorem Dev.pwr_asyShow (d : Dev) : d.asyShow.pwr = d.pwr := by
  unfold Dev.asyShow
  (repeat' split) <;> simp

@[simp] theorem Dev.pwr_asyEnd (d : Dev) (r : Reason) : (d.asyEnd r).pwr = d.pwr := by
  unfold Dev.asyEnd
  (repeat' split) <;> simp [Dev.asyResult]

@[simp] theorem Dev.pwr_asyAbandon (d : Dev) : d.asyAbandon.pwr = d.pwr := by simp [Dev.asyAbandon]

@[simp] theorem Dev.pwr_outsSafe (d : Dev) : d.outsSafe.pwr = d.pwr := foldl_keeps _ Dev.pwr (fun d j => by simp) _ d

@[simp] theorem Dev.pwr_haltEngines (d : Dev) : d.haltEngines.pwr = d.pwr :=
  foldl_keeps _ Dev.pwr (fun d j => by dsimp only; split <;> rfl) _ d

@[simp] theorem Dev.pwr_expireAll (d : Dev) : d.expireAll.pwr = d.pwr := foldl_keeps _ Dev.pwr (fun d j => by simp) _ d

@[simp] theorem Dev.bn_termSeal (d : Dev) (hm : Nat) : (d.termSeal hm).t.bn = d.t.bn := by
  unfold Dev.termSeal
  (repeat' split) <;> simp

@[simp] theorem Dev.bn_sealAll (d : Dev) : d.sealAll.t.bn = d.t.bn := by simp [Dev.sealAll]

@[simp] theorem Dev.bn_sealTerms (d : Dev) : d.sealTerms.t.bn = d.t.bn := by
  unfold Dev.sealTerms
  simp [foldl_keeps _ (fun d => d.t.bn) (fun d (j : Job) => d.bn_termSeal j.hm)]

/-- A device that closes out, its core still powered: jobs expired where the command says so, outputs safe, records sealed. -/
def Dev.closedCore (d : Dev) (expire : Bool) : Dev :=
  ((if expire then d.expireAll else d).outsSafe.haltEngines.asyAbandon.sealTerms).writeCkpt

theorem Dev.closedCore_keeps (d : Dev) (x : Bool) : (d.closedCore x).pwr = d.pwr ∧ (d.closedCore x).now = d.now := by
  refine ⟨by cases x <;> simp [Dev.closedCore], ?_⟩
  cases x <;> simp [Dev.closedCore, Dev.now, Dev.expireAll, Dev.outsSafe, Dev.asyAbandon]

/-- The head links dark. -/
def Dev.linksDark (d : Dev) : Dev := (List.range 16).foldl (fun d q => d.setFld (F.HP_STAT_LSTATE q) 0) d

theorem Dev.linksDark_keeps (d : Dev) : d.linksDark.pwr = d.pwr ∧ d.linksDark.t = d.t ∧ d.linksDark.reg R.PWR_STAT = d.reg R.PWR_STAT := by
  refine ⟨foldl_keeps _ Dev.pwr (fun d q => by simp) _ d, foldl_keeps _ Dev.t (fun d q => by simp) _ d,
    foldl_keeps _ (fun e => e.reg R.PWR_STAT) (fun d q => ?_) _ d⟩
  refine Dev.reg_setFld_ne _ _ _ _ ?_
  change R.PWR_STAT ≠ R.HP_STAT q
  unfold R.HP_STAT R.PWR_STAT
  omega

/-- The core off, before its head links show it. -/
def Dev.corePulled (d : Dev) (expire : Bool) : Dev :=
  let e := (d.closedCore expire).setFlag F.PWR_STAT_PEN_CORE false
  { e with pwr := { e.pwr with vcore := false, exiting := false },
           t := { e.t with running := false, lastUsed := max e.t.lastUsed e.now }, wr := { e.wr with bulk := [] } }

theorem Dev.coreOff_eq (d : Dev) (x : Bool) : d.coreOff x = (d.corePulled x).linksDark := rfl

/-- What the core's end leaves of power and time. -/
theorem Dev.coreOff_leaves (d : Dev) (x : Bool) : (d.coreOff x).pwr = { d.pwr with vcore := false, exiting := false } ∧
    (d.coreOff x).t.running = false ∧ (d.coreOff x).t.bn = d.t.bn ∧ d.now ≤ (d.coreOff x).t.lastUsed ∧
    (d.coreOff x).flag F.PWR_STAT_PEN_CORE = false := by
  obtain ⟨hpwr, hnow⟩ := d.closedCore_keeps x
  obtain ⟨hpwr', ht', hreg'⟩ := (d.corePulled x).linksDark_keeps
  rw [Dev.coreOff_eq, hpwr', ht']
  refine ⟨?_, rfl, BitVec.eq_of_toNat_eq hnow, ?_, ?_⟩
  · change { (d.closedCore x).pwr with vcore := false, exiting := false } = _
    rw [hpwr]
  · refine Nat.le_trans (Nat.le_of_eq hnow.symm) ?_
    exact Nat.le_max_right (d.closedCore x).t.lastUsed (d.closedCore x).now
  · rw [Dev.flag, Dev.fld, hreg']
    exact Dev.flag_setFlag_same (d.closedCore x) F.PWR_STAT_PEN_CORE false (by decide) rfl

/-! ## The close-out of PARK and OFF -/

@[simp] theorem Dev.lastStatus_keeps (d : Dev) :
    d.lastStatus.regs = d.regs ∧ d.lastStatus.pwr = d.pwr ∧ d.lastStatus.t = d.t ∧ d.lastStatus.jobs = d.jobs ∧ d.lastStatus.mram = d.mram := by
  unfold Dev.lastStatus
  split <;> simp [Dev.emit]

/-- The state of PARK or OFF shown and reported. -/
def Dev.shutShown (d : Dev) (p : PwrPend) : Dev :=
  let e := (d.setFld F.PWR_STAT_STATE (if p.state = 4 then 3 else 4)).pwrResult Rsn.ok
  { e with pwr := { e.pwr with isolated := p.isolate || p.state == 5, all := none } }.lastStatus

/-- Both ring sides dark. -/
def Dev.sidesDark (d : Dev) : Dev := { d with wr := { d.wr with side := d.wr.side.map (fun c => (c.1, { c.2 with lstate := 0 })) } }

theorem Dev.closeOut_eq (d : Dev) (p : PwrPend) : d.closeOut p =
    (let e := (if d.pwr.vcore then d.coreOff p.expire else d).shutShown p
     if p.isolate || p.state == 5 then e.sidesDark else e) := rfl

theorem Dev.closeOut_cases (d : Dev) (p : PwrPend) : ∃ e, e = (if d.pwr.vcore then d.coreOff p.expire else d) ∧
    (d.closeOut p = (e.shutShown p).sidesDark ∨ d.closeOut p = e.shutShown p) := by
  refine ⟨_, rfl, ?_⟩
  rw [Dev.closeOut_eq]
  dsimp only
  split <;> simp

theorem Dev.shutShown_keeps (d : Dev) (p : PwrPend) :
    (d.shutShown p).pwr = { d.pwr with isolated := p.isolate || p.state == 5, all := none } ∧ (d.shutShown p).t = d.t ∧
      (d.shutShown p).jobs = d.jobs ∧ (d.shutShown p).mram = d.mram := by
  simp [Dev.shutShown]

theorem Dev.fld_shutShown (d : Dev) (p : PwrPend) : (d.shutShown p).pstate = (if p.state = 4 then 3 else 4) ∧
    (d.shutShown p).flag F.PWR_STAT_PEN_CORE = d.flag F.PWR_STAT_PEN_CORE := by
  have hregs : (d.shutShown p).regs = ((d.setFld F.PWR_STAT_STATE (if p.state = 4 then 3 else 4)).pwrResult Rsn.ok).regs :=
    (Dev.lastStatus_keeps _).1
  constructor
  · rw [Dev.pstate, Dev.fld_congr hregs, Dev.fld_pwrResult_ne _ _ _ (by decide) (by decide) (by decide), Dev.fld_setFld_same _ _ _ (by decide)]
    split <;> rfl
  · rw [Dev.flag_congr hregs, Dev.flag_pwrResult_ne _ _ _ (by decide) (by decide) (by decide)]
    exact Dev.flag_setFld_ne _ _ _ _ (by decide) (by decide)

/-- What the close-out leaves of a device, by what the core's end left. -/
theorem Dev.closeOut_leaves (d : Dev) (p : PwrPend) : ∃ e, e = (if d.pwr.vcore then d.coreOff p.expire else d) ∧
    (d.closeOut p).pstate = (if p.state = 4 then 3 else 4) ∧ (d.closeOut p).flag F.PWR_STAT_PEN_CORE = e.flag F.PWR_STAT_PEN_CORE ∧
    (d.closeOut p).pwr = { e.pwr with isolated := p.isolate || p.state == 5, all := none } ∧ (d.closeOut p).t = e.t ∧
    (d.closeOut p).jobs = e.jobs ∧ (d.closeOut p).mram = e.mram := by
  obtain ⟨e, he, h⟩ := d.closeOut_cases p
  obtain ⟨hstate, hpen⟩ := e.fld_shutShown p
  obtain ⟨hpwr, ht, hjobs, hmram⟩ := e.shutShown_keeps p
  refine ⟨e, he, ?_⟩
  rcases h with h | h <;> rw [h]
  · exact ⟨hstate, hpen, hpwr, ht, hjobs, hmram⟩
  · exact ⟨hstate, hpen, hpwr, ht, hjobs, hmram⟩

/-! ## The apply beat -/

/-- The pending command taken off. -/
def Dev.pendTaken (d : Dev) : Dev := { d with pwr := { d.pwr with pend := none } }.setFlag F.PWR_STAT_PENDING false

/-- A state of Table PWR-1 entered by a command, as it is shown. -/
structure Dev.PwrDone (d e : Dev) (n : Nat) : Prop where
  pstate : e.pstate = n
  pend : e.pwr.pend = none
  pending : e.flag F.PWR_STAT_PENDING = false
  result : e.fld F.PWR_STAT_CMD_RESULT = 0
  jobs : e.jobs = d.jobs
  t : e.t = d.t

theorem Dev.pwrDone_pwrEnter (d : Dev) {n : Nat} (hn : n < 16) : d.PwrDone (d.pendTaken.pwrEnter n) n where
  pstate := by
    rw [Dev.pwrEnter, Dev.pstate_pwrResult, Dev.pstate, Dev.fld_setFld_same _ _ _ (by decide)]
    exact Nat.mod_eq_of_lt hn
  pend := by rw [Dev.pwrEnter, (Dev.pwrResult_keeps _ _).1]; rfl
  pending := by
    rw [Dev.pwrEnter, Dev.flag_pwrResult_ne _ _ _ (by decide) (by decide) (by decide), Dev.flag_setFld_ne _ _ _ _ (by decide) (by decide)]
    exact Dev.flag_setFlag_same _ _ _ (by decide) rfl
  result := Dev.fld_pwrResult _ _
  jobs := by rw [Dev.pwrEnter, (Dev.pwrResult_keeps _ _).2.1]; rfl
  t := by rw [Dev.pwrEnter, (Dev.pwrResult_keeps _ _).2.2.1]; rfl

/-- The beat from which triggers bind is not part of a command's end. -/
theorem Dev.PwrDone.bound {d e : Dev} {n : Nat} (h : d.PwrDone e n) (b : Nat) : d.PwrDone { e with pwr := { e.pwr with bindBn := b } } n :=
  ⟨h.pstate, h.pend, h.pending, h.result, h.jobs, h.t⟩

/-- What a change leaves of the state of power, the jobs and the time. -/
structure Dev.PwrSame (d e : Dev) : Prop where
  stat : e.reg R.PWR_STAT = d.reg R.PWR_STAT
  pwr : e.pwr = d.pwr
  jobs : e.jobs = d.jobs
  t : e.t = d.t

theorem Dev.PwrSame.refl (d : Dev) : d.PwrSame d := ⟨rfl, rfl, rfl, rfl⟩

theorem Dev.PwrSame.trans {d e f : Dev} (h : d.PwrSame e) (h' : e.PwrSame f) : d.PwrSame f :=
  ⟨h'.stat.trans h.stat, h'.pwr.trans h.pwr, h'.jobs.trans h.jobs, h'.t.trans h.t⟩

theorem Dev.PwrSame.foldl {A : Type} {f : Dev → A → Dev} (h : ∀ d a, Dev.PwrSame d (f d a)) (l : List A) : ∀ d : Dev, d.PwrSame (l.foldl f d) := by
  induction l with
  | nil => exact .refl
  | cons a l ih => exact fun d => (h d a).trans (ih _)

theorem Dev.PwrSame.done {d e f : Dev} {n : Nat} (h : d.PwrDone e n) (h' : e.PwrSame f) : d.PwrDone f n where
  pstate := by rw [Dev.pstate, Dev.fld, h'.stat]; exact h.pstate
  pend := by rw [h'.pwr]; exact h.pend
  pending := by rw [Dev.flag, Dev.fld, h'.stat]; exact h.pending
  result := by rw [Dev.fld, h'.stat]; exact h.result
  jobs := h'.jobs.trans h.jobs
  t := h'.t.trans h.t

theorem Dev.pwrSame_outTrans (d : Dev) (n : Nat) (was : Option Bool) : d.PwrSame (d.outTrans n was) where
  stat := by
    unfold Dev.outTrans
    (repeat' split)
    case isTrue => rfl
    case isFalse =>
      refine Dev.reg_setFld_ne _ _ _ _ ?_
      change R.PWR_STAT ≠ R.PO_EDGECNT n
      unfold R.PO_EDGECNT R.PWR_STAT
      omega
    all_goals rfl
  pwr := by simp
  jobs := by simp
  t := by simp

theorem Dev.pwrSame_outsRun (d : Dev) : d.PwrSame d.outsRun := by
  unfold Dev.outsRun
  refine .foldl (fun d n => ?_) _ d
  dsimp only
  split
  · exact .trans (e := d.setOut n { d.outSt n with safe := false }) ⟨rfl, rfl, rfl, rfl⟩ (Dev.pwrSame_outTrans _ _ _)
  · exact .refl d

theorem Dev.pwrSame_resumeEngines (d : Dev) : d.PwrSame d.resumeEngines := by
  unfold Dev.resumeEngines
  refine .foldl (fun d n => ?_) _ d
  dsimp only
  split
  · exact ⟨rfl, rfl, rfl, rfl⟩
  · exact .refl d

/-- RUN entered: the outputs and the engines go on. -/
def Dev.runEntered (d : Dev) : Dev := (d.pendTaken.pwrEnter 0).outsRun.resumeEngines

theorem Dev.pwrDone_runEntered (d : Dev) : d.PwrDone d.runEntered 0 :=
  ((Dev.pwrSame_outsRun _).trans (Dev.pwrSame_resumeEngines _)).done (d.pwrDone_pwrEnter (by decide))

theorem Dev.pwrApply_run {d : Dev} {p : PwrPend} (h : p.state = 1) :
    d.pwrApply p = { d.runEntered with pwr := { d.runEntered.pwr with bindBn := d.now } } := by
  unfold Dev.pwrApply Dev.runEntered Dev.pendTaken
  simp only [h]

theorem Dev.pwrApply_standby {d : Dev} {p : PwrPend} (h : p.state = 3) : d.pwrApply p = d.pendTaken.pwrEnter 2 := by
  rw [Dev.pwrApply, h]; rfl

/-- A READY command begins to drain. -/
def Dev.drainBegun (d : Dev) : Dev :=
  { d.setFld F.PWR_STAT_STATE 1 with pwr := { d.pwr with draining := true } }.setFlag F.PWR_STAT_DRAINING true

theorem Dev.pwrApply_drain {d : Dev} {p : PwrPend} (h : p.state = 2) (h0 : d.pstate = 0)
    (hb : d.jobs.any (fun j => j.active && j.exec == d.pos) = true) : d.pwrApply p = d.drainBegun := by
  rw [Dev.pwrApply, h]
  dsimp only
  rw [h0, hb]
  rfl

theorem Dev.pwrApply_ready {d : Dev} {p : PwrPend} (h : p.state = 2)
    (hs : d.pstate = 0 ∧ d.jobs.any (fun j => j.active && j.exec == d.pos) = false ∨ d.pstate = 2) :
    d.pwrApply p = d.pendTaken.pwrEnter 1 := by
  rw [Dev.pwrApply, h]
  dsimp only
  rcases hs with ⟨h0, hb⟩ | h2
  · rw [h0, hb]; rfl
  · rw [h2]; rfl

theorem Dev.pwrApply_closeOut {d : Dev} {p : PwrPend} (h : p.state = 4 ∨ p.state = 5) : d.pwrApply p = d.pendTaken.closeOut p := by
  rcases h with h | h <;> rw [Dev.pwrApply, h] <;> rfl

theorem exec_powerApply (s : State) : exec .powerApply s = .next (s.onDev fun d => match d.pwr.pend with
    | some p =>
      if d.pwr.draining || d.pwr.exiting then d
      else if !d.t.running || decide (p.applyBn ≤ d.now) then
        (match d.pwr.braceDue with
          | some b => if d.t.running ∧ b ≤ d.now then d else d.pwrApply p
          | none => d.pwrApply p)
      else d
    | none => d) := rfl

section
variable {s : State} {q : PwrPend} (hq : s.dev.pwr.pend = some q) (hd : s.dev.pwr.draining = false) (he : s.dev.pwr.exiting = false)
include hq hd he

theorem exec_powerApply_early (hr : s.dev.t.running = true) (h : s.dev.now < q.applyBn) : exec .powerApply s = .next s := by
  have hlate : ¬ q.applyBn ≤ s.dev.now := by omega
  rw [exec_powerApply, State.onDev, hq]
  simp [hd, he, hr, hlate]

theorem exec_powerApply_due (hb : s.dev.pwr.braceDue = none) (h : q.applyBn ≤ s.dev.now) :
    exec .powerApply s = .next { s with dev := s.dev.pwrApply q } := by
  rw [exec_powerApply, State.onDev, hq]
  simp [hd, he, hb, h]

theorem exec_powerApply_stopped (hr : s.dev.t.running = false) : exec .powerApply s = .next { s with dev := s.dev.pwrApply q } := by
  rw [exec_powerApply, State.onDev, hq]
  simp only [hd, he, hr, Bool.or_self, Bool.not_false, Bool.true_or, Bool.false_eq_true, false_and, if_false, if_true]
  cases s.dev.pwr.braceDue <;> rfl

end

/-- The stated end of a command that enters a state of Table PWR-1. -/
theorem Dev.PwrDone.stated {d e : Dev} {n : Nat} (h : d.PwrDone e n) (s : State) :
    let t : State := { s with dev := e }
    t.dev.pstate = n ∧ t.dev.pwr.pend = none ∧ t.dev.flag F.PWR_STAT_PENDING = false ∧ t.dev.fld F.PWR_STAT_CMD_RESULT = 0 ∧
      t.dev.jobs = d.jobs ∧ t.dev.t = d.t ∧ t = { s with dev := t.dev } :=
  ⟨h.pstate, h.pend, h.pending, h.result, h.jobs, h.t, rfl⟩

theorem Dev.drainBegun_shown (s : State) (d : Dev) (hs : s.dev = d) :
    let t : State := { s with dev := d.drainBegun }
    t.dev.pstate = 1 ∧ t.dev.pwr = { d.pwr with draining := true } ∧ t.dev.flag F.PWR_STAT_DRAINING = true ∧
      d.regsBut t.dev [R.PWR_STAT] ∧ t = { s with dev := { s.dev with regs := t.dev.regs, pwr := t.dev.pwr } } := by
  subst hs
  have hstate := (Dev.regsBut.refl s.dev [R.PWR_STAT]).setFld (f := F.PWR_STAT_STATE) (by decide) 1
  refine ⟨?_, rfl, Dev.flag_setFlag_same _ F.PWR_STAT_DRAINING true (by decide) rfl, ?_, rfl⟩
  · exact (Dev.fld_setFlag_ne _ F.PWR_STAT_DRAINING F.PWR_STAT_STATE _ (by decide) (by decide)).trans (Dev.fld_setFld_same s.dev F.PWR_STAT_STATE 1 (by decide))
  · exact (hstate.trans (.of_regs rfl _)).setFlag (by decide) true

/-- The close-out of a powered device. -/
theorem Dev.closedOut_shown {d : Dev} {q : PwrPend} (hv : d.pwr.vcore = true) :
    let e := d.pendTaken.closeOut q
    e.pstate = (if q.state = 4 then 3 else 4) ∧ e.pwr.vcore = false ∧ e.pwr.pend = none ∧ e.pwr.isolated = (q.isolate || q.state == 5) ∧
      e.flag F.PWR_STAT_PEN_CORE = false ∧ e.t = { e.t with running := false, bn := d.t.bn } ∧ d.now ≤ e.t.lastUsed := by
  dsimp only
  obtain ⟨e, he, hstate, hpen, hpwr, ht, -, -⟩ := d.pendTaken.closeOut_leaves q
  rw [if_pos (show d.pendTaken.pwr.vcore = true from hv)] at he
  obtain ⟨opwr, orun, obn, oused, open_⟩ := d.pendTaken.coreOff_leaves q.expire
  rw [← he] at opwr orun obn oused open_
  rw [hpwr, opwr, ht]
  refine ⟨hstate, rfl, rfl, rfl, hpen.trans open_, ?_, oused⟩
  rw [← orun, ← show e.t.bn = d.t.bn from obn]

/-- The OFF of a parked device. -/
theorem Dev.parkedOff_shown {d : Dev} {q : PwrPend} (hv : d.pwr.vcore = false) (h5 : q.state = 5) :
    let e := d.pendTaken.closeOut q
    e.pstate = 4 ∧ e.pwr.isolated = true ∧ e.pwr.pend = none ∧ e.pwr.vcore = false ∧ e.jobs = d.jobs ∧ e.mram = d.mram ∧ e.t = d.t := by
  dsimp only
  obtain ⟨e, he, hstate, -, hpwr, ht, hjobs, hmram⟩ := d.pendTaken.closeOut_leaves q
  rw [if_neg (by rw [show d.pendTaken.pwr.vcore = false from hv]; decide)] at he
  subst he
  rw [h5] at hstate hpwr
  rw [hpwr]
  exact ⟨hstate, by simp, rfl, hv, hjobs, hmram, ht⟩

/-- Settles O26: a command is held or refused by its refusal, and each state of Table PWR-1 has its change at the apply beat. -/
theorem powerCommandsHeldAndApplied : Obligations.PowerCommandsHeldAndApplied := by
  unfold Obligations.PowerCommandsHeldAndApplied
  refine ⟨fun s p hg => ?_, fun s q hq hd he hb hr => ?_, fun s q hq hd he hr hv h5 => ?_⟩
  · dsimp only
    refine ⟨exec_pwrTake (by decide) (.inr (by decide)) hg rfl, exec_pwrTake (by decide) (.inr (by decide)) hg rfl,
      exec_pwrTake (by decide) (.inr (by decide)) hg rfl, fun hm => ⟨fun x i => exec_pwrTake (by decide) (.inl hm) hg rfl,
        fun x => exec_pwrTake (by decide) (.inl hm) hg rfl⟩, fun n x => Dev.pwrRefusal_busy, Dev.bkpReady_of_run, fun hm x => ?_⟩
    have hoff : exec (.pwrCmdOff p 62 x) s = .next { s with dev := s.dev.pwrResult Rsn.refState } := by
      change execPwrCmdOff p 62 x s = _
      rw [execPwrCmdOff, State.onDev, Dev.viaPort_of_pass hg, Dev.writePwrCmd_mgr _ (by decide) (by decide) hm]
    exact ⟨_, hoff, State.pwrRefused_stated (s.dev.pwrRefused_pwrResult _)⟩
  · dsimp only
    refine ⟨exec_powerApply_early hq hd he hr, fun hn h1 => ?_, fun hn h3 => ?_, fun hn h2 hs => ?_, fun hn h2 h0 hbusy => ?_, fun hn hv h45 => ?_⟩
    all_goals have hexec := exec_powerApply_due hq hd he hb hn
    · rw [Dev.pwrApply_run h1] at hexec
      exact ⟨_, hexec, (s.dev.pwrDone_runEntered.bound s.dev.now).stated s⟩
    · rw [Dev.pwrApply_standby h3] at hexec
      exact ⟨_, hexec, (s.dev.pwrDone_pwrEnter (by decide)).stated s⟩
    · rw [Dev.pwrApply_ready h2 hs] at hexec
      exact ⟨_, hexec, (s.dev.pwrDone_pwrEnter (by decide)).stated s⟩
    · rw [Dev.pwrApply_drain h2 h0 hbusy] at hexec
      exact ⟨_, hexec, Dev.drainBegun_shown s s.dev rfl⟩
    · rw [Dev.pwrApply_closeOut h45] at hexec
      exact ⟨_, hexec, Dev.closedOut_shown hv⟩
  · have hexec := exec_powerApply_stopped hq hd he hr
    rw [Dev.pwrApply_closeOut (.inr h5)] at hexec
    exact ⟨_, hexec, Dev.parkedOff_shown hv h5⟩

end Sys2Proof.Machine
end

section

/-!
PROOF. What the end of jobs leaves: which jobs a change touches, what an ended job holds, and folds that end jobs one after the other (R355, R385).
-/

namespace Sys2Proof.Machine
open Sys2Proof

/-! ## The jobs that a change touches -/

/-- Only the jobs whose hallmarks are listed may have changed, and they keep hallmark and executor. -/
def Dev.JobsTouched (d e : Dev) (l : List Nat) : Prop :=
  ∃ f : Job → Job, e.jobs = d.jobs.map f ∧ ∀ j, (f j).hm = j.hm ∧ (f j).exec = j.exec ∧ (j.hm ∉ l → f j = j)

namespace Dev.JobsTouched
variable {d e f : Dev} {l l' : List Nat}

theorem of_jobs (h : e.jobs = d.jobs) (l : List Nat) : d.JobsTouched e l := ⟨id, by rw [h, List.map_id], fun _ => ⟨rfl, rfl, fun _ => rfl⟩⟩

theorem refl (d : Dev) (l : List Nat) : d.JobsTouched d l := of_jobs rfl l

theorem trans (h : d.JobsTouched e l) (h' : e.JobsTouched f l) : d.JobsTouched f l := by
  obtain ⟨g, hjobs, hg⟩ := h
  obtain ⟨g', hjobs', hg'⟩ := h'
  refine ⟨g' ∘ g, by rw [hjobs', hjobs, List.map_map], fun j => ?_⟩
  obtain ⟨hhm, hexec, hsame⟩ := hg j
  obtain ⟨hhm', hexec', hsame'⟩ := hg' (g j)
  exact ⟨hhm'.trans hhm, hexec'.trans hexec, fun hj => (hsame' (hhm.symm ▸ hj)).trans (hsame hj)⟩

theorem mono (h : d.JobsTouched e l) (hl : l ⊆ l') : d.JobsTouched e l' := by
  obtain ⟨g, hjobs, hg⟩ := h
  exact ⟨g, hjobs, fun j => ⟨(hg j).1, (hg j).2.1, fun hj => (hg j).2.2 fun hmem => hj (hl hmem)⟩⟩

theorem modJob (d : Dev) {g : Job → Job} (hhm : ∀ j, (g j).hm = j.hm) (hexec : ∀ j, (g j).exec = j.exec) (h : Nat) :
    d.JobsTouched (d.modJob h g) [h] := by
  refine ⟨fun j => if j.hm == h then g j else j, rfl, fun j => ?_⟩
  dsimp only
  split
  case isTrue hj => exact ⟨hhm j, hexec j, fun hn => absurd (List.mem_singleton.2 (beq_iff_eq.1 hj)) hn⟩
  case isFalse => exact ⟨rfl, rfl, fun _ => rfl⟩

theorem hms (h : d.JobsTouched e l) : e.jobs.map Job.hm = d.jobs.map Job.hm := by
  obtain ⟨g, hjobs, hg⟩ := h
  rw [hjobs, hms_map _ fun j => (hg j).1]

theorem mem (h : d.JobsTouched e l) {j : Job} (hj : j ∈ d.jobs) (hl : j.hm ∉ l) : j ∈ e.jobs := by
  obtain ⟨g, hjobs, hg⟩ := h
  rw [hjobs]
  exact List.mem_map.2 ⟨j, hj, (hg j).2.2 hl⟩

/-- A job of the device before has one of the same hallmark and executor after it. -/
theorem image (h : d.JobsTouched e l) {j : Job} (hj : j ∈ d.jobs) : ∃ k ∈ e.jobs, k.hm = j.hm ∧ k.exec = j.exec := by
  obtain ⟨g, hjobs, hg⟩ := h
  exact ⟨g j, hjobs ▸ List.mem_map_of_mem hj, (hg j).1, (hg j).2.1⟩

/-- Steps that each touch one job touch only the jobs of their list. -/
theorem foldl {A : Type} {step : Dev → A → Dev} {key : A → Nat} (hs : ∀ d a, Dev.JobsTouched d (step d a) [key a]) (as : List A) :
    ∀ d : Dev, d.JobsTouched (as.foldl step d) (as.map key) := by
  induction as with
  | nil => exact fun d => .refl d _
  | cons a as ih => exact fun d => ((hs d a).mono (by simp)).trans ((ih _).mono (List.subset_cons_self _ _))

/-- Steps that each touch one job reach each of their jobs as it was before them, and leave it as that one step made it. -/
theorem foldl_reaches {A : Type} {step : Dev → A → Dev} {key : A → Nat} (hs : ∀ d a, Dev.JobsTouched d (step d a) [key a])
    {P : Dev → Prop} (hP : ∀ d a, P d → P (step d a)) (as : List A) :
    ∀ d : Dev, (as.map key).Nodup → P d → ∀ a ∈ as, ∃ e, P e ∧ e.jobs.map Job.hm = d.jobs.map Job.hm ∧
      (∀ j ∈ d.jobs, j.hm = key a → j ∈ e.jobs) ∧ ∀ k ∈ (step e a).jobs, k.hm = key a → k ∈ (as.foldl step d).jobs := by
  induction as with
  | nil => exact fun d _ _ a ha => absurd ha List.not_mem_nil
  | cons b as ih =>
    intro d hnd hd a ha
    obtain ⟨hb, hrest⟩ := List.nodup_cons.1 (show (key b :: as.map key).Nodup from hnd)
    rcases List.mem_cons.1 ha with rfl | ha
    · exact ⟨d, hd, rfl, fun j hj _ => hj, fun k hk hkey => (foldl hs as _).mem hk (hkey ▸ hb)⟩
    · obtain ⟨e, he, hms, hkept, hlast⟩ := ih (step d b) hrest (hP d b hd) a ha
      have hne : key a ≠ key b := fun hab => hb (hab ▸ List.mem_map_of_mem ha)
      exact ⟨e, he, hms.trans (hs d b).hms, fun j hj hkey =>
        hkept j ((hs d b).mem hj (by rw [hkey]; simpa using hne)) hkey, hlast⟩

end Dev.JobsTouched

/-- With distinct hallmarks, a job outside a sublist of the jobs has none of its hallmarks. -/
theorem hm_notMem_of_notMem {d : Dev} (hd : (d.jobs.map Job.hm).Nodup) {l : List Job} (hl : ∀ k ∈ l, k ∈ d.jobs) {j : Job} (hj : j ∈ d.jobs)
    (hn : j ∉ l) : j.hm ∉ l.map Job.hm := by
  intro hmem
  obtain ⟨k, hk, hhm⟩ := List.mem_map.1 hmem
  exact hn (List.inj_on_of_nodup_map hd (hl k hk) hj hhm ▸ hk)

/-! ## One job's end -/

/-- A job whose end its executor has reported. -/
def Job.shown (j : Job) : Job := { j with reported := true }

theorem Dev.jobs_report (d : Dev) (b : Bool) (kind tag detail : Nat) (more : Bool) : (d.report b kind tag detail more).jobs = d.jobs := by
  rw [Dev.report_items_only]

theorem Dev.jobs_reportEnd (d : Dev) (h : Nat) : (d.reportEnd h).jobs = d.jobs ∨ (d.reportEnd h).jobs = (d.modJob h Job.shown).jobs := by
  unfold Dev.reportEnd
  (repeat' split)
  case h_2.isTrue => exact .inl rfl
  case h_2.isFalse =>
    refine .inr ?_
    dsimp only
    split <;> simp <;> rfl
  all_goals exact .inl rfl

theorem Dev.jobsTouched_reportEnd (d : Dev) (h : Nat) : d.JobsTouched (d.reportEnd h) [h] := by
  rcases d.jobs_reportEnd h with he | he
  · exact .of_jobs he _
  · exact (Dev.JobsTouched.modJob d (g := Job.shown) (fun _ => rfl) (fun _ => rfl) h).trans (.of_jobs he _)

theorem Dev.jobsTouched_jobReleased (d : Dev) (j : Job) (o : Outcome) : d.JobsTouched (d.jobReleased j o) [j.hm] :=
  (Dev.JobsTouched.modJob d (g := Job.ended o) (fun _ => rfl) (fun _ => rfl) j.hm).trans (.of_jobs (d.jobReleased_keeps j o).1 _)

/-- The two ways in which an open job ends (R361, R385). -/
theorem Dev.endJob_of_open {d : Dev} {j : Job} {h : Nat} (hj : d.job? h = some j) (hout : j.out = none) (o : Outcome) :
    d.endJob h o = (d.jobReleased j o).dueRec 2 [j.endRec o] ∨ d.endJob h o = ((d.jobReleased j o).armedDropped h).reportEnd h := by
  obtain rfl := Dev.hm_of_job? hj
  have hend : d.endJob j.hm o = if (j.armed && j.exec == (d.jobReleased j o).pos) = true then (d.jobReleased j o).dueRec 2 [j.endRec o]
      else ((d.jobReleased j o).armedDropped j.hm).reportEnd j.hm := by
    simp only [Dev.endJob, hj]
    exact if_neg (by simp [hout])
  rw [hend]
  split <;> simp

theorem Dev.endJob_of_none {d : Dev} {h : Nat} (hj : d.job? h = none) (o : Outcome) : d.endJob h o = d := by simp [Dev.endJob, hj]

theorem Dev.endJob_of_decided {d : Dev} {h : Nat} {j : Job} (hj : d.job? h = some j) (hout : j.out.isSome = true) (o : Outcome) :
    d.endJob h o = d := by simp [Dev.endJob, hj, hout]

theorem Dev.jobsTouched_endJob (d : Dev) (h : Nat) (o : Outcome) : d.JobsTouched (d.endJob h o) [h] := by
  cases hj : d.job? h with
  | none => rw [Dev.endJob_of_none hj]; exact .refl d _
  | some j =>
    cases hout : j.out with
    | some _ => rw [Dev.endJob_of_decided hj (by rw [hout]; rfl)]; exact .refl d _
    | none =>
      have hrel := d.jobsTouched_jobReleased j o
      rw [Dev.hm_of_job? hj] at hrel
      rcases Dev.endJob_of_open hj hout o with he | he <;> rw [he]
      · exact hrel.trans (.of_jobs rfl _)
      · exact hrel.trans ((Dev.JobsTouched.of_jobs (d := d.jobReleased j o) rfl _).trans (Dev.jobsTouched_reportEnd _ h))

theorem Dev.regs_bulkPut (d : Dev) (p k : Nat) (ws : List Word) : (d.bulkPut p k ws).regs = d.regs := by
  unfold Dev.bulkPut
  (repeat' split) <;> rfl

theorem Dev.regs_reportEnd (d : Dev) (h : Nat) : (d.reportEnd h).regs = d.regs := by
  unfold Dev.reportEnd
  (repeat' split)
  case h_2.isFalse =>
    dsimp only
    split
    · rw [Dev.regs_bulkPut, Dev.regs_report]; rfl
    · rw [Dev.regs_report]; rfl
  all_goals rfl

/-- The end of a job writes no register below those of the outputs. -/
theorem Dev.reg_endJob_of_low {a : Nat} (ha : a < 0x34000) (d : Dev) (h : Nat) (o : Outcome) : (d.endJob h o).reg a = d.reg a := by
  cases hj : d.job? h with
  | none => rw [Dev.endJob_of_none hj]
  | some j =>
    cases hout : j.out with
    | some _ => rw [Dev.endJob_of_decided hj (by rw [hout]; rfl)]
    | none =>
      have hrel : (d.jobReleased j o).reg a = d.reg a :=
        (Dev.reg_releaseGranules_of_low ha _ _).trans <| (Dev.reg_releaseLanes_of_low ha _ _).trans <| Dev.reg_closeTallies_of_low ha _ _ _
      rcases Dev.endJob_of_open hj hout o with he | he <;> rw [he]
      · exact hrel
      · rw [Dev.reg_congr (Dev.regs_reportEnd _ h)]; exact hrel

theorem Dev.reg_endAs_of_low {a : Nat} (ha : a < 0x34000) (d : Dev) (h : Nat) (part : Bool) (re rp : Reason) :
    (d.endAs h part re rp).reg a = d.reg a := by
  cases hj : d.job? h with
  | none => simp [Dev.endAs, hj]
  | some j => cases part <;> simp [Dev.endAs, hj, Dev.reg_endJob_of_low ha]

/-- What a decided outcome leaves of its job. -/
structure Job.EndsAs (j k : Job) (o : Outcome) : Prop where
  hm : k.hm = j.hm
  st : k.st = stOfTyp o.typ
  out : k.out = some o

theorem Dev.mem_jobs_modJob {d : Dev} {j : Job} (hj : j ∈ d.jobs) (g : Job → Job) : g j ∈ (d.modJob j.hm g).jobs :=
  List.mem_map.2 ⟨j, hj, if_pos (beq_self_eq_true j.hm)⟩

/-- An open job that its hallmark names ends with the outcome given. -/
theorem Dev.endJob_ends {d : Dev} {h : Nat} {j : Job} (hj : d.job? h = some j) (hout : j.out = none) (o : Outcome) :
    ∃ k ∈ (d.endJob h o).jobs, j.EndsAs k o := by
  have hmem : j ∈ d.jobs := List.mem_of_find?_eq_some hj
  obtain rfl := Dev.hm_of_job? hj
  have hended : j.ended o ∈ (d.jobReleased j o).jobs := (d.jobReleased_keeps j o).1 ▸ Dev.mem_jobs_modJob hmem _
  rcases Dev.endJob_of_open hj hout o with he | he <;> rw [he]
  · exact ⟨j.ended o, hended, rfl, rfl, rfl⟩
  · have hdropped : j.ended o ∈ ((d.jobReleased j o).armedDropped j.hm).jobs := hended
    rcases ((d.jobReleased j o).armedDropped j.hm).jobs_reportEnd j.hm with hr | hr <;> rw [hr]
    · exact ⟨j.ended o, hdropped, rfl, rfl, rfl⟩
    · exact ⟨(j.ended o).shown, Dev.mem_jobs_modJob hdropped _, rfl, rfl, rfl⟩

theorem Dev.endAs_of_job {d : Dev} {h : Nat} {j : Job} (hj : d.job? h = some j) (part : Bool) (re rp : Reason) : d.endAs h part re rp =
    d.endJob h (if part then { typ := 5, reason := rp, bn := j.lastBn, d0 := j.partDetail } else { typ := 6, reason := re, bn := d.now }) := by
  cases part <;> simp [Dev.endAs, hj]

theorem Dev.jobsTouched_endAs (d : Dev) (h : Nat) (part : Bool) (re rp : Reason) : d.JobsTouched (d.endAs h part re rp) [h] := by
  cases hj : d.job? h with
  | none => exact .of_jobs (by simp [Dev.endAs, hj]) _
  | some j => rw [Dev.endAs_of_job hj]; exact d.jobsTouched_endJob h _

/-- An open job ends PARTIAL or EXPIRED as its parts say. -/
theorem Dev.endAs_ends {d : Dev} {h : Nat} {j : Job} (hj : d.job? h = some j) (hout : j.out = none) (part : Bool) (re rp : Reason) :
    ∃ k ∈ (d.endAs h part re rp).jobs, j.EndsAs k
      (if part then { typ := 5, reason := rp, bn := j.lastBn, d0 := j.partDetail } else { typ := 6, reason := re, bn := d.now }) := by
  rw [Dev.endAs_of_job hj]
  exact Dev.endJob_ends hj hout _

end Sys2Proof.Machine
end

section

/-!
PROOF. Clock faults (05_clock_synthesis.md R211 to R219, R223, R253, Table CLK-3; 03_straps_and_startup.md R118).
-/

namespace Sys2Proof.Machine
open Sys2Proof

/-! ## What the consequences of a clock fault leave -/

theorem Dev.isr0_mono_raiseIrq {d : Dev} {i : Nat} (hi : i < 32) (h : bitOf (d.reg R.HST_ISR0) i = true) (v : Nat) :
    bitOf ((d.raiseIrq v).reg R.HST_ISR0) i = true := by
  have hpba : R.HST_ISR0 ≠ R.MSIX_PBA (v / 32) := by
    simp only [R.HST_ISR0, R.MSIX_PBA]; omega
  have hset : ∀ x, bitOf ((d.setReg x (putBit (d.reg x) (v % 32) true)).reg R.HST_ISR0) i = true := by
    intro x
    rw [Dev.reg_setReg]
    by_cases hx : R.HST_ISR0 = x
    · rw [if_pos hx, ← hx, bitOf_putBit _ _ _ _ hi]
      split <;> simp [h]
    · rw [if_neg hx]; exact h
  unfold Dev.raiseIrq
  generalize (if v < 32 then R.HST_ISR0 else R.HST_ISR1) = x
  dsimp only
  split
  · exact hset x
  · split
    · rw [Dev.reg_setReg, if_neg hpba]; exact hset x
    · exact hset x

/-- What follows a clock fault leaves CLK_STAT, vector 18 where it is raised, the marks of the fault, the jobs, and every cause. -/
structure Dev.FaultKept (d e : Dev) : Prop where
  stat : e.reg R.CLK_STAT = d.reg R.CLK_STAT
  isr : bitOf (d.reg R.HST_ISR0) 18 = true → bitOf (e.reg R.HST_ISR0) 18 = true
  faultBn : e.clk.faultBn = d.clk.faultBn
  faultDue : e.clk.faultDue = d.clk.faultDue
  jobsDue : e.clk.jobsDue = d.clk.jobsDue
  jobs : e.jobs = d.jobs
  boot : e.boot = d.boot
  causes : ∀ k r, r ∈ (d.dom k).causes → r ∈ (e.dom k).causes

namespace Dev.FaultKept
variable {d e f : Dev}

theorem refl (d : Dev) : d.FaultKept d := ⟨rfl, id, rfl, rfl, rfl, rfl, rfl, fun _ _ => id⟩

theorem trans (h : d.FaultKept e) (h' : e.FaultKept f) : d.FaultKept f where
  stat := h'.stat.trans h.stat
  isr := h'.isr ∘ h.isr
  faultBn := h'.faultBn.trans h.faultBn
  faultDue := h'.faultDue.trans h.faultDue
  jobsDue := h'.jobsDue.trans h.jobsDue
  jobs := h'.jobs.trans h.jobs
  boot := h'.boot.trans h.boot
  causes := fun k r hr => h'.causes k r (h.causes k r hr)

/-- A change of nothing that the relation speaks of. -/
theorem of_regs (hr : e.regs = d.regs) (hb : e.clk.faultBn = d.clk.faultBn) (hd : e.clk.faultDue = d.clk.faultDue)
    (hj : e.clk.jobsDue = d.clk.jobsDue) (hjobs : e.jobs = d.jobs) (hboot : e.boot = d.boot) (hfen : e.fen = d.fen) : d.FaultKept e where
  stat := Dev.reg_congr hr _
  isr := by rw [Dev.reg_congr hr]; exact id
  faultBn := hb
  faultDue := hd
  jobsDue := hj
  jobs := hjobs
  boot := hboot
  causes := fun k r h => by rw [Dev.dom, hfen]; exact h

theorem setReg (h : d.FaultKept e) {a : Nat} (hs : a ≠ R.CLK_STAT) (hi : a ≠ R.HST_ISR0) (w : Word) : d.FaultKept (e.setReg a w) :=
  h.trans ⟨by rw [Dev.reg_setReg, if_neg hs.symm], by rw [Dev.reg_setReg, if_neg hi.symm]; exact id, rfl, rfl, rfl, rfl, rfl, fun _ _ => id⟩

theorem setFld (h : d.FaultKept e) {g : Fld} (hs : g.a ≠ R.CLK_STAT) (hi : g.a ≠ R.HST_ISR0) (v : Nat) : d.FaultKept (e.setFld g v) :=
  h.setReg hs hi _

theorem raiseIrq (h : d.FaultKept e) {v : Nat} (hv : v < 64) : d.FaultKept (e.raiseIrq v) :=
  h.trans ⟨Dev.reg_raiseIrq e v _ hv (by decide), fun hbit => Dev.isr0_mono_raiseIrq (by decide) hbit v, by simp, by simp, by simp, by simp,
    by simp, fun k r hr => by rw [Dev.dom, (show (e.raiseIrq v).fen = e.fen by simp)]; exact hr⟩

theorem foldl {A : Type} {step : Dev → A → Dev} (hs : ∀ d a, Dev.FaultKept d (step d a)) (l : List A) : ∀ d : Dev, d.FaultKept (l.foldl step d) := by
  induction l with
  | nil => exact .refl
  | cons a l ih => exact fun d => (hs d a).trans (ih _)

end Dev.FaultKept

theorem Dev.bulkPut_frame (d : Dev) (p k : Nat) (ws : List Word) :
    d.bulkPut p k ws = { d with out := (d.bulkPut p k ws).out, wr := (d.bulkPut p k ws).wr } := by
  unfold Dev.bulkPut
  (repeat' split) <;> rfl

theorem Dev.faultKept_bulkPut (d : Dev) (p k : Nat) (ws : List Word) : d.FaultKept (d.bulkPut p k ws) := by
  have h := d.bulkPut_frame p k ws
  generalize d.bulkPut p k ws = e at *
  rw [h]
  exact .of_regs rfl rfl rfl rfl rfl rfl rfl

/-- A fence log entry raises vector 16, and vector 18 stands. -/
theorem Dev.isr0_mono_logFence {d : Dev} {i : Nat} (hi : i < 32) (h : bitOf (d.reg R.HST_ISR0) i = true) (k : Nat) (r : Reason) (c : Bool) :
    bitOf ((d.logFence k r c).reg R.HST_ISR0) i = true := by
  have hraise : ∀ e : Dev, e.regs = d.regs → bitOf ((e.raiseIrq 16).reg R.HST_ISR0) i = true := fun e he =>
    Dev.isr0_mono_raiseIrq hi ((Dev.reg_congr he _).symm ▸ h) 16
  unfold Dev.logFence
  dsimp only
  split <;> split <;> (try rw [Dev.reg_congr (Dev.regs_bulkPut _ _ _ _)]) <;> exact hraise _ rfl

theorem Dev.faultKept_raiseOne (d : Dev) (k : Nat) (r : Reason) : d.FaultKept (d.raiseOne k r) where
  stat := d.regsBut_raiseOne k r _ (by decide)
  isr := fun h => by
    unfold Dev.raiseOne
    dsimp only
    split
    · exact h
    · split <;> exact Dev.isr0_mono_logFence (d := d.setDom k _) (by decide) h k r false
  faultBn := by simp
  faultDue := by simp
  jobsDue := by simp
  jobs := by simp
  boot := by simp
  causes := fun j x hx => (d.mem_causes_raiseOne k j r x).2 (.inl hx)

theorem Dev.faultKept_raiseCause (d : Dev) (k : Nat) (r : Reason) : d.FaultKept (d.raiseCause k r) := by
  unfold Dev.raiseCause
  dsimp only
  split
  · exact (d.faultKept_raiseOne k r).trans (.foldl (fun d m => d.faultKept_raiseOne _ _) _ _)
  · exact d.faultKept_raiseOne k r

theorem Dev.faultKept_raiseAll (d : Dev) (l : List (Nat × Reason)) : d.FaultKept (d.raiseAll l) :=
  .foldl (fun e (c : Nat × Reason) => e.faultKept_raiseCause c.1 c.2) _ d

theorem Dev.faultKept_ckEach (d : Dev) (f : Nat → CkSrc → CkSrc) : d.FaultKept (d.ckEach f) := by
  have h := d.pinFrame_ckEach f
  unfold Dev.pinFrame at h
  generalize d.ckEach f = e at *
  rw [h]
  exact .of_regs rfl rfl rfl rfl rfl rfl rfl

/-! ## The steps of a clock fault -/

/-- The beat of a fault shown, and the decision of the jobs marked. -/
def Dev.fenceMarked (d : Dev) (r : Reason) (fb : Nat) : Dev :=
  let e := (d.setFld F.CLK_STAT_REASON r.toNat).addSat F.CLK_EVT_CNT_HOLDOVER 1
  { e.setNum2 R.CLK_HO_BN_LO R.CLK_HO_BN_HI fb with clk := { e.clk with faultBn := fb, holdover := true, jobsDue := true } }

/-- The speed estimates stopped. -/
def Dev.speedsStopped (d : Dev) : Dev := (List.range 8).foldl (fun d n => d.setFlag (F.ENC_STAT_SPEED_VALID n) false) d

theorem Dev.clockFence_eq (d : Dev) (r : Reason) (fb : Nat) : d.clockFence r fb =
    (((d.fenceMarked r fb).raiseAll (timingDoms.map fun k => (k, r))).speedsStopped.asyAbandon.setFlag F.ASY_STAT_DRIFT_ON false).raiseIrq 18 :=
  rfl

theorem Dev.faultKept_speedsStopped (d : Dev) : d.FaultKept d.speedsStopped :=
  .foldl (fun d n => (Dev.FaultKept.refl d).setFld
    (by change R.ENC_STAT n ≠ R.CLK_STAT; unfold R.ENC_STAT R.CLK_STAT; omega)
    (by change R.ENC_STAT n ≠ R.HST_ISR0; unfold R.ENC_STAT R.HST_ISR0; omega) _) _ d

theorem Dev.faultKept_asyShow (d : Dev) : d.FaultKept d.asyShow := by
  unfold Dev.asyShow
  dsimp only
  refine .setFld ?_ (by decide) (by decide) _
  split
  · exact ((Dev.FaultKept.refl d).setFld (g := F.ASY_STAT_BUSY) (by decide) (by decide) _).setFld (by decide) (by decide) _
  · exact ((Dev.FaultKept.refl d).setFld (g := F.ASY_STAT_BUSY) (by decide) (by decide) _).setFld (by decide) (by decide) _

theorem Dev.faultKept_asyEnd (d : Dev) (r : Reason) : d.FaultKept (d.asyEnd r) := by
  unfold Dev.asyEnd
  dsimp only
  refine .trans (.raiseIrq (.setFld ?_ (by decide) (by decide) _) (by decide)) (Dev.faultKept_asyShow _)
  split
  · refine .setFld (g := F.ASY_STAT_RSKEW_PEND) ?_ (by decide) (by decide) _
    exact .of_regs rfl rfl rfl rfl rfl rfl rfl
  · exact .of_regs rfl rfl rfl rfl rfl rfl rfl

theorem Dev.faultKept_asyAbandon (d : Dev) : d.FaultKept d.asyAbandon := by
  unfold Dev.asyAbandon
  split
  · exact d.faultKept_asyEnd _
  · exact .refl d

/-- What a clock fence leaves of what it marked. -/
theorem Dev.faultKept_clockFence (d : Dev) (r : Reason) (fb : Nat) : (d.fenceMarked r fb).FaultKept (d.clockFence r fb) := by
  rw [Dev.clockFence_eq]
  refine .raiseIrq (.setFld ?_ (by decide) (by decide) _) (by decide)
  exact (Dev.faultKept_raiseAll _ _).trans ((Dev.faultKept_speedsStopped _).trans (Dev.faultKept_asyAbandon _))

theorem Dev.causes_clockFence (d : Dev) (r : Reason) (fb : Nat) {k : Nat} (hk : k ∈ timingDoms) : r ∈ ((d.clockFence r fb).dom k).causes := by
  have hraised := (d.fenceMarked r fb).mem_causes_raiseAll (List.mem_map.2 ⟨k, hk, rfl⟩ : (k, r) ∈ timingDoms.map fun k => (k, r))
  rw [Dev.clockFence_eq]
  refine Dev.FaultKept.causes (.raiseIrq (.setFld ?_ (by decide) (by decide) _) (by decide)) k r hraised
  exact (Dev.faultKept_speedsStopped _).trans (Dev.faultKept_asyAbandon _)

theorem Dev.faultKept_asFault (d : Dev) (r : Reason) : d.FaultKept (d.asFault r) := by
  by_cases hen : d.flag F.AS_CTRL_EN = true
  · obtain ⟨f, -, hfault⟩ := Dev.asFault_of_enabled hen r
    have hcleared : d.FaultKept d.faultCleared := .of_regs rfl rfl rfl rfl rfl rfl rfl
    have hshown : d.FaultKept (d.faulted r) :=
      ((((hcleared.setFld (by decide) (by decide) _).setFld (by decide) (by decide) _).setFld (by decide) (by decide) _).setFld (by decide)
        (by decide) _)
    have hleft : ∀ e : Dev, e.FaultKept (e.asLeave d.ckSynth r) := fun e => by
      unfold Dev.asLeave; split
      · exact e.faultKept_raiseAll _
      · exact .refl e
    rw [hfault]
    exact ((hshown.trans (Dev.faultKept_ckEach _ f)).trans (hleft _)).raiseIrq (by decide)
  · rw [Dev.asFault, if_pos (by simpa using hen)]
    exact .refl d

theorem Dev.faultKept_bypLoss (d : Dev) : d.FaultKept d.bypLoss := by
  have hsource : d.FaultKept (d.bypSourceIs true) := by
    unfold Dev.bypSourceIs
    (repeat' split) <;> exact .of_regs rfl rfl rfl rfl rfl rfl rfl
  rw [Dev.bypLoss_eq]
  exact (((hsource.setFld (by decide) (by decide) _).setFld (by decide) (by decide) _).trans (Dev.faultKept_ckEach _ _)).raiseIrq (by decide)

theorem Dev.faultKept_handoverAt (d : Dev) (h : Nat) : d.FaultKept (d.handoverAt h) := by
  have hres : ∀ (e : Dev) (r : Reason), e.FaultKept (e.setFld F.WR_STAT_RESULT r.toNat) := fun e r =>
    (Dev.FaultKept.refl e).setFld (by decide) (by decide) _
  unfold Dev.handoverAt
  dsimp only
  split
  · exact hres d _
  · split
    · exact hres d _
    · split
      · exact hres d _
      · refine .trans (.trans ?_ (hres _ _)) (Dev.faultKept_bulkPut _ _ _ _)
        exact .of_regs rfl rfl rfl rfl rfl rfl rfl

theorem Dev.faultKept_handoverAsk (d : Dev) : d.FaultKept d.handoverAsk := by
  unfold Dev.handoverAsk
  split
  · exact d.faultKept_handoverAt _
  · exact .refl d

/-! ## The start of a holdover -/

theorem Dev.refFault_regs_only (d : Dev) (r : Reason) : d.refFault r = { d with regs := (d.refFault r).regs } := by
  unfold Dev.refFault
  (repeat' split) <;> rfl

theorem Dev.regsBut_refFault (d : Dev) (r : Reason) : d.regsBut (d.refFault r) [R.CLK_STAT] := by
  unfold Dev.refFault
  dsimp only
  split <;> split
  · exact (Dev.regsBut.refl d _).setFlag (by decide) false
  · exact .refl d _
  · exact ((Dev.regsBut.refl d _).setFlag (by decide) false).setFlag (by decide) false
  · exact (Dev.regsBut.refl d _).setFlag (by decide) false

theorem Dev.refQual_refFault (d : Dev) {r : Reason} (h : r ≠ Rsn.spllUnlock) : (d.refFault r).flag F.CLK_STAT_REF_QUAL = false := by
  rw [Dev.refFault, if_neg h]
  exact Dev.flag_setFlag_same _ _ _ (by decide) rfl

theorem Dev.refPresent_refFault (d : Dev) : (d.refFault Rsn.refLoss).flag F.CLK_STAT_REF_PRESENT = false := by
  rw [Dev.refFault, if_neg (by decide), if_pos rfl, Dev.flag_setFlag_ne _ _ _ _ (by decide) (by decide)]
  exact Dev.flag_setFlag_same _ _ _ (by decide) rfl

/-- The fault of a reference moves its two bits alone. -/
theorem Dev.fld_refFault_ne (d : Dev) (r : Reason) {f : Fld} (hf : f.hi < 32) (h : f.a ≠ R.CLK_STAT ∨ f.hi < 2 ∨ 3 < f.lo) :
    (d.refFault r).fld f = d.fld f := by
  have hbits : ∀ (e : Dev), (e.setFlag F.CLK_STAT_REF_PRESENT false).fld f = e.fld f ∧ (e.setFlag F.CLK_STAT_REF_QUAL false).fld f = e.fld f :=
    fun e => ⟨Dev.fld_setFlag_ne _ _ _ _ hf (h.imp id (Or.imp id (Nat.lt_of_succ_lt))),
      Dev.fld_setFlag_ne _ _ _ _ hf (h.imp id (Or.imp Nat.lt_succ_of_lt id))⟩
  unfold Dev.refFault
  dsimp only
  split <;> split
  · exact (hbits d).1
  · rfl
  · exact (hbits _).2.trans (hbits d).1
  · exact (hbits d).2

/-- A fault of the monitors counted. -/
def Dev.faultCounted (d : Dev) (r : Reason) : Dev :=
  if r = Rsn.refLoss then d.addSat F.CLK_EVT_CNT_REF_LOSS 1
  else if r = Rsn.spllUnlock then d.addSat F.CLK_EVT_CNT_SPLL_UNLOCK 1 else d

theorem Dev.faultCounted_leaves (d : Dev) (r : Reason) :
    d.faultCounted r = { d with regs := (d.faultCounted r).regs } ∧ d.regsBut (d.faultCounted r) [R.CLK_EVT_CNT] := by
  unfold Dev.faultCounted
  (repeat' split)
  · exact ⟨rfl, (Dev.regsBut.refl d _).addSat (by decide) 1⟩
  · exact ⟨rfl, (Dev.regsBut.refl d _).addSat (by decide) 1⟩
  · exact ⟨rfl, .refl d _⟩

theorem Dev.countFault_cases (d : Dev) (r : Reason) :
    d.countFault r = d.faultCounted r ∨ d.countFault r = (d.faultCounted r).refFault r := by
  have h : d.countFault r = if (d.faultCounted r).boot.role == .reserve then d.faultCounted r else (d.faultCounted r).refFault r := rfl
  rw [h]; split <;> simp

theorem Dev.countFault_regs_only (d : Dev) (r : Reason) : d.countFault r = { d with regs := (d.countFault r).regs } := by
  have hcount := (d.faultCounted_leaves r).1
  rcases d.countFault_cases r with h | h <;> rw [h]
  · exact hcount
  · exact Dev.regs_only_trans hcount (Dev.refFault_regs_only _ r)

theorem Dev.regsBut_countFault (d : Dev) (r : Reason) : d.regsBut (d.countFault r) [R.CLK_STAT, R.CLK_EVT_CNT] := by
  have hcount := (d.faultCounted_leaves r).2
  rcases d.countFault_cases r with h | h <;> rw [h]
  · exact hcount.mono (by simp)
  · exact (hcount.mono (by simp)).trans ((Dev.regsBut_refFault _ r).mono (by simp))

theorem Dev.fld_countFault (d : Dev) (r : Reason) {f : Fld} (hf : f.hi < 32) (ha : f.a ≠ R.CLK_EVT_CNT) (h : f.hi < 2 ∨ 3 < f.lo) :
    (d.countFault r).fld f = d.fld f := by
  have hcount := (d.faultCounted_leaves r).2
  rcases d.countFault_cases r with he | he <;> rw [he]
  · exact hcount.fld (by simpa using ha)
  · exact (Dev.fld_refFault_ne _ r hf (.inr h)).trans (hcount.fld (by simpa using ha))

/-- The device once a fault is seen: off its VCO, and frozen. -/
def Dev.faultSeen (d : Dev) (r : Reason) : Dev :=
  let e := ((d.countFault r).setFlag F.CLK_STAT_LOCKED false).setFlag F.CLK_STAT_HOLDOVER true
  { e with clk := { e.clk with faultDue := true, lockRef := false, unfenceDue := false, unfenceWait := false } }.setSpll 2

theorem Dev.enterHoldover_eq (d : Dev) (r : Reason) : d.enterHoldover r =
    (let e := ((d.faultSeen r).clockFence r (d.faultSeen r).now).asFault Rsn.asRefLoss
     (if e.bypRef && r == Rsn.refLoss then e.bypLoss else e).handoverAsk) := rfl

theorem Dev.faultKept_enterHoldover (d : Dev) (r : Reason) :
    ((d.faultSeen r).clockFence r (d.faultSeen r).now).FaultKept (d.enterHoldover r) := by
  rw [Dev.enterHoldover_eq]
  dsimp only
  refine .trans (Dev.faultKept_asFault _ Rsn.asRefLoss) (.trans ?_ (Dev.faultKept_handoverAsk _))
  split
  · exact Dev.faultKept_bypLoss _
  · exact .refl _

theorem Dev.faultSeen_keeps (d : Dev) (r : Reason) :
    (d.faultSeen r).jobs = d.jobs ∧ (d.faultSeen r).now = d.now ∧ (d.faultSeen r).boot = d.boot ∧ (d.faultSeen r).clk.faultDue = true := by
  have h := d.countFault_regs_only r
  unfold Dev.faultSeen Dev.setSpll
  generalize d.countFault r = e at *
  rw [h]
  exact ⟨rfl, rfl, rfl, rfl⟩

theorem Dev.faultSeen_shows (d : Dev) (r : Reason) :
    (d.faultSeen r).ownHoldover = true ∧ (d.faultSeen r).flag F.CLK_STAT_LOCKED = false ∧ (d.faultSeen r).spll = 2 := by
  let e := ((d.countFault r).setFlag F.CLK_STAT_LOCKED false).setFlag F.CLK_STAT_HOLDOVER true
  refine ⟨?_, ?_, Dev.spll_setSpll _ 2 (by decide)⟩
  · exact (Dev.ownHoldover_setSpll e 2).trans (Dev.flag_setFlag_same _ F.CLK_STAT_HOLDOVER true (by decide) rfl)
  · refine (Dev.flag_setFld_ne e F.CLK_STAT_SPLL F.CLK_STAT_LOCKED 2 (by decide) (by decide)).trans ?_
    refine (Dev.flag_setFlag_ne _ F.CLK_STAT_HOLDOVER F.CLK_STAT_LOCKED true (by decide) (by decide)).trans ?_
    exact Dev.flag_setFlag_same _ F.CLK_STAT_LOCKED false (by decide) rfl

theorem Dev.stat_fenceMarked (d : Dev) (r : Reason) (fb : Nat) :
    (d.fenceMarked r fb).reg R.CLK_STAT = (d.setFld F.CLK_STAT_REASON r.toNat).reg R.CLK_STAT := by
  have h : (d.setFld F.CLK_STAT_REASON r.toNat).regsBut (d.fenceMarked r fb) [R.CLK_EVT_CNT, R.CLK_HO_BN_LO, R.CLK_HO_BN_HI] :=
    (((Dev.regsBut.refl _ _).addSat (by decide) 1).setNum2 (by simp) (by simp) fb).trans (.of_regs rfl _)
  exact h _ (by decide)

theorem Dev.fld_fenceMarked (d : Dev) (r : Reason) (fb : Nat) {f : Fld} (ha : f.a = R.CLK_STAT) (hf : f.hi < 16) :
    (d.fenceMarked r fb).fld f = d.fld f := by
  rw [Dev.fld, ha, Dev.stat_fenceMarked, ← ha]
  exact Dev.fld_setFld_ne d F.CLK_STAT_REASON f _ (by omega) (.inr (.inl hf))

theorem Dev.reason_fenceMarked (d : Dev) (r : Reason) (fb : Nat) : (d.fenceMarked r fb).fld F.CLK_STAT_REASON = r.toNat := by
  rw [Dev.fld, Dev.stat_fenceMarked]
  exact (Dev.fld_setFld_same d F.CLK_STAT_REASON _ (by decide)).trans (Nat.mod_eq_of_lt r.isLt)

/-- What the start of a holdover shows. -/
structure Dev.InHoldover (d e : Dev) (r : Reason) : Prop where
  own : e.ownHoldover = true
  locked : e.flag F.CLK_STAT_LOCKED = false
  spll : e.spll = 2
  reason : e.fld F.CLK_STAT_REASON = r.toNat
  faultBn : e.clk.faultBn = d.now
  faultDue : e.clk.faultDue = true
  causes : ∀ k ∈ timingDoms, r ∈ (e.dom k).causes
  isr : bitOf (e.reg R.HST_ISR0) 18 = true
  jobsDue : e.clk.jobsDue = true
  jobs : e.jobs = d.jobs

theorem Dev.InHoldover.kept {d e f : Dev} {r : Reason} (h : d.InHoldover e r) (h' : e.FaultKept f) : d.InHoldover f r where
  own := by rw [Dev.ownHoldover, Dev.flag, Dev.fld, h'.stat]; exact h.own
  locked := by rw [Dev.flag, Dev.fld, h'.stat]; exact h.locked
  spll := by rw [Dev.spll, Dev.fld, h'.stat]; exact h.spll
  reason := by rw [Dev.fld, h'.stat]; exact h.reason
  faultBn := h'.faultBn.trans h.faultBn
  faultDue := h'.faultDue.trans h.faultDue
  causes := fun k hk => h'.causes k r (h.causes k hk)
  isr := h'.isr h.isr
  jobsDue := h'.jobsDue.trans h.jobsDue
  jobs := h'.jobs.trans h.jobs

theorem Dev.inHoldover_clockFence (d : Dev) (r : Reason) : d.InHoldover ((d.faultSeen r).clockFence r (d.faultSeen r).now) r := by
  obtain ⟨hjobs, hnow, -, hdue⟩ := d.faultSeen_keeps r
  obtain ⟨hown, hlock, hspll⟩ := d.faultSeen_shows r
  have hkept := (d.faultSeen r).faultKept_clockFence r (d.faultSeen r).now
  have hfld : ∀ f : Fld, f.a = R.CLK_STAT → f.hi < 16 →
      ((d.faultSeen r).clockFence r (d.faultSeen r).now).fld f = (d.faultSeen r).fld f := fun f ha hf => by
    rw [Dev.fld, ha, hkept.stat, ← ha]
    exact (d.faultSeen r).fld_fenceMarked r _ ha hf
  refine ⟨?_, ?_, (hfld _ rfl (by decide)).trans hspll, ?_, hkept.faultBn.trans hnow, hkept.faultDue.trans hdue,
    fun k hk => (d.faultSeen r).causes_clockFence r _ hk, ?_, hkept.jobsDue, hkept.jobs.trans hjobs⟩
  · rw [Dev.ownHoldover, Dev.flag, hfld _ rfl (by decide)]; exact hown
  · rw [Dev.flag, hfld _ rfl (by decide)]; exact hlock
  · rw [Dev.fld, hkept.stat]; exact (d.faultSeen r).reason_fenceMarked r _
  · rw [Dev.clockFence_eq]; exact Dev.isr_raiseIrq _ 18 (by decide)

theorem Dev.inHoldover_enterHoldover (d : Dev) (r : Reason) : d.InHoldover (d.enterHoldover r) r :=
  (d.inHoldover_clockFence r).kept (d.faultKept_enterHoldover r)

theorem Dev.boot_enterHoldover (d : Dev) (r : Reason) : (d.enterHoldover r).boot = d.boot := by
  rw [(d.faultKept_enterHoldover r).boot, ((d.faultSeen r).faultKept_clockFence r _).boot]
  exact (d.faultSeen_keeps r).2.2.1

/-! ## CLOCK_FAULT and SPLL_FAIL -/

/-- The reasons of the three monitors. -/
def monitorReason (k : Fin 3) : Reason := clockReasons.getD k.val Rsn.refLoss

theorem monitorReason_eq (k : Fin 3) : monitorReason k = [(0x7001 : Reason), 0x7002, 0x7003].getD k.val 0 := by
  match k with
  | 0 => rfl
  | 1 => rfl
  | 2 => rfl

theorem exec_clockFault (c : ClockLoss) (s : State) : exec (.clockFault c) s = .next (s.onDev fun d =>
    if c.refclk && d.boot.role == .reserve && d.pwr.vcore then d.refFault (monitorReason c.kind) else d.clockFault (monitorReason c.kind)) := rfl

/-- A loss that is not a reserve's own reference's is a fault of the core's clock. -/
theorem exec_clockFault_core {k : Fin 3} {x : Bool} {s : State} (h : x = false ∨ s.dev.boot.role ≠ .reserve) :
    exec (.clockFault ⟨k, x⟩) s = .next { s with dev := s.dev.clockFault (monitorReason k) } := by
  rw [exec_clockFault, State.onDev, if_neg]
  rcases h with h | h <;> simp [h]

theorem Dev.clockFault_off {d : Dev} (h : d.pwr.vcore = false ∨ d.pstate = 5 ∨ (d.flag F.CLK_STAT_RING_SRC = true ∧ d.sideClock = true))
    (r : Reason) : d.clockFault r = d := by
  rw [Dev.clockFault, if_pos]
  rcases h with h | h | ⟨h, h'⟩ <;> simp [*]

section
variable {d : Dev} (hsrc : d.flag F.CLK_STAT_RING_SRC = false ∨ d.sideClock = false) (hv : d.pwr.vcore = true) (hp : d.pstate ≠ 5)
include hsrc hv hp

theorem Dev.clockFault_enters (ho : d.ownHoldover = false) (h1 : d.spll = 1) (r : Reason) : d.clockFault r = d.enterHoldover r := by
  rw [Dev.clockFault, if_neg, if_neg (by simp [ho]), if_pos (.inl h1)]
  rcases hsrc with h | h <;> simp [hv, hp, h]

theorem Dev.clockFault_again (ho : d.ownHoldover = true) (r : Reason) : d.clockFault r =
    (let e := ((d.countFault r).setFlag F.CLK_STAT_REF_QUAL false).raiseIrq 18
     if e.spll = 5 ∨ e.spll = 4 ∨ (e.spll = 0 ∧ e.clk.lockRef) then e.setSpll 4 else e) := by
  rw [Dev.clockFault, if_neg, if_pos ho]
  rcases hsrc with h | h <;> simp [hv, hp, h]

end

/-- A fault during a return: the reference is no longer qualified. -/
def Dev.returnLost (d : Dev) (r : Reason) : Dev := (((d.countFault r).setFlag F.CLK_STAT_REF_QUAL false).raiseIrq 18).setSpll 4

theorem Dev.spll_unqualified (d : Dev) (r : Reason) : (((d.countFault r).setFlag F.CLK_STAT_REF_QUAL false).raiseIrq 18).spll = d.spll := by
  rw [Dev.spll, Dev.fld_raiseIrq _ _ _ (by decide) (by decide), Dev.fld_setFlag_ne _ _ _ _ (by decide) (by decide)]
  exact d.fld_countFault r (by decide) (by decide) (.inr (by decide))

theorem Dev.returnLost_shown (d : Dev) (r : Reason) : (d.returnLost r).spll = 4 ∧ (d.returnLost r).ownHoldover = d.ownHoldover ∧
    (d.returnLost r).flag F.CLK_STAT_REF_QUAL = false ∧ bitOf ((d.returnLost r).reg R.HST_ISR0) 18 = true ∧
    d.regsBut (d.returnLost r) (R.CLK_STAT :: R.CLK_EVT_CNT :: irqRegs) := by
  let e := (d.countFault r).setFlag F.CLK_STAT_REF_QUAL false
  refine ⟨Dev.spll_setSpll _ 4 (by decide), ?_, ?_, ?_, ?_⟩
  · refine (Dev.ownHoldover_setSpll (e.raiseIrq 18) 4).trans ?_
    rw [Dev.ownHoldover, Dev.flag_raiseIrq _ _ _ (by decide) (by decide), Dev.flag_setFlag_ne _ _ _ _ (by decide) (by decide), Dev.flag,
      d.fld_countFault r (by decide) (by decide) (.inl (by decide))]
    rfl
  · refine (Dev.flag_setFld_ne (e.raiseIrq 18) F.CLK_STAT_SPLL F.CLK_STAT_REF_QUAL 4 (by decide) (by decide)).trans ?_
    rw [Dev.flag_raiseIrq _ _ _ (by decide) (by decide)]
    exact Dev.flag_setFlag_same _ _ _ (by decide) rfl
  · refine (congrArg (bitOf · 18) (Dev.reg_setFld_ne (e.raiseIrq 18) F.CLK_STAT_SPLL 4 R.HST_ISR0 (by decide))).trans ?_
    exact Dev.isr_raiseIrq e 18 (by decide)
  · exact (((((d.regsBut_countFault r).mono (by simp)).setFlag (by decide) false).raiseIrq (by simp) 18).setSpll (by simp) 4)

theorem Dev.returnLost_frame (d : Dev) (r : Reason) : d.returnLost r = { d with regs := (d.returnLost r).regs, out := (d.returnLost r).out } := by
  have hcount := d.countFault_regs_only r
  unfold Dev.returnLost
  generalize d.countFault r = e at *
  have hq : e.setFlag F.CLK_STAT_REF_QUAL false = { d with regs := (e.setFlag F.CLK_STAT_REF_QUAL false).regs, out := d.out } := by
    rw [hcount]; rfl
  generalize e.setFlag F.CLK_STAT_REF_QUAL false = f at *
  have hirq := Dev.regs_out_trans (d := d) (e := f) (by rw [hq]) (Dev.raiseIrq_regs_out_only f 18)
  generalize f.raiseIrq 18 = g at *
  rw [hirq]; rfl

/-- The holdover oscillator did not lock: the ring sides stop (R216). -/
def Dev.spllFailed (d : Dev) : Dev :=
  { ((d.setSpll 7).setFld F.CLK_STAT_REASON Rsn.spllFail.toNat).raiseIrq 18 with wr := { d.wr with stopped := true } }

theorem exec_spllFail_held {s : State} (ho : s.dev.ownHoldover = true) (h2 : s.dev.spll = 2) :
    exec .spllFail s = .next { s with dev := s.dev.spllFailed } := by
  change execSpllFail s = _
  rw [execSpllFail, State.onDev, if_pos (by simp [ho, h2])]
  rfl

theorem exec_spllFail_locked {s : State} (ho : s.dev.ownHoldover = false) : exec .spllFail s = .next s := by
  change execSpllFail s = _
  rw [execSpllFail, State.onDev, if_neg (by simp [ho])]

theorem Dev.spllFailed_shown (d : Dev) : d.spllFailed.spll = 7 ∧ d.spllFailed.wr.stopped = true ∧ d.spllFailed.fld F.CLK_STAT_REASON = 0x7004 ∧
    bitOf (d.spllFailed.reg R.HST_ISR0) 18 = true ∧ d.regsBut d.spllFailed (R.CLK_STAT :: irqRegs) ∧
    d.spllFailed = { d with regs := d.spllFailed.regs, out := d.spllFailed.out, wr := { d.wr with stopped := true } } := by
  let e := (d.setSpll 7).setFld F.CLK_STAT_REASON Rsn.spllFail.toNat
  have hregs : d.regsBut e (R.CLK_STAT :: irqRegs) := ((Dev.regsBut.refl d _).setSpll (by simp) 7).setFld (by decide) _
  have hirq : d.regsBut (e.raiseIrq 18) (R.CLK_STAT :: irqRegs) := hregs.raiseIrq (by simp) 18
  refine ⟨?_, rfl, ?_, Dev.isr_raiseIrq e 18 (by decide), hirq, ?_⟩
  · refine (Dev.fld_raiseIrq e 18 F.CLK_STAT_SPLL (by decide) (by decide)).trans ?_
    exact (Dev.fld_setFld_ne (d.setSpll 7) F.CLK_STAT_REASON F.CLK_STAT_SPLL _ (by decide) (by decide)).trans (Dev.spll_setSpll d 7 (by decide))
  · refine (Dev.fld_raiseIrq e 18 F.CLK_STAT_REASON (by decide) (by decide)).trans ?_
    exact Dev.fld_setFld_same (d.setSpll 7) F.CLK_STAT_REASON _ (by decide)
  · have hout := Dev.regs_out_trans (d := d) (e := e) rfl (e.raiseIrq_regs_out_only 18)
    change { e.raiseIrq 18 with wr := { d.wr with stopped := true } } = _
    unfold Dev.spllFailed
    change _ = { d with regs := (e.raiseIrq 18).regs, out := (e.raiseIrq 18).out, wr := { d.wr with stopped := true } }
    generalize e.raiseIrq 18 = f at *
    rw [hout]

/-! ## The lock timeout of a start -/

/-- The start goes on from the holdover oscillator. -/
def Dev.startedHeld (d : Dev) (us : Nat) (r : Reason) : Dev :=
  let e := { d with boot := { d.boot with calDeferred := true } }.enterHoldover r
  (if e.pwr.exiting then e else e.setFld (F.SUP_BOOT_T_COMPLETION 1) (min us 0xFFFFFF)).setPhase (if e.boot.replayed then 4 else 3)

theorem exec_spllLockTimeout (us : Nat) (k : Fin 3) (s : State) : exec (.spllLockTimeout us k) s = .next (s.onDev fun d =>
    if d.phase = 1 ∧ d.boot.role ≠ .worker then d.startedHeld us (monitorReason k) else d) := by
  change execSpllLockTimeout us k s = _
  unfold execSpllLockTimeout State.onDev Dev.startedHeld monitorReason
  dsimp only
  split
  · split <;> simp
  · rfl

theorem Dev.startedHeld_shown (d : Dev) (us : Nat) (r : Reason) : d.InHoldover (d.startedHeld us r) r ∧
    (d.startedHeld us r).boot.calDeferred = true ∧ (d.startedHeld us r).phase = (if d.boot.replayed then 4 else 3) := by
  have hheld : d.InHoldover ({ d with boot := { d.boot with calDeferred := true } }.enterHoldover r) r := by
    obtain ⟨h1, h2, h3, h4, h5, h6, h7, h8, h9, h10⟩ := Dev.inHoldover_enterHoldover { d with boot := { d.boot with calDeferred := true } } r
    exact ⟨h1, h2, h3, h4, h5, h6, h7, h8, h9, h10⟩
  have hboot := Dev.boot_enterHoldover { d with boot := { d.boot with calDeferred := true } } r
  unfold Dev.startedHeld
  dsimp only
  generalize ({ d with boot := { d.boot with calDeferred := true } }.enterHoldover r) = e at *
  have hphase : ∀ (f : Dev) (n : Nat), f.FaultKept (f.setPhase n) := fun f n =>
    ((Dev.FaultKept.refl f).setFld (by decide) (by decide) _).raiseIrq (by decide)
  have htime : e.FaultKept (if e.pwr.exiting then e else e.setFld (F.SUP_BOOT_T_COMPLETION 1) (min us 0xFFFFFF)) := by
    split
    · exact .refl e
    · exact (Dev.FaultKept.refl e).setFld (by decide) (by decide) _
  have hrep : e.boot.replayed = d.boot.replayed := by rw [hboot]
  refine ⟨hheld.kept (htime.trans (hphase _ _)), ?_, ?_⟩
  · rw [(htime.trans (hphase _ _)).boot, hboot]
  · rw [Dev.phase_setPhase _ _ (by split <;> decide), hrep]

/-! ## The decision of the jobs -/

/-- The jobs of this device that are not at their end, in acceptance order. -/
def Dev.ownOpen (d : Dev) : List Job :=
  (d.jobs.filter fun j => j.exec == d.pos && !j.st.terminal).mergeSort fun a b => decide (a.hm ≤ b.hm)

/-- One job at a clock fault (Table CLK-3). -/
def Dev.clockJob (d : Dev) (j : Job) : Dev :=
  if j.active then d.endAs j.hm j.issued Rsn.expClock Rsn.partClock
  else if j.waiting && d.flag F.CLK_CTRL_HO_EXPIRE then d.endJob j.hm { typ := 6, reason := Rsn.expClock, bn := d.now }
  else d

theorem Dev.clockDecide_of_due {d : Dev} (h : d.clk.jobsDue = true) :
    d.clockDecide = d.ownOpen.foldl Dev.clockJob { d with clk := { d.clk with jobsDue := false } } := by
  rw [Dev.clockDecide, if_pos h]; rfl

theorem Dev.clockDecide_of_none {d : Dev} (h : d.clk.jobsDue = false) : d.clockDecide = d := by
  rw [Dev.clockDecide, if_neg (by simp [h])]

theorem Dev.jobsTouched_clockJob (d : Dev) (j : Job) : d.JobsTouched (d.clockJob j) [j.hm] := by
  unfold Dev.clockJob
  split
  · exact d.jobsTouched_endAs _ _ _ _
  · split
    · exact d.jobsTouched_endJob _ _
    · exact .refl d _

theorem Dev.now_clockJob (d : Dev) (j : Job) : (d.clockJob j).now = d.now := by
  unfold Dev.clockJob
  (repeat' split) <;> simp [Dev.now]

theorem Dev.mem_ownOpen {d : Dev} {j : Job} : j ∈ d.ownOpen ↔ j ∈ d.jobs ∧ j.exec = d.pos ∧ j.st.terminal = false := by
  simp [Dev.ownOpen, List.mem_mergeSort]

theorem Dev.nodup_ownOpen {d : Dev} (h : (d.jobs.map Job.hm).Nodup) : (d.ownOpen.map Job.hm).Nodup :=
  (((List.mergeSort_perm _ _).map Job.hm).nodup_iff).2 (h.sublist (List.filter_sublist.map Job.hm))

theorem Job.open_of_active {j : Job} (h : j.active = true) : j.st.terminal = false := by
  unfold Job.active at h
  cases hst : j.st <;> simp_all [JState.terminal]

/-- The outcome of an active job at a clock fault (Table CLK-3). -/
def Job.clockOutcome (j : Job) (bn : Nat) : Outcome :=
  if j.issued then { typ := 5, reason := 0x3006, bn := j.lastBn, d0 := j.partDetail } else { typ := 6, reason := 0x2004, bn := bn }

theorem Dev.clockDecide_ends {d : Dev} (hdue : d.clk.jobsDue = true) (hnd : (d.jobs.map Job.hm).Nodup) {j : Job} (hj : j ∈ d.jobs)
    (hexec : j.exec = d.pos) (hact : j.active = true) (hout : j.out = none) :
    ∃ q ∈ d.clockDecide.jobs, q.hm = j.hm ∧ q.out = some (j.clockOutcome d.now) := by
  have hmem : j ∈ d.ownOpen := Dev.mem_ownOpen.2 ⟨hj, hexec, Job.open_of_active hact⟩
  obtain ⟨e, hnow, hhms, hkept, hlast⟩ := Dev.JobsTouched.foldl_reaches Dev.jobsTouched_clockJob (P := fun e => e.now = d.now)
    (fun e k he => (e.now_clockJob k).trans he) d.ownOpen { d with clk := { d.clk with jobsDue := false } } (Dev.nodup_ownOpen hnd) rfl j hmem
  have hfound : e.job? j.hm = some j := Dev.job?_of_mem (by rw [hhms]; exact hnd) (hkept j hj rfl)
  obtain ⟨q, hq, hend⟩ := Dev.endAs_ends hfound hout j.issued Rsn.expClock Rsn.partClock
  refine ⟨q, ?_, hend.hm, ?_⟩
  · rw [Dev.clockDecide_of_due hdue]
    refine hlast q ?_ hend.hm
    rw [Dev.clockJob, if_pos hact]
    exact hq
  · rw [hend.out, hnow]; rfl

theorem Dev.clockDecide_others {d : Dev} (hdue : d.clk.jobsDue = true) (hnd : (d.jobs.map Job.hm).Nodup) {j : Job} (hj : j ∈ d.jobs)
    (hexec : j.exec ≠ d.pos) : j ∈ d.clockDecide.jobs := by
  rw [Dev.clockDecide_of_due hdue]
  refine (Dev.JobsTouched.foldl Dev.jobsTouched_clockJob d.ownOpen _).mem hj ?_
  exact hm_notMem_of_notMem hnd (fun k hk => (Dev.mem_ownOpen.1 hk).1) hj fun hmem => hexec (Dev.mem_ownOpen.1 hmem).2.1

/-- A command that starts a holdover, as it is stated. -/
theorem Dev.InHoldover.stated {s : State} {e : Dev} {r : Reason} (h : s.dev.InHoldover e r) {c : Instr}
    (hexec : exec c s = .next { s with dev := e }) {Q : Dev → Prop} (hQ : Q e) : ∃ t, exec c s = .next t ∧
    (t.dev.ownHoldover = true ∧ t.dev.flag F.CLK_STAT_LOCKED = false ∧ t.dev.spll = 2 ∧ t.dev.fld F.CLK_STAT_REASON = r.toNat ∧
      t.dev.clk.faultBn = s.dev.now ∧ t.dev.clk.faultDue = true ∧ (∀ k ∈ timingDoms, r ∈ (t.dev.dom k).causes) ∧
      bitOf (t.dev.reg R.HST_ISR0) 18 = true ∧ t.dev.clk.jobsDue = true ∧ t.dev.jobs = s.dev.jobs) ∧ Q t.dev :=
  ⟨_, hexec, ⟨h.own, h.locked, h.spll, h.reason, h.faultBn, h.faultDue, h.causes, h.isr, h.jobsDue, h.jobs⟩, hQ⟩

section
variable {s : State} {k : Fin 3} {x : Bool} (hx : x = false ∨ s.dev.boot.role ≠ .reserve)
  (hsrc : s.dev.flag F.CLK_STAT_RING_SRC = false ∨ s.dev.sideClock = false) (hv : s.dev.pwr.vcore = true) (hp : s.dev.pstate ≠ 5)
include hx hsrc hv hp

theorem exec_clockFault_enters (ho : s.dev.ownHoldover = false) (h1 : s.dev.spll = 1) :
    exec (.clockFault ⟨k, x⟩) s = .next { s with dev := s.dev.enterHoldover (monitorReason k) } := by
  rw [exec_clockFault_core hx, Dev.clockFault_enters hsrc hv hp ho h1]

theorem exec_clockFault_again (ho : s.dev.ownHoldover = true) (h5 : s.dev.spll = 5) :
    exec (.clockFault ⟨k, x⟩) s = .next { s with dev := s.dev.returnLost (monitorReason k) } := by
  rw [exec_clockFault_core hx, Dev.clockFault_again hsrc hv hp ho]
  dsimp only
  rw [if_pos (.inl ((s.dev.spll_unqualified _).trans h5)), Dev.returnLost]

end

theorem exec_clockFault_dark (k : Fin 3) (x : Bool) {s : State} (hv : s.dev.pwr.vcore = false) : exec (.clockFault ⟨k, x⟩) s = .next s := by
  rw [exec_clockFault, State.onDev, if_neg (by simp [hv]), Dev.clockFault_off (.inl hv)]

theorem exec_clockFault_idle {k : Fin 3} {x : Bool} {s : State} (hx : x = false ∨ s.dev.boot.role ≠ .reserve)
    (h : s.dev.pstate = 5 ∨ (s.dev.flag F.CLK_STAT_RING_SRC = true ∧ s.dev.sideClock = true)) : exec (.clockFault ⟨k, x⟩) s = .next s := by
  rw [exec_clockFault_core hx, Dev.clockFault_off (.inr h)]

theorem exec_clockFault_reserve (k : Fin 3) {s : State} (hres : s.dev.boot.role = .reserve) (hv : s.dev.pwr.vcore = true) :
    exec (.clockFault ⟨k, true⟩) s = .next { s with dev := s.dev.refFault (monitorReason k) } := by
  rw [exec_clockFault, State.onDev, if_pos (by simp [hres, hv])]

/-- What the loss of a reserve's own reference shows (R211). -/
theorem Dev.refFault_shown (d : Dev) (k : Fin 3) : (d.refFault (monitorReason k)).ownHoldover = d.ownHoldover ∧
    (d.refFault (monitorReason k)).spll = d.spll ∧ (k.val ≠ 2 → (d.refFault (monitorReason k)).flag F.CLK_STAT_REF_QUAL = false) ∧
    (k.val = 0 → (d.refFault (monitorReason k)).flag F.CLK_STAT_REF_PRESENT = false) ∧
    d.regsBut (d.refFault (monitorReason k)) [R.CLK_STAT] := by
  refine ⟨?_, d.fld_refFault_ne _ (by decide) (.inr (.inr (by decide))), fun hk => d.refQual_refFault ?_, fun hk => ?_, d.regsBut_refFault _⟩
  · rw [Dev.ownHoldover, Dev.flag, d.fld_refFault_ne _ (by decide) (.inr (.inl (by decide)))]; rfl
  · match k, hk with
    | 0, _ => decide
    | 1, _ => decide
    | 2, h => exact absurd rfl h
  · obtain rfl : k = 0 := Fin.ext hk
    exact d.refPresent_refFault

theorem exec_spllLockTimeout_start (us : Nat) (k : Fin 3) {s : State} (h1 : s.dev.phase = 1) (hw : s.dev.boot.role ≠ .worker) :
    exec (.spllLockTimeout us k) s = .next { s with dev := s.dev.startedHeld us (monitorReason k) } := by
  rw [exec_spllLockTimeout, State.onDev, if_pos ⟨h1, hw⟩]

theorem exec_spllLockTimeout_late (us : Nat) (k : Fin 3) {s : State} (h : s.dev.phase ≠ 1 ∨ s.dev.boot.role = .worker) :
    exec (.spllLockTimeout us k) s = .next s := by
  rw [exec_spllLockTimeout, State.onDev, if_neg]
  rcases h with h | h <;> simp [h]

/-- Settles O30: the start of a holdover shows and fences what it must, and the end of the beat decides each job of the device. -/
theorem clockFaultEntersHoldover : Obligations.ClockFaultEntersHoldover := by
  unfold Obligations.ClockFaultEntersHoldover
  intro s
  dsimp only
  refine ⟨fun k x hx hsrc hv hp => ⟨fun ho h1 => ?enter, fun ho h5 => ?again⟩, fun k x => exec_clockFault_dark k x,
    fun k x => exec_clockFault_idle, fun k hres hv => ?reserve, fun us k h1 hw => ?timeout, fun us k => exec_spllLockTimeout_late us k,
    fun ho h2 => ?fail, exec_spllFail_locked, Dev.clockDecide_of_none, fun hdue hnd =>
      ⟨fun j hj hexec hact hout => Dev.clockDecide_ends hdue hnd hj hexec hact hout, fun j hj hexec => Dev.clockDecide_others hdue hnd hj hexec⟩⟩
  case enter =>
    obtain ⟨t, hexec, hheld, -⟩ := (s.dev.inHoldover_enterHoldover (monitorReason k)).stated (exec_clockFault_enters hx hsrc hv hp ho h1)
      (Q := fun _ => True) trivial
    exact ⟨t, hexec, monitorReason_eq k ▸ hheld⟩
  case again =>
    have hexec := exec_clockFault_again (k := k) hx hsrc hv hp ho h5
    obtain ⟨hspll, hown, hqual, hisr, hregs⟩ := s.dev.returnLost_shown (monitorReason k)
    have hframe := s.dev.returnLost_frame (monitorReason k)
    generalize s.dev.returnLost (monitorReason k) = e at *
    exact ⟨_, hexec, hspll, hown.trans ho, hqual, hisr, hregs, congrArg (fun d : Dev => { s with dev := d }) hframe⟩
  case reserve =>
    have hexec := exec_clockFault_reserve k hres hv
    obtain ⟨hown, hspll, hqual, hpresent, hregs⟩ := s.dev.refFault_shown k
    have hframe := s.dev.refFault_regs_only (monitorReason k)
    generalize s.dev.refFault (monitorReason k) = e at *
    exact ⟨_, hexec, hown, hspll, hqual, hpresent, hregs, congrArg (fun d : Dev => { s with dev := d }) hframe⟩
  case timeout =>
    obtain ⟨hheld, hshown⟩ := s.dev.startedHeld_shown us (monitorReason k)
    obtain ⟨t, hexec, ht, hcal, hphase⟩ := hheld.stated (exec_spllLockTimeout_start us k h1 hw)
      (Q := fun e => e.boot.calDeferred = true ∧ e.phase = if s.dev.boot.replayed then 4 else 3) hshown
    exact ⟨t, hexec, monitorReason_eq k ▸ ht, hcal, hphase⟩
  case fail =>
    have hexec := exec_spllFail_held ho h2
    obtain ⟨hspll, hstop, hreason, hisr, hregs, hframe⟩ := s.dev.spllFailed_shown
    generalize s.dev.spllFailed = e at *
    exact ⟨_, hexec, hspll, hstop, hreason, hisr, hregs, congrArg (fun d : Dev => { s with dev := d }) hframe⟩

end Sys2Proof.Machine
end

section

/-!
PROOF. The registers that the end of a job writes, and the interlock (10_precision_outputs.md R501, R504 to R506, R513).
-/

namespace Sys2Proof.Machine
open Sys2Proof

/-! ## The registers that the end of a job writes -/

/-- The transition counters of the outputs. -/
def edgeRegs : List Nat := (List.range 32).map R.PO_EDGECNT

/-- The registers of the tallies. -/
def talRegs : List Nat := (List.range 32).map R.TAL_LAST ++ (List.range 32).map R.TAL_STAT ++ (List.range 32).map R.TAL_GAPCNT

/-- The registers that the end of a job may write. -/
def endRegs : List Nat := edgeRegs ++ talRegs ++ (List.range 16).map R.SP_SBRD

theorem mem_edgeRegs (n : Nat) : R.PO_EDGECNT n ∈ edgeRegs :=
  List.mem_map.2 ⟨n % 32, List.mem_range.2 (Nat.mod_lt _ (by decide)), by simp only [R.PO_EDGECNT, Nat.mod_mod]⟩

theorem mem_talRegs (n : Nat) : R.TAL_LAST n ∈ talRegs ∧ R.TAL_STAT n ∈ talRegs ∧ R.TAL_GAPCNT n ∈ talRegs := by
  have hn : n % 32 ∈ List.range 32 := List.mem_range.2 (Nat.mod_lt _ (by decide))
  refine ⟨?_, ?_, ?_⟩
  · exact List.mem_append_left _ (List.mem_append_left _ (List.mem_map.2 ⟨n % 32, hn, by simp only [R.TAL_LAST, Nat.mod_mod]⟩))
  · exact List.mem_append_left _ (List.mem_append_right _ (List.mem_map.2 ⟨n % 32, hn, by simp only [R.TAL_STAT, Nat.mod_mod]⟩))
  · exact List.mem_append_right _ (List.mem_map.2 ⟨n % 32, hn, by simp only [R.TAL_GAPCNT, Nat.mod_mod]⟩)

theorem edgeRegs_subset_endRegs : edgeRegs ⊆ endRegs := fun _ h => List.mem_append_left _ (List.mem_append_left _ h)

theorem talRegs_subset_endRegs : talRegs ⊆ endRegs := fun _ h => List.mem_append_left _ (List.mem_append_right _ h)

theorem mem_endRegs_sbrd (n : Nat) : R.SP_SBRD n ∈ endRegs :=
  List.mem_append_right _ (List.mem_map.2 ⟨n % 16, List.mem_range.2 (Nat.mod_lt _ (by decide)), by simp only [R.SP_SBRD, Nat.mod_mod]⟩)

/-- The registers of the job ends lie above the others, but for those of the outputs. -/
theorem notMem_endRegs_of {a : Nat} (h : a < 0x50000) (he : ∀ n, a ≠ R.PO_EDGECNT n) : a ∉ endRegs := by
  simp only [endRegs, edgeRegs, talRegs, List.mem_append, List.mem_map, List.mem_range, R.TAL_LAST, R.TAL_STAT, R.TAL_GAPCNT, R.SP_SBRD]
  rintro (((⟨n, -, hn⟩ | (⟨n, -, hn⟩ | ⟨n, -, hn⟩) | ⟨n, -, hn⟩)) | ⟨n, -, hn⟩)
  · exact he n hn.symm
  all_goals omega

theorem Dev.outTrans_regs_out_only (d : Dev) (n : Nat) (was : Option Bool) :
    d.outTrans n was = { d with regs := (d.outTrans n was).regs, out := (d.outTrans n was).out } := by
  unfold Dev.outTrans
  (repeat' split) <;> rfl

theorem Dev.regsBut_outTrans_edge (d : Dev) (n : Nat) (was : Option Bool) : d.regsBut (d.outTrans n was) [R.PO_EDGECNT n] := by
  unfold Dev.outTrans
  split
  · split
    · exact .refl d _
    · exact (Dev.regsBut.of_regs rfl _).setFld (f := F.PO_EDGECNT_TRANSITIONS n) (List.mem_singleton_self _) _
  · exact .refl d _

theorem Dev.regsBut_outTrans (d : Dev) (n : Nat) (was : Option Bool) : d.regsBut (d.outTrans n was) edgeRegs :=
  (d.regsBut_outTrans_edge n was).mono (by simpa using mem_edgeRegs n)

theorem Dev.regsBut_closeTallies (d : Dev) (j : Job) (c : Bool) : d.regsBut (d.closeTallies j c) talRegs := by
  refine .foldl (fun d tv => ?_) _ d
  obtain ⟨hlast, hstat, hgap⟩ := mem_talRegs tv.1
  dsimp only
  split
  · exact .refl d _
  · split
    · split
      · exact ((Dev.regsBut.of_regs rfl _).setNum hlast _).setFlag hstat true
      · exact .of_regs rfl _
    · exact (Dev.regsBut.of_regs rfl _).addSat hgap 1

theorem Dev.regsBut_releaseLanes (d : Dev) (h : Nat) : d.regsBut (d.releaseLanes h) edgeRegs := by
  refine .trans (Dev.regsBut.of_regs rfl _) (.foldl (fun d n => ?_) _ { d with po := { d.po with queue := d.po.queue.filter (fun l => l.hm != h) } })
  dsimp only
  split
  · exact .refl d _
  · split <;> exact .trans (Dev.regsBut.of_regs rfl _) (Dev.regsBut_outTrans _ _ _)

theorem Dev.regsBut_releaseGranules (d : Dev) (j : Job) : d.regsBut (d.releaseGranules j) endRegs := by
  refine .foldl (fun d p => ?_) _ d
  dsimp only
  split
  · exact .refl d _
  · split
    · exact (Dev.regsBut.refl d _).setNum (mem_endRegs_sbrd p.sp) _
    · exact .refl d _

theorem Dev.regsBut_jobReleased (d : Dev) (j : Job) (o : Outcome) : d.regsBut (d.jobReleased j o) endRegs := by
  let e := d.modJob j.hm (Job.ended o)
  have hclosed : d.regsBut (e.closeTallies j (o.typ != 6)) endRegs :=
    (Dev.regsBut.of_regs rfl _).trans ((e.regsBut_closeTallies _ _).mono talRegs_subset_endRegs)
  have hlanes := hclosed.trans ((Dev.regsBut_releaseLanes (e.closeTallies j (o.typ != 6)) j.hm).mono edgeRegs_subset_endRegs)
  exact (hlanes.trans (Dev.regsBut_releaseGranules _ j)).trans (.of_regs rfl _)

theorem Dev.regsBut_endJob (d : Dev) (h : Nat) (o : Outcome) : d.regsBut (d.endJob h o) endRegs := by
  cases hj : d.job? h with
  | none => rw [Dev.endJob_of_none hj]; exact .refl d _
  | some j =>
    cases hout : j.out with
    | some _ => rw [Dev.endJob_of_decided hj (by rw [hout]; rfl)]; exact .refl d _
    | none =>
      have hrel := d.regsBut_jobReleased j o
      rcases Dev.endJob_of_open hj hout o with he | he <;> rw [he]
      · exact hrel
      · exact hrel.trans (.of_regs (Dev.regs_reportEnd _ h) _)

theorem Dev.regsBut_endAs (d : Dev) (h : Nat) (part : Bool) (re rp : Reason) : d.regsBut (d.endAs h part re rp) endRegs := by
  cases hj : d.job? h with
  | none => simp only [Dev.endAs, hj]; exact .refl d _
  | some j => rw [Dev.endAs_of_job hj]; exact d.regsBut_endJob _ _

/-! ## What the end of a job leaves of the outputs -/

theorem Dev.po_reportEnd (d : Dev) (h : Nat) : (d.reportEnd h).po = d.po := by
  unfold Dev.reportEnd
  (repeat' split)
  case h_2.isFalse =>
    dsimp only
    split
    · rw [Dev.bulkPut_frame, Dev.report_items_only]; rfl
    · rw [Dev.report_items_only]; rfl
  all_goals rfl

theorem poCfg_notMem_endRegs (n : Nat) : R.PO_CFG n ∉ endRegs :=
  notMem_endRegs_of (by simp only [R.PO_CFG]; omega) fun m => by simp only [R.PO_CFG, R.PO_EDGECNT]; omega

theorem Dev.po_outTrans (d : Dev) (n : Nat) (was : Option Bool) : (d.outTrans n was).po = d.po := by rw [Dev.outTrans_regs_out_only]

theorem Dev.outSt_setOut (d : Dev) (n : Nat) (o : OutSt) (k : Nat) : (d.setOut n o).outSt k = if k = n then o else d.outSt k := by
  rw [Dev.outSt, Dev.setOut]
  exact mget_mset _ _ _ _ _

/-- What the end of a job may do to an output: some of its holders leave it, and with the last one its cap. -/
structure OutSt.Released (o o' : OutSt) : Prop where
  safe : o'.safe = o.safe
  holders : o'.holders ⊆ o.holders
  capped : o'.holders ≠ [] → o'.capped = o.capped

theorem OutSt.Released.refl (o : OutSt) : o.Released o := ⟨rfl, fun _ h => h, fun _ => rfl⟩

theorem OutSt.Released.trans {o p q : OutSt} (h : o.Released p) (h' : p.Released q) : o.Released q :=
  ⟨h'.safe.trans h.safe, fun _ hx => h.holders (h'.holders hx), fun hne => (h'.capped hne).trans (h.capped fun hnil => hne
    (List.eq_nil_iff_forall_not_mem.2 fun _ hx => List.not_mem_nil (hnil ▸ h'.holders hx)))⟩

/-- The outputs of a device after holders left some of them. -/
structure Dev.OutsReleased (d e : Dev) : Prop where
  outs : ∀ n, (d.outSt n).Released (e.outSt n)
  ilkLow : e.po.ilkLow = d.po.ilkLow
  acting : e.po.acting = d.po.acting
  beatDue : e.po.beatDue = d.po.beatDue

namespace Dev.OutsReleased
variable {d e f : Dev}

theorem of_po (h : e.po = d.po) : d.OutsReleased e :=
  ⟨fun n => by rw [Dev.outSt, Dev.outSt, h]; exact .refl _, by rw [h], by rw [h], by rw [h]⟩

theorem refl (d : Dev) : d.OutsReleased d := of_po rfl

theorem trans (h : d.OutsReleased e) (h' : e.OutsReleased f) : d.OutsReleased f :=
  ⟨fun n => (h.outs n).trans (h'.outs n), h'.ilkLow.trans h.ilkLow, h'.acting.trans h.acting, h'.beatDue.trans h.beatDue⟩

theorem setOut (d : Dev) {n : Nat} {o : OutSt} (h : (d.outSt n).Released o) : d.OutsReleased (d.setOut n o) := by
  refine ⟨fun k => ?_, rfl, rfl, rfl⟩
  rw [Dev.outSt_setOut]
  split
  case isTrue hk => rw [hk]; exact h
  case isFalse => exact .refl _

theorem foldl {A : Type} {step : Dev → A → Dev} (hs : ∀ d a, Dev.OutsReleased d (step d a)) (l : List A) :
    ∀ d : Dev, d.OutsReleased (l.foldl step d) := by
  induction l with
  | nil => exact .refl
  | cons a l ih => exact fun d => (hs d a).trans (ih _)

/-- An output that is inactive stays so when holders leave. -/
theorem outActive (h : d.OutsReleased e) {n : Nat} (hr : e.reg (R.PO_CFG n) = d.reg (R.PO_CFG n)) (ha : d.outActive n = false) :
    e.outActive n = false := by
  obtain ⟨hsafe, hholders, hcap⟩ := h.outs n
  have hsame : e.outSafe n = d.outSafe n := by
    unfold Dev.outSafe Dev.flag Dev.fld
    rw [hsafe, h.ilkLow, h.acting, show (F.PO_CFG_EN n).a = R.PO_CFG n from rfl, hr]
  unfold Dev.outActive at ha ⊢
  rw [hsame]
  by_cases hnil : (e.outSt n).holders = []
  · simp [hnil]
  · have hne : (d.outSt n).holders ≠ [] := fun hd => hnil (List.eq_nil_iff_forall_not_mem.2 fun x hx =>
      List.not_mem_nil (hd ▸ hholders hx))
    rw [hcap hnil]
    simpa [hne, hnil] using ha

end Dev.OutsReleased

theorem Dev.outsReleased_releaseLanes (d : Dev) (h : Nat) : d.OutsReleased (d.releaseLanes h) := by
  unfold Dev.releaseLanes
  refine .trans (e := { d with po := { d.po with queue := d.po.queue.filter (fun l => l.hm != h) } })
    ⟨fun n => .refl _, rfl, rfl, rfl⟩ (.foldl (fun d n => ?_) _ _)
  have hsub : (d.outSt n).holders.filter (fun x => x.1 != h) ⊆ (d.outSt n).holders := List.filter_subset_self _
  dsimp only
  split
  · exact .refl d
  · split
    · refine .trans (.setOut d (n := n) ?_) (.of_po (Dev.po_outTrans _ _ _))
      exact ⟨rfl, List.nil_subset _, fun hn => absurd rfl hn⟩
    · refine .trans (.setOut d (n := n) ?_) (.of_po (Dev.po_outTrans _ _ _))
      exact ⟨rfl, hsub, fun _ => rfl⟩

theorem Dev.outsReleased_jobReleased (d : Dev) (j : Job) (o : Outcome) : d.OutsReleased (d.jobReleased j o) := by
  let e := d.modJob j.hm (Job.ended o)
  have hclosed : d.OutsReleased (e.closeTallies j (o.typ != 6)) := .of_po (by simp [e])
  have hlanes := hclosed.trans (Dev.outsReleased_releaseLanes (e.closeTallies j (o.typ != 6)) j.hm)
  have hgran := hlanes.trans (.of_po (by simp) : Dev.OutsReleased _ (((e.closeTallies j (o.typ != 6)).releaseLanes j.hm).releaseGranules j))
  exact hgran.trans (.of_po rfl)

theorem Dev.outsReleased_endJob (d : Dev) (h : Nat) (o : Outcome) : d.OutsReleased (d.endJob h o) := by
  cases hj : d.job? h with
  | none => rw [Dev.endJob_of_none hj]; exact .refl d
  | some j =>
    cases hout : j.out with
    | some _ => rw [Dev.endJob_of_decided hj (by rw [hout]; rfl)]; exact .refl d
    | none =>
      have hrel := d.outsReleased_jobReleased j o
      rcases Dev.endJob_of_open hj hout o with he | he <;> rw [he]
      · exact hrel.trans (.of_po rfl)
      · exact hrel.trans (.trans (.of_po rfl) (.of_po (Dev.po_reportEnd ((d.jobReleased j o).armedDropped h) h)))

theorem Dev.outsReleased_endAs (d : Dev) (h : Nat) (part : Bool) (re rp : Reason) : d.OutsReleased (d.endAs h part re rp) := by
  cases hj : d.job? h with
  | none => simp only [Dev.endAs, hj]; exact .refl d
  | some j => rw [Dev.endAs_of_job hj]; exact d.outsReleased_endJob _ _

/-! ## ILK_L falls -/

/-- Transitions of several outputs, each from the level it had. -/
def Dev.outsTrans (d : Dev) (l : List (Nat × Option Bool)) : Dev := l.foldl (fun d x => d.outTrans x.1 x.2) d

theorem Dev.outsTrans_regs_out_only (l : List (Nat × Option Bool)) :
    ∀ d : Dev, d.outsTrans l = { d with regs := (d.outsTrans l).regs, out := (d.outsTrans l).out } := by
  induction l with
  | nil => exact fun d => rfl
  | cons x l ih => exact fun d => Dev.regs_out_trans (d.outTrans_regs_out_only x.1 x.2) (ih _)

theorem Dev.regsBut_outsTrans (d : Dev) (l : List (Nat × Option Bool)) : d.regsBut (d.outsTrans l) edgeRegs :=
  .foldl (fun d _ => d.regsBut_outTrans _ _) _ d

/-- The pin levels of the outputs. -/
def Dev.pinLevels (d : Dev) : List (Nat × Option Bool) := (List.range 32).map fun n => (n, d.outPin n)

/-- ILK_L low: the interlock acts. -/
def Dev.ilkActs (d : Dev) : Dev := { d with po := { d.po with ilkLow := true, acting := true, beatDue := d.po.beatDue || !d.po.acting } }

/-- The interlock shown. -/
def Dev.ilkShown (d : Dev) : Dev :=
  (((d.ilkActs.outsTrans d.pinLevels).asIlk.setFlag F.PO_ILKSTAT_ILK_L true).setFlag F.PO_ILKSTAT_ACTING true).setFlag F.PO_ILKSTAT_RELEASING false

theorem Dev.ilkFall_eq (d : Dev) : d.ilkFall =
    if !d.po.acting then (List.range 16).foldl (fun d p => d.hpAbort p) d.ilkShown else d.ilkShown := rfl

/-- What ABORT on the head ports leaves of the interlock, and of the end of each job. -/
structure Dev.EndsKept (d e : Dev) : Prop where
  po : e.po = d.po
  stat : e.reg R.PO_ILKSTAT = d.reg R.PO_ILKSTAT
  ends : e.jobs.map (fun j => (j.hm, j.st, j.out)) = d.jobs.map (fun j => (j.hm, j.st, j.out))

theorem Dev.EndsKept.refl (d : Dev) : d.EndsKept d := ⟨rfl, rfl, rfl⟩

theorem Dev.EndsKept.trans {d e f : Dev} (h : d.EndsKept e) (h' : e.EndsKept f) : d.EndsKept f :=
  ⟨h'.po.trans h.po, h'.stat.trans h.stat, h'.ends.trans h.ends⟩

theorem Dev.endsKept_hpCut (d : Dev) (p : Nat) (r : Option Reason) : d.EndsKept (d.hpCut p r) where
  po := by simp
  stat := Dev.reg_congr (by simp) _
  ends := by
    unfold Dev.hpCut
    dsimp only
    rw [List.map_map]
    refine List.map_congr_left fun j _ => ?_
    dsimp only [Function.comp]
    split <;> rfl

theorem Dev.endsKept_aborting (d : Dev) (p : Nat) : d.EndsKept (d.setFlag (F.HP_STAT_ABORTING p) true) :=
  ⟨by simp, Dev.reg_setFlag_ne _ _ _ _ (by change R.PO_ILKSTAT ≠ R.HP_STAT p; unfold R.PO_ILKSTAT R.HP_STAT; omega), by simp⟩

theorem Dev.endsKept_hpAbort (d : Dev) (p : Nat) : d.EndsKept (d.hpAbort p) := by
  unfold Dev.hpAbort
  dsimp only
  split
  · exact .refl d
  · split
    · exact .trans (e := d.emit (.abort p)) ⟨rfl, rfl, rfl⟩ (Dev.endsKept_aborting _ p)
    · refine .trans (.trans (.trans (d.endsKept_hpCut p none) (f := (d.hpCut p none).emit (.abort p)) ⟨rfl, rfl, rfl⟩)
        (Dev.endsKept_aborting _ p)) ⟨rfl, rfl, rfl⟩

theorem Dev.endsKept_ilkFall (d : Dev) : d.ilkShown.EndsKept d.ilkFall := by
  rw [Dev.ilkFall_eq]
  split
  · generalize d.ilkShown = e
    generalize List.range 16 = l
    induction l generalizing e with
    | nil => exact .refl e
    | cons p l ih => exact (e.endsKept_hpAbort p).trans (ih _)
  · exact .refl _

theorem Dev.asIlk_pinFrame (d : Dev) : d.pinFrame d.asIlk := d.pinFrame_ckEach _

theorem Dev.ilkShown_keeps (d : Dev) : d.ilkShown.po = d.ilkActs.po ∧ d.ilkShown.jobs = d.jobs := by
  have hpins := (d.ilkActs.outsTrans d.pinLevels).asIlk_pinFrame
  have htrans := d.ilkActs.outsTrans_regs_out_only d.pinLevels
  unfold Dev.pinFrame at hpins
  unfold Dev.ilkShown
  generalize (d.ilkActs.outsTrans d.pinLevels).asIlk = e at *
  generalize d.ilkActs.outsTrans d.pinLevels = f at *
  rw [hpins, htrans]
  exact ⟨rfl, rfl⟩

theorem Dev.ilkShown_flags (d : Dev) : d.ilkShown.flag F.PO_ILKSTAT_ILK_L = true ∧ d.ilkShown.flag F.PO_ILKSTAT_ACTING = true ∧
    d.ilkShown.flag F.PO_ILKSTAT_RELEASING = false := by
  unfold Dev.ilkShown
  refine ⟨?_, ?_, Dev.flag_setFlag_same _ _ _ (by decide) rfl⟩
  · rw [Dev.flag_setFlag_ne _ _ _ _ (by decide) (by decide), Dev.flag_setFlag_ne _ _ _ _ (by decide) (by decide),
      Dev.flag_setFlag_same _ _ _ (by decide) rfl]
  · rw [Dev.flag_setFlag_ne _ _ _ _ (by decide) (by decide), Dev.flag_setFlag_same _ _ _ (by decide) rfl]

/-- ILK_L low, as it is stated. -/
theorem Dev.ilkFall_shown (d : Dev) : d.ilkFall.po = d.ilkActs.po ∧ d.ilkFall.flag F.PO_ILKSTAT_ILK_L = true ∧
    d.ilkFall.flag F.PO_ILKSTAT_ACTING = true ∧ d.ilkFall.flag F.PO_ILKSTAT_RELEASING = false ∧
    d.ilkFall.jobs.map (fun j => (j.hm, j.st, j.out)) = d.jobs.map (fun j => (j.hm, j.st, j.out)) := by
  obtain ⟨hpo, hstat, hends⟩ := d.endsKept_ilkFall
  obtain ⟨spo, sjobs⟩ := d.ilkShown_keeps
  have hflag : ∀ f : Fld, f.a = R.PO_ILKSTAT → d.ilkFall.flag f = d.ilkShown.flag f := fun f hf => by
    rw [Dev.flag, Dev.fld, hf, hstat, ← hf]; rfl
  obtain ⟨hlow, hact, hrel⟩ := d.ilkShown_flags
  exact ⟨hpo.trans spo, (hflag _ rfl).trans hlow, (hflag _ rfl).trans hact, (hflag _ rfl).trans hrel, by rw [hends, sjobs]⟩

theorem Dev.outActive_of_ilkLow {d : Dev} (h : d.po.ilkLow = true) (n : Nat) : d.outActive n = false := by
  simp [Dev.outActive, Dev.outSafe, h]

/-! ## The interlock beat -/

/-- The active jobs of this device. -/
def Dev.ownActive (d : Dev) : List Job := d.jobs.filter fun j => j.active && j.exec == d.pos

/-- One job at the interlock beat (R506). -/
def Dev.ilkJob (d : Dev) (h : Nat × Bool) : Dev := d.endAs h.1 h.2 Rsn.expInterlock Rsn.partInterlock

/-- The interlock beat counted. -/
def Dev.ilkCounted (d : Dev) : Dev := { d with po := { d.po with beatDue := false } }.addSat F.PO_ILKCNT_INTERLOCK 1

theorem Dev.pos_ilkCounted (d : Dev) : d.ilkCounted.pos = d.pos := by
  have hrcode : d.ilkCounted.fld F.SUP_RCODE_POSN = d.fld F.SUP_RCODE_POSN :=
    ((Dev.regsBut.of_regs (e := { d with po := { d.po with beatDue := false } }) rfl _).addSat (List.mem_singleton_self _) 1).fld (by decide)
  unfold Dev.pos
  rw [hrcode]; rfl

theorem Dev.ilkBeat_of_due {d : Dev} (h : d.po.beatDue = true) :
    d.ilkBeat = (d.ownActive.map fun j => (j.hm, j.placed || j.colsPlayed != 0)).foldl Dev.ilkJob d.ilkCounted := by
  have hown : d.ilkCounted.ownActive = d.ownActive := by
    unfold Dev.ownActive; rw [Dev.pos_ilkCounted]; rfl
  rw [Dev.ilkBeat, if_pos h, ← hown]
  rfl

theorem Dev.ilkBeat_of_none {d : Dev} (h : d.po.beatDue = false) : d.ilkBeat = d := by
  rw [Dev.ilkBeat, if_neg (by simp [h])]

theorem Dev.mem_ownActive {d : Dev} {j : Job} : j ∈ d.ownActive ↔ j ∈ d.jobs ∧ j.active = true ∧ j.exec = d.pos := by
  simp [Dev.ownActive]

theorem Dev.jobsTouched_ilkJob (d : Dev) (h : Nat × Bool) : d.JobsTouched (d.ilkJob h) [h.1] := d.jobsTouched_endAs _ _ _ _

theorem Dev.ilkKeys (d : Dev) :
    (d.ownActive.map fun j => (j.hm, j.placed || j.colsPlayed != 0)).map Prod.fst = d.ownActive.map Job.hm := by
  rw [List.map_map]; rfl

/-- An active job of the device ends at the interlock beat. -/
theorem Dev.ilkBeat_ends {d : Dev} (hdue : d.po.beatDue = true) (hnd : (d.jobs.map Job.hm).Nodup) {j : Job} (hj : j ∈ d.jobs)
    (hact : j.active = true) (hexec : j.exec = d.pos) (hout : j.out = none) :
    ∃ k ∈ d.ilkBeat.jobs, k.hm = j.hm ∧ k.out = some (if j.placed || j.colsPlayed != 0 then
      { typ := 5, reason := 0x3008, bn := j.lastBn, d0 := j.partDetail } else { typ := 6, reason := 0x2007, bn := d.now }) := by
  have hmem : (j.hm, j.placed || j.colsPlayed != 0) ∈ d.ownActive.map fun j => (j.hm, j.placed || j.colsPlayed != 0) :=
    List.mem_map_of_mem (Dev.mem_ownActive.2 ⟨hj, hact, hexec⟩)
  have hkeys : ((d.ownActive.map fun j => (j.hm, j.placed || j.colsPlayed != 0)).map Prod.fst).Nodup := by
    rw [Dev.ilkKeys]; exact hnd.sublist (List.filter_sublist.map Job.hm)
  obtain ⟨e, hnow, hhms, hkept, hlast⟩ := Dev.JobsTouched.foldl_reaches Dev.jobsTouched_ilkJob (P := fun e => e.now = d.now)
    (fun e h he => (by simp [Dev.ilkJob, Dev.now] : (e.ilkJob h).now = e.now).trans he) _ d.ilkCounted hkeys rfl _ hmem
  have hfound : e.job? j.hm = some j := Dev.job?_of_mem (by rw [hhms]; exact hnd) (hkept j hj rfl)
  obtain ⟨q, hq, hend⟩ := Dev.endAs_ends hfound hout (j.placed || j.colsPlayed != 0) Rsn.expInterlock Rsn.partInterlock
  refine ⟨q, ?_, hend.hm, ?_⟩
  · rw [Dev.ilkBeat_of_due hdue]
    exact hlast q hq hend.hm
  · rw [hend.out, hnow]; rfl

theorem Dev.ilkBeat_others {d : Dev} (hdue : d.po.beatDue = true) (hnd : (d.jobs.map Job.hm).Nodup) {j : Job} (hj : j ∈ d.jobs)
    (h : j.active = false ∨ j.exec ≠ d.pos) : j ∈ d.ilkBeat.jobs := by
  rw [Dev.ilkBeat_of_due hdue]
  refine (Dev.JobsTouched.foldl Dev.jobsTouched_ilkJob _ d.ilkCounted).mem hj ?_
  rw [Dev.ilkKeys]
  refine hm_notMem_of_notMem hnd (fun k hk => (Dev.mem_ownActive.1 hk).1) hj fun hmem => ?_
  obtain ⟨-, hact, hexec⟩ := Dev.mem_ownActive.1 hmem
  rcases h with h | h
  · exact Bool.noConfusion (h.symm.trans hact)
  · exact h hexec

/-- The interlock beat itself is done and counted. -/
theorem Dev.ilkBeat_counts {d : Dev} (hdue : d.po.beatDue = true) : d.ilkBeat.po.beatDue = false ∧
    d.ilkBeat.fld F.PO_ILKCNT_INTERLOCK = satAdd 16 (d.fld F.PO_ILKCNT_INTERLOCK) 1 := by
  have hcnt : (F.PO_ILKCNT_INTERLOCK).a ∉ endRegs := notMem_endRegs_of (by decide) fun n => by
    change R.PO_ILKCNT ≠ R.PO_EDGECNT n
    unfold R.PO_ILKCNT R.PO_EDGECNT
    omega
  rw [Dev.ilkBeat_of_due hdue]
  generalize (d.ownActive.map fun j => (j.hm, j.placed || j.colsPlayed != 0)) = l
  have hregs : d.ilkCounted.regsBut (l.foldl Dev.ilkJob d.ilkCounted) endRegs := .foldl (fun e h => e.regsBut_endAs _ _ _ _) _ _
  have houts : d.ilkCounted.OutsReleased (l.foldl Dev.ilkJob d.ilkCounted) := .foldl (fun e h => e.outsReleased_endAs _ _ _ _) _ _
  refine ⟨houts.beatDue, (hregs.fld hcnt).trans ?_⟩
  exact Dev.fld_addSat_same { d with po := { d.po with beatDue := false } } (f := F.PO_ILKCNT_INTERLOCK) (by decide) 1

/-! ## ILK_L rises -/

/-- ILK_L high at the pin, with the restart of R250 counted from its rise. -/
def Dev.ilkRisen (d : Dev) (b : Nat) : Dev :=
  if d.po.ilkLow then { d with po := { d.po with ilkLow := false } }.asIlkRelease b else d

theorem exec_ilkRelease (b : Nat) (s : State) : exec (.ilkRelease b) s = .next (s.onDev fun d =>
    if !d.po.acting then d
    else if (d.ilkRisen b).fld F.PO_ILKREL_RELEASE ≤ b then { (d.ilkRisen b).ilkEnd with pwr := { (d.ilkRisen b).pwr with bindBn := (d.ilkRisen b).now } }
    else ((d.ilkRisen b).setFlag F.PO_ILKSTAT_ILK_L false).setFlag F.PO_ILKSTAT_RELEASING true) := rfl

theorem Dev.ilkRisen_frame (d : Dev) (b : Nat) : d.ilkRisen b =
    { d with po := { d.po with ilkLow := false }, clk := { d.clk with syncAt := (d.ilkRisen b).clk.syncAt } } := by
  unfold Dev.ilkRisen
  by_cases h : d.po.ilkLow = true
  · rw [if_pos h]
    unfold Dev.asIlkRelease
    split <;> rfl
  · rw [if_neg h]
    rw [Bool.not_eq_true] at h
    have hpo : d.po = { d.po with ilkLow := false } := by rw [← h]
    rw [← hpo]

theorem Dev.ilkRisen_release (d : Dev) (b : Nat) : (d.ilkRisen b).fld F.PO_ILKREL_RELEASE = d.fld F.PO_ILKREL_RELEASE := by
  rw [Dev.ilkRisen_frame]; rfl

/-- The interlock no longer acts. -/
def Dev.ilkIdle (d : Dev) : Dev := { d with po := { d.po with ilkLow := false, acting := false } }

theorem Dev.ilkEnd_eq (d : Dev) : d.ilkEnd =
    (((d.ilkIdle.outsTrans d.pinLevels).setFlag F.PO_ILKSTAT_ILK_L false).setFlag F.PO_ILKSTAT_ACTING false).setFlag F.PO_ILKSTAT_RELEASING
      false := rfl

theorem Dev.ilkEnd_frame (d : Dev) :
    d.ilkEnd = { d with regs := d.ilkEnd.regs, out := d.ilkEnd.out, po := { d.po with ilkLow := false, acting := false } } := by
  have htrans := d.ilkIdle.outsTrans_regs_out_only d.pinLevels
  rw [Dev.ilkEnd_eq]
  generalize d.ilkIdle.outsTrans d.pinLevels = e at *
  rw [htrans]; rfl

theorem Dev.ilkEnd_flags (d : Dev) : d.ilkEnd.flag F.PO_ILKSTAT_ILK_L = false ∧ d.ilkEnd.flag F.PO_ILKSTAT_ACTING = false ∧
    d.ilkEnd.flag F.PO_ILKSTAT_RELEASING = false := by
  rw [Dev.ilkEnd_eq]
  refine ⟨?_, ?_, Dev.flag_setFlag_same _ _ _ (by decide) rfl⟩
  · rw [Dev.flag_setFlag_ne _ _ _ _ (by decide) (by decide), Dev.flag_setFlag_ne _ _ _ _ (by decide) (by decide),
      Dev.flag_setFlag_same _ _ _ (by decide) rfl]
  · rw [Dev.flag_setFlag_ne _ _ _ _ (by decide) (by decide), Dev.flag_setFlag_same _ _ _ (by decide) rfl]

theorem Dev.regsBut_ilkEnd (d : Dev) : d.regsBut d.ilkEnd (R.PO_ILKSTAT :: edgeRegs) := by
  have htrans : d.regsBut (d.ilkIdle.outsTrans d.pinLevels) (R.PO_ILKSTAT :: edgeRegs) :=
    (Dev.regsBut.of_regs rfl _).trans ((d.ilkIdle.regsBut_outsTrans _).mono (List.subset_cons_self _ _))
  rw [Dev.ilkEnd_eq]
  exact ((htrans.setFlag (by simp) false).setFlag (by simp) false).setFlag (by simp) false

/-- The end of the interlock, as it is stated of the risen device. -/
def Dev.ilkOver (d : Dev) (b : Nat) : Dev :=
  { (d.ilkRisen b).ilkEnd with pwr := { (d.ilkRisen b).pwr with bindBn := (d.ilkRisen b).now } }

theorem exec_ilkRelease_over {b : Nat} {s : State} (h : s.dev.po.acting = true) (hb : s.dev.fld F.PO_ILKREL_RELEASE ≤ b) :
    exec (.ilkRelease b) s = .next { s with dev := s.dev.ilkOver b } := by
  rw [exec_ilkRelease, State.onDev, if_neg (by simp [h]), Dev.ilkRisen_release, if_pos hb, Dev.ilkOver]

theorem Dev.ilkOver_frame (d : Dev) (b : Nat) : d.ilkOver b =
    { d with regs := (d.ilkOver b).regs, po := { d.po with ilkLow := false, acting := false }, out := (d.ilkOver b).out,
             clk := { d.clk with syncAt := (d.ilkRisen b).clk.syncAt }, pwr := { d.pwr with bindBn := d.now } } := by
  have hrisen := d.ilkRisen_frame b
  have hend := (d.ilkRisen b).ilkEnd_frame
  unfold Dev.ilkOver
  generalize (d.ilkRisen b).ilkEnd = f at *
  generalize d.ilkRisen b = e at *
  rw [hend, hrisen]; rfl

/-- ILK_L high, and the release not yet over. -/
def Dev.ilkReleasing (d : Dev) (b : Nat) : Dev := ((d.ilkRisen b).setFlag F.PO_ILKSTAT_ILK_L false).setFlag F.PO_ILKSTAT_RELEASING true

theorem exec_ilkRelease_waits {b : Nat} {s : State} (h : s.dev.po.acting = true) (hb : b < s.dev.fld F.PO_ILKREL_RELEASE) :
    exec (.ilkRelease b) s = .next { s with dev := s.dev.ilkReleasing b } := by
  rw [exec_ilkRelease, State.onDev, if_neg (by simp [h]), Dev.ilkRisen_release, if_neg (by omega), Dev.ilkReleasing]

theorem Dev.regs_ilkRisen (d : Dev) (b : Nat) : (d.ilkRisen b).regs = d.regs := by rw [Dev.ilkRisen_frame]

theorem Dev.ilkReleasing_shown (d : Dev) (b : Nat) : (d.ilkReleasing b).flag F.PO_ILKSTAT_ILK_L = false ∧
    (d.ilkReleasing b).flag F.PO_ILKSTAT_RELEASING = true ∧ d.regsBut (d.ilkReleasing b) [R.PO_ILKSTAT] := by
  refine ⟨?_, Dev.flag_setFlag_same _ F.PO_ILKSTAT_RELEASING true (by decide) rfl, ?_⟩
  · refine (Dev.flag_setFlag_ne _ F.PO_ILKSTAT_RELEASING F.PO_ILKSTAT_ILK_L true (by decide) (by decide)).trans ?_
    exact Dev.flag_setFlag_same _ _ _ (by decide) rfl
  · exact ((Dev.regsBut.of_regs (d.regs_ilkRisen b) _).setFlag (by decide) false).setFlag (by decide) true

theorem Dev.ilkReleasing_frame (d : Dev) (b : Nat) : d.ilkReleasing b =
    { d with regs := (d.ilkReleasing b).regs, po := { d.po with ilkLow := false },
             clk := { d.clk with syncAt := (d.ilkRisen b).clk.syncAt } } := by
  have hrisen := d.ilkRisen_frame b
  unfold Dev.ilkReleasing
  generalize d.ilkRisen b = e at *
  rw [hrisen]; rfl

theorem Dev.ilkOver_flags (d : Dev) (b : Nat) : (d.ilkOver b).flag F.PO_ILKSTAT_ILK_L = false ∧
    (d.ilkOver b).flag F.PO_ILKSTAT_ACTING = false ∧ (d.ilkOver b).flag F.PO_ILKSTAT_RELEASING = false ∧
    d.regsBut (d.ilkOver b) (R.PO_ILKSTAT :: edgeRegs) := by
  obtain ⟨hlow, hact, hrel⟩ := (d.ilkRisen b).ilkEnd_flags
  have hregs := (Dev.regsBut.of_regs (d.regs_ilkRisen b) _).trans (d.ilkRisen b).regsBut_ilkEnd
  exact ⟨hlow, hact, hrel, hregs⟩

/-- Settles O46: the fall of ILK_L, the interlock beat's ends one after the other, and the two ways its release goes. -/
theorem interlockStopsOutputs : Obligations.InterlockStopsOutputs := by
  unfold Obligations.InterlockStopsOutputs
  intro s
  refine ⟨?fall, fun h => ?idle, fun hdue hnd => ?beat, fun b h => ?off, fun b h hb => ?done, fun b h hb => ?waits⟩
  case fall =>
    obtain ⟨hpo, hlow, hact, hrel, hends⟩ := s.dev.ilkFall_shown
    have hexec : exec .ilkAssert s = .next { s with dev := s.dev.ilkFall } := rfl
    generalize s.dev.ilkFall = e at *
    exact ⟨_, hexec, by rw [hpo]; rfl, by rw [hpo]; rfl, by rw [hpo]; rfl, hlow, hact, hrel,
      Dev.outActive_of_ilkLow (by rw [hpo]; rfl), hends⟩
  case idle =>
    have hexec : exec .interlockBeat s = .next { s with dev := s.dev.ilkBeat } := rfl
    rw [hexec, Dev.ilkBeat_of_none h]
  case beat =>
    have hexec : exec .interlockBeat s = .next { s with dev := s.dev.ilkBeat } := rfl
    obtain ⟨hdone, hcount⟩ := Dev.ilkBeat_counts hdue
    exact ⟨_, hexec, hdone, hcount, fun j hj hact hpos hout => Dev.ilkBeat_ends hdue hnd hj hact hpos hout,
      fun j hj h => Dev.ilkBeat_others hdue hnd hj h⟩
  case off => rw [exec_ilkRelease, State.onDev, if_pos (by simp [h])]
  case done =>
    obtain ⟨hlow, hact, hrel, hregs⟩ := s.dev.ilkOver_flags b
    have hexec := exec_ilkRelease_over h hb
    have hframe := s.dev.ilkOver_frame b
    generalize s.dev.ilkOver b = e at *
    exact ⟨_, hexec, by rw [hframe], hlow, hact, hrel, hregs, by rw [hframe], by rw [hframe]⟩
  case waits =>
    obtain ⟨hlow, hrel, hregs⟩ := s.dev.ilkReleasing_shown b
    have hexec := exec_ilkRelease_waits h hb
    have hframe := s.dev.ilkReleasing_frame b
    generalize s.dev.ilkReleasing b = e at *
    exact ⟨_, hexec, by rw [hframe], hlow, hrel, hregs, by rw [hframe]⟩

end Sys2Proof.Machine
end

section

/-!
PROOF. The clear of a BRACE may change jobs (04_power_and_supply.md R182, R202; 05_clock_synthesis.md R247): the outputs of the synthesizer
start again, which frees the AS_DEP domains, and a freed FRAMED head port trains anew and drops the frames that it has not sent.
-/

namespace Sys2Proof.Machine
open Sys2Proof

/-- A device under a closed-out BRACE whose synthesizer has locked again, with head port 0 fenced for its earlier loss, and with a column
of a job in a frame of the port that has not been sent. -/
def bracedDev : Dev :=
  { regs := [(R.PWR_STAT, 0x90), (R.AS_CTRL, 1), (R.AS_STAT, 8), (R.SUP_RCODE, 0x100), (R.HP_CFG 0, 0x35)],
    hp := [(0, { frames := [{ bn := 5, bytes := [], job := some 7 }] })],
    fen := { doms := [(0, { causes := [Rsn.asRefLoss] })] },
    jobs := [{ ring := 0, rseq := 0, hm := 7, colsOpen := 1 }] }

theorem braceOver_bracedDev : bracedDev.braceOver = true := by decide

/-- The clear of its BRACE takes the column off the job, which has a flaw from then on. -/
theorem colsOpen_braceEnd_bracedDev : bracedDev.braceEnd.jobs.map Job.colsOpen = [0] := by decide +kernel

theorem exec_braceClear {s : State} (h : s.dev.braceOver = true) : exec .braceClear s = .next { s with dev := s.dev.braceEnd } := by
  change execBraceClear s = _
  rw [execBraceClear, State.onDev, if_pos h]

/-- Refutes O28: the clear of a BRACE starts the synthesizer's outputs again, which frees and trains a fenced head port, and the column in
the frame that the port drops leaves its job: the jobs do not stay. -/
theorem not_braceStartsClosesAndClears : ¬ Obligations.BraceStartsClosesAndClears := by
  unfold Obligations.BraceStartsClosesAndClears
  intro h
  obtain ⟨-, -, -, hclear, -⟩ := h { dev := bracedDev }
  obtain ⟨t, hexec, -, -, -, -, hjobs⟩ := hclear braceOver_bracedDev
  have ht := Host.Outcome.next.inj ((exec_braceClear (s := { dev := bracedDev }) braceOver_bracedDev).symm.trans hexec)
  have hcols : bracedDev.braceEnd.jobs.map Job.colsOpen = bracedDev.jobs.map Job.colsOpen := by
    rw [← hjobs, ← ht]
  rw [colsOpen_braceEnd_bracedDev] at hcols
  exact absurd hcols (by decide)

end Sys2Proof.Machine
end

section

/-!
PROOF. Loaded edges, PO_MAXACT and marker actions (10_precision_outputs.md R501, R502, R504, R507; 11_segment_players.md R541).
-/

namespace Sys2Proof.Machine
open Sys2Proof

/-- The one entry of a list with the least key comes first when the list is sorted by it. -/
theorem mergeSort_of_least {A : Type} {f : A → Nat} {q : List A} {a : A} (ha : a ∈ q) (hmin : ∀ x ∈ q, x = a ∨ f a < f x) :
    ∃ rest, q.mergeSort (fun x y => decide (f x ≤ f y)) = a :: rest := by
  have hperm := List.mergeSort_perm q (fun x y => decide (f x ≤ f y))
  have hsorted := List.pairwise_mergeSort (le := fun x y => decide (f x ≤ f y)) (fun x y z => by simpa using Nat.le_trans)
    (fun x y => by simpa using Nat.le_total (f x) (f y)) q
  have hmem := hperm.mem_iff.2 ha
  cases hs : q.mergeSort (fun x y => decide (f x ≤ f y)) with
  | nil => rw [hs] at hmem; exact absurd hmem List.not_mem_nil
  | cons x rest =>
    rw [hs] at hmem hsorted
    have hx : x ∈ q := hperm.mem_iff.1 (hs ▸ List.mem_cons_self)
    rcases hmin x hx with rfl | hlt
    · exact ⟨rest, rfl⟩
    · rcases List.mem_cons.1 hmem with rfl | hr
      · exact absurd hlt (Nat.lt_irrefl _)
      · exact absurd hlt (Nat.not_lt.2 (by simpa using (List.pairwise_cons.1 hsorted).1 a hr))

/-- A list without its repetitions repeats nothing. -/
theorem nodup_eraseDups {A : Type} [BEq A] [LawfulBEq A] : ∀ l : List A, l.eraseDups.Nodup
  | [] => by simp
  | a :: l => by
    have hlen := l.length_filter_le fun b => !b == a
    rw [List.eraseDups_cons, List.nodup_cons]
    exact ⟨by simp [List.mem_eraseDups], nodup_eraseDups _⟩
termination_by l => l.length
decreasing_by exact Nat.lt_succ_of_le hlen

/-! ## Loaded edges -/

theorem exec_poEdgeInstant (n : Fin 32) (s : State) : exec (.poEdgeInstant n) s = .next (s.onDev fun d =>
    match (d.po.queue.filter fun l => l.out == n.val).mergeSort fun a b => decide (a.inst ≤ b.inst) with
    | l :: _ => if beatOf l.inst ≤ d.now then d.placeEdge l else d
    | [] => d) := rfl

theorem exec_poEdgeInstant_none {n : Fin 32} {s : State} (h : ∀ x ∈ s.dev.po.queue, x.out ≠ n.val) : exec (.poEdgeInstant n) s = .next s := by
  have hnil : s.dev.po.queue.filter (fun l => l.out == n.val) = [] := List.filter_eq_nil_iff.2 fun x hx => by simpa using h x hx
  rw [exec_poEdgeInstant, State.onDev, hnil, List.mergeSort_nil]

/-- The edge of an output that comes next is placed once its beat has come. -/
theorem exec_poEdgeInstant_first {n : Fin 32} {l : Loaded} {s : State} (hl : l ∈ s.dev.po.queue) (ho : l.out = n.val)
    (hmin : ∀ x ∈ s.dev.po.queue, x.out = n.val → x = l ∨ l.inst < x.inst) :
    exec (.poEdgeInstant n) s = .next { s with dev := if beatOf l.inst ≤ s.dev.now then s.dev.placeEdge l else s.dev } := by
  obtain ⟨rest, hrest⟩ := mergeSort_of_least (f := Loaded.inst) (q := s.dev.po.queue.filter fun l => l.out == n.val) (a := l)
    (List.mem_filter.2 ⟨hl, by simpa using ho⟩) (fun x hx => hmin x (List.mem_filter.1 hx).1 (by simpa using (List.mem_filter.1 hx).2))
  rw [exec_poEdgeInstant, State.onDev, hrest]

/-- The edge off its output's queue. -/
def Dev.unloaded (d : Dev) (l : Loaded) : Dev := { d with po := { d.po with queue := d.po.queue.filter (fun x => x != l) } }

/-- An edge of the job that is no longer loaded. -/
def Job.edgeGone (j : Job) : Job := { j with edgesOpen := j.edgesOpen - 1 }

/-- An edge of the job that is placed. -/
def Job.edgePlaced (j : Job) (l : Loaded) : Job :=
  { j with edgesOpen := j.edgesOpen - 1, edges := j.edges + 1, lastBn := max j.lastBn (beatOf l.inst),
           st := if j.st == .bound then .striking else j.st,
           lanes := j.lanes.modify l.lane (fun r => { r with holding := l.lvl }) }

/-- The device under which an edge is dropped unplaced. -/
def Dev.dropsEdge (d : Dev) (l : Loaded) : Bool := d.po.ilkLow || d.po.acting || (d.outSt l.out).safe

theorem Dev.placeEdge_of_drops {d : Dev} {l : Loaded} (h : d.dropsEdge l = true) :
    d.placeEdge l = (d.unloaded l).modJob l.hm Job.edgeGone := by
  rw [Dev.placeEdge, show ({ d with po := { d.po with queue := d.po.queue.filter (fun x => x != l) } } : Dev) = d.unloaded l from rfl]
  exact if_pos h

theorem Dev.placeEdge_of_takes {d : Dev} {l : Loaded} (h : d.dropsEdge l = false) :
    d.placeEdge l = ((((d.unloaded l).modJob l.hm fun j => j.edgePlaced l).outHold l.out l.hm l.lane l.lvl
      (beatOf (l.inst + fsPerBeat - 1))).settle l.hm) :=
  if_neg (Bool.eq_false_iff.1 h)

theorem Dev.settle_of_noFlaw {d : Dev} {h : Nat} (hf : ∀ j, d.job? h = some j → j.flaw = none) : d.settle h = d := by
  unfold Dev.settle
  cases hj : d.job? h with
  | none => rfl
  | some j => simp only [hf j hj]

/-- The holders of an output after a lane takes or releases it. -/
def OutSt.held (o : OutSt) (hm lane : Nat) (on : Bool) : List (Nat × Nat) :=
  if on then (if o.holders.contains (hm, lane) then o.holders else o.holders ++ [(hm, lane)]) else o.holders.filter fun h => h != (hm, lane)

theorem OutSt.mem_held (o : OutSt) (hm lane : Nat) (on : Bool) : (hm, lane) ∈ o.held hm lane on ↔ on = true := by
  unfold OutSt.held
  cases on
  · simp
  · rw [if_pos rfl]
    split
    case isTrue h => simpa using h
    case isFalse => simp

theorem OutSt.mem_held_ne (o : OutSt) {hm lane : Nat} (on : Bool) {x : Nat × Nat} (hx : x ≠ (hm, lane)) :
    x ∈ o.held hm lane on ↔ x ∈ o.holders := by
  unfold OutSt.held
  cases on
  · simp [hx]
  · rw [if_pos rfl]
    split <;> simp [hx]

/-- The output after a lane takes or releases it. -/
def OutSt.taken (o : OutSt) (hm lane : Nat) (on : Bool) (b : Nat) : OutSt :=
  { o with holders := o.held hm lane on, since := if (o.held hm lane on).isEmpty then none else some (o.since.getD b),
           capped := o.capped && !(o.held hm lane on).isEmpty }

theorem Dev.outHold_eq (d : Dev) (n hm lane : Nat) (on : Bool) (b : Nat) :
    d.outHold n hm lane on b = (d.setOut n ((d.outSt n).taken hm lane on b)).outTrans n (d.outPin n) := rfl

theorem Dev.outHold_frame (d : Dev) (n hm lane : Nat) (on : Bool) (b : Nat) : d.outHold n hm lane on b =
    { d with regs := (d.outHold n hm lane on b).regs, out := (d.outHold n hm lane on b).out,
             po := (d.setOut n ((d.outSt n).taken hm lane on b)).po } := by
  have h := (d.setOut n ((d.outSt n).taken hm lane on b)).outTrans_regs_out_only n (d.outPin n)
  rw [Dev.outHold_eq]
  generalize (d.setOut n ((d.outSt n).taken hm lane on b)).outTrans n (d.outPin n) = e at *
  rw [h]; rfl

theorem Dev.outSt_outHold (d : Dev) (n hm lane : Nat) (on : Bool) (b k : Nat) :
    (d.outHold n hm lane on b).outSt k = if k = n then (d.outSt n).taken hm lane on b else d.outSt k := by
  rw [Dev.outSt, Dev.outHold_frame]
  exact d.outSt_setOut n _ k

theorem Dev.regsBut_outHold (d : Dev) (n hm lane : Nat) (on : Bool) (b : Nat) : d.regsBut (d.outHold n hm lane on b) [R.PO_EDGECNT n] :=
  (Dev.regsBut.of_regs rfl _).trans ((d.setOut n ((d.outSt n).taken hm lane on b)).regsBut_outTrans_edge n _)

/-- A placed edge of a job without a flaw, as one change. -/
def Dev.edgeTaken (d : Dev) (l : Loaded) : Dev :=
  ((d.unloaded l).modJob l.hm fun j => j.edgePlaced l).outHold l.out l.hm l.lane l.lvl (beatOf (l.inst + fsPerBeat - 1))

theorem Dev.jobs_edgeTaken (d : Dev) (l : Loaded) : (d.edgeTaken l).jobs = (d.modJob l.hm fun j => j.edgePlaced l).jobs := by
  rw [Dev.edgeTaken, Dev.outHold_frame]; rfl

theorem Dev.job?_modJob_none {d : Dev} {h : Nat} {f : Job → Job} (hj : d.job? h = none) :
    (d.modJob h f).job? h = none := by
  rw [Dev.job?, List.find?_eq_none] at hj ⊢
  intro k hk
  obtain ⟨i, hi, rfl⟩ := List.mem_map.1 hk
  have hne := hj i hi
  rw [if_neg hne]
  exact hne

theorem Dev.placeEdge_of_noFlaw {d : Dev} {l : Loaded} (h : d.dropsEdge l = false) (hf : ∀ j, d.job? l.hm = some j → j.flaw = none) :
    d.placeEdge l = d.edgeTaken l := by
  rw [Dev.placeEdge_of_takes h]
  refine Dev.settle_of_noFlaw (d := d.edgeTaken l) fun j hj => ?_
  rw [Dev.job?_congr (d.jobs_edgeTaken l)] at hj
  cases hi : d.job? l.hm with
  | none => rw [Dev.job?_modJob_none (f := fun j => j.edgePlaced l) hi] at hj; cases hj
  | some i =>
    rw [Dev.job?_modJob (f := fun j => j.edgePlaced l) hi fun _ => rfl] at hj
    obtain rfl := Option.some.inj hj
    exact hf i hi

theorem Dev.edgeTaken_frame (d : Dev) (l : Loaded) : d.edgeTaken l =
    { d with regs := (d.edgeTaken l).regs, out := (d.edgeTaken l).out, po := (d.edgeTaken l).po, jobs := (d.edgeTaken l).jobs } := by
  have h := ((d.unloaded l).modJob l.hm fun j => j.edgePlaced l).outHold_frame l.out l.hm l.lane l.lvl (beatOf (l.inst + fsPerBeat - 1))
  unfold Dev.edgeTaken
  generalize ((d.unloaded l).modJob l.hm fun j => j.edgePlaced l).outHold l.out l.hm l.lane l.lvl (beatOf (l.inst + fsPerBeat - 1)) = e at *
  rw [h]; rfl

/-- What a placed edge leaves of the outputs, the registers and the jobs. -/
theorem Dev.edgeTaken_shown (d : Dev) (l : Loaded) :
    (d.edgeTaken l).po.queue = d.po.queue.filter (fun x => x != l) ∧
    ((l.hm, l.lane) ∈ ((d.edgeTaken l).outSt l.out).holders ↔ l.lvl = true) ∧
    (∀ h, h ≠ (l.hm, l.lane) → (h ∈ ((d.edgeTaken l).outSt l.out).holders ↔ h ∈ (d.outSt l.out).holders)) ∧
    (∀ k, k ≠ l.out → (d.edgeTaken l).outSt k = d.outSt k) ∧ d.regsBut (d.edgeTaken l) [R.PO_EDGECNT l.out] := by
  let e := (d.unloaded l).modJob l.hm fun j => j.edgePlaced l
  have houts : ∀ k, (d.edgeTaken l).outSt k = if k = l.out then (d.outSt l.out).taken l.hm l.lane l.lvl (beatOf (l.inst + fsPerBeat - 1)) else d.outSt k :=
    fun k => e.outSt_outHold l.out l.hm l.lane l.lvl _ k
  have hown := (houts l.out).trans (if_pos rfl)
  refine ⟨?_, ?_, fun h hh => ?_, fun k hk => (houts k).trans (if_neg hk), ?_⟩
  · unfold Dev.edgeTaken; rw [Dev.outHold_frame]; rfl
  · rw [hown]; exact OutSt.mem_held _ _ _ _
  · rw [hown]; exact OutSt.mem_held_ne _ _ hh
  · exact (Dev.regsBut.of_regs rfl _).trans (e.regsBut_outHold l.out l.hm l.lane l.lvl _)

/-! ## PO_MAXACT -/

/-- One holder's job ends when its output has been active too long. -/
def Dev.capJob (d : Dev) (hm : Nat) : Dev := match d.job? hm with
  | some j => d.endJob hm { typ := 5, reason := Rsn.partMaxact, bn := j.lastBn, d0 := j.partDetail }
  | none => d

/-- The output inactive, and that it was too long active shown. -/
def Dev.outCapped (d : Dev) (n : Nat) : Dev :=
  ((d.setOut n { d.outSt n with capped := true }).outTrans n (d.outPin n)).setFlag (F.PO_STAT_MAXACT n) true

/-- The hallmarks of the jobs that hold an output. -/
def Dev.holderHms (d : Dev) (n : Nat) : List Nat := ((d.outSt n).holders.map fun h => h.1).eraseDups

theorem exec_maxactLimit (n : Fin 32) (s : State) : exec (.maxactLimit n) s = .next (s.onDev fun d => match (d.outSt n.val).since with
    | some b => if d.fld (F.PO_MAXACT_MAXIMUM n.val) ≠ 0 ∧ b + d.fld (F.PO_MAXACT_MAXIMUM n.val) ≤ d.now ∧ d.outActive n.val then
        (d.holderHms n.val).foldl Dev.capJob (d.outCapped n.val) else d
    | none => d) := rfl

theorem exec_maxactLimit_idle {n : Fin 32} {s : State} (h : (s.dev.outSt n.val).since = none) : exec (.maxactLimit n) s = .next s := by
  rw [exec_maxactLimit, State.onDev, h]

theorem exec_maxactLimit_early {n : Fin 32} {s : State} {b : Nat} (h : (s.dev.outSt n.val).since = some b)
    (hl : s.dev.fld (F.PO_MAXACT_MAXIMUM n.val) = 0 ∨ s.dev.now < b + s.dev.fld (F.PO_MAXACT_MAXIMUM n.val)) :
    exec (.maxactLimit n) s = .next s := by
  rw [exec_maxactLimit, State.onDev, h]
  dsimp only
  rw [if_neg]
  rintro ⟨h0, hb, -⟩
  omega

theorem exec_maxactLimit_due {n : Fin 32} {s : State} {b : Nat} (h : (s.dev.outSt n.val).since = some b)
    (h0 : s.dev.fld (F.PO_MAXACT_MAXIMUM n.val) ≠ 0) (hb : b + s.dev.fld (F.PO_MAXACT_MAXIMUM n.val) ≤ s.dev.now)
    (ha : s.dev.outActive n.val = true) :
    exec (.maxactLimit n) s = .next { s with dev := (s.dev.holderHms n.val).foldl Dev.capJob (s.dev.outCapped n.val) } := by
  rw [exec_maxactLimit, State.onDev, h]
  dsimp only
  rw [if_pos ⟨h0, hb, ha⟩]

theorem Dev.capJob_cases (d : Dev) (hm : Nat) : d.capJob hm = d ∨ ∃ o, d.capJob hm = d.endJob hm o := by
  unfold Dev.capJob
  split
  · exact .inr ⟨_, rfl⟩
  · exact .inl rfl

theorem Dev.jobsTouched_capJob (d : Dev) (hm : Nat) : d.JobsTouched (d.capJob hm) [id hm] := by
  rcases d.capJob_cases hm with h | ⟨o, h⟩ <;> rw [h]
  · exact .refl d _
  · exact d.jobsTouched_endJob hm o

theorem Dev.outsReleased_capJob (d : Dev) (hm : Nat) : d.OutsReleased (d.capJob hm) := by
  rcases d.capJob_cases hm with h | ⟨o, h⟩ <;> rw [h]
  · exact .refl d
  · exact d.outsReleased_endJob hm o

theorem Dev.regsBut_capJob (d : Dev) (hm : Nat) : d.regsBut (d.capJob hm) endRegs := by
  rcases d.capJob_cases hm with h | ⟨o, h⟩ <;> rw [h]
  · exact .refl d _
  · exact d.regsBut_endJob hm o

theorem Dev.po_outCapped (d : Dev) (n : Nat) : (d.outCapped n).po = (d.setOut n { d.outSt n with capped := true }).po := by
  have h : (d.outCapped n).po = ((d.setOut n { d.outSt n with capped := true }).outTrans n (d.outPin n)).po := rfl
  rw [h, Dev.po_outTrans]

theorem Dev.jobs_outCapped (d : Dev) (n : Nat) : (d.outCapped n).jobs = d.jobs := by simp [Dev.outCapped]

theorem Dev.outActive_outCapped (d : Dev) (n : Nat) : (d.outCapped n).outActive n = false := by
  have hcap : ((d.outCapped n).outSt n).capped = true := by
    rw [Dev.outSt, Dev.po_outCapped]
    refine (congrArg OutSt.capped (d.outSt_setOut n { d.outSt n with capped := true } n)).trans ?_
    rw [if_pos rfl]
  simp [Dev.outActive, hcap]

theorem poStat_notMem_endRegs (n : Nat) : R.PO_STAT n ∉ endRegs :=
  notMem_endRegs_of (by simp only [R.PO_STAT]; omega) fun m => by simp only [R.PO_STAT, R.PO_EDGECNT]; omega

/-- What an output that was too long active leaves of itself. -/
theorem Dev.maxact_shown (d : Dev) (n : Nat) :
    ((d.holderHms n).foldl Dev.capJob (d.outCapped n)).outActive n = false ∧
    ((d.holderHms n).foldl Dev.capJob (d.outCapped n)).flag (F.PO_STAT_MAXACT n) = true := by
  have houts : (d.outCapped n).OutsReleased ((d.holderHms n).foldl Dev.capJob (d.outCapped n)) := .foldl Dev.outsReleased_capJob _ _
  have hregs : (d.outCapped n).regsBut ((d.holderHms n).foldl Dev.capJob (d.outCapped n)) endRegs := .foldl Dev.regsBut_capJob _ _
  refine ⟨houts.outActive (hregs _ (poCfg_notMem_endRegs n)) (d.outActive_outCapped n), (hregs.flag (poStat_notMem_endRegs n)).trans ?_⟩
  exact Dev.flag_setFlag_same _ (F.PO_STAT_MAXACT n) true (show 4 < 32 by decide) rfl

theorem Dev.maxact_ends {d : Dev} {n : Nat} (hnd : (d.jobs.map Job.hm).Nodup) {h : Nat × Nat} (hh : h ∈ (d.outSt n).holders) {j : Job}
    (hj : j ∈ d.jobs) (hhm : j.hm = h.1) (hout : j.out = none) :
    ∃ k ∈ ((d.holderHms n).foldl Dev.capJob (d.outCapped n)).jobs, k.hm = j.hm ∧ k.st = .partial_ ∧
      k.out = some { typ := 5, reason := 0x300A, bn := j.lastBn, d0 := j.partDetail } := by
  have hmem : j.hm ∈ d.holderHms n := List.mem_eraseDups.2 (List.mem_map.2 ⟨h, hh, hhm.symm⟩)
  have hjobs := d.jobs_outCapped n
  obtain ⟨e, -, hhms, hkept, hlast⟩ := Dev.JobsTouched.foldl_reaches Dev.jobsTouched_capJob (P := fun _ => True) (fun _ _ _ => trivial)
    (d.holderHms n) (d.outCapped n) (by rw [List.map_id]; exact nodup_eraseDups _) trivial j.hm hmem
  have hfound : e.job? j.hm = some j := Dev.job?_of_mem (by rw [hhms, hjobs]; exact hnd) (hkept j (hjobs ▸ hj) rfl)
  obtain ⟨k, hk, hend⟩ := Dev.endJob_ends hfound hout { typ := 5, reason := Rsn.partMaxact, bn := j.lastBn, d0 := j.partDetail }
  refine ⟨k, hlast k ?_ hend.hm, hend.hm, hend.st, hend.out⟩
  simp only [Dev.capJob, hfound]
  exact hk

theorem Dev.maxact_others {d : Dev} {n : Nat} {j : Job} (hj : j ∈ d.jobs) (h : ∀ h ∈ (d.outSt n).holders, h.1 ≠ j.hm) :
    j ∈ ((d.holderHms n).foldl Dev.capJob (d.outCapped n)).jobs := by
  refine (Dev.JobsTouched.foldl Dev.jobsTouched_capJob (d.holderHms n) (d.outCapped n)).mem (by rw [Dev.jobs_outCapped]; exact hj) ?_
  rw [List.map_id]
  intro hmem
  obtain ⟨x, hx, hxm⟩ := List.mem_map.1 (List.mem_eraseDups.1 hmem)
  exact h x hx hxm

/-! ## Markers -/

theorem exec_markerAction (n : Fin 16) (s : State) : exec (.markerAction n) s = .next (s.onDev fun d =>
    match (d.sp.acts.filter fun a => a.marker == n.val).mergeSort fun a b => decide (a.inst ≤ b.inst) with
    | a :: _ =>
      if beatOf a.inst ≤ d.now then
        if d.po.ilkLow || d.po.acting then { d with sp := { d.sp with acts := d.sp.acts.erase a } }
        else { d with sp := { d.sp with acts := d.sp.acts.erase a } }.setMark a.marker a.hm a.set
      else d
    | [] => d) := rfl

theorem exec_markerAction_none {n : Fin 16} {s : State} (h : ∀ x ∈ s.dev.sp.acts, x.marker ≠ n.val) : exec (.markerAction n) s = .next s := by
  have hnil : s.dev.sp.acts.filter (fun a => a.marker == n.val) = [] := List.filter_eq_nil_iff.2 fun x hx => by simpa using h x hx
  rw [exec_markerAction, State.onDev, hnil, List.mergeSort_nil]

/-- The action done. -/
def Dev.actTaken (d : Dev) (a : MkAct) : Dev := { d with sp := { d.sp with acts := d.sp.acts.erase a } }

theorem exec_markerAction_first {n : Fin 16} {a : MkAct} {s : State} (ha : a ∈ s.dev.sp.acts) (hm : a.marker = n.val)
    (hmin : ∀ x ∈ s.dev.sp.acts, x.marker = n.val → x = a ∨ a.inst < x.inst) :
    exec (.markerAction n) s = .next { s with dev := if beatOf a.inst ≤ s.dev.now then
      (if s.dev.po.ilkLow || s.dev.po.acting then s.dev.actTaken a else (s.dev.actTaken a).setMark a.marker a.hm a.set) else s.dev } := by
  obtain ⟨rest, hrest⟩ := mergeSort_of_least (f := MkAct.inst) (q := s.dev.sp.acts.filter fun a => a.marker == n.val) (a := a)
    (List.mem_filter.2 ⟨ha, by simpa using hm⟩) (fun x hx => hmin x (List.mem_filter.1 hx).1 (by simpa using (List.mem_filter.1 hx).2))
  rw [exec_markerAction, State.onDev, hrest]
  rfl

/-- The markers that are driven, after one is set or cleared. -/
def Dev.marksWith (d : Dev) (marker hm : Nat) (on : Bool) : List (Nat × Nat) :=
  if on then d.sp.marks.filter (fun m => m.1 != marker) ++ [(marker, hm)] else d.sp.marks.filter fun m => m.1 != marker

theorem Dev.setMark_frame (d : Dev) (marker hm : Nat) (on : Bool) : d.setMark marker hm on =
    { d with out := (d.setMark marker hm on).out, sp := { d.sp with marks := d.marksWith marker hm on } } := by
  unfold Dev.setMark
  dsimp only
  split <;> rfl

theorem Dev.mem_marksWith (d : Dev) (marker hm : Nat) (on : Bool) : (∃ m ∈ d.marksWith marker hm on, m.1 = marker) ↔ on = true := by
  unfold Dev.marksWith
  cases on
  · simp
  · exact iff_of_true ⟨(marker, hm), by simp, rfl⟩ rfl

theorem Dev.mem_marksWith_ne (d : Dev) {marker : Nat} (hm : Nat) (on : Bool) {m : Nat × Nat} (h : m.1 ≠ marker) :
    m ∈ d.marksWith marker hm on ↔ m ∈ d.sp.marks := by
  have hne : m ≠ (marker, hm) := fun he => h (he ▸ rfl)
  unfold Dev.marksWith
  cases on <;> simp [h, hne]

theorem exec_poEdgeInstant_placed {n : Fin 32} {l : Loaded} {s : State} (hl : l ∈ s.dev.po.queue) (ho : l.out = n.val)
    (hmin : ∀ x ∈ s.dev.po.queue, x.out = n.val → x = l ∨ l.inst < x.inst) (hb : beatOf l.inst ≤ s.dev.now) :
    exec (.poEdgeInstant n) s = .next { s with dev := s.dev.placeEdge l } := by
  rw [exec_poEdgeInstant_first hl ho hmin, if_pos hb]

/-- What a placed edge leaves of its job. -/
theorem Dev.edgeTaken_job {d : Dev} {l : Loaded} {j : Job} (hj : d.job? l.hm = some j) :
    (d.edgeTaken l).job? l.hm = some (j.edgePlaced l) :=
  (Dev.job?_congr (d.jobs_edgeTaken l) l.hm).trans (Dev.job?_modJob (f := fun j => j.edgePlaced l) hj fun _ => rfl)

theorem Dev.edgeTaken_others {d : Dev} {l : Loaded} {k : Job} (hk : k ∈ d.jobs) (hne : k.hm ≠ l.hm) : k ∈ (d.edgeTaken l).jobs := by
  rw [Dev.jobs_edgeTaken]
  exact mem_jobs_modJob_of_ne hk hne _

theorem Job.st_edgePlaced (j : Job) (l : Loaded) : (j.edgePlaced l).st = if j.st = .bound then .striking else j.st := by
  cases h : j.st <;> simp [Job.edgePlaced, h]

theorem exec_poEdgeInstant_early {n : Fin 32} {l : Loaded} {s : State} (hl : l ∈ s.dev.po.queue) (ho : l.out = n.val)
    (hmin : ∀ x ∈ s.dev.po.queue, x.out = n.val → x = l ∨ l.inst < x.inst) (hb : s.dev.now < beatOf l.inst) :
    exec (.poEdgeInstant n) s = .next s := by
  rw [exec_poEdgeInstant_first hl ho hmin, if_neg (Nat.not_le.2 hb)]

/-- The clause on an edge that is dropped unplaced. -/
theorem poEdgeInstant_drops {n : Fin 32} {l : Loaded} {s : State} (hl : l ∈ s.dev.po.queue) (ho : l.out = n.val)
    (hmin : ∀ x ∈ s.dev.po.queue, x.out = n.val → x = l ∨ l.inst < x.inst) (hb : beatOf l.inst ≤ s.dev.now)
    (hsafe : s.dev.dropsEdge l = true) : ∃ t, exec (.poEdgeInstant n) s = .next t ∧
      t.dev.po = { s.dev.po with queue := s.dev.po.queue.filter (fun x => x != l) } ∧
      t = { s with dev := { s.dev with po := t.dev.po, jobs := t.dev.jobs } } ∧
      ∀ j, s.dev.job? l.hm = some j → ∃ k, t.dev.job? l.hm = some k ∧ k = { j with edgesOpen := j.edgesOpen - 1 } := by
  have hexec := exec_poEdgeInstant_placed hl ho hmin hb
  rw [Dev.placeEdge_of_drops hsafe] at hexec
  exact ⟨_, hexec, rfl, rfl, fun j hj => ⟨_, Dev.job?_modJob (d := s.dev.unloaded l) (f := Job.edgeGone) hj fun _ => rfl, rfl⟩⟩

/-- The clause on an edge that is placed. -/
theorem poEdgeInstant_takes {n : Fin 32} {l : Loaded} {s : State} (hl : l ∈ s.dev.po.queue) (ho : l.out = n.val)
    (hmin : ∀ x ∈ s.dev.po.queue, x.out = n.val → x = l ∨ l.inst < x.inst) (hb : beatOf l.inst ≤ s.dev.now)
    (hsafe : s.dev.dropsEdge l = false) (hf : ∀ j, s.dev.job? l.hm = some j → j.flaw = none) :
    ∃ t, exec (.poEdgeInstant n) s = .next t ∧ t.dev.po.queue = s.dev.po.queue.filter (fun x => x != l) ∧
      ((l.hm, l.lane) ∈ (t.dev.outSt n.val).holders ↔ l.lvl = true) ∧
      (∀ h, h ≠ (l.hm, l.lane) → (h ∈ (t.dev.outSt n.val).holders ↔ h ∈ (s.dev.outSt n.val).holders)) ∧
      (∀ k, k ≠ n.val → t.dev.outSt k = s.dev.outSt k) ∧ s.dev.regsBut t.dev [R.PO_EDGECNT n.val] ∧
      (∀ j, s.dev.job? l.hm = some j → ∃ k, t.dev.job? l.hm = some k ∧ k.edges = j.edges + 1 ∧ k.edgesOpen = j.edgesOpen - 1 ∧
        k.lastBn = max j.lastBn (beatOf l.inst) ∧ k.st = (if j.st = .bound then .striking else j.st) ∧ k.out = j.out) ∧
      (∀ k ∈ s.dev.jobs, k.hm ≠ l.hm → k ∈ t.dev.jobs) ∧
      t = { s with dev := { s.dev with regs := t.dev.regs, out := t.dev.out, po := t.dev.po, jobs := t.dev.jobs } } := by
  have hexec := exec_poEdgeInstant_placed hl ho hmin hb
  rw [Dev.placeEdge_of_noFlaw hsafe hf] at hexec
  obtain ⟨hqueue, hholds, hothers, houts, hregs⟩ := s.dev.edgeTaken_shown l
  have hframe := s.dev.edgeTaken_frame l
  have hjob := fun j => Dev.edgeTaken_job (d := s.dev) (l := l) (j := j)
  have hrest := fun k => Dev.edgeTaken_others (d := s.dev) (l := l) (k := k)
  rw [ho] at hholds hothers houts hregs
  generalize s.dev.edgeTaken l = e at *
  exact ⟨_, hexec, hqueue, hholds, hothers, houts, hregs, fun j hj => ⟨_, hjob j hj, rfl, rfl, rfl, j.st_edgePlaced l, rfl⟩, hrest,
    congrArg (fun d : Dev => { s with dev := d }) hframe⟩

/-- The clause on an output that was too long active. -/
theorem maxactLimit_ends {n : Fin 32} {b : Nat} {s : State} (h : (s.dev.outSt n.val).since = some b)
    (h0 : s.dev.fld (F.PO_MAXACT_MAXIMUM n.val) ≠ 0) (hb : b + s.dev.fld (F.PO_MAXACT_MAXIMUM n.val) ≤ s.dev.now)
    (ha : s.dev.outActive n.val = true) (hnd : (s.dev.jobs.map Job.hm).Nodup) :
    ∃ t, exec (.maxactLimit n) s = .next t ∧ t.dev.outActive n.val = false ∧ t.dev.flag (F.PO_STAT_MAXACT n.val) = true ∧
      (∀ h ∈ (s.dev.outSt n.val).holders, ∀ j ∈ s.dev.jobs, j.hm = h.1 → j.out = none → ∃ k ∈ t.dev.jobs, k.hm = j.hm ∧
        k.st = .partial_ ∧ k.out = some { typ := 5, reason := 0x300A, bn := j.lastBn, d0 := j.partDetail }) ∧
      (∀ j ∈ s.dev.jobs, (∀ h ∈ (s.dev.outSt n.val).holders, h.1 ≠ j.hm) → j ∈ t.dev.jobs) := by
  obtain ⟨hact, hflag⟩ := s.dev.maxact_shown n.val
  exact ⟨_, exec_maxactLimit_due h h0 hb ha, hact, hflag, fun _ hh _ hj hhm hout => Dev.maxact_ends hnd hh hj hhm hout,
    fun _ hj hne => Dev.maxact_others hj hne⟩

/-- The clause on a marker's action that acts. -/
theorem markerAction_acts {n : Fin 16} {a : MkAct} {s : State} (ha : a ∈ s.dev.sp.acts) (hm : a.marker = n.val)
    (hmin : ∀ x ∈ s.dev.sp.acts, x.marker = n.val → x = a ∨ a.inst < x.inst) (hb : beatOf a.inst ≤ s.dev.now)
    (hlow : s.dev.po.ilkLow = false) (hact : s.dev.po.acting = false) : ∃ t, exec (.markerAction n) s = .next t ∧
      ((∃ m ∈ t.dev.sp.marks, m.1 = n.val) ↔ a.set = true) ∧ (∀ m, m.1 ≠ n.val → (m ∈ t.dev.sp.marks ↔ m ∈ s.dev.sp.marks)) ∧
      t = { s with dev := { s.dev with out := t.dev.out, sp := { s.dev.sp with acts := s.dev.sp.acts.erase a, marks := t.dev.sp.marks } } } := by
  have hexec := exec_markerAction_first ha hm hmin
  rw [if_pos hb, hlow, hact, if_neg (by decide), Dev.setMark_frame, hm] at hexec
  exact ⟨_, hexec, Dev.mem_marksWith _ _ _ _, fun m hne => Dev.mem_marksWith_ne (s.dev.actTaken a) _ _ hne, rfl⟩

/-- Settles O45: the entry with the least instant is the one that sorting puts first, and each branch of its placement is one change. -/
theorem outputsAndMarkersAct : Obligations.OutputsAndMarkersAct := by
  intro s
  refine ⟨fun n l hl ho hmin => ?_, fun n => exec_poEdgeInstant_none, fun n b hs => ⟨exec_maxactLimit_early hs, maxactLimit_ends hs⟩,
    fun n => exec_maxactLimit_idle, fun n a ha hm hmin => ⟨fun hb => ?_, fun hb hlow => ?_, markerAction_acts ha hm hmin⟩,
    fun n => exec_markerAction_none⟩
  · have hsafe : s.dev.dropsEdge l = (s.dev.po.ilkLow || s.dev.po.acting || (s.dev.outSt n.val).safe) := by rw [Dev.dropsEdge, ho]
    exact ⟨exec_poEdgeInstant_early hl ho hmin, fun hb h => poEdgeInstant_drops hl ho hmin hb (hsafe.trans h),
      fun hb h => poEdgeInstant_takes hl ho hmin hb (hsafe.trans h)⟩
  · rw [exec_markerAction_first ha hm hmin, if_neg (Nat.not_le.2 hb)]
  · rw [exec_markerAction_first ha hm hmin, if_pos hb, if_pos (by simpa using hlow)]
    rfl

end Sys2Proof.Machine
end

section

/-!
PROOF. Replay and the decision after it (08_ledger.md R400 to R408, R415, R416).
-/

namespace Sys2Proof.Machine
open Sys2Proof

/-! ## What a step of replay keeps -/

/-- No ACCEPT record came to the log, no hallmark was taken back, and role and power stay. -/
structure Dev.Replayed (d e : Dev) : Prop where
  log : ∀ x ∈ e.mram.log, x.body.typ = 0x10 → x ∈ d.mram.log
  next : d.adm.nextHm ≤ e.adm.nextHm
  boot : e.boot = d.boot
  pwr : e.pwr = d.pwr

namespace Dev.Replayed
variable {d e f : Dev}

theorem of_same (hm : e.mram.log = d.mram.log) (ha : e.adm.nextHm = d.adm.nextHm) (hb : e.boot = d.boot) (hp : e.pwr = d.pwr) : d.Replayed e :=
  ⟨fun _ hx _ => hm ▸ hx, Nat.le_of_eq ha.symm, hb, hp⟩

theorem refl (d : Dev) : d.Replayed d := of_same rfl rfl rfl rfl

theorem trans (h : d.Replayed e) (h' : e.Replayed f) : d.Replayed f :=
  ⟨fun x hx ht => h.log x (h'.log x hx ht) ht, h.next.trans h'.next, h'.boot.trans h.boot, h'.pwr.trans h.pwr⟩

theorem foldl {A : Type} {step : Dev → A → Dev} (hs : ∀ d a, Dev.Replayed d (step d a)) (as : List A) : ∀ d : Dev, d.Replayed (as.foldl step d) := by
  induction as with
  | nil => exact .refl
  | cons a as ih => exact fun d => (hs d a).trans (ih _)

theorem setNum (h : d.Replayed e) (a v : Nat) : d.Replayed (e.setNum a v) := h.trans (of_same rfl rfl rfl rfl)

theorem setNum2 (h : d.Replayed e) (lo hi v : Nat) : d.Replayed (e.setNum2 lo hi v) := h.trans (of_same rfl rfl rfl rfl)

theorem setFld (h : d.Replayed e) (g : Fld) (v : Nat) : d.Replayed (e.setFld g v) := h.trans (of_same rfl rfl rfl rfl)

theorem setFlag (h : d.Replayed e) (g : Fld) (b : Bool) : d.Replayed (e.setFlag g b) := h.trans (of_same rfl rfl rfl rfl)

theorem setCeil (h : d.Replayed e) (c : Nat) : d.Replayed (e.setCeil c) := h.trans (of_same rfl rfl rfl rfl)

theorem owe (h : d.Replayed e) (lpos : Nat) (r : Rec) (ws : List Word) : d.Replayed (e.owe lpos r ws) := h.trans (of_same rfl rfl rfl rfl)

theorem showHead (h : d.Replayed e) : d.Replayed e.showHead := h.trans (of_same rfl rfl rfl rfl)

theorem raiseIrq (h : d.Replayed e) (v : Nat) : d.Replayed (e.raiseIrq v) := h.trans (of_same (by simp) (by simp) (by simp) (by simp))

theorem ldgRaise (h : d.Replayed e) (r : Reason) : d.Replayed (e.ldgRaise r) := by
  refine h.trans ?_
  unfold Dev.ldgRaise
  split
  · exact .refl e
  · exact of_same rfl rfl rfl rfl

theorem wearBy (h : d.Replayed e) (n : Nat) : d.Replayed (e.wearBy n) :=
  h.trans (Dev.wearBy_induction (P := fun f => e.Replayed f) n (fun _ _ => of_same rfl rfl rfl rfl) fun _ _ hf => hf.ldgRaise _)

theorem writeCkpt (h : d.Replayed e) : d.Replayed e.writeCkpt := by
  refine h.trans ?_
  have hlog := e.ckptWritten_writeCkpt.log
  have hframe : e.writeCkpt = { e with regs := e.writeCkpt.regs, mram := e.writeCkpt.mram, ldg := e.writeCkpt.ldg } := e.ckptWritten_writeCkpt.frame
  generalize e.writeCkpt = f at *
  rw [hframe] at hlog ⊢
  exact of_same hlog rfl rfl rfl

end Dev.Replayed

/-- The head of the log at a slot of a lap. -/
def Dev.headAt (d : Dev) (h rev : Nat) : Dev := { d with mram := { d.mram with head := h, rev := rev } }

/-- A new checkpoint where the block holds one of the two newest. -/
def Dev.ckptSaved (d : Dev) (b : Nat) : Dev :=
  if d.mram.ckpts.any (fun c => c.block == b && (d.mram.ckpts.filter (fun x => decide (c.seq < x.seq))).length < 2) then d.writeCkpt else d

/-- A block of the checkpoint's zone opened to the head: what is stored there goes. -/
def Dev.blockOpened (d : Dev) (b : Nat) : Dev :=
  { d.ckptSaved b with mram := { (d.ckptSaved b).mram with ckpts := (d.ckptSaved b).mram.ckpts.filter (fun c => c.block != b) } }

theorem Dev.advanceHead_eq (d : Dev) : ∃ h rev, d.advanceHead =
    if h % blockSlots = 0 then (d.headAt h rev).blockOpened (h / blockSlots) else d.headAt h rev :=
  ⟨(if d.mram.head + 1 = ringSlots then (0, d.mram.rev + 1) else (d.mram.head + 1, d.mram.rev)).1,
   (if d.mram.head + 1 = ringSlots then (0, d.mram.rev + 1) else (d.mram.head + 1, d.mram.rev)).2, rfl⟩

namespace Dev.Replayed
variable {d e f : Dev}

theorem blockOpened (h : d.Replayed e) (b : Nat) : d.Replayed (e.blockOpened b) := by
  refine .trans (e := e.ckptSaved b) ?_ (of_same rfl rfl rfl rfl)
  unfold Dev.ckptSaved
  split
  · exact h.writeCkpt
  · exact h

theorem advanceHead (h : d.Replayed e) : d.Replayed e.advanceHead := by
  obtain ⟨n, rev, heq⟩ := e.advanceHead_eq
  have hmoved : d.Replayed (e.headAt n rev) := h.trans (of_same rfl rfl rfl rfl)
  rw [heq]
  split
  · exact hmoved.blockOpened _
  · exact hmoved

end Dev.Replayed

/-- The log with one more record, the slots it takes the place of gone. -/
def Dev.logged (d : Dev) (r : Rec) : Dev :=
  { d with mram := { d.mram with
      log := d.mram.log.filter (fun x => decide (d.headPos < x.lpos + logSlots)) ++ [{ slot := d.mram.head, lap := d.mram.rev, body := r }],
      lastUsed := max d.mram.lastUsed d.now } }

theorem Dev.writeRec_eq (d : Dev) (r : Rec) :
    d.writeRec r = (((d.logged r).addSat F.LDG_SEALCNT_RECORDS 1).wearBy 1).advanceHead.showHead := rfl

namespace Dev.Replayed
variable {d e f : Dev}

/-- A record that is no ACCEPT record, written. -/
theorem writeRec (h : d.Replayed e) {r : Rec} (hr : r.typ ≠ 0x10) : d.Replayed (e.writeRec r) := by
  have hlogged : e.Replayed (e.logged r) := by
    refine ⟨fun x hx ht => ?_, Nat.le_refl _, rfl, rfl⟩
    rcases List.mem_append.1 hx with hold | hnew
    · exact (List.mem_filter.1 hold).1
    · rw [List.mem_singleton.1 hnew] at ht
      exact absurd ht hr
  rw [Dev.writeRec_eq]
  exact (((h.trans hlogged).setFld _ _).wearBy 1).advanceHead.showHead

theorem discardTorn (h : d.Replayed e) (n : Nat) : d.Replayed (e.discardTorn n) := by
  refine h.trans ?_
  unfold Dev.discardTorn
  dsimp only
  split
  case h_1 => exact .refl e
  case h_2 s _ =>
    refine ldgRaise (setFld ?_ _ _) _
    exact ⟨fun x hx _ => (List.mem_filter.1 hx).1, Nat.le_refl _, rfl, rfl⟩

theorem calFollow (h : d.Replayed e) : d.Replayed e.calFollow := by
  refine h.trans ?_
  unfold Dev.calFollow
  dsimp only
  split
  · split
    · exact .raiseIrq (.setFlag (by exact of_same rfl rfl rfl rfl) _ _) _
    · exact .refl e
  · split
    · exact of_same rfl rfl rfl rfl
    · split
      · exact of_same rfl rfl rfl rfl
      · split
        · exact of_same rfl rfl rfl rfl
        · exact .raiseIrq (.setFlag (by exact of_same rfl rfl rfl rfl) _ _) _

theorem takeAccept (h : d.Replayed e) (r : Rec) (body : List Word) (after : Bool) : d.Replayed (e.takeAccept r body after) := by
  refine h.trans ?_
  unfold Dev.takeAccept
  dsimp only
  split
  · exact setNum2 (setNum (by exact ⟨fun _ hx _ => hx, Nat.le_max_left _ _, rfl, rfl⟩) _ _) _ _ _
  · exact ⟨fun _ hx _ => hx, Nat.le_max_left _ _, rfl, rfl⟩

/-- A record that only enters the jobs or the numbers, replayed. -/
theorem replayRec (h : d.Replayed e) (p0 : Nat) (x : Slot) : d.Replayed (e.replayRec p0 x) := by
  refine h.trans ?_
  unfold Dev.replayRec
  dsimp only
  split
  · exact (refl e).setCeil _
  · split
    · exact (refl e).setFld _ _
    · exact refl e
  · exact ((refl e).takeAccept _ _ _).owe _ _ _
  · exact (refl e).takeAccept _ _ _
  · split
    · exact owe (by split <;> exact of_same rfl rfl rfl rfl) _ _ _
    · split <;> exact of_same rfl rfl rfl rfl
  · split
    · exact setNum (by exact of_same rfl rfl rfl rfl) _ _
    · exact of_same rfl rfl rfl rfl
  · split
    · exact ((refl e).setNum _ _).setNum2 _ _ _
    · exact refl e
  · exact of_same rfl rfl rfl rfl
  · exact refl e

theorem replayArmed (h : d.Replayed e) (x : Slot) : d.Replayed (e.replayArmed x) := by
  refine h.trans ?_
  have hwritten : ∀ f, e.Replayed f → e.Replayed (match f.closeOf x.body.hm with
    | none => f
    | some c =>
      if f.jobs.any (fun j => j.hm == x.body.hm) then { f with ldg := { f.ldg with reports := f.ldg.reports ++ [(x.body.hm, outcomeOf c.body)] } }
      else if x.body.hm ≤ mget 0 f.ldg.confirmed x.body.ring then f
      else { f with jobs := f.jobs ++ [{ ring := x.body.ring, rseq := 0, hm := x.body.hm, exec := x.body.pos, st := stOfTyp (outcomeOf c.body).typ,
                                         armed := true, outSealed := true, reported := true, out := some (outcomeOf c.body) }] }) := by
    intro f hf
    split
    · exact hf
    · split
      · exact hf.trans (of_same rfl rfl rfl rfl)
      · split
        · exact hf
        · exact hf.trans (of_same rfl rfl rfl rfl)
  refine hwritten (match e.closeOf x.body.hm with
    | some _ => e
    | none => e.writeRec { typ := 0x24, hm := x.body.hm, ring := x.body.ring, pos := x.body.pos, bn := e.now, byteA := 7, w5 := Rsn.uncPower.toNat }) ?_
  split
  · exact refl e
  · exact (refl e).writeRec (show (0x24 : Nat) ≠ 0x10 by decide)

theorem replayTallies (h : d.Replayed e) (c : Ckpt) (p0 : Nat) (log : List Slot) : d.Replayed (e.replayTallies c p0 log) := by
  refine h.trans (trans ?_ (foldl (fun f t => ?_) _ _))
  · exact foldl (fun f t => ((refl f).setNum _ _).setFlag _ _) _ _
  · split
    · exact (refl f).setNum _ _
    · exact (refl f).setNum _ _

theorem replayHigh (h : d.Replayed e) (c : Ckpt) (p0 : Nat) (log : List Slot) : d.Replayed (e.replayHigh c p0 log) :=
  Dev.Replayed.calFollow (h.trans (of_same rfl rfl rfl rfl))

end Dev.Replayed

/-! ## What a replay leaves -/

/-- What a checkpoint holds beside the registers, taken over. -/
def Dev.ckptTaken (d : Dev) (c : Ckpt) : Dev :=
  let e := (d.setCeil (max d.t.ceil c.ceil)).setFld F.CAL_EPOCH_CALENDAR c.epoch
  { e with t := { e.t with last := max e.t.last c.last }, adm := { e.adm with nextHm := c.nextHm, termHm := c.termHm },
           ldg := { e.ldg with confirmed := c.confirmed },
           hst := { e.hst with cqs := c.acked.foldl (fun m x => mset {} m x.1 ({ mget {} m x.1 with acked := x.2 } : CqSt)) e.hst.cqs },
           asy := { e.asy with extPend := c.skewExt, rskew := c.rskew } }

/-- The ledger as a checkpoint tells it: nothing comes to the log, and the next hallmark is the checkpoint's or a later one. -/
theorem Dev.fromCkpt_replayed (d : Dev) (c : Ckpt) : (d.ckptTaken c).Replayed (d.fromCkpt c) := by
  have hrings : (d.ckptTaken c).Replayed (c.rings.foldl (fun d r => (d.setNum (R.JR_NEXTSEQ r.1) r.2.1).setNum2 (R.JR_LASTHM_LO r.1)
    (R.JR_LASTHM_HI r.1) r.2.2) (d.ckptTaken c)) := .foldl (fun e _ => ((Dev.Replayed.refl e).setNum _ _).setNum2 _ _ _) _ _
  have htallies := hrings.trans (.foldl (step := fun d (t : Nat × Nat) => (d.setNum (R.TAL_LAST t.1) t.2).setFlag (F.TAL_STAT_LAST_VALID t.1) true)
    (fun e _ => ((Dev.Replayed.refl e).setNum _ _).setFlag _ _) c.tallyLast _)
  have hhops := htallies.trans (.foldl (step := fun d (h : Nat × Nat) => d.setNum (R.ASY_HOPASYM h.1) h.2)
    (fun e _ => (Dev.Replayed.refl e).setNum _ _) c.hopAsym _)
  exact (((hhops.setNum _ _).setNum _ _).setNum _ _).setNum2 _ _ _

/-- An ACCEPT record replayed leaves its hallmark behind. -/
theorem Dev.hm_lt_nextHm_replayRec (d : Dev) (p0 : Nat) {x : Slot} (hx : x.body.typ = 0x10) : x.body.hm < (d.replayRec p0 x).adm.nextHm := by
  have hadm : (d.replayRec p0 x).adm.nextHm = max d.adm.nextHm (x.body.hm + 1) := by
    unfold Dev.replayRec
    simp only [hx]
    dsimp only [Dev.owe, Dev.takeAccept]
    split <;> rfl
  omega

/-- Every ACCEPT record of a log that is replayed has its hallmark behind the next one. -/
theorem Dev.hm_lt_nextHm_replay (p0 : Nat) {x : Slot} (hx : x.body.typ = 0x10) : ∀ (log : List Slot) (d : Dev), x ∈ log →
    x.body.hm < (log.foldl (fun d s => d.replayRec p0 s) d).adm.nextHm := by
  intro log
  induction log with
  | nil => exact fun d h => absurd h List.not_mem_nil
  | cons y log ih =>
    intro d h
    rcases List.mem_cons.1 h with rfl | h
    · exact (d.hm_lt_nextHm_replayRec p0 hx).trans_le
        (Dev.Replayed.foldl (fun e y => (Dev.Replayed.refl e).replayRec p0 y) log (d.replayRec p0 x)).next
    · exact ih _ h

/-- Where the checkpoint stands in the log. -/
def Ckpt.place (c : Ckpt) : Nat := c.rev * ringSlots + c.head

/-- The records that a replay takes from a checkpoint on. -/
def Dev.retainedLog (d : Dev) (c : Ckpt) : List Slot := d.mram.log.filter fun x => decide (c.retained ≤ x.lpos)

/-- The device when the records of its log are taken over. -/
def Dev.recsReplayed (d : Dev) (c : Ckpt) : Dev := (d.retainedLog c).foldl (fun d s => d.replayRec c.place s) (d.fromCkpt c)

theorem Dev.replayLog_eq (d : Dev) (c : Ckpt) : d.replayLog c =
    ((((armedRecs (d.retainedLog c)).foldl Dev.replayArmed
      ((d.recsReplayed c).setNum2 R.JR_IK_NEXTHM_LO R.JR_IK_NEXTHM_HI ((d.recsReplayed c).adm.nextHm % 2 ^ 48))).replayTallies c c.place
        (d.retainedLog c)).replayHigh c c.place (d.retainedLog c)).showHead := rfl

theorem Dev.recsReplayed_replayed (d : Dev) (c : Ckpt) : (d.ckptTaken c).Replayed (d.recsReplayed c) :=
  (d.fromCkpt_replayed c).trans (.foldl (fun e y => (Dev.Replayed.refl e).replayRec c.place y) _ _)

theorem Dev.replayLog_replayed (d : Dev) (c : Ckpt) : (d.recsReplayed c).Replayed (d.replayLog c) := by
  rw [Dev.replayLog_eq]
  exact ((((Dev.Replayed.refl _).setNum2 _ _ _).trans (.foldl (fun e y => (Dev.Replayed.refl e).replayArmed y) _ _)).replayTallies _ _ _
    |>.replayHigh _ _ _).showHead

/-- A replay from a checkpoint: no hallmark of the retained log, and none that the checkpoint counted, is left to assign again. -/
theorem Dev.replayLog_hallmarks (d : Dev) (c : Ckpt) : c.nextHm ≤ (d.replayLog c).adm.nextHm ∧
    ∀ x ∈ (d.replayLog c).mram.log, x.body.typ = 0x10 → c.retained ≤ x.lpos → x.body.hm < (d.replayLog c).adm.nextHm := by
  have htaken := d.recsReplayed_replayed c
  have hlater := d.replayLog_replayed c
  refine ⟨htaken.next.trans hlater.next, fun x hx ht hr => ?_⟩
  have hlog : x ∈ d.mram.log := htaken.log x (hlater.log x hx ht) ht
  have hmem : x ∈ d.retainedLog c := List.mem_filter.2 ⟨hlog, by simpa using hr⟩
  exact (Dev.hm_lt_nextHm_replay c.place ht _ (d.fromCkpt c) hmem).trans_le hlater.next

theorem Dev.replayLog_role (d : Dev) (c : Ckpt) : (d.replayLog c).boot = d.boot ∧ (d.replayLog c).pwr = d.pwr := by
  have h := (d.recsReplayed_replayed c).trans (d.replayLog_replayed c)
  exact ⟨h.boot.trans rfl, h.pwr.trans rfl⟩

/-- The own position declared with nothing held there. -/
def Dev.selfDeclared (d : Dev) : Dev := { d with ldg := { d.ldg with decide_ := [(d.pos, [])], declared := [d.pos] } }

/-- A device of a ring after its replay. -/
def Dev.afterReplay (d : Dev) (i : ReplayIn) (c : Ckpt) : Dev :=
  (((d.setNum R.LDG_REPLAY_T (min i.dur 65535)).discardTorn i.torn).replayLog c).selfDeclared.writeCkpt

/-- The replay noted as done. -/
def Dev.replayDone (d : Dev) : Dev := { d with boot := { d.boot with replayed := true } }

theorem Dev.afterReplay_replayed (d : Dev) (i : ReplayIn) (c : Ckpt) :
    (((d.setNum R.LDG_REPLAY_T (min i.dur 65535)).discardTorn i.torn).replayLog c).Replayed (d.afterReplay i c) :=
  Dev.Replayed.writeCkpt (.of_same rfl rfl rfl rfl)

theorem Dev.afterReplay_hallmarks (d : Dev) (i : ReplayIn) (c : Ckpt) : c.nextHm ≤ (d.afterReplay i c).adm.nextHm ∧
    ∀ x ∈ (d.afterReplay i c).mram.log, x.body.typ = 0x10 → c.retained ≤ x.lpos → x.body.hm < (d.afterReplay i c).adm.nextHm := by
  have hlater := d.afterReplay_replayed i c
  obtain ⟨hnext, hall⟩ := ((d.setNum R.LDG_REPLAY_T (min i.dur 65535)).discardTorn i.torn).replayLog_hallmarks c
  exact ⟨hnext.trans hlater.next, fun x hx ht hr => (hall x (hlater.log x hx ht) ht hr).trans_le hlater.next⟩

theorem Dev.afterReplay_role (d : Dev) (i : ReplayIn) (c : Ckpt) : (d.afterReplay i c).boot = d.boot ∧ (d.afterReplay i c).pwr = d.pwr := by
  have hlater := d.afterReplay_replayed i c
  have htorn : d.Replayed ((d.setNum R.LDG_REPLAY_T (min i.dur 65535)).discardTorn i.torn) := ((Dev.Replayed.refl d).setNum _ _).discardTorn _
  obtain ⟨hboot, hpwr⟩ := ((d.setNum R.LDG_REPLAY_T (min i.dur 65535)).discardTorn i.torn).replayLog_role c
  exact ⟨hlater.boot.trans (hboot.trans htorn.boot), hlater.pwr.trans (hpwr.trans htorn.pwr)⟩

/-- Phase 4 of a reserve that starts ends in the training of its ring sides. -/
theorem Dev.phaseDone_replay {d : Dev} (hr : d.boot.role = .reserve) (hx : d.pwr.exiting = false) (us : Nat) :
    (d.phaseDone 4 us).phase = 5 ∧ (d.phaseDone 4 us).boot = d.boot ∧ (d.phaseDone 4 us).mram = d.mram ∧ (d.phaseDone 4 us).adm = d.adm := by
  have heq : d.phaseDone 4 us =
      { d.setFld (F.SUP_BOOT_T_COMPLETION 4) (min us 0xFFFFFF) with wr := { d.wr with side := [(0, { lstate := 1 }), (1, { lstate := 1 })] } }.setPhase 5 := by
    simp [Dev.phaseDone, hr, hx]
  rw [heq]
  refine ⟨Dev.phase_setPhase _ _ (by decide), ?_, ?_, ?_⟩ <;> simp

theorem exec_replay_ring {s : State} {i : ReplayIn} {c : Ckpt} (hv : s.dev.pwr.vcore = true) (hp : s.dev.phase = 4)
    (hrep : s.dev.boot.replayed = false) (hcor : s.dev.ldg.corrupt = false) (hr : s.dev.boot.role = .reserve)
    (hb : s.dev.flag F.LDG_STAT_BLANK = false) (hc : s.dev.newestCkpt = some c) (hg : i.gap = false) :
    exec (.replay i) s = .next { s with dev := (s.dev.afterReplay i c).replayDone.phaseDone 4 i.us } := by
  have hblank : (s.dev.setNum R.LDG_REPLAY_T (min i.dur 65535)).flag F.LDG_STAT_BLANK = false :=
    (Dev.regsBut.flag (l := [R.LDG_REPLAY_T]) (.setNum (.refl _ _) (by simp) _) (by decide)).trans hb
  have hck : (s.dev.setNum R.LDG_REPLAY_T (min i.dur 65535)).newestCkpt = some c := hc
  have hrole : (((s.dev.setNum R.LDG_REPLAY_T (min i.dur 65535)).discardTorn i.torn).replayLog c).boot.role = .reserve := by
    rw [← (s.dev.afterReplay_replayed i c).boot, (s.dev.afterReplay_role i c).1, hr]
  refine congrArg (fun d : Dev => Host.Outcome.next { s with dev := d }) ?_
  dsimp only
  rw [if_neg (by simp [hv, hp, hrep, hcor]), hck]
  dsimp only
  rw [if_neg (by simp [hblank]), if_neg (by simp [hg])]
  refine congrArg (fun d : Dev => (d.writeCkpt.replayDone).phaseDone 4 i.us) ?_
  exact if_neg (by rw [hrole]; decide)

/-! ## Decisions -/

theorem Dev.reports_jobReleased (d : Dev) (j : Job) (o : Outcome) : (d.jobReleased j o).ldg.reports = d.ldg.reports := by
  simp [Dev.jobReleased]

/-- The end of a job leaves the reports that wait for the decision. -/
theorem Dev.reports_endJob (d : Dev) (h : Nat) (o : Outcome) : (d.endJob h o).ldg.reports = d.ldg.reports := by
  cases hj : d.job? h with
  | none => rw [Dev.endJob_of_none hj]
  | some j =>
    cases hout : j.out with
    | some x => rw [Dev.endJob_of_decided hj (by rw [hout]; rfl)]
    | none =>
      rcases Dev.endJob_of_open hj hout o with heq | heq <;> rw [heq]
      · exact d.reports_jobReleased j o
      · simpa [Dev.armedDropped] using d.reports_jobReleased j o

/-- A job that its executor's report decides. -/
def Job.decidedBy (o : Outcome) (j : Job) : Job := { j with st := stOfTyp o.typ, out := some o, armed := true, outSealed := true, reported := true }

/-- The count of the jobs that a replay found UNCONFIRMED. -/
def Dev.unconfirmedCounted (d : Dev) (o : Outcome) : Dev := if o.typ = 7 then d.addSat F.LDG_REPLAY_UNCONFIRMED 1 else d

theorem Dev.unconfirmedCounted_keeps (d : Dev) (o : Outcome) : (d.unconfirmedCounted o).jobs = d.jobs ∧ (d.unconfirmedCounted o).ldg = d.ldg := by
  unfold Dev.unconfirmedCounted
  split <;> exact ⟨rfl, rfl⟩

theorem Dev.decideJob_of_report {d : Dev} {j : Job} {x : Nat × Outcome} (h : d.ldg.reports.find? (fun r => r.1 == j.hm) = some x)
    (held : List (Nat × Bool)) : d.decideJob held j = (d.unconfirmedCounted x.2).modJob j.hm (Job.decidedBy x.2) := by
  unfold Dev.decideJob
  rw [h]
  rfl

/-- One job decided: only that job may have changed, and the reports wait on. -/
theorem Dev.decideJob_leaves (d : Dev) (held : List (Nat × Bool)) (j : Job) :
    d.JobsTouched (d.decideJob held j) [j.hm] ∧ (d.decideJob held j).ldg.reports = d.ldg.reports := by
  cases hx : d.ldg.reports.find? (fun r => r.1 == j.hm) with
  | some x =>
    rw [Dev.decideJob_of_report hx]
    obtain ⟨hjobs, hldg⟩ := d.unconfirmedCounted_keeps x.2
    exact ⟨.trans (.of_jobs hjobs _) (.modJob _ (g := Job.decidedBy x.2) (fun _ => rfl) (fun _ => rfl) _), congrArg LdgSt.reports hldg⟩
  | none =>
    unfold Dev.decideJob
    rw [hx]
    dsimp only
    split
    · refine ⟨.modJob _ (g := fun j => { j with st := _, sent := true }) (fun _ => rfl) (fun _ => rfl) _, rfl⟩
    · split
      · split
        · exact ⟨.refl d _, rfl⟩
        · exact ⟨.trans (.modJob _ (g := fun j => { j with st := .accepted, sent := false, armed := false }) (fun _ => rfl) (fun _ => rfl) _)
            (.of_jobs rfl _), rfl⟩
      · exact ⟨.trans (.modJob _ (g := fun j => { j with armed := false }) (fun _ => rfl) (fun _ => rfl) _) (Dev.jobsTouched_endJob _ _ _),
          Dev.reports_endJob _ _ _⟩

/-- The jobs of a position that a declaration decides. -/
def Dev.undecided (d : Dev) (p : Nat) : List Job := d.jobs.filter fun j => j.exec == p && j.out.isNone && (j.sent || j.body.isEmpty)

/-- The jobs of one declared position decided. -/
def Dev.decidePos (d : Dev) (x : Nat × List (Nat × Bool)) : Dev := (d.undecided x.1).foldl (fun d j => d.decideJob x.2 j) d

/-- The decision's waiting lists emptied. -/
def Dev.decisionsDone (d : Dev) : Dev := { d with ldg := { d.ldg with decide_ := [], reports := [] } }

theorem Dev.decideAll_eq (d : Dev) : d.decideAll = (d.ldg.decide_.foldl Dev.decidePos d).decisionsDone := rfl

theorem Dev.jobsTouched_decidePos (d : Dev) (x : Nat × List (Nat × Bool)) : d.JobsTouched (d.decidePos x) ((d.undecided x.1).map Job.hm) :=
  Dev.JobsTouched.foldl (fun e j => (e.decideJob_leaves x.2 j).1) _ d

theorem Dev.reports_decidePos (d : Dev) (x : Nat × List (Nat × Bool)) : (d.decidePos x).ldg.reports = d.ldg.reports :=
  foldl_keeps _ (fun e => e.ldg.reports) (fun e j => (e.decideJob_leaves x.2 j).2) _ d

/-- A job that the declaration does not decide stays. -/
theorem Dev.mem_decidePos {d : Dev} (hnd : (d.jobs.map Job.hm).Nodup) {j : Job} (hj : j ∈ d.jobs) {x : Nat × List (Nat × Bool)}
    (h : j ∉ d.undecided x.1) : j ∈ (d.decidePos x).jobs :=
  (d.jobsTouched_decidePos x).mem hj (hm_notMem_of_notMem hnd (fun _ hk => (List.mem_filter.1 hk).1) hj h)

/-- A job of the declared position takes the outcome that its executor reported. -/
theorem Dev.decidePos_decides {d : Dev} (hnd : (d.jobs.map Job.hm).Nodup) {j : Job} {x : Nat × List (Nat × Bool)} (hj : j ∈ d.undecided x.1)
    {y : Nat × Outcome} (hy : d.ldg.reports.find? (fun r => r.1 == j.hm) = some y) : j.decidedBy y.2 ∈ (d.decidePos x).jobs := by
  have hsub : ((d.undecided x.1).map Job.hm).Nodup := (List.filter_sublist.map _).nodup hnd
  obtain ⟨e, hrep, -, hkept, hlast⟩ := Dev.JobsTouched.foldl_reaches (step := fun d (j : Job) => d.decideJob x.2 j) (key := Job.hm)
    (fun e j => (e.decideJob_leaves x.2 j).1) (P := fun e => e.ldg.reports = d.ldg.reports)
    (fun e j h => (e.decideJob_leaves x.2 j).2.trans h) (d.undecided x.1) d hsub rfl j hj
  refine hlast _ ?_ rfl
  rw [Dev.decideJob_of_report (by rw [hrep]; exact hy)]
  refine mem_jobs_modJob ?_ _
  rw [(e.unconfirmedCounted_keeps y.2).1]
  exact hkept j (List.mem_filter.1 hj).1 rfl

theorem Dev.hms_decidePos (d : Dev) (x : Nat × List (Nat × Bool)) : (d.decidePos x).jobs.map Job.hm = d.jobs.map Job.hm :=
  (d.jobsTouched_decidePos x).hms

theorem Dev.hms_decidePoss (xs : List (Nat × List (Nat × Bool))) : ∀ d : Dev, (xs.foldl Dev.decidePos d).jobs.map Job.hm = d.jobs.map Job.hm :=
  foldl_keeps Dev.decidePos (fun e => e.jobs.map Job.hm) Dev.hms_decidePos xs

/-- A job that has an outcome, or whose position has not declared itself, stays. -/
theorem Dev.mem_decidePoss {j : Job} (xs : List (Nat × List (Nat × Bool))) (h : j.out ≠ none ∨ j.exec ∉ xs.map (fun x => x.1)) :
    ∀ d : Dev, (d.jobs.map Job.hm).Nodup → j ∈ d.jobs → j ∈ (xs.foldl Dev.decidePos d).jobs := by
  induction xs with
  | nil => exact fun d _ hj => hj
  | cons x xs ih =>
    intro d hnd hj
    have hkept : j ∉ d.undecided x.1 := by
      intro hmem
      have hcond := (List.mem_filter.1 hmem).2
      simp only [Bool.and_eq_true, beq_iff_eq, Option.isNone_iff_eq_none] at hcond
      obtain ⟨⟨hexec, hout⟩, -⟩ := hcond
      exact h.elim (fun ho => ho hout) (fun he => he (by simp [hexec]))
    exact ih (h.imp id fun he hmem => he (List.mem_cons_of_mem _ hmem)) _ (by rw [Dev.hms_decidePos]; exact hnd) (Dev.mem_decidePos hnd hj hkept)

/-- A sent job without an outcome, of a position that has declared itself, takes the outcome that was reported. -/
theorem Dev.decidePoss_decides {j : Job} (hout : j.out = none) (hsent : j.sent = true) {y : Nat × Outcome} (xs : List (Nat × List (Nat × Bool)))
    (h : j.exec ∈ xs.map (fun x => x.1)) : ∀ d : Dev, (d.jobs.map Job.hm).Nodup → j ∈ d.jobs →
      d.ldg.reports.find? (fun r => r.1 == j.hm) = some y → j.decidedBy y.2 ∈ (xs.foldl Dev.decidePos d).jobs := by
  induction xs with
  | nil => exact absurd h List.not_mem_nil
  | cons x xs ih =>
    intro d hnd hj hy
    have hnd' : ((d.decidePos x).jobs.map Job.hm).Nodup := by rw [Dev.hms_decidePos]; exact hnd
    by_cases hx : j.exec = x.1
    · have hmem : j ∈ d.undecided x.1 := List.mem_filter.2 ⟨hj, by simp [hx, hout, hsent]⟩
      exact Dev.mem_decidePoss xs (.inl (by simp [Job.decidedBy])) _ hnd' (Dev.decidePos_decides hnd hmem hy)
    · have hkept : j ∉ d.undecided x.1 := fun hmem => by
        have hcond := (List.mem_filter.1 hmem).2
        simp [hx] at hcond
      exact ih ((List.mem_cons.1 h).resolve_left hx) _ hnd' (Dev.mem_decidePos hnd hj hkept) (by rw [Dev.reports_decidePos]; exact hy)

theorem exec_replayDecide {s : State} (hm : s.dev.isMgr = true) (hk : s.dev.boot.roleKnown = true) :
    exec .replayDecide s = .next { s with dev := s.dev.decideAll } := by
  refine congrArg (fun d : Dev => Host.Outcome.next { s with dev := d }) ?_
  exact if_pos (by simp [hm, hk])

/-- Settles O23: every record that is replayed raises the next hallmark past its own, and each declared position is decided once. -/
theorem replayRestoresLedger : Obligations.ReplayRestoresLedger := by
  constructor
  · intro s i c hv hp hrep hcor hr hx hb hc hg
    have hexec := exec_replay_ring hv hp hrep hcor hr hb hc hg
    obtain ⟨hboot, hpwr⟩ := s.dev.afterReplay_role i c
    obtain ⟨hnext, hall⟩ := s.dev.afterReplay_hallmarks i c
    generalize s.dev.afterReplay i c = e at *
    obtain ⟨hphase, pboot, pmram, padm⟩ := Dev.phaseDone_replay (d := e.replayDone) ((congrArg BootSt.role hboot).trans hr)
      ((congrArg PwrSt.exiting hpwr).trans hx) i.us
    generalize e.replayDone.phaseDone 4 i.us = f at *
    refine ⟨_, hexec, congrArg BootSt.replayed pboot, hphase, ?_, ?_⟩
    · rw [padm]; exact hnext
    · rw [padm, pmram]; exact hall
  · intro s hm hk hnd
    have hexec := exec_replayDecide hm hk
    rw [Dev.decideAll_eq] at hexec
    exact ⟨_, hexec, rfl, rfl, Dev.hms_decidePoss _ _, fun j hj hne => Dev.mem_decidePoss _ (.inr hne) _ hnd hj,
      fun j hj hin hout hsent y hy => ⟨_, Dev.decidePoss_decides hout hsent _ hin _ hnd hj hy, rfl, rfl, rfl⟩⟩

end Sys2Proof.Machine
end

section

/-!
PROOF. What the settlement of the schedules on a device leaves: a job keeps its place, and goes on, goes on later, or ends (R336 to R342, R353).
-/

namespace Sys2Proof.Machine
open Sys2Proof

/-! ## The frame of a job's end -/

/-- Beside registers, outputs, jobs and what is due or reported of them, e is d. -/
structure Dev.JobsFrame (d e : Dev) : Prop where
  frame : e = { d with regs := e.regs, jobs := e.jobs, ldg := e.ldg, po := e.po, sp := e.sp, wr := e.wr, out := e.out, draws := e.draws }
  ldg : e.ldg = { d.ldg with queue := e.ldg.queue }
  wr : e.wr = { d.wr with items := e.wr.items, bulk := e.wr.bulk }
  regs : d.regsBut e endRegs

namespace Dev.JobsFrame
variable {d e f : Dev}

theorem refl (d : Dev) : d.JobsFrame d := ⟨rfl, rfl, rfl, .refl d _⟩

theorem trans (h : d.JobsFrame e) (h' : e.JobsFrame f) : d.JobsFrame f := by
  obtain ⟨hframe, hldg, hwr, hregs⟩ := h
  obtain ⟨hframe', hldg', hwr', hregs'⟩ := h'
  refine ⟨?_, hldg'.trans (congrArg (fun l : LdgSt => { l with queue := f.ldg.queue }) hldg),
    hwr'.trans (congrArg (fun r : RingSt => { r with items := f.wr.items, bulk := f.wr.bulk }) hwr), hregs.trans hregs'⟩
  rw [hframe] at hframe'
  exact hframe'

theorem foldl {A : Type} {step : Dev → A → Dev} (hs : ∀ d a, Dev.JobsFrame d (step d a)) (as : List A) : ∀ d : Dev, d.JobsFrame (as.foldl step d) := by
  induction as with
  | nil => exact .refl
  | cons a as ih => exact fun d => (hs d a).trans (ih _)

theorem modJob (d : Dev) (h : Nat) (g : Job → Job) : d.JobsFrame (d.modJob h g) := ⟨rfl, rfl, rfl, .of_regs rfl _⟩

end Dev.JobsFrame

theorem Dev.wr_bulkPut (d : Dev) (p k : Nat) (ws : List Word) : (d.bulkPut p k ws).wr = { d.wr with bulk := (d.bulkPut p k ws).wr.bulk } := by
  unfold Dev.bulkPut
  (repeat' split) <;> rfl

theorem Dev.wr_reportEnd (d : Dev) (h : Nat) :
    (d.reportEnd h).wr = { d.wr with items := (d.reportEnd h).wr.items, bulk := (d.reportEnd h).wr.bulk } := by
  unfold Dev.reportEnd
  (repeat' split)
  case h_2.isFalse =>
    dsimp only
    split
    · rw [Dev.wr_bulkPut, Dev.report_items_only]; rfl
    · rw [Dev.report_items_only]; rfl
  all_goals rfl

theorem Dev.wr_setOut_outTrans (d : Dev) (n : Nat) (o : OutSt) (was : Option Bool) : ((d.setOut n o).outTrans n was).wr = d.wr := by
  rw [Dev.outTrans_regs_out_only]; rfl

theorem Dev.wr_releaseLanes (d : Dev) (h : Nat) : (d.releaseLanes h).wr = d.wr := by
  unfold Dev.releaseLanes
  refine foldl_keeps _ (fun e => e.wr) (fun e n => ?_) _ _
  dsimp only
  split
  · rfl
  · split <;> exact Dev.wr_setOut_outTrans _ _ _ _

theorem Dev.wr_jobReleased (d : Dev) (j : Job) (o : Outcome) : (d.jobReleased j o).wr = d.wr := by simp [Dev.jobReleased, Dev.wr_releaseLanes]

theorem Dev.ldg_jobReleased (d : Dev) (j : Job) (o : Outcome) : (d.jobReleased j o).ldg = d.ldg := by simp [Dev.jobReleased]

theorem Dev.ldg_endJob (d : Dev) (h : Nat) (o : Outcome) : (d.endJob h o).ldg = { d.ldg with queue := (d.endJob h o).ldg.queue } := by
  cases hj : d.job? h with
  | none => rw [Dev.endJob_of_none hj]
  | some j =>
    cases hout : j.out with
    | some x => rw [Dev.endJob_of_decided hj (by rw [hout]; rfl)]
    | none =>
      rcases Dev.endJob_of_open hj hout o with heq | heq <;> rw [heq]
      · rw [Dev.dueRec, Dev.ldg_jobReleased]
      · have hl : (((d.jobReleased j o).armedDropped h).reportEnd h).ldg = ((d.jobReleased j o).armedDropped h).ldg := by simp
        rw [hl, Dev.armedDropped, Dev.ldg_jobReleased]

theorem Dev.wr_endJob (d : Dev) (h : Nat) (o : Outcome) :
    (d.endJob h o).wr = { d.wr with items := (d.endJob h o).wr.items, bulk := (d.endJob h o).wr.bulk } := by
  cases hj : d.job? h with
  | none => rw [Dev.endJob_of_none hj]
  | some j =>
    cases hout : j.out with
    | some x => rw [Dev.endJob_of_decided hj (by rw [hout]; rfl)]
    | none =>
      rcases Dev.endJob_of_open hj hout o with heq | heq <;> rw [heq]
      · rw [show ((d.jobReleased j o).dueRec 2 [j.endRec o]).wr = (d.jobReleased j o).wr from rfl, Dev.wr_jobReleased]
      · rw [Dev.wr_reportEnd, show ((d.jobReleased j o).armedDropped h).wr = (d.jobReleased j o).wr from rfl, Dev.wr_jobReleased]

theorem Dev.jobsFrame_endJob (d : Dev) (h : Nat) (o : Outcome) : d.JobsFrame (d.endJob h o) := by
  refine ⟨?_, d.ldg_endJob h o, d.wr_endJob h o, d.regsBut_endJob h o⟩
  have hkeeps := d.endJob_keeps h o
  generalize d.endJob h o = e at *
  cases e
  simp_all

/-! ## How a job follows a settlement -/

/-- A job after a settlement: it goes on under its stamp, resolved as it was, or it has ended; a job that is over stays as it is. -/
structure Job.Follows (j k : Job) : Prop where
  stamp : k.stamp = j.stamp
  resolved : k.resolved = j.resolved
  state : (k.st = j.st ∧ k.out = j.out) ∨ (k.out ≠ none ∧ k.active = false)
  past : j.active = false → k = j

theorem Job.Follows.refl (j : Job) : j.Follows j := ⟨rfl, rfl, .inl ⟨rfl, rfl⟩, fun _ => rfl⟩

theorem Job.active_of_st {j k : Job} (h : k.st = j.st) : k.active = j.active := by rw [Job.active, h, Job.active]

theorem Job.Follows.trans {i j k : Job} (h : i.Follows j) (h' : j.Follows k) : i.Follows k := by
  refine ⟨h'.stamp.trans h.stamp, h'.resolved.trans h.resolved, ?_, fun hi => ?_⟩
  · rcases h.state with ⟨hst, hout⟩ | ⟨hout, hact⟩
    · rcases h'.state with ⟨hst', hout'⟩ | hended
      · exact .inl ⟨hst'.trans hst, hout'.trans hout⟩
      · exact .inr hended
    · rw [h'.past hact]; exact .inr ⟨hout, hact⟩
  · have hj := h.past hi
    rw [h'.past (hj ▸ hi), hj]

/-- Every job of d is still there, and has followed a settlement. -/
structure Dev.JobsFollow (d e : Dev) : Prop where
  hms : e.jobs.map Job.hm = d.jobs.map Job.hm
  job : ∀ h j, d.job? h = some j → ∃ k, e.job? h = some k ∧ j.Follows k

theorem Dev.job?_modJob_ne {d : Dev} {h n : Nat} {g : Job → Job} (hhm : ∀ k, (g k).hm = k.hm) (hn : n ≠ h) : (d.modJob h g).job? n = d.job? n := by
  have hsame : ((fun k : Job => k.hm == n) ∘ fun k => if k.hm == h then g k else k) = fun k => k.hm == n := by
    funext k
    dsimp only [Function.comp]
    split
    · rw [hhm]
    · rfl
  have hmap : (d.modJob h g).job? n = (d.job? n).map fun k => if k.hm == h then g k else k := by
    rw [Dev.job?, Dev.modJob, List.find?_map, hsame, Dev.job?]
  rw [hmap]
  cases hk : d.job? n with
  | none => rfl
  | some k =>
    have hne : ¬(k.hm == h) = true := by rw [Dev.hm_of_job? hk]; simpa using hn
    exact congrArg some (if_neg hne)

namespace Dev.JobsFollow
variable {d e f : Dev}

theorem of_jobs (h : e.jobs = d.jobs) : d.JobsFollow e :=
  ⟨by rw [h], fun hm j hj => ⟨j, (Dev.job?_congr h hm).trans hj, .refl j⟩⟩

theorem refl (d : Dev) : d.JobsFollow d := of_jobs rfl

theorem trans (h : d.JobsFollow e) (h' : e.JobsFollow f) : d.JobsFollow f := by
  refine ⟨h'.hms.trans h.hms, fun hm j hj => ?_⟩
  obtain ⟨k, hk, hjk⟩ := h.job hm j hj
  obtain ⟨l, hl, hkl⟩ := h'.job hm k hk
  exact ⟨l, hl, hjk.trans hkl⟩

theorem foldl {A : Type} {step : Dev → A → Dev} (hs : ∀ d a, Dev.JobsFollow d (step d a)) (as : List A) : ∀ d : Dev, d.JobsFollow (as.foldl step d) := by
  induction as with
  | nil => exact .refl
  | cons a as ih => exact fun d => (hs d a).trans (ih _)

/-- A change of the one job of a hallmark that follows it. -/
theorem modJob {h : Nat} {j : Job} (hj : d.job? h = some j) {g : Job → Job} (hhm : ∀ k, (g k).hm = k.hm) (hg : j.Follows (g j)) :
    d.JobsFollow (d.modJob h g) := by
  refine ⟨Dev.hms_modJob d h hhm, fun n k hk => ?_⟩
  by_cases hn : n = h
  · subst hn
    obtain rfl := Option.some.inj (hj.symm.trans hk)
    exact ⟨g j, Dev.job?_modJob hj hhm, hg⟩
  · exact ⟨k, (Dev.job?_modJob_ne hhm hn).trans hk, .refl k⟩

end Dev.JobsFollow

theorem stOfTyp_expired : stOfTyp 6 = .expired := rfl

/-- An active job ended EXPIRED has followed, whether its end is already reported or not. -/
theorem Job.follows_ended {j : Job} (hact : j.active = true) {o : Outcome} (ho : o.typ = 6) : j.Follows (j.ended o) ∧ j.Follows (j.ended o).shown := by
  have hend : (j.ended o).active = false := by simp [Job.ended, Job.active, ho, stOfTyp_expired]
  have hout : (j.ended o).out ≠ none := by simp [Job.ended]
  exact ⟨⟨rfl, rfl, .inr ⟨hout, hend⟩, fun h => absurd h (by simp [hact])⟩, ⟨rfl, rfl, .inr ⟨hout, hend⟩, fun h => absurd h (by simp [hact])⟩⟩

theorem Dev.modJob_modJob (d : Dev) (h : Nat) {f : Job → Job} (hf : ∀ k, (f k).hm = k.hm) (g : Job → Job) :
    (d.modJob h f).modJob h g = d.modJob h fun k => g (f k) := by
  have hmap : (d.jobs.map fun k => if k.hm == h then f k else k).map (fun k => if k.hm == h then g k else k) =
      d.jobs.map fun k => if k.hm == h then g (f k) else k := by
    rw [List.map_map]
    refine List.map_congr_left fun k _ => ?_
    dsimp only [Function.comp]
    by_cases hk : (k.hm == h) = true
    · simp only [hk, hf, if_true]
    · simp only [hk, if_false, Bool.false_eq_true]
  exact congrArg (fun js => ({ d with jobs := js } : Dev)) hmap

/-- The jobs after an open job's end: that one has its outcome, and its end may be reported at once. -/
theorem Dev.jobs_endJob {d : Dev} {h : Nat} {j : Job} (hj : d.job? h = some j) (hout : j.out = none) (o : Outcome) :
    (d.endJob h o).jobs = (d.modJob h (Job.ended o)).jobs ∨ (d.endJob h o).jobs = (d.modJob h fun k => (k.ended o).shown).jobs := by
  obtain rfl := Dev.hm_of_job? hj
  have hrel : ((d.jobReleased j o).armedDropped j.hm).jobs = (d.modJob j.hm (Job.ended o)).jobs := (d.jobReleased_keeps j o).1
  rcases Dev.endJob_of_open hj hout o with he | he <;> rw [he]
  · exact .inl hrel
  · rcases ((d.jobReleased j o).armedDropped j.hm).jobs_reportEnd j.hm with hr | hr <;> rw [hr]
    · exact .inl hrel
    · refine .inr ?_
      rw [← d.modJob_modJob j.hm (f := Job.ended o) (fun _ => rfl) Job.shown]
      exact congrArg (List.map _) hrel

/-- The named open job after its end. -/
theorem Dev.job?_endJob {d : Dev} {h : Nat} {j : Job} (hj : d.job? h = some j) (hout : j.out = none) (o : Outcome) :
    (d.endJob h o).job? h = some (j.ended o) ∨ (d.endJob h o).job? h = some (j.ended o).shown := by
  rcases Dev.jobs_endJob hj hout o with he | he
  · exact .inl ((Dev.job?_congr he h).trans (Dev.job?_modJob hj fun _ => rfl))
  · exact .inr ((Dev.job?_congr he h).trans (Dev.job?_modJob (f := fun k => (k.ended o).shown) hj fun _ => rfl))

theorem Dev.JobsFollow.endJob {d : Dev} {h : Nat} {j : Job} (hj : d.job? h = some j) (hact : j.active = true) {o : Outcome} (ho : o.typ = 6) :
    d.JobsFollow (d.endJob h o) := by
  obtain ⟨hended, hshown⟩ := Job.follows_ended hact ho
  cases hout : j.out with
  | some x => rw [Dev.endJob_of_decided hj (by rw [hout]; rfl)]; exact .refl d
  | none =>
    rcases Dev.jobs_endJob hj hout o with he | he
    · exact (Dev.JobsFollow.modJob hj (g := Job.ended o) (fun _ => rfl) hended).trans (.of_jobs he)
    · exact (Dev.JobsFollow.modJob hj (g := fun k => (k.ended o).shown) (fun _ => rfl) hshown).trans (.of_jobs he)

/-! ## The settlement of conflicts -/

/-- What a settlement does: the jobs follow it, and beside them only what ends and due records touch changes. -/
structure Dev.Settles (d e : Dev) : Prop where
  frame : d.JobsFrame e
  jobs : d.JobsFollow e

namespace Dev.Settles
variable {d e f : Dev}

theorem refl (d : Dev) : d.Settles d := ⟨.refl d, .refl d⟩

theorem trans (h : d.Settles e) (h' : e.Settles f) : d.Settles f := ⟨h.frame.trans h'.frame, h.jobs.trans h'.jobs⟩

theorem foldl {A : Type} {step : Dev → A → Dev} (hs : ∀ d a, Dev.Settles d (step d a)) (as : List A) : ∀ d : Dev, d.Settles (as.foldl step d) := by
  induction as with
  | nil => exact .refl
  | cons a as ih => exact fun d => (hs d a).trans (ih _)

/-- A change of an active job that leaves its stamp, its state and its outcome. -/
theorem modJob {h : Nat} {j : Job} (hj : d.job? h = some j) (hact : j.active = true) {g : Job → Job} (hhm : ∀ k, (g k).hm = k.hm)
    (hstamp : (g j).stamp = j.stamp) (hres : (g j).resolved = j.resolved) (hst : (g j).st = j.st) (hout : (g j).out = j.out) :
    d.Settles (d.modJob h g) :=
  ⟨.modJob d h g, .modJob hj hhm ⟨hstamp, hres, .inl ⟨hst, hout⟩, fun h => absurd h (by simp [hact])⟩⟩

theorem endJob {h : Nat} {j : Job} (hj : d.job? h = some j) (hact : j.active = true) {o : Outcome} (ho : o.typ = 6) :
    d.Settles (d.endJob h o) := ⟨d.jobsFrame_endJob h o, .endJob hj hact ho⟩

end Dev.Settles

/-- The device that an ARMED group was drawn from. -/
theorem Dev.armGroup_fst (d : Dev) (j : Job) : (d.armGroup j).1 = d ∨ (d.armGroup j).1 = d.draw.1 := by
  unfold Dev.armGroup
  cases j.sched
  · exact .inr rfl
  · exact .inl rfl

theorem Dev.settles_armDue (d : Dev) {h : Nat} {j : Job} (hj : d.job? h = some j) (hact : j.active = true) : d.Settles (d.armDue h) := by
  let e : Dev := { d with ldg := { d.ldg with queue := d.ldg.queue.filter (fun q => !(q.recs.any (fun r => r.typ == 0x20 && r.hm == h))) } }
  have heq : d.armDue h = ((e.armGroup j).1.dueRec 2 (e.armGroup j).2).modJob h (fun j => { j with armedDue := true }) := by
    simp only [Dev.armDue, hj]; rfl
  have hdue : d.Settles ((e.armGroup j).1.dueRec 2 (e.armGroup j).2) := by
    generalize (e.armGroup j).2 = rs
    rcases e.armGroup_fst j with h1 | h1 <;> rw [h1] <;> exact ⟨⟨rfl, rfl, rfl, .of_regs rfl _⟩, .of_jobs rfl⟩
  obtain ⟨k, hk, hjk⟩ := hdue.jobs.job h j hj
  have hjobs : ((e.armGroup j).1.dueRec 2 (e.armGroup j).2).jobs = d.jobs := by
    rcases e.armGroup_fst j with h1 | h1 <;> rw [h1] <;> rfl
  have hj' : ((e.armGroup j).1.dueRec 2 (e.armGroup j).2).job? h = some j := (Dev.job?_congr hjobs h).trans hj
  rw [heq]
  exact hdue.trans (.modJob (g := fun j => { j with armedDue := true }) hj' hact (fun _ => rfl) rfl rfl rfl rfl)

/-- The schedule of a job moved, and its ARMED record due again where it had one. -/
def Dev.moveJob (d : Dev) (h k : Nat) (had : Bool) : Dev := if had then (d.modJob h fun j => j.shifted k).armDue h else d.modJob h fun j => j.shifted k

theorem Dev.settles_moveJob {d : Dev} {h : Nat} {j : Job} (hj : d.job? h = some j) (hact : j.active = true) (k : Nat) (had : Bool) :
    d.Settles (d.moveJob h k had) := by
  have hmoved : d.Settles (d.modJob h fun j => j.shifted k) := .modJob (g := fun j => j.shifted k) hj hact (fun _ => rfl) rfl rfl rfl rfl
  unfold Dev.moveJob
  split
  · exact hmoved.trans (Dev.settles_armDue _ (Dev.job?_modJob (f := fun j => j.shifted k) hj fun _ => rfl) hact)
  · exact hmoved

theorem Dev.settles_settleOne (d : Dev) (h : Nat) : d.Settles (d.settleOne h) := by
  unfold Dev.settleOne
  cases hj : d.job? h with
  | none => exact .refl d
  | some j =>
    dsimp only
    split
    case isTrue => exact .refl d
    case isFalse hskip =>
      have hact : j.active = true := by
        simp only [Bool.or_eq_true, Bool.not_eq_true', not_or, Bool.not_eq_false] at hskip
        exact hskip.1.1.1
      split
      · exact .refl d
      · split
        · exact Dev.settles_moveJob hj hact _ _
        · exact .endJob hj hact rfl

/-- The settlement of all conflicts. -/
theorem Dev.settles_settleConflicts (d : Dev) : d.Settles d.settleConflicts :=
  .foldl (fun e _ => .foldl Dev.settles_settleOne _ e) _ d

end Sys2Proof.Machine
end

section

/-!
PROOF. Origins of distance jobs and the reach instants of their edges (09_triggers_and_encoders.md R462 to R465, 10_precision_outputs.md R488).
-/

namespace Sys2Proof.Machine
open Sys2Proof

/-! ## Origins -/

/-- A job with its origin predicted anew. -/
def Job.predictedAt (x : Option Nat) (j : Job) : Job := { j with pred := x }

/-- The prediction of a job's origin. -/
def Dev.originPred (d : Dev) (j : Job) : Option Nat := (d.predict (d.fld (F.JR_BIND_ENC j.ring)) j.target).map (· + j.delay * fsPerBeat)

/-- A job whose origin stands. -/
def Job.fixedAt (x : Nat) (j : Job) : Job := { j with origin := some x, resolved := true }

/-- A job that its target has overtaken by k beats, within its limit. -/
def Job.overtakenBy (x k : Nat) (j : Job) : Job := { j with origin := some (x + k * fsPerBeat), resolved := true, delay := j.delay + k, opos := none }

/-- The origin of a job decided at a prediction: `e` is the device that holds the prediction. -/
def Dev.originDecided (e : Dev) (j : Job) (lead x : Nat) : Dev :=
  if e.now + lead < beatOf x then e
  else if beatOf x = e.now + lead then (e.modJob j.hm (Job.fixedAt x)).settleConflicts
  else if j.limit < j.delay + (e.now + lead - beatOf x) then e.endJob j.hm { typ := 6, reason := Rsn.expOvertaken, bn := e.now }
  else
    let f := e.modJob j.hm (Job.overtakenBy x (e.now + lead - beatOf x))
    (if j.armed || j.armedDue then f.armDue j.hm else f).settleConflicts

theorem exec_originResolve (hm : BitVec 48) (s : State) : exec (.originResolve hm) s = .next (s.onDev fun d => match d.job? hm.toNat with
    | none => d
    | some j =>
      if !j.active || !j.dkind || j.resolved || j.exec != d.pos || j.closing.isSome then d
      else match d.originPred j with
        | none => d.modJob j.hm (Job.predictedAt (d.originPred j))
        | some x => (d.modJob j.hm (Job.predictedAt (d.originPred j))).originDecided j
            ((d.modJob j.hm (Job.predictedAt (d.originPred j))).jobLead j) x) := by
  rfl

/-- A job whose origin is still open here is predicted anew, and decided at the prediction. -/
theorem exec_originResolve_open {hm : BitVec 48} {s : State} {j : Job} (hj : s.dev.job? hm.toNat = some j) (hact : j.active = true)
    (hpos : j.exec = s.dev.pos) (hd : j.dkind = true) (hres : j.resolved = false) (hcl : j.closing = none) :
    exec (.originResolve hm) s = .next { s with dev := match s.dev.originPred j with
      | none => s.dev.modJob j.hm (Job.predictedAt (s.dev.originPred j))
      | some x => (s.dev.modJob j.hm (Job.predictedAt (s.dev.originPred j))).originDecided j (s.dev.jobLead j) x } := by
  rw [exec_originResolve, State.onDev, hj]
  dsimp only
  rw [if_neg (by simp [hact, hd, hres, hpos, hcl])]
  rfl

theorem exec_originResolve_settled {hm : BitVec 48} {s : State} {j : Job} (hj : s.dev.job? hm.toNat = some j) (h : j.dkind = false ∨ j.resolved = true) :
    exec (.originResolve hm) s = .next s := by
  rw [exec_originResolve, State.onDev, hj]
  dsimp only
  rw [if_pos (by rcases h with h | h <;> simp [h])]

/-- A prediction beyond the lead decides nothing. -/
theorem Dev.originDecided_early {e : Dev} {j : Job} {lead x : Nat} (h : e.now + lead < beatOf x) : e.originDecided j lead x = e := if_pos h

/-- An origin at the lead is fixed, whatever the conflicts then decide. -/
theorem Dev.originDecided_fixed {e : Dev} {j i : Job} {lead x : Nat} (hi : e.job? j.hm = some i) (h : beatOf x = e.now + lead) :
    ∃ k, (e.originDecided j lead x).job? j.hm = some k ∧ k.resolved = true ∧ k.stamp = i.stamp := by
  have heq : e.originDecided j lead x = (e.modJob j.hm (Job.fixedAt x)).settleConflicts := by
    rw [Dev.originDecided, if_neg (by omega), if_pos h]
  obtain ⟨k, hk, hfollows⟩ := (Dev.settles_settleConflicts _).jobs.job _ _ (Dev.job?_modJob (f := Job.fixedAt x) hi fun _ => rfl)
  exact ⟨k, heq ▸ hk, hfollows.resolved, hfollows.stamp⟩

/-- An origin that was overtaken beyond the limit ends its job. -/
theorem Dev.originDecided_overtaken {e : Dev} {j i : Job} {lead x : Nat} (hi : e.job? j.hm = some i) (hout : i.out = none) (h : beatOf x < e.now + lead)
    (hlim : j.limit < j.delay + (e.now + lead - beatOf x)) : ∃ k, (e.originDecided j lead x).job? j.hm = some k ∧ k.st = .expired ∧
      k.out = some { typ := 6, reason := 0x200A, bn := e.now } := by
  have heq : e.originDecided j lead x = e.endJob j.hm { typ := 6, reason := Rsn.expOvertaken, bn := e.now } := by
    rw [Dev.originDecided, if_neg (by omega), if_neg (by omega), if_pos hlim]
  rw [heq]
  rcases Dev.job?_endJob hi hout { typ := 6, reason := Rsn.expOvertaken, bn := e.now } with hk | hk
  · exact ⟨_, hk, rfl, rfl⟩
  · exact ⟨_, hk, rfl, rfl⟩

/-- The clauses on a job whose origin is still open. -/
theorem originResolve_open {hm : BitVec 48} {s : State} {j : Job} (hj : s.dev.job? hm.toNat = some j) (hact : j.active = true)
    (hpos : j.exec = s.dev.pos) (hd : j.dkind = true) (hres : j.resolved = false) (hcl : j.closing = none) :
    let pred := s.dev.originPred j
    let soon := s.dev.now + s.dev.jobLead j
    (pred = none ∨ (∃ x, pred = some x ∧ soon < beatOf x) →
      exec (.originResolve hm) s = .next { s with dev := s.dev.modJob j.hm (Job.predictedAt pred) }) ∧
    (∀ x, pred = some x → beatOf x = soon → ∃ t k, exec (.originResolve hm) s = .next t ∧ t.dev.job? hm.toNat = some k ∧
      k.resolved = true ∧ k.stamp = j.stamp) ∧
    (∀ x, pred = some x → beatOf x < soon → j.limit < j.delay + (soon - beatOf x) → j.out = none → ∃ t k,
      exec (.originResolve hm) s = .next t ∧ t.dev.job? hm.toNat = some k ∧ k.st = .expired ∧
      k.out = some { typ := 6, reason := 0x200A, bn := s.dev.now }) := by
  have hexec := exec_originResolve_open hj hact hpos hd hres hcl
  have hhm := Dev.hm_of_job? hj
  have hpredicted : (s.dev.modJob j.hm (Job.predictedAt (s.dev.originPred j))).job? j.hm = some (j.predictedAt (s.dev.originPred j)) :=
    Dev.job?_modJob (by rw [hhm]; exact hj) fun _ => rfl
  refine ⟨fun h => ?_, fun x hx hb => ?_, fun x hx hb hlim hout => ?_⟩
  · rcases h with h | ⟨x, h, hb⟩
    · rw [hexec, h]
    · rw [hexec, h]
      dsimp only
      rw [Dev.originDecided_early (by exact hb)]
  · rw [hx] at hexec hpredicted
    obtain ⟨k, hk, hkres, hkst⟩ := Dev.originDecided_fixed hpredicted hb
    rw [hhm] at hk hexec
    exact ⟨_, k, hexec, hk, hkres, hkst⟩
  · rw [hx] at hexec hpredicted
    obtain ⟨k, hk, hkst, hkout⟩ := Dev.originDecided_overtaken hpredicted hout hb hlim
    rw [hhm] at hk hexec
    exact ⟨_, k, hexec, hk, hkst, hkout⟩

/-! ## Reaches -/

/-- The reach instants that are predicted within the next beat, of the distances that have none yet. -/
def Dev.reachFixed (d : Dev) (n : Nat) (j : Job) (p : Int) : List (Nat × Nat) :=
  ((j.lanes.flatMap (fun l => l.edges.map EdgeDef.dist)).eraseDups.filter (fun x => x != 0 && !(j.reach.any (fun y => y.1 == x)))).filterMap
    fun (x : Nat) => match d.reachInst n (wrapS 56 (p + x)) with
      | some t => if beatOf t ≤ d.now + 1 then some (x, t) else none
      | none => none

theorem Dev.mem_reachFixed {d : Dev} {n : Nat} {j : Job} {p : Int} {x : Nat × Nat} (h : x ∈ d.reachFixed n j p) :
    d.reachInst n (wrapS 56 (p + x.1)) = some x.2 ∧ beatOf x.2 ≤ d.now + 1 := by
  obtain ⟨a, -, ha⟩ := List.mem_filterMap.1 h
  cases hr : d.reachInst n (wrapS 56 (p + a)) with
  | none => simp only [hr] at ha; cases ha
  | some t =>
    simp only [hr] at ha
    split at ha
    case isTrue hb => obtain rfl := Option.some.inj ha; exact ⟨hr, hb⟩
    case isFalse => cases ha

/-- The next slot of an encoder-mode play, fixed where it is predicted within the lead. -/
def Dev.slotFixed (d : Dev) (n : Nat) (j : Job) (p : Int) (q : PlayRun) : PlayRun :=
  if !q.encMode || q.done || q.fixed.isSome || !j.resolved then q
  else match d.reachInst n (wrapS 56 (p + q.slot * q.cpitch)) with
    | some t => if beatOf t ≤ d.now + d.jobLead j then { q with fixed := some t } else q
    | none => q

/-- A job with its reaches and slots fixed. -/
def Job.reached (fixed : List (Nat × Nat)) (slot : PlayRun → PlayRun) (j : Job) : Job := { j with reach := j.reach ++ fixed, plays := j.plays.map slot }

/-- The position that a job counts from. -/
def Job.countsFrom (x : Option Int) (j : Job) : Job := { j with opos := x }

theorem exec_reachResolve_off {hm : BitVec 48} {s : State} {j : Job} (hj : s.dev.job? hm.toNat = some j)
    (he : s.dev.flag (F.JR_BIND_ENC_EN j.ring) = false) : exec (.reachResolve hm) s = .next s := by
  refine congrArg (fun d : Dev => Host.Outcome.next { s with dev := d }) ?_
  dsimp only
  rw [hj]
  exact if_pos (by simp [he])

/-- The device with the reaches and slots of a job fixed at its position. -/
def Dev.reachesFixed (d : Dev) (n : Nat) (j : Job) (p : Int) : Dev :=
  (d.modJob j.hm (Job.countsFrom (some p))).modJob j.hm (Job.reached (d.reachFixed n j p) (d.slotFixed n j p))

/-- A job at work here whose position is known has its reaches and slots fixed at it. -/
theorem exec_reachResolve_at {hm : BitVec 48} {s : State} {j : Job} {p : Int} (hj : s.dev.job? hm.toNat = some j) (hact : j.active = true)
    (hpos : j.exec = s.dev.pos) (he : s.dev.flag (F.JR_BIND_ENC_EN j.ring) = true) (hp : j.opos = some p) :
    exec (.reachResolve hm) s = .next { s with dev := s.dev.reachesFixed (s.dev.fld (F.JR_BIND_ENC j.ring)) j p } := by
  have hat : s.dev.originPos j = (s.dev, some p) := by simp [Dev.originPos, hp]
  refine congrArg (fun d : Dev => Host.Outcome.next { s with dev := d }) ?_
  dsimp only
  rw [hj]
  dsimp only
  rw [if_neg (by simp [hact, he, hpos]), hat]
  rfl

/-- The clause on a job whose position is known. -/
theorem reachResolve_at {hm : BitVec 48} {s : State} {j : Job} {p : Int} (hj : s.dev.job? hm.toNat = some j) (hact : j.active = true)
    (hpos : j.exec = s.dev.pos) (he : s.dev.flag (F.JR_BIND_ENC_EN j.ring) = true) (hp : j.opos = some p) :
    let n := s.dev.fld (F.JR_BIND_ENC j.ring)
    ∃ t k, exec (.reachResolve hm) s = .next t ∧ t.dev.job? hm.toNat = some k ∧ k.st = j.st ∧ k.origin = j.origin ∧ (∀ x ∈ j.reach, x ∈ k.reach) ∧
      (∀ x ∈ k.reach, x ∈ j.reach ∨ (s.dev.reachInst n (wrapS 56 (p + x.1)) = some x.2 ∧ beatOf x.2 ≤ s.dev.now + 1)) ∧
      t = { s with dev := { s.dev with jobs := t.dev.jobs } } := by
  intro n
  have hexec := exec_reachResolve_at hj hact hpos he hp
  rw [Dev.reachesFixed, Dev.hm_of_job? hj] at hexec
  refine ⟨_, (j.countsFrom (some p)).reached (s.dev.reachFixed n j p) (s.dev.slotFixed n j p), hexec, ?_, rfl, rfl,
    fun x hx => List.mem_append_left _ hx, fun x hx => ?_, rfl⟩
  · exact Dev.job?_modJob (f := Job.reached _ _) (Dev.job?_modJob (f := Job.countsFrom (some p)) hj fun _ => rfl) fun _ => rfl
  · exact (List.mem_append.1 hx).imp id Dev.mem_reachFixed

/-- Settles O44: each verdict on an origin is one branch, and a settlement of conflicts leaves what was resolved. -/
theorem originsAndReachesResolve : Obligations.OriginsAndReachesResolve := by
  intro s hm j hj hact hpos
  exact ⟨originResolve_open hj hact hpos, exec_originResolve_settled hj, exec_reachResolve_off hj, fun p he hp => reachResolve_at hj hact hpos he hp⟩

end Sys2Proof.Machine
end

section

/-!
PROOF. Ring sides in training, cuts of the ring, and the end of beat alignment (15_wilin_ring.md Table RNG-4, R735 to R741, R757).
-/

namespace Sys2Proof.Machine
open Sys2Proof

/-! ## What a change of the cuts leaves -/

/-- The registers that the consequences of a cut may write. -/
def cutRegs : List Nat := [R.ASY_STAT, R.ASY_DISTCNT, R.LDG_STAT, R.SUP_ROLE] ++ irqRegs ++ endRegs

theorem irqRegs_subset_cutRegs : irqRegs ⊆ cutRegs := fun _ h => List.mem_append_left _ (List.mem_append_right _ h)

theorem endRegs_subset_cutRegs : endRegs ⊆ cutRegs := fun _ h => List.mem_append_right _ h

/-- Ring, fences, clock, start-up, power and time stay, and every job keeps its hallmark. -/
structure Dev.CutKept (d e : Dev) : Prop where
  wr : e.wr = { d.wr with items := e.wr.items, bulk := e.wr.bulk }
  fen : e.fen = d.fen
  clk : e.clk = d.clk
  boot : e.boot = d.boot
  pwr : e.pwr = d.pwr
  t : e.t = d.t
  mram : e.mram = d.mram
  hms : e.jobs.map Job.hm = d.jobs.map Job.hm
  regs : d.regsBut e cutRegs

namespace Dev.CutKept
variable {d e f : Dev}

theorem refl (d : Dev) : d.CutKept d := ⟨rfl, rfl, rfl, rfl, rfl, rfl, rfl, rfl, .refl d _⟩

theorem trans (h : d.CutKept e) (h' : e.CutKept f) : d.CutKept f :=
  ⟨h'.wr.trans (congrArg (fun r : RingSt => { r with items := f.wr.items, bulk := f.wr.bulk }) h.wr), h'.fen.trans h.fen, h'.clk.trans h.clk,
    h'.boot.trans h.boot, h'.pwr.trans h.pwr, h'.t.trans h.t, h'.mram.trans h.mram, h'.hms.trans h.hms, h.regs.trans h'.regs⟩

theorem foldl {A : Type} {step : Dev → A → Dev} (hs : ∀ d a, Dev.CutKept d (step d a)) (as : List A) : ∀ d : Dev, d.CutKept (as.foldl step d) := by
  induction as with
  | nil => exact .refl
  | cons a as ih => exact fun d => (hs d a).trans (ih _)

theorem of_jobsFrame (h : d.JobsFrame e) (hms : e.jobs.map Job.hm = d.jobs.map Job.hm) : d.CutKept e := by
  obtain ⟨hframe, -, hwr, hregs⟩ := h
  exact ⟨hwr, by rw [hframe], by rw [hframe], by rw [hframe], by rw [hframe], by rw [hframe], by rw [hframe], hms, hregs.mono endRegs_subset_cutRegs⟩

theorem setFlag (h : d.CutKept e) {g : Fld} (hg : g.a ∈ cutRegs) (b : Bool) : d.CutKept (e.setFlag g b) :=
  ⟨h.wr, h.fen, h.clk, h.boot, h.pwr, h.t, h.mram, h.hms, h.regs.setFlag hg b⟩

theorem setFld (h : d.CutKept e) {g : Fld} (hg : g.a ∈ cutRegs) (v : Nat) : d.CutKept (e.setFld g v) :=
  ⟨h.wr, h.fen, h.clk, h.boot, h.pwr, h.t, h.mram, h.hms, h.regs.setFld hg v⟩

theorem raiseIrq (h : d.CutKept e) (v : Nat) : d.CutKept (e.raiseIrq v) := by
  refine h.trans ?_
  refine ⟨by simp, by simp, by simp, by simp, by simp, by simp, by simp, by simp, ?_⟩
  exact (Dev.regsBut.refl e _).raiseIrq irqRegs_subset_cutRegs v

end Dev.CutKept

/-! ## Jobs of a cut ring -/

theorem Dev.jobsFrame_dueRec (d : Dev) (p : Nat) (rs : List Rec) : d.JobsFrame (d.dueRec p rs) := ⟨rfl, rfl, rfl, .of_regs rfl _⟩

theorem Dev.cutKept_endJob (d : Dev) (h : Nat) (o : Outcome) : d.CutKept (d.endJob h o) :=
  .of_jobsFrame (d.jobsFrame_endJob h o) (d.jobsTouched_endJob h o).hms

theorem Dev.cutKept_modJob (d : Dev) (h : Nat) {g : Job → Job} (hg : ∀ j, (g j).hm = j.hm) : d.CutKept (d.modJob h g) :=
  .of_jobsFrame (.modJob d h g) (Dev.hms_modJob d h hg)

theorem Dev.cutKept_armDue (d : Dev) (h : Nat) : d.CutKept (d.armDue h) := by
  cases hj : d.job? h with
  | none => rw [Dev.armDue, hj]; exact .refl d
  | some j =>
    let e : Dev := { d with ldg := { d.ldg with queue := d.ldg.queue.filter (fun q => !(q.recs.any (fun r => r.typ == 0x20 && r.hm == h))) } }
    have heq : d.armDue h = ((e.armGroup j).1.dueRec 2 (e.armGroup j).2).modJob h (fun j => { j with armedDue := true }) := by
      simp only [Dev.armDue, hj]; rfl
    rw [heq]
    refine .trans ?_ (Dev.cutKept_modJob _ h (g := fun j => { j with armedDue := true }) fun _ => rfl)
    generalize (e.armGroup j).2 = rs
    rcases e.armGroup_fst j with h1 | h1 <;> rw [h1] <;> exact ⟨rfl, rfl, rfl, rfl, rfl, rfl, rfl, rfl, .of_regs rfl _⟩

theorem Dev.cutKept_settleConflicts (d : Dev) : d.CutKept d.settleConflicts :=
  .of_jobsFrame d.settles_settleConflicts.frame d.settles_settleConflicts.jobs.hms

theorem Dev.cutKept_moveJob (d : Dev) (h k : Nat) (had : Bool) : d.CutKept (d.moveJob h k had) := by
  have hmoved : d.CutKept (d.modJob h fun j => j.shifted k) := d.cutKept_modJob h fun _ => rfl
  unfold Dev.moveJob
  split
  · exact hmoved.trans (Dev.cutKept_armDue _ h)
  · exact hmoved

/-- The jobs that a risen latency may touch. -/
def Dev.wrapOpen (d : Dev) : List Job :=
  d.jobs.filter fun j => j.st == .bound && j.exec == d.pos && j.closing.isNone && d.fld (F.JR_BIND_TSRC j.ring) != 3

/-- The earliest origin of a job under the latency of its trigger. -/
def Dev.wrapNeed (d : Dev) (j : Job) : Nat :=
  let tp := d.fld (F.JR_BIND_TRIG_POS j.ring)
  let glitch := if d.fld (F.JR_BIND_TSRC j.ring) = 0 then ceilDiv (d.glitchAt tp (d.fld (F.JR_BIND_TIDX j.ring))) 240 else 0
  j.stamp + (2 + d.bindLat tp d.pos + glitch + (d.jobLead j - 1)) * fsPerBeat

/-- A job k beats too early ends beyond its limit, and is moved within it. -/
def Dev.wrapMoved (d : Dev) (j : Job) (k : Nat) : Dev :=
  if j.limit < j.delay + k then d.endJob j.hm { typ := 6, reason := Rsn.expFenced, bn := d.now } else d.moveJob j.hm k (j.armed || j.armedDue)

/-- The decision of one bound job after its latency has risen. -/
def Dev.wrapJob (old : List Nat) (d : Dev) (j : Job) : Dev := match j.sched with
  | none => d
  | some o =>
    let tp := d.fld (F.JR_BIND_TRIG_POS j.ring)
    if tp = d.pos ∨ d.bindLat tp d.pos ≤ old.getD tp 0 ∨ d.wrapNeed j ≤ o then d else d.wrapMoved j (ceilDiv (d.wrapNeed j - o) fsPerBeat)

theorem Dev.wrapJobs_eq (d : Dev) (old : List Nat) : d.wrapJobs old =
    if d.wrapOpen.isEmpty then d.wrapOpen.foldl (Dev.wrapJob old) d else (d.wrapOpen.foldl (Dev.wrapJob old) d).settleConflicts := rfl

theorem Dev.cutKept_wrapJob (old : List Nat) (d : Dev) (j : Job) : d.CutKept (d.wrapJob old j) := by
  unfold Dev.wrapJob
  split
  · exact .refl d
  · dsimp only
    split
    · exact .refl d
    · unfold Dev.wrapMoved
      split
      · exact d.cutKept_endJob _ _
      · exact d.cutKept_moveJob _ _ _

theorem Dev.cutKept_wrapJobs (d : Dev) (old : List Nat) : d.CutKept (d.wrapJobs old) := by
  have hfold : d.CutKept (d.wrapOpen.foldl (Dev.wrapJob old) d) := .foldl (Dev.cutKept_wrapJob old) _ d
  rw [Dev.wrapJobs_eq]
  split
  · exact hfold
  · exact hfold.trans (Dev.cutKept_settleConflicts _)

/-! ## What else a cut disturbs -/

theorem Dev.cutKept_asyShow (d : Dev) : d.CutKept d.asyShow := by
  unfold Dev.asyShow
  dsimp only
  refine .setFlag ?_ (by simp [cutRegs]) _
  split
  · exact ((Dev.CutKept.refl d).setFlag (g := F.ASY_STAT_BUSY) (by simp [cutRegs]) _).setFld (by simp [cutRegs]) _
  · exact ((Dev.CutKept.refl d).setFlag (g := F.ASY_STAT_BUSY) (by simp [cutRegs]) _).setFld (by simp [cutRegs]) _

theorem Dev.cutKept_asy (d : Dev) (a : AsySt) : d.CutKept { d with asy := a } := ⟨rfl, rfl, rfl, rfl, rfl, rfl, rfl, rfl, .of_regs rfl _⟩

theorem Dev.cutKept_asyEnd (d : Dev) (r : Reason) : d.CutKept (d.asyEnd r) := by
  unfold Dev.asyEnd
  dsimp only
  refine .trans (.raiseIrq (.setFld ?_ (by simp [cutRegs]) _) 23) (Dev.cutKept_asyShow _)
  split
  · refine .setFlag (g := F.ASY_STAT_RSKEW_PEND) ?_ (by simp [cutRegs]) _
    exact ⟨rfl, rfl, rfl, rfl, rfl, rfl, rfl, rfl, .of_regs rfl _⟩
  · exact d.cutKept_asy _

theorem Dev.cutKept_loopPulses (d : Dev) (n k : Nat) : d.CutKept (d.loopPulses n k) := by
  have hdrawn : d.CutKept { d with draws := d.draws + 1 } := ⟨rfl, rfl, rfl, rfl, rfl, rfl, rfl, rfl, .of_regs rfl _⟩
  exact hdrawn.setFld (endRegs_subset_cutRegs (edgeRegs_subset_endRegs (mem_edgeRegs n))) _

/-- An attempt disturbed: the result and the count of it shown. -/
def Dev.attemptSpoilt (d : Dev) (r : AsyRun) : Dev :=
  let e := (d.asyResult Rsn.asyDisturbed).addSat F.ASY_DISTCNT_DISTURBED 1
  if r.proc = 3 then e.loopPulses r.target ((Config.freeWord e.draws).toNat % 513) else e

theorem Dev.cutKept_attemptSpoilt (d : Dev) (r : AsyRun) : d.CutKept (d.attemptSpoilt r) := by
  have hcounted : d.CutKept ((d.asyResult Rsn.asyDisturbed).addSat F.ASY_DISTCNT_DISTURBED 1) :=
    ((Dev.CutKept.refl d).setFld (by simp [cutRegs]) _).setFld (by simp [cutRegs]) _
  unfold Dev.attemptSpoilt
  dsimp only
  split
  · exact hcounted.trans (Dev.cutKept_loopPulses _ _ _)
  · exact hcounted

/-- The device with the attempt's results dropped. -/
def Dev.attemptDropped (d : Dev) (r : AsyRun) : Dev := { d.attemptSpoilt r with asy := { (d.attemptSpoilt r).asy with applyDue := none } }

/-- The procedure goes on BACKOFF beats later while retries are left, and ends without. -/
def Dev.attemptRetried (d : Dev) (r : AsyRun) : Dev :=
  if r.attempts ≤ d.fld F.ASY_CTRL_RETRY then
    { d with asy := { d.asy with run := some { r with retryBn := some (d.now + d.fld F.ASY_CTRL_BACKOFF) } } }
  else d.asyEnd Rsn.asyRetryOut

theorem Dev.asyDisturb_of_run {d : Dev} {r : AsyRun} (h : d.asy.run = some r) (hr : r.retryBn = none) :
    d.asyDisturb = (d.attemptDropped r).attemptRetried r := by
  unfold Dev.asyDisturb
  rw [h]
  dsimp only
  rw [if_neg (by simp [hr])]
  rfl

theorem Dev.asyDisturb_of_waiting {d : Dev} (h : ∀ r, d.asy.run = some r → r.retryBn ≠ none) : d.asyDisturb = d := by
  unfold Dev.asyDisturb
  split
  · rfl
  case h_2 r hr => exact if_pos (Option.isSome_iff_ne_none.2 (h r hr))

theorem Dev.cutKept_attemptRetried (d : Dev) (r : AsyRun) : d.CutKept (d.attemptRetried r) := by
  unfold Dev.attemptRetried
  split
  · exact d.cutKept_asy _
  · exact d.cutKept_asyEnd _

theorem Dev.cutKept_asyDisturb (d : Dev) : d.CutKept d.asyDisturb := by
  by_cases h : ∃ r, d.asy.run = some r ∧ r.retryBn = none
  · obtain ⟨r, hrun, hretry⟩ := h
    rw [Dev.asyDisturb_of_run hrun hretry]
    exact ((d.cutKept_attemptSpoilt r).trans (Dev.cutKept_asy _ _)).trans (Dev.cutKept_attemptRetried _ r)
  · rw [Dev.asyDisturb_of_waiting fun r hr hn => h ⟨r, hr, hn⟩]
    exact .refl d

theorem Dev.cutKept_rskewDisturb (d : Dev) : d.CutKept d.rskewDisturb := by
  unfold Dev.rskewDisturb
  split
  · split
    · exact d.cutKept_asyDisturb
    · exact .refl d
  · exact .refl d

/-- The mirror's lists emptied under a single seal. -/
def Dev.mirrorDropped (d : Dev) : Dev := { d with ldg := { d.ldg with dual := false, toMirror := [], mirror := [] } }

theorem Dev.cutKept_mirrorDropped (d : Dev) : d.CutKept d.mirrorDropped := ⟨rfl, rfl, rfl, rfl, rfl, rfl, rfl, rfl, .of_regs rfl _⟩

theorem Dev.cutKept_dueRec (d : Dev) (p : Nat) (rs : List Rec) : d.CutKept (d.dueRec p rs) := ⟨rfl, rfl, rfl, rfl, rfl, rfl, rfl, rfl, .of_regs rfl _⟩

theorem Dev.endDual_of_dual {d : Dev} (h : d.ldg.dual = true) :
    d.endDual = ((d.mirrorDropped.setFlag F.LDG_STAT_DUAL false).setFlag F.SUP_ROLE_DUAL_SEAL false).dueRec 5 [{ typ := 0x34, bn := d.now, byteA := 0 }] :=
  if_pos h

theorem Dev.endDual_of_single {d : Dev} (h : ¬d.ldg.dual = true) : d.endDual = d := if_neg h

theorem Dev.cutKept_endDual (d : Dev) : d.CutKept d.endDual := by
  by_cases h : d.ldg.dual = true
  · rw [Dev.endDual_of_dual h]
    refine .trans ?_ (Dev.cutKept_dueRec _ _ _)
    exact (d.cutKept_mirrorDropped.setFlag (by simp [cutRegs]) _).setFlag (by simp [cutRegs]) _
  · rw [Dev.endDual_of_single h]; exact .refl d

/-! ## The cuts -/

/-- The cuts replaced and shown. -/
def Dev.cutShown (d : Dev) (cs : List Nat) : Dev := ({ d with wr := { d.wr with cut := cs } }.setFlag F.WR_STAT_WRAPPED !cs.isEmpty).showLat

theorem Dev.setCuts_same (d : Dev) : d.setCuts d.wr.cut = d := if_pos rfl

/-- Beside what it shows, a change of the cuts leaves the ring as it was. -/
theorem Dev.cutKept_setCuts {d : Dev} {cs : List Nat} (h : cs ≠ d.wr.cut) : (d.cutShown cs).CutKept (d.setCuts cs) := by
  have heq : d.setCuts cs =
      let e := ((d.cutShown cs).wrapJobs ((List.range 32).map fun p => d.bindLat p d.pos)).rskewDisturb
      let e := if e.boot.role == .manager then e.raiseIrq 19 else e
      if e.ldg.dual && !e.directLink then e.endDual else e := if_neg h
  rw [heq]
  dsimp only
  have hwrap : (d.cutShown cs).CutKept ((d.cutShown cs).wrapJobs ((List.range 32).map fun p => d.bindLat p d.pos)).rskewDisturb :=
    (Dev.cutKept_wrapJobs _ _).trans (Dev.cutKept_rskewDisturb _)
  generalize ((d.cutShown cs).wrapJobs ((List.range 32).map fun p => d.bindLat p d.pos)).rskewDisturb = e at *
  have hraised : (d.cutShown cs).CutKept (if e.boot.role == .manager then e.raiseIrq 19 else e) := by
    split
    · exact hwrap.raiseIrq 19
    · exact hwrap
  generalize (if e.boot.role == .manager then e.raiseIrq 19 else e) = f at *
  split
  · exact hraised.trans f.cutKept_endDual
  · exact hraised

theorem supBoot_notMem_cutRegs : R.SUP_BOOT ∉ cutRegs := by
  simp only [cutRegs, List.mem_append, not_or]
  exact ⟨⟨by decide, by decide⟩, notMem_endRegs_of (by decide) fun n => by unfold R.SUP_BOOT R.PO_EDGECNT; omega⟩

theorem Dev.cutShown_keeps (d : Dev) (cs : List Nat) : (d.cutShown cs).wr = { d.wr with cut := cs } ∧ (d.cutShown cs).phase = d.phase := by
  refine ⟨rfl, ?_⟩
  have hregs : d.regsBut (d.cutShown cs) [R.WR_STAT] := .setFld (.setFlag (.of_regs rfl _) (by simp) _) (by simp) _
  exact hregs.fld (by decide)

/-- A hop added to the cuts: the sides of the ring and the start-up phase stay. -/
theorem Dev.setCuts_added (d : Dev) (h : Nat) :
    (d.setCuts (d.wr.cut ++ [h])).wr.side = d.wr.side ∧ h ∈ (d.setCuts (d.wr.cut ++ [h])).wr.cut ∧ (d.setCuts (d.wr.cut ++ [h])).phase = d.phase := by
  have hkept := Dev.cutKept_setCuts (d := d) (cs := d.wr.cut ++ [h]) (by simp)
  obtain ⟨hwr, hphase⟩ := d.cutShown_keeps (d.wr.cut ++ [h])
  have hshown := hkept.wr
  refine ⟨?_, ?_, (hkept.regs.fld supBoot_notMem_cutRegs).trans hphase⟩
  · rw [hshown, hwr]
  · rw [hshown, hwr]; exact List.mem_append_right _ (List.mem_singleton.2 rfl)

/-! ## Training -/

theorem Dev.side_setSide (d : Dev) (k n : Nat) (v : SideSt) : (d.setSide k v).side n = if n = k then v else d.side n := by
  unfold Dev.side Dev.setSide
  rw [mget_mset]

/-- Training ends only in phase 0x5. -/
theorem Dev.trainDone_of_phase {d : Dev} (h : d.phase ≠ 5) (us : Nat) : d.trainDone us = d := if_pos (by simp [h])

theorem exec_signalDetected (k : Fin 2) (s : State) : exec (.signalDetected k) s = .next (s.onDev fun d =>
    if d.linked && d.pwr.vcore && ((d.side k.val).lstate == 0 || (d.side k.val).lstate == 5) then d.setSide k.val { d.side k.val with lstate := 1 }
    else d) := rfl

theorem exec_ringSideLock_off {k : Fin 2} {s : State} (h : s.dev.linked = false) : exec (.ringSideLock k) s = .next s := by
  refine congrArg (fun d : Dev => Host.Outcome.next { s with dev := d }) ?_
  exact if_pos (by simp [h])

theorem exec_ringSideLock_at {k : Fin 2} {s : State} (h : s.dev.linked = true) (hl : (s.dev.side k.val).lstate = 1)
    (hw : s.dev.boot.role ≠ .worker ∨ s.dev.phase ≠ 9) :
    exec (.ringSideLock k) s = .next { s with dev := s.dev.setSide k.val { s.dev.side k.val with lstate := 2 } } := by
  refine congrArg (fun d : Dev => Host.Outcome.next { s with dev := d }) ?_
  refine (if_neg (by simp [h, hl])).trans (if_neg ?_)
  have hphase : (s.dev.setSide k.val { s.dev.side k.val with lstate := 2 }).phase = s.dev.phase := rfl
  have hrole : (s.dev.setSide k.val { s.dev.side k.val with lstate := 2 }).boot.role = s.dev.boot.role := rfl
  rw [hphase, hrole]
  rcases hw with hw | hw <;> simp [hw]

theorem exec_ringSideAlign (k : Fin 2) (s : State) : exec (.ringSideAlign k) s = .next (s.onDev fun d =>
    if d.linked && (d.side k.val).lstate == 2 then d.setSide k.val { d.side k.val with lstate := 3 } else d) := rfl

theorem exec_ringIdent {us : Nat} {k : Fin 2} {w : BitVec 64} {r : Option (Fin 32 × BitVec 64)} {s : State} (h : s.dev.linked = true) :
    exec (.ringIdent us k w r) s = .next { s with dev := s.dev.ident k.val us w (r.map (fun x => (x.1.val, x.2))) } := by
  refine congrArg (fun d : Dev => Host.Outcome.next { s with dev := d }) ?_
  exact if_pos h

/-- What a device notes of an identification: the incarnation of its sender and a manager at work. -/
def Dev.identNoted (d : Dev) (p inc : Nat) (running : Option (Nat × BitVec 64)) : Dev :=
  { d with fen := { d.fen with posInc := mset 0 d.fen.posInc p inc }, wr := { d.wr with running := running <|> d.wr.running } }

/-- The side with its neighbour known, in a training state. -/
def SideSt.knows (v : SideSt) (p inc lstate : Nat) : SideSt := { v with nbrPos := p, nbrInc := inc, nbrSeen := true, lstate := lstate }

theorem Dev.ident_of_peer {d : Dev} {k us : Nat} {w : BitVec 64} {running : Option (Nat × BitVec 64)} (hl : (d.side k).lstate = 3)
    (hp : w.toNat % 32 ≠ d.pos) : d.ident k us w running = (((d.identNoted (w.toNat % 32) (w.toNat / 2 ^ 8 % 256) running).setSide k
      ((d.side k).knows (w.toNat % 32) (w.toNat / 2 ^ 8 % 256) 4)).raiseIrq 19).trainDone us := by
  refine (if_neg (by simp [hl])).trans (if_neg ?_)
  exact hp

theorem Dev.ident_of_own {d : Dev} {k us : Nat} {w : BitVec 64} {running : Option (Nat × BitVec 64)} (hl : (d.side k).lstate = 3)
    (hp : w.toNat % 32 = d.pos) : d.ident k us w running = ((d.identNoted (w.toNat % 32) (w.toNat / 2 ^ 8 % 256) running).setSide k
      ((d.side k).knows (w.toNat % 32) (w.toNat / 2 ^ 8 % 256) (d.side k).lstate)).badPos (w.toNat % 32) Rsn.posnDuplicate := by
  refine (if_neg (by simp [hl])).trans (if_pos ?_)
  exact hp

/-- A position noted with a fault. -/
theorem Dev.badPos_shown (d : Dev) (p : Nat) (r : Reason) : (p, r) ∈ (d.badPos p r).wr.badPos ∧ (d.badPos p r).wr.side = d.wr.side ∧
    d.regsBut (d.badPos p r) irqRegs := by
  unfold Dev.badPos
  split
  case isTrue h => exact ⟨by simpa using h, rfl, .refl d _⟩
  case isFalse =>
    refine ⟨?_, ?_, .raiseIrq (.of_regs rfl _) (by simp) _⟩
    · simp
    · simp

/-- The clauses on identification. -/
theorem ringIdent_peer {us : Nat} {k : Fin 2} {w : BitVec 64} {r : Option (Fin 32 × BitVec 64)} {s : State} (h : s.dev.linked = true)
    (hl : (s.dev.side k.val).lstate = 3) (hp : w.toNat % 32 ≠ s.dev.pos) (hph : s.dev.phase ≠ 5) : ∃ t,
      exec (.ringIdent us k w r) s = .next t ∧ (t.dev.side k.val).lstate = 4 ∧ (t.dev.side k.val).nbrPos = w.toNat % 32 ∧
      mget 0 t.dev.fen.posInc (w.toNat % 32) = w.toNat / 2 ^ 8 % 256 ∧ s.dev.regsBut t.dev irqRegs := by
  have hexec := exec_ringIdent (us := us) (k := k) (w := w) (r := r) h
  rw [Dev.ident_of_peer hl hp] at hexec
  generalize hv : (s.dev.side k.val).knows (w.toNat % 32) (w.toNat / 2 ^ 8 % 256) 4 = v at hexec
  generalize hd : (s.dev.identNoted (w.toNat % 32) (w.toNat / 2 ^ 8 % 256) (r.map (fun x => (x.1.val, x.2)))).setSide k.val v = d at hexec
  have hside : d.side k.val = v := by rw [← hd, Dev.side_setSide, if_pos rfl]
  have hregs : s.dev.regsBut (d.raiseIrq 19) irqRegs := .raiseIrq (.of_regs (by rw [← hd]; rfl) _) (by simp) _
  have hphase : (d.raiseIrq 19).phase = s.dev.phase := hregs.fld (by decide)
  rw [Dev.trainDone_of_phase (by rw [hphase]; exact hph)] at hexec
  have hraised : (d.raiseIrq 19).side k.val = v := by rw [Dev.side, show (d.raiseIrq 19).wr = d.wr by simp]; exact hside
  refine ⟨_, hexec, ?_, ?_, ?_, hregs⟩
  · rw [hraised, ← hv]; rfl
  · rw [hraised, ← hv]; rfl
  · rw [show (d.raiseIrq 19).fen = d.fen by simp, ← hd]
    exact (mget_mset _ _ _ _ _).trans (if_pos rfl)

theorem ringIdent_own {us : Nat} {k : Fin 2} {w : BitVec 64} {r : Option (Fin 32 × BitVec 64)} {s : State} (h : s.dev.linked = true)
    (hl : (s.dev.side k.val).lstate = 3) (hp : w.toNat % 32 = s.dev.pos) : ∃ t, exec (.ringIdent us k w r) s = .next t ∧
      (t.dev.side k.val).lstate = 3 ∧ (s.dev.pos, (0xC004 : Reason)) ∈ t.dev.wr.badPos ∧ s.dev.regsBut t.dev irqRegs := by
  have hexec := exec_ringIdent (us := us) (k := k) (w := w) (r := r) h
  rw [Dev.ident_of_own hl hp] at hexec
  generalize hv : (s.dev.side k.val).knows (w.toNat % 32) (w.toNat / 2 ^ 8 % 256) (s.dev.side k.val).lstate = v at hexec
  generalize hd : (s.dev.identNoted (w.toNat % 32) (w.toNat / 2 ^ 8 % 256) (r.map (fun x => (x.1.val, x.2)))).setSide k.val v = d at hexec
  obtain ⟨hbad, hside, hregs⟩ := d.badPos_shown (w.toNat % 32) Rsn.posnDuplicate
  have hv' : d.side k.val = v := by rw [← hd, Dev.side_setSide, if_pos rfl]
  refine ⟨_, hexec, ?_, by rw [← hp]; exact hbad, (Dev.regsBut.of_regs (by rw [← hd]; rfl) _).trans hregs⟩
  have hsame : (d.badPos (w.toNat % 32) Rsn.posnDuplicate).side k.val = v := by rw [Dev.side, hside]; exact hv'
  rw [hsame, ← hv]
  exact hl

/-! ### An attempt that times out -/

/-- A side back at LOCK, wrapped or not. -/
def SideSt.retried (v : SideSt) (dead : Bool) : SideSt := { v with lstate := 1, wrapped := v.wrapped || dead }

/-- A side that does not answer while the other side is up. -/
def Dev.sideDead (d : Dev) (k : Nat) : Bool := !(d.side k).wrapped && (d.side (1 - k)).lstate == 4

/-- The hop of a dead side added to the cuts. -/
def Dev.hopCut (d : Dev) (h : Nat) (dead : Bool) : Dev := if dead && !d.wr.cut.contains h then d.setCuts (d.wr.cut ++ [h]) else d

theorem exec_ringTrainingTimeout {us : Nat} {k : Fin 2} {s : State} (h : s.dev.linked = true) (h1 : 1 ≤ (s.dev.side k.val).lstate)
    (h3 : (s.dev.side k.val).lstate ≤ 3) : exec (.ringTrainingTimeout us k) s = .next { s with dev :=
      ((s.dev.setSide k.val ((s.dev.side k.val).retried (s.dev.sideDead k.val))).hopCut
        ((s.dev.setSide k.val ((s.dev.side k.val).retried (s.dev.sideDead k.val))).hopOf k.val) (s.dev.sideDead k.val)).trainDone us } := by
  refine congrArg (fun d : Dev => Host.Outcome.next { s with dev := d }) ?_
  exact if_neg (by simp [h, h1, h3])

theorem ringTrainingTimeout_alone {us : Nat} {k : Fin 2} {s : State} (h : s.dev.linked = true) (h1 : 1 ≤ (s.dev.side k.val).lstate)
    (h3 : (s.dev.side k.val).lstate ≤ 3) (hph : s.dev.phase ≠ 5)
    (halone : (s.dev.side k.val).wrapped = true ∨ (s.dev.side (1 - k.val)).lstate ≠ 4) :
    exec (.ringTrainingTimeout us k) s = .next { s with dev := s.dev.setSide k.val { s.dev.side k.val with lstate := 1 } } := by
  have hdead : s.dev.sideDead k.val = false := by rcases halone with hw | hn <;> simp [Dev.sideDead, *]
  have hv : (s.dev.side k.val).retried false = { s.dev.side k.val with lstate := 1 } := by rw [SideSt.retried, Bool.or_false]
  rw [exec_ringTrainingTimeout h h1 h3, hdead, hv, Dev.hopCut, Bool.false_and, if_neg (by decide), Dev.trainDone_of_phase (by exact hph)]

/-- A side keeps its hop when only its own training changes. -/
theorem Dev.hopOf_setSide (d : Dev) (k : Nat) (v : SideSt) (hseen : v.nbrSeen = (d.side k).nbrSeen) (hpos : v.nbrPos = (d.side k).nbrPos) :
    (d.setSide k v).hopOf k = d.hopOf k := by
  have hside : (d.setSide k v).side k = v := by rw [Dev.side_setSide, if_pos rfl]
  rw [Dev.hopOf, hside, hseen, hpos]
  rfl

theorem ringTrainingTimeout_wraps {us : Nat} {k : Fin 2} {s : State} (h : s.dev.linked = true) (h1 : 1 ≤ (s.dev.side k.val).lstate)
    (h3 : (s.dev.side k.val).lstate ≤ 3) (hph : s.dev.phase ≠ 5) (hw : (s.dev.side k.val).wrapped = false)
    (hother : (s.dev.side (1 - k.val)).lstate = 4) : ∃ t, exec (.ringTrainingTimeout us k) s = .next t ∧ (t.dev.side k.val).lstate = 1 ∧
      (t.dev.side k.val).wrapped = true ∧ s.dev.hopOf k.val ∈ t.dev.wr.cut := by
  have hdead : s.dev.sideDead k.val = true := by simp [Dev.sideDead, hw, hother]
  have hexec := exec_ringTrainingTimeout (us := us) h h1 h3
  rw [hdead, Dev.hopOf_setSide s.dev k.val ((s.dev.side k.val).retried true) rfl rfl] at hexec
  generalize hd : s.dev.setSide k.val ((s.dev.side k.val).retried true) = d at hexec
  have hside : d.side k.val = (s.dev.side k.val).retried true := by rw [← hd, Dev.side_setSide, if_pos rfl]
  have hphase : d.phase = s.dev.phase := by rw [← hd]; rfl
  have hcut : (d.hopCut (s.dev.hopOf k.val) true).wr.side = d.wr.side ∧ s.dev.hopOf k.val ∈ (d.hopCut (s.dev.hopOf k.val) true).wr.cut ∧
      (d.hopCut (s.dev.hopOf k.val) true).phase = d.phase := by
    unfold Dev.hopCut
    split
    case isTrue => exact d.setCuts_added _
    case isFalse hin => exact ⟨rfl, by simpa using hin, rfl⟩
  obtain ⟨hsides, hmem, hsame⟩ := hcut
  rw [Dev.trainDone_of_phase (by rw [hsame, hphase]; exact hph)] at hexec
  have hfinal : (d.hopCut (s.dev.hopOf k.val) true).side k.val = (s.dev.side k.val).retried true := by rw [Dev.side, hsides]; exact hside
  refine ⟨_, hexec, ?_, ?_, hmem⟩
  · rw [hfinal]; rfl
  · rw [hfinal]; simp [SideSt.retried]

/-! ## The end of beat alignment -/

/-- The entry of a list of pairs at its place. -/
theorem getD_flatMap_pairs {A : Type} (f : Nat → A × A) (a : A) {n p : Nat} (hp : p < n) :
    ((List.range n).flatMap fun q => [(f q).1, (f q).2]).getD (2 * p) a = (f p).1 ∧
    ((List.range n).flatMap fun q => [(f q).1, (f q).2]).getD (2 * p + 1) a = (f p).2 := by
  induction n with
  | zero => exact absurd hp (Nat.not_lt_zero p)
  | succ n ih =>
    have hlen : ((List.range n).flatMap fun q => [(f q).1, (f q).2]).length = 2 * n := by simp [List.length_flatMap, Nat.mul_comm]
    rw [List.range_succ, List.flatMap_append]
    rcases Nat.lt_or_ge p n with h | h
    · rw [List.getD_append _ _ _ _ (by omega), List.getD_append _ _ _ _ (by omega)]
      exact ih h
    · obtain rfl : p = n := by omega
      rw [List.getD_append_right _ _ _ _ (by omega), List.getD_append_right _ _ _ _ (by omega), hlen]
      simp

/-- The delays of a position: those that the table brings, else those in force. -/
def Dev.offsetsAt (d : Dev) (tab : List (Fin 32 × BitVec 24 × BitVec 24)) (p : Nat) : Int × Int :=
  match tab.find? (fun x => x.1.val == p) with
  | some x => ((x.2.1.toNat : Int), (x.2.2.toNat : Int))
  | none => (d.wr.offTab.getD (2 * p) 0, d.wr.offTab.getD (2 * p + 1) 0)

/-- The loop time and the delays of an alignment in force. -/
def Dev.aligned (d : Dev) (loop : BitVec 24) (tab : List (Fin 32 × BitVec 24 × BitVec 24)) : Dev :=
  (d.setNum R.WR_LOOP loop.toNat).putOffsets ((List.range 32).flatMap fun p => [(d.offsetsAt tab p).1, (d.offsetsAt tab p).2])

/-- The phase of an alignment done. -/
def Dev.alignDone (d : Dev) (us : Nat) : Dev := if d.phase = 7 then d.phaseDone 7 us else d

theorem exec_beatAlignmentComplete_lone {us : Nat} {loop : BitVec 24} {tab : List (Fin 32 × BitVec 24 × BitVec 24)} {s : State}
    (h : s.dev.boot.role = .standalone) : exec (.beatAlignmentComplete us loop tab) s = .next s := by
  refine congrArg (fun d : Dev => Host.Outcome.next { s with dev := d }) ?_
  exact if_pos (by simp [h])

/-- The registers that the delays of a position stand in. -/
def delayRegs : List Nat := R.WR_STAT :: (List.range 2).map R.WR_DCW ++ (List.range 2).map R.WR_DCCW

/-- One line's delays shown. -/
def Dev.delayShown (t : List Int) (d : Dev) (k : Nat) : Dev :=
  (d.setFld (F.WR_DCW_D_CW k) (unsigned 24 (t.getD (2 * d.pos) 0))).setFld (F.WR_DCCW_D_CCW k) (unsigned 24 (t.getD (2 * d.pos + 1) 0))

theorem Dev.regsBut_delayShown (t : List Int) (d : Dev) {k : Nat} (hk : k < 2) : d.regsBut (d.delayShown t k) delayRegs := by
  have hcw : R.WR_DCW k ∈ delayRegs :=
    List.mem_append_left _ (List.mem_cons_of_mem _ (List.mem_map_of_mem (List.mem_range.2 hk)))
  have hccw : R.WR_DCCW k ∈ delayRegs := List.mem_append_right _ (List.mem_map_of_mem (List.mem_range.2 hk))
  exact ((Dev.regsBut.refl d _).setFld (f := F.WR_DCW_D_CW k) hcw _).setFld (f := F.WR_DCCW_D_CCW k) hccw _

/-- The table of the delays in force. -/
def Dev.offsetsHeld (d : Dev) (t : List Int) : Dev := { d with wr := { d.wr with offTab := t } }

theorem Dev.putOffsets_eq (d : Dev) (t : List Int) : d.putOffsets t = (((d.offsetsHeld t).delayShown t 0).delayShown t 1).showLat := rfl

theorem Dev.regsBut_putOffsets (d : Dev) (t : List Int) : d.regsBut (d.putOffsets t) delayRegs := by
  rw [Dev.putOffsets_eq]
  refine .trans (e := d.offsetsHeld t) (.of_regs rfl _) (.trans (Dev.regsBut_delayShown t _ (k := 0) (by decide))
    (.trans (Dev.regsBut_delayShown t _ (k := 1) (by decide)) ?_))
  exact .setFld (.refl _ _) (by simp [delayRegs]) _

theorem Dev.putOffsets_frame (d : Dev) (t : List Int) :
    d.putOffsets t = { d with regs := (d.putOffsets t).regs, wr := { d.wr with offTab := t } } := rfl

/-- An alignment with a table of delays: the manager corrects it by its own skews and distributes it. -/
def Dev.alignShared (d : Dev) (loop : BitVec 24) (tab : List (Fin 32 × BitVec 24 × BitVec 24)) (t : List Int) : Dev :=
  let d := (d.setNum R.WR_LOOP loop.toNat).putOffsets t
  if d.boot.role == .manager then
    let cor := (d.asy.rskew.filter (fun x => x.1 != d.pos && d.serialAt x.1 == x.2.2.2 && tab.any (fun y => y.1.val == x.1))).map
      (fun x => (x.1, x.2.1, x.2.2.1))
    let d := d.putOffsets (d.skewTab cor)
    d.bulkPut 63 10 (offWords d.now d.wr.offTab)
  else d

theorem exec_beatAlignmentComplete_ring {us : Nat} {loop : BitVec 24} {tab : List (Fin 32 × BitVec 24 × BitVec 24)} {s : State}
    (h : s.dev.boot.role = .worker ∨ s.dev.boot.role = .reserve) : 
    exec (.beatAlignmentComplete us loop tab) s = .next { s with dev := (s.dev.aligned loop tab).alignDone us } := by
  refine congrArg (fun d : Dev => Host.Outcome.next { s with dev := d }) ?_
  have hrole : ¬((s.dev.aligned loop tab).boot.role == Role.manager) = true := by
    rw [Dev.aligned, Dev.putOffsets_frame]
    rcases h with h | h <;> simp [h]
  refine (if_neg (by rcases h with h | h <;> simp [h])).trans ?_
  refine (congrArg (fun t : List Int => (s.dev.alignShared loop tab t).alignDone us) (congrArg (fun f => (List.range 32).flatMap f)
    (funext fun p => ?_))).trans (congrArg (fun d : Dev => d.alignDone us) (if_neg hrole))
  unfold Dev.offsetsAt
  cases tab.find? fun x => x.1.val == p <;> rfl

/-- What the delays put in force leave. -/
theorem Dev.aligned_shown (d : Dev) (loop : BitVec 24) (tab : List (Fin 32 × BitVec 24 × BitVec 24)) :
    (d.aligned loop tab).wr.offTab = (List.range 32).flatMap (fun p => [(d.offsetsAt tab p).1, (d.offsetsAt tab p).2]) ∧
    (d.aligned loop tab).num R.WR_LOOP = loop.toNat ∧ d.regsBut (d.aligned loop tab) (R.WR_LOOP :: delayRegs) ∧
    (d.aligned loop tab).boot = d.boot ∧ (d.aligned loop tab).pwr = d.pwr ∧ (d.aligned loop tab).jobs = d.jobs ∧
    (d.aligned loop tab).mram = d.mram := by
  have hput := (d.setNum R.WR_LOOP loop.toNat).regsBut_putOffsets ((List.range 32).flatMap fun p => [(d.offsetsAt tab p).1, (d.offsetsAt tab p).2])
  refine ⟨rfl, ?_, ?_, rfl, rfl, rfl, rfl⟩
  · refine (hput.num (by decide)).trans ?_
    exact (Dev.num_setNum _ _ _).trans (Nat.mod_eq_of_lt (by have := loop.isLt; omega))
  · exact (Dev.regsBut.setNum (.refl d _) (by simp) _).trans (hput.mono (by simp))

/-- The delay that a listed position has after the alignment. -/
theorem Dev.aligned_delays (d : Dev) (loop : BitVec 24) {tab : List (Fin 32 × BitVec 24 × BitVec 24)} {x : Fin 32 × BitVec 24 × BitVec 24}
    (hx : tab.find? (fun y => y.1.val == x.1.val) = some x) :
    (d.aligned loop tab).wr.offTab.getD (2 * x.1.val) 0 = x.2.1.toNat ∧ (d.aligned loop tab).wr.offTab.getD (2 * x.1.val + 1) 0 = x.2.2.toNat := by
  obtain ⟨hcw, hccw⟩ := getD_flatMap_pairs (d.offsetsAt tab) (0 : Int) x.1.isLt
  have hat : d.offsetsAt tab x.1.val = ((x.2.1.toNat : Int), (x.2.2.toNat : Int)) := by rw [Dev.offsetsAt, hx]
  rw [(d.aligned_shown loop tab).1, hcw, hccw, hat]
  exact ⟨rfl, rfl⟩

/-! ## READY of a device that is not the manager -/

/-- A power command that waits ends with the restart. -/
def Dev.pendEnded (d : Dev) : Dev := if d.pwr.pend.isSome then (d.setFld F.PWR_STAT_CMD_RESULT 0).report false 8 0 0 false else d

theorem Dev.pendEnded_leaves (d : Dev) : d.regsBut d.pendEnded [R.PWR_STAT] ∧ d.pendEnded.wr.offTab = d.wr.offTab ∧ d.pendEnded.jobs = d.jobs ∧
    d.pendEnded.mram = d.mram ∧ d.pendEnded.boot = d.boot := by
  unfold Dev.pendEnded
  split
  · rw [Dev.report_items_only]
    exact ⟨.trans (.setFld (.refl d _) (by simp) _) (.of_regs rfl _), rfl, rfl, rfl, rfl⟩
  · exact ⟨.refl d _, rfl, rfl, rfl, rfl⟩

/-- The flags of a start that is over. -/
def Dev.startOver (d : Dev) : Dev :=
  { d with pwr := { d.pwr with exiting := false, dormFlag := false, pend := none } }.setFlag F.PWR_STAT_PENDING false

/-- READY shown. -/
def Dev.readyShown (d : Dev) : Dev := (((d.setFld F.PWR_STAT_STATE 1).setFld F.SUP_BOOT_REASON 0).setPhase 8).raiseIrq 17

theorem Dev.enterReady_of_other {d : Dev} (h : d.boot.role ≠ .manager) : d.enterReady = d.pendEnded.startOver.readyShown := by
  have hrole : d.pendEnded.startOver.readyShown.boot.role = d.boot.role := by
    have hb := d.pendEnded_leaves.2.2.2.2
    simp [Dev.readyShown, Dev.startOver, hb]
  have hne : ¬(d.pendEnded.startOver.readyShown.boot.role == Role.manager) = true := by rw [hrole]; simpa using h
  exact if_neg hne

/-- The time at which a phase was done, noted in a start that is no exit from PARK. -/
def Dev.phaseTimed (d : Dev) (n us : Nat) : Dev := if !d.pwr.exiting then d.setFld (F.SUP_BOOT_T_COMPLETION n) (min us 0xFFFFFF) else d

theorem Dev.phaseDone_align (d : Dev) (us : Nat) : d.phaseDone 7 us = (d.phaseTimed 7 us).enterReady := by
  cases hx : d.pwr.exiting <;> simp [Dev.phaseDone, Dev.phaseTimed, hx]

theorem Dev.phaseTimed_leaves (d : Dev) (n us : Nat) : d.regsBut (d.phaseTimed n us) [R.SUP_BOOT_T n] ∧ (d.phaseTimed n us).wr = d.wr ∧
    (d.phaseTimed n us).jobs = d.jobs ∧ (d.phaseTimed n us).mram = d.mram ∧ (d.phaseTimed n us).boot = d.boot := by
  unfold Dev.phaseTimed
  split
  · exact ⟨.setFld (f := F.SUP_BOOT_T_COMPLETION n) (.refl d _) (by simp) _, rfl, rfl, rfl, rfl⟩
  · exact ⟨.refl d _, rfl, rfl, rfl, rfl⟩

/-- What READY shows and leaves. -/
theorem Dev.readyShown_shows (d : Dev) : d.readyShown.pstate = 1 ∧ d.readyShown.phase = 8 ∧ d.readyShown.fld F.SUP_BOOT_REASON = 0 ∧
    bitOf (d.readyShown.reg R.HST_ISR0) 17 = true ∧ d.regsBut d.readyShown (R.PWR_STAT :: R.SUP_BOOT :: irqRegs) ∧
    d.readyShown.wr = d.wr ∧ d.readyShown.pwr = d.pwr ∧ d.readyShown.jobs = d.jobs ∧ d.readyShown.mram = d.mram := by
  unfold Dev.readyShown
  refine ⟨?_, ?_, ?_, Dev.isr_raiseIrq _ 17 (by decide), ?_, ?_, ?_, ?_, ?_⟩
  · refine (Dev.fld_raiseIrq _ _ F.PWR_STAT_STATE (by decide) (by decide)).trans ?_
    refine (Dev.fld_setPhase_ne _ _ _ (by decide) (by decide) (by decide)).trans ?_
    refine (Dev.fld_setFld_ne _ _ _ _ (by decide) (by decide)).trans ?_
    exact (Dev.fld_setFld_same _ _ _ (by decide)).trans (by decide)
  · exact (Dev.phase_raiseIrq _ _ (by decide)).trans (Dev.phase_setPhase _ _ (by decide))
  · refine (Dev.fld_raiseIrq _ _ F.SUP_BOOT_REASON (by decide) (by decide)).trans ?_
    refine (Dev.fld_setPhase_ne _ _ _ (by decide) (by decide) (by decide)).trans ?_
    exact (Dev.fld_setFld_same _ _ _ (by decide)).trans (by decide)
  · refine .raiseIrq (.raiseIrq (.setFld (.setFld (.setFld (.refl d _) ?_ _) ?_ _) ?_ _) ?_ _) ?_ _ <;> simp
  all_goals simp

/-- The clauses on a device that is not the manager. -/
theorem beatAlignment_ring {us : Nat} {loop : BitVec 24} {tab : List (Fin 32 × BitVec 24 × BitVec 24)} {s : State}
    (h : s.dev.boot.role = .worker ∨ s.dev.boot.role = .reserve) : ∃ t, exec (.beatAlignmentComplete us loop tab) s = .next t ∧
      t.dev.num R.WR_LOOP = loop.toNat ∧
      (∀ x ∈ tab, tab.find? (fun y => y.1.val == x.1.val) = some x →
        t.dev.wr.offTab.getD (2 * x.1.val) 0 = x.2.1.toNat ∧ t.dev.wr.offTab.getD (2 * x.1.val + 1) 0 = x.2.2.toNat) ∧
      (s.dev.phase = 7 → t.dev.pstate = 1 ∧ t.dev.phase = 8 ∧ t.dev.fld F.SUP_BOOT_REASON = 0 ∧ t.dev.pwr.exiting = false ∧
        bitOf (t.dev.reg R.HST_ISR0) 17 = true) ∧
      (s.dev.phase ≠ 7 → t.dev.pstate = s.dev.pstate ∧ t.dev.phase = s.dev.phase ∧ t.dev.boot = s.dev.boot ∧ t.dev.pwr = s.dev.pwr) ∧
      t.dev.jobs = s.dev.jobs ∧ t.dev.mram = s.dev.mram := by
  have hexec := exec_beatAlignmentComplete_ring (us := us) (loop := loop) (tab := tab) h
  obtain ⟨-, hloop, hregs, hboot, hpwr, hjobs, hmram⟩ := s.dev.aligned_shown loop tab
  have hdelays := fun x => Dev.aligned_delays s.dev loop (tab := tab) (x := x)
  have hphase : (s.dev.aligned loop tab).phase = s.dev.phase := hregs.fld (by decide)
  have hpstate : (s.dev.aligned loop tab).pstate = s.dev.pstate := hregs.fld (by decide)
  generalize s.dev.aligned loop tab = d at *
  by_cases h7 : s.dev.phase = 7
  · rw [Dev.alignDone, if_pos (hphase.trans h7), Dev.phaseDone_align] at hexec
    obtain ⟨tregs, twr, tjobs, tmram, tboot⟩ := d.phaseTimed_leaves 7 us
    have hrole : (d.phaseTimed 7 us).boot.role ≠ .manager := by rw [tboot, hboot]; rcases h with h | h <;> simp [h]
    rw [Dev.enterReady_of_other hrole] at hexec
    generalize d.phaseTimed 7 us = e at *
    obtain ⟨pregs, poff, pjobs, pmram, -⟩ := e.pendEnded_leaves
    generalize e.pendEnded = f at *
    obtain ⟨spstate, sphase, sreason, sisr, sregs, swr, spwr, sjobs, smram⟩ := f.startOver.readyShown_shows
    have oregs : f.regsBut f.startOver [R.PWR_STAT] := .setFld (.of_regs rfl _) (by simp) _
    have hall : d.regsBut f.startOver.readyShown (R.SUP_BOOT_T 7 :: R.PWR_STAT :: R.SUP_BOOT :: irqRegs) :=
      (tregs.mono (by simp)).trans ((pregs.mono (by simp)).trans ((oregs.mono (by simp)).trans (sregs.mono (by simp))))
    have hoff : f.startOver.readyShown.wr.offTab = d.wr.offTab := by
      rw [swr, show f.startOver.wr = f.wr from rfl, poff, twr]
    generalize f.startOver.readyShown = g at *
    refine ⟨_, hexec, (hall.num (by decide)).trans hloop, fun x _ hx => ?_, fun _ => ⟨spstate, sphase, sreason, ?_, sisr⟩, fun hh => absurd h7 hh, ?_, ?_⟩
    · rw [hoff]; exact hdelays x hx
    · rw [spwr]; rfl
    · rw [sjobs, show f.startOver.jobs = f.jobs from rfl, pjobs, tjobs, hjobs]
    · rw [smram, show f.startOver.mram = f.mram from rfl, pmram, tmram, hmram]
  · rw [Dev.alignDone, if_neg (by rw [hphase]; exact h7)] at hexec
    exact ⟨_, hexec, hloop, fun x _ hx => hdelays x hx, fun hh => absurd hh h7, fun _ => ⟨hpstate, hphase, hboot, hpwr⟩, hjobs, hmram⟩

/-- Settles O25: each training command is one change of one side, and phase 0x7 ends at READY. -/
theorem ringTrainsAndAligns : Obligations.RingTrainsAndAligns := by
  refine ⟨fun s k => ⟨fun h => ⟨?_, exec_ringSideLock_off h, ?_⟩, fun h hv hl => ?_, fun hv => ?_, exec_ringSideLock_at, fun h hl => ?_,
    fun us w r h hl => ?_, fun us w r h hl hp hph => ringIdent_peer h hl hp hph, fun us w r h hl hp => ringIdent_own h hl hp,
    fun us h h1 h3 hph halone => ringTrainingTimeout_alone h h1 h3 hph halone, fun us h h1 h3 hph hw ho => ringTrainingTimeout_wraps h h1 h3 hph hw ho⟩,
    fun s us loop tab => ⟨exec_beatAlignmentComplete_lone, beatAlignment_ring⟩⟩
  · rw [exec_signalDetected, State.onDev, if_neg (by simp [h])]
  · rw [exec_ringSideAlign, State.onDev, if_neg (by simp [h])]
  · rw [exec_signalDetected, State.onDev, if_pos (by rcases hl with hl | hl <;> simp [h, hv, hl])]
  · rw [exec_signalDetected, State.onDev, if_neg (by simp [hv])]
  · rw [exec_ringSideAlign, State.onDev, if_pos (by simp [h, hl])]
  · rw [exec_ringIdent h, show s.dev.ident k.val us w (r.map (fun x => (x.1.val, x.2))) = s.dev from if_pos (by simpa using hl)]

end Sys2Proof.Machine
end

section

/-!
PROOF. The WAIT limit, host cancels and the executor's cancels (07_waybills_and_admission.md R334, R343, R344).
-/

namespace Sys2Proof.Machine
open Sys2Proof

/-! ## Folds that end jobs -/

/-- Jobs that end one after the other, each with the same outcome. -/
def Dev.endAll (d : Dev) (hms : List Nat) (o : Outcome) : Dev := hms.foldl (fun d hm => d.endJob hm o) d

theorem Dev.jobsTouched_endAll (d : Dev) (hms : List Nat) (o : Outcome) : d.JobsTouched (d.endAll hms o) hms := by
  have h := Dev.JobsTouched.foldl (step := fun d hm => d.endJob hm o) (key := id) (fun e n => e.jobsTouched_endJob n o) hms d
  rwa [List.map_id] at h

/-- An open job of the list ends with the outcome. -/
theorem Dev.endAll_ends {d : Dev} (hnd : (d.jobs.map Job.hm).Nodup) {hms : List Nat} (hhms : hms.Nodup) {j : Job} (hj : j ∈ d.jobs)
    (hmem : j.hm ∈ hms) (hout : j.out = none) (o : Outcome) : ∃ k ∈ (d.endAll hms o).jobs, j.EndsAs k o := by
  obtain ⟨e, -, hsame, hkept, hlast⟩ := Dev.JobsTouched.foldl_reaches (step := fun d hm => d.endJob hm o) (key := id)
    (fun e n => e.jobsTouched_endJob n o) (P := fun _ => True) (fun _ _ _ => trivial) hms d (by rwa [List.map_id]) trivial j.hm hmem
  have hfound : e.job? j.hm = some j := Dev.job?_of_mem (by rw [hsame]; exact hnd) (hkept j hj rfl)
  obtain ⟨k, hk, hend⟩ := Dev.endJob_ends hfound hout o
  exact ⟨k, hlast k hk hend.hm, hend⟩

/-! ## WAIT -/

/-- The older of two jobs, the first where there is only one. -/
def olderJob (b : Option Job) (j : Job) : Option Job := match b with
  | some x => if j.hm < x.hm then some j else some x
  | none => some j

theorem oldestJob_eq (l : List Job) : oldestJob l = l.foldl olderJob none := rfl

theorem olderJob_or (b : Option Job) (x : Job) : olderJob b x = some x ∨ olderJob b x = b := by
  unfold olderJob
  split
  · split <;> simp
  · exact .inl rfl

theorem mem_of_foldl_olderJob {j : Job} (l : List Job) : ∀ b, l.foldl olderJob b = some j → j ∈ l ∨ b = some j := by
  induction l with
  | nil => exact fun b h => .inr h
  | cons x l ih =>
    intro b h
    rcases ih (olderJob b x) h with hin | hb
    · exact .inl (List.mem_cons_of_mem _ hin)
    · rcases olderJob_or b x with ho | ho <;> rw [ho] at hb
      · exact .inl (by rw [Option.some.inj hb]; exact List.mem_cons_self)
      · exact .inr hb

/-- The oldest job is one of them. -/
theorem oldestJob_mem {l : List Job} {j : Job} (h : oldestJob l = some j) : j ∈ l :=
  (mem_of_foldl_olderJob l none h).resolve_right (by simp)

/-- The jobs of a ring that wait. -/
def Dev.ringWaiting (d : Dev) (r : Nat) : List Job := d.jobs.filter fun j => j.ring == r && (j.st == .accepted || j.st == .dispatched)

/-- A capture that may still bind to the oldest job of its ring. -/
def Dev.capEarly (d : Dev) (r : Nat) (j : Job) : Bool :=
  d.trg.caps.any fun c => c.rings.contains r && decide (c.bn < j.acceptBn + j.wait_) && decide (j.dispBn ≤ c.bn)

/-- The oldest waiting job of a ring after its WAIT is looked at. -/
def Dev.waitDecided (d : Dev) (r : Nat) (j : Job) : Dev :=
  if j.wait_ ≠ 0 ∧ j.acceptBn + j.wait_ ≤ d.now ∧
      ((j.exec = d.pos ∧ j.st = .dispatched ∧ d.capEarly r j = false) ∨ (j.st = .accepted ∧ j.sent = false)) then
    d.endJob j.hm { typ := 6, reason := Rsn.expNoTrigger, bn := d.now }
  else d

theorem exec_waitExpire {ring : Fin 512} {s : State} {j : Job} (hj : oldestJob (s.dev.ringWaiting ring.val) = some j) :
    exec (.waitExpire ring) s = .next { s with dev := s.dev.waitDecided ring.val j } := by
  refine congrArg (fun d : Dev => Host.Outcome.next { s with dev := d }) ?_
  dsimp only
  rw [show s.dev.jobs.filter (fun j => j.ring == ring.val && (j.st == .accepted || j.st == .dispatched)) = s.dev.ringWaiting ring.val from rfl, hj]
  rfl

/-- The clauses on the oldest waiting job of a ring. -/
theorem waitExpire_ends {ring : Fin 512} {s : State} {j : Job} (hnd : (s.dev.jobs.map Job.hm).Nodup)
    (hj : oldestJob (s.dev.ringWaiting ring.val) = some j) (hout : j.out = none) (hw : j.wait_ ≠ 0) (hlim : j.acceptBn + j.wait_ ≤ s.dev.now)
    (hcaps : s.dev.trg.caps = []) (hst : (j.st = .dispatched ∧ j.exec = s.dev.pos) ∨ (j.st = .accepted ∧ j.sent = false)) :
    ∃ t, exec (.waitExpire ring) s = .next t ∧
      (∃ k ∈ t.dev.jobs, k.hm = j.hm ∧ k.st = .expired ∧ k.out = some { typ := 6, reason := 0x2003, bn := s.dev.now }) ∧
      ∀ k ∈ s.dev.jobs, k.hm ≠ j.hm → k ∈ t.dev.jobs := by
  have hexec := exec_waitExpire hj
  rw [Dev.waitDecided, if_pos ⟨hw, hlim, hst.imp (fun h => ⟨h.2, h.1, by simp [Dev.capEarly, hcaps]⟩) id⟩] at hexec
  have hmem : j ∈ s.dev.jobs := (List.mem_filter.1 (oldestJob_mem hj)).1
  obtain ⟨k, hk, hend⟩ := Dev.endJob_ends (Dev.job?_of_mem hnd hmem) hout { typ := 6, reason := Rsn.expNoTrigger, bn := s.dev.now }
  exact ⟨_, hexec, ⟨k, hk, hend.hm, hend.st, hend.out⟩, fun i hi hne => (s.dev.jobsTouched_endJob _ _).mem hi (by simpa using hne)⟩

theorem waitExpire_waits {ring : Fin 512} {s : State} {j : Job} (hj : oldestJob (s.dev.ringWaiting ring.val) = some j)
    (h : j.wait_ = 0 ∨ s.dev.now < j.acceptBn + j.wait_) : exec (.waitExpire ring) s = .next s := by
  rw [exec_waitExpire hj, Dev.waitDecided, if_neg (by rintro ⟨h0, hlim, -⟩; omega)]

/-! ## Host cancels -/

/-- The job that a cancel names by its ring and sequence. -/
def Dev.cancelNamed (d : Dev) (ring : Nat) : Option Job := d.jobs.find? fun j => j.ring == ring && j.rseq == d.num R.JR_CANCEL_SEQ

/-- The jobs that a cancel selects. -/
def Dev.cancelSel (d : Dev) (ring : Nat) (rest : Bool) (f : Job) : List Job :=
  d.jobs.filter fun j => j.ring == ring && (if rest then decide (f.hm ≤ j.hm) else j.hm == f.hm)

/-- A selected job that ends here at once. -/
def Job.cancelHere (p : Nat) (j : Job) : Bool := (j.st == .accepted && !j.sent) || (j.st == .dispatched && j.exec == p)

/-- A selected job that its executor is asked to end. -/
def Job.cancelAway (p : Nat) (j : Job) : Bool := (j.st == .accepted && j.sent) || (j.st == .dispatched && j.exec != p)

/-- The cancels sent to the executors of the jobs that are away. -/
def Dev.cancelsSent (d : Dev) (away : List Job) : Dev :=
  let tags := d.wr.tags.filter (fun t => away.any (fun j => j.hm == t.2.2))
  ((tags.map (fun t => t.2.1)).eraseDups).foldl (fun d p => d.bulkPut p 2 ((tags.filter (fun t => t.2.1 == p)).map (fun t => BitVec.ofNat 32 t.1))) d

/-- What a cancel counts and waits for. -/
def Dev.cancelCounted (d : Dev) (skipped ended : Nat) (waits : List Nat) : Dev :=
  let e := (d.setFld F.JR_CANCEL_STAT_SKIPPED skipped).setFld F.JR_CANCEL_CNT_JOBS ended
  ({ e with adm := { e.adm with cancelWait := waits } }.setFlag F.JR_CANCEL_STAT_BUSY true).cancelDone

/-- A cancel of nothing. -/
def Dev.cancelMissed (d : Dev) : Dev :=
  ((d.setFld F.JR_CANCEL_STAT_RESULT Rsn.refState.toNat).setFld F.JR_CANCEL_STAT_SKIPPED 0).setFld F.JR_CANCEL_CNT_JOBS 0

/-- A cancel that names a job. -/
def Dev.cancelRun (d : Dev) (ring : Nat) (rest : Bool) (f : Job) : Dev :=
  let sel := d.cancelSel ring rest f
  let here := sel.filter (Job.cancelHere d.pos)
  let away := sel.filter (Job.cancelAway d.pos)
  ((here.foldl (fun d j => d.endJob j.hm { typ := 6, reason := Rsn.expHostCancel, bn := d.now }) d).cancelsSent away).cancelCounted
    (min (sel.length - here.length - away.length) 4095) here.length (away.map Job.hm)

/-- The beat is the same at the end of every job. -/
theorem Dev.foldl_endJob_now (r : Reason) (hms : List Nat) : ∀ d : Dev,
    hms.foldl (fun d hm => d.endJob hm { typ := 6, reason := r, bn := d.now }) d = d.endAll hms { typ := 6, reason := r, bn := d.now } := by
  induction hms with
  | nil => intro d; rw [Dev.endAll, List.foldl_nil, List.foldl_nil]
  | cons h hms ih =>
    intro d
    have hnow : (d.endJob h { typ := 6, reason := r, bn := d.now }).now = d.now := by
      rw [Dev.now, Dev.endJob_keeps d h _ |>.2.2.2.2.1, Dev.now]
    rw [List.foldl_cons, ih, hnow, Dev.endAll, Dev.endAll, List.foldl_cons]

theorem Dev.hostCancel_of_missed {d : Dev} {ring : Nat} {rest : Bool} (hm : d.isMgr = true) (hb : d.flag F.JR_CANCEL_STAT_BUSY = false)
    (hn : d.cancelNamed ring = none) : d.hostCancel ring rest = d.cancelMissed := by
  refine (if_neg (by simp [hm, hb])).trans ?_
  dsimp only
  rw [show d.jobs.find? (fun j => j.ring == ring && j.rseq == d.num R.JR_CANCEL_SEQ) = none from hn]
  rfl

theorem Dev.hostCancel_of_named {d : Dev} {ring : Nat} {rest : Bool} {f : Job} (hm : d.isMgr = true) (hb : d.flag F.JR_CANCEL_STAT_BUSY = false)
    (hf : d.cancelNamed ring = some f) : d.hostCancel ring rest = d.cancelRun ring rest f := by
  refine (if_neg (by simp [hm, hb])).trans ?_
  dsimp only
  rw [show d.jobs.find? (fun j => j.ring == ring && j.rseq == d.num R.JR_CANCEL_SEQ) = some f from hf]
  rfl

/-! ### The command word -/

theorem bitOf_ofNat {n k : Nat} (hk : k < 32) : bitOf (BitVec.ofNat 32 n) k = decide (n / 2 ^ k % 2 = 1) := by
  rw [bitOf, BitVec.getLsbD_ofNat, decide_eq_true hk, Bool.true_and, Nat.testBit_eq_decide_div_mod_eq]

theorem cancelWord_one (r : Fin 512) : bitOf (BitVec.ofNat 32 (2 ^ 31 + r.val)) 31 = true ∧ slice (BitVec.ofNat 32 (2 ^ 31 + r.val)) 8 0 = r.val ∧
    bitOf (BitVec.ofNat 32 (2 ^ 31 + r.val)) 12 = false := by
  obtain ⟨r, hr⟩ := r
  refine ⟨?_, ?_, ?_⟩
  · rw [bitOf_ofNat (by decide)]; exact decide_eq_true (by omega)
  · simp only [slice, BitVec.toNat_ofNat, Nat.shiftRight_zero]; omega
  · rw [bitOf_ofNat (by decide)]; exact decide_eq_false (by omega)

theorem cancelWord_rest (r : Fin 512) : bitOf (BitVec.ofNat 32 (2 ^ 31 + 2 ^ 12 + r.val)) 31 = true ∧
    slice (BitVec.ofNat 32 (2 ^ 31 + 2 ^ 12 + r.val)) 8 0 = r.val ∧ bitOf (BitVec.ofNat 32 (2 ^ 31 + 2 ^ 12 + r.val)) 12 = true := by
  obtain ⟨r, hr⟩ := r
  refine ⟨?_, ?_, ?_⟩
  · rw [bitOf_ofNat (by decide)]; exact decide_eq_true (by omega)
  · simp only [slice, BitVec.toNat_ofNat, Nat.shiftRight_zero]; omega
  · rw [bitOf_ofNat (by decide)]; exact decide_eq_true (by omega)

theorem exec_hostCancelOne {p : Port} {ring : Fin 512} {s : State} (hg : s.dev.gate p R.JR_CANCEL_CMD = .pass) :
    exec (.hostCancelOne p ring) s = .next { s with dev := s.dev.hostCancel ring.val false } := by
  obtain ⟨hgo, hring, hrest⟩ := cancelWord_one ring
  refine congrArg (fun d : Dev => Host.Outcome.next { s with dev := d }) ((Dev.viaPort_of_pass hg _).trans ?_)
  rw [Dev.writeCancel, if_pos hgo, hring, hrest]

theorem exec_hostCancelRest {p : Port} {ring : Fin 512} {s : State} (hg : s.dev.gate p R.JR_CANCEL_CMD = .pass) :
    exec (.hostCancelRest p ring) s = .next { s with dev := s.dev.hostCancel ring.val true } := by
  obtain ⟨hgo, hring, hrest⟩ := cancelWord_rest ring
  refine congrArg (fun d : Dev => Host.Outcome.next { s with dev := d }) ((Dev.viaPort_of_pass hg _).trans ?_)
  rw [Dev.writeCancel, if_pos hgo, hring, hrest]

/-! ### What a cancel leaves -/

theorem Dev.cancelMissed_shown (d : Dev) : d.cancelMissed.fld F.JR_CANCEL_STAT_RESULT = 0x1005 ∧ d.cancelMissed.jobs = d.jobs ∧
    d.regsBut d.cancelMissed [R.JR_CANCEL_STAT, R.JR_CANCEL_CNT] := by
  refine ⟨?_, rfl, .setFld (.setFld (.setFld (.refl d _) (by simp) _) (by simp) _) (by simp) _⟩
  refine (Dev.fld_setFld_ne _ _ _ _ (by decide) (by decide)).trans ((Dev.fld_setFld_ne _ _ _ _ (by decide) (by decide)).trans ?_)
  exact (Dev.fld_setFld_same _ _ _ (by decide)).trans (by decide)

theorem Dev.jobs_cancelsSent (d : Dev) (away : List Job) : (d.cancelsSent away).jobs = d.jobs :=
  foldl_keeps _ (fun e => e.jobs) (fun e p => by simp) _ d

theorem Dev.cancelsSent_none (d : Dev) : d.cancelsSent [] = d := by
  have htags : d.wr.tags.filter (fun t => ([] : List Job).any (fun j => j.hm == t.2.2)) = [] := by simp
  unfold Dev.cancelsSent
  dsimp only
  rw [htags]
  rfl

theorem Dev.jobs_cancelCounted (d : Dev) (a b : Nat) (l : List Nat) : (d.cancelCounted a b l).jobs = d.jobs := by
  unfold Dev.cancelCounted Dev.cancelDone
  dsimp only
  split <;> rfl

/-- A cancel that waits for nobody is over at once. -/
theorem Dev.cancelCounted_over (d : Dev) (a : Nat) {n : Nat} (hn : n < 2 ^ 13) : (d.cancelCounted a n []).fld F.JR_CANCEL_CNT_JOBS = n ∧
    (d.cancelCounted a n []).fld F.JR_CANCEL_STAT_RESULT = 0 ∧ (d.cancelCounted a n []).flag F.JR_CANCEL_STAT_BUSY = false := by
  have heq : d.cancelCounted a n [] =
      ((({ (d.setFld F.JR_CANCEL_STAT_SKIPPED a).setFld F.JR_CANCEL_CNT_JOBS n with adm := { d.adm with cancelWait := [] } }.setFlag
        F.JR_CANCEL_STAT_BUSY true).setFlag F.JR_CANCEL_STAT_BUSY false).setFld F.JR_CANCEL_STAT_RESULT Rsn.ok.toNat) := rfl
  rw [heq]
  refine ⟨?_, ?_, ?_⟩
  · refine (Dev.fld_setFld_ne _ _ _ _ (by decide) (by decide)).trans ?_
    refine (Dev.fld_setFlag_ne _ _ _ _ (by decide) (by decide)).trans ((Dev.fld_setFlag_ne _ _ _ _ (by decide) (by decide)).trans ?_)
    exact (Dev.fld_setFld_same (d.setFld F.JR_CANCEL_STAT_SKIPPED a) F.JR_CANCEL_CNT_JOBS n (by decide)).trans (Nat.mod_eq_of_lt hn)
  · exact (Dev.fld_setFld_same _ _ _ (by decide)).trans (by decide)
  · refine (Dev.flag_setFld_ne _ _ _ _ (by decide) (by decide)).trans ?_
    exact Dev.flag_setFlag_same _ _ _ (by decide) rfl

/-- Only the jobs that end here change. -/
theorem Dev.jobs_cancelRun (d : Dev) (ring : Nat) (rest : Bool) (f : Job) : (d.cancelRun ring rest f).jobs =
    (d.endAll (((d.cancelSel ring rest f).filter (Job.cancelHere d.pos)).map Job.hm) { typ := 6, reason := Rsn.expHostCancel, bn := d.now }).jobs := by
  unfold Dev.cancelRun
  dsimp only
  rw [Dev.jobs_cancelCounted, Dev.jobs_cancelsSent, ← Dev.foldl_endJob_now, List.foldl_map]

theorem Dev.cancelRun_ends {d : Dev} (hnd : (d.jobs.map Job.hm).Nodup) {ring : Nat} {rest : Bool} {f j : Job} (hj : j ∈ d.cancelSel ring rest f)
    (hst : j.st = .accepted) (hsent : j.sent = false) (hout : j.out = none) :
    ∃ k ∈ (d.cancelRun ring rest f).jobs, k.hm = j.hm ∧ k.st = .expired ∧ k.out = some { typ := 6, reason := 0x2006, bn := d.now } := by
  have hhere : j ∈ (d.cancelSel ring rest f).filter (Job.cancelHere d.pos) := List.mem_filter.2 ⟨hj, by simp [Job.cancelHere, hst, hsent]⟩
  have hsub : (((d.cancelSel ring rest f).filter (Job.cancelHere d.pos)).map Job.hm).Nodup :=
    ((List.filter_sublist.trans List.filter_sublist).map _).nodup hnd
  rw [Dev.jobs_cancelRun]
  obtain ⟨k, hk, hend⟩ := Dev.endAll_ends hnd hsub (List.mem_filter.1 hj).1 (List.mem_map_of_mem hhere) hout
    { typ := 6, reason := Rsn.expHostCancel, bn := d.now }
  exact ⟨k, hk, hend.hm, hend.st, hend.out⟩

theorem Dev.cancelRun_others {d : Dev} {ring : Nat} {rest : Bool} {f k : Job} (hk : k ∈ d.jobs)
    (h : k.hm ∉ ((d.cancelSel ring rest f).filter (Job.cancelHere d.pos)).map Job.hm) : k ∈ (d.cancelRun ring rest f).jobs := by
  rw [Dev.jobs_cancelRun]
  exact (d.jobsTouched_endAll _ _).mem hk h

/-- The one entry of a list of distinct ones that a test admits. -/
theorem filter_eq_singleton {A : Type} {p : A → Bool} {a : A} : ∀ {l : List A}, l.Nodup → a ∈ l → (∀ x ∈ l, p x = true ↔ x = a) → l.filter p = [a]
  | [], _, ha, _ => absurd ha List.not_mem_nil
  | x :: l, hnd, ha, hp => by
    obtain ⟨hx, hl⟩ := List.nodup_cons.1 hnd
    by_cases hxa : x = a
    · subst hxa
      have hrest : l.filter p = [] := List.filter_eq_nil_iff.2 fun y hy hpy => hx ((hp y (List.mem_cons_of_mem _ hy)).1 hpy ▸ hy)
      rw [List.filter_cons_of_pos ((hp x List.mem_cons_self).2 rfl), hrest]
    · rw [List.filter_cons_of_neg fun h => hxa ((hp x List.mem_cons_self).1 h)]
      exact filter_eq_singleton hl ((List.mem_cons.1 ha).resolve_left (Ne.symm hxa)) fun y hy => hp y (List.mem_cons_of_mem _ hy)

/-- With distinct hallmarks a cancel of one job selects that one. -/
theorem Dev.cancelSel_one {d : Dev} (hnd : (d.jobs.map Job.hm).Nodup) {ring : Nat} {f : Job} (hf : d.cancelNamed ring = some f) :
    d.cancelSel ring false f = [f] := by
  have hmem : f ∈ d.jobs := List.mem_of_find?_eq_some hf
  have hnamed := List.find?_some hf
  simp only [Bool.and_eq_true, beq_iff_eq] at hnamed
  refine filter_eq_singleton (List.Nodup.of_map _ hnd) hmem fun x hx => ⟨fun h => ?_, fun h => by simp [h, hnamed.1]⟩
  simp only [Bool.and_eq_true, beq_iff_eq, Bool.false_eq_true, if_false] at h
  exact List.inj_on_of_nodup_map hnd hx hmem h.2

/-- The clauses on the cancel of one job. -/
theorem hostCancelOne_ends {p : Port} {ring : Fin 512} {s : State} (hnd : (s.dev.jobs.map Job.hm).Nodup) (hg : s.dev.gate p R.JR_CANCEL_CMD = .pass)
    (hm : s.dev.isMgr = true) (hb : s.dev.flag F.JR_CANCEL_STAT_BUSY = false) {f : Job} (hf : s.dev.cancelNamed ring.val = some f)
    (hst : f.st = .accepted) (hsent : f.sent = false) (hout : f.out = none) : ∃ t, exec (.hostCancelOne p ring) s = .next t ∧
      (∃ k ∈ t.dev.jobs, k.hm = f.hm ∧ k.st = .expired ∧ k.out = some { typ := 6, reason := 0x2006, bn := s.dev.now }) ∧
      t.dev.fld F.JR_CANCEL_CNT_JOBS = 1 ∧ t.dev.fld F.JR_CANCEL_STAT_RESULT = 0 ∧ t.dev.flag F.JR_CANCEL_STAT_BUSY = false ∧
      ∀ k ∈ s.dev.jobs, k.hm ≠ f.hm → k ∈ t.dev.jobs := by
  have hexec := exec_hostCancelOne (ring := ring) hg
  rw [Dev.hostCancel_of_named hm hb hf] at hexec
  have hsel := Dev.cancelSel_one hnd hf
  have hhere : (s.dev.cancelSel ring.val false f).filter (Job.cancelHere s.dev.pos) = [f] := by rw [hsel]; simp [Job.cancelHere, hst, hsent]
  have haway : (s.dev.cancelSel ring.val false f).filter (Job.cancelAway s.dev.pos) = [] := by rw [hsel]; simp [Job.cancelAway, hst, hsent]
  have hends := Dev.cancelRun_ends hnd (ring := ring.val) (rest := false) (f := f) (j := f) (by rw [hsel]; exact List.mem_singleton.2 rfl) hst hsent hout
  have hothers := fun k (hk : k ∈ s.dev.jobs) (hne : k.hm ≠ f.hm) =>
    Dev.cancelRun_others (ring := ring.val) (rest := false) (f := f) hk (by rw [hhere]; simpa using hne)
  obtain ⟨hcount, hresult, hbusy⟩ : (s.dev.cancelRun ring.val false f).fld F.JR_CANCEL_CNT_JOBS = 1 ∧
      (s.dev.cancelRun ring.val false f).fld F.JR_CANCEL_STAT_RESULT = 0 ∧ (s.dev.cancelRun ring.val false f).flag F.JR_CANCEL_STAT_BUSY = false := by
    unfold Dev.cancelRun
    dsimp only
    rw [hhere, haway]
    exact Dev.cancelCounted_over _ _ (show 1 < 2 ^ 13 by decide)
  generalize s.dev.cancelRun ring.val false f = e at *
  exact ⟨_, hexec, hends, hcount, hresult, hbusy, hothers⟩

/-- The clauses on the cancel of a job and every later one. -/
theorem hostCancelRest_ends {p : Port} {ring : Fin 512} {s : State} (hnd : (s.dev.jobs.map Job.hm).Nodup) (hg : s.dev.gate p R.JR_CANCEL_CMD = .pass)
    (hm : s.dev.isMgr = true) (hb : s.dev.flag F.JR_CANCEL_STAT_BUSY = false) {f : Job} (hf : s.dev.cancelNamed ring.val = some f) :
    ∃ t, exec (.hostCancelRest p ring) s = .next t ∧
      (∀ j ∈ s.dev.jobs, j.ring = ring.val → f.hm ≤ j.hm → j.st = .accepted → j.sent = false → j.out = none →
        ∃ k ∈ t.dev.jobs, k.hm = j.hm ∧ k.st = .expired ∧ k.out = some { typ := 6, reason := 0x2006, bn := s.dev.now }) ∧
      ∀ k ∈ s.dev.jobs, k.ring ≠ ring.val ∨ k.hm < f.hm ∨ k.active = true → k ∈ t.dev.jobs := by
  have hexec := exec_hostCancelRest (ring := ring) hg
  rw [Dev.hostCancel_of_named hm hb hf] at hexec
  have hends := fun (j : Job) (hj : j ∈ s.dev.cancelSel ring.val true f) => Dev.cancelRun_ends hnd hj
  have hothers := fun (k : Job) (hk : k ∈ s.dev.jobs) (h : k ∉ (s.dev.cancelSel ring.val true f).filter (Job.cancelHere s.dev.pos)) =>
    Dev.cancelRun_others (ring := ring.val) (rest := true) (f := f) hk
      (hm_notMem_of_notMem hnd (fun _ hx => (List.mem_filter.1 (List.mem_filter.1 hx).1).1) hk h)
  generalize s.dev.cancelRun ring.val true f = e at *
  refine ⟨_, hexec, fun j hj hring hle hst hsent hout => hends j (List.mem_filter.2 ⟨hj, by simp [hring, hle]⟩) hst hsent hout,
    fun k hk h => hothers k hk fun hin => ?_⟩
  obtain ⟨hsel, hhere⟩ := List.mem_filter.1 hin
  have hcond := (List.mem_filter.1 hsel).2
  simp only [Bool.and_eq_true, beq_iff_eq, if_true, decide_eq_true_eq] at hcond
  rcases h with h | h | h
  · exact h hcond.1
  · omega
  · rcases (by simpa [Job.active] using h : k.st = .bound ∨ k.st = .striking) with hs | hs <;> simp [Job.cancelHere, hs] at hhere

/-! ## The executor's cancels -/

/-- The waiting jobs here that bear one of the tags. -/
def Dev.tagged (d : Dev) (tags : List (BitVec 12)) : List Job :=
  d.jobs.filter fun j => j.waiting && j.exec == d.pos && tags.any (fun t => t.toNat == j.dtag)

theorem Dev.mem_tagged {d : Dev} {tags : List (BitVec 12)} {j : Job} :
    j ∈ d.tagged tags ↔ j ∈ d.jobs ∧ j.st = .dispatched ∧ j.exec = d.pos ∧ ∃ g ∈ tags, g.toNat = j.dtag := by
  simp [Dev.tagged, Job.waiting, and_assoc]

theorem exec_cancelMessage (tags : List (BitVec 12)) (s : State) : exec (.cancelMessage tags) s = .next (s.onDev fun d =>
    if d.isMgr then d else ((d.tagged tags).map Job.hm).foldl (fun d hm => d.endJob hm { typ := 6, reason := Rsn.expHostCancel, bn := d.now }) d) := rfl

theorem cancelMessage_ends {tags : List (BitVec 12)} {s : State} (hnd : (s.dev.jobs.map Job.hm).Nodup) (hm : s.dev.isMgr = false) :
    ∃ t, exec (.cancelMessage tags) s = .next t ∧
      (∀ j ∈ s.dev.jobs, j.st = .dispatched → j.exec = s.dev.pos → j.out = none → (∃ g ∈ tags, g.toNat = j.dtag) →
        ∃ k ∈ t.dev.jobs, k.hm = j.hm ∧ k.st = .expired ∧ k.out = some { typ := 6, reason := 0x2006, bn := s.dev.now }) ∧
      ∀ j ∈ s.dev.jobs, j.st ≠ .dispatched ∨ j.exec ≠ s.dev.pos ∨ (∀ g ∈ tags, g.toNat ≠ j.dtag) → j ∈ t.dev.jobs := by
  have hexec := exec_cancelMessage tags s
  rw [State.onDev, hm, if_neg (by decide), Dev.foldl_endJob_now] at hexec
  have hsub : ((s.dev.tagged tags).map Job.hm).Nodup := (List.filter_sublist.map _).nodup hnd
  refine ⟨_, hexec, fun j hj hst hexec hout htag => ?_, fun j hj h => ?_⟩
  · obtain ⟨k, hk, hend⟩ := Dev.endAll_ends hnd hsub hj (List.mem_map_of_mem (Dev.mem_tagged.2 ⟨hj, hst, hexec, htag⟩)) hout
      { typ := 6, reason := Rsn.expHostCancel, bn := s.dev.now }
    exact ⟨k, hk, hend.hm, hend.st, hend.out⟩
  · refine (s.dev.jobsTouched_endAll _ _).mem hj (hm_notMem_of_notMem hnd (fun _ hx => (List.mem_filter.1 hx).1) hj fun hin => ?_)
    obtain ⟨-, hst, hexec, g, hg, htag⟩ := Dev.mem_tagged.1 hin
    rcases h with h | h | h
    · exact h hst
    · exact h hexec
    · exact h g hg htag

/-- Settles O40: each cancel ends the jobs of a list of distinct hallmarks, one after the other. -/
theorem waitingJobsExpireOrCancel : Obligations.WaitingJobsExpireOrCancel := by
  intro s hnd
  refine ⟨fun ring j hj hout => ⟨fun hw hlim hcaps hst => waitExpire_ends hnd hj hout hw hlim hcaps hst, waitExpire_waits hj⟩,
    fun p ring hg hm hb => ⟨fun hn => ?_, fun f hf hst hsent hout => hostCancelOne_ends hnd hg hm hb hf hst hsent hout,
      fun f hf => hostCancelRest_ends hnd hg hm hb hf⟩,
    fun tags hm => cancelMessage_ends hnd hm, fun tags hm => ?_⟩
  · have hone := exec_hostCancelOne (ring := ring) hg
    have hrest := exec_hostCancelRest (ring := ring) hg
    rw [Dev.hostCancel_of_missed hm hb hn] at hone hrest
    obtain ⟨hresult, hjobs, hregs⟩ := s.dev.cancelMissed_shown
    exact ⟨_, hone, hrest, hresult, hjobs, hregs⟩
  · rw [exec_cancelMessage, State.onDev, hm, if_pos rfl]

end Sys2Proof.Machine
end

section

/-!
PROOF. A capture binds to the oldest waiting job of its ring (R39, R42, R334, R350).
-/

namespace Sys2Proof.Machine
open Sys2Proof

/-! ## A binding -/

theorem Dev.jobs_encAt (d : Dev) (n t : Nat) : (d.encAt n t).1.jobs = d.jobs := by
  unfold Dev.encAt
  split <;> rfl

/-- The device from which a binding reads the position of its encoder. -/
def Dev.triggerRead (d : Dev) (j : Job) (stamp : Nat) : Dev × Int := if j.dkind then d.encAt (d.fld (F.JR_BIND_ENC j.ring)) stamp else (d, 0)

theorem Dev.jobs_triggerRead (d : Dev) (j : Job) (stamp : Nat) : (d.triggerRead j stamp).1.jobs = d.jobs := by
  unfold Dev.triggerRead
  split
  · exact d.jobs_encAt _ _
  · rfl

/-- The triggered job is bound under the stamp; every job keeps its hallmark. -/
theorem Dev.takeTrigger_binds {d : Dev} {j : Job} (hj : d.job? j.hm = some j) (m : List Host.Cell) (stamp : Nat) :
    (∃ k, (d.takeTrigger m j stamp).job? j.hm = some k ∧ k.stamp = stamp ∧ k.st = .bound ∧ k.out = j.out) ∧
    (d.takeTrigger m j stamp).jobs.map Job.hm = d.jobs.map Job.hm := by
  have hread := d.jobs_triggerRead j stamp
  have heq : ∃ g : Job → Job, d.takeTrigger m j stamp = (d.triggerRead j stamp).1.modJob j.hm g ∧
      ∀ k, (g k).hm = k.hm ∧ (g k).stamp = stamp ∧ (g k).st = .bound ∧ (g k).out = k.out := ⟨_, rfl, fun k => ⟨rfl, rfl, rfl, rfl⟩⟩
  obtain ⟨g, heq, hg⟩ := heq
  rw [heq]
  refine ⟨⟨g j, Dev.job?_modJob ((Dev.job?_congr hread j.hm).trans hj) fun k => (hg k).1, (hg j).2.1, (hg j).2.2.1, (hg j).2.2.2⟩, ?_⟩
  exact (Dev.hms_modJob _ _ fun k => (hg k).1).trans (congrArg (List.map Job.hm) hread)

theorem Dev.jobs_engEvent (d : Dev) (n key cyc : Nat) (held : Bool) : (d.engEvent n key cyc held).jobs = d.jobs := by
  unfold Dev.engEvent
  dsimp only
  split <;> rfl

theorem Dev.jobs_rxPush (d : Dev) (n : Nat) (w : Word) : ((d.rxPush n w).getD d).jobs = d.jobs := by
  unfold Dev.rxPush
  dsimp only
  cases (d.eng n).rx.push (d.rxCap n) d.cyc w <;> rfl

/-- Job data that goes to an engine leaves the jobs. -/
theorem Dev.jobs_jobPush (d : Dev) (n : Nat) (ws : List Word) : (d.jobPush n ws).jobs = d.jobs := by
  unfold Dev.jobPush
  split
  · rw [Dev.jobs_engEvent]
    exact foldl_keeps _ (fun e => e.jobs) (fun e w => e.jobs_rxPush n w) ws d
  · simp

/-- A tally issued for an active job. -/
theorem Dev.issue_follows {d : Dev} {h : Nat} {k : Job} (hk : d.job? h = some k) (hact : k.active = true) (t : Nat) :
    d.JobsFollow (d.issue h t) ∧ ∃ i, (d.issue h t).job? h = some i ∧ i.active = true := by
  have heq : ∃ (e : Dev) (g : Job → Job), d.issue h t = e.modJob h g ∧ e.jobs = d.jobs ∧
      ∀ j, (g j).hm = j.hm ∧ (g j).stamp = j.stamp ∧ (g j).resolved = j.resolved ∧ (g j).st = j.st ∧ (g j).out = j.out := by
    unfold Dev.issue
    dsimp only
    split
    · exact ⟨_, _, rfl, rfl, fun j => ⟨rfl, rfl, rfl, rfl, rfl⟩⟩
    · exact ⟨_, _, rfl, rfl, fun j => ⟨rfl, rfl, rfl, rfl, rfl⟩⟩
  obtain ⟨e, g, heq, hjobs, hg⟩ := heq
  have hek : e.job? h = some k := (Dev.job?_congr hjobs h).trans hk
  obtain ⟨-, hstamp, hres, hst, hout⟩ := hg k
  rw [heq]
  refine ⟨(Dev.JobsFollow.of_jobs hjobs).trans (.modJob hek (fun j => (hg j).1)
    ⟨hstamp, hres, .inl ⟨hst, hout⟩, fun h => absurd h (by simp [hact])⟩), g k, Dev.job?_modJob hek fun j => (hg j).1, ?_⟩
  rw [Job.active_of_st hst]; exact hact

theorem Dev.issues_follow {h : Nat} (ts : List Nat) : ∀ {d : Dev} {k : Job}, d.job? h = some k → k.active = true →
    d.JobsFollow (ts.foldl (fun d t => d.issue h t) d) ∧ ∃ i, (ts.foldl (fun d t => d.issue h t) d).job? h = some i ∧ i.active = true := by
  induction ts with
  | nil => exact fun hk hact => ⟨.refl _, _, hk, hact⟩
  | cons t ts ih =>
    intro d k hk hact
    obtain ⟨hfirst, i, hi, hiact⟩ := Dev.issue_follows hk hact t
    obtain ⟨hrest, hlast⟩ := ih hi hiact
    exact ⟨hfirst.trans hrest, hlast⟩

/-- A binding whose tallies are issued: conflicts settle, and the ARMED record falls due. -/
def Dev.bindingSettled (d : Dev) (h : Nat) : Dev := (d.modJob h fun j => { j with tallyWait := false }).settleConflicts

/-- The ARMED record of an active job that has none due. -/
def Dev.armNow (d : Dev) (h : Nat) : Dev := match d.job? h with
  | some j => if j.active && !j.armedDue then d.armDue h else d
  | none => d

theorem Dev.settles_armNow (d : Dev) (h : Nat) : d.Settles (d.armNow h) := by
  unfold Dev.armNow
  cases hj : d.job? h with
  | none => exact .refl d
  | some j =>
    dsimp only
    split
    case isTrue hc => exact Dev.settles_armDue d hj (by simp only [Bool.and_eq_true] at hc; exact hc.1)
    case isFalse => exact .refl d

theorem Dev.follows_completeBinding (d : Dev) (h : Nat) : d.JobsFollow (d.completeBinding h) := by
  cases hj : d.job? h with
  | none => rw [show d.completeBinding h = d by rw [Dev.completeBinding, hj]]; exact .refl d
  | some j =>
    by_cases hopen : (!j.active || !j.tallyWait) = true
    · rw [show d.completeBinding h = d by simp only [Dev.completeBinding, hj]; exact if_pos hopen]; exact .refl d
    · by_cases hbusy : (talliesOf j.body).any (fun t => (d.tal t).issuedBn == some d.now || (d.tal t).hold) = true
      · rw [show d.completeBinding h = d by simp only [Dev.completeBinding, hj]; exact (if_neg hopen).trans (if_pos hbusy)]; exact .refl d
      · have heq : d.completeBinding h = (((talliesOf j.body).foldl (fun d t => d.issue h t) d).bindingSettled h).armNow h := by
          simp only [Dev.completeBinding, hj]; exact (if_neg hopen).trans (if_neg hbusy)
        have hact : j.active = true := by
          simp only [Bool.or_eq_true, Bool.not_eq_true', not_or, Bool.not_eq_false] at hopen
          exact hopen.1
        obtain ⟨hissued, i, hi, hiact⟩ := Dev.issues_follow (talliesOf j.body) hj hact
        rw [heq]
        refine hissued.trans (.trans ?_ (Dev.settles_armNow _ h).jobs)
        exact (Dev.JobsFollow.modJob (g := fun j => { j with tallyWait := false }) hi (fun _ => rfl)
          ⟨rfl, rfl, .inl ⟨rfl, rfl⟩, fun h => absurd h (by simp [hiact])⟩).trans (Dev.settles_settleConflicts _).jobs

/-- A bound job after a settlement that it followed: still bound under its stamp, or ended. -/
theorem Job.Follows.bound {j k : Job} (h : j.Follows k) (hst : j.st = .bound) : k.st = .bound ∨ k.out ≠ none :=
  h.state.imp (fun hs => hs.1.trans hst) fun ho => ho.1

/-- The binding counted among those of this beat. -/
def Dev.bindCounted (d : Dev) : Dev := { d with trg := { d.trg with bound := d.trg.bound + 1 } }

/-- The job data of a bound job at its plan's engine. -/
def Dev.dataPushed (d : Dev) (j : Job) : Dev :=
  if d.flag (F.JR_PLAN_ENG_EN j.ring) then d.jobPush (d.fld (F.JR_PLAN_ENG j.ring)) [j.w 12, j.w 13, j.w 14] else d

/-- A bound job whose domains are free goes on, and one of a fenced domain ends. -/
def Dev.boundRun (e : Dev) (h : Nat) (j : Job) : Dev :=
  if (e.jobDoms j ++ e.sourceDoms j.ring).any e.fenced then e.endJob h { typ := 6, reason := Rsn.expFenced, bn := e.now }
  else (e.dataPushed j).completeBinding h

theorem Dev.bindJob_eq {d : Dev} {h : Nat} {j : Job} (hj : d.job? h = some j) (m : List Host.Cell) (stamp : Nat) :
    d.bindJob m h stamp = (d.takeTrigger m j stamp).bindCounted.boundRun h (((d.takeTrigger m j stamp).bindCounted.job? h).getD j) := by
  simp only [Dev.bindJob, hj]
  rfl

theorem Dev.jobs_dataPushed (d : Dev) (j : Job) : (d.dataPushed j).jobs = d.jobs := by
  unfold Dev.dataPushed
  split
  · exact d.jobs_jobPush _ _
  · rfl

/-- The run of a bound job leaves it bound or ended under its stamp. -/
theorem Dev.boundRun_leaves {e : Dev} {h : Nat} {k : Job} (hk : e.job? h = some k) (hst : k.st = .bound) (i : Job) :
    (∃ l, (e.boundRun h i).job? h = some l ∧ l.stamp = k.stamp ∧ (l.st = .bound ∨ l.out ≠ none)) ∧
    (e.boundRun h i).jobs.map Job.hm = e.jobs.map Job.hm := by
  have hact : k.active = true := by simp [Job.active, hst]
  have hrun : e.JobsFollow (e.boundRun h i) := by
    unfold Dev.boundRun
    split
    · exact .endJob hk hact rfl
    · exact (Dev.JobsFollow.of_jobs (e.jobs_dataPushed i)).trans (Dev.follows_completeBinding _ h)
  obtain ⟨l, hl, hf⟩ := hrun.job h k hk
  exact ⟨⟨l, hl, hf.stamp, hf.bound hst⟩, hrun.hms⟩

theorem Dev.bindJob_binds {d : Dev} {j : Job} (hj : d.job? j.hm = some j) (m : List Host.Cell) (stamp : Nat) :
    (∃ k, (d.bindJob m j.hm stamp).job? j.hm = some k ∧ k.stamp = stamp ∧ (k.st = .bound ∨ k.out ≠ none)) ∧
    (d.bindJob m j.hm stamp).jobs.map Job.hm = d.jobs.map Job.hm := by
  obtain ⟨⟨k, hk, hkst, hkb, -⟩, hms⟩ := Dev.takeTrigger_binds hj m stamp
  rw [Dev.bindJob_eq hj]
  obtain ⟨⟨l, hl, hls, hlb⟩, hms'⟩ := Dev.boundRun_leaves (e := (d.takeTrigger m j stamp).bindCounted) hk hkb
    (((d.takeTrigger m j stamp).bindCounted.job? j.hm).getD j)
  exact ⟨⟨l, hl, hls.trans hkst, hlb⟩, hms'.trans hms⟩

/-! ### The captures -/

theorem Dev.Settles.trg {d e : Dev} (h : d.Settles e) : e.trg = d.trg := by rw [h.frame.frame]

theorem Dev.trg_issue (d : Dev) (h t : Nat) : (d.issue h t).trg = d.trg := by
  unfold Dev.issue
  dsimp only
  split <;> rfl

theorem Dev.trg_bindingSettled (d : Dev) (h : Nat) : (d.bindingSettled h).trg = d.trg := (Dev.settles_settleConflicts _).trg

theorem Dev.trg_completeBinding (d : Dev) (h : Nat) : (d.completeBinding h).trg = d.trg := by
  unfold Dev.completeBinding
  split
  · rfl
  · split
    · rfl
    · dsimp only
      split
      · rfl
      · refine (Dev.settles_armNow _ h).trg.trans ((Dev.trg_bindingSettled _ h).trans ?_)
        exact foldl_keeps _ (fun e => e.trg) (fun e t => e.trg_issue h t) _ d

theorem Dev.trg_engEvent (d : Dev) (n key cyc : Nat) (held : Bool) : (d.engEvent n key cyc held).trg = d.trg := by
  unfold Dev.engEvent
  dsimp only
  split <;> rfl

theorem Dev.trg_rxPush (d : Dev) (n : Nat) (w : Word) : ((d.rxPush n w).getD d).trg = d.trg := by
  unfold Dev.rxPush
  dsimp only
  cases (d.eng n).rx.push (d.rxCap n) d.cyc w <;> rfl

theorem Dev.trg_dataPushed (d : Dev) (j : Job) : (d.dataPushed j).trg = d.trg := by
  unfold Dev.dataPushed Dev.jobPush
  split
  · split
    · rw [Dev.trg_engEvent]
      exact foldl_keeps _ (fun e => e.trg) (fun e w => e.trg_rxPush _ w) _ d
    · simp
  · rfl

theorem Dev.trg_triggerRead (d : Dev) (j : Job) (stamp : Nat) : (d.triggerRead j stamp).1.trg = d.trg := by
  unfold Dev.triggerRead Dev.encAt
  split
  · split <;> rfl
  · rfl

/-- A binding leaves the captures that wait. -/
theorem Dev.caps_bindJob (d : Dev) (m : List Host.Cell) (h stamp : Nat) : (d.bindJob m h stamp).trg.caps = d.trg.caps := by
  cases hj : d.job? h with
  | none => simp only [Dev.bindJob, hj]
  | some j =>
    rw [Dev.bindJob_eq hj]
    have htaken : (d.takeTrigger m j stamp).bindCounted.trg.caps = d.trg.caps := by
      have hread := congrArg TrigSt.caps (d.trg_triggerRead j stamp)
      exact hread
    generalize (d.takeTrigger m j stamp).bindCounted = e at *
    rw [← htaken]
    refine congrArg TrigSt.caps ?_
    unfold Dev.boundRun
    split
    · simp
    · rw [Dev.trg_completeBinding, Dev.trg_dataPushed]

/-! ## The capture -/

/-- The captures that no longer wait for their beat. -/
def Dev.capsKept (d : Dev) : List Capture := d.trg.caps.filter fun c => !decide (c.bn < d.now)

/-- The device with its captures replaced. -/
def Dev.withCaps (d : Dev) (cs : List Capture) : Dev := { d with trg := { d.trg with caps := cs } }

theorem noTallyWait {js : List Job} (h : ∀ k ∈ js, k.tallyWait = false) : js.filter (fun j => j.tallyWait) = [] :=
  List.filter_eq_nil_iff.2 fun k hk => by simp [h k hk]

/-- Where nothing may bind, captures of earlier beats are dropped. -/
theorem exec_bindCapture_off {s : State} (hm : s.dev.mayBind = false) (ht : ∀ k ∈ s.dev.jobs, k.tallyWait = false) :
    exec .bindCapture s = .next { s with dev := s.dev.withCaps s.dev.capsKept } := by
  refine congrArg (fun d : Dev => Host.Outcome.next { s with dev := d }) ?_
  dsimp only
  rw [noTallyWait ht]
  exact if_pos (by simp [hm])

/-- A waiting job of another trigger source is left to its captures. -/
theorem Dev.bindHost_of_capture {d : Dev} {h : Nat} (ht : ∀ k ∈ d.jobs, k.waiting = true → d.fld (F.JR_BIND_TSRC k.ring) ≠ 3) (m : List Host.Cell) :
    d.bindHost m h = d := by
  unfold Dev.bindHost
  cases hj : d.job? h with
  | none => rfl
  | some j =>
    have hsrc := ht j (List.mem_of_find?_eq_some hj)
    refine if_pos ?_
    cases hw : j.waiting
    · rfl
    · simpa using hsrc hw

theorem Dev.bindHosts_of_capture {d : Dev} (ht : ∀ k ∈ d.jobs, k.waiting = true → d.fld (F.JR_BIND_TSRC k.ring) ≠ 3) (m : List Host.Cell) (hs : List Nat) :
    hs.foldl (fun d hm => d.bindHost m hm) d = d := by
  induction hs with
  | nil => rfl
  | cons h hs ih => rw [List.foldl_cons, Dev.bindHost_of_capture ht]; exact ih

/-- The rings that the earliest capture may still bind for in this beat, each offered it. -/
def Dev.captureOffered (d : Dev) (m : List Host.Cell) (due : List Capture) : Dev :=
  match (due.filter (fun c => c.rings.any (fun r => !d.ringHeld r))).mergeSort (fun a b => decide (a.stamp ≤ b.stamp)) with
  | [] => d
  | c :: _ =>
    let rs := (c.rings.filter (fun r => !d.ringHeld r)).take (16 - d.trg.bound)
    let rest := c.rings.filter (fun r => !rs.contains r)
    let caps := d.trg.caps.flatMap (fun x => if x = c then (if rest.isEmpty then [] else [{ c with rings := rest }]) else [x])
    rs.foldl (fun d r => d.bindRing m c r) (d.withCaps caps)

theorem exec_bindCapture_on {s : State} (hm : s.dev.mayBind = true)
    (ht : ∀ k ∈ s.dev.jobs, k.tallyWait = false ∧ (k.waiting = true → s.dev.fld (F.JR_BIND_TSRC k.ring) ≠ 3)) :
    exec .bindCapture s = .next { s with dev := s.dev.captureOffered s.store (s.dev.trg.caps.filter fun c => decide (c.bn < s.dev.now)) } := by
  refine congrArg (fun d : Dev => Host.Outcome.next { s with dev := d }) ?_
  dsimp only
  rw [noTallyWait fun k hk => (ht k hk).1]
  refine (if_neg (by simp [hm])).trans ?_
  have hhosts := Dev.bindHosts_of_capture (d := s.dev) (fun k hk => (ht k hk).2) s.store
    ((s.dev.jobs.filter (fun j => j.waiting && j.exec == s.dev.pos)).map Job.hm)
  exact congrArg (fun e : Dev => e.captureOffered s.store (s.dev.trg.caps.filter fun c => decide (c.bn < s.dev.now))) hhosts

/-- One capture of one ring that holds nothing back is offered to that ring, and spent. -/
theorem Dev.captureOffered_one {d : Dev} {m : List Host.Cell} {c : Capture} {r : Nat} (hcaps : d.trg.caps = [c]) (hr : c.rings = [r])
    (hheld : d.ringHeld r = false) (hb : d.trg.bound < 16) : d.captureOffered m [c] = (d.withCaps []).bindRing m c r := by
  have hfree : [c].filter (fun c => c.rings.any (fun r => !d.ringHeld r)) = [c] := by simp [hr, hheld]
  have hrs : (c.rings.filter (fun r => !d.ringHeld r)).take (16 - d.trg.bound) = [r] := by
    rw [hr, List.filter_cons_of_pos (by simp [hheld]), List.filter_nil]
    exact List.take_of_length_le (by simp; omega)
  unfold Dev.captureOffered
  rw [hfree, List.mergeSort_singleton]
  dsimp only
  rw [hrs, hcaps, hr]
  simp

/-- The ring whose capture binds again. -/
def Dev.ringClaimed (d : Dev) (r : Nat) : Dev := { d with trg := { d.trg with unclRun := d.trg.unclRun.filter (· != r) } }

/-- The clause on a capture that binds. -/
theorem bindCapture_binds {s : State} {c : Capture} {r : Nat} {j : Job} (hm : s.dev.mayBind = true) (hcaps : s.dev.trg.caps = [c])
    (hbn : c.bn < s.dev.now) (hr : c.rings = [r]) (hheld : s.dev.ringHeld r = false) (hb : s.dev.trg.bound < 16)
    (hnd : (s.dev.jobs.map Job.hm).Nodup)
    (ht : ∀ k ∈ s.dev.jobs, k.tallyWait = false ∧ (k.waiting = true → s.dev.fld (F.JR_BIND_TSRC k.ring) ≠ 3))
    (hj : oldestJob (s.dev.jobs.filter (fun k => k.ring == r && k.exec == s.dev.pos && k.waiting && decide (k.dispBn ≤ c.bn) &&
      (k.wait_ == 0 || decide (c.bn < k.acceptBn + k.wait_)))) = some j) :
    ∃ t k, exec .bindCapture s = .next t ∧ t.dev.trg.caps = [] ∧ t.dev.job? j.hm = some k ∧ k.stamp = c.stamp ∧
      (k.st = .bound ∨ k.out ≠ none) ∧ t.dev.jobs.map Job.hm = s.dev.jobs.map Job.hm := by
  have hexec := exec_bindCapture_on hm ht
  have hdue : s.dev.trg.caps.filter (fun c => decide (c.bn < s.dev.now)) = [c] := by rw [hcaps]; simp [hbn]
  rw [hdue, Dev.captureOffered_one hcaps hr hheld hb] at hexec
  have hring : (s.dev.withCaps []).bindRing s.store c r = ((s.dev.withCaps []).ringClaimed r).bindJob s.store j.hm c.stamp := by
    have hj' : oldestJob ((s.dev.withCaps []).jobs.filter (fun k => k.ring == r && k.exec == (s.dev.withCaps []).pos && k.waiting &&
      decide (k.dispBn ≤ c.bn) && (k.wait_ == 0 || decide (c.bn < k.acceptBn + k.wait_)))) = some j := hj
    unfold Dev.bindRing
    dsimp only
    rw [hj']
    rfl
  have hfound : ((s.dev.withCaps []).ringClaimed r).job? j.hm = some j := Dev.job?_of_mem (d := s.dev) hnd (List.mem_filter.1 (oldestJob_mem hj)).1
  obtain ⟨⟨k, hk, hstamp, hbound⟩, hms⟩ := Dev.bindJob_binds hfound s.store c.stamp
  rw [hring] at hexec
  refine ⟨_, k, hexec, ?_, hk, hstamp, hbound, hms⟩
  exact Dev.caps_bindJob _ _ _ _

/-- Settles O39: the capture goes to the oldest waiting job of its one ring, and a settlement leaves a bound job bound or ended. -/
theorem captureBindsOldestWaitingJob : Obligations.CaptureBindsOldestWaitingJob :=
  fun _ => ⟨exec_bindCapture_off, fun _ _ _ hm hcaps hbn hr hheld hb hnd ht hj => bindCapture_binds hm hcaps hbn hr hheld hb hnd ht hj⟩

end Sys2Proof.Machine
end

section

/-!
PROOF. Dispatch of jobs to their executors (07_waybills_and_admission.md R331 to R333, 15_wilin_ring.md R745).
-/

namespace Sys2Proof.Machine
open Sys2Proof

/-! ## The manager's side -/

/-- The jobs of a ring that its executor holds or is asked to take. -/
def Dev.ringHolds (d : Dev) (r : Nat) : Nat := (d.jobs.filter (fun j => j.ring == r && (j.st == .dispatched || (j.st == .accepted && j.sent)))).length

/-- The next job of a ring may go now. -/
def Dev.mayGo (d : Dev) (r : Nat) : Bool := match d.nextJob r with
  | some j => d.acceptSealed j && d.takesJobs j.exec && !d.fenced (domRing r) &&
      decide (d.ringHolds r < d.fld (F.JR_ACFG_DWIN r)) && (j.exec == d.pos || (d.freeTag j.exec).isSome)
  | none => false

/-- The rings whose next job may go. -/
def Dev.dispatchable (d : Dev) : List Nat := ((d.jobs.map Job.ring).eraseDups).filter d.mayGo

/-- A dispatch counted, and the turn of its ring taken. -/
def Dev.dispatchCounted (d : Dev) (r : Nat) : Dev :=
  { d with adm := { d.adm with dispatched := d.adm.dispatched + 1, rrDisp := mset 511 d.adm.rrDisp (d.fld (F.JR_ACFG_PRIO r)) r } }

/-- A job that is sent to its executor. -/
def Job.goneOut (j : Job) : Job := { j with sent := true }

/-- The tag of a job at its executor. -/
def Dev.tagTaken (d : Dev) (t : Nat) (j : Job) : Dev := { d with wr := { d.wr with tags := d.wr.tags ++ [(t, j.exec, j.hm)] } }

/-- The words that bring a job to its executor. -/
def dispatchWords (j : Job) (r t : Nat) : List Word :=
  [BitVec.ofNat 32 j.hm, BitVec.ofNat 32 (j.hm / 2 ^ 32 + r * 2 ^ 16), BitVec.ofNat 32 (t + j.cls * 2 ^ 12),
   BitVec.ofNat 32 j.acceptBn, BitVec.ofNat 32 (j.acceptBn / 2 ^ 32)] ++ j.body

/-- A job sent, here or over the ring. -/
def Dev.jobSent (d : Dev) (m : List Host.Cell) (r : Nat) (j : Job) : Dev :=
  let e := (d.dispatchCounted r).modJob j.hm Job.goneOut
  if j.exec = e.pos then e.holdJob m j.hm
  else match e.freeTag j.exec with
    | none => e
    | some t => (e.tagTaken t j).bulkPut j.exec 1 (dispatchWords j r t)

theorem exec_jobDispatch (s : State) : exec .jobDispatch s = .next (s.onDevR fun m d =>
    if !d.keeps || decide (2 ≤ d.adm.dispatched) then d
    else match d.nextRing d.adm.rrDisp d.dispatchable with
      | none => d
      | some r => match d.nextJob r with
        | none => d
        | some j => d.jobSent m r j) := rfl

theorem exec_jobDispatch_off {s : State} (h : s.dev.keeps = false ∨ 2 ≤ s.dev.adm.dispatched) : exec .jobDispatch s = .next s := by
  rw [exec_jobDispatch, State.onDevR, if_pos (by rcases h with h | h <;> simp [h])]

/-- The clause on a job of another position. -/
theorem jobDispatch_away {s : State} {r g : Nat} {j : Job} (hk : s.dev.keeps = true) (hm : s.dev.boot.role = .manager) (hd : s.dev.adm.dispatched < 2)
    (hr : s.dev.nextRing s.dev.adm.rrDisp s.dev.dispatchable = some r) (hj : s.dev.nextJob r = some j) (hpos : j.exec ≠ s.dev.pos)
    (hg : s.dev.freeTag j.exec = some g) : ∃ t ws, exec .jobDispatch s = .next t ∧
      t.dev.jobs = s.dev.jobs.map (fun k => if k.hm == j.hm then { k with sent := true } else k) ∧
      t.dev.wr = { s.dev.wr with tags := s.dev.wr.tags ++ [(g, j.exec, j.hm)],
                                 bulk := s.dev.wr.bulk ++ [{ dst := j.exec, kind := 1, words := ws, left := bulkBlocks ws.length }] } ∧
      ws.getD 0 0 = BitVec.ofNat 32 j.hm ∧ ws.drop 5 = j.body ∧ t.dev.adm.dispatched = s.dev.adm.dispatched + 1 ∧
      t = { s with dev := { s.dev with jobs := t.dev.jobs, wr := t.dev.wr, adm := t.dev.adm } } := by
  have hsent : s.dev.jobSent s.store r j =
      (((s.dev.dispatchCounted r).modJob j.hm Job.goneOut).tagTaken g j).bulkPut j.exec 1 (dispatchWords j r g) := by
    have htag : ((s.dev.dispatchCounted r).modJob j.hm Job.goneOut).freeTag j.exec = some g := hg
    refine (if_neg hpos).trans ?_
    rw [htag]
  have hexec := exec_jobDispatch s
  rw [State.onDevR, if_neg (by simp [hk]; omega), hr] at hexec
  dsimp only at hexec
  rw [hj] at hexec
  dsimp only at hexec
  rw [hsent, Dev.bulkPut_of_manager (by exact hm)] at hexec
  exact ⟨_, dispatchWords j r g, hexec, rfl, rfl, rfl, rfl, rfl, rfl⟩

/-! ## The executor's side -/

/-- The stream granules of one play. -/
def allotOne (m : List Host.Cell) (a : Dev × List PlayRun) (p : PlayRun) : Dev × List PlayRun :=
  let n := progGrans m p.segTab (stepRun m p.stBase 1024 p.step).1
  if n = 0 then (a.1, a.2 ++ [p])
  else
    let next := a.1.num (R.SP_SBNEXT p.sp)
    (a.1.setNum (R.SP_SBNEXT p.sp) ((next + n) % 2 ^ 32), a.2 ++ [{ p with gran := next, granN := n }])

/-- The registers that allotments move. -/
def allotRegs : List Nat := (List.range 16).map R.SP_SBNEXT

theorem mem_allotRegs (n : Nat) : R.SP_SBNEXT n ∈ allotRegs :=
  List.mem_map.2 ⟨n % 16, List.mem_range.2 (Nat.mod_lt _ (by decide)), by simp [R.SP_SBNEXT]⟩

theorem jrBind_notMem_allotRegs (n : Nat) : R.JR_BIND n ∉ allotRegs := by
  intro h
  obtain ⟨k, -, hk⟩ := List.mem_map.1 h
  simp only [R.SP_SBNEXT, R.JR_BIND] at hk
  omega

/-- Allotments only move their registers. -/
theorem allots_leave (m : List Host.Cell) (ps : List PlayRun) : ∀ a : Dev × List PlayRun,
    (ps.foldl (allotOne m) a).1 = { a.1 with regs := (ps.foldl (allotOne m) a).1.regs } ∧ a.1.regsBut (ps.foldl (allotOne m) a).1 allotRegs := by
  induction ps with
  | nil => exact fun a => ⟨rfl, .refl _ _⟩
  | cons p ps ih =>
    intro a
    have hone : (allotOne m a p).1 = { a.1 with regs := (allotOne m a p).1.regs } ∧ a.1.regsBut (allotOne m a p).1 allotRegs := by
      unfold allotOne
      dsimp only
      split
      · exact ⟨rfl, .refl _ _⟩
      · exact ⟨rfl, .setNum (.refl _ _) (mem_allotRegs _) _⟩
    obtain ⟨hframe, hregs⟩ := ih (allotOne m a p)
    refine ⟨?_, hone.2.trans hregs⟩
    rw [List.foldl_cons]
    exact hframe.trans (congrArg (fun e : Dev => { e with regs := (ps.foldl (allotOne m) (allotOne m a p)).1.regs }) hone.1)

/-- A job with its plays. -/
def Job.playing (ps : List PlayRun) (j : Job) : Job := { j with plays := ps }

/-- The stream allotment of a held job: its registers move, and its plays are noted. -/
theorem Dev.allotStreams_leaves {d : Dev} {h : Nat} {j : Job} (hj : d.job? h = some j) (m : List Host.Cell) :
    ∃ (e : Dev) (ps : List PlayRun), d.allotStreams m h = e.modJob h (Job.playing ps) ∧ e = { d with regs := e.regs } ∧ d.regsBut e allotRegs := by
  obtain ⟨hframe, hregs⟩ := allots_leave m (d.buildPlays m j) (d, [])
  refine ⟨((d.buildPlays m j).foldl (allotOne m) (d, [])).1, ((d.buildPlays m j).foldl (allotOne m) (d, [])).2, ?_, hframe, hregs⟩
  simp only [Dev.allotStreams, hj]
  rfl

/-- The device with a job of a new hallmark. -/
def Dev.jobAdded (d : Dev) (j : Job) : Dev := { d with jobs := d.jobs ++ [j] }

theorem Dev.hm_ne_of_job?_none {d : Dev} {h : Nat} (hn : d.job? h = none) {k : Job} (hk : k ∈ d.jobs) : k.hm ≠ h := by
  have hfind := List.find?_eq_none.1 hn k hk
  simpa using hfind

theorem Dev.job?_jobAdded {d : Dev} {j : Job} (hn : d.job? j.hm = none) : (d.jobAdded j).job? j.hm = some j := by
  have hd : List.find? (fun k => k.hm == j.hm) d.jobs = none := hn
  rw [Dev.job?, Dev.jobAdded, List.find?_append, hd]
  simp

theorem Dev.modJob_jobAdded {d : Dev} {j : Job} (hn : d.job? j.hm = none) (g : Job → Job) : (d.jobAdded j).modJob j.hm g = d.jobAdded (g j) := by
  have hold : d.jobs.map (fun k => if k.hm == j.hm then g k else k) = d.jobs := by
    refine (List.map_congr_left fun k hk => ?_).trans (List.map_id d.jobs)
    exact if_neg (by simpa using Dev.hm_ne_of_job?_none hn hk)
  have hmap : (d.jobs ++ [j]).map (fun k => if k.hm == j.hm then g k else k) = d.jobs ++ [g j] := by
    rw [List.map_append, hold, List.map_singleton, if_pos (beq_self_eq_true _)]
  exact congrArg (fun js => ({ d with jobs := js } : Dev)) hmap

/-- A job of a trigger source other than the host is not bound by its dispatch. -/
theorem Dev.bindHost_of_source {d : Dev} {h : Nat} {j : Job} (hj : d.job? h = some j) (hs : d.fld (F.JR_BIND_TSRC j.ring) ≠ 3) (m : List Host.Cell) :
    d.bindHost m h = d := by
  simp only [Dev.bindHost, hj]
  exact if_pos (by simp [hs])

/-- A job held here from this beat. -/
def Job.heldFrom (b : Nat) (j : Job) : Job := { j with st := .dispatched, dispBn := b }

/-- The report of a job that is held. -/
def Dev.heldReported (d : Dev) (tag : Nat) : Dev :=
  { d with wr := { d.wr with items := d.wr.items ++ [(false, 1 + tag % 4096 * 2 ^ 4 + d.now % 4096 * 2 ^ 16 + 0)] } }

theorem Dev.report_of_held {d : Dev} (hm : d.isMgr = false) (tag : Nat) : d.report false 1 tag d.now false = d.heldReported tag := by
  simp [Dev.report, hm, Dev.heldReported]

/-- A new job that is held and waits for its trigger: its plays are allotted, and it is reported. -/
theorem Dev.holdJob_waits {d : Dev} {j : Job} (hm : d.isMgr = false) (hn : d.job? j.hm = none) (hs : d.fld (F.JR_BIND_TSRC j.ring) ≠ 3)
    (m : List Host.Cell) : ∃ (e : Dev) (ps : List PlayRun), e = { d with regs := e.regs } ∧ d.regsBut e allotRegs ∧
      (d.jobAdded j).holdJob m j.hm = (e.jobAdded ((j.heldFrom d.now).playing ps)).heldReported j.dtag := by
  have hheld : (d.jobAdded j).modJob j.hm (Job.heldFrom d.now) = d.jobAdded (j.heldFrom d.now) := Dev.modJob_jobAdded hn _
  have hfound : (d.jobAdded (j.heldFrom d.now)).job? j.hm = some (j.heldFrom d.now) := Dev.job?_jobAdded (j := j.heldFrom d.now) hn
  obtain ⟨f, ps, hallot, hframe, hregs⟩ := Dev.allotStreams_leaves hfound m
  have hen : ({ d with regs := f.regs } : Dev).job? j.hm = none := hn
  have hplays : ((d.jobAdded j).modJob j.hm (Job.heldFrom d.now)).allotStreams m j.hm =
      ({ d with regs := f.regs } : Dev).jobAdded ((j.heldFrom d.now).playing ps) := by
    rw [hheld, hallot, hframe]
    exact Dev.modJob_jobAdded (j := j.heldFrom d.now) hen _
  have hregs' : d.regsBut ({ d with regs := f.regs } : Dev) allotRegs := hregs
  generalize he : ({ d with regs := f.regs } : Dev) = e at *
  have hgot : (e.jobAdded ((j.heldFrom d.now).playing ps)).job? j.hm = some ((j.heldFrom d.now).playing ps) :=
    Dev.job?_jobAdded (j := (j.heldFrom d.now).playing ps) hen
  have hmgr : (e.jobAdded ((j.heldFrom d.now).playing ps)).isMgr = false := by rw [← he]; exact hm
  have hsrc : e.fld (F.JR_BIND_TSRC j.ring) ≠ 3 := by
    rw [hregs'.fld (show R.JR_BIND j.ring ∉ allotRegs from jrBind_notMem_allotRegs _)]
    exact hs
  refine ⟨e, ps, by rw [← he], hregs', ?_⟩
  have hheld' : (d.jobAdded j).holdJob m j.hm = Dev.bindHost (Dev.report (((d.jobAdded j).modJob j.hm (Job.heldFrom d.now)).allotStreams m j.hm) false 1
      (match (((d.jobAdded j).modJob j.hm (Job.heldFrom d.now)).allotStreams m j.hm).job? j.hm with
        | some j => j.dtag
        | none => 0) (((d.jobAdded j).modJob j.hm (Job.heldFrom d.now)).allotStreams m j.hm).now false) m j.hm := rfl
  rw [hheld', hplays, hgot, Dev.report_of_held hmgr]
  exact Dev.bindHost_of_source (d := (e.jobAdded ((j.heldFrom d.now).playing ps)).heldReported j.dtag) (j := (j.heldFrom d.now).playing ps) hgot hsrc m

/-- The job that a dispatch brings. -/
def dispatchedJob (i : DispatchIn) (p : Nat) : Job :=
  { ring := i.ring.val, rseq := (i.body.getD 0 0).toNat, hm := i.hm.toNat, tag := slice (i.body.getD 1 0) 31 16, dtag := i.tag.toNat,
    cls := slice (i.body.getD 1 0) 9 8, body := i.body, exec := p, acceptBn := i.acceptBn.toNat, sealed := true, sent := true }

theorem exec_dispatchMessage (i : DispatchIn) (s : State) : exec (.dispatchMessage i) s = .next (s.onDevR fun m d =>
    if d.isMgr || !d.started || (d.job? i.hm.toNat).any (fun j => j.st != .accepted) then d
    else ({ d with jobs := d.jobs.filter (fun (x : Job) => x.hm != i.hm.toNat) } : Dev).jobAdded (dispatchedJob i d.pos) |>.holdJob m i.hm.toNat) := rfl

theorem exec_dispatchMessage_off {i : DispatchIn} {s : State}
    (h : s.dev.isMgr = true ∨ ∃ j, s.dev.job? i.hm.toNat = some j ∧ j.st ≠ .accepted) : exec (.dispatchMessage i) s = .next s := by
  rw [exec_dispatchMessage, State.onDevR, if_pos]
  rcases h with h | ⟨j, hj, hst⟩
  · simp [h]
  · simp [hj, hst]

/-- The clause on a job that is new here. -/
theorem dispatchMessage_holds {i : DispatchIn} {s : State} (hm : s.dev.isMgr = false) (hst : s.dev.started = true)
    (hn : s.dev.job? i.hm.toNat = none) (hs : s.dev.fld (F.JR_BIND_TSRC i.ring.val) ≠ 3) : ∃ t k, exec (.dispatchMessage i) s = .next t ∧
      t.dev.jobs = s.dev.jobs ++ [k] ∧ k.hm = i.hm.toNat ∧ k.ring = i.ring.val ∧ k.dtag = i.tag.toNat ∧ k.tag = slice (i.body.getD 1 0) 31 16 ∧
      k.body = i.body ∧ k.st = .dispatched ∧ k.dispBn = s.dev.now ∧ k.exec = s.dev.pos ∧ k.acceptBn = i.acceptBn.toNat ∧
      t.dev.wr.items = s.dev.wr.items ++ [(false, 1 + i.tag.toNat * 2 ^ 4 + s.dev.now % 4096 * 2 ^ 16)] ∧
      s.dev.regsBut t.dev ((List.range 16).map R.SP_SBNEXT) := by
  have hexec := exec_dispatchMessage i s
  have hfilter : s.dev.jobs.filter (fun (x : Job) => x.hm != i.hm.toNat) = s.dev.jobs :=
    List.filter_eq_self.2 fun k hk => by simpa using Dev.hm_ne_of_job?_none hn hk
  rw [State.onDevR, if_neg (by simp [hm, hst, hn]), hfilter] at hexec
  obtain ⟨e, ps, hframe, hregs, hheld⟩ := Dev.holdJob_waits (d := s.dev) (j := dispatchedJob i s.dev.pos) hm hn hs s.store
  rw [show (s.dev.jobAdded (dispatchedJob i s.dev.pos)).holdJob s.store i.hm.toNat = _ from hheld] at hexec
  have hjobs : e.jobs = s.dev.jobs := by rw [hframe]
  have hitems : e.wr.items = s.dev.wr.items := by rw [hframe]
  have hnow : e.now = s.dev.now := by rw [hframe]; rfl
  refine ⟨_, ((dispatchedJob i s.dev.pos).heldFrom s.dev.now).playing ps, hexec, congrArg (· ++ [_]) hjobs, rfl, rfl, rfl, rfl, rfl, rfl, rfl, rfl, rfl, ?_, hregs⟩
  have htag : (dispatchedJob i s.dev.pos).dtag % 4096 = i.tag.toNat := Nat.mod_eq_of_lt i.tag.isLt
  have hshown : ((e.jobAdded (((dispatchedJob i s.dev.pos).heldFrom s.dev.now).playing ps)).heldReported (dispatchedJob i s.dev.pos).dtag).wr.items =
      e.wr.items ++ [(false, 1 + (dispatchedJob i s.dev.pos).dtag % 4096 * 2 ^ 4 + e.now % 4096 * 2 ^ 16 + 0)] := rfl
  rw [hshown, htag, hitems, hnow, Nat.add_zero]

/-- Settles O38: the manager sends the job of the ring whose turn it is under its tag, and a new job is held and reported. -/
theorem jobDispatchedToExecutor : Obligations.JobDispatchedToExecutor :=
  fun _ => ⟨exec_jobDispatch_off, fun _ _ _ hk hm hd hr hj hpos hg => jobDispatch_away hk hm hd hr hj hpos hg,
    fun _ hm hst hn hs => dispatchMessage_holds hm hst hn hs, fun _ => exec_dispatchMessage_off⟩

end Sys2Proof.Machine
end

section

/-!
PROOF. Encoders: counts, faults, the index and the stop (09_triggers_and_encoders.md R446 to R452, R457).
-/

namespace Sys2Proof.Machine
open Sys2Proof

/-! ## Faults of an encoder -/

/-- Triggers and encoders stay, and no fence loses a cause. -/
structure Dev.EncKept (d e : Dev) : Prop where
  trg : e.trg = d.trg
  causes : ∀ k x, x ∈ (d.dom k).causes → x ∈ (e.dom k).causes

namespace Dev.EncKept
variable {d e f : Dev}

theorem refl (d : Dev) : d.EncKept d := ⟨rfl, fun _ _ h => h⟩

theorem trans (h : d.EncKept e) (h' : e.EncKept f) : d.EncKept f := ⟨h'.trg.trans h.trg, fun k x hx => h'.causes k x (h.causes k x hx)⟩

/-- Where the fences stay as they are. -/
theorem of_fen (ht : e.trg = d.trg) (hf : e.fen = d.fen) : d.EncKept e :=
  ⟨ht, fun k x hx => by rw [Dev.dom, hf]; exact hx⟩

theorem foldl {A : Type} {step : Dev → A → Dev} (hs : ∀ d a, Dev.EncKept d (step d a)) (as : List A) : ∀ d : Dev, d.EncKept (as.foldl step d) := by
  induction as with
  | nil => exact .refl
  | cons a as ih => exact fun d => (hs d a).trans (ih _)

theorem raiseCause (d : Dev) (k : Nat) (r : Reason) : d.EncKept (d.raiseCause k r) := ⟨by simp, fun _ _ hx => Dev.causes_mono_raiseCause hx k r⟩

end Dev.EncKept

/-- A fault of an encoder noted, before it fences. -/
def Dev.encNoted (d : Dev) (n : Nat) (f : Fld) (r : Reason) : Dev :=
  let e := (d.setFlag f true).setFld (F.ENC_STAT_REASON n) r.toNat
  (e.setReg R.TRG_EVT (putBit (e.reg R.TRG_EVT) (24 + n) true)).raiseIrq 26

theorem Dev.encFault_eq (d : Dev) (n : Nat) (f : Fld) (r : Reason) (fence : Bool) :
    d.encFault n f r fence = if fence then (d.encNoted n f r).raiseCause (domEnc n) r else d.encNoted n f r := rfl

/-- The registers in which a fault of an encoder shows. -/
def encFaultRegs (n : Nat) : List Nat := R.ENC_STAT n :: R.TRG_EVT :: irqRegs

theorem Dev.regsBut_encNoted (d : Dev) {n : Nat} {f : Fld} (hf : f.a = R.ENC_STAT n) (r : Reason) : d.regsBut (d.encNoted n f r) (encFaultRegs n) := by
  refine .raiseIrq (.setReg (.setFld (.setFlag (.refl d _) ?_ _) ?_ _) ?_ _) ?_ _
  · rw [hf]; exact List.mem_cons_self
  · exact List.mem_cons_self
  · exact List.mem_cons_of_mem _ List.mem_cons_self
  · exact fun a ha => List.mem_cons_of_mem _ (List.mem_cons_of_mem _ ha)

theorem Dev.encKept_encNoted (d : Dev) (n : Nat) (f : Fld) (r : Reason) : d.EncKept (d.encNoted n f r) :=
  .of_fen (by simp [Dev.encNoted]) (by simp [Dev.encNoted])

theorem Dev.encKept_encFault (d : Dev) (n : Nat) (f : Fld) (r : Reason) (fence : Bool) : d.EncKept (d.encFault n f r fence) := by
  rw [Dev.encFault_eq]
  split
  · exact (d.encKept_encNoted n f r).trans (.raiseCause _ _ _)
  · exact d.encKept_encNoted n f r

theorem Dev.regsBut_encFault (d : Dev) {n : Nat} {f : Fld} (hf : f.a = R.ENC_STAT n) (r : Reason) (fence : Bool) :
    d.regsBut (d.encFault n f r fence) (encFaultRegs n) := by
  rw [Dev.encFault_eq]
  split
  · exact (d.regsBut_encNoted hf r).trans ((Dev.regsBut_raiseCause _ _ _).mono fun a ha => List.mem_cons_of_mem _ (List.mem_cons_of_mem _ ha))
  · exact d.regsBut_encNoted hf r

theorem Dev.fenced_encFault (d : Dev) (n : Nat) (f : Fld) (r : Reason) : r ∈ ((d.encFault n f r true).dom (domEnc n)).causes := by
  rw [Dev.encFault_eq, if_pos rfl]
  exact Dev.mem_causes_raiseCause _ _ _

theorem encCfg_notMem_encFaultRegs (n : Nat) : R.ENC_CFG n ∉ encFaultRegs n := by
  intro h
  simp only [encFaultRegs, irqRegs, List.mem_cons, List.not_mem_nil, or_false, R.ENC_CFG, R.ENC_STAT, R.TRG_EVT, R.HST_ISR0, R.HST_ISR1, R.MSIX_PBA] at h
  omega

/-! ## Counting -/

theorem Dev.enc_setEnc (d : Dev) (n k : Nat) (v : EncSt) : (d.setEnc n v).enc k = if k = n then v else d.enc k := mget_mset _ _ _ _ _

theorem Dev.enc_congr {d e : Dev} (h : e.trg = d.trg) (n : Nat) : e.enc n = d.enc n := by rw [Dev.enc, h, Dev.enc]

/-- The encoder after one count. -/
def Dev.counted (d : Dev) (n : Nat) (step : Int) : EncSt :=
  { d.enc n with pos := wrapS 40 ((d.enc n).pos + step),
                 hist := ((d.now * fsPerBeat + d.t.ci * fsPerCycle, wrapS 40 ((d.enc n).pos + step)) :: (d.enc n).hist).take 16,
                 lastBn := d.now, freePos := if d.fenced (domEnc n) then (d.enc n).freePos else wrapS 40 ((d.enc n).pos + step) }

/-- The highest position of a job, and its end where its encoder has reversed too far. -/
def Dev.reversalSeen (n : Nat) (pos : Int) (d : Dev) (hm : Nat) : Dev :=
  let e := d.modJob hm (fun j => if 0 < wrapS 40 (pos - j.peak) then { j with peak := pos } else j)
  match e.job? hm with
  | some j =>
    if (e.num (R.ENC_REVTOL n) : Int) < wrapS 40 (j.peak - pos) then e.endAs hm (j.edges != 0 || j.colsSent != 0) Rsn.expReversal Rsn.partReversal
    else e
  | none => e

/-- The jobs that count on an encoder. -/
def Dev.countingJobs (d : Dev) (n : Nat) : List Job :=
  d.jobs.filter fun j => j.active && j.exec == d.pos && j.dkind && d.fld (F.JR_BIND_ENC j.ring) == n

theorem Dev.encCount_eq (d : Dev) (n : Nat) (step : Int) : d.encCount n step =
    let e := (d.setEnc n (d.counted n step)).setFlag (F.ENC_STAT_STOPPED n) false
    if e.flag (F.ENC_CFG_REVMODE n) then ((e.countingJobs n).map Job.hm).foldl (Dev.reversalSeen n (wrapS 40 ((d.enc n).pos + step))) e else e := rfl

theorem Dev.encKept_endAs (d : Dev) (h : Nat) (part : Bool) (re rp : Reason) : d.EncKept (d.endAs h part re rp) :=
  .of_fen (by simp) (by simp)

theorem Dev.encKept_reversalSeen (n : Nat) (pos : Int) (d : Dev) (hm : Nat) : d.EncKept (Dev.reversalSeen n pos d hm) := by
  have hpeak : d.EncKept (d.modJob hm (fun j => if 0 < wrapS 40 (pos - j.peak) then { j with peak := pos } else j)) := .of_fen rfl rfl
  unfold Dev.reversalSeen
  dsimp only
  split
  · split
    · exact hpeak.trans (Dev.encKept_endAs _ _ _ _ _)
    · exact hpeak
  · exact hpeak

/-- A count changes its one encoder, and no fence loses a cause. -/
theorem Dev.encKept_encCount (d : Dev) (n : Nat) (step : Int) : (d.setEnc n (d.counted n step)).EncKept (d.encCount n step) := by
  rw [Dev.encCount_eq]
  dsimp only
  have hflag : (d.setEnc n (d.counted n step)).EncKept ((d.setEnc n (d.counted n step)).setFlag (F.ENC_STAT_STOPPED n) false) := .of_fen rfl rfl
  split
  · exact hflag.trans (.foldl (Dev.encKept_reversalSeen n _) _ _)
  · exact hflag

/-! ## A transition -/

/-- The encoder with the new levels and its transitions of the beat counted. -/
def EncSt.seen (e : EncSt) (a b : Bool) (k : Nat) : EncSt := { e with a := a, b := b, inBeat := e.inBeat + k }

/-- The number of channels that change. -/
def EncSt.changes (e : EncSt) (a b : Bool) : Nat := (if a != e.a then 1 else 0) + (if b != e.b then 1 else 0)

/-- More than 12 transitions in a beat fence the encoder. -/
def Dev.speedWatched (d : Dev) (n : Nat) (e : EncSt) (k : Nat) : Dev :=
  if e.inBeat ≤ 12 ∧ 12 < e.inBeat + k then d.encFault n (F.ENC_STAT_OVERSPEED n) Rsn.encOverspeed true else d

/-- Both channels at once: a phase error. -/
def Dev.phaseError (d : Dev) (n : Nat) : Dev :=
  let d := d.addSat (F.ENC_PERR_PHASE n) 1
  let e := d.enc n
  let d := d.setEnc n { e with perrWin := e.perrWin + 1 }
  if d.fld (F.ENC_PERRMAX_PHASE n) < e.perrWin + 1 then d.encFault n (F.ENC_STAT_PHASE n) Rsn.encPhase true else d

/-- The step of an encoder counted. -/
def Dev.stepCounted (d : Dev) (n : Nat) (st : Int) : Dev := if st = 0 then d else d.encCount n st

/-- A step in the direction of DIR. -/
def directed (dir : Bool) (st : Int) : Int := if dir then -st else st

/-- The watched transition decided. -/
def Dev.transitDecided (d : Dev) (n k : Nat) (e : EncSt) (a b : Bool) : Dev :=
  if k = 2 ∧ d.fld (F.ENC_CFG_MODE n) ≠ 3 then d.phaseError n
  else d.stepCounted n (directed (d.flag (F.ENC_CFG_DIR n)) (encStep (d.fld (F.ENC_CFG_MODE n)) e.a e.b a b))

/-- A transition of an encoder that counts. -/
def Dev.transit (d : Dev) (n : Nat) (a b : Bool) : Dev :=
  ((d.setEnc n ((d.enc n).seen a b ((d.enc n).changes a b))).speedWatched n (d.enc n) ((d.enc n).changes a b)).transitDecided n
    ((d.enc n).changes a b) (d.enc n) a b

theorem exec_encoderTransition (n : Fin 8) (a b : Bool) (ci : Fin 240) (s : State) : exec (.encoderTransition n a b ci) s = .next (s.onDev fun d =>
    if !d.flag (F.ENC_CFG_EN n.val) || !d.pwr.vcore then d.setCi ci.val else (d.setCi ci.val).transit n.val a b) := rfl

theorem exec_encoderTransition_off {n : Fin 8} {a b : Bool} {ci : Fin 240} {s : State}
    (h : s.dev.flag (F.ENC_CFG_EN n.val) = false ∨ s.dev.pwr.vcore = false) :
    exec (.encoderTransition n a b ci) s = .next { s with dev := { s.dev with t := { s.dev.t with ci := ci.val } } } := by
  rw [exec_encoderTransition, State.onDev, if_pos (by rcases h with h | h <;> simp [h])]
  rfl

theorem exec_encoderTransition_on {n : Fin 8} {a b : Bool} {ci : Fin 240} {s : State} (h : s.dev.flag (F.ENC_CFG_EN n.val) = true)
    (hv : s.dev.pwr.vcore = true) : exec (.encoderTransition n a b ci) s = .next { s with dev := (s.dev.setCi ci.val).transit n.val a b } := by
  rw [exec_encoderTransition, State.onDev, if_neg (by simp [h, hv])]

/-- The watch of the speed keeps the encoders and their configuration. -/
theorem Dev.speedWatched_leaves (d : Dev) (n : Nat) (e : EncSt) (k : Nat) :
    d.EncKept (d.speedWatched n e k) ∧ d.regsBut (d.speedWatched n e k) (encFaultRegs n) ∧
    (e.inBeat ≤ 12 → 12 < e.inBeat + k → (0x5040 : Reason) ∈ ((d.speedWatched n e k).dom (domEnc n)).causes) := by
  unfold Dev.speedWatched
  split
  · exact ⟨d.encKept_encFault _ _ _ _, d.regsBut_encFault rfl _ _, fun _ _ => d.fenced_encFault _ _ Rsn.encOverspeed⟩
  case isFalse h => exact ⟨.refl d, .refl d _, fun h1 h2 => absurd ⟨h1, h2⟩ h⟩

/-- A phase error moves no encoder, and counts in its window. -/
theorem Dev.phaseError_leaves (d : Dev) (n : Nat) :
    (d.setEnc n { d.enc n with perrWin := (d.enc n).perrWin + 1 }).EncKept (d.phaseError n) := by
  have hcounted : (d.setEnc n { d.enc n with perrWin := (d.enc n).perrWin + 1 }).EncKept
      ((d.addSat (F.ENC_PERR_PHASE n) 1).setEnc n { d.enc n with perrWin := (d.enc n).perrWin + 1 }) := .of_fen rfl rfl
  unfold Dev.phaseError
  dsimp only
  refine hcounted.trans ?_
  split
  · exact Dev.encKept_encFault _ _ _ _ _
  · exact .refl _

theorem EncSt.changes_le (e : EncSt) (a b : Bool) : e.changes a b ≤ 2 := by
  unfold EncSt.changes
  split <;> split <;> decide

/-- What a transition leaves of its encoder, of the others and of the fence. -/
theorem Dev.transit_shown (d : Dev) (n : Nat) (a b : Bool) :
    let e := d.enc n
    let k := e.changes a b
    let st := directed (d.flag (F.ENC_CFG_DIR n)) (encStep (d.fld (F.ENC_CFG_MODE n)) e.a e.b a b)
    let t := d.transit n a b
    (t.enc n).a = a ∧ (t.enc n).b = b ∧ (t.enc n).inBeat = e.inBeat + k ∧ (∀ i, i ≠ n → t.enc i = d.enc i) ∧
    (k ≤ 1 ∨ d.fld (F.ENC_CFG_MODE n) = 3 → st ≠ 0 → (t.enc n).pos = wrapS 40 (e.pos + st)) ∧
    (k = 2 → d.fld (F.ENC_CFG_MODE n) ≠ 3 → (t.enc n).pos = e.pos ∧ (t.enc n).perrWin = e.perrWin + 1) ∧
    (e.inBeat ≤ 12 → 12 < e.inBeat + k → (0x5040 : Reason) ∈ (t.dom (domEnc n)).causes) := by
  intro e k st t
  obtain ⟨hkept, hregs, hfenced⟩ := (d.setEnc n (e.seen a b k)).speedWatched_leaves n e k
  have ht : t = ((d.setEnc n (e.seen a b k)).speedWatched n e k).transitDecided n k e a b := rfl
  generalize (d.setEnc n (e.seen a b k)).speedWatched n e k = w at *
  have hregs' : d.regsBut w (encFaultRegs n) := hregs
  have hmode : w.fld (F.ENC_CFG_MODE n) = d.fld (F.ENC_CFG_MODE n) := hregs'.fld (encCfg_notMem_encFaultRegs n)
  have hdir : w.flag (F.ENC_CFG_DIR n) = d.flag (F.ENC_CFG_DIR n) := hregs'.flag (encCfg_notMem_encFaultRegs n)
  have hown : w.enc n = e.seen a b k := (Dev.enc_congr hkept.trg n).trans ((d.enc_setEnc n n _).trans (if_pos rfl))
  have hrest : ∀ i, i ≠ n → w.enc i = d.enc i := fun i hi => (Dev.enc_congr hkept.trg i).trans ((d.enc_setEnc n i _).trans (if_neg hi))
  have hk : k ≤ 2 := e.changes_le a b
  -- Whatever is decided, it sets this encoder to some value, and only causes come to the fences.
  have hset : ∀ (v : EncSt), (w.setEnc n v).EncKept t → t.enc n = v ∧ (∀ i, i ≠ n → t.enc i = d.enc i) ∧
      (e.inBeat ≤ 12 → 12 < e.inBeat + k → (0x5040 : Reason) ∈ (t.dom (domEnc n)).causes) := fun v hv =>
    ⟨(Dev.enc_congr hv.trg n).trans ((w.enc_setEnc n n v).trans (if_pos rfl)),
      fun i hi => (Dev.enc_congr hv.trg i).trans ((w.enc_setEnc n i v).trans ((if_neg hi).trans (hrest i hi))),
      fun h1 h2 => hv.causes _ _ (hfenced h1 h2)⟩
  by_cases hphase : k = 2 ∧ d.fld (F.ENC_CFG_MODE n) ≠ 3
  · have hdec : t = w.phaseError n := ht.trans (if_pos (by rw [hmode]; exact hphase))
    obtain ⟨hv, hothers, hcause⟩ := hset _ (by rw [hdec]; exact w.phaseError_leaves n)
    rw [hown] at hv
    refine ⟨by rw [hv]; rfl, by rw [hv]; rfl, by rw [hv]; rfl, hothers, fun h => ?_, fun _ _ => ⟨by rw [hv]; rfl, by rw [hv]; rfl⟩, hcause⟩
    rcases h with h | h
    · omega
    · exact absurd h hphase.2
  · have hdec : t = w.stepCounted n st := by
      refine ht.trans ((if_neg (by rw [hmode]; exact hphase)).trans ?_)
      rw [hmode, hdir]
    have hno : k = 2 → d.fld (F.ENC_CFG_MODE n) ≠ 3 → False := fun h1 h2 => hphase ⟨h1, h2⟩
    by_cases h0 : st = 0
    · have heq : t = w := hdec.trans (if_pos h0)
      rw [heq, hown]
      exact ⟨rfl, rfl, rfl, hrest, fun _ h => absurd h0 h, fun h1 h2 => (hno h1 h2).elim, hfenced⟩
    · obtain ⟨hv, hothers, hcause⟩ := hset (w.counted n st) (by rw [hdec.trans (if_neg h0)]; exact w.encKept_encCount n st)
      have hpos : (w.counted n st).pos = wrapS 40 (e.pos + st) := by
        show wrapS 40 ((w.enc n).pos + st) = _
        rw [hown]; rfl
      have hab : (w.counted n st).a = a ∧ (w.counted n st).b = b ∧ (w.counted n st).inBeat = e.inBeat + k := by
        show (w.enc n).a = a ∧ (w.enc n).b = b ∧ (w.enc n).inBeat = e.inBeat + k
        rw [hown]; exact ⟨rfl, rfl, rfl⟩
      rw [hv]
      exact ⟨hab.1, hab.2.1, hab.2.2, hothers, fun _ _ => hpos, fun h1 h2 => (hno h1 h2).elim, hcause⟩

/-! ## The index and the stop -/

/-- The position latched at Z. -/
def Dev.zLatched (d : Dev) (n : Nat) : Dev :=
  if d.fld (F.ENC_CFG_ZMODE n) = 1 ∨ d.fld (F.ENC_CFG_ZMODE n) = 2 then d.setNum (R.ENC_ZLATCH n) (unsigned 32 (d.enc n).pos) else d

/-- The encoder after Z. -/
def EncSt.indexed (e : EncSt) (zm : Nat) : EncSt := { e with offset := if zm = 2 then e.pos else e.offset, zPrev := some e.pos }

/-- The distance of two Z checked against the period. -/
def Dev.periodChecked (d : Dev) (n : Nat) (e : EncSt) : Dev := match e.zPrev with
  | some z =>
    if d.num (R.ENC_ZPER n) ≠ 0 ∧ (wrapS 40 (e.pos - z)).natAbs ≠ d.num (R.ENC_ZPER n) then
      d.encFault n (F.ENC_STAT_INDEX n) Rsn.encIndex (d.flag (F.ENC_CFG_IDXFENCE n))
    else d
  | none => d

theorem exec_encoderIndex (n : Fin 8) (s : State) : exec (.encoderIndex n) s = .next (s.onDev fun d =>
    if !d.flag (F.ENC_CFG_EN n.val) || !d.pwr.vcore then d
    else ((d.zLatched n.val).setEnc n.val ((d.enc n.val).indexed (d.fld (F.ENC_CFG_ZMODE n.val)))).periodChecked n.val (d.enc n.val)) := rfl

theorem Dev.periodChecked_leaves (d : Dev) (n : Nat) (e : EncSt) : d.EncKept (d.periodChecked n e) ∧ d.regsBut (d.periodChecked n e) (encFaultRegs n) := by
  unfold Dev.periodChecked
  split
  · split
    · exact ⟨d.encKept_encFault _ _ _ _, d.regsBut_encFault rfl _ _⟩
    · exact ⟨.refl d, .refl d _⟩
  · exact ⟨.refl d, .refl d _⟩

theorem encZlatch_notMem_encFaultRegs (n : Nat) : R.ENC_ZLATCH n ∉ encFaultRegs n := by
  intro h
  simp only [encFaultRegs, irqRegs, List.mem_cons, List.not_mem_nil, or_false, R.ENC_ZLATCH, R.ENC_STAT, R.TRG_EVT, R.HST_ISR0, R.HST_ISR1,
    R.MSIX_PBA] at h
  omega

/-- The clause on a rising edge of Z. -/
theorem encoderIndex_latches {n : Fin 8} {s : State} (h : s.dev.flag (F.ENC_CFG_EN n.val) = true) (hv : s.dev.pwr.vcore = true) :
    ∃ t, exec (.encoderIndex n) s = .next t ∧ (t.dev.enc n.val).zPrev = some (s.dev.enc n.val).pos ∧
      (t.dev.enc n.val).pos = (s.dev.enc n.val).pos ∧ (∀ k, k ≠ n.val → t.dev.enc k = s.dev.enc k) ∧
      (s.dev.fld (F.ENC_CFG_ZMODE n.val) = 1 ∨ s.dev.fld (F.ENC_CFG_ZMODE n.val) = 2 →
        t.dev.num (R.ENC_ZLATCH n.val) = unsigned 32 (s.dev.enc n.val).pos) ∧
      (t.dev.enc n.val).offset = (if s.dev.fld (F.ENC_CFG_ZMODE n.val) = 2 then (s.dev.enc n.val).pos else (s.dev.enc n.val).offset) := by
  have hexec := exec_encoderIndex n s
  rw [State.onDev, if_neg (by simp [h, hv])] at hexec
  have htrg : (s.dev.zLatched n.val).trg = s.dev.trg := by unfold Dev.zLatched; split <;> rfl
  have hlatch : s.dev.fld (F.ENC_CFG_ZMODE n.val) = 1 ∨ s.dev.fld (F.ENC_CFG_ZMODE n.val) = 2 →
      (s.dev.zLatched n.val).num (R.ENC_ZLATCH n.val) = unsigned 32 (s.dev.enc n.val).pos := fun hz => by
    rw [Dev.zLatched, if_pos hz, Dev.num_setNum]
    exact Nat.mod_eq_of_lt (unsigned_lt 32 _)
  generalize hv' : (s.dev.enc n.val).indexed (s.dev.fld (F.ENC_CFG_ZMODE n.val)) = v at hexec
  obtain ⟨hkept, hregs⟩ := ((s.dev.zLatched n.val).setEnc n.val v).periodChecked_leaves n.val (s.dev.enc n.val)
  have hown := (Dev.enc_congr hkept.trg n.val).trans (((s.dev.zLatched n.val).enc_setEnc n.val n.val v).trans (if_pos rfl))
  have hrest : ∀ k, k ≠ n.val → _ := fun k hk =>
    (Dev.enc_congr hkept.trg k).trans (((s.dev.zLatched n.val).enc_setEnc n.val k v).trans ((if_neg hk).trans (Dev.enc_congr htrg k)))
  have hnum := fun hz => (hregs.num (encZlatch_notMem_encFaultRegs n.val)).trans (hlatch hz)
  generalize ((s.dev.zLatched n.val).setEnc n.val v).periodChecked n.val (s.dev.enc n.val) = e at *
  refine ⟨_, hexec, ?_, ?_, hrest, hnum, ?_⟩
  · rw [hown, ← hv']; rfl
  · rw [hown, ← hv']; rfl
  · rw [hown, ← hv']; rfl

theorem exec_encoderStop (n : Fin 8) (s : State) : exec (.encoderStop n) s = .next (s.onDev fun d =>
    if d.flag (F.ENC_CFG_EN n.val) && decide ((d.enc n.val).lastBn + d.fld (F.ENC_SPWIN_STOPTMO n.val) ≤ d.now) then
      (d.setEnc n.val { d.enc n.val with spN := 0, spD := 1 }).setFlag (F.ENC_STAT_STOPPED n.val) true
    else d) := rfl

/-- Settles O43: a transition sets its one encoder, and faults only add causes. -/
theorem encodersCount : Obligations.EncodersCount := by
  intro s n
  refine ⟨fun a b ci => ⟨exec_encoderTransition_off, fun h hv => ?_⟩, encoderIndex_latches, fun h => ⟨?_, ?_⟩, fun h hstop => ?_⟩
  · have hexec := exec_encoderTransition_on (a := a) (b := b) (ci := ci) h hv
    have hshown := (s.dev.setCi ci.val).transit_shown n.val a b
    generalize (s.dev.setCi ci.val).transit n.val a b = e at *
    exact ⟨_, hexec, hshown⟩
  · rw [exec_encoderIndex, State.onDev, if_pos (by simp [h])]
  · rw [exec_encoderStop, State.onDev, if_neg (by simp [h])]
  · have hexec := exec_encoderStop n s
    rw [State.onDev, if_pos (by simp [h, hstop])] at hexec
    refine ⟨_, hexec, (s.dev.enc_setEnc n.val n.val _).trans (if_pos rfl), Dev.flag_setFlag_same _ (F.ENC_STAT_STOPPED n.val) _ (show 0 < 32 by decide) rfl,
      fun k hk => (s.dev.enc_setEnc n.val k _).trans (if_neg hk), ?_⟩
    exact .setFlag (f := F.ENC_STAT_STOPPED n.val) (.of_regs rfl _) (by simp) _

end Sys2Proof.Machine
end

section

/-!
PROOF. Trigger inputs and mains phase points (09_triggers_and_encoders.md R430 to R434, R470; 04_power_and_supply.md R173).
-/

namespace Sys2Proof.Machine
open Sys2Proof

/-! ## The inputs -/

theorem Dev.trgIn_setTrg (d : Dev) (n k : Nat) (v : TrgSt) : (d.setTrg n v).trgIn k = if k = n then v else d.trgIn k := mget_mset _ _ _ _ _

theorem Dev.trgIn_congr {d e : Dev} (h : e.trg.inp = d.trg.inp) (n : Nat) : e.trgIn n = d.trgIn n := by rw [Dev.trgIn, h, Dev.trgIn]

/-- A raw transition with its stamp. -/
def TrgSt.transited (v : TrgSt) (level : Bool) (stamp : Nat) : TrgSt := { v with raw := level, rawAt := stamp }

/-- The stamp kept for the calibration of the TDC. -/
def Dev.rawNoted (d : Dev) (n stamp : Nat) : Dev := { d with asy := { d.asy with lastRaw := mset 0 d.asy.lastRaw n stamp } }

theorem exec_triggerTransition (n : Fin 16) (l : Bool) (ci : Fin 240) (fs : Fin 2048) (s : State) :
    exec (.triggerTransition n l ci fs) s = .next (s.onDev fun d =>
      if d.trgOn n.val && (d.trgIn n.val).raw != l then
        ((d.setCi ci.val).rawNoted n.val (instant d.now ci.val fs.val)).setTrg n.val ((d.trgIn n.val).transited l (instant d.now ci.val fs.val))
      else d.setCi ci.val) := rfl

/-! ## Qualified edges -/

/-- The input at a qualified level. -/
def TrgSt.atLevel (v : TrgSt) (l : Bool) : TrgSt := { v with level := l }

/-- A qualified active edge: the input may rearm first. -/
def Dev.activeEdge (d : Dev) (n q : Nat) : Dev := ((d.trgRearm n q).setTrg n (((d.trgRearm n q).trgIn n).atLevel (d.trgIn n).raw)).trgEdge n

/-- The input after a qualified inactive edge. -/
def TrgSt.released (v : TrgSt) (q : Nat) : TrgSt := { v with level := v.raw, inactAt := q }

/-- The cycle from which the raw level of an input counts as held. -/
def Dev.qualAt (d : Dev) (n : Nat) : Nat := (d.trgIn n).rawAt / fsPerCycle + d.fld (F.TRG_CFG_GLITCH n)

/-- A qualified transition. -/
def Dev.qualified (d : Dev) (n : Nat) : Dev :=
  if d.trgActive n (d.trgIn n).raw then d.activeEdge n (d.qualAt n) else d.setTrg n ((d.trgIn n).released (d.qualAt n))

theorem exec_triggerQualify (n : Fin 16) (ci : Fin 240) (s : State) : exec (.triggerQualify n ci) s = .next (s.onDev fun d =>
    if (d.setCi ci.val).trgOn n.val && ((d.setCi ci.val).trgIn n.val).raw != ((d.setCi ci.val).trgIn n.val).level &&
      decide ((d.setCi ci.val).qualAt n.val ≤ (d.setCi ci.val).cyc) then (d.setCi ci.val).qualified n.val
    else d.setCi ci.val) := rfl

theorem exec_triggerQualify_of_held {n : Fin 16} {ci : Fin 240} {s : State} (hon : s.dev.trgOn n.val = true)
    (hne : (s.dev.trgIn n.val).raw ≠ (s.dev.trgIn n.val).level) (hq : s.dev.qualAt n.val ≤ s.dev.now * 240 + ci.val) :
    exec (.triggerQualify n ci) s = .next (s.onDev fun d => (d.setCi ci.val).qualified n.val) := by
  have hlv : ((s.dev.trgIn n.val).raw != (s.dev.trgIn n.val).level) = true := bne_iff_ne.mpr hne
  rw [exec_triggerQualify]
  refine congrArg (fun d : Dev => Host.Outcome.next { s with dev := d }) ?_
  exact if_pos (Bool.and_eq_true_iff.mpr ⟨Bool.and_eq_true_iff.mpr ⟨hon, hlv⟩, decide_eq_true hq⟩)

/-- An edge counted. -/
def Dev.edgeCounted (d : Dev) (n : Nat) : Dev :=
  { d.addWrap (F.TRG_CNT_ACTIVE n) 1 with trg := { d.trg with edgesNow := n :: d.trg.edgesNow } }

/-- An edge held off, counted. -/
def Dev.edgeHeld (d : Dev) (n : Nat) : Dev := d.addSat (F.TRG_HELD_EDGES n) 1

theorem Dev.trgEdge_of_holdover {d : Dev} (h : d.clk.holdover = true) (n : Nat) : d.trgEdge n = d.edgeCounted n := if_pos h

theorem Dev.trgEdge_of_disarmed {d : Dev} {n : Nat} (h : d.clk.holdover = false) (hd : (d.trgIn n).disarmed = true) :
    d.trgEdge n = (d.edgeCounted n).edgeHeld n :=
  (if_neg (show ¬d.clk.holdover = true by simp [h])).trans (if_pos (by simp [hd]))

/-- The input after a capture. -/
def TrgSt.captured (v : TrgSt) (pos : Int) (bn : Nat) : TrgSt := { v with disarmed := true, capAt := some v.rawAt, capPos := pos, capBn := some bn }

/-- The capture registers of an input. -/
def Dev.stampShown (d : Dev) (n stamp : Nat) : Dev :=
  (((d.setReg (R.TRG_CAP0 n) (tsw0 stamp)).setReg (R.TRG_CAP1 n) (tsw1 stamp)).setReg (R.TRG_CAP2 n) (tsw2 stamp)).addWrap (F.TRG_CAPCNT_CAPTURES n) 1

theorem Dev.trgHeld_of_mode0 {d : Dev} {n : Nat} (hm : d.fld (F.TRG_CFG_HMODE n) = 0) (stamp : Nat) : d.trgHeld n stamp = false := by
  unfold Dev.trgHeld
  rw [hm]
  dsimp only
  cases (d.trgIn n).capAt <;> rfl

theorem Dev.fld_edgeCounted (d : Dev) (n : Nat) (g : Fld) (hg : g.a ≠ R.TRG_CNT n) : (d.edgeCounted n).fld g = d.fld g :=
  congrArg (fun w => slice w g.hi g.lo) (Dev.reg_setFld_ne d (F.TRG_CNT_ACTIVE n) _ g.a hg)

/-- A capture of an input, at a position. -/
def Dev.edgeCaptured (r : Dev × Int) (n : Nat) (v : TrgSt) (bn : Nat) : Dev :=
  ((r.1.setTrg n (v.captured r.2 bn)).stampShown n v.rawAt).capture 0 n v.rawAt
    (((r.1.setTrg n (v.captured r.2 bn)).stampShown n v.rawAt).fenced (domTg (n / 4)))

/-- In holdoff mode 0 an armed input that made no capture in this beat captures. -/
theorem Dev.trgEdge_captures {d : Dev} {n : Nat} (h : d.clk.holdover = false) (hd : (d.trgIn n).disarmed = false)
    (hm : d.fld (F.TRG_CFG_HMODE n) = 0) (hc : (d.trgIn n).capBn ≠ some d.now) :
    d.trgEdge n = Dev.edgeCaptured (d.edgeCounted n, 0) n (d.trgIn n) d.now := by
  have hm' : (d.edgeCounted n).fld (F.TRG_CFG_HMODE n) = 0 :=
    (d.fld_edgeCounted n _ (by simp only [R.TRG_CNT, R.TRG_CFG]; omega)).trans hm
  have hheld : ¬((d.trgIn n).disarmed || (d.edgeCounted n).trgHeld n (d.trgIn n).rawAt) = true := by
    rw [hd, Dev.trgHeld_of_mode0 hm']
    decide
  have hmode : ¬(d.edgeCounted n).fld (F.TRG_CFG_HMODE n) = 2 := by omega
  refine (if_neg (show ¬d.clk.holdover = true by simp [h])).trans ((if_neg hheld).trans ((if_neg hc).trans ?_))
  exact congrArg (fun r : Dev × Int => Dev.edgeCaptured r n (d.trgIn n) d.now) (if_neg hmode)

theorem Dev.trgIn_edgeCounted (d : Dev) (n k : Nat) : (d.edgeCounted n).trgIn k = d.trgIn k := rfl

theorem Dev.fld_edgeCounted_same (d : Dev) (n : Nat) : (d.edgeCounted n).fld (F.TRG_CNT_ACTIVE n) = (d.fld (F.TRG_CNT_ACTIVE n) + 1) % 2 ^ 32 :=
  Dev.fld_setFld_same d (F.TRG_CNT_ACTIVE n) _ (show 31 < 32 by decide)

theorem Dev.regsBut_edgeCounted (d : Dev) (n : Nat) : d.regsBut (d.edgeCounted n) [R.TRG_CNT n] :=
  (Dev.regsBut.refl d [R.TRG_CNT n]).setFld (f := F.TRG_CNT_ACTIVE n) (List.mem_singleton.mpr rfl) _

theorem Dev.regsBut_edgeHeld (d : Dev) (n : Nat) : d.regsBut (d.edgeHeld n) [R.TRG_HELD n] :=
  (Dev.regsBut.refl d [R.TRG_HELD n]).addSat (f := F.TRG_HELD_EDGES n) (List.mem_singleton.mpr rfl) _

/-- The rings of this device that a source names. -/
def Dev.ringsOf (d : Dev) (tsrc tidx : Nat) : List Nat :=
  (List.range 512).filter (fun j => d.flag (F.JR_BIND_VALID j) && d.fld (F.JR_BIND_TSRC j) == tsrc &&
    d.fld (F.JR_BIND_TIDX j) == tidx && d.fld (F.JR_BIND_TRIG_POS j) == d.pos)

/-- The capture that a source of this device offers. -/
def Dev.captureOf (d : Dev) (tsrc tidx stamp : Nat) : Capture :=
  { tsrc := tsrc, tidx := tidx, stamp := stamp, bn := d.now, pos := d.pos,
    rings := (d.ringsOf tsrc tidx).filter (fun j => d.fld (F.JR_BIND_EXEC_POS j) == d.pos) }

/-- The other executors that a capture goes to. -/
def Dev.farOf (d : Dev) (tsrc tidx : Nat) : List Nat :=
  (((d.ringsOf tsrc tidx).map (fun j => d.fld (F.JR_BIND_EXEC_POS j))).filter (fun p => p != d.pos)).eraseDups

/-- A capture offered here and to the other executors. -/
def Dev.captureKept (d : Dev) (c : Capture) (far : List Nat) : Dev :=
  { d with trg := { d.trg with caps := if c.rings.isEmpty || !d.mayBind then d.trg.caps else d.trg.caps ++ [c],
                               remote := d.trg.remote ++ far.flatMap (fun p => [{ exec := p, dir := 0, cap := c }, { exec := p, dir := 1, cap := c }]) } }

theorem Dev.capture_eq (d : Dev) (tsrc tidx stamp : Nat) (barred : Bool) : d.capture tsrc tidx stamp barred =
    if d.po.ilkLow then d.addSat F.TRG_ILKCNT_CAPTURES 1
    else if barred || d.po.acting || d.clk.holdover || !d.started then d
    else d.captureKept (d.captureOf tsrc tidx stamp) (d.farOf tsrc tidx) := rfl

/-- A capture leaves the inputs and the jobs, and counts only under the interlock. -/
theorem Dev.capture_leaves (d : Dev) (tsrc tidx stamp : Nat) (barred : Bool) :
    d.regsBut (d.capture tsrc tidx stamp barred) [R.TRG_ILKCNT] ∧ (d.capture tsrc tidx stamp barred).trg.inp = d.trg.inp ∧
      (d.capture tsrc tidx stamp barred).jobs = d.jobs := by
  rw [Dev.capture_eq]
  split
  · have hmem : F.TRG_ILKCNT_CAPTURES.a ∈ [R.TRG_ILKCNT] := by simp
    exact ⟨(Dev.regsBut.refl d _).addSat hmem 1, rfl, rfl⟩
  · split
    · exact ⟨Dev.regsBut.refl d _, rfl, rfl⟩
    · generalize d.captureOf tsrc tidx stamp = c
      generalize d.farOf tsrc tidx = far
      exact ⟨Dev.regsBut.refl d _, rfl, rfl⟩

theorem Dev.trgRearm_of_armed {d : Dev} {n : Nat} (h : (d.trgIn n).disarmed = false) (q : Nat) : d.trgRearm n q = d := by
  unfold Dev.trgRearm
  simp [h]

theorem Dev.trgRearm_of_early {d : Dev} {n q : Nat} (h : q < (d.trgIn n).inactAt + d.fld (F.TRG_DEB_DEBOUNCE n)) : d.trgRearm n q = d := by
  unfold Dev.trgRearm
  simp [Nat.not_le.mpr h]

theorem Dev.trgRearm_of_due {d : Dev} {n q : Nat} (h : (d.trgIn n).disarmed = true) (ha : d.trgActive n (d.trgIn n).level = false)
    (hq : (d.trgIn n).inactAt + d.fld (F.TRG_DEB_DEBOUNCE n) ≤ q) : d.trgRearm n q = d.setTrg n { d.trgIn n with disarmed := false } := by
  unfold Dev.trgRearm
  simp [h, ha, hq]

/-- Rearming changes the input alone. -/
theorem Dev.trgRearm_leaves (d : Dev) (n q : Nat) :
    (d.trgRearm n q).regs = d.regs ∧ (d.trgRearm n q).trg.caps = d.trg.caps ∧ (d.trgRearm n q).trg.remote = d.trg.remote ∧
      (d.trgRearm n q).clk = d.clk := by
  unfold Dev.trgRearm
  dsimp only
  split
  · exact ⟨rfl, rfl, rfl, rfl⟩
  · exact ⟨rfl, rfl, rfl, rfl⟩

/-- R220: on the holdover oscillator an active edge is only counted. -/
theorem Dev.activeEdge_of_holdover {d : Dev} (h : d.clk.holdover = true) (n q : Nat) :
    (d.activeEdge n q).trg.caps = d.trg.caps ∧ (d.activeEdge n q).trg.remote = d.trg.remote ∧ d.regsBut (d.activeEdge n q) [R.TRG_CNT n] ∧
      (d.activeEdge n q).fld (F.TRG_CNT_ACTIVE n) = (d.fld (F.TRG_CNT_ACTIVE n) + 1) % 2 ^ 32 := by
  obtain ⟨hregs, hcaps, hremote, hclk⟩ := d.trgRearm_leaves n q
  unfold Dev.activeEdge
  generalize d.trgRearm n q = e at hregs hcaps hremote hclk ⊢
  rw [Dev.trgEdge_of_holdover (d := e.setTrg n ((e.trgIn n).atLevel (d.trgIn n).raw)) (show e.clk.holdover = true by rw [hclk, h])]
  refine ⟨hcaps, hremote, ?_, ?_⟩
  · exact (Dev.regsBut.of_regs hregs _).trans (Dev.regsBut_edgeCounted (e.setTrg n _) n)
  · rw [Dev.fld_edgeCounted_same]
    have hf : (e.setTrg n ((e.trgIn n).atLevel (d.trgIn n).raw)).fld (F.TRG_CNT_ACTIVE n) = d.fld (F.TRG_CNT_ACTIVE n) :=
      Dev.fld_congr hregs _
    rw [hf]

/-- R434: an edge of a disarmed input only counts as held. -/
theorem Dev.activeEdge_of_disarmed {d : Dev} {n q : Nat} (h : (d.trgIn n).disarmed = true)
    (hq : q < (d.trgIn n).inactAt + d.fld (F.TRG_DEB_DEBOUNCE n)) :
    (d.activeEdge n q).trg.caps = d.trg.caps ∧ (d.activeEdge n q).trg.remote = d.trg.remote ∧
      d.regsBut (d.activeEdge n q) [R.TRG_CNT n, R.TRG_HELD n] ∧
      (d.activeEdge n q).fld (F.TRG_CNT_ACTIVE n) = (d.fld (F.TRG_CNT_ACTIVE n) + 1) % 2 ^ 32 := by
  cases hh : d.clk.holdover with
  | true =>
    obtain ⟨hcaps, hremote, hregs, hcnt⟩ := Dev.activeEdge_of_holdover hh n q
    exact ⟨hcaps, hremote, hregs.mono (List.cons_subset_cons _ (List.nil_subset _)), hcnt⟩
  | false =>
    unfold Dev.activeEdge
    rw [Dev.trgRearm_of_early hq]
    have hdis : ((d.setTrg n ((d.trgIn n).atLevel (d.trgIn n).raw)).trgIn n).disarmed = true := by
      rw [Dev.trgIn_setTrg, if_pos rfl]
      exact h
    rw [Dev.trgEdge_of_disarmed (show (d.setTrg n _).clk.holdover = false from hh) hdis]
    generalize hE : d.setTrg n ((d.trgIn n).atLevel (d.trgIn n).raw) = e
    have hregs : e.regs = d.regs := by rw [← hE]; rfl
    have hcaps : e.trg.caps = d.trg.caps ∧ e.trg.remote = d.trg.remote := by rw [← hE]; exact ⟨rfl, rfl⟩
    refine ⟨hcaps.1, hcaps.2, ?_, ?_⟩
    · have hcnt := (Dev.regsBut_edgeCounted e n).mono (List.cons_subset_cons (R.TRG_CNT n) (List.nil_subset [R.TRG_HELD n]))
      have hheld := (Dev.regsBut_edgeHeld (e.edgeCounted n) n).mono (List.subset_cons_self (R.TRG_CNT n) [R.TRG_HELD n])
      exact (Dev.regsBut.of_regs hregs _).trans (hcnt.trans hheld)
    · have hne : (F.TRG_CNT_ACTIVE n).a ∉ [R.TRG_HELD n] := by
        simp only [R.TRG_CNT, R.TRG_HELD, List.mem_singleton]
        omega
      rw [(Dev.regsBut_edgeHeld (e.edgeCounted n) n).fld hne, Dev.fld_edgeCounted_same, Dev.fld_congr hregs]

/-- The registers that a capture of an input writes. -/
def capRegs (n : Nat) : List Nat := [R.TRG_CAP0 n, R.TRG_CAP1 n, R.TRG_CAP2 n, R.TRG_CAPCNT n]

theorem Dev.regsBut_stampShown (d : Dev) (n stamp : Nat) : d.regsBut (d.stampShown n stamp) (capRegs n) :=
  ((((Dev.regsBut.refl d (capRegs n)).setReg (by simp [capRegs]) _).setReg (by simp [capRegs]) _).setReg (by simp [capRegs]) _).setFld
    (f := F.TRG_CAPCNT_CAPTURES n) (by simp [capRegs]) _

/-- The stamp of a capture stands in the capture registers of its input. -/
theorem Dev.stampShown_shows (d : Dev) (n stamp : Nat) :
    (d.stampShown n stamp).reg (R.TRG_CAP0 n) = tsw0 stamp ∧ (d.stampShown n stamp).reg (R.TRG_CAP1 n) = tsw1 stamp ∧
      (d.stampShown n stamp).reg (R.TRG_CAP2 n) = tsw2 stamp := by
  have hcnt : ∀ a, a ≠ R.TRG_CAPCNT n → (d.stampShown n stamp).reg a =
      (((d.setReg (R.TRG_CAP0 n) (tsw0 stamp)).setReg (R.TRG_CAP1 n) (tsw1 stamp)).setReg (R.TRG_CAP2 n) (tsw2 stamp)).reg a :=
    fun a ha => Dev.reg_setFld_ne _ (F.TRG_CAPCNT_CAPTURES n) _ a ha
  refine ⟨?_, ?_, ?_⟩
  · rw [hcnt _ (by simp only [R.TRG_CAP0, R.TRG_CAPCNT]; omega), Dev.reg_setReg, if_neg (by simp only [R.TRG_CAP0, R.TRG_CAP2]; omega),
      Dev.reg_setReg, if_neg (by simp only [R.TRG_CAP0, R.TRG_CAP1]; omega), Dev.reg_setReg, if_pos rfl]
  · rw [hcnt _ (by simp only [R.TRG_CAP1, R.TRG_CAPCNT]; omega), Dev.reg_setReg, if_neg (by simp only [R.TRG_CAP1, R.TRG_CAP2]; omega),
      Dev.reg_setReg, if_pos rfl]
  · rw [hcnt _ (by simp only [R.TRG_CAP2, R.TRG_CAPCNT]; omega), Dev.reg_setReg, if_pos rfl]

/-- What a capture of an input leaves. -/
theorem Dev.edgeCaptured_shows (d : Dev) (x : Int) (n : Nat) (v : TrgSt) (bn : Nat) :
    (Dev.edgeCaptured (d, x) n v bn).reg (R.TRG_CAP0 n) = tsw0 v.rawAt ∧ (Dev.edgeCaptured (d, x) n v bn).reg (R.TRG_CAP1 n) = tsw1 v.rawAt ∧
      (Dev.edgeCaptured (d, x) n v bn).reg (R.TRG_CAP2 n) = tsw2 v.rawAt ∧ (Dev.edgeCaptured (d, x) n v bn).trgIn n = v.captured x bn ∧
      (Dev.edgeCaptured (d, x) n v bn).fld (F.TRG_CNT_ACTIVE n) = d.fld (F.TRG_CNT_ACTIVE n) ∧
      (Dev.edgeCaptured (d, x) n v bn).jobs = d.jobs := by
  unfold Dev.edgeCaptured
  dsimp only
  obtain ⟨h0, h1, h2⟩ := (d.setTrg n (v.captured x bn)).stampShown_shows n v.rawAt
  have hst := (d.setTrg n (v.captured x bn)).regsBut_stampShown n v.rawAt
  have hin : ((d.setTrg n (v.captured x bn)).stampShown n v.rawAt).trgIn n = v.captured x bn := by
    show (d.setTrg n (v.captured x bn)).trgIn n = _
    rw [Dev.trgIn_setTrg, if_pos rfl]
  have hjobs : ((d.setTrg n (v.captured x bn)).stampShown n v.rawAt).jobs = d.jobs := rfl
  obtain ⟨hregs, hinp, hj⟩ := ((d.setTrg n (v.captured x bn)).stampShown n v.rawAt).capture_leaves 0 n v.rawAt
    (((d.setTrg n (v.captured x bn)).stampShown n v.rawAt).fenced (domTg (n / 4)))
  generalize ((d.setTrg n (v.captured x bn)).stampShown n v.rawAt).capture 0 n v.rawAt _ = e at hregs hinp hj ⊢
  refine ⟨?_, ?_, ?_, ?_, ?_, hj.trans hjobs⟩
  · rw [hregs _ (by simp only [R.TRG_CAP0, R.TRG_ILKCNT, List.mem_singleton]; omega), h0]
  · rw [hregs _ (by simp only [R.TRG_CAP1, R.TRG_ILKCNT, List.mem_singleton]; omega), h1]
  · rw [hregs _ (by simp only [R.TRG_CAP2, R.TRG_ILKCNT, List.mem_singleton]; omega), h2]
  · rw [Dev.trgIn_congr hinp, hin]
  · rw [hregs.fld (by simp only [R.TRG_CNT, R.TRG_ILKCNT, List.mem_singleton]; omega),
      hst.fld (by simp only [R.TRG_CNT, capRegs, R.TRG_CAP0, R.TRG_CAP1, R.TRG_CAP2, R.TRG_CAPCNT, List.mem_cons, List.not_mem_nil, or_false]; omega)]
    rfl

/-- An armed input in holdoff mode 0 takes an active edge as a capture. -/
theorem Dev.activeEdge_captures {d : Dev} {n : Nat} (h : d.clk.holdover = false) (hd : (d.trgIn n).disarmed = false)
    (hm : d.fld (F.TRG_CFG_HMODE n) = 0) (hc : (d.trgIn n).capBn ≠ some d.now) (q : Nat) :
    d.activeEdge n q = Dev.edgeCaptured ((d.setTrg n ((d.trgIn n).atLevel (d.trgIn n).raw)).edgeCounted n, 0) n
      ((d.trgIn n).atLevel (d.trgIn n).raw) d.now := by
  unfold Dev.activeEdge
  rw [Dev.trgRearm_of_armed hd]
  have hin : (d.setTrg n ((d.trgIn n).atLevel (d.trgIn n).raw)).trgIn n = (d.trgIn n).atLevel (d.trgIn n).raw := by
    rw [Dev.trgIn_setTrg, if_pos rfl]
  have hcap := Dev.trgEdge_captures (d := d.setTrg n ((d.trgIn n).atLevel (d.trgIn n).raw)) (n := n) h
    (by rw [hin]; exact hd) hm (by rw [hin]; exact hc)
  rw [hcap, hin]
  rfl

/-- What an active edge that an armed input captures shows. -/
theorem Dev.activeEdge_shows {d : Dev} {n : Nat} (h : d.clk.holdover = false) (hd : (d.trgIn n).disarmed = false)
    (hm : d.fld (F.TRG_CFG_HMODE n) = 0) (hc : (d.trgIn n).capBn ≠ some d.now) (q : Nat) :
    (d.activeEdge n q).reg (R.TRG_CAP0 n) = tsw0 (d.trgIn n).rawAt ∧ (d.activeEdge n q).reg (R.TRG_CAP1 n) = tsw1 (d.trgIn n).rawAt ∧
      (d.activeEdge n q).reg (R.TRG_CAP2 n) = tsw2 (d.trgIn n).rawAt ∧
      (d.activeEdge n q).trgIn n = ((d.trgIn n).atLevel (d.trgIn n).raw).captured 0 d.now ∧
      (d.activeEdge n q).fld (F.TRG_CNT_ACTIVE n) = (d.fld (F.TRG_CNT_ACTIVE n) + 1) % 2 ^ 32 ∧ (d.activeEdge n q).jobs = d.jobs := by
  rw [Dev.activeEdge_captures h hd hm hc]
  obtain ⟨h0, h1, h2, hin, hcnt, hjobs⟩ := Dev.edgeCaptured_shows
    ((d.setTrg n ((d.trgIn n).atLevel (d.trgIn n).raw)).edgeCounted n) 0 n ((d.trgIn n).atLevel (d.trgIn n).raw) d.now
  exact ⟨h0, h1, h2, hin, hcnt.trans (Dev.fld_edgeCounted_same _ n), hjobs⟩

/-! ## Mains phase points -/

theorem exec_mainsPhasePoint (n : Fin 4) (ci : Fin 240) (s : State) : exec (.mainsPhasePoint n ci) s = .next (s.onDev fun d =>
    if d.t.running && d.flag (F.SUP_MPH_EN n.val) && d.fld F.SUP_RCODE_MNOM != 0 && !d.pwr.trackLost && d.phaseBeat n.val == some d.now then
      (d.setCi ci.val).capture 2 n.val (instant d.now ci.val 0) false
    else d) := rfl

theorem exec_triggerRearm (n : Fin 16) (ci : Fin 240) (s : State) :
    exec (.triggerRearm n ci) s = .next (s.onDev fun d => (d.setCi ci.val).trgRearm n.val (d.cycAt ci.val)) := rfl

/-- A capture that nothing bars, with a ring here, is kept. -/
theorem Dev.capture_of_open {d : Dev} {tsrc tidx stamp : Nat} (hilk : d.po.ilkLow = false) (hact : d.po.acting = false)
    (hho : d.clk.holdover = false) (hst : d.started = true) (hmay : d.mayBind = true) (hne : (d.captureOf tsrc tidx stamp).rings ≠ []) :
    (d.capture tsrc tidx stamp false).trg.caps = d.trg.caps ++ [d.captureOf tsrc tidx stamp] ∧
      (d.capture tsrc tidx stamp false).regs = d.regs := by
  have hbar : ¬(false || d.po.acting || d.clk.holdover || !d.started) = true := by
    rw [hact, hho, hst]
    decide
  have hkeep : ¬((d.captureOf tsrc tidx stamp).rings.isEmpty || !d.mayBind) = true := by
    rw [hmay, Bool.not_true, Bool.or_false, List.isEmpty_iff]
    exact hne
  rw [Dev.capture_eq, if_neg (by simp [hilk]), if_neg hbar]
  generalize d.captureOf tsrc tidx stamp = c at hkeep
  generalize d.farOf tsrc tidx = far
  exact ⟨if_neg hkeep, rfl⟩

/-- A capture by its parts. -/
theorem Capture.eq_of_parts {c : Capture} {tsrc tidx stamp bn pos : Nat} {rs : List Nat} (h1 : c.tsrc = tsrc) (h2 : c.tidx = tidx)
    (h3 : c.stamp = stamp) (h4 : c.bn = bn) (h5 : c.pos = pos) (h6 : c.rings = rs) :
    c = { tsrc := tsrc, tidx := tidx, stamp := stamp, bn := bn, pos := pos, rings := rs } := by
  cases c
  subst h1 h2 h3 h4 h5 h6
  rfl

/-- The rings here that a source names, in one filter. -/
theorem Dev.captureOf_rings (d : Dev) (tsrc tidx stamp : Nat) : (d.captureOf tsrc tidx stamp).rings =
    (List.range 512).filter (fun j => d.flag (F.JR_BIND_VALID j) && d.fld (F.JR_BIND_TSRC j) == tsrc &&
      d.fld (F.JR_BIND_TIDX j) == tidx && d.fld (F.JR_BIND_TRIG_POS j) == d.pos && d.fld (F.JR_BIND_EXEC_POS j) == d.pos) := by
  unfold Dev.captureOf Dev.ringsOf
  dsimp only
  rw [List.filter_filter]
  exact congrArg (fun p => List.filter p (List.range 512)) (funext fun j => Bool.and_comm _ _)

theorem mainsPhasePoint_case {s : State} {n : Fin 4} {ci : Fin 240} (hrun : s.dev.t.running = true) (hen : s.dev.flag (F.SUP_MPH_EN n.val) = true)
    (hnom : s.dev.fld F.SUP_RCODE_MNOM ≠ 0) (htr : s.dev.pwr.trackLost = false) (hph : s.dev.phaseBeat n.val = some s.dev.now) :
    exec (.mainsPhasePoint n ci) s = .next { s with dev := (s.dev.setCi ci.val).capture 2 n.val (instant s.dev.now ci.val 0) false } := by
  rw [exec_mainsPhasePoint]
  refine congrArg (fun d : Dev => Host.Outcome.next { s with dev := d }) (if_pos ?_)
  rw [hrun, hen, htr, hph]
  simp [hnom]

theorem mainsPhasePoint_none {s : State} {n : Fin 4} (ci : Fin 240) (h : s.dev.flag (F.SUP_MPH_EN n.val) = false ∨
    s.dev.fld F.SUP_RCODE_MNOM = 0 ∨ s.dev.pwr.trackLost = true ∨ s.dev.phaseBeat n.val ≠ some s.dev.now) :
    exec (.mainsPhasePoint n ci) s = .next s := by
  rw [exec_mainsPhasePoint]
  refine congrArg (fun d : Dev => Host.Outcome.next { s with dev := d }) (if_neg ?_)
  rcases h with h | h | h | h
  · simp [h]
  · simp [h]
  · simp [h]
  · simp [h]

/-- A raw transition of an input that is on. -/
theorem triggerTransition_case {s : State} {n : Fin 16} {l : Bool} (ci : Fin 240) (fs : Fin 2048) (hon : s.dev.trgOn n.val = true)
    (hne : (s.dev.trgIn n.val).raw ≠ l) :
    exec (.triggerTransition n l ci fs) s = .next (s.onDev fun d => ((d.setCi ci.val).rawNoted n.val (instant d.now ci.val fs.val)).setTrg n.val
      ((d.trgIn n.val).transited l (instant d.now ci.val fs.val))) := by
  rw [exec_triggerTransition]
  refine congrArg (fun d : Dev => Host.Outcome.next { s with dev := d }) (if_pos ?_)
  rw [hon, bne_iff_ne.mpr hne]
  rfl

theorem triggerTransition_none {s : State} {n : Fin 16} {l : Bool} (ci : Fin 240) (fs : Fin 2048)
    (h : s.dev.trgOn n.val = false ∨ (s.dev.trgIn n.val).raw = l) :
    exec (.triggerTransition n l ci fs) s = .next (s.onDev fun d => d.setCi ci.val) := by
  rw [exec_triggerTransition]
  refine congrArg (fun d : Dev => Host.Outcome.next { s with dev := d }) (if_neg ?_)
  rcases h with h | h
  · simp [h]
  · simp [h]

theorem Dev.qualified_of_active {d : Dev} {n : Nat} (h : d.trgActive n (d.trgIn n).raw = true) : d.qualified n = d.activeEdge n (d.qualAt n) :=
  if_pos h

theorem Dev.qualified_of_inactive {d : Dev} {n : Nat} (h : d.trgActive n (d.trgIn n).raw = false) :
    d.qualified n = d.setTrg n ((d.trgIn n).released (d.qualAt n)) := if_neg (by simp [h])

/-- Settles O42: the stages of an input by what its edge meets, and the mains phase points. -/
theorem triggerInputsCapture : Obligations.TriggerInputsCapture := by
  unfold Obligations.TriggerInputsCapture
  intro s
  refine ⟨fun n l ci fs => ⟨fun hon hne => ?_, triggerTransition_none ci fs⟩, ?_, ?_, ?_⟩
  · refine ⟨_, triggerTransition_case ci fs hon hne, ?_, fun k hk => ?_, rfl, rfl⟩
    · exact (Dev.trgIn_setTrg _ n.val n.val _).trans (if_pos rfl)
    · exact (Dev.trgIn_setTrg _ n.val k _).trans (if_neg hk)
  · intro n ci v q hon hne hq
    have hexec := exec_triggerQualify_of_held (ci := ci) hon hne hq
    refine ⟨fun ha hho => ?_, fun ha hho hd hm hc => ?_, fun ha hd hq' => ?_, fun ha => ?_⟩
    · have hcase := Dev.activeEdge_of_holdover (d := s.dev.setCi ci.val) hho n.val ((s.dev.setCi ci.val).qualAt n.val)
      rw [← Dev.qualified_of_active (d := s.dev.setCi ci.val) ha] at hcase
      exact ⟨_, hexec, hcase⟩
    · have hcase := Dev.activeEdge_shows (d := s.dev.setCi ci.val) hho hd hm hc ((s.dev.setCi ci.val).qualAt n.val)
      rw [← Dev.qualified_of_active (d := s.dev.setCi ci.val) ha] at hcase
      obtain ⟨h0, h1, h2, hin, hfld, hjobs⟩ := hcase
      refine ⟨_, hexec, h0, h1, h2, ?_, ?_, ?_, hfld, hjobs⟩
      · exact (congrArg TrgSt.disarmed hin).trans rfl
      · exact (congrArg TrgSt.level hin).trans rfl
      · exact (congrArg TrgSt.capBn hin).trans rfl
    · have hcase := Dev.activeEdge_of_disarmed (d := s.dev.setCi ci.val) (q := (s.dev.setCi ci.val).qualAt n.val) hd hq'
      rw [← Dev.qualified_of_active (d := s.dev.setCi ci.val) ha] at hcase
      exact ⟨_, hexec, hcase⟩
    · have hcase := Dev.qualified_of_inactive (d := s.dev.setCi ci.val) ha
      refine ⟨_, hexec, ?_, ?_, ?_⟩
      · exact (congrArg (fun d : Dev => d.trgIn n.val) hcase).trans ((Dev.trgIn_setTrg _ n.val n.val _).trans (if_pos rfl))
      · exact (congrArg Dev.regs hcase).trans rfl
      · exact (congrArg (fun d : Dev => d.trg.caps) hcase).trans rfl
  · intro n ci v
    refine ⟨fun hd ha hq => ?_, fun hd => ?_⟩
    · have hcase := Dev.trgRearm_of_due (d := s.dev.setCi ci.val) hd ha hq
      refine ⟨_, exec_triggerRearm n ci s, ?_, ?_⟩
      · exact (congrArg (fun d : Dev => d.trgIn n.val) hcase).trans ((Dev.trgIn_setTrg _ n.val n.val _).trans (if_pos rfl))
      · exact (congrArg Dev.regs hcase).trans rfl
    · rw [exec_triggerRearm]
      exact congrArg (fun d : Dev => Host.Outcome.next { s with dev := d }) (Dev.trgRearm_of_armed (d := s.dev.setCi ci.val) hd _)
  · intro n ci rs
    have hr : ((s.dev.setCi ci.val).captureOf 2 n.val (instant s.dev.now ci.val 0)).rings = rs :=
      (s.dev.setCi ci.val).captureOf_rings 2 n.val (instant s.dev.now ci.val 0)
    clear_value rs
    refine ⟨fun hrun hen hnom htr hph hilk hact hho hst hmay hne => ?_, mainsPhasePoint_none ci⟩
    obtain ⟨hcaps, hregs⟩ := Dev.capture_of_open (d := s.dev.setCi ci.val) (stamp := instant s.dev.now ci.val 0) hilk hact hho hst hmay
      (by rw [hr]; exact hne)
    have hstamp : instant s.dev.now ci.val 0 = (s.dev.now * 240 + ci.val) * 2048 := by simp only [instant, cyclesPerBeat, fsPerCycle, Nat.add_zero]
    rw [Capture.eq_of_parts (c := (s.dev.setCi ci.val).captureOf 2 n.val (instant s.dev.now ci.val 0)) rfl rfl hstamp rfl rfl hr] at hcaps
    have hexec := mainsPhasePoint_case (ci := ci) hrun hen hnom htr hph
    generalize (s.dev.setCi ci.val).capture 2 n.val (instant s.dev.now ci.val 0) false = e at hexec hcaps hregs
    exact ⟨_, hexec, hcaps, hregs⟩

end Sys2Proof.Machine
end

section

/-!
PROOF. Training of the head links (12_head_ports.md R594 to R598, R606, R607, R622, Tables HPT-5 and HPT-7).
-/

namespace Sys2Proof.Machine
open Sys2Proof

/-! ## What a port's training leaves -/

theorem Dev.hpSt_setHp (d : Dev) (p k : Nat) (h : HpSt) : (d.setHp p h).hpSt k = if k = p then h else d.hpSt k := mget_mset _ _ _ _ _

theorem Dev.hpSt_congr {d e : Dev} (h : e.hp = d.hp) (k : Nat) : e.hpSt k = d.hpSt k := by rw [Dev.hpSt, h, Dev.hpSt]

/-- What of a job a head port's training leaves. -/
def Job.fate (j : Job) : Nat × JState × Option Outcome := (j.hm, j.st, j.out)

/-- The other ports, the fate of every job and the beat are as before. -/
structure Dev.PortKept (d e : Dev) (p : Nat) : Prop where
  others : ∀ k, k ≠ p → e.hpSt k = d.hpSt k
  jobs : e.jobs.map Job.fate = d.jobs.map Job.fate
  now : e.now = d.now

namespace Dev.PortKept

theorem of_same {d e : Dev} {p : Nat} (hhp : e.hp = d.hp) (hj : e.jobs = d.jobs) (ht : e.t = d.t) : d.PortKept e p :=
  ⟨fun k _ => Dev.hpSt_congr hhp k, by rw [hj], congrArg (fun t : TimeSt => t.bn.toNat) ht⟩

theorem refl (d : Dev) (p : Nat) : d.PortKept d p := of_same rfl rfl rfl

theorem trans {d e f : Dev} {p : Nat} (h : d.PortKept e p) (g : e.PortKept f p) : d.PortKept f p :=
  ⟨fun k hk => (g.others k hk).trans (h.others k hk), g.jobs.trans h.jobs, g.now.trans h.now⟩

end Dev.PortKept

theorem Dev.portKept_setHp (d : Dev) (p : Nat) (h : HpSt) : d.PortKept (d.setHp p h) p :=
  ⟨fun k hk => (d.hpSt_setHp p k h).trans (if_neg hk), rfl, rfl⟩

theorem Dev.portKept_raiseCause (d : Dev) (k p : Nat) (r : Reason) : d.PortKept (d.raiseCause k r) p :=
  .of_same (by simp) (by simp) (by simp)

theorem Dev.portKept_hpCut (d : Dev) (p : Nat) (r : Option Reason) : d.PortKept (d.hpCut p r) p := by
  refine ⟨fun k hk => (d.hpSt_setHp p k _).trans (if_neg hk), ?_, rfl⟩
  show (d.jobs.map _).map Job.fate = d.jobs.map Job.fate
  rw [List.map_map]
  refine List.map_congr_left fun j _ => ?_
  dsimp only [Function.comp_apply]
  split <;> rfl

/-- The link state once it is entered. -/
def Dev.linkEntered (d : Dev) (p n : Nat) : Dev := (d.setHp p { d.hpSt p with since := d.now }).setFld (F.HP_STAT_LSTATE p) n

theorem Dev.hpLink_eq (d : Dev) (p n : Nat) : d.hpLink p n = if d.lstate p = n then d.linkEntered p n
    else ((d.linkEntered p n).setReg R.HP_EVT (putBit ((d.linkEntered p n).reg R.HP_EVT) p true)).raiseIrq 16 := rfl

/-- What a port shows once it enters a link state. -/
theorem Dev.hpLink_shows (d : Dev) (p : Nat) {n : Nat} (hn : n < 8) :
    (d.hpLink p n).hpSt p = { d.hpSt p with since := d.now } ∧ (d.hpLink p n).lstate p = n ∧
      (d.hpLink p n).fld (F.HP_STAT_TRAINING p) = d.fld (F.HP_STAT_TRAINING p) ∧ d.PortKept (d.hpLink p n) p ∧
      d.regsBut (d.hpLink p n) (R.HP_STAT p :: R.HP_EVT :: irqRegs) := by
  have hst : (d.linkEntered p n).hpSt p = { d.hpSt p with since := d.now } := (d.hpSt_setHp p p _).trans (if_pos rfl)
  have hl : (d.linkEntered p n).fld (F.HP_STAT_LSTATE p) = n := by
    refine (Dev.fld_setFld_same _ (F.HP_STAT_LSTATE p) n (show 2 < 32 by decide)).trans ?_
    exact Nat.mod_eq_of_lt hn
  have htr : (d.linkEntered p n).fld (F.HP_STAT_TRAINING p) = d.fld (F.HP_STAT_TRAINING p) :=
    Dev.fld_setFld_ne _ (F.HP_STAT_LSTATE p) (F.HP_STAT_TRAINING p) n (show 31 < 32 by decide) (.inr (.inr (show 2 < 24 by decide)))
  have hkept : d.PortKept (d.linkEntered p n) p :=
    (d.portKept_setHp p { d.hpSt p with since := d.now }).trans (.of_same rfl rfl rfl)
  have hregs : d.regsBut (d.linkEntered p n) (R.HP_STAT p :: R.HP_EVT :: irqRegs) :=
    (Dev.regsBut.refl d _).setFld (f := F.HP_STAT_LSTATE p) List.mem_cons_self n
  rw [Dev.hpLink_eq]
  generalize d.linkEntered p n = e at hst hl htr hkept hregs ⊢
  split
  · exact ⟨hst, hl, htr, hkept, hregs⟩
  · generalize putBit (e.reg R.HP_EVT) p true = w
    have hev : e.regsBut ((e.setReg R.HP_EVT w).raiseIrq 16) (R.HP_EVT :: irqRegs) :=
      ((Dev.regsBut.refl e _).setReg List.mem_cons_self w).raiseIrq (List.subset_cons_self _ _) 16
    have hnot : R.HP_STAT p ∉ R.HP_EVT :: irqRegs := by
      simp only [R.HP_STAT, irqRegs, R.HP_EVT, R.HST_ISR0, R.HST_ISR1, R.MSIX_PBA, List.mem_cons, List.not_mem_nil, or_false]
      omega
    refine ⟨?_, (hev.fld (f := F.HP_STAT_LSTATE p) hnot).trans hl, (hev.fld (f := F.HP_STAT_TRAINING p) hnot).trans htr, ?_,
      hregs.trans (hev.mono (List.subset_cons_self _ _))⟩
    · exact (Dev.hpSt_congr (by simp) p).trans hst
    · exact hkept.trans (.of_same (by simp) (by simp) (by simp))

theorem Dev.hpSt_hpCut (d : Dev) (p : Nat) (r : Option Reason) :
    (d.hpCut p r).hpSt p = { d.hpSt p with frames := (d.hpSt p).frames.filter FrameSt.sent } := (d.hpSt_setHp p p _).trans (if_pos rfl)

/-- A port whose link has failed: in FAULT since this beat, and fenced. -/
structure Dev.PortFailed (d e : Dev) (p : Nat) (r : Reason) : Prop where
  state : e.lstate p = 7
  since : (e.hpSt p).since = d.now
  kept : d.PortKept e p
  cause : r ∈ (e.dom p).causes

theorem Dev.hpFail_fails (d : Dev) (p : Nat) (r : Reason) :
    d.PortFailed (d.hpFail p r) p r ∧ ((d.hpFail p r).hpSt p).fails = (d.hpSt p).fails ∧
      d.regsBut (d.hpFail p r) (R.HP_STAT p :: R.HP_EVT :: irqRegs) := by
  unfold Dev.hpFail
  have hcut := d.portKept_hpCut p (some Rsn.partHeadlink)
  have hst := d.hpSt_hpCut p (some Rsn.partHeadlink)
  have hregs : (d.hpCut p (some Rsn.partHeadlink)).regs = d.regs := rfl
  generalize d.hpCut p (some Rsn.partHeadlink) = e at hcut hst hregs
  have hr := e.portKept_raiseCause (domHp p) p r
  have hrs := Dev.hpSt_congr (show (e.raiseCause (domHp p) r).hp = e.hp by simp) p
  have hc : r ∈ ((e.raiseCause (domHp p) r).dom p).causes := e.mem_causes_raiseCause (domHp p) r
  have hrr := e.regsBut_raiseCause (domHp p) r
  generalize e.raiseCause (domHp p) r = f at hr hrs hc hrr
  obtain ⟨hl, hstate, -, hkept, hlr⟩ := f.hpLink_shows p (show 7 < 8 by decide)
  have hfen : (f.hpLink p 7).fen = f.fen := by simp
  have hdom : (f.hpLink p 7).dom p = f.dom p := by unfold Dev.dom; rw [hfen]
  have hnow : f.now = d.now := hr.now.trans hcut.now
  refine ⟨⟨hstate, ?_, hcut.trans (hr.trans hkept), hdom ▸ hc⟩, ?_, ?_⟩
  · rw [hl]
    exact hnow
  · rw [hl, hrs, hst]
  · have hsub : irqRegs ⊆ R.HP_STAT p :: R.HP_EVT :: irqRegs := fun _ h => List.mem_cons_of_mem _ (List.mem_cons_of_mem _ h)
    exact (Dev.regsBut.of_regs hregs _).trans ((hrr.mono hsub).trans hlr)

/-- A port that trains again from LOCK. -/
structure Dev.TrainsAgain (d e : Dev) (p : Nat) : Prop where
  state : e.lstate p = 1
  since : (e.hpSt p).since = d.now
  kept : d.PortKept e p
  count : e.fld (F.HP_STAT_TRAINING p) = satAdd 8 (d.fld (F.HP_STAT_TRAINING p)) 1
  lat : (e.hpSt p).lat = none
  cancel : (e.hpSt p).cancel = ((d.hpSt p).cancel || (d.hpSt p).cmd.isSome)
  fen : e.fen = d.fen

theorem Dev.hpAttempt_trains (d : Dev) (p : Nat) : d.TrainsAgain (d.hpAttempt p) p ∧ ((d.hpAttempt p).hpSt p).fails = (d.hpSt p).fails := by
  unfold Dev.hpAttempt
  have hcut := d.portKept_hpCut p (some Rsn.partHeadlink)
  have hst := d.hpSt_hpCut p (some Rsn.partHeadlink)
  have hregs : (d.hpCut p (some Rsn.partHeadlink)).regs = d.regs := rfl
  have hfen : (d.hpCut p (some Rsn.partHeadlink)).fen = d.fen := rfl
  generalize d.hpCut p (some Rsn.partHeadlink) = e at hcut hst hregs hfen
  dsimp only
  generalize hh : ({ e.hpSt p with lat := none, cancel := (e.hpSt p).cancel || (e.hpSt p).cmd.isSome } : HpSt) = h
  have hset := e.portKept_setHp p h
  have hsets : (e.setHp p h).hpSt p = h := (e.hpSt_setHp p p h).trans (if_pos rfl)
  have hsetr : (e.setHp p h).regs = d.regs := hregs
  have hsetf : (e.setHp p h).fen = d.fen := hfen
  generalize e.setHp p h = f at hset hsets hsetr hsetf
  obtain ⟨hl, hstate, htr, hkept, -⟩ := f.hpLink_shows p (show 1 < 8 by decide)
  have hlf : (f.hpLink p 1).fen = f.fen := by simp
  generalize f.hpLink p 1 = g at hl hstate htr hkept hlf
  have hnow : f.now = d.now := hset.now.trans hcut.now
  have hgs : (g.addSat (F.HP_STAT_TRAINING p) 1).hpSt p = g.hpSt p := rfl
  refine ⟨⟨?_, ?_, ?_, ?_, ?_, ?_, ?_⟩, ?_⟩
  · have hne : (g.addSat (F.HP_STAT_TRAINING p) 1).fld (F.HP_STAT_LSTATE p) = g.fld (F.HP_STAT_LSTATE p) :=
      Dev.fld_setFld_ne _ (F.HP_STAT_TRAINING p) (F.HP_STAT_LSTATE p) _ (show 2 < 32 by decide) (.inr (.inl (show 2 < 24 by decide)))
    exact hne.trans hstate
  · rw [hgs, hl]
    exact hnow
  · exact hcut.trans (hset.trans (hkept.trans (.of_same rfl rfl rfl)))
  · exact (Dev.fld_addSat_same g (f := F.HP_STAT_TRAINING p) (show 31 < 32 by decide) 1).trans
      (congrArg (satAdd 8 · 1) (htr.trans (Dev.fld_congr hsetr _)))
  · rw [hgs, hl, hsets, ← hh]
  · rw [hgs, hl, hsets, ← hh, hst]
  · exact hlf.trans hsetf
  · rw [hgs, hl, hsets, ← hh, hst]

/-- RETRAIN and AUTOTRAIN of a FRAMED port that is not parked. -/
theorem Dev.hpTrain_trains {d : Dev} {p : Nat} (hf : d.hpFramed p = true) (hp : (d.dom p).causes.contains Rsn.domainParked = false) :
    d.TrainsAgain (d.hpTrain p) p ∧ ((d.hpTrain p).hpSt p).fails = 0 := by
  have heq : d.hpTrain p = (d.setHp p { d.hpSt p with fails := 0 }).hpAttempt p := if_pos (by rw [hf, hp]; rfl)
  have hset := d.portKept_setHp p { d.hpSt p with fails := 0 }
  have hst : (d.setHp p { d.hpSt p with fails := 0 }).hpSt p = { d.hpSt p with fails := 0 } := (d.hpSt_setHp p p _).trans (if_pos rfl)
  rw [heq]
  obtain ⟨ht, hfails⟩ := (d.setHp p { d.hpSt p with fails := 0 }).hpAttempt_trains p
  have hcancel := ht.cancel
  rw [hst] at hcancel hfails
  exact ⟨⟨ht.state, ht.since, hset.trans ht.kept, ht.count, ht.lat, hcancel, ht.fen⟩, hfails⟩

/-- The end of an unfencing lifts its mark and keeps the causes. -/
theorem Dev.hpUnfenced_lifts (d : Dev) (p : Nat) :
    ((d.hpUnfenced p).dom p).unfencing = false ∧ ((d.hpUnfenced p).dom p).causes = (d.dom p).causes ∧ (d.hpUnfenced p).hp = d.hp ∧
      (d.hpUnfenced p).jobs = d.jobs ∧ (d.hpUnfenced p).t = d.t ∧ d.regsBut (d.hpUnfenced p) irqRegs := by
  unfold Dev.hpUnfenced
  dsimp only
  cases hu : (d.dom p).unfencing with
  | false =>
    rw [if_neg (by decide)]
    exact ⟨hu, rfl, rfl, rfl, rfl, .refl d _⟩
  | true =>
    rw [if_pos rfl]
    have hdom : ((d.setDom p { d.dom p with reason := 0, unfencing := false }).logFence p (d.dom p).reason true).dom p =
        { d.dom p with reason := 0, unfencing := false } := by
      unfold Dev.dom
      rw [Dev.doms_logFence]
      exact (mget_mset _ _ _ _ _).trans (if_pos rfl)
    have hc := congrArg DomSt.causes hdom
    refine ⟨congrArg DomSt.unfencing hdom, hc, by simp, by simp, by simp, ?_⟩
    exact (Dev.regsBut.of_regs (e := d.setDom p { d.dom p with reason := 0, unfencing := false }) rfl _).trans (Dev.regsBut_logFence _ p _ true)

/-! ## The commands -/

theorem exec_headLockPattern (p : Fin 16) (s : State) : exec (.headLockPattern p) s =
    .next (s.onDev fun d => if d.hpFramed p.val && d.lstate p.val == 1 then d.hpLink p.val 2 else d) := rfl

theorem exec_headAlignDone (p : Fin 16) (s : State) : exec (.headAlignDone p) s =
    .next (s.onDev fun d => if d.hpFramed p.val && d.lstate p.val == 2 then d.hpLink p.val 3 else d) := rfl

/-- A new link state raises vector 16. -/
theorem Dev.isr_hpLink {d : Dev} {p n : Nat} (hne : d.lstate p ≠ n) : bitOf ((d.hpLink p n).reg R.HST_ISR0) 16 = true := by
  rw [Dev.hpLink_eq, if_neg hne]
  exact Dev.isr_raiseIrq _ 16 (by decide)

/-- A link state changes the registers, the port and what is sent. -/
theorem Dev.hpLink_frame (d : Dev) (p n : Nat) :
    d.hpLink p n = { d with regs := (d.hpLink p n).regs, hp := (d.hpLink p n).hp, out := (d.hpLink p n).out } := by
  rw [Dev.hpLink_eq]
  split
  · rfl
  · generalize hev : (d.linkEntered p n).setReg R.HP_EVT (putBit ((d.linkEntered p n).reg R.HP_EVT) p true) = e
    have hhp : (e.raiseIrq 16).hp = e.hp := by simp
    rw [hhp]
    exact (Dev.raiseIrq_regs_out_only e 16).trans (by rw [← hev]; rfl)

/-- The declaration of a partner in its registers. -/
def Dev.declShown (d : Dev) (p : Nat) (w : Nat → Nat) : Dev :=
  (List.range 4).foldl (fun d k => d.setNum (R.HP_DECL p k) (w (2 * k) + 2 ^ 16 * w (2 * k + 1))) d

/-- R597: the declaration meets what the port expects. -/
def Dev.declFits (d : Dev) (p : Nat) (w : Nat → Nat) : Bool :=
  (d.fld (F.HP_EXPECT0_VENDOR p) == 0 || d.fld (F.HP_EXPECT0_VENDOR p) == w 0) &&
    (d.fld (F.HP_EXPECT0_PRODUCT p) == 0 || d.fld (F.HP_EXPECT0_PRODUCT p) == w 1) &&
    decide (d.fld (F.HP_EXPECT1_MINCH p) ≤ w 3 % 512) && decide (w 3 % 512 ≤ 256) &&
    decide (d.fld (F.HP_EXPECT1_MAXCOL p) ≤ w 5) && w 7 % 256 == 1

/-- The link goes UP with the latency that its partner declared. -/
def Dev.declUp (d : Dev) (p lat : Nat) : Dev :=
  ((d.setHp p { d.hpSt p with lat := some lat, fails := 0 }).hpLink p 4).hpUnfenced p

/-- What a declaration leads to. -/
def Dev.declTaken (d : Dev) (p : Nat) (w : Nat → Nat) : Dev :=
  if !d.declFits p w then d.hpFail p Rsn.hpDeclMismatch
  else if w 2 < 480 ∨ d.fld (F.HP_LATMAX_NS p) < w 2 then d.hpFail p Rsn.hpLatRange
  else d.declUp p (w 2)

/-- The words of a declaration. -/
def declWord (ws : List (BitVec 16)) (k : Nat) : Nat := (ws.getD k 0).toNat

theorem exec_headDeclaration (p : Fin 16) (ws : List (BitVec 16)) (s : State) : exec (.headDeclaration p ws) s =
    .next (s.onDev fun d => if !(d.hpFramed p.val && d.lstate p.val == 3) then d
      else (d.declShown p.val (declWord ws)).declTaken p.val (declWord ws)) := rfl

/-- A training state that has lasted too long. -/
def Dev.trainTimedOut (d : Dev) (p : Nat) : Dev :=
  if d.fld (F.HP_CFG_RETRY p) ≤ (d.hpSt p).fails + 1 then (d.setHp p { d.hpSt p with fails := (d.hpSt p).fails + 1 }).hpFail p Rsn.hpTrainFail
  else (d.setHp p { d.hpSt p with fails := (d.hpSt p).fails + 1 }).hpAttempt p

theorem exec_headTrainTimeout (p : Fin 16) (s : State) : exec (.headTrainTimeout p) s =
    .next (s.onDev fun d => if d.hpFramed p.val && (d.lstate p.val == 1 || d.lstate p.val == 2 || d.lstate p.val == 3) &&
        decide ((d.hpSt p.val).since + (if d.lstate p.val = 1 then 4096 else 512) ≤ d.now) then d.trainTimedOut p.val else d) := rfl

theorem exec_headAutotrain (p : Fin 16) (s : State) : exec (.headAutotrain p) s =
    .next (s.onDev fun d => if d.flag (F.HP_CFG_AUTOTRAIN p.val) && d.lstate p.val == 7 &&
      decide ((d.hpSt p.val).since + 65536 ≤ d.now) then d.hpTrain p.val else d) := rfl

/-- A link lost while UP. -/
def Dev.linkLost (d : Dev) (p : Nat) : Dev :=
  if (d.raiseCause (domHp p) Rsn.hpLinkLoss).flag (F.HP_CFG_AUTOTRAIN p) then (d.raiseCause (domHp p) Rsn.hpLinkLoss).hpTrain p
  else ((d.raiseCause (domHp p) Rsn.hpLinkLoss).hpCut p (some Rsn.partHeadlink)).hpLink p 7

theorem exec_headLinkLoss (p : Fin 16) (s : State) : exec (.headLinkLoss p) s =
    .next (s.onDev fun d => if d.hpFramed p.val && d.lstate p.val == 4 then d.linkLost p.val else d) := rfl

theorem exec_hpRetrain (port : Port) (p : Fin 16) (s : State) : exec (.hpRetrain port p) s =
    .next (s.onDev fun d => d.viaPort port (R.HP_TRAIN p.val) fun d => d.hpTrain p.val) := rfl

/-! ## What the commands lead to -/

/-- The registers of a declaration. -/
def declRegs (p : Nat) : List Nat := (List.range 4).map (R.HP_DECL p)

theorem Dev.regsBut_declShown (d : Dev) (p : Nat) (w : Nat → Nat) : d.regsBut (d.declShown p w) (declRegs p) := by
  have hmem : ∀ k < 4, R.HP_DECL p k ∈ declRegs p := fun k hk => List.mem_map.mpr ⟨k, List.mem_range.mpr hk, rfl⟩
  exact ((((Dev.regsBut.refl d _).setNum (hmem 0 (by decide)) _).setNum (hmem 1 (by decide)) _).setNum (hmem 2 (by decide)) _).setNum
    (hmem 3 (by decide)) _

/-- Every register of a declaration holds its two words. -/
theorem Dev.num_declShown (d : Dev) (p : Nat) (w : Nat → Nat) {k : Nat} (hk : k < 4) :
    (d.declShown p w).num (R.HP_DECL p k) = (w (2 * k) + 2 ^ 16 * w (2 * k + 1)) % 2 ^ 32 := by
  have hne : ∀ (e : Dev) (i j : Nat), i < 4 → j < 4 → i ≠ j → ∀ v, (e.setNum (R.HP_DECL p j) v).num (R.HP_DECL p i) = e.num (R.HP_DECL p i) := by
    intro e i j hi hj hij v
    refine congrArg BitVec.toNat ((e.reg_setReg _ _ _).trans (if_neg ?_))
    simp only [R.HP_DECL]
    omega
  obtain rfl | rfl | rfl | rfl : k = 0 ∨ k = 1 ∨ k = 2 ∨ k = 3 := by omega
  · exact (hne _ 0 3 (by decide) (by decide) (by decide) _).trans ((hne _ 0 2 (by decide) (by decide) (by decide) _).trans
      ((hne _ 0 1 (by decide) (by decide) (by decide) _).trans (Dev.num_setNum _ _ _)))
  · exact (hne _ 1 3 (by decide) (by decide) (by decide) _).trans ((hne _ 1 2 (by decide) (by decide) (by decide) _).trans (Dev.num_setNum _ _ _))
  · exact (hne _ 2 3 (by decide) (by decide) (by decide) _).trans (Dev.num_setNum _ _ _)
  · exact Dev.num_setNum _ _ _

theorem Dev.declShown_frame (d : Dev) (p : Nat) (w : Nat → Nat) : d.declShown p w = { d with regs := (d.declShown p w).regs } := rfl

/-- The declaration's registers are no part of a link's state. -/
theorem declReg_notMem (p k : Nat) : R.HP_DECL p k ∉ R.HP_STAT p :: R.HP_EVT :: irqRegs := by
  simp only [R.HP_DECL, R.HP_STAT, irqRegs, R.HP_EVT, R.HST_ISR0, R.HST_ISR1, R.MSIX_PBA, List.mem_cons, List.not_mem_nil, or_false]
  omega

/-- A port whose link is UP with a latency. -/
structure Dev.PortUp (d e : Dev) (p lat : Nat) : Prop where
  state : e.lstate p = 4
  since : (e.hpSt p).since = d.now
  kept : d.PortKept e p
  lat : (e.hpSt p).lat = some lat
  lifted : (e.dom p).unfencing = false
  causes : (e.dom p).causes = (d.dom p).causes

theorem Dev.declUp_up (d : Dev) (p lat : Nat) : 
    d.PortUp (d.declUp p lat) p lat ∧ d.regsBut (d.declUp p lat) (R.HP_STAT p :: R.HP_EVT :: irqRegs) := by
  unfold Dev.declUp
  have hset := d.portKept_setHp p { d.hpSt p with lat := some lat, fails := 0 }
  have hsets : (d.setHp p { d.hpSt p with lat := some lat, fails := 0 }).hpSt p = { d.hpSt p with lat := some lat, fails := 0 } :=
    (d.hpSt_setHp p p _).trans (if_pos rfl)
  have hdoms : (d.setHp p { d.hpSt p with lat := some lat, fails := 0 }).fen = d.fen := rfl
  have hregs : (d.setHp p { d.hpSt p with lat := some lat, fails := 0 }).regs = d.regs := rfl
  generalize d.setHp p { d.hpSt p with lat := some lat, fails := 0 } = e at hset hsets hdoms hregs
  obtain ⟨hl, hstate, -, hkept, hlr⟩ := e.hpLink_shows p (show 4 < 8 by decide)
  have hlf : (e.hpLink p 4).fen = e.fen := by simp
  generalize e.hpLink p 4 = f at hl hstate hkept hlr hlf
  obtain ⟨hun, hcauses, hhp, hjobs, ht, hur⟩ := f.hpUnfenced_lifts p
  generalize f.hpUnfenced p = g at hun hcauses hhp hjobs ht hur
  have hgs : g.hpSt p = f.hpSt p := Dev.hpSt_congr hhp p
  have hnot : R.HP_STAT p ∉ irqRegs := by
    simp only [R.HP_STAT, irqRegs, R.HST_ISR0, R.HST_ISR1, R.MSIX_PBA, List.mem_cons, List.not_mem_nil, or_false]
    omega
  have hsub : irqRegs ⊆ R.HP_STAT p :: R.HP_EVT :: irqRegs := fun _ h => List.mem_cons_of_mem _ (List.mem_cons_of_mem _ h)
  refine ⟨⟨(hur.fld (f := F.HP_STAT_LSTATE p) hnot).trans hstate, ?_, hset.trans (hkept.trans (.of_same hhp hjobs ht)), ?_, hun, ?_⟩, ?_⟩
  · rw [hgs, hl]
    exact hset.now
  · rw [hgs, hl, hsets]
  · rw [hcauses, Dev.dom, hlf, hdoms, Dev.dom]
  · exact (Dev.regsBut.of_regs hregs _).trans (hlr.trans (hur.mono hsub))

/-- A timed-out training state counts a failed attempt. -/
theorem Dev.trainTimedOut_counts (d : Dev) (p : Nat) : ((d.trainTimedOut p).hpSt p).fails = (d.hpSt p).fails + 1 ∧
    (d.fld (F.HP_CFG_RETRY p) ≤ (d.hpSt p).fails + 1 → d.PortFailed (d.trainTimedOut p) p Rsn.hpTrainFail) ∧
    ((d.hpSt p).fails + 1 < d.fld (F.HP_CFG_RETRY p) → d.TrainsAgain (d.trainTimedOut p) p) := by
  unfold Dev.trainTimedOut
  have hset := d.portKept_setHp p { d.hpSt p with fails := (d.hpSt p).fails + 1 }
  have hsets : (d.setHp p { d.hpSt p with fails := (d.hpSt p).fails + 1 }).hpSt p = { d.hpSt p with fails := (d.hpSt p).fails + 1 } :=
    (d.hpSt_setHp p p _).trans (if_pos rfl)
  have hfld : ∀ f, (d.setHp p { d.hpSt p with fails := (d.hpSt p).fails + 1 }).fld f = d.fld f := fun _ => rfl
  have hfen : (d.setHp p { d.hpSt p with fails := (d.hpSt p).fails + 1 }).fen = d.fen := rfl
  generalize d.setHp p { d.hpSt p with fails := (d.hpSt p).fails + 1 } = e at hset hsets hfld hfen
  by_cases hretry : d.fld (F.HP_CFG_RETRY p) ≤ (d.hpSt p).fails + 1
  · rw [if_pos hretry]
    obtain ⟨hf, hfails, -⟩ := e.hpFail_fails p Rsn.hpTrainFail
    have hnow := hset.now
    refine ⟨?_, fun _ => ⟨hf.state, hf.since.trans hnow, hset.trans hf.kept, hf.cause⟩,
      fun h => absurd hretry (by omega)⟩
    rw [hfails, hsets]
  · rw [if_neg hretry]
    obtain ⟨ha, hfails⟩ := e.hpAttempt_trains p
    have hcancel := ha.cancel
    rw [hsets] at hcancel hfails
    refine ⟨hfails, fun h => absurd h hretry, fun _ => ⟨ha.state, ha.since.trans hset.now, hset.trans ha.kept, ?_, ha.lat, hcancel, ha.fen.trans hfen⟩⟩
    rw [ha.count, hfld]

/-- A raised cause of another kind parks no port. -/
theorem Dev.contains_causes_raiseCause {d : Dev} {p : Nat} (hp : p < 16) {r x : Reason} (hne : x ≠ r)
    (h : (d.dom p).causes.contains x = false) : ((d.raiseCause p r).dom p).causes.contains x = false := by
  have hone : d.raiseCause p r = d.raiseOne p r := if_neg (fun h => by omega)
  have hnot : x ∉ (d.dom p).causes := fun hx => by simp [hx] at h
  rw [hone]
  cases hc : ((d.raiseOne p r).dom p).causes.contains x with
  | false => rfl
  | true =>
    rcases (d.mem_causes_raiseOne p p r x).1 (List.contains_iff_mem.mp hc) with hx | ⟨-, hx⟩
    · exact absurd hx hnot
    · exact absurd hx hne

theorem hpCfg_notMem_irqRegs (p : Nat) : R.HP_CFG p ∉ irqRegs := by
  simp only [R.HP_CFG, irqRegs, R.HST_ISR0, R.HST_ISR1, R.MSIX_PBA, List.mem_cons, List.not_mem_nil, or_false]
  omega

theorem Dev.hpFramed_of_regsBut {d e : Dev} {p : Nat} (h : d.regsBut e irqRegs) : e.hpFramed p = d.hpFramed p := by
  unfold Dev.hpFramed Dev.hpEnabled
  rw [h.fld (f := F.SUP_RCODE_HPSET) (by decide), h.fld (f := F.HP_CFG_MODE p) (hpCfg_notMem_irqRegs p)]

/-- Training leaves the other ports and the fate of every job. -/
theorem Dev.portKept_hpTrain (d : Dev) (p : Nat) : d.PortKept (d.hpTrain p) p := by
  unfold Dev.hpTrain
  split
  · exact (d.portKept_setHp p { d.hpSt p with fails := 0 }).trans ((d.setHp p { d.hpSt p with fails := 0 }).hpAttempt_trains p).1.kept
  · exact .refl d p

/-- A lost link is fenced and goes to FAULT, or trains again. -/
theorem Dev.linkLost_fences (d : Dev) {p : Nat} (hp : p < 16) : Rsn.hpLinkLoss ∈ ((d.linkLost p).dom p).causes ∧ d.PortKept (d.linkLost p) p ∧
    (d.flag (F.HP_CFG_AUTOTRAIN p) = false → (d.linkLost p).lstate p = 7) ∧
    (d.flag (F.HP_CFG_AUTOTRAIN p) = true → d.hpFramed p = true → (d.dom p).causes.contains Rsn.domainParked = false →
      (d.linkLost p).lstate p = 1) := by
  unfold Dev.linkLost
  have hcause := d.mem_causes_raiseCause (domHp p) Rsn.hpLinkLoss
  have hkept := d.portKept_raiseCause (domHp p) p Rsn.hpLinkLoss
  have hregs := d.regsBut_raiseCause (domHp p) Rsn.hpLinkLoss
  have hpark : (d.dom p).causes.contains Rsn.domainParked = false →
      ((d.raiseCause (domHp p) Rsn.hpLinkLoss).dom p).causes.contains Rsn.domainParked = false :=
    Dev.contains_causes_raiseCause hp (by decide)
  generalize d.raiseCause (domHp p) Rsn.hpLinkLoss = e at hcause hkept hregs hpark
  have hauto : e.flag (F.HP_CFG_AUTOTRAIN p) = d.flag (F.HP_CFG_AUTOTRAIN p) := hregs.flag (hpCfg_notMem_irqRegs p)
  have hframed : e.hpFramed p = d.hpFramed p := Dev.hpFramed_of_regsBut hregs
  rw [hauto]
  cases ha : d.flag (F.HP_CFG_AUTOTRAIN p) with
  | true =>
    rw [if_pos rfl]
    have hfen : (e.hpTrain p).fen = e.fen := by simp
    refine ⟨?_, hkept.trans (e.portKept_hpTrain p), fun h => absurd h (by decide), fun _ hf hp => ?_⟩
    · rw [Dev.dom, hfen]
      exact hcause
    · exact (Dev.hpTrain_trains (hframed.trans hf) (hpark hp)).1.state
  | false =>
    rw [if_neg (by decide)]
    have hcut := e.portKept_hpCut p (some Rsn.partHeadlink)
    have hcf : (e.hpCut p (some Rsn.partHeadlink)).fen = e.fen := rfl
    generalize e.hpCut p (some Rsn.partHeadlink) = f at hcut hcf
    obtain ⟨-, hstate, -, hlk, -⟩ := f.hpLink_shows p (show 7 < 8 by decide)
    have hfen : (f.hpLink p 7).fen = e.fen := (by simp : (f.hpLink p 7).fen = f.fen).trans hcf
    refine ⟨?_, hkept.trans (hcut.trans hlk), fun _ => hstate, fun h => absurd h (by decide)⟩
    rw [Dev.dom, hfen]
    exact hcause

/-- What a port expects is no part of a declaration. -/
theorem Dev.expects_declShown (d : Dev) (p : Nat) (w v : Nat → Nat) :
    (d.declShown p w).declFits p v = d.declFits p v ∧ (d.declShown p w).fld (F.HP_LATMAX_NS p) = d.fld (F.HP_LATMAX_NS p) := by
  have hregs := d.regsBut_declShown p w
  have hx0 : R.HP_EXPECT0 p ∉ declRegs p := by
    simp only [declRegs, R.HP_EXPECT0, R.HP_DECL, List.mem_map, List.mem_range, not_exists, not_and]
    omega
  have hx1 : R.HP_EXPECT1 p ∉ declRegs p := by
    simp only [declRegs, R.HP_EXPECT1, R.HP_DECL, List.mem_map, List.mem_range, not_exists, not_and]
    omega
  have hlm : R.HP_LATMAX p ∉ declRegs p := by
    simp only [declRegs, R.HP_LATMAX, R.HP_DECL, List.mem_map, List.mem_range, not_exists, not_and]
    omega
  refine ⟨?_, hregs.fld (f := F.HP_LATMAX_NS p) hlm⟩
  unfold Dev.declFits
  rw [hregs.fld (f := F.HP_EXPECT0_VENDOR p) hx0, hregs.fld (f := F.HP_EXPECT0_PRODUCT p) hx0, hregs.fld (f := F.HP_EXPECT1_MINCH p) hx1,
    hregs.fld (f := F.HP_EXPECT1_MAXCOL p) hx1]

/-- A declaration is shown, and then taken. -/
theorem Dev.declTaken_leads (d : Dev) (p : Nat) (w : Nat → Nat) :
    (∀ k < 4, ((d.declShown p w).declTaken p w).num (R.HP_DECL p k) = (w (2 * k) + 2 ^ 16 * w (2 * k + 1)) % 2 ^ 32) ∧
    (d.declFits p w = true → 480 ≤ w 2 ∧ w 2 ≤ d.fld (F.HP_LATMAX_NS p) → d.PortUp ((d.declShown p w).declTaken p w) p (w 2)) ∧
    (d.declFits p w = false → d.PortFailed ((d.declShown p w).declTaken p w) p Rsn.hpDeclMismatch) ∧
    (d.declFits p w = true → ¬(480 ≤ w 2 ∧ w 2 ≤ d.fld (F.HP_LATMAX_NS p)) →
      d.PortFailed ((d.declShown p w).declTaken p w) p Rsn.hpLatRange) := by
  obtain ⟨hfits, hlat⟩ := d.expects_declShown p w w
  have hkept : d.PortKept (d.declShown p w) p := .of_same rfl rfl rfl
  have hdom : (d.declShown p w).dom p = d.dom p := rfl
  have hnum : ∀ k < 4, (d.declShown p w).num (R.HP_DECL p k) = _ := fun k hk => d.num_declShown p w hk
  unfold Dev.declTaken
  rw [hfits, hlat]
  generalize d.declShown p w = e at hkept hdom hnum
  have hfailed : ∀ r, e.PortFailed (e.hpFail p r) p r → d.PortFailed (e.hpFail p r) p r := fun r hf =>
    ⟨hf.state, hf.since.trans hkept.now, hkept.trans hf.kept, hf.cause⟩
  cases hok : d.declFits p w with
  | false =>
    obtain ⟨hf, -, hr⟩ := e.hpFail_fails p Rsn.hpDeclMismatch
    rw [if_pos (by decide)]
    exact ⟨fun k hk => (hr.num (declReg_notMem p k)).trans (hnum k hk), fun h => absurd h (by decide), fun _ => hfailed _ hf,
      fun h => absurd h (by decide)⟩
  | true =>
    rw [if_neg (by decide)]
    by_cases hnear : w 2 < 480 ∨ d.fld (F.HP_LATMAX_NS p) < w 2
    · obtain ⟨hf, -, hr⟩ := e.hpFail_fails p Rsn.hpLatRange
      rw [if_pos hnear]
      exact ⟨fun k hk => (hr.num (declReg_notMem p k)).trans (hnum k hk), fun _ h => absurd hnear (by omega), fun h => absurd h (by decide),
        fun _ _ => hfailed _ hf⟩
    · obtain ⟨hu, hr⟩ := e.declUp_up p (w 2)
      rw [if_neg hnear]
      exact ⟨fun k hk => (hr.num (declReg_notMem p k)).trans (hnum k hk),
        fun _ _ => ⟨hu.state, hu.since.trans hkept.now, hkept.trans hu.kept, hu.lat, hu.lifted, hu.causes.trans (by rw [hdom])⟩,
        fun h => absurd h (by decide), fun _ h => absurd hnear (by omega)⟩

/-- The conditions of a declaration, one by one. -/
theorem Dev.declFits_iff (d : Dev) (p : Nat) (w : Nat → Nat) : d.declFits p w = true ↔
    (d.fld (F.HP_EXPECT0_VENDOR p) = 0 ∨ d.fld (F.HP_EXPECT0_VENDOR p) = w 0) ∧
      (d.fld (F.HP_EXPECT0_PRODUCT p) = 0 ∨ d.fld (F.HP_EXPECT0_PRODUCT p) = w 1) ∧
      d.fld (F.HP_EXPECT1_MINCH p) ≤ w 3 % 512 ∧ w 3 % 512 ≤ 256 ∧ d.fld (F.HP_EXPECT1_MAXCOL p) ≤ w 5 ∧ w 7 % 256 = 1 := by
  unfold Dev.declFits
  simp only [Bool.and_eq_true, Bool.or_eq_true, beq_iff_eq, decide_eq_true_iff, and_assoc]

/-- A command of a port whose guard holds. -/
theorem next_of_guard {s : State} {c : Bool} (f : Dev → Dev) (h : c = true) :
    (Host.Outcome.next { s with dev := if c then f s.dev else s.dev } : Host.Outcome State Fault Refusal) = .next { s with dev := f s.dev } := by
  rw [h, if_pos rfl]

/-- A command of a port whose guard fails changes nothing. -/
theorem next_of_no_guard {s : State} {c : Bool} (f : Dev → Dev) (h : c = false) :
    (Host.Outcome.next { s with dev := if c then f s.dev else s.dev } : Host.Outcome State Fault Refusal) = .next s := by
  rw [h, if_neg (by decide)]

/-- The guard of a link state fails off it. -/
theorem linkGuard_false {framed : Bool} {l n : Nat} (h : framed = false ∨ l ≠ n) : (framed && l == n) = false := by
  rcases h with h | h
  · simp [h]
  · simp [h]

/-- A step to the next link state. -/
theorem Dev.hpLink_moves {d : Dev} {p n : Nat} (hn : n < 8) (hne : d.lstate p ≠ n) :
    ((d.hpLink p n).lstate p = n ∧ ((d.hpLink p n).hpSt p).since = d.now ∧ d.PortKept (d.hpLink p n) p) ∧
      bitOf ((d.hpLink p n).reg R.HST_ISR0) 16 = true ∧ d.regsBut (d.hpLink p n) (R.HP_STAT p :: R.HP_EVT :: irqRegs) ∧
      d.hpLink p n = { d with regs := (d.hpLink p n).regs, hp := (d.hpLink p n).hp, out := (d.hpLink p n).out } := by
  obtain ⟨hl, hstate, -, hkept, hregs⟩ := d.hpLink_shows p hn
  refine ⟨⟨hstate, ?_, hkept⟩, Dev.isr_hpLink hne, hregs, d.hpLink_frame p n⟩
  rw [hl]

/-- Settles O48: the states of a head link, each step from the state before. -/
theorem headLinksTrain : Obligations.HeadLinksTrain := by
  unfold Obligations.HeadLinksTrain
  intro s p l h framed parked others moved fault again
  have hmoved : ∀ (e : Dev) (n : Nat), e.lstate p = n → (e.hpSt p).since = s.dev.now → s.dev.PortKept e p → moved { s with dev := e } n :=
    fun e n hst hsi hk => ⟨hst, hsi, hk.others, hk.jobs⟩
  have hagain : ∀ e : Dev, s.dev.TrainsAgain e p → again { s with dev := e } :=
    fun e ht => ⟨hmoved e 1 ht.state ht.since ht.kept, ht.count, ht.lat, ht.cancel⟩
  have hfault : ∀ (e : Dev) (r : Reason), s.dev.PortFailed e p r → fault { s with dev := e } r :=
    fun e r hf => ⟨hmoved e 7 hf.state hf.since hf.kept, hf.cause⟩
  have hstep : ∀ m n : Nat, n < 8 → m ≠ n → l = m → ∃ t, (Host.Outcome.next { s with dev := s.dev.hpLink p.val n } : Host.Outcome State Fault Refusal) =
      .next t ∧ moved t n ∧ bitOf (t.dev.reg R.HST_ISR0) 16 = true ∧ s.dev.regsBut t.dev (R.HP_STAT p.val :: R.HP_EVT :: irqRegs) ∧
      t = { s with dev := { s.dev with regs := t.dev.regs, hp := t.dev.hp, out := t.dev.out } } := by
    intro m n hn hmn hl
    obtain ⟨⟨hst, hsi, hk⟩, hirq, hregs, hframe⟩ := Dev.hpLink_moves (d := s.dev) (p := p.val) hn (show l ≠ n by omega)
    generalize s.dev.hpLink p.val n = e at hst hsi hk hirq hregs hframe
    exact ⟨_, rfl, hmoved e n hst hsi hk, hirq, hregs, congrArg (fun d : Dev => { s with dev := d }) hframe⟩
  have hguard : ∀ n, framed = true → l = n → (framed && l == n) = true := fun n hf hl => by rw [hf, hl, beq_self_eq_true]; rfl
  refine ⟨fun hf hl => ?_, fun hn => ?_, fun hf hl => ?_, fun hn => ?_, ?_, ?_, ?_, ?_, ?_, ?_, ?_, ?_⟩
  · rw [exec_headLockPattern]
    exact (next_of_guard (fun d => d.hpLink p.val 2) (hguard 1 hf hl)) ▸ hstep 1 2 (by decide) (by decide) hl
  · exact next_of_no_guard (fun d => d.hpLink p.val 2) (linkGuard_false hn)
  · rw [exec_headAlignDone]
    exact (next_of_guard (fun d => d.hpLink p.val 3) (hguard 2 hf hl)) ▸ hstep 2 3 (by decide) (by decide) hl
  · exact next_of_no_guard (fun d => d.hpLink p.val 3) (linkGuard_false hn)
  · intro ws w fits near
    refine ⟨fun hn => ?_, fun hf hl => ?_⟩
    · rw [exec_headDeclaration]
      refine congrArg (fun d : Dev => Host.Outcome.next { s with dev := d }) (if_pos ?_)
      exact congrArg (!·) (linkGuard_false hn)
    · have hexec : exec (.headDeclaration p ws) s = .next { s with dev := (s.dev.declShown p.val (declWord ws)).declTaken p.val (declWord ws) } := by
        rw [exec_headDeclaration]
        refine congrArg (fun d : Dev => Host.Outcome.next { s with dev := d }) (if_neg fun hx => ?_)
        exact absurd (hx.symm.trans (congrArg (!·) (hguard 3 hf hl))) (by decide)
      have hiff := s.dev.declFits_iff p.val (declWord ws)
      obtain ⟨hnum, hup, hmis, hrange⟩ := s.dev.declTaken_leads p.val (declWord ws)
      generalize (s.dev.declShown p.val (declWord ws)).declTaken p.val (declWord ws) = e at hexec hnum hup hmis hrange
      refine ⟨_, hexec, fun k hk => (hnum k hk).trans ?_, fun h hn => ?_, fun h => ?_, fun h hn => ?_⟩
      · have h1 := (ws.getD (2 * k) 0).isLt
        have h2 := (ws.getD (2 * k + 1) 0).isLt
        exact Nat.mod_eq_of_lt (by simp only [declWord]; omega)
      · have hu := hup (hiff.2 h) hn
        exact ⟨hmoved e 4 hu.state hu.since hu.kept, hu.lat, hu.lifted, hu.causes⟩
      · exact hfault e _ (hmis (Bool.eq_false_iff.mpr fun hx => h (hiff.1 hx)))
      · exact hfault e _ (hrange (hiff.2 h) hn)
  · intro hf h1 h3 ht
    have hexec : exec (.headTrainTimeout p) s = .next { s with dev := s.dev.trainTimedOut p.val } := by
      rw [exec_headTrainTimeout]
      refine next_of_guard (fun d => d.trainTimedOut p.val) ?_
      have hl : (l == 1 || l == 2 || l == 3) = true := by
        simp only [Bool.or_eq_true, beq_iff_eq]
        omega
      exact Bool.and_eq_true_iff.mpr ⟨Bool.and_eq_true_iff.mpr ⟨hf, hl⟩, decide_eq_true ht⟩
    obtain ⟨hfails, hfail, hag⟩ := s.dev.trainTimedOut_counts p.val
    generalize s.dev.trainTimedOut p.val = e at hexec hfails hfail hag
    exact ⟨_, hexec, hfails, fun h => hfault e _ (hfail h), fun h => hagain e (hag h)⟩
  · intro hn
    rw [exec_headTrainTimeout]
    refine next_of_no_guard (fun d => d.trainTimedOut p.val) ?_
    refine Bool.eq_false_iff.mpr fun hx => ?_
    obtain ⟨hx, ht⟩ := Bool.and_eq_true_iff.mp hx
    obtain ⟨hf, hl⟩ := Bool.and_eq_true_iff.mp hx
    have ht : h.since + (if l = 1 then 4096 else 512) ≤ s.dev.now := of_decide_eq_true ht
    have hl : l = 1 ∨ l = 2 ∨ l = 3 := by simpa only [Bool.or_eq_true, beq_iff_eq, or_assoc] using hl
    rcases hn with hn | hn | hn | hn
    · exact absurd (hn.symm.trans hf) (by decide)
    · omega
    · omega
    · omega
  · intro ha hl ht hf hp
    have hexec : exec (.headAutotrain p) s = .next { s with dev := s.dev.hpTrain p.val } := by
      rw [exec_headAutotrain]
      exact next_of_guard (fun d => d.hpTrain p.val) (Bool.and_eq_true_iff.mpr ⟨Bool.and_eq_true_iff.mpr ⟨ha, beq_iff_eq.mpr hl⟩, decide_eq_true ht⟩)
    obtain ⟨hag, hfails⟩ := Dev.hpTrain_trains (d := s.dev) (p := p.val) hf hp
    generalize s.dev.hpTrain p.val = e at hexec hag hfails
    exact ⟨_, hexec, hagain e hag, hfails⟩
  · intro hn
    rw [exec_headAutotrain]
    refine next_of_no_guard (fun d => d.hpTrain p.val) (Bool.eq_false_iff.mpr fun hx => ?_)
    obtain ⟨hx, ht⟩ := Bool.and_eq_true_iff.mp hx
    obtain ⟨ha, hl⟩ := Bool.and_eq_true_iff.mp hx
    rcases hn with hn | hn | hn
    · exact absurd (hn.symm.trans ha) (by decide)
    · exact hn (beq_iff_eq.mp hl)
    · exact absurd (of_decide_eq_true ht) (Nat.not_le.mpr hn)
  · intro hf hl
    have hexec : exec (.headLinkLoss p) s = .next { s with dev := s.dev.linkLost p.val } := by
      rw [exec_headLinkLoss]
      exact next_of_guard (fun d => d.linkLost p.val) (hguard 4 hf hl)
    obtain ⟨hc, hk, hfault7, htrain⟩ := s.dev.linkLost_fences p.isLt
    generalize s.dev.linkLost p.val = e at hexec hc hk hfault7 htrain
    exact ⟨_, hexec, hc, ⟨hk.others, hk.jobs⟩, hfault7, fun ha hp => htrain ha hf hp⟩
  · intro hn
    exact next_of_no_guard (fun d => d.linkLost p.val) (linkGuard_false hn)
  · intro port hg
    have hexec : exec (.hpRetrain port p) s = .next { s with dev := s.dev.hpTrain p.val } := by
      rw [exec_hpRetrain]
      exact congrArg (fun d : Dev => Host.Outcome.next { s with dev := d }) (Dev.viaPort_of_pass hg fun d => d.hpTrain p.val)
    refine ⟨fun hf hp => ?_, fun hn => ?_⟩
    · obtain ⟨hag, hfails⟩ := Dev.hpTrain_trains (d := s.dev) (p := p.val) hf hp
      generalize s.dev.hpTrain p.val = e at hexec hag hfails
      exact ⟨_, hexec, hagain e hag, hfails⟩
    · rw [hexec]
      refine congrArg (fun d : Dev => Host.Outcome.next { s with dev := d }) (if_neg fun hx => ?_)
      obtain ⟨hf, hp⟩ := Bool.and_eq_true_iff.mp hx
      rcases hn with hn | hn
      · exact absurd (hn.symm.trans hf) (by decide)
      · exact absurd (hp.symm.trans (congrArg (!·) hn)) (by decide)

end Sys2Proof.Machine
end

section

/-!
PROOF. Head frames, their reports, and partner commands (12_head_ports.md R572 to R577, R586 to R593, R606 to R613; 13_tinker_engines.md
R646).
-/

namespace Sys2Proof.Machine
open Sys2Proof

/-! ## Frames that leave -/

/-- A frame marked as sent. -/
def HpSt.frameSent (h : HpSt) (b : Nat) : HpSt := { h with frames := h.frames.map (fun x => if x.bn = b then { x with sent := true } else x) }

/-- The oldest waiting frame of a port leaves. -/
def Dev.frameLeaves (d : Dev) (p : Nat) (f : FrameSt) : Dev :=
  (d.setHp p ((d.hpSt p).frameSent f.bn)).emit (.frame p (d.hpSendNs p f.bn) f.bytes)

/-- The send of the oldest waiting frame, where there is one. -/
def Dev.frameSend (d : Dev) (p : Nat) (o : Option FrameSt) : Dev :=
  match o with
  | some f => if d.hpSends p && decide (d.hpSendNs p f.bn / 480 ≤ d.now) then d.frameLeaves p f else d
  | none => d

theorem exec_headFrameSend (p : Fin 16) (s : State) : exec (.headFrameSend p) s =
    .next (s.onDev fun d => d.frameSend p.val ((d.hpSt p.val).frames.find? (fun f => !f.sent))) := rfl

theorem Dev.frameSend_of_due {d : Dev} {p : Nat} {f : FrameSt} (hs : d.hpSends p = true) (hd : d.hpSendNs p f.bn / 480 ≤ d.now) :
    d.frameSend p (some f) = d.frameLeaves p f := if_pos (Bool.and_eq_true_iff.mpr ⟨hs, decide_eq_true hd⟩)

/-- What the send leaves alone. -/
theorem Dev.frameSend_of_none {d : Dev} {p : Nat} (h : d.hpSends p = false ∨ (∀ f ∈ (d.hpSt p).frames, f.sent = true) ∨
    (∃ f, (d.hpSt p).frames.find? (fun f => !f.sent) = some f ∧ d.now < d.hpSendNs p f.bn / 480)) :
    d.frameSend p ((d.hpSt p).frames.find? (fun f => !f.sent)) = d := by
  cases hf : (d.hpSt p).frames.find? (fun f => !f.sent) with
  | none => rfl
  | some f =>
    refine if_neg fun hx => ?_
    obtain ⟨hs, hd⟩ := Bool.and_eq_true_iff.mp hx
    rcases h with h | h | ⟨g, hg, hlt⟩
    · exact absurd (h.symm.trans hs) (by decide)
    · have hsent := List.find?_some hf
      rw [h f (List.mem_of_find?_eq_some hf)] at hsent
      exact absurd hsent (by decide)
    · obtain rfl : f = g := Option.some.inj (hf.symm.trans hg)
      exact absurd (of_decide_eq_true hd) (Nat.not_le.mpr hlt)

theorem Dev.hpSendNs_eq (d : Dev) (p b : Nat) : d.hpSendNs p b = b * 480 - ((d.hpSt p).lat.getD (d.fld (F.HP_LATMAX_NS p)) +
    (d.fld (F.HP_CABLE_CABLE p) + 127) / 128) := rfl

/-! ## Columns -/

theorem Dev.jobsFrame_settle (d : Dev) (h : Nat) : d.JobsFrame (d.settle h) := by
  rcases d.settle_cases h with he | ⟨o, he⟩
  · rw [he]; exact .refl d
  · rw [he]; exact d.jobsFrame_endJob h o

/-- A job once the report of one of its columns is decided. -/
def Job.columnDecided (j : Job) (b : Nat) (placed : Bool) : Job :=
  { j with colsOpen := j.colsOpen - 1, colsFired := if placed then j.colsFired + 1 else j.colsFired,
           lastBn := if placed then max j.lastBn b else j.lastBn,
           st := if placed && j.st == .bound then .striking else j.st,
           flaw := if placed then j.flaw else some (j.flaw.getD Rsn.partHeadlink) }

theorem Dev.hpColumn_eq (d : Dev) (hm b : Nat) (placed : Bool) :
    d.hpColumn hm b placed = (d.modJob hm (fun j => j.columnDecided b placed)).settle hm := rfl

theorem Dev.jobsFrame_hpColumn (d : Dev) (hm b : Nat) (placed : Bool) : d.JobsFrame (d.hpColumn hm b placed) :=
  (Dev.JobsFrame.modJob d hm _).trans (Dev.jobsFrame_settle _ hm)

/-- The column is placed: R590, R592. -/
def Dev.ColumnPlaced (d e : Dev) (hm b : Nat) : Prop := ∀ j, d.job? hm = some j → j.flaw = none → ∃ k, e.job? hm = some k ∧
  k.colsFired = j.colsFired + 1 ∧ k.colsOpen = j.colsOpen - 1 ∧ k.lastBn = max j.lastBn b ∧ k.out = j.out ∧
  k.st = (if j.st = .bound then .striking else j.st)

theorem Dev.hpColumn_places (d : Dev) (hm b : Nat) : d.ColumnPlaced (d.hpColumn hm b true) hm b := by
  intro j hj hflaw
  have hk : (d.modJob hm (fun j => j.columnDecided b true)).job? hm = some (j.columnDecided b true) :=
    Dev.job?_modJob (f := fun j => j.columnDecided b true) hj fun _ => rfl
  have hset : d.hpColumn hm b true = d.modJob hm (fun j => j.columnDecided b true) := by
    rw [Dev.hpColumn_eq]
    refine Dev.settle_of_noFlaw fun k hk' => ?_
    obtain rfl : _ = k := Option.some.inj (hk.symm.trans hk')
    exact hflaw
  rw [hset]
  refine ⟨_, hk, rfl, rfl, rfl, rfl, ?_⟩
  show (if true && j.st == .bound then JState.striking else j.st) = _
  rw [Bool.true_and]
  cases j.st <;> rfl

/-! ## Reports -/

/-- What follows a report leaves the jobs, the other ports, the frames of its own and the count of frames. -/
structure Dev.ReportKept (d e : Dev) (p : Nat) : Prop where
  jobs : e.jobs = d.jobs
  others : ∀ k, k ≠ p → e.hpSt k = d.hpSt k
  frames : (e.hpSt p).frames = (d.hpSt p).frames
  fire : e.reg (R.HP_FIRECNT p) = d.reg (R.HP_FIRECNT p)

namespace Dev.ReportKept
variable {d e f : Dev} {p : Nat}

theorem of_hp (hj : e.jobs = d.jobs) (hhp : e.hp = d.hp) (hr : e.reg (R.HP_FIRECNT p) = d.reg (R.HP_FIRECNT p)) : d.ReportKept e p :=
  ⟨hj, fun k _ => Dev.hpSt_congr hhp k, by rw [Dev.hpSt_congr hhp p], hr⟩

theorem refl (d : Dev) (p : Nat) : d.ReportKept d p := of_hp rfl rfl rfl

theorem trans (h : d.ReportKept e p) (g : e.ReportKept f p) : d.ReportKept f p :=
  ⟨g.jobs.trans h.jobs, fun k hk => (g.others k hk).trans (h.others k hk), g.frames.trans h.frames, g.fire.trans h.fire⟩

end Dev.ReportKept

theorem hpFirecnt_notMem_irqRegs (p : Nat) : R.HP_FIRECNT p ∉ irqRegs := by
  simp only [R.HP_FIRECNT, irqRegs, R.HST_ISR0, R.HST_ISR1, R.MSIX_PBA, List.mem_cons, List.not_mem_nil, or_false]
  omega

theorem Dev.reportKept_raiseCause (d : Dev) (p k : Nat) (r : Reason) : d.ReportKept (d.raiseCause k r) p :=
  .of_hp (by simp) (by simp) (d.regsBut_raiseCause k r _ (hpFirecnt_notMem_irqRegs p))

theorem Dev.reportKept_rxReply (d : Dev) (p n : Nat) (w : Word) : d.ReportKept (d.rxReply n w) p := by
  unfold Dev.rxReply Dev.rxPush
  dsimp only
  cases (d.eng n).rx.push (d.rxCap n) d.cyc w with
  | none => exact d.reportKept_raiseCause p _ _
  | some q => exact .of_hp rfl rfl rfl

theorem Dev.reportKept_setReg (d : Dev) {p a : Nat} (ha : R.HP_FIRECNT p ≠ a) (w : Word) : d.ReportKept (d.setReg a w) p :=
  .of_hp rfl rfl ((d.reg_setReg a _ w).trans (if_neg ha))

/-- The word that HP_CRESP takes at the end of a command. -/
def respWord (c : HpCmd) (data cstat : Nat) : Word := BitVec.ofNat 32 (data % 2 ^ 16 + c.cseq % 16 * 2 ^ 16 + cstat * 2 ^ 20)

/-- A port with no outstanding command. -/
def HpSt.idle (h : HpSt) : HpSt := { h with cmd := none, cancel := false, byEng := none }

/-- A port's command ended, with its word. -/
def Dev.cmdEnded (d : Dev) (p : Nat) (w : Word) : Dev := (d.setReg (R.HP_CRESP p) w).setHp p (d.hpSt p).idle

/-- The reply word of an engine's command. -/
def Dev.engReply (d : Dev) (o : Option Nat) (w : Word) : Dev :=
  match o with
  | some n => if d.fenced (domTe n) then d else d.rxReply n w
  | none => d

/-- The end of the outstanding command, where there is one. -/
def Dev.cmdEnd (d : Dev) (p data cstat : Nat) (o : Option HpCmd) : Dev :=
  match o with
  | none => d
  | some c => (d.cmdEnded p (respWord c data cstat)).engReply (d.hpSt p).byEng (respWord c data cstat)

theorem Dev.hpEnd_eq (d : Dev) (p data cstat : Nat) : d.hpEnd p data cstat = d.cmdEnd p data cstat (d.hpSt p).cmd := rfl

theorem Dev.reportKept_cmdEnded (d : Dev) (p : Nat) (w : Word) : d.ReportKept (d.cmdEnded p w) p := by
  have hreg : d.ReportKept (d.setReg (R.HP_CRESP p) w) p :=
    d.reportKept_setReg (by simp only [R.HP_FIRECNT, R.HP_CRESP]; omega) w
  refine hreg.trans ⟨rfl, fun k hk => (Dev.hpSt_setHp _ p k _).trans (if_neg hk), ?_, rfl⟩
  rw [Dev.cmdEnded, Dev.hpSt_setHp, if_pos rfl]
  rfl

theorem Dev.reportKept_engReply (d : Dev) (p : Nat) (o : Option Nat) (w : Word) : d.ReportKept (d.engReply o w) p := by
  unfold Dev.engReply
  cases o with
  | none => exact .refl d p
  | some n =>
    dsimp only
    split
    · exact .refl d p
    · exact d.reportKept_rxReply p n w

/-- The end of a command keeps the frames of its port. -/
theorem Dev.reportKept_hpEnd (d : Dev) (p data cstat : Nat) : d.ReportKept (d.hpEnd p data cstat) p := by
  rw [Dev.hpEnd_eq]
  cases (d.hpSt p).cmd with
  | none => exact .refl d p
  | some c => exact (d.reportKept_cmdEnded p _).trans (Dev.reportKept_engReply _ p _ _)

/-! ## Status frames -/

/-- Byte k of a status frame. -/
def statusByte (bs : List Byte) (k : Nat) : Nat := (bs.getD k 0).toNat

/-- The word of the last report. -/
def reportWord (bs : List Byte) : Word :=
  BitVec.ofNat 32 (statusByte bs 2 + 256 * statusByte bs 3 + statusByte bs 4 % 16 * 2 ^ 16 + statusByte bs 9 * 2 ^ 24)

/-- The frame that a report speaks of. -/
def Dev.reportOf (d : Dev) (p : Nat) (bs : List Byte) : Option FrameSt :=
  (d.hpSt p).frames.find? (fun f => f.bn % 65536 == statusByte bs 2 + 256 * statusByte bs 3 && decide (f.bn ≤ d.now) && decide (d.now ≤ f.bn + 3) && f.sent)

theorem Dev.reportOf_congr {d e : Dev} (hhp : e.hp = d.hp) (ht : e.t = d.t) (p : Nat) (bs : List Byte) : e.reportOf p bs = d.reportOf p bs := by
  unfold Dev.reportOf Dev.now
  rw [Dev.hpSt_congr hhp, ht]

/-- A report that fits no open frame. -/
def Dev.reportDiscarded (d : Dev) (p : Nat) : Dev := (d.addSat (F.HP_ERRCNT_DISCARDED p) 1).hpError p

/-- A report taken. -/
def Dev.reportTaken (d : Dev) (p fres : Nat) (o : Option FrameSt) : Dev :=
  match o with
  | some f => if f.reported then d.reportDiscarded p else d.hpReport p f fres
  | none => d.reportDiscarded p

/-- The event of a status frame. -/
def Dev.statusEvent (d : Dev) (p : Nat) (on : Bool) : Dev :=
  if on then d.setReg R.HP_EVT (putBit (d.reg R.HP_EVT) (16 + p) true) else d

/-- The reply in a status frame. -/
def Dev.statusReply (d : Dev) (p : Nat) (bs : List Byte) (o : Option HpCmd) : Dev :=
  match o with
  | some c => if ((bs.getD 1 0).toNat).testBit 7 && c.bn.isSome && decide (statusByte bs 6 % 16 = c.cseq) then
      d.hpEnd p (statusByte bs 7 + 256 * statusByte bs 8) (statusByte bs 6 / 16) else d
  | none => d

/-- The partner's fault in a status frame. -/
def Dev.statusFault (d : Dev) (p : Nat) (on : Bool) : Dev := if on then d.raiseCause (domHp p) Rsn.hpPartnerFault else d

/-- What a status frame brings after its report: an event, a reply, and a fault of the partner. -/
def Dev.statusRest (d : Dev) (p : Nat) (bs : List Byte) : Dev :=
  ((d.statusEvent p ((statusByte bs 1).testBit 5)).statusReply p bs ((d.statusEvent p ((statusByte bs 1).testBit 5)).hpSt p).cmd).statusFault p
    ((statusByte bs 1).testBit 4)

/-- The report of a status frame. -/
def Dev.statusReport (d : Dev) (p : Nat) (bs : List Byte) : Dev := d.reportTaken p (statusByte bs 4 % 16) (d.reportOf p bs)

/-- A status frame of this incarnation with a good CRC. -/
def Dev.statusGood (d : Dev) (p : Nat) (bs : List Byte) : Dev :=
  ((d.setReg (R.HP_LASTRPT p) (reportWord bs)).statusReport p bs).statusRest p bs

theorem Dev.hpStatus_eq (d : Dev) (p : Nat) (bs : List Byte) : d.hpStatus p bs =
    if crc16 ((bs.drop 1).take 9) ≠ BitVec.ofNat 16 (statusByte bs 10 + 256 * statusByte bs 11) then (d.addSat (F.HP_ERRCNT_CRC16 p) 1).hpError p
    else if statusByte bs 5 ≠ (d.dom (domHp p)).inc then (d.addSat (F.HP_ERRCNT_DISCARDED p) 1).addSat F.FEN_STALECNT_MESSAGES 1
    else d.statusGood p bs := rfl

theorem exec_headStatusFrame (p : Fin 16) (bs : List Byte) (s : State) : exec (.headStatusFrame p bs) s =
    .next (s.onDev fun d => if d.hpSends p.val && d.lstate p.val == 4 then d.hpStatus p.val bs else d) := rfl

theorem Dev.reportKept_statusRest (d : Dev) (p : Nat) (bs : List Byte) : d.ReportKept (d.statusRest p bs) p := by
  unfold Dev.statusRest
  generalize (statusByte bs 1).testBit 5 = e1
  generalize (statusByte bs 1).testBit 4 = e2
  have hev : d.ReportKept (d.statusEvent p e1) p := by
    unfold Dev.statusEvent
    split
    · exact d.reportKept_setReg (by simp only [R.HP_FIRECNT, R.HP_EVT]; omega) _
    · exact .refl d p
  refine hev.trans ?_
  generalize d.statusEvent p e1 = e
  have hrep : e.ReportKept (e.statusReply p bs (e.hpSt p).cmd) p := by
    unfold Dev.statusReply
    cases (e.hpSt p).cmd with
    | none => exact .refl e p
    | some c =>
      dsimp only
      split
      · exact e.reportKept_hpEnd p _ _
      · exact .refl e p
  refine hrep.trans ?_
  generalize e.statusReply p bs (e.hpSt p).cmd = f
  unfold Dev.statusFault
  split
  · exact f.reportKept_raiseCause p _ _
  · exact .refl f p

/-- An error event counts one. -/
theorem Dev.hpError_counts (d : Dev) (p : Nat) : ((d.hpError p).hpSt p).errs = (d.hpSt p).errs + 1 ∧ (d.hpError p).jobs = d.jobs ∧
    (∀ k, k ≠ p → (d.hpError p).hpSt k = d.hpSt k) ∧ d.regsBut (d.hpError p) irqRegs ∧
    ((d.hpError p).hpSt p).frames = (d.hpSt p).frames := by
  have hset : (d.setHp p { d.hpSt p with errs := (d.hpSt p).errs + 1 }).hpSt p = { d.hpSt p with errs := (d.hpSt p).errs + 1 } :=
    (d.hpSt_setHp p p _).trans (if_pos rfl)
  have hother : ∀ k, k ≠ p → (d.setHp p { d.hpSt p with errs := (d.hpSt p).errs + 1 }).hpSt k = d.hpSt k :=
    fun k hk => (d.hpSt_setHp p k _).trans (if_neg hk)
  have hjobs : (d.setHp p { d.hpSt p with errs := (d.hpSt p).errs + 1 }).jobs = d.jobs := rfl
  have hregs : (d.setHp p { d.hpSt p with errs := (d.hpSt p).errs + 1 }).regs = d.regs := rfl
  unfold Dev.hpError
  dsimp only
  generalize d.setHp p { d.hpSt p with errs := (d.hpSt p).errs + 1 } = e at hset hother hjobs hregs
  split
  · have hhp : (e.raiseCause (domHp p) Rsn.hpErrRate).hp = e.hp := by simp
    have hj : (e.raiseCause (domHp p) Rsn.hpErrRate).jobs = e.jobs := by simp
    refine ⟨?_, hj.trans hjobs, fun k hk => (Dev.hpSt_congr hhp k).trans (hother k hk),
      (Dev.regsBut.of_regs hregs _).trans (e.regsBut_raiseCause _ _), ?_⟩
    · rw [Dev.hpSt_congr hhp, hset]
    · rw [Dev.hpSt_congr hhp, hset]
  · refine ⟨?_, hjobs, hother, .of_regs hregs _, ?_⟩
    · rw [hset]
    · rw [hset]

theorem Dev.ColumnPlaced.of_jobs {d e d' e' : Dev} {hm b : Nat} (h : d.ColumnPlaced e hm b) (hd : d.jobs = d'.jobs) (he : e'.jobs = e.jobs) :
    d'.ColumnPlaced e' hm b := by
  intro j hj
  rw [Dev.job?_congr he]
  exact h j ((Dev.job?_congr hd hm).trans hj)

/-- R590: a frame's report is decided. -/
theorem Dev.hpMark_marks (d : Dev) (p b : Nat) : (∀ x ∈ ((d.hpMark p b).hpSt p).frames, x.bn = b → x.reported = true) ∧
    (∀ k, k ≠ p → (d.hpMark p b).hpSt k = d.hpSt k) ∧ ((d.hpMark p b).hpSt p).errs = (d.hpSt p).errs := by
  have hset : (d.hpMark p b).hpSt p = { d.hpSt p with frames := (d.hpSt p).frames.map (fun f => if f.bn = b then { f with reported := true } else f) } :=
    (d.hpSt_setHp p p _).trans (if_pos rfl)
  rw [hset]
  refine ⟨fun x hx hb => ?_, fun k hk => (d.hpSt_setHp p k _).trans (if_neg hk), rfl⟩
  obtain ⟨y, -, rfl⟩ := List.mem_map.mp hx
  by_cases hy : y.bn = b
  · rw [if_pos hy]
  · rw [if_neg hy] at hb
    exact absurd hb hy

/-- A fired column whose report is good. -/
def Dev.columnReported (d : Dev) (p hm b : Nat) : Dev := ((d.hpMark p b).addWrap (F.HP_FIRECNT_FRAMES p) 1).hpColumn hm b true

theorem Dev.hpReport_of_fired (d : Dev) (p : Nat) {f : FrameSt} {hm : Nat} (hf : f.job = some hm) :
    d.hpReport p f 0 = d.columnReported p hm f.bn := by
  unfold Dev.hpReport
  simp only [hf]
  rfl

/-- What a good report of a fired column leaves. -/
theorem Dev.columnReported_places (d : Dev) (p hm b : Nat) : d.ColumnPlaced (d.columnReported p hm b) hm b ∧
    (∀ x ∈ ((d.columnReported p hm b).hpSt p).frames, x.bn = b → x.reported = true) ∧
    (∀ k, k ≠ p → (d.columnReported p hm b).hpSt k = d.hpSt k) ∧
    (d.columnReported p hm b).fld (F.HP_FIRECNT_FRAMES p) = (d.fld (F.HP_FIRECNT_FRAMES p) + 1) % 2 ^ 32 := by
  unfold Dev.columnReported
  obtain ⟨hmark, hother, -⟩ := d.hpMark_marks p b
  have hjobs : (d.hpMark p b).jobs = d.jobs := rfl
  have hregs : (d.hpMark p b).regs = d.regs := rfl
  generalize d.hpMark p b = e at hmark hother hjobs hregs
  have hfire : (e.addWrap (F.HP_FIRECNT_FRAMES p) 1).fld (F.HP_FIRECNT_FRAMES p) = (d.fld (F.HP_FIRECNT_FRAMES p) + 1) % 2 ^ 32 := by
    refine (Dev.fld_setFld_same e (F.HP_FIRECNT_FRAMES p) _ (show 31 < 32 by decide)).trans ?_
    exact congrArg (fun n => (n + 1) % 2 ^ 32) (Dev.fld_congr hregs _)
  have hhp : (e.addWrap (F.HP_FIRECNT_FRAMES p) 1).hp = e.hp := rfl
  have hj : (e.addWrap (F.HP_FIRECNT_FRAMES p) 1).jobs = d.jobs := hjobs
  generalize e.addWrap (F.HP_FIRECNT_FRAMES p) 1 = f at hfire hhp hj
  have hframe := f.jobsFrame_hpColumn hm b true
  have hcol : (f.hpColumn hm b true).hp = f.hp := by rw [hframe.frame]
  have hplaced := f.hpColumn_places hm b
  have hst : ∀ k, (f.hpColumn hm b true).hpSt k = e.hpSt k := fun k => (Dev.hpSt_congr hcol k).trans (Dev.hpSt_congr hhp k)
  refine ⟨hplaced.of_jobs hj rfl, ?_, fun k hk => (hst k).trans (hother k hk), ?_⟩
  · rw [hst]
    exact hmark
  · refine (hframe.regs.fld (f := F.HP_FIRECNT_FRAMES p) ?_).trans hfire
    exact notMem_endRegs_of (by simp only [R.HP_FIRECNT]; omega) fun n => by simp only [R.HP_FIRECNT, R.PO_EDGECNT]; omega

/-- A good report of this incarnation places the column that its frame fired. -/
theorem Dev.statusGood_places {d : Dev} {p : Nat} {bs : List Byte} {f : FrameSt} {hm : Nat} (hres : statusByte bs 4 % 16 = 0)
    (hrep : f.reported = false) (hjob : f.job = some hm) (hfind : d.reportOf p bs = some f) :
    d.ColumnPlaced (d.statusGood p bs) hm f.bn ∧ (∀ k, k ≠ p → (d.statusGood p bs).hpSt k = d.hpSt k) ∧
      (d.statusGood p bs).fld (F.HP_FIRECNT_FRAMES p) = (d.fld (F.HP_FIRECNT_FRAMES p) + 1) % 2 ^ 32 ∧
      ∀ x ∈ ((d.statusGood p bs).hpSt p).frames, x.bn = f.bn → x.reported = true := by
  have hlast : ∀ w, (d.setReg (R.HP_LASTRPT p) w).fld (F.HP_FIRECNT_FRAMES p) = d.fld (F.HP_FIRECNT_FRAMES p) := fun w =>
    Dev.fld_setReg_ne _ _ _ _ (by simp only [R.HP_FIRECNT, R.HP_LASTRPT]; omega)
  have hof : ∀ w, (d.setReg (R.HP_LASTRPT p) w).reportOf p bs = some f := fun w =>
    (Dev.reportOf_congr (by simp) (by simp) p bs).trans hfind
  unfold Dev.statusGood
  generalize reportWord bs = w
  have hj : (d.setReg (R.HP_LASTRPT p) w).jobs = d.jobs := by simp
  have hhp : (d.setReg (R.HP_LASTRPT p) w).hp = d.hp := by simp
  specialize hlast w
  specialize hof w
  generalize d.setReg (R.HP_LASTRPT p) w = e at hlast hj hhp hof
  have htaken : e.statusReport p bs = e.columnReported p hm f.bn := by
    rw [Dev.statusReport, hof, hres]
    exact (if_neg (by rw [hrep]; decide)).trans (e.hpReport_of_fired p hjob)
  rw [htaken]
  obtain ⟨hplaced, hmarked, hother, hfire⟩ := e.columnReported_places p hm f.bn
  generalize e.columnReported p hm f.bn = g at hplaced hmarked hother hfire
  have hkept := g.reportKept_statusRest p bs
  generalize g.statusRest p bs = t at hkept
  refine ⟨hplaced.of_jobs hj hkept.jobs, fun k hk => (hkept.others k hk).trans ((hother k hk).trans (Dev.hpSt_congr hhp k)), ?_, ?_⟩
  · have hreg : t.fld (F.HP_FIRECNT_FRAMES p) = g.fld (F.HP_FIRECNT_FRAMES p) := congrArg (fun w => slice w 31 0) hkept.fire
    rw [hreg, hfire, hlast]
  · rw [hkept.frames]
    exact hmarked

/-- A report that never comes. -/
def Dev.reportLost (d : Dev) (p b : Nat) (o : Option Nat) : Dev :=
  match o with
  | some hm => (((d.hpMark p b).addSat (F.HP_ERRCNT_MISSING p) 1).raiseCause (domHp p) Rsn.hpStatusLost).hpColumn hm b true
  | none => ((d.hpMark p b).addSat (F.HP_ERRCNT_MISSING p) 1).hpError p

/-- The oldest report that is missing, where there is one. -/
def Dev.reportMissed (d : Dev) (p : Nat) (o : Option FrameSt) : Dev :=
  match o with
  | none => d
  | some f => d.reportLost p f.bn f.job

theorem exec_headReportMissing (p : Fin 16) (s : State) : exec (.headReportMissing p) s =
    .next (s.onDev fun d => d.reportMissed p.val ((d.hpSt p.val).frames.find? (fun f => !f.reported && decide (f.bn + 3 ≤ d.now)))) := rfl

theorem Dev.reportMissed_of_none {d : Dev} {p : Nat} (h : ∀ f ∈ (d.hpSt p).frames, f.reported = true ∨ d.now < f.bn + 3) :
    d.reportMissed p ((d.hpSt p).frames.find? (fun f => !f.reported && decide (f.bn + 3 ≤ d.now))) = d := by
  have hnone : (d.hpSt p).frames.find? (fun f => !f.reported && decide (f.bn + 3 ≤ d.now)) = none := by
    refine List.find?_eq_none.mpr fun f hf hx => ?_
    obtain ⟨hr, hb⟩ := Bool.and_eq_true_iff.mp hx
    rcases h f hf with h | h
    · rw [h] at hr
      exact absurd hr (by decide)
    · exact absurd (of_decide_eq_true hb) (Nat.not_le.mpr h)
  rw [hnone]
  rfl

theorem hpErrcnt_notMem_irqRegs (p : Nat) : R.HP_ERRCNT p ∉ irqRegs := by
  simp only [R.HP_ERRCNT, irqRegs, R.HST_ISR0, R.HST_ISR1, R.MSIX_PBA, List.mem_cons, List.not_mem_nil, or_false]
  omega

theorem hpErrcnt_notMem_endRegs (p : Nat) : R.HP_ERRCNT p ∉ endRegs :=
  notMem_endRegs_of (by simp only [R.HP_ERRCNT]; omega) fun n => by simp only [R.HP_ERRCNT, R.PO_EDGECNT]; omega

/-- R588, R593: what a report that never comes leaves. -/
theorem Dev.reportLost_leaves (d : Dev) (p b : Nat) (o : Option Nat) :
    (∀ k, k ≠ p → (d.reportLost p b o).hpSt k = d.hpSt k) ∧
    (d.reportLost p b o).fld (F.HP_ERRCNT_MISSING p) = satAdd 8 (d.fld (F.HP_ERRCNT_MISSING p)) 1 ∧
    (∀ x ∈ ((d.reportLost p b o).hpSt p).frames, x.bn = b → x.reported = true) ∧
    (∀ hm, o = some hm → d.ColumnPlaced (d.reportLost p b o) hm b ∧ Rsn.hpStatusLost ∈ ((d.reportLost p b o).dom p).causes) ∧
    (o = none → ((d.reportLost p b o).hpSt p).errs = (d.hpSt p).errs + 1 ∧ (d.reportLost p b o).jobs = d.jobs) := by
  unfold Dev.reportLost
  obtain ⟨hmark, hother, herrs⟩ := d.hpMark_marks p b
  have hmj : (d.hpMark p b).jobs = d.jobs := rfl
  have hmr : (d.hpMark p b).regs = d.regs := rfl
  generalize d.hpMark p b = m at hmark hother herrs hmj hmr
  have hcnt : (m.addSat (F.HP_ERRCNT_MISSING p) 1).fld (F.HP_ERRCNT_MISSING p) = satAdd 8 (d.fld (F.HP_ERRCNT_MISSING p)) 1 :=
    (Dev.fld_addSat_same m (f := F.HP_ERRCNT_MISSING p) (show 23 < 32 by decide) 1).trans (congrArg (satAdd 8 · 1) (Dev.fld_congr hmr _))
  have hhp : (m.addSat (F.HP_ERRCNT_MISSING p) 1).hp = m.hp := by simp
  have hj : (m.addSat (F.HP_ERRCNT_MISSING p) 1).jobs = d.jobs := by simp [hmj]
  generalize m.addSat (F.HP_ERRCNT_MISSING p) 1 = e at hcnt hhp hj
  have hst : ∀ k, e.hpSt k = m.hpSt k := Dev.hpSt_congr hhp
  cases o with
  | none =>
    dsimp only
    obtain ⟨herr, hjobs, hoth, hregs, hframes⟩ := e.hpError_counts p
    refine ⟨fun k hk => (hoth k hk).trans ((hst k).trans (hother k hk)), (hregs.fld (f := F.HP_ERRCNT_MISSING p) (hpErrcnt_notMem_irqRegs p)).trans hcnt,
      ?_, fun hm h => absurd h (by simp), fun _ => ⟨?_, hjobs.trans hj⟩⟩
    · rw [hframes, hst]
      exact hmark
    · rw [herr, hst, herrs]
  | some hm =>
    dsimp only
    have hcause := e.mem_causes_raiseCause (domHp p) Rsn.hpStatusLost
    have hrhp : (e.raiseCause (domHp p) Rsn.hpStatusLost).hp = e.hp := by simp
    have hrj : (e.raiseCause (domHp p) Rsn.hpStatusLost).jobs = e.jobs := by simp
    have hrr := e.regsBut_raiseCause (domHp p) Rsn.hpStatusLost
    generalize e.raiseCause (domHp p) Rsn.hpStatusLost = f at hcause hrhp hrj hrr
    have hframe := f.jobsFrame_hpColumn hm b true
    have hcolhp : (f.hpColumn hm b true).hp = f.hp := by rw [hframe.frame]
    have hcolfen : (f.hpColumn hm b true).fen = f.fen := by rw [hframe.frame]
    have hplaced := f.hpColumn_places hm b
    have hregs := hframe.regs
    generalize f.hpColumn hm b true = g at hcolhp hcolfen hplaced hregs
    have hgs : ∀ k, g.hpSt k = m.hpSt k := fun k => (Dev.hpSt_congr hcolhp k).trans ((Dev.hpSt_congr hrhp k).trans (hst k))
    refine ⟨fun k hk => (hgs k).trans (hother k hk), ?_, ?_, fun hm' h => ?_, fun h => absurd h (by simp)⟩
    · exact (hregs.fld (f := F.HP_ERRCNT_MISSING p) (hpErrcnt_notMem_endRegs p)).trans
        ((hrr.fld (f := F.HP_ERRCNT_MISSING p) (hpErrcnt_notMem_irqRegs p)).trans hcnt)
    · rw [hgs]
      exact hmark
    · obtain rfl : hm = hm' := Option.some.inj h
      refine ⟨hplaced.of_jobs (hrj.trans hj) rfl, ?_⟩
      rw [Dev.dom, hcolfen]
      exact hcause

/-- R589: a status frame with a wrong CRC-16 only counts. -/
theorem Dev.crcWrong_counts (d : Dev) (p : Nat) :
    (((d.addSat (F.HP_ERRCNT_CRC16 p) 1).hpError p).hpSt p).errs = (d.hpSt p).errs + 1 ∧
    ((d.addSat (F.HP_ERRCNT_CRC16 p) 1).hpError p).fld (F.HP_ERRCNT_CRC16 p) = satAdd 8 (d.fld (F.HP_ERRCNT_CRC16 p)) 1 ∧
    ((d.addSat (F.HP_ERRCNT_CRC16 p) 1).hpError p).jobs = d.jobs ∧
    (∀ k, k ≠ p → ((d.addSat (F.HP_ERRCNT_CRC16 p) 1).hpError p).hpSt k = d.hpSt k) ∧
    d.regsBut ((d.addSat (F.HP_ERRCNT_CRC16 p) 1).hpError p) (R.HP_ERRCNT p :: irqRegs) := by
  have hcnt : (d.addSat (F.HP_ERRCNT_CRC16 p) 1).fld (F.HP_ERRCNT_CRC16 p) = satAdd 8 (d.fld (F.HP_ERRCNT_CRC16 p)) 1 :=
    Dev.fld_addSat_same d (f := F.HP_ERRCNT_CRC16 p) (show 7 < 32 by decide) 1
  have hhp : (d.addSat (F.HP_ERRCNT_CRC16 p) 1).hp = d.hp := by simp
  have hj : (d.addSat (F.HP_ERRCNT_CRC16 p) 1).jobs = d.jobs := by simp
  have hr : d.regsBut (d.addSat (F.HP_ERRCNT_CRC16 p) 1) (R.HP_ERRCNT p :: irqRegs) :=
    (Dev.regsBut.refl d _).addSat (f := F.HP_ERRCNT_CRC16 p) List.mem_cons_self 1
  generalize d.addSat (F.HP_ERRCNT_CRC16 p) 1 = e at hcnt hhp hj hr
  obtain ⟨herr, hjobs, hoth, hregs, -⟩ := e.hpError_counts p
  refine ⟨?_, (hregs.fld (f := F.HP_ERRCNT_CRC16 p) (hpErrcnt_notMem_irqRegs p)).trans hcnt, hjobs.trans hj,
    fun k hk => (hoth k hk).trans (Dev.hpSt_congr hhp k), hr.trans (hregs.mono (List.subset_cons_self _ _))⟩
  rw [herr, Dev.hpSt_congr hhp]

/-- R589, R797: a status frame of another incarnation only counts. -/
theorem Dev.staleStatus_counts (d : Dev) (p : Nat) :
    ((d.addSat (F.HP_ERRCNT_DISCARDED p) 1).addSat F.FEN_STALECNT_MESSAGES 1).fld (F.HP_ERRCNT_DISCARDED p) =
      satAdd 8 (d.fld (F.HP_ERRCNT_DISCARDED p)) 1 ∧
    ((d.addSat (F.HP_ERRCNT_DISCARDED p) 1).addSat F.FEN_STALECNT_MESSAGES 1).fld F.FEN_STALECNT_MESSAGES =
      satAdd 16 (d.fld F.FEN_STALECNT_MESSAGES) 1 ∧
    d.regsBut ((d.addSat (F.HP_ERRCNT_DISCARDED p) 1).addSat F.FEN_STALECNT_MESSAGES 1) [R.HP_ERRCNT p, R.FEN_STALECNT] := by
  have hne : R.HP_ERRCNT p ≠ R.FEN_STALECNT := by simp only [R.HP_ERRCNT, R.FEN_STALECNT]; omega
  refine ⟨?_, ?_, ?_⟩
  · have h1 := Dev.fld_setFld_ne (d.addSat (F.HP_ERRCNT_DISCARDED p) 1) F.FEN_STALECNT_MESSAGES (F.HP_ERRCNT_DISCARDED p)
      (satAdd 16 ((d.addSat (F.HP_ERRCNT_DISCARDED p) 1).fld F.FEN_STALECNT_MESSAGES) 1) (show 31 < 32 by decide) (.inl hne)
    exact h1.trans (Dev.fld_addSat_same d (f := F.HP_ERRCNT_DISCARDED p) (show 31 < 32 by decide) 1)
  · have h1 := Dev.fld_addSat_same (d.addSat (F.HP_ERRCNT_DISCARDED p) 1) (f := F.FEN_STALECNT_MESSAGES) (show 15 < 32 by decide) 1
    have h2 := Dev.fld_setFld_ne d (F.HP_ERRCNT_DISCARDED p) F.FEN_STALECNT_MESSAGES
      (satAdd 8 (d.fld (F.HP_ERRCNT_DISCARDED p)) 1) (show 15 < 32 by decide) (.inl hne.symm)
    exact h1.trans (congrArg (satAdd 16 · 1) h2)
  · exact ((Dev.regsBut.refl d _).addSat (f := F.HP_ERRCNT_DISCARDED p) List.mem_cons_self 1).addSat (f := F.FEN_STALECNT_MESSAGES)
      (List.mem_cons_of_mem _ List.mem_cons_self) 1

/-! ## Partner commands -/

/-- A port with a command taken under the next sequence number. -/
def HpSt.issued (h : HpSt) (cop addr data : Nat) (eng : Option Nat) : HpSt :=
  { h with cmd := some { cseq := (h.cseq + 1) % 16, cop := cop, addr := addr, data := data }, cseq := (h.cseq + 1) % 16, cancel := false,
           byEng := eng }

/-- The word that HP_CRESP takes with a command. -/
def issueWord (q : Nat) : Word := BitVec.ofNat 32 (q * 2 ^ 16 + 2 ^ 31)

/-- R610: a command is taken. -/
def Dev.cmdIssued (d : Dev) (p cop addr data : Nat) (eng : Option Nat) : Dev :=
  (d.setHp p ((d.hpSt p).issued cop addr data eng)).setReg (R.HP_CRESP p) (issueWord (((d.hpSt p).cseq + 1) % 16))

/-- The COPs that a command may have. -/
def copAdmitted (cop : Nat) : Bool := cop == 1 || cop == 2 || decide (8 ≤ cop)

theorem Dev.hpIssue_eq (d : Dev) (p cop addr data : Nat) (eng : Option Nat) : d.hpIssue p cop addr data eng =
    if (d.dom p).causes.contains Rsn.domainParked then d.hpRefuse p 2 eng
    else if d.hpOwner p ≠ eng then d.hpRefuse p 6 eng
    else if !copAdmitted cop then d.hpRefuse p 7 eng
    else if (d.hpSt p).cmd.isSome then d.hpRefuse p 6 eng
    else d.cmdIssued p cop addr data eng := rfl

/-- A command of the channel's owner is taken. -/
theorem Dev.hpIssue_of_free {d : Dev} {p cop : Nat} {eng : Option Nat} (addr data : Nat)
    (hp : (d.dom p).causes.contains Rsn.domainParked = false) (ho : d.hpOwner p = eng) (hc : copAdmitted cop = true)
    (hf : (d.hpSt p).cmd = none) : d.hpIssue p cop addr data eng = d.cmdIssued p cop addr data eng := by
  rw [Dev.hpIssue_eq, if_neg (by simp only [hp, Bool.false_eq_true, not_false_iff]), if_neg (not_not_intro ho), if_neg (by simp [hc]),
    if_neg (by simp [hf])]

theorem Dev.hpOwner_of_flag {d : Dev} {p : Nat} (h : d.flag (F.HP_CMDOWN_OWNER p) = false) : d.hpOwner p = none :=
  if_neg (by simp [h])

theorem Dev.hpOwner_of_engine {d : Dev} {p : Nat} (h : d.flag (F.HP_CMDOWN_OWNER p) = true) :
    d.hpOwner p = some (d.fld (F.HP_CMDOWN_ENGINE p)) := if_pos h

/-- R610: what the host's command meets. -/
theorem Dev.hpIssue_host (d : Dev) (p cop addr data : Nat) :
    ((d.dom p).causes.contains Rsn.domainParked = true → d.hpIssue p cop addr data none = d.setFld (F.HP_CRESP_CSTAT p) 2) ∧
    ((d.dom p).causes.contains Rsn.domainParked = false → copAdmitted cop = true →
      (d.flag (F.HP_CMDOWN_OWNER p) || (d.hpSt p).cmd.isSome) = true → d.hpIssue p cop addr data none = d.setFld (F.HP_CRESP_CSTAT p) 6) ∧
    ((d.dom p).causes.contains Rsn.domainParked = false → copAdmitted cop = false → d.flag (F.HP_CMDOWN_OWNER p) = false →
      d.hpIssue p cop addr data none = d.setFld (F.HP_CRESP_CSTAT p) 7) := by
  rw [Dev.hpIssue_eq]
  refine ⟨fun hp => ?_, fun hp hc hb => ?_, fun hp hc ho => ?_⟩
  · rw [if_pos hp]
    rfl
  · rw [if_neg (by simp only [hp, Bool.false_eq_true, not_false_iff])]
    cases ho : d.flag (F.HP_CMDOWN_OWNER p) with
    | true =>
      rw [if_pos (by rw [Dev.hpOwner_of_engine ho]; exact Option.some_ne_none _)]
      rfl
    | false =>
      rw [ho, Bool.false_or] at hb
      rw [if_neg (not_not_intro (Dev.hpOwner_of_flag ho)), if_neg (by simp [hc]), if_pos hb]
      rfl
  · rw [if_neg (by simp only [hp, Bool.false_eq_true, not_false_iff]), if_neg (not_not_intro (Dev.hpOwner_of_flag ho)), if_pos (by simp [hc])]
    rfl

/-- What a taken command shows. -/
theorem Dev.cmdIssued_shows (d : Dev) (p cop addr data : Nat) (eng : Option Nat) :
    (d.cmdIssued p cop addr data eng).hpSt p = (d.hpSt p).issued cop addr data eng ∧
    (d.cmdIssued p cop addr data eng).reg (R.HP_CRESP p) = issueWord (((d.hpSt p).cseq + 1) % 16) ∧
    d.regsBut (d.cmdIssued p cop addr data eng) [R.HP_CRESP p] ∧
    (∀ k, k ≠ p → (d.cmdIssued p cop addr data eng).hpSt k = d.hpSt k) ∧
    d.cmdIssued p cop addr data eng = { d with regs := (d.cmdIssued p cop addr data eng).regs, hp := (d.cmdIssued p cop addr data eng).hp } := by
  unfold Dev.cmdIssued
  generalize issueWord (((d.hpSt p).cseq + 1) % 16) = w
  generalize (d.hpSt p).issued cop addr data eng = h
  have hhp : ((d.setHp p h).setReg (R.HP_CRESP p) w).hp = (d.setHp p h).hp := by simp
  refine ⟨?_, (Dev.reg_setReg _ _ _ _).trans (if_pos rfl), ?_, fun k hk => ?_, rfl⟩
  · exact (Dev.hpSt_congr hhp p).trans ((d.hpSt_setHp p p h).trans (if_pos rfl))
  · exact (Dev.regsBut.of_regs rfl _).setReg (List.mem_singleton.mpr rfl) w
  · exact (Dev.hpSt_congr hhp k).trans ((d.hpSt_setHp p k h).trans (if_neg hk))

/-- What a refused command shows. -/
theorem Dev.cmdRefusal_shows (d : Dev) (p : Nat) {c : Nat} (hc : c < 16) :
    (d.setFld (F.HP_CRESP_CSTAT p) c).fld (F.HP_CRESP_CSTAT p) = c ∧ d.regsBut (d.setFld (F.HP_CRESP_CSTAT p) c) [R.HP_CRESP p] :=
  ⟨(Dev.fld_setFld_same d (F.HP_CRESP_CSTAT p) c (show 23 < 32 by decide)).trans (Nat.mod_eq_of_lt hc),
    (Dev.regsBut.refl d _).setFld (f := F.HP_CRESP_CSTAT p) (List.mem_singleton.mpr rfl) c⟩

/-- The command that the host gives with a COP. -/
def Dev.hostIssue (d : Dev) (p cop : Nat) : Dev := d.hpIssue p cop (d.fld (F.HP_CADDR_COMMAND p)) (d.fld (F.HP_CDATA_COMMAND p)) none

theorem Dev.writeHpCmd_go (d : Dev) (p : Nat) {w : Word} {cop : Nat} (h : bitOf w 31 = true) (hc : slice w 3 0 = cop) :
    d.writeHpCmd p w = d.hostIssue p cop := hc ▸ if_pos h

theorem partnerWord_bits : ∀ cop : BitVec 4, bitOf ((0x80000000 : Word) ||| cop.setWidth 32) 31 = true ∧
    slice ((0x80000000 : Word) ||| cop.setWidth 32) 3 0 = cop.toNat := by decide

theorem exec_hpCmdWrite {port : Port} {p : Fin 16} {s : State} (hg : s.dev.gate port (R.HP_CMD p.val) = .pass) :
    exec (.hpCmdWrite port p) s = .next { s with dev := s.dev.hostIssue p.val 1 } := by
  have hw := s.dev.writeHpCmd_go p.val (w := 0x80000001) (cop := 1) (by decide) (by decide)
  rw [← hw]
  exact congrArg (fun d : Dev => Host.Outcome.next { s with dev := d }) (Dev.viaPort_of_pass hg fun d => d.writeHpCmd p.val 0x80000001)

theorem exec_hpCmdRead {port : Port} {p : Fin 16} {s : State} (hg : s.dev.gate port (R.HP_CMD p.val) = .pass) :
    exec (.hpCmdRead port p) s = .next { s with dev := s.dev.hostIssue p.val 2 } := by
  have hw := s.dev.writeHpCmd_go p.val (w := 0x80000002) (cop := 2) (by decide) (by decide)
  rw [← hw]
  exact congrArg (fun d : Dev => Host.Outcome.next { s with dev := d }) (Dev.viaPort_of_pass hg fun d => d.writeHpCmd p.val 0x80000002)

theorem exec_hpCmdPartner {port : Port} {p : Fin 16} {s : State} (cop : BitVec 4) (hg : s.dev.gate port (R.HP_CMD p.val) = .pass) :
    exec (.hpCmdPartner port p cop) s = .next { s with dev := s.dev.hostIssue p.val cop.toNat } := by
  have hw := s.dev.writeHpCmd_go p.val (w := (0x80000000 ||| cop.setWidth 32)) (cop := cop.toNat) (partnerWord_bits cop).1 (partnerWord_bits cop).2
  rw [← hw]
  exact congrArg (fun d : Dev => Host.Outcome.next { s with dev := d }) (Dev.viaPort_of_pass hg fun d => d.writeHpCmd p.val (0x80000000 ||| cop.setWidth 32))

/-- R612: the timeout of the outstanding command, where there is one. -/
def Dev.cmdTimeout (d : Dev) (p : Nat) (o : Option HpCmd) : Dev :=
  match o with
  | some c => match c.bn with
    | some b => if b + 64 ≤ d.now then d.hpEnd p 0 4 else d
    | none => d
  | none => d

theorem exec_hpCmdTimeout (p : Fin 16) (s : State) : exec (.hpCmdTimeout p) s =
    .next (s.onDev fun d => d.cmdTimeout p.val (d.hpSt p.val).cmd) := rfl

/-- The word of a command that had no answer shows CSTAT 4. -/
theorem cstat_respWord (c : HpCmd) : slice (respWord c 0 4) 23 20 = 4 := by
  have hq : c.cseq % 16 < 16 := Nat.mod_lt _ (by decide)
  unfold slice respWord
  rw [BitVec.toNat_ofNat, Nat.shiftRight_eq_div_pow]
  omega

/-- R612: a command of the host not answered in time ends with CSTAT 4. -/
theorem Dev.cmdTimeout_ends {d : Dev} {p b : Nat} {c : HpCmd} (hc : (d.hpSt p).cmd = some c) (hb : c.bn = some b) (hd : b + 64 ≤ d.now)
    (he : (d.hpSt p).byEng = none) : d.cmdTimeout p (d.hpSt p).cmd = d.cmdEnded p (respWord c 0 4) := by
  have hend : d.hpEnd p 0 4 = d.cmdEnded p (respWord c 0 4) := by
    rw [Dev.hpEnd_eq, hc]
    show (d.cmdEnded p (respWord c 0 4)).engReply (d.hpSt p).byEng (respWord c 0 4) = _
    rw [he]
    rfl
  rw [hc, ← hend]
  unfold Dev.cmdTimeout
  dsimp only
  rw [hb]
  exact if_pos hd

theorem Dev.cmdTimeout_of_early {d : Dev} {p : Nat} {c : HpCmd} (h : c.bn = none ∨ (∃ b, c.bn = some b ∧ d.now < b + 64)) :
    d.cmdTimeout p (some c) = d := by
  unfold Dev.cmdTimeout
  dsimp only
  rcases h with h | ⟨b, h, hlt⟩
  · rw [h]
  · rw [h]
    exact if_neg (Nat.not_le.mpr hlt)

theorem Dev.cmdEnded_shows (d : Dev) (p : Nat) (w : Word) : (d.cmdEnded p w).hpSt p = (d.hpSt p).idle ∧
    (d.cmdEnded p w).fld (F.HP_CRESP_CSTAT p) = slice w 23 20 ∧ d.regsBut (d.cmdEnded p w) [R.HP_CRESP p] ∧
    d.cmdEnded p w = { d with regs := (d.cmdEnded p w).regs, hp := (d.cmdEnded p w).hp } := by
  refine ⟨(Dev.hpSt_setHp _ p p _).trans (if_pos rfl), ?_, (Dev.regsBut.refl d _).setReg (List.mem_singleton.mpr rfl) w, rfl⟩
  exact congrArg (fun w => slice w 23 20) ((d.reg_setReg (R.HP_CRESP p) (R.HP_CRESP p) w).trans (if_pos rfl))

/-! ## Commands of an engine -/

/-- An engine with its two oldest TX words taken. -/
def EngSt.twoTaken (e : EngSt) (r : List (Word × Nat)) (cyc : Nat) : EngSt := { e with tx := { items := r, popCyc := cyc, pops := 2 } }

/-- The two oldest TX words of an engine taken. -/
def Dev.wordsTaken (d : Dev) (n : Nat) (r : List (Word × Nat)) : Dev := d.setEng n ((d.eng n).twoTaken r d.cyc)

/-- R646: two words of an engine become a command. -/
def Dev.channelIssued (d : Dev) (n p : Nat) (w0 w1 : Word) (r : List (Word × Nat)) : Dev :=
  (d.wordsTaken n r).hpIssue p (slice w0 19 16) (slice w0 15 0) (slice w1 15 0) (some n)

/-- The issue of an engine's command, where it has two words. -/
def Dev.channelIssue (d : Dev) (n p : Nat) (items : List (Word × Nat)) : Dev :=
  match items with
  | (w0, _) :: (w1, _) :: r =>
    if d.flag (F.TNK_CFG_TXDST n) && (d.hpSt p).cmd.isNone && !d.fenced (domTe n) then d.channelIssued n p w0 w1 r else d
  | _ => d

theorem exec_tnkCmdChannelIssue (n : Fin 64) (s : State) : exec (.tnkCmdChannelIssue n) s =
    .next (s.onDev fun d => d.channelIssue n.val (d.fld (F.TNK_CFG_CMDPORT n.val)) (d.eng n.val).tx.items) := rfl

/-- R646: a command of an engine is taken. -/
def Dev.engIssued (d : Dev) (n p : Nat) (w0 w1 : Word) (r : List (Word × Nat)) : Dev :=
  (d.wordsTaken n r).cmdIssued p (slice w0 19 16) (slice w0 15 0) (slice w1 15 0) (some n)

/-- R646: an engine that owns the channel issues its two oldest words. -/
theorem Dev.channelIssue_issues {d : Dev} {n p : Nat} {w0 w1 : Word} {c0 c1 : Nat} {r : List (Word × Nat)}
    (ht : d.flag (F.TNK_CFG_TXDST n) = true) (hf : (d.hpSt p).cmd = none) (hfen : d.fenced (domTe n) = false)
    (hp : (d.dom p).causes.contains Rsn.domainParked = false) (ho : d.flag (F.HP_CMDOWN_OWNER p) = true)
    (he : d.fld (F.HP_CMDOWN_ENGINE p) = n) (hc : copAdmitted (slice w0 19 16) = true) :
    d.channelIssue n p ((w0, c0) :: (w1, c1) :: r) =
      d.engIssued n p w0 w1 r := by
  have hgo : (d.flag (F.TNK_CFG_TXDST n) && (d.hpSt p).cmd.isNone && !d.fenced (domTe n)) = true := by simp [ht, hf, hfen]
  refine (if_pos hgo).trans (Dev.hpIssue_of_free (d := d.wordsTaken n r) _ _ hp ?_ hc hf)
  have hown := Dev.hpOwner_of_engine (d := d) ho
  rw [he] at hown
  exact hown

theorem Dev.channelIssue_none {d : Dev} {n p : Nat} {items : List (Word × Nat)} (h : items.length < 2 ∨ d.flag (F.TNK_CFG_TXDST n) = false ∨
    (d.hpSt p).cmd ≠ none ∨ d.fenced (domTe n) = true) : d.channelIssue n p items = d := by
  unfold Dev.channelIssue
  split
  · refine if_neg fun hx => ?_
    obtain ⟨hx, hfen⟩ := Bool.and_eq_true_iff.mp hx
    obtain ⟨ht, hcmd⟩ := Bool.and_eq_true_iff.mp hx
    rcases h with h | h | h | h
    · exact absurd h (by simp only [List.length_cons]; omega)
    · exact absurd (h.symm.trans ht) (by decide)
    · exact h (Option.isNone_iff_eq_none.mp hcmd)
    · exact absurd (hfen.symm.trans (congrArg (!·) h)) (by decide)
  · rfl

/-! ## The obligation -/

theorem exec_headFrameSend_due {s : State} {p : Fin 16} {f : FrameSt} (hs : s.dev.hpSends p.val = true)
    (hf : (s.dev.hpSt p.val).frames.find? (fun f => !f.sent) = some f) (hd : s.dev.hpSendNs p.val f.bn / 480 ≤ s.dev.now) :
    exec (.headFrameSend p) s = .next { s with dev := s.dev.frameLeaves p.val f } := by
  rw [exec_headFrameSend]
  refine congrArg (fun d : Dev => Host.Outcome.next { s with dev := d }) ?_
  dsimp only
  rw [hf]
  exact Dev.frameSend_of_due hs hd

theorem Dev.hpStatus_of_crc {d : Dev} {bs : List Byte} (p : Nat)
    (h : ¬crc16 ((bs.drop 1).take 9) = BitVec.ofNat 16 (statusByte bs 10 + 256 * statusByte bs 11)) :
    d.hpStatus p bs = (d.addSat (F.HP_ERRCNT_CRC16 p) 1).hpError p := if_pos h

theorem Dev.hpStatus_of_stale {d : Dev} {p : Nat} {bs : List Byte}
    (h : crc16 ((bs.drop 1).take 9) = BitVec.ofNat 16 (statusByte bs 10 + 256 * statusByte bs 11)) (hi : ¬statusByte bs 5 = (d.dom p).inc) :
    d.hpStatus p bs = (d.addSat (F.HP_ERRCNT_DISCARDED p) 1).addSat F.FEN_STALECNT_MESSAGES 1 :=
  (if_neg (not_not_intro h)).trans (if_pos hi)

theorem Dev.hpStatus_of_good {d : Dev} {p : Nat} {bs : List Byte}
    (h : crc16 ((bs.drop 1).take 9) = BitVec.ofNat 16 (statusByte bs 10 + 256 * statusByte bs 11)) (hi : statusByte bs 5 = (d.dom p).inc) :
    d.hpStatus p bs = d.statusGood p bs := (if_neg (not_not_intro h)).trans (if_neg (not_not_intro hi))

theorem exec_headStatusFrame_up {s : State} {p : Fin 16} (bs : List Byte) (hup : (s.dev.hpSends p.val && s.dev.lstate p.val == 4) = true) :
    exec (.headStatusFrame p bs) s = .next { s with dev := s.dev.hpStatus p.val bs } := by
  rw [exec_headStatusFrame]
  exact congrArg (fun d : Dev => Host.Outcome.next { s with dev := d }) (if_pos hup)

theorem exec_headReportMissing_some {s : State} {p : Fin 16} {f : FrameSt}
    (hf : (s.dev.hpSt p.val).frames.find? (fun f => !f.reported && decide (f.bn + 3 ≤ s.dev.now)) = some f) :
    exec (.headReportMissing p) s = .next { s with dev := s.dev.reportLost p.val f.bn f.job } := by
  rw [exec_headReportMissing]
  refine congrArg (fun d : Dev => Host.Outcome.next { s with dev := d }) ?_
  dsimp only
  rw [hf]
  rfl

theorem copAdmitted_of_ge {cop : Nat} (h : 8 ≤ cop) : copAdmitted cop = true := by simp [copAdmitted, h]

theorem copAdmitted_of_barred {cop : Nat} (h : cop = 0 ∨ (3 ≤ cop ∧ cop ≤ 7)) : copAdmitted cop = false := by
  simp only [copAdmitted, Bool.or_eq_false_iff, beq_eq_false_iff_ne, decide_eq_false_iff_not]
  omega

/-- Settles O49: the frames of a head port, their reports, and the partner commands. -/
theorem headFramesAndPartnerCommands : Obligations.HeadFramesAndPartnerCommands := by
  unfold Obligations.HeadFramesAndPartnerCommands
  refine ⟨?_, ?_⟩
  · intro s p h others placed up
    refine ⟨fun f hs hf hd => ?_, fun hn => ?_, s.dev.hpSendNs_eq p.val, ?_, fun f hf => ?_, fun hn => ?_⟩
    · exact ⟨_, exec_headFrameSend_due hs hf hd, rfl, fun k hk => (s.dev.hpSt_setHp p.val k _).trans (if_neg hk),
        (s.dev.hpSt_setHp p.val p.val _).trans (if_pos rfl), rfl⟩
    · rw [exec_headFrameSend]
      exact congrArg (fun d : Dev => Host.Outcome.next { s with dev := d }) (Dev.frameSend_of_none hn)
    · intro bs b good mine
      refine ⟨fun hup => ?_, fun hup hg => ?_, fun hup hg hm => ?_, fun f hm hup hg hmine hres hrep hjob hfind => ?_⟩
      · rw [exec_headStatusFrame]
        exact congrArg (fun d : Dev => Host.Outcome.next { s with dev := d }) (if_neg fun hx => Bool.false_ne_true (hup.symm.trans hx))
      · have hexec := exec_headStatusFrame_up bs hup
        have hexec := hexec.trans (congrArg (fun d : Dev => Host.Outcome.next { s with dev := d }) (Dev.hpStatus_of_crc p.val hg))
        obtain ⟨herr, hcnt, hjobs, hoth, hregs⟩ := s.dev.crcWrong_counts p.val
        generalize (s.dev.addSat (F.HP_ERRCNT_CRC16 p.val) 1).hpError p.val = e at hexec herr hcnt hjobs hoth hregs
        exact ⟨_, hexec, herr, hcnt, hjobs, hoth, hregs⟩
      · have hexec := exec_headStatusFrame_up bs hup
        have hexec := hexec.trans (congrArg (fun d : Dev => Host.Outcome.next { s with dev := d }) (Dev.hpStatus_of_stale hg hm))
        obtain ⟨hcnt, hstale, hregs⟩ := s.dev.staleStatus_counts p.val
        exact ⟨_, hexec, hcnt, hstale, hregs, rfl⟩
      · have hexec := exec_headStatusFrame_up bs hup
        have hexec := hexec.trans (congrArg (fun d : Dev => Host.Outcome.next { s with dev := d }) (Dev.hpStatus_of_good hg hmine))
        obtain ⟨hplaced, hoth, hfire, hmarked⟩ := Dev.statusGood_places (d := s.dev) (p := p.val) hres hrep hjob hfind
        generalize s.dev.statusGood p.val bs = e at hexec hplaced hoth hfire hmarked
        exact ⟨_, hexec, hplaced, hoth, hfire, hmarked⟩
    · have hexec := exec_headReportMissing_some hf
      obtain ⟨hoth, hcnt, hmarked, hsome, hnone⟩ := s.dev.reportLost_leaves p.val f.bn f.job
      generalize s.dev.reportLost p.val f.bn f.job = e at hexec hoth hcnt hmarked hsome hnone
      exact ⟨_, hexec, hoth, hcnt, hmarked, hsome, hnone⟩
    · rw [exec_headReportMissing]
      exact congrArg (fun d : Dev => Host.Outcome.next { s with dev := d }) (Dev.reportMissed_of_none hn)
  · intro s taken refused parked
    refine ⟨fun port p hg => ?_, fun p c hc => ⟨fun b hb hd he => ?_, fun hn => ?_⟩, fun p hn => ?_, fun n => ?_⟩
    · intro busy addr data on
      have hrefused : ∀ c : Nat, c < 16 → refused { s with dev := s.dev.setFld (F.HP_CRESP_CSTAT p.val) c } p.val c :=
        fun c hc => ⟨(s.dev.cmdRefusal_shows p.val hc).1, (s.dev.cmdRefusal_shows p.val hc).2, rfl⟩
      have hon : ∀ (c : Instr) (cop : Nat), copAdmitted cop = true → exec c s = .next { s with dev := s.dev.hostIssue p.val cop } → on c cop := by
        intro c cop hcop hexec
        obtain ⟨hpark, hbusy, -⟩ := s.dev.hpIssue_host p.val cop addr data
        refine ⟨fun hp hb => ?_, fun hp hb => ⟨_, hexec.trans (congrArg (fun d : Dev => Host.Outcome.next { s with dev := d }) (hbusy hp hcop hb)),
          hrefused 6 (by decide)⟩, fun hp => ⟨_, hexec.trans (congrArg (fun d : Dev => Host.Outcome.next { s with dev := d }) (hpark hp)),
          hrefused 2 (by decide)⟩⟩
        obtain ⟨ho, hf⟩ := Bool.or_eq_false_iff.mp hb
        have hissue := Dev.hpIssue_of_free addr data hp (Dev.hpOwner_of_flag ho) hcop (Option.isNone_iff_eq_none.mp (by simpa using hf))
        obtain ⟨hst, hreg, hregs, hoth, hframe⟩ := s.dev.cmdIssued_shows p.val cop addr data none
        have hexec' := hexec.trans (congrArg (fun d : Dev => Host.Outcome.next { s with dev := d }) hissue)
        generalize s.dev.cmdIssued p.val cop addr data none = e at hexec' hst hreg hregs hoth hframe
        exact ⟨_, hexec', ⟨hst, hreg, hregs, hoth⟩, congrArg (fun d : Dev => { s with dev := d }) hframe⟩
      refine ⟨hon _ 1 (by decide) (exec_hpCmdWrite hg), hon _ 2 (by decide) (exec_hpCmdRead hg),
        fun cop hcop => hon _ _ (copAdmitted_of_ge hcop) (exec_hpCmdPartner cop hg), fun cop hcop hp ho => ?_⟩
      obtain ⟨-, -, hbad⟩ := s.dev.hpIssue_host p.val cop.toNat addr data
      exact ⟨_, (exec_hpCmdPartner cop hg).trans (congrArg (fun d : Dev => Host.Outcome.next { s with dev := d })
        (hbad hp (copAdmitted_of_barred hcop) ho)), hrefused 7 (by decide)⟩
    · have hexec : exec (.hpCmdTimeout p) s = .next { s with dev := s.dev.cmdEnded p.val (respWord c 0 4) } := by
        rw [exec_hpCmdTimeout]
        exact congrArg (fun d : Dev => Host.Outcome.next { s with dev := d }) (Dev.cmdTimeout_ends hc hb hd he)
      obtain ⟨hst, hcs, hregs, hframe⟩ := s.dev.cmdEnded_shows p.val (respWord c 0 4)
      rw [cstat_respWord] at hcs
      generalize s.dev.cmdEnded p.val (respWord c 0 4) = e at hexec hst hcs hregs hframe
      refine ⟨_, hexec, hst.trans ?_, hcs, hregs, congrArg (fun d : Dev => { s with dev := d }) hframe⟩
      unfold HpSt.idle
      rw [← he]
    · rw [exec_hpCmdTimeout]
      refine congrArg (fun d : Dev => Host.Outcome.next { s with dev := d }) ?_
      dsimp only
      rw [hc]
      exact Dev.cmdTimeout_of_early hn
    · rw [exec_hpCmdTimeout]
      refine congrArg (fun d : Dev => Host.Outcome.next { s with dev := d }) ?_
      dsimp only
      rw [hn]
      rfl
    · intro p e
      refine ⟨fun w0 w1 c0 c1 r hi ht hf hfen hp ho he hcop => ?_, fun hn => ?_⟩
      · have hadm : copAdmitted (slice w0 19 16) = true := by
          simp only [copAdmitted, Bool.or_eq_true, beq_iff_eq, decide_eq_true_iff, or_assoc]
          exact hcop
        have hexec : exec (.tnkCmdChannelIssue n) s = .next { s with dev := s.dev.engIssued n.val p w0 w1 r } := by
          rw [exec_tnkCmdChannelIssue]
          refine congrArg (fun d : Dev => Host.Outcome.next { s with dev := d }) ?_
          show s.dev.channelIssue n.val p e.tx.items = _
          rw [hi]
          exact Dev.channelIssue_issues ht hf hfen hp ho he hadm
        unfold Dev.engIssued at hexec
        have heng : ∀ k, (s.dev.wordsTaken n.val r).eng k = if k = n.val then e.twoTaken r s.dev.cyc else s.dev.eng k :=
          fun k => s.dev.eng_setEng n.val k _
        have hhp : (s.dev.wordsTaken n.val r).hp = s.dev.hp := rfl
        have hr : (s.dev.wordsTaken n.val r).regs = s.dev.regs := rfl
        generalize s.dev.wordsTaken n.val r = f at hexec heng hhp hr
        obtain ⟨hst, hreg, hregs, hoth, hframe⟩ := f.cmdIssued_shows p (slice w0 19 16) (slice w0 15 0) (slice w1 15 0) (some n.val)
        have htnk : (f.cmdIssued p (slice w0 19 16) (slice w0 15 0) (slice w1 15 0) (some n.val)).tnk = f.tnk := by rw [hframe]
        generalize f.cmdIssued p (slice w0 19 16) (slice w0 15 0) (slice w1 15 0) (some n.val) = g at hexec hst hreg hregs hoth htnk
        have hge : ∀ k, g.eng k = f.eng k := fun k => by rw [Dev.eng, htnk, Dev.eng]
        rw [Dev.hpSt_congr hhp] at hst hreg
        refine ⟨_, hexec, ⟨hst, hreg, (Dev.regsBut.of_regs hr _).trans hregs, fun k hk => (hoth k hk).trans (Dev.hpSt_congr hhp k)⟩, ?_, fun k hk => ?_⟩
        · show (g.eng n.val).tx.items = r
          rw [hge, heng, if_pos rfl]
          rfl
        · show g.eng k = s.dev.eng k
          rw [hge, heng, if_neg hk]
      · rw [exec_tnkCmdChannelIssue]
        exact congrArg (fun d : Dev => Host.Outcome.next { s with dev := d }) (Dev.channelIssue_none hn)

end Sys2Proof.Machine
end

section

/-!
PROOF. Starting and stopping the Tinker engines (13_tinker_engines.md R654 to R657, R659, R660, R678).
-/

namespace Sys2Proof.Machine
open Sys2Proof

/-! ## A TNK_CMD of the host -/

/-- The word of a start or stop command. -/
def tnkCmdWord (idx : Nat) (engine start : Bool) : Word :=
  BitVec.ofNat 32 ((if start then 0x80000100 else 0x80000200) + idx + if engine then 64 else 0)

theorem tnkCmdWord_bits : ∀ (idx : Fin 64) (engine start : Bool),
    bitOf (tnkCmdWord idx.val engine start) 31 = true ∧ bitOf (tnkCmdWord idx.val engine start) 6 = engine ∧
      slice (tnkCmdWord idx.val engine start) 5 0 = idx.val ∧ bitOf (tnkCmdWord idx.val engine start) 8 = start ∧
      (start || bitOf (tnkCmdWord idx.val engine start) 9) = true := by decide

/-- A start or stop command of the host. -/
def tnkCommand (port : Port) (idx : Fin 64) (engine start : Bool) : Instr :=
  if start then .tnkStartCommand port idx engine else .tnkStopCommand port idx engine

theorem exec_tnkCommand (port : Port) (idx : Fin 64) (engine start : Bool) (s : State) : exec (tnkCommand port idx engine start) s =
    .next (s.onDev fun d => d.viaPort port R.TNK_CMD fun d => d.writeTnkCmd (tnkCmdWord idx.val engine start)) := by
  cases start
  · rfl
  · rfl

/-- A command held for its beat. -/
def Dev.tnkHeld (d : Dev) (c : TnkPend) : Dev := { d with tnk := { d.tnk with pend := some c } }.setFlag F.TNK_CMDSTAT_PENDING true

/-- The command of the host with its parts. -/
def Dev.tnkTake (d : Dev) (idx : Nat) (engine start : Bool) : Dev :=
  if d.tnk.pend.isSome then d.setFld F.TNK_CMDSTAT_RESULT Rsn.refState.toNat
  else if (d.cmdEngines engine idx).any (fun n => (d.dom (domTe n)).causes.contains Rsn.domainParked) then
    d.setFld F.TNK_CMDSTAT_RESULT Rsn.domainParked.toNat
  else if (d.cmdEngines engine idx).isEmpty || (engine && !(d.groupPeers idx).isEmpty) ||
      (start && (d.cmdEngines engine idx).any (fun n => d.fenced (domTe n))) then
    d.setFld F.TNK_CMDSTAT_RESULT Rsn.refState.toNat
  else d.tnkHeld { idx := idx, engine := engine, start := start, bn := max (d.num2 R.TNK_CMDBN_LO R.TNK_CMDBN_HI) (d.now + 4) }

theorem Dev.writeTnkCmd_word (d : Dev) (idx : Fin 64) (engine start : Bool) :
    d.writeTnkCmd (tnkCmdWord idx.val engine start) = d.tnkTake idx.val engine start := by
  obtain ⟨hgo, heng, hidx, hstart, hop⟩ := tnkCmdWord_bits idx engine start
  unfold Dev.writeTnkCmd
  dsimp only
  rw [hgo, heng, hidx, hstart, hop]
  rfl

theorem exec_tnkCommand_of_pass {port : Port} {s : State} (idx : Fin 64) (engine start : Bool) (hg : s.dev.gate port R.TNK_CMD = .pass) :
    exec (tnkCommand port idx engine start) s = .next { s with dev := s.dev.tnkTake idx.val engine start } := by
  rw [exec_tnkCommand, ← Dev.writeTnkCmd_word]
  exact congrArg (fun d : Dev => Host.Outcome.next { s with dev := d })
    (Dev.viaPort_of_pass hg fun d => d.writeTnkCmd (tnkCmdWord idx.val engine start))

/-! ## Engines replaced one after the other -/

/-- Only the engines differ. -/
def Dev.EngsOnly (d e : Dev) : Prop := e = { d with tnk := { d.tnk with eng := e.tnk.eng } }

theorem Dev.engsOnly_setEng {d e : Dev} (h : d.EngsOnly e) (n : Nat) (x : EngSt) : d.EngsOnly (e.setEng n x) := by
  unfold Dev.EngsOnly at h ⊢
  rw [h]
  rfl

/-- Engines replaced one after the other: those named take what the step makes, and the others stay. -/
theorem Dev.foldl_setEng {step : Dev → Nat → Dev} {d : Dev} {f : Nat → EngSt → EngSt} {q p : Nat → EngSt → Prop}
    (hs : ∀ e n, d.EngsOnly e → step e n = e.setEng n (f n (e.eng n))) (hq : ∀ n x, q n x → q n (f n x) ∧ p n (f n x)) (ns : List Nat) :
    ∀ e : Dev, d.EngsOnly e → (∀ n, q n (e.eng n)) → d.EngsOnly (ns.foldl step e) ∧ (∀ n ∈ ns, p n ((ns.foldl step e).eng n)) ∧
      (∀ n, n ∉ ns → (ns.foldl step e).eng n = e.eng n) := by
  induction ns with
  | nil => exact fun e he _ => ⟨he, fun n hn => absurd hn (List.not_mem_nil), fun _ _ => rfl⟩
  | cons a rest ih =>
    intro e he hqe
    rw [List.foldl_cons, hs e a he]
    have heng : ∀ n, (e.setEng a (f a (e.eng a))).eng n = if n = a then f a (e.eng a) else e.eng n := fun n => e.eng_setEng a n _
    obtain ⟨honly, hp, hother⟩ := ih (e.setEng a (f a (e.eng a))) (Dev.engsOnly_setEng he a _) (fun n => by
      rw [heng]
      split
      next h => rw [h]; exact (hq a _ (hqe a)).1
      next => exact hqe n)
    refine ⟨honly, fun n hn => ?_, fun n hn => ?_⟩
    · by_cases hr : n ∈ rest
      · exact hp n hr
      · obtain rfl : n = a := (List.mem_cons.mp hn).resolve_right hr
        rw [hother n hr, heng, if_pos rfl]
        exact (hq n _ (hqe n)).2
    · obtain ⟨hna, hnr⟩ := not_or.mp (mt List.mem_cons.mpr hn)
      rw [hother n hnr, heng, if_neg hna]

/-! ## Start and stop -/

/-- An engine that starts at CI 0 of the beat. -/
def Dev.startedEng (d : Dev) (n : Nat) (e : EngSt) : EngSt :=
  { state := d.fld (F.TNK_CFG_START n), running := true, halted := !d.inRun, outv := d.fld (F.TNK_CFG_OUTINIT n),
    outCyc := d.now * cyclesPerBeat, outPrev := e.outv, c0 := d.now * cyclesPerBeat, raisedBn := e.raisedBn, steps := e.steps }

theorem Dev.startEngine_eq {d e : Dev} (h : d.EngsOnly e) (n : Nat) : e.startEngine n = e.setEng n (d.startedEng n (e.eng n)) := by
  have hr : e.regs = d.regs := by rw [h]
  have ht : e.t = d.t := by rw [h]
  have hp : e.pwr = d.pwr := by rw [h]
  unfold Dev.startEngine Dev.startedEng
  have hrun : e.inRun = d.inRun := by
    unfold Dev.inRun Dev.pstate
    rw [Dev.fld_congr hr]
  rw [Dev.fld_congr hr, Dev.fld_congr hr, hrun, Dev.now, ht, ← Dev.now]

/-- An engine that stops at its idle outputs. -/
def Dev.stoppedEng (d : Dev) (n : Nat) (e : EngSt) : EngSt :=
  { e.setOut (d.fld (F.TNK_CFG_OUTINIT n)) (d.now * cyclesPerBeat) with running := false }

theorem Dev.stopEngine_eq {d e : Dev} (h : d.EngsOnly e) (n : Nat) : e.stopEngine n = e.setEng n (d.stoppedEng n (e.eng n)) := by
  have hr : e.regs = d.regs := by rw [h]
  have ht : e.t = d.t := by rw [h]
  unfold Dev.stopEngine Dev.stoppedEng
  rw [Dev.fld_congr hr, Dev.now, ht, ← Dev.now]

theorem EngSt.outv_setOut (e : EngSt) (v c : Nat) : (e.setOut v c).outv = v ∧ (e.setOut v c).state = e.state := by
  unfold EngSt.setOut
  split
  next h => exact ⟨h.symm, rfl⟩
  next => exact ⟨rfl, rfl⟩

/-- Engines started or stopped, as a command has it. -/
structure Dev.EngsActed (d e : Dev) (ns : List Nat) (start : Bool) : Prop where
  acted : ∀ n ∈ ns, (e.eng n).running = start ∧ (e.eng n).outv = d.fld (F.TNK_CFG_OUTINIT n) ∧
    (start = true → (e.eng n).state = d.fld (F.TNK_CFG_START n) ∧ (e.eng n).entered = false ∧ (e.eng n).c0 = d.now * 240 ∧
      (e.eng n).halted = !d.inRun) ∧ (start = false → (e.eng n).state = (d.eng n).state)
  others : ∀ n, n ∉ ns → e.eng n = d.eng n
  pend : e.tnk.pend = d.tnk.pend
  regs : d.regsBut e [R.TNK_CMDSTAT, R.TNK_SGSTAT]
  frame : e = { d with regs := e.regs, tnk := e.tnk }

theorem Dev.startEngines_act (d : Dev) (engine : Bool) (idx : Nat) :
    d.EngsActed (d.startEngines engine idx) (d.cmdEngines engine idx) true := by
  unfold Dev.startEngines
  dsimp only
  obtain ⟨honly, hacted, hother⟩ := Dev.foldl_setEng (d := d) (f := d.startedEng) (q := fun _ _ => True)
    (p := fun n x => x.running = true ∧ x.outv = d.fld (F.TNK_CFG_OUTINIT n) ∧ x.state = d.fld (F.TNK_CFG_START n) ∧ x.entered = false ∧
      x.c0 = d.now * 240 ∧ x.halted = !d.inRun)
    (fun e n h => Dev.startEngine_eq h n) (fun n x _ => ⟨trivial, rfl, rfl, rfl, rfl, rfl, rfl⟩) (d.cmdEngines engine idx) d rfl (fun _ => trivial)
  generalize (d.cmdEngines engine idx).foldl Dev.startEngine d = e at honly hacted hother
  have hkeep : ∀ f : Dev, f.tnk.eng = e.tnk.eng → f.tnk.pend = e.tnk.pend → d.regsBut f [R.TNK_CMDSTAT, R.TNK_SGSTAT] →
      f = { e with regs := f.regs, tnk := f.tnk } → d.EngsActed f (d.cmdEngines engine idx) true := by
    intro f heng hpend hregs hframe
    have hf : ∀ n, f.eng n = e.eng n := fun n => by rw [Dev.eng, heng, Dev.eng]
    refine ⟨fun n hn => ?_, fun n hn => (hf n).trans (hother n hn), hpend.trans (by rw [honly]), hregs, ?_⟩
    · obtain ⟨h1, h2, h3, h4, h5, h6⟩ := hacted n hn
      rw [hf n]
      exact ⟨h1, h2, fun _ => ⟨h3, h4, h5, h6⟩, fun h => absurd h (by decide)⟩
    · rw [honly] at hframe
      exact hframe
  have hr : e.regs = d.regs := by rw [honly]
  split
  · exact hkeep _ rfl rfl (.of_regs hr _) rfl
  · refine hkeep _ (by simp) (by simp) ?_ rfl
    exact (Dev.regsBut.of_regs (e := { e with tnk := _ }) hr _).setReg (List.mem_cons_of_mem _ List.mem_cons_self) _

theorem Dev.stopEngines_act (d : Dev) (engine : Bool) (idx : Nat) :
    d.EngsActed (d.stopEngines engine idx) (d.cmdEngines engine idx) false := by
  unfold Dev.stopEngines
  dsimp only
  obtain ⟨honly, hacted, hother⟩ := Dev.foldl_setEng (d := d) (f := d.stoppedEng) (q := fun n x => x.state = (d.eng n).state)
    (p := fun n x => x.running = false ∧ x.outv = d.fld (F.TNK_CFG_OUTINIT n) ∧ x.state = (d.eng n).state)
    (fun e n h => Dev.stopEngine_eq h n) (fun n x hx => by
      obtain ⟨hout, hst⟩ := x.outv_setOut (d.fld (F.TNK_CFG_OUTINIT n)) (d.now * cyclesPerBeat)
      exact ⟨hst.trans hx, rfl, hout, hst.trans hx⟩) (d.cmdEngines engine idx) d rfl (fun _ => rfl)
  generalize (d.cmdEngines engine idx).foldl Dev.stopEngine d = e at honly hacted hother
  have hkeep : ∀ f : Dev, f.tnk.eng = e.tnk.eng → f.tnk.pend = e.tnk.pend → f = { e with tnk := f.tnk } →
      d.EngsActed f (d.cmdEngines engine idx) false := by
    intro f heng hpend hframe
    have hf : ∀ n, f.eng n = e.eng n := fun n => by rw [Dev.eng, heng, Dev.eng]
    have hr : f.regs = d.regs := by rw [hframe, honly]
    refine ⟨fun n hn => ?_, fun n hn => (hf n).trans (hother n hn), hpend.trans (by rw [honly]), .of_regs hr _, ?_⟩
    · obtain ⟨h1, h2, h3⟩ := hacted n hn
      rw [hf n]
      exact ⟨h1, h2, fun h => absurd h (by decide), fun _ => h3⟩
    · rw [honly] at hframe
      rw [hframe]
  split
  · exact hkeep _ rfl rfl rfl
  · exact hkeep _ rfl rfl rfl

/-- What the result of a TNK_CMD shows. -/
theorem Dev.tnkResult_shows (d : Dev) (r : Reason) : (d.tnkResult r).tnk = { d.tnk with pend := none } ∧
    (d.tnkResult r).flag F.TNK_CMDSTAT_PENDING = false ∧ (d.tnkResult r).fld F.TNK_CMDSTAT_RESULT = r.toNat ∧
    d.regsBut (d.tnkResult r) [R.TNK_CMDSTAT] ∧ d.tnkResult r = { d with regs := (d.tnkResult r).regs, tnk := (d.tnkResult r).tnk } := by
  unfold Dev.tnkResult
  generalize hd : ({ d with tnk := { d.tnk with pend := none } } : Dev) = e
  have htnk : e.tnk = { d.tnk with pend := none } := by rw [← hd]
  have hregs : e.regs = d.regs := by rw [← hd]
  have hframe : e = { d with tnk := e.tnk } := by rw [← hd]
  refine ⟨?_, ?_, ?_, ?_, ?_⟩
  · simp [htnk]
  · exact (Dev.flag_setFld_ne _ F.TNK_CMDSTAT_RESULT F.TNK_CMDSTAT_PENDING _ (by decide) (by decide)).trans
      (Dev.flag_setFlag_same e F.TNK_CMDSTAT_PENDING false (by decide) rfl)
  · exact (Dev.fld_setFld_same _ F.TNK_CMDSTAT_RESULT _ (by decide)).trans (Nat.mod_eq_of_lt r.isLt)
  · exact ((Dev.regsBut.of_regs hregs _).setFlag (f := F.TNK_CMDSTAT_PENDING) (by simp) _).setFld (f := F.TNK_CMDSTAT_RESULT) (by simp) _
  · rw [hframe]
    rfl

/-- What a command that waits for its beat shows. -/
theorem Dev.tnkHeld_shows (d : Dev) (c : TnkPend) : (d.tnkHeld c).flag F.TNK_CMDSTAT_PENDING = true ∧
    (d.tnkHeld c).tnk = { d.tnk with pend := some c } ∧ d.regsBut (d.tnkHeld c) [R.TNK_CMDSTAT] ∧
    d.tnkHeld c = { d with regs := (d.tnkHeld c).regs, tnk := (d.tnkHeld c).tnk } := by
  unfold Dev.tnkHeld
  generalize hd : ({ d with tnk := { d.tnk with pend := some c } } : Dev) = e
  have htnk : e.tnk = { d.tnk with pend := some c } := by rw [← hd]
  have hregs : e.regs = d.regs := by rw [← hd]
  have hframe : e = { d with tnk := e.tnk } := by rw [← hd]
  refine ⟨Dev.flag_setFlag_same e F.TNK_CMDSTAT_PENDING true (by decide) rfl, by simp [htnk], ?_, ?_⟩
  · exact (Dev.regsBut.of_regs hregs _).setFlag (f := F.TNK_CMDSTAT_PENDING) (by simp) _
  · rw [hframe]
    rfl

/-- What ends a TNK_CMD at once. -/
theorem Dev.tnkRefusal_shows (d : Dev) (r : Reason) : (d.setFld F.TNK_CMDSTAT_RESULT r.toNat).fld F.TNK_CMDSTAT_RESULT = r.toNat ∧
    d.regsBut (d.setFld F.TNK_CMDSTAT_RESULT r.toNat) [R.TNK_CMDSTAT] :=
  ⟨(Dev.fld_setFld_same d F.TNK_CMDSTAT_RESULT _ (by decide)).trans (Nat.mod_eq_of_lt r.isLt),
    (Dev.regsBut.refl d _).setFld (f := F.TNK_CMDSTAT_RESULT) (by simp) _⟩

/-- R656: the grounds that refuse a start or stop command. -/
def Dev.tnkBad (d : Dev) (idx : Nat) (engine start : Bool) : Prop :=
  d.cmdEngines engine idx = [] ∨ (engine = true ∧ d.groupPeers idx ≠ []) ∨ (start = true ∧ ∃ n ∈ d.cmdEngines engine idx, d.fenced (domTe n) = true)

theorem Dev.tnkBad_iff (d : Dev) (idx : Nat) (engine start : Bool) : ((d.cmdEngines engine idx).isEmpty || (engine && !(d.groupPeers idx).isEmpty) ||
    (start && (d.cmdEngines engine idx).any (fun n => d.fenced (domTe n)))) = true ↔ d.tnkBad idx engine start := by
  unfold Dev.tnkBad
  simp only [Bool.or_eq_true, Bool.and_eq_true, List.isEmpty_iff, Bool.not_eq_true', List.any_eq_true, or_assoc, List.isEmpty_eq_false_iff, ne_eq]

theorem Dev.tnkTake_of_free {d : Dev} {idx : Nat} {engine start : Bool} (hp : d.tnk.pend = none)
    (hk : (d.cmdEngines engine idx).any (fun n => (d.dom (domTe n)).causes.contains Rsn.domainParked) = false) (hb : ¬d.tnkBad idx engine start) :
    d.tnkTake idx engine start =
      d.tnkHeld { idx := idx, engine := engine, start := start, bn := max (d.num2 R.TNK_CMDBN_LO R.TNK_CMDBN_HI) (d.now + 4) } := by
  unfold Dev.tnkTake
  rw [if_neg (by simp [hp]), if_neg (by simp only [hk, Bool.false_eq_true, not_false_iff]), if_neg (mt (d.tnkBad_iff idx engine start).mp hb)]

theorem Dev.tnkTake_of_refused {d : Dev} {idx : Nat} {engine start : Bool} (h : d.tnk.pend ≠ none ∨
    ((d.cmdEngines engine idx).any (fun n => (d.dom (domTe n)).causes.contains Rsn.domainParked) = false ∧ d.tnkBad idx engine start)) :
    d.tnkTake idx engine start = d.setFld F.TNK_CMDSTAT_RESULT Rsn.refState.toNat := by
  unfold Dev.tnkTake
  by_cases hp : d.tnk.pend.isSome = true
  · rw [if_pos hp]
  · rw [if_neg hp]
    rcases h with h | ⟨hk, hb⟩
    · exact absurd (Option.isSome_iff_ne_none.mpr h) hp
    · rw [if_neg (by simp only [hk, Bool.false_eq_true, not_false_iff]), if_pos ((d.tnkBad_iff idx engine start).mpr hb)]

theorem Dev.tnkTake_of_parked {d : Dev} {idx : Nat} {engine start : Bool} (hp : d.tnk.pend = none)
    (hk : (d.cmdEngines engine idx).any (fun n => (d.dom (domTe n)).causes.contains Rsn.domainParked) = true) :
    d.tnkTake idx engine start = d.setFld F.TNK_CMDSTAT_RESULT Rsn.domainParked.toNat := by
  unfold Dev.tnkTake
  rw [if_neg (by simp [hp]), if_pos hk]

/-! ## A command at its beat -/

/-- The engines of a command, started or stopped. -/
def Dev.tnkActed (d : Dev) (c : TnkPend) : Dev := if c.start then d.startEngines c.engine c.idx else d.stopEngines c.engine c.idx

theorem Dev.tnkActed_acts (d : Dev) (c : TnkPend) : d.EngsActed (d.tnkActed c) (d.cmdEngines c.engine c.idx) c.start := by
  unfold Dev.tnkActed
  cases c.start with
  | true => exact d.startEngines_act c.engine c.idx
  | false => exact d.stopEngines_act c.engine c.idx

theorem Dev.tnkAct_of_other {d : Dev} {c : TnkPend} {start : Bool} (hc : d.tnk.pend = some c) (h : c.start ≠ start ∨ d.now < c.bn) :
    d.tnkAct start = d := by
  unfold Dev.tnkAct
  rw [hc]
  refine if_pos ?_
  simp only [Bool.or_eq_true, bne_iff_ne, decide_eq_true_iff]
  exact h

theorem Dev.tnkAct_of_fenced {d : Dev} {c : TnkPend} (hc : d.tnk.pend = some c) (hd : c.bn ≤ d.now)
    (hf : ∃ n ∈ d.cmdEngines c.engine c.idx, d.fenced (domTe n) = true) : d.tnkAct c.start = d.tnkResult Rsn.refState := by
  unfold Dev.tnkAct
  rw [hc]
  refine (if_neg ?_).trans (if_pos (List.any_eq_true.mpr hf))
  simp [Nat.not_lt.mpr hd]

theorem Dev.tnkAct_of_due {d : Dev} {c : TnkPend} (hc : d.tnk.pend = some c) (hd : c.bn ≤ d.now)
    (hf : ∀ n ∈ d.cmdEngines c.engine c.idx, d.fenced (domTe n) = false) : d.tnkAct c.start = (d.tnkActed c).tnkResult Rsn.ok := by
  have hnone : ¬(d.cmdEngines c.engine c.idx).any (fun n => d.fenced (domTe n)) = true := by
    rw [List.any_eq_true]
    rintro ⟨n, hn, hx⟩
    exact Bool.false_ne_true ((hf n hn).symm.trans hx)
  have hdue : ¬(c.start != c.start || decide (d.now < c.bn)) = true := by simp [Nat.not_lt.mpr hd]
  unfold Dev.tnkAct
  rw [hc]
  refine (if_neg hdue).trans ((if_neg hnone).trans ?_)
  unfold Dev.tnkActed
  cases c.start <;> rfl

theorem exec_tnkAct (start : Bool) (s : State) :
    exec (if start then .tnkStartAct else .tnkStopAct) s = .next (s.onDev fun d => d.tnkAct start) := by
  cases start
  · rfl
  · rfl

/-- Settles O50: the commands by what refuses them, and their acts at the beat. -/
theorem enginesStartAndStop : Obligations.EnginesStartAndStop := by
  unfold Obligations.EnginesStartAndStop
  intro s parked res
  refine ⟨?_, ?_, fun hn => ⟨?_, ?_⟩⟩
  · intro port idx engine start hg c ns bad
    have hexec : exec c s = .next { s with dev := s.dev.tnkTake idx.val engine start } := exec_tnkCommand_of_pass idx engine start hg
    have hto : ∀ {e : Dev}, s.dev.tnkTake idx.val engine start = e → exec c s = .next { s with dev := e } := fun h => h ▸ hexec
    have hres : ∀ r : Reason, res { s with dev := s.dev.setFld F.TNK_CMDSTAT_RESULT r.toNat } r.toNat := fun r =>
      ⟨(s.dev.tnkRefusal_shows r).1, (s.dev.tnkRefusal_shows r).2, rfl⟩
    refine ⟨fun hp hk hb => ?_, fun h => ⟨_, hto (Dev.tnkTake_of_refused h), hres Rsn.refState⟩,
      fun hp hk => ⟨_, hto (Dev.tnkTake_of_parked hp hk), hres Rsn.domainParked⟩⟩
    have hh := hto (Dev.tnkTake_of_free hp hk hb)
    obtain ⟨hpend, htnk, hregs, hframe⟩ := s.dev.tnkHeld_shows
      { idx := idx.val, engine := engine, start := start, bn := max (s.dev.num2 R.TNK_CMDBN_LO R.TNK_CMDBN_HI) (s.dev.now + 4) }
    generalize s.dev.tnkHeld _ = e at hh hpend htnk hregs hframe
    exact ⟨_, hh, hpend, htnk, hregs, congrArg (fun d : Dev => { s with dev := d }) hframe⟩
  · intro c hc ns ended a
    have hexec : exec a s = .next { s with dev := s.dev.tnkAct c.start } := exec_tnkAct c.start s
    refine ⟨fun h => ?_, fun h => ?_, fun hd hf => ?_, fun hd hf => ?_⟩
    · exact congrArg (fun d : Dev => Host.Outcome.next { s with dev := d })
        (Dev.tnkAct_of_other (start := true) hc (h.imp_left fun h => by rw [h]; decide))
    · exact congrArg (fun d : Dev => Host.Outcome.next { s with dev := d })
        (Dev.tnkAct_of_other (start := false) hc (h.imp_left fun h => by rw [h]; decide))
    · rw [Dev.tnkAct_of_fenced hc hd hf] at hexec
      obtain ⟨htnk, hpend, hresult, hregs, hframe⟩ := s.dev.tnkResult_shows Rsn.refState
      generalize s.dev.tnkResult Rsn.refState = e at hexec htnk hpend hresult hregs hframe
      have heng : ∀ n, e.eng n = s.dev.eng n := fun n => by rw [Dev.eng, htnk, Dev.eng]
      refine ⟨_, hexec, ⟨?_, hpend, hresult, hregs.mono (List.cons_subset_cons _ (List.nil_subset _)), fun n _ => heng n,
        congrArg (fun d : Dev => { s with dev := d }) hframe⟩, heng⟩
      exact congrArg TnkSt.pend htnk
    · rw [Dev.tnkAct_of_due hc hd hf] at hexec
      obtain ⟨hacted, hother, -, hactRegs, hactFrame⟩ := s.dev.tnkActed_acts c
      generalize s.dev.tnkActed c = e at hexec hacted hother hactRegs hactFrame
      obtain ⟨htnk, hpend, hresult, hregs, hframe⟩ := e.tnkResult_shows Rsn.ok
      generalize e.tnkResult Rsn.ok = f at hexec htnk hpend hresult hregs hframe
      have heng : ∀ n, f.eng n = e.eng n := fun n => by rw [Dev.eng, htnk, Dev.eng]
      refine ⟨_, hexec, ⟨congrArg TnkSt.pend htnk, hpend, hresult, hactRegs.trans (hregs.mono (List.cons_subset_cons _ (List.nil_subset _))),
        fun n hn => (heng n).trans (hother n hn), ?_⟩, fun n hn => ?_⟩
      · rw [hactFrame] at hframe
        exact congrArg (fun d : Dev => { s with dev := d }) hframe
      · show (f.eng n).running = _ ∧ _
        rw [heng n]
        exact hacted n hn
  · exact congrArg (fun d : Dev => Host.Outcome.next { s with dev := d }) (show s.dev.tnkAct true = s.dev by unfold Dev.tnkAct; rw [hn])
  · exact congrArg (fun d : Dev => Host.Outcome.next { s with dev := d }) (show s.dev.tnkAct false = s.dev by unfold Dev.tnkAct; rw [hn])

end Sys2Proof.Machine
end

section

/-!
PROOF. Ticks, inputs, kicks, host words and the stall watch of the Tinker engines (13_tinker_engines.md R628, R632, R636, R638, R642 to R645,
R669, R673).
-/

namespace Sys2Proof.Machine
open Sys2Proof

/-! ## What a tick leaves -/

/-- The jobs, and the count of an engine's ticks, are as before. -/
structure Dev.TickKept (d e : Dev) (n : Nat) : Prop where
  jobs : e.jobs = d.jobs
  last : (e.eng n).lastTick = (d.eng n).lastTick
  steps : (e.eng n).steps = (d.eng n).steps

namespace Dev.TickKept
variable {d e f : Dev} {n : Nat}

theorem of_same (hj : e.jobs = d.jobs) (ht : e.tnk.eng = d.tnk.eng) : d.TickKept e n := by
  have he : e.eng n = d.eng n := by rw [Dev.eng, ht, Dev.eng]
  exact ⟨hj, by rw [he], by rw [he]⟩

theorem refl (d : Dev) (n : Nat) : d.TickKept d n := of_same rfl rfl

theorem trans (h : d.TickKept e n) (g : e.TickKept f n) : d.TickKept f n :=
  ⟨g.jobs.trans h.jobs, g.last.trans h.last, g.steps.trans h.steps⟩

theorem setEng {m : Nat} {x : EngSt} (hl : x.lastTick = (d.eng m).lastTick) (hs : x.steps = (d.eng m).steps) : d.TickKept (d.setEng m x) n := by
  have he := d.eng_setEng m n x
  by_cases hn : n = m
  · rw [if_pos hn] at he
    refine ⟨rfl, ?_, ?_⟩
    · rw [he, hl, hn]
    · rw [he, hs, hn]
  · rw [if_neg hn] at he
    exact ⟨rfl, by rw [he], by rw [he]⟩

theorem foldl {A : Type} {step : Dev → A → Dev} (hs : ∀ d a, Dev.TickKept d (step d a) n) (as : List A) : ∀ d : Dev, d.TickKept (as.foldl step d) n := by
  induction as with
  | nil => exact fun d => .refl d n
  | cons a as ih => exact fun d => (hs d a).trans (ih _)

end Dev.TickKept

theorem Dev.tickKept_rxPush {d e : Dev} {m : Nat} {w : Word} (n : Nat) (h : d.rxPush m w = some e) : d.TickKept e n := by
  unfold Dev.rxPush at h
  obtain ⟨q, -, rfl⟩ := Option.map_eq_some_iff.mp h
  exact .setEng rfl rfl

theorem Dev.tickKept_txPush {d e : Dev} {m : Nat} {w : Word} (n : Nat) (h : d.txPush m w = some e) : d.TickKept e n := by
  unfold Dev.txPush at h
  split at h
  · exact Dev.tickKept_rxPush n h
  · obtain ⟨q, -, rfl⟩ := Option.map_eq_some_iff.mp h
    exact .setEng rfl rfl

theorem Dev.tickKept_engQop (d : Dev) (m c : Nat) (w3 : Word) (a : Bool) (n : Nat) : d.TickKept (d.engQop m c w3 a) n := by
  unfold Dev.engQop
  dsimp only
  split
  · split
    · exact .setEng rfl rfl
    · exact .refl d n
  · split
    next e he => exact (Dev.tickKept_txPush n he).trans (.setEng rfl rfl)
    next => exact .refl d n
  · exact .setEng rfl rfl
  · exact .setEng rfl rfl
  · exact .setEng rfl rfl
  · exact .refl d n

theorem Dev.tickKept_engEvent (d : Dev) (m key cyc : Nat) (held : Bool) (n : Nat) : d.TickKept (d.engEvent m key cyc held) n := by
  unfold Dev.engEvent
  dsimp only
  split
  · exact .setEng rfl rfl
  · exact .refl d n

theorem Dev.tickKept_engShow (d : Dev) (m n : Nat) : d.TickKept (d.engShow m) n := by
  refine .of_same ?_ ?_
  · unfold Dev.engShow
    dsimp only
    split <;> split <;> simp
  · unfold Dev.engShow
    dsimp only
    split <;> split <;> simp

theorem Dev.tnk_capture (d : Dev) (tsrc tidx stamp : Nat) (barred : Bool) : (d.capture tsrc tidx stamp barred).tnk = d.tnk := by
  rw [Dev.capture_eq]
  split
  · simp
  · split
    · rfl
    · generalize d.captureOf tsrc tidx stamp = c
      generalize d.farOf tsrc tidx = far
      rfl

theorem Dev.tickKept_engCapture (d : Dev) (m c n : Nat) : d.TickKept (d.engCapture m c) n := by
  unfold Dev.engCapture
  split
  · exact .of_same (by simp) (by simp)
  · have hset : d.TickKept (d.setEng m { d.eng m with raisedBn := some d.now }) n := .setEng rfl rfl
    refine hset.trans (.of_same (Dev.capture_leaves _ _ _ _ _).2.2 ?_)
    rw [Dev.tnk_capture]

theorem Dev.tickKept_engRaise (d : Dev) (m c n : Nat) : d.TickKept (d.engRaise m c) n := by
  have hev : d.TickKept (d.engEventAll m c) n := .foldl (fun d k => d.tickKept_engEvent k m c false n) _ d
  exact (hev.trans (Dev.tickKept_engShow _ m n)).trans (Dev.tickKept_engCapture _ m c n)

theorem EngSt.setOut_counts (e : EngSt) (v c : Nat) : (e.setOut v c).lastTick = e.lastTick ∧ (e.setOut v c).steps = e.steps := by
  unfold EngSt.setOut
  split
  · exact ⟨rfl, rfl⟩
  · exact ⟨rfl, rfl⟩

/-! ## The tick in its parts -/

/-- An engine as it enters a tick: the tick is counted, and a swap takes it to its START state. -/
def Dev.tickStart (d : Dev) (n c : Nat) : EngSt :=
  let e := { d.eng n with lastTick := c + 1, steps := ((d.eng n).steps + 1) % 2 ^ 32 }
  if e.swapDue then { e with swapDue := false, state := d.fld (F.TNK_CFG_START n), entered := false } else e

/-- A condition of a state entry. -/
def Dev.tickCond (d : Dev) (n c src : Nat) (inv first : Bool) : Bool := d.condSrc n c src first != inv

/-- A tick in a state that was entered before. -/
def Dev.tickHeld (d : Dev) (n c : Nat) (e : EngSt) (w0 w3 : Word) (a : Bool) : Dev :=
  if blocks w0 w3 && !e.qdone && (slice w3 2 0 == 1 || slice w3 2 0 == 2) then
    (d.setEng n { e with ticks := e.ticks + 1 }).engQop n c w3 a
  else d.setEng n { e with ticks := e.ticks + 1 }

/-- What the state does in a tick. -/
def Dev.tickBody (d : Dev) (n c : Nat) (e : EngSt) (w0 w3 : Word) (a : Bool) : Dev :=
  if e.entered then d.tickHeld n c e w0 w3 a else d.engEnter n c a

/-- The state after a tick, where it changes. -/
def EngSt.nextState (e : EngSt) (c ns : Nat) (w0 w2 w3 : Word) : Option Nat :=
  if blocks w0 w3 then
    if (e.qdone || !(slice w3 2 0 == 1 || slice w3 2 0 == 2)) && (e.evSeen || !bitOf w0 31) then some ns
    else if bitOf w0 22 && e.evAt 97 c then some (slice w0 21 16)
    else if slice w2 31 16 ≠ 0 ∧ e.ticks = slice w2 31 16 then some (slice w0 21 16)
    else none
  else if e.ticks = slice w2 31 16 then some ns else none

/-- The engine once its next state is known. -/
def EngSt.goes (e : EngSt) (o : Option Nat) : EngSt :=
  match o with
  | some s => { e with state := s, entered := false }
  | none => e

/-- An engine with its wait event noted. -/
def EngSt.sees (e : EngSt) (c : Nat) (w0 : Word) : EngSt := { e with evSeen := e.evSeen || (bitOf w0 31 && e.evAt (slice w0 30 24) c) }

/-- The state that the two conditions of an entry choose. -/
def condState (a b : Bool) (w1 : Word) : Nat :=
  slice w1 (8 * ((if a then 1 else 0) + (if b then 2 else 0)) + 5) (8 * ((if a then 1 else 0) + (if b then 2 else 0)))

/-- The end of a tick: the state goes on. -/
def Dev.tickGoes (d : Dev) (n c : Nat) (first : Bool) (w0 w1 w2 w3 : Word) : Dev :=
  d.setEng n (((d.eng n).sees c w0).goes (((d.eng n).sees c w0).nextState c
    (condState (d.tickCond n c (slice w0 5 0) (bitOf w0 6) first) (d.tickCond n c (slice w0 13 8) (bitOf w0 14) first) w1) w0 w2 w3))

/-- The end of a tick: what the engine is blocked on. -/
def Dev.tickFree (d : Dev) (n : Nat) : Dev := if d.blockedInGroup n then d else d.setEng n { d.eng n with free := true }

/-- A tick with the words of its entry. -/
def Dev.tickWith (d : Dev) (n c : Nat) (e : EngSt) (first : Bool) (w0 w1 w2 w3 : Word) : Dev :=
  ((d.tickBody n c e w0 w3 (d.tickCond n c (slice w0 5 0) (bitOf w0 6) first)).tickGoes n c first w0 w1 w2 w3).tickFree n

theorem Dev.engTick_eq (d : Dev) (n c : Nat) : d.engTick n c =
    (d.setEng n (d.tickStart n c)).tickWith n c (d.tickStart n c) (decide ((d.eng n).lastTick ≤ d.now * cyclesPerBeat))
      ((d.setEng n (d.tickStart n c)).entry n 0) ((d.setEng n (d.tickStart n c)).entry n 1) ((d.setEng n (d.tickStart n c)).entry n 2)
      ((d.setEng n (d.tickStart n c)).entry n 3) := rfl

/-- The outputs and the clean slate of a state that is entered. -/
def EngSt.enters (e : EngSt) (c : Nat) (w2 : Word) : EngSt :=
  { e.setOut ((e.outv &&& (255 - slice w2 15 8)) ||| (slice w2 7 0 &&& slice w2 15 8)) c with
      entered := true, ticks := 0, entryCyc := c, qdone := false, evSeen := false, ev := e.ev.filter (fun x => decide (c ≤ x.2)) }

/-- The output that follows bit 31 of the shift register. -/
def Dev.enterBit (d : Dev) (n c : Nat) (w3 : Word) : Dev :=
  if bitOf w3 7 then
    d.setEng n ((d.eng n).setOut
      (if bitOf (d.eng n).sr 31 then (d.eng n).outv ||| 2 ^ slice w3 6 4 else (d.eng n).outv &&& (255 - 2 ^ slice w3 6 4)) c)
  else d

theorem Dev.engEnter_eq (d : Dev) (n c : Nat) (a : Bool) : d.engEnter n c a =
    if bitOf (d.entry n 3) 16 then
      (((d.setEng n ((d.eng n).enters c (d.entry n 2))).engQop n c (d.entry n 3) a).enterBit n c (d.entry n 3)).engRaise n c
    else ((d.setEng n ((d.eng n).enters c (d.entry n 2))).engQop n c (d.entry n 3) a).enterBit n c (d.entry n 3) := rfl

theorem Dev.tickKept_enterBit (d : Dev) (n c : Nat) (w3 : Word) : d.TickKept (d.enterBit n c w3) n := by
  unfold Dev.enterBit
  split
  · exact .setEng (EngSt.setOut_counts _ _ _).1 (EngSt.setOut_counts _ _ _).2
  · exact .refl d n

theorem Dev.tickKept_engEnter (d : Dev) (n c : Nat) (a : Bool) : d.TickKept (d.engEnter n c a) n := by
  rw [Dev.engEnter_eq]
  have hent : d.TickKept (d.setEng n ((d.eng n).enters c (d.entry n 2))) n := .setEng (EngSt.setOut_counts _ _ _).1 (EngSt.setOut_counts _ _ _).2
  have hbit := (hent.trans (Dev.tickKept_engQop _ n c (d.entry n 3) a n)).trans (Dev.tickKept_enterBit _ n c (d.entry n 3))
  split
  · exact hbit.trans (Dev.tickKept_engRaise _ n c n)
  · exact hbit

theorem Dev.tickKept_tickBody {d : Dev} {n : Nat} {e : EngSt} (he : d.eng n = e) (c : Nat) (w0 w3 : Word) (a : Bool) :
    d.TickKept (d.tickBody n c e w0 w3 a) n := by
  subst he
  have hset : d.TickKept (d.setEng n { d.eng n with ticks := (d.eng n).ticks + 1 }) n := .setEng rfl rfl
  unfold Dev.tickBody Dev.tickHeld
  split
  · split
    · exact hset.trans (Dev.tickKept_engQop _ n c w3 a n)
    · exact hset
  · exact d.tickKept_engEnter n c a

theorem EngSt.goes_counts (e : EngSt) (o : Option Nat) : (e.goes o).lastTick = e.lastTick ∧ (e.goes o).steps = e.steps := by
  cases o with
  | none => exact ⟨rfl, rfl⟩
  | some s => exact ⟨rfl, rfl⟩

theorem Dev.tickKept_tickGoes (d : Dev) (n c : Nat) (first : Bool) (w0 w1 w2 w3 : Word) : d.TickKept (d.tickGoes n c first w0 w1 w2 w3) n :=
  .setEng (EngSt.goes_counts _ _).1 (EngSt.goes_counts _ _).2

theorem Dev.tickKept_tickFree (d : Dev) (n : Nat) : d.TickKept (d.tickFree n) n := by
  unfold Dev.tickFree
  split
  · exact .refl d n
  · exact .setEng rfl rfl

theorem Dev.tickStart_counts (d : Dev) (n c : Nat) : (d.tickStart n c).lastTick = c + 1 ∧ (d.tickStart n c).steps = ((d.eng n).steps + 1) % 2 ^ 32 := by
  unfold Dev.tickStart
  dsimp only
  split
  · exact ⟨rfl, rfl⟩
  · exact ⟨rfl, rfl⟩

/-- R628: a tick counts, and changes no job. -/
theorem Dev.engTick_counts (d : Dev) (n c : Nat) : ((d.engTick n c).eng n).lastTick = c + 1 ∧
    ((d.engTick n c).eng n).steps = ((d.eng n).steps + 1) % 2 ^ 32 ∧ (d.engTick n c).jobs = d.jobs := by
  have heng : (d.setEng n (d.tickStart n c)).eng n = d.tickStart n c := (d.eng_setEng n n _).trans (if_pos rfl)
  obtain ⟨hl, hs⟩ := d.tickStart_counts n c
  have hkept : (d.setEng n (d.tickStart n c)).TickKept (d.engTick n c) n := by
    rw [Dev.engTick_eq]
    exact ((Dev.tickKept_tickBody heng c _ _ _).trans (Dev.tickKept_tickGoes _ n c _ _ _ _ _)).trans (Dev.tickKept_tickFree _ n)
  exact ⟨by rw [hkept.last, heng, hl], by rw [hkept.steps, heng, hs], hkept.jobs⟩

/-! ## States without a wait -/

theorem Dev.eng_tickFree (d : Dev) (n : Nat) : ∃ b, (d.tickFree n).eng n = { d.eng n with free := b } := by
  unfold Dev.tickFree
  split
  · exact ⟨(d.eng n).free, rfl⟩
  · exact ⟨true, (d.eng_setEng n n _).trans (if_pos rfl)⟩

theorem EngSt.nextState_of_unblocked {w0 w3 : Word} (hb : blocks w0 w3 = false) (e : EngSt) (c ns : Nat) (w2 : Word) :
    e.nextState c ns w0 w2 w3 = if e.ticks = slice w2 31 16 then some ns else none :=
  if_neg (by rw [hb]; decide)

/-- A tick of a state without a wait: the ticks are counted, and the state goes on once they reach HOLD. -/
structure TickStep (e f : EngSt) (w0 w1 w2 : Word) : Prop where
  held : e.ticks + 1 ≠ slice w2 31 16 → f.state = e.state ∧ f.entered = true ∧ f.ticks = e.ticks + 1 ∧ f.outv = e.outv
  goes : e.ticks + 1 = slice w2 31 16 → slice w0 5 0 = 0 → slice w0 13 8 = 0 →
    f.state = condState (bitOf w0 6) (bitOf w0 14) w1 ∧ f.entered = false

/-- A condition on source 0 is its inversion. -/
theorem Dev.tickCond_zero (d : Dev) (n c : Nat) (inv first : Bool) : d.tickCond n c 0 inv first = inv := by
  unfold Dev.tickCond
  have h0 : d.condSrc n c 0 first = false := rfl
  rw [h0, Bool.false_bne]

/-- R632: a tick in a state without a wait. -/
theorem Dev.tickWith_of_unblocked {d : Dev} {n c : Nat} {e : EngSt} {w0 w1 w2 w3 : Word} (he : e.entered = true)
    (hb : blocks w0 w3 = false) (first : Bool) : TickStep e ((d.tickWith n c e first w0 w1 w2 w3).eng n) w0 w1 w2 := by
  have hbody : ∀ a, d.tickBody n c e w0 w3 a = d.setEng n { e with ticks := e.ticks + 1 } := fun a =>
    (if_pos he).trans (if_neg (by rw [hb, Bool.false_and, Bool.false_and]; decide))
  unfold Dev.tickWith
  rw [hbody]
  have hg : (d.setEng n { e with ticks := e.ticks + 1 }).eng n = { e with ticks := e.ticks + 1 } := (d.eng_setEng n n _).trans (if_pos rfl)
  generalize d.setEng n { e with ticks := e.ticks + 1 } = g at hg
  obtain ⟨b, hfree⟩ := (g.tickGoes n c first w0 w1 w2 w3).eng_tickFree n
  rw [hfree]
  have hgoes : (g.tickGoes n c first w0 w1 w2 w3).eng n = (({ e with ticks := e.ticks + 1 } : EngSt).sees c w0).goes
      (if e.ticks + 1 = slice w2 31 16 then some (condState (g.tickCond n c (slice w0 5 0) (bitOf w0 6) first)
        (g.tickCond n c (slice w0 13 8) (bitOf w0 14) first) w1) else none) := by
    unfold Dev.tickGoes
    rw [Dev.eng_setEng, if_pos rfl, hg, EngSt.nextState_of_unblocked hb]
    rfl
  rw [hgoes]
  refine ⟨fun hne => ?_, fun heq h0 h1 => ?_⟩
  · rw [if_neg hne]
    exact ⟨rfl, he, rfl, rfl⟩
  · rw [if_pos heq, h0, h1, Dev.tickCond_zero, Dev.tickCond_zero]
    exact ⟨rfl, rfl⟩

/-- R632: a tick of an engine in a state without a wait. -/
theorem Dev.engTick_of_unblocked {d : Dev} {n : Nat} (c : Nat) (he : (d.eng n).entered = true) (hs : (d.eng n).swapDue = false)
    (hb : blocks (d.entry n 0) (d.entry n 3) = false) :
    TickStep (d.eng n) ((d.engTick n c).eng n) (d.entry n 0) (d.entry n 1) (d.entry n 2) := by
  have hstart : d.tickStart n c = { d.eng n with lastTick := c + 1, steps := ((d.eng n).steps + 1) % 2 ^ 32 } :=
    if_neg (by rw [hs]; decide)
  have hentry : ∀ k, (d.setEng n (d.tickStart n c)).entry n k = d.entry n k := fun k => by
    unfold Dev.entry
    rw [Dev.eng_setEng, if_pos rfl, hstart]
    rfl
  have hstep := Dev.tickWith_of_unblocked (d := d.setEng n (d.tickStart n c)) (n := n) (c := c) (e := d.tickStart n c)
    (w1 := d.entry n 1) (w2 := d.entry n 2) (by rw [hstart]; exact he) hb (decide ((d.eng n).lastTick ≤ d.now * cyclesPerBeat))
  rw [Dev.engTick_eq, hentry, hentry, hentry, hentry]
  generalize (d.setEng n (d.tickStart n c)).tickWith _ _ _ _ _ _ _ _ = g at hstep ⊢
  rw [hstart] at hstep
  exact ⟨hstep.held, hstep.goes⟩

/-! ## Input changes -/

/-- The inputs as given. -/
def Dev.withInputs (d : Dev) (m : SMap (Bool × Nat)) : Dev := { d with tnk := { d.tnk with inputs := m } }

/-- The level of an input, latched in this core cycle. -/
def Dev.inputLatched (d : Dev) (g : Nat) (level : Bool) : Dev := d.withInputs (mset (false, 0) d.tnk.inputs g (level, d.cyc))

/-- The event of an input change at one engine. -/
def Dev.inputEvents (d : Dev) (g : Nat) (level : Bool) (n : Nat) : Dev :=
  (List.range 16).foldl (fun d i => if d.inMap n i = g then d.engEvent n ((if level then 64 else 80) + i) (d.cyc + 2) false else d) d

/-- The events of an input change. -/
def Dev.inputNoted (d : Dev) (g : Nat) (level : Bool) : Dev := (List.range 64).foldl (fun d n => d.inputEvents g level n) d

theorem exec_engineInputEdge (g : Fin 169) (level : Bool) (ci : Fin 240) (s : State) : exec (.engineInputEdge g level ci) s =
    .next (s.onDev fun d => if (d.setCi ci.val).inputOff g.val || (mget (false, 0) (d.setCi ci.val).tnk.inputs g.val).1 == level ||
        ((d.setCi ci.val).ownInput g.val).getD level != level || !(d.setCi ci.val).pwr.vcore then d.setCi ci.val
      else ((d.setCi ci.val).inputLatched g.val level).inputNoted g.val level) := rfl

theorem Dev.engsOnly_engEvent {d e : Dev} (h : d.EngsOnly e) (n key cyc : Nat) (held : Bool) : d.EngsOnly (e.engEvent n key cyc held) := by
  unfold Dev.engEvent
  dsimp only
  split
  · exact Dev.engsOnly_setEng h n _
  · exact h

/-- An engine with an event noted. -/
def EngSt.noted (e : EngSt) (key cyc : Nat) : EngSt := { e with ev := e.ev ++ [(key, cyc)] }

theorem Dev.eng_engEvent (d : Dev) (n key cyc : Nat) (held : Bool) (k : Nat) : (d.engEvent n key cyc held).eng k =
    if k = n ∧ (d.eng n).running = true ∧ (held = true ∨ (d.eng n).halted = false) then (d.eng n).noted key cyc else d.eng k := by
  unfold Dev.engEvent
  dsimp only
  by_cases hc : ((d.eng n).running && (held || !(d.eng n).halted)) = true
  · have hc' : (d.eng n).running = true ∧ (held = true ∨ (d.eng n).halted = false) := by simpa using hc
    rw [if_pos hc, Dev.eng_setEng]
    by_cases hk : k = n
    · rw [if_pos hk, if_pos ⟨hk, hc'⟩]
      rfl
    · rw [if_neg hk, if_neg (fun h => hk h.1)]
  · have hc' : ¬((d.eng n).running = true ∧ (held = true ∨ (d.eng n).halted = false)) := by simpa using hc
    rw [if_neg hc, if_neg (fun h => hc' h.2)]

/-- Only the events of engines grow. -/
structure Dev.EvGrows (d e : Dev) : Prop where
  only : d.EngsOnly e
  runs : ∀ k, (e.eng k).running = (d.eng k).running ∧ (e.eng k).halted = (d.eng k).halted
  events : ∀ k, ∀ x ∈ (d.eng k).ev, x ∈ (e.eng k).ev

namespace Dev.EvGrows
variable {d e f : Dev}

theorem refl (d : Dev) : d.EvGrows d := ⟨rfl, fun _ => ⟨rfl, rfl⟩, fun _ _ h => h⟩

theorem trans (h : d.EvGrows e) (g : e.EvGrows f) : d.EvGrows f := by
  refine ⟨?_, fun k => ⟨(g.runs k).1.trans (h.runs k).1, (g.runs k).2.trans (h.runs k).2⟩, fun k x hx => g.events k x (h.events k x hx)⟩
  have hf := g.only
  have he := h.only
  unfold Dev.EngsOnly at hf he ⊢
  rw [he] at hf
  exact hf

theorem engEvent (d : Dev) (n key cyc : Nat) (held : Bool) : d.EvGrows (d.engEvent n key cyc held) := by
  refine ⟨Dev.engsOnly_engEvent (d := d) (e := d) rfl n key cyc held, fun k => ?_, fun k x hx => ?_⟩
  · rw [Dev.eng_engEvent]
    split
    next h => rw [h.1]; exact ⟨rfl, rfl⟩
    next => exact ⟨rfl, rfl⟩
  · rw [Dev.eng_engEvent]
    split
    next h => rw [h.1] at hx; exact List.mem_append_left _ hx
    next => exact hx

theorem foldl {A : Type} {step : Dev → A → Dev} (hs : ∀ d a, Dev.EvGrows d (step d a)) (as : List A) : ∀ d : Dev, d.EvGrows (as.foldl step d) := by
  induction as with
  | nil => exact .refl
  | cons a as ih => exact fun d => (hs d a).trans (ih _)

/-- What one step of a fold notes is noted after the fold. -/
theorem foldl_notes {A : Type} {step : Dev → A → Dev} {p : Dev → Prop} (hs : ∀ d a, Dev.EvGrows d (step d a))
    (hmono : ∀ e f, Dev.EvGrows e f → p e → p f) {a : A} (as : List A) :
    ∀ d : Dev, a ∈ as → (∀ e, d.EvGrows e → p (step e a)) → p (as.foldl step d) := by
  induction as with
  | nil => exact fun d ha => absurd ha (List.not_mem_nil)
  | cons b bs ih =>
    intro d ha hp
    rw [List.foldl_cons]
    rcases List.mem_cons.mp ha with rfl | hb
    · exact hmono _ _ (foldl hs bs _) (hp d (.refl d))
    · exact ih _ hb fun e he => hp e ((hs d b).trans he)

theorem inMap (h : d.EvGrows e) (n i : Nat) : e.inMap n i = d.inMap n i := by
  unfold Dev.inMap
  rw [h.only]
  rfl

theorem cyc (h : d.EvGrows e) : e.cyc = d.cyc := by
  rw [h.only]
  rfl

end Dev.EvGrows

theorem Dev.evGrows_inputEvents (d : Dev) (g : Nat) (level : Bool) (n : Nat) : d.EvGrows (d.inputEvents g level n) :=
  .foldl (fun d i => by
    split
    · exact .engEvent d _ _ _ _
    · exact .refl d) _ d

/-- R638: a change of an input reaches the waits of the engines that map it. -/
theorem Dev.inputNoted_reaches (d : Dev) (g : Nat) (level : Bool) : d.EvGrows (d.inputNoted g level) ∧
    ∀ n < 64, ∀ i < 16, d.inMap n i = g → (d.eng n).running = true → (d.eng n).halted = false →
      ((if level then 64 else 80) + i, d.cyc + 2) ∈ ((d.inputNoted g level).eng n).ev := by
  refine ⟨.foldl (fun d n => d.evGrows_inputEvents g level n) _ d, fun n hn i hi hmap hrun hhalt => ?_⟩
  refine Dev.EvGrows.foldl_notes (p := fun e => ((if level then 64 else 80) + i, d.cyc + 2) ∈ (e.eng n).ev)
    (fun d n => d.evGrows_inputEvents g level n) (fun e f h => h.events n _) _ d (List.mem_range.mpr hn) fun e he => ?_
  refine Dev.EvGrows.foldl_notes (p := fun e => ((if level then 64 else 80) + i, d.cyc + 2) ∈ (e.eng n).ev) (a := i)
    (fun d i => ?_) (fun e f h => h.events n _) _ e (List.mem_range.mpr hi) fun f hf => ?_
  · split
    · exact .engEvent d _ _ _ _
    · exact .refl d
  · have hdf := he.trans hf
    rw [if_pos (by rw [hdf.inMap]; exact hmap), Dev.eng_engEvent,
      if_pos ⟨rfl, (hdf.runs n).1.trans hrun, .inr ((hdf.runs n).2.trans hhalt)⟩, hdf.cyc]
    exact List.mem_append_right _ List.mem_cons_self

/-! ## Kicks -/

theorem exec_tnkKick (port : Port) (hi : Bool) (w : Word) (s : State) : exec (.tnkKick port hi w) s =
    .next (s.onDev fun d => d.viaPort port (if hi then R.TNK_KICK_HI else R.TNK_KICK_LO) fun d => d.writeKick hi w) := rfl

/-- The engine that a bit of TNK_KICK names. -/
def kickEng (hi : Bool) (k : Nat) : Nat := if hi then 32 + k else k

theorem kickEng_inj {hi : Bool} {j k : Nat} (h : kickEng hi j = kickEng hi k) : j = k := by
  cases hi
  · exact h
  · exact Nat.add_left_cancel h

/-- Only the engines differ, step after step. -/
theorem Dev.EngsOnly.trans {d e f : Dev} (h : d.EngsOnly e) (g : e.EngsOnly f) : d.EngsOnly f := by
  unfold Dev.EngsOnly at h g ⊢
  rw [h] at g
  exact g

/-- A kick of one engine. -/
def Dev.kicked (d : Dev) (hi : Bool) (k : Nat) : Dev := d.engEvent (kickEng hi k) 97 d.cyc true

theorem Dev.writeKick_eq (d : Dev) (hi : Bool) (w : Word) : d.writeKick hi w = (onesBelow 32 w.toNat).foldl (fun d k => d.kicked hi k) d := rfl

theorem Dev.eng_kicked (d : Dev) (hi : Bool) (a k : Nat) : (d.kicked hi a).eng (kickEng hi k) =
    if k = a ∧ (d.eng (kickEng hi k)).running = true then (d.eng (kickEng hi k)).noted 97 d.cyc else d.eng (kickEng hi k) := by
  unfold Dev.kicked
  rw [Dev.eng_engEvent]
  by_cases hk : k = a
  · subst hk
    simp
  · rw [if_neg (fun h => hk (kickEng_inj h.1)), if_neg (fun h => hk h.1)]

/-- R673: kicks of engines, each once. -/
theorem Dev.foldl_kicked (hi : Bool) (ks : List Nat) : ∀ d : Dev, ks.Nodup → d.EngsOnly (ks.foldl (fun d k => d.kicked hi k) d) ∧
    ∀ k, (ks.foldl (fun d k => d.kicked hi k) d).eng (kickEng hi k) =
      if k ∈ ks ∧ (d.eng (kickEng hi k)).running = true then (d.eng (kickEng hi k)).noted 97 d.cyc else d.eng (kickEng hi k) := by
  induction ks with
  | nil => exact fun d _ => ⟨rfl, fun k => (if_neg fun h => absurd h.1 List.not_mem_nil).symm⟩
  | cons a rest ih =>
    intro d hd
    obtain ⟨ha, hrest⟩ := List.nodup_cons.mp hd
    have hone : d.EngsOnly (d.kicked hi a) := Dev.engsOnly_engEvent (d := d) (e := d) rfl _ _ _ _
    have hcyc : (d.kicked hi a).cyc = d.cyc := by rw [hone]; rfl
    obtain ⟨honly, heng⟩ := ih (d.kicked hi a) hrest
    rw [List.foldl_cons]
    refine ⟨hone.trans honly, fun k => ?_⟩
    rw [heng, hcyc]
    by_cases hk : k = a
    · subst hk
      rw [if_neg (fun h => ha h.1), Dev.eng_kicked]
      simp
    · have hsame : (d.kicked hi a).eng (kickEng hi k) = d.eng (kickEng hi k) := (d.eng_kicked hi a k).trans (if_neg fun h => hk h.1)
      rw [hsame]
      simp [hk]

/-- What a write of TNK_KICK leaves. -/
theorem Dev.writeKick_kicks (d : Dev) (hi : Bool) (w : Word) : d.EngsOnly (d.writeKick hi w) ∧ ∀ k < 32,
    (d.writeKick hi w).eng (kickEng hi k) =
      if bitOf w k = true ∧ (d.eng (kickEng hi k)).running = true then (d.eng (kickEng hi k)).noted 97 d.cyc else d.eng (kickEng hi k) := by
  rw [Dev.writeKick_eq]
  obtain ⟨honly, heng⟩ := Dev.foldl_kicked hi (onesBelow 32 w.toNat) d ((List.nodup_range).filter _)
  refine ⟨honly, fun k hk => (heng k).trans ?_⟩
  have hmem : k ∈ onesBelow 32 w.toNat ↔ bitOf w k = true := by
    rw [onesBelow, List.mem_filter, List.mem_range]
    exact and_iff_right hk
  simp only [hmem]

/-! ## Words of the host -/

theorem exec_tnkRxwr (port : Port) (n : Fin 64) (w : Word) (s : State) : exec (.tnkRxwr port n w) s =
    .next (s.onDev fun d => d.viaPort port (R.TNK_RXWR n.val) fun d => d.writeRx n.val w) := rfl

/-- An engine with one more word in its RX queue. -/
def EngSt.received (e : EngSt) (w : Word) (c : Nat) : EngSt := { e with rx := { e.rx with items := e.rx.items ++ [(w, c)] } }

theorem Dev.writeRx_of_room {d : Dev} {n : Nat} (hq : d.flag (F.TNK_CFG_HOSTQ n) = true) (hr : (d.eng n).rx.taken d.cyc < d.rxCap n) (w : Word) :
    d.writeRx n w = d.setEng n ((d.eng n).received w d.cyc) := by
  have hpush : (d.eng n).rx.push (d.rxCap n) d.cyc w = some { (d.eng n).rx with items := (d.eng n).rx.items ++ [(w, d.cyc)] } := if_pos hr
  unfold Dev.writeRx Dev.rxPush
  rw [if_pos hq]
  dsimp only
  rw [hpush]
  rfl

theorem Dev.writeRx_of_full {d : Dev} {n : Nat} (h : ¬(d.flag (F.TNK_CFG_HOSTQ n) = true ∧ (d.eng n).rx.taken d.cyc < d.rxCap n)) (w : Word) :
    d.writeRx n w = d.setFlag (F.TNK_QSTAT_HOSTDROP n) true := by
  unfold Dev.writeRx
  by_cases hq : d.flag (F.TNK_CFG_HOSTQ n) = true
  · have hpush : (d.eng n).rx.push (d.rxCap n) d.cyc w = none := if_neg fun hr => h ⟨hq, hr⟩
    unfold Dev.rxPush
    rw [if_pos hq]
    dsimp only
    rw [hpush]
    rfl
  · rw [if_neg hq]

/-! ## The stall watch -/

/-- A group shown as stalled. -/
def Dev.stallShown (d : Dev) (g : Nat) : Dev := d.setReg R.TNK_SGSTAT (putBit (d.reg R.TNK_SGSTAT) (16 + g) true)

/-- The members of a group fenced. -/
def Dev.groupRaised (d : Dev) (ns : List Nat) : Dev := ns.foldl (fun d n => d.raiseOne (domTe n) Rsn.groupStall) d

/-- The stall count of a group, cleared. -/
def Dev.stallCleared (d : Dev) (g : Nat) : Dev := { d with tnk := { d.tnk with stall := mset 0 d.tnk.stall g 0 } }

/-- The stall watch of one group. -/
def Dev.stallStep (d : Dev) (g : Nat) : Dev :=
  if d.fld (F.TNK_SGCFG_STALL g) ≤ mget 0 d.tnk.stall g then ((d.stallShown g).groupRaised ((d.stallShown g).grpMask g)).stallCleared g else d

theorem exec_groupStall (s : State) : exec .groupStall s = .next (s.onDev fun d => d.tnk.grp.foldl Dev.stallStep d) := rfl

theorem Dev.stallStep_of_short {d : Dev} {g : Nat} (h : mget 0 d.tnk.stall g < d.fld (F.TNK_SGCFG_STALL g)) : d.stallStep g = d :=
  if_neg (Nat.not_le.mpr h)

theorem Dev.stallSteps_of_short {d : Dev} (gs : List Nat) (h : ∀ g ∈ gs, mget 0 d.tnk.stall g < d.fld (F.TNK_SGCFG_STALL g)) :
    gs.foldl Dev.stallStep d = d := by
  induction gs with
  | nil => rfl
  | cons g rest ih =>
    rw [List.foldl_cons, Dev.stallStep_of_short (h g List.mem_cons_self)]
    exact ih fun k hk => h k (List.mem_cons_of_mem _ hk)

/-- What the stall watch leaves: jobs and most registers; what it shows and raises stays. -/
structure Dev.StallKept (d e : Dev) : Prop where
  jobs : e.jobs = d.jobs
  regs : d.regsBut e (R.TNK_SGSTAT :: irqRegs)
  causes : ∀ k r, r ∈ (d.dom k).causes → r ∈ (e.dom k).causes
  bits : ∀ i < 32, bitOf (d.reg R.TNK_SGSTAT) i = true → bitOf (e.reg R.TNK_SGSTAT) i = true

namespace Dev.StallKept
variable {d e f : Dev}

theorem refl (d : Dev) : d.StallKept d := ⟨rfl, .refl d _, fun _ _ h => h, fun _ _ h => h⟩

theorem trans (h : d.StallKept e) (g : e.StallKept f) : d.StallKept f :=
  ⟨g.jobs.trans h.jobs, h.regs.trans g.regs, fun k r hr => g.causes k r (h.causes k r hr), fun i hi hb => g.bits i hi (h.bits i hi hb)⟩

end Dev.StallKept

theorem sgStat_notMem_irqRegs : R.TNK_SGSTAT ∉ irqRegs := by decide

theorem Dev.stallKept_stallShown (d : Dev) (g : Nat) : d.StallKept (d.stallShown g) := by
  refine ⟨by simp [Dev.stallShown], (Dev.regsBut.refl d _).setReg List.mem_cons_self _, fun k r h => ?_, fun i hi hb => ?_⟩
  · have hf : (d.stallShown g).fen = d.fen := by simp [Dev.stallShown]
    rw [Dev.dom, hf]
    exact h
  · rw [Dev.stallShown, Dev.reg_setReg, if_pos rfl, bitOf_putBit _ _ _ _ hi]
    split
    · rfl
    · exact hb

theorem Dev.stallKept_raiseOne (d : Dev) (k : Nat) (r : Reason) : d.StallKept (d.raiseOne k r) := by
  have hregs := d.regsBut_raiseOne k r
  refine ⟨by simp, hregs.mono (List.subset_cons_self _ _), fun j x hx => (d.mem_causes_raiseOne k j r x).2 (.inl hx), fun i _ hb => ?_⟩
  rw [hregs _ sgStat_notMem_irqRegs]
  exact hb

/-- The members of a group fenced, each with its cause. -/
theorem Dev.groupRaised_raises (ns : List Nat) : ∀ d : Dev, d.StallKept (d.groupRaised ns) ∧ (d.groupRaised ns).tnk = d.tnk ∧
    ∀ n ∈ ns, Rsn.groupStall ∈ ((d.groupRaised ns).dom (domTe n)).causes := by
  induction ns with
  | nil => exact fun d => ⟨.refl d, rfl, fun n hn => absurd hn List.not_mem_nil⟩
  | cons a rest ih =>
    intro d
    obtain ⟨hkept, htnk, hcauses⟩ := ih (d.raiseOne (domTe a) Rsn.groupStall)
    have hcons : d.groupRaised (a :: rest) = (d.raiseOne (domTe a) Rsn.groupStall).groupRaised rest := rfl
    rw [hcons]
    refine ⟨(d.stallKept_raiseOne _ _).trans hkept, htnk.trans (by simp), fun n hn => ?_⟩
    rcases List.mem_cons.mp hn with rfl | hr
    · exact hkept.causes _ _ ((d.mem_causes_raiseOne _ _ _ _).2 (.inr ⟨rfl, rfl⟩))
    · exact hcauses n hr

theorem sgMask_notMem (g : Nat) : R.TNK_SGMASK_LO g ∉ R.TNK_SGSTAT :: irqRegs ∧ R.TNK_SGMASK_HI g ∉ R.TNK_SGSTAT :: irqRegs ∧
    R.TNK_SGCFG g ∉ R.TNK_SGSTAT :: irqRegs := by
  simp only [R.TNK_SGMASK_LO, R.TNK_SGMASK_HI, R.TNK_SGCFG, R.TNK_SGSTAT, irqRegs, R.HST_ISR0, R.HST_ISR1, R.MSIX_PBA, List.mem_cons, List.not_mem_nil,
    or_false]
  omega

/-- A group's members and its limit stay while groups are watched. -/
theorem Dev.StallKept.group {d e : Dev} (h : d.StallKept e) (g : Nat) : e.grpMask g = d.grpMask g ∧
    e.fld (F.TNK_SGCFG_STALL g) = d.fld (F.TNK_SGCFG_STALL g) := by
  obtain ⟨hlo, hhi, hcfg⟩ := sgMask_notMem g
  refine ⟨?_, h.regs.fld (f := F.TNK_SGCFG_STALL g) hcfg⟩
  unfold Dev.grpMask Dev.num2
  rw [h.regs.num hlo, h.regs.num hhi]

/-- A group that is shown as stalled, with its members fenced. -/
def Dev.GroupFenced (d : Dev) (g : Nat) : Prop :=
  bitOf (d.reg R.TNK_SGSTAT) (16 + g) = true ∧ ∀ n ∈ d.grpMask g, Rsn.groupStall ∈ (d.dom (domTe n)).causes

theorem Dev.GroupFenced.mono {d e : Dev} {g : Nat} (hg : g < 16) (h : d.GroupFenced g) (hk : d.StallKept e) : e.GroupFenced g := by
  refine ⟨hk.bits _ (by omega) h.1, fun n hn => hk.causes _ _ (h.2 n ?_)⟩
  rw [← (hk.group g).1]
  exact hn

/-- The stall watch of one group. -/
theorem Dev.stallStep_watches (d : Dev) (g : Nat) : d.StallKept (d.stallStep g) ∧
    (∀ k, k ≠ g → mget 0 (d.stallStep g).tnk.stall k = mget 0 d.tnk.stall k) ∧
    (g < 16 → d.fld (F.TNK_SGCFG_STALL g) ≤ mget 0 d.tnk.stall g → (d.stallStep g).GroupFenced g) := by
  unfold Dev.stallStep
  by_cases hdue : d.fld (F.TNK_SGCFG_STALL g) ≤ mget 0 d.tnk.stall g
  · rw [if_pos hdue]
    have hshown := d.stallKept_stallShown g
    have htnk : (d.stallShown g).tnk = d.tnk := by simp [Dev.stallShown]
    have hbit : g < 16 → bitOf ((d.stallShown g).reg R.TNK_SGSTAT) (16 + g) = true := fun hg => by
      rw [Dev.stallShown, Dev.reg_setReg, if_pos rfl, bitOf_putBit _ _ _ _ (by omega), if_pos rfl]
    generalize d.stallShown g = e at hshown htnk hbit
    obtain ⟨hraised, hrt, hcauses⟩ := Dev.groupRaised_raises (e.grpMask g) e
    have hgrp := (hraised.group g).1
    generalize e.groupRaised (e.grpMask g) = f at hraised hrt hcauses hgrp
    have hclear : f.StallKept (f.stallCleared g) := ⟨rfl, .of_regs rfl _, fun _ _ h => h, fun _ _ h => h⟩
    refine ⟨hshown.trans (hraised.trans hclear), fun k hk => ?_, fun hg _ => ?_⟩
    · have hst : mget 0 (f.stallCleared g).tnk.stall k = if k = g then 0 else mget 0 f.tnk.stall k :=
      mget_mset 0 f.tnk.stall g k 0
      rw [hst, if_neg hk, hrt, htnk]
    · refine Dev.GroupFenced.mono hg ⟨hraised.bits _ (by omega) (hbit hg), fun n hn => hcauses n ?_⟩ hclear
      rw [← hgrp]
      exact hn
  · rw [if_neg hdue]
    exact ⟨.refl d, fun _ _ => rfl, fun _ h => absurd h hdue⟩

/-- R669: every group that stalled for its limit is fenced. -/
theorem Dev.stallSteps_watch (gs : List Nat) : ∀ d : Dev, d.StallKept (gs.foldl Dev.stallStep d) ∧
    ∀ g ∈ gs, g < 16 → d.fld (F.TNK_SGCFG_STALL g) ≤ mget 0 d.tnk.stall g → (gs.foldl Dev.stallStep d).GroupFenced g := by
  induction gs with
  | nil => exact fun d => ⟨.refl d, fun g hg => absurd hg List.not_mem_nil⟩
  | cons a rest ih =>
    intro d
    obtain ⟨hstep, hstall, hfence⟩ := d.stallStep_watches a
    obtain ⟨hrest, hwatch⟩ := ih (d.stallStep a)
    rw [List.foldl_cons]
    refine ⟨hstep.trans hrest, fun g hg hlt hdue => ?_⟩
    by_cases hga : g = a
    · subst hga
      exact (hfence hlt hdue).mono hlt hrest
    · refine hwatch g ((List.mem_cons.mp hg).resolve_left hga) hlt ?_
      rw [hstall g hga, (hstep.group g).2]
      exact hdue

/-! ## The obligation -/

theorem exec_engineTick (n : Fin 64) (ci : Fin 240) (s : State) : exec (.engineTick n ci) s =
    .next (s.onDev fun d => if (d.setCi ci.val).engTicks n.val (d.setCi ci.val).cyc then (d.setCi ci.val).engTick n.val (d.setCi ci.val).cyc
      else d.setCi ci.val) := rfl

theorem Dev.engTicks_false {d : Dev} {n c : Nat} (h : d.flag (F.TNK_CFG_EN n) = false ∨ (d.eng n).running = false ∨ (d.eng n).halted = true ∨
    d.fenced (domTe n) = true ∨ d.pwr.vcore = false ∨ onGrid (d.eng n).c0 (d.num (R.TNK_DIV n)) c = false) : ¬d.engTicks n c = true := by
  unfold Dev.engTicks
  dsimp only
  rcases h with h | h | h | h | h | h
  · simp [h]
  · simp [h]
  · simp [h]
  · simp [h]
  · simp [h]
  · simp [h]

/-- An input change that reaches no wait. -/
theorem Dev.inputEdge_of_none {d : Dev} {g : Nat} {level : Bool} (h : d.inputOff g = true ∨ (mget (false, 0) d.tnk.inputs g).1 = level ∨
    d.pwr.vcore = false) : (d.inputOff g || (mget (false, 0) d.tnk.inputs g).1 == level || (d.ownInput g).getD level != level || !d.pwr.vcore) = true := by
  rcases h with h | h | h
  · simp [h]
  · simp [h]
  · simp [h]

theorem Dev.inputEdge_of_change {d : Dev} {g : Nat} {level : Bool} (hoff : d.inputOff g = false) (hl : (mget (false, 0) d.tnk.inputs g).1 ≠ level)
    (hv : d.pwr.vcore = true) (hown : (d.ownInput g).getD level = level) :
    ¬(d.inputOff g || (mget (false, 0) d.tnk.inputs g).1 == level || (d.ownInput g).getD level != level || !d.pwr.vcore) = true := by
  simp [hoff, hl, hv, hown]

/-- What an input change leaves, whatever the inputs. -/
theorem Dev.inputNoted_withInputs (d : Dev) (m : SMap (Bool × Nat)) (g : Nat) (level : Bool) :
    ((d.withInputs m).inputNoted g level).tnk.inputs = m ∧
    (∀ n < 64, ∀ i < 16, d.inMap n i = g → (d.eng n).running = true → (d.eng n).halted = false →
      ((if level then 64 else 80) + i, d.cyc + 2) ∈ (((d.withInputs m).inputNoted g level).eng n).ev) ∧
    (d.withInputs m).inputNoted g level = { d with tnk := { d.tnk with
      inputs := ((d.withInputs m).inputNoted g level).tnk.inputs, eng := ((d.withInputs m).inputNoted g level).tnk.eng } } := by
  obtain ⟨hgrow, hreach⟩ := (d.withInputs m).inputNoted_reaches g level
  have honly := hgrow.only
  generalize (d.withInputs m).inputNoted g level = e at honly hreach
  have hinputs : e.tnk.inputs = m := by rw [honly]; rfl
  refine ⟨hinputs, hreach, ?_⟩
  rw [hinputs]
  exact honly

/-- What an input change leaves. -/
theorem Dev.inputChange_leaves (d : Dev) (g : Nat) (level : Bool) :
    mget (false, 0) ((d.inputLatched g level).inputNoted g level).tnk.inputs g = (level, d.cyc) ∧
    (∀ n < 64, ∀ i < 16, d.inMap n i = g → (d.eng n).running = true → (d.eng n).halted = false →
      ((if level then 64 else 80) + i, d.cyc + 2) ∈ (((d.inputLatched g level).inputNoted g level).eng n).ev) ∧
    (d.inputLatched g level).inputNoted g level = { d with tnk := { d.tnk with
      inputs := ((d.inputLatched g level).inputNoted g level).tnk.inputs, eng := ((d.inputLatched g level).inputNoted g level).tnk.eng } } := by
  obtain ⟨hin, hrest⟩ := d.inputNoted_withInputs (mset (false, 0) d.tnk.inputs g (level, d.cyc)) g level
  refine ⟨?_, hrest⟩
  rw [Dev.inputLatched, hin, mget_mset, if_pos rfl]

/-- Settles O51: ticks by their grid and entry, inputs, kicks, host words, and the stall watch. -/
theorem enginesTickAndTakeInputs : Obligations.EnginesTickAndTakeInputs := by
  unfold Obligations.EnginesTickAndTakeInputs
  intro s at_
  refine ⟨?_, ?_, ?_, ?_, fun h => ?_, ?_⟩
  · intro n ci d e w0 w1 w2
    refine ⟨fun h => ?_, fun ht => ?_⟩
    · rw [exec_engineTick]
      exact congrArg (fun d : Dev => Host.Outcome.next { s with dev := d }) (if_neg (Dev.engTicks_false (d := d) h))
    · have hexec : exec (.engineTick n ci) s = .next { s with dev := d.engTick n.val d.cyc } := by
        rw [exec_engineTick]
        exact congrArg (fun d : Dev => Host.Outcome.next { s with dev := d }) (if_pos ht)
      obtain ⟨hlast, hsteps, hjobs⟩ := d.engTick_counts n.val d.cyc
      have hstep : e.entered = true → e.swapDue = false → blocks w0 (s.dev.entry n.val 3) = false →
          TickStep e ((d.engTick n.val d.cyc).eng n.val) w0 w1 w2 := fun he hs hb => Dev.engTick_of_unblocked (d := d) d.cyc he hs hb
      generalize d.engTick n.val d.cyc = f at hexec hlast hsteps hjobs hstep
      refine ⟨_, hexec, hlast, hsteps, hjobs, fun he hs hb => ?_⟩
      obtain ⟨hheld, hgoes⟩ := hstep he hs hb
      exact ⟨fun hlt => hheld (Nat.ne_of_lt hlt), fun heq h0 h1 => hgoes heq h0 h1⟩
  · intro g level ci d v
    refine ⟨fun h => ?_, fun hoff hl hv hown => ?_⟩
    · rw [exec_engineInputEdge]
      exact congrArg (fun d : Dev => Host.Outcome.next { s with dev := d }) (if_pos (Dev.inputEdge_of_none (d := d) h))
    · have hexec : exec (.engineInputEdge g level ci) s = .next { s with dev := (d.inputLatched g.val level).inputNoted g.val level } := by
        rw [exec_engineInputEdge]
        exact congrArg (fun d : Dev => Host.Outcome.next { s with dev := d }) (if_neg (Dev.inputEdge_of_change (d := d) hoff hl hv hown))
      obtain ⟨hin, hev, hframe⟩ := d.inputChange_leaves g.val level
      generalize (d.inputLatched g.val level).inputNoted g.val level = f at hexec hin hev hframe
      exact ⟨_, hexec, hin, hev, congrArg (fun d : Dev => { s with dev := d }) hframe⟩
  · intro port hi w hg
    have hexec : exec (.tnkKick port hi w) s = .next { s with dev := s.dev.writeKick hi w } := by
      rw [exec_tnkKick]
      exact congrArg (fun d : Dev => Host.Outcome.next { s with dev := d }) (Dev.viaPort_of_pass hg fun d => d.writeKick hi w)
    obtain ⟨honly, heng⟩ := s.dev.writeKick_kicks hi w
    generalize s.dev.writeKick hi w = f at hexec honly heng
    refine ⟨_, hexec, congrArg (fun d : Dev => { s with dev := d }) honly, fun k hk => ⟨fun hb hr => ?_, fun hn => ?_⟩⟩
    · exact (heng k hk).trans (if_pos ⟨hb, hr⟩)
    · refine (heng k hk).trans (if_neg fun h => ?_)
      rcases hn with hn | hn
      · exact Bool.false_ne_true (hn.symm.trans h.1)
      · exact Bool.false_ne_true (hn.symm.trans h.2)
  · intro port n w hg e room
    have hexec : exec (.tnkRxwr port n w) s = .next { s with dev := s.dev.writeRx n.val w } := by
      rw [exec_tnkRxwr]
      exact congrArg (fun d : Dev => Host.Outcome.next { s with dev := d }) (Dev.viaPort_of_pass hg fun d => d.writeRx n.val w)
    refine ⟨fun hr => ?_, fun hr => ?_⟩
    · rw [Dev.writeRx_of_room hr.1 hr.2] at hexec
      exact ⟨_, hexec, (s.dev.eng_setEng n.val n.val _).trans (if_pos rfl), fun k hk => (s.dev.eng_setEng n.val k _).trans (if_neg hk), rfl⟩
    · rw [Dev.writeRx_of_full hr] at hexec
      exact ⟨_, hexec, Dev.flag_setFlag_same s.dev (F.TNK_QSTAT_HOSTDROP n.val) true (show 16 < 32 by decide) rfl,
        (Dev.regsBut.refl s.dev _).setFlag (f := F.TNK_QSTAT_HOSTDROP n.val) (List.mem_singleton.mpr rfl) true, rfl⟩
  · rw [exec_groupStall]
    exact congrArg (fun d : Dev => Host.Outcome.next { s with dev := d }) (Dev.stallSteps_of_short s.dev.tnk.grp h)
  · obtain ⟨hkept, hwatch⟩ := Dev.stallSteps_watch s.dev.tnk.grp s.dev
    have hexec := exec_groupStall s
    have hgrp : ∀ g, (s.dev.tnk.grp.foldl Dev.stallStep s.dev).grpMask g = s.dev.grpMask g := fun g => (hkept.group g).1
    refine ⟨_, hexec, hkept.jobs, hkept.regs, fun g hg hlt hdue => ?_⟩
    obtain ⟨hbit, hcauses⟩ := hwatch g hg hlt hdue
    rw [hgrp] at hcauses
    exact ⟨hbit, hcauses⟩

end Sys2Proof.Machine
end

section

/-!
PROOF. Fences that are raised, and the manager's fence of a device as a whole (16_fences_and_recovery.md R752, R759, R787, R794; R409, R410).
-/

namespace Sys2Proof.Machine
open Sys2Proof

/-! ## What a raised fence leaves -/

/-- Beside the fences, their log, what is sent of it and the interrupt registers, e is d; no cause and no pending vector goes. -/
structure Dev.FencesRaised (d e : Dev) : Prop where
  frame : e = { d with regs := e.regs, fen := e.fen, wr := e.wr, out := e.out }
  wr : e.wr = { d.wr with bulk := e.wr.bulk }
  cmd : e.fen.cmd = d.fen.cmd
  regs : d.regsBut e irqRegs
  isr : ∀ i < 32, bitOf (d.reg R.HST_ISR0) i = true → bitOf (e.reg R.HST_ISR0) i = true
  causes : ∀ k r, r ∈ (d.dom k).causes → r ∈ (e.dom k).causes

namespace Dev.FencesRaised
variable {d e f : Dev}

theorem refl (d : Dev) : d.FencesRaised d := ⟨rfl, rfl, rfl, .refl d _, fun _ _ => id, fun _ _ => id⟩

theorem trans (h : d.FencesRaised e) (h' : e.FencesRaised f) : d.FencesRaised f := by
  obtain ⟨hframe, hwr, hcmd, hregs, hisr, hcauses⟩ := h
  obtain ⟨hframe', hwr', hcmd', hregs', hisr', hcauses'⟩ := h'
  refine ⟨?_, hwr'.trans (congrArg (fun r : RingSt => { r with bulk := f.wr.bulk }) hwr), hcmd'.trans hcmd, hregs.trans hregs',
    fun i hi => hisr' i hi ∘ hisr i hi, fun k r => hcauses' k r ∘ hcauses k r⟩
  rw [hframe] at hframe'
  exact hframe'

theorem foldl {A : Type} {step : Dev → A → Dev} (hs : ∀ d a, Dev.FencesRaised d (step d a)) (as : List A) :
    ∀ d : Dev, d.FencesRaised (as.foldl step d) := by
  induction as with
  | nil => exact .refl
  | cons a as ih => exact fun d => (hs d a).trans (ih _)

end Dev.FencesRaised

/-- A record of the reason log entered, or counted as lost. -/
def Dev.logEntered (d : Dev) (x : LogEntry) : Dev :=
  if d.fen.log.length < 64 then { d with fen := { d.fen with log := d.fen.log ++ [x] } }
  else { d with fen := { d.fen with logLost := satAdd 8 d.fen.logLost 1 } }

/-- A worker tells the manager of an entry. -/
def Dev.fenceTold (d : Dev) (k : Nat) (r : Reason) (inc : Nat) (clear : Bool) : Dev :=
  if d.boot.role == .worker then d.bulkPut d.wr.mgrPos 9 [2, BitVec.ofNat 32 k, r.setWidth 32, BitVec.ofNat 32 inc, if clear then 1 else 0] else d

theorem Dev.logFence_eq (d : Dev) (k : Nat) (r : Reason) (clear : Bool) : d.logFence k r clear =
    ((d.logEntered { dom := k, reason := r, inc := (d.dom k).inc, clear := clear, pos := d.pos, bn := d.now }).raiseIrq 16).fenceTold k r
      (d.dom k).inc clear := rfl

theorem Dev.fencesRaised_logEntered (d : Dev) (x : LogEntry) : d.FencesRaised (d.logEntered x) := by
  unfold Dev.logEntered
  split <;> exact ⟨rfl, rfl, rfl, .of_regs rfl _, fun _ _ => id, fun _ _ => id⟩

theorem Dev.raiseIrq_frame (d : Dev) (v : Nat) : d.raiseIrq v = { d with regs := (d.raiseIrq v).regs, out := (d.raiseIrq v).out } := by
  have h := d.raiseIrq_keeps v
  generalize d.raiseIrq v = e at *
  cases e
  simp_all

theorem Dev.fencesRaised_raiseIrq (d : Dev) (v : Nat) : d.FencesRaised (d.raiseIrq v) where
  frame := by
    have h := d.raiseIrq_frame v
    generalize d.raiseIrq v = e at *
    rw [h]
  wr := by simp
  cmd := by simp
  regs := (Dev.regsBut.refl d _).raiseIrq (fun _ => id) v
  isr := fun _ hi h => Dev.isr0_mono_raiseIrq hi h v
  causes := fun k r hr => by rw [Dev.dom, (show (d.raiseIrq v).fen = d.fen by simp)]; exact hr

theorem Dev.fencesRaised_fenceTold (d : Dev) (k : Nat) (r : Reason) (inc : Nat) (clear : Bool) : d.FencesRaised (d.fenceTold k r inc clear) := by
  unfold Dev.fenceTold
  split
  · have hframe := d.bulkPut_frame d.wr.mgrPos 9 [2, BitVec.ofNat 32 k, r.setWidth 32, BitVec.ofNat 32 inc, if clear then 1 else 0]
    have hwr := d.wr_bulkPut d.wr.mgrPos 9 [2, BitVec.ofNat 32 k, r.setWidth 32, BitVec.ofNat 32 inc, if clear then 1 else 0]
    generalize d.bulkPut d.wr.mgrPos 9 [2, BitVec.ofNat 32 k, r.setWidth 32, BitVec.ofNat 32 inc, if clear then 1 else 0] = e at *
    rw [hframe]
    exact ⟨rfl, hwr, rfl, .of_regs rfl _, fun _ _ => id, fun _ _ => id⟩
  · exact .refl d

theorem Dev.fencesRaised_logFence (d : Dev) (k : Nat) (r : Reason) (clear : Bool) : d.FencesRaised (d.logFence k r clear) := by
  rw [Dev.logFence_eq]
  exact ((d.fencesRaised_logEntered _).trans (Dev.fencesRaised_raiseIrq _ 16)).trans (Dev.fencesRaised_fenceTold _ _ _ _ _)

/-- The domain's causes with one more. -/
def DomSt.raised (v : DomSt) (r : Reason) : DomSt :=
  if v.causes.isEmpty then { v with causes := [r], reason := r, unfencing := false } else { v with causes := v.causes ++ [r] }

theorem DomSt.mem_raised {v : DomSt} {x : Reason} (h : x ∈ v.causes) (r : Reason) : x ∈ (v.raised r).causes := by
  unfold DomSt.raised
  split
  case isTrue he => rw [List.isEmpty_iff.1 he] at h; exact absurd h List.not_mem_nil
  · exact List.mem_append_left _ h

theorem Dev.fencesRaised_setDom_raised (d : Dev) (k : Nat) (r : Reason) : d.FencesRaised (d.setDom k ((d.dom k).raised r)) :=
  ⟨rfl, rfl, rfl, .of_regs rfl _, fun _ _ => id, fun n x hx => by
    unfold Dev.setDom Dev.dom
    rw [mget_mset]
    split
    case isTrue hn => subst hn; exact DomSt.mem_raised hx r
    · exact hx⟩

/-- A domain noted as raised in this beat, and as fenced afresh at its first cause. -/
def Dev.raiseNoted (d : Dev) (k : Nat) (first : Bool) : Dev :=
  let d := { d with fen := { d.fen with raisedNow := k :: d.fen.raisedNow } }
  if first then { d with fen := { d.fen with fresh := d.fen.fresh ++ [k] } } else d

theorem Dev.raiseOne_eq (d : Dev) (k : Nat) (r : Reason) : d.raiseOne k r = if (d.dom k).causes.contains r then d else
    ((d.setDom k ((d.dom k).raised r)).logFence k r false).raiseNoted k (d.dom k).causes.isEmpty := rfl

theorem Dev.fencesRaised_raiseNoted (d : Dev) (k : Nat) (first : Bool) : d.FencesRaised (d.raiseNoted k first) := by
  cases first <;> exact ⟨rfl, rfl, rfl, .of_regs rfl _, fun _ _ => id, fun _ _ => id⟩

theorem Dev.fencesRaised_raiseOne (d : Dev) (k : Nat) (r : Reason) : d.FencesRaised (d.raiseOne k r) := by
  rw [Dev.raiseOne_eq]
  split
  · exact .refl d
  · exact ((d.fencesRaised_setDom_raised k r).trans (Dev.fencesRaised_logFence _ k r false)).trans (Dev.fencesRaised_raiseNoted _ _ _)

theorem Dev.fencesRaised_raiseCause (d : Dev) (k : Nat) (r : Reason) : d.FencesRaised (d.raiseCause k r) := by
  unfold Dev.raiseCause
  dsimp only
  split
  · exact (d.fencesRaised_raiseOne k r).trans (.foldl (fun d _ => d.fencesRaised_raiseOne _ _) _ _)
  · exact d.fencesRaised_raiseOne k r

theorem Dev.fencesRaised_raiseAll (d : Dev) (l : List (Nat × Reason)) : d.FencesRaised (d.raiseAll l) :=
  .foldl (fun e (c : Nat × Reason) => e.fencesRaised_raiseCause c.1 c.2) _ d

/-! ## A device lost -/

/-- The jobs of a position without an outcome. -/
def Dev.openAt (d : Dev) (p : Nat) : List Job := d.jobs.filter fun j => j.exec == p && j.out.isNone

/-- The manager takes a job of a lost position to be gone with it (R409, R410). -/
def Dev.goneAt (d : Dev) (p : Nat) (j : Job) : Bool :=
  j.active || ((j.sent || j.st == .dispatched) && (d.fld (F.JR_BIND_TSRC j.ring) == 3 ||
    decide (((d.openAt p).filter (fun k => k.ring == j.ring && !k.active && (k.sent || k.st == .dispatched) && decide (k.hm < j.hm))).length <
      d.now - mget 0 d.wr.statusBn p + 1)))

/-- A job of a lost position ends UNCONFIRMED, or waits to be sent again. -/
def Dev.lostJob (gone : Job → Bool) (d : Dev) (j : Job) : Dev :=
  if gone j then (d.modJob j.hm (fun j => { j with armed := false })).endJob j.hm { typ := 7, reason := Rsn.uncExecutorLost, bn := d.now }
  else d.modJob j.hm (fun j => { j with st := .accepted, sent := false })

/-- The tags of a position dropped. -/
def Dev.tagsLost (d : Dev) (p : Nat) : Dev := { d with wr := { d.wr with tags := d.wr.tags.filter (fun t => t.2.1 != p) } }

theorem Dev.lostJobs_eq (d : Dev) (p : Nat) : d.lostJobs p = ((d.openAt p).foldl (Dev.lostJob (d.goneAt p)) d).tagsLost p := rfl

/-- What the manager holds for a position dropped. -/
def Dev.shareLost (d : Dev) (p : Nat) : Dev :=
  let left := d.wr.win.filter (fun w : WinAcc => w.pos != p)
  let wr := { d.wr with credit := mset 256 d.wr.credit p 256, win := left, prov := mset 0 d.wr.prov p 0,
                        bulk := d.wr.bulk.filter (fun x : BulkMsg => x.dst != p),
                        badPos := d.wr.badPos.filter (fun x : Nat × Reason => x.1 != p),
                        seenItems := d.wr.seenItems.filter (fun x : Nat × Nat × Nat => x.1 != p) }
  let ldg := { d.ldg with declared := d.ldg.declared.filter (· != p),
                          decide_ := d.ldg.decide_.filter (fun x : Nat × List (Nat × Bool) => x.1 != p) }
  let pwr := { d.pwr with sent := d.pwr.sent.filter (fun x : Nat × Nat => x.1 != p) }
  { d with wr := wr, ldg := ldg, pwr := pwr }

/-- The window accesses of a lost position end with ERR, and its leases are counted. -/
def Dev.windowsLost (d : Dev) (wins left : List WinAcc) : Dev :=
  let d := if wins.isEmpty then d else (d.setFlag F.WR_WINSTAT_ERR true).setFld F.WR_WINSTAT_WPEND ((left.filter (fun w => w.write.isSome)).length)
  let d := (wins.filter (fun w => w.write.isNone)).foldl (fun d w => d.emit (.readData w.port 0)) d
  d.reclaimed (1 + wins.length)

/-- The mirror's work dropped with the reserve. -/
def Dev.reserveGone (d : Dev) : Dev :=
  { d with wr := { d.wr with resPos := none }, ldg := { d.ldg with catchup := false, toMirror := [], mirror := [] } }.setFlag F.LDG_STAT_CATCHUP false

/-- The loss of the reserve ends dual seal (R383). -/
def Dev.reserveLost (d : Dev) (p : Nat) : Dev := if d.wr.resPos = some p then d.endDual.reserveGone else d

/-- The cancels that a lost position has not answered are answered (R344). -/
def Dev.cancelsLost (d : Dev) (p : Nat) : Dev :=
  (d.adm.cancelWait.filter (fun hm => match d.job? hm with
    | some j => j.exec == p
    | none => true)).foldl (fun d hm => d.cancelAnswer hm Rsn.uncExecutorLost) d

/-- What the manager drops with a lost position, beside its jobs. -/
def Dev.workerLost (d : Dev) (p : Nat) : Dev :=
  (((d.shareLost p).windowsLost (d.wr.win.filter (fun w : WinAcc => w.pos == p)) (d.wr.win.filter (fun w : WinAcc => w.pos != p))).reserveLost
    p).cancelsLost p

theorem Dev.fenceWorker_eq (d : Dev) (p : Nat) (r : Reason) : d.fenceWorker p r = if d.fenced (domWorker p) then d.raiseCause (domWorker p) r
    else ((d.raiseCause (domWorker p) r).lostJobs p).workerLost p := rfl

/-- The registers that the loss of a device may write. -/
def lossRegs : List Nat := [R.WR_WINSTAT, R.FEN_RECLAIMCNT, R.LDG_STAT, R.SUP_ROLE, R.JR_CANCEL_CNT, R.JR_CANCEL_STAT] ++ irqRegs ++ endRegs

/-- The loss of a device leaves fences, start-up, commit, time and the presence of positions, and what it does not name of the registers. -/
structure Dev.LossKept (d e : Dev) : Prop where
  fen : e.fen = d.fen
  scc : e.scc = d.scc
  boot : e.boot = d.boot
  t : e.t = d.t
  present : e.wr.present = d.wr.present
  regs : d.regsBut e lossRegs

namespace Dev.LossKept
variable {d e f : Dev}

theorem refl (d : Dev) : d.LossKept d := ⟨rfl, rfl, rfl, rfl, rfl, .refl d _⟩

theorem trans (h : d.LossKept e) (h' : e.LossKept f) : d.LossKept f :=
  ⟨h'.fen.trans h.fen, h'.scc.trans h.scc, h'.boot.trans h.boot, h'.t.trans h.t, h'.present.trans h.present, h.regs.trans h'.regs⟩

theorem foldl {A : Type} {step : Dev → A → Dev} (hs : ∀ d a, Dev.LossKept d (step d a)) (as : List A) : ∀ d : Dev, d.LossKept (as.foldl step d) := by
  induction as with
  | nil => exact .refl
  | cons a as ih => exact fun d => (hs d a).trans (ih _)

theorem of_jobsFrame (h : d.JobsFrame e) : d.LossKept e := by
  obtain ⟨hframe, -, hwr, hregs⟩ := h
  exact ⟨by rw [hframe], by rw [hframe], by rw [hframe], by rw [hframe], by rw [hwr], hregs.mono fun _ => List.mem_append_right _⟩

theorem setFld (h : d.LossKept e) {g : Fld} (hg : g.a ∈ lossRegs) (v : Nat) : d.LossKept (e.setFld g v) :=
  ⟨h.fen, h.scc, h.boot, h.t, h.present, h.regs.setFld hg v⟩

theorem setFlag (h : d.LossKept e) {g : Fld} (hg : g.a ∈ lossRegs) (b : Bool) : d.LossKept (e.setFlag g b) := h.setFld hg _

end Dev.LossKept

theorem Dev.jobsFrame_lostJob (gone : Job → Bool) (d : Dev) (j : Job) : d.JobsFrame (d.lostJob gone j) := by
  unfold Dev.lostJob
  split
  · exact (Dev.JobsFrame.modJob d _ _).trans (Dev.jobsFrame_endJob _ _ _)
  · exact .modJob d _ _

theorem Dev.lossKept_lostJobs (d : Dev) (p : Nat) : d.LossKept (d.lostJobs p) := by
  rw [Dev.lostJobs_eq]
  have hfold := Dev.LossKept.of_jobsFrame (Dev.JobsFrame.foldl (Dev.jobsFrame_lostJob (d.goneAt p)) (d.openAt p) d)
  exact hfold.trans ⟨rfl, rfl, rfl, rfl, rfl, .of_regs rfl _⟩

theorem Dev.jobsTouched_lostJob (gone : Job → Bool) (d : Dev) (j : Job) : d.JobsTouched (d.lostJob gone j) [j.hm] := by
  unfold Dev.lostJob
  split
  · exact (Dev.JobsTouched.modJob d (g := fun j => { j with armed := false }) (fun _ => rfl) (fun _ => rfl) j.hm).trans (Dev.jobsTouched_endJob _ _ _)
  · exact .modJob d (g := fun j => { j with st := .accepted, sent := false }) (fun _ => rfl) (fun _ => rfl) j.hm

theorem Dev.jobsTouched_lostJobs (d : Dev) (p : Nat) : d.JobsTouched (d.lostJobs p) ((d.openAt p).map Job.hm) := by
  rw [Dev.lostJobs_eq]
  exact (Dev.JobsTouched.foldl (key := Job.hm) (Dev.jobsTouched_lostJob (d.goneAt p)) (d.openAt p) d).trans (.of_jobs rfl _)

/-- A bound or striking job of a lost position ends UNCONFIRMED (R409). -/
theorem Dev.lostJobs_ends {d : Dev} (hnd : (d.jobs.map Job.hm).Nodup) {p : Nat} {j : Job} (hj : j ∈ d.jobs) (hexec : j.exec = p)
    (hact : j.active = true) (hout : j.out = none) :
    ∃ k ∈ (d.lostJobs p).jobs, j.EndsAs k { typ := 7, reason := Rsn.uncExecutorLost, bn := d.now } := by
  have hmem : j ∈ d.openAt p := List.mem_filter.2 ⟨hj, by simp [hexec, hout]⟩
  have hopen : ((d.openAt p).map Job.hm).Nodup := hnd.sublist (List.filter_sublist.map _)
  obtain ⟨e, hnow, hsame, hkept, hlast⟩ := Dev.JobsTouched.foldl_reaches (key := Job.hm) (Dev.jobsTouched_lostJob (d.goneAt p))
    (P := fun e => e.now = d.now) (fun e a he => (show (e.lostJob (d.goneAt p) a).now = e.now by
      unfold Dev.now; rw [(Dev.LossKept.of_jobsFrame (Dev.jobsFrame_lostJob _ e a)).t]).trans he) (d.openAt p) d hopen rfl j hmem
  have hgone : d.goneAt p j = true := by simp [Dev.goneAt, hact]
  have hfound : e.job? j.hm = some j := Dev.job?_of_mem (by rw [hsame]; exact hnd) (hkept j hj rfl)
  have hdisarmed : (e.modJob j.hm fun j => { j with armed := false }).job? j.hm = some { j with armed := false } := Dev.job?_modJob hfound fun _ => rfl
  obtain ⟨k, hk, hend⟩ := Dev.endJob_ends hdisarmed hout { typ := 7, reason := Rsn.uncExecutorLost, bn := e.now }
  have hstep : k ∈ (e.lostJob (d.goneAt p) j).jobs := by
    unfold Dev.lostJob
    rw [if_pos hgone]
    exact hk
  exact ⟨k, hlast k hstep hend.hm, hend.hm, hend.st, hnow ▸ hend.out⟩

theorem Dev.lossKept_foldl_emit (ws : List WinAcc) (d : Dev) : d.LossKept (ws.foldl (fun d w => d.emit (.readData w.port 0)) d) :=
  .foldl (step := fun d (w : WinAcc) => d.emit (.readData w.port 0)) (fun _ _ => ⟨rfl, rfl, rfl, rfl, rfl, .of_regs rfl _⟩) ws d

theorem Dev.lossKept_windowsLost (d : Dev) (wins left : List WinAcc) : d.LossKept (d.windowsLost wins left) := by
  have hshown : d.LossKept (if wins.isEmpty then d else
      (d.setFlag F.WR_WINSTAT_ERR true).setFld F.WR_WINSTAT_WPEND ((left.filter (fun w => w.write.isSome)).length)) := by
    split
    · exact .refl d
    · exact ((Dev.LossKept.refl d).setFlag (g := F.WR_WINSTAT_ERR) (by simp [lossRegs]) _).setFld (by simp [lossRegs]) _
  exact (hshown.trans (Dev.lossKept_foldl_emit _ _)).setFld (g := F.FEN_RECLAIMCNT_LEASES) (by simp [lossRegs]) _

theorem Dev.lossKept_mirrorDropped (d : Dev) : d.LossKept d.mirrorDropped := ⟨rfl, rfl, rfl, rfl, rfl, .of_regs rfl _⟩

theorem Dev.lossKept_endDual (d : Dev) : d.LossKept d.endDual := by
  by_cases h : d.ldg.dual = true
  · rw [Dev.endDual_of_dual h]
    have hshown := (d.lossKept_mirrorDropped.setFlag (g := F.LDG_STAT_DUAL) (by simp [lossRegs]) false).setFlag (g := F.SUP_ROLE_DUAL_SEAL)
      (by simp [lossRegs]) false
    exact hshown.trans ⟨rfl, rfl, rfl, rfl, rfl, .of_regs rfl _⟩
  · rw [Dev.endDual_of_single h]; exact .refl d

theorem Dev.lossKept_reserveLost (d : Dev) (p : Nat) : d.LossKept (d.reserveLost p) := by
  have hgone : ∀ e : Dev, e.LossKept e.reserveGone := fun e => by
    have hdropped : e.LossKept { e with wr := { e.wr with resPos := none }, ldg := { e.ldg with catchup := false, toMirror := [], mirror := [] } } :=
      ⟨rfl, rfl, rfl, rfl, rfl, .of_regs rfl _⟩
    exact hdropped.setFlag (by simp [lossRegs]) false
  unfold Dev.reserveLost
  split
  · exact d.lossKept_endDual.trans (hgone _)
  · exact .refl d

theorem Dev.lossKept_cancelDone (d : Dev) : d.LossKept d.cancelDone := by
  unfold Dev.cancelDone
  split
  · exact ((Dev.LossKept.refl d).setFlag (g := F.JR_CANCEL_STAT_BUSY) (by simp [lossRegs]) _).setFld (by simp [lossRegs]) _
  · exact .refl d

theorem Dev.lossKept_cancelAnswer (d : Dev) (hm : Nat) (r : Reason) : d.LossKept (d.cancelAnswer hm r) := by
  have hleft : ∀ a : AdmSt, d.LossKept { d with adm := a } := fun _ => ⟨rfl, rfl, rfl, rfl, rfl, .of_regs rfl _⟩
  unfold Dev.cancelAnswer
  split
  · refine .trans ?_ (Dev.lossKept_cancelDone _)
    split
    · exact (hleft _).setFld (g := F.JR_CANCEL_CNT_JOBS) (by simp [lossRegs]) _
    · exact (hleft _).setFld (g := F.JR_CANCEL_STAT_SKIPPED) (by simp [lossRegs]) _
  · exact .refl d

theorem Dev.lossKept_workerLost (d : Dev) (p : Nat) : d.LossKept (d.workerLost p) := by
  have hshare : d.LossKept (d.shareLost p) := ⟨rfl, rfl, rfl, rfl, rfl, .of_regs rfl _⟩
  exact ((hshare.trans (Dev.lossKept_windowsLost _ _ _)).trans (Dev.lossKept_reserveLost _ p)).trans
    (.foldl (fun d hm => d.lossKept_cancelAnswer hm _) _ _)

theorem Dev.jobs_cancelAnswer (d : Dev) (hm : Nat) (r : Reason) : (d.cancelAnswer hm r).jobs = d.jobs := by
  unfold Dev.cancelAnswer Dev.cancelDone
  dsimp only
  (repeat' split) <;> rfl

theorem Dev.jobs_endDual (d : Dev) : d.endDual.jobs = d.jobs := by
  unfold Dev.endDual
  split <;> rfl

theorem Dev.jobs_windowsLost (d : Dev) (wins left : List WinAcc) : (d.windowsLost wins left).jobs = d.jobs := by
  unfold Dev.windowsLost Dev.reclaimed
  dsimp only
  rw [(Dev.addSat_keeps _ _ _).2.2.2.2.2.2.2.2.2.2.2.1, foldl_keeps (fun d (w : WinAcc) => d.emit (.readData w.port 0)) Dev.jobs (fun _ _ => rfl)]
  split <;> rfl

theorem Dev.jobs_workerLost (d : Dev) (p : Nat) : (d.workerLost p).jobs = d.jobs := by
  have hreserve : ∀ e : Dev, (e.reserveLost p).jobs = e.jobs := fun e => by
    unfold Dev.reserveLost
    split
    · exact e.jobs_endDual
    · rfl
  unfold Dev.workerLost Dev.cancelsLost
  rw [foldl_keeps (fun d hm => d.cancelAnswer hm Rsn.uncExecutorLost) Dev.jobs (fun e hm => e.jobs_cancelAnswer hm _), hreserve, Dev.jobs_windowsLost]
  rfl

/-! ## The fence of a device -/

/-- After the fence of a device: its cause stands with all others, commit, start-up and time stay, and only its own jobs may change. -/
structure Dev.WorkerFenced (d e : Dev) (p : Nat) (r : Reason) : Prop where
  cause : r ∈ (e.dom (domWorker p)).causes
  causes : ∀ k x, x ∈ (d.dom k).causes → x ∈ (e.dom k).causes
  cmd : e.fen.cmd = d.fen.cmd
  scc : e.scc = d.scc
  boot : e.boot = d.boot
  t : e.t = d.t
  present : e.wr.present = d.wr.present
  regs : d.regsBut e lossRegs
  jobs : d.JobsTouched e ((d.openAt p).map Job.hm)

theorem irqRegs_subset_lossRegs : irqRegs ⊆ lossRegs := fun _ h => List.mem_append_left _ (List.mem_append_right _ h)

theorem Dev.fenceWorker_fences (d : Dev) (p : Nat) (r : Reason) : d.WorkerFenced (d.fenceWorker p r) p r := by
  have hraised := d.fencesRaised_raiseCause (domWorker p) r
  have hcause := d.mem_causes_raiseCause (domWorker p) r
  have hjobs : (d.raiseCause (domWorker p) r).jobs = d.jobs := by simp
  have hscc : (d.raiseCause (domWorker p) r).scc = d.scc := by simp
  have hboot : (d.raiseCause (domWorker p) r).boot = d.boot := by simp
  have ht : (d.raiseCause (domWorker p) r).t = d.t := by simp
  have hpresent : (d.raiseCause (domWorker p) r).wr.present = d.wr.present := by rw [hraised.wr]
  rw [Dev.fenceWorker_eq]
  generalize d.raiseCause (domWorker p) r = e at *
  split
  · exact ⟨hcause, hraised.causes, hraised.cmd, hscc, hboot, ht, hpresent, hraised.regs.mono irqRegs_subset_lossRegs, .of_jobs hjobs _⟩
  · have hopen : e.openAt p = d.openAt p := by simp only [Dev.openAt, hjobs]
    have hlost := (e.lossKept_lostJobs p).trans (Dev.lossKept_workerLost _ p)
    have htouched := e.jobsTouched_lostJobs p
    have hkept := (e.lostJobs p).jobs_workerLost p
    generalize (e.lostJobs p).workerLost p = f at *
    rw [hopen] at htouched
    exact ⟨by rw [Dev.dom, hlost.fen]; exact hcause, fun k x hx => by rw [Dev.dom, hlost.fen]; exact hraised.causes k x hx,
      (congrArg FenSt.cmd hlost.fen).trans hraised.cmd, hlost.scc.trans hscc, hlost.boot.trans hboot, hlost.t.trans ht, hlost.present.trans hpresent,
      (hraised.regs.mono irqRegs_subset_lossRegs).trans hlost.regs, ((Dev.JobsTouched.of_jobs hjobs _).trans htouched).trans (.of_jobs hkept _)⟩

/-- A device that was free ends the active jobs of the position with its fence. -/
theorem Dev.fenceWorker_ends {d : Dev} (hnd : (d.jobs.map Job.hm).Nodup) {p : Nat} (hfree : d.fenced (domWorker p) = false) {j : Job} (hj : j ∈ d.jobs)
    (hexec : j.exec = p) (hact : j.active = true) (hout : j.out = none) (r : Reason) :
    ∃ k ∈ (d.fenceWorker p r).jobs, j.EndsAs k { typ := 7, reason := Rsn.uncExecutorLost, bn := d.now } := by
  have hjobs : (d.raiseCause (domWorker p) r).jobs = d.jobs := by simp
  have hnow : (d.raiseCause (domWorker p) r).now = d.now := by simp [Dev.now]
  rw [Dev.fenceWorker_eq, if_neg (by rw [hfree]; decide), Dev.jobs_workerLost, ← hnow]
  generalize d.raiseCause (domWorker p) r = e at *
  exact Dev.lostJobs_ends (hjobs ▸ hnd) (hjobs ▸ hj) hexec hact hout

end Sys2Proof.Machine
end

section

/-!
PROOF. Lost lanes, lost positions and lost origins on the ring, and an unwrap (15_wilin_ring.md R734, R755 to R757, R759, R760, R764, R765).
-/

namespace Sys2Proof.Machine
open Sys2Proof

/-! ## The cuts set -/

/-- After the cuts are set: they stand, and fences, clock, start-up, power, time and the rest of the ring are as before. -/
structure Dev.CutsSet (d e : Dev) (cs : List Nat) : Prop where
  wr : e.wr = { d.wr with cut := cs, items := e.wr.items, bulk := e.wr.bulk }
  fen : e.fen = d.fen
  clk : e.clk = d.clk
  boot : e.boot = d.boot
  pwr : e.pwr = d.pwr
  t : e.t = d.t
  regs : d.regsBut e (R.WR_STAT :: cutRegs)

theorem Dev.setCuts_sets (d : Dev) (cs : List Nat) : d.CutsSet (d.setCuts cs) cs := by
  by_cases h : cs = d.wr.cut
  · rw [h, Dev.setCuts_same]
    exact ⟨rfl, rfl, rfl, rfl, rfl, rfl, .refl d _⟩
  · obtain ⟨hwr, hfen, hclk, hboot, hpwr, ht, -, -, hregs⟩ := Dev.cutKept_setCuts (d := d) h
    have hshown : d.regsBut (d.cutShown cs) [R.WR_STAT] := .setFld (.setFlag (.of_regs rfl _) (by simp) _) (by simp) _
    exact ⟨hwr.trans (by rw [(d.cutShown_keeps cs).1]), hfen, hclk, hboot, hpwr, ht,
      (hshown.mono (by simp)).trans (hregs.mono (List.subset_cons_self _ _))⟩

theorem wrStat_notMem_cutRegs : R.WR_STAT ∉ cutRegs := by
  simp only [cutRegs, List.mem_append, not_or]
  refine ⟨⟨by decide, by decide⟩, ?_⟩
  simp only [endRegs, edgeRegs, talRegs, List.mem_append, List.mem_map, List.mem_range, R.WR_STAT, R.PO_EDGECNT, R.TAL_LAST, R.TAL_STAT, R.TAL_GAPCNT,
    R.SP_SBRD]
  omega

/-- New cuts are shown. -/
theorem Dev.setCuts_shows {d : Dev} {cs : List Nat} (h : cs ≠ d.wr.cut) : (d.setCuts cs).flag F.WR_STAT_WRAPPED = !cs.isEmpty := by
  rw [(Dev.cutKept_setCuts h).regs.flag wrStat_notMem_cutRegs]
  unfold Dev.cutShown Dev.showLat
  dsimp only
  rw [flag_setFld_ne _ _ _ _ (by decide) (by decide), flag_setFlag_same _ _ _ (by decide) rfl]

/-! ## A side that wraps -/

/-- The side wrapped, and fenced. -/
def Dev.sideLost (d : Dev) (k : Nat) (r : Reason) : Dev :=
  (d.setSide k { d.side k with lstate := 5, wrapped := true, laneLost := r == Rsn.ringLaneLoss, origin := false }).raiseCause (domSide k) r

/-- A device that does not originate leaves a lost clock side. -/
def Dev.clockLeft (d : Dev) (k : Nat) : Dev := if d.isMgr then d else d.leaveSide k

/-- The cuts with a hop. -/
def Dev.cutsWith (d : Dev) (h : Nat) : List Nat := if d.wr.cut.contains h then d.wr.cut else d.wr.cut ++ [h]

theorem Dev.wrapSide_of_up {d : Dev} {k : Nat} (h : (d.side k).lstate = 4) (r : Reason) : d.wrapSide k r =
    (((d.sideLost k r).clockLeft k).setCuts (((d.sideLost k r).clockLeft k).cutsWith (((d.sideLost k r).clockLeft k).hopOf k))).raiseIrq 19 :=
  if_neg (by simp [h])

/-- What a lost clock side leads to (R734). -/
structure Dev.ClockLeft (d e : Dev) (k : Nat) : Prop where
  frame : e = { d with wr := e.wr, clk := e.clk, draws := e.draws }
  wr : e.wr = { d.wr with sideChange := e.wr.sideChange }
  clk : e.clk = { d.clk with frozen := e.clk.frozen }
  moves : d.isMgr = false → d.wr.clockSide = k → d.wr.sideChange = none → (d.side (1 - k)).lstate = 4 →
    ∃ b, e.wr.sideChange = some b ∧ d.now ≤ b ∧ b ≤ d.now + 2
  freezes : d.isMgr = false → d.wr.clockSide = k → d.wr.sideChange = none → (d.side (1 - k)).lstate ≠ 4 → e.clk.frozen = true

theorem Dev.clockLeft_left (d : Dev) (k : Nat) : d.ClockLeft (d.clockLeft k) k := by
  unfold Dev.clockLeft Dev.leaveSide
  split
  case isTrue hm => exact ⟨rfl, rfl, rfl, fun hn => absurd hm (by simp [hn]), fun hn => absurd hm (by simp [hn])⟩
  case isFalse =>
    split
    case isTrue hstay =>
      have hno : ∀ {P : Prop}, d.wr.clockSide = k → d.wr.sideChange = none → P := fun hside hnone => by simp [hside, hnone] at hstay
      exact ⟨rfl, rfl, rfl, fun _ hside hnone => hno hside hnone, fun _ hside hnone => hno hside hnone⟩
    case isFalse =>
      split
      case isTrue hup =>
        exact ⟨rfl, rfl, rfl, fun _ _ _ _ => ⟨_, rfl, Nat.le_add_right _ _, Nat.add_le_add_left (by omega) _⟩,
          fun _ _ _ hn => absurd (beq_iff_eq.1 hup) hn⟩
      case isFalse hdown => exact ⟨rfl, rfl, rfl, fun _ _ _ hup => absurd (beq_iff_eq.2 hup) hdown, fun _ _ _ _ => rfl⟩

theorem Dev.hopOf_congr {d e : Dev} (hpos : e.pos = d.pos) (hpresent : e.wr.present = d.wr.present) {k : Nat}
    (hseen : (e.side k).nbrSeen = (d.side k).nbrSeen) (hnbr : (e.side k).nbrPos = (d.side k).nbrPos) : e.hopOf k = d.hopOf k := by
  have hbefore : e.before d.pos = d.before d.pos := by unfold Dev.before; rw [hpos, hpresent]
  unfold Dev.hopOf
  rw [hpos, hseen, hnbr, hbefore]

/-- A side up that wraps: it stands wrapped and fenced, its hop is cut, and a clock side is left. -/
structure Dev.SideWrapped (d e : Dev) (k : Nat) (r : Reason) : Prop where
  side : e.side k = { d.side k with lstate := 5, wrapped := true, laneLost := r == Rsn.ringLaneLoss, origin := false }
  cause : r ∈ (e.dom (domSide k)).causes
  clockSide : e.wr.clockSide = d.wr.clockSide
  moves : d.isMgr = false → d.wr.clockSide = k → d.wr.sideChange = none → (d.side (1 - k)).lstate = 4 →
    ∃ b, e.wr.sideChange = some b ∧ d.now ≤ b ∧ b ≤ d.now + 2
  freezes : d.isMgr = false → d.wr.clockSide = k → d.wr.sideChange = none → (d.side (1 - k)).lstate ≠ 4 → e.clk.frozen = true
  cut : d.hopOf k ∈ e.wr.cut
  shown : d.hopOf k ∉ d.wr.cut → e.flag F.WR_STAT_WRAPPED = true

theorem Dev.pos_of_regsBut {d e : Dev} {l : List Nat} (h : d.regsBut e l) (hboot : e.boot = d.boot) (hl : R.SUP_RCODE ∉ l) : e.pos = d.pos := by
  have hfld : e.fld F.SUP_RCODE_POSN = d.fld F.SUP_RCODE_POSN := h.fld hl
  unfold Dev.pos
  rw [hboot, hfld]

theorem Dev.mem_cutsWith (d : Dev) (h : Nat) : h ∈ d.cutsWith h := by
  unfold Dev.cutsWith
  split
  case isTrue hin => simpa using hin
  case isFalse => simp

theorem Dev.cutsWith_ne {d : Dev} {h : Nat} (hn : h ∉ d.wr.cut) : d.cutsWith h ≠ d.wr.cut ∧ (d.cutsWith h).isEmpty = false := by
  unfold Dev.cutsWith
  rw [if_neg (by simpa using hn)]
  simp

theorem Dev.wrapSide_wraps {d : Dev} {k : Nat} (hk : k < 2) (h : (d.side k).lstate = 4) (r : Reason) : d.SideWrapped (d.wrapSide k r) k r := by
  rw [Dev.wrapSide_of_up h]
  let v : SideSt := { d.side k with lstate := 5, wrapped := true, laneLost := r == Rsn.ringLaneLoss, origin := false }
  have hraised := (d.setSide k v).fencesRaised_raiseCause (domSide k) r
  have hcause : r ∈ ((d.sideLost k r).dom (domSide k)).causes := (d.setSide k v).mem_causes_raiseCause (domSide k) r
  have hboot : (d.sideLost k r).boot = d.boot := by simp [Dev.sideLost, Dev.setSide]
  have ht : (d.sideLost k r).t = d.t := by simp [Dev.sideLost, Dev.setSide]
  have hclk : (d.sideLost k r).clk = d.clk := by simp [Dev.sideLost, Dev.setSide]
  have hregs : d.regsBut (d.sideLost k r) irqRegs := (Dev.regsBut.of_regs rfl _).trans hraised.regs
  have hwr : (d.sideLost k r).wr = { (d.setSide k v).wr with bulk := (d.sideLost k r).wr.bulk } := hraised.wr
  generalize d.sideLost k r = e at *
  have hsides : ∀ n, e.side n = (d.setSide k v).side n := fun n => by unfold Dev.side; rw [hwr]
  have hside : e.side k = v := by rw [hsides, Dev.side_setSide, if_pos rfl]
  have hother : e.side (1 - k) = d.side (1 - k) := by rw [hsides, Dev.side_setSide, if_neg (by omega)]
  have hpos : e.pos = d.pos := Dev.pos_of_regsBut hregs hboot (by decide)
  obtain ⟨hfframe, hfwr, hfclk, hfmoves, hffreezes⟩ := e.clockLeft_left k
  generalize e.clockLeft k = f at *
  have hfside : f.side k = v := by rw [← hside, Dev.side, hfwr]; rfl
  have hfpos : f.pos = d.pos := by rw [← hpos, hfframe]; rfl
  have hhop : f.hopOf k = d.hopOf k := Dev.hopOf_congr hfpos (by rw [hfwr, hwr]; rfl) (by rw [hfside]) (by rw [hfside])
  have hcut : f.wr.cut = d.wr.cut := by rw [hfwr, hwr]; rfl
  rw [hhop]
  have hset := f.setCuts_sets (f.cutsWith (d.hopOf k))
  have hshows : d.hopOf k ∉ d.wr.cut → (f.setCuts (f.cutsWith (d.hopOf k))).flag F.WR_STAT_WRAPPED = true := fun hn => by
    obtain ⟨hne, hempty⟩ := Dev.cutsWith_ne (d := f) (hcut ▸ hn)
    rw [Dev.setCuts_shows hne, hempty]; rfl
  have hmem := f.mem_cutsWith (d.hopOf k)
  generalize f.setCuts (f.cutsWith (d.hopOf k)) = g at *
  have hgwr : (g.raiseIrq 19).wr = g.wr := by simp
  have hmgr : e.isMgr = d.isMgr := by unfold Dev.isMgr; rw [hboot]
  have hnow : e.now = d.now := by unfold Dev.now; rw [ht]
  have hclockSide : e.wr.clockSide = d.wr.clockSide := by rw [hwr]; rfl
  have hchange : e.wr.sideChange = d.wr.sideChange := by rw [hwr]; rfl
  rw [hmgr, hclockSide, hchange, hother, hnow] at hfmoves
  rw [hmgr, hclockSide, hchange, hother] at hffreezes
  refine ⟨?_, ?_, ?_, ?_, ?_, ?_, ?_⟩
  · rw [Dev.side, hgwr, hset.wr]; exact hfside
  · rw [Dev.dom, (show (g.raiseIrq 19).fen = g.fen by simp), hset.fen, hfframe]; exact hcause
  · rw [hgwr, hset.wr]; exact (congrArg RingSt.clockSide hfwr).trans hclockSide
  · rw [hgwr, hset.wr]; exact hfmoves
  · rw [(show (g.raiseIrq 19).clk = g.clk by simp), hset.clk]; exact hffreezes
  · rw [hgwr, hset.wr]; exact hmem
  · intro hn; rw [Dev.flag_raiseIrq _ _ _ (by decide) (by decide)]; exact hshows hn

/-- A reserve without a side up is isolated (R764). -/
def Dev.reserveAlone (d : Dev) : Dev :=
  if d.boot.role == .reserve && (List.range 2).all (fun k => (d.side k).lstate != 4) then (d.hstErr 0 Rsn.ringIsolated).raiseIrq 19 else d

theorem exec_ringLaneLoss {k : Fin 2} {s : State} (h : s.dev.linked = true) :
    exec (.ringLaneLoss k) s = .next { s with dev := (s.dev.wrapSide k.val Rsn.ringLaneLoss).reserveAlone } := by
  refine congrArg (fun d : Dev => Host.Outcome.next { s with dev := d }) ?_
  exact if_neg (by simp [h])

theorem exec_ringLaneLoss_off {k : Fin 2} {s : State} (h : s.dev.linked = false) : exec (.ringLaneLoss k) s = .next s := by
  refine congrArg (fun d : Dev => Host.Outcome.next { s with dev := d }) ?_
  exact if_pos (by simp [h])

theorem Dev.reserveAlone_keeps (d : Dev) : d.reserveAlone.wr = d.wr ∧ d.reserveAlone.fen = d.fen ∧ d.reserveAlone.clk = d.clk ∧
    d.reserveAlone.flag F.WR_STAT_WRAPPED = d.flag F.WR_STAT_WRAPPED := by
  unfold Dev.reserveAlone
  split
  · refine ⟨by simp [Dev.hstErr], by simp [Dev.hstErr], by simp [Dev.hstErr], ?_⟩
    rw [Dev.flag_raiseIrq _ _ _ (by decide) (by decide), Dev.hstErr, Dev.flag_raiseIrq _ _ _ (by decide) (by decide),
      flag_setFld_ne _ _ _ _ (by decide) (by decide), flag_setFld_ne _ _ _ _ (by decide) (by decide)]
  · exact ⟨rfl, rfl, rfl, rfl⟩

theorem Dev.SideWrapped.alone {d e : Dev} {k : Nat} {r : Reason} (h : d.SideWrapped e k r) : d.SideWrapped e.reserveAlone k r := by
  obtain ⟨hwr, hfen, hclk, hflag⟩ := e.reserveAlone_keeps
  obtain ⟨hside, hcause, hclockSide, hmoves, hfreezes, hcut, hshown⟩ := h
  exact ⟨by rw [Dev.side, hwr]; exact hside, by rw [Dev.dom, hfen]; exact hcause, by rw [hwr]; exact hclockSide, by rw [hwr]; exact hmoves,
    by rw [hclk]; exact hfreezes, by rw [hwr]; exact hcut, by rw [hflag]; exact hshown⟩

/-! ## A position lost -/

/-- The device of a position whose slots are missing is due to be fenced (R759). -/
def Dev.peerDue (d : Dev) (p : Nat) : Prop :=
  d.boot.role = .manager ∧ p ≠ d.pos ∧ d.wr.present.testBit p = true ∧ d.fld F.WR_CTRL_LOSTTMO ≤ mget 0 d.wr.missing p

/-- The serial of a position cut off for babble is kept (R809). -/
def Dev.babbleNoted (d : Dev) (p : Nat) (babble : Bool) : Dev :=
  if babble then { d with fen := { d.fen with babble := mset 0 d.fen.babble p (d.serialAt p) } } else d

/-- A position no longer present. -/
def Dev.peerGone (d : Dev) (p : Nat) : Dev := { d with wr := { d.wr with present := d.wr.present ^^^ 2 ^ p, missing := mset 0 d.wr.missing p 0 } }

theorem exec_ringPeerLostTimeout {p : Fin 32} {s : State} (h : s.dev.peerDue p.val) (b : Bool) : exec (.ringPeerLostTimeout p b) s =
    .next { s with dev := ((s.dev.fenceWorker p.val (if b then Rsn.ringBabble else Rsn.ringPeerLost)).babbleNoted p.val b).peerGone p.val } := by
  obtain ⟨hrole, hpos, hpresent, hmissing⟩ := h
  refine congrArg (fun d : Dev => Host.Outcome.next { s with dev := d }) ?_
  exact if_neg (by simp [hrole, hpos, hpresent, hmissing])

theorem exec_ringPeerLostTimeout_early {p : Fin 32} {s : State} (h : ¬s.dev.peerDue p.val) (b : Bool) :
    exec (.ringPeerLostTimeout p b) s = .next s := by
  refine congrArg (fun d : Dev => Host.Outcome.next { s with dev := d }) ?_
  refine if_pos ?_
  by_contra hn
  simp only [Bool.or_eq_true, bne_iff_ne, beq_iff_eq, Bool.not_eq_true', decide_eq_true_eq, not_or, not_not, Bool.not_eq_false, Nat.not_lt] at hn
  obtain ⟨⟨⟨hrole, hpos⟩, hpresent⟩, hmissing⟩ := hn
  exact h ⟨hrole, hpos, hpresent, hmissing⟩

theorem Dev.babbleNoted_keeps (d : Dev) (p : Nat) (b : Bool) : (d.babbleNoted p b).jobs = d.jobs ∧ (d.babbleNoted p b).wr = d.wr ∧
    (d.babbleNoted p b).fen.doms = d.fen.doms := by
  cases b <;> exact ⟨rfl, rfl, rfl⟩

/-- The clauses on a position lost. -/
theorem Dev.peerLost_shown {d : Dev} {p : Nat} (h : d.peerDue p) (hnd : (d.jobs.map Job.hm).Nodup) (r : Reason) (b : Bool) :
    let e := ((d.fenceWorker p r).babbleNoted p b).peerGone p
    r ∈ (e.dom (domWorker p)).causes ∧ e.wr.present.testBit p = false ∧ e.jobs.map Job.hm = d.jobs.map Job.hm ∧
    (d.fenced (domWorker p) = false → ∀ j ∈ d.jobs, j.exec = p → j.active = true → j.out = none → ∃ k ∈ e.jobs,
      k.hm = j.hm ∧ k.st = .unconfirmed ∧ k.out = some { typ := 7, reason := 0x3002, bn := d.now }) ∧
    ∀ j ∈ d.jobs, j.exec ≠ p → j ∈ e.jobs := by
  have hfenced := d.fenceWorker_fences p r
  have hends := fun (hfree : d.fenced (domWorker p) = false) (j : Job) hj hexec hact hout =>
    Dev.fenceWorker_ends (j := j) hnd hfree hj hexec hact hout r
  generalize d.fenceWorker p r = f at *
  obtain ⟨hjobs, hwr, hdoms⟩ := f.babbleNoted_keeps p b
  generalize f.babbleNoted p b = g at *
  intro e
  have hejobs : e.jobs = f.jobs := hjobs
  refine ⟨?_, ?_, ?_, ?_, ?_⟩
  · show r ∈ (mget {} g.fen.doms (domWorker p)).causes
    rw [hdoms]; exact hfenced.cause
  · show (g.wr.present ^^^ 2 ^ p).testBit p = false
    rw [Nat.testBit_xor, Nat.testBit_two_pow_self, hwr, hfenced.present, h.2.2.1]; rfl
  · rw [hejobs]; exact hfenced.jobs.hms
  · intro hfree j hj hexec hact hout
    obtain ⟨k, hk, hend⟩ := hends hfree j hj hexec hact hout
    exact ⟨k, hejobs ▸ hk, hend.hm, hend.st, hend.out⟩
  · intro j hj hexec
    rw [hejobs]
    refine hfenced.jobs.mem hj (hm_notMem_of_notMem hnd (fun k hk => List.mem_of_mem_filter hk) hj fun hmem => hexec ?_)
    exact beq_iff_eq.1 ((Bool.and_eq_true _ _).mp (List.mem_filter.1 hmem).2).1

/-! ## Origins lost -/

theorem exec_ringOrphan {s : State} (hm : s.dev.isMgr = false) (hl : s.dev.linked = true) (hv : s.dev.pwr.vcore = true) (hn : 16 ≤ s.dev.wr.noOrigin) :
    exec .ringOrphan s = .next { s with dev := s.dev.raiseAll (timingDoms.map (fun k => (k, Rsn.ringOrphan))) } := by
  refine congrArg (fun d : Dev => Host.Outcome.next { s with dev := d }) ?_
  exact if_neg (by simp [hm, hl, hv, hn])

theorem exec_ringOrphan_kept {s : State} (h : s.dev.isMgr = true ∨ s.dev.linked = false ∨ s.dev.pwr.vcore = false ∨ s.dev.wr.noOrigin < 16) :
    exec .ringOrphan s = .next s := by
  refine congrArg (fun d : Dev => Host.Outcome.next { s with dev := d }) ?_
  exact if_pos (by rcases h with h | h | h | h <;> simp [h])

/-- A manager that stops originating (R765). -/
def Dev.originStopped (d : Dev) : Dev := { d with wr := { d.wr with stopped := true, isolated := true } }

theorem exec_managerIsolated {s : State} (hr : s.dev.boot.role = .manager) (hv : s.dev.pwr.vcore = true) (hi : s.dev.wr.isolated = false)
    (hn : 2 ≤ s.dev.wr.noOwn) : exec .managerIsolated s =
      .next { s with dev := (s.dev.originStopped.raiseAll (timingDoms.map (fun k => (k, Rsn.ringIsolated)))).raiseIrq 19 } := by
  refine congrArg (fun d : Dev => Host.Outcome.next { s with dev := d }) ?_
  exact if_neg (by simp [hr, hv, hi]; omega)

theorem exec_managerIsolated_kept {s : State}
    (h : s.dev.boot.role ≠ .manager ∨ s.dev.pwr.vcore = false ∨ s.dev.wr.isolated = true ∨ s.dev.wr.noOwn < 2) :
    exec .managerIsolated s = .next s := by
  refine congrArg (fun d : Dev => Host.Outcome.next { s with dev := d }) ?_
  exact if_pos (by rcases h with h | h | h | h <;> simp [h])

/-- A reason raised on every timing domain. -/
theorem Dev.timing_raised (d : Dev) (r : Reason) :
    ∀ k ∈ timingDoms, r ∈ ((d.raiseAll (timingDoms.map (fun k => (k, r)))).dom k).causes := fun k hk =>
  d.mem_causes_raiseAll (List.mem_map.2 ⟨k, hk, rfl⟩)

theorem Dev.isolated_shown (d : Dev) :
    let e := (d.originStopped.raiseAll (timingDoms.map (fun k => (k, Rsn.ringIsolated)))).raiseIrq 19
    e.wr.stopped = true ∧ e.wr.isolated = true ∧ (∀ k ∈ timingDoms, (0x6009 : Reason) ∈ (e.dom k).causes) ∧
    bitOf (e.reg R.HST_ISR0) 19 = true ∧ e.jobs = d.jobs ∧ d.regsBut e irqRegs := by
  have hraised := d.originStopped.fencesRaised_raiseAll (timingDoms.map (fun k => (k, Rsn.ringIsolated)))
  have hcauses := d.originStopped.timing_raised Rsn.ringIsolated
  have hjobs : (d.originStopped.raiseAll (timingDoms.map (fun k => (k, Rsn.ringIsolated)))).jobs = d.jobs := by simp [Dev.originStopped]
  have hregs : d.regsBut d.originStopped irqRegs := .of_regs rfl _
  generalize d.originStopped.raiseAll (timingDoms.map (fun k => (k, Rsn.ringIsolated))) = f at *
  intro e
  have hwr : e.wr = f.wr := by simp [e]
  have hfen : e.fen = f.fen := by simp [e]
  refine ⟨by rw [hwr, hraised.wr]; rfl, by rw [hwr, hraised.wr]; rfl, fun k hk => by rw [Dev.dom, hfen]; exact hcauses k hk, ?_, by simp [e, hjobs],
    (hregs.trans hraised.regs).raiseIrq (fun _ => id) 19⟩
  exact Dev.isr_raiseIrq f 19 (by decide)

/-! ## An unwrap -/

/-- The clearing of a domain that is no head port leaves the ring but for what it sends, and only interrupts of the registers. -/
theorem Dev.clearCauses_of_high (d : Dev) {k : Nat} (hk : 16 ≤ k) (p : Reason → Bool) :
    (d.clearCauses k p).wr = { d.wr with bulk := (d.clearCauses k p).wr.bulk } ∧ d.regsBut (d.clearCauses k p) irqRegs := by
  unfold Dev.clearCauses
  dsimp only
  have hno : (decide (k < 16) && d.hpFramed k) = false := by simp; omega
  rw [hno]
  split
  · exact ⟨rfl, .refl d _⟩
  · split
    · rw [if_neg (by decide)]
      have hlog := (d.setDom k { d.dom k with causes := [], reason := 0, inc := nextInc (d.dom k).inc }).fencesRaised_logFence k (d.dom k).reason true
      exact ⟨hlog.wr, (Dev.regsBut.of_regs rfl _).trans hlog.regs⟩
    · exact ⟨rfl, .of_regs rfl _⟩

theorem supRcode_notMem_cutRegs : R.SUP_RCODE ∉ R.WR_STAT :: cutRegs := by
  simp only [cutRegs, List.mem_cons, List.mem_append, not_or]
  exact ⟨by decide, ⟨by decide, by decide⟩, notMem_endRegs_of (by decide) fun n => by unfold R.SUP_RCODE R.PO_EDGECNT; omega⟩

/-- Start-up, the position, the unwrap and the neighbours stay, and no side comes to be wrapped. -/
structure Dev.UnwrapKept (d e : Dev) : Prop where
  boot : e.boot = d.boot
  pos : e.pos = d.pos
  unwrap : e.wr.unwrap = d.wr.unwrap
  nbr : ∀ k, (e.side k).nbrPos = (d.side k).nbrPos
  wrapped : ∀ k, (d.side k).wrapped = false → (e.side k).wrapped = false

namespace Dev.UnwrapKept
variable {d e f : Dev}

theorem refl (d : Dev) : d.UnwrapKept d := ⟨rfl, rfl, rfl, fun _ => rfl, fun _ => id⟩

theorem trans (h : d.UnwrapKept e) (h' : e.UnwrapKept f) : d.UnwrapKept f :=
  ⟨h'.boot.trans h.boot, h'.pos.trans h.pos, h'.unwrap.trans h.unwrap, fun k => (h'.nbr k).trans (h.nbr k), fun k => h'.wrapped k ∘ h.wrapped k⟩

theorem of_wr {l : List Nat} (hwr : e.wr.side = d.wr.side) (hun : e.wr.unwrap = d.wr.unwrap) (hboot : e.boot = d.boot) (hregs : d.regsBut e l)
    (hl : R.SUP_RCODE ∉ l) : d.UnwrapKept e :=
  ⟨hboot, Dev.pos_of_regsBut hregs hboot hl, hun, fun k => by rw [Dev.side, hwr]; rfl, fun k h => by rw [Dev.side, hwr]; exact h⟩

theorem setCuts (d : Dev) (cs : List Nat) : d.UnwrapKept (d.setCuts cs) := by
  have h := d.setCuts_sets cs
  exact .of_wr (by rw [h.wr]) (by rw [h.wr]) h.boot h.regs supRcode_notMem_cutRegs

theorem clearCauses (d : Dev) {k : Nat} (hk : 16 ≤ k) (p : Reason → Bool) : d.UnwrapKept (d.clearCauses k p) := by
  obtain ⟨hwr, hregs⟩ := d.clearCauses_of_high hk p
  exact .of_wr (by rw [hwr]) (by rw [hwr]) (by simp) hregs (by decide)

theorem rskewDisturb (d : Dev) : d.UnwrapKept d.rskewDisturb := by
  obtain ⟨hwr, -, -, hboot, -, -, -, -, hregs⟩ := d.cutKept_rskewDisturb
  exact .of_wr (by rw [hwr]) (by rw [hwr]) hboot hregs fun hmem => supRcode_notMem_cutRegs (List.mem_cons_of_mem _ hmem)

end Dev.UnwrapKept

/-- A side no longer wrapped, its fence lifted. -/
def Dev.sideWhole (d : Dev) (k : Nat) : Dev :=
  (d.setSide k { d.side k with wrapped := false, laneLost := false }).clearCauses (domSide k) (fun r => r == Rsn.ringLaneLoss || r == Rsn.ringErrRate)

theorem Dev.unwrapSide_of_wrapped {d : Dev} {k : Nat} (h : (d.side k).wrapped = true) :
    d.unwrapSide k = (d.sideWhole k).setCuts ((d.sideWhole k).wr.cut.filter (· != (d.sideWhole k).hopOf k)) := if_neg (by simp [h])

theorem Dev.sideWhole_unwraps (d : Dev) (k : Nat) : d.UnwrapKept (d.sideWhole k) ∧ ((d.sideWhole k).side k).wrapped = false := by
  have hset : d.UnwrapKept (d.setSide k { d.side k with wrapped := false, laneLost := false }) := by
    refine ⟨rfl, rfl, rfl, fun n => ?_, fun n hn => ?_⟩
    · rw [Dev.side_setSide]
      split
      case isTrue hk => rw [hk]
      · rfl
    · rw [Dev.side_setSide]
      split
      · rfl
      · exact hn
  have hself : ((d.setSide k { d.side k with wrapped := false, laneLost := false }).side k).wrapped = false := by
    rw [Dev.side_setSide, if_pos rfl]
  have hclear := Dev.UnwrapKept.clearCauses (d.setSide k { d.side k with wrapped := false, laneLost := false }) (k := domSide k)
    (by unfold domSide; omega) (fun r => r == Rsn.ringLaneLoss || r == Rsn.ringErrRate)
  exact ⟨hset.trans hclear, hclear.wrapped k hself⟩

/-- A side that unwraps is wrapped no more. -/
theorem Dev.unwrapSide_unwraps (d : Dev) (k : Nat) : d.UnwrapKept (d.unwrapSide k) ∧ ((d.unwrapSide k).side k).wrapped = false := by
  by_cases h : (d.side k).wrapped = true
  · rw [Dev.unwrapSide_of_wrapped h]
    obtain ⟨hkept, hwhole⟩ := d.sideWhole_unwraps k
    have hcuts := Dev.UnwrapKept.setCuts (d.sideWhole k) ((d.sideWhole k).wr.cut.filter (· != (d.sideWhole k).hopOf k))
    exact ⟨hkept.trans hcuts, hcuts.wrapped k hwhole⟩
  · rw [show d.unwrapSide k = d from if_pos (by simpa using h)]
    exact ⟨.refl d, by simpa using h⟩

/-- The side of an unwrap's position unwraps. -/
def Dev.unwrapAt (p : Nat) (d : Dev) (k : Nat) : Dev := if (d.side k).nbrPos = p ∨ p = d.pos then d.unwrapSide k else d

/-- A manager drops the hops of the position from the cuts. -/
def Dev.hopsBack (d : Dev) (p : Nat) : Dev :=
  if d.boot.role == .manager then d.setCuts (d.wr.cut.filter (fun c => c != p && c != d.before p)) else d

/-- The newcomer joins. -/
def Dev.newcomerJoined (d : Dev) (p : Nat) : Dev := if p = d.pos then { d with boot := { d.boot with joining := true } }.rskewDisturb else d.rskewDisturb

/-- An unwrap taken. -/
def Dev.unwrapTaken (d : Dev) : Dev := { d with wr := { d.wr with unwrap := none } }

theorem exec_unwrap_due {s : State} {p b : Nat} (h : s.dev.wr.unwrap = some (p, b)) (hb : b ≤ s.dev.now) :
    exec .unwrap s = .next { s with dev := (((s.dev.unwrapTaken.unwrapAt p 0).unwrapAt p 1).hopsBack p).newcomerJoined p } := by
  refine congrArg (fun d : Dev => Host.Outcome.next { s with dev := d }) ?_
  dsimp only
  rw [h]
  exact if_neg (by omega)

theorem exec_unwrap_early {s : State} {p b : Nat} (h : s.dev.wr.unwrap = some (p, b)) (hb : s.dev.now < b) : exec .unwrap s = .next s := by
  refine congrArg (fun d : Dev => Host.Outcome.next { s with dev := d }) ?_
  dsimp only
  rw [h]
  exact if_pos hb

theorem exec_unwrap_none {s : State} (h : s.dev.wr.unwrap = none) : exec .unwrap s = .next s := by
  refine congrArg (fun d : Dev => Host.Outcome.next { s with dev := d }) ?_
  dsimp only
  rw [h]

theorem Dev.unwrapAt_unwraps (d : Dev) (p k : Nat) : d.UnwrapKept (d.unwrapAt p k) ∧
    ((d.side k).nbrPos = p ∨ p = d.pos → ((d.unwrapAt p k).side k).wrapped = false) := by
  unfold Dev.unwrapAt
  split
  · exact ⟨(d.unwrapSide_unwraps k).1, fun _ => (d.unwrapSide_unwraps k).2⟩
  case isFalse h => exact ⟨.refl d, fun hk => absurd hk h⟩

theorem Dev.unwrapKept_hopsBack (d : Dev) (p : Nat) : d.UnwrapKept (d.hopsBack p) := by
  unfold Dev.hopsBack
  split
  · exact .setCuts d _
  · exact .refl d

/-- The newcomer notes that it joins, any other device nothing. -/
theorem Dev.newcomerJoined_shown (d : Dev) (p : Nat) : (d.newcomerJoined p).boot.joining = (d.boot.joining || p == d.pos) ∧ (d.newcomerJoined p).wr.unwrap = d.wr.unwrap ∧
    ∀ k, (d.side k).wrapped = false → ((d.newcomerJoined p).side k).wrapped = false := by
  unfold Dev.newcomerJoined
  split
  case isTrue hp =>
    have h := Dev.UnwrapKept.rskewDisturb { d with boot := { d.boot with joining := true } }
    exact ⟨by rw [h.boot, hp]; simp, h.unwrap, fun k hk => h.wrapped k hk⟩
  case isFalse hp =>
    have h := Dev.UnwrapKept.rskewDisturb d
    exact ⟨by rw [h.boot]; simp [hp], h.unwrap, h.wrapped⟩

theorem Dev.unwrap_shown (d : Dev) (p : Nat) :
    let e := (((d.unwrapTaken.unwrapAt p 0).unwrapAt p 1).hopsBack p).newcomerJoined p
    e.wr.unwrap = none ∧ e.boot.joining = (d.boot.joining || p == d.pos) ∧
    ∀ k < 2, (d.side k).nbrPos = p ∨ p = d.pos → (e.side k).wrapped = false := by
  obtain ⟨hkept0, hun0⟩ := d.unwrapTaken.unwrapAt_unwraps p 0
  generalize d.unwrapTaken.unwrapAt p 0 = e0 at *
  obtain ⟨hkept1, hun1⟩ := e0.unwrapAt_unwraps p 1
  generalize e0.unwrapAt p 1 = e1 at *
  have hback := e1.unwrapKept_hopsBack p
  generalize e1.hopsBack p = e2 at *
  obtain ⟨hjoin, hunwrap, hwrapped⟩ := e2.newcomerJoined_shown p
  have hall : d.unwrapTaken.UnwrapKept e2 := (hkept0.trans hkept1).trans hback
  intro e
  refine ⟨hunwrap.trans hall.unwrap, ?_, fun k hk hcase => hwrapped k (hback.wrapped k ?_)⟩
  · rw [hjoin, hall.boot, hall.pos]; rfl
  · match k, hk with
    | 0, _ => exact hkept1.wrapped 0 (hun0 hcase)
    | 1, _ => exact hun1 (by rw [hkept0.nbr, hkept0.pos]; exact hcase)

/-- Settles O55: a lost side wraps under its fence and is left as clock side, a lost position and lost origins are fenced, and an unwrap lifts
the wraps that it names. -/
theorem ringLossesFence : Obligations.RingLossesFence := by
  unfold Obligations.RingLossesFence
  intro s
  refine ⟨?_, fun k h => exec_ringLaneLoss_off h, ?_, ?_, fun h => exec_ringOrphan_kept h, ?_, fun h => exec_managerIsolated_kept h,
    fun h => exec_unwrap_none h, ?_⟩
  · intro k hl hup
    have hexec := exec_ringLaneLoss (k := k) hl
    have hwrap := (Dev.wrapSide_wraps k.isLt hup Rsn.ringLaneLoss).alone
    generalize (s.dev.wrapSide k.val Rsn.ringLaneLoss).reserveAlone = e at *
    obtain ⟨hside, hcause, hclockSide, hmoves, hfreezes, hcut, hshown⟩ := hwrap
    exact ⟨_, hexec, by rw [hside], by rw [hside], by rw [hside]; rfl, hcause, hclockSide,
      fun hm hk hc => ⟨hmoves hm hk hc, hfreezes hm hk hc⟩, hcut, hshown⟩
  · intro p b
    refine ⟨fun h => exec_ringPeerLostTimeout_early h b, fun h hnd => ?_⟩
    have hexec := exec_ringPeerLostTimeout (p := p) h b
    have hshown := Dev.peerLost_shown h hnd (if b then Rsn.ringBabble else Rsn.ringPeerLost) b
    dsimp only at hshown
    generalize ((s.dev.fenceWorker p.val (if b then Rsn.ringBabble else Rsn.ringPeerLost)).babbleNoted p.val b).peerGone p.val = e at *
    exact ⟨_, hexec, hshown⟩
  · intro hm hl hv hn
    have hexec := exec_ringOrphan hm hl hv hn
    have hcauses := s.dev.timing_raised Rsn.ringOrphan
    have hregs := s.dev.regsBut_raiseAll (timingDoms.map (fun k => (k, Rsn.ringOrphan)))
    have hjobs : (s.dev.raiseAll (timingDoms.map (fun k => (k, Rsn.ringOrphan)))).jobs = s.dev.jobs := by simp
    generalize s.dev.raiseAll (timingDoms.map (fun k => (k, Rsn.ringOrphan))) = e at *
    exact ⟨_, hexec, hcauses, hjobs, hregs⟩
  · intro hr hv hi hn
    have hexec := exec_managerIsolated hr hv hi hn
    have hshown := s.dev.isolated_shown
    dsimp only at hshown
    generalize (s.dev.originStopped.raiseAll (timingDoms.map (fun k => (k, Rsn.ringIsolated)))).raiseIrq 19 = e at *
    exact ⟨_, hexec, hshown⟩
  · intro p b h
    refine ⟨fun hb => exec_unwrap_early h hb, fun hb => ?_⟩
    have hexec := exec_unwrap_due h hb
    have hshown := s.dev.unwrap_shown p
    dsimp only at hshown
    generalize (((s.dev.unwrapTaken.unwrapAt p 0).unwrapAt p 1).hopsBack p).newcomerJoined p = e at *
    exact ⟨_, hexec, hshown⟩

end Sys2Proof.Machine
end

section

/-!
PROOF. FEN_CMD, and the end of a job that a fence closes (16_fences_and_recovery.md R784, R788, R799 to R808).
-/

namespace Sys2Proof.Machine
open Sys2Proof

/-! ## The write of FEN_CMD -/

/-- The fields of the word that a FEN_CMD instruction writes. -/
theorem fenWord_fields {op : Nat} (hop : op < 8) (dom : BitVec 16) (x : Bool) : bitOf (fenWord op dom x) 31 = true ∧
    slice (fenWord op dom x) 15 0 = dom.toNat ∧ slice (fenWord op dom x) 18 16 = op ∧ bitOf (fenWord op dom x) 19 = x := by
  have hdom := dom.isLt
  obtain ⟨n, hn, hx⟩ : ∃ n, (if x then 2 ^ 19 else 0) = n * 2 ^ 19 ∧ n = x.toNat := ⟨x.toNat, by cases x <;> rfl, rfl⟩
  have hn1 : n < 2 := by rw [hx]; cases x <;> decide
  have hto : (fenWord op dom x).toNat = 2 ^ 31 + op * 2 ^ 16 + dom.toNat + n * 2 ^ 19 := by
    unfold fenWord
    rw [hn, BitVec.toNat_ofNat]
    exact Nat.mod_eq_of_lt (by omega)
  unfold bitOf slice
  simp only [BitVec.getLsbD, hto, Nat.testBit_eq_decide_div_mod_eq, Nat.shiftRight_eq_div_pow]
  refine ⟨decide_eq_true (by omega), by omega, by omega, ?_⟩
  cases x
  · exact decide_eq_false (by simp only [Bool.toNat_false] at hx; omega)
  · exact decide_eq_true (by simp only [Bool.toNat_true] at hx; omega)

/-- The command kept for the next Edge phase, and shown as busy. -/
def Dev.fenHeld (d : Dev) (c : FenCmd) : Dev := { d with fen := { d.fen with cmd := some c } }.setFlag F.FEN_CMDSTAT_BUSY true

/-- The result of a command that finds another waiting. -/
def Dev.fenRefused (d : Dev) : Dev := d.setFld F.FEN_CMDSTAT_RESULT Rsn.refState.toNat

/-- A command kept, or refused while another waits. -/
def Dev.fenWritten (d : Dev) (c : FenCmd) : Dev := if d.fen.cmd.isSome then d.fenRefused else d.fenHeld c

theorem Dev.writeFenCmd_fenWord (d : Dev) {op : Nat} (hop : op < 8) (dom : BitVec 16) (x : Bool) :
    d.writeFenCmd (fenWord op dom x) = d.fenWritten { dom := dom.toNat, op := op, expire := x } := by
  obtain ⟨hgo, hdom, hop', hx⟩ := fenWord_fields hop dom x
  unfold Dev.writeFenCmd
  rw [hgo, hdom, hop', hx]
  rfl

theorem Dev.fenHeld_shown (d : Dev) (c : FenCmd) : (d.fenHeld c).fen = { d.fen with cmd := some c } ∧
    (d.fenHeld c).flag F.FEN_CMDSTAT_BUSY = true ∧ d.regsBut (d.fenHeld c) [R.FEN_CMDSTAT] ∧
    d.fenHeld c = { d with regs := (d.fenHeld c).regs, fen := (d.fenHeld c).fen } :=
  ⟨rfl, flag_setFlag_same _ _ _ (by decide) rfl, .setFlag (.of_regs rfl _) (by simp) _, rfl⟩

theorem Dev.fenRefused_shown (d : Dev) : d.fenRefused.fld F.FEN_CMDSTAT_RESULT = 0x1005 ∧ d.regsBut d.fenRefused [R.FEN_CMDSTAT] ∧
    d.fenRefused = { d with regs := d.fenRefused.regs } :=
  ⟨fld_setFld_of_lt _ (by decide) (by decide), (Dev.regsBut.refl d _).setFld (by simp) _, rfl⟩

/-- An instruction that writes FEN_CMD through a port that may. -/
theorem fenCmd_acts {s : State} {i : Instr} {c : FenCmd}
    (hexec : exec i s = .next { s with dev := s.dev.fenWritten c }) :
    (s.dev.fen.cmd = none → ∃ t, exec i s = .next t ∧ t.dev.fen = { s.dev.fen with cmd := some c } ∧
      t.dev.flag F.FEN_CMDSTAT_BUSY = true ∧ s.dev.regsBut t.dev [R.FEN_CMDSTAT] ∧
      t = { s with dev := { s.dev with regs := t.dev.regs, fen := t.dev.fen } }) ∧
    (s.dev.fen.cmd ≠ none → ∃ t, exec i s = .next t ∧ t.dev.fld F.FEN_CMDSTAT_RESULT = 0x1005 ∧ s.dev.regsBut t.dev [R.FEN_CMDSTAT] ∧
      t = { s with dev := { s.dev with regs := t.dev.regs } }) := by
  constructor
  · intro hnone
    rw [Dev.fenWritten, hnone] at hexec
    obtain ⟨hfen, hbusy, hregs, hframe⟩ := s.dev.fenHeld_shown c
    exact ⟨_, hexec, hfen, hbusy, hregs, congrArg (fun d : Dev => { s with dev := d }) hframe⟩
  · intro hsome
    rw [Dev.fenWritten, if_pos (Option.isSome_iff_ne_none.2 hsome)] at hexec
    obtain ⟨hres, hregs, hframe⟩ := s.dev.fenRefused_shown
    exact ⟨_, hexec, hres, hregs, congrArg (fun d : Dev => { s with dev := d }) hframe⟩

theorem exec_fen {s : State} {p : Port} (hg : s.dev.gate p R.FEN_CMD = .pass) (op : Nat) (hop : op < 8) (dom : BitVec 16) (x : Bool) {i : Instr}
    (hi : exec i s = .next (s.onDev fun d => d.viaPort p R.FEN_CMD fun d => d.writeFenCmd (fenWord op dom x))) :
    exec i s = .next { s with dev := s.dev.fenWritten { dom := dom.toNat, op := op, expire := x } } := by
  rw [hi]
  refine congrArg (fun d : Dev => Host.Outcome.next { s with dev := d }) ?_
  exact (Dev.viaPort_of_pass hg fun d => d.writeFenCmd (fenWord op dom x)).trans (s.dev.writeFenCmd_fenWord hop dom x)

/-! ## The Edge phase -/

/-- A command taken from its place. -/
def Dev.fenTaken (d : Dev) : Dev := { d with fen := { d.fen with cmd := none } }

/-- The result of a command shown, and the marks of this beat's fences gone. -/
def Dev.fenEnded (d : Dev) (r : Reason) : Dev :=
  let e := (d.setFlag F.FEN_CMDSTAT_BUSY false).setFld F.FEN_CMDSTAT_RESULT r.toNat
  { e with fen := { e.fen with raisedNow := [] } }

theorem Dev.unfenceBad_congr {d e : Dev} (hdoms : e.fen.doms = d.fen.doms) (hraised : e.fen.raisedNow = d.fen.raisedNow) (hclk : e.clk = d.clk) (k : Nat) :
    e.unfenceBad k = d.unfenceBad k := by
  have hdom : e.dom k = d.dom k := by rw [Dev.dom, hdoms]; rfl
  unfold Dev.unfenceBad
  rw [hdom, hraised, hclk]

theorem Dev.unfenceBad_fenTaken (d : Dev) (k : Nat) : d.fenTaken.unfenceBad k = d.unfenceBad k := Dev.unfenceBad_congr rfl rfl rfl k

theorem Dev.fenTake_of_cmd {d : Dev} {c : FenCmd} (h : d.fen.cmd = some c) : d.fenTake = (d.fenTaken.fenRun c).1.fenEnded (d.fenTaken.fenRun c).2 := by
  unfold Dev.fenTake
  rw [h]
  rfl

/-- What the end of a command shows. -/
structure Dev.FenShown (e : Dev) (r : Nat) : Prop where
  busy : e.flag F.FEN_CMDSTAT_BUSY = false
  result : e.fld F.FEN_CMDSTAT_RESULT = r
  cmd : e.fen.cmd = none

theorem Dev.fenEnded_shows {d : Dev} (h : d.fen.cmd = none) (r : Reason) : (d.fenEnded r).FenShown r.toNat := by
  have hbusy : ((d.setFlag F.FEN_CMDSTAT_BUSY false).setFld F.FEN_CMDSTAT_RESULT r.toNat).flag F.FEN_CMDSTAT_BUSY = false := by
    rw [flag_setFld_ne _ _ _ _ (by decide) (by decide), flag_setFlag_same _ _ _ (by decide) rfl]
  exact ⟨hbusy, fld_setFld_of_lt _ (by decide) r.isLt, h⟩

/-- A command that ends as its lemma says: its result is shown and the domains are those after it. -/
theorem Dev.fenTake_ends {d e : Dev} {c : FenCmd} {r : Reason} (h : d.fen.cmd = some c) (hrun : d.fenTaken.fenRun c = (e, r)) (hcmd : e.fen.cmd = none) :
    d.fenTake.FenShown r.toNat ∧ ∀ k, d.fenTake.dom k = e.dom k := by
  rw [Dev.fenTake_of_cmd h, hrun]
  exact ⟨Dev.fenEnded_shows hcmd r, fun _ => rfl⟩

theorem Dev.fenRun_of_parked {d : Dev} {c : FenCmd} (hop : c.op = 1 ∨ c.op = 3) (hp : (d.dom c.dom).causes.contains Rsn.domainParked = true) :
    d.fenRun c = (d, Rsn.domainParked) := by
  unfold Dev.fenRun
  dsimp only
  rw [if_neg (by omega), if_pos ⟨hop, hp⟩]

theorem Dev.fenRun_fence {d : Dev} {c : FenCmd} (hop : c.op = 1) (hp : (d.dom c.dom).causes.contains Rsn.domainParked = false) :
    d.fenRun c = d.hostFence c.dom Rsn.fenceHost := by
  unfold Dev.fenRun
  dsimp only
  rw [hp, if_neg (by omega), if_neg (by simp), if_pos hop]

theorem Dev.fenRun_park {d : Dev} {c : FenCmd} (hop : c.op = 3) (hp : (d.dom c.dom).causes.contains Rsn.domainParked = false) :
    d.fenRun c = d.hostPark c.dom c.expire := by
  unfold Dev.fenRun
  dsimp only
  rw [hp, if_neg (by omega), if_neg (by simp), if_neg (by omega), if_pos hop]

theorem Dev.fenRun_unfence {d : Dev} {c : FenCmd} (hop : c.op = 2) : d.fenRun c = d.hostUnfence c.dom := if_pos hop

/-- A fence of a unit by the host. -/
def Dev.unitFenced (d : Dev) (k : Nat) (r : Reason) : Dev :=
  { d.raiseCause k r with clk := { d.clk with depSet := if d.clk.depReason = some r then d.clk.depSet.filter (· != k) else d.clk.depSet } }

theorem Dev.hostFence_unit (d : Dev) {k : Nat} (hk : k ≤ 116) (r : Reason) : d.hostFence k r = (d.unitFenced k r, Rsn.ok) := by
  have hex : domExists k = true := by simp [domExists, hk]
  unfold Dev.hostFence
  rw [hex, if_neg (by decide), if_neg (by omega), if_neg (by omega)]
  rfl

theorem Dev.hostFence_missing (d : Dev) {k : Nat} (hk : domExists k = false) (r : Reason) : d.hostFence k r = (d, Rsn.refState) := by
  unfold Dev.hostFence
  rw [if_pos (by simp [hk])]

theorem Dev.unitFenced_fences (d : Dev) (k : Nat) (r : Reason) : r ∈ ((d.unitFenced k r).dom k).causes ∧ (d.unitFenced k r).fen.cmd = d.fen.cmd :=
  ⟨d.mem_causes_raiseCause k r, (d.fencesRaised_raiseCause k r).cmd⟩

theorem Dev.hostPark_busy {d : Dev} {k : Nat} (h : d.domBusy k = true) : d.hostPark k false = (d, Rsn.refState) := by
  unfold Dev.hostPark
  rw [h, if_pos (by decide)]

/-- A parked unit holds the cause, whether or not it is a head port that goes down. -/
theorem Dev.hostPark_parks {d : Dev} {k : Nat} {x : Bool} (hk : k ≤ 116) (h : d.domBusy k = false ∨ x = true) :
    ∃ e, d.hostPark k x = (e, Rsn.ok) ∧ Rsn.domainParked ∈ (e.dom k).causes ∧ e.fen.cmd = d.fen.cmd := by
  have hno : (d.domBusy k && !x) = false := by rcases h with h | h <;> simp [h]
  obtain ⟨hcause, hcmd⟩ := d.unitFenced_fences k Rsn.domainParked
  unfold Dev.hostPark
  rw [hno, if_neg (by decide), d.hostFence_unit hk]
  dsimp only
  split
  · have hfen : (((d.unitFenced k Rsn.domainParked).hpCut k (some Rsn.partHeadlink)).hpLink k 0).fen = (d.unitFenced k Rsn.domainParked).fen := by simp
    exact ⟨_, rfl, by rw [Dev.dom, hfen]; exact hcause, by rw [hfen]; exact hcmd⟩
  · exact ⟨_, rfl, hcause, hcmd⟩

/-! ### An unfence -/

/-- The engines of a unit's sync groups lose the causes of the group (R805). -/
def Dev.groupFreed (d : Dev) (k : Nat) : Dev :=
  if 32 ≤ k ∧ k < 96 then (d.groupPeers (k - 32)).foldl (fun d m =>
    d.clearCauses (domTe m) (fun r => r == Rsn.groupStall || r == Rsn.groupPeer)) d else d

/-- The speed of an encoder that comes back is not valid at first (R808). -/
def Dev.encFreed (d : Dev) (k : Nat) : Dev :=
  if 104 ≤ k ∧ k < 112 then
    let e := d.enc (k - 104)
    (d.setEnc (k - 104) { e with hist := [], spN := 0, spD := 1, freePos := e.pos }).setFlag (F.ENC_STAT_SPEED_VALID (k - 104)) false
  else d

theorem Dev.hostUnfence_unit {d : Dev} {k : Nat} (hk : k < 0x2000) (h : d.unfenceBad k = false) :
    d.hostUnfence k = (((d.clearCauses k fun _ => true).groupFreed k).encFreed k, Rsn.ok) := by
  have hno : (decide (0x2000 ≤ k) && (d.dom k).causes.contains Rsn.ringBabble && d.isMgr) = false := by
    rw [decide_eq_false (by omega)]; rfl
  unfold Dev.hostUnfence
  dsimp only
  rw [hno, if_neg (by decide), h, if_neg (by decide)]
  rfl

theorem Dev.hostUnfence_refused {d : Dev} {k : Nat} (hk : k < 0x2000) (h : d.unfenceBad k = true) : d.hostUnfence k = (d, Rsn.refState) := by
  have hno : (decide (0x2000 ≤ k) && (d.dom k).causes.contains Rsn.ringBabble && d.isMgr) = false := by
    rw [decide_eq_false (by omega)]; rfl
  unfold Dev.hostUnfence
  dsimp only
  rw [hno, if_neg (by decide), h, if_pos rfl]

/-- A unit that holds no cause has none to clear. -/
theorem Dev.clearCauses_of_free {d : Dev} {k : Nat} (h : (d.dom k).causes = []) (p : Reason → Bool) : d.clearCauses k p = d := by
  unfold Dev.clearCauses
  dsimp only
  rw [h]
  exact if_pos rfl

theorem Dev.cmd_logFence (d : Dev) (k : Nat) (r : Reason) (clear : Bool) : (d.logFence k r clear).fen.cmd = d.fen.cmd :=
  (d.fencesRaised_logFence k r clear).cmd

/-- The clearing of a unit that is no head port leaves every other domain, and the command. -/
theorem Dev.clearCauses_others (d : Dev) {k : Nat} (hk : 16 ≤ k) (p : Reason → Bool) :
    (∀ j, j ≠ k → (d.clearCauses k p).dom j = d.dom j) ∧ (d.clearCauses k p).fen.cmd = d.fen.cmd := by
  have hno : (decide (k < 16) && d.hpFramed k) = false := by rw [decide_eq_false (by omega)]; rfl
  have hset : ∀ (v : DomSt) (j : Nat), j ≠ k → (d.setDom k v).dom j = d.dom j := fun v j hj => by
    unfold Dev.dom Dev.setDom
    exact (mget_mset _ _ _ _ _).trans (if_neg hj)
  unfold Dev.clearCauses
  dsimp only
  rw [hno]
  split
  · exact ⟨fun _ _ => rfl, rfl⟩
  · split
    · rw [if_neg (by decide), Dev.cmd_logFence]
      exact ⟨fun j hj => by rw [Dev.dom, Dev.doms_logFence]; exact hset _ j hj, rfl⟩
    · exact ⟨hset _, rfl⟩

/-- A unit cleared of every cause, in its next incarnation. -/
theorem Dev.clearCauses_all {d : Dev} {k : Nat} (hk : 16 ≤ k) (h : (d.dom k).causes ≠ []) :
    (d.clearCauses k fun _ => true).dom k = { d.dom k with causes := [], reason := 0, inc := nextInc (d.dom k).inc } := by
  have hno : (decide (k < 16) && d.hpFramed k) = false := by rw [decide_eq_false (by omega)]; rfl
  have hnone : (d.dom k).causes.filter (fun _ => !true) = [] := List.filter_eq_nil_iff.2 fun _ _ => by decide
  unfold Dev.clearCauses
  dsimp only
  rw [hno, hnone, if_neg fun hl => h (List.length_eq_zero_iff.1 hl.symm), if_pos List.isEmpty_nil, if_neg (by decide), Dev.dom, Dev.doms_logFence]
  unfold Dev.setDom
  exact (mget_mset _ _ _ _ _).trans (if_pos rfl)

/-- A unit without causes stays so while the groups' causes go. -/
theorem Dev.groupFreed_keeps {d : Dev} {k : Nat} (h : (d.dom k).causes = []) :
    (d.groupFreed k).dom k = d.dom k ∧ (d.groupFreed k).fen.cmd = d.fen.cmd := by
  unfold Dev.groupFreed
  split
  · refine List.foldlRecOn (motive := fun e : Dev => e.dom k = d.dom k ∧ e.fen.cmd = d.fen.cmd) _ _ ⟨rfl, rfl⟩ fun e he m _ => ?_
    obtain ⟨hdom, hcmd⟩ := he
    obtain ⟨hothers, hsame⟩ := e.clearCauses_others (k := domTe m) (by unfold domTe; omega) fun r => r == Rsn.groupStall || r == Rsn.groupPeer
    refine ⟨?_, hsame.trans hcmd⟩
    by_cases hm : k = domTe m
    · rw [← hm, Dev.clearCauses_of_free (hdom ▸ h)]; exact hdom
    · exact (hothers k hm).trans hdom
  · exact ⟨rfl, rfl⟩

theorem Dev.fen_encFreed (d : Dev) (k : Nat) : (d.encFreed k).fen = d.fen := by
  unfold Dev.encFreed
  dsimp only
  split <;> rfl

/-- An unfence of a unit takes its causes away, and steps its incarnation (R804, R796). -/
theorem Dev.hostUnfence_frees {d : Dev} {k : Nat} (h16 : 16 ≤ k) (hk : k ≤ 116) (hok : d.unfenceBad k = false) (hc : (d.dom k).causes ≠ []) :
    ∃ e, d.hostUnfence k = (e, Rsn.ok) ∧ (e.dom k).causes = [] ∧ (e.dom k).inc = nextInc (d.dom k).inc ∧ e.fen.cmd = d.fen.cmd := by
  have hcmd := (d.clearCauses_others h16 fun _ => true).2
  have hall := Dev.clearCauses_all h16 hc
  rw [Dev.hostUnfence_unit (by omega) hok]
  generalize d.clearCauses k (fun _ => true) = f at *
  obtain ⟨hdom, hgroup⟩ := Dev.groupFreed_keeps (d := f) (k := k) (by rw [hall])
  refine ⟨_, rfl, ?_, ?_, ?_⟩
  · rw [Dev.dom, Dev.fen_encFreed]; exact (congrArg DomSt.causes (hdom.trans hall))
  · rw [Dev.dom, Dev.fen_encFreed]; exact (congrArg DomSt.inc (hdom.trans hall))
  · rw [Dev.fen_encFreed]; exact hgroup.trans hcmd

/-! ## A job that a fence closes -/

/-- A job under its end by a fence, where nothing of it is open (R784). -/
def Dev.jobClosed (d : Dev) (j : Job) : Dev :=
  if j.closing.isSome && j.active && j.colsOpen == 0 && j.edgesOpen == 0 then d.endAs j.hm j.placed Rsn.expFenced Rsn.partFenced else d

theorem exec_fenceJobClose {s : State} {hm : BitVec 48} {j : Job} (hj : s.dev.job? hm.toNat = some j) :
    exec (.fenceJobClose hm) s = .next { s with dev := s.dev.jobClosed j } := by
  refine congrArg (fun d : Dev => Host.Outcome.next { s with dev := d }) ?_
  dsimp only
  rw [hj]
  rfl

theorem exec_fenceJobClose_none {s : State} {hm : BitVec 48} (hj : s.dev.job? hm.toNat = none) : exec (.fenceJobClose hm) s = .next s := by
  refine congrArg (fun d : Dev => Host.Outcome.next { s with dev := d }) ?_
  dsimp only
  rw [hj]

theorem Dev.jobClosed_of_open {d : Dev} {j : Job} (h : j.closing = none ∨ j.active = false ∨ j.colsOpen ≠ 0 ∨ j.edgesOpen ≠ 0) : d.jobClosed j = d := by
  unfold Dev.jobClosed
  refine if_neg ?_
  rcases h with h | h | h | h <;> simp [h]

/-- The job that a fence closes ends PARTIAL with anything placed, and EXPIRED without. -/
theorem Dev.jobClosed_ends {d : Dev} {n : Nat} {j : Job} (hj : d.job? n = some j) (hc : j.closing ≠ none) (hact : j.active = true)
    (hcols : j.colsOpen = 0) (hedges : j.edgesOpen = 0) (hout : j.out = none) : ∃ k, (d.jobClosed j).job? n = some k ∧
      (∀ x ∈ d.jobs, x.hm ≠ n → x ∈ (d.jobClosed j).jobs) ∧
      k.out = some (if j.placed then { typ := 5, reason := 0x3004, bn := j.lastBn, d0 := j.partDetail }
        else { typ := 6, reason := 0x2002, bn := d.now }) := by
  obtain rfl := Dev.hm_of_job? hj
  have hyes : (j.closing.isSome && j.active && j.colsOpen == 0 && j.edgesOpen == 0) = true := by
    simp [Option.isSome_iff_ne_none.2 hc, hact, hcols, hedges]
  unfold Dev.jobClosed
  rw [if_pos hyes, Dev.endAs_of_job hj]
  have htouched := d.jobsTouched_endJob j.hm (if j.placed then { typ := 5, reason := Rsn.partFenced, bn := j.lastBn, d0 := j.partDetail }
    else { typ := 6, reason := Rsn.expFenced, bn := d.now })
  have hmem : ∀ x ∈ d.jobs, x.hm ≠ j.hm → x ∈ (d.endJob j.hm (if j.placed then
      { typ := 5, reason := Rsn.partFenced, bn := j.lastBn, d0 := j.partDetail } else { typ := 6, reason := Rsn.expFenced, bn := d.now })).jobs :=
    fun x hx hne => htouched.mem hx (by simpa using hne)
  rcases Dev.job?_endJob hj hout (if j.placed then { typ := 5, reason := Rsn.partFenced, bn := j.lastBn, d0 := j.partDetail }
    else { typ := 6, reason := Rsn.expFenced, bn := d.now }) with h | h
  · exact ⟨_, h, hmem, rfl⟩
  · exact ⟨_, h, hmem, rfl⟩

/-! ## The statement -/

/-- Settles O59: FEN_CMD waits for the Edge phase or is refused, ends there with the result of its operation, and a job that a fence closes ends
once nothing of it is open. -/
theorem fencesAreHostCommands : Obligations.FencesAreHostCommands := by
  unfold Obligations.FencesAreHostCommands
  refine ⟨?_, ?_, ?_⟩
  · intro s p dom x hg cmds c hc
    rcases List.mem_cons.1 hc with rfl | hc
    · exact fenCmd_acts (exec_fen hg 1 (by decide) dom false rfl)
    rcases List.mem_cons.1 hc with rfl | hc
    · exact fenCmd_acts (exec_fen hg 2 (by decide) dom false rfl)
    obtain rfl := List.mem_singleton.1 hc
    exact fenCmd_acts (exec_fen hg 3 (by decide) dom x rfl)
  · intro d c h e result parked
    have hresult : ∀ {f : Dev} {r : Reason} {n : Nat}, d.fenTaken.fenRun c = (f, r) → f.fen.cmd = none → r.toNat = n →
        result n ∧ e.dom c.dom = f.dom c.dom := fun hrun hcmd hn => by
        subst hn
        obtain ⟨⟨hbusy, hres, hnone⟩, hdom⟩ := Dev.fenTake_ends h hrun hcmd
        exact ⟨⟨hbusy, hres, hnone⟩, hdom c.dom⟩
    refine ⟨?_, ?_, ?_, ?_, ?_, ?_, ?_⟩
    · intro hop hp
      have hrun := Dev.fenRun_of_parked (d := d.fenTaken) hop hp
      have hend := hresult hrun rfl (n := 0x5003) (by decide)
      exact hend
    · intro hop hdom hp
      obtain ⟨hcause, hcmd⟩ := d.fenTaken.unitFenced_fences c.dom Rsn.fenceHost
      have hrun := (Dev.fenRun_fence (d := d.fenTaken) hop hp).trans (d.fenTaken.hostFence_unit hdom _)
      obtain ⟨hres, hsame⟩ := hresult hrun hcmd (n := 0) (by decide)
      exact ⟨hres, hsame ▸ hcause⟩
    · intro hop hdom hp
      have hrun := (Dev.fenRun_fence (d := d.fenTaken) hop hp).trans (d.fenTaken.hostFence_missing hdom _)
      have hend := hresult hrun rfl (n := 0x1005) (by decide)
      exact hend.1
    · intro hop _ hp hbusy hx
      have hpark := Dev.hostPark_busy (d := d.fenTaken) hbusy
      rw [← hx] at hpark
      have hend := hresult ((Dev.fenRun_park (d := d.fenTaken) hop hp).trans hpark) rfl (n := 0x1005) (by decide)
      exact hend
    · intro hop hdom hp hfree
      obtain ⟨f, hpark, hcause, hcmd⟩ := Dev.hostPark_parks (d := d.fenTaken) hdom hfree
      obtain ⟨hres, hsame⟩ := hresult ((Dev.fenRun_park (d := d.fenTaken) hop hp).trans hpark) hcmd (n := 0) (by decide)
      exact ⟨hres, hsame ▸ hcause⟩
    · intro hop h16 hdom hok hc
      obtain ⟨f, hun, hnone, hinc, hcmd⟩ := Dev.hostUnfence_frees (d := d.fenTaken) h16 hdom ((d.unfenceBad_fenTaken _).trans hok) hc
      obtain ⟨hres, hsame⟩ := hresult ((Dev.fenRun_unfence (d := d.fenTaken) hop).trans hun) hcmd (n := 0) (by decide)
      exact ⟨hres, by rw [hsame]; exact hnone, by rw [hsame]; exact hinc⟩
    · intro hop hdom hbad
      have hun : d.fenTaken.hostUnfence c.dom = (d.fenTaken, Rsn.refState) := Dev.hostUnfence_refused hdom ((d.unfenceBad_fenTaken c.dom).trans hbad)
      have hrun : d.fenTaken.fenRun c = (d.fenTaken, Rsn.refState) := (Dev.fenRun_unfence hop).trans hun
      have hend := hresult hrun rfl (n := 0x1005) (by decide)
      exact hend
  · intro s hm
    refine ⟨fun j hj hopen => ?_, fun j hj hc hact hcols hedges hout => ?_, fun hj => exec_fenceJobClose_none hj⟩
    · rw [exec_fenceJobClose hj, Dev.jobClosed_of_open hopen]
    · have hexec := exec_fenceJobClose hj
      obtain ⟨k, hk, hothers, hend⟩ := Dev.jobClosed_ends hj hc hact hcols hedges hout
      generalize s.dev.jobClosed j = e at *
      exact ⟨_, k, hexec, hk, hothers, hend⟩

end Sys2Proof.Machine
end

section

/-!
PROOF. The check of an image, the exchange of a ring-wide commit, and its end (14_stage_check_commit.md R691, R694 to R701, R706, R717, R718).
-/

namespace Sys2Proof.Machine
open Sys2Proof

/-! ## A commit that has failed -/

/-- What an abort shows. -/
structure Dev.CommitEnded (e : Dev) (code : Reason) : Prop where
  cur : e.scc.cur = none
  phase : e.fld F.SCC_STAT_PHASE = 5
  result : e.fld F.SCC_STAT_RESULT = code.toNat
  locked : e.flag F.SCC_STAT_LOCKED = false
  isr : bitOf (e.reg R.HST_ISR0) 20 = true

theorem Dev.commitAbort_ends {d : Dev} {c : CommitSt} (hcur : d.scc.cur = some c) (hprov : c.prov = false) (code : Reason) (pos unit : Nat) :
    (d.commitAbort code pos unit).CommitEnded code := by
  have hflag : ((((d.setFlag F.SCC_STAT_LOCKED false).sccPhase 5).setFld F.SCC_STAT_RESULT code.toNat).flag F.SCC_STAT_LOCKED) = false := by
    rw [flag_setFld_ne _ _ _ _ (by decide) (by decide), Dev.sccPhase, flag_setFld_ne _ _ _ _ (by decide) (by decide)]
    exact flag_setFlag_same _ _ _ (by decide) rfl
  refine ⟨Dev.cur_commitAbort hcur hprov code pos unit, ?_, ?_, ?_, ?_⟩
  · rw [Dev.fld_commitAbort hcur hprov code pos unit (by decide), Dev.phase_abortShown]
  · rw [Dev.fld_commitAbort hcur hprov code pos unit (by decide), Dev.result_abortShown]
  · rw [Dev.flag, Dev.fld_commitAbort hcur hprov code pos unit (by decide), Dev.fld_abortShown rfl]
    exact hflag
  · rw [Dev.commitAbort_of_images hcur hprov, Dev.reg_congr (Dev.abortTold_keeps ..).1]
    exact Dev.isr_raiseIrq _ 20 (by decide)

/-! ## The check of an image -/

/-- The time that a check took, shown. -/
def Dev.checkTimed (d : Dev) (c : CommitSt) : Dev := d.setNum R.SCC_CHKT (min (d.now - c.checkBn) 65535)

/-- A check that has passed ends the commit without applying. -/
def Dev.checkedOnly (d : Dev) : Dev :=
  (({ d with scc := { d.scc with cur := none } }.sccPhase 0).setFlag F.SCC_STAT_LOCKED false).setFld F.SCC_STAT_RESULT 0

/-- The commit in progress replaced. -/
def Dev.withCommit (d : Dev) (c : CommitSt) : Dev := { d with scc := { d.scc with cur := some c } }

/-- The end of the check of a local image. -/
def Dev.checkLocal (d : Dev) (c : CommitSt) (f : Option (Nat × Reason)) : Dev := match f with
  | some x => d.commitAbort x.2 d.pos x.1
  | none =>
    if c.ms ≤ d.now then d.commitAbort Chk.late d.pos 0
    else if c.checkOnly then d.checkedOnly.raiseIrq 20
    else d.withCommit { c with result := some ((f.map (fun x => x.2)).getD Rsn.ok) }

/-- The commit of the manager with its own vote. -/
def CommitSt.votedBy (c : CommitSt) (pos : Nat) (code : Reason) : CommitSt :=
  { c with result := some code, pendV := c.pendV &&& ((2 ^ 32 - 1) ^^^ (2 ^ pos)), voted := true,
           yes := if code = Rsn.ok then c.yes ||| 2 ^ pos else c.yes, no := if code = Rsn.ok then c.no else c.no ++ [(pos, code)] }

/-- Where a check failed, in SCC_FAIL. -/
def Dev.failShown (d : Dev) (f : Option (Nat × Reason)) : Dev := match f with
  | some x => d.setNum R.SCC_FAIL (d.pos % 32 + x.1 % 256 * 2 ^ 8 + x.2.toNat * 2 ^ 16)
  | none => d

/-- The votes of a commit, shown. -/
def Dev.votesShown (d : Dev) (c : CommitSt) : Dev := (d.setNum R.SCC_VOTES c.yes).setNum R.SCC_PENDV c.pendV

/-- The end of the check of an image of a ring-wide scope. -/
def Dev.checkVoted (d : Dev) (c : CommitSt) (code : Reason) : Dev :=
  let c' := if d.isMgr then c.votedBy d.pos code else { c with result := some code }
  let d := d.withCommit c'
  if d.isMgr then (d.votesShown c').sccPhase 2 else d.sccPhase 2

/-- The end of a check. -/
def Dev.checkEnded (d : Dev) (c : CommitSt) (f : Option (Nat × Reason)) : Dev :=
  if c.local_ then d.checkLocal c f else (d.failShown f).checkVoted c ((f.map (fun x => x.2)).getD Rsn.ok)

theorem Dev.checkDone_of_open {d : Dev} {m : List Host.Cell} {c : CommitSt} (hcur : d.scc.cur = some c) (hres : c.result = none)
    (hin : c.scope.testBit d.pos = true) : d.checkDone m = (d.checkTimed c).checkEnded c ((d.checkTimed c).chkAll m c.scope) := by
  unfold Dev.checkDone
  rw [hcur]
  dsimp only
  rw [if_neg (by simp [hres, hin])]
  generalize hf : (d.setNum R.SCC_CHKT (min (d.now - c.checkBn) 65535)).chkAll m c.scope = f
  have hf' : (d.checkTimed c).chkAll m c.scope = f := hf
  rw [hf']
  unfold Dev.checkEnded
  split
  · cases f <;> rfl
  · cases f <;> rfl

theorem Dev.checkVoted_of_worker {d : Dev} (h : d.isMgr = false) (c : CommitSt) (code : Reason) :
    d.checkVoted c code = (d.withCommit { c with result := some code }).sccPhase 2 := by
  have hmgr : (d.withCommit { c with result := some code }).isMgr = false := h
  unfold Dev.checkVoted
  dsimp only
  rw [h, if_neg Bool.false_ne_true, hmgr, if_neg Bool.false_ne_true]

/-- The registers that the end of a check may write, beside the time that it took. -/
def checkRegs : List Nat := [R.SCC_STAT, R.SCC_FAIL, R.SCC_VOTES, R.SCC_PENDV] ++ irqRegs

theorem irqRegs_subset_checkRegs : irqRegs ⊆ checkRegs := fun _ h => List.mem_append_right _ h

/-- The end of a check leaves the stage image and every register that it does not name. -/
structure Dev.CheckKept (d e : Dev) : Prop where
  stage : e.stage = d.stage
  regs : d.regsBut e checkRegs

theorem Dev.checkKept_commitAbort {d : Dev} {c : CommitSt} (hcur : d.scc.cur = some c) (hprov : c.prov = false) (code : Reason) (pos unit : Nat) :
    d.CheckKept (d.commitAbort code pos unit) :=
  ⟨Dev.stage_commitAbort hcur hprov code pos unit, (Dev.regsBut_commitAbort hcur hprov code pos unit).mono fun a ha => by
    rcases List.mem_cons.1 ha with rfl | ha
    · simp [checkRegs]
    rcases List.mem_cons.1 ha with rfl | ha
    · simp [checkRegs]
    · exact irqRegs_subset_checkRegs ha⟩

theorem Dev.regsBut_checkedOnly (d : Dev) : d.regsBut d.checkedOnly [R.SCC_STAT] :=
  (((Dev.regsBut.of_regs rfl _).setFld (by simp) _).setFlag (by simp) _).setFld (by simp) _

/-- A local check that has passed with its milestone ahead, for a CHECKONLY. -/
theorem Dev.checkedOnly_shown (d : Dev) : (d.checkedOnly.raiseIrq 20).scc.cur = none ∧ (d.checkedOnly.raiseIrq 20).fld F.SCC_STAT_PHASE = 0 ∧
    (d.checkedOnly.raiseIrq 20).fld F.SCC_STAT_RESULT = 0 := by
  refine ⟨by simp [Dev.checkedOnly, Dev.sccPhase], ?_, ?_⟩
  · rw [Dev.fld_raiseIrq _ _ _ (by decide) (by decide), Dev.checkedOnly, Dev.fld_setFld_ne _ _ _ _ (by decide) (by decide),
      Dev.fld_setFlag_ne _ _ _ _ (by decide) (by decide)]
    exact fld_setFld_of_lt _ (by decide) (by decide)
  · rw [Dev.fld_raiseIrq _ _ _ (by decide) (by decide), Dev.checkedOnly]
    exact fld_setFld_of_lt _ (by decide) (by decide)

theorem Dev.checkKept_checkLocal {d : Dev} {c : CommitSt} (hcur : d.scc.cur = some c) (hprov : c.prov = false) (f : Option (Nat × Reason)) :
    d.CheckKept (d.checkLocal c f) := by
  unfold Dev.checkLocal
  split
  · exact Dev.checkKept_commitAbort hcur hprov _ _ _
  · split
    · exact Dev.checkKept_commitAbort hcur hprov _ _ _
    · split
      · exact ⟨by simp [Dev.checkedOnly, Dev.sccPhase], (d.regsBut_checkedOnly.mono (by simp [checkRegs])).raiseIrq irqRegs_subset_checkRegs 20⟩
      · exact ⟨rfl, .of_regs rfl _⟩

theorem Dev.checkKept_failShown (d : Dev) (f : Option (Nat × Reason)) : d.CheckKept (d.failShown f) := by
  cases f with
  | none => exact ⟨rfl, .refl d _⟩
  | some x => exact ⟨rfl, (Dev.regsBut.refl d _).setNum (by simp [checkRegs]) _⟩

theorem Dev.checkKept_checkVoted (d : Dev) (c : CommitSt) (code : Reason) : d.CheckKept (d.checkVoted c code) := by
  unfold Dev.checkVoted
  dsimp only
  generalize (if d.isMgr then c.votedBy d.pos code else { c with result := some code }) = c'
  have hset : d.regsBut (d.withCommit c') checkRegs := .of_regs rfl _
  split
  · refine ⟨rfl, Dev.regsBut.setFld ?_ (f := F.SCC_STAT_PHASE) (by simp [checkRegs]) 2⟩
    exact (hset.setNum (by simp [checkRegs]) _).setNum (by simp [checkRegs]) _
  · exact ⟨rfl, hset.setFld (by simp [checkRegs]) _⟩

theorem Dev.checkKept_checkEnded {d : Dev} {c : CommitSt} (hcur : d.scc.cur = some c) (hprov : c.prov = false) (f : Option (Nat × Reason)) :
    d.CheckKept (d.checkEnded c f) := by
  unfold Dev.checkEnded
  split
  · exact Dev.checkKept_checkLocal hcur hprov f
  · obtain ⟨hstage, hregs⟩ := d.checkKept_failShown f
    obtain ⟨hstage', hregs'⟩ := (d.failShown f).checkKept_checkVoted c ((f.map (fun x => x.2)).getD Rsn.ok)
    exact ⟨hstage'.trans hstage, hregs.trans hregs'⟩

theorem sccChkt_notMem_checkRegs : R.SCC_CHKT ∉ checkRegs := by decide

/-- What the end of a check of this device shows, by its result and the commit's kind. -/
structure Dev.CheckShown (d e : Dev) (c : CommitSt) (f : Option (Nat × Reason)) : Prop where
  fails : ∀ u code, c.local_ = true → f = some (u, code) → e.CommitEnded code
  late : c.local_ = true → f = none → c.ms ≤ d.now → e.CommitEnded 0x4002
  ends : c.local_ = true → f = none → d.now < c.ms → c.checkOnly = true →
    e.scc.cur = none ∧ e.fld F.SCC_STAT_PHASE = 0 ∧ e.fld F.SCC_STAT_RESULT = 0
  waits : c.local_ = true → f = none → d.now < c.ms → c.checkOnly = false → e.scc.cur = some { c with result := some 0 }
  keeps : c.local_ = false → d.isMgr = false → e.scc.cur = some { c with result := some ((f.map (fun x => x.2)).getD 0) } ∧
    e.fld F.SCC_STAT_PHASE = 2

theorem Dev.checkEnded_shows {d : Dev} {c : CommitSt} (hcur : d.scc.cur = some c) (hprov : c.prov = false) (f : Option (Nat × Reason)) :
    d.CheckShown (d.checkEnded c f) c f := by
  have hlocal : c.local_ = true → d.checkEnded c f = d.checkLocal c f := fun h => if_pos h
  refine ⟨?_, ?_, ?_, ?_, ?_⟩
  · intro u code hl hf
    rw [hlocal hl, hf]
    exact Dev.commitAbort_ends hcur hprov code _ _
  · intro hl hf hms
    have heq : d.checkLocal c none = d.commitAbort Chk.late d.pos 0 := if_pos hms
    rw [hlocal hl, hf, heq]
    exact Dev.commitAbort_ends hcur hprov _ _ _
  · intro hl hf hms hco
    have heq : d.checkLocal c none = d.checkedOnly.raiseIrq 20 := (if_neg (by omega)).trans (if_pos hco)
    rw [hlocal hl, hf, heq]
    exact d.checkedOnly_shown
  · intro hl hf hms hco
    have heq : d.checkLocal c none = d.withCommit { c with result := some Rsn.ok } := (if_neg (by omega)).trans (if_neg (by simp [hco]))
    rw [hlocal hl, hf, heq]
    rfl
  · intro hl hm
    have hmgr : (d.failShown f).isMgr = false := by
      rw [← hm]
      cases f <;> rfl
    have heq : d.checkEnded c f = (d.failShown f).checkVoted c ((f.map (fun x => x.2)).getD Rsn.ok) := if_neg (by simp [hl])
    rw [heq, Dev.checkVoted_of_worker hmgr]
    exact ⟨rfl, fld_setFld_of_lt _ (by decide) (by decide)⟩

/-- The clauses on the end of a check. -/
theorem Dev.checkDone_shown {d : Dev} (m : List Host.Cell) {c : CommitSt} (hcur : d.scc.cur = some c) (hres : c.result = none)
    (hin : c.scope.testBit d.pos = true) (hprov : c.prov = false) : (d.checkDone m).stage = d.stage ∧
      (d.checkDone m).num R.SCC_CHKT = min (d.now - c.checkBn) 65535 ∧ d.regsBut (d.checkDone m) (R.SCC_CHKT :: checkRegs) ∧
      d.CheckShown (d.checkDone m) c ((d.checkTimed c).chkAll m c.scope) := by
  have hnum : (d.checkTimed c).num R.SCC_CHKT = min (d.now - c.checkBn) 65535 :=
    (Dev.num_setNum _ _ _).trans (Nat.mod_eq_of_lt (by omega))
  have hregs : d.regsBut (d.checkTimed c) (R.SCC_CHKT :: checkRegs) := (Dev.regsBut.refl d _).setNum (by simp) _
  have hstage : (d.checkTimed c).stage = d.stage := rfl
  have hcur' : (d.checkTimed c).scc.cur = some c := hcur
  have hnow : (d.checkTimed c).now = d.now := rfl
  have hmgr : (d.checkTimed c).isMgr = d.isMgr := rfl
  rw [Dev.checkDone_of_open hcur hres hin]
  generalize (d.checkTimed c).chkAll m c.scope = f
  generalize d.checkTimed c = e at *
  have hkept := Dev.checkKept_checkEnded hcur' hprov f
  obtain ⟨hfails, hlate, hends, hwaits, hkeeps⟩ := Dev.checkEnded_shows hcur' hprov f
  exact ⟨hkept.stage.trans hstage, (hkept.regs.num sccChkt_notMem_checkRegs).trans hnum, hregs.trans (hkept.regs.mono (List.subset_cons_self _ _)),
    hfails, hnow ▸ hlate, hnow ▸ hends, hnow ▸ hwaits, hmgr ▸ hkeeps⟩

/-! ## PREPARE's message -/

/-- The commit that a message tells of, its check begun now. -/
def Dev.toldCommit (d : Dev) (id ms scope : Nat) : CommitSt := { id := id, ms := ms, scope := scope, local_ := false, checkBn := d.now }

/-- The image locked for a commit that a message tells of, and its check begun. -/
def Dev.commitTold (d : Dev) (id ms scope : Nat) : Dev :=
  (d.startCheck { id := id, ms := 0, scope := scope, local_ := false }).withCommit (d.toldCommit id ms scope)

/-- A ring's word from the manager, staged. -/
def Dev.ringWordSet (d : Dev) (x : BitVec 20 × Word) : Dev :=
  if !ringWord x.1.toNat then d else d.setStg x.1.toNat ((d.stg x.1.toNat &&& ~~~(stMask x.1.toNat)) ||| (x.2 &&& stMask x.1.toNat))

theorem Dev.prepare_of_new {d : Dev} {id scope : Nat} (hm : d.isMgr = false) (hin : scope.testBit d.pos = true)
    (hnew : ∀ c, d.scc.cur = some c → c.id ≠ id) (hlast : id ≠ d.num R.SCC_LASTID) :
    d.prepare id scope = d.startCheck { id := id, ms := 0, scope := scope, local_ := false } := by
  unfold Dev.prepare
  dsimp only
  cases hcur : d.scc.cur with
  | none => exact if_neg (by simp [hm, hin, hlast])
  | some c => exact if_neg (by simp [hm, hin, hlast, hnew c hcur])

theorem exec_commitMessage_kept {id : Word} {ms : BitVec 56} {scope : Word} {jr : List (BitVec 20 × Word)} {s : State}
    (h : s.dev.isMgr = true ∨ s.dev.pwr.vcore = false) : exec (.commitMessage id ms scope jr) s = .next s := by
  refine congrArg (fun d : Dev => Host.Outcome.next { s with dev := d }) ?_
  exact if_pos (by rcases h with h | h <;> simp [h])

theorem exec_commitMessage {id : Word} {ms : BitVec 56} {scope : Word} {jr : List (BitVec 20 × Word)} {s : State} (hm : s.dev.isMgr = false)
    (hv : s.dev.pwr.vcore = true) (hin : scope.toNat.testBit s.dev.pos = true) (hnew : ∀ c, s.dev.scc.cur = some c → c.id ≠ id.toNat)
    (hlast : id.toNat ≠ s.dev.num R.SCC_LASTID) : exec (.commitMessage id ms scope jr) s =
      .next { s with dev := jr.foldl Dev.ringWordSet (s.dev.commitTold id.toNat ms.toNat scope.toNat) } := by
  refine congrArg (fun d : Dev => Host.Outcome.next { s with dev := d }) ?_
  refine (if_neg (by simp [hm, hv])).trans ?_
  rw [Dev.prepare_of_new hm hin hnew hlast]
  exact if_neg (by simp)

theorem Dev.stg_setStg_of_ne (d : Dev) {a b : Nat} (h : b ≠ a) (w : Word) : (d.setStg a w).stg b = d.stg b := by
  unfold Dev.stg Dev.setStg
  rw [mgetD_msetD, if_neg h]

/-- Staged words of the rings touch nothing but the stage image, and there the rings alone. -/
theorem Dev.ringWords_staged (jr : List (BitVec 20 × Word)) (d : Dev) :
    (∀ a, a < 0x10000 ∨ 0x1A000 ≤ a → (jr.foldl Dev.ringWordSet d).stg a = d.stg a) ∧
    jr.foldl Dev.ringWordSet d = { d with stage := (jr.foldl Dev.ringWordSet d).stage } := by
  refine List.foldlRecOn (motive := fun e : Dev => (∀ a, a < 0x10000 ∨ 0x1A000 ≤ a → e.stg a = d.stg a) ∧ e = { d with stage := e.stage })
    _ _ ⟨fun _ _ => rfl, rfl⟩ fun e he x _ => ?_
  obtain ⟨hstg, hframe⟩ := he
  unfold Dev.ringWordSet
  split
  · exact ⟨hstg, hframe⟩
  case isFalse hword =>
    have hrange : 0x10000 ≤ x.1.toNat ∧ x.1.toNat < 0x1A000 := by
      simp only [ringWord, Bool.not_eq_true', Bool.not_eq_false, Bool.and_eq_true, decide_eq_true_eq] at hword
      exact ⟨hword.1.2, hword.2⟩
    refine ⟨fun a ha => (Dev.stg_setStg_of_ne e (by omega) _).trans (hstg a ha), ?_⟩
    unfold Dev.setStg
    rw [hframe]

theorem Dev.commitTold_shown (d : Dev) (id ms scope : Nat) (hin : scope.testBit d.pos = true) :
    (d.commitTold id ms scope).scc = { d.scc with cur := some (d.toldCommit id ms scope) } ∧
    (d.commitTold id ms scope).fld F.SCC_STAT_PHASE = 1 ∧ (d.commitTold id ms scope).flag F.SCC_STAT_LOCKED = true ∧
    d.regsBut (d.commitTold id ms scope) [R.SCC_STAT] ∧ (d.commitTold id ms scope).stage = d.stage ∧
    d.commitTold id ms scope = { d with regs := (d.commitTold id ms scope).regs, scc := (d.commitTold id ms scope).scc } := by
  refine ⟨rfl, ?_, ?_, ?_, rfl, rfl⟩
  · exact (Dev.fld_setFlag_ne _ _ _ _ (by decide) (by decide)).trans (fld_setFld_of_lt _ (by decide) (by decide))
  · exact (Dev.flag_setFlag_same _ _ _ (by decide) rfl).trans hin
  · exact ((Dev.regsBut.of_regs rfl _).setFld (f := F.SCC_STAT_PHASE) (by simp) _).setFlag (f := F.SCC_STAT_LOCKED) (by simp) _

/-- The clauses on PREPARE's message. -/
theorem Dev.commitMessage_shown (d : Dev) (id ms scope : Nat) (hin : scope.testBit d.pos = true) (jr : List (BitVec 20 × Word)) :
    let e := jr.foldl Dev.ringWordSet (d.commitTold id ms scope)
    e.scc = { d.scc with cur := some (d.toldCommit id ms scope) } ∧ e.fld F.SCC_STAT_PHASE = 1 ∧ e.flag F.SCC_STAT_LOCKED = true ∧
    d.regsBut e [R.SCC_STAT] ∧ (∀ a, a < 0x10000 ∨ 0x1A000 ≤ a → e.stg a = d.stg a) ∧
    e = { d with regs := e.regs, stage := e.stage, scc := e.scc } := by
  obtain ⟨hscc, hphase, hlocked, hregs, hstage, hframe⟩ := d.commitTold_shown id ms scope hin
  generalize d.commitTold id ms scope = f at *
  obtain ⟨hstg, hset⟩ := f.ringWords_staged jr
  generalize jr.foldl Dev.ringWordSet f = e at *
  have hsame : e.regs = f.regs := by rw [hset]
  have hscc' : e.scc = f.scc := by rw [hset]
  refine ⟨hscc'.trans hscc, (Dev.fld_congr hsame _).trans hphase, (Dev.flag_congr hsame _).trans hlocked, hregs.trans (.of_regs hsame _), fun a ha => ?_, ?_⟩
  · rw [hstg a ha, Dev.stg, hstage]; rfl
  · rw [hframe] at hset
    rw [hsame, hscc']
    exact hset

/-! ## The manager's decision -/

theorem exec_commitDecide (far : Option (Fin 32 × BitVec 8 × BitVec 16)) (s : State) :
    exec (.commitDecide far) s = .next { s with dev := s.dev.decideCommit s.store far } := rfl

section
variable {d : Dev} {c : CommitSt} (hcur : d.scc.cur = some c) (m : List Host.Cell) (far : Option (Fin 32 × BitVec 8 × BitVec 16))
include hcur

theorem Dev.decideCommit_kept (h : d.isMgr = false ∨ c.local_ = true ∨ c.decision ≠ none) : d.decideCommit m far = d := by
  unfold Dev.decideCommit
  rw [hcur]
  refine if_pos ?_
  rcases h with h | h | h
  · simp [h]
  · simp [h]
  · simp [Option.isSome_iff_ne_none.2 h]

/-- The manager's decision for a commit that every vote supports. -/
def Dev.decideYes (d : Dev) (c : CommitSt) : Dev :=
  if c.checkOnly then (d.checkedOnly.raiseIrq 20).cmtHeader c 3 Rsn.ok d.checkedOnly.pos
  else ((d.withCommit { c with decision := some Rsn.ok }).sccPhase 3).cmtHeader c 2 Rsn.ok 0

section
variable (hm : d.isMgr = true) (hl : c.local_ = false) (hd : c.decision = none)
include hm hl hd

theorem Dev.decideCommit_yes (hpend : c.pendV = 0) (hno : c.no = []) (htests : d.decideTests m c far = none) :
    d.decideCommit m far = d.decideYes c := by
  unfold Dev.decideCommit
  rw [hcur]
  dsimp only
  rw [if_neg (by simp [hm, hl, hd]), if_pos ⟨hpend, hno⟩, htests]
  rfl

theorem Dev.decideCommit_failed (hpend : c.pendV = 0) (hno : c.no = []) {x : Nat × Nat × Reason} (htests : d.decideTests m c far = some x) :
    d.decideCommit m far = d.commitAbort x.2.2 x.1 x.2.1 := by
  unfold Dev.decideCommit
  rw [hcur]
  dsimp only
  rw [if_neg (by simp [hm, hl, hd]), if_pos ⟨hpend, hno⟩, htests]

theorem Dev.decideCommit_no {x : Nat × Reason} (hno : c.no = [x]) :
    d.decideCommit m far = d.commitAbort x.2 x.1 (slice (d.reg R.SCC_FAIL) 15 8) := by
  unfold Dev.decideCommit
  rw [hcur]
  dsimp only
  rw [if_neg (by simp [hm, hl, hd]), if_neg (by simp [hno]), hno, List.mergeSort_singleton]

theorem Dev.decideCommit_late (hpend : c.pendV ≠ 0) (hno : c.no = []) (hms : c.ms ≤ d.now + d.latOver c.scope + 8) :
    d.decideCommit m far = d.commitAbort Chk.late (((onesBelow 32 c.pendV).head?).getD d.pos) 0 := by
  unfold Dev.decideCommit
  rw [hcur]
  dsimp only
  rw [if_neg (by simp [hm, hl, hd]), if_neg (by simp [hpend]), hno, List.mergeSort_nil]
  exact if_pos hms

end
end

theorem Dev.decideYes_shown {d : Dev} {c : CommitSt} (hco : c.checkOnly = false) : (d.decideYes c).scc.cur = some { c with decision := some 0 } ∧
    (d.decideYes c).fld F.SCC_STAT_PHASE = 3 ∧ d.regsBut (d.decideYes c) [R.SCC_STAT] := by
  have heq : d.decideYes c = ((d.withCommit { c with decision := some Rsn.ok }).sccPhase 3).cmtHeader c 2 Rsn.ok 0 := if_neg (by simp [hco])
  rw [heq]
  exact ⟨rfl, fld_setFld_of_lt _ (by decide) (by decide), (Dev.regsBut.of_regs rfl _).setFld (by simp) _⟩

/-! ## The milestone -/

theorem exec_commitMilestone (s : State) : exec .commitMilestone s = .next { s with dev := s.dev.milestone s.store } := rfl

theorem Dev.calApplyDue_of_none {d : Dev} (h : d.cal.pend = none) : d.calApplyDue = d := by
  unfold Dev.calApplyDue
  rw [h]

section
variable {d : Dev} {c : CommitSt} (hcur : d.scc.cur = some c) (hcal : d.cal.pend = none) (m : List Host.Cell)
include hcur hcal

theorem Dev.milestone_early (h : c.ms = 0 ∨ d.now < c.ms) : d.milestone m = d := by
  unfold Dev.milestone
  rw [Dev.calApplyDue_of_none hcal]
  dsimp only
  rw [hcur]
  exact if_pos h

section
variable (h0 : c.ms ≠ 0) (hms : c.ms ≤ d.now) (hl : c.local_ = true) (hco : c.checkOnly = false)
include h0 hms hl hco

theorem Dev.milestone_late (hres : c.result ≠ some 0) : d.milestone m = d.commitAbort Chk.late d.pos 0 := by
  unfold Dev.milestone
  rw [Dev.calApplyDue_of_none hcal]
  dsimp only
  rw [hcur]
  exact (if_neg (by omega)).trans ((if_pos hl).trans ((if_neg (by simp [hco])).trans (if_pos hres)))

theorem Dev.milestone_busy (hres : c.result = some 0) {x : Nat × Reason} (hbusy : d.chkBusy m = some x) :
    d.milestone m = d.commitAbort x.2 d.pos x.1 := by
  unfold Dev.milestone
  rw [Dev.calApplyDue_of_none hcal]
  dsimp only
  rw [hcur]
  dsimp only
  rw [if_neg (by omega), if_pos hl, if_neg (by simp [hco]), if_neg fun hn => hn hres, hbusy]

theorem Dev.milestone_applies (hres : c.result = some 0) (hfree : d.chkBusy m = none) : d.milestone m = (d.applyImage c).applied := by
  unfold Dev.milestone
  rw [Dev.calApplyDue_of_none hcal]
  dsimp only
  rw [hcur]
  dsimp only
  rw [if_neg (by omega), if_pos hl, if_neg (by simp [hco]), if_neg fun hn => hn hres, hfree]

end
end

/-- The clauses on a commit that ends without applying. -/
theorem Dev.commitAbort_shown {d : Dev} {c : CommitSt} (hcur : d.scc.cur = some c) (hprov : c.prov = false) (code : Reason) (pos unit : Nat) :
    (d.commitAbort code pos unit).scc.cur = none ∧ (d.commitAbort code pos unit).fld F.SCC_STAT_PHASE = 5 ∧
    (d.commitAbort code pos unit).fld F.SCC_STAT_RESULT = code.toNat ∧ (d.commitAbort code pos unit).stage = d.stage ∧
    d.regsBut (d.commitAbort code pos unit) (R.SCC_STAT :: R.SCC_FAIL :: irqRegs) :=
  have h := Dev.commitAbort_ends hcur hprov code pos unit
  ⟨h.cur, h.phase, h.result, Dev.stage_commitAbort hcur hprov code pos unit, Dev.regsBut_commitAbort hcur hprov code pos unit⟩

end Sys2Proof.Machine
end

section

/-!
PROOF. A local commit that is applied at its milestone, and scope devices that do not report in time (14_stage_check_commit.md R701, R706 to R710).
-/

namespace Sys2Proof.Machine
open Sys2Proof

/-! ## The swap leaves the commit -/

theorem Dev.scc_swapImage (d : Dev) : d.swapImage.scc = d.scc := by
  unfold Dev.swapImage
  exact foldl_keeps (fun d a => d.setReg a ((d.reg a &&& ~~~(stMask a)) ||| (d.stg a &&& stMask a))) Dev.scc (fun _ _ => rfl) _ d

theorem Dev.scc_hpMode (d : Dev) (p old : Nat) : (d.hpMode p old).scc = d.scc := by
  unfold Dev.hpMode
  dsimp only
  (repeat' split) <;> simp

theorem Dev.scc_swapBands (d : Dev) (keys : List Nat) : (d.swapBands keys).scc = d.scc := by
  unfold Dev.swapBands
  refine foldl_keeps _ Dev.scc (fun e p => ?_) _ d
  split <;> rfl

theorem Dev.scc_setCk (d : Dev) (n : Nat) (c : CkSrc) : (d.setCk n c).scc = d.scc := by
  unfold Dev.setCk
  dsimp only
  split <;> rfl

theorem Dev.scc_asCommit (d : Dev) : d.asCommit.scc = d.scc := by
  unfold Dev.asCommit
  refine foldl_keeps _ Dev.scc (fun e n => ?_) _ d
  split
  · exact e.scc_setCk _ _
  split
  · exact e.scc_setCk _ _
  split
  · rfl
  split
  · exact e.scc_setCk _ _
  split
  · exact e.scc_setCk _ _
  · rfl

theorem Dev.scc_startEngines (d : Dev) (engine : Bool) (idx : Nat) : (d.startEngines engine idx).scc = d.scc := by
  have hfold : ((d.cmdEngines engine idx).foldl Dev.startEngine d).scc = d.scc := foldl_keeps Dev.startEngine Dev.scc (fun _ _ => rfl) _ d
  unfold Dev.startEngines
  dsimp only
  split <;> exact hfold

/-- An engine that the swap concerns. -/
def Dev.swapEngine (keys : List Nat) (d : Dev) (n : Nat) : Dev :=
  let e := d.eng n
  let e := if keys.contains (R.TNK_DIV n) then { e with c0 := d.now * cyclesPerBeat } else e
  d.setEng n (if e.running && d.flag (F.TNK_CFG_SWAPMODE n) then { e with swapDue := true } else e)

/-- A group that the swap starts once. -/
def Dev.autoStart (d : Dev) (g : Nat) : Dev :=
  if !d.flag (F.TNK_SGCFG_AUTOSTART g) then d else
  let d := (d.setFlag (F.TNK_SGCFG_AUTOSTART g) false).setStg (R.TNK_SGCFG g) (putBit (d.stg (R.TNK_SGCFG g)) 16 false)
  if (d.grpMask g).isEmpty || (d.grpMask g).any (fun n => d.fenced (domTe n)) then d else d.startEngines false g

theorem Dev.swapEngines_eq (d : Dev) (keys : List Nat) :
    d.swapEngines keys = (List.range 16).foldl Dev.autoStart (((keys.filterMap engOf).eraseDups).foldl (Dev.swapEngine keys) d) := rfl

theorem Dev.scc_autoStart (d : Dev) (g : Nat) : (d.autoStart g).scc = d.scc := by
  unfold Dev.autoStart
  split
  · rfl
  · dsimp only
    split
    · rfl
    · exact Dev.scc_startEngines _ _ _

theorem Dev.scc_swapEngines (d : Dev) (keys : List Nat) : (d.swapEngines keys).scc = d.scc := by
  rw [Dev.swapEngines_eq]
  exact (foldl_keeps _ Dev.scc (fun e g => e.scc_autoStart g) _ _).trans (foldl_keeps (Dev.swapEngine keys) Dev.scc (fun _ _ => rfl) _ d)

theorem Dev.scc_swapTallies (d : Dev) (c : CommitSt) (keys : List Nat) : (d.swapTallies c keys).scc = d.scc := by
  unfold Dev.swapTallies
  refine foldl_keeps _ Dev.scc (fun e t => ?_) _ d
  dsimp only
  split
  · rfl
  · split <;> rfl

theorem Dev.scc_asyCommit (d : Dev) (changed : Nat → Bool) : (d.asyCommit changed).scc = d.scc := by
  unfold Dev.asyCommit
  refine (foldl_keeps _ Dev.scc (fun e x => ?_) _ _).trans (foldl_keeps _ Dev.scc (fun e n => ?_) _ d)
  · dsimp only
    (repeat' split) <;> rfl
  · dsimp only
    split <;> rfl

theorem Dev.scc_swapAll (d : Dev) (c : CommitSt) : (d.swapAll c).scc = d.scc := by
  unfold Dev.swapAll
  dsimp only
  rw [Dev.scc_asyCommit, Dev.scc_swapTallies, Dev.scc_swapEngines, Dev.scc_asCommit, Dev.scc_swapBands,
    foldl_keeps _ Dev.scc (fun e (x : Nat × Nat) => e.scc_hpMode x.1 x.2), foldl_keeps _ Dev.scc (fun e (x : Nat × Option Bool) => by simp),
    Dev.scc_swapImage]

/-! ## What follows the swap leaves the commit and its status -/

/-- The commit and SCC_STAT stay. -/
structure Dev.SccKept (d e : Dev) : Prop where
  scc : e.scc = d.scc
  stat : e.reg R.SCC_STAT = d.reg R.SCC_STAT

namespace Dev.SccKept
variable {d e f : Dev}

theorem refl (d : Dev) : d.SccKept d := ⟨rfl, rfl⟩

theorem trans (h : d.SccKept e) (h' : e.SccKept f) : d.SccKept f := ⟨h'.scc.trans h.scc, h'.stat.trans h.stat⟩

theorem of_regsBut {l : List Nat} (hscc : e.scc = d.scc) (h : d.regsBut e l) (hl : R.SCC_STAT ∉ l) : d.SccKept e := ⟨hscc, h _ hl⟩

theorem of_regs (hscc : e.scc = d.scc) (h : e.regs = d.regs) : d.SccKept e := ⟨hscc, Dev.reg_congr h _⟩

theorem setReg (h : d.SccKept e) {a : Nat} (ha : a ≠ R.SCC_STAT) (w : Word) : d.SccKept (e.setReg a w) :=
  ⟨h.scc, by rw [Dev.reg_setReg, if_neg ha.symm]; exact h.stat⟩

theorem setFld (h : d.SccKept e) {g : Fld} (hg : g.a ≠ R.SCC_STAT) (v : Nat) : d.SccKept (e.setFld g v) := h.setReg hg _

theorem setFlag (h : d.SccKept e) {g : Fld} (hg : g.a ≠ R.SCC_STAT) (b : Bool) : d.SccKept (e.setFlag g b) := h.setReg hg _

theorem foldl {A : Type} {step : Dev → A → Dev} (hs : ∀ d a, Dev.SccKept d (step d a)) (as : List A) : ∀ d : Dev, d.SccKept (as.foldl step d) := by
  induction as with
  | nil => exact .refl
  | cons a as ih => exact fun d => (hs d a).trans (ih _)

end Dev.SccKept

theorem sccStat_notMem_endRegs : R.SCC_STAT ∉ endRegs := by
  simp only [endRegs, edgeRegs, talRegs, List.mem_append, List.mem_map, List.mem_range, R.SCC_STAT, R.PO_EDGECNT, R.TAL_LAST, R.TAL_STAT,
    R.TAL_GAPCNT, R.SP_SBRD]
  omega

theorem sccStat_notMem_lossRegs : R.SCC_STAT ∉ lossRegs := by
  simp only [lossRegs, List.mem_append, not_or]
  exact ⟨⟨by decide, by decide⟩, sccStat_notMem_endRegs⟩

theorem sccStat_notMem_clearRegs : R.SCC_STAT ∉ clearRegs := by decide

theorem Dev.sccKept_endJob (d : Dev) (h : Nat) (o : Outcome) : d.SccKept (d.endJob h o) :=
  .of_regsBut (by simp) (d.regsBut_endJob h o) sccStat_notMem_endRegs

theorem Dev.sccKept_bulkPut (d : Dev) (p k : Nat) (ws : List Word) : d.SccKept (d.bulkPut p k ws) :=
  .of_regs (by simp) (d.regs_bulkPut p k ws)

theorem Dev.sccKept_raiseCause (d : Dev) (k : Nat) (r : Reason) : d.SccKept (d.raiseCause k r) :=
  .of_regsBut (by simp) (d.regsBut_raiseCause k r) (by decide)

theorem Dev.sccKept_clearCauses (d : Dev) (k : Nat) (p : Reason → Bool) : d.SccKept (d.clearCauses k p) :=
  .of_regsBut (by simp) (d.regsBut_clearCauses k p) sccStat_notMem_clearRegs

theorem Dev.sccKept_fenceWorker (d : Dev) (p : Nat) (r : Reason) : d.SccKept (d.fenceWorker p r) :=
  have h := d.fenceWorker_fences p r
  .of_regsBut h.scc h.regs sccStat_notMem_lossRegs

theorem Dev.sccKept_closeRing (d : Dev) (ring : Nat) : d.SccKept (d.closeRing ring) := by
  unfold Dev.closeRing
  dsimp only
  refine .trans ?_ (.foldl (fun d p => d.sccKept_bulkPut _ _ _) _ _)
  exact (Dev.SccKept.foldl (fun (d : Dev) (j : Job) => d.sccKept_endJob _ _) _ d).trans
    (.foldl (step := fun d (j : Job) => d.modJob j.hm fun j => { j with closing := some Rsn.expFenced }) (fun _ _ => .of_regs rfl rfl) _ _)

theorem Dev.sccKept_hostFence (d : Dev) (k : Nat) (r : Reason) : d.SccKept (d.hostFence k r).1 := by
  unfold Dev.hostFence
  split
  · exact .refl d
  split
  · split
    · exact d.sccKept_fenceWorker _ _
    · exact .refl d
  split
  · split
    · exact (d.sccKept_raiseCause k r).trans (Dev.sccKept_closeRing _ _)
    · exact .refl d
  · exact (d.sccKept_raiseCause k r).trans (.of_regs rfl rfl)

theorem Dev.sccKept_clearWorker (d : Dev) (p : Nat) : d.SccKept (d.clearWorker p) := by
  unfold Dev.clearWorker
  split
  · exact .refl d
  · have hstep : d.SccKept { d with fen := { d.fen with posInc := mset 0 d.fen.posInc p (nextInc (mget 0 d.fen.posInc p)) } } := .of_regs rfl rfl
    exact hstep.trans (Dev.sccKept_clearCauses _ _ _)

theorem Dev.sccKept_groupFreed (d : Dev) (k : Nat) : d.SccKept (d.groupFreed k) := by
  unfold Dev.groupFreed
  split
  · exact .foldl (fun d m => d.sccKept_clearCauses _ _) _ d
  · exact .refl d

theorem Dev.sccKept_encFreed (d : Dev) (k : Nat) : d.SccKept (d.encFreed k) := by
  unfold Dev.encFreed
  split
  · dsimp only
    have hstat : (F.ENC_STAT_SPEED_VALID (k - 104)).a ≠ R.SCC_STAT := by
      simp only [R.ENC_STAT, R.SCC_STAT, ne_eq]
      omega
    have hset : ∀ e : EncSt, d.SccKept (d.setEnc (k - 104) e) := fun _ => .of_regs rfl rfl
    exact (hset _).setFlag hstat false
  · exact .refl d

theorem Dev.sccKept_hostUnfence (d : Dev) (k : Nat) : d.SccKept (d.hostUnfence k).1 := by
  have hlifted : d.SccKept { d with fen := { d.fen with babble := d.fen.babble.filter (fun x => x.1 != k - 0x2000) } } := .of_regs rfl rfl
  unfold Dev.hostUnfence
  dsimp only
  split
  · dsimp only
    split
    · exact hlifted.trans (Dev.sccKept_clearWorker _ _)
    · exact hlifted
  split
  · exact .refl d
  · exact ((d.sccKept_clearCauses k _).trans (Dev.sccKept_groupFreed _ k)).trans (Dev.sccKept_encFreed _ k)

/-! ### Scheduled actions -/

theorem Dev.sccKept_pwrHold (d : Dev) (cmd : Nat) (expire isolate : Bool) (b : Nat) : d.SccKept (d.pwrHold cmd expire isolate b) := by
  have hregs : d.regsBut (d.pwrHold cmd expire isolate b) [R.PWR_APPLY_LO, R.PWR_APPLY_HI, R.PWR_STAT] :=
    ((Dev.regsBut.of_regs rfl _).setNum2 (by simp) (by simp) b).setFlag (by simp) _
  exact .of_regsBut rfl hregs (by decide)

theorem Dev.sccKept_writeAsCmd (d : Dev) (w : Word) : d.SccKept (d.writeAsCmd w) := by
  have hdropped : d.SccKept { d with clk := { d.clk with asPend := none } } := .of_regs rfl rfl
  have hdrop : d.SccKept (if bitOf w 8 then { d with clk := { d.clk with asPend := none } }.setFlag F.AS_STAT_PENDING false else d) := by
    split
    · exact hdropped.setFlag (by decide) _
    · exact .refl d
  unfold Dev.writeAsCmd
  dsimp only
  generalize (if bitOf w 8 then { d with clk := { d.clk with asPend := none } }.setFlag F.AS_STAT_PENDING false else d) = e at *
  have hreason : ∀ r, d.SccKept (e.asReason r) := fun r => hdrop.setFld (by decide) _
  split
  · exact hdrop
  split
  · exact hreason _
  split
  · exact hreason _
  split
  · exact hreason _
  · have hend : ∀ {f : Dev} (x : AsPend), d.SccKept f → d.SccKept ({ f with clk := { f.clk with asPend := some x } }.setFlag F.AS_STAT_PENDING true) :=
      fun {f} x hf => by
        have hset : d.SccKept { f with clk := { f.clk with asPend := some x } } := hf.trans (.of_regs rfl rfl)
        exact hset.setFlag (by decide) true
    split
    · exact hend _ (hreason _)
    · exact hend _ hdrop

theorem Dev.sccKept_writeTnkCmd (d : Dev) (w : Word) : d.SccKept (d.writeTnkCmd w) := by
  unfold Dev.writeTnkCmd
  dsimp only
  split
  · exact .refl d
  split
  · exact (Dev.SccKept.refl d).setFld (by decide) _
  split
  · exact (Dev.SccKept.refl d).setFld (by decide) _
  split
  · exact (Dev.SccKept.refl d).setFld (by decide) _
  · have hset : ∀ x : TnkPend, d.SccKept { d with tnk := { d.tnk with pend := some x } } := fun _ => .of_regs rfl rfl
    exact (hset _).setFlag (by decide) _

theorem Dev.sccKept_hpTrain (d : Dev) (p : Nat) : d.SccKept (d.hpTrain p) := .of_regsBut (by simp) (d.regsBut_hpTrain p) sccStat_notMem_clearRegs

theorem Dev.sccKept_actRun (d : Dev) (kind arg : Nat) : d.SccKept (d.actRun kind arg).1 := by
  have hclk : ∀ {e : Dev} (k : ClkSt), d.SccKept e → d.SccKept { e with clk := k } := fun k he => he.trans (.of_regs rfl rfl)
  unfold Dev.actRun
  split
  · split
    · exact .refl d
    · exact d.sccKept_pwrHold _ _ _ _
  · exact d.sccKept_hostFence _ _
  · exact d.sccKept_hostUnfence _
  · dsimp only
    have hwritten : d.SccKept ({ d with clk := { d.clk with asPend := none } }.writeAsCmd (BitVec.ofNat 32 (arg % 512))) :=
      (hclk _ (.refl d)).trans (Dev.sccKept_writeAsCmd _ _)
    split
    · exact hclk _ hwritten
    · split
      · exact hwritten
      · exact hclk _ hwritten
  · split
    · exact .refl d
    · dsimp only
      split
      · exact (d.sccKept_writeTnkCmd _).trans (.of_regs rfl rfl)
      · exact d.sccKept_writeTnkCmd _
  · dsimp only
    split
    · exact .refl d
    · split
      · exact d.sccKept_hpTrain _
      · exact .refl d

/-- An action of the image for this position, with what SCC_ACTRES records of it. -/
def Dev.actDone (d : Dev) (n : Nat) : Dev :=
  let w := d.reg (R.SCC_ACT0 n)
  let k := slice w 3 0
  if k = 0 ∨ slice w 12 8 ≠ d.pos then d else
  let r := d.actRun k (d.num (R.SCC_ACT1 n))
  let a := R.SCC_ACTRES (n / 2)
  r.1.setReg a (setSlice (r.1.reg a) (16 * (n % 2) + 15) (16 * (n % 2)) r.2.toNat)

theorem Dev.actions_eq (d : Dev) : d.actions = (List.range 16).foldl Dev.actDone d := rfl

theorem Dev.sccKept_actions (d : Dev) : d.SccKept d.actions := by
  rw [Dev.actions_eq]
  refine .foldl (fun e n => ?_) _ d
  unfold Dev.actDone
  dsimp only
  split
  · exact .refl e
  · refine (e.sccKept_actRun _ _).setReg ?_ _
    simp only [R.SCC_ACTRES, R.SCC_STAT, ne_eq]
    omega

/-- The words of a position's rings that have changed, as sent to it. -/
def Dev.ringsSent (now : Nat → Word) (d : Dev) (p : Nat) : Dev :=
  let ws := (((ringsNaming now p ++ ringsNaming d.reg p).eraseDups.flatMap jrRegs).filter (fun a => now a != d.reg a)).map (fun a => (a, d.reg a))
  if ws.isEmpty then d else d.bulkPut p 8 (7 :: ws.flatMap (fun x => [BitVec.ofNat 32 x.1, x.2]))

theorem Dev.ringsTell_eq (d : Dev) (now : Nat → Word) (c : CommitSt) : d.ringsTell now c = if d.boot.role != .manager then d else
    ((List.range 32).filter (fun p => p != d.pos && !c.scope.testBit p && decide (6 ≤ mget 0 d.wr.prov p))).foldl (Dev.ringsSent now) d := rfl

theorem Dev.sccKept_ringsTell (d : Dev) (now : Nat → Word) (c : CommitSt) : d.SccKept (d.ringsTell now c) := by
  rw [Dev.ringsTell_eq]
  split
  · exact .refl d
  · refine .foldl (fun e p => ?_) _ d
    unfold Dev.ringsSent
    dsimp only
    split
    · exact .refl e
    · exact e.sccKept_bulkPut _ _ _

/-! ### Applied -/

/-- The image swapped, and its commit no longer in progress. -/
def Dev.imageSwapped (d : Dev) (c : CommitSt) : Dev :=
  { (d.swapAll c) with scc := { (d.swapAll c).scc with cur := none, fresh := false } }.setFlag F.SCC_STAT_LOCKED false

theorem Dev.applyImage_eq (d : Dev) (c : CommitSt) : d.applyImage c =
    (((d.imageSwapped c).dueRec 5 [cmtRec c 0 c.ms (d.imageSwapped c).actCount d.imageCrc.toNat]).ringsTell d.reg c).actions := rfl

/-- The status after the swap: no commit in progress, and the image unlocked. -/
theorem Dev.applyImage_shown (d : Dev) (c : CommitSt) : (d.applyImage c).scc.cur = none ∧ (d.applyImage c).scc.awaitProv = d.scc.awaitProv ∧
    (d.applyImage c).flag F.SCC_STAT_LOCKED = false := by
  have hswap : (d.imageSwapped c).scc = { d.scc with cur := none, fresh := false } := by
    rw [← d.scc_swapAll c]; rfl
  have hlocked : (d.imageSwapped c).flag F.SCC_STAT_LOCKED = false := Dev.flag_setFlag_same _ _ _ (by decide) rfl
  rw [Dev.applyImage_eq]
  generalize [cmtRec c 0 c.ms (d.imageSwapped c).actCount d.imageCrc.toNat] = rs
  generalize d.imageSwapped c = e at *
  have hdue : e.SccKept (e.dueRec 5 rs) := .of_regs rfl rfl
  have hkept := (hdue.trans (Dev.sccKept_ringsTell _ d.reg c)).trans (Dev.sccKept_actions _)
  generalize ((e.dueRec 5 rs).ringsTell d.reg c).actions = f at *
  have hflag : f.flag F.SCC_STAT_LOCKED = e.flag F.SCC_STAT_LOCKED := by unfold Dev.flag Dev.fld; rw [hkept.stat]
  exact ⟨by rw [hkept.scc, hswap], by rw [hkept.scc, hswap], hflag.trans hlocked⟩

/-- What a commit that is applied shows. -/
theorem Dev.applied_shown {d : Dev} (h : d.scc.awaitProv = false) : d.applied.scc = d.scc ∧ d.applied.fld F.SCC_STAT_PHASE = 4 ∧
    d.applied.fld F.SCC_STAT_RESULT = 0 ∧ d.applied.flag F.SCC_STAT_LOCKED = d.flag F.SCC_STAT_LOCKED ∧
    bitOf (d.applied.reg R.HST_ISR0) 20 = true ∧ d.applied.fen = d.fen := by
  have heq : d.applied = ((d.sccPhase 4).setFld F.SCC_STAT_RESULT 0).raiseIrq 20 := if_neg (by simp [h])
  rw [heq]
  refine ⟨by simp [Dev.sccPhase], ?_, ?_, ?_, Dev.isr_raiseIrq _ 20 (by decide), by simp [Dev.sccPhase]⟩
  · rw [Dev.fld_raiseIrq _ _ _ (by decide) (by decide), Dev.fld_setFld_ne _ _ _ _ (by decide) (by decide)]
    exact fld_setFld_of_lt _ (by decide) (by decide)
  · rw [Dev.fld_raiseIrq _ _ _ (by decide) (by decide)]
    exact fld_setFld_of_lt _ (by decide) (by decide)
  · rw [Dev.flag_raiseIrq _ _ _ (by decide) (by decide), flag_setFld_ne _ _ _ _ (by decide) (by decide), Dev.sccPhase,
      flag_setFld_ne _ _ _ _ (by decide) (by decide)]

/-! ### Devices that do not report -/

/-- The exchange of a provisioning goes back to its image at the positions that have not reported. -/
def Dev.provAgain (d : Dev) : Dev :=
  if d.scc.awaitProv then { d with wr := { d.wr with prov := (onesBelow 32 d.scc.await).foldl (fun (m : SMap Nat) p => mset 0 m p 4) d.wr.prov } } else d

/-- No report is waited for. -/
def Dev.awaitOver (d : Dev) : Dev := { d with scc := { d.scc with await := 0 } }

/-- The fences of the positions that have not reported. -/
def Dev.unreportedFenced (d : Dev) (ps : List Nat) : Dev := ps.foldl (fun d p => d.fenceWorker p Rsn.commitLost) d

theorem exec_commitReportTimeout {s : State} (h0 : s.dev.scc.await ≠ 0) (hb : s.dev.scc.awaitBn + 1 < s.dev.now) (hm : s.dev.isMgr = true) :
    exec .commitReportTimeout s = .next { s with dev := (s.dev.provAgain.awaitOver.unreportedFenced (onesBelow 32 s.dev.scc.await)).applied } := by
  refine congrArg (fun d : Dev => Host.Outcome.next { s with dev := d }) ?_
  exact if_neg (by simp [h0, hm]; omega)

theorem exec_commitReportTimeout_kept {s : State} (h : s.dev.scc.await = 0 ∨ s.dev.now ≤ s.dev.scc.awaitBn + 1 ∨ s.dev.isMgr = false) :
    exec .commitReportTimeout s = .next s := by
  refine congrArg (fun d : Dev => Host.Outcome.next { s with dev := d }) ?_
  exact if_pos (by rcases h with h | h | h <;> simp [h])

theorem Dev.unreportedFenced_fences (ps : List Nat) : ∀ d : Dev, d.SccKept (d.unreportedFenced ps) ∧
    (∀ k r, r ∈ (d.dom k).causes → r ∈ ((d.unreportedFenced ps).dom k).causes) ∧
    ∀ p ∈ ps, Rsn.commitLost ∈ ((d.unreportedFenced ps).dom (domWorker p)).causes := by
  induction ps with
  | nil => exact fun d => ⟨.refl d, fun _ _ => id, fun p hp => absurd hp List.not_mem_nil⟩
  | cons q ps ih =>
    intro d
    have hq := d.fenceWorker_fences q Rsn.commitLost
    obtain ⟨hkept, hmono, hall⟩ := ih (d.fenceWorker q Rsn.commitLost)
    refine ⟨(d.sccKept_fenceWorker q _).trans hkept, fun k r hr => hmono k r (hq.causes k r hr), fun p hp => ?_⟩
    rcases List.mem_cons.1 hp with rfl | hp
    · exact hmono _ _ hq.cause
    · exact hall p hp

theorem Dev.provAgain_keeps (d : Dev) : d.provAgain.scc = d.scc := by
  unfold Dev.provAgain
  split <;> rfl

theorem Dev.fen_applied (d : Dev) : d.applied.fen = d.fen ∧ d.applied.scc.await = d.scc.await := by
  unfold Dev.applied
  split
  · exact ⟨rfl, rfl⟩
  · exact ⟨by simp [Dev.sccPhase], by simp [Dev.sccPhase]⟩

/-- The clauses on positions that do not report in time. -/
theorem Dev.reportTimeout_shown (d : Dev) :
    let e := (d.provAgain.awaitOver.unreportedFenced (onesBelow 32 d.scc.await)).applied
    e.scc.await = 0 ∧ (∀ p < 32, d.scc.await.testBit p = true → (0x5060 : Reason) ∈ (e.dom (domWorker p)).causes) ∧
    (d.scc.awaitProv = false → e.fld F.SCC_STAT_PHASE = 4 ∧ e.fld F.SCC_STAT_RESULT = 0) := by
  have hscc : d.provAgain.awaitOver.scc = { d.scc with await := 0 } := by unfold Dev.awaitOver; rw [Dev.provAgain_keeps]
  generalize d.provAgain.awaitOver = e at *
  obtain ⟨hkept, -, hall⟩ := e.unreportedFenced_fences (onesBelow 32 d.scc.await)
  generalize e.unreportedFenced (onesBelow 32 d.scc.await) = f at *
  obtain ⟨hfen, hawait⟩ := f.fen_applied
  intro g
  refine ⟨by rw [hawait, hkept.scc, hscc], fun p hp hbit => ?_, fun hprov => ?_⟩
  · rw [Dev.dom, hfen]
    exact hall p (List.mem_filter.2 ⟨List.mem_range.2 hp, hbit⟩)
  · obtain ⟨-, hphase, hresult, -⟩ := Dev.applied_shown (d := f) (by rw [hkept.scc, hscc]; exact hprov)
    exact ⟨hphase, hresult⟩

/-! ## The statement -/

/-- Settles O53: a check ends with its first failure or passes, the exchange of a ring-wide commit is decided by its votes, a local commit is
applied or ends at its milestone, and devices that do not report are fenced. -/
theorem commitCheckedAndRun : Obligations.CommitCheckedAndRun := by
  unfold Obligations.CommitCheckedAndRun
  refine ⟨?_, ?_, ?_, ?_⟩
  · intro s c hcur hres hin hprov f ended
    obtain ⟨hstage, htime, hregs, hshown⟩ := Dev.checkDone_shown s.store hcur hres hin hprov
    have hexec : exec .checkComplete s = .next { s with dev := s.dev.checkDone s.store } := rfl
    have hf : (s.dev.checkTimed c).chkAll s.store c.scope = f := rfl
    rw [hf] at hshown
    obtain ⟨hfails, hlate, hends, hwaits, hkeeps⟩ := hshown
    generalize s.dev.checkDone s.store = e at *
    have hend : ∀ {code}, e.CommitEnded code → ended { s with dev := e } code := fun h => ⟨h.cur, h.phase, h.result, h.locked, h.isr⟩
    exact ⟨_, hexec, hstage, htime, hregs, fun u code hl hc => hend (hfails u code hl hc), fun hl hc hms => hend (hlate hl hc hms), hends, hwaits, hkeeps⟩
  · intro s id ms scope jr
    refine ⟨fun h => exec_commitMessage_kept h, fun hm hv hin hnew hlast => ?_⟩
    have hexec := exec_commitMessage (ms := ms) (jr := jr) hm hv hin hnew hlast
    obtain ⟨hscc, hphase, hlocked, hregs, hstg, hframe⟩ := s.dev.commitMessage_shown id.toNat ms.toNat scope.toNat hin jr
    generalize jr.foldl Dev.ringWordSet (s.dev.commitTold id.toNat ms.toNat scope.toNat) = e at *
    exact ⟨_, hexec, hscc, hphase, hlocked, hregs, hstg, congrArg (fun d : Dev => { s with dev := d }) hframe⟩
  · intro s c far hcur ended
    have habort : ∀ {i : Instr} {code : Reason} {pos unit : Nat}, c.prov = false →
        exec i s = .next { s with dev := s.dev.commitAbort code pos unit } → ∃ t, exec i s = .next t ∧ ended t code := fun hprov hexec =>
      ⟨_, hexec, Dev.commitAbort_shown hcur hprov _ _ _⟩
    have hdecide := exec_commitDecide far s
    have hmilestone := exec_commitMilestone s
    refine ⟨fun h => ?_, fun hm hl hd hprov => ⟨?_, ?_, ?_, ?_⟩, fun h hcal => ?_, fun h0 hms hcal hl hco hprov => ⟨?_, ?_, ?_⟩⟩
    · rw [hdecide, Dev.decideCommit_kept hcur s.store far h]
    · intro hpend hno htests hco
      rw [Dev.decideCommit_yes hcur s.store far hm hl hd hpend hno htests] at hdecide
      have hshown := Dev.decideYes_shown (d := s.dev) hco
      generalize s.dev.decideYes c = e at *
      exact ⟨_, hdecide, hshown⟩
    · intro p u r hpend hno htests
      rw [Dev.decideCommit_failed hcur s.store far hm hl hd hpend hno htests] at hdecide
      exact habort hprov hdecide
    · intro p r hno
      rw [Dev.decideCommit_no hcur s.store far hm hl hd hno] at hdecide
      exact habort hprov hdecide
    · intro hpend hno hms
      rw [Dev.decideCommit_late hcur s.store far hm hl hd hpend hno hms] at hdecide
      exact habort hprov hdecide
    · rw [hmilestone, Dev.milestone_early hcur hcal s.store h]
    · intro hres
      rw [Dev.milestone_late hcur hcal s.store h0 hms hl hco hres] at hmilestone
      exact habort hprov hmilestone
    · intro u r hres hbusy
      rw [Dev.milestone_busy hcur hcal s.store h0 hms hl hco hres hbusy] at hmilestone
      exact habort hprov hmilestone
    · intro hres hfree hawait
      rw [Dev.milestone_applies hcur hcal s.store h0 hms hl hco hres hfree] at hmilestone
      obtain ⟨hnone, hprov', hlocked⟩ := s.dev.applyImage_shown c
      generalize s.dev.applyImage c = e at *
      obtain ⟨hscc, hphase, hresult, hsame, hisr, -⟩ := Dev.applied_shown (d := e) (hprov'.trans hawait)
      generalize e.applied = f at *
      exact ⟨_, hmilestone, hphase, hresult, hsame.trans hlocked, (congrArg SccSt.cur hscc).trans hnone, hisr⟩
  · intro s
    refine ⟨fun h => exec_commitReportTimeout_kept h, fun h0 hb hm => ?_⟩
    have hexec := exec_commitReportTimeout h0 hb hm
    have hshown := s.dev.reportTimeout_shown
    dsimp only at hshown
    generalize (s.dev.provAgain.awaitOver.unreportedFenced (onesBelow 32 s.dev.scc.await)).applied = e at *
    exact ⟨_, hexec, hshown⟩

end Sys2Proof.Machine
end

section

/-!
PROOF. A reserve that takes over, and a handover (08_ledger.md R412; 15_wilin_ring.md R763, R766, R767, R869).
-/

namespace Sys2Proof.Machine
open Sys2Proof

/-! ## What stays once the roles have changed -/

/-- Role, origin, reserve, pending handover, seal, the jobs' hallmarks, the held host port and SUP_ROLE stay. -/
structure Dev.ChargeKept (d e : Dev) : Prop where
  boot : e.boot = d.boot
  mgrPos : e.wr.mgrPos = d.wr.mgrPos
  resPos : e.wr.resPos = d.wr.resPos
  handover : e.wr.handover = d.wr.handover
  held : e.hst.held = d.hst.held
  hms : e.jobs.map Job.hm = d.jobs.map Job.hm
  dual : e.ldg.dual = d.ldg.dual
  catchup : e.ldg.catchup = d.ldg.catchup
  role : e.reg R.SUP_ROLE = d.reg R.SUP_ROLE

namespace Dev.ChargeKept
variable {d e f : Dev}

theorem refl (d : Dev) : d.ChargeKept d := ⟨rfl, rfl, rfl, rfl, rfl, rfl, rfl, rfl, rfl⟩

theorem trans (h : d.ChargeKept e) (h' : e.ChargeKept f) : d.ChargeKept f :=
  ⟨h'.boot.trans h.boot, h'.mgrPos.trans h.mgrPos, h'.resPos.trans h.resPos, h'.handover.trans h.handover, h'.held.trans h.held,
    h'.hms.trans h.hms, h'.dual.trans h.dual, h'.catchup.trans h.catchup, h'.role.trans h.role⟩

theorem foldl {A : Type} {step : Dev → A → Dev} (hs : ∀ d a, Dev.ChargeKept d (step d a)) (as : List A) : ∀ d : Dev, d.ChargeKept (as.foldl step d) := by
  induction as with
  | nil => exact .refl
  | cons a as ih => exact fun d => (hs d a).trans (ih _)

theorem setReg (h : d.ChargeKept e) {a : Nat} (ha : a ≠ R.SUP_ROLE) (w : Word) : d.ChargeKept (e.setReg a w) :=
  h.trans ⟨rfl, rfl, rfl, rfl, rfl, rfl, rfl, rfl, by rw [Dev.reg_setReg, if_neg ha.symm]⟩

theorem setFld (h : d.ChargeKept e) {g : Fld} (hg : g.a ≠ R.SUP_ROLE) (v : Nat) : d.ChargeKept (e.setFld g v) := h.setReg hg _

theorem setFlag (h : d.ChargeKept e) {g : Fld} (hg : g.a ≠ R.SUP_ROLE) (b : Bool) : d.ChargeKept (e.setFlag g b) := h.setReg hg _

theorem setNum2 (h : d.ChargeKept e) {lo hi : Nat} (hlo : lo ≠ R.SUP_ROLE) (hhi : hi ≠ R.SUP_ROLE) (v : Nat) : d.ChargeKept (e.setNum2 lo hi v) :=
  (h.setReg hlo _).setReg hhi _

theorem raiseIrq (h : d.ChargeKept e) {v : Nat} (hv : v < 64) : d.ChargeKept (e.raiseIrq v) :=
  h.trans ⟨by simp, by simp, by simp, by simp, by simp, by simp, by simp, by simp, Dev.reg_raiseIrq e v _ hv (by decide)⟩

theorem ldgRaise (h : d.ChargeKept e) (r : Reason) : d.ChargeKept (e.ldgRaise r) := by
  unfold Dev.ldgRaise
  split
  · exact h
  · exact h.trans ⟨rfl, rfl, rfl, rfl, rfl, rfl, rfl, rfl, rfl⟩

theorem wearBy (h : d.ChargeKept e) (n : Nat) : d.ChargeKept (e.wearBy n) := by
  refine h.trans (Dev.wearBy_induction (P := fun f => e.ChargeKept f) n (fun w wear => ?_) fun _ _ hf => hf.ldgRaise _)
  have hset : e.ChargeKept { e with mram := { e.mram with written := w, wear := wear } } := ⟨rfl, rfl, rfl, rfl, rfl, rfl, rfl, rfl, rfl⟩
  exact hset.setNum2 (by decide) (by decide) wear

theorem mram (h : d.ChargeKept e) (m : MramSt) : d.ChargeKept { e with mram := m } := h.trans ⟨rfl, rfl, rfl, rfl, rfl, rfl, rfl, rfl, rfl⟩

theorem writeCkpt (h : d.ChargeKept e) : d.ChargeKept e.writeCkpt := by
  rw [Dev.writeCkpt_eq]
  have hstored : ∀ c, e.ChargeKept (e.ckptStored c) := fun _ => ⟨rfl, rfl, rfl, rfl, rfl, rfl, rfl, rfl, rfl⟩
  exact h.trans (((hstored _).setNum2 (by decide) (by decide) _).wearBy _)

theorem advanceHead (h : d.ChargeKept e) : d.ChargeKept e.advanceHead := by
  obtain ⟨n, rev, heq⟩ := e.advanceHead_eq
  have hmoved : d.ChargeKept (e.headAt n rev) := h.mram _
  rw [heq]
  split
  · have hsaved : d.ChargeKept ((e.headAt n rev).ckptSaved (n / blockSlots)) := by
      unfold Dev.ckptSaved
      split
      · exact hmoved.writeCkpt
      · exact hmoved
    exact hsaved.mram _
  · exact hmoved

theorem writeRec (h : d.ChargeKept e) (r : Rec) : d.ChargeKept (e.writeRec r) := by
  rw [Dev.writeRec_eq]
  have hcounted : d.ChargeKept ((e.logged r).addSat F.LDG_SEALCNT_RECORDS 1) := (h.mram _).setFld (by decide) _
  exact (((hcounted.wearBy 1).advanceHead).setReg (by decide) _).setReg (by decide) _

/-- A CEIL record sealed. -/
theorem sealCeil (h : d.ChargeKept e) (n : Nat) : d.ChargeKept (e.sealRec { typ := 0x30, bn := n }) := by
  have hwritten : d.ChargeKept (e.writeRec { typ := 0x30, bn := n }) := h.writeRec _
  have hceil : ∀ {f : Dev} (c : Nat), d.ChargeKept f → d.ChargeKept (f.setCeil c) := fun {f} c hf => by
    have hset : d.ChargeKept { f with t := { f.t with ceil := c } } := hf.trans ⟨rfl, rfl, rfl, rfl, rfl, rfl, rfl, rfl, rfl⟩
    exact hset.setNum2 (by decide) (by decide) c
  unfold Dev.sealRec
  dsimp only
  generalize e.writeRec { typ := 0x30, bn := n } = f at *
  have hno : (f.boot.role == .manager && (f.ldg.dual || f.ldg.catchup) && mirrored 0x30) = false := by
    rw [show mirrored 0x30 = false from rfl, Bool.and_false]
  rw [hno, if_neg Bool.false_ne_true]
  exact hceil n hwritten

theorem dueRec (h : d.ChargeKept e) (p : Nat) (rs : List Rec) : d.ChargeKept (e.dueRec p rs) := h.trans ⟨rfl, rfl, rfl, rfl, rfl, rfl, rfl, rfl, rfl⟩

theorem scc (h : d.ChargeKept e) (x : SccSt) : d.ChargeKept { e with scc := x } := h.trans ⟨rfl, rfl, rfl, rfl, rfl, rfl, rfl, rfl, rfl⟩

theorem clk (h : d.ChargeKept e) (x : ClkSt) : d.ChargeKept { e with clk := x } := h.trans ⟨rfl, rfl, rfl, rfl, rfl, rfl, rfl, rfl, rfl⟩

theorem putOffsets (h : d.ChargeKept e) (t : List Int) : d.ChargeKept (e.putOffsets t) := by
  have hset : d.ChargeKept { e with wr := { e.wr with offTab := t } } := h.trans ⟨rfl, rfl, rfl, rfl, rfl, rfl, rfl, rfl, rfl⟩
  have hside : ∀ (f : Dev) (k : Nat), f.ChargeKept ((f.setFld (F.WR_DCW_D_CW k) (unsigned 24 (t.getD (2 * f.pos) 0))).setFld (F.WR_DCCW_D_CCW k)
      (unsigned 24 (t.getD (2 * f.pos + 1) 0))) := fun f k =>
    ((Dev.ChargeKept.refl f).setFld (g := F.WR_DCW_D_CW k) (by simp only [R.WR_DCW, R.SUP_ROLE, ne_eq]; omega) _).setFld
      (g := F.WR_DCCW_D_CCW k) (by simp only [R.WR_DCCW, R.SUP_ROLE, ne_eq]; omega) _
  exact (hset.trans (.foldl hside (List.range 2) _)).setFld (g := F.WR_STAT_L) (by decide) _

theorem shiftOrigin (h : d.ChargeKept e) (o : Nat) : d.ChargeKept (e.shiftOrigin o) := by
  unfold Dev.shiftOrigin
  dsimp only
  split
  · exact h
  · exact h.putOffsets _

theorem holdoverOff (h : d.ChargeKept e) : d.ChargeKept e.holdoverOff := by
  unfold Dev.holdoverOff
  split
  · exact h
  · have hset : ∀ {f : Dev} (c : ClkSt) (p : PwrSt), d.ChargeKept f → d.ChargeKept { f with clk := c, pwr := p } :=
      fun c p hf => hf.trans ⟨rfl, rfl, rfl, rfl, rfl, rfl, rfl, rfl, rfl⟩
    exact ((hset _ _ (h.clk _)).setFlag (g := F.BT_STAT_HOLDOVER) (by decide) _).raiseIrq (by decide)

theorem cmtHeader (h : d.ChargeKept e) (c : CommitSt) (phase : Nat) (r : Reason) (pos : Nat) : d.ChargeKept (e.cmtHeader c phase r pos) := h.scc _

end Dev.ChargeKept

theorem Dev.ChargeKept.commitAbort (d : Dev) (code : Reason) (pos unit : Nat) : d.ChargeKept (d.commitAbort code pos unit) := by
  cases hcur : d.scc.cur with
  | none => rw [Dev.commitAbort, hcur]; exact .refl d
  | some c =>
    cases hprov : c.prov with
    | true =>
      simp only [Dev.commitAbort, hcur, hprov, if_true]
      exact ⟨rfl, rfl, rfl, rfl, rfl, rfl, rfl, rfl, rfl⟩
    | false =>
      rw [Dev.commitAbort_of_images hcur hprov]
      have hshown : d.ChargeKept (d.uncommitted.abortShown code pos unit) :=
        (((((Dev.ChargeKept.refl d).scc _).setFlag (g := F.SCC_STAT_LOCKED) (by decide) _).setFld (g := F.SCC_STAT_PHASE) (by decide) _).setFld
          (g := F.SCC_STAT_RESULT) (by decide) _).setReg (by decide) _
      have hsealed : d.ChargeKept ((d.uncommitted.abortShown code pos unit).abortSealed c code pos) := by
        unfold Dev.abortSealed
        split
        · exact hshown.dueRec _ _
        · exact hshown
      have hraised := hsealed.raiseIrq (v := 20) (by decide)
      unfold Dev.abortTold
      split
      · exact hraised.cmtHeader _ _ _ _
      · exact hraised

/-! ## The reserve takes charge -/

/-- The role of manager taken: jobs of other positions count as sent. -/
def Dev.roleTaken (d : Dev) : Dev :=
  { d.setRole .manager with jobs := d.jobs.map (fun (j : Job) => if j.exec = d.pos then j else { j with sent := true }) }

/-- What a new manager knows of the ring, and holds of its host port. -/
def Dev.ringTaken (d : Dev) (old : Nat) : Dev :=
  let own := (d.jobs.filter (fun j => j.exec == d.pos)).map (fun j => (j.hm, j.active))
  let wr := { d.wr with mgrPos := d.pos, resPos := none, handover := none, noOrigin := 0, noOwn := 0, tags := [], present := d.wr.present ||| 2 ^ old }
  { d with wr := wr, boot := { d.boot with readySent := true }, hst := { d.hst with held := true },
           ldg := { d.ldg with declared := [d.pos], decide_ := [(d.pos, own)], toMirror := [], mirror := [] } }

/-- A record that the host is owed again. -/
def Dev.oweSlot (d : Dev) (s : Slot) : Dev :=
  let r := s.body
  match r.typ with
  | 0x10 => d.owe s.lpos r (entryWords r.w5 r.hm r.ring 1 Rsn.ok (r.w6 % 2 ^ 16) r.bn 0 0)
  | 0x11 => match d.acceptOf r.hm with
    | some a => d.owe s.lpos r (entryWords a.w5 r.hm r.ring r.byteA (BitVec.ofNat 16 r.w5) (a.w6 % 2 ^ 16) r.bn r.w6 (r.w5 / 2 ^ 16))
    | none => d
  | _ => d

theorem Dev.ChargeKept.oweAll (d : Dev) : d.ChargeKept d.oweAll := by
  have howe : ∀ (e : Dev) (l : Nat) (r : Rec) (ws : List Word), e.ChargeKept (e.owe l r ws) := fun _ _ _ _ => ⟨rfl, rfl, rfl, rfl, rfl, rfl, rfl, rfl, rfl⟩
  have heq : d.oweAll = d.mram.log.foldl Dev.oweSlot { d with hst := { d.hst with owed := [] } } := by
    unfold Dev.oweAll Dev.oweSlot
    rfl
  have hnone : d.ChargeKept { d with hst := { d.hst with owed := [] } } := ⟨rfl, rfl, rfl, rfl, rfl, rfl, rfl, rfl, rfl⟩
  rw [heq]
  refine hnone.trans (.foldl (fun e s => ?_) _ _)
  unfold Dev.oweSlot
  dsimp only
  split
  · exact howe e _ _ _
  · split
    · exact howe e _ _ _
    · exact .refl e
  · exact .refl e

/-- The records of the new manager, and the beats that it may count. -/
def Dev.chargeSealed (d : Dev) : Dev :=
  ((d.shiftOrigin d.pos).roleRec 1).oweAll.sealRec { typ := 0x30, bn := ((d.shiftOrigin d.pos).roleRec 1).now + 2 ^ 20 }

/-- The new manager goes to its own reference. -/
def Dev.refTaken (d : Dev) : Dev := { (d.setSpll 5).setFlag F.CLK_STAT_LOCKED false with clk := { d.clk with lockRef := true } }.holdoverOff

/-- The commit in progress goes on with a decision held, and ends without one. -/
def Dev.commitTaken (d : Dev) : Dev := match d.scc.cur with
  | none => d
  | some c => if c.decision = some Rsn.ok then d.cmtHeader c 2 Rsn.ok 0 else d.commitAbort Chk.takeover d.pos 0

theorem Dev.takeCharge_eq (d : Dev) : d.takeCharge = ((d.roleTaken.ringTaken d.wr.mgrPos).chargeSealed.refTaken.commitTaken).raiseIrq 19 := by
  unfold Dev.takeCharge Dev.commitTaken Dev.refTaken Dev.chargeSealed
  rfl

theorem Dev.chargeKept_after (d : Dev) : d.ChargeKept d.chargeSealed.refTaken.commitTaken := by
  have hrole : (d.shiftOrigin d.pos).ChargeKept ((d.shiftOrigin d.pos).roleRec 1) := (Dev.ChargeKept.refl _).dueRec _ _
  have hsealed : d.ChargeKept d.chargeSealed :=
    ((((Dev.ChargeKept.refl d).shiftOrigin d.pos).trans hrole).trans (.oweAll _)).sealCeil _
  generalize d.chargeSealed = e at *
  have href : d.ChargeKept e.refTaken :=
    (((hsealed.setFld (g := F.CLK_STAT_SPLL) (by decide) 5).setFlag (g := F.CLK_STAT_LOCKED) (by decide) false).clk _).holdoverOff
  generalize e.refTaken = f at *
  unfold Dev.commitTaken
  split
  · exact href
  · split
    · exact href.cmtHeader _ _ _ _
    · exact href.trans (.commitAbort f _ _ _)

/-- What taking charge shows. -/
structure Dev.InCharge (d e : Dev) : Prop where
  role : e.boot.role = .manager
  mgrPos : e.wr.mgrPos = d.pos
  handover : e.wr.handover = none
  held : e.hst.held = true
  isr : bitOf (e.reg R.HST_ISR0) 19 = true
  hms : e.jobs.map Job.hm = d.jobs.map Job.hm
  current : e.fld F.SUP_ROLE_CURRENT = 1

theorem Dev.pos_setRole {d : Dev} (h : d.boot.role ≠ .standalone) {r : Role} (hr : r ≠ .standalone) : (d.setRole r).pos = d.pos := by
  have hregs : d.regsBut (d.setRole r) [R.SUP_ROLE, R.CLK_STAT] := ((Dev.regsBut.of_regs rfl _).setFld (by simp) _).setFlag (by simp) _
  have hfld : (d.setRole r).fld F.SUP_RCODE_POSN = d.fld F.SUP_RCODE_POSN := hregs.fld (by decide)
  unfold Dev.pos
  rw [hfld, show (d.setRole r).boot.role = r from rfl]
  simp [h, hr]

theorem Dev.current_setRole_manager (d : Dev) : (d.setRole .manager).fld F.SUP_ROLE_CURRENT = 1 :=
  (Dev.fld_setFlag_ne _ F.CLK_STAT_RING_SRC F.SUP_ROLE_CURRENT _ (by decide) (by decide)).trans (fld_setFld_of_lt _ (by decide) (by decide))

/-- A reserve in charge: no reserve is known, and the seal is as it was. -/
theorem Dev.takeCharge_takes {d : Dev} (h : d.boot.role ≠ .standalone) : d.InCharge d.takeCharge ∧ d.takeCharge.wr.resPos = none ∧
    d.takeCharge.ldg.dual = d.ldg.dual ∧ d.takeCharge.ldg.catchup = d.ldg.catchup := by
  have hpos : d.roleTaken.pos = d.pos := (show d.roleTaken.pos = (d.setRole .manager).pos from rfl).trans (Dev.pos_setRole h (by decide))
  have hcurrent : (d.roleTaken.ringTaken d.wr.mgrPos).fld F.SUP_ROLE_CURRENT = 1 := d.current_setRole_manager
  have hmgr : (d.roleTaken.ringTaken d.wr.mgrPos).wr.mgrPos = d.pos := hpos
  have hhms : (d.roleTaken.ringTaken d.wr.mgrPos).jobs.map Job.hm = d.jobs.map Job.hm := by
    show (d.jobs.map _).map Job.hm = _
    rw [List.map_map]
    refine List.map_congr_left fun j _ => ?_
    dsimp only [Function.comp_apply]
    split <;> rfl
  have hdual : (d.roleTaken.ringTaken d.wr.mgrPos).ldg.dual = d.ldg.dual := rfl
  have hcatchup : (d.roleTaken.ringTaken d.wr.mgrPos).ldg.catchup = d.ldg.catchup := rfl
  have hrole : (d.roleTaken.ringTaken d.wr.mgrPos).boot.role = .manager := rfl
  have hrest : (d.roleTaken.ringTaken d.wr.mgrPos).wr.resPos = none ∧ (d.roleTaken.ringTaken d.wr.mgrPos).wr.handover = none ∧
    (d.roleTaken.ringTaken d.wr.mgrPos).hst.held = true := ⟨rfl, rfl, rfl⟩
  rw [Dev.takeCharge_eq]
  generalize d.roleTaken.ringTaken d.wr.mgrPos = e at *
  have hkept := e.chargeKept_after
  have hisr := Dev.isr_raiseIrq e.chargeSealed.refTaken.commitTaken 19 (by decide)
  have hlast := hkept.raiseIrq (v := 19) (by decide)
  generalize e.chargeSealed.refTaken.commitTaken.raiseIrq 19 = f at *
  obtain ⟨hres, hhand, hheld⟩ := hrest
  refine ⟨⟨(congrArg BootSt.role hlast.boot).trans hrole, hlast.mgrPos.trans hmgr, hlast.handover.trans hhand, hlast.held.trans hheld, hisr,
    hlast.hms.trans hhms, ?_⟩, hlast.resPos.trans hres, hlast.dual.trans hdual, hlast.catchup.trans hcatchup⟩
  rw [Dev.fld, hlast.role]
  exact hcurrent

/-! ### Takeover -/

/-- Single seal, and no catch-up of a mirror. -/
def Dev.sealAlone (d : Dev) : Dev := { d.endDual with ldg := { d.endDual.ldg with dual := false, catchup := false } }

/-- VOID frames have come within two beats. -/
def Dev.voidHeard (d : Dev) : Bool := match d.wr.voidBn with
  | some b => decide (d.now ≤ b + 2)
  | none => false

/-- A reserve that takes over (R763). -/
def Dev.takesOver (d : Dev) : Bool :=
  d.boot.role == .reserve && d.boot.roleKnown && !d.boot.conflict && d.pwr.vcore && decide (2 ≤ d.wr.noOrigin) && d.voidHeard

theorem exec_takeover_of {s : State} (h : s.dev.takesOver = true) : exec .takeover s = .next { s with dev := s.dev.sealAlone.takeCharge } := by
  refine congrArg (fun d : Dev => Host.Outcome.next { s with dev := d }) ?_
  exact if_pos h

theorem exec_takeover_not {s : State} (h : s.dev.takesOver = false) : exec .takeover s = .next s := by
  refine congrArg (fun d : Dev => Host.Outcome.next { s with dev := d }) ?_
  exact if_neg (ne_true_of_eq_false h)

/-- The end of dual seal leaves role, position and hallmarks. -/
theorem Dev.sealAlone_keeps (d : Dev) : d.sealAlone.boot = d.boot ∧ d.sealAlone.pos = d.pos ∧ d.sealAlone.jobs.map Job.hm = d.jobs.map Job.hm := by
  have hkept := d.cutKept_endDual
  have hpos : d.endDual.pos = d.pos := Dev.pos_of_regsBut hkept.regs hkept.boot fun h => supRcode_notMem_cutRegs (List.mem_cons_of_mem _ h)
  exact ⟨hkept.boot, hpos, hkept.hms⟩

theorem Dev.takeover_shown {d : Dev} (h : d.boot.role = .reserve) : d.InCharge d.sealAlone.takeCharge ∧ d.sealAlone.takeCharge.wr.resPos = none ∧
    d.sealAlone.takeCharge.ldg.dual = false ∧ d.sealAlone.takeCharge.ldg.catchup = false := by
  obtain ⟨hboot, hpos, hhms⟩ := d.sealAlone_keeps
  have hledger : d.sealAlone.ldg.dual = false ∧ d.sealAlone.ldg.catchup = false := ⟨rfl, rfl⟩
  generalize d.sealAlone = e at *
  obtain ⟨⟨hrole, hmgr, hhand, hheld, hisr, hjobs, hcur⟩, hres, hdual, hcatchup⟩ := Dev.takeCharge_takes (d := e) (by rw [hboot, h]; decide)
  exact ⟨⟨hrole, hmgr.trans hpos, hhand, hheld, hisr, hjobs.trans hhms, hcur⟩, hres, hdual.trans hledger.1, hcatchup.trans hledger.2⟩

/-! ### The handover command -/

theorem exec_wrHandover {s : State} {p : Port} (hg : s.dev.gate p R.WR_CMD = .pass) :
    exec (.wrHandover p) s = .next { s with dev := s.dev.handoverAt (s.dev.num2 R.WR_HBN_LO R.WR_HBN_HI % 2 ^ 56) } := by
  refine congrArg (fun d : Dev => Host.Outcome.next { s with dev := d }) ?_
  exact Dev.viaPort_of_pass hg fun d => d.handoverAt (d.num2 R.WR_HBN_LO R.WR_HBN_HI % 2 ^ 56)

/-- A result of WR_CMD. -/
def Dev.wrResulted (d : Dev) (r : Reason) : Dev := d.setFld F.WR_STAT_RESULT r.toNat

theorem Dev.wrResulted_shown (d : Dev) (r : Reason) : (d.wrResulted r).fld F.WR_STAT_RESULT = r.toNat ∧ d.regsBut (d.wrResulted r) [R.WR_STAT] ∧
    d.wrResulted r = { d with regs := (d.wrResulted r).regs } :=
  ⟨fld_setFld_of_lt _ (by decide) r.isLt, (Dev.regsBut.refl d _).setFld (by simp) _, rfl⟩

theorem Dev.handoverAt_notActive {d : Dev} (h : d.boot.role ≠ .manager) (b : Nat) : d.handoverAt b = d.wrResulted Rsn.notActive := if_pos (by simp [h])

theorem Dev.handoverAt_single {d : Dev} (h : d.boot.role = .manager) (hd : d.ldg.dual = false) (b : Nat) :
    d.handoverAt b = d.wrResulted Rsn.refSingleSeal := (if_neg (by simp [h])).trans (if_pos (by simp [hd]))

theorem Dev.handoverAt_near {d : Dev} (h : d.boot.role = .manager) (hd : d.ldg.dual = true) {b : Nat} (hb : b < d.now + d.lat + 8) :
    d.handoverAt b = d.wrResulted Rsn.refWindow := (if_neg (by simp [h])).trans ((if_neg (by simp [hd])).trans (if_pos hb))

/-- A handover held for its beat. -/
def Dev.handoverHeld (d : Dev) (b : Nat) : Dev := { d with wr := { d.wr with handover := some b } }.wrResulted Rsn.ok

theorem Dev.handoverAt_taken {d : Dev} (h : d.boot.role = .manager) (hd : d.ldg.dual = true) {b : Nat} (hb : d.now + d.lat + 8 ≤ b) :
    d.handoverAt b = (d.handoverHeld b).bulkPut ((d.handoverHeld b).wr.resPos.getD 63) 8 [3, BitVec.ofNat 32 b, BitVec.ofNat 32 (b / 2 ^ 32)] :=
  (if_neg (by simp [h])).trans ((if_neg (by simp [hd])).trans (if_neg (by omega)))

theorem Dev.handoverAt_shown {d : Dev} (h : d.boot.role = .manager) (hd : d.ldg.dual = true) {b : Nat} (hb : d.now + d.lat + 8 ≤ b) :
    (d.handoverAt b).wr.handover = some b ∧ (d.handoverAt b).fld F.WR_STAT_RESULT = 0 ∧ d.regsBut (d.handoverAt b) [R.WR_STAT] ∧
    (d.handoverAt b).wr.bulk = d.wr.bulk ++ [{ dst := d.wr.resPos.getD 63, kind := 8, left := bulkBlocks 3,
                                               words := [3, BitVec.ofNat 32 b, BitVec.ofNat 32 (b / 2 ^ 32)] }] := by
  rw [Dev.handoverAt_taken h hd hb, Dev.bulkPut_of_manager (d := d.handoverHeld b) h]
  obtain ⟨hres, hregs, -⟩ := ({ d with wr := { d.wr with handover := some b } } : Dev).wrResulted_shown Rsn.ok
  exact ⟨rfl, hres, (Dev.regsBut.of_regs rfl _).trans hregs, rfl⟩

/-! ### The handover's beat -/

theorem exec_handoverBeat_none {s : State} (h : s.dev.wr.handover = none) : exec .handoverBeat s = .next s := by
  refine congrArg (fun d : Dev => Host.Outcome.next { s with dev := d }) ?_
  dsimp only
  rw [h]

theorem exec_handoverBeat_early {s : State} {b : Nat} (h : s.dev.wr.handover = some b) (hb : s.dev.now < b) : exec .handoverBeat s = .next s := by
  refine congrArg (fun d : Dev => Host.Outcome.next { s with dev := d }) ?_
  dsimp only
  rw [h]
  exact if_pos hb

theorem exec_handoverBeat_yields {s : State} {b p : Nat} (h : s.dev.wr.handover = some b) (hb : b ≤ s.dev.now) (hr : s.dev.boot.role = .manager)
    (hp : s.dev.wr.resPos = some p) : exec .handoverBeat s = .next { s with dev := s.dev.yieldTo p } := by
  refine congrArg (fun d : Dev => Host.Outcome.next { s with dev := d }) ?_
  dsimp only
  rw [h]
  dsimp only
  rw [if_neg (by omega), if_pos (by simp [hr]), hp]

/-- Dual seal goes on with the manager before as the reserve. -/
def Dev.sealShared (d : Dev) (old : Nat) : Dev :=
  ({ d with wr := { d.wr with resPos := some old }, ldg := { d.ldg with dual := true } }.setFlag F.LDG_STAT_DUAL true).setFlag F.SUP_ROLE_DUAL_SEAL true

theorem exec_handoverBeat_takes {s : State} {b : Nat} (h : s.dev.wr.handover = some b) (hb : b ≤ s.dev.now) (hr : s.dev.boot.role = .reserve) :
    exec .handoverBeat s = .next { s with dev := s.dev.takeCharge.sealShared s.dev.wr.mgrPos } := by
  refine congrArg (fun d : Dev => Host.Outcome.next { s with dev := d }) ?_
  dsimp only
  rw [h]
  dsimp only
  rw [if_neg (by omega), if_neg (by simp [hr]), if_pos (by simp [hr])]
  rfl

/-- Dual seal shown leaves who is in charge. -/
theorem Dev.sealShared_shown {d e : Dev} (h : d.InCharge e) (old : Nat) : d.InCharge (e.sealShared old) ∧ (e.sealShared old).wr.resPos = some old ∧
    (e.sealShared old).ldg.dual = true ∧ (e.sealShared old).flag F.LDG_STAT_DUAL = true := by
  obtain ⟨hrole, hmgr, hhand, hheld, hisr, hhms, hcur⟩ := h
  have hregs : e.regsBut (e.sealShared old) [R.LDG_STAT, R.SUP_ROLE] :=
    ((Dev.regsBut.of_regs rfl _).setFlag (f := F.LDG_STAT_DUAL) (by simp) _).setFlag (f := F.SUP_ROLE_DUAL_SEAL) (by simp) _
  refine ⟨⟨hrole, hmgr, hhand, hheld, ?_, hhms, ?_⟩, rfl, rfl, ?_⟩
  · rw [hregs _ (by decide)]; exact hisr
  · refine Eq.trans ?_ hcur
    exact (Dev.fld_setFlag_ne _ F.SUP_ROLE_DUAL_SEAL F.SUP_ROLE_CURRENT _ (by decide) (by decide)).trans
      (Dev.fld_setFlag_ne _ F.LDG_STAT_DUAL F.SUP_ROLE_CURRENT _ (by decide) (by decide))
  · exact (Dev.flag_setFlag_ne _ F.SUP_ROLE_DUAL_SEAL F.LDG_STAT_DUAL _ (by decide) (by decide)).trans (Dev.flag_setFlag_same _ _ _ (by decide) rfl)

/-- What the ring knows once the role of the reserve is taken. -/
def Dev.ringYielded (d : Dev) (p : Nat) : Dev :=
  { d with wr := { d.wr with mgrPos := p, resPos := some d.pos, handover := none, mgrKnown := true }, ldg := { d.ldg with toMirror := [], mirror := [] } }

theorem Dev.yieldTo_eq (d : Dev) (p : Nat) : d.yieldTo p = ((((d.setRole .reserve).ringYielded p).shiftOrigin p).roleRec 2).raiseIrq 19 := rfl

theorem Dev.jobs_shiftOrigin (d : Dev) (p : Nat) : (d.shiftOrigin p).jobs = d.jobs := by
  unfold Dev.shiftOrigin Dev.putOffsets Dev.showLat
  dsimp only
  split <;> rfl

/-- The manager before is the reserve, and its jobs and seal stay. -/
theorem Dev.yieldTo_yields {d : Dev} (h : d.boot.role ≠ .standalone) (p : Nat) : (d.yieldTo p).boot.role = .reserve ∧ (d.yieldTo p).wr.mgrPos = p ∧
    (d.yieldTo p).wr.resPos = some d.pos ∧ (d.yieldTo p).wr.handover = none ∧ (d.yieldTo p).jobs = d.jobs ∧
    (d.yieldTo p).ldg.dual = d.ldg.dual := by
  have hpos : (d.setRole .reserve).pos = d.pos := Dev.pos_setRole h (by decide)
  have hres : ((d.setRole .reserve).ringYielded p).wr.resPos = some d.pos := congrArg some hpos
  have hrest : ((d.setRole .reserve).ringYielded p).boot.role = .reserve ∧ ((d.setRole .reserve).ringYielded p).wr.mgrPos = p ∧
    ((d.setRole .reserve).ringYielded p).wr.handover = none ∧ ((d.setRole .reserve).ringYielded p).jobs = d.jobs ∧
    ((d.setRole .reserve).ringYielded p).ldg.dual = d.ldg.dual := ⟨rfl, rfl, rfl, rfl, rfl⟩
  rw [Dev.yieldTo_eq]
  generalize (d.setRole .reserve).ringYielded p = e at *
  obtain ⟨hrole, hmgr, hhand, hjobs, hdual⟩ := hrest
  have hshift : e.ChargeKept (e.shiftOrigin p) := (Dev.ChargeKept.refl e).shiftOrigin p
  have hrec : (e.shiftOrigin p).ChargeKept ((e.shiftOrigin p).roleRec 2) := (Dev.ChargeKept.refl _).dueRec _ _
  have hlast := (hshift.trans hrec).raiseIrq (v := 19) (by decide)
  have hsame : (((e.shiftOrigin p).roleRec 2).raiseIrq 19).jobs = e.jobs := by
    rw [(show (((e.shiftOrigin p).roleRec 2).raiseIrq 19).jobs = ((e.shiftOrigin p).roleRec 2).jobs by simp), ← e.jobs_shiftOrigin p]
    rfl
  generalize ((e.shiftOrigin p).roleRec 2).raiseIrq 19 = f at *
  exact ⟨(congrArg BootSt.role hlast.boot).trans hrole, hlast.mgrPos.trans hmgr, hlast.resPos.trans hres, hlast.handover.trans hhand,
    hsame.trans hjobs, hlast.dual.trans hdual⟩

/-! ## The statement -/

/-- Settles O56: a reserve that misses its manager takes over under single seal, and a handover under dual seal exchanges the roles at its beat. -/
theorem takeoverAndHandover : Obligations.TakeoverAndHandover := by
  unfold Obligations.TakeoverAndHandover
  intro s charge
  have hcharge : ∀ {e : Dev}, s.dev.InCharge e → charge { s with dev := e } := fun h =>
    ⟨h.role, h.mgrPos, h.handover, h.held, h.isr, h.hms, h.current⟩
  refine ⟨?_, ?_, ?_, fun h => exec_handoverBeat_none h, fun b h hb => exec_handoverBeat_early h hb, ?_, ?_⟩
  · intro b hr hk hc hv hn hvoid hb
    have hexec := exec_takeover_of (s := s) (by simp [Dev.takesOver, Dev.voidHeard, hr, hk, hc, hv, hn, hvoid, hb])
    obtain ⟨hin, hres, hdual, hcatchup⟩ := Dev.takeover_shown hr
    generalize s.dev.sealAlone.takeCharge = e at *
    exact ⟨_, hexec, hcharge hin, hres, hdual, hcatchup⟩
  · intro h
    refine exec_takeover_not ?_
    rcases h with h | h | h | h
    · simp [Dev.takesOver, h]
    · simp [Dev.takesOver, h]
    · simp [Dev.takesOver, Nat.not_le.2 h]
    · simp [Dev.takesOver, Dev.voidHeard, h]
  · intro p hg h result
    have hexec := exec_wrHandover hg
    have hresult : ∀ {r : Reason} {n : Nat}, s.dev.handoverAt h = s.dev.wrResulted r → r.toNat = n → ∃ t, exec (.wrHandover p) s = .next t ∧ result t n := by
      intro r n heq hn
      have hexec' : exec (.wrHandover p) s = .next { s with dev := s.dev.wrResulted r } := hexec.trans (by rw [← heq])
      obtain ⟨hres, hregs, hframe⟩ := s.dev.wrResulted_shown r
      generalize s.dev.wrResulted r = e at *
      exact ⟨_, hexec', hres.trans hn, hregs, congrArg (fun d : Dev => { s with dev := d }) hframe⟩
    refine ⟨fun hr => ?_, fun hr hd => ?_, fun hr hd hb => ?_, fun hr hd hb => ?_⟩
    · exact hresult (n := 0xB020) (Dev.handoverAt_notActive hr h) (by decide)
    · exact hresult (n := 0x1008) (Dev.handoverAt_single hr hd h) (by decide)
    · exact hresult (n := 0x1004) (Dev.handoverAt_near hr hd hb) (by decide)
    · have hshown := Dev.handoverAt_shown hr hd hb
      have hexec' : exec (.wrHandover p) s = .next { s with dev := s.dev.handoverAt h } := hexec
      generalize s.dev.handoverAt h = e at *
      exact ⟨_, hexec', hshown⟩
  · intro b p h hb hr hp
    have hexec := exec_handoverBeat_yields h hb hr hp
    have hshown := Dev.yieldTo_yields (d := s.dev) (by rw [hr]; decide) p
    generalize s.dev.yieldTo p = e at *
    exact ⟨_, hexec, hshown⟩
  · intro b h hb hr
    have hexec := exec_handoverBeat_takes h hb hr
    obtain ⟨hin, -, -, -⟩ := Dev.takeCharge_takes (d := s.dev) (by rw [hr]; decide)
    obtain ⟨hin', hres, hdual, hflag⟩ := Dev.sealShared_shown hin s.dev.wr.mgrPos
    generalize s.dev.takeCharge.sealShared s.dev.wr.mgrPos = e at *
    exact ⟨_, hexec, hcharge hin', hres, hdual, hflag⟩

end Sys2Proof.Machine
end

section

/-!
PROOF. Frames that a side receives, and VOID frames (15_wilin_ring.md R57, R58, R60, R729 to R732, R754, R763).
-/

namespace Sys2Proof.Machine
open Sys2Proof

/-! ## Frames that do not act -/

/-- The frame goes on, unless this device is its origin. -/
def Dev.goesOn (d : Dev) (k : Nat) (poison : Bool) (binds : List Nat) : Dev := if d.isMgr then d else d.forward k poison binds

/-- What leaves for a frame that goes on with POISON. -/
def Dev.poisonOut (d : Dev) (k : Nat) (binds : List Nat) : List Out :=
  d.out ++ (if d.isMgr then [] else (d.sidesOut k).map (fun o => Out.forward o true binds))

theorem Dev.foldl_emit {A : Type} (g : A → Out) (l : List A) : ∀ d : Dev, l.foldl (fun d a => d.emit (g a)) d = { d with out := d.out ++ l.map g } := by
  induction l with
  | nil => exact fun d => by simp
  | cons a l ih => exact fun d => by rw [List.foldl_cons, ih]; simp [Dev.emit]

theorem Dev.goesOn_poisoned (d : Dev) (k : Nat) (binds : List Nat) : d.goesOn k true binds = { d with out := d.poisonOut k binds } := by
  unfold Dev.goesOn Dev.poisonOut
  split
  · simp
  · unfold Dev.forward
    rw [Bool.or_true, if_pos rfl]
    exact Dev.foldl_emit _ _ d

theorem Dev.frameIn_off {d : Dev} (h : d.linked = false) (k : Nat) (f : FrameIn) : d.frameIn k f = d := if_pos (by simp [h])

section
variable {d : Dev} (hl : d.linked = true) (k : Nat) {f : FrameIn}
include hl

theorem Dev.frameIn_crc (hc : f.crcOk = false) : d.frameIn k f = (d.frameErr k true).goesOn k true (f.binds.map BitVec.toNat) :=
  (if_neg (by simp [hl])).trans (if_pos (by simp [hc]))

theorem Dev.frameIn_poison (hc : f.crcOk = true) (hp : f.poison = true) :
    d.frameIn k f = (d.addSat (F.WR_POISON_POISONED k) 1).goesOn k true (f.binds.map BitVec.toNat) :=
  (if_neg (by simp [hl])).trans ((if_neg (by simp [hc])).trans (if_pos hp))

theorem Dev.frameIn_void (hc : f.crcOk = true) (hp : f.poison = false) (hv : f.void = true) :
    d.frameIn k f = { d with wr := { d.wr with voidBn := some d.now } } :=
  (if_neg (by simp [hl])).trans ((if_neg (by simp [hc])).trans ((if_neg (by simp [hp])).trans (if_pos hv)))

theorem Dev.frameIn_origin (hc : f.crcOk = true) (hp : f.poison = false) (hv : f.void = false) (ho : d.originOk f.origin.val = true)
    (hcore : d.pwr.vcore = true) (hm : (d.frameAct k f).isMgr = false) : d.frameIn k f =
      ((d.frameAct k f).fillSlots k ((f.binds.map BitVec.toNat).map (d.frameAct k f).readSlot)).1.goesOn k false
        ((d.frameAct k f).fillSlots k ((f.binds.map BitVec.toNat).map (d.frameAct k f).readSlot)).2 := by
  refine (if_neg (by simp [hl])).trans ((if_neg (by simp [hc])).trans ((if_neg (by simp [hp])).trans ((if_neg (by simp [hv])).trans
    ((if_neg (by simp [ho])).trans ((if_neg (by simp [hcore])).trans (if_neg ?_))))))
  rw [hm]
  decide

end

theorem exec_ringFrameReceive (k : Fin 2) (f : FrameIn) (s : State) : exec (.ringFrameReceive k f) s = .next { s with dev := s.dev.frameIn k.val f } := rfl

/-! ### A wrong CRC -/

/-- An error of the side counted, and in its window. -/
def Dev.errCounted (d : Dev) (k n : Nat) : Dev := (d.addSat (F.WR_ERRCNT_CRC k) 1).setSide k { d.side k with errWin := n }

theorem Dev.errThr_errCounted (d : Dev) (k n : Nat) : (d.errCounted k n).fld F.WR_CTRL_ERRTHR = d.fld F.WR_CTRL_ERRTHR := by
  have hregs : d.regsBut (d.errCounted k n) [R.WR_ERRCNT k] :=
    ((Dev.regsBut.refl d _).addSat (f := F.WR_ERRCNT_CRC k) List.mem_cons_self 1).trans (.of_regs rfl _)
  refine hregs.fld ?_
  simp only [List.mem_cons, List.not_mem_nil, or_false, R.WR_ERRCNT, R.WR_CTRL]
  omega

theorem Dev.frameErr_within {d : Dev} {k : Nat} (h : (d.side k).errWin + 1 ≤ d.fld F.WR_CTRL_ERRTHR) :
    d.frameErr k true = d.errCounted k ((d.side k).errWin + 1) := by
  refine if_neg ?_
  have hthr := d.errThr_errCounted k ((d.side k).errWin + 1)
  intro hn
  have hlt : (d.errCounted k ((d.side k).errWin + 1)).fld F.WR_CTRL_ERRTHR < (d.side k).errWin + 1 := hn
  omega

theorem Dev.frameErr_beyond {d : Dev} {k : Nat} (h : d.fld F.WR_CTRL_ERRTHR < (d.side k).errWin + 1) :
    d.frameErr k true = (d.errCounted k ((d.side k).errWin + 1)).wrapSide k Rsn.ringErrRate := by
  refine if_pos ?_
  have hthr := d.errThr_errCounted k ((d.side k).errWin + 1)
  show (d.errCounted k ((d.side k).errWin + 1)).fld F.WR_CTRL_ERRTHR < (d.side k).errWin + 1
  omega

theorem Dev.side_errCounted (d : Dev) (k n : Nat) : (d.errCounted k n).side k = { d.side k with errWin := n } :=
  (Dev.side_setSide _ _ _ _).trans (if_pos rfl)

theorem Dev.sidesOut_congr {d e : Dev} {k : Nat} (hw : ∀ n, (e.side n).wrapped = (d.side n).wrapped) (hl : ∀ n, (e.side n).lstate = (d.side n).lstate) :
    e.sidesOut k = d.sidesOut k := by
  unfold Dev.sidesOut
  dsimp only
  rw [hw k, hw (1 - k), hl]

/-- An error counted leaves the ways of the ring. -/
theorem Dev.poisonOut_errCounted (d : Dev) (k n : Nat) (binds : List Nat) : (d.errCounted k n).poisonOut k binds = d.poisonOut k binds := by
  have hside : ∀ m, (d.errCounted k n).side m = if m = k then { d.side k with errWin := n } else d.side m := fun m => Dev.side_setSide _ _ _ _
  have hsides : (d.errCounted k n).sidesOut k = d.sidesOut k := by
    refine Dev.sidesOut_congr (fun m => ?_) (fun m => ?_) <;> rw [hside] <;> split
    case isTrue hm => rw [hm]
    · rfl
    case isTrue hm => rw [hm]
    · rfl
  unfold Dev.poisonOut
  rw [hsides]
  rfl

/-- The clause on a wrong CRC within the window. -/
theorem Dev.frameCrc_counted {d : Dev} (hl : d.linked = true) {k : Nat} {f : FrameIn} (hc : f.crcOk = false)
    (h : (d.side k).errWin + 1 ≤ d.fld F.WR_CTRL_ERRTHR) :
    (d.frameIn k f).fld (F.WR_ERRCNT_CRC k) = satAdd 16 (d.fld (F.WR_ERRCNT_CRC k)) 1 ∧
    (d.frameIn k f).side k = { d.side k with errWin := (d.side k).errWin + 1 } ∧ d.regsBut (d.frameIn k f) [R.WR_ERRCNT k] ∧
    d.frameIn k f = { d with regs := (d.frameIn k f).regs, wr := { d.wr with side := (d.frameIn k f).wr.side },
                             out := d.poisonOut k (f.binds.map BitVec.toNat) } := by
  rw [Dev.frameIn_crc hl k hc, Dev.frameErr_within h, Dev.goesOn_poisoned, Dev.poisonOut_errCounted]
  refine ⟨?_, d.side_errCounted k _, ?_, rfl⟩
  · exact Dev.fld_addSat_same d (f := F.WR_ERRCNT_CRC k) (show 15 < 32 by decide) 1
  · exact ((Dev.regsBut.refl d _).addSat (f := F.WR_ERRCNT_CRC k) List.mem_cons_self 1).trans (.of_regs rfl _)

/-- The clause on a wrong CRC beyond the window of a side up. -/
theorem Dev.frameCrc_wraps {d : Dev} (hl : d.linked = true) {k : Nat} (hk : k < 2) {f : FrameIn} (hc : f.crcOk = false)
    (h : d.fld F.WR_CTRL_ERRTHR < (d.side k).errWin + 1) (hup : (d.side k).lstate = 4) :
    ((d.frameIn k f).side k).wrapped = true ∧ ((d.frameIn k f).side k).lstate = 5 ∧
    (0x6004 : Reason) ∈ ((d.frameIn k f).dom (domSide k)).causes := by
  rw [Dev.frameIn_crc hl k hc, Dev.frameErr_beyond h, Dev.goesOn_poisoned]
  have hside := d.side_errCounted k ((d.side k).errWin + 1)
  have hwrap := Dev.wrapSide_wraps hk (d := d.errCounted k ((d.side k).errWin + 1)) (by rw [hside]; exact hup) Rsn.ringErrRate
  generalize (d.errCounted k ((d.side k).errWin + 1)).wrapSide k Rsn.ringErrRate = e at *
  have hkept : e.side k = _ := hwrap.side
  exact ⟨(congrArg SideSt.wrapped hkept), (congrArg SideSt.lstate hkept), hwrap.cause⟩

/-- The clause on POISON. -/
theorem Dev.framePoison_counted {d : Dev} (hl : d.linked = true) (k : Nat) {f : FrameIn} (hc : f.crcOk = true) (hp : f.poison = true) :
    (d.frameIn k f).fld (F.WR_POISON_POISONED k) = satAdd 16 (d.fld (F.WR_POISON_POISONED k)) 1 ∧ d.regsBut (d.frameIn k f) [R.WR_POISON k] ∧
    d.frameIn k f = { d with regs := (d.frameIn k f).regs, out := d.poisonOut k (f.binds.map BitVec.toNat) } := by
  rw [Dev.frameIn_poison hl k hc hp, Dev.goesOn_poisoned]
  have hout : (d.addSat (F.WR_POISON_POISONED k) 1).poisonOut k (f.binds.map BitVec.toNat) = d.poisonOut k (f.binds.map BitVec.toNat) := rfl
  rw [hout]
  refine ⟨?_, ?_, rfl⟩
  · exact Dev.fld_addSat_same d (f := F.WR_POISON_POISONED k) (show 15 < 32 by decide) 1
  · exact ((Dev.regsBut.refl d _).addSat (f := F.WR_POISON_POISONED k) List.mem_cons_self 1).trans (.of_regs rfl _)

/-! ## Frames of an origin -/

/-- Time and role stay. -/
structure Dev.TimeKept (d e : Dev) : Prop where
  t : e.t = d.t
  role : e.boot.role = d.boot.role

namespace Dev.TimeKept
variable {d e f : Dev}

theorem refl (d : Dev) : d.TimeKept d := ⟨rfl, rfl⟩

theorem trans (h : d.TimeKept e) (h' : e.TimeKept f) : d.TimeKept f := ⟨h'.t.trans h.t, h'.role.trans h.role⟩

theorem of_same (ht : e.t = d.t) (hb : e.boot = d.boot) : d.TimeKept e := ⟨ht, congrArg BootSt.role hb⟩

theorem foldl {A : Type} {step : Dev → A → Dev} (hs : ∀ d a, Dev.TimeKept d (step d a)) (as : List A) : ∀ d : Dev, d.TimeKept (as.foldl step d) := by
  induction as with
  | nil => exact .refl
  | cons a as ih => exact fun d => (hs d a).trans (ih _)

theorem raiseIrq (h : d.TimeKept e) (v : Nat) : d.TimeKept (e.raiseIrq v) := h.trans (of_same (by simp) (by simp))

theorem setFlag (h : d.TimeKept e) (g : Fld) (b : Bool) : d.TimeKept (e.setFlag g b) := h.trans (of_same rfl rfl)

theorem ite {p : Prop} [Decidable p] (h : d.TimeKept e) (h' : d.TimeKept f) : d.TimeKept (if p then e else f) := by
  split
  · exact h
  · exact h'

theorem isMgr (h : d.TimeKept e) : e.isMgr = d.isMgr := by unfold Dev.isMgr; rw [h.role]

end Dev.TimeKept

theorem Dev.timeKept_bulkPut (d : Dev) (p k : Nat) (ws : List Word) : d.TimeKept (d.bulkPut p k ws) := .of_same (by simp) (by simp)

theorem Dev.timeKept_declareSelf (d : Dev) : d.TimeKept d.declareSelf := by
  refine .of_same ?_ d.declareSelf_keeps.2
  unfold Dev.declareSelf
  dsimp only
  refine (foldl_keeps _ Dev.t (fun e j => ?_) _ _).trans (by simp)
  split
  · rfl
  · simp

theorem Dev.timeKept_shiftOrigin (d : Dev) (o : Nat) : d.TimeKept (d.shiftOrigin o) := by
  unfold Dev.shiftOrigin Dev.putOffsets Dev.showLat
  dsimp only
  split <;> exact .of_same rfl rfl

theorem Dev.timeKept_newOrigin (d : Dev) (o : Nat) : d.TimeKept (d.newOrigin o) := by
  have hknown : d.TimeKept { d with wr := { d.wr with mgrPos := o, mgrKnown := true } } := .of_same rfl rfl
  unfold Dev.newOrigin
  dsimp only
  split
  · exact hknown
  · exact (hknown.trans (Dev.timeKept_shiftOrigin _ o)).trans (Dev.timeKept_declareSelf _)

theorem Dev.timeKept_leaveSide (d : Dev) (k : Nat) : d.TimeKept (d.leaveSide k) := by
  unfold Dev.leaveSide
  split
  · exact .refl d
  · split <;> exact .of_same rfl rfl

theorem Dev.timeKept_clearCauses (d : Dev) (k : Nat) (p : Reason → Bool) : d.TimeKept (d.clearCauses k p) := .of_same (by simp) (by simp)

theorem Dev.timeKept_asyShow (d : Dev) : d.TimeKept d.asyShow := .of_same d.cutKept_asyShow.t d.cutKept_asyShow.boot

theorem Dev.timeKept_asyEnd (d : Dev) (r : Reason) : d.TimeKept (d.asyEnd r) := .of_same (d.cutKept_asyEnd r).t (d.cutKept_asyEnd r).boot

theorem Dev.timeKept_raiseAll (d : Dev) (l : List (Nat × Reason)) : d.TimeKept (d.raiseAll l) := .of_same (by simp) (by simp)

theorem Dev.timeKept_clockFence (d : Dev) (r : Reason) (fb : Nat) : d.TimeKept (d.clockFence r fb) := by
  have habandon : ∀ e : Dev, e.TimeKept e.asyAbandon := fun e => by
    unfold Dev.asyAbandon
    split
    · exact e.timeKept_asyEnd _
    · exact .refl e
  have hspeeds : ∀ e : Dev, e.TimeKept e.speedsStopped := fun e =>
    .foldl (step := fun d n => d.setFlag (F.ENC_STAT_SPEED_VALID n) false) (fun _ _ => .of_same rfl rfl) _ e
  have hmarked : d.TimeKept (d.fenceMarked r fb) := .of_same rfl rfl
  rw [Dev.clockFence_eq]
  exact ((((hmarked.trans (Dev.timeKept_raiseAll _ _)).trans (hspeeds _)).trans (habandon _)).setFlag _ _).raiseIrq 18

/-- The ring's holdover flag noted. -/
def Dev.flagNoted (d : Dev) : Dev :=
  { d with clk := { d.clk with flagSeen := true, recal := false, unfenceDue := false, unfenceWait := false } }.setFlag F.BT_STAT_HOLDOVER true

theorem Dev.timeKept_holdoverOn (d : Dev) (fb : Nat) : d.TimeKept (d.holdoverOn fb) := by
  unfold Dev.holdoverOn
  split
  · exact .refl d
  · have hseen : d.TimeKept d.flagNoted := .of_same rfl rfl
    exact hseen.trans (Dev.timeKept_clockFence _ _ fb)

theorem Dev.timeKept_holdoverOff (d : Dev) : d.TimeKept d.holdoverOff := by
  unfold Dev.holdoverOff Dev.holdoverEnd
  split
  · exact .refl d
  · exact .of_same (by simp) (by simp)

theorem Dev.timeKept_pwrResult (d : Dev) (r : Reason) : d.TimeKept (d.pwrResult r) := .of_same (by simp [Dev.pwrResult]) (by simp [Dev.pwrResult])

theorem Dev.timeKept_pwrHold (d : Dev) (cmd : Nat) (expire isolate : Bool) (b : Nat) : d.TimeKept (d.pwrHold cmd expire isolate b) := .of_same rfl rfl

/-- A power command of the ring held, or refused. -/
def Dev.pwrAnswer (d : Dev) (cmd : Nat) (expire isolate : Bool) (b : Nat) : Dev :=
  match d.pwrRefusal cmd expire with
  | some r => d.pwrResult r
  | none => d.pwrHold cmd expire isolate b

theorem Dev.timeKept_pwrAnswer (d : Dev) (cmd : Nat) (expire isolate : Bool) (b : Nat) : d.TimeKept (d.pwrAnswer cmd expire isolate b) := by
  unfold Dev.pwrAnswer
  split
  · exact d.timeKept_pwrResult _
  · exact d.timeKept_pwrHold _ _ _ _

theorem Dev.timeKept_pwrHeaderIn (d : Dev) (h : Nat) : d.TimeKept (d.pwrHeaderIn h) := by
  unfold Dev.pwrHeaderIn
  dsimp only
  split
  · exact .refl d
  split
  · split
    · exact .refl d
    · exact .of_same rfl rfl
  change d.TimeKept (if (_ : Bool) then d else d.pwrAnswer (h / 2 ^ 33 % 8) (h.testBit 36) (h.testBit 37) _)
  exact .ite (.refl d) (d.timeKept_pwrAnswer _ _ _ _)

theorem Dev.timeKept_wakeSide (d : Dev) (h : Nat) : d.TimeKept (d.wakeSide h) := by
  unfold Dev.wakeSide
  dsimp only
  split
  · exact .refl d
  · refine .foldl (fun e s => ?_) _ d
    split <;> exact .of_same rfl rfl

theorem Dev.timeKept_commitAbort (d : Dev) (code : Reason) (pos unit : Nat) : d.TimeKept (d.commitAbort code pos unit) := by
  refine .of_same ?_ (Dev.ChargeKept.commitAbort d code pos unit).boot
  unfold Dev.commitAbort
  split
  · rfl
  · dsimp only
    split
    · rfl
    · split <;> split <;> simp [Dev.cmtHeader, Dev.sccPhase]

theorem Dev.timeKept_takeDecision (d : Dev) (id : Nat) (apply : Bool) (r : Reason) (pos : Nat) : d.TimeKept (d.takeDecision id apply r pos) := by
  unfold Dev.takeDecision
  split
  · exact .refl d
  split
  · exact .refl d
  split
  · split <;> exact .of_same rfl rfl
  split
  · exact .of_same rfl rfl
  · exact d.timeKept_commitAbort r pos 0

theorem Dev.timeKept_prepare (d : Dev) (id scope : Nat) : d.TimeKept (d.prepare id scope) := by
  unfold Dev.prepare
  dsimp only
  cases d.scc.cur <;> dsimp only <;> split
  case' none.isTrue | some.isTrue => exact .refl d
  all_goals exact .of_same rfl rfl

theorem Dev.timeKept_headCommit (d : Dev) (h1 h2 : Nat) : d.TimeKept (d.headCommit h1 h2) := by
  unfold Dev.headCommit
  dsimp only
  split
  · exact d.timeKept_prepare _ _
  · exact d.timeKept_takeDecision _ _ _ _
  · exact d.timeKept_takeDecision _ _ _ _
  · exact .refl d

theorem Dev.timeKept_setCuts (d : Dev) (cs : List Nat) : d.TimeKept (d.setCuts cs) := .of_same (d.setCuts_sets cs).t (d.setCuts_sets cs).boot

theorem Dev.timeKept_bindSlot (d : Dev) (w : Nat) : d.TimeKept (d.bindSlot w) := by
  unfold Dev.bindSlot
  dsimp only
  (repeat' split) <;> exact .of_same rfl rfl

theorem Dev.timeKept_slotIn {d : Dev} (h : d.boot.role ≠ .manager) (bn : Nat) (x : SlotIn) : d.TimeKept (d.slotIn bn x) := by
  unfold Dev.slotIn
  dsimp only
  split
  · exact .refl d
  · rw [if_neg (by simp [h])]
    exact .of_same rfl rfl

theorem Dev.timeKept_confirmed (d : Dev) (ring hm : Nat) : d.TimeKept (d.confirmed ring hm) := .of_same rfl rfl

theorem Dev.timeKept_bulkStep (side : BulkMsg → Nat) (l : List BulkMsg) : ∀ a : Dev × Nat × Nat, a.1.TimeKept (l.foldl (bulkStep side) a).1 := by
  induction l with
  | nil => exact fun a => .refl a.1
  | cons x l ih =>
    intro a
    have hstep : a.1.TimeKept (bulkStep side a x).1 := by
      unfold bulkStep
      dsimp only
      (repeat' split) <;> exact .of_same rfl rfl
    exact hstep.trans (ih _)

/-- The queue of bulk messages taken out, to be served. -/
def Dev.bulkTaken (d : Dev) : Dev := { d with wr := { d.wr with bulk := [] } }

theorem Dev.timeKept_bulkGrant (d : Dev) (k ctl : Nat) : d.TimeKept (d.bulkGrant k ctl) := by
  unfold Dev.bulkGrant
  split
  · exact .refl d
  · have hcut : d.TimeKept d.bulkTaken := .of_same rfl rfl
    exact hcut.trans (Dev.timeKept_bulkStep (fun _ => (d.sidesOut k).headD (1 - k)) d.wr.bulk (d.bulkTaken, ctl / 2 ^ 6 % 32, ctl / 2 ^ 6 % 32))

/-! ### The steps of a header and of a frame that acts -/

theorem Dev.timeKept_header (d : Dev) (h0 h1 h2 : Nat) (cuts : List Nat) : d.TimeKept (d.header h0 h1 h2 cuts) := by
  have hheld : d.TimeKept (if h0.testBit 56 then d.holdoverOn d.now else d.holdoverOff) := by
    split
    · exact d.timeKept_holdoverOn _
    · exact d.timeKept_holdoverOff
  have hres : ∀ e : Dev, e.TimeKept { e with wr := { e.wr with resPos := if h0 / 2 ^ 59 % 32 = 31 then none else some (h0 / 2 ^ 59 % 32) } } :=
    fun e => .of_same rfl rfl
  have hunwrap : ∀ e : Dev, e.TimeKept (if h2.testBit 60 then
      { e with wr := { e.wr with unwrap := some (h2 / 2 ^ 55 % 32, e.nextBeat19 (h1 / 2 ^ 45 % 2 ^ 19)) } } else e) := fun e => by
    split <;> exact .of_same rfl rfl
  have hhead := hheld.trans (hres _)
  have hpwr := ((hhead.trans (Dev.timeKept_pwrHeaderIn _ h1)).trans (Dev.timeKept_wakeSide _ h1)).trans (Dev.timeKept_headCommit _ h1 h2)
  exact (hpwr.trans (hunwrap _)).trans (Dev.timeKept_setCuts _ cuts)

/-- The origin is heard on a side. -/
def Dev.sideHeard (d : Dev) (k : Nat) : Dev := d.setSide k { d.side k with origin := true }

/-- A device whose clock side is not up leaves it for the side of the origin. -/
def Dev.originClock (d : Dev) (k : Nat) : Dev :=
  if d.isMgr || d.wr.clockSide == k || (d.side d.wr.clockSide).lstate == 4 then d else d.leaveSide d.wr.clockSide

/-- The beats without an origin are counted anew. -/
def Dev.originCounted (d : Dev) : Dev := { d with wr := { d.wr with noOrigin := 0, noOwn := 0 }, clk := { d.clk with frozen := false } }

/-- The origin is heard, and the fences of a missing one fall. -/
def Dev.originHeard (d : Dev) (k : Nat) : Dev :=
  timingDoms.foldl (fun d k => d.clearCauses k (fun c => c == Rsn.ringOrphan)) ((d.sideHeard k).originClock k).originCounted

theorem Dev.timeKept_originHeard (d : Dev) (k : Nat) : d.TimeKept (d.originHeard k) := by
  have hside : d.TimeKept (d.sideHeard k) := .of_same rfl rfl
  have hclock : ∀ e : Dev, e.TimeKept (e.originClock k) := fun e => .ite (.refl e) (e.timeKept_leaveSide _)
  have hcount : ∀ e : Dev, e.TimeKept e.originCounted := fun e => .of_same rfl rfl
  exact ((hside.trans (hclock _)).trans (hcount _)).trans (.foldl (fun e j => e.timeKept_clearCauses j _) timingDoms _)

/-- The entries of a frame. -/
def Dev.entriesIn (d : Dev) (f : FrameIn) : Dev :=
  let d := f.binds.foldl (fun d w => d.bindSlot w.toNat) d
  let d := f.slots.foldl (fun d x => d.slotIn (f.h0.toNat % 2 ^ 56) x) d
  f.confirmed.foldl (fun d c => d.confirmed c.1.val c.2.toNat) d

theorem Dev.timeKept_slots (bn : Nat) (l : List SlotIn) : ∀ d : Dev, d.boot.role ≠ .manager → d.TimeKept (l.foldl (fun d x => d.slotIn bn x) d) := by
  induction l with
  | nil => exact fun d _ => .refl d
  | cons x l ih =>
    intro d h
    have hx := Dev.timeKept_slotIn h bn x
    exact hx.trans (ih _ (by rw [hx.role]; exact h))

theorem Dev.timeKept_entriesIn {d : Dev} (h : d.boot.role ≠ .manager) (f : FrameIn) : d.TimeKept (d.entriesIn f) := by
  have hbinds : d.TimeKept (f.binds.foldl (fun d w => d.bindSlot w.toNat) d) := .foldl (fun e w => e.timeKept_bindSlot _) _ d
  have hslots := hbinds.trans (Dev.timeKept_slots (f.h0.toNat % 2 ^ 56) f.slots _ (by rw [hbinds.role]; exact h))
  exact hslots.trans (.foldl (step := fun d c => d.confirmed c.1.val c.2.toNat) (fun e c => e.timeKept_confirmed _ _) f.confirmed _)

/-- The header of a frame, at the manager its cuts alone. -/
def Dev.headIn (d : Dev) (f : FrameIn) : Dev :=
  if d.isMgr then d.setCuts (f.cuts.map Fin.val) else d.header f.h0.toNat f.h1.toNat f.h2.toNat (f.cuts.map Fin.val)

theorem Dev.timeKept_headIn (d : Dev) (f : FrameIn) : d.TimeKept (d.headIn f) := .ite (d.timeKept_setCuts _) (d.timeKept_header _ _ _ _)

/-- The bulk that the frame grants, at the manager a handover that is asked for. -/
def Dev.granted (d : Dev) (k : Nat) (f : FrameIn) : Dev := if d.boot.role == .manager then d.handoverAsk else d.bulkGrant k f.bulk.toNat

theorem Dev.timeKept_granted {d : Dev} (h : d.boot.role ≠ .manager) (k : Nat) (f : FrameIn) : d.TimeKept (d.granted k f) := by
  rw [Dev.granted, if_neg (by simpa using h)]
  exact d.timeKept_bulkGrant k _

/-- What a device does of a frame whose origin it has heard, up to a reserve's claim. -/
def Dev.frameActs (d : Dev) (k : Nat) (f : FrameIn) : Dev :=
  (((d.originHeard k).headIn f).entriesIn f).granted k f

theorem Dev.timeKept_frameActs {d : Dev} (h : d.boot.role ≠ .manager) (k : Nat) (f : FrameIn) : d.TimeKept (d.frameActs k f) := by
  have hhead := (d.timeKept_originHeard k).trans (Dev.timeKept_headIn _ f)
  have hin := hhead.trans (Dev.timeKept_entriesIn (by rw [hhead.role]; exact h) f)
  exact hin.trans (Dev.timeKept_granted (by rw [hin.role]; exact h) k f)

/-! ### The beat number of a frame -/

theorem Dev.isMgr_of_worker {d : Dev} (h : d.boot.role = .worker) : d.isMgr = false := by simp [Dev.isMgr, h]

/-- A capable device that waits for it becomes the reserve. -/
def Dev.reserveIn (d : Dev) (f : FrameIn) : Dev :=
  if d.boot.capable && d.boot.roleKnown && d.boot.role == .reserve && !d.boot.conflict && d.phase == 6 then d.becomeReserve f.origin.val f.us else d

theorem Dev.reserveIn_of_worker {d : Dev} (h : d.boot.role = .worker) (f : FrameIn) : d.reserveIn f = d := if_neg (by rw [h]; simp)

theorem Dev.frameAct_eq (d : Dev) (k : Nat) (f : FrameIn) : d.frameAct k f =
    if !(d.seeBn (f.h0.toNat % 2 ^ 56)).2 then (d.seeBn (f.h0.toNat % 2 ^ 56)).1
    else ((if d.isMgr then (d.seeBn (f.h0.toNat % 2 ^ 56)).1
           else (d.seeBn (f.h0.toNat % 2 ^ 56)).1.newOrigin f.origin.val).frameActs k f).reserveIn f := by
  unfold Dev.frameAct Dev.reserveIn Dev.frameActs Dev.granted Dev.headIn Dev.entriesIn Dev.originHeard Dev.originCounted Dev.originClock Dev.sideHeard
  rfl

theorem Dev.timeKept_frameAct {d e : Dev} {k : Nat} {f : FrameIn} (hd : d.boot.role = .worker) (h : d.seeBn (f.h0.toNat % 2 ^ 56) = (e, true))
    (he : e.boot.role = .worker) : e.TimeKept (d.frameAct k f) := by
  have hnew := e.timeKept_newOrigin f.origin.val
  have hacts := hnew.trans (Dev.timeKept_frameActs (by rw [hnew.role, he]; decide) k f)
  have heq : d.frameAct k f = (e.newOrigin f.origin.val).frameActs k f := by
    rw [Dev.frameAct_eq, h, Dev.isMgr_of_worker hd]
    exact Dev.reserveIn_of_worker (hacts.role.trans he) f
  rw [heq]
  exact hacts

theorem Dev.frameAct_ignored {d e : Dev} {k : Nat} {f : FrameIn} (h : d.seeBn (f.h0.toNat % 2 ^ 56) = (e, false)) : d.frameAct k f = e := by
  rw [Dev.frameAct_eq, h]
  rfl

theorem Dev.mayCount_of_running {d : Dev} (h : d.t.running = true) : d.mayCount = true := by simp [Dev.mayCount, h]

/-- A forward step is shown, or none made. -/
def Dev.stepNoted (d : Dev) (n : Nat) : Dev := if d.t.last + 1 < n then d.setFlag F.BT_STAT_FWD_STEP true else d

theorem Dev.timeKept_stepNoted (d : Dev) (n : Nat) : d.TimeKept (d.stepNoted n) := .ite (.of_same rfl rfl) (.refl d)

section
variable {d : Dev} (hr : d.boot.role = .worker) (hrun : d.t.running = true) {n : Nat}
include hr hrun

theorem Dev.seeBn_near (h : d.t.last ≤ n) (h64 : n ≤ d.t.last + 64) :
    d.seeBn n = (if n = (d.stepNoted n).t.last then d.stepNoted n else (d.stepNoted n).applyBn n, true) := by
  refine (if_neg (by simp [Dev.isMgr_of_worker hr])).trans ((if_neg (by simp [hr])).trans ((if_neg (by simp [Dev.mayCount_of_running hrun])).trans
    ((if_neg (by omega)).trans ((if_pos h64).trans rfl))))

theorem Dev.seeBn_past (h : n < d.t.last) :
    d.seeBn n = (if (d.regressed.dom 0).causes.contains Rsn.timeRegress then d.regressed else d.regressed.selfFence Rsn.timeRegress, false) :=
  (if_neg (by simp [Dev.isMgr_of_worker hr])).trans ((if_neg (by simp [hr])).trans ((if_neg (by simp [Dev.mayCount_of_running hrun])).trans
    (if_pos h)))

theorem Dev.applyBn_running (n : Nat) : (d.applyBn n).t = { d.t with bn := BitVec.ofNat 56 n, last := n, lastUsed := n, running := true, regress := false } ∧
    (d.applyBn n).boot.role = .worker := by
  have hstart : (!d.t.running) = false := by simp [hrun]
  unfold Dev.applyBn
  rw [hstart]
  exact ⟨rfl, hr⟩

end

/-! ### What goes on of a frame -/

theorem Dev.goesOn_emits (d : Dev) (k : Nat) (binds : List Nat) : d.goesOn k false binds = { d with out := (d.goesOn k false binds).out } := by
  have hemits : ∀ (l : List Nat) (e : Dev), l.foldl (fun d o => d.emit (.forward o false binds)) e =
      { e with out := (l.foldl (fun d o => d.emit (.forward o false binds)) e).out } := fun l e => by rw [Dev.foldl_emit]
  unfold Dev.goesOn Dev.forward
  dsimp only
  split
  · rfl
  · split
    · exact hemits _ d
    · rw [hemits]
      rfl

/-- The frame as it leaves this device. -/
def Dev.sentOn (d : Dev) (k : Nat) (f : FrameIn) : Dev :=
  (d.fillSlots k ((f.binds.map BitVec.toNat).map d.readSlot)).1.goesOn k false (d.fillSlots k ((f.binds.map BitVec.toNat).map d.readSlot)).2

theorem Dev.timeKept_sentOn (d : Dev) (k : Nat) (f : FrameIn) : d.TimeKept (d.sentOn k f) := by
  have hfill : d.TimeKept (d.fillSlots k ((f.binds.map BitVec.toNat).map d.readSlot)).1 := .of_same rfl rfl
  unfold Dev.sentOn
  rw [Dev.goesOn_emits]
  exact hfill.trans (.of_same rfl rfl)

/-! ### The clause on a beat number near the last applied -/

section
variable {d : Dev} {k : Nat} {f : FrameIn} (hc : f.crcOk = true) (hp : f.poison = false) (hv : f.void = false) (hl : d.linked = true)
  (hcore : d.pwr.vcore = true) (hr : d.boot.role = .worker) (ho : d.originOk f.origin.val = true) (hrun : d.t.running = true)
include hc hp hv hl hcore hr ho hrun

theorem Dev.frameIn_near (h : d.t.last ≤ f.h0.toNat % 2 ^ 56) (h64 : f.h0.toNat % 2 ^ 56 ≤ d.t.last + 64) :
    (f.h0.toNat % 2 ^ 56 ≠ d.t.last → (d.frameIn k f).t =
      { d.t with bn := BitVec.ofNat 56 (f.h0.toNat % 2 ^ 56), last := f.h0.toNat % 2 ^ 56, lastUsed := f.h0.toNat % 2 ^ 56, running := true, regress := false }) ∧
    (f.h0.toNat % 2 ^ 56 = d.t.last → (d.frameIn k f).t = d.t) ∧ (d.frameIn k f).boot.role = .worker := by
  have hnoted := d.timeKept_stepNoted (f.h0.toNat % 2 ^ 56)
  have hseen := Dev.seeBn_near hr hrun h h64
  have hkept : ∀ e : Dev, d.seeBn (f.h0.toNat % 2 ^ 56) = (e, true) → e.boot.role = .worker → e.TimeKept (d.frameIn k f) := fun e hs he => by
    have hact := Dev.timeKept_frameAct (k := k) hr hs he
    rw [Dev.frameIn_origin hl k hc hp hv ho hcore (Dev.isMgr_of_worker (hact.role.trans he))]
    exact hact.trans (Dev.timeKept_sentOn _ k f)
  rw [hnoted.t] at hseen
  by_cases hn : f.h0.toNat % 2 ^ 56 = d.t.last
  · rw [if_pos hn] at hseen
    have hall := hnoted.trans (hkept _ hseen (hnoted.role.trans hr))
    exact ⟨fun h' => absurd hn h', fun _ => hall.t, hall.role.trans hr⟩
  · rw [if_neg hn] at hseen
    obtain ⟨ht, hrole⟩ := Dev.applyBn_running (hnoted.role.trans hr) (hnoted.t ▸ hrun) (f.h0.toNat % 2 ^ 56)
    have hall := hkept _ hseen hrole
    exact ⟨fun _ => hall.t.trans (ht.trans (by rw [hnoted.t])), fun h' => absurd h' hn, hall.role.trans hrole⟩

end

/-! ### The clause on a beat number before the last applied -/

/-- The registers that the fence of a device writes. -/
def fenceRegs : List Nat := R.SCC_STAT :: R.PWR_STAT :: R.SUP_BOOT :: R.WR_BSWAIT :: irqRegs

/-- What a device fenced for a time regress keeps. -/
structure Dev.RegressKept (d e : Dev) : Prop where
  t : e.t = d.t
  role : e.boot.role = d.boot.role
  mgrPos : e.wr.mgrPos = d.wr.mgrPos
  regs : d.regsBut e fenceRegs
  isr : ∀ i < 32, bitOf (d.reg R.HST_ISR0) i = true → bitOf (e.reg R.HST_ISR0) i = true
  causes : ∀ k r, r ∈ (d.dom k).causes → r ∈ (e.dom k).causes

namespace Dev.RegressKept
variable {d e f : Dev}

theorem trans (h : d.RegressKept e) (h' : e.RegressKept f) : d.RegressKept f where
  t := h'.t.trans h.t
  role := h'.role.trans h.role
  mgrPos := h'.mgrPos.trans h.mgrPos
  regs := h.regs.trans h'.regs
  isr := fun i hi hb => h'.isr i hi (h.isr i hi hb)
  causes := fun k r hr => h'.causes k r (h.causes k r hr)

theorem of_same (ht : e.t = d.t) (hb : e.boot.role = d.boot.role) (hw : e.wr.mgrPos = d.wr.mgrPos) (hr : e.regs = d.regs) (hf : e.fen = d.fen) : d.RegressKept e where
  t := ht
  role := hb
  mgrPos := hw
  regs := .of_regs hr _
  isr := fun i _ hb => by rw [reg_congr hr]; exact hb
  causes := fun k r h => by rw [Dev.dom, hf]; exact h

theorem of_raised (h : d.FencesRaised e) : d.RegressKept e where
  t := by rw [h.frame]
  role := by rw [h.frame]
  mgrPos := by rw [h.wr]
  regs := h.regs.mono (by unfold fenceRegs; exact fun a ha => by simp [ha])
  isr := h.isr
  causes := h.causes

theorem refl (d : Dev) : d.RegressKept d := of_same rfl rfl rfl rfl rfl

theorem foldl {A : Type} {step : Dev → A → Dev} (hs : ∀ d a, Dev.RegressKept d (step d a)) (as : List A) : ∀ d : Dev, d.RegressKept (as.foldl step d) := by
  induction as with
  | nil => exact .refl
  | cons a as ih => exact fun d => (hs d a).trans (ih _)

theorem setFld (h : d.RegressKept e) {g : Fld} (hg : g.a ∈ fenceRegs) (hi : R.HST_ISR0 ≠ g.a) (n : Nat) : d.RegressKept (e.setFld g n) := by
  refine h.trans { t := rfl, role := rfl, mgrPos := rfl, regs := (Dev.regsBut.refl e _).setFld (f := g) hg n, isr := fun i _ hb => ?_, causes := fun _ _ h => h }
  rw [Dev.reg_setFld_ne e g n _ hi]
  exact hb

end Dev.RegressKept

theorem Dev.regressKept_bulkPut (d : Dev) (p k : Nat) (ws : List Word) : d.RegressKept (d.bulkPut p k ws) := by
  refine .of_same (by simp) (by simp) ?_ (by simp) (by simp)
  unfold Dev.bulkPut
  split
  · rfl
  · split <;> rfl

theorem Dev.regressKept_declareSelf (d : Dev) : d.RegressKept d.declareSelf := by
  unfold Dev.declareSelf
  dsimp only
  refine (Dev.regressKept_bulkPut d _ _ _).trans (.foldl (fun e j => ?_) _ _)
  split
  · exact .refl e
  · exact e.regressKept_bulkPut _ _ _

/-- A device fenced as a whole drops its waiting jobs, its provisioning and its commit. -/
def Dev.waitsDropped (d : Dev) : Dev :=
  { d with jobs := d.jobs.filter (fun j => !(j.exec == d.pos && j.waiting)),
           boot := { d.boot with provisioned := false }, scc := { d.scc with cur := none } }

/-- A device fenced as a whole closes its jobs, shows it, and declares itself. -/
def Dev.selfClosed (d : Dev) : Dev :=
  (((((d.closeJobs true).waitsDropped).setFld F.SCC_STAT_LOCKED 0).setFld F.PWR_STAT_STATE 5).setPhase 11).declareSelf

theorem Dev.selfFence_eq (d : Dev) (r : Reason) : d.selfFence r = (d.raiseAll ((List.range 113).map (fun k => (k, r)))).selfClosed := rfl

theorem Dev.regressKept_selfClosed (d : Dev) : d.RegressKept d.selfClosed := by
  have hclosed : d.RegressKept (d.closeJobs true) := .of_same rfl rfl rfl rfl rfl
  have hdropped : ∀ e : Dev, e.RegressKept e.waitsDropped := fun e => .of_same rfl rfl rfl rfl rfl
  have hshown := ((hclosed.trans (hdropped _)).setFld (g := F.SCC_STAT_LOCKED) (by simp [fenceRegs]) (by decide) 0).setFld
    (g := F.PWR_STAT_STATE) (by simp [fenceRegs]) (by decide) 5
  have hphase := (hshown.setFld (g := F.SUP_BOOT_PHASE) (by simp [fenceRegs]) (by decide) 11).trans (.of_raised (Dev.fencesRaised_raiseIrq _ 24))
  exact hphase.trans (Dev.regressKept_declareSelf _)

/-- A device fenced as a whole keeps its time, and holds the cause in every domain. -/
theorem Dev.selfFence_shown (d : Dev) (r : Reason) : d.RegressKept (d.selfFence r) ∧ ∀ k < 113, r ∈ ((d.selfFence r).dom k).causes := by
  have hclosed := Dev.regressKept_selfClosed (d.raiseAll ((List.range 113).map (fun k => (k, r))))
  rw [Dev.selfFence_eq]
  exact ⟨(Dev.RegressKept.of_raised (d.fencesRaised_raiseAll _)).trans hclosed, fun k hk => hclosed.causes k r
    (d.mem_causes_raiseAll (List.mem_map.2 ⟨k, List.mem_range.2 hk, rfl⟩))⟩

/-- A regress counted and shown. -/
def Dev.regressNoted (d : Dev) : Dev := ({ d with t := { d.t with regress := true } }.addSat F.BT_REGRESS_CNT_FRAMES 1).setFlag F.BT_STAT_REGRESS true

theorem Dev.regressed_shown (d : Dev) :
    d.regressed.t = { d.t with regress := true } ∧ d.regressed.boot.role = d.boot.role ∧ d.regressed.wr.mgrPos = d.wr.mgrPos ∧
    d.regressed.fld F.BT_REGRESS_CNT_FRAMES = satAdd 16 (d.fld F.BT_REGRESS_CNT_FRAMES) 1 ∧ d.regressed.flag F.BT_STAT_REGRESS = true ∧
    bitOf (d.regressed.reg R.HST_ISR0) 21 = true := by
  have hirq : Dev.regressNoted d |>.FencesRaised d.regressed := Dev.fencesRaised_raiseIrq _ 21
  have hcount : d.regressNoted.fld F.BT_REGRESS_CNT_FRAMES = satAdd 16 (d.fld F.BT_REGRESS_CNT_FRAMES) 1 := by
    rw [Dev.regressNoted, Dev.fld_setFlag_ne _ _ _ _ (by decide) (by decide)]
    exact Dev.fld_addSat_same { d with t := { d.t with regress := true } } (f := F.BT_REGRESS_CNT_FRAMES) (show 15 < 32 by decide) 1
  refine ⟨?_, ?_, ?_, (hirq.regs.fld (by decide)).trans hcount, (hirq.regs.flag (by decide)).trans ?_, Dev.isr_raiseIrq _ 21 (by decide)⟩
  · rw [hirq.frame]
    rfl
  · rw [hirq.frame]
    rfl
  · rw [hirq.wr]
    rfl
  · exact Dev.flag_setFlag_same _ _ _ (by decide) rfl

/-- What a frame from before the last applied beat leaves. -/
structure Dev.Regressed (d e : Dev) : Prop where
  t : e.t = { d.t with regress := true }
  role : e.boot.role = d.boot.role
  mgrPos : e.wr.mgrPos = d.wr.mgrPos
  frames : e.fld F.BT_REGRESS_CNT_FRAMES = satAdd 16 (d.fld F.BT_REGRESS_CNT_FRAMES) 1
  stat : e.flag F.BT_STAT_REGRESS = true
  cause : Rsn.timeRegress ∈ (e.dom 0).causes
  irq : bitOf (e.reg R.HST_ISR0) 21 = true

theorem Dev.Regressed.trans {d e f : Dev} (h : d.Regressed e) (h' : e.RegressKept f) : d.Regressed f where
  t := h'.t.trans h.t
  role := h'.role.trans h.role
  mgrPos := h'.mgrPos.trans h.mgrPos
  frames := (h'.regs.fld (by decide)).trans h.frames
  stat := (h'.regs.flag (by decide)).trans h.stat
  cause := h'.causes 0 _ h.cause
  irq := h'.isr 21 (by decide) h.irq

theorem Dev.regressed_fences (d : Dev) :
    d.Regressed (if (d.regressed.dom 0).causes.contains Rsn.timeRegress then d.regressed else d.regressed.selfFence Rsn.timeRegress) := by
  obtain ⟨ht, hrole, hmgr, hframes, hstat, hirq⟩ := d.regressed_shown
  split
  case isTrue h => exact ⟨ht, hrole, hmgr, hframes, hstat, by simpa using h, hirq⟩
  case isFalse h =>
    obtain ⟨hkept, hcause⟩ := d.regressed.selfFence_shown Rsn.timeRegress
    exact ⟨hkept.t.trans ht, hkept.role.trans hrole, hkept.mgrPos.trans hmgr, (hkept.regs.fld (by decide)).trans hframes,
      (hkept.regs.flag (by decide)).trans hstat, hcause 0 (by decide), hkept.isr 21 (by decide) hirq⟩

theorem Dev.regressKept_fillSlots (d : Dev) (dir : Nat) (slots : List Nat) : d.RegressKept (d.fillSlots dir slots).1 := by
  have hwait : ∀ q, d.RegressKept { d with trg := { d.trg with remote := q } } := fun q => .of_same rfl rfl rfl rfl rfl
  have hcount : ∀ (e : Dev) (n : Nat), e.RegressKept (e.addSat F.WR_BSWAIT_CAPTURES n) := fun e n =>
    (Dev.RegressKept.refl e).setFld (g := F.WR_BSWAIT_CAPTURES) (by simp [fenceRegs]) (by decide) _
  exact (hwait _).trans (hcount _ _)

theorem Dev.regressKept_sentOn (d : Dev) (k : Nat) (f : FrameIn) : d.RegressKept (d.sentOn k f) := by
  have hfill := d.regressKept_fillSlots k ((f.binds.map BitVec.toNat).map d.readSlot)
  unfold Dev.sentOn
  rw [Dev.goesOn_emits]
  exact hfill.trans (.of_same rfl rfl rfl rfl rfl)

section
variable {d : Dev} {k : Nat} {f : FrameIn} (hc : f.crcOk = true) (hp : f.poison = false) (hv : f.void = false) (hl : d.linked = true)
  (hcore : d.pwr.vcore = true) (hr : d.boot.role = .worker) (ho : d.originOk f.origin.val = true) (hrun : d.t.running = true)
include hc hp hv hl hcore hr ho hrun

theorem Dev.frameIn_past (h : f.h0.toNat % 2 ^ 56 < d.t.last) : d.Regressed (d.frameIn k f) := by
  have hact := Dev.regressed_fences d
  rw [← Dev.frameAct_ignored (k := k) (Dev.seeBn_past hr hrun h)] at hact
  rw [Dev.frameIn_origin hl k hc hp hv ho hcore (Dev.isMgr_of_worker (hact.role.trans hr))]
  exact hact.trans (Dev.regressKept_sentOn _ k f)

end

/-! ## VOID frames -/

/-- A VOID frame sent; a device that takes its clock from the other side has frozen its VCO. -/
def Dev.voidSent (d : Dev) (k : Nat) : Dev :=
  { d with out := d.out ++ [.void k d.now], clk := { d.clk with frozen := d.clk.frozen || d.wr.clockSide == 1 - k } }

theorem exec_voidFrameSend {s : State} (k : Fin 2) (hl : s.dev.linked = true) (hm : s.dev.isMgr = false) (hv : s.dev.pwr.vcore = true) :
    exec (.voidFrameSend k) s = .next { s with dev := s.dev.voidSent k.val } := by
  refine congrArg (fun d : Dev => Host.Outcome.next { s with dev := d }) ?_
  refine (if_neg (by simp [hl, hm, hv])).trans ?_
  by_cases hc : s.dev.wr.clockSide = 1 - k.val
  · rw [if_pos hc, Dev.voidSent, hc, beq_self_eq_true, Bool.or_true]
    rfl
  · rw [if_neg hc, Dev.voidSent, beq_eq_false_iff_ne.2 hc, Bool.or_false]
    rfl

theorem exec_voidFrameSend_idle {s : State} (k : Fin 2) (h : s.dev.linked = false ∨ s.dev.isMgr = true ∨ s.dev.pwr.vcore = false) :
    exec (.voidFrameSend k) s = .next s := by
  refine congrArg (fun d : Dev => Host.Outcome.next { s with dev := d }) ?_
  exact if_pos (by obtain h | h | h := h <;> simp [h])

/-! ## The obligation -/

/-- Settles O54: a frame that may not act is counted and goes on poisoned; one of an origin sets the time before anything else, and what it
does after that leaves the time alone. -/
theorem ringFramesReceived : Obligations.RingFramesReceived := by
  intro s k f v n origin on
  refine ⟨fun hl => ?_, fun hl hc hw => ?_, fun hl hc hw hup => ?_, fun hl hc hp => ?_, fun hl hc hp hv => ?_, fun ho hn h64 => ?_, fun ho hn => ?_,
    fun hl hm hv => ?_, exec_voidFrameSend_idle k⟩
  · rw [exec_ringFrameReceive, Dev.frameIn_off hl]
  · obtain ⟨hfld, hside, hregs, hframe⟩ := Dev.frameCrc_counted hl (f := f) hc hw
    generalize hd : s.dev.frameIn k.val f = d at *
    refine ⟨_, exec_ringFrameReceive k f s, ?_⟩
    rw [hd]
    exact ⟨hfld, hside, hregs, congrArg (fun d : Dev => { s with dev := d }) hframe⟩
  · exact ⟨_, exec_ringFrameReceive k f s, Dev.frameCrc_wraps hl k.isLt hc hw hup⟩
  · obtain ⟨hfld, hregs, hframe⟩ := Dev.framePoison_counted hl k.val (f := f) hc hp
    generalize hd : s.dev.frameIn k.val f = d at *
    refine ⟨_, exec_ringFrameReceive k f s, ?_⟩
    rw [hd]
    exact ⟨hfld, hregs, congrArg (fun d : Dev => { s with dev := d }) hframe⟩
  · rw [exec_ringFrameReceive, Dev.frameIn_void hl k.val hc hp hv]
  · obtain ⟨hc, hp, hv, hl, hcore, hr, hok, hrun⟩ := ho
    exact ⟨_, exec_ringFrameReceive k f s, Dev.frameIn_near hc hp hv hl hcore hr hok hrun hn h64⟩
  · obtain ⟨hc, hp, hv, hl, hcore, hr, hok, hrun⟩ := ho
    have hpast := Dev.frameIn_past (k := k.val) hc hp hv hl hcore hr hok hrun hn
    exact ⟨_, exec_ringFrameReceive k f s, hpast.t, hpast.frames, hpast.stat, hpast.cause, hpast.irq, hpast.mgrPos⟩
  · exact ⟨_, exec_voidFrameSend k hl hm hv, rfl, rfl, rfl⟩

end Sys2Proof.Machine
end

section

/-!
PROOF. Doorbells, waybill reads, ring enables and submissions (06_host_port.md R273, R275 to R278, R286, R293, R301, R394).
-/

namespace Sys2Proof.Machine
open Sys2Proof

/-! ## Errors of a ring -/

/-- The registers that an error of ring `j` writes. -/
def ringErrRegs (j : Nat) : List Nat := R.JR_HSTAT j :: R.HST_ERR :: irqRegs

/-- The effect of an error of a ring that the host port reports, with a flag of the ring's status. -/
def Dev.ringFailed (d : Dev) (g : Fld) (j : Nat) (r : Reason) : Dev := ((d.setFlag g true).ringErr j r).hstErr j r

theorem Dev.job_hstErr (d : Dev) {j : Nat} (hj : j < 512) (r : Reason) : (d.hstErr j r).fld F.HST_ERR_JOB = j := by
  rw [Dev.hstErr, Dev.fld_raiseIrq _ _ _ (by decide) (by decide), Dev.fld_setFld_ne _ _ _ _ (by decide) (by decide)]
  exact Dev.fld_setFld_of_lt _ (by decide) hj

theorem jrHstat_notMem_hstErr (j : Nat) : R.JR_HSTAT j ∉ R.HST_ERR :: irqRegs := by
  simp only [irqRegs, R.JR_HSTAT, R.HST_ERR, R.HST_ISR0, R.HST_ISR1, R.MSIX_PBA, List.mem_cons, List.not_mem_nil, or_false]
  omega

section
variable (d : Dev) (j : Nat) (r : Reason) {g : Fld} (ha : g.a = R.JR_HSTAT j) (hlo : g.lo = g.hi) (hhi : g.hi < 16)
include ha hlo hhi

/-- What an error of a ring shows. -/
theorem Dev.ringFailed_shows (hj : j < 512) :
    (d.ringFailed g j r).flag g = true ∧ (d.ringFailed g j r).fld (F.JR_HSTAT_REASON j) = r.toNat ∧
    (d.ringFailed g j r).fld F.HST_ERR_REASON = r.toNat ∧ (d.ringFailed g j r).fld F.HST_ERR_JOB = j ∧
    bitOf ((d.ringFailed g j r).reg R.HST_ISR0) 22 = true ∧ d.regsBut (d.ringFailed g j r) (ringErrRegs j) := by
  have herr : ((d.setFlag g true).ringErr j r).regsBut (d.ringFailed g j r) (R.HST_ERR :: irqRegs) :=
    (Dev.regsBut.refl _ _).hstErr (fun _ h => h) j r
  have hset : d.regsBut ((d.setFlag g true).ringErr j r) [R.JR_HSTAT j] :=
    ((Dev.regsBut.refl d _).setFlag (f := g) (by simp [ha]) true).setFld (f := F.JR_HSTAT_REASON j) (by simp) _
  refine ⟨(herr.flag ?_).trans ?_, (herr.fld (jrHstat_notMem_hstErr j)).trans ?_, Dev.reason_hstErr _ j r, Dev.job_hstErr _ hj r,
    Dev.isr_raiseIrq _ 22 (by decide), (hset.mono ?_).trans (herr.mono ?_)⟩
  · rw [ha]
    exact jrHstat_notMem_hstErr j
  · rw [Dev.ringErr, Dev.flag_setFld_ne _ _ _ _ (by omega) (.inr (.inl (by show g.hi < 16; omega)))]
    exact Dev.flag_setFlag_same d g true (by omega) hlo
  · exact Dev.fld_setFld_of_lt _ (show 31 < 32 by decide) r.isLt
  · simp [ringErrRegs]
  · exact fun a h => List.mem_cons_of_mem _ h

end

theorem Dev.ringFailed_frame (d : Dev) (g : Fld) (j : Nat) (r : Reason) :
    d.ringFailed g j r = { d with regs := (d.ringFailed g j r).regs, out := (d.ringFailed g j r).out } := by
  unfold Dev.ringFailed
  rw [Dev.hstErr_regs_out_only]
  rfl

/-! ## Doorbells (R276, R277, R301, R309) -/

section
variable {s : State} {p : Port} {j : Fin 512} (hg : s.dev.gate p (R.JR_DB j.val) = .pass) (hspi : s.dev.flag F.SUP_STRAP_HOSTSEL = false) (w : Word)
include hg hspi

theorem exec_doorbellWrite_held (hm : s.dev.isMgr = true) (hiso : s.dev.wr.isolated = false) :
    exec (.doorbellWrite p j w) s = .next { s with dev := { s.dev with adm :=
      { s.dev.adm with bells := mset none s.dev.adm.bells j.val (some w.toNat) } } } := by
  refine congrArg (fun d : Dev => Host.Outcome.next { s with dev := d }) ?_
  refine (Dev.viaPort_of_pass hg fun d => d.writeBell j.val w).trans ?_
  exact (if_neg (by simp [Dev.hostSpi, hspi])).trans (if_neg (by simp [hm, hiso]))

theorem exec_doorbellWrite_refused (hm : s.dev.isMgr = false) (hopen : s.dev.boot.roleKnown = true ∨ s.dev.started = true) :
    exec (.doorbellWrite p j w) s = .next { s with dev := s.dev.ringFailed (F.JR_HSTAT_DB_REFUSED j.val) j.val Rsn.notActive } := by
  refine congrArg (fun d : Dev => Host.Outcome.next { s with dev := d }) ?_
  refine (Dev.viaPort_of_pass hg fun d => d.writeBell j.val w).trans ?_
  exact (if_neg (by simp [Dev.hostSpi, hspi])).trans (if_pos (by obtain h | h := hopen <;> simp [hm, h]))

end

/-! ## Reads of waybills (R273, R278) -/

/-- The read in flight of a ring, and its state. -/
def Dev.readSt (d : Dev) (j : Nat) (r : Nat × Nat) : Dev := { d with adm := { d.adm with reading := mset (0, 0) d.adm.reading j r } }

/-- A read complete: its waybills wait for admission, and the head count is past them. -/
def Dev.readTaken (d : Dev) (j n : Nat) (ws : List (List Word)) : Dev :=
  { d with adm := { d.adm with reading := mset (0, 0) d.adm.reading j (0, 0),
                               ready := mset [] d.adm.ready j (d.readyOf j ++ (List.range n).map (fun i => ws.getD i [])) } }.setNum
    (R.JR_SQHEAD j) ((d.num (R.JR_SQHEAD j) + n) % 2 ^ 32)

theorem Dev.readTaken_shows (d : Dev) (j n : Nat) (ws : List (List Word)) :
    (d.readTaken j n ws).readyOf j = d.readyOf j ++ (List.range n).map (fun i => ws.getD i []) ∧
    mget (0, 0) (d.readTaken j n ws).adm.reading j = (0, 0) ∧
    (d.readTaken j n ws).num (R.JR_SQHEAD j) = (d.num (R.JR_SQHEAD j) + n) % 2 ^ 32 ∧
    (∀ i, i ≠ j → (d.readTaken j n ws).readyOf i = d.readyOf i) ∧ d.regsBut (d.readTaken j n ws) [R.JR_SQHEAD j] := by
  refine ⟨(mget_mset _ _ _ _ _).trans (if_pos rfl), ?_, (Dev.num_setNum _ _ _).trans (Nat.mod_mod _ _),
    fun i hi => (mget_mset _ _ _ _ _).trans (if_neg hi), ?_⟩
  · exact (mget_mset (0, 0) d.adm.reading j j (0, 0)).trans (if_pos rfl)
  · exact (Dev.regsBut.of_regs rfl _).setNum (by simp) _

/-- A first failure: the read is tried again. -/
def Dev.readRetried (d : Dev) (j n : Nat) : Dev := (d.readSt j (n, 2)).addSat F.HST_DMA_FAILCNT_FAILED 1

/-- A second failure: the ring is disabled. -/
def Dev.ringDisabled (d : Dev) (j : Nat) : Dev := ((d.readSt j (0, 0)).addSat F.HST_DMA_FAILCNT_FAILED 1).setFlag (F.JR_SQCFG_EN j) false

section
variable {s : State} {j : Fin 512}

theorem exec_waybillReadComplete (hk : (mget (0, 0) s.dev.adm.reading j.val).2 = 1 ∨ (mget (0, 0) s.dev.adm.reading j.val).2 = 3) (ws : List (List Word)) :
    exec (.waybillReadComplete j ws) s = .next { s with dev := s.dev.readTaken j.val (mget (0, 0) s.dev.adm.reading j.val).1 ws } := by
  refine congrArg (fun d : Dev => Host.Outcome.next { s with dev := d }) ?_
  exact if_pos hk

theorem exec_waybillRead_idle (h1 : (mget (0, 0) s.dev.adm.reading j.val).2 ≠ 1) (h3 : (mget (0, 0) s.dev.adm.reading j.val).2 ≠ 3) :
    (∀ ws, exec (.waybillReadComplete j ws) s = .next s) ∧ exec (.waybillReadFail j) s = .next s := by
  constructor
  · intro ws
    refine congrArg (fun d : Dev => Host.Outcome.next { s with dev := d }) ?_
    exact if_neg (by simp [h1, h3])
  · refine congrArg (fun d : Dev => Host.Outcome.next { s with dev := d }) ?_
    exact (if_neg h1).trans (if_neg h3)

theorem exec_waybillReadFail_first (h1 : (mget (0, 0) s.dev.adm.reading j.val).2 = 1) :
    exec (.waybillReadFail j) s = .next { s with dev := s.dev.readRetried j.val (mget (0, 0) s.dev.adm.reading j.val).1 } := by
  refine congrArg (fun d : Dev => Host.Outcome.next { s with dev := d }) ?_
  exact if_pos h1

theorem exec_waybillReadFail_second (h3 : (mget (0, 0) s.dev.adm.reading j.val).2 = 3) :
    exec (.waybillReadFail j) s = .next { s with dev := (s.dev.ringDisabled j.val).ringFailed (F.JR_HSTAT_DMA_FAIL j.val) j.val Rsn.dmaFail } := by
  refine congrArg (fun d : Dev => Host.Outcome.next { s with dev := d }) ?_
  exact (if_neg (by omega)).trans (if_pos h3)

end

theorem Dev.regsBut_ringDisabled (d : Dev) (j : Nat) : d.regsBut (d.ringDisabled j) [R.HST_DMA_FAILCNT, R.JR_SQCFG j] := by
  have hread : d.regsBut (d.readSt j (0, 0)) [R.HST_DMA_FAILCNT, R.JR_SQCFG j] := .of_regs rfl _
  exact (hread.addSat (f := F.HST_DMA_FAILCNT_FAILED) (by simp) 1).setFlag (f := F.JR_SQCFG_EN j) (by simp) false

/-- The clause on a second failure. -/
theorem Dev.ringDisabled_shows (d : Dev) {j : Nat} (hj : j < 512) {e : Dev}
    (he : e = (d.ringDisabled j).ringFailed (F.JR_HSTAT_DMA_FAIL j) j Rsn.dmaFail) :
    mget (0, 0) e.adm.reading j = (0, 0) ∧ e.flag (F.JR_SQCFG_EN j) = false ∧ e.flag (F.JR_HSTAT_DMA_FAIL j) = true ∧
    e.fld (F.JR_HSTAT_REASON j) = 0xB002 ∧ bitOf (e.reg R.HST_ISR0) 22 = true ∧
    d.regsBut e (R.HST_DMA_FAILCNT :: R.JR_SQCFG j :: R.JR_HSTAT j :: R.HST_ERR :: irqRegs) ∧
    e = { d with regs := e.regs, out := e.out, adm := e.adm } := by
  obtain ⟨hflag, hreason, -, -, hirq, hregs⟩ := (d.ringDisabled j).ringFailed_shows j Rsn.dmaFail (g := F.JR_HSTAT_DMA_FAIL j) rfl rfl (show 1 < 16 by decide) hj
  have hframe := (d.ringDisabled j).ringFailed_frame (F.JR_HSTAT_DMA_FAIL j) j Rsn.dmaFail
  rw [← he] at hflag hreason hirq hregs hframe
  have hoff : (d.ringDisabled j).flag (F.JR_SQCFG_EN j) = false := Dev.flag_setFlag_same _ _ _ (show 31 < 32 by decide) rfl
  refine ⟨?_, (hregs.flag ?_).trans hoff, hflag, hreason, hirq, ((d.regsBut_ringDisabled j).mono ?_).trans (hregs.mono ?_), ?_⟩
  · rw [hframe]
    exact (mget_mset (0, 0) d.adm.reading j j (0, 0)).trans (if_pos rfl)
  · simp only [ringErrRegs, irqRegs, R.JR_SQCFG, R.JR_HSTAT, R.HST_ERR, R.HST_ISR0, R.HST_ISR1, R.MSIX_PBA, List.mem_cons, List.not_mem_nil, or_false]
    omega
  · simp
  · simp [ringErrRegs]
  · rw [hframe]
    rfl

/-! ## Ring enables (R275, R286, R319, R394) -/

theorem slice_and_of_high {w m : Word} {hi lo : Nat} (h : ∀ i, i < hi + 1 - lo → m.getLsbD (lo + i) = true) : slice (w &&& m) hi lo = slice w hi lo := by
  refine Nat.eq_of_testBit_eq fun i => ?_
  rw [testBit_slice, testBit_slice, BitVec.getLsbD_and]
  by_cases hi' : i < hi + 1 - lo
  · rw [h i hi', Bool.and_true]
  · simp [hi']

/-- The bits of JR_SQCFG that are implemented. -/
theorem slice_sqcfg_cq (w : Word) : slice (w &&& 0x800F000F#32) 19 16 = slice w 19 16 :=
  slice_and_of_high (by decide)

theorem slice_sqcfg_n (w : Word) : slice (w &&& 0x800F000F#32) 3 0 = slice w 3 0 := slice_and_of_high (by decide)

theorem bitOf_sqcfg_en (w : Word) : bitOf (w &&& 0x800F000F#32) 31 = bitOf w 31 := by
  unfold bitOf
  rw [BitVec.getLsbD_and]
  simp

theorem Dev.winOf_sqcfg (d : Dev) (w : Word) : d.winOf (w &&& 0x800F000F#32) = d.winOf w := by rw [Dev.winOf, slice_sqcfg_n, Dev.winOf]

/-- A ring enabled: its register, its queue, and its window cut. -/
def Dev.ringOn (d : Dev) (j : Nat) (w : Word) : Dev :=
  let d := (d.setReg (R.JR_SQCFG j) (w &&& 0x800F000F#32)).nameRing j (slice w 19 16)
  { d with adm := { d.adm with win := mset [] d.adm.win j ((mget [] d.adm.win j).take (d.winOf w)) } }

/-- A ring disabled: what it has read comes back, and its enable is 0. -/
def Dev.ringOff (d : Dev) (j : Nat) : Dev :=
  let n := (d.readyOf j).length
  let d := { d with adm := { d.adm with reading := mset (0, 0) d.adm.reading j (0, 0), ready := mset [] d.adm.ready j [] } }
  let d := if d.hostSpi then d else d.setNum (R.JR_SQHEAD j) ((d.num (R.JR_SQHEAD j) + 2 ^ 32 - n) % 2 ^ 32)
  d.setFlag (F.JR_SQCFG_EN j) false

section
variable {s : State} {p : Port} {j : Fin 512} {w : Word} (hg : s.dev.gate p (R.JR_SQCFG j.val) = .pass)
include hg

theorem exec_sqEnable_fits (hon : s.dev.flag (F.JR_SQCFG_EN j.val) = false) (hw : bitOf w 31 = true) (hfit : s.dev.winTotal + s.dev.winOf w ≤ 131072) :
    exec (.sqEnable p j w) s = .next { s with dev := s.dev.ringOn j.val w } := by
  refine congrArg (fun d : Dev => Host.Outcome.next { s with dev := d }) ?_
  refine (Dev.viaPort_of_pass hg fun d => d.writeSqcfg j.val w).trans ?_
  refine (if_neg (by simp [hon])).trans ((if_neg ?_).trans ?_)
  · rw [Dev.winOf_sqcfg]
    simp [hfit]
  · refine (if_pos (by rw [bitOf_sqcfg_en, hw])).trans ?_
    unfold Dev.ringOn
    rw [slice_sqcfg_cq, Dev.winOf_sqcfg]

theorem exec_sqEnable_full (hon : s.dev.flag (F.JR_SQCFG_EN j.val) = false) (hw : bitOf w 31 = true) (hfit : ¬ s.dev.winTotal + s.dev.winOf w ≤ 131072) :
    exec (.sqEnable p j w) s = .next { s with dev := s.dev.ringErr j.val Rsn.ldgWindowFull } := by
  refine congrArg (fun d : Dev => Host.Outcome.next { s with dev := d }) ?_
  refine (Dev.viaPort_of_pass hg fun d => d.writeSqcfg j.val w).trans ?_
  refine (if_neg (by simp [hon])).trans (if_pos ?_)
  rw [Dev.winOf_sqcfg, bitOf_sqcfg_en, hw]
  simpa using hfit

theorem exec_sqEnable_again (hon : s.dev.flag (F.JR_SQCFG_EN j.val) = true) (hw : bitOf w 31 = true) : exec (.sqEnable p j w) s = .next s := by
  refine congrArg (fun d : Dev => Host.Outcome.next { s with dev := d }) ?_
  exact (Dev.viaPort_of_pass hg fun d => d.writeSqcfg j.val w).trans ((if_pos hon).trans (if_pos hw))

theorem exec_sqEnable_off (hon : s.dev.flag (F.JR_SQCFG_EN j.val) = true) (hw : bitOf w 31 = false) :
    exec (.sqEnable p j w) s = .next { s with dev := s.dev.ringOff j.val } := by
  refine congrArg (fun d : Dev => Host.Outcome.next { s with dev := d }) ?_
  exact (Dev.viaPort_of_pass hg fun d => d.writeSqcfg j.val w).trans ((if_pos hon).trans (if_neg (by simp [hw])))

end

/-! ### What an enable gives a ring -/

/-- The entries owed to a ring come off the list of owed entries. -/
def Dev.ringNamed (d : Dev) (j q : Nat) : Dev :=
  { d with hst := { d.hst with cqOf := mset 0 d.hst.cqOf j (q + 1), owed := d.hst.owed.filter (fun e => e.1 != j) } }

theorem Dev.nameRing_none {d : Dev} {j q : Nat} (h : d.owedOf j q = []) : d.nameRing j q = d.ringNamed j q := if_pos (by simp [h])

theorem Dev.nameRing_owed {d : Dev} {j q : Nat} (h : d.owedOf j q ≠ []) : d.nameRing j q =
    ((d.ringNamed j q).setCq q ((d.cq q).again (d.owedOf j q))).setFlag (F.HST_CQ_STAT_REDELIVERING q) (d.flag (F.HST_CQ_CFG_EN q)) :=
  if_neg (by simpa using h)

/-- What a ring named by a queue leaves. -/
structure Dev.RingNamed (d e : Dev) (j q : Nat) : Prop where
  regs : d.regsBut e [R.HST_CQ_STAT q]
  owed : e.hst.owed = d.hst.owed.filter (fun x => x.1 != j)
  queues : d.owedOf j q = [] → ∀ i, e.cq i = d.cq i
  queue : d.owedOf j q ≠ [] → (e.cq q).wait = ((d.cq q).again (d.owedOf j q)).wait
  frame : e = { d with regs := e.regs, hst := e.hst }

theorem Dev.nameRing_names (d : Dev) (j q : Nat) : d.RingNamed (d.nameRing j q) j q := by
  by_cases h : d.owedOf j q = []
  · rw [Dev.nameRing_none h]
    exact ⟨.of_regs rfl _, rfl, fun _ _ => rfl, fun hn => absurd h hn, rfl⟩
  · rw [Dev.nameRing_owed h]
    refine ⟨?_, rfl, fun hn => absurd hn h, fun _ => ?_, rfl⟩
    · have hnamed : d.regsBut (d.ringNamed j q) [R.HST_CQ_STAT q] := .of_regs rfl _
      exact (hnamed.setCq q _).setFlag (f := F.HST_CQ_STAT_REDELIVERING q) (by simp) _
    · exact congrArg CqSt.wait ((mget_mset _ _ _ _ _).trans (if_pos rfl))

theorem Dev.ringOn_shows (d : Dev) (j : Nat) (w : Word) {e : Dev} (he : e = d.ringOn j w) :
    e.reg (R.JR_SQCFG j) = w &&& 0x800F000F ∧ d.regsBut e [R.JR_SQCFG j, R.HST_CQ_STAT (slice w 19 16)] ∧
    (∀ x ∈ e.hst.owed, x.1 ≠ j) ∧ (∀ x ∈ d.hst.owed, x.1 ≠ j → x ∈ e.hst.owed) ∧
    (d.owedOf j (slice w 19 16) = [] → ∀ q, e.cq q = d.cq q) ∧
    (d.owedOf j (slice w 19 16) ≠ [] → (e.cq (slice w 19 16)).wait = ((d.cq (slice w 19 16)).again (d.owedOf j (slice w 19 16))).wait) ∧
    mget [] e.adm.win j = (mget [] d.adm.win j).take (d.winOf w) ∧
    e = { d with regs := e.regs, hst := e.hst, adm := { d.adm with win := e.adm.win } } := by
  have hnamed := (d.setReg (R.JR_SQCFG j) (w &&& 0x800F000F#32)).nameRing_names j (slice w 19 16)
  generalize hn : (d.setReg (R.JR_SQCFG j) (w &&& 0x800F000F#32)).nameRing j (slice w 19 16) = n at hnamed
  have hset : d.regsBut (d.setReg (R.JR_SQCFG j) (w &&& 0x800F000F#32)) [R.JR_SQCFG j, R.HST_CQ_STAT (slice w 19 16)] :=
    (Dev.regsBut.refl d _).setReg (by simp) _
  have hall := hset.trans (hnamed.regs.mono (by simp))
  have hspi : n.hostSpi = d.hostSpi := hall.flag (f := F.SUP_STRAP_HOSTSEL) (by
    simp only [R.JR_SQCFG, R.HST_CQ_STAT, R.SUP_STRAP, List.mem_cons, List.not_mem_nil, or_false]
    omega)
  have hwin : n.winOf w = d.winOf w := by rw [Dev.winOf, hspi, Dev.winOf]
  have heq : e = { n with adm := { n.adm with win := mset [] n.adm.win j ((mget [] n.adm.win j).take (d.winOf w)) } } := by
    rw [he, Dev.ringOn, hn, hwin]
  have hadm : n.adm = d.adm := by rw [hnamed.frame]; rfl
  rw [hadm] at heq
  have hregs : e.regs = n.regs := by rw [heq]
  have hhst : e.hst = n.hst := by rw [heq]
  have hcq : ∀ q, e.cq q = n.cq q := fun q => by rw [Dev.cq, hhst, Dev.cq]
  have howed : e.hst.owed = d.hst.owed.filter (fun x => x.1 != j) := by rw [hhst, hnamed.owed]; rfl
  have howedOf : (d.setReg (R.JR_SQCFG j) (w &&& 0x800F000F#32)).owedOf j (slice w 19 16) = d.owedOf j (slice w 19 16) := rfl
  refine ⟨?_, hall.trans (.of_regs hregs _), fun x hx => ?_, fun x hx hne => ?_, fun h q => ?_, fun h => ?_, ?_, ?_⟩
  · rw [reg_congr hregs, hnamed.regs _ (by simp only [R.JR_SQCFG, R.HST_CQ_STAT, List.mem_cons, List.not_mem_nil, or_false]; omega),
      Dev.reg_setReg, if_pos rfl]
    rfl
  · rw [howed] at hx
    simpa using (List.mem_filter.1 hx).2
  · rw [howed]
    exact List.mem_filter.2 ⟨hx, by simpa using hne⟩
  · rw [hcq, hnamed.queues (howedOf.trans h)]
    rfl
  · rw [hcq, hnamed.queue (by rw [howedOf]; exact h), howedOf]
    rfl
  · rw [heq]
    exact (mget_mset _ _ _ _ _).trans (if_pos rfl)
  · rw [hregs, hhst, heq, hnamed.frame]
    rfl

/-- The reads of a ring are dropped, and its head count goes back over those not examined. -/
def Dev.readsDropped (d : Dev) (j : Nat) : Dev :=
  let n := (d.readyOf j).length
  let d := { d with adm := { d.adm with reading := mset (0, 0) d.adm.reading j (0, 0), ready := mset [] d.adm.ready j [] } }
  if d.hostSpi then d else d.setNum (R.JR_SQHEAD j) ((d.num (R.JR_SQHEAD j) + 2 ^ 32 - n) % 2 ^ 32)

theorem Dev.readsDropped_drops (d : Dev) (j : Nat) :
    (d.readsDropped j).readyOf j = [] ∧ mget (0, 0) (d.readsDropped j).adm.reading j = (0, 0) ∧ d.regsBut (d.readsDropped j) [R.JR_SQCFG j, R.JR_SQHEAD j] ∧
    d.readsDropped j = { d with regs := (d.readsDropped j).regs, adm := (d.readsDropped j).adm } := by
  have hready : mget [] (mset [] d.adm.ready j []) j = [] := (mget_mset _ _ _ _ _).trans (if_pos rfl)
  have hread : mget (0, 0) (mset (0, 0) d.adm.reading j (0, 0)) j = (0, 0) := (mget_mset _ _ _ _ _).trans (if_pos rfl)
  unfold Dev.readsDropped
  dsimp only
  split
  · exact ⟨hready, hread, .of_regs rfl _, rfl⟩
  · exact ⟨hready, hread, (Dev.regsBut.of_regs rfl _).setNum (by simp) _, rfl⟩

theorem Dev.ringOff_shows (d : Dev) (j : Nat) {e : Dev} (he : e = d.ringOff j) :
    e.flag (F.JR_SQCFG_EN j) = false ∧ e.readyOf j = [] ∧ mget (0, 0) e.adm.reading j = (0, 0) ∧ e.jobs = d.jobs ∧
    d.regsBut e [R.JR_SQCFG j, R.JR_SQHEAD j] ∧ e = { d with regs := e.regs, out := e.out, adm := e.adm } := by
  obtain ⟨hready, hread, hregs, hframe⟩ := d.readsDropped_drops j
  have heq : e = (d.readsDropped j).setFlag (F.JR_SQCFG_EN j) false := he
  generalize d.readsDropped j = n at *
  rw [heq]
  refine ⟨Dev.flag_setFlag_same _ _ _ (show 31 < 32 by decide) rfl, hready, hread, ?_, hregs.setFlag (f := F.JR_SQCFG_EN j) (by simp) _, ?_⟩
  · rw [hframe]
    rfl
  · rw [hframe]
    rfl

/-! ## HOST_GO and HST_SUBGO (R293, R301) -/

theorem exec_hostGo {s : State} {p : Port} (hg : s.dev.gate p R.HST_CTRL = .pass) : exec (.hostGo p) s = .next { s with dev := { s.dev with hst :=
    { s.dev.hst with goDue := s.dev.hst.goDue || (s.dev.hst.held && s.dev.isMgr) } } } := by
  refine congrArg (fun d : Dev => Host.Outcome.next { s with dev := d }) ?_
  refine (Dev.viaPort_of_pass hg fun d => d.writeHstCtrl 1).trans ?_
  unfold Dev.writeHstCtrl
  cases s.dev.hst.held <;> cases s.dev.isMgr <;> simp [bitOf]

section
variable {s : State} {p : Port} (hg : s.dev.gate p R.HST_SUBGO = .pass) (j : Fin 512)
include hg

/-- The waybill of HST_SUBW announced on ring `j`. -/
def Dev.subAnnounced (d : Dev) (j : Nat) : Dev := { d with hst := { d.hst with subRing := some j, subDue := true } }.setFlag F.HST_SUBSTAT_BUSY true

theorem exec_hstSubgo (hspi : s.dev.flag F.SUP_STRAP_HOSTSEL = true) (hb : s.dev.flag F.HST_SUBSTAT_BUSY = false) :
    exec (.hstSubgo p j) s = .next { s with dev := s.dev.subAnnounced j.val } := by
  refine congrArg (fun d : Dev => Host.Outcome.next { s with dev := d }) ?_
  exact (Dev.viaPort_of_pass hg fun d => d.writeSubgo j.val).trans (if_neg (by simp [Dev.hostSpi, hspi, hb]))

theorem exec_hstSubgo_idle (h : s.dev.flag F.SUP_STRAP_HOSTSEL = false ∨ s.dev.flag F.HST_SUBSTAT_BUSY = true) : exec (.hstSubgo p j) s = .next s := by
  refine congrArg (fun d : Dev => Host.Outcome.next { s with dev := d }) ?_
  exact (Dev.viaPort_of_pass hg fun d => d.writeSubgo j.val).trans (if_pos (by obtain h | h := h <;> simp [Dev.hostSpi, h]))

end

theorem Dev.subAnnounced_shows (d : Dev) (j : Nat) : (d.subAnnounced j).flag F.HST_SUBSTAT_BUSY = true ∧ d.regsBut (d.subAnnounced j) [R.HST_SUBSTAT] := by
  have hset : d.regsBut { d with hst := { d.hst with subRing := some j, subDue := true } } [R.HST_SUBSTAT] := .of_regs rfl _
  exact ⟨Dev.flag_setFlag_same _ _ _ (by decide) rfl, hset.setFlag (f := F.HST_SUBSTAT_BUSY) (by simp) true⟩

/-! ## The obligation -/

/-- Settles O34: doorbells, reads, enables and submissions, each by its own lemma. -/
theorem submissionRingsServed : Obligations.SubmissionRingsServed := by
  intro s j n k regsAdm
  have hj : j.val < 512 := j.isLt
  refine ⟨fun p w hg hspi => ⟨fun hm hiso => exec_doorbellWrite_held hg hspi w hm hiso, fun hm hopen => ?_⟩, fun ws hk => ?_,
    fun h1 h3 => exec_waybillRead_idle h1 h3, fun h1 => ?_, fun h3 => ?_, fun p w hg => ⟨fun hon hw hfit => ?_, fun hon hw hfit => ?_,
      fun hon hw => exec_sqEnable_again hg hon hw, fun hon hw => ?_⟩,
    fun p hg => exec_hostGo hg, fun p hg => ⟨fun hspi hb => ?_, fun h => exec_hstSubgo_idle hg j h⟩⟩
  · obtain ⟨hflag, hreason, herr, hjob, hirq, hregs⟩ :=
      s.dev.ringFailed_shows j.val Rsn.notActive (g := F.JR_HSTAT_DB_REFUSED j.val) rfl rfl (show 0 < 16 by decide) hj
    have hframe := s.dev.ringFailed_frame (F.JR_HSTAT_DB_REFUSED j.val) j.val Rsn.notActive
    have hexec := exec_doorbellWrite_refused hg hspi w hm hopen
    generalize s.dev.ringFailed (F.JR_HSTAT_DB_REFUSED j.val) j.val Rsn.notActive = e at *
    have hadm : e.adm = s.dev.adm := by rw [hframe]
    refine ⟨_, hexec, hflag, hreason, herr, hjob, hirq, ⟨hregs, ?_⟩, hadm⟩
    refine congrArg (fun d : Dev => { s with dev := d }) (hframe.trans ?_)
    rw [hadm]
  · obtain ⟨hready, hread, hhead, hothers, hregs⟩ := s.dev.readTaken_shows j.val n ws
    exact ⟨_, exec_waybillReadComplete hk ws, hready, hread, hhead, hothers, hregs, rfl⟩
  · have hread : s.dev.regsBut (s.dev.readSt j.val (n, 2)) [R.HST_DMA_FAILCNT] := .of_regs rfl _
    exact ⟨_, exec_waybillReadFail_first h1, (mget_mset _ _ _ _ _).trans (if_pos rfl), hread.addSat (f := F.HST_DMA_FAILCNT_FAILED) (by simp) 1, rfl⟩
  · obtain ⟨hread, hen, hflag, hreason, hirq, hregs, hframe⟩ := s.dev.ringDisabled_shows hj rfl
    have hexec := exec_waybillReadFail_second h3
    generalize (s.dev.ringDisabled j.val).ringFailed (F.JR_HSTAT_DMA_FAIL j.val) j.val Rsn.dmaFail = e at *
    exact ⟨_, hexec, hread, hen, hflag, hreason, hirq, hregs, congrArg (fun d : Dev => { s with dev := d }) hframe⟩
  · obtain ⟨hreg, hregs, hmine, hothers, hnone, howed, hwin, hframe⟩ := s.dev.ringOn_shows j.val w rfl
    have hexec := exec_sqEnable_fits hg hon hw hfit
    generalize s.dev.ringOn j.val w = e at *
    exact ⟨_, hexec, hreg, hregs, hmine, hothers, hnone, howed, hwin, congrArg (fun d : Dev => { s with dev := d }) hframe⟩
  · exact ⟨_, exec_sqEnable_full hg hon hw hfit, Dev.fld_setFld_of_lt _ (show 31 < 32 by decide) (Rsn.ldgWindowFull).isLt,
      ⟨(Dev.regsBut.refl s.dev _).setFld (f := F.JR_HSTAT_REASON j.val) (by simp) _, rfl⟩, rfl⟩
  · obtain ⟨hen, hready, hread, hjobs, hregs, hframe⟩ := s.dev.ringOff_shows j.val rfl
    have hexec := exec_sqEnable_off hg hon hw
    generalize s.dev.ringOff j.val = e at *
    exact ⟨_, hexec, hen, hready, hread, hjobs, hregs, congrArg (fun d : Dev => { s with dev := d }) hframe⟩
  · obtain ⟨hbusy, hregs⟩ := s.dev.subAnnounced_shows j.val
    exact ⟨_, exec_hstSubgo hg j hspi hb, hbusy, rfl, hregs, rfl⟩

end Sys2Proof.Machine
end

section

/-!
PROOF. Assay procedures: their commands, attempts and ends (17_assay.md R819 to R829, R833, Table ASY-4a).
-/

namespace Sys2Proof.Machine
open Sys2Proof

/-! ## Words of ASY_CMD -/

theorem slice_or (a b : Word) (hi lo : Nat) : slice (a ||| b) hi lo = slice a hi lo ||| slice b hi lo := by
  refine Nat.eq_of_testBit_eq fun i => ?_
  rw [Nat.testBit_or, testBit_slice, testBit_slice, testBit_slice, BitVec.getLsbD_or, Bool.and_or_distrib_left]

theorem bitOf_or (a b : Word) (k : Nat) : bitOf (a ||| b) k = (bitOf a k || bitOf b k) := BitVec.getLsbD_or

theorem bitOf_of_lt {w : Word} {k : Nat} (h : w.toNat < 2 ^ k) : bitOf w k = false := by
  unfold bitOf
  rw [← BitVec.testBit_toNat]
  exact Nat.testBit_lt_two_pow h

theorem slice_eq_div (w : Word) (hi lo : Nat) : slice w hi lo = w.toNat / 2 ^ lo % 2 ^ (hi + 1 - lo) := by rw [slice, Nat.shiftRight_eq_div_pow]

/-- A word of ASY_CMD with GO, and without ABORT. -/
structure AsyGo (w : Word) (proc target loopIn : Nat) : Prop where
  go : bitOf w 31 = true
  abort : bitOf w 30 = false
  proc : slice w 3 0 = proc
  target : slice w 11 4 = target
  loopIn : slice w 15 12 = loopIn

theorem toNat_asyTarget (g : BitVec 8) : (g.setWidth 32 <<< 4).toNat = g.toNat * 16 := by
  have hg : g.toNat < 256 := g.isLt
  rw [BitVec.toNat_shiftLeft, BitVec.toNat_setWidth, Nat.shiftLeft_eq]
  omega

theorem AsyGo.target_or {w : Word} {proc : Nat} (h : AsyGo w proc 0 0) (g : BitVec 8) : AsyGo (w ||| g.setWidth 32 <<< 4) proc g.toNat 0 := by
  have hg : g.toNat < 256 := g.isLt
  have hn := toNat_asyTarget g
  have hslice : ∀ hi lo, slice (g.setWidth 32 <<< 4) hi lo = g.toNat * 16 / 2 ^ lo % 2 ^ (hi + 1 - lo) := fun hi lo => by rw [slice_eq_div, hn]
  refine ⟨by rw [bitOf_or, h.go, Bool.true_or], by rw [bitOf_or, h.abort, bitOf_of_lt (by omega)]; rfl, ?_, ?_, ?_⟩
  · rw [slice_or, h.proc, hslice, show g.toNat * 16 / 2 ^ 0 % 2 ^ (3 + 1 - 0) = 0 by omega, Nat.or_zero]
  · rw [slice_or, h.target, hslice, show g.toNat * 16 / 2 ^ 4 % 2 ^ (11 + 1 - 4) = g.toNat by omega, Nat.zero_or]
  · rw [slice_or, h.loopIn, hslice, show g.toNat * 16 / 2 ^ 12 % 2 ^ (15 + 1 - 12) = 0 by omega, Nat.zero_or]

theorem AsyGo.loop_or {w : Word} {proc target : Nat} (h : AsyGo w proc target 0) (i : Fin 16) :
    AsyGo (w ||| BitVec.ofNat 32 (i.val * 4096)) proc target i.val := by
  have hi : i.val < 16 := i.isLt
  have hn : (BitVec.ofNat 32 (i.val * 4096)).toNat = i.val * 4096 := by rw [BitVec.toNat_ofNat]; omega
  have hslice : ∀ hi lo, slice (BitVec.ofNat 32 (i.val * 4096)) hi lo = i.val * 4096 / 2 ^ lo % 2 ^ (hi + 1 - lo) := fun hi lo => by rw [slice_eq_div, hn]
  refine ⟨by rw [bitOf_or, h.go, Bool.true_or], by rw [bitOf_or, h.abort, bitOf_of_lt (by omega)]; rfl, ?_, ?_, ?_⟩
  · rw [slice_or, h.proc, hslice, show i.val * 4096 / 2 ^ 0 % 2 ^ (3 + 1 - 0) = 0 by omega, Nat.or_zero]
  · rw [slice_or, h.target, hslice, show i.val * 4096 / 2 ^ 4 % 2 ^ (11 + 1 - 4) = 0 by omega, Nat.or_zero]
  · rw [slice_or, h.loopIn, hslice, show i.val * 4096 / 2 ^ 12 % 2 ^ (15 + 1 - 12) = i.val by omega, Nat.zero_or]

theorem asyGo_one : AsyGo 0x80000001 1 0 0 := ⟨by decide, by decide, by decide, by decide, by decide⟩
theorem asyGo_two : AsyGo 0x80000002 2 0 0 := ⟨by decide, by decide, by decide, by decide, by decide⟩
theorem asyGo_three : AsyGo 0x80000003 3 0 0 := ⟨by decide, by decide, by decide, by decide, by decide⟩
theorem asyGo_four : AsyGo 0x80000004 4 0 0 := ⟨by decide, by decide, by decide, by decide, by decide⟩

/-! ## What ASY_STAT shows -/

/-- The procedure that runs, 0 for none. -/
def Dev.procRunning (d : Dev) : Nat := (d.asy.run.map AsyRun.proc).getD 0

theorem Dev.asyShow_eq (d : Dev) : d.asyShow =
    (((d.setFlag F.ASY_STAT_BUSY d.asy.run.isSome).setFld F.ASY_STAT_PROC d.procRunning)).setFlag F.ASY_STAT_RANGE_HELD !d.asy.range.isEmpty := by
  unfold Dev.asyShow Dev.procRunning
  cases d.asy.run <;> rfl

theorem Dev.regsBut_asyShow (d : Dev) : d.regsBut d.asyShow [R.ASY_STAT] := by
  rw [Dev.asyShow_eq]
  exact (((Dev.regsBut.refl d _).setFlag (f := F.ASY_STAT_BUSY) (by simp) _).setFld (f := F.ASY_STAT_PROC) (by simp) _).setFlag
    (f := F.ASY_STAT_RANGE_HELD) (by simp) _

theorem Dev.asyShow_frame (d : Dev) : d.asyShow = { d with regs := d.asyShow.regs } := by
  rw [Dev.asyShow_eq]
  rfl

/-- The other fields of ASY_STAT stay. -/
theorem Dev.fld_asyShow (d : Dev) {g : Fld} (hg : g.hi < 32) (hlo : 3 < g.lo) (h9 : g.hi < 9 ∨ 9 < g.lo) : d.asyShow.fld g = d.fld g := by
  rw [Dev.asyShow_eq, Dev.fld_setFlag_ne _ _ _ _ hg (.inr h9), Dev.fld_setFld_ne _ _ _ _ hg (.inr (.inr hlo)),
    Dev.fld_setFlag_ne _ _ _ _ hg (.inr (.inr (show 0 < g.lo by omega)))]

theorem Dev.busy_asyShow (d : Dev) : d.asyShow.flag F.ASY_STAT_BUSY = d.asy.run.isSome := by
  rw [Dev.asyShow_eq, Dev.flag_setFlag_ne _ _ _ _ (by decide) (by decide), Dev.flag_setFld_ne _ _ _ _ (by decide) (by decide)]
  exact Dev.flag_setFlag_same _ _ _ (by decide) rfl

theorem Dev.proc_asyShow {d : Dev} (h : d.procRunning < 8) : d.asyShow.fld F.ASY_STAT_PROC = d.procRunning := by
  rw [Dev.asyShow_eq, Dev.fld_setFlag_ne _ _ _ _ (by decide) (by decide)]
  exact Dev.fld_setFld_of_lt _ (by decide) h

theorem Dev.rangeHeld_asyShow (d : Dev) : d.asyShow.flag F.ASY_STAT_RANGE_HELD = !d.asy.range.isEmpty := by
  rw [Dev.asyShow_eq]
  exact Dev.flag_setFlag_same _ _ _ (by decide) rfl

/-! ## The end of a procedure (R826) -/

/-- A completed or failed RSKEW keeps or drops the positions that wait for one. -/
def Dev.skewClosed (d : Dev) (scope : Option Nat) (r : Reason) : Dev :=
  match scope with
  | some m =>
    let left := if r = Rsn.ok then d.asy.rskewPend.filter (fun p => !m.testBit p) else d.asy.rskewPend
    let due := if r = Rsn.ok then d.asy.rskewDue else d.now + 65536
    { d with asy := { d.asy with rskewPend := left, rskewDue := due } }.setFlag F.ASY_STAT_RSKEW_PEND (!left.isEmpty)
  | none => d

/-- The positions of a running RSKEW. -/
def Dev.skewScope (d : Dev) : Option Nat :=
  match d.asy.run with
  | some a => if a.proc = 4 then some a.target else none
  | none => none

/-- The procedure comes off. -/
def Dev.runClosed (d : Dev) (r : Reason) : Dev := { d with asy := { d.asy with run := none, applyDue := none } }.skewClosed d.skewScope r

/-- The result of a procedure is told. -/
def Dev.resultTold (d : Dev) (r : Reason) : Dev := (d.asyResult r).raiseIrq 23

theorem Dev.asyEnd_eq (d : Dev) (r : Reason) : d.asyEnd r = ((d.runClosed r).resultTold r).asyShow := rfl

/-- What the end of a procedure leaves. -/
structure Dev.AsyClosed (d e : Dev) : Prop where
  run : e.asy.run = none
  due : e.asy.applyDue = none
  coef : e.asy.coef = d.asy.coef
  range : e.asy.range = d.asy.range
  frame : e = { d with regs := e.regs, asy := e.asy, out := e.out }

theorem Dev.runClosed_closes (d : Dev) (r : Reason) : d.AsyClosed (d.runClosed r) ∧ d.regsBut (d.runClosed r) [R.ASY_STAT] := by
  unfold Dev.runClosed Dev.skewClosed
  cases d.skewScope with
  | none => exact ⟨⟨rfl, rfl, rfl, rfl, rfl⟩, .of_regs rfl _⟩
  | some m =>
    refine ⟨⟨rfl, rfl, rfl, rfl, rfl⟩, ?_⟩
    exact (Dev.regsBut.of_regs rfl _).setFlag (f := F.ASY_STAT_RSKEW_PEND) (by simp) _

theorem Dev.AsyClosed.of_frame {d e f : Dev} (h : d.AsyClosed e) (hf : f = { e with regs := f.regs, out := f.out }) : d.AsyClosed f := by
  have hasy : f.asy = e.asy := by rw [hf]
  exact ⟨hasy ▸ h.run, hasy ▸ h.due, hasy ▸ h.coef, hasy ▸ h.range, by rw [hasy]; exact hf.trans (by rw [h.frame])⟩

theorem Dev.resultTold_tells (d : Dev) (r : Reason) :
    (d.resultTold r).fld F.ASY_STAT_RESULT = r.toNat ∧ bitOf ((d.resultTold r).reg R.HST_ISR0) 23 = true ∧
    d.regsBut (d.resultTold r) (R.ASY_STAT :: irqRegs) ∧ d.resultTold r = { d with regs := (d.resultTold r).regs, out := (d.resultTold r).out } := by
  refine ⟨?_, Dev.isr_raiseIrq _ 23 (by decide), ?_, ?_⟩
  · rw [Dev.resultTold, Dev.fld_raiseIrq _ _ _ (by decide) (by decide)]
    exact Dev.fld_setFld_of_lt d (by decide) r.isLt
  · exact ((Dev.regsBut.refl d _).setFld (f := F.ASY_STAT_RESULT) (by simp) _).raiseIrq (fun _ h => List.mem_cons_of_mem _ h) 23
  · unfold Dev.resultTold
    rw [Dev.raiseIrq_frame]
    rfl

theorem Dev.asyEnd_ends (d : Dev) (r : Reason) :
    d.AsyClosed (d.asyEnd r) ∧ d.regsBut (d.asyEnd r) (R.ASY_STAT :: irqRegs) ∧ (d.asyEnd r).fld F.ASY_STAT_RESULT = r.toNat ∧
    (d.asyEnd r).flag F.ASY_STAT_BUSY = false ∧ (d.asyEnd r).flag F.ASY_STAT_RANGE_HELD = !(d.asyEnd r).asy.range.isEmpty ∧
    bitOf ((d.asyEnd r).reg R.HST_ISR0) 23 = true := by
  obtain ⟨hclosed, hregs⟩ := d.runClosed_closes r
  obtain ⟨hresult, hirq, htold, hframe⟩ := (d.runClosed r).resultTold_tells r
  rw [Dev.asyEnd_eq]
  generalize (d.runClosed r).resultTold r = m at *
  have hm := hclosed.of_frame hframe
  have hshown := m.regsBut_asyShow
  have hasy : m.asyShow.asy = m.asy := by rw [m.asyShow_frame]
  refine ⟨hm.of_frame ?_, ?_, ?_, ?_, ?_, ?_⟩
  · rw [m.asyShow_frame]
  · exact ((hregs.mono (by simp)).trans htold).trans (hshown.mono (by simp))
  · exact (m.fld_asyShow (g := F.ASY_STAT_RESULT) (by decide) (by decide) (by decide)).trans hresult
  · exact m.busy_asyShow.trans (by rw [hm.run]; rfl)
  · exact m.rangeHeld_asyShow.trans (by rw [hasy])
  · rw [hshown _ (by decide)]
    exact hirq

/-! ## Commands (Table ASY-4a) -/

/-- An automatic procedure that runs gives way, and its input or its positions are put back in line. -/
def Dev.autoPutBack (d : Dev) : Dev :=
  match d.asy.run with
  | some r =>
    if r.proc = 2 then { d with asy := { d.asy with tdcLeft := r.target :: d.asy.tdcLeft } }
    else { d with asy := { d.asy with rskewPend := (d.asy.rskewPend ++ onesBelow 32 r.target).eraseDups, rskewDue := d.now } }
  | none => d

theorem Dev.autoPutBack_frame (d : Dev) : d.autoPutBack = { d with asy := d.autoPutBack.asy } := by
  unfold Dev.autoPutBack
  split
  · split <;> rfl
  · rfl

/-- A procedure admitted. -/
def Dev.asyAdmit (d : Dev) (proc target loopIn : Nat) : Dev :=
  d.autoPutBack.asyStart proc (if proc = 4 then d.autoPutBack.num R.ASY_RSCOPE else target) loopIn false

section
variable {d : Dev} {w : Word} {proc target loopIn : Nat} (h : AsyGo w proc target loopIn)
include h

theorem Dev.writeAsyCmd_refused {r : Reason} (hr : d.asyRefusal proc target loopIn = some r) : d.writeAsyCmd w = d.asyResult r := by
  unfold Dev.writeAsyCmd
  dsimp only
  rw [h.abort, h.go, h.proc, h.target, h.loopIn]
  simp only [Bool.false_eq_true, if_false, Bool.not_true]
  rw [hr]

theorem Dev.writeAsyCmd_admitted (hr : d.asyRefusal proc target loopIn = none) : d.writeAsyCmd w = d.asyAdmit proc target loopIn := by
  unfold Dev.writeAsyCmd
  dsimp only
  rw [h.abort, h.go, h.proc, h.target, h.loopIn]
  simp only [Bool.false_eq_true, if_false, Bool.not_true]
  rw [hr]
  rfl

end

theorem Dev.asyStart_starts (d : Dev) {proc : Nat} (hp : proc < 8) (target loopIn : Nat) (auto : Bool) {e : Dev} (he : e = d.asyStart proc target loopIn auto) :
    e.flag F.ASY_STAT_BUSY = true ∧ e.fld F.ASY_STAT_PROC = proc ∧ e.flag F.ASY_STAT_RSKEW_PEND = d.flag F.ASY_STAT_RSKEW_PEND ∧
    d.regsBut e [R.ASY_STAT] ∧
    e.asy.run = some { proc := proc, target := target, loopIn := loopIn, retryBn := some (d.now + 1), auto := auto } ∧
    e = { d with regs := e.regs, asy := e.asy } := by
  have hshow : e = Dev.asyShow { d with asy := { d.asy with run := some { proc := proc, target := target, loopIn := loopIn, retryBn := some (d.now + 1), auto := auto } } } := he
  generalize hm : ({ d with asy := { d.asy with run := some { proc := proc, target := target, loopIn := loopIn, retryBn := some (d.now + 1), auto := auto } } } : Dev) = m at hshow
  have hrun : m.asy.run = some { proc := proc, target := target, loopIn := loopIn, retryBn := some (d.now + 1), auto := auto } := by rw [← hm]
  have hregs : m.regs = d.regs := by rw [← hm]
  have hproc : m.procRunning = proc := by rw [Dev.procRunning, hrun]; rfl
  have hasy : m.asyShow.asy = m.asy := by rw [m.asyShow_frame]
  rw [hshow]
  refine ⟨by rw [m.busy_asyShow, hrun]; rfl, by rw [m.proc_asyShow (by omega), hproc], ?_, (Dev.regsBut.of_regs hregs _).trans m.regsBut_asyShow,
    by rw [hasy, hrun], ?_⟩
  · unfold Dev.flag
    rw [m.fld_asyShow (g := F.ASY_STAT_RSKEW_PEND) (by decide) (by decide) (by decide), Dev.fld_congr hregs]
  · rw [m.asyShow_frame, ← hm]

theorem Dev.asyAdmit_admits (d : Dev) {proc : Nat} (hp : proc < 8) (target loopIn : Nat) {e : Dev} (he : e = d.asyAdmit proc target loopIn) :
    e.flag F.ASY_STAT_BUSY = true ∧ e.fld F.ASY_STAT_PROC = proc ∧ d.regsBut e [R.ASY_STAT] ∧
    e.asy.run = some { proc := proc, target := if proc = 4 then d.num R.ASY_RSCOPE else target, loopIn := loopIn, retryBn := some (d.now + 1) } ∧
    e = { d with regs := e.regs, asy := e.asy } := by
  have hback := d.autoPutBack_frame
  have hregs : d.autoPutBack.regs = d.regs := by rw [hback]
  have hnow : d.autoPutBack.now = d.now := by rw [hback]; rfl
  have hscope : d.autoPutBack.num R.ASY_RSCOPE = d.num R.ASY_RSCOPE := by rw [hback]; rfl
  obtain ⟨hbusy, hproc, -, hstat, hrun, hframe⟩ := d.autoPutBack.asyStart_starts hp _ loopIn false he
  rw [hnow, hscope] at hrun
  exact ⟨hbusy, hproc, (Dev.regsBut.of_regs hregs _).trans hstat, hrun, hframe.trans (by rw [hback])⟩

theorem Dev.writeAsyCmd_abort (d : Dev) {w : Word} (habort : bitOf w 30 = true) (hgo : bitOf w 31 = false) : d.writeAsyCmd w = d.asyAbandon := by
  unfold Dev.writeAsyCmd
  dsimp only
  rw [hgo, habort]
  rfl

/-- What a command of a procedure leaves. -/
structure CommandAnswered (s : State) (x : Instr) (proc target loopIn : Nat) : Prop where
  refused : ∀ r, s.dev.asyRefusal proc target loopIn = some r → ∃ t, exec x s = .next t ∧ t.dev.fld F.ASY_STAT_RESULT = r.toNat ∧
    s.dev.regsBut t.dev [R.ASY_STAT] ∧ t = { s with dev := { s.dev with regs := t.dev.regs } }
  admitted : s.dev.asyRefusal proc target loopIn = none → ∃ t, exec x s = .next t ∧ t.dev.flag F.ASY_STAT_BUSY = true ∧
    t.dev.fld F.ASY_STAT_PROC = proc ∧ s.dev.regsBut t.dev [R.ASY_STAT] ∧
    t.dev.asy.run = some { proc := proc, target := if proc = 4 then s.dev.num R.ASY_RSCOPE else target, loopIn := loopIn, retryBn := some (s.dev.now + 1) } ∧
    t = { s with dev := { s.dev with regs := t.dev.regs, asy := t.dev.asy } }

theorem AsyGo.answered {s : State} {x : Instr} {w : Word} {proc target loopIn : Nat} (h : AsyGo w proc target loopIn) (hp : proc < 8)
    (hx : exec x s = .next { s with dev := s.dev.writeAsyCmd w }) : CommandAnswered s x proc target loopIn where
  refused := fun r hr => by
    rw [Dev.writeAsyCmd_refused h hr] at hx
    exact ⟨_, hx, Dev.fld_setFld_of_lt s.dev (by decide) r.isLt, (Dev.regsBut.refl s.dev _).setFld (f := F.ASY_STAT_RESULT) (by simp) _, rfl⟩
  admitted := fun hr => by
    rw [Dev.writeAsyCmd_admitted h hr] at hx
    obtain ⟨hbusy, hproc, hregs, hrun, hframe⟩ := s.dev.asyAdmit_admits hp target loopIn rfl
    generalize s.dev.asyAdmit proc target loopIn = e at *
    exact ⟨_, hx, hbusy, hproc, hregs, hrun, congrArg (fun d : Dev => { s with dev := d }) hframe⟩

section
variable {s : State} {p : Port} (hg : s.dev.gate p R.ASY_CMD = .pass)
include hg

theorem viaPort_asyCmd (w : Word) : (Host.Outcome.next { s with dev := s.dev.viaPort p R.ASY_CMD fun d => d.writeAsyCmd w } : Host.Outcome State Fault Refusal) =
    .next { s with dev := s.dev.writeAsyCmd w } := by rw [Dev.viaPort_of_pass hg fun d => d.writeAsyCmd w]

theorem commandAnswered_lines (g : BitVec 8) : CommandAnswered s (.asyCmdLines p g) 1 g.toNat 0 :=
  (asyGo_one.target_or g).answered (by decide) (viaPort_asyCmd hg _)

theorem commandAnswered_tdc (g : BitVec 8) : CommandAnswered s (.asyCmdTdc p g) 2 g.toNat 0 :=
  (asyGo_two.target_or g).answered (by decide) (viaPort_asyCmd hg _)

theorem commandAnswered_xloop (g : BitVec 8) (i : Fin 16) : CommandAnswered s (.asyCmdXloop p g i) 3 g.toNat i.val :=
  ((asyGo_three.target_or g).loop_or i).answered (by decide) (viaPort_asyCmd hg _)

theorem commandAnswered_rskew : CommandAnswered s (.asyCmdRskew p) 4 0 0 := asyGo_four.answered (by decide) (viaPort_asyCmd hg _)

/-- ABORT ends the procedure that runs. -/
theorem exec_asyCmdAbort : exec (.asyCmdAbort p) s = .next { s with dev := s.dev.asyAbandon } := by
  refine (viaPort_asyCmd hg _).trans ?_
  rw [Dev.writeAsyCmd_abort _ (by decide) (by decide)]

end

/-! ## Attempts that are disturbed (R822, R823) -/

theorem Dev.attempts_asyEnd (d : Dev) (r : Reason) : (d.asyEnd r).fld F.ASY_STAT_ATTEMPTS = d.fld F.ASY_STAT_ATTEMPTS := by
  have hclosed : (d.runClosed r).fld F.ASY_STAT_ATTEMPTS = d.fld F.ASY_STAT_ATTEMPTS := by
    unfold Dev.runClosed Dev.skewClosed
    cases d.skewScope with
    | none => rfl
    | some m => exact Dev.fld_setFlag_ne _ _ _ _ (by decide) (by decide)
  rw [Dev.asyEnd_eq, Dev.fld_asyShow _ (by decide) (by decide) (by decide), Dev.resultTold, Dev.fld_raiseIrq _ _ _ (by decide) (by decide),
    Dev.asyResult, Dev.fld_setFld_ne _ _ _ _ (by decide) (by decide), hclosed]

/-- The registers that a disturbed attempt writes. -/
def spoiltRegs (n : Nat) : List Nat := [R.ASY_STAT, R.ASY_DISTCNT, R.PO_EDGECNT n]

/-- What a disturbed attempt leaves. -/
structure Dev.AttemptSpoilt (d e : Dev) (r : AsyRun) : Prop where
  result : e.fld F.ASY_STAT_RESULT = 0x8001
  attempts : e.fld F.ASY_STAT_ATTEMPTS = d.fld F.ASY_STAT_ATTEMPTS
  regs : d.regsBut e (spoiltRegs r.target)
  asy : e.asy = { d.asy with applyDue := none }
  jobs : e.jobs = d.jobs
  now : e.now = d.now

theorem Dev.attemptDropped_spoilt (d : Dev) (r : AsyRun) : d.AttemptSpoilt (d.attemptDropped r) r := by
  have hdist : ((d.asyResult Rsn.asyDisturbed).addSat F.ASY_DISTCNT_DISTURBED 1).fld F.ASY_STAT_RESULT = 0x8001 :=
    (Dev.fld_setFld_ne _ _ _ _ (by decide) (by decide)).trans (Dev.fld_setFld_of_lt d (by decide) (by decide))
  have hatt : ((d.asyResult Rsn.asyDisturbed).addSat F.ASY_DISTCNT_DISTURBED 1).fld F.ASY_STAT_ATTEMPTS = d.fld F.ASY_STAT_ATTEMPTS :=
    (Dev.fld_setFld_ne _ _ _ _ (by decide) (by decide)).trans (Dev.fld_setFld_ne _ _ _ _ (by decide) (by decide))
  have hregs : d.regsBut ((d.asyResult Rsn.asyDisturbed).addSat F.ASY_DISTCNT_DISTURBED 1) (spoiltRegs r.target) :=
    ((Dev.regsBut.refl d _).setFld (f := F.ASY_STAT_RESULT) (by simp [spoiltRegs]) _).addSat (f := F.ASY_DISTCNT_DISTURBED) (by simp [spoiltRegs]) 1
  have hcount : (F.PO_EDGECNT_TRANSITIONS r.target).a ≠ R.ASY_STAT := by simp only [R.PO_EDGECNT, R.ASY_STAT]; omega
  unfold Dev.attemptDropped Dev.attemptSpoilt
  dsimp only
  split
  · have hpulses : ∀ (e : Dev) (n : Nat), e.regsBut (e.loopPulses r.target n) [R.PO_EDGECNT r.target] := fun e n => by
      have hdrawn : e.regsBut { e with draws := e.draws + 1 } [R.PO_EDGECNT r.target] := .of_regs rfl _
      exact hdrawn.setFld (f := F.PO_EDGECNT_TRANSITIONS r.target) (by simp) _
    have hstat : R.ASY_STAT ∉ [R.PO_EDGECNT r.target] := by simpa using hcount.symm
    refine ⟨((hpulses _ _).fld hstat).trans hdist, ((hpulses _ _).fld hstat).trans hatt, hregs.trans ((hpulses _ _).mono (by simp [spoiltRegs])), rfl, rfl, rfl⟩
  · exact ⟨hdist, hatt, hregs, rfl, rfl, rfl⟩

/-- What a procedure leaves whose attempt was disturbed. -/
structure Dev.Disturbed (d e : Dev) (r : AsyRun) : Prop where
  retried : r.attempts ≤ d.fld F.ASY_CTRL_RETRY →
    e.asy.run = some { r with retryBn := some (d.now + d.fld F.ASY_CTRL_BACKOFF) } ∧ e.fld F.ASY_STAT_RESULT = 0x8001
  ended : d.fld F.ASY_CTRL_RETRY < r.attempts → e.asy.run = none ∧ e.fld F.ASY_STAT_RESULT = 0x8002 ∧ bitOf (e.reg R.HST_ISR0) 23 = true
  coef : e.asy.coef = d.asy.coef
  due : e.asy.applyDue = none
  jobs : e.jobs = d.jobs
  attempts : e.fld F.ASY_STAT_ATTEMPTS = d.fld F.ASY_STAT_ATTEMPTS

theorem asyCtrl_notMem_spoiltRegs (n : Nat) : R.ASY_CTRL ∉ spoiltRegs n := by
  simp only [spoiltRegs, R.ASY_CTRL, R.ASY_STAT, R.ASY_DISTCNT, R.PO_EDGECNT, List.mem_cons, List.not_mem_nil, or_false]
  omega

theorem Dev.asyDisturb_disturbs {d : Dev} {r : AsyRun} (h : d.asy.run = some r) (hr : r.retryBn = none) : d.Disturbed d.asyDisturb r := by
  have hspoilt := d.attemptDropped_spoilt r
  rw [Dev.asyDisturb_of_run h hr]
  generalize d.attemptDropped r = m at *
  have hretry : m.fld F.ASY_CTRL_RETRY = d.fld F.ASY_CTRL_RETRY := hspoilt.regs.fld (asyCtrl_notMem_spoiltRegs _)
  have hback : m.fld F.ASY_CTRL_BACKOFF = d.fld F.ASY_CTRL_BACKOFF := hspoilt.regs.fld (asyCtrl_notMem_spoiltRegs _)
  have hcoef : m.asy.coef = d.asy.coef := by rw [hspoilt.asy]
  unfold Dev.attemptRetried
  rw [hretry, hback, hspoilt.now]
  by_cases hleft : r.attempts ≤ d.fld F.ASY_CTRL_RETRY
  · rw [if_pos hleft]
    refine ⟨fun _ => ⟨rfl, hspoilt.result⟩, fun hn => absurd hleft (by omega), hcoef, ?_, hspoilt.jobs, hspoilt.attempts⟩
    exact congrArg AsySt.applyDue hspoilt.asy
  · rw [if_neg hleft]
    obtain ⟨hclosed, -, hresult, -, -, hirq⟩ := m.asyEnd_ends Rsn.asyRetryOut
    refine ⟨fun hl => absurd hl hleft, fun _ => ⟨hclosed.run, hresult, hirq⟩, hclosed.coef.trans hcoef, hclosed.due, ?_,
      (m.attempts_asyEnd _).trans hspoilt.attempts⟩
    rw [hclosed.frame]
    exact hspoilt.jobs

/-! ## Attempts that start (R821, Table ASY-2) -/

/-- What the preconditions see. -/
structure Dev.PreSeen (d e : Dev) : Prop where
  clk : e.clk = d.clk
  pwr : e.pwr = d.pwr
  doms : e.fen.doms = d.fen.doms
  boot : e.boot = d.boot
  po : e.po = d.po
  trg : e.trg = d.trg
  raw : e.asy.lastRaw = d.asy.lastRaw
  regs : d.regsBut e [R.ASY_STAT]

theorem Dev.PreSeen.asyQuiet {d e : Dev} (h : d.PreSeen e) (n b : Nat) : e.asyQuiet n b = d.asyQuiet n b := by
  unfold Dev.asyQuiet
  rw [h.raw, h.regs.fld (f := F.ASY_CTRL_GUARD) (by decide), h.regs.fld (f := F.TRG_GCFG_FMT (n / 4)) (by simp only [R.TRG_GCFG, R.ASY_STAT, List.mem_cons, List.not_mem_nil, or_false]; omega)]

theorem Dev.PreSeen.asyPre {d e : Dev} (h : d.PreSeen e) (r : AsyRun) : e.asyPre r = d.asyPre r := by
  have hlocked : e.coreLocked = d.coreLocked := by rw [Dev.coreLocked, h.clk, h.pwr, Dev.coreLocked]
  have hparked : ∀ k, e.parkedOnly k = d.parkedOnly k := fun k => by rw [Dev.parkedOnly, Dev.dom, h.doms, Dev.parkedOnly, Dev.dom]
  have hin : ∀ n, e.trgIn n = d.trgIn n := fun n => by rw [Dev.trgIn, h.trg, Dev.trgIn]
  unfold Dev.asyPre
  simp only [hlocked, hparked, hin, h.po, h.boot, h.asyQuiet, h.regs.fld (f := F.SUP_STRAP_SAFEA) (by decide)]

/-- An attempt begins. -/
def AsyRun.begun (r : AsyRun) (bn : Nat) : AsyRun := { r with attempts := r.attempts + 1, startBn := bn, retryBn := none }

/-- The attempt that begins is shown. -/
def Dev.attemptShown (d : Dev) (r : AsyRun) : Dev := { d with asy := { d.asy with run := some r } }.setFld F.ASY_STAT_ATTEMPTS r.attempts

theorem Dev.asyAttempt_of_run {d : Dev} {r : AsyRun} (h : d.asy.run = some r) : d.asyAttempt =
    if (d.attemptShown (r.begun d.now)).asyPre (r.begun d.now) then d.attemptShown (r.begun d.now) else (d.attemptShown (r.begun d.now)).asyDisturb := by
  unfold Dev.asyAttempt
  rw [h]
  rfl

theorem Dev.attemptShown_shows (d : Dev) (r : AsyRun) :
    d.PreSeen (d.attemptShown r) ∧ (d.attemptShown r).fld F.ASY_STAT_ATTEMPTS = r.attempts % 16 := by
  have hrun : d.regsBut { d with asy := { d.asy with run := some r } } [R.ASY_STAT] := .of_regs rfl _
  exact ⟨⟨rfl, rfl, rfl, rfl, rfl, rfl, rfl, hrun.setFld (f := F.ASY_STAT_ATTEMPTS) (by simp) _⟩, Dev.fld_setFld_same _ _ _ (by decide)⟩

/-- A disturbance of an attempt that is shown is one of the device. -/
theorem Dev.Disturbed.of_shown {d e : Dev} {r : AsyRun} (h : (d.attemptShown r).Disturbed e r) :
    (r.attempts ≤ d.fld F.ASY_CTRL_RETRY →
      e.asy.run = some { r with retryBn := some (d.now + d.fld F.ASY_CTRL_BACKOFF) } ∧ e.fld F.ASY_STAT_RESULT = 0x8001) ∧
    (d.fld F.ASY_CTRL_RETRY < r.attempts → e.asy.run = none ∧ e.fld F.ASY_STAT_RESULT = 0x8002 ∧ bitOf (e.reg R.HST_ISR0) 23 = true) ∧
    e.asy.coef = d.asy.coef ∧ e.jobs = d.jobs := by
  have hshown := (d.attemptShown_shows r).1.regs
  have hretry : (d.attemptShown r).fld F.ASY_CTRL_RETRY = d.fld F.ASY_CTRL_RETRY := hshown.fld (by decide)
  have hback : (d.attemptShown r).fld F.ASY_CTRL_BACKOFF = d.fld F.ASY_CTRL_BACKOFF := hshown.fld (by decide)
  have hretried := h.retried
  have hended := h.ended
  rw [hretry] at hretried hended
  rw [hback] at hretried
  exact ⟨hretried, hended, h.coef, h.jobs⟩

/-! ### The meanings -/

section
variable {s : State}

theorem exec_assay_idle (h : s.dev.asy.run = none) :
    exec .assayAttemptStart s = .next s ∧ exec .assayDisturbed s = .next s ∧ ∀ i, exec (.assayPostcheck i) s = .next s := by
  refine ⟨?_, ?_, fun i => ?_⟩
  · refine congrArg (fun d : Dev => Host.Outcome.next { s with dev := d }) ?_
    dsimp only
    rw [h]
  · refine congrArg (fun d : Dev => Host.Outcome.next { s with dev := d }) ?_
    exact Dev.asyDisturb_of_waiting fun r hr => by rw [h] at hr; exact absurd hr (by simp)
  · refine congrArg (fun d : Dev => Host.Outcome.next { s with dev := d }) ?_
    dsimp only
    rw [h]

variable {r : AsyRun} (h : s.dev.asy.run = some r)
include h

theorem exec_assayAttemptStart {b : Nat} (hb : r.retryBn = some b) :
    exec .assayAttemptStart s = .next { s with dev := if b ≤ s.dev.now then s.dev.asyAttempt else s.dev } := by
  refine congrArg (fun d : Dev => Host.Outcome.next { s with dev := d }) ?_
  dsimp only
  rw [h]
  dsimp only
  rw [hb]

theorem exec_assayAttemptStart_running (hb : r.retryBn = none) : exec .assayAttemptStart s = .next s := by
  refine congrArg (fun d : Dev => Host.Outcome.next { s with dev := d }) ?_
  dsimp only
  rw [h]
  dsimp only
  rw [hb]

theorem exec_assay_waiting {b : Nat} (hb : r.retryBn = some b) :
    exec .assayDisturbed s = .next s ∧ ∀ i, exec (.assayPostcheck i) s = .next s := by
  refine ⟨?_, fun i => ?_⟩
  · refine congrArg (fun d : Dev => Host.Outcome.next { s with dev := d }) ?_
    exact Dev.asyDisturb_of_waiting fun x hx => by rw [h] at hx; cases hx; simp [hb]
  · refine congrArg (fun d : Dev => Host.Outcome.next { s with dev := d }) ?_
    dsimp only
    rw [h]
    exact if_pos (by simp [hb])

end

end Sys2Proof.Machine
end

section

/-!
PROOF. The ends of assay attempts, automatic calibration, drift corrections, and the retries of RSKEW (17_assay.md R824, R825, R828, R833,
R836 to R839, R848).
-/

namespace Sys2Proof.Machine
open Sys2Proof

/-! ## The end of an attempt (R821 to R825, R833) -/

/-- A result out of range marks the lines of its procedure. -/
def Dev.linesMarked (d : Dev) (r : AsyRun) : Dev := { d with asy := { d.asy with range := d.asy.range.filter (fun l => !r.lines.contains l) ++ r.lines } }

/-- The sets of a good result wait for the next Edge phase. -/
def Dev.setsKept (d : Dev) (r : AsyRun) (i : AssayIn) : Dev :=
  { d with asy := { d.asy with applyDue := some (if r.proc = 3 then [] else (i.sets.map (fun x => (x.1.val, x.2))).filter (fun x => r.lines.contains x.1), i.offset) } }

/-- The pulses of a whole XLOOP. -/
def Dev.pulsesCounted (d : Dev) (r : AsyRun) : Dev := if r.proc = 3 then d.loopPulses r.target 512 else d

/-- The corrections that a post-check brings, by position. -/
def assaySkews (i : AssayIn) : List (Nat × Int × Int) := i.skews.map (fun x => (x.1.val, x.2))

theorem exec_assayPostcheck_early {s : State} {r : AsyRun} (h : s.dev.asy.run = some r) (i : AssayIn)
    (hn : s.dev.now + 1 < r.startBn + s.dev.asyBeats r) : exec (.assayPostcheck i) s = .next s := by
  refine congrArg (fun d : Dev => Host.Outcome.next { s with dev := d }) ?_
  dsimp only
  rw [h]
  exact if_pos (by simp [hn])

theorem postcheck_over {s : State} {r : AsyRun} (hb : r.retryBn = none) (hdue : s.dev.asy.applyDue = none)
    (hn : r.startBn + s.dev.asyBeats r ≤ s.dev.now + 1) :
    ¬ (r.retryBn.isSome || decide (s.dev.now + 1 < r.startBn + s.dev.asyBeats r) || s.dev.asy.applyDue.isSome) = true := by
  rw [hb, hdue]
  simp [hn]

section
variable {s : State} {r : AsyRun} (h : s.dev.asy.run = some r) (hb : r.retryBn = none) (hdue : s.dev.asy.applyDue = none) (i : AssayIn)
  (hn : r.startBn + s.dev.asyBeats r ≤ s.dev.now + 1)
include h hb hdue hn

theorem exec_assayPostcheck_disturbed (hq : s.dev.asyPre r = false ∨ i.quiet = false) :
    exec (.assayPostcheck i) s = .next { s with dev := s.dev.asyDisturb } := by
  refine congrArg (fun d : Dev => Host.Outcome.next { s with dev := d }) ?_
  dsimp only
  rw [h]
  exact (if_neg (postcheck_over hb hdue hn)).trans (if_pos (by obtain hq | hq := hq <;> simp [hq]))

section
variable (hp : s.dev.asyPre r = true) (hq : i.quiet = true)
include hp hq

theorem exec_assayPostcheck_range (hr : i.inRange = false) :
    exec (.assayPostcheck i) s = .next { s with dev := (s.dev.linesMarked r).asyEnd Rsn.asyRange } := by
  refine congrArg (fun d : Dev => Host.Outcome.next { s with dev := d }) ?_
  dsimp only
  rw [h]
  refine (if_neg (postcheck_over hb hdue hn)).trans ?_
  refine (if_neg (by simp [hp, hq])).trans ?_
  refine (if_pos (by simp [hr])).trans ?_
  unfold Dev.linesMarked
  dsimp only
  rw [h]

variable (hr : i.inRange = true)
include hr

theorem exec_assayPostcheck_skew (h4 : r.proc = 4) :
    exec (.assayPostcheck i) s = .next { s with dev := (s.dev.skewApply r.target (assaySkews i)).asyEnd Rsn.ok } := by
  refine congrArg (fun d : Dev => Host.Outcome.next { s with dev := d }) ?_
  dsimp only
  rw [h]
  refine (if_neg (postcheck_over hb hdue hn)).trans ?_
  refine (if_neg (by simp [hp, hq])).trans ?_
  exact (if_neg (by simp [hr])).trans (if_pos h4)

theorem exec_assayPostcheck_sets (h4 : r.proc ≠ 4) :
    exec (.assayPostcheck i) s = .next { s with dev := (s.dev.pulsesCounted r).setsKept r i } := by
  refine congrArg (fun d : Dev => Host.Outcome.next { s with dev := d }) ?_
  dsimp only
  rw [h]
  refine (if_neg (postcheck_over hb hdue hn)).trans ?_
  refine (if_neg (by simp [hp, hq])).trans ?_
  exact (if_neg (by simp [hr])).trans (if_neg h4)

end

end

/-! ### What a good RSKEW leaves (R832 to R834) -/

theorem Dev.skewApply_shows (d : Dev) (scope : Nat) (l : List (Nat × Int × Int)) :
    (d.skewApply scope l).jobs = d.jobs ∧ (d.skewApply scope l).asy.coef = d.asy.coef ∧
    (d.skewApply scope l).wr.offPend.map (fun x => x.1) = some (d.now + d.lat + 8) := by
  have hput : ∀ (e : Dev) (p k : Nat) (ws : List Word), (e.bulkPut p k ws).wr.offPend = e.wr.offPend := fun e p k ws => by
    unfold Dev.bulkPut
    split
    · rfl
    · split <;> rfl
  unfold Dev.skewApply
  dsimp only
  rw [hput]
  exact ⟨by simp, by simp, rfl⟩

theorem Dev.pulsesCounted_shows (d : Dev) (r : AsyRun) : (d.pulsesCounted r).asy = d.asy ∧ (d.pulsesCounted r).jobs = d.jobs := by
  unfold Dev.pulsesCounted
  split
  · exact ⟨rfl, rfl⟩
  · exact ⟨rfl, rfl⟩

/-! ## Drift corrections (R837, R839, R848) -/

/-- A correction within a tenth is put in force. -/
def Dev.driftWithin (d : Dev) (c : Nat) (v : Int) : Dev :=
  ((d.setFld (F.ASY_DRIFT_SCALE c) (unsigned 16 v)).setFld (F.ASY_DRIFT_DIE c) (d.fld F.ASY_TEMP_DIE)).setFlag (F.ASY_DRIFT_RANGE c) false

/-- A correction beyond it is shown. -/
def Dev.driftShown (d : Dev) (c : Nat) : Dev := (d.setFlag (F.ASY_DRIFT_RANGE c) true).asyResult Rsn.asyRange

/-- The lines of a cluster are out of range. -/
def Dev.clusterMarked (d : Dev) (c : Nat) : Dev := { d with asy := { d.asy with range := (d.asy.range ++ linesOf c).eraseDups } }

theorem Dev.regs_clusterMarked (d : Dev) (c : Nat) : (d.clusterMarked c).regs = d.regs := rfl

/-- The correction of one cluster. -/
def Dev.driftStep (corr : List Int) (d : Dev) (c : Nat) : Dev :=
  if mget 0 d.asy.baseBn c = d.now + 1 then d
  else if (corr.getD c 0).natAbs * 10 ≤ 65536 then d.driftWithin c (corr.getD c 0)
  else (d.driftShown c).clusterMarked c

/-- A measured drift is counted anew. -/
def Dev.driftTaken (d : Dev) : Dev := { d with asy := { d.asy with driftN := 0 } }

theorem exec_driftApply {s : State} (corr : List Int) : exec (.driftApply corr) s = .next { s with dev :=
    if s.dev.asy.driftN < 1024 then s.dev else ((List.range 8).foldl (Dev.driftStep corr) s.dev.driftTaken).asyShow } := rfl

/-- What the corrections of other clusters leave of cluster `c`. -/
structure Dev.DriftKept (c : Nat) (d e : Dev) : Prop where
  base : e.asy.baseBn = d.asy.baseBn
  coef : e.asy.coef = d.asy.coef
  count : e.asy.driftN = d.asy.driftN
  t : e.t = d.t
  range : ∀ l ∈ d.asy.range, l ∈ e.asy.range
  reg : e.reg (R.ASY_DRIFT c) = d.reg (R.ASY_DRIFT c)

namespace Dev.DriftKept
variable {c : Nat} {d e f : Dev}

theorem refl (d : Dev) : DriftKept c d d := ⟨rfl, rfl, rfl, rfl, fun _ h => h, rfl⟩

theorem trans (h : DriftKept c d e) (h' : DriftKept c e f) : DriftKept c d f :=
  ⟨h'.base.trans h.base, h'.coef.trans h.coef, h'.count.trans h.count, h'.t.trans h.t, fun l hl => h'.range l (h.range l hl), h'.reg.trans h.reg⟩

theorem now (h : DriftKept c d e) : e.now = d.now := by unfold Dev.now; rw [h.t]

theorem fld (h : DriftKept c d e) {g : Fld} (hg : g.a = R.ASY_DRIFT c) : e.fld g = d.fld g := by rw [Dev.fld, Dev.fld, hg, h.reg]

theorem flag (h : DriftKept c d e) {g : Fld} (hg : g.a = R.ASY_DRIFT c) : e.flag g = d.flag g := by rw [Dev.flag, Dev.flag, h.fld hg]

end Dev.DriftKept

section
variable {c n : Nat} (hc : c < 8) (hn : n < 8) (hne : c ≠ n) (d : Dev)

theorem Dev.driftKept_clusterMarked : DriftKept c d (d.clusterMarked n) :=
  ⟨rfl, rfl, rfl, rfl, fun _ hl => List.mem_eraseDups.2 (List.mem_append_left _ hl), rfl⟩

include hc hn hne

theorem Dev.driftKept_setFld {g : Fld} (hg : g.a = R.ASY_DRIFT n ∨ g.a = R.ASY_STAT) (v : Nat) : DriftKept c d (d.setFld g v) := by
  have hreg : R.ASY_DRIFT c ≠ R.ASY_DRIFT n := by simp only [R.ASY_DRIFT]; omega
  have hstat : R.ASY_DRIFT c ≠ R.ASY_STAT := by simp only [R.ASY_DRIFT, R.ASY_STAT]; omega
  refine ⟨rfl, rfl, rfl, rfl, fun _ h => h, Dev.reg_setFld_ne d g v _ ?_⟩
  obtain hg | hg := hg
  · rw [hg]
    exact hreg
  · rw [hg]
    exact hstat

theorem Dev.driftKept_driftWithin (v : Int) : DriftKept c d (d.driftWithin n v) :=
  ((d.driftKept_setFld hc hn hne (g := F.ASY_DRIFT_SCALE n) (.inl rfl) _).trans
    (Dev.driftKept_setFld hc hn hne _ (g := F.ASY_DRIFT_DIE n) (.inl rfl) _)).trans
    (Dev.driftKept_setFld hc hn hne _ (g := F.ASY_DRIFT_RANGE n) (.inl rfl) 0)

theorem Dev.driftKept_driftShown : DriftKept c d (d.driftShown n) :=
  (d.driftKept_setFld hc hn hne (g := F.ASY_DRIFT_RANGE n) (.inl rfl) 1).trans
    (Dev.driftKept_setFld hc hn hne _ (g := F.ASY_STAT_RESULT) (.inr rfl) _)

theorem Dev.driftStep_keeps (corr : List Int) : DriftKept c d (d.driftStep corr n) := by
  unfold Dev.driftStep
  split
  · exact .refl d
  split
  · exact d.driftKept_driftWithin hc hn hne _
  · exact (d.driftKept_driftShown hc hn hne).trans (Dev.driftKept_clusterMarked _)

end

theorem Dev.driftSteps_keep (corr : List Int) {c : Nat} (hc : c < 8) (l : List Nat) :
    (∀ n ∈ l, n < 8 ∧ c ≠ n) → ∀ d : Dev, DriftKept c d (l.foldl (Dev.driftStep corr) d) := by
  induction l with
  | nil => exact fun _ d => .refl d
  | cons n l ih =>
    intro h d
    obtain ⟨hn, hne⟩ := h n (by simp)
    exact (d.driftStep_keeps hc hn hne corr).trans (ih (fun m hm => h m (List.mem_cons_of_mem _ hm)) _)

/-- The correction of a cluster whose baseline stands. -/
structure Dev.DriftDone (corr : List Int) (c : Nat) (d e : Dev) : Prop where
  within : (corr.getD c 0).natAbs * 10 ≤ 65536 →
    e.fld (F.ASY_DRIFT_SCALE c) = unsigned 16 (corr.getD c 0) ∧ e.flag (F.ASY_DRIFT_RANGE c) = false
  beyond : 65536 < (corr.getD c 0).natAbs * 10 →
    e.fld (F.ASY_DRIFT_SCALE c) = d.fld (F.ASY_DRIFT_SCALE c) ∧ e.flag (F.ASY_DRIFT_RANGE c) = true ∧ ∀ l ∈ linesOf c, l ∈ e.asy.range

theorem Dev.driftWithin_shows (d : Dev) (c : Nat) (v : Int) :
    (d.driftWithin c v).fld (F.ASY_DRIFT_SCALE c) = unsigned 16 v ∧ (d.driftWithin c v).flag (F.ASY_DRIFT_RANGE c) = false := by
  refine ⟨?_, Dev.flag_setFlag_same _ _ _ (show 24 < 32 by decide) rfl⟩
  rw [Dev.driftWithin, Dev.fld_setFlag_ne _ _ _ _ (show 15 < 32 by decide) (.inr (.inl (show 15 < 24 by decide))),
    Dev.fld_setFld_ne _ _ _ _ (show 15 < 32 by decide) (.inr (.inl (show 15 < 16 by decide)))]
  exact Dev.fld_setFld_of_lt d (show 15 < 32 by decide) (unsigned_lt _ _)

theorem Dev.driftShown_shows (d : Dev) (c : Nat) :
    (d.driftShown c).fld (F.ASY_DRIFT_SCALE c) = d.fld (F.ASY_DRIFT_SCALE c) ∧ (d.driftShown c).flag (F.ASY_DRIFT_RANGE c) = true := by
  have hstat : R.ASY_DRIFT c ≠ R.ASY_STAT := by simp only [R.ASY_DRIFT, R.ASY_STAT]; omega
  refine ⟨?_, ?_⟩
  · rw [Dev.driftShown, Dev.asyResult, Dev.fld_setFld_ne _ _ (F.ASY_DRIFT_SCALE c) _ (show 15 < 32 by decide) (.inl hstat)]
    exact Dev.fld_setFlag_ne d _ _ _ (show 15 < 32 by decide) (.inr (.inl (show 15 < 24 by decide)))
  · rw [Dev.driftShown, Dev.asyResult, Dev.flag_setFld_ne _ _ (F.ASY_DRIFT_RANGE c) _ (show 24 < 32 by decide) (.inl hstat)]
    exact Dev.flag_setFlag_same d _ _ (show 24 < 32 by decide) rfl

theorem Dev.driftStep_done (corr : List Int) {c : Nat} {d : Dev} (hbase : mget 0 d.asy.baseBn c ≠ d.now + 1) : DriftDone corr c d (d.driftStep corr c) := by
  unfold Dev.driftStep
  rw [if_neg hbase]
  split
  case isTrue hv => exact ⟨fun _ => d.driftWithin_shows c _, fun h => absurd hv (by omega)⟩
  case isFalse hv =>
    obtain ⟨hscale, hrange⟩ := d.driftShown_shows c
    have hregs := (d.driftShown c).regs_clusterMarked c
    exact ⟨fun h => absurd h hv, fun _ => ⟨(Dev.fld_congr hregs _).trans hscale, (Dev.flag_congr hregs _).trans hrange, fun l hl => List.mem_eraseDups.2 (List.mem_append_right _ hl)⟩⟩

theorem Dev.driftKept_asyShow {c : Nat} (d : Dev) : DriftKept c d d.asyShow := by
  have hframe := d.asyShow_frame
  have hreg := d.regsBut_asyShow (R.ASY_DRIFT c) (by simp only [R.ASY_DRIFT, R.ASY_STAT, List.mem_cons, List.not_mem_nil, or_false]; omega)
  refine ⟨?_, ?_, ?_, ?_, fun l hl => ?_, hreg⟩ <;> rw [hframe]
  exact hl

/-- Every cluster is corrected once. -/
theorem Dev.driftDone_all (corr : List Int) {c : Nat} (hc : c < 8) {d : Dev} (hbase : mget 0 d.asy.baseBn c ≠ d.now + 1) :
    DriftDone corr c d ((List.range 8).foldl (Dev.driftStep corr) d).asyShow := by
  obtain ⟨l₁, l₂, hl⟩ := List.append_of_mem (List.mem_range.2 hc)
  have hlt : ∀ n ∈ l₁ ++ c :: l₂, n < 8 := fun n hn => List.mem_range.1 (hl ▸ hn)
  have hnodup : (l₁ ++ c :: l₂).Nodup := hl ▸ List.nodup_range
  have hnot : c ∉ l₁ ++ l₂ := by simpa using (List.nodup_middle.1 hnodup).notMem
  have hbefore := Dev.driftSteps_keep corr hc l₁ (fun n hn => ⟨hlt n (by simp [hn]), fun he => hnot (by simp [he, hn])⟩) d
  rw [hl, List.foldl_append, List.foldl_cons]
  generalize l₁.foldl (Dev.driftStep corr) d = a at *
  have hdone := Dev.driftStep_done corr (c := c) (d := a) (by rw [hbefore.base, hbefore.now]; exact hbase)
  have hafter := (Dev.driftSteps_keep corr hc l₂ (fun n hn => ⟨hlt n (by simp [hn]), fun he => hnot (by simp [he, hn])⟩) (a.driftStep corr c)).trans
    (Dev.driftKept_asyShow _)
  generalize (l₂.foldl (Dev.driftStep corr) (a.driftStep corr c)).asyShow = e at *
  refine ⟨fun hv => ?_, fun hv => ?_⟩
  · obtain ⟨hscale, hrange⟩ := hdone.within hv
    exact ⟨(hafter.fld rfl).trans hscale, (hafter.flag rfl).trans hrange⟩
  · obtain ⟨hscale, hrange, hlines⟩ := hdone.beyond hv
    exact ⟨(hafter.fld rfl).trans (hscale.trans (hbefore.fld rfl)), (hafter.flag rfl).trans hrange, fun l hl => hafter.range l (hlines l hl)⟩

/-! ## RSKEW tried again (R836) -/

/-- The scope of the positions that wait. -/
def scopeOf (l : List Nat) : Nat := l.foldl (fun m p => m ||| 2 ^ p) 0

theorem testBit_foldl_or (l : List Nat) : ∀ m p : Nat, (m.testBit p = true ∨ p ∈ l) → (l.foldl (fun m p => m ||| 2 ^ p) m).testBit p = true := by
  induction l with
  | nil => exact fun m p h => by simpa using h
  | cons q l ih =>
    intro m p h
    refine ih _ _ ?_
    obtain h | h := h
    · exact .inl (by simp [Nat.testBit_or, h])
    obtain rfl | h := List.mem_cons.1 h
    · exact .inl (by simp [Nat.testBit_or])
    · exact .inr h

/-- A new series for the positions that wait. -/
def Dev.rskewAgain (d : Dev) : Dev := (d.setFlag F.ASY_STAT_RSKEW_PEND true).asyStart 4 (scopeOf d.asy.rskewPend) 0 true

theorem exec_rskewRetry {s : State} (hp : s.dev.asy.rskewPend ≠ []) (hdue : s.dev.asy.rskewDue ≤ s.dev.now) (hm : s.dev.boot.role = .manager)
    (hr : s.dev.asy.run = none) : exec .rskewRetry s = .next { s with dev := s.dev.rskewAgain } := by
  refine congrArg (fun d : Dev => Host.Outcome.next { s with dev := d }) ?_
  exact (if_neg (by simp [hp, hdue])).trans (if_pos (by simp [hm, hr]))

theorem exec_rskewRetry_idle {s : State} (h : s.dev.asy.rskewPend = [] ∨ s.dev.now < s.dev.asy.rskewDue ∨ s.dev.boot.role ≠ .manager ∨ s.dev.asy.run ≠ none) :
    exec .rskewRetry s = .next s := by
  refine congrArg (fun d : Dev => Host.Outcome.next { s with dev := d }) ?_
  by_cases hw : (s.dev.asy.rskewPend.isEmpty || decide (s.dev.now < s.dev.asy.rskewDue)) = true
  · exact if_pos hw
  · refine (if_neg hw).trans (if_neg ?_)
    obtain h | h | h | h := h
    · simp [h] at hw
    · simp [h] at hw
    · simp [h]
    · simp [h]

theorem Dev.driftSteps_count (corr : List Int) (d : Dev) :
    ((List.range 8).foldl (Dev.driftStep corr) d).asy.driftN = d.asy.driftN ∧ ((List.range 8).foldl (Dev.driftStep corr) d).asy.coef = d.asy.coef := by
  have hstep : ∀ (e : Dev) (n : Nat), (e.driftStep corr n).asy.driftN = e.asy.driftN ∧ (e.driftStep corr n).asy.coef = e.asy.coef := fun e n => by
    unfold Dev.driftStep
    split
    · exact ⟨rfl, rfl⟩
    · split <;> exact ⟨rfl, rfl⟩
  exact ⟨foldl_keeps _ (fun d : Dev => d.asy.driftN) (fun e n => (hstep e n).1) _ d, foldl_keeps _ (fun d : Dev => d.asy.coef) (fun e n => (hstep e n).2) _ d⟩

/-! ## The obligation -/

/-- ABORT, at a procedure that runs or at none. -/
theorem asyCmdAbort_ends {s : State} {p : Port} (hg : s.dev.gate p R.ASY_CMD = .pass) :
    (s.dev.asy.run = none → exec (.asyCmdAbort p) s = .next s) ∧
    (s.dev.asy.run ≠ none → ∃ t, exec (.asyCmdAbort p) s = .next t ∧ t.dev.asy.run = none ∧ t.dev.fld F.ASY_STAT_RESULT = 0x8001 ∧
      t.dev.flag F.ASY_STAT_BUSY = false ∧ bitOf (t.dev.reg R.HST_ISR0) 23 = true ∧ s.dev.regsBut t.dev (R.ASY_STAT :: irqRegs)) := by
  have hexec := exec_asyCmdAbort hg
  refine ⟨fun h => ?_, fun h => ?_⟩
  · rw [Dev.asyAbandon, if_neg (by simp [h])] at hexec
    exact hexec
  · rw [Dev.asyAbandon, if_pos (Option.isSome_iff_ne_none.2 h)] at hexec
    obtain ⟨hclosed, hregs, hresult, hbusy, -, hirq⟩ := s.dev.asyEnd_ends Rsn.asyDisturbed
    exact ⟨_, hexec, hclosed.run, hresult, hbusy, hirq, hregs⟩

/-- An attempt that falls due starts, or is disturbed at once. -/
theorem assayAttemptStart_starts {s : State} {r : AsyRun} (h : s.dev.asy.run = some r) {b : Nat} (hb : r.retryBn = some b) (hn : b ≤ s.dev.now) :
    ∃ t, exec .assayAttemptStart s = .next t ∧ t.dev.fld F.ASY_STAT_ATTEMPTS = (r.attempts + 1) % 16 ∧
      (s.dev.asyPre (r.begun s.dev.now) = true → t.dev.asy.run = some (r.begun s.dev.now) ∧ s.dev.regsBut t.dev [R.ASY_STAT]) ∧
      (s.dev.asyPre (r.begun s.dev.now) = false → (s.dev.attemptShown (r.begun s.dev.now)).Disturbed t.dev (r.begun s.dev.now)) := by
  obtain ⟨hseen, hatt⟩ := s.dev.attemptShown_shows (r.begun s.dev.now)
  have hexec := exec_assayAttemptStart h hb
  rw [if_pos hn, Dev.asyAttempt_of_run h, hseen.asyPre] at hexec
  have hdist := Dev.asyDisturb_disturbs (d := s.dev.attemptShown (r.begun s.dev.now)) (r := r.begun s.dev.now) rfl rfl
  cases hp : s.dev.asyPre (r.begun s.dev.now) with
  | true =>
    rw [hp, if_pos rfl] at hexec
    exact ⟨_, hexec, hatt, fun _ => ⟨rfl, hseen.regs⟩, fun hf => absurd hf (by decide)⟩
  | false =>
    rw [hp, if_neg (by decide)] at hexec
    exact ⟨_, hexec, hdist.attempts.trans hatt, fun hf => absurd hf (by decide), fun _ => hdist⟩

/-- The end of an attempt, by what its post-check finds. -/
theorem assayPostcheck_ends {s : State} {r : AsyRun} (h : s.dev.asy.run = some r) (hb : r.retryBn = none) (hdue : s.dev.asy.applyDue = none) (i : AssayIn)
    (hn : r.startBn + s.dev.asyBeats r ≤ s.dev.now + 1) :
    ∃ t, exec (.assayPostcheck i) s = .next t ∧ t.dev.asy.coef = s.dev.asy.coef ∧ t.dev.jobs = s.dev.jobs ∧
      (s.dev.asyPre r = false ∨ i.quiet = false → t.dev.asy.applyDue = none ∧
        t.dev.fld F.ASY_STAT_RESULT = (if r.attempts ≤ s.dev.fld F.ASY_CTRL_RETRY then 0x8001 else 0x8002)) ∧
      (s.dev.asyPre r = true → i.quiet = true → i.inRange = false → t.dev.asy.run = none ∧ t.dev.fld F.ASY_STAT_RESULT = 0x8003 ∧
        (∀ l ∈ r.lines, l ∈ t.dev.asy.range) ∧ t.dev.flag F.ASY_STAT_RANGE_HELD = !(t.dev.asy.range.isEmpty)) ∧
      (s.dev.asyPre r = true → i.quiet = true → i.inRange = true → r.proc ≠ 4 → t.dev.asy.run = some r ∧ t.dev.asy.applyDue =
        some (if r.proc = 3 then [] else (i.sets.map (fun x => (x.1.val, x.2))).filter (fun x => r.lines.contains x.1), i.offset)) ∧
      (s.dev.asyPre r = true → i.quiet = true → i.inRange = true → r.proc = 4 → t.dev.asy.run = none ∧ t.dev.fld F.ASY_STAT_RESULT = 0 ∧
        t.dev.wr.offPend.map (fun x => x.1) = some (s.dev.now + s.dev.lat + 8)) := by
  by_cases hq : s.dev.asyPre r = false ∨ i.quiet = false
  · have hdist := Dev.asyDisturb_disturbs h hb
    refine ⟨_, exec_assayPostcheck_disturbed h hb hdue i hn hq, hdist.coef, hdist.jobs, fun _ => ⟨hdist.due, ?_⟩, fun hp hqt => ?_, fun hp hqt => ?_, fun hp hqt => ?_⟩
    · split
      case isTrue hl => exact (hdist.retried hl).2
      case isFalse hl => exact (hdist.ended (by omega)).2.1
    all_goals simp [hp, hqt] at hq
  have hp : s.dev.asyPre r = true := by simpa using fun hf => hq (.inl hf)
  have hqt : i.quiet = true := by simpa using fun hf => hq (.inr hf)
  cases hr : i.inRange with
  | false =>
    obtain ⟨hclosed, -, hresult, -, hheld, -⟩ := (s.dev.linesMarked r).asyEnd_ends Rsn.asyRange
    refine ⟨_, exec_assayPostcheck_range h hb hdue i hn hp hqt hr, hclosed.coef, ?_, fun hf => absurd hf hq, fun _ _ _ => ⟨hclosed.run, hresult, fun l hl => ?_, hheld⟩,
      fun _ _ hf => absurd hf (by decide), fun _ _ hf => absurd hf (by decide)⟩
    · rw [hclosed.frame]
      rfl
    · rw [hclosed.range]
      exact List.mem_append_right _ hl
  | true =>
    by_cases h4 : r.proc = 4
    · obtain ⟨hjobs, hcoef, hpend⟩ := s.dev.skewApply_shows r.target (assaySkews i)
      obtain ⟨hclosed, -, hresult, -, -, -⟩ := (s.dev.skewApply r.target (assaySkews i)).asyEnd_ends Rsn.ok
      refine ⟨_, exec_assayPostcheck_skew h hb hdue i hn hp hqt hr h4, hclosed.coef.trans hcoef, ?_, fun hf => absurd hf hq, fun _ _ hf => absurd hf (by decide),
        fun _ _ _ hf => absurd h4 hf, fun _ _ _ _ => ⟨hclosed.run, hresult, ?_⟩⟩
      · rw [hclosed.frame]
        exact hjobs
      · rw [hclosed.frame]
        exact hpend
    · obtain ⟨hasy, hjobs⟩ := s.dev.pulsesCounted_shows r
      refine ⟨_, exec_assayPostcheck_sets h hb hdue i hn hp hqt hr h4, ?_, hjobs, fun hf => absurd hf hq, fun _ _ hf => absurd hf (by decide),
        fun _ _ _ _ => ⟨?_, rfl⟩, fun _ _ _ hf => absurd hf h4⟩
      · change (s.dev.pulsesCounted r).asy.coef = s.dev.asy.coef
        rw [hasy]
      · change (s.dev.pulsesCounted r).asy.run = some r
        rw [hasy, h]

/-- The drift corrections of 1 024 measurements. -/
theorem driftApply_corrects {s : State} (corr : List Int) (hn : 1024 ≤ s.dev.asy.driftN) :
    ∃ t, exec (.driftApply corr) s = .next t ∧ t.dev.asy.driftN = 0 ∧ t.dev.asy.coef = s.dev.asy.coef ∧
      ∀ c < 8, mget 0 s.dev.asy.baseBn c ≠ s.dev.now + 1 →
        ((corr.getD c 0).natAbs * 10 ≤ 65536 → t.dev.fld (F.ASY_DRIFT_SCALE c) = unsigned 16 (corr.getD c 0) ∧
          t.dev.flag (F.ASY_DRIFT_RANGE c) = false) ∧
        (65536 < (corr.getD c 0).natAbs * 10 → t.dev.fld (F.ASY_DRIFT_SCALE c) = s.dev.fld (F.ASY_DRIFT_SCALE c) ∧
          t.dev.flag (F.ASY_DRIFT_RANGE c) = true ∧ ∀ l ∈ linesOf c, l ∈ t.dev.asy.range) := by
  obtain ⟨hcount, hcoef⟩ := s.dev.driftTaken.driftSteps_count corr
  have hasy : ((List.range 8).foldl (Dev.driftStep corr) s.dev.driftTaken).asyShow.asy = ((List.range 8).foldl (Dev.driftStep corr) s.dev.driftTaken).asy := by
    rw [Dev.asyShow_frame]
  have hexec := exec_driftApply (s := s) corr
  rw [if_neg (by omega)] at hexec
  have hdone : ∀ c < 8, mget 0 s.dev.asy.baseBn c ≠ s.dev.now + 1 →
      Dev.DriftDone corr c s.dev.driftTaken ((List.range 8).foldl (Dev.driftStep corr) s.dev.driftTaken).asyShow := fun c hc hbase =>
    Dev.driftDone_all corr hc (d := s.dev.driftTaken) hbase
  rw [← hasy] at hcount hcoef
  generalize ((List.range 8).foldl (Dev.driftStep corr) s.dev.driftTaken).asyShow = e at *
  exact ⟨_, hexec, hcount, hcoef, fun c hc hbase => ⟨(hdone c hc hbase).within, (hdone c hc hbase).beyond⟩⟩

/-- Settles O60: commands, attempts and their ends, automatic calibration, drift corrections and the retries of RSKEW, each by its own lemma. -/
theorem assayRunsAndApplies : Obligations.AssayRunsAndApplies := by
  refine ⟨fun s => ?_, fun s => ⟨fun r i h hb hdue => ⟨exec_assayPostcheck_early h i, assayPostcheck_ends h hb hdue i⟩, ⟨fun hn => ?_, fun hd => ?_⟩,
    fun corr => ⟨fun hn => ?_, fun hn => ?_⟩, exec_rskewRetry_idle, fun hp hdue hm hr => ?_⟩⟩
  · intro disturbed
    refine ⟨fun p g i hg => ?_, fun p hg => asyCmdAbort_ends hg, exec_assay_idle, fun r h => ⟨fun b hb => ?_, fun hb => ?_⟩⟩
    · intro cmds c hc
      simp only [cmds, List.mem_cons, List.not_mem_nil, or_false] at hc
      obtain rfl | rfl | rfl | rfl := hc
      · exact ⟨(commandAnswered_lines hg g).refused, (commandAnswered_lines hg g).admitted⟩
      · exact ⟨(commandAnswered_tdc hg g).refused, (commandAnswered_tdc hg g).admitted⟩
      · exact ⟨(commandAnswered_xloop hg g i).refused, (commandAnswered_xloop hg g i).admitted⟩
      · exact ⟨(commandAnswered_rskew hg).refused, (commandAnswered_rskew hg).admitted⟩
    · obtain ⟨hdist, hpost⟩ := exec_assay_waiting h hb
      refine ⟨hdist, hpost, fun hn => ?_, fun hn => ?_⟩
      · rw [exec_assayAttemptStart h hb, if_neg (by omega)]
      · obtain ⟨t, hexec, hatt, hgood, hbad⟩ := assayAttemptStart_starts h hb hn
        exact ⟨t, hexec, hatt, hgood, fun hp => (hbad hp).of_shown⟩
    · have hdist := Dev.asyDisturb_disturbs h hb
      exact ⟨exec_assayAttemptStart_running h hb, _, rfl, hdist.retried, hdist.ended, hdist.coef, hdist.jobs⟩
  · refine congrArg (fun d : Dev => Host.Outcome.next { s with dev := d }) ?_
    exact if_neg (by simpa using fun h1 h2 h3 => hn ⟨h1, h2, h3⟩)
  · refine congrArg (fun d : Dev => Host.Outcome.next { s with dev := d }) ?_
    exact if_pos (by simp [hd])
  · rw [exec_driftApply, if_pos hn]
  · exact driftApply_corrects corr hn
  · have hexec := exec_rskewRetry hp hdue hm hr
    obtain ⟨-, -, hpend, -, hrun, -⟩ := (s.dev.setFlag F.ASY_STAT_RSKEW_PEND true).asyStart_starts (show 4 < 8 by decide) (scopeOf s.dev.asy.rskewPend) 0 true rfl
    exact ⟨_, _, hexec, hrun, rfl, rfl, fun p hmem => testBit_foldl_or _ _ _ (.inr hmem), hpend.trans (Dev.flag_setFlag_same _ _ _ (by decide) rfl)⟩

end Sys2Proof.Machine
end
